-- ==== Sys2Proof/Word.lean ====
section
/-! DEFINITION. The word types of the part: registers are 32 bits, memory is bytes, exchange words are 64 bits
(spec 00, R4, R5). -/

namespace Sys2Proof

/-- One byte of memory. -/
abbrev Byte := BitVec 8

/-- One register (32 bits). -/
abbrev Word := BitVec 32

/-- One 64-bit word (exchange memory, Yarrow instruction, map entry). -/
abbrev DWord := BitVec 64

end Sys2Proof
end

