-- ==== Sys2Proof/Types.lean ====
section
/-! DEFINITION. The operands of the commands: what the outside of the part, or the part's own sequencers, bring to a
step (an arriving symbol, what host memory answers, what a measurement found). -/

namespace Sys2Proof

/-- Who accesses the exchange memory: port 0 is H and 1 is D; `id` is the function on port H (0 PF0, n VF n) and the
agent of Table 04-8 on port D, which acts for slice `vf` (0 none). -/
structure Req where
  port : Nat
  id : Nat
  vf : Nat
deriving DecidableEq, Repr

/-- Errors found in the words an access reaches: word address, and whether it is uncorrectable (R133). -/
abbrev Upsets := List (Nat × Bool)

/-- What a tick marker sequence carries (Table 19-4, MARKER, MARKER_TIME, MARKER_NEXT). -/
structure MarkerMsg where
  master : Nat
  hops : Nat
  holdover : Bool
  timeValid : Bool
  count : Nat
  tai : Nat
  period : Nat
  /-- NEXT_AT and NEXT_PERIOD, when a period change is pending -/
  next : Option (Nat × Nat)
  /-- OFFSET in 10 ps -/
  offset : Nat
deriving DecidableEq, Repr

/-- A flit as it is stored and sent (Tables 19-2, 19-3). -/
structure Flit where
  vc : Nat
  kind : Nat
  ring : Nat
  dst : Nat
  src : Nat
  seq : Nat
  peerVf : Nat
  cid : Nat
  payload : List Byte
deriving DecidableEq, Repr

/-- What LINK_TRAIN found on a port (R666): whether it completed in time, the mask of own lanes that hold lock, the
peer's IK_DIGEST, whether the key agreement accepted the peer's key, and the one-way delay samples in ps. -/
structure LinkResult where
  complete : Bool
  lanes : Nat
  peerDigest : List Byte
  keyOk : Bool
  samples : List Nat
deriving DecidableEq, Repr

/-- A ring descriptor or an indirect-table entry as host memory holds it: address, length, buffer ID, flags (chapter
06, "Rings"). -/
structure Desc where
  addr : Nat
  len : Nat
  id : Nat
  flags : Nat
deriving DecidableEq, Repr

/-- What host memory answers to the fetch of one chain (R224): the ring descriptors from the next available position
on, the entries of its indirect table, whether every read of these succeeded, and the bytes of its readable buffers
(none where their read failed). -/
structure ChainRead where
  ok : Bool
  ring : List Desc
  table : List Desc
  bytes : Option (List Byte)
deriving DecidableEq, Repr

/-- The driver event suppression structure as the part reads it (R231): flags 0 ENABLE, 1 DISABLE, 2 DESC, with the
descriptor offset and wrap of DESC mode. -/
structure Suppress where
  mode : Nat
  off : Nat
  wrap : Bool
deriving DecidableEq, Repr

/-- What the part measured of one slice in the tick that ends (R556 to R559, R562): engine time by class, bytes moved by
path, the activities of Table 15-5, busy time, and the three interference measurements, each as its two counts. -/
structure SliceUse where
  vf : Nat
  engineNs : List Nat
  hbm : Nat
  commons : Nat
  host : Nat
  ring : Nat
  cycles : Nat
  ksteps : Nat
  engCycles : Nat
  busy : Nat
  issue : Nat × Nat
  mem : Nat × Nat
  eng : Nat × Nat
deriving DecidableEq, Repr

/-- One operation of an EC unit (Table 08-10, R328): 1 sign, 2 verify, 3 ECDH; who asked (SEC_CRYPTO_LAST.REQUESTER);
the input points, scalars and signature; and the digest. -/
structure EcInput where
  op : Nat
  requester : Nat
  points : List (Nat × Nat)
  scalars : List Nat
  sig : Option (Nat × Nat)
  digest : List Byte
deriving DecidableEq, Repr

/-- What host memory answered to a MODEL_LOAD job (R311): the header, the binding table and each chunk with its tag;
none where the read failed. -/
structure PkgRead where
  header : Option (List Byte)
  bindings : Option (List Byte)
  chunks : List (Option (List Byte))
deriving DecidableEq, Repr

/-- An item of configuration space that the spec describes (R3, R93, R106, R119, R210, R211, R213, Table 06-1, Table
08-7), and any other. -/
inductive ConfigItem where
  | vendorId | deviceId
  | totalVfs | initialVfs | firstVfOffset | vfStride | vfDeviceId | pageSizes
  | numVfs | vfEnable | vfMse | vfBar0 | vfBar2
  | busMaster | memEnable | bar0 | bar2
  | msixEnable | msixMask | msixSize
  | atsDepth | atsPageAligned | atsGlobal
  | resetTimeMs | resetTimeValid
  | noSoftReset | powerState
  | other (offset : Nat)
deriving DecidableEq, Repr

end Sys2Proof
end

