-- ==== Sys2Proof/Syntax.lean ====
section
/-! DEFINITION. The commands of the block: one constructor for each row of the command table, with what the outside of the
part, or the timing of its own sequencers, brings to it. -/

namespace Sys2Proof

/-- A command. -/
inductive Instr where
  /-- COLD_POWER_ON (R87): The input reaches 48 V after being absent or after a power-fail sequence, and the module
  samples its straps and starts the boot sequencer. -/
  | coldPowerOn (straps : Nat) (nor : Nat)
  /-- WARM_RESET_PERST (R114): PERST_N is asserted; the recorder flushes and the boot sequencer restarts, keeping the
  tick unit, calendar, recorder and NOR. -/
  | warmResetPerst (nor : Nat)
  /-- WARM_RESET_HOT (R114): A PCIe hot reset or link down causes a warm reset with saved link parameters. -/
  | warmResetHot (nor : Nat)
  /-- POWER_FAIL_DETECT (R26): PWR_FAIL_N is sampled low for 1 µs or the input is below 46 V for 2 µs; the module
  sends failure notices, drops BYP_READY, sheds power and starts the recorder flush. -/
  | powerFailDetect (source : Nat) (mv : Nat)
  /-- OVERVOLTAGE_SHUTDOWN (R21): The input stays above 58 V for 10 µs; the module removes all power and flushes the
  recorder. -/
  | overvoltageShutdown
  /-- RAIL_OVERCURRENT (R24): A rail group draws more than 125 % of its limit for 10 µs; the module removes all power,
  logs the event and stays off. -/
  | railOvercurrent (group : Nat)
  /-- POWER_RETURN_RESTART (R29): After the flush, the input has stayed within 48–56 V for 100 ms and the module
  performs a cold power-on. -/
  | powerReturnRestart (straps : Nat) (nor : Nat)
  /-- FREEZE_N_LOW (R34): A low level held on FREEZE_N for 50 ns is recognised and makes a local freeze request. -/
  | freezeNLow
  /-- SENSOR_PORT_OVERCURRENT (R48): A CSI-2 port exceeds its SENSOR_12V limit for 1 ms; its supply is switched off
  and the fault is logged. -/
  | sensorPortOvercurrent (d : Nat) (j : Nat)
  /-- CONFIG_REQUEST (R91): A PCIe configuration request is answered with Request Retry Status until step 8 ends, and
  normally after that. -/
  | configRequest (fn : Nat) (item : ConfigItem) (write : Option Nat)
  /-- BOOT_STEP_END (R90): A boot step ends when its units pass or its bound expires; outcomes are recorded and the
  next step begins. -/
  | bootStepEnd (fails : Nat) (crypto : Nat)
  /-- TICK_ACQUIRE_LISTEN_END (R52): Tick acquire stops listening, chooses its role, sources and period, and starts
  the tick. -/
  | tickAcquireListenEnd
  /-- TICK_BOUNDARY (R71): The tick count increments; reference state transitions, slot positions, markers, Campion
  tick work and converters are processed. -/
  | tickBoundary (pe : Int) (se : Int) (uses : List SliceUse) (idle : Nat) (input : Nat)
  /-- TICK_IN_EDGE (R56): A positive TICK_IN edge marks a reference instant and updates the measured interval and
  validity. -/
  | tickInEdge (width : Nat)
  /-- MARKER (R54): A tick marker sequence arrives on a port and is accepted or discarded by its master identity. -/
  | marker (p : Nat) (m : MarkerMsg)
  /-- REF_LOSS (R58): LOSS_COUNT consecutive predicted edges or markers are missing, so the reference is lost. -/
  | refLoss (w : Nat)
  /-- REF_QUALIFIED (R59): A reference has been valid without loss for TCK_HOLDOFF and becomes qualified. -/
  | refQualified (w : Nat)
  /-- PENDING_PERIOD_APPLY (R68): At the named boundary the pending tick period takes effect. -/
  | pendingPeriodApply
  /-- PENDING_TIME_APPLY (R73): At the target boundary the time written by TIME_SET or CAL_SET becomes that boundary's
  TAI time. -/
  | pendingTimeApply
  /-- UTC_OFFSET_APPLY (R82): TAI time reaches the pending instant and CAL_UTC_OFFSET takes NEXT_OFFSET. -/
  | utcOffsetApply
  /-- CAL_OUT_OF_RANGE_PASS (R85): The calendar conversion passes 2399-12-31T23:59:59 and OUT_OF_RANGE is set and
  logged. -/
  | calOutOfRangePass
  /-- TICK_NOTICE_POST (R86): The tick unit posts its pending notice on slot 1,012 when the slot is IDLE. -/
  | tickNoticePost
  /-- DELAY_MEASURE (R670): At every 1,024th boundary each link end measures its one-way delay with 16 request and
  response pairs. -/
  | delayMeasure
  /-- VF_FLR (R118): Initiate Function Level Reset in a VF resets its function state and starts the clearing of its
  slice. -/
  | vfFlr (n : Nat)
  /-- PF0_FLR (R159): A PF0 FLR resets PF0's function state and returns slot 0 to IDLE with its payload zeroed. -/
  | pf0Flr
  /-- SLICE_CLEAR_COMPLETE (R278): The clearing of a slice's commons, HBM quota and on-chip data ends. -/
  | sliceClearComplete (n : Nat)
  /-- IDLE_CLOCK_GATE (R120): A unit with no work for 64 host cycles is clock-gated; new work wakes it. -/
  | idleClockGate (u : Nat)
  /-- DOZE_ENTER (R121): At the first boundary at which the doze conditions hold, the part enters doze. -/
  | dozeEnter
  /-- DOZE_EXIT_RESUME (R124): Dispatch resumes at the first boundary at least 200 µs after a doze exit request. -/
  | dozeExitResume
  /-- PF0_D3HOT_ENTER (R125): PF0 enters D3hot and dispatch stops at the next boundary. -/
  | pf0D3hotEnter
  /-- PF0_D0_RETURN (R125): PF0 returns to D0 and dispatch resumes at a boundary at least 200 µs later. -/
  | pf0D0Return
  /-- VF_D3HOT_ENTER (R126): A VF enters D3hot and its queues stop fetching. -/
  | vfD3hotEnter (n : Nat)
  /-- VF_D0_RETURN (R126): A VF returns to D0 and fetching resumes at the next boundary. -/
  | vfD0Return (n : Nat)
  /-- EXCHANGE_READ (R141): A read of exchange memory is checked against access rules and ECC and returns data, zeros
  or poison. -/
  | exchangeRead (r : Req) (addr : Nat) (len : Nat) (ups : Upsets) (collide : Bool)
  /-- EXCHANGE_WRITE (R141): A write to exchange memory is checked against access rules and applied, merged or denied. -/
  | exchangeWrite (r : Req) (addr : Nat) (data : List Byte) (ups : Upsets) (collide : Bool)
  /-- SEMA_READ_ACQUIRE (R145): A one-word read of a SEMA word acquires it if free or returns the holder's token. -/
  | semaReadAcquire (r : Req) (addr : Nat) (other : Option Req)
  /-- SEMA_RELEASE_WRITE (R147): A write of 0 by the holder releases a semaphore word; other writes are ignored and
  counted. -/
  | semaReleaseWrite (r : Req) (addr : Nat) (value : DWord)
  /-- SWEEPER_VISIT (R149): Every 4,096 host cycles the sweeper visits every semaphore word. -/
  | sweeperVisit
  /-- SLOT_POST (R151): A producer writes POSTED to an IDLE trigger word and the consumer is notified. -/
  | slotPost (r : Req) (k : Nat) (w : DWord)
  /-- SLOT_WITHDRAW (R151): The producer writes IDLE to a POSTED trigger and the posting is withdrawn. -/
  | slotWithdraw (r : Req) (k : Nat)
  /-- SLOT_TAKE (R151): The consumer writes TAKEN to a POSTED trigger. -/
  | slotTake (r : Req) (k : Nat)
  /-- SLOT_DONE (R151): The consumer writes DONE with LEN and STATUS and the producer is notified. -/
  | slotDone (r : Req) (k : Nat) (w : DWord)
  /-- SLOT_RETURN_IDLE (R151): The producer writes IDLE to a DONE trigger and the word becomes 0. -/
  | slotReturnIdle (r : Req) (k : Nat)
  /-- MSIX_HOLDOFF_END (R156): The pacing interval of a vector ends and merged pending changes are sent as one
  message. -/
  | msixHoldoffEnd (fn : Nat) (vec : Nat)
  /-- CLR_COUNTERS (R160): A write of EXM_CTRL.CLR_COUNTERS zeroes every EXM_CNT_ register. -/
  | clrCounters (value : Word)
  /-- REGISTER_WRITE (R9): A write to a register with no row of its own acts on each field as its access code states. -/
  | registerWrite (fn : Nat) (a : Nat) (v : Word)
  /-- UNKNOWN_OPCODE (R167): A taken request whose opcode is not in Table 05-3, or whose LEN is wrong, ends with
  BAD_OPCODE or BAD_LEN. -/
  | unknownOpcode (ups : Upsets)
  /-- NOP (R182): The NOP command ends with SUCCESS. -/
  | nop (ups : Upsets)
  /-- IDENTIFY (R182): The IDENTIFY command returns the level, function, tenancy state, stepping and freeze state. -/
  | identify (ups : Upsets)
  /-- JOB_STATUS (R173): The JOB_STATUS command reports the caller's running or last ended job. -/
  | jobStatus (ups : Upsets)
  /-- TENANCY_ADMIT (R183): The TENANCY_ADMIT command draws the nonce, derives the tenancy key and moves to ADMITTING. -/
  | tenancyAdmit (ups : Upsets)
  /-- TENANCY_CLAIM (R184): The TENANCY_CLAIM command records TENANT_ID and moves to OWNED. -/
  | tenancyClaim (ups : Upsets)
  /-- TENANCY_RELEASE (R185): The TENANCY_RELEASE command moves to RELEASING, cancels pending changes and aborts jobs,
  then starts the release job. -/
  | tenancyRelease (ups : Upsets)
  /-- TENANCY_STATUS (R182): The TENANCY_STATUS command returns tenancy, model and consent state and the slice mask. -/
  | tenancyStatus (ups : Upsets)
  /-- DEBUG_CONSENT_SET (R186): The DEBUG_CONSENT_SET command sets or clears debug consent. -/
  | debugConsentSet (ups : Upsets)
  /-- SLICE_CREATE (R189): The SLICE_CREATE command is checked and accepted for a tick boundary. -/
  | sliceCreate (ups : Upsets)
  /-- SLICE_RESIZE (R190): The SLICE_RESIZE command is checked and accepted for a tick boundary. -/
  | sliceResize (ups : Upsets)
  /-- SLICE_DESTROY (R191): The SLICE_DESTROY command is accepted for a tick boundary. -/
  | sliceDestroy (ups : Upsets)
  /-- SLICE_RESET (R267): The SLICE_RESET command starts a job that stops and clears one slice's data. -/
  | sliceReset (ups : Upsets)
  /-- SLICE_BOUNDS_SET (R192): The SLICE_BOUNDS_SET command sets a VF's operator bounds at once. -/
  | sliceBoundsSet (ups : Upsets)
  /-- SLICE_STATUS (R182): The SLICE_STATUS command returns a slice's state, layout and pending tick. -/
  | sliceStatus (ups : Upsets)
  /-- SLOWDOWN_SET (R564): The SLOWDOWN_SET command sets a slice's slowdown threshold, persistence and action. -/
  | slowdownSet (ups : Upsets)
  /-- EXCHANGE_REGION_SET (R139): The EXCHANGE_REGION_SET command checks and changes a region descriptor, zeroing
  departing bytes. -/
  | exchangeRegionSet (ups : Upsets)
  /-- EXCHANGE_WINDOW_SET (R140): The EXCHANGE_WINDOW_SET command changes a VF's window base, zeroing departing bytes. -/
  | exchangeWindowSet (ups : Upsets)
  /-- MODEL_LOAD (R187): The MODEL_LOAD command starts a job that reads, checks, decrypts and places a weight package. -/
  | modelLoad (ups : Upsets)
  /-- MODEL_UNLOAD (R188): The MODEL_UNLOAD command starts a job that scrubs the resident model. -/
  | modelUnload (ups : Upsets)
  /-- SCHED_WRITE (R193): The SCHED_WRITE command checks and writes schedule entries with advanced versions and check
  bytes. -/
  | schedWrite (ups : Upsets)
  /-- SCHED_READ (R539): The SCHED_READ command copies stored schedule entries to a buffer. -/
  | schedRead (ups : Upsets)
  /-- SCHED_SWAP (R195): The SCHED_SWAP command checks the inactive bank and accepts a swap for a boundary. -/
  | schedSwap (ups : Upsets)
  /-- TICK_CONFIG (R196): The TICK_CONFIG command applies the selected tick configuration groups or rejects them all. -/
  | tickConfig (ups : Upsets)
  /-- TICK_REACQUIRE (R66): The TICK_REACQUIRE command cancels boundary-pending changes, stops the tick and runs tick
  acquire again. -/
  | tickReacquire (ups : Upsets)
  /-- TIME_SET (R198): The TIME_SET command accepts a TAI time for a target boundary on the master. -/
  | timeSet (ups : Upsets)
  /-- CAL_SET (R79): The CAL_SET command checks a civil date, converts it to TAI and accepts it for a target boundary. -/
  | calSet (ups : Upsets)
  /-- UTC_OFFSET_SET (R82): The UTC_OFFSET_SET command replaces the offset now or loads a pending change. -/
  | utcOffsetSet (ups : Upsets)
  /-- LOG_READ (R735): The LOG_READ command copies raw slots of a log or the buffer into an exchange buffer. -/
  | logRead (norOk : Bool) (ups : Upsets)
  /-- LOG_CLEAR (R200): The LOG_CLEAR command starts a job that clears the first-fault or ring log. -/
  | logClear (ups : Upsets)
  /-- NVM_READ (R201): The NVM_READ command copies NOR bytes into an exchange buffer. -/
  | nvmRead (norOk : Bool) (ups : Upsets)
  /-- NVM_WRITE (R202): The NVM_WRITE command blank-checks and programs up to one NOR page. -/
  | nvmWrite (norOk : Bool) (ups : Upsets)
  /-- NVM_ERASE (R202): The NVM_ERASE command starts a job that erases NOR sectors. -/
  | nvmErase (ups : Upsets)
  /-- FREEZE (R204): The FREEZE command freezes the part locally and, with SCOPE 1, sends freeze symbols. -/
  | freeze (ns : Nat) (ups : Upsets)
  /-- THAW (R748): The THAW command thaws the part and, with SCOPE 1, sends thaw symbols. -/
  | thaw (ups : Upsets)
  /-- OBSERVE_READ (R755): The OBSERVE_READ command copies bytes of an observer object, zeroing data-plane bytes
  without consent. -/
  | observeRead (ups : Upsets)
  /-- ATTEST (R322): The ATTEST command snapshots the measurements and writes a signed report. -/
  | attest (ups : Upsets)
  /-- ACCT_READ (R560): The ACCT_READ command writes a slice's accounting record at the last boundary. -/
  | acctRead (ups : Upsets)
  /-- FENCE_UNIT (R203): The FENCE_UNIT command clears a unit's usable bits and appends a fence entry. -/
  | fenceUnit (ups : Upsets)
  /-- UNFENCE_UNIT (R104): The UNFENCE_UNIT command appends an unfence entry that takes effect at the next start. -/
  | unfenceUnit (ups : Upsets)
  /-- POWER_STATE (R199): The POWER_STATE command requests doze or active. -/
  | powerState (ups : Upsets)
  /-- POWER_CAP_SET (R199): The POWER_CAP_SET command sets the power cap in watts. -/
  | powerCapSet (ups : Upsets)
  /-- RELEASE_JOB_END (R264): The release job ends after the scrub and the tenancy becomes UNOWNED. -/
  | releaseJobEnd
  /-- SLICE_RESET_JOB_END (R266): A slice reset job ends and the slice returns to its earlier state. -/
  | sliceResetJobEnd
  /-- MODEL_LOAD_JOB_END (R319): The MODEL_LOAD job ends with SUCCESS and records the model measurement, or fails and
  scrubs its placed bytes. -/
  | modelLoadJobEnd (r : PkgRead)
  /-- MODEL_UNLOAD_JOB_END (R188): The MODEL_UNLOAD job ends and the model state returns to none. -/
  | modelUnloadJobEnd
  /-- LOG_CLEAR_JOB_END (R737): The LOG_CLEAR job finishes erasing a log. -/
  | logClearJobEnd
  /-- NVM_ERASE_JOB_END (R202): The NVM_ERASE job finishes its sectors or reports NVM_FAIL. -/
  | nvmEraseJobEnd (done : Nat)
  /-- PENDING_LAYOUT_APPLY (R268): At the named boundary, pending slice creates, resizes and destroys are applied and
  contexts migrate. -/
  | pendingLayoutApply (cycles : Nat)
  /-- SCHED_SWAP_APPLY (R195): At the swap boundary the inactive schedule bank becomes active at position 0. -/
  | schedSwapApply
  /-- DRAIN_CLUSTER_PASS (R272): At the first boundary after a draining cluster empties, it passes to its new owner or
  becomes free. -/
  | drainClusterPass
  /-- SET_ENDPOINT_ID (R207): The MCTP Set Endpoint ID message sets the endpoint ID. -/
  | setEndpointId (m : Nat) (op : Nat) (eid : Nat)
  /-- GET_ENDPOINT_ID (R207): The MCTP Get Endpoint ID message returns the endpoint ID. -/
  | getEndpointId (m : Nat)
  /-- GET_ENDPOINT_UUID (R207): The MCTP Get Endpoint UUID message returns the UUID. -/
  | getEndpointUuid (m : Nat)
  /-- GET_MCTP_VERSION_SUPPORT (R207): The MCTP Get MCTP Version Support message returns the supported versions. -/
  | getMctpVersionSupport (m : Nat) (ty : Nat)
  /-- GET_MESSAGE_TYPE_SUPPORT (R207): The MCTP Get Message Type Support message returns the supported types. -/
  | getMessageTypeSupport (m : Nat)
  /-- SETTID (R209): The PLDM SetTID command sets the terminus ID. -/
  | settid (m : Nat) (tid : Nat)
  /-- GETTID (R207): The PLDM GetTID command returns the terminus ID. -/
  | gettid (m : Nat)
  /-- GETPLDMVERSION (R207): The PLDM GetPLDMVersion command returns the version. -/
  | getpldmversion (m : Nat) (ty : Nat)
  /-- GETPLDMTYPES (R207): The PLDM GetPLDMTypes command returns the supported types. -/
  | getpldmtypes (m : Nat)
  /-- GETPLDMCOMMANDS (R207): The PLDM GetPLDMCommands command returns the supported commands. -/
  | getpldmcommands (m : Nat) (ty : Nat)
  /-- GETSENSORREADING (R207): The PLDM GetSensorReading command returns a numeric sensor reading. -/
  | getsensorreading (m : Nat) (id : Nat)
  /-- GETSTATESENSORREADINGS (R207): The PLDM GetStateSensorReadings command returns state sensor readings. -/
  | getstatesensorreadings (m : Nat) (id : Nat)
  /-- GETPDRREPOSITORYINFO (R207): The PLDM GetPDRRepositoryInfo command returns repository information. -/
  | getpdrrepositoryinfo (m : Nat)
  /-- GETPDR (R207): The PLDM GetPDR command returns a PDR. -/
  | getpdr (m : Nat) (h : Nat)
  /-- GETFRURECORDTABLEMETADATA (R207): The PLDM GetFRURecordTableMetadata command returns FRU table metadata. -/
  | getfrurecordtablemetadata (m : Nat)
  /-- GETFRURECORDTABLE (R207): The PLDM GetFRURecordTable command returns the FRU record table. -/
  | getfrurecordtable (m : Nat)
  /-- MCTP_OTHER_MESSAGE (R207): Any other PLDM command gets ERROR_UNSUPPORTED_PLDM_CMD, another MCTP type is
  discarded, and a request on a busy medium is dropped and counted. -/
  | mctpOtherMessage (m : Nat) (type : Nat) (ty : Nat) (cmd : Nat) (busy : Bool)
  /-- QUEUE_ENABLE (R219): A write of ENABLE = 1 enables a quiesced queue if its configuration is valid, or sets
  ENABLE_REFUSED. -/
  | queueEnable (n : Nat) (q : Nat) (value : Word)
  /-- QUEUE_DISABLE (R243): A write of ENABLE = 0 stops fetching and aborts the queue's fetched commands. -/
  | queueDisable (n : Nat) (q : Nat) (value : Word)
  /-- QUIESCE_COMPLETE (R243): The queue has no fetched command outstanding; QUIESCED is set and ERROR returns to 0. -/
  | quiesceComplete (n : Nat) (q : Nat)
  /-- DOORBELL_WRITE (R223): A doorbell names the ring position just past the last available descriptor. -/
  | doorbellWrite (n : Nat) (q : Nat) (value : Word)
  /-- CHAIN_FETCH (R224): The part fetches and checks an available chain and its header, or puts the queue into error. -/
  | chainFetch (n : Nat) (q : Nat) (r : ChainRead)
  /-- COMMAND_COMPLETE (R229): A command completes; the completion record and used descriptor are written and fences
  signalled. -/
  | commandComplete (n : Nat) (q : Nat) (ix : Nat) (ok : Bool) (sup : Suppress)
  /-- QUEUE_IRQ_HOLDOFF_END (R231): A queue's HOLDOFF_US interval ends and one message covers the completions within
  it. -/
  | queueIrqHoldoffEnd (n : Nat) (q : Nat)
  /-- FENCE_STALL (R238): At a boundary, a wait with no progress for a whole tick completes its command with
  FENCE_STALL. -/
  | fenceStall (n : Nat) (q : Nat)
  /-- QUEUE_NOP (R246): The queue NOP opcode completes with OK. -/
  | queueNop (n : Nat) (q : Nat)
  /-- COPY (R247): The COPY opcode copies bytes between slice, host and exchange spaces. -/
  | copy (n : Nat) (q : Nat) (host : Option (List Byte)) (sent : Nat)
  /-- TENSOR_GRAPH (R248): The TENSOR_GRAPH opcode checks a graph and runs its nodes in order. -/
  | tensorGraph (n : Nat) (q : Nat)
  /-- KERNEL_REGISTER (R251): The KERNEL_REGISTER opcode checks an image, extends KMEAS and returns a handle. -/
  | kernelRegister (n : Nat) (q : Nat)
  /-- KERNEL_RELEASE (R252): The KERNEL_RELEASE opcode frees a kernel handle. -/
  | kernelRelease (n : Nat) (q : Nat)
  /-- KERNEL_LAUNCH (R374): The KERNEL_LAUNCH opcode places a launch's contexts on the slice's clusters. -/
  | kernelLaunch (n : Nat) (q : Nat)
  /-- SEQ_ADMIT (R575): The SEQ_ADMIT opcode admits a sequence into the Teasel table. -/
  | seqAdmit (n : Nat) (q : Nat)
  /-- SEQ_APPEND (R578): The SEQ_APPEND opcode checks an append to a live sequence. -/
  | seqAppend (n : Nat) (q : Nat)
  /-- SEQ_APPEND_APPLY (R578): When the sequence is in no step, the appended tokens are copied to OUT and HIST_LEN
  grows. -/
  | seqAppendApply (n : Nat)
  /-- SEQ_CANCEL (R579): The SEQ_CANCEL opcode moves a sequence to RETIRING. -/
  | seqCancel (n : Nat) (q : Nat)
  /-- FENCE_READ (R246): The FENCE_READ opcode returns a fence's value and error flag. -/
  | fenceRead (n : Nat) (q : Nat)
  /-- FENCE_RESET (R237): The FENCE_RESET opcode sets a fence's value and clears its error flag. -/
  | fenceReset (n : Nat) (q : Nat)
  /-- ATS_INVALIDATE (R213): An ATS Invalidate Request is completed within 100 µs. -/
  | atsInvalidate (vf : Nat) (tag : Nat)
  /-- FORCED_RELEASE (R258): No tenancy VF has had its TDI in RUN for GRACE_MS, so the part releases the tenancy by
  itself. -/
  | forcedRelease
  /-- CLAIM_TIMEOUT (R258): The grace time passes in ADMITTING without a claim and the release job starts. -/
  | claimTimeout
  /-- GET_VERSION (R296): The SPDM GET_VERSION request is answered. -/
  | getVersion
  /-- GET_CAPABILITIES (R295): The SPDM GET_CAPABILITIES request is answered with the capabilities of Table 08-3. -/
  | getCapabilities (ver : Nat) (xfer : Nat)
  /-- NEGOTIATE_ALGORITHMS (R295): The SPDM NEGOTIATE_ALGORITHMS request is answered. -/
  | negotiateAlgorithms (asym : Nat) (hash : Nat) (dhe : Nat) (aead : Nat) (sched : Nat)
  /-- CHALLENGE (R297): The SPDM CHALLENGE request is answered with a signed CHALLENGE_AUTH. -/
  | challenge (sum : Bool) (tr : List Byte)
  /-- GET_MEASUREMENTS (R300): The SPDM GET_MEASUREMENTS request reports the measurement blocks. -/
  | getMeasurements (k : Nat) (sign : Bool) (tr : List Byte)
  /-- KEY_EXCHANGE (R298): The SPDM KEY_EXCHANGE request opens a session, up to four. -/
  | keyExchange (reqSid : Nat) (sum : Bool) (tr : List Byte)
  /-- FINISH (R296): The SPDM FINISH request completes session establishment. -/
  | finish (sid : Nat) (good : Bool)
  /-- HEARTBEAT (R296): The SPDM HEARTBEAT request is answered. -/
  | heartbeat (sid : Nat)
  /-- KEY_UPDATE (R296): The SPDM KEY_UPDATE request updates the session keys. -/
  | keyUpdate (sid : Nat) (op : Nat) (tag : Nat)
  /-- END_SESSION (R298): The SPDM END_SESSION request ends a session. -/
  | endSession (sid : Nat)
  /-- CHUNK_SEND (R296): The SPDM CHUNK_SEND request carries one chunk of a large message. -/
  | chunkSend (handle : Nat) (num : Nat) (last : Bool) (bytes : List Byte)
  /-- CHUNK_GET (R296): The SPDM CHUNK_GET request returns one chunk of a large response. -/
  | chunkGet (handle : Nat) (num : Nat)
  /-- VENDOR_DEFINED_REQUEST (R296): The SPDM VENDOR_DEFINED_REQUEST carries IDE_KM or TDISP inside a session. -/
  | vendorDefinedRequest (sid : Nat) (proto : Nat) (code : Nat)
  /-- SPDM_UNSUPPORTED_REQUEST (R297): GET_DIGESTS, GET_CERTIFICATE and any other request get ERROR
  UnsupportedRequest. -/
  | spdmUnsupportedRequest (code : Nat)
  /-- DOE_ABORT (R298): A DOE Abort discards the data object in transfer. -/
  | doeAbort
  /-- QUERY (R301): The IDE_KM QUERY request is answered. -/
  | query (sid : Nat)
  /-- KEY_PROG (R301): The IDE_KM KEY_PROG request programs a stream key set. -/
  | keyProg (sid : Nat) (k : Nat) (set : Nat) (sub : Nat) (dir : Nat)
  /-- K_SET_GO (R301): The IDE_KM K_SET_GO request starts a key set on a stream. -/
  | kSetGo (sid : Nat) (k : Nat) (set : Nat) (sub : Nat) (dir : Nat)
  /-- K_SET_STOP (R302): The IDE_KM K_SET_STOP request stops a key set, making a bound stream Insecure. -/
  | kSetStop (sid : Nat) (k : Nat) (set : Nat) (sub : Nat) (dir : Nat)
  /-- GET_TDISP_VERSION (R303): The TDISP GET_TDISP_VERSION request returns version 1.0. -/
  | getTdispVersion (sid : Nat) (n : Nat)
  /-- GET_TDISP_CAPABILITIES (R303): The TDISP GET_TDISP_CAPABILITIES request returns the supported lock flags. -/
  | getTdispCapabilities (sid : Nat) (n : Nat)
  /-- LOCK_INTERFACE_REQUEST (R304): The TDISP LOCK_INTERFACE_REQUEST locks a TDI onto a stream. -/
  | lockInterfaceRequest (sid : Nat) (n : Nat) (stream : Nat) (noFw : Bool) (lockMsix : Bool) (p2p : Bool) (redirect : Bool)
  /-- GET_DEVICE_INTERFACE_REPORT (R305): The TDISP GET_DEVICE_INTERFACE_REPORT request returns the interface report. -/
  | getDeviceInterfaceReport (sid : Nat) (n : Nat) (off : Nat) (len : Nat)
  /-- GET_DEVICE_INTERFACE_STATE (R303): The TDISP GET_DEVICE_INTERFACE_STATE request returns the TDI state. -/
  | getDeviceInterfaceState (sid : Nat) (n : Nat)
  /-- START_INTERFACE_REQUEST (R303): The TDISP START_INTERFACE_REQUEST puts a locked TDI into RUN. -/
  | startInterfaceRequest (sid : Nat) (n : Nat) (nonce : List Byte)
  /-- STOP_INTERFACE_REQUEST (R307): The TDISP STOP_INTERFACE_REQUEST returns a TDI to CONFIG_UNLOCKED. -/
  | stopInterfaceRequest (sid : Nat) (n : Nat)
  /-- IDE_CHECK_FAIL (R302): An IDE integrity check fails; the stream becomes Insecure and its TDIs go to ERROR. -/
  | ideCheckFail (k : Nat)
  /-- SRIOV_CONFIG_WRITE (R307): A write that changes VF Enable, VF MSE, NumVFs or a VF BAR puts every locked or
  running TDI in ERROR. -/
  | sriovConfigWrite (numVfs : Nat) (vfEnable : Bool) (vfMse : Bool) (vfBar0 : Nat) (vfBar2 : Nat)
  /-- BUS_MASTER_CLEAR (R307): A write that clears a VF's Bus Master Enable puts its TDI in ERROR. -/
  | busMasterClear (n : Nat)
  /-- TDI_TLP_DROP (R306): A TLP to a locked TDI that is not on its stream is dropped or completed with UR and
  counted. -/
  | tdiTlpDrop (n : Nat) (posted : Bool)
  /-- RNG_HEALTH_FAIL (R289): A random-source health test fails and RNG_FAIL is set. -/
  | rngHealthFail
  /-- EC_OPERATION_END (R327): An EC operation finishes at its fixed time with a result or a rejection status. -/
  | ecOperationEnd (x : EcInput)
  /-- MAP_VIEW_STORE (R349): A store to a map-view entry is checked and allocates, replaces or quarantines a frame, or
  is rejected. -/
  | mapViewStore (vf : Nat) (g : Nat) (value : DWord) (whole : Bool)
  /-- INV_COUNT_STORE (R357): A store to INV_COUNT starts an invalidation of granules. -/
  | invCountStore (vf : Nat) (count : DWord)
  /-- INVALIDATION_COMPLETE (R357): An invalidation completes, dropping cached copies and releasing quarantined
  frames. -/
  | invalidationComplete (vf : Nat)
  /-- FRAME_ZERO_COMPLETE (R344): A frame finishes zeroing and is freed. -/
  | frameZeroComplete (f : Nat)
  /-- PATROL (R343): The patrol reads and corrects the next HBM lines. -/
  | patrol (errs : Upsets) (permille : Nat)
  /-- HBM_REFRESH (R342): A bank-by-bank HBM refresh runs. -/
  | hbmRefresh (ns : Nat)
  /-- CONTEXT_END (R377): A context's threads have all exited and its stores completed; its resources are freed and
  waiting contexts are placed. -/
  | contextEnd (c : Nat) (j : Nat)
  /-- CONTEXT_SWITCH (R450): A switch signal reaches a cluster and outgoing contexts stop, drain and park. -/
  | contextSwitch (c : Nat) (cycles : Nat) (took : Nat)
  /-- STORE_ENTRY_RETIRE (R391): The head entry of a store buffer leaves for memory. -/
  | storeEntryRetire (c : Nat) (ix : Nat)
  /-- LOAD_DATA_RETURN (R449): A load's data returns into its destination register. -/
  | loadDataReturn (c : Nat) (j : Nat) (g : Nat) (n : Nat)
  /-- ACOPY_COMPLETE (R443): An asynchronous copy finishes writing its bytes and raises its counter. -/
  | acopyComplete (c : Nat) (j : Nat) (n : Nat)
  /-- ASYNC_ADDRESS (R442): An ACOPY block is invalid and the copy stops, raising ASYNC_ADDRESS. -/
  | asyncAddress (c : Nat) (j : Nat) (n : Nat)
  /-- IADD (R419): The IADD instruction adds, with optional saturation; also its I form. -/
  | iadd (c : Nat) (j : Nat) (g : Nat) (hi : Bool)
  /-- ISUB (R419): The ISUB instruction subtracts; also its I form. -/
  | isub (c : Nat) (j : Nat) (g : Nat) (hi : Bool)
  /-- IMUL (R419): The IMUL instruction gives the low 32 bits of a product; also its I form. -/
  | imul (c : Nat) (j : Nat) (g : Nat) (hi : Bool)
  /-- IMULHI (R419): The IMULHI instruction gives the high 32 bits of a product; also its I form. -/
  | imulhi (c : Nat) (j : Nat) (g : Nat) (hi : Bool)
  /-- IMAC (R419): The IMAC instruction gives the low 32 bits of a × b + c. -/
  | imac (c : Nat) (j : Nat) (g : Nat) (hi : Bool)
  /-- IMIN (R419): The IMIN instruction gives the minimum; also its I form. -/
  | imin (c : Nat) (j : Nat) (g : Nat) (hi : Bool)
  /-- IMAX (R419): The IMAX instruction gives the maximum; also its I form. -/
  | imax (c : Nat) (j : Nat) (g : Nat) (hi : Bool)
  /-- AND (R419): The AND instruction gives the bitwise and; also its I form. -/
  | and (c : Nat) (j : Nat) (g : Nat) (hi : Bool)
  /-- OR (R419): The OR instruction gives the bitwise or; also its I form. -/
  | or (c : Nat) (j : Nat) (g : Nat) (hi : Bool)
  /-- XOR (R419): The XOR instruction gives the bitwise exclusive or; also its I form. -/
  | xor (c : Nat) (j : Nat) (g : Nat) (hi : Bool)
  /-- SHL (R419): The SHL instruction shifts left; also its I form. -/
  | shl (c : Nat) (j : Nat) (g : Nat) (hi : Bool)
  /-- SHR (R419): The SHR instruction shifts right, arithmetic when signed; also its I form. -/
  | shr (c : Nat) (j : Nat) (g : Nat) (hi : Bool)
  /-- POPC (R419): The POPC instruction counts set bits. -/
  | popc (c : Nat) (j : Nat) (g : Nat) (hi : Bool)
  /-- CLZ (R419): The CLZ instruction counts leading zeros. -/
  | clz (c : Nat) (j : Nat) (g : Nat) (hi : Bool)
  /-- IABS (R419): The IABS instruction gives the absolute value. -/
  | iabs (c : Nat) (j : Nat) (g : Nat) (hi : Bool)
  /-- BFE (R419): The BFE instruction extracts a bit field; also its I form. -/
  | bfe (c : Nat) (j : Nat) (g : Nat) (hi : Bool)
  /-- FADD (R420): The FADD instruction adds binary32 values; also its I form. -/
  | fadd (c : Nat) (j : Nat) (g : Nat) (hi : Bool)
  /-- FSUB (R420): The FSUB instruction subtracts binary32 values; also its I form. -/
  | fsub (c : Nat) (j : Nat) (g : Nat) (hi : Bool)
  /-- FMUL (R420): The FMUL instruction multiplies binary32 values; also its I form. -/
  | fmul (c : Nat) (j : Nat) (g : Nat) (hi : Bool)
  /-- FMAC (R420): The FMAC instruction computes a × b + c rounded once; also its I form. -/
  | fmac (c : Nat) (j : Nat) (g : Nat) (hi : Bool)
  /-- FMIN (R420): The FMIN instruction gives minimumNumber; also its I form. -/
  | fmin (c : Nat) (j : Nat) (g : Nat) (hi : Bool)
  /-- FMAX (R420): The FMAX instruction gives maximumNumber; also its I form. -/
  | fmax (c : Nat) (j : Nat) (g : Nat) (hi : Bool)
  /-- FRCP (R420): The FRCP instruction gives the reciprocal. -/
  | frcp (c : Nat) (j : Nat) (g : Nat) (hi : Bool)
  /-- FRSQ (R420): The FRSQ instruction gives the reciprocal square root. -/
  | frsq (c : Nat) (j : Nat) (g : Nat) (hi : Bool)
  /-- FEXP2 (R420): The FEXP2 instruction gives 2 to the power a. -/
  | fexp2 (c : Nat) (j : Nat) (g : Nat) (hi : Bool)
  /-- FLOG2 (R420): The FLOG2 instruction gives log2 a. -/
  | flog2 (c : Nat) (j : Nat) (g : Nat) (hi : Bool)
  /-- FSIN (R420): The FSIN instruction gives sin a. -/
  | fsin (c : Nat) (j : Nat) (g : Nat) (hi : Bool)
  /-- FCOS (R420): The FCOS instruction gives cos a. -/
  | fcos (c : Nat) (j : Nat) (g : Nat) (hi : Bool)
  /-- FTANH (R420): The FTANH instruction gives tanh a. -/
  | ftanh (c : Nat) (j : Nat) (g : Nat) (hi : Bool)
  /-- PADD (R421): The PADD instruction adds packed 16-bit values. -/
  | padd (c : Nat) (j : Nat) (g : Nat) (hi : Bool)
  /-- PMUL (R421): The PMUL instruction multiplies packed 16-bit values. -/
  | pmul (c : Nat) (j : Nat) (g : Nat) (hi : Bool)
  /-- PMAC (R421): The PMAC instruction multiply-accumulates packed 16-bit values. -/
  | pmac (c : Nat) (j : Nat) (g : Nat) (hi : Bool)
  /-- ICMP (R424): The ICMP instruction compares integers into a predicate; also its I form. -/
  | icmp (c : Nat) (j : Nat) (g : Nat) (hi : Bool)
  /-- FCMP (R424): The FCMP instruction compares floats into a predicate; also its I form. -/
  | fcmp (c : Nat) (j : Nat) (g : Nat) (hi : Bool)
  /-- PCOMB (R416): The PCOMB instruction combines two predicates by a truth table. -/
  | pcomb (c : Nat) (j : Nat) (g : Nat) (hi : Bool)
  /-- SEL (R416): The SEL instruction selects a or b by a predicate. -/
  | sel (c : Nat) (j : Nat) (g : Nat) (hi : Bool)
  /-- MOV (R416): The MOV instruction copies a register. -/
  | mov (c : Nat) (j : Nat) (g : Nat) (hi : Bool)
  /-- MOVI (R416): The MOVI instruction loads a 32-bit immediate. -/
  | movi (c : Nat) (j : Nat) (g : Nat) (hi : Bool)
  /-- CVT (R423): The CVT instruction converts between types. -/
  | cvt (c : Nat) (j : Nat) (g : Nat) (hi : Bool)
  /-- RDLANE (R440): The RDLANE instruction reads one lane's register into a uniform. -/
  | rdlane (c : Nat) (j : Nat) (g : Nat) (hi : Bool)
  /-- LD (R426): The LD instruction loads zero-extended bytes. -/
  | ld (c : Nat) (j : Nat) (g : Nat) (hi : Bool)
  /-- LDS (R426): The LDS instruction loads sign-extended bytes. -/
  | lds (c : Nat) (j : Nat) (g : Nat) (hi : Bool)
  /-- ST (R426): The ST instruction stores bytes through the store buffer. -/
  | st (c : Nat) (j : Nat) (g : Nat) (hi : Bool)
  /-- LDC (R426): The LDC instruction loads from the image's constants. -/
  | ldc (c : Nat) (j : Nat) (g : Nat) (hi : Bool)
  /-- ATOM_ADD (R427): The ATOM.ADD instruction atomically adds. -/
  | atomAdd (c : Nat) (j : Nat) (g : Nat) (hi : Bool)
  /-- ATOM_SMIN (R427): The ATOM.SMIN instruction atomically takes the signed minimum. -/
  | atomSmin (c : Nat) (j : Nat) (g : Nat) (hi : Bool)
  /-- ATOM_SMAX (R427): The ATOM.SMAX instruction atomically takes the signed maximum. -/
  | atomSmax (c : Nat) (j : Nat) (g : Nat) (hi : Bool)
  /-- ATOM_UMIN (R427): The ATOM.UMIN instruction atomically takes the unsigned minimum. -/
  | atomUmin (c : Nat) (j : Nat) (g : Nat) (hi : Bool)
  /-- ATOM_UMAX (R427): The ATOM.UMAX instruction atomically takes the unsigned maximum. -/
  | atomUmax (c : Nat) (j : Nat) (g : Nat) (hi : Bool)
  /-- ATOM_AND (R427): The ATOM.AND instruction atomically ands. -/
  | atomAnd (c : Nat) (j : Nat) (g : Nat) (hi : Bool)
  /-- ATOM_OR (R427): The ATOM.OR instruction atomically ors. -/
  | atomOr (c : Nat) (j : Nat) (g : Nat) (hi : Bool)
  /-- ATOM_XOR (R427): The ATOM.XOR instruction atomically xors. -/
  | atomXor (c : Nat) (j : Nat) (g : Nat) (hi : Bool)
  /-- ATOM_EXCH (R427): The ATOM.EXCH instruction atomically exchanges. -/
  | atomExch (c : Nat) (j : Nat) (g : Nat) (hi : Bool)
  /-- ATOM_CAS (R427): The ATOM.CAS instruction atomically compares and swaps. -/
  | atomCas (c : Nat) (j : Nat) (g : Nat) (hi : Bool)
  /-- ATOM_FADD (R427): The ATOM.FADD instruction atomically adds binary32. -/
  | atomFadd (c : Nat) (j : Nat) (g : Nat) (hi : Bool)
  /-- ACOPY (R441): The ACOPY instruction starts an asynchronous copy. -/
  | acopy (c : Nat) (j : Nat) (g : Nat) (hi : Bool)
  /-- ARRIVE (R443): The ARRIVE instruction raises a counter once earlier stores complete at context scope. -/
  | arrive (c : Nat) (j : Nat) (g : Nat) (hi : Bool)
  /-- WAIT (R443): The WAIT instruction makes the group wait for a counter to reach an immediate target. -/
  | wait (c : Nat) (j : Nat) (g : Nat) (hi : Bool)
  /-- WAITU (R443): The WAITU instruction makes the group wait for a counter to reach a uniform target. -/
  | waitu (c : Nat) (j : Nat) (g : Nat) (hi : Bool)
  /-- CTRREAD (R443): The CTRREAD instruction reads an arrival counter into a uniform. -/
  | ctrread (c : Nat) (j : Nat) (g : Nat) (hi : Bool)
  /-- XLANE (R438): The XLANE instruction shuffles a register across lanes. -/
  | xlane (c : Nat) (j : Nat) (g : Nat) (hi : Bool)
  /-- VOTE (R439): The VOTE instruction computes ALL, ANY or BALLOT of a predicate. -/
  | vote (c : Nat) (j : Nat) (g : Nat) (hi : Bool)
  /-- BRA (R428): The BRA instruction branches, pushing a DIVERGE or SPLIT entry when lanes disagree. -/
  | bra (c : Nat) (j : Nat) (g : Nat) (hi : Bool)
  /-- JMPU (R433): The JMPU instruction jumps to the index in a uniform. -/
  | jmpu (c : Nat) (j : Nat) (g : Nat) (hi : Bool)
  /-- JOIN (R431): The JOIN instruction reconverges divergent or split paths. -/
  | join (c : Nat) (j : Nat) (g : Nat) (hi : Bool)
  /-- CALL (R433): The CALL instruction saves a return index and jumps. -/
  | call (c : Nat) (j : Nat) (g : Nat) (hi : Bool)
  /-- EXIT (R434): The EXIT instruction makes its lanes exited. -/
  | exit (c : Nat) (j : Nat) (g : Nat) (hi : Bool)
  /-- YIELD (R436): The YIELD instruction makes the group not ready for one round or until the next tick. -/
  | yield (c : Nat) (j : Nat) (g : Nat) (hi : Bool)
  /-- TRAP (R437): The TRAP instruction raises SOFTWARE_TRAP with its code. -/
  | trap (c : Nat) (j : Nat) (g : Nat) (hi : Bool)
  /-- YARROW_NOP (R417): The NOP instruction does nothing. -/
  | yarrowNop (c : Nat) (j : Nat) (g : Nat) (hi : Bool)
  /-- MMA (R444): The MMA instruction hands a matrix operation descriptor to a unit queue. -/
  | mma (c : Nat) (j : Nat) (g : Nat) (hi : Bool)
  /-- FENCE (R445): The FENCE instruction waits for earlier stores to complete at a scope, with optional acquire. -/
  | fence (c : Nat) (j : Nat) (g : Nat) (hi : Bool)
  /-- RDSYS (R440): The RDSYS instruction reads a system value such as lane, cluster, tick or time. -/
  | rdsys (c : Nat) (j : Nat) (g : Nat) (hi : Bool)
  /-- WSAVE (R480): The WSAVE instruction advances the register window or raises an overflow trap. -/
  | wsave (c : Nat) (j : Nat) (g : Nat) (hi : Bool)
  /-- WRESTORE (R481): The WRESTORE instruction moves back a window or raises an underflow trap. -/
  | wrestore (c : Nat) (j : Nat) (g : Nat) (hi : Bool)
  /-- WSPILL (R486): The WSPILL instruction stores the oldest resident window to the spill area. -/
  | wspill (c : Nat) (j : Nat) (g : Nat) (hi : Bool)
  /-- WFILL (R487): The WFILL instruction loads a spilled frame into a window. -/
  | wfill (c : Nat) (j : Nat) (g : Nat) (hi : Bool)
  /-- WRESUME (R488): The WRESUME instruction leaves the trap window and re-issues the trapped instruction, ending any
  deferred switch. -/
  | wresume (c : Nat) (j : Nat) (g : Nat) (hi : Bool)
  /-- WRDSTATE (R479): The WRDSTATE instruction writes the group's window state to a uniform. -/
  | wrdstate (c : Nat) (j : Nat) (g : Nat) (hi : Bool)
  /-- KERNEL_EXCEPTION (R378): An exception stops every context of the launch, which completes with KERNEL_EXCEPTION. -/
  | kernelException (c : Nat) (j : Nat) (g : Nat) (hi : Bool)
  /-- OPERATION_STAGE (R463): A matrix unit reads and checks the descriptor at its queue head and stages its operands. -/
  | operationStage (u : Nat)
  /-- MMA_OPERATION (R457): A staged MMA operation runs its k-steps into the bound tile. -/
  | mmaOperation (u : Nat)
  /-- LOAD (R461): A staged LOAD operation reads 16 rows into a tile. -/
  | load (u : Nat)
  /-- STORE (R461): A staged STORE operation writes a tile converted to OUT_TYPE. -/
  | store (u : Nat)
  /-- RELEASE (R461): A RELEASE operation makes a tile DEAD. -/
  | release (u : Nat)
  /-- MATRIX_OP_COMPLETE (R464): A matrix operation completes and raises its arrival counter. -/
  | matrixOpComplete (u : Nat)
  /-- MATRIX_UNIT_HANG (R470): A matrix unit does not complete a started operation within 10 µs, an uncontained fault. -/
  | matrixUnitHang (u : Nat)
  /-- BLOCK_ENQUEUE (R498): A producer places an engine block in a slice's sub-queue once an entry is free. -/
  | blockEnqueue (block : List Byte)
  /-- ENGINE_STEP_DISPATCH (R500): An instance dispatches the next step by RT priority and deficit round robin. -/
  | engineStepDispatch (ix : Nat)
  /-- ENGINE_STEP_COMPLETE (R499): An engine step completes; a finished block signals its engine fence. -/
  | engineStepComplete (ix : Nat)
  /-- MOVE (R512): A MOVE block copies strided runs of bytes. -/
  | move (ix : Nat) (host : Option (List Byte)) (sent : Bool)
  /-- FILL (R514): A FILL block writes a repeated pattern. -/
  | fill (ix : Nat) (sent : Bool)
  /-- GATHER (R516): A GATHER block copies indexed rows, zero-filling out-of-range indices. -/
  | gather (ix : Nat)
  /-- GATHER_PAGES (R517): A GATHER_PAGES block copies 64 KiB KV pages. -/
  | gatherPages (ix : Nat)
  /-- ELEMENTWISE (R520): An ELEMENTWISE block applies a function element by element. -/
  | elementwise (ix : Nat)
  /-- REDUCE (R519): A REDUCE block reduces rows in a fixed order. -/
  | reduce (ix : Nat)
  /-- NORMALISE (R520): A NORMALISE block applies layer or RMS normalisation. -/
  | normalise (ix : Nat)
  /-- SOFTMAX (R520): A SOFTMAX block computes a softmax per row. -/
  | softmax (ix : Nat)
  /-- TOPK (R523): A TOPK block selects the K largest or smallest values per row. -/
  | topk (ix : Nat)
  /-- DECODE (R525): A DECODE block decompresses weights into the model. -/
  | decode (ix : Nat) (plain : List Byte)
  /-- ALL_REDUCE (R531): An ALL_REDUCE block combines members' inputs across a ring. -/
  | allReduce (ix : Nat) (peers : List (List Byte)) (same : Bool)
  /-- ALL_GATHER (R531): An ALL_GATHER block concatenates members' inputs across a ring. -/
  | allGather (ix : Nat) (peers : List (List Byte)) (same : Bool)
  /-- ENGINE_FENCE_STALL (R505): At a boundary, a block with no fence progress for a whole tick is a stalled block. -/
  | engineFenceStall (ix : Nat) (n : Nat)
  /-- ENGINE_HANG (R508): An instance does not complete a step within 50 µs, an uncontained fault. -/
  | engineHang (ix : Nat)
  /-- COLLECTIVE_TIMEOUT (R532): FFE_COLL_TIMEOUT ticks pass with no data and the collective ends with ABORTED. -/
  | collectiveTimeout (ix : Nat)
  /-- SCHEDULE_GROUP_READ (R540): The part reads the next group of schedule entries and checks versions and check
  byte. -/
  | scheduleGroupRead (mid : Option (Nat × Nat))
  /-- SLOT_START (R543): A slot group is dispatched at its START and its slices run on its clusters. -/
  | slotStart
  /-- SLOT_END (R547): A slot reaches its end and work without a continuing slot is pre-empted. -/
  | slotEnd (ix : Nat)
  /-- LAG_QUANTUM (R545): Every 4,096 core cycles of ELASTIC time the lags and holds of a cluster's slices are
  updated. -/
  | lagQuantum (c : Nat) (used : List (Nat × Nat))
  /-- EXCLUSIVE_JOB_START (R552): At an EXCLUSIVE position's boundary the first startable command starts and the table
  pauses. -/
  | exclusiveJobStart
  /-- EXCL_LIMIT (R554): The exclusive job exceeds SCH_EXCL_LIMIT and is aborted. -/
  | exclLimit
  /-- SLOWDOWN_NOTICE_POST (R564): A slowdown notice is posted on slot 1,009, re-slicing if ACTION permits. -/
  | slowdownNoticePost
  /-- BOUNDS_ENFORCE (R566): At a boundary with no pending change, a slice outside its bounds is brought inside them. -/
  | boundsEnforce (n : Nat) (cycles : Nat)
  /-- STEP_BUILD (R581): Teasel chooses a batch, evicts where needed, writes the Teasel area and hands the step graph
  over. -/
  | stepBuild (n : Nat) (r : Nat)
  /-- STEP_END (R589): A Teasel step ends; tokens are committed and sequences retire. -/
  | stepEnd (n : Nat) (actual : Nat)
  /-- CMP_GRANT_WRITE (R597): A write to CMP_GRANT grants a Campion die to a slice, halting and zeroing it. -/
  | cmpGrantWrite (d : Nat) (value : Word)
  /-- CAMPION_COMMAND_POLL (R600): Every 1 µs the interface reads CMD_SEQ and starts a new command. -/
  | campionCommandPoll (d : Nat)
  /-- LOAD_PROGRAMS (R602): The LOAD_PROGRAMS command loads dynamics programs and extends DMEAS. -/
  | loadPrograms (d : Nat)
  /-- LOAD_NEURONS (R603): The LOAD_NEURONS command loads neuron records. -/
  | loadNeurons (d : Nat)
  /-- SAVE_NEURONS (R603): The SAVE_NEURONS command saves neuron records. -/
  | saveNeurons (d : Nat)
  /-- RUN (R604): The RUN command checks and latches the control block and makes the die RUNNING. -/
  | run (d : Nat)
  /-- HALT (R604): The HALT command stops intake and leaves the die HALTED. -/
  | halt (d : Nat)
  /-- CLEAR (R604): The CLEAR command discards every token in the die. -/
  | clear (d : Nat)
  /-- ETIME_ADVANCE (R605): ETIME advances by one after UNIT × 10 ns of running time. -/
  | etimeAdvance (d : Nat)
  /-- EVENT_RUN (R606): A delivered token starts an event run of the neuron's program. -/
  | eventRun (k : Nat)
  /-- SWEEP_VISIT (R609): The sweeper visits a neuron and starts a sweep run if dt is large. -/
  | sweepVisit (k : Nat)
  /-- FAN_OUT (R611): The fan-out unit takes a spike and sends one token per destination entry. -/
  | fanOut (k : Nat)
  /-- TOKEN_ARRIVE (R612): A token reaches its router and enters the delay queue or overflow. -/
  | tokenArrive (d : Nat) (port : Nat) (ix : Nat)
  /-- TOKEN_DUE (R612): A queued token falls due and is delivered to its core. -/
  | tokenDue (k : Nat)
  /-- INGRESS_TOKEN (R614): A token arrives at an ingress FIFO and is queued or dropped. -/
  | ingressToken (d : Nat) (p : Nat) (dest : Nat) (var : Nat) (delay : Nat) (weight : Nat)
  /-- INJECTION_READ (R615): The interface reads an injection ring entry as a token. -/
  | injectionRead (d : Nat)
  /-- CAMPION_FAULT (R622): A Campion die moves to FAULTED as a contained fault. -/
  | campionFault (d : Nat) (code : Nat)
  /-- CAMPION_HANG (R623): A die with tokens completes no run for 100 µs, an uncontained fault. -/
  | campionHang (d : Nat)
  /-- SNS_GRANT_WRITE (R629): A write to SNS_GRANT grants sensor die and converters to a slice, resetting their state. -/
  | snsGrantWrite (d : Nat) (value : Word)
  /-- FRAME_START (R632): A Frame Start short packet takes the next ring slot or drops the frame. -/
  | frameStart (d : Nat) (j : Nat) (vc : Nat) (num : Nat)
  /-- RAW_LINE_PACKET (R633): A RAW long packet writes a pixel row into the current slot. -/
  | rawLinePacket (d : Nat) (j : Nat) (vc : Nat) (dt : Nat) (payload : List Byte) (crcOk : Bool)
  /-- FRAME_END (R632): A Frame End packet completes the frame, writes its header and advances HEAD. -/
  | frameEnd (d : Nat) (j : Nat) (vc : Nat)
  /-- FRAME_TIMEOUT (R633): 100 ms pass without a packet and the frame is published as TRUNCATED. -/
  | frameTimeout (d : Nat) (j : Nat)
  /-- EVENT_PACKET (R634): An event long packet becomes tokens after its CRC passes. -/
  | eventPacket (d : Nat) (j : Nat) (vc : Nat) (dt : Nat) (payload : List Byte) (crcOk : Bool)
  /-- OTHER_PACKET (R626): A packet of another type or VC is discarded and counted. -/
  | otherPacket (d : Nat) (j : Nat) (vc : Nat) (dt : Nat) (eccOk : Bool)
  /-- AER_WORD (R635): An AER handshake delivers a word that becomes a token. -/
  | aerWord (d : Nat) (word : Nat)
  /-- TRIGGER_PULSE (R628): A TRIG output pulses at its configured boundary offset. -/
  | triggerPulse (d : Nat) (t : Nat) (len : Nat)
  /-- FLIT_RECEIVE (R658): A flit arrives; it is checked, delivered, forwarded or NAKed. -/
  | flitReceive (p : Nat) (f : Flit) (ok : Bool) (corr : Nat) (unc : Nat)
  /-- CREDIT (R657): A CREDIT symbol updates the sender's credits. -/
  | credit (p : Nat) (b : List Byte)
  /-- ACK (R658): An ACK symbol frees acknowledged flits from the replay buffer. -/
  | ack (p : Nat) (b : List Byte)
  /-- NAK (R658): A NAK symbol makes the sender replay from the named SEQ. -/
  | nak (p : Nat) (b : List Byte)
  /-- DELAY_REQ (R670): A DELAY_REQ symbol is answered with DELAY_RESP. -/
  | delayReq (p : Nat) (b : List Byte) (turn : Nat)
  /-- DELAY_RESP (R670): A DELAY_RESP symbol gives one delay sample. -/
  | delayResp (p : Nat) (b : List Byte) (t4 : Nat)
  /-- FREEZE_SYMBOL (R681): A FREEZE symbol is forwarded once and makes a freeze request. -/
  | freezeSymbol (p : Nat) (b : List Byte)
  /-- THAW_SYMBOL (R681): A THAW symbol is forwarded once and thaws the module. -/
  | thawSymbol (p : Nat) (b : List Byte)
  /-- FAIL_NOTICE (R680): A FAIL_NOTICE is forwarded once and delivered to the collective engines. -/
  | failNotice (p : Nat) (b : List Byte)
  /-- ANNOUNCE (R674): An ANNOUNCE is adopted by a border module or accepted by a waiting module. -/
  | announce (p : Nat) (b : List Byte)
  /-- PAUSE (R673): A PAUSE symbol at a window leads to DRAINED once acknowledgements are complete. -/
  | pause (p : Nat) (b : List Byte)
  /-- DRAINED (R672): A DRAINED symbol heard on the taps lets a granted module raise BYP_READY. -/
  | drained (p : Nat) (b : List Byte)
  /-- TRAIN_HELLO (R666): A TRAIN HELLO is exchanged and checked against Table 19-6. -/
  | trainHello (p : Nat) (b : List Byte) (lanes : Nat)
  /-- TRAIN_KEY (R683): TRAIN KEY chunks deliver the peer's IK_PUB and contribution for the link key. -/
  | trainKey (p : Nat) (b : List Byte)
  /-- LEG_TRAIN_END (R665): Leg training against the element ends, or fails at 100 ms. -/
  | legTrainEnd (p : Nat) (ok : Bool)
  /-- LINK_TRAIN_END (R667): LINK_TRAIN completes to UP or SOLO, is refused, or times out. -/
  | linkTrainEnd (p : Nat) (r : LinkResult)
  /-- PORT_FAILED (R660): A port meets a failure condition, goes DOWN and sends FAIL_NOTICE. -/
  | portFailed (p : Nat)
  /-- PORT_RETRY_TIMER (R665): A DOWN port retries training every 1 ms, or a REFUSED port after 1 s. -/
  | portRetryTimer (p : Nat) (legLost : Bool)
  /-- ELEMENT_STATE_CHANGE (R665): The port's own bypass element opens or closes. -/
  | elementStateChange (p : Nat) (opened : Bool)
  /-- PEER_STREAM_APPEAR (R665): A stream from another module appears on a SOLO or REFUSED port. -/
  | peerStreamAppear (p : Nat)
  /-- PORT_CTRL_WRITE (R665): A write to EWB_P_CTRL enables or disables a port. -/
  | portCtrlWrite (p : Nat) (v : Word)
  /-- EWB_ADMIT (R673): A write of EWB_ADMIT.GO announces an admission window. -/
  | ewbAdmit (v : Word)
  /-- EWB_REMOVE (R676): A write of EWB_REMOVE.GO announces a removal window. -/
  | ewbRemove (v : Word)
  /-- INSERTION_WINDOW (R673): At window W border modules pause and drain and the leaving module sends FAIL_NOTICE. -/
  | insertionWindow
  /-- TAP_SILENT_ENTRY (R672): No tap carries a stream for 10 ms, so the waiting module enters at once. -/
  | tapSilentEntry
  /-- ENTRY_TIMEOUT (R672): A port is not UP within 5 ms of entry and the module drops BYP_READY. -/
  | entryTimeout
  /-- WINDOW_ABANDON (R675): A border module still has its old peer 1 ms after W and resumes traffic. -/
  | windowAbandon
  /-- UNCONTAINED_FAULT (R692): An uncontained fault stops all work, notifies peers, marks slices LOST and starts
  recovery. -/
  | uncontainedFault (code : Nat) (unit : Nat) (inst : Nat) (modelMap : Bool)
  /-- CONTAINED_FAULT (R687): A contained fault is counted and logged for its slice. -/
  | containedFault (vf : Nat) (code : Nat) (exc : Nat) (arg : Nat) (pc : Nat)
  /-- RECOVERY_END (R696): The recovery steps end and STATE becomes LOST_SLICES, NORMAL or DIAG_ONLY. -/
  | recoveryEnd
  /-- FAULT_NOTICE_POST (R702): The fault controller posts its highest-ranked pending notice on slot 1,010. -/
  | faultNoticePost
  /-- FLT_INJECT (R706): A write of FLT_INJECT raises an injected uncontained fault. -/
  | fltInject (v : Word)
  /-- RECORD_CREATE (R717): An event becomes a record with the next SEQ in the volatile buffer, and triggers are
  matched. -/
  | recordCreate (code : Nat) (sev : Nat) (vf : Nat) (unit : Nat) (arg16 : Nat) (arg : Nat)
  /-- DRAIN_PAGE_PROGRAM (R722): The drain programs a page of records into the ring or first-fault log. -/
  | drainPageProgram (log : Nat) (ok : Bool)
  /-- ERASE_AHEAD_COMPLETE (R723): An erase of ring sectors ahead of the write position completes. -/
  | eraseAheadComplete (sectors : Nat) (ok : Bool)
  /-- RECORDER_NOTICE_POST (R740): The recorder posts its pending notice on slot 1,011. -/
  | recorderNoticePost
  /-- FREEZE_REQUEST (R743): A freeze request drives FREEZE_N low and stops issue and intake. -/
  | freezeRequest (src : Nat) (domain : Bool)
  /-- FREEZE_STATIC (R743): In-flight transactions have completed and the clocks stop; the part is frozen. -/
  | freezeStatic
  /-- THAW_RESUME (R748): After a thaw the stacks leave self-refresh, clocks restart and issue resumes. -/
  | thawResume
  /-- BLANKING_END (R749): 20 µs after a thaw, FREEZE_N is recognised again. -/
  | blankingEnd (low : Bool)
  /-- EXTEST (R759): The TAP EXTEST instruction drives boundary scan while PERST_N is asserted. -/
  | extest (bits : Nat) (value : Nat)
  /-- IDCODE (R759): The TAP IDCODE instruction returns the 32-bit ID code. -/
  | idcode
  /-- SAMPLE_PRELOAD (R759): The TAP SAMPLE/PRELOAD instruction accesses boundary scan. -/
  | samplePreload (bits : Nat) (value : Nat)
  /-- CLAMP (R759): The TAP CLAMP instruction acts while PERST_N is asserted, else as BYPASS. -/
  | clamp
  /-- HIGHZ (R759): The TAP HIGHZ instruction acts while PERST_N is asserted, else as BYPASS. -/
  | highz
  /-- OBS_ADDR (R759): The TAP OBS_ADDR instruction sets the observer object and offset. -/
  | obsAddr (v : DWord)
  /-- OBS_DATA (R759): The TAP OBS_DATA instruction reads one observer word and advances the offset. -/
  | obsData
  /-- OBS_STATUS (R759): The TAP OBS_STATUS instruction returns observer status. -/
  | obsStatus
  /-- BYPASS (R759): The TAP BYPASS instruction selects the 1-bit bypass register. -/
  | bypass (ir : Nat)
  /-- POWER_SAMPLE (R763): Every 10 µs the limiter measures input power and steps the clock or imposes a hold. -/
  | powerSample (avgMw : Nat)
  /-- THERMAL_STEP (R764): At most once per millisecond the limiter lowers the clock while a junction is at 95 °C or
  above. -/
  | thermalStep (hottest : Int)
  /-- TELEMETRY_UPDATE (R762): Every 10 ms power, voltage, energy and temperature readings are updated. -/
  | telemetryUpdate (volt : Nat) (power : Nat) (energyMj : Nat) (temps : List (Bool × Int))
  /-- PERST_N_RELEASE (R89): The host releases PERST_N and boot step 3 begins link training once step 2 has ended. -/
  | perstNRelease
  /-- LO_REGISTER_READ (R75): A read of a LO register latches its HI register for that requester, and a CAL_DATE read
  latches CAL_TIME and CAL_SUBSEC. -/
  | loRegisterRead (fn : Nat) (a : Nat)
  /-- RECOVERY_TIMEOUT (R697): A recovery that has not ended within twice the bound of R695 ends with STATE DIAG_ONLY. -/
  | recoveryTimeout
  /-- CLOCK_LANE_INACTIVE (R647): A CSI-2 port whose clock lane has been inactive for 1 ms clears
  SNS_PORT_STATUS.LINK. -/
  | clockLaneInactive (d : Nat) (j : Nat)
deriving DecidableEq, Repr

end Sys2Proof
end

