-- ==== Sys2Proof/WellFormed.lean ====
section
/-! DEFINITION. Well-formed commands: operands that name a function, a queue, a port, a cluster, an engine instance and the
like are within the numbers the part has. A command that is not well formed names nothing; its meaning then changes
nothing of what it would act on. -/

namespace Sys2Proof

/-- A VF: 1 to 63 (chapter 06). -/
def isVf (n : Nat) : Bool := decide (1 ≤ n ∧ n ≤ 63)
/-- A function: PF0 is 0, VF n is n. -/
def isFn (n : Nat) : Bool := decide (n ≤ 63)
/-- A queue of a VF (R209 and Table 06-1). -/
def isQueue (q : Nat) : Bool := decide (q < 16)
/-- An Ewebin port: 4 × site + role (R648). -/
def isPort (p : Nat) : Bool := decide (p < 16)
/-- A cluster. -/
def isCluster (c : Nat) : Bool := decide (c < 48)
/-- A context slot of a cluster (R367), a port of a sensor die, a trigger output. -/
def isPlace (j : Nat) : Bool := decide (j < 8)
/-- A group of a context (R367). -/
def isGroup (g : Nat) : Bool := decide (g < 64)
/-- A granule of a slice's map view. -/
def isGranule (g : Nat) : Bool := decide (g < 262144)
/-- A compute die, and the Campion or sensor die of that number. -/
def isDie (d : Nat) : Bool := decide (d < 2)
/-- A 16-byte control symbol (Table 19-4). -/
def isSymbol (b : List Byte) : Bool := b.length == 16
/-- An engine instance (Table 14-1). -/
def isInstance (i : Nat) : Bool := decide (i < 29)
/-- A scheduler of a cluster (R368). -/
def isScheduler (i : Nat) : Bool := decide (i < 4)
/-- A matrix unit: 2 × cluster + unit. -/
def isMatrixUnit (u : Nat) : Bool := decide (u < 96)
/-- An MCTP medium: 0 I3C, 1 PF0 VDM (R207). -/
def isMedium (m : Nat) : Bool := decide (m < 2)
/-- A reference of the tick unit: 0 primary, 1 secondary. -/
def isReference (w : Nat) : Bool := decide (w < 2)
/-- A mailbox slot (Table 04-3). -/
def isSlot (k : Nat) : Bool := decide (k < 1024)
/-- A log: 0 first-fault, 1 ring (R722). -/
def isLog (l : Nat) : Bool := decide (l < 2)
/-- An engine command block (Table 14-3). -/
def isBlock (b : List Byte) : Bool := b.length == 64
/-- A requester of the exchange memory: port H or D and an ID of 14 bits (Table 04-8). -/
def isReq (r : Req) : Bool := decide (r.port < 2 ∧ r.id < 16384)

/-- The command is well formed. -/
def Instr.wellFormed : Instr → Bool
  | .coldPowerOn _ _ => true
  | .warmResetPerst _ => true
  | .warmResetHot _ => true
  | .powerFailDetect _ _ => true
  | .overvoltageShutdown => true
  | .railOvercurrent _ => true
  | .powerReturnRestart _ _ => true
  | .freezeNLow => true
  | .sensorPortOvercurrent d j => isDie d && isPlace j
  | .configRequest fn _ _ => isFn fn
  | .bootStepEnd _ _ => true
  | .tickAcquireListenEnd => true
  | .tickBoundary _ _ _ _ _ => true
  | .tickInEdge _ => true
  | .marker p _ => isPort p
  | .refLoss w => isReference w
  | .refQualified w => isReference w
  | .pendingPeriodApply => true
  | .pendingTimeApply => true
  | .utcOffsetApply => true
  | .calOutOfRangePass => true
  | .tickNoticePost => true
  | .delayMeasure => true
  | .vfFlr n => isVf n
  | .pf0Flr => true
  | .sliceClearComplete n => isVf n
  | .idleClockGate _ => true
  | .dozeEnter => true
  | .dozeExitResume => true
  | .pf0D3hotEnter => true
  | .pf0D0Return => true
  | .vfD3hotEnter n => isVf n
  | .vfD0Return n => isVf n
  | .exchangeRead r _ _ _ _ => isReq r
  | .exchangeWrite r _ _ _ _ => isReq r
  | .semaReadAcquire r _ _ => isReq r
  | .semaReleaseWrite r _ _ => isReq r
  | .sweeperVisit => true
  | .slotPost r k _ => isReq r && isSlot k
  | .slotWithdraw r k => isReq r && isSlot k
  | .slotTake r k => isReq r && isSlot k
  | .slotDone r k _ => isReq r && isSlot k
  | .slotReturnIdle r k => isReq r && isSlot k
  | .msixHoldoffEnd fn _ => isFn fn
  | .clrCounters _ => true
  | .registerWrite fn _ _ => isFn fn
  | .unknownOpcode _ => true
  | .nop _ => true
  | .identify _ => true
  | .jobStatus _ => true
  | .tenancyAdmit _ => true
  | .tenancyClaim _ => true
  | .tenancyRelease _ => true
  | .tenancyStatus _ => true
  | .debugConsentSet _ => true
  | .sliceCreate _ => true
  | .sliceResize _ => true
  | .sliceDestroy _ => true
  | .sliceReset _ => true
  | .sliceBoundsSet _ => true
  | .sliceStatus _ => true
  | .slowdownSet _ => true
  | .exchangeRegionSet _ => true
  | .exchangeWindowSet _ => true
  | .modelLoad _ => true
  | .modelUnload _ => true
  | .schedWrite _ => true
  | .schedRead _ => true
  | .schedSwap _ => true
  | .tickConfig _ => true
  | .tickReacquire _ => true
  | .timeSet _ => true
  | .calSet _ => true
  | .utcOffsetSet _ => true
  | .logRead _ _ => true
  | .logClear _ => true
  | .nvmRead _ _ => true
  | .nvmWrite _ _ => true
  | .nvmErase _ => true
  | .freeze _ _ => true
  | .thaw _ => true
  | .observeRead _ => true
  | .attest _ => true
  | .acctRead _ => true
  | .fenceUnit _ => true
  | .unfenceUnit _ => true
  | .powerState _ => true
  | .powerCapSet _ => true
  | .releaseJobEnd => true
  | .sliceResetJobEnd => true
  | .modelLoadJobEnd _ => true
  | .modelUnloadJobEnd => true
  | .logClearJobEnd => true
  | .nvmEraseJobEnd _ => true
  | .pendingLayoutApply _ => true
  | .schedSwapApply => true
  | .drainClusterPass => true
  | .setEndpointId m _ _ => isMedium m
  | .getEndpointId m => isMedium m
  | .getEndpointUuid m => isMedium m
  | .getMctpVersionSupport m _ => isMedium m
  | .getMessageTypeSupport m => isMedium m
  | .settid m _ => isMedium m
  | .gettid m => isMedium m
  | .getpldmversion m _ => isMedium m
  | .getpldmtypes m => isMedium m
  | .getpldmcommands m _ => isMedium m
  | .getsensorreading m _ => isMedium m
  | .getstatesensorreadings m _ => isMedium m
  | .getpdrrepositoryinfo m => isMedium m
  | .getpdr m _ => isMedium m
  | .getfrurecordtablemetadata m => isMedium m
  | .getfrurecordtable m => isMedium m
  | .mctpOtherMessage m _ _ _ _ => isMedium m
  | .queueEnable n q _ => isVf n && isQueue q
  | .queueDisable n q _ => isVf n && isQueue q
  | .quiesceComplete n q => isVf n && isQueue q
  | .doorbellWrite n q _ => isVf n && isQueue q
  | .chainFetch n q _ => isVf n && isQueue q
  | .commandComplete n q _ _ _ => isVf n && isQueue q
  | .queueIrqHoldoffEnd n q => isVf n && isQueue q
  | .fenceStall n q => isVf n && isQueue q
  | .queueNop n q => isVf n && isQueue q
  | .copy n q _ _ => isVf n && isQueue q
  | .tensorGraph n q => isVf n && isQueue q
  | .kernelRegister n q => isVf n && isQueue q
  | .kernelRelease n q => isVf n && isQueue q
  | .kernelLaunch n q => isVf n && isQueue q
  | .seqAdmit n q => isVf n && isQueue q
  | .seqAppend n q => isVf n && isQueue q
  | .seqAppendApply n => isVf n
  | .seqCancel n q => isVf n && isQueue q
  | .fenceRead n q => isVf n && isQueue q
  | .fenceReset n q => isVf n && isQueue q
  | .atsInvalidate vf _ => isFn vf
  | .forcedRelease => true
  | .claimTimeout => true
  | .getVersion => true
  | .getCapabilities _ _ => true
  | .negotiateAlgorithms _ _ _ _ _ => true
  | .challenge _ _ => true
  | .getMeasurements _ _ _ => true
  | .keyExchange _ _ _ => true
  | .finish _ _ => true
  | .heartbeat _ => true
  | .keyUpdate _ _ _ => true
  | .endSession _ => true
  | .chunkSend _ _ _ _ => true
  | .chunkGet _ _ => true
  | .vendorDefinedRequest _ _ _ => true
  | .spdmUnsupportedRequest _ => true
  | .doeAbort => true
  | .query _ => true
  | .keyProg _ _ _ _ _ => true
  | .kSetGo _ _ _ _ _ => true
  | .kSetStop _ _ _ _ _ => true
  | .getTdispVersion _ n => isVf n
  | .getTdispCapabilities _ n => isVf n
  | .lockInterfaceRequest _ n _ _ _ _ _ => isVf n
  | .getDeviceInterfaceReport _ n _ _ => isVf n
  | .getDeviceInterfaceState _ n => isVf n
  | .startInterfaceRequest _ n _ => isVf n
  | .stopInterfaceRequest _ n => isVf n
  | .ideCheckFail _ => true
  | .sriovConfigWrite _ _ _ _ _ => true
  | .busMasterClear n => isFn n
  | .tdiTlpDrop n _ => isVf n
  | .rngHealthFail => true
  | .ecOperationEnd _ => true
  | .mapViewStore vf g _ _ => isVf vf && isGranule g
  | .invCountStore vf _ => isVf vf
  | .invalidationComplete vf => isVf vf
  | .frameZeroComplete _ => true
  | .patrol _ _ => true
  | .hbmRefresh _ => true
  | .contextEnd c j => isCluster c && isPlace j
  | .contextSwitch c _ _ => isCluster c
  | .storeEntryRetire c ix => isCluster c && isScheduler ix
  | .loadDataReturn c j g _ => isCluster c && isPlace j && isGroup g
  | .acopyComplete c j _ => isCluster c && isPlace j
  | .asyncAddress c j _ => isCluster c && isPlace j
  | .iadd c j g _ => isCluster c && isPlace j && isGroup g
  | .isub c j g _ => isCluster c && isPlace j && isGroup g
  | .imul c j g _ => isCluster c && isPlace j && isGroup g
  | .imulhi c j g _ => isCluster c && isPlace j && isGroup g
  | .imac c j g _ => isCluster c && isPlace j && isGroup g
  | .imin c j g _ => isCluster c && isPlace j && isGroup g
  | .imax c j g _ => isCluster c && isPlace j && isGroup g
  | .and c j g _ => isCluster c && isPlace j && isGroup g
  | .or c j g _ => isCluster c && isPlace j && isGroup g
  | .xor c j g _ => isCluster c && isPlace j && isGroup g
  | .shl c j g _ => isCluster c && isPlace j && isGroup g
  | .shr c j g _ => isCluster c && isPlace j && isGroup g
  | .popc c j g _ => isCluster c && isPlace j && isGroup g
  | .clz c j g _ => isCluster c && isPlace j && isGroup g
  | .iabs c j g _ => isCluster c && isPlace j && isGroup g
  | .bfe c j g _ => isCluster c && isPlace j && isGroup g
  | .fadd c j g _ => isCluster c && isPlace j && isGroup g
  | .fsub c j g _ => isCluster c && isPlace j && isGroup g
  | .fmul c j g _ => isCluster c && isPlace j && isGroup g
  | .fmac c j g _ => isCluster c && isPlace j && isGroup g
  | .fmin c j g _ => isCluster c && isPlace j && isGroup g
  | .fmax c j g _ => isCluster c && isPlace j && isGroup g
  | .frcp c j g _ => isCluster c && isPlace j && isGroup g
  | .frsq c j g _ => isCluster c && isPlace j && isGroup g
  | .fexp2 c j g _ => isCluster c && isPlace j && isGroup g
  | .flog2 c j g _ => isCluster c && isPlace j && isGroup g
  | .fsin c j g _ => isCluster c && isPlace j && isGroup g
  | .fcos c j g _ => isCluster c && isPlace j && isGroup g
  | .ftanh c j g _ => isCluster c && isPlace j && isGroup g
  | .padd c j g _ => isCluster c && isPlace j && isGroup g
  | .pmul c j g _ => isCluster c && isPlace j && isGroup g
  | .pmac c j g _ => isCluster c && isPlace j && isGroup g
  | .icmp c j g _ => isCluster c && isPlace j && isGroup g
  | .fcmp c j g _ => isCluster c && isPlace j && isGroup g
  | .pcomb c j g _ => isCluster c && isPlace j && isGroup g
  | .sel c j g _ => isCluster c && isPlace j && isGroup g
  | .mov c j g _ => isCluster c && isPlace j && isGroup g
  | .movi c j g _ => isCluster c && isPlace j && isGroup g
  | .cvt c j g _ => isCluster c && isPlace j && isGroup g
  | .rdlane c j g _ => isCluster c && isPlace j && isGroup g
  | .ld c j g _ => isCluster c && isPlace j && isGroup g
  | .lds c j g _ => isCluster c && isPlace j && isGroup g
  | .st c j g _ => isCluster c && isPlace j && isGroup g
  | .ldc c j g _ => isCluster c && isPlace j && isGroup g
  | .atomAdd c j g _ => isCluster c && isPlace j && isGroup g
  | .atomSmin c j g _ => isCluster c && isPlace j && isGroup g
  | .atomSmax c j g _ => isCluster c && isPlace j && isGroup g
  | .atomUmin c j g _ => isCluster c && isPlace j && isGroup g
  | .atomUmax c j g _ => isCluster c && isPlace j && isGroup g
  | .atomAnd c j g _ => isCluster c && isPlace j && isGroup g
  | .atomOr c j g _ => isCluster c && isPlace j && isGroup g
  | .atomXor c j g _ => isCluster c && isPlace j && isGroup g
  | .atomExch c j g _ => isCluster c && isPlace j && isGroup g
  | .atomCas c j g _ => isCluster c && isPlace j && isGroup g
  | .atomFadd c j g _ => isCluster c && isPlace j && isGroup g
  | .acopy c j g _ => isCluster c && isPlace j && isGroup g
  | .arrive c j g _ => isCluster c && isPlace j && isGroup g
  | .wait c j g _ => isCluster c && isPlace j && isGroup g
  | .waitu c j g _ => isCluster c && isPlace j && isGroup g
  | .ctrread c j g _ => isCluster c && isPlace j && isGroup g
  | .xlane c j g _ => isCluster c && isPlace j && isGroup g
  | .vote c j g _ => isCluster c && isPlace j && isGroup g
  | .bra c j g _ => isCluster c && isPlace j && isGroup g
  | .jmpu c j g _ => isCluster c && isPlace j && isGroup g
  | .join c j g _ => isCluster c && isPlace j && isGroup g
  | .call c j g _ => isCluster c && isPlace j && isGroup g
  | .exit c j g _ => isCluster c && isPlace j && isGroup g
  | .yield c j g _ => isCluster c && isPlace j && isGroup g
  | .trap c j g _ => isCluster c && isPlace j && isGroup g
  | .yarrowNop c j g _ => isCluster c && isPlace j && isGroup g
  | .mma c j g _ => isCluster c && isPlace j && isGroup g
  | .fence c j g _ => isCluster c && isPlace j && isGroup g
  | .rdsys c j g _ => isCluster c && isPlace j && isGroup g
  | .wsave c j g _ => isCluster c && isPlace j && isGroup g
  | .wrestore c j g _ => isCluster c && isPlace j && isGroup g
  | .wspill c j g _ => isCluster c && isPlace j && isGroup g
  | .wfill c j g _ => isCluster c && isPlace j && isGroup g
  | .wresume c j g _ => isCluster c && isPlace j && isGroup g
  | .wrdstate c j g _ => isCluster c && isPlace j && isGroup g
  | .kernelException c j g _ => isCluster c && isPlace j && isGroup g
  | .operationStage u => isMatrixUnit u
  | .mmaOperation u => isMatrixUnit u
  | .load u => isMatrixUnit u
  | .store u => isMatrixUnit u
  | .release u => isMatrixUnit u
  | .matrixOpComplete u => isMatrixUnit u
  | .matrixUnitHang u => isMatrixUnit u
  | .blockEnqueue block => isBlock block
  | .engineStepDispatch ix => isInstance ix
  | .engineStepComplete ix => isInstance ix
  | .move ix _ _ => isInstance ix
  | .fill ix _ => isInstance ix
  | .gather ix => isInstance ix
  | .gatherPages ix => isInstance ix
  | .elementwise ix => isInstance ix
  | .reduce ix => isInstance ix
  | .normalise ix => isInstance ix
  | .softmax ix => isInstance ix
  | .topk ix => isInstance ix
  | .decode ix _ => isInstance ix
  | .allReduce ix _ _ => isInstance ix
  | .allGather ix _ _ => isInstance ix
  | .engineFenceStall ix n => isInstance ix && isVf n
  | .engineHang ix => isInstance ix
  | .collectiveTimeout ix => isInstance ix
  | .scheduleGroupRead _ => true
  | .slotStart => true
  | .slotEnd _ => true
  | .lagQuantum c _ => isCluster c
  | .exclusiveJobStart => true
  | .exclLimit => true
  | .slowdownNoticePost => true
  | .boundsEnforce n _ => isVf n
  | .stepBuild n _ => isVf n
  | .stepEnd n _ => isVf n
  | .cmpGrantWrite d _ => isDie d
  | .campionCommandPoll d => isDie d
  | .loadPrograms d => isDie d
  | .loadNeurons d => isDie d
  | .saveNeurons d => isDie d
  | .run d => isDie d
  | .halt d => isDie d
  | .clear d => isDie d
  | .etimeAdvance d => isDie d
  | .eventRun _ => true
  | .sweepVisit _ => true
  | .fanOut _ => true
  | .tokenArrive d _ _ => isDie d
  | .tokenDue _ => true
  | .ingressToken d _ _ _ _ _ => isDie d
  | .injectionRead d => isDie d
  | .campionFault d _ => isDie d
  | .campionHang d => isDie d
  | .snsGrantWrite d _ => isDie d
  | .frameStart d j _ _ => isDie d && isPlace j
  | .rawLinePacket d j _ _ _ _ => isDie d && isPlace j
  | .frameEnd d j _ => isDie d && isPlace j
  | .frameTimeout d j => isDie d && isPlace j
  | .eventPacket d j _ _ _ _ => isDie d && isPlace j
  | .otherPacket d j _ _ _ => isDie d && isPlace j
  | .aerWord d _ => isDie d
  | .triggerPulse d t _ => isDie d && isPlace t
  | .flitReceive p _ _ _ _ => isPort p
  | .credit p b => isPort p && isSymbol b
  | .ack p b => isPort p && isSymbol b
  | .nak p b => isPort p && isSymbol b
  | .delayReq p b _ => isPort p && isSymbol b
  | .delayResp p b _ => isPort p && isSymbol b
  | .freezeSymbol p b => isPort p && isSymbol b
  | .thawSymbol p b => isPort p && isSymbol b
  | .failNotice p b => isPort p && isSymbol b
  | .announce p b => isPort p && isSymbol b
  | .pause p b => isPort p && isSymbol b
  | .drained p b => isPort p && isSymbol b
  | .trainHello p b _ => isPort p && isSymbol b
  | .trainKey p b => isPort p && isSymbol b
  | .legTrainEnd p _ => isPort p
  | .linkTrainEnd p _ => isPort p
  | .portFailed p => isPort p
  | .portRetryTimer p _ => isPort p
  | .elementStateChange p _ => isPort p
  | .peerStreamAppear p => isPort p
  | .portCtrlWrite p _ => isPort p
  | .ewbAdmit _ => true
  | .ewbRemove _ => true
  | .insertionWindow => true
  | .tapSilentEntry => true
  | .entryTimeout => true
  | .windowAbandon => true
  | .uncontainedFault _ _ _ _ => true
  | .containedFault vf _ _ _ _ => isVf vf
  | .recoveryEnd => true
  | .faultNoticePost => true
  | .fltInject _ => true
  | .recordCreate _ _ vf _ _ _ => isFn vf
  | .drainPageProgram log _ => isLog log
  | .eraseAheadComplete _ _ => true
  | .recorderNoticePost => true
  | .freezeRequest _ _ => true
  | .freezeStatic => true
  | .thawResume => true
  | .blankingEnd _ => true
  | .extest _ _ => true
  | .idcode => true
  | .samplePreload _ _ => true
  | .clamp => true
  | .highz => true
  | .obsAddr _ => true
  | .obsData => true
  | .obsStatus => true
  | .bypass _ => true
  | .powerSample _ => true
  | .thermalStep _ => true
  | .telemetryUpdate _ _ _ _ => true
  | .perstNRelease => true
  | .loRegisterRead fn _ => isFn fn
  | .recoveryTimeout => true
  | .clockLaneInactive d j => isDie d && isPlace j

end Sys2Proof
end

