-- ==== Sys2Proof/Machine/Calendar.lean ====
section
/-! DEFINITION. The calendar conversion of chapter 02: civil dates from 2000-01-01 to 2399-12-31 (R77 to R81). -/

namespace Sys2Proof.Machine

/-- A leap year (R78). -/
def isLeap (y : Nat) : Bool := y % 400 == 0 || (y % 4 == 0 && y % 100 != 0)

/-- Lengths of the twelve months of year `y`. -/
def monthLengths (y : Nat) : List Nat := [31, if isLeap y then 29 else 28, 31, 30, 31, 30, 31, 31, 30, 31, 30, 31]

/-- Days from 2000-01-01 to the first day of year 2000 + `k`. -/
def yearStart (k : Nat) : Nat := 365 * k + (k + 3) / 4 + (k + 399) / 400 - (k + 99) / 100

/-- The year, counted from 2000, that holds day `d` counted from 2000-01-01. -/
def yearOfDay (d : Nat) : Nat :=
  let k := d * 400 / 146097
  if yearStart (k + 1) ≤ d then k + 1 else if d < yearStart k then k - 1 else k

/-- Month and day of day `r` of a year with these month lengths, months counted from `m`. -/
def monthDay : List Nat → Nat → Nat → Nat × Nat
  | [], m, r => (m, r + 1)
  | l :: t, m, r => if r < l then (m, r + 1) else monthDay t (m + 1) (r - l)

/-- Days before month `m` (1 to 12) in a year with these month lengths. -/
def daysBefore (ls : List Nat) (m : Nat) : Nat := (ls.take (m - 1)).foldl (· + ·) 0

/-- Days from 1970-01-01 to 2000-01-01 (worked example of chapter 02). -/
def epochDays : Nat := 10957

/-- Civil seconds since 1970-01-01 at 2000-01-01T00:00:00 and at 2400-01-01T00:00:00 (R77). -/
def civilLo : Int := 10957 * 86400
def civilHi : Int := (10957 + 146097) * 86400

/-- A date and time of day. -/
structure Civil where
  year : Nat
  dow : Nat
  month : Nat
  day : Nat
  hour : Nat
  minute : Nat
  second : Nat
deriving DecidableEq, Repr

/-- The civil date and time at civil second `cs`, which lies in the calendar's range. -/
def civilOf (cs : Nat) : Civil :=
  let days := cs / 86400 - epochDays
  let sod := cs % 86400
  let y := yearOfDay days
  let md := monthDay (monthLengths (2000 + y)) 1 (days - yearStart y)
  ⟨2000 + y, (days + 5) % 7 + 1, md.1, md.2, sod / 3600, sod % 3600 / 60, sod % 60⟩

/-- Whether a CAL_SET date is one the calendar accepts (R79). -/
def dateOk (year month day hour minute second : Nat) : Bool :=
  decide (2000 ≤ year ∧ year ≤ 2399 ∧ 1 ≤ month ∧ month ≤ 12 ∧ 1 ≤ day ∧ hour ≤ 23 ∧ minute ≤ 59 ∧ second ≤ 59) &&
  decide (day ≤ (monthLengths year).getD (month - 1) 0)

/-- Civil seconds since 1970-01-01 of an accepted date. -/
def civilSecs (year month day hour minute second : Nat) : Nat :=
  (epochDays + yearStart (year - 2000) + daysBefore (monthLengths year) month + (day - 1)) * 86400
    + hour * 3600 + minute * 60 + second

end Sys2Proof.Machine
end

