-- ==== Sys2Proof/Config.lean ====
section
/-! DEFINITION. What a part fixes and what the spec leaves open. Every value here is a constant without a body: nothing
in Lean can see what it is, so a claim about it holds for every value it may take. -/

namespace Sys2Proof

/-- The figures fused or strapped into one part (spec 01, R18; R37 for the straps). They are a field of the state, so
that a run of any assembly can be written down. -/
structure Fused where
  /-- ID_PART.STEPPING -/
  stepping : Nat
  /-- ID_SITES.STACK_FITTED, bit n for stack site n -/
  stackFitted : Nat
  /-- ID_SITES.IOn_TYPE: 0 empty, 1 link die, 2 sensor die -/
  ioType : List Nat
  /-- ID_MODULE.MODULE_REV -/
  moduleRev : Nat
  /-- ID_SERIAL -/
  serial : Nat
  /-- Maximum module power of the assembly, W (Table 00-1) -/
  maxPower : Nat
  /-- The public identity key IK_PUB, 96 bytes (R285) -/
  ikPub : List Byte
  /-- BK_PUB, 96 bytes -/
  bkPub : List Byte
deriving DecidableEq, Repr, Inhabited

/-- The fused figures of the part (log entry 2). -/
opaque Config.fused : Fused

/-- A value the spec leaves open, drawn afresh: the state's counter `freeCount` numbers the draws (log entry 4). -/
opaque Config.freeValue : Nat → BitVec 64

/-- What an HBM byte reads as that the tenancy whose key has this number has not written: a function of the key and the
byte's device physical address (R293, log entry 21). -/
opaque Config.hbmStale : Nat → Nat → BitVec 8

/-- SHA-384 of a byte string: 48 bytes (log entry 20). -/
opaque Config.sha384 : List Byte → List Byte

/-- HMAC-SHA-384 of a key and a message (chapter 08, "Keys in fuses"; log entry 20). -/
opaque Config.hmac384 : List Byte → List Byte → List Byte

/-- The x-coordinate of d_B × a public key, 48 bytes (Z_B, Table 08-1; log entry 20). -/
opaque Config.ecdhB : List Byte → List Byte

/-- AES key unwrap under RFC 3394: nothing where its integrity check fails (R313; log entry 20). -/
opaque Config.keyUnwrap : List Byte → List Byte → Option (List Byte)

/-- AES-256-GCM decryption of a ciphertext: key, IV, ciphertext (R314, R316; log entry 20). -/
opaque Config.gcmPlain : List Byte → List Byte → List Byte → List Byte

/-- The AES-256-GCM tag: key, IV, additional data, ciphertext (R314, R316; log entry 20). -/
opaque Config.gcmTag : List Byte → List Byte → List Byte → List Byte → List Byte

/-- The ECDSA P-384 verification equation holds: public key, r and s, digest (R315, R328; log entry 20). -/
opaque Config.ecdsaHolds : List Byte → List Byte → List Byte → Bool

/-- ECDSA P-384 signature by IK over a digest, r then s, with k derived as R329 says: nothing where the sign is
degenerate (R324, R329; log entry 20). -/
opaque Config.signIk : List Byte → Option (List Byte)

/-- What the decompressor makes of Zstandard frames, nothing where they are in error (R526; log entry 26). -/
opaque Config.zstd : List Byte → Option (List Byte)

/-- What the decompressor makes of a raw DEFLATE stream, nothing where it is in error (R526; log entry 26). -/
opaque Config.inflate : List Byte → Option (List Byte)

/-- The MCTP endpoint UUID (R207 names it and gives no value; log entry 31). -/
opaque Config.uuid : List Byte

/-- The part number of the FRU record, in ASCII (chapter 05 gives no value; log entry 31). -/
opaque Config.partNumber : List Byte

/-- The PDR of a sensor (chapter 05 lists the sensors and no more of the record; log entry 31). -/
opaque Config.pdr : Nat → List Byte

/-- Where a cluster places what a context holds (log entry 45): [0, cluster, slot, launch, index, group] the group's place
among the 16 group slots of its scheduler, [1, …] its first register, [2, cluster, slot, launch, index] the context's
first byte of near memory. -/
opaque Config.place : List Nat → Nat

end Sys2Proof
end

