-- ==== Sys2Proof/Machine/Bits.lean ====
section
/-! DEFINITION. Bit fields, little-endian bytes and the two checksums of the spec. -/

namespace Sys2Proof

/-- Bits `hi` down to `lo` of `w` (R5: bit 0 is the least significant). -/
def bitsOf (w hi lo : Nat) : Nat := w / 2 ^ lo % 2 ^ (hi + 1 - lo)

/-- `w` with bits `hi` down to `lo` replaced by `v`, reduced to the field's width. -/
def setBits (w hi lo v : Nat) : Nat :=
  w / 2 ^ (hi + 1) * 2 ^ (hi + 1) + v % 2 ^ (hi + 1 - lo) * 2 ^ lo + w % 2 ^ lo

/-- One bit as a number. -/
def bitOf (w b : Nat) : Nat := w / 2 ^ b % 2

/-- One bit as a truth value. -/
def tst (w b : Nat) : Bool := bitOf w b == 1

/-- `w` with bit `b` set to `v`. -/
def putBit (w b : Nat) (v : Bool) : Nat := setBits w b b (if v then 1 else 0)

/-- A truth value as 0 or 1. -/
def b2n (b : Bool) : Nat := if b then 1 else 0

/-- The positions below `n` at which `w` has a 1. -/
def bitList (w n : Nat) : List Nat := (List.range n).filter (fun b => tst w b)

/-- How many of the `n` low bits of `w` are 1. -/
def popCount (w n : Nat) : Nat := (bitList w n).length

/-- The lowest position below `n` at which `w` has a 1. -/
def lowBit (w n : Nat) : Option Nat := (List.range n).find? (fun b => tst w b)

/-- `n` bytes of `v`, little-endian (R4). -/
def leBytes : Nat → Nat → List Byte
  | 0, _ => []
  | n + 1, v => BitVec.ofNat 8 v :: leBytes n (v / 256)

/-- The number little-endian bytes spell (R4). -/
def ofLe : List Byte → Nat
  | [] => 0
  | b :: t => b.toNat + 256 * ofLe t

/-- `n` bytes of `l` from byte `off` on; bytes past the end read as 0. -/
def sliceOf (l : List Byte) (off n : Nat) : List Byte :=
  (List.range n).map (fun i => l.getD (off + i) 0)

/-- The unsigned little-endian number in bytes `[off, off + n)` of `l`. -/
def leAt (l : List Byte) (off n : Nat) : Nat := ofLe (sliceOf l off n)

/-- A list of bytes padded with zeros, or cut, to `n` bytes. -/
def fitTo (n : Nat) (l : List Byte) : List Byte := (l ++ List.replicate (n - l.length) 0).take n

/-- Saturating count of a 32-bit counter. -/
def sat32 (n : Nat) : Nat := min n 0xFFFFFFFF

/-- The signed value of the low `w` bits of `n`. -/
def sgn (w n : Nat) : Int := (BitVec.ofNat w n).toInt

/-- The low `w` bits of an integer. -/
def unsgn (w : Nat) (i : Int) : Nat := (BitVec.ofInt w i).toNat

/-- One bit of a CRC-8 with polynomial 0x07 (R655, R716). -/
def crc8Bit (c : Nat) : Nat := if 128 ≤ c then Nat.xor (c * 2 % 256) 7 else c * 2 % 256

/-- CRC-8, polynomial 0x07, initial value 0, no reflection (R655, R716). -/
def crc8 (l : List Byte) : Nat :=
  l.foldl (fun c b => crc8Bit (crc8Bit (crc8Bit (crc8Bit (crc8Bit (crc8Bit (crc8Bit (crc8Bit (Nat.xor c b.toNat))))))))) 0

/-- One bit of a reflected CRC-32C. -/
def crc32cBit (c : Nat) : Nat := if c % 2 = 1 then Nat.xor (c / 2) 0x82F63B78 else c / 2

/-- CRC-32C (Castagnoli), reflected, initial value and final XOR all ones. PRESUMED: the usual parameters of the
name (log entry 6). -/
def crc32c (l : List Byte) : Nat :=
  Nat.xor 0xFFFFFFFF (l.foldl (fun c b => crc32cBit (crc32cBit (crc32cBit (crc32cBit (crc32cBit (crc32cBit (crc32cBit (crc32cBit (Nat.xor c b.toNat))))))))) 0xFFFFFFFF)

end Sys2Proof
end

