-- ==== Sys2Proof/Machine/FMap.lean ====
section
/-! DEFINITION. Sparse maps in one canonical form: keys strictly rising, no entry equal to what an unlisted key
reads as. Every indexed piece of the state (memory bytes, registers, slots, slices, ports …) is such a map, so equal
contents are equal data. -/

namespace Sys2Proof

/-- A sparse map from natural-number keys; `d k` is what an unlisted key `k` reads as. -/
abbrev FMap (α : Type) := List (Nat × α)

/-- Read key `k`. -/
def fget {α : Type} (d : Nat → α) : FMap α → Nat → α
  | [], k => d k
  | (k', v) :: t, k => if k' = k then v else fget d t k

/-- Put `v` under key `k` in front of the first greater key. -/
def fins {α : Type} (k : Nat) (v : α) : FMap α → FMap α
  | [] => [(k, v)]
  | (k', v') :: t => if k < k' then (k, v) :: (k', v') :: t else (k', v') :: fins k v t

/-- Write `v` at key `k`, keeping the canonical form: a value that `k` reads as unlisted is not listed. -/
def fset {α : Type} [DecidableEq α] (d : Nat → α) (m : FMap α) (k : Nat) (v : α) : FMap α :=
  let r := m.filter (fun e => e.1 != k)
  if v = d k then r else fins k v r

/-- Change the value at key `k`. -/
def fmod {α : Type} [DecidableEq α] (d : Nat → α) (m : FMap α) (k : Nat) (f : α → α) : FMap α :=
  fset d m k (f (fget d m k))

/-- Write `v` at each key of the list. -/
def fsetAll {α : Type} [DecidableEq α] (d : Nat → α) (m : FMap α) (ks : List Nat) (v : α) : FMap α :=
  ks.foldl (fun m k => fset d m k v) m

/-- Keys in `[lo, hi)` return to what they read as unlisted. -/
def fclear {α : Type} (m : FMap α) (lo hi : Nat) : FMap α :=
  m.filter (fun e => e.1 < lo || hi ≤ e.1)

/-- The canonical form: every key below the next, and no entry equal to the default. -/
def fwf {α : Type} [DecidableEq α] (d : Nat → α) : FMap α → Bool
  | [] => true
  | [(k, v)] => decide (v ≠ d k)
  | (k, v) :: (k', v') :: t => decide (v ≠ d k) && decide (k < k') && fwf d ((k', v') :: t)

end Sys2Proof
end

