-- ==== Sys2Proof/Machine/PartsA.lean ====
section
/-! DEFINITION. The state of the host-die units: power and pins (01), boot sequencer (03), tick unit (02), exchange
memory (04), Ewebin (19), fault controller (20), recorder (21), freeze, observer and limiter (22). Registers live in the
register file of `State`; what stands here is the state the spec gives these units beside their registers. Each field
says its rule. All are plain data. -/

namespace Sys2Proof.Machine

/-- Whether the module is powered (R21, R24, R29). -/
inductive PowerMode where
  /-- every rail on -/
  | on
  /-- a power-fail, overvoltage or overcurrent flush has begun; only the hold-up domain is powered -/
  | failed
  /-- an overcurrent shutdown: off until the next cold power-on, R24 -/
  | tripped
deriving DecidableEq, Repr

/-- Power and pins (chapter 01). -/
structure Power where
  /-- R21, R24, R29 -/
  mode : PowerMode := .on
  /-- PERST_N is asserted (R39, R114) -/
  perst : Bool := true
  /-- FREEZE_N is driven low by this module (R35) -/
  freezeDrive : Bool := false
  /-- FREEZE_N is held low by another module of the tray (R34) -/
  freezeIn : Bool := false
  /-- clock reading at which PERST_N was released or the hot reset began (BOOT_READY_TIME) -/
  releaseClk : Nat := 0
  /-- a cold power-on is due once the input is back (R21, R29) -/
  restartDue : Bool := false
  /-- POWER_STATE has requested doze (R121) -/
  dozeAsked : Bool := false
  /-- the part is in doze (R121 to R124) -/
  doze : Bool := false
  /-- a doze exit or a D0 return waits for its resume boundary: run-clock reading at which it began, plus 1 (R124, R125) -/
  resumeFrom : Nat := 0
  /-- PF0 is in D3hot, and dispatch has stopped for it (R125) -/
  pf0D3 : Bool := false
  dispatchOff : Bool := false
  /-- VFs in D3hot, as a mask (R126) -/
  vfD3 : Nat := 0
  /-- VFs that returned to D0 and resume at the next boundary, as a mask (R126) -/
  vfResume : Nat := 0
  /-- units that are clock-gated, as model unit numbers (R120) -/
  gated : FMap Nat := []
deriving DecidableEq, Repr

/-- Boot sequencer (chapter 03). Units are numbered 0 to 87 as their counter bytes are (Table 03-10). -/
structure Boot where
  /-- counter bytes as this start works with them, Table 03-10 -/
  counters : FMap Nat := []
  /-- NOR offset of this start's boot entry, R108 -/
  entryAt : Nat := 0x1C00000
  /-- this start's boot entry was programmed -/
  entryOk : Bool := false
  /-- units, as a mask, whose training parameters are held: those that last trained with success since cold power-on (Table 03-6) -/
  saved : Nat := 0
  /-- clock reading at which step 1 of this start began (R716) -/
  startClk : Nat := 0
  /-- clock reading at which the running step began -/
  stepClk : Nat := 0
  /-- units (bit mask of 88) that failed or were skipped at this start -/
  downMask : Nat := 0
  /-- units that failed at this start -/
  failMask : Nat := 0
  /-- the running step is waiting for PERST_N release (step 3, R89) -/
  waitPerst : Bool := false
  /-- configuration requests are answered normally (R91) -/
  configReady : Bool := false
  /-- the running step was frozen for a while (Table 03-9 FLAGS) -/
  stepFrozen : Bool := false
deriving DecidableEq, Repr

/-- One reference of the tick unit (R58, R59). -/
structure RefState where
  /-- it has a prediction -/
  pred : Bool := false
  /-- predicted time of the next edge or marker, on the run clock -/
  nextAt : Nat := 0
  /-- run-clock reading of the first valid edge or marker after the last loss -/
  since : Nat := 0
  /-- consecutive predicted edges missing or invalid -/
  missed : Nat := 0
  /-- the last valid marker carried HOLDOVER 1 -/
  holdover : Bool := false
  /-- HOPS of the last valid marker -/
  hops : Nat := 0
  /-- it was lost since the last boundary (R61) -/
  lostNow : Bool := false
deriving DecidableEq, Repr

/-- The tick unit's pending notice (Table 02-7). -/
structure TickNotice where
  cause : Nat
  state : Nat
  prev : Nat
  causes : Nat
  count : Nat
  tick : Nat
  tai : Nat
  phase : Nat
  status : Nat
  other : Nat
  offset : Nat
deriving DecidableEq, Repr

/-- Tick unit and calendar (chapter 02). -/
structure Tick where
  /-- the tick runs (TCK_STATUS.STATE is not 000) -/
  running : Bool := false
  /-- run-clock reading of the last boundary -/
  bndClk : Nat := 0
  pri : RefState := {}
  sec : RefState := {}
  /-- run-clock reading of the last TICK_IN edge -/
  inLast : Option Nat := none
  /-- the last intervals between TICK_IN edges since cold power-on, newest first, at most 8 (R57) -/
  inIvals : List Nat := []
  /-- tick acquire is listening (R52) -/
  listening : Bool := false
  /-- clock reading at which acquire began -/
  acqClk : Nat := 0
  /-- TICK_IN edges recorded since acquire began, newest first -/
  acqEdges : List Nat := []
  /-- markers heard since acquire began: port, run-clock reading and marker, newest first -/
  heard : List (Nat × Nat × MarkerMsg) := []
  /-- role, primary and secondary source that TICK_CONFIG leaves in force from the next boundary on (R61, R196) -/
  pendCfg : Option (Nat × Nat × Nat) := none
  /-- a pending time set: target boundary, its TAI time (R73) and the command's opcode -/
  pendTime : Option (Nat × Nat × Nat) := none
  /-- the switch target was lost during SWITCHING (R64) -/
  targetLost : Bool := false
  /-- the notice held for slot 1,012 (R86) -/
  notice : Option TickNotice := none
  /-- the calendar conversion stood past 2399 when last looked at (R85) -/
  wasOut : Bool := false
deriving DecidableEq, Repr

/-- Pacing of one MSI-X vector (R156). -/
structure MsixPace where
  /-- a message was sent and its pacing interval still runs -/
  busy : Bool := false
  /-- a change waits for the end of the interval -/
  merged : Bool := false
  /-- the vector is masked by its table entry, as PCIe leaves it after a reset of the function (log entry 9) -/
  masked : Bool := true
  /-- the vector's Pending Bit -/
  pba : Bool := false
deriving DecidableEq, Repr

/-- Exchange memory (chapter 04). -/
structure Exchange where
  /-- the 8 MiB of bytes, slots included; zero after step 7 (R96) -/
  mem : FMap Byte := []
  /-- word addresses that hold an uncorrectable error (R128, R133): 1 where one does -/
  ue : FMap Nat := []
  /-- the pending word of each VF (Table 04-6) -/
  pendVf : FMap Nat := []
  /-- run-clock reading at which each semaphore word was acquired, plus 1; 0 when it is not held (R149) -/
  acq : FMap Nat := []
  /-- MSI-X vectors, keyed 32 × function + vector -/
  msix : FMap MsixPace := []
deriving DecidableEq, Repr

/-- One Ewebin port (chapter 19). STATE, PEER, WIDTH, … are in EWB_P_STATUS. -/
structure Port where
  /-- the leg to the own bypass element is trained (Table 19-1) -/
  leg : Bool := false
  /-- cumulative freed counts received by CREDIT, per VC (R657) -/
  creditRx : List Nat := [0, 0, 0, 0]
  /-- flits sent per VC since LINK_TRAIN -/
  sentVc : List Nat := [0, 0, 0, 0]
  /-- buffer entries freed here per VC since LINK_TRAIN, sent in CREDIT -/
  freedVc : List Nat := [0, 0, 0, 0]
  /-- SEQ of the next flit sent (R658) -/
  txSeq : Nat := 0
  /-- SEQ expected next -/
  rxSeq : Nat := 0
  /-- the replay buffer, oldest first (R658) -/
  replay : List Flit := []
  /-- flits waiting for a credit on this port, oldest first, with the port they arrived on (16 for own flits) -/
  txq : List (Nat × Flit) := []
  /-- successive NAKs of one SEQ (R660) -/
  nakSeq : Nat := 0
  nakRun : Nat := 0
  /-- the peer's TRAIN HELLO, when one came: address, site, role, domain, Y_SIZE, RACK_TRAYS, FORCE_CRYPT, lanes -/
  hello : Option (List Nat) := none
  /-- TRAIN KEY chunks received (R683), chunk number and bytes -/
  keyChunks : List (Nat × List Byte) := []
  /-- a link key is loaded (R683) -/
  keyed : Bool := false
  /-- the own bypass element is open -/
  elemOpen : Bool := false
  /-- the tap carries a frame stream (R672) -/
  stream : Bool := false
  /-- the tap carried a stream at entry (R672, ENTERING) -/
  needUp : Bool := false
  /-- PAUSE received for the window held (R673) -/
  pauseRx : Bool := false
  /-- PAUSE sent -/
  pauseTx : Bool := false
  /-- DRAINED sent -/
  drainTx : Bool := false
  /-- DRAINED heard on this tap: bit 0 and bit 1 for its two directions (R672) -/
  drainRx : Nat := 0
  /-- one-way delay samples of the measurement in progress, ps (R670) -/
  samples : List Nat := []
  /-- DELAY_REQ symbols answered still awaited -/
  awaiting : Nat := 0
deriving DecidableEq, Repr

/-- Ewebin links (chapter 19). -/
structure Ewebin where
  ports : FMap Port := []
  /-- the pending window's kind: 0 none, 1 admit, 2 remove -/
  winKind : Nat := 0
  /-- ring and direction of the gap the pending window concerns -/
  winRing : Nat := 0
  winDir : Nat := 0
  /-- this module started the window itself (sends ANNOUNCE) -/
  winOwn : Bool := false
  /-- this module is the waiting module of the window -/
  winEnter : Bool := false
  /-- the last window's boundary count, kept until its ports are up again (R675) -/
  winAt : Nat := 0
  /-- flits delivered here for the collective engines, oldest first: arrival port and flit -/
  inbox : List (Nat × Flit) := []
  /-- FAIL_NOTICEs forwarded: (ORIGIN, NID), R680 -/
  seenNotice : List (Nat × Nat) := []
  /-- FREEZE and THAW symbols forwarded: (TYPE, ORIGIN, FID), R681 -/
  seenFreeze : List (Nat × Nat × Nat) := []
  /-- next NID of this module's own notices -/
  nextNid : Nat := 0
  /-- IK_DIGESTs of the last 8 peers whose Z_I is held, newest first (R683) -/
  zCache : List (List Byte) := []
deriving DecidableEq, Repr

/-- A pending fault notice (Table 20-3). -/
structure FaultNotice where
  kind : Nat
  unit : Nat
  inst : Nat
  count : Nat
  tick : Nat
  tai : Nat
  fenced : Bool
  us : Nat
deriving DecidableEq, Repr

/-- Fault controller (chapter 20). -/
structure Faults where
  /-- pending UNCONTAINED notice (R702) -/
  nUnc : Option FaultNotice := none
  /-- pending RECOVERED notice -/
  nRec : Option FaultNotice := none
  /-- pending CE_RATE notice -/
  nCe : Option FaultNotice := none
  /-- pending CONTAINED notices, one per VF -/
  nCon : FMap (Option FaultNotice) := []
  /-- the fences the running recovery still has to apply: fault code, unit, instance (R693, R697) -/
  fences : List (Nat × Nat × Nat) := []
  /-- corrected errors of each unit in the current hour, keyed by UNIT (R691) -/
  ceHour : FMap Nat := []
  /-- a CE_RATE notice was posted for the unit in this hour -/
  cePosted : FMap Nat := []
  /-- commons arbitration parity faults of each half in this start (R701) -/
  parity : FMap Nat := []
  /-- run-clock reading at which the recovery began -/
  beganClk : Nat := 0
  /-- engine instances fenced until reset (R700) -/
  engDown : Nat := 0
  /-- units whose usable bit a run-time fence cleared in this start -/
  rtMask : Nat := 0
  /-- a tenancy release was running when the recovery began, so it clears no slice (chapter 20) -/
  releasing : Bool := false
  /-- a fault of the running recovery was in a model map (R694) -/
  modelHit : Bool := false
  /-- an injection was written while the part is frozen, and is raised at the thaw (R706, R705) -/
  injectDue : Bool := false
  /-- the run-time fence has been applied and changed a unit -/
  fencedAny : Bool := false
deriving DecidableEq, Repr

/-- One record of the event recorder (Table 21-2). -/
structure Record where
  code : Nat
  sev : Nat
  timeValid : Bool
  snapshot : Bool
  injected : Bool
  units : Nat
  seq : Nat
  time : Nat
  bootSeq : Nat
  vf : Nat
  unit : Nat
  arg16 : Nat
  arg : Nat
deriving DecidableEq, Repr

/-- A record in the volatile buffer with its snapshot body and how many of its units each log has (R721, R722). -/
structure BufRec where
  hdr : Record
  /-- body units of 32 bytes, for a snapshot -/
  body : List (List Byte)
  ringDone : Nat
  /-- it is to be programmed into the first-fault log -/
  ffWant : Bool
  ffDone : Nat
deriving DecidableEq, Repr

/-- A pending recorder notice (Table 21-6). -/
structure RecNotice where
  trigger : Nat
  count : Nat
  seq : Nat
  tick : Nat
deriving DecidableEq, Repr

/-- Event recorder (chapter 21) and the NOR device (R30, R31). -/
structure Recorder where
  /-- the 32 MiB NOR device; an unlisted byte is erased, 0xFF -/
  nor : FMap Byte := []
  /-- NOR bytes whose value is unspecified (R711): 1 where so -/
  norOpen : FMap Nat := []
  /-- the volatile buffer, oldest first -/
  buf : List BufRec := []
  /-- first lost SEQ and number lost since the last RECORDS_LOST record (R724) -/
  lostFirst : Nat := 0
  lostCount : Nat := 0
  /-- sector sequence of each log's current sector: first-fault, ring -/
  ffSector : Nat := 0
  ringSector : Nat := 0
  /-- erased margin in slots (R723) -/
  margin : Nat := 0
  /-- consecutive program or erase failures (R715) -/
  norFails : Nat := 0
  /-- the NOR device cannot be read (R97, R727) -/
  norDead : Bool := false
  /-- run-end list write position, slot 0–2,047 (R734) -/
  runEnd : Nat := 0
  /-- SEQ of the newest record programmed into each log, plus 1; 0 none (R735) -/
  ffNewest : Nat := 0
  ringNewest : Nat := 0
  /-- a LOG_CLEAR job clears this log: 0 none, 1 first-fault, 2 ring (R737) -/
  clearing : Nat := 0
  /-- first-fault copies the last flush skipped -/
  ffSkipped : Nat := 0
  /-- pending notices by class 1–4 (R740) -/
  notices : FMap (Option RecNotice) := []
deriving DecidableEq, Repr

/-- Freeze controller, observer, TAP and limiter (chapter 22). -/
structure Freeze where
  /-- a thaw waits for the part to be static (Table 22-3): 0 none, 2 from the command, 3 from a symbol -/
  thawPending : Nat := 0
  /-- clock reading at which the freeze request came -/
  reqClk : Nat := 0
  /-- TAP instruction register (Table 22-5); IDCODE after TAP reset -/
  tapIr : Nat := 1
  /-- boundary-scan register: what was last shifted in -/
  scanReg : Nat := 0
  /-- what drives the pins: 0 the part, 1 EXTEST, 2 CLAMP, 3 HIGHZ (R759) -/
  pinMode : Nat := 0
  /-- OBS_ADDR: object, index, offset -/
  obsObject : Nat := 0
  obsIndex : Nat := 0
  obsOffset : Nat := 0
  /-- OBS_STATUS bits NOT_FROZEN and BAD_ADDR -/
  obsNotFrozen : Bool := false
  obsBadAddr : Bool := false
  /-- PWR_CAP.CAP_W, W; none at the assembly maximum (R766) -/
  capW : Option Nat := none
  /-- a power or thermal hold lasts (R765) -/
  hold : Bool := false
  /-- a boundary has passed since the hold was imposed, so no slot dispatches -/
  holdStops : Bool := false
  /-- run of samples below 90 % of the cap, µs (R763, R765) -/
  lowUs : Nat := 0
  /-- hottest junction of the last reading, °C -/
  hottest : Int := 0
deriving DecidableEq, Repr

/-- Configuration-space state that the part acts on (R91, R106, R125, R126, R210, R211, Table 08-7): the SR-IOV capability's
controls and VF BARs, and the functions' Bus Master Enable, Memory Space Enable and MSI-X enable as masks by function
(bit 0 PF0, bit n VF n), with the MSI-X Function Mask. -/
structure Pcie where
  numVfs : Nat := 0
  vfEnable : Bool := false
  vfMse : Bool := false
  vfBar0 : Nat := 0
  vfBar2 : Nat := 0
  busMaster : Nat := 0
  memEnable : Nat := 0
  msixEnable : Nat := 0
  msixMask : Nat := 0
  /-- PF0's BARs -/
  bar0 : Nat := 0
  bar2 : Nat := 0
deriving DecidableEq, Repr

end Sys2Proof.Machine
end

