-- ==== Sys2Proof/Machine/Outputs.lean ====
section
/-! DEFINITION. What the part puts out: each step adds its outputs to the front of `State.out` (log entry 5). -/

namespace Sys2Proof.Machine

/-- One output of the part. -/
inductive Output where
  /-- an MSI-X message of function `fn` (0 PF0, n VF n) on vector `vec` (R156, R231) -/
  | msix (fn vec : Nat)
  /-- the answer to an exchange read: port (0 H, 1 D), requester, data, poisoned (R129, R133) -/
  | readData (port id : Nat) (data : List Byte) (poisoned : Bool)
  /-- the value a BAR0 read returns to requester `fn` -/
  | regData (fn : Nat) (value : Word)
  /-- the answer to a configuration request: none is Request Retry Status (R91) -/
  | config (fn : Nat) (data : Option Nat)
  /-- a completion with Unsupported Request of function `fn` (R306) -/
  | unsupported (fn : Nat)
  /-- the Device Readiness Status message (R93) -/
  | readiness
  /-- bytes written into the host memory of VF `vf` by DMA (R212, R229) -/
  | dma (vf : Nat) (addr : Nat) (data : List Byte)
  /-- an ATS Invalidate Completion (R213) -/
  | atsDone (vf tag : Nat)
  /-- a 16-byte control symbol sent on an Ewebin port (Table 19-4) -/
  | symbol (port : Nat) (bytes : List Byte)
  /-- a flit sent on an Ewebin port -/
  | flit (port : Nat) (f : Flit)
  /-- an MCTP or PLDM response: medium (0 I3C, 1 PF0 VDM) and bytes (R207) -/
  | mctp (medium : Nat) (bytes : List Byte)
  /-- an SPDM response: code and payload (chapter 08) -/
  | spdm (code : Nat) (payload : List Byte)
  /-- an IDE_KM or TDISP response: message code and payload (R301, R303) -/
  | vendor (code : Nat) (payload : List Byte)
  /-- bits shifted out of the TAP's data register (Table 22-5) -/
  | tap (bits value : Nat)
  /-- a rising edge of TICK_OUT (R76) -/
  | tickOut (count : Nat)
  /-- a pulse of a TRIG output: sensor die, output, width in 10 ns, inverted (R628) -/
  | trig (die t width : Nat) (inverted : Bool)
  /-- bytes of an engine's collective to a ring member (R530) -/
  | note (text : String) (a b : Nat)
deriving DecidableEq, Repr

end Sys2Proof.Machine
end

