-- ==== Sys2Proof/Machine/PartsB.lean ====
section
/-! DEFINITION. The state of the command engine (05), the queues (06), tenancy and slices (07), trust (08), the memory
system (09) and the scheduler (15). Registers live in the register file of `State`; what stands here is the state the
spec gives these units beside their registers. All are plain data. -/

namespace Sys2Proof.Machine

/-! ### Command engine (chapter 05) -/

/-- One of the four job units (Table 05-14). A paused job is a running one while the part is frozen (R174). -/
structure Job where
  /-- 0 empty, 1 running, 3 ended -/
  state : Nat := 0
  num : Nat := 0
  /-- 0 PF0, n VF n, 0xFF the part's own release (R259) -/
  fn : Nat := 0
  op : Nat := 0
  final : Nat := 0
  detail : Nat := 0
  tag : Nat := 0
  progress : Nat := 0
  total : Nat := 0
  /-- what the job works on: a slice, a log, a NOR offset, a host address -/
  a : Nat := 0
  b : Nat := 0
  c : Nat := 0
  /-- order in which jobs ended, for the choice of a unit -/
  endAt : Nat := 0
  /-- run-clock reading at which it started -/
  beganClk : Nat := 0
deriving DecidableEq, Repr

/-- A slice layout, in the units of SLICE_CREATE (Table 07-1). -/
structure Layout where
  mode : Nat := 0
  share : Nat := 0
  clusters : Nat := 0
  commons : Nat := 0
  hbm : Nat := 0
  engShare : Nat := 0
deriving DecidableEq, Repr

/-- A change accepted for a tick boundary: kind 1 create, 2 resize, 3 destroy, 4 schedule swap (R176, R177). -/
structure Change where
  kind : Nat
  vf : Nat
  tick : Nat
  lay : Layout
  /-- HYPER of a swap -/
  hyper : Nat
  /-- the DPA at which a create or resize places the reservation -/
  base : Nat
deriving DecidableEq, Repr

/-- The command engine. -/
structure Engine where
  units : FMap Job := []
  /-- last job number given to each function (R170) -/
  lastJob : FMap Nat := []
  /-- the VF slot taken last (R168) -/
  lastVf : Nat := 63
  /-- the last ended command came from slot 0 -/
  lastWasPf : Bool := false
  /-- jobs ended so far -/
  ended : Nat := 0
  /-- accepted changes, in the order of acceptance (R176) -/
  changes : List Change := []
  /-- MCTP endpoint IDs by medium (R207): 0 I3C, 1 PF0 VDM -/
  eids : FMap Nat := []
  /-- PLDM terminus ID -/
  tid : Nat := 0
deriving DecidableEq, Repr

/-! ### Queues (chapter 06) -/

/-- A fetched command (R224, R234). -/
structure QCmd where
  /-- the model's name for it, unique in a run -/
  uid : Nat
  /-- buffer ID and number of ring descriptors of its chain -/
  id : Nat
  descs : Nat
  /-- its writable buffers: address and length -/
  outs : List (Nat × Nat)
  /-- its readable bytes: header and body -/
  bytes : List Byte
  /-- 0 fetched, 1 started, 2 finished and to be completed -/
  phase : Nat
  status : Nat
  detail : Nat
  result : Nat
  /-- tick count in which its fence wait began or last saw progress (R238); none while it does not wait -/
  waitTick : Option Nat
deriving DecidableEq, Repr

/-- One queue (chapter 06). Its settings and ERROR are in its registers. -/
structure Queue where
  availPos : Nat := 0
  availWrap : Bool := true
  usedPos : Nat := 0
  usedWrap : Bool := true
  /-- the last doorbell still to be acted on: NEXT_OFF + 2^15 NEXT_WRAP -/
  bell : Option Nat := none
  /-- fetched commands not completed, in ring order -/
  cmds : List QCmd := []
  /-- a HOLDOFF_US interval runs, and a message waits for its end (R231) -/
  irqBusy : Bool := false
  irqMerged : Bool := false
deriving DecidableEq, Repr

/-- One fence of a slice (R235). -/
structure Fence where
  value : Nat := 0
  err : Bool := false
  /-- the last tick count in which it changed or a command naming it as SIGNAL_FENCE started or ran (R238) -/
  tick : Nat := 0
deriving DecidableEq, Repr

/-- A registered kernel image: the fields of Table 06-7 the part acts on, its code and its constants (R251). -/
structure Kernel where
  flags : Nat
  isa : Nat
  entry : Nat
  regs : Nat
  uniforms : Nat
  localBytes : Nat
  argBytes : Nat
  split : Nat
  handler : Nat
  code : List Byte
  consts : List Byte
deriving DecidableEq, Repr

/-- One slice beside its registers (chapters 06 to 09). -/
structure Slice where
  /-- the state to return to after RESETTING (Table 07-3) -/
  prev : Nat := 2
  /-- a clearing under R277 runs; bit 0 a slice reset job's, bit 1 an FLR's, bit 2 a TDI's, bit 3 a destroy's; bit 4 says
  that its begin waits for the thaw (R753) -/
  clearing : Nat := 0
  /-- a VF FLR is in progress (R118) -/
  flrBusy : Bool := false
  /-- what a destroyed slice still holds while its clearing runs: layout and base of its reservation (R276) -/
  gone : Option (Layout × Nat) := none
  /-- DPA of its commons reservation (R336) -/
  base : Nat := 0
  /-- fences -/
  fences : FMap Fence := []
  /-- kernel handles 1 to 256 -/
  kernels : FMap (Option Kernel) := []
  /-- KMEAS; empty is 48 zero bytes (R320) -/
  kmeas : List Byte := []
  kcount : Nat := 0
  resets : Nat := 0
  /-- the map view: entry of each granule (Table 09-5) -/
  map : FMap Nat := []
  /-- frame behind each valid granule, plus 1 -/
  frame : FMap Nat := []
  /-- quarantined frames: granule and frame, oldest first (R356) -/
  quar : List (Nat × Nat) := []
  /-- INV_BASE, INV_DONE, MAP_ERRORS and LAST_ERROR of the control page (Table 09-7) -/
  invBase : Nat := 0
  invDone : Nat := 0
  mapErrors : Nat := 0
  lastError : Nat := 0
  /-- invalidations started and not completed, in arrival order: first granule and count (R358) -/
  invs : List (Nat × Nat) := []
  /-- the clusters that pass to it only when they have drained, or that drain from it, are in its registers; this is the
  boundary after which bounds are enforced (R566): 0 none -/
  boundsAt : Nat := 0
  /-- a failed bounds step was logged -/
  boundsLogged : Bool := false
deriving DecidableEq, Repr

/-! ### Trust (chapter 08) -/

/-- One IDE stream (R301): the key sets programmed and the ones running, bit 6 × key set + 2 × sub-stream (0 PR, 1 NPR,
2 CPL) + direction. -/
structure Stream where
  keys : Nat := 0
  running : Nat := 0
deriving DecidableEq, Repr

/-- One TDI beside SEC_TDI (R303). -/
structure Tdi where
  /-- START_INTERFACE nonce the lock returned -/
  nonce : List Byte := []
  lockMsix : Bool := false
deriving DecidableEq, Repr

/-- One SPDM session (R298): its ID, whether FINISH completed it, and the number of key updates. -/
structure Session where
  id : Nat
  up : Bool
  updates : Nat
deriving DecidableEq, Repr

/-- The security engine. -/
structure Trust where
  opLabel : List Byte := []
  tenantId : List Byte := []
  /-- how many tenancy keys this run has drawn; the key in force is named by this number (R287, R293) -/
  keyGen : Nat := 0
  /-- last TENANCY_ID given since the last cold or warm reset (R183) -/
  lastTen : Nat := 0
  /-- run-clock reading at which the grace time began (R258) -/
  graceClk : Nat := 0
  sessions : List Session := []
  /-- versions and algorithms have been negotiated: 0 none, 1 version, 2 capabilities, 3 algorithms -/
  spdm : Nat := 0
  /-- the load's decompressor has stopped with an error (R528) -/
  decodeBad : Bool := false
  /-- what the load hash unit passed to the decompressor hashes to (R316); empty until it has -/
  loadHash : List Byte := []
  /-- bytes the decompressor has placed -/
  loadOut : Nat := 0
  /-- the requester's DataTransferSize, from GET_CAPABILITIES -/
  xfer : Nat := 0
  /-- a large message in transfer: bytes received and bytes still to send (R296) -/
  chunkIn : List Byte := []
  chunkOut : List Byte := []
  streams : FMap Stream := []
  tdis : FMap Tdi := []
  /-- model measurement beyond the SEC_ registers (R319) -/
  headerDigest : List Byte := []
  signerDigest : List Byte := []
  dmeas : List Byte := []
  dcount : Nat := 0
deriving DecidableEq, Repr

/-! ### Commons, HBM and translation (chapter 09) -/

/-- The memory system. -/
structure Memory where
  /-- commons bytes by DPA; zero after step 7 (R96) -/
  cmn : FMap Byte := []
  /-- HBM bytes by DPA: the byte plus 1; 0 where nothing was written since the frame was last zeroed -/
  hbm : FMap Nat := []
  /-- frames zeroed under the current tenancy key: 1 -/
  clean : FMap Nat := []
  /-- state of each frame: 0 free, else 64 × s + VF with s 1 zeroing, 2 model, 3 slice, 4 quarantine -/
  frames : FMap Nat := []
  /-- poisoned 64-byte HBM lines and uncorrectable commons words by DPA (R339, R341): 1 -/
  poison : FMap Nat := []
  /-- stack of the frame allocated last (R344) -/
  lastStack : Nat := 7
  /-- the model map: frame of each 2 MiB of the model (R345) -/
  model : List Nat := []
  /-- frames reserved by a running load, in frames (R312) -/
  reserved : Nat := 0
  /-- PLACED_SIZE of the resident model -/
  placed : Nat := 0
  /-- cached translations: keyed (agent × 64 + VF) × 2^18 + granule, entry + 2^64 × (frame + 1); agents 0 to 47 are the
  clusters, 48 and up the engine groups (R354, R355) -/
  tc : FMap Nat := []
  /-- run-clock reading at which the current patrol period began -/
  patrolClk : Nat := 0
deriving DecidableEq, Repr

/-! ### The scheduler (chapter 15) -/

/-- A dispatched slot (Table 15-3). -/
structure Slot where
  bank : Nat
  index : Nat
  kind : Nat
  vf : Nat
  overrun : Nat
  teasel : Bool
  start : Nat
  len : Nat
  clusters : Nat
  /-- RT: the contexts of the slice that were resident at START and have not issued since (R568) -/
  waiting : List Nat
deriving DecidableEq, Repr

/-- The accounting counters of one slice (Table 15-7). Energy is in pJ. -/
structure Account where
  engineNs : List Nat := [0, 0, 0, 0, 0, 0, 0, 0]
  hbm : Nat := 0
  commons : Nat := 0
  host : Nat := 0
  ring : Nat := 0
  energy : Nat := 0
  busy : Nat := 0
  slowdown : Nat := 0
  avg : Nat := 0
  fIssue : Nat := 0
  fMem : Nat := 0
  fEng : Nat := 0
  rtSlots : Nat := 0
  rtMisses : Nat := 0
  switchesOut : Nat := 0
deriving DecidableEq, Repr

/-- The scheduler. HYPER, the active bank, the position and the pending swap are in the SCH_ registers. -/
structure Sched where
  /-- both banks: entry 2048 × bank + index as a 256-bit number (Table 15-3) -/
  table : FMap Nat := []
  /-- what each entry held before its last write, for a read that catches the write (R542) -/
  was : FMap Nat := []
  /-- the group read and not yet dispatched -/
  ready : List Slot := []
  /-- entry 2048 × bank + 32 × position of the position being read, and how many of its entries have been read; 32 when
  none is left -/
  rdBase : Nat := 0
  rdIdx : Nat := 32
  /-- the position being read is the next one, not the current one (R540) -/
  ahead : Bool := false
  /-- slots running now -/
  running : List Slot := []
  /-- LAG by 64 × cluster + slice, and slices held (R545) -/
  lag : FMap Int := []
  held : FMap Nat := []
  /-- the exclusive job: VF, command and run-clock reading at its start (R552) -/
  excl : Option (Nat × Nat × Nat) := none
  /-- no exclusive job starts in the rest of this tick (R552, R553) -/
  exclIdle : Bool := false
  /-- persistence counts and pending slowdown notices by slice (R564) -/
  persist : FMap Nat := []
  sdPend : FMap Nat := []
  /-- action, donor, effective tick and what was added, of the last slowdown event of each slice (Table 15-8) -/
  sdLast : FMap (List Nat) := []
  /-- accounts by slice, 0 the unattributed one; live and as of the last boundary (R556, R560) -/
  acct : FMap Account := []
  acctAt : FMap Account := []
  /-- twice the last tick count in which a slot ran each slice, plus 1 when one did in the tick before too, keyed
  2 × VF + CLASS (R238) -/
  slotTick : FMap Nat := []
  /-- the next model name of a queue command, launch, block or sequence -/
  nextUid : Nat := 1
  acctTick : Nat := 0
  acctTai : Nat := 0
deriving DecidableEq, Repr

end Sys2Proof.Machine
end

