-- ==== Sys2Proof/Machine/PartsC.lean ====
section
/-! DEFINITION. The state of the Yarrow clusters (10, 11, 13), the matrix units (12), the fixed-function engines (14)
and the graph executor (06). All are plain data. -/

namespace Sys2Proof.Machine

/-! ### Yarrow (chapters 10, 11, 13) -/

/-- A mask stack entry (Table 11-8): kind 0 DIVERGE, 1 RECONVERGE, 2 SPLIT; owner 0 whole, 1 low half, 2 high half. -/
structure MaskEntry where
  kind : Nat
  owner : Nat
  rpc : Nat
  pc : Nat
  mask : Nat
deriving DecidableEq, Repr

/-- Where an access goes: space 0 device physical bytes, 1 the context's local store, 2 the control window. -/
structure Loc where
  space : Nat
  addr : Nat
deriving DecidableEq, Repr

/-- A load issued and not returned (Table 10-4): its lanes with what each reads and, once it has been read, the
bytes. -/
structure PendLoad where
  reg : Nat
  size : Nat
  signed : Bool
  lanes : List (Nat × Loc)
  data : List (Nat × List Byte)
deriving DecidableEq, Repr

/-- One group: 32 threads on one scheduler (R367, R368). A whole group uses the first of each pair; a split one uses
the first for its low half. -/
structure Group where
  split : Bool := false
  pc0 : Nat := 0
  pc1 : Nat := 0
  act0 : Nat := 0xFFFFFFFF
  act1 : Nat := 0
  /-- a half waits at its SPLIT JOIN: 0 none, 1 low, 2 high -/
  atJoin : Nat := 0
  exited : Nat := 0
  /-- the mask stack, top first -/
  stack : List MaskEntry := []
  /-- vector registers, keyed 32 × register + lane -/
  regs : FMap Word := []
  unif : FMap Word := []
  /-- predicates p0 to p14 as lane masks -/
  preds : FMap Nat := []
  loads : List PendLoad := []
  /-- YIELD MODE 0: the other groups of its scheduler still to be offered issue, keyed 64 × context slot + group -/
  yieldOn : List Nat := []
  /-- YIELD MODE 1: the tick count after which it may issue, plus 1; 0 none -/
  yieldTick : Nat := 0
  /-- operations in flight of each thread (R404) -/
  inFlight : FMap Nat := []
  /-- window state (Table 13-3) and TRAP_PC -/
  wcur : Nat := 0
  resident : Nat := 1
  spilled : Nat := 0
  inTrap : Bool := false
  trapKind : Nat := 0
  handlerCount : Nat := 0
  trapPc : Nat := 0
  /-- the next instruction is the first after a WRESUME (R480, R481) -/
  resumed : Bool := false
deriving DecidableEq, Repr

/-- An outstanding asynchronous copy (R441, R442). -/
structure Copy where
  id : Nat
  ctr : Nat
  toSlice : Bool
  slice : Nat
  loc : Nat
  len : Nat
deriving DecidableEq, Repr

/-- A logical tile: 0 DEAD, 1 LIVE, 2 PARKED (chapter 12); `dirty` says that its park slot was written while it was
parked there. -/
structure LTile where
  st : Nat := 0
  int : Bool := false
  dirty : Bool := false
deriving DecidableEq, Repr

/-- A matrix operation issued and not completed (R444, R465). -/
structure MatOp where
  /-- issue order -/
  seq : Nat
  /-- context key 8 × cluster + slot -/
  ctx : Nat
  /-- the unit of its cluster: 0 or 1 -/
  unit : Nat
  group : Nat
  lane : Nat
  /-- 0 local store, 1 slice address -/
  space : Nat
  addr : Nat
  ctr : Option Nat
  /-- the descriptor and operands, once staged -/
  desc : List Byte
  aRows : List (List Byte)
  bRows : List (List Byte)
  aScale : List Byte
  bScale : List Byte
deriving DecidableEq, Repr

/-- A context resident on a cluster. -/
structure Ctx where
  vf : Nat
  /-- the launch it belongs to, and its index within it -/
  launch : Nat
  index : Nat
  handle : Nat
  groups : Nat
  laneRegs : Nat
  share : Nat
  split : Nat
  predOnly : Bool
  windowed : Bool
  mtx : Bool
  /-- it has been switched out (Table 10-4) -/
  parked : Bool
  /-- the slot that a layout change decided it moves to, plus 1; 0 none (R269, R271) -/
  moveTo : Nat
  /-- matrix operations a switch took out of the queues, in issue order -/
  kept : List MatOp
  /-- tiles that a switch parked: unit and logical tile, plus 8 × unit (R468) -/
  parkedBy : List Nat
  store : FMap Byte
  ctrs : FMap Nat
  copies : List Copy
  nextCopy : Nat
  tiles : FMap LTile
  grp : FMap Group
deriving DecidableEq, Repr

/-- One store-buffer entry (R391): context key, 32-byte sector, and the bytes it holds by offset. -/
structure SbEntry where
  ctx : Nat
  space : Nat
  sector : Nat
  bytes : FMap Nat
deriving DecidableEq, Repr

/-- A cluster beside its contexts. -/
structure Cluster where
  /-- split of the last context placed (R372) -/
  split : Nat := 0
  /-- cached 128-byte lines, keyed by DPA ÷ 128 (R389) -/
  cache : FMap (List Byte) := []
  /-- the store buffers of its four schedulers, oldest first -/
  sb : FMap (List SbEntry) := []
  /-- the switch or migration that a trap window defers, as a run-clock reading plus 1 (R491) -/
  defer : Nat := 0
deriving DecidableEq, Repr

/-- A physical tile (Table 12-8): owner, logical tile, type, values by 64 × row + column, and last use. -/
structure PTile where
  ctx : Nat
  ltile : Nat
  int : Bool
  vals : FMap Word
  used : Nat
deriving DecidableEq, Repr

/-- One matrix unit. -/
structure MUnit where
  queue : List MatOp := []
  staged : Option MatOp := none
  running : Option MatOp := none
  /-- the running operation has done its work -/
  done : Bool := false
  /-- k-steps of the running operation -/
  steps : Nat := 0
  tiles : FMap (Option PTile) := []
deriving DecidableEq, Repr

/-- A kernel launch (R374, R375). -/
structure Launch where
  id : Nat
  vf : Nat
  /-- the queue command it ends with, or the graph command it is a node of -/
  uid : Nat
  /-- it is a node of a graph; 2 of a Teasel step -/
  owner : Nat
  handle : Nat
  contexts : Nat
  groups : Nat
  /-- ARGS: a slice address, or the bytes themselves for a graph node -/
  args : Nat
  argBytes : List Byte
  spill : Nat
  /-- next context to place, and contexts placed and not ended -/
  next : Nat
  live : Nat
  /-- the copy of its arguments failed: 1 bad address, 2 uncorrectable error -/
  fault : Nat
deriving DecidableEq, Repr

/-- A running tensor graph (R248): its tensors with bindings applied, its nodes, and the next node. -/
structure GraphRun where
  vf : Nat
  uid : Nat
  cls : Nat
  tensors : List (List Byte)
  nodes : List (List Byte)
  next : Nat
deriving DecidableEq, Repr

/-- Clusters, matrix units and graphs. -/
structure Yarrow where
  /-- keyed 8 × cluster + context slot -/
  ctxs : FMap (Option Ctx) := []
  clusters : FMap Cluster := []
  /-- keyed 2 × cluster + unit -/
  units : FMap MUnit := []
  /-- launches in the order of their start -/
  launches : List Launch := []
  graphs : List GraphRun := []
  /-- matrix operations issued so far -/
  nextOp : Nat := 1
deriving DecidableEq, Repr

/-! ### Engines (chapter 14) -/

/-- An engine command block in a sub-queue (Tables 14-3, 14-4): its 64 bytes, the queue command it serves, its steps
done, and the tick count since which it waits (R505). -/
structure Block where
  bytes : List Byte
  uid : Nat
  steps : Nat
  started : Bool
  waitTick : Option Nat
  /-- the source of a MOVE whose ranges overlap, read before its first write (R512) -/
  saved : Option (List Byte)
deriving DecidableEq, Repr

/-- One engine instance (Table 14-1). -/
structure Inst where
  /-- sub-queue of each VF -/
  sub : FMap (List Block) := []
  deficit : FMap Nat := []
  /-- the VF visited last -/
  last : Nat := 0
  /-- the VF whose step is in progress, 0 none; and whether its work has been done -/
  busy : Nat := 0
  worked : Bool := false
deriving DecidableEq, Repr

/-- The fixed-function engines. -/
structure Engines where
  inst : FMap Inst := []
  /-- engine fences, keyed 64 × VF + fence (R504) -/
  fences : FMap Nat := []
  /-- tick count in which a fence changed or a block naming it as SIGNAL_EF started or ran, plus 1 (R505) -/
  fenceTick : FMap Nat := []
  /-- ticks without data of each instance's collective (R532) -/
  collTicks : FMap Nat := []
deriving DecidableEq, Repr

end Sys2Proof.Machine
end

