-- ==== Sys2Proof/Machine/PartsD.lean ====
section
/-! DEFINITION. The state of Teasel (16), Campion (17) and the sensor dies with their converters (18), beside their
registers. All are plain data. -/

namespace Sys2Proof.Machine

/-! ### Teasel (chapter 16) -/

/-- An entry of the sequence table (Table 16-4): STATE 0 FREE, 1 ACTIVE, 2 EVICTED, 3 RETIRING. -/
structure Seq where
  st : Nat := 0
  vf : Nat := 0
  prio : Nat := 0
  inStep : Bool := false
  ptRow : Nat := 0
  pages : Nat := 0
  userSeq : Nat := 0
  prompt : Nat := 0
  out : Nat := 0
  promptTokens : Nat := 0
  maxNew : Nat := 0
  outLen : Nat := 0
  done : Nat := 0
  produced : Nat := 0
  kvLimit : Nat := 0
  order : Nat := 0
  queue : Nat := 0
  bufId : Nat := 0
  /-- the SEQ_ADMIT command it completes with -/
  uid : Nat := 0
  /-- the SEQ_CANCEL command that waits for it, 0 none -/
  cancelUid : Nat := 0
deriving DecidableEq, Repr

/-- An append accepted and not applied (R578): the entry, the command, its tokens. -/
structure Append where
  idx : Nat
  uid : Nat
  tokens : Nat
  count : Nat
deriving DecidableEq, Repr

/-- A step in flight (R581): its rows as entry, first position and token count; EST; and how its graph ended. -/
structure TStep where
  uid : Nat
  vf : Nat
  rows : List (Nat × Nat × Nat)
  est : Nat
  result : Option (Nat × Nat)
deriving DecidableEq, Repr

/-- Teasel. MANIFEST and the scales are in its registers. -/
structure Teasel where
  seqs : FMap Seq := []
  /-- the valid manifest's 128 bytes -/
  manifest : List Byte := []
  /-- LIMIT_ACTIVE + 1 of each activated slice (R572) -/
  active : FMap Nat := []
  /-- last ADMIT_ORDER of each slice -/
  order : FMap Nat := []
  /-- table index after the last decoding sequence included, by slice (R582) -/
  after : FMap Nat := []
  /-- steps built, by slice (HDR.STEP) -/
  stepNo : FMap Nat := []
  steps : List TStep := []
  appends : List Append := []
deriving DecidableEq, Repr

/-! ### Campion (chapter 17) -/

/-- A token (Table 17-5); WEIGHT as 16 bits. -/
structure Tok where
  dest : Nat
  var : Nat
  delay : Nat
  weight : Nat
deriving DecidableEq, Repr

/-- A neuron (Table 17-7): S0 to S3 as 16 bits, its list, its program, and LT. -/
structure Neuron where
  s0 : Nat := 0
  s1 : Nat := 0
  s2 : Nat := 0
  s3 : Nat := 0
  destIdx : Nat := 0
  destCount : Nat := 0
  prog : Nat := 0
  lt : Nat := 0
deriving DecidableEq, Repr

/-- A core with its router. -/
structure Core where
  /-- its programs, 176 bytes each -/
  progs : List (List Byte) := []
  neurons : FMap Neuron := []
  /-- the spike FIFO, oldest first: neurons (R611) -/
  spikes : List Nat := []
  /-- the delay queue: due time and token, in arrival order (R612) -/
  delay : List (Nat × Tok) := []
  /-- the token at the core's input -/
  input : Option Tok := none
  /-- the neuron the sweeper visits next (R609) -/
  sweep : Nat := 0
deriving DecidableEq, Repr

/-- The regions that RUN latched (R604). -/
structure CampRun where
  unit : Nat := 100
  injBase : Nat := 0
  injSize : Nat := 0
  egrBase : Nat := 0
  egrSize : Nat := 0
  ovfBase : Nat := 0
  ovfSize : Nat := 0
  destBase : Nat := 0
  destSize : Nat := 0
  listOff : Nat := 0
  listCount : Nat := 0
deriving DecidableEq, Repr

/-- One die of Campion. RUN_STATE is in CMP_STATUS and in the control block. -/
structure CampDie where
  etime : Nat := 0
  /-- ETIME at the last boundary (R617) -/
  tickEtime : Nat := 0
  run : CampRun := {}
  /-- the command words taken and not yet ended (R600) -/
  cmd : Option (List Byte) := none
  /-- overflow ring: next record written, and the spilled records in arrival order: core and record slot -/
  ovfNext : Nat := 0
  ovf : List (Nat × Nat) := []
  /-- ingress FIFOs, by port -/
  ingress : FMap (List Tok) := []
  /-- tokens in the mesh on their way to a core of this die -/
  mesh : List Tok := []
  /-- totals since the grant: INGRESS_DROPS, EGR_DROPS, BAD_DEST, LATE, SPILLS -/
  drops : Nat := 0
  egrDrops : Nat := 0
  badDest : Nat := 0
  late : Nat := 0
  spills : Nat := 0
deriving DecidableEq, Repr

/-- Campion: dies by number, cores 0 to 511. -/
structure Campion where
  dies : FMap CampDie := []
  cores : FMap Core := []
deriving DecidableEq, Repr

/-! ### Sensors (chapter 18) -/

/-- A frame being written (R632, R633). -/
structure Frame where
  /-- descriptor values read at Frame Start: virtual channel, area offset of the slot, width, height, data type -/
  vc : Nat
  at_ : Nat
  width : Nat
  height : Nat
  dt : Nat
  head : Nat
  tick : Nat
  tai : Nat
  num : Nat
  startClk : Nat
  lines : Nat
  status : Nat
deriving DecidableEq, Repr

/-- One CSI-2 port. -/
structure SnsPort where
  frame : Option Frame := none
  /-- clock reading of the last packet -/
  last : Nat := 0
deriving DecidableEq, Repr

/-- One converter (R638 to R642): its last KIND; rate fractions; spike counts and first-spike times, plus 1, of the tick; and
whether EVENT_IN's reference holds a frame. -/
structure Conv where
  kind : Nat := 0
  acc : FMap Nat := []
  count : FMap Nat := []
  first : FMap Nat := []
  ref : Bool := false
deriving DecidableEq, Repr

/-- Sensor ports keyed 8 × die + port, converters keyed 8 × die + converter. -/
structure Sensors where
  ports : FMap SnsPort := []
  convs : FMap Conv := []
deriving DecidableEq, Repr

end Sys2Proof.Machine
end

