-- ==== Sys2Proof/Machine/Regs.lean ====
section
/-! DEFINITION. The register map: the address of every register of PF0 BAR0 (Table 23-2) and of each VF BAR0
(Tables 06-9, 23-1), its fields with their access codes (Table 00-3) and its reset value. A register of VF n's BAR0 at
offset x has the address `n * 2 ^ 32 + x` here; PF0's registers have their BAR0 offset. Each block cites its chapter. -/

namespace Sys2Proof

/-- A field: the register's address and its bits `hi` down to `lo`. -/
structure Fld where
  addr : Nat
  hi : Nat
  lo : Nat
deriving DecidableEq, Repr

/-- The access codes of Table 00-3. -/
inductive Acc where
  | ro | rw | w1c | wo | ra | ce
deriving DecidableEq, Repr

/-- One row of the map: a register, or an array of them. Each dimension is (first index, count, stride). -/
structure RegRow where
  base : Nat
  dims : List (Nat × Nat × Nat)
  flds : List (Nat × Nat × Acc)
  reset : Nat
deriving DecidableEq, Repr

/-- Whether the array with these dimensions has an element at distance `x` from its base. -/
def inDims : List (Nat × Nat × Nat) → Nat → Bool
  | [], x => x == 0
  | (st, c, sd) :: t, x => decide (st * sd ≤ x) && decide (x / sd < st + c) && inDims t (x % sd)

/-- Whether address `a` is a register of this row. -/
def RegRow.has (r : RegRow) (a : Nat) : Bool := decide (r.base ≤ a) && inDims r.dims (a - r.base)

namespace R

/-- ID_PART, chapter 01. -/
abbrev ID_PART : Nat := 0x0
/-- ID_SITES, chapter 01. -/
abbrev ID_SITES : Nat := 0x8
/-- ID_IO_STATUS, chapter 01. -/
abbrev ID_IO_STATUS : Nat := 0x10
/-- ID_CLUSTER_USABLE_LO, chapter 01. -/
abbrev ID_CLUSTER_USABLE_LO : Nat := 0x18
/-- ID_CLUSTER_USABLE_HI, chapter 01. -/
abbrev ID_CLUSTER_USABLE_HI : Nat := 0x1C
/-- ID_MODULE, chapter 01. -/
abbrev ID_MODULE : Nat := 0x20
/-- ID_SERIAL_LO, chapter 01. -/
abbrev ID_SERIAL_LO : Nat := 0x28
/-- ID_SERIAL_HI, chapter 01. -/
abbrev ID_SERIAL_HI : Nat := 0x2C
/-- ID_POSITION, chapter 01. -/
abbrev ID_POSITION : Nat := 0x30
/-- BOOT_STATUS, chapter 03. -/
abbrev BOOT_STATUS : Nat := 0x10000
/-- BOOT_SEQ, chapter 03. -/
abbrev BOOT_SEQ : Nat := 0x10004
/-- BOOT_OUTCOME_LO, chapter 03. -/
abbrev BOOT_OUTCOME_LO : Nat := 0x10008
/-- BOOT_OUTCOME_HI, chapter 03. -/
abbrev BOOT_OUTCOME_HI : Nat := 0x1000C
/-- BOOT_FAIL_A, chapter 03. -/
abbrev BOOT_FAIL_A : Nat := 0x10010
/-- BOOT_FAIL_B, chapter 03. -/
abbrev BOOT_FAIL_B : Nat := 0x10014
/-- BOOT_FAIL_C, chapter 03. -/
abbrev BOOT_FAIL_C : Nat := 0x10018
/-- BOOT_READY_TIME, chapter 03. -/
abbrev BOOT_READY_TIME : Nat := 0x1001C
/-- BOOT_FENCE_COUNT, chapter 03. -/
abbrev BOOT_FENCE_COUNT : Nat := 0x10020
/-- CMD_STATUS, chapter 05. -/
abbrev CMD_STATUS : Nat := 0x20000
/-- CMD_LEVEL, chapter 05. -/
abbrev CMD_LEVEL : Nat := 0x20004
/-- CMD_CNT_TAKEN, chapter 05. -/
abbrev CMD_CNT_TAKEN : Nat := 0x20008
/-- CMD_CNT_REJECTED, chapter 05. -/
abbrev CMD_CNT_REJECTED : Nat := 0x2000C
/-- CMD_CNT_MCTP_DROP, chapter 05. -/
abbrev CMD_CNT_MCTP_DROP : Nat := 0x20010
/-- CMD_LAST, chapter 05. -/
abbrev CMD_LAST : Nat := 0x20014
/-- CMD_JOB_A, chapter 05. -/
abbrev CMD_JOB_A (j : Nat) : Nat := 0x20020 + 0x10 * j
/-- CMD_JOB_B, chapter 05. -/
abbrev CMD_JOB_B (j : Nat) : Nat := 0x20024 + 0x10 * j
/-- CMD_JOB_PROGRESS, chapter 05. -/
abbrev CMD_JOB_PROGRESS (j : Nat) : Nat := 0x20028 + 0x10 * j
/-- TCK_CONFIG, chapter 02. -/
abbrev TCK_CONFIG : Nat := 0x40000
/-- TCK_PERIOD, chapter 02. -/
abbrev TCK_PERIOD : Nat := 0x4000C
/-- TCK_HOLDOFF, chapter 02. -/
abbrev TCK_HOLDOFF : Nat := 0x40010
/-- TCK_QUAL, chapter 02. -/
abbrev TCK_QUAL : Nat := 0x40014
/-- TCK_MAX_ERR, chapter 02. -/
abbrev TCK_MAX_ERR : Nat := 0x40018
/-- TCK_MASTER_ID, chapter 02. -/
abbrev TCK_MASTER_ID : Nat := 0x4001C
/-- TCK_PHASE_ERR, chapter 02. -/
abbrev TCK_PHASE_ERR : Nat := 0x40024
/-- TCK_NEXT_PERIOD, chapter 02. -/
abbrev TCK_NEXT_PERIOD : Nat := 0x40040
/-- TCK_EVENTS, chapter 02. -/
abbrev TCK_EVENTS : Nat := 0x40050
/-- TCK_PRI_SRC, chapter 02. -/
abbrev TCK_PRI_SRC : Nat := 0x40004
/-- TCK_SEC_SRC, chapter 02. -/
abbrev TCK_SEC_SRC : Nat := 0x40008
/-- TCK_STATUS, chapter 02. -/
abbrev TCK_STATUS : Nat := 0x40020
/-- TCK_COUNT_LO, chapter 02. -/
abbrev TCK_COUNT_LO : Nat := 0x40028
/-- TCK_COUNT_HI, chapter 02. -/
abbrev TCK_COUNT_HI : Nat := 0x4002C
/-- TCK_TIME_LO, chapter 02. -/
abbrev TCK_TIME_LO : Nat := 0x40030
/-- TCK_TIME_HI, chapter 02. -/
abbrev TCK_TIME_HI : Nat := 0x40034
/-- TCK_TICK_TIME_LO, chapter 02. -/
abbrev TCK_TICK_TIME_LO : Nat := 0x40038
/-- TCK_TICK_TIME_HI, chapter 02. -/
abbrev TCK_TICK_TIME_HI : Nat := 0x4003C
/-- TCK_NEXT_AT_LO, chapter 02. -/
abbrev TCK_NEXT_AT_LO : Nat := 0x40048
/-- TCK_NEXT_AT_HI, chapter 02. -/
abbrev TCK_NEXT_AT_HI : Nat := 0x4004C
/-- CAL_DATE, chapter 02. -/
abbrev CAL_DATE : Nat := 0x50000
/-- CAL_TIME, chapter 02. -/
abbrev CAL_TIME : Nat := 0x50004
/-- CAL_SUBSEC, chapter 02. -/
abbrev CAL_SUBSEC : Nat := 0x50008
/-- CAL_UTC_OFFSET, chapter 02. -/
abbrev CAL_UTC_OFFSET : Nat := 0x5000C
/-- CAL_UTC_NEXT, chapter 02. -/
abbrev CAL_UTC_NEXT : Nat := 0x50010
/-- CAL_STATUS, chapter 02. -/
abbrev CAL_STATUS : Nat := 0x50020
/-- CAL_BAD_COUNT, chapter 02. -/
abbrev CAL_BAD_COUNT : Nat := 0x50024
/-- CAL_UTC_NEXT_AT_LO, chapter 02. -/
abbrev CAL_UTC_NEXT_AT_LO : Nat := 0x50018
/-- CAL_UTC_NEXT_AT_HI, chapter 02. -/
abbrev CAL_UTC_NEXT_AT_HI : Nat := 0x5001C
/-- EXM_CTRL, chapter 04. -/
abbrev EXM_CTRL : Nat := 0x80000
/-- EXM_STATUS, chapter 04. -/
abbrev EXM_STATUS : Nat := 0x80004
/-- EXM_SEMA_WORDS, chapter 04. -/
abbrev EXM_SEMA_WORDS : Nat := 0x80008
/-- EXM_TOKEN_PHASE, chapter 04. -/
abbrev EXM_TOKEN_PHASE : Nat := 0x8000C
/-- EXM_CNT_COLLIDE_WW, chapter 04. -/
abbrev EXM_CNT_COLLIDE_WW : Nat := 0x80010
/-- EXM_CNT_COLLIDE_RW, chapter 04. -/
abbrev EXM_CNT_COLLIDE_RW : Nat := 0x80014
/-- EXM_CNT_COLLIDE_AA, chapter 04. -/
abbrev EXM_CNT_COLLIDE_AA : Nat := 0x80018
/-- EXM_CNT_SEMA_IGNORED, chapter 04. -/
abbrev EXM_CNT_SEMA_IGNORED : Nat := 0x8001C
/-- EXM_CNT_SEMA_MISUSE, chapter 04. -/
abbrev EXM_CNT_SEMA_MISUSE : Nat := 0x80020
/-- EXM_CNT_DENIED, chapter 04. -/
abbrev EXM_CNT_DENIED : Nat := 0x80024
/-- EXM_CNT_TRIG_REJECT, chapter 04. -/
abbrev EXM_CNT_TRIG_REJECT : Nat := 0x80028
/-- EXM_CNT_LEASE, chapter 04. -/
abbrev EXM_CNT_LEASE : Nat := 0x8002C
/-- EXM_CNT_ECC_CE, chapter 04. -/
abbrev EXM_CNT_ECC_CE : Nat := 0x80030
/-- EXM_CNT_ECC_UE, chapter 04. -/
abbrev EXM_CNT_ECC_UE : Nat := 0x80034
/-- EXM_LAST_DENIED, chapter 04. -/
abbrev EXM_LAST_DENIED : Nat := 0x80038
/-- EXM_PEND, chapter 04. -/
abbrev EXM_PEND (i : Nat) : Nat := 0x80040 + 0x4 * i
/-- EXM_VF_WIN, chapter 04. -/
abbrev EXM_VF_WIN (n : Nat) : Nat := 0x80100 + 0x4 * n
/-- EXM_RGN_BASE, chapter 04. -/
abbrev EXM_RGN_BASE (r : Nat) : Nat := 0x81000 + 0x10 * r
/-- EXM_RGN_SIZE, chapter 04. -/
abbrev EXM_RGN_SIZE (r : Nat) : Nat := 0x81004 + 0x10 * r
/-- EXM_RGN_ATTR, chapter 04. -/
abbrev EXM_RGN_ATTR (r : Nat) : Nat := 0x81008 + 0x10 * r
/-- EXM_RGN_LEASE, chapter 04. -/
abbrev EXM_RGN_LEASE (r : Nat) : Nat := 0x8100C + 0x10 * r
/-- QIF_VF_QSTATE, chapter 06. -/
abbrev QIF_VF_QSTATE (n : Nat) : Nat := 0x100000 + 0x4 * n
/-- QIF_CNT_QERR, chapter 06. -/
abbrev QIF_CNT_QERR : Nat := 0x100100
/-- SLC_TEN_STATUS, chapter 07. -/
abbrev SLC_TEN_STATUS : Nat := 0x180000
/-- SLC_TEN_ID, chapter 07. -/
abbrev SLC_TEN_ID : Nat := 0x180004
/-- SLC_TEN_GRACE, chapter 07. -/
abbrev SLC_TEN_GRACE : Nat := 0x180008
/-- SLC_SCRUB, chapter 07. -/
abbrev SLC_SCRUB : Nat := 0x180010
/-- SLC_FREE_CLUSTERS_LO, chapter 07. -/
abbrev SLC_FREE_CLUSTERS_LO : Nat := 0x180018
/-- SLC_FREE_CLUSTERS_HI, chapter 07. -/
abbrev SLC_FREE_CLUSTERS_HI : Nat := 0x18001C
/-- SLC_FREE_COMMONS, chapter 07. -/
abbrev SLC_FREE_COMMONS : Nat := 0x180020
/-- SLC_FREE_HBM, chapter 07. -/
abbrev SLC_FREE_HBM : Nat := 0x180024
/-- SLC_S_STATE, chapter 07. -/
abbrev SLC_S_STATE (n : Nat) : Nat := 0x181000 + 0x40 * n
/-- SLC_S_SHARE, chapter 07. -/
abbrev SLC_S_SHARE (n : Nat) : Nat := 0x181004 + 0x40 * n
/-- SLC_S_CLUSTERS_LO, chapter 07. -/
abbrev SLC_S_CLUSTERS_LO (n : Nat) : Nat := 0x181008 + 0x40 * n
/-- SLC_S_CLUSTERS_HI, chapter 07. -/
abbrev SLC_S_CLUSTERS_HI (n : Nat) : Nat := 0x18100C + 0x40 * n
/-- SLC_S_DRAIN_LO, chapter 07. -/
abbrev SLC_S_DRAIN_LO (n : Nat) : Nat := 0x181010 + 0x40 * n
/-- SLC_S_DRAIN_HI, chapter 07. -/
abbrev SLC_S_DRAIN_HI (n : Nat) : Nat := 0x181014 + 0x40 * n
/-- SLC_S_COMMONS, chapter 07. -/
abbrev SLC_S_COMMONS (n : Nat) : Nat := 0x181018 + 0x40 * n
/-- SLC_S_HBM, chapter 07. -/
abbrev SLC_S_HBM (n : Nat) : Nat := 0x18101C + 0x40 * n
/-- SLC_S_HBM_MAPPED, chapter 07. -/
abbrev SLC_S_HBM_MAPPED (n : Nat) : Nat := 0x181020 + 0x40 * n
/-- SLC_S_ENGINE_SHARE, chapter 07. -/
abbrev SLC_S_ENGINE_SHARE (n : Nat) : Nat := 0x181024 + 0x40 * n
/-- SLC_S_PENDING_LO, chapter 07. -/
abbrev SLC_S_PENDING_LO (n : Nat) : Nat := 0x181028 + 0x40 * n
/-- SLC_S_PENDING_HI, chapter 07. -/
abbrev SLC_S_PENDING_HI (n : Nat) : Nat := 0x18102C + 0x40 * n
/-- SLC_S_MIGRATION, chapter 07. -/
abbrev SLC_S_MIGRATION (n : Nat) : Nat := 0x181030 + 0x40 * n
/-- SLC_S_RESHAPES, chapter 07. -/
abbrev SLC_S_RESHAPES (n : Nat) : Nat := 0x181034 + 0x40 * n
/-- SLC_S_BOUNDS, chapter 07. -/
abbrev SLC_S_BOUNDS (n : Nat) : Nat := 0x181038 + 0x40 * n
/-- SLC_B_MIN_COMMONS, chapter 07. -/
abbrev SLC_B_MIN_COMMONS (n : Nat) : Nat := 0x182000 + 0x10 * n
/-- SLC_B_MAX_COMMONS, chapter 07. -/
abbrev SLC_B_MAX_COMMONS (n : Nat) : Nat := 0x182004 + 0x10 * n
/-- SLC_B_MIN_HBM, chapter 07. -/
abbrev SLC_B_MIN_HBM (n : Nat) : Nat := 0x182008 + 0x10 * n
/-- SLC_B_MAX_HBM, chapter 07. -/
abbrev SLC_B_MAX_HBM (n : Nat) : Nat := 0x18200C + 0x10 * n
/-- SEC_STATUS, chapter 08. -/
abbrev SEC_STATUS : Nat := 0x200000
/-- SEC_CRYPTO_LAST, chapter 08. -/
abbrev SEC_CRYPTO_LAST : Nat := 0x200004
/-- SEC_SPDM_STATUS, chapter 08. -/
abbrev SEC_SPDM_STATUS : Nat := 0x200008
/-- SEC_CNT_SIGN, chapter 08. -/
abbrev SEC_CNT_SIGN : Nat := 0x200010
/-- SEC_CNT_VERIFY, chapter 08. -/
abbrev SEC_CNT_VERIFY : Nat := 0x200014
/-- SEC_CNT_ECDH, chapter 08. -/
abbrev SEC_CNT_ECDH : Nat := 0x200018
/-- SEC_CNT_REJECT, chapter 08. -/
abbrev SEC_CNT_REJECT : Nat := 0x20001C
/-- SEC_CNT_AEAD_FAIL, chapter 08. -/
abbrev SEC_CNT_AEAD_FAIL : Nat := 0x200020
/-- SEC_CNT_IDE_FAIL, chapter 08. -/
abbrev SEC_CNT_IDE_FAIL : Nat := 0x200024
/-- SEC_CNT_TDI_DROP, chapter 08. -/
abbrev SEC_CNT_TDI_DROP : Nat := 0x200028
/-- SEC_IK_PUB, chapter 08. -/
abbrev SEC_IK_PUB (i : Nat) : Nat := 0x200100 + 0x4 * i
/-- SEC_BK_PUB, chapter 08. -/
abbrev SEC_BK_PUB (i : Nat) : Nat := 0x200200 + 0x4 * i
/-- SEC_IK_DIGEST, chapter 08. -/
abbrev SEC_IK_DIGEST (i : Nat) : Nat := 0x200300 + 0x4 * i
/-- SEC_BK_DIGEST, chapter 08. -/
abbrev SEC_BK_DIGEST (i : Nat) : Nat := 0x200340 + 0x4 * i
/-- SEC_MODEL_DIGEST, chapter 08. -/
abbrev SEC_MODEL_DIGEST (i : Nat) : Nat := 0x200400 + 0x4 * i
/-- SEC_MODEL_ID, chapter 08. -/
abbrev SEC_MODEL_ID (i : Nat) : Nat := 0x200440 + 0x4 * i
/-- SEC_MODEL_SIZE_LO, chapter 08. -/
abbrev SEC_MODEL_SIZE_LO : Nat := 0x200450
/-- SEC_MODEL_SIZE_HI, chapter 08. -/
abbrev SEC_MODEL_SIZE_HI : Nat := 0x200454
/-- SEC_TDI, chapter 08. -/
abbrev SEC_TDI (n : Nat) : Nat := 0x200800 + 0x4 * n
/-- MEM_STATUS, chapter 09. -/
abbrev MEM_STATUS : Nat := 0x300000
/-- MEM_COMMONS_AVAIL, chapter 09. -/
abbrev MEM_COMMONS_AVAIL : Nat := 0x300004
/-- MEM_HBM_FRAMES, chapter 09. -/
abbrev MEM_HBM_FRAMES : Nat := 0x300008
/-- MEM_HBM_ZEROED, chapter 09. -/
abbrev MEM_HBM_ZEROED : Nat := 0x30000C
/-- MEM_HBM_QUARANTINE, chapter 09. -/
abbrev MEM_HBM_QUARANTINE : Nat := 0x300010
/-- MEM_HBM_ZEROING, chapter 09. -/
abbrev MEM_HBM_ZEROING : Nat := 0x300014
/-- MEM_MODEL_FRAMES, chapter 09. -/
abbrev MEM_MODEL_FRAMES : Nat := 0x300018
/-- MEM_L1_POOL, chapter 09. -/
abbrev MEM_L1_POOL : Nat := 0x30001C
/-- MEM_PATROL, chapter 09. -/
abbrev MEM_PATROL : Nat := 0x300020
/-- MEM_PATROL_PROGRESS, chapter 09. -/
abbrev MEM_PATROL_PROGRESS : Nat := 0x300024
/-- MEM_HBM_CE, chapter 09. -/
abbrev MEM_HBM_CE (s : Nat) : Nat := 0x300040 + 0x8 * s
/-- MEM_CMN_CE, chapter 09. -/
abbrev MEM_CMN_CE (d : Nat) : Nat := 0x300080 + 0x8 * d
/-- MEM_HBM_UE, chapter 09. -/
abbrev MEM_HBM_UE (s : Nat) : Nat := 0x300044 + 0x8 * s
/-- MEM_CMN_UE, chapter 09. -/
abbrev MEM_CMN_UE (d : Nat) : Nat := 0x300084 + 0x8 * d
/-- MEM_REFRESH_WAIT, chapter 09. -/
abbrev MEM_REFRESH_WAIT : Nat := 0x300090
/-- MEM_CNT_INV, chapter 09. -/
abbrev MEM_CNT_INV : Nat := 0x300094
/-- MEM_CNT_MAP_REJECT, chapter 09. -/
abbrev MEM_CNT_MAP_REJECT : Nat := 0x300098
/-- MEM_TC_MISS, chapter 09. -/
abbrev MEM_TC_MISS (c : Nat) : Nat := 0x300100 + 0x4 * c
/-- MEM_PIN, chapter 09. -/
abbrev MEM_PIN (n : Nat) : Nat := 0x300200 + 0x4 * n
/-- SCH_STATUS, chapter 15. -/
abbrev SCH_STATUS : Nat := 0x400000
/-- SCH_POS, chapter 15. -/
abbrev SCH_POS : Nat := 0x400004
/-- SCH_EXCL_LIMIT, chapter 15. -/
abbrev SCH_EXCL_LIMIT : Nat := 0x400010
/-- SCH_LAST_SKIP, chapter 15. -/
abbrev SCH_LAST_SKIP : Nat := 0x400014
/-- SCH_SWITCH_MAX, chapter 15. -/
abbrev SCH_SWITCH_MAX : Nat := 0x400018
/-- SCH_RT_LAT_MAX, chapter 15. -/
abbrev SCH_RT_LAT_MAX : Nat := 0x40001C
/-- SCH_SWAP_AT_LO, chapter 15. -/
abbrev SCH_SWAP_AT_LO : Nat := 0x400008
/-- SCH_SWAP_AT_HI, chapter 15. -/
abbrev SCH_SWAP_AT_HI : Nat := 0x40000C
/-- SCH_CNT_SKIP, chapter 15. -/
abbrev SCH_CNT_SKIP : Nat := 0x400020
/-- SCH_CNT_RT_MISS, chapter 15. -/
abbrev SCH_CNT_RT_MISS : Nat := 0x400024
/-- SCH_CNT_SWITCH, chapter 15. -/
abbrev SCH_CNT_SWITCH : Nat := 0x400028
/-- SCH_CNT_CUT, chapter 15. -/
abbrev SCH_CNT_CUT : Nat := 0x40002C
/-- SCH_CNT_RESLICE, chapter 15. -/
abbrev SCH_CNT_RESLICE : Nat := 0x400030
/-- SCH_SD_CFG, chapter 15. -/
abbrev SCH_SD_CFG (n : Nat) : Nat := 0x401000 + 0x8 * n
/-- SCH_SD_STATE, chapter 15. -/
abbrev SCH_SD_STATE (n : Nat) : Nat := 0x401004 + 0x8 * n
/-- SEQ_STATUS, chapter 16. -/
abbrev SEQ_STATUS : Nat := 0x480000
/-- SEQ_LIVE, chapter 16. -/
abbrev SEQ_LIVE : Nat := 0x480004
/-- SEQ_CNT_ADMIT, chapter 16. -/
abbrev SEQ_CNT_ADMIT : Nat := 0x480010
/-- SEQ_CNT_RETIRE, chapter 16. -/
abbrev SEQ_CNT_RETIRE : Nat := 0x480014
/-- SEQ_CNT_FULL, chapter 16. -/
abbrev SEQ_CNT_FULL : Nat := 0x480018
/-- SEQ_CNT_EVICT, chapter 16. -/
abbrev SEQ_CNT_EVICT : Nat := 0x48001C
/-- SEQ_CNT_STEPS, chapter 16. -/
abbrev SEQ_CNT_STEPS : Nat := 0x480020
/-- SEQ_CNT_KV_LIMIT, chapter 16. -/
abbrev SEQ_CNT_KV_LIMIT : Nat := 0x480024
/-- SEQ_CNT_STEP_FAIL, chapter 16. -/
abbrev SEQ_CNT_STEP_FAIL : Nat := 0x480028
/-- SEQ_S_LIMIT, chapter 16. -/
abbrev SEQ_S_LIMIT (n : Nat) : Nat := 0x481000 + 0x10 * n
/-- SEQ_S_STATE, chapter 16. -/
abbrev SEQ_S_STATE (n : Nat) : Nat := 0x481004 + 0x10 * n
/-- SEQ_S_POOL, chapter 16. -/
abbrev SEQ_S_POOL (n : Nat) : Nat := 0x481008 + 0x10 * n
/-- SEQ_S_SCALE, chapter 16. -/
abbrev SEQ_S_SCALE (n : Nat) : Nat := 0x48100C + 0x10 * n
/-- FFE_STATUS, chapter 14. -/
abbrev FFE_STATUS : Nat := 0x500000
/-- FFE_COLL_TIMEOUT, chapter 14. -/
abbrev FFE_COLL_TIMEOUT : Nat := 0x500004
/-- FFE_LAST_FAULT, chapter 14. -/
abbrev FFE_LAST_FAULT : Nat := 0x500008
/-- FFE_CNT_INDEX_ZERO, chapter 14. -/
abbrev FFE_CNT_INDEX_ZERO : Nat := 0x500010
/-- FFE_CNT_FENCE_STALL, chapter 14. -/
abbrev FFE_CNT_FENCE_STALL : Nat := 0x500014
/-- FFE_CNT_COLL_ABORT, chapter 14. -/
abbrev FFE_CNT_COLL_ABORT : Nat := 0x500018
/-- FFE_CNT_DECODE_ERR, chapter 14. -/
abbrev FFE_CNT_DECODE_ERR : Nat := 0x50001C
/-- FFE_I_STATUS, chapter 14. -/
abbrev FFE_I_STATUS (i : Nat) : Nat := 0x501000 + 0x10 * i
/-- FFE_I_QUEUED, chapter 14. -/
abbrev FFE_I_QUEUED (i : Nat) : Nat := 0x501004 + 0x10 * i
/-- FFE_I_CNT_STEPS, chapter 14. -/
abbrev FFE_I_CNT_STEPS (i : Nat) : Nat := 0x501008 + 0x10 * i
/-- YAR_STATUS, chapter 10. -/
abbrev YAR_STATUS (c : Nat) : Nat := 0x600000 + 0x1000 * c
/-- YAR_REGS_USED, chapter 10. -/
abbrev YAR_REGS_USED (c : Nat) : Nat := 0x600004 + 0x1000 * c
/-- YAR_LOCAL_USED, chapter 10. -/
abbrev YAR_LOCAL_USED (c : Nat) : Nat := 0x600008 + 0x1000 * c
/-- YAR_SCHED, chapter 10. -/
abbrev YAR_SCHED (c : Nat) (i : Nat) : Nat := 0x600010 + 0x1000 * c + 0x4 * i
/-- YAR_CTX, chapter 10. -/
abbrev YAR_CTX (c : Nat) (j : Nat) : Nat := 0x600040 + 0x1000 * c + 0x8 * j
/-- YAR_CTX_LOCAL, chapter 10. -/
abbrev YAR_CTX_LOCAL (c : Nat) (j : Nat) : Nat := 0x600044 + 0x1000 * c + 0x8 * j
/-- YAR_CNT_ISSUE, chapter 10. -/
abbrev YAR_CNT_ISSUE (c : Nat) : Nat := 0x600100 + 0x1000 * c
/-- YAR_CNT_REPACK, chapter 10. -/
abbrev YAR_CNT_REPACK (c : Nat) : Nat := 0x600104 + 0x1000 * c
/-- YAR_CNT_HALF_SPLIT, chapter 10. -/
abbrev YAR_CNT_HALF_SPLIT (c : Nat) : Nat := 0x600108 + 0x1000 * c
/-- YAR_CNT_SECTOR_EXTRA, chapter 10. -/
abbrev YAR_CNT_SECTOR_EXTRA (c : Nat) : Nat := 0x60010C + 0x1000 * c
/-- YAR_CNT_FORWARD, chapter 10. -/
abbrev YAR_CNT_FORWARD (c : Nat) : Nat := 0x600110 + 0x1000 * c
/-- YAR_CNT_PARTIAL_STALL, chapter 10. -/
abbrev YAR_CNT_PARTIAL_STALL (c : Nat) : Nat := 0x600114 + 0x1000 * c
/-- YAR_CNT_SB_FULL, chapter 10. -/
abbrev YAR_CNT_SB_FULL (c : Nat) : Nat := 0x600118 + 0x1000 * c
/-- YAR_CNT_ATOMIC_COMBINED, chapter 10. -/
abbrev YAR_CNT_ATOMIC_COMBINED (c : Nat) : Nat := 0x60011C + 0x1000 * c
/-- WIN_STATUS, chapter 13. -/
abbrev WIN_STATUS (c : Nat) : Nat := 0x600200 + 0x1000 * c
/-- WIN_CNT_OVERFLOW, chapter 13. -/
abbrev WIN_CNT_OVERFLOW (c : Nat) : Nat := 0x600204 + 0x1000 * c
/-- WIN_CNT_UNDERFLOW, chapter 13. -/
abbrev WIN_CNT_UNDERFLOW (c : Nat) : Nat := 0x600208 + 0x1000 * c
/-- WIN_DEFER_MAX, chapter 13. -/
abbrev WIN_DEFER_MAX (c : Nat) : Nat := 0x60020C + 0x1000 * c
/-- MXU_STATUS, chapter 12. -/
abbrev MXU_STATUS (u : Nat) : Nat := 0x680000 + 0x40 * u
/-- MXU_LAST_FAULT, chapter 12. -/
abbrev MXU_LAST_FAULT (u : Nat) : Nat := 0x680008 + 0x40 * u
/-- MXU_TILES, chapter 12. -/
abbrev MXU_TILES (u : Nat) : Nat := 0x680004 + 0x40 * u
/-- MXU_CNT_OPS, chapter 12. -/
abbrev MXU_CNT_OPS (u : Nat) : Nat := 0x680010 + 0x40 * u
/-- MXU_CNT_KSTEPS, chapter 12. -/
abbrev MXU_CNT_KSTEPS (u : Nat) : Nat := 0x680014 + 0x40 * u
/-- MXU_CNT_PARKS, chapter 12. -/
abbrev MXU_CNT_PARKS (u : Nat) : Nat := 0x680018 + 0x40 * u
/-- MXU_CNT_RESTORES, chapter 12. -/
abbrev MXU_CNT_RESTORES (u : Nat) : Nat := 0x68001C + 0x40 * u
/-- MXU_CNT_MOVES, chapter 12. -/
abbrev MXU_CNT_MOVES (u : Nat) : Nat := 0x680020 + 0x40 * u
/-- MXU_CNT_STAGE_WAIT, chapter 12. -/
abbrev MXU_CNT_STAGE_WAIT (u : Nat) : Nat := 0x680024 + 0x40 * u
/-- CMP_STATUS, chapter 17. -/
abbrev CMP_STATUS : Nat := 0x700000
/-- CMP_GRANT, chapter 17. -/
abbrev CMP_GRANT (d : Nat) : Nat := 0x700008 + 0x4 * d
/-- CMP_ETIME_LO, chapter 17. -/
abbrev CMP_ETIME_LO (d : Nat) : Nat := 0x700010 + 0x8 * d
/-- CMP_ETIME_HI, chapter 17. -/
abbrev CMP_ETIME_HI (d : Nat) : Nat := 0x700014 + 0x8 * d
/-- CMP_FAULT, chapter 17. -/
abbrev CMP_FAULT (d : Nat) : Nat := 0x700020 + 0x4 * d
/-- CMP_DROP, chapter 17. -/
abbrev CMP_DROP (d : Nat) (p : Nat) : Nat := 0x700100 + 0x80 * d + 0x4 * p
/-- CMP_CNT_RUNS, chapter 17. -/
abbrev CMP_CNT_RUNS (d : Nat) : Nat := 0x700200 + 0x20 * d
/-- CMP_CNT_SPIKES, chapter 17. -/
abbrev CMP_CNT_SPIKES (d : Nat) : Nat := 0x700204 + 0x20 * d
/-- CMP_CNT_LATE, chapter 17. -/
abbrev CMP_CNT_LATE (d : Nat) : Nat := 0x700208 + 0x20 * d
/-- CMP_CNT_SPILL, chapter 17. -/
abbrev CMP_CNT_SPILL (d : Nat) : Nat := 0x70020C + 0x20 * d
/-- CMP_CNT_BAD_DEST, chapter 17. -/
abbrev CMP_CNT_BAD_DEST (d : Nat) : Nat := 0x700210 + 0x20 * d
/-- CMP_CNT_EGR_DROP, chapter 17. -/
abbrev CMP_CNT_EGR_DROP (d : Nat) : Nat := 0x700214 + 0x20 * d
/-- SNS_STATUS, chapter 18. -/
abbrev SNS_STATUS : Nat := 0x780000
/-- SNS_CNT_ADDR, chapter 18. -/
abbrev SNS_CNT_ADDR : Nat := 0x780004
/-- SNS_GRANT, chapter 18. -/
abbrev SNS_GRANT (d : Nat) : Nat := 0x780008 + 0x4 * d
/-- SNS_PORT_CTRL, chapter 18. -/
abbrev SNS_PORT_CTRL (d : Nat) (j : Nat) : Nat := 0x780100 + 0x100 * d + 0x10 * j
/-- SNS_PORT_STATUS, chapter 18. -/
abbrev SNS_PORT_STATUS (d : Nat) (j : Nat) : Nat := 0x780104 + 0x100 * d + 0x10 * j
/-- SNS_PORT_CNT_PKT, chapter 18. -/
abbrev SNS_PORT_CNT_PKT (d : Nat) (j : Nat) : Nat := 0x780108 + 0x100 * d + 0x10 * j
/-- SNS_PORT_CNT_ERR, chapter 18. -/
abbrev SNS_PORT_CNT_ERR (d : Nat) (j : Nat) : Nat := 0x78010C + 0x100 * d + 0x10 * j
/-- SNS_AER_CTRL, chapter 18. -/
abbrev SNS_AER_CTRL (d : Nat) : Nat := 0x780400 + 0x10 * d
/-- SNS_AER_CNT, chapter 18. -/
abbrev SNS_AER_CNT (d : Nat) : Nat := 0x780404 + 0x10 * d
/-- SNS_TRIG_CFG, chapter 18. -/
abbrev SNS_TRIG_CFG (d : Nat) (t : Nat) : Nat := 0x780600 + 0x100 * d + 0x10 * t
/-- SNS_TRIG_PHASE, chapter 18. -/
abbrev SNS_TRIG_PHASE (d : Nat) (t : Nat) : Nat := 0x780604 + 0x100 * d + 0x10 * t
/-- SNS_TRIG_OFFSET, chapter 18. -/
abbrev SNS_TRIG_OFFSET (d : Nat) (t : Nat) : Nat := 0x780608 + 0x100 * d + 0x10 * t
/-- SNS_TRIG_WIDTH, chapter 18. -/
abbrev SNS_TRIG_WIDTH (d : Nat) (t : Nat) : Nat := 0x78060C + 0x100 * d + 0x10 * t
/-- SNS_TRIG_CNT, chapter 18. -/
abbrev SNS_TRIG_CNT (d : Nat) (t : Nat) : Nat := 0x780800 + 0x40 * d + 0x4 * t
/-- EWB_STATUS, chapter 19. -/
abbrev EWB_STATUS : Nat := 0x800000
/-- EWB_DOMAIN, chapter 19. -/
abbrev EWB_DOMAIN : Nat := 0x800004
/-- EWB_WINDOW, chapter 19. -/
abbrev EWB_WINDOW : Nat := 0x800008
/-- EWB_RACK, chapter 19. -/
abbrev EWB_RACK : Nat := 0x80000C
/-- EWB_ADMIT, chapter 19. -/
abbrev EWB_ADMIT : Nat := 0x800010
/-- EWB_REMOVE, chapter 19. -/
abbrev EWB_REMOVE : Nat := 0x800014
/-- EWB_PENDING_W_LO, chapter 19. -/
abbrev EWB_PENDING_W_LO : Nat := 0x800018
/-- EWB_PENDING_W_HI, chapter 19. -/
abbrev EWB_PENDING_W_HI : Nat := 0x80001C
/-- EWB_CNT_NOTICE_TX, chapter 19. -/
abbrev EWB_CNT_NOTICE_TX : Nat := 0x800020
/-- EWB_CNT_NOTICE_RX, chapter 19. -/
abbrev EWB_CNT_NOTICE_RX : Nat := 0x800024
/-- EWB_CNT_FREEZE_RX, chapter 19. -/
abbrev EWB_CNT_FREEZE_RX : Nat := 0x800028
/-- EWB_CNT_SYM_BAD, chapter 19. -/
abbrev EWB_CNT_SYM_BAD : Nat := 0x80002C
/-- EWB_P_CTRL, chapter 19. -/
abbrev EWB_P_CTRL (p : Nat) : Nat := 0x801000 + 0x100 * p
/-- EWB_P_STATUS, chapter 19. -/
abbrev EWB_P_STATUS (p : Nat) : Nat := 0x801004 + 0x100 * p
/-- EWB_P_DELAY, chapter 19. -/
abbrev EWB_P_DELAY (p : Nat) : Nat := 0x801008 + 0x100 * p
/-- EWB_P_CNT_FEC_CORR, chapter 19. -/
abbrev EWB_P_CNT_FEC_CORR (p : Nat) : Nat := 0x801010 + 0x100 * p
/-- EWB_P_CNT_FEC_UNCORR, chapter 19. -/
abbrev EWB_P_CNT_FEC_UNCORR (p : Nat) : Nat := 0x801014 + 0x100 * p
/-- EWB_P_CNT_REPLAY, chapter 19. -/
abbrev EWB_P_CNT_REPLAY (p : Nat) : Nat := 0x801018 + 0x100 * p
/-- EWB_P_CNT_TAG_FAIL, chapter 19. -/
abbrev EWB_P_CNT_TAG_FAIL (p : Nat) : Nat := 0x80101C + 0x100 * p
/-- EWB_P_CNT_DOWN, chapter 19. -/
abbrev EWB_P_CNT_DOWN (p : Nat) : Nat := 0x801020 + 0x100 * p
/-- EWB_P_CNT_NO_ROUTE, chapter 19. -/
abbrev EWB_P_CNT_NO_ROUTE (p : Nat) : Nat := 0x801024 + 0x100 * p
/-- EWB_P_CNT_SYM_BAD, chapter 19. -/
abbrev EWB_P_CNT_SYM_BAD (p : Nat) : Nat := 0x801028 + 0x100 * p
/-- EWB_P_PEER_DIGEST, chapter 19. -/
abbrev EWB_P_PEER_DIGEST (p : Nat) (i : Nat) : Nat := 0x801040 + 0x100 * p + 0x4 * i
/-- EWB_P_EXPECT, chapter 19. -/
abbrev EWB_P_EXPECT (p : Nat) (i : Nat) : Nat := 0x801080 + 0x100 * p + 0x4 * i
/-- FLT_STATUS, chapter 20. -/
abbrev FLT_STATUS : Nat := 0x900000
/-- FLT_CTRL, chapter 20. -/
abbrev FLT_CTRL : Nat := 0x900004
/-- FLT_LAST, chapter 20. -/
abbrev FLT_LAST : Nat := 0x900008
/-- FLT_RECOVERY, chapter 20. -/
abbrev FLT_RECOVERY : Nat := 0x900018
/-- FLT_CE_LIMIT, chapter 20. -/
abbrev FLT_CE_LIMIT : Nat := 0x90001C
/-- FLT_INJECT, chapter 20. -/
abbrev FLT_INJECT : Nat := 0x900020
/-- FLT_LAST_TICK_LO, chapter 20. -/
abbrev FLT_LAST_TICK_LO : Nat := 0x900010
/-- FLT_LAST_TICK_HI, chapter 20. -/
abbrev FLT_LAST_TICK_HI : Nat := 0x900014
/-- FLT_CNT_UNCONTAINED, chapter 20. -/
abbrev FLT_CNT_UNCONTAINED : Nat := 0x900030
/-- FLT_CNT_CONTAINED, chapter 20. -/
abbrev FLT_CNT_CONTAINED : Nat := 0x900034
/-- FLT_CNT_CE, chapter 20. -/
abbrev FLT_CNT_CE : Nat := 0x900038
/-- FLT_CNT_RT_FENCE, chapter 20. -/
abbrev FLT_CNT_RT_FENCE : Nat := 0x90003C
/-- FLT_CNT_INJECTED, chapter 20. -/
abbrev FLT_CNT_INJECTED : Nat := 0x900040
/-- FLT_VF_CNT, chapter 20. -/
abbrev FLT_VF_CNT (n : Nat) : Nat := 0x900100 + 0x4 * n
/-- EVR_STATUS, chapter 21. -/
abbrev EVR_STATUS : Nat := 0x980000
/-- EVR_CTRL, chapter 21. -/
abbrev EVR_CTRL : Nat := 0x980004
/-- EVR_SEQ, chapter 21. -/
abbrev EVR_SEQ : Nat := 0x980008
/-- EVR_BUF, chapter 21. -/
abbrev EVR_BUF : Nat := 0x98000C
/-- EVR_FF_NEXT, chapter 21. -/
abbrev EVR_FF_NEXT : Nat := 0x980010
/-- EVR_MARGIN, chapter 21. -/
abbrev EVR_MARGIN : Nat := 0x98001C
/-- EVR_LAST_FLUSH, chapter 21. -/
abbrev EVR_LAST_FLUSH : Nat := 0x980020
/-- EVR_RING_NEXT, chapter 21. -/
abbrev EVR_RING_NEXT : Nat := 0x980014
/-- EVR_RING_OLDEST, chapter 21. -/
abbrev EVR_RING_OLDEST : Nat := 0x980018
/-- EVR_CNT_RECORDS, chapter 21. -/
abbrev EVR_CNT_RECORDS : Nat := 0x980030
/-- EVR_CNT_LOST, chapter 21. -/
abbrev EVR_CNT_LOST : Nat := 0x980034
/-- EVR_CNT_BAD_SLOT, chapter 21. -/
abbrev EVR_CNT_BAD_SLOT : Nat := 0x980038
/-- EVR_CNT_FF_SKIPPED, chapter 21. -/
abbrev EVR_CNT_FF_SKIPPED : Nat := 0x98003C
/-- EVR_CNT_SNAPSHOTS, chapter 21. -/
abbrev EVR_CNT_SNAPSHOTS : Nat := 0x980040
/-- EVR_CNT_TRIGGERS, chapter 21. -/
abbrev EVR_CNT_TRIGGERS : Nat := 0x980044
/-- EVR_TRIG_CTRL, chapter 21. -/
abbrev EVR_TRIG_CTRL (t : Nat) : Nat := 0x980100 + 0x10 * t
/-- EVR_TRIG_MATCH, chapter 21. -/
abbrev EVR_TRIG_MATCH (t : Nat) : Nat := 0x980104 + 0x10 * t
/-- EVR_TRIG_HITS, chapter 21. -/
abbrev EVR_TRIG_HITS (t : Nat) : Nat := 0x980108 + 0x10 * t
/-- FRZ_STATUS, chapter 22. -/
abbrev FRZ_STATUS : Nat := 0xA00000
/-- FRZ_NEXT_FID, chapter 22. -/
abbrev FRZ_NEXT_FID : Nat := 0xA00004
/-- FRZ_LAST_LOCAL, chapter 22. -/
abbrev FRZ_LAST_LOCAL : Nat := 0xA00008
/-- FRZ_LAST_US, chapter 22. -/
abbrev FRZ_LAST_US : Nat := 0xA0000C
/-- FRZ_CNT_FREEZES, chapter 22. -/
abbrev FRZ_CNT_FREEZES : Nat := 0xA00010
/-- FRZ_CNT_REFREEZE, chapter 22. -/
abbrev FRZ_CNT_REFREEZE : Nat := 0xA00014
/-- ACC_SAMPLE_TICK_LO, chapter 22. -/
abbrev ACC_SAMPLE_TICK_LO : Nat := 0xA80000
/-- ACC_SAMPLE_TICK_HI, chapter 22. -/
abbrev ACC_SAMPLE_TICK_HI : Nat := 0xA80004
/-- ACC_CNT_SAMPLES, chapter 22. -/
abbrev ACC_CNT_SAMPLES : Nat := 0xA80008
/-- ACC_CNT_NEG_RESIDUAL, chapter 22. -/
abbrev ACC_CNT_NEG_RESIDUAL : Nat := 0xA8000C
/-- ACC_COEF0, chapter 22. -/
abbrev ACC_COEF0 : Nat := 0xA80010
/-- ACC_COEF1, chapter 22. -/
abbrev ACC_COEF1 : Nat := 0xA80014
/-- ACC_COEF2, chapter 22. -/
abbrev ACC_COEF2 : Nat := 0xA80018
/-- ACC_COEF3, chapter 22. -/
abbrev ACC_COEF3 : Nat := 0xA8001C
/-- ACC_COEF4, chapter 22. -/
abbrev ACC_COEF4 : Nat := 0xA80020
/-- ACC_COEF5, chapter 22. -/
abbrev ACC_COEF5 : Nat := 0xA80024
/-- ACC_COEF6, chapter 22. -/
abbrev ACC_COEF6 : Nat := 0xA80028
/-- PWR_STATUS, chapter 22. -/
abbrev PWR_STATUS : Nat := 0xB00000
/-- PWR_CAP, chapter 22. -/
abbrev PWR_CAP : Nat := 0xB00004
/-- PWR_INPUT, chapter 22. -/
abbrev PWR_INPUT : Nat := 0xB00008
/-- PWR_ENERGY_LO, chapter 22. -/
abbrev PWR_ENERGY_LO : Nat := 0xB0000C
/-- PWR_ENERGY_HI, chapter 22. -/
abbrev PWR_ENERGY_HI : Nat := 0xB00010
/-- PWR_TEMP, chapter 22. -/
abbrev PWR_TEMP (i : Nat) : Nat := 0xB00014 + 0x4 * i
/-- PWR_CNT_STEP_DOWN, chapter 22. -/
abbrev PWR_CNT_STEP_DOWN : Nat := 0xB00040
/-- PWR_CNT_HOLD, chapter 22. -/
abbrev PWR_CNT_HOLD : Nat := 0xB00044
/-- QIF_VF_SLICE, chapter 06. -/
abbrev QIF_VF_SLICE (n : Nat) : Nat := 0x1000 + 0x100000000 * n
/-- QIF_VF_EVENT, chapter 06. -/
abbrev QIF_VF_EVENT (n : Nat) : Nat := 0x1004 + 0x100000000 * n
/-- QIF_VF_FAULT, chapter 06. -/
abbrev QIF_VF_FAULT (n : Nat) : Nat := 0x1010 + 0x100000000 * n
/-- QIF_VF_JOB, chapter 06. -/
abbrev QIF_VF_JOB (n : Nat) : Nat := 0x1014 + 0x100000000 * n
/-- QIF_VF_TICK_LO, chapter 06. -/
abbrev QIF_VF_TICK_LO (n : Nat) : Nat := 0x1008 + 0x100000000 * n
/-- QIF_VF_TICK_HI, chapter 06. -/
abbrev QIF_VF_TICK_HI (n : Nat) : Nat := 0x100C + 0x100000000 * n
/-- QIF_Q_CTRL, chapter 06. -/
abbrev QIF_Q_CTRL (n : Nat) (q : Nat) : Nat := 0x2000 + 0x100000000 * n + 0x40 * q
/-- QIF_Q_STATUS, chapter 06. -/
abbrev QIF_Q_STATUS (n : Nat) (q : Nat) : Nat := 0x2004 + 0x100000000 * n + 0x40 * q
/-- QIF_Q_SIZE, chapter 06. -/
abbrev QIF_Q_SIZE (n : Nat) (q : Nat) : Nat := 0x2008 + 0x100000000 * n + 0x40 * q
/-- QIF_Q_PASID, chapter 06. -/
abbrev QIF_Q_PASID (n : Nat) (q : Nat) : Nat := 0x200C + 0x100000000 * n + 0x40 * q
/-- QIF_Q_IRQ, chapter 06. -/
abbrev QIF_Q_IRQ (n : Nat) (q : Nat) : Nat := 0x2028 + 0x100000000 * n + 0x40 * q
/-- QIF_Q_INFLIGHT, chapter 06. -/
abbrev QIF_Q_INFLIGHT (n : Nat) (q : Nat) : Nat := 0x202C + 0x100000000 * n + 0x40 * q
/-- QIF_Q_DONE, chapter 06. -/
abbrev QIF_Q_DONE (n : Nat) (q : Nat) : Nat := 0x2030 + 0x100000000 * n + 0x40 * q
/-- QIF_Q_DESC_LO, chapter 06. -/
abbrev QIF_Q_DESC_LO (n : Nat) (q : Nat) : Nat := 0x2010 + 0x100000000 * n + 0x40 * q
/-- QIF_Q_DESC_HI, chapter 06. -/
abbrev QIF_Q_DESC_HI (n : Nat) (q : Nat) : Nat := 0x2014 + 0x100000000 * n + 0x40 * q
/-- QIF_Q_DRV_LO, chapter 06. -/
abbrev QIF_Q_DRV_LO (n : Nat) (q : Nat) : Nat := 0x2018 + 0x100000000 * n + 0x40 * q
/-- QIF_Q_DRV_HI, chapter 06. -/
abbrev QIF_Q_DRV_HI (n : Nat) (q : Nat) : Nat := 0x201C + 0x100000000 * n + 0x40 * q
/-- QIF_Q_DEV_LO, chapter 06. -/
abbrev QIF_Q_DEV_LO (n : Nat) (q : Nat) : Nat := 0x2020 + 0x100000000 * n + 0x40 * q
/-- QIF_Q_DEV_HI, chapter 06. -/
abbrev QIF_Q_DEV_HI (n : Nat) (q : Nat) : Nat := 0x2024 + 0x100000000 * n + 0x40 * q

end R

namespace F

abbrev ID_PART_FAMILY : Fld := ⟨R.ID_PART, 31, 24⟩
abbrev ID_PART_PART : Fld := ⟨R.ID_PART, 23, 8⟩
abbrev ID_PART_STEPPING : Fld := ⟨R.ID_PART, 7, 0⟩
abbrev ID_SITES_STACK_USABLE : Fld := ⟨R.ID_SITES, 23, 16⟩
abbrev ID_SITES_STACK_FITTED : Fld := ⟨R.ID_SITES, 15, 8⟩
abbrev ID_SITES_IO3_TYPE : Fld := ⟨R.ID_SITES, 7, 6⟩
abbrev ID_SITES_IO2_TYPE : Fld := ⟨R.ID_SITES, 5, 4⟩
abbrev ID_SITES_IO1_TYPE : Fld := ⟨R.ID_SITES, 3, 2⟩
abbrev ID_SITES_IO0_TYPE : Fld := ⟨R.ID_SITES, 1, 0⟩
abbrev ID_IO_STATUS_IO_USABLE : Fld := ⟨R.ID_IO_STATUS, 3, 0⟩
abbrev ID_CLUSTER_USABLE_LO_CLUSTERS_31_0 : Fld := ⟨R.ID_CLUSTER_USABLE_LO, 31, 0⟩
abbrev ID_CLUSTER_USABLE_HI_CLUSTERS_47_32 : Fld := ⟨R.ID_CLUSTER_USABLE_HI, 15, 0⟩
abbrev ID_MODULE_MODULE_REV : Fld := ⟨R.ID_MODULE, 15, 0⟩
abbrev ID_SERIAL_LO_SERIAL_31_0 : Fld := ⟨R.ID_SERIAL_LO, 31, 0⟩
abbrev ID_SERIAL_HI_SERIAL_63_32 : Fld := ⟨R.ID_SERIAL_HI, 31, 0⟩
abbrev ID_POSITION_TRAY_ID : Fld := ⟨R.ID_POSITION, 8, 3⟩
abbrev ID_POSITION_SLOT_ID : Fld := ⟨R.ID_POSITION, 2, 0⟩
abbrev BOOT_STATUS_FENCE_UNREAD : Fld := ⟨R.BOOT_STATUS, 18, 18⟩
abbrev BOOT_STATUS_PCIE_WIDTH : Fld := ⟨R.BOOT_STATUS, 17, 16⟩
abbrev BOOT_STATUS_LAST_CAUSE : Fld := ⟨R.BOOT_STATUS, 15, 8⟩
abbrev BOOT_STATUS_NO_HISTORY : Fld := ⟨R.BOOT_STATUS, 7, 7⟩
abbrev BOOT_STATUS_DIAG_ONLY : Fld := ⟨R.BOOT_STATUS, 6, 6⟩
abbrev BOOT_STATUS_START_KIND : Fld := ⟨R.BOOT_STATUS, 5, 4⟩
abbrev BOOT_STATUS_STEP : Fld := ⟨R.BOOT_STATUS, 3, 0⟩
abbrev BOOT_SEQ_SEQ : Fld := ⟨R.BOOT_SEQ, 31, 0⟩
abbrev BOOT_OUTCOME_LO_STEP1_STEP8 : Fld := ⟨R.BOOT_OUTCOME_LO, 31, 0⟩
abbrev BOOT_OUTCOME_HI_STEP9 : Fld := ⟨R.BOOT_OUTCOME_HI, 3, 0⟩
abbrev BOOT_FAIL_A_EWB_PORTS : Fld := ⟨R.BOOT_FAIL_A, 31, 16⟩
abbrev BOOT_FAIL_A_STACKS : Fld := ⟨R.BOOT_FAIL_A, 15, 8⟩
abbrev BOOT_FAIL_A_LINKS : Fld := ⟨R.BOOT_FAIL_A, 7, 1⟩
abbrev BOOT_FAIL_B_CAMPION : Fld := ⟨R.BOOT_FAIL_B, 19, 18⟩
abbrev BOOT_FAIL_B_COMMONS : Fld := ⟨R.BOOT_FAIL_B, 17, 16⟩
abbrev BOOT_FAIL_B_CLUSTERS_47_32 : Fld := ⟨R.BOOT_FAIL_B, 15, 0⟩
abbrev BOOT_FAIL_C_CLUSTERS_31_0 : Fld := ⟨R.BOOT_FAIL_C, 31, 0⟩
abbrev BOOT_READY_TIME_MS : Fld := ⟨R.BOOT_READY_TIME, 15, 0⟩
abbrev BOOT_FENCE_COUNT_UNITS : Fld := ⟨R.BOOT_FENCE_COUNT, 7, 0⟩
abbrev CMD_STATUS_JOBS_RUNNING : Fld := ⟨R.CMD_STATUS, 10, 8⟩
abbrev CMD_STATUS_DATA_ERROR_SEEN : Fld := ⟨R.CMD_STATUS, 2, 2⟩
abbrev CMD_STATUS_JOB_DONE : Fld := ⟨R.CMD_STATUS, 1, 1⟩
abbrev CMD_STATUS_EXEC_BUSY : Fld := ⟨R.CMD_STATUS, 0, 0⟩
abbrev CMD_LEVEL_LEVEL : Fld := ⟨R.CMD_LEVEL, 15, 0⟩
abbrev CMD_CNT_TAKEN_COUNT : Fld := ⟨R.CMD_CNT_TAKEN, 31, 0⟩
abbrev CMD_CNT_REJECTED_COUNT : Fld := ⟨R.CMD_CNT_REJECTED, 31, 0⟩
abbrev CMD_CNT_MCTP_DROP_COUNT : Fld := ⟨R.CMD_CNT_MCTP_DROP, 31, 0⟩
abbrev CMD_LAST_STATUS : Fld := ⟨R.CMD_LAST, 31, 24⟩
abbrev CMD_LAST_FUNCTION : Fld := ⟨R.CMD_LAST, 23, 16⟩
abbrev CMD_LAST_OPCODE : Fld := ⟨R.CMD_LAST, 15, 0⟩
abbrev CMD_JOB_A_JOB (j : Nat) : Fld := ⟨(R.CMD_JOB_A j), 31, 16⟩
abbrev CMD_JOB_A_FUNCTION (j : Nat) : Fld := ⟨(R.CMD_JOB_A j), 15, 8⟩
abbrev CMD_JOB_A_STATE (j : Nat) : Fld := ⟨(R.CMD_JOB_A j), 2, 0⟩
abbrev CMD_JOB_B_OPCODE (j : Nat) : Fld := ⟨(R.CMD_JOB_B j), 31, 16⟩
abbrev CMD_JOB_B_FINAL_STATUS (j : Nat) : Fld := ⟨(R.CMD_JOB_B j), 7, 0⟩
abbrev CMD_JOB_PROGRESS_PERMILLE (j : Nat) : Fld := ⟨(R.CMD_JOB_PROGRESS j), 9, 0⟩
abbrev TCK_CONFIG_ROLE : Fld := ⟨R.TCK_CONFIG, 16, 16⟩
abbrev TCK_CONFIG_IN_DIV : Fld := ⟨R.TCK_CONFIG, 15, 0⟩
abbrev TCK_PERIOD_PERIOD : Fld := ⟨R.TCK_PERIOD, 26, 0⟩
abbrev TCK_HOLDOFF_HOLDOFF_MS : Fld := ⟨R.TCK_HOLDOFF, 19, 0⟩
abbrev TCK_QUAL_LOSS_COUNT : Fld := ⟨R.TCK_QUAL, 19, 16⟩
abbrev TCK_QUAL_WINDOW : Fld := ⟨R.TCK_QUAL, 15, 0⟩
abbrev TCK_MAX_ERR_MAX_ERR_US : Fld := ⟨R.TCK_MAX_ERR, 13, 0⟩
abbrev TCK_MASTER_ID_Y : Fld := ⟨R.TCK_MASTER_ID, 8, 3⟩
abbrev TCK_MASTER_ID_X : Fld := ⟨R.TCK_MASTER_ID, 2, 0⟩
abbrev TCK_PHASE_ERR_ERR_NS : Fld := ⟨R.TCK_PHASE_ERR, 31, 0⟩
abbrev TCK_NEXT_PERIOD_PERIOD : Fld := ⟨R.TCK_NEXT_PERIOD, 26, 0⟩
abbrev TCK_EVENTS_SWITCHES : Fld := ⟨R.TCK_EVENTS, 31, 16⟩
abbrev TCK_EVENTS_REF_LOSSES : Fld := ⟨R.TCK_EVENTS, 15, 0⟩
abbrev TCK_PRI_SRC_KIND : Fld := ⟨R.TCK_PRI_SRC, 5, 4⟩
abbrev TCK_PRI_SRC_SITE : Fld := ⟨R.TCK_PRI_SRC, 3, 2⟩
abbrev TCK_PRI_SRC_PORT : Fld := ⟨R.TCK_PRI_SRC, 1, 0⟩
abbrev TCK_SEC_SRC_KIND : Fld := ⟨R.TCK_SEC_SRC, 5, 4⟩
abbrev TCK_SEC_SRC_SITE : Fld := ⟨R.TCK_SEC_SRC, 3, 2⟩
abbrev TCK_SEC_SRC_PORT : Fld := ⟨R.TCK_SEC_SRC, 1, 0⟩
abbrev TCK_STATUS_DUAL_MASTER : Fld := ⟨R.TCK_STATUS, 15, 15⟩
abbrev TCK_STATUS_MARKER_DISCARD : Fld := ⟨R.TCK_STATUS, 14, 14⟩
abbrev TCK_STATUS_RESYNC_REQUIRED : Fld := ⟨R.TCK_STATUS, 13, 13⟩
abbrev TCK_STATUS_TIME_VALID : Fld := ⟨R.TCK_STATUS, 12, 12⟩
abbrev TCK_STATUS_ALIGNED : Fld := ⟨R.TCK_STATUS, 11, 11⟩
abbrev TCK_STATUS_PERIOD_PENDING : Fld := ⟨R.TCK_STATUS, 10, 10⟩
abbrev TCK_STATUS_SEC_QUALIFIED : Fld := ⟨R.TCK_STATUS, 9, 9⟩
abbrev TCK_STATUS_SEC_VALID : Fld := ⟨R.TCK_STATUS, 8, 8⟩
abbrev TCK_STATUS_PRI_QUALIFIED : Fld := ⟨R.TCK_STATUS, 7, 7⟩
abbrev TCK_STATUS_PRI_VALID : Fld := ⟨R.TCK_STATUS, 6, 6⟩
abbrev TCK_STATUS_SW_TARGET : Fld := ⟨R.TCK_STATUS, 5, 5⟩
abbrev TCK_STATUS_TICK_IN_UNUSED : Fld := ⟨R.TCK_STATUS, 3, 3⟩
abbrev TCK_STATUS_STATE : Fld := ⟨R.TCK_STATUS, 2, 0⟩
abbrev TCK_COUNT_LO_COUNT : Fld := ⟨R.TCK_COUNT_LO, 31, 0⟩
abbrev TCK_COUNT_HI_COUNT : Fld := ⟨R.TCK_COUNT_HI, 31, 0⟩
abbrev TCK_TIME_LO_TIME : Fld := ⟨R.TCK_TIME_LO, 31, 0⟩
abbrev TCK_TIME_HI_TIME : Fld := ⟨R.TCK_TIME_HI, 31, 0⟩
abbrev TCK_TICK_TIME_LO_TICK_TIME : Fld := ⟨R.TCK_TICK_TIME_LO, 31, 0⟩
abbrev TCK_TICK_TIME_HI_TICK_TIME : Fld := ⟨R.TCK_TICK_TIME_HI, 31, 0⟩
abbrev TCK_NEXT_AT_LO_AT : Fld := ⟨R.TCK_NEXT_AT_LO, 31, 0⟩
abbrev TCK_NEXT_AT_HI_AT : Fld := ⟨R.TCK_NEXT_AT_HI, 31, 0⟩
abbrev CAL_DATE_YEAR : Fld := ⟨R.CAL_DATE, 27, 16⟩
abbrev CAL_DATE_DOW : Fld := ⟨R.CAL_DATE, 14, 12⟩
abbrev CAL_DATE_MONTH : Fld := ⟨R.CAL_DATE, 11, 8⟩
abbrev CAL_DATE_DAY : Fld := ⟨R.CAL_DATE, 4, 0⟩
abbrev CAL_TIME_HOUR : Fld := ⟨R.CAL_TIME, 20, 16⟩
abbrev CAL_TIME_MINUTE : Fld := ⟨R.CAL_TIME, 13, 8⟩
abbrev CAL_TIME_SECOND : Fld := ⟨R.CAL_TIME, 5, 0⟩
abbrev CAL_SUBSEC_NS : Fld := ⟨R.CAL_SUBSEC, 29, 0⟩
abbrev CAL_UTC_OFFSET_OFFSET : Fld := ⟨R.CAL_UTC_OFFSET, 15, 0⟩
abbrev CAL_UTC_NEXT_NEXT_OFFSET : Fld := ⟨R.CAL_UTC_NEXT, 15, 0⟩
abbrev CAL_STATUS_UTC_PENDING : Fld := ⟨R.CAL_STATUS, 4, 4⟩
abbrev CAL_STATUS_UTC_SET : Fld := ⟨R.CAL_STATUS, 3, 3⟩
abbrev CAL_STATUS_OUT_OF_RANGE : Fld := ⟨R.CAL_STATUS, 2, 2⟩
abbrev CAL_STATUS_BAD_DATE : Fld := ⟨R.CAL_STATUS, 1, 1⟩
abbrev CAL_STATUS_VALID : Fld := ⟨R.CAL_STATUS, 0, 0⟩
abbrev CAL_BAD_COUNT_COUNT : Fld := ⟨R.CAL_BAD_COUNT, 15, 0⟩
abbrev CAL_UTC_NEXT_AT_LO_AT : Fld := ⟨R.CAL_UTC_NEXT_AT_LO, 31, 0⟩
abbrev CAL_UTC_NEXT_AT_HI_AT : Fld := ⟨R.CAL_UTC_NEXT_AT_HI, 31, 0⟩
abbrev EXM_CTRL_CLR_COUNTERS : Fld := ⟨R.EXM_CTRL, 0, 0⟩
abbrev EXM_STATUS_ECC_UE_SEEN : Fld := ⟨R.EXM_STATUS, 2, 2⟩
abbrev EXM_STATUS_LEASE_EXPIRED : Fld := ⟨R.EXM_STATUS, 1, 1⟩
abbrev EXM_STATUS_DENIED_SEEN : Fld := ⟨R.EXM_STATUS, 0, 0⟩
abbrev EXM_SEMA_WORDS_WORDS : Fld := ⟨R.EXM_SEMA_WORDS, 12, 0⟩
abbrev EXM_TOKEN_PHASE_PHASE : Fld := ⟨R.EXM_TOKEN_PHASE, 15, 0⟩
abbrev EXM_CNT_COLLIDE_WW_COUNT : Fld := ⟨R.EXM_CNT_COLLIDE_WW, 31, 0⟩
abbrev EXM_CNT_COLLIDE_RW_COUNT : Fld := ⟨R.EXM_CNT_COLLIDE_RW, 31, 0⟩
abbrev EXM_CNT_COLLIDE_AA_COUNT : Fld := ⟨R.EXM_CNT_COLLIDE_AA, 31, 0⟩
abbrev EXM_CNT_SEMA_IGNORED_COUNT : Fld := ⟨R.EXM_CNT_SEMA_IGNORED, 31, 0⟩
abbrev EXM_CNT_SEMA_MISUSE_COUNT : Fld := ⟨R.EXM_CNT_SEMA_MISUSE, 31, 0⟩
abbrev EXM_CNT_DENIED_COUNT : Fld := ⟨R.EXM_CNT_DENIED, 31, 0⟩
abbrev EXM_CNT_TRIG_REJECT_COUNT : Fld := ⟨R.EXM_CNT_TRIG_REJECT, 31, 0⟩
abbrev EXM_CNT_LEASE_COUNT : Fld := ⟨R.EXM_CNT_LEASE, 31, 0⟩
abbrev EXM_CNT_ECC_CE_COUNT : Fld := ⟨R.EXM_CNT_ECC_CE, 31, 0⟩
abbrev EXM_CNT_ECC_UE_COUNT : Fld := ⟨R.EXM_CNT_ECC_UE, 31, 0⟩
abbrev EXM_LAST_DENIED_PORT : Fld := ⟨R.EXM_LAST_DENIED, 31, 31⟩
abbrev EXM_LAST_DENIED_ID : Fld := ⟨R.EXM_LAST_DENIED, 30, 24⟩
abbrev EXM_LAST_DENIED_ADDR : Fld := ⟨R.EXM_LAST_DENIED, 22, 0⟩
abbrev EXM_PEND_SLOT (i : Nat) : Fld := ⟨(R.EXM_PEND i), 31, 0⟩
abbrev EXM_VF_WIN_BASE (n : Nat) : Fld := ⟨(R.EXM_VF_WIN n), 10, 0⟩
abbrev EXM_RGN_BASE_BASE (r : Nat) : Fld := ⟨(R.EXM_RGN_BASE r), 16, 0⟩
abbrev EXM_RGN_SIZE_SIZE (r : Nat) : Fld := ⟨(R.EXM_RGN_SIZE r), 16, 0⟩
abbrev EXM_RGN_ATTR_KIND (r : Nat) : Fld := ⟨(R.EXM_RGN_ATTR r), 17, 16⟩
abbrev EXM_RGN_ATTR_VF (r : Nat) : Fld := ⟨(R.EXM_RGN_ATTR r), 13, 8⟩
abbrev EXM_RGN_ATTR_SEMA (r : Nat) : Fld := ⟨(R.EXM_RGN_ATTR r), 0, 0⟩
abbrev EXM_RGN_LEASE_LEASE_US (r : Nat) : Fld := ⟨(R.EXM_RGN_LEASE r), 19, 0⟩
abbrev QIF_VF_QSTATE_ERRORED (n : Nat) : Fld := ⟨(R.QIF_VF_QSTATE n), 31, 16⟩
abbrev QIF_VF_QSTATE_ENABLED (n : Nat) : Fld := ⟨(R.QIF_VF_QSTATE n), 15, 0⟩
abbrev QIF_CNT_QERR_COUNT : Fld := ⟨R.QIF_CNT_QERR, 31, 0⟩
abbrev SLC_TEN_STATUS_CLAIM_VF : Fld := ⟨R.SLC_TEN_STATUS, 13, 8⟩
abbrev SLC_TEN_STATUS_FORCED : Fld := ⟨R.SLC_TEN_STATUS, 7, 7⟩
abbrev SLC_TEN_STATUS_DEBUG_CONSENT : Fld := ⟨R.SLC_TEN_STATUS, 4, 4⟩
abbrev SLC_TEN_STATUS_MODEL : Fld := ⟨R.SLC_TEN_STATUS, 3, 2⟩
abbrev SLC_TEN_STATUS_STATE : Fld := ⟨R.SLC_TEN_STATUS, 1, 0⟩
abbrev SLC_TEN_ID_TENANCY_ID : Fld := ⟨R.SLC_TEN_ID, 31, 0⟩
abbrev SLC_TEN_GRACE_GRACE_MS : Fld := ⟨R.SLC_TEN_GRACE, 21, 0⟩
abbrev SLC_SCRUB_ACTIVE : Fld := ⟨R.SLC_SCRUB, 31, 31⟩
abbrev SLC_SCRUB_KIND : Fld := ⟨R.SLC_SCRUB, 23, 16⟩
abbrev SLC_SCRUB_VF : Fld := ⟨R.SLC_SCRUB, 15, 10⟩
abbrev SLC_SCRUB_PERMILLE : Fld := ⟨R.SLC_SCRUB, 9, 0⟩
abbrev SLC_FREE_CLUSTERS_LO_CLUSTERS : Fld := ⟨R.SLC_FREE_CLUSTERS_LO, 31, 0⟩
abbrev SLC_FREE_CLUSTERS_HI_CLUSTERS : Fld := ⟨R.SLC_FREE_CLUSTERS_HI, 15, 0⟩
abbrev SLC_FREE_COMMONS_UNITS : Fld := ⟨R.SLC_FREE_COMMONS, 12, 0⟩
abbrev SLC_FREE_HBM_UNITS : Fld := ⟨R.SLC_FREE_HBM, 16, 0⟩
abbrev SLC_S_STATE_STATE (n : Nat) : Fld := ⟨(R.SLC_S_STATE n), 7, 0⟩
abbrev SLC_S_SHARE_MODE (n : Nat) : Fld := ⟨(R.SLC_S_SHARE n), 16, 16⟩
abbrev SLC_S_SHARE_SHARE (n : Nat) : Fld := ⟨(R.SLC_S_SHARE n), 15, 0⟩
abbrev SLC_S_CLUSTERS_LO_CLUSTERS (n : Nat) : Fld := ⟨(R.SLC_S_CLUSTERS_LO n), 31, 0⟩
abbrev SLC_S_CLUSTERS_HI_CLUSTERS (n : Nat) : Fld := ⟨(R.SLC_S_CLUSTERS_HI n), 31, 0⟩
abbrev SLC_S_DRAIN_LO_CLUSTERS (n : Nat) : Fld := ⟨(R.SLC_S_DRAIN_LO n), 31, 0⟩
abbrev SLC_S_DRAIN_HI_CLUSTERS (n : Nat) : Fld := ⟨(R.SLC_S_DRAIN_HI n), 31, 0⟩
abbrev SLC_S_COMMONS_UNITS (n : Nat) : Fld := ⟨(R.SLC_S_COMMONS n), 12, 0⟩
abbrev SLC_S_HBM_UNITS (n : Nat) : Fld := ⟨(R.SLC_S_HBM n), 16, 0⟩
abbrev SLC_S_HBM_MAPPED_UNITS (n : Nat) : Fld := ⟨(R.SLC_S_HBM_MAPPED n), 16, 0⟩
abbrev SLC_S_ENGINE_SHARE_WEIGHT (n : Nat) : Fld := ⟨(R.SLC_S_ENGINE_SHARE n), 15, 0⟩
abbrev SLC_S_PENDING_LO_TICK (n : Nat) : Fld := ⟨(R.SLC_S_PENDING_LO n), 31, 0⟩
abbrev SLC_S_PENDING_HI_TICK (n : Nat) : Fld := ⟨(R.SLC_S_PENDING_HI n), 31, 0⟩
abbrev SLC_S_MIGRATION_CONTEXTS (n : Nat) : Fld := ⟨(R.SLC_S_MIGRATION n), 31, 16⟩
abbrev SLC_S_MIGRATION_CYCLES (n : Nat) : Fld := ⟨(R.SLC_S_MIGRATION n), 15, 0⟩
abbrev SLC_S_RESHAPES_COUNT (n : Nat) : Fld := ⟨(R.SLC_S_RESHAPES n), 31, 0⟩
abbrev SLC_S_BOUNDS_AUTO (n : Nat) : Fld := ⟨(R.SLC_S_BOUNDS n), 16, 16⟩
abbrev SLC_S_BOUNDS_MAX_CLUSTERS (n : Nat) : Fld := ⟨(R.SLC_S_BOUNDS n), 15, 8⟩
abbrev SLC_S_BOUNDS_MIN_CLUSTERS (n : Nat) : Fld := ⟨(R.SLC_S_BOUNDS n), 7, 0⟩
abbrev SLC_B_MIN_COMMONS_VALUE (n : Nat) : Fld := ⟨(R.SLC_B_MIN_COMMONS n), 31, 0⟩
abbrev SLC_B_MAX_COMMONS_VALUE (n : Nat) : Fld := ⟨(R.SLC_B_MAX_COMMONS n), 31, 0⟩
abbrev SLC_B_MIN_HBM_VALUE (n : Nat) : Fld := ⟨(R.SLC_B_MIN_HBM n), 31, 0⟩
abbrev SLC_B_MAX_HBM_VALUE (n : Nat) : Fld := ⟨(R.SLC_B_MAX_HBM n), 31, 0⟩
abbrev SEC_STATUS_RNG_FAIL : Fld := ⟨R.SEC_STATUS, 9, 9⟩
abbrev SEC_STATUS_LOAD_ACTIVE : Fld := ⟨R.SEC_STATUS, 8, 8⟩
abbrev SEC_STATUS_TENANCY_KEY : Fld := ⟨R.SEC_STATUS, 7, 7⟩
abbrev SEC_STATUS_SELFTEST_ALT : Fld := ⟨R.SEC_STATUS, 4, 4⟩
abbrev SEC_STATUS_SELFTEST_PASS : Fld := ⟨R.SEC_STATUS, 3, 3⟩
abbrev SEC_STATUS_KEYS_VALID : Fld := ⟨R.SEC_STATUS, 2, 2⟩
abbrev SEC_CRYPTO_LAST_OP : Fld := ⟨R.SEC_CRYPTO_LAST, 31, 24⟩
abbrev SEC_CRYPTO_LAST_STATUS : Fld := ⟨R.SEC_CRYPTO_LAST, 23, 16⟩
abbrev SEC_CRYPTO_LAST_REQUESTER : Fld := ⟨R.SEC_CRYPTO_LAST, 15, 8⟩
abbrev SEC_SPDM_STATUS_SESSIONS : Fld := ⟨R.SEC_SPDM_STATUS, 11, 8⟩
abbrev SEC_SPDM_STATUS_VERSION : Fld := ⟨R.SEC_SPDM_STATUS, 7, 0⟩
abbrev SEC_CNT_SIGN_COUNT : Fld := ⟨R.SEC_CNT_SIGN, 31, 0⟩
abbrev SEC_CNT_VERIFY_COUNT : Fld := ⟨R.SEC_CNT_VERIFY, 31, 0⟩
abbrev SEC_CNT_ECDH_COUNT : Fld := ⟨R.SEC_CNT_ECDH, 31, 0⟩
abbrev SEC_CNT_REJECT_COUNT : Fld := ⟨R.SEC_CNT_REJECT, 31, 0⟩
abbrev SEC_CNT_AEAD_FAIL_COUNT : Fld := ⟨R.SEC_CNT_AEAD_FAIL, 31, 0⟩
abbrev SEC_CNT_IDE_FAIL_COUNT : Fld := ⟨R.SEC_CNT_IDE_FAIL, 31, 0⟩
abbrev SEC_CNT_TDI_DROP_COUNT : Fld := ⟨R.SEC_CNT_TDI_DROP, 31, 0⟩
abbrev SEC_IK_PUB_BYTES (i : Nat) : Fld := ⟨(R.SEC_IK_PUB i), 31, 0⟩
abbrev SEC_BK_PUB_BYTES (i : Nat) : Fld := ⟨(R.SEC_BK_PUB i), 31, 0⟩
abbrev SEC_IK_DIGEST_BYTES (i : Nat) : Fld := ⟨(R.SEC_IK_DIGEST i), 31, 0⟩
abbrev SEC_BK_DIGEST_BYTES (i : Nat) : Fld := ⟨(R.SEC_BK_DIGEST i), 31, 0⟩
abbrev SEC_MODEL_DIGEST_BYTES (i : Nat) : Fld := ⟨(R.SEC_MODEL_DIGEST i), 31, 0⟩
abbrev SEC_MODEL_ID_BYTES (i : Nat) : Fld := ⟨(R.SEC_MODEL_ID i), 31, 0⟩
abbrev SEC_MODEL_SIZE_LO_BYTES : Fld := ⟨R.SEC_MODEL_SIZE_LO, 31, 0⟩
abbrev SEC_MODEL_SIZE_HI_BYTES : Fld := ⟨R.SEC_MODEL_SIZE_HI, 31, 0⟩
abbrev SEC_TDI_STREAM_ID (n : Nat) : Fld := ⟨(R.SEC_TDI n), 15, 8⟩
abbrev SEC_TDI_STATE (n : Nat) : Fld := ⟨(R.SEC_TDI n), 2, 0⟩
abbrev MEM_STATUS_SYS_DIE : Fld := ⟨R.MEM_STATUS, 8, 8⟩
abbrev MEM_STATUS_PATROL_ACTIVE : Fld := ⟨R.MEM_STATUS, 1, 1⟩
abbrev MEM_STATUS_ZEROING_ACTIVE : Fld := ⟨R.MEM_STATUS, 0, 0⟩
abbrev MEM_COMMONS_AVAIL_UNITS : Fld := ⟨R.MEM_COMMONS_AVAIL, 12, 0⟩
abbrev MEM_HBM_FRAMES_TOTAL : Fld := ⟨R.MEM_HBM_FRAMES, 16, 0⟩
abbrev MEM_HBM_ZEROED_FRAMES : Fld := ⟨R.MEM_HBM_ZEROED, 16, 0⟩
abbrev MEM_HBM_QUARANTINE_FRAMES : Fld := ⟨R.MEM_HBM_QUARANTINE, 16, 0⟩
abbrev MEM_HBM_ZEROING_FRAMES : Fld := ⟨R.MEM_HBM_ZEROING, 16, 0⟩
abbrev MEM_MODEL_FRAMES_FRAMES : Fld := ⟨R.MEM_MODEL_FRAMES, 16, 0⟩
abbrev MEM_L1_POOL_USED : Fld := ⟨R.MEM_L1_POOL, 10, 0⟩
abbrev MEM_PATROL_HOURS : Fld := ⟨R.MEM_PATROL, 7, 0⟩
abbrev MEM_PATROL_PROGRESS_PERMILLE : Fld := ⟨R.MEM_PATROL_PROGRESS, 9, 0⟩
abbrev MEM_HBM_CE_COUNT (s : Nat) : Fld := ⟨(R.MEM_HBM_CE s), 31, 0⟩
abbrev MEM_CMN_CE_COUNT (d : Nat) : Fld := ⟨(R.MEM_CMN_CE d), 31, 0⟩
abbrev MEM_HBM_UE_COUNT (s : Nat) : Fld := ⟨(R.MEM_HBM_UE s), 31, 0⟩
abbrev MEM_CMN_UE_COUNT (d : Nat) : Fld := ⟨(R.MEM_CMN_UE d), 31, 0⟩
abbrev MEM_REFRESH_WAIT_MAX_NS : Fld := ⟨R.MEM_REFRESH_WAIT, 15, 0⟩
abbrev MEM_CNT_INV_COUNT : Fld := ⟨R.MEM_CNT_INV, 31, 0⟩
abbrev MEM_CNT_MAP_REJECT_COUNT : Fld := ⟨R.MEM_CNT_MAP_REJECT, 31, 0⟩
abbrev MEM_TC_MISS_COUNT (c : Nat) : Fld := ⟨(R.MEM_TC_MISS c), 31, 0⟩
abbrev MEM_PIN_PINNED (n : Nat) : Fld := ⟨(R.MEM_PIN n), 7, 0⟩
abbrev SCH_STATUS_ACTIVE_BANK : Fld := ⟨R.SCH_STATUS, 24, 24⟩
abbrev SCH_STATUS_SWAP_PENDING : Fld := ⟨R.SCH_STATUS, 23, 23⟩
abbrev SCH_STATUS_EXCL_ACTIVE : Fld := ⟨R.SCH_STATUS, 22, 22⟩
abbrev SCH_STATUS_EXCL_VF : Fld := ⟨R.SCH_STATUS, 21, 16⟩
abbrev SCH_STATUS_HYPER : Fld := ⟨R.SCH_STATUS, 6, 0⟩
abbrev SCH_POS_POSITION : Fld := ⟨R.SCH_POS, 5, 0⟩
abbrev SCH_EXCL_LIMIT_MS : Fld := ⟨R.SCH_EXCL_LIMIT, 19, 0⟩
abbrev SCH_LAST_SKIP_REASON : Fld := ⟨R.SCH_LAST_SKIP, 15, 12⟩
abbrev SCH_LAST_SKIP_BANK : Fld := ⟨R.SCH_LAST_SKIP, 11, 11⟩
abbrev SCH_LAST_SKIP_INDEX : Fld := ⟨R.SCH_LAST_SKIP, 10, 0⟩
abbrev SCH_SWITCH_MAX_CYCLES : Fld := ⟨R.SCH_SWITCH_MAX, 15, 0⟩
abbrev SCH_RT_LAT_MAX_NS : Fld := ⟨R.SCH_RT_LAT_MAX, 15, 0⟩
abbrev SCH_SWAP_AT_LO_TICK : Fld := ⟨R.SCH_SWAP_AT_LO, 31, 0⟩
abbrev SCH_SWAP_AT_HI_TICK : Fld := ⟨R.SCH_SWAP_AT_HI, 31, 0⟩
abbrev SCH_CNT_SKIP_COUNT : Fld := ⟨R.SCH_CNT_SKIP, 31, 0⟩
abbrev SCH_CNT_RT_MISS_COUNT : Fld := ⟨R.SCH_CNT_RT_MISS, 31, 0⟩
abbrev SCH_CNT_SWITCH_COUNT : Fld := ⟨R.SCH_CNT_SWITCH, 31, 0⟩
abbrev SCH_CNT_CUT_COUNT : Fld := ⟨R.SCH_CNT_CUT, 31, 0⟩
abbrev SCH_CNT_RESLICE_COUNT : Fld := ⟨R.SCH_CNT_RESLICE, 31, 0⟩
abbrev SCH_SD_CFG_THRESHOLD (n : Nat) : Fld := ⟨(R.SCH_SD_CFG n), 31, 16⟩
abbrev SCH_SD_CFG_PERSIST (n : Nat) : Fld := ⟨(R.SCH_SD_CFG n), 15, 0⟩
abbrev SCH_SD_STATE_SLOWDOWN (n : Nat) : Fld := ⟨(R.SCH_SD_STATE n), 31, 16⟩
abbrev SCH_SD_STATE_ACTION (n : Nat) : Fld := ⟨(R.SCH_SD_STATE n), 1, 0⟩
abbrev SEQ_STATUS_MANIFEST : Fld := ⟨R.SEQ_STATUS, 2, 1⟩
abbrev SEQ_STATUS_BUILDING : Fld := ⟨R.SEQ_STATUS, 0, 0⟩
abbrev SEQ_LIVE_COUNT : Fld := ⟨R.SEQ_LIVE, 17, 0⟩
abbrev SEQ_CNT_ADMIT_COUNT : Fld := ⟨R.SEQ_CNT_ADMIT, 31, 0⟩
abbrev SEQ_CNT_RETIRE_COUNT : Fld := ⟨R.SEQ_CNT_RETIRE, 31, 0⟩
abbrev SEQ_CNT_FULL_COUNT : Fld := ⟨R.SEQ_CNT_FULL, 31, 0⟩
abbrev SEQ_CNT_EVICT_COUNT : Fld := ⟨R.SEQ_CNT_EVICT, 31, 0⟩
abbrev SEQ_CNT_STEPS_COUNT : Fld := ⟨R.SEQ_CNT_STEPS, 31, 0⟩
abbrev SEQ_CNT_KV_LIMIT_COUNT : Fld := ⟨R.SEQ_CNT_KV_LIMIT, 31, 0⟩
abbrev SEQ_CNT_STEP_FAIL_COUNT : Fld := ⟨R.SEQ_CNT_STEP_FAIL, 31, 0⟩
abbrev SEQ_S_LIMIT_LIMIT (n : Nat) : Fld := ⟨(R.SEQ_S_LIMIT n), 12, 0⟩
abbrev SEQ_S_STATE_IN_FLIGHT (n : Nat) : Fld := ⟨(R.SEQ_S_STATE n), 31, 31⟩
abbrev SEQ_S_STATE_ACTIVATED (n : Nat) : Fld := ⟨(R.SEQ_S_STATE n), 30, 30⟩
abbrev SEQ_S_STATE_LIVE (n : Nat) : Fld := ⟨(R.SEQ_S_STATE n), 12, 0⟩
abbrev SEQ_S_POOL_FREE (n : Nat) : Fld := ⟨(R.SEQ_S_POOL n), 24, 0⟩
abbrev SEQ_S_SCALE_SCALE (n : Nat) : Fld := ⟨(R.SEQ_S_SCALE n), 10, 0⟩
abbrev FFE_STATUS_USABLE : Fld := ⟨R.FFE_STATUS, 28, 0⟩
abbrev FFE_COLL_TIMEOUT_TICKS : Fld := ⟨R.FFE_COLL_TIMEOUT, 15, 0⟩
abbrev FFE_LAST_FAULT_KIND : Fld := ⟨R.FFE_LAST_FAULT, 31, 24⟩
abbrev FFE_LAST_FAULT_VF : Fld := ⟨R.FFE_LAST_FAULT, 23, 18⟩
abbrev FFE_LAST_FAULT_INSTANCE : Fld := ⟨R.FFE_LAST_FAULT, 17, 13⟩
abbrev FFE_LAST_FAULT_OP : Fld := ⟨R.FFE_LAST_FAULT, 12, 5⟩
abbrev FFE_CNT_INDEX_ZERO_COUNT : Fld := ⟨R.FFE_CNT_INDEX_ZERO, 31, 0⟩
abbrev FFE_CNT_FENCE_STALL_COUNT : Fld := ⟨R.FFE_CNT_FENCE_STALL, 31, 0⟩
abbrev FFE_CNT_COLL_ABORT_COUNT : Fld := ⟨R.FFE_CNT_COLL_ABORT, 31, 0⟩
abbrev FFE_CNT_DECODE_ERR_COUNT : Fld := ⟨R.FFE_CNT_DECODE_ERR, 31, 0⟩
abbrev FFE_I_STATUS_CLASS (i : Nat) : Fld := ⟨(R.FFE_I_STATUS i), 10, 8⟩
abbrev FFE_I_STATUS_DIE (i : Nat) : Fld := ⟨(R.FFE_I_STATUS i), 4, 4⟩
abbrev FFE_I_STATUS_USABLE (i : Nat) : Fld := ⟨(R.FFE_I_STATUS i), 0, 0⟩
abbrev FFE_I_QUEUED_BLOCKS (i : Nat) : Fld := ⟨(R.FFE_I_QUEUED i), 10, 0⟩
abbrev FFE_I_CNT_STEPS_COUNT (i : Nat) : Fld := ⟨(R.FFE_I_CNT_STEPS i), 31, 0⟩
abbrev YAR_STATUS_GROUPS (c : Nat) : Fld := ⟨(R.YAR_STATUS c), 22, 16⟩
abbrev YAR_STATUS_CONTEXTS (c : Nat) : Fld := ⟨(R.YAR_STATUS c), 15, 12⟩
abbrev YAR_STATUS_SPLIT (c : Nat) : Fld := ⟨(R.YAR_STATUS c), 9, 8⟩
abbrev YAR_STATUS_SPLIT_VALID (c : Nat) : Fld := ⟨(R.YAR_STATUS c), 1, 1⟩
abbrev YAR_STATUS_ISSUING (c : Nat) : Fld := ⟨(R.YAR_STATUS c), 0, 0⟩
abbrev YAR_REGS_USED_REGS (c : Nat) : Fld := ⟨(R.YAR_REGS_USED c), 16, 0⟩
abbrev YAR_LOCAL_USED_BYTES (c : Nat) : Fld := ⟨(R.YAR_LOCAL_USED c), 19, 0⟩
abbrev YAR_SCHED_GROUPS (c i : Nat) : Fld := ⟨(R.YAR_SCHED c i), 20, 16⟩
abbrev YAR_SCHED_LANE_REGS (c i : Nat) : Fld := ⟨(R.YAR_SCHED c i), 9, 0⟩
abbrev YAR_CTX_VALID (c j : Nat) : Fld := ⟨(R.YAR_CTX c j), 31, 31⟩
abbrev YAR_CTX_PARKED (c j : Nat) : Fld := ⟨(R.YAR_CTX c j), 30, 30⟩
abbrev YAR_CTX_WINDOWED (c j : Nat) : Fld := ⟨(R.YAR_CTX c j), 29, 29⟩
abbrev YAR_CTX_PRED_ONLY (c j : Nat) : Fld := ⟨(R.YAR_CTX c j), 28, 28⟩
abbrev YAR_CTX_MATRIX (c j : Nat) : Fld := ⟨(R.YAR_CTX c j), 27, 27⟩
abbrev YAR_CTX_VF (c j : Nat) : Fld := ⟨(R.YAR_CTX c j), 25, 20⟩
abbrev YAR_CTX_GROUPS (c j : Nat) : Fld := ⟨(R.YAR_CTX c j), 15, 8⟩
abbrev YAR_CTX_LOCAL_BYTES (c j : Nat) : Fld := ⟨(R.YAR_CTX_LOCAL c j), 19, 0⟩
abbrev YAR_CNT_ISSUE_COUNT (c : Nat) : Fld := ⟨(R.YAR_CNT_ISSUE c), 31, 0⟩
abbrev YAR_CNT_REPACK_COUNT (c : Nat) : Fld := ⟨(R.YAR_CNT_REPACK c), 31, 0⟩
abbrev YAR_CNT_HALF_SPLIT_COUNT (c : Nat) : Fld := ⟨(R.YAR_CNT_HALF_SPLIT c), 31, 0⟩
abbrev YAR_CNT_SECTOR_EXTRA_COUNT (c : Nat) : Fld := ⟨(R.YAR_CNT_SECTOR_EXTRA c), 31, 0⟩
abbrev YAR_CNT_FORWARD_COUNT (c : Nat) : Fld := ⟨(R.YAR_CNT_FORWARD c), 31, 0⟩
abbrev YAR_CNT_PARTIAL_STALL_COUNT (c : Nat) : Fld := ⟨(R.YAR_CNT_PARTIAL_STALL c), 31, 0⟩
abbrev YAR_CNT_SB_FULL_COUNT (c : Nat) : Fld := ⟨(R.YAR_CNT_SB_FULL c), 31, 0⟩
abbrev YAR_CNT_ATOMIC_COMBINED_COUNT (c : Nat) : Fld := ⟨(R.YAR_CNT_ATOMIC_COMBINED c), 31, 0⟩
abbrev WIN_STATUS_WCONTEXTS (c : Nat) : Fld := ⟨(R.WIN_STATUS c), 19, 16⟩
abbrev WIN_STATUS_DEFERRING (c : Nat) : Fld := ⟨(R.WIN_STATUS c), 8, 8⟩
abbrev WIN_STATUS_TRAP_CTX (c : Nat) : Fld := ⟨(R.WIN_STATUS c), 7, 0⟩
abbrev WIN_CNT_OVERFLOW_COUNT (c : Nat) : Fld := ⟨(R.WIN_CNT_OVERFLOW c), 31, 0⟩
abbrev WIN_CNT_UNDERFLOW_COUNT (c : Nat) : Fld := ⟨(R.WIN_CNT_UNDERFLOW c), 31, 0⟩
abbrev WIN_DEFER_MAX_CYCLES (c : Nat) : Fld := ⟨(R.WIN_DEFER_MAX c), 19, 0⟩
abbrev MXU_STATUS_LIVE (u : Nat) : Fld := ⟨(R.MXU_STATUS u), 14, 12⟩
abbrev MXU_STATUS_QUEUED (u : Nat) : Fld := ⟨(R.MXU_STATUS u), 8, 4⟩
abbrev MXU_STATUS_STAGING (u : Nat) : Fld := ⟨(R.MXU_STATUS u), 1, 1⟩
abbrev MXU_STATUS_BUSY (u : Nat) : Fld := ⟨(R.MXU_STATUS u), 0, 0⟩
abbrev MXU_LAST_FAULT_SUBCODE (u : Nat) : Fld := ⟨(R.MXU_LAST_FAULT u), 31, 24⟩
abbrev MXU_LAST_FAULT_VF (u : Nat) : Fld := ⟨(R.MXU_LAST_FAULT u), 23, 18⟩
abbrev MXU_LAST_FAULT_CTX (u : Nat) : Fld := ⟨(R.MXU_LAST_FAULT u), 17, 15⟩
abbrev MXU_LAST_FAULT_OP (u : Nat) : Fld := ⟨(R.MXU_LAST_FAULT u), 14, 11⟩
abbrev MXU_TILES_VALID_0 (u : Nat) : Fld := ⟨(R.MXU_TILES u), 7, 7⟩
abbrev MXU_TILES_INT_0 (u : Nat) : Fld := ⟨(R.MXU_TILES u), 6, 6⟩
abbrev MXU_TILES_CTX_0 (u : Nat) : Fld := ⟨(R.MXU_TILES u), 5, 3⟩
abbrev MXU_TILES_LTILE_0 (u : Nat) : Fld := ⟨(R.MXU_TILES u), 2, 0⟩
abbrev MXU_TILES_VALID_1 (u : Nat) : Fld := ⟨(R.MXU_TILES u), 15, 15⟩
abbrev MXU_TILES_INT_1 (u : Nat) : Fld := ⟨(R.MXU_TILES u), 14, 14⟩
abbrev MXU_TILES_CTX_1 (u : Nat) : Fld := ⟨(R.MXU_TILES u), 13, 11⟩
abbrev MXU_TILES_LTILE_1 (u : Nat) : Fld := ⟨(R.MXU_TILES u), 10, 8⟩
abbrev MXU_TILES_VALID_2 (u : Nat) : Fld := ⟨(R.MXU_TILES u), 23, 23⟩
abbrev MXU_TILES_INT_2 (u : Nat) : Fld := ⟨(R.MXU_TILES u), 22, 22⟩
abbrev MXU_TILES_CTX_2 (u : Nat) : Fld := ⟨(R.MXU_TILES u), 21, 19⟩
abbrev MXU_TILES_LTILE_2 (u : Nat) : Fld := ⟨(R.MXU_TILES u), 18, 16⟩
abbrev MXU_TILES_VALID_3 (u : Nat) : Fld := ⟨(R.MXU_TILES u), 31, 31⟩
abbrev MXU_TILES_INT_3 (u : Nat) : Fld := ⟨(R.MXU_TILES u), 30, 30⟩
abbrev MXU_TILES_CTX_3 (u : Nat) : Fld := ⟨(R.MXU_TILES u), 29, 27⟩
abbrev MXU_TILES_LTILE_3 (u : Nat) : Fld := ⟨(R.MXU_TILES u), 26, 24⟩
abbrev MXU_CNT_OPS_COUNT (u : Nat) : Fld := ⟨(R.MXU_CNT_OPS u), 31, 0⟩
abbrev MXU_CNT_KSTEPS_COUNT (u : Nat) : Fld := ⟨(R.MXU_CNT_KSTEPS u), 31, 0⟩
abbrev MXU_CNT_PARKS_COUNT (u : Nat) : Fld := ⟨(R.MXU_CNT_PARKS u), 31, 0⟩
abbrev MXU_CNT_RESTORES_COUNT (u : Nat) : Fld := ⟨(R.MXU_CNT_RESTORES u), 31, 0⟩
abbrev MXU_CNT_MOVES_COUNT (u : Nat) : Fld := ⟨(R.MXU_CNT_MOVES u), 31, 0⟩
abbrev MXU_CNT_STAGE_WAIT_COUNT (u : Nat) : Fld := ⟨(R.MXU_CNT_STAGE_WAIT u), 31, 0⟩
abbrev CMP_STATUS_GRANT_REJECT : Fld := ⟨R.CMP_STATUS, 8, 8⟩
abbrev CMP_STATUS_INFLIGHT1 : Fld := ⟨R.CMP_STATUS, 7, 7⟩
abbrev CMP_STATUS_INFLIGHT0 : Fld := ⟨R.CMP_STATUS, 6, 6⟩
abbrev CMP_STATUS_USABLE1 : Fld := ⟨R.CMP_STATUS, 5, 5⟩
abbrev CMP_STATUS_USABLE0 : Fld := ⟨R.CMP_STATUS, 4, 4⟩
abbrev CMP_STATUS_STATE1 : Fld := ⟨R.CMP_STATUS, 3, 2⟩
abbrev CMP_STATUS_STATE0 : Fld := ⟨R.CMP_STATUS, 1, 0⟩
abbrev CMP_GRANT_AREA (d : Nat) : Fld := ⟨(R.CMP_GRANT d), 27, 16⟩
abbrev CMP_GRANT_VF (d : Nat) : Fld := ⟨(R.CMP_GRANT d), 5, 0⟩
abbrev CMP_ETIME_LO_ETIME (d : Nat) : Fld := ⟨(R.CMP_ETIME_LO d), 31, 0⟩
abbrev CMP_ETIME_HI_ETIME (d : Nat) : Fld := ⟨(R.CMP_ETIME_HI d), 31, 0⟩
abbrev CMP_FAULT_VF (d : Nat) : Fld := ⟨(R.CMP_FAULT d), 13, 8⟩
abbrev CMP_FAULT_CODE (d : Nat) : Fld := ⟨(R.CMP_FAULT d), 7, 0⟩
abbrev CMP_DROP_COUNT (d p : Nat) : Fld := ⟨(R.CMP_DROP d p), 31, 0⟩
abbrev CMP_CNT_RUNS_COUNT (d : Nat) : Fld := ⟨(R.CMP_CNT_RUNS d), 31, 0⟩
abbrev CMP_CNT_SPIKES_COUNT (d : Nat) : Fld := ⟨(R.CMP_CNT_SPIKES d), 31, 0⟩
abbrev CMP_CNT_LATE_COUNT (d : Nat) : Fld := ⟨(R.CMP_CNT_LATE d), 31, 0⟩
abbrev CMP_CNT_SPILL_COUNT (d : Nat) : Fld := ⟨(R.CMP_CNT_SPILL d), 31, 0⟩
abbrev CMP_CNT_BAD_DEST_COUNT (d : Nat) : Fld := ⟨(R.CMP_CNT_BAD_DEST d), 31, 0⟩
abbrev CMP_CNT_EGR_DROP_COUNT (d : Nat) : Fld := ⟨(R.CMP_CNT_EGR_DROP d), 31, 0⟩
abbrev SNS_STATUS_GRANT_REJECT : Fld := ⟨R.SNS_STATUS, 8, 8⟩
abbrev SNS_STATUS_USABLE1 : Fld := ⟨R.SNS_STATUS, 1, 1⟩
abbrev SNS_STATUS_USABLE0 : Fld := ⟨R.SNS_STATUS, 0, 0⟩
abbrev SNS_CNT_ADDR_COUNT : Fld := ⟨R.SNS_CNT_ADDR, 31, 0⟩
abbrev SNS_GRANT_AREA (d : Nat) : Fld := ⟨(R.SNS_GRANT d), 27, 16⟩
abbrev SNS_GRANT_VF (d : Nat) : Fld := ⟨(R.SNS_GRANT d), 5, 0⟩
abbrev SNS_PORT_CTRL_PWR_EN (d j : Nat) : Fld := ⟨(R.SNS_PORT_CTRL d j), 31, 31⟩
abbrev SNS_PORT_CTRL_ENABLE (d j : Nat) : Fld := ⟨(R.SNS_PORT_CTRL d j), 30, 30⟩
abbrev SNS_PORT_CTRL_LANES (d j : Nat) : Fld := ⟨(R.SNS_PORT_CTRL d j), 29, 28⟩
abbrev SNS_PORT_STATUS_LINK (d j : Nat) : Fld := ⟨(R.SNS_PORT_STATUS d j), 3, 3⟩
abbrev SNS_PORT_STATUS_IN_FRAME (d j : Nat) : Fld := ⟨(R.SNS_PORT_STATUS d j), 2, 2⟩
abbrev SNS_PORT_STATUS_PWR_FAULT (d j : Nat) : Fld := ⟨(R.SNS_PORT_STATUS d j), 1, 1⟩
abbrev SNS_PORT_STATUS_PWR_ON (d j : Nat) : Fld := ⟨(R.SNS_PORT_STATUS d j), 0, 0⟩
abbrev SNS_PORT_CNT_PKT_OTHER (d j : Nat) : Fld := ⟨(R.SNS_PORT_CNT_PKT d j), 31, 16⟩
abbrev SNS_PORT_CNT_PKT_FROZEN (d j : Nat) : Fld := ⟨(R.SNS_PORT_CNT_PKT d j), 15, 0⟩
abbrev SNS_PORT_CNT_ERR_ERR_ECC (d j : Nat) : Fld := ⟨(R.SNS_PORT_CNT_ERR d j), 31, 16⟩
abbrev SNS_PORT_CNT_ERR_ERR_CRC (d j : Nat) : Fld := ⟨(R.SNS_PORT_CNT_ERR d j), 15, 0⟩
abbrev SNS_AER_CTRL_ENABLE (d : Nat) : Fld := ⟨(R.SNS_AER_CTRL d), 0, 0⟩
abbrev SNS_AER_CNT_COUNT (d : Nat) : Fld := ⟨(R.SNS_AER_CNT d), 31, 0⟩
abbrev SNS_TRIG_CFG_ENABLE (d t : Nat) : Fld := ⟨(R.SNS_TRIG_CFG d t), 31, 31⟩
abbrev SNS_TRIG_CFG_INVERT (d t : Nat) : Fld := ⟨(R.SNS_TRIG_CFG d t), 30, 30⟩
abbrev SNS_TRIG_CFG_DIV (d t : Nat) : Fld := ⟨(R.SNS_TRIG_CFG d t), 15, 0⟩
abbrev SNS_TRIG_PHASE_PHASE (d t : Nat) : Fld := ⟨(R.SNS_TRIG_PHASE d t), 15, 0⟩
abbrev SNS_TRIG_OFFSET_OFFSET (d t : Nat) : Fld := ⟨(R.SNS_TRIG_OFFSET d t), 26, 0⟩
abbrev SNS_TRIG_WIDTH_WIDTH (d t : Nat) : Fld := ⟨(R.SNS_TRIG_WIDTH d t), 19, 0⟩
abbrev SNS_TRIG_CNT_CUT (d t : Nat) : Fld := ⟨(R.SNS_TRIG_CNT d t), 31, 16⟩
abbrev SNS_TRIG_CNT_PULSES (d t : Nat) : Fld := ⟨(R.SNS_TRIG_CNT d t), 15, 0⟩
abbrev EWB_STATUS_ADMIT_REFUSED : Fld := ⟨R.EWB_STATUS, 7, 7⟩
abbrev EWB_STATUS_ABANDONED : Fld := ⟨R.EWB_STATUS, 6, 6⟩
abbrev EWB_STATUS_REFUSED_SEEN : Fld := ⟨R.EWB_STATUS, 5, 5⟩
abbrev EWB_STATUS_DUP_SEEN : Fld := ⟨R.EWB_STATUS, 4, 4⟩
abbrev EWB_STATUS_BYP_READY : Fld := ⟨R.EWB_STATUS, 3, 3⟩
abbrev EWB_STATUS_INSERT : Fld := ⟨R.EWB_STATUS, 2, 0⟩
abbrev EWB_DOMAIN_Y_SIZE : Fld := ⟨R.EWB_DOMAIN, 22, 16⟩
abbrev EWB_DOMAIN_DOMAIN_ID : Fld := ⟨R.EWB_DOMAIN, 15, 0⟩
abbrev EWB_WINDOW_DIV : Fld := ⟨R.EWB_WINDOW, 15, 0⟩
abbrev EWB_RACK_RACK_TRAYS : Fld := ⟨R.EWB_RACK, 5, 0⟩
abbrev EWB_ADMIT_GO : Fld := ⟨R.EWB_ADMIT, 31, 31⟩
abbrev EWB_ADMIT_RING : Fld := ⟨R.EWB_ADMIT, 1, 1⟩
abbrev EWB_ADMIT_DIR : Fld := ⟨R.EWB_ADMIT, 0, 0⟩
abbrev EWB_REMOVE_GO : Fld := ⟨R.EWB_REMOVE, 0, 0⟩
abbrev EWB_PENDING_W_LO_W : Fld := ⟨R.EWB_PENDING_W_LO, 31, 0⟩
abbrev EWB_PENDING_W_HI_W : Fld := ⟨R.EWB_PENDING_W_HI, 31, 0⟩
abbrev EWB_CNT_NOTICE_TX_COUNT : Fld := ⟨R.EWB_CNT_NOTICE_TX, 31, 0⟩
abbrev EWB_CNT_NOTICE_RX_COUNT : Fld := ⟨R.EWB_CNT_NOTICE_RX, 31, 0⟩
abbrev EWB_CNT_FREEZE_RX_COUNT : Fld := ⟨R.EWB_CNT_FREEZE_RX, 31, 0⟩
abbrev EWB_CNT_SYM_BAD_COUNT : Fld := ⟨R.EWB_CNT_SYM_BAD, 31, 0⟩
abbrev EWB_P_CTRL_MIN_WIDTH (p : Nat) : Fld := ⟨(R.EWB_P_CTRL p), 7, 6⟩
abbrev EWB_P_CTRL_EXPECT_EN (p : Nat) : Fld := ⟨(R.EWB_P_CTRL p), 3, 3⟩
abbrev EWB_P_CTRL_FORCE_CRYPT (p : Nat) : Fld := ⟨(R.EWB_P_CTRL p), 2, 2⟩
abbrev EWB_P_CTRL_MARKER_OUT (p : Nat) : Fld := ⟨(R.EWB_P_CTRL p), 1, 1⟩
abbrev EWB_P_CTRL_ENABLE (p : Nat) : Fld := ⟨(R.EWB_P_CTRL p), 0, 0⟩
abbrev EWB_P_STATUS_REFUSE (p : Nat) : Fld := ⟨(R.EWB_P_STATUS p), 31, 28⟩
abbrev EWB_P_STATUS_PEER (p : Nat) : Fld := ⟨(R.EWB_P_STATUS p), 25, 17⟩
abbrev EWB_P_STATUS_RACK_EDGE (p : Nat) : Fld := ⟨(R.EWB_P_STATUS p), 8, 8⟩
abbrev EWB_P_STATUS_ENCRYPTED (p : Nat) : Fld := ⟨(R.EWB_P_STATUS p), 7, 7⟩
abbrev EWB_P_STATUS_WIDTH (p : Nat) : Fld := ⟨(R.EWB_P_STATUS p), 6, 5⟩
abbrev EWB_P_STATUS_STATE (p : Nat) : Fld := ⟨(R.EWB_P_STATUS p), 3, 0⟩
abbrev EWB_P_DELAY_PS (p : Nat) : Fld := ⟨(R.EWB_P_DELAY p), 31, 0⟩
abbrev EWB_P_CNT_FEC_CORR_COUNT (p : Nat) : Fld := ⟨(R.EWB_P_CNT_FEC_CORR p), 31, 0⟩
abbrev EWB_P_CNT_FEC_UNCORR_COUNT (p : Nat) : Fld := ⟨(R.EWB_P_CNT_FEC_UNCORR p), 31, 0⟩
abbrev EWB_P_CNT_REPLAY_COUNT (p : Nat) : Fld := ⟨(R.EWB_P_CNT_REPLAY p), 31, 0⟩
abbrev EWB_P_CNT_TAG_FAIL_COUNT (p : Nat) : Fld := ⟨(R.EWB_P_CNT_TAG_FAIL p), 31, 0⟩
abbrev EWB_P_CNT_DOWN_COUNT (p : Nat) : Fld := ⟨(R.EWB_P_CNT_DOWN p), 31, 0⟩
abbrev EWB_P_CNT_NO_ROUTE_COUNT (p : Nat) : Fld := ⟨(R.EWB_P_CNT_NO_ROUTE p), 31, 0⟩
abbrev EWB_P_CNT_SYM_BAD_COUNT (p : Nat) : Fld := ⟨(R.EWB_P_CNT_SYM_BAD p), 31, 0⟩
abbrev EWB_P_PEER_DIGEST_BYTES (p i : Nat) : Fld := ⟨(R.EWB_P_PEER_DIGEST p i), 31, 0⟩
abbrev EWB_P_EXPECT_BYTES (p i : Nat) : Fld := ⟨(R.EWB_P_EXPECT p i), 31, 0⟩
abbrev FLT_STATUS_RESTARTS : Fld := ⟨R.FLT_STATUS, 10, 8⟩
abbrev FLT_STATUS_STATE : Fld := ⟨R.FLT_STATUS, 2, 0⟩
abbrev FLT_CTRL_INJECT_EN : Fld := ⟨R.FLT_CTRL, 2, 2⟩
abbrev FLT_CTRL_NOTIFY_CE : Fld := ⟨R.FLT_CTRL, 1, 1⟩
abbrev FLT_CTRL_NOTIFY_CONTAINED : Fld := ⟨R.FLT_CTRL, 0, 0⟩
abbrev FLT_LAST_KIND : Fld := ⟨R.FLT_LAST, 31, 24⟩
abbrev FLT_LAST_UNIT : Fld := ⟨R.FLT_LAST, 23, 8⟩
abbrev FLT_LAST_INSTANCE : Fld := ⟨R.FLT_LAST, 7, 0⟩
abbrev FLT_RECOVERY_US : Fld := ⟨R.FLT_RECOVERY, 31, 0⟩
abbrev FLT_CE_LIMIT_PER_HOUR : Fld := ⟨R.FLT_CE_LIMIT, 15, 0⟩
abbrev FLT_INJECT_GO : Fld := ⟨R.FLT_INJECT, 31, 31⟩
abbrev FLT_INJECT_KIND : Fld := ⟨R.FLT_INJECT, 7, 0⟩
abbrev FLT_LAST_TICK_LO_TICK : Fld := ⟨R.FLT_LAST_TICK_LO, 31, 0⟩
abbrev FLT_LAST_TICK_HI_TICK : Fld := ⟨R.FLT_LAST_TICK_HI, 31, 0⟩
abbrev FLT_CNT_UNCONTAINED_COUNT : Fld := ⟨R.FLT_CNT_UNCONTAINED, 31, 0⟩
abbrev FLT_CNT_CONTAINED_COUNT : Fld := ⟨R.FLT_CNT_CONTAINED, 31, 0⟩
abbrev FLT_CNT_CE_COUNT : Fld := ⟨R.FLT_CNT_CE, 31, 0⟩
abbrev FLT_CNT_RT_FENCE_COUNT : Fld := ⟨R.FLT_CNT_RT_FENCE, 31, 0⟩
abbrev FLT_CNT_INJECTED_COUNT : Fld := ⟨R.FLT_CNT_INJECTED, 31, 0⟩
abbrev FLT_VF_CNT_COUNT (n : Nat) : Fld := ⟨(R.FLT_VF_CNT n), 31, 0⟩
abbrev EVR_STATUS_NOR_FAIL : Fld := ⟨R.EVR_STATUS, 4, 4⟩
abbrev EVR_STATUS_FF_FULL : Fld := ⟨R.EVR_STATUS, 3, 3⟩
abbrev EVR_STATUS_CLEARING : Fld := ⟨R.EVR_STATUS, 2, 2⟩
abbrev EVR_STATUS_MOUNTED : Fld := ⟨R.EVR_STATUS, 1, 1⟩
abbrev EVR_STATUS_DRAINING : Fld := ⟨R.EVR_STATUS, 0, 0⟩
abbrev EVR_CTRL_NOTIFY_LOST : Fld := ⟨R.EVR_CTRL, 7, 7⟩
abbrev EVR_CTRL_SNAP_FREEZE : Fld := ⟨R.EVR_CTRL, 6, 6⟩
abbrev EVR_CTRL_FF_SEV : Fld := ⟨R.EVR_CTRL, 2, 0⟩
abbrev EVR_SEQ_SEQ : Fld := ⟨R.EVR_SEQ, 31, 0⟩
abbrev EVR_BUF_USED : Fld := ⟨R.EVR_BUF, 10, 0⟩
abbrev EVR_FF_NEXT_SLOT : Fld := ⟨R.EVR_FF_NEXT, 17, 0⟩
abbrev EVR_MARGIN_KIB : Fld := ⟨R.EVR_MARGIN, 15, 0⟩
abbrev EVR_LAST_FLUSH_CAUSE : Fld := ⟨R.EVR_LAST_FLUSH, 31, 24⟩
abbrev EVR_LAST_FLUSH_US : Fld := ⟨R.EVR_LAST_FLUSH, 15, 0⟩
abbrev EVR_RING_NEXT_SLOT : Fld := ⟨R.EVR_RING_NEXT, 19, 0⟩
abbrev EVR_RING_OLDEST_SLOT : Fld := ⟨R.EVR_RING_OLDEST, 19, 0⟩
abbrev EVR_CNT_RECORDS_COUNT : Fld := ⟨R.EVR_CNT_RECORDS, 31, 0⟩
abbrev EVR_CNT_LOST_COUNT : Fld := ⟨R.EVR_CNT_LOST, 31, 0⟩
abbrev EVR_CNT_BAD_SLOT_COUNT : Fld := ⟨R.EVR_CNT_BAD_SLOT, 31, 0⟩
abbrev EVR_CNT_FF_SKIPPED_COUNT : Fld := ⟨R.EVR_CNT_FF_SKIPPED, 31, 0⟩
abbrev EVR_CNT_SNAPSHOTS_COUNT : Fld := ⟨R.EVR_CNT_SNAPSHOTS, 31, 0⟩
abbrev EVR_CNT_TRIGGERS_COUNT : Fld := ⟨R.EVR_CNT_TRIGGERS, 31, 0⟩
abbrev EVR_TRIG_CTRL_ENABLE (t : Nat) : Fld := ⟨(R.EVR_TRIG_CTRL t), 31, 31⟩
abbrev EVR_TRIG_CTRL_ONESHOT (t : Nat) : Fld := ⟨(R.EVR_TRIG_CTRL t), 30, 30⟩
abbrev EVR_TRIG_CTRL_VF (t : Nat) : Fld := ⟨(R.EVR_TRIG_CTRL t), 29, 24⟩
abbrev EVR_TRIG_CTRL_NOTIFY (t : Nat) : Fld := ⟨(R.EVR_TRIG_CTRL t), 4, 4⟩
abbrev EVR_TRIG_CTRL_FREEZE_DOMAIN (t : Nat) : Fld := ⟨(R.EVR_TRIG_CTRL t), 3, 3⟩
abbrev EVR_TRIG_CTRL_FREEZE_LOCAL (t : Nat) : Fld := ⟨(R.EVR_TRIG_CTRL t), 2, 2⟩
abbrev EVR_TRIG_CTRL_SNAPSHOT (t : Nat) : Fld := ⟨(R.EVR_TRIG_CTRL t), 1, 1⟩
abbrev EVR_TRIG_MATCH_MASK (t : Nat) : Fld := ⟨(R.EVR_TRIG_MATCH t), 31, 16⟩
abbrev EVR_TRIG_MATCH_CODE (t : Nat) : Fld := ⟨(R.EVR_TRIG_MATCH t), 15, 0⟩
abbrev EVR_TRIG_HITS_COUNT (t : Nat) : Fld := ⟨(R.EVR_TRIG_HITS t), 31, 0⟩
abbrev FRZ_STATUS_OBS_UE : Fld := ⟨R.FRZ_STATUS, 29, 29⟩
abbrev FRZ_STATUS_ORIGIN : Fld := ⟨R.FRZ_STATUS, 28, 20⟩
abbrev FRZ_STATUS_FID : Fld := ⟨R.FRZ_STATUS, 19, 12⟩
abbrev FRZ_STATUS_SOURCE : Fld := ⟨R.FRZ_STATUS, 11, 8⟩
abbrev FRZ_STATUS_PIN_LOW : Fld := ⟨R.FRZ_STATUS, 3, 3⟩
abbrev FRZ_STATUS_BLANKING : Fld := ⟨R.FRZ_STATUS, 2, 2⟩
abbrev FRZ_STATUS_STATE : Fld := ⟨R.FRZ_STATUS, 1, 0⟩
abbrev FRZ_NEXT_FID_FID : Fld := ⟨R.FRZ_NEXT_FID, 7, 0⟩
abbrev FRZ_LAST_LOCAL_NS : Fld := ⟨R.FRZ_LAST_LOCAL, 10, 0⟩
abbrev FRZ_LAST_US_US : Fld := ⟨R.FRZ_LAST_US, 31, 0⟩
abbrev FRZ_CNT_FREEZES_COUNT : Fld := ⟨R.FRZ_CNT_FREEZES, 31, 0⟩
abbrev FRZ_CNT_REFREEZE_COUNT : Fld := ⟨R.FRZ_CNT_REFREEZE, 31, 0⟩
abbrev ACC_SAMPLE_TICK_LO_TICK : Fld := ⟨R.ACC_SAMPLE_TICK_LO, 31, 0⟩
abbrev ACC_SAMPLE_TICK_HI_TICK : Fld := ⟨R.ACC_SAMPLE_TICK_HI, 31, 0⟩
abbrev ACC_CNT_SAMPLES_COUNT : Fld := ⟨R.ACC_CNT_SAMPLES, 31, 0⟩
abbrev ACC_CNT_NEG_RESIDUAL_COUNT : Fld := ⟨R.ACC_CNT_NEG_RESIDUAL, 31, 0⟩
abbrev ACC_COEF0_PJ : Fld := ⟨R.ACC_COEF0, 31, 0⟩
abbrev ACC_COEF1_PJ : Fld := ⟨R.ACC_COEF1, 31, 0⟩
abbrev ACC_COEF2_PJ : Fld := ⟨R.ACC_COEF2, 31, 0⟩
abbrev ACC_COEF3_PJ : Fld := ⟨R.ACC_COEF3, 31, 0⟩
abbrev ACC_COEF4_PJ : Fld := ⟨R.ACC_COEF4, 31, 0⟩
abbrev ACC_COEF5_PJ : Fld := ⟨R.ACC_COEF5, 31, 0⟩
abbrev ACC_COEF6_PJ : Fld := ⟨R.ACC_COEF6, 31, 0⟩
abbrev PWR_STATUS_LIMIT : Fld := ⟨R.PWR_STATUS, 10, 8⟩
abbrev PWR_STATUS_STEP : Fld := ⟨R.PWR_STATUS, 4, 0⟩
abbrev PWR_CAP_CAP_W : Fld := ⟨R.PWR_CAP, 15, 0⟩
abbrev PWR_INPUT_VOLT_10MV : Fld := ⟨R.PWR_INPUT, 31, 16⟩
abbrev PWR_INPUT_POWER_100MW : Fld := ⟨R.PWR_INPUT, 15, 0⟩
abbrev PWR_ENERGY_LO_MJ : Fld := ⟨R.PWR_ENERGY_LO, 31, 0⟩
abbrev PWR_ENERGY_HI_MJ : Fld := ⟨R.PWR_ENERGY_HI, 31, 0⟩
abbrev PWR_TEMP_VALID (i : Nat) : Fld := ⟨(R.PWR_TEMP i), 8, 8⟩
abbrev PWR_TEMP_DEG_C (i : Nat) : Fld := ⟨(R.PWR_TEMP i), 7, 0⟩
abbrev PWR_CNT_STEP_DOWN_COUNT : Fld := ⟨R.PWR_CNT_STEP_DOWN, 31, 0⟩
abbrev PWR_CNT_HOLD_COUNT : Fld := ⟨R.PWR_CNT_HOLD, 31, 0⟩
abbrev QIF_VF_SLICE_FROZEN (n : Nat) : Fld := ⟨(R.QIF_VF_SLICE n), 10, 10⟩
abbrev QIF_VF_SLICE_MODEL (n : Nat) : Fld := ⟨(R.QIF_VF_SLICE n), 9, 8⟩
abbrev QIF_VF_SLICE_STATE (n : Nat) : Fld := ⟨(R.QIF_VF_SLICE n), 7, 0⟩
abbrev QIF_VF_EVENT_RESHAPED (n : Nat) : Fld := ⟨(R.QIF_VF_EVENT n), 5, 5⟩
abbrev QIF_VF_EVENT_CHIP_LOST (n : Nat) : Fld := ⟨(R.QIF_VF_EVENT n), 4, 4⟩
abbrev QIF_VF_EVENT_QUEUE_ERROR (n : Nat) : Fld := ⟨(R.QIF_VF_EVENT n), 3, 3⟩
abbrev QIF_VF_EVENT_CONTAINED_FAULT (n : Nat) : Fld := ⟨(R.QIF_VF_EVENT n), 2, 2⟩
abbrev QIF_VF_EVENT_STATE_CHANGED (n : Nat) : Fld := ⟨(R.QIF_VF_EVENT n), 1, 1⟩
abbrev QIF_VF_EVENT_JOB_DONE (n : Nat) : Fld := ⟨(R.QIF_VF_EVENT n), 0, 0⟩
abbrev QIF_VF_FAULT_QUEUE (n : Nat) : Fld := ⟨(R.QIF_VF_FAULT n), 31, 28⟩
abbrev QIF_VF_FAULT_STATUS (n : Nat) : Fld := ⟨(R.QIF_VF_FAULT n), 15, 0⟩
abbrev QIF_VF_JOB_JOB (n : Nat) : Fld := ⟨(R.QIF_VF_JOB n), 31, 16⟩
abbrev QIF_VF_JOB_FINAL_STATUS (n : Nat) : Fld := ⟨(R.QIF_VF_JOB n), 7, 0⟩
abbrev QIF_VF_TICK_LO_COUNT (n : Nat) : Fld := ⟨(R.QIF_VF_TICK_LO n), 31, 0⟩
abbrev QIF_VF_TICK_HI_COUNT (n : Nat) : Fld := ⟨(R.QIF_VF_TICK_HI n), 31, 0⟩
abbrev QIF_Q_CTRL_WEIGHT (n q : Nat) : Fld := ⟨(R.QIF_Q_CTRL n q), 11, 8⟩
abbrev QIF_Q_CTRL_CLASS (n q : Nat) : Fld := ⟨(R.QIF_Q_CTRL n q), 1, 1⟩
abbrev QIF_Q_CTRL_ENABLE (n q : Nat) : Fld := ⟨(R.QIF_Q_CTRL n q), 0, 0⟩
abbrev QIF_Q_STATUS_ERROR (n q : Nat) : Fld := ⟨(R.QIF_Q_STATUS n q), 15, 8⟩
abbrev QIF_Q_STATUS_QUIESCED (n q : Nat) : Fld := ⟨(R.QIF_Q_STATUS n q), 2, 2⟩
abbrev QIF_Q_STATUS_BLOCKED (n q : Nat) : Fld := ⟨(R.QIF_Q_STATUS n q), 1, 1⟩
abbrev QIF_Q_STATUS_RUNNING (n q : Nat) : Fld := ⟨(R.QIF_Q_STATUS n q), 0, 0⟩
abbrev QIF_Q_SIZE_SIZE (n q : Nat) : Fld := ⟨(R.QIF_Q_SIZE n q), 12, 0⟩
abbrev QIF_Q_PASID_PASID_V (n q : Nat) : Fld := ⟨(R.QIF_Q_PASID n q), 31, 31⟩
abbrev QIF_Q_PASID_PASID (n q : Nat) : Fld := ⟨(R.QIF_Q_PASID n q), 19, 0⟩
abbrev QIF_Q_IRQ_HOLDOFF_US (n q : Nat) : Fld := ⟨(R.QIF_Q_IRQ n q), 9, 0⟩
abbrev QIF_Q_INFLIGHT_COUNT (n q : Nat) : Fld := ⟨(R.QIF_Q_INFLIGHT n q), 8, 0⟩
abbrev QIF_Q_DONE_COUNT (n q : Nat) : Fld := ⟨(R.QIF_Q_DONE n q), 31, 0⟩
abbrev QIF_Q_DESC_LO_ADDR (n q : Nat) : Fld := ⟨(R.QIF_Q_DESC_LO n q), 31, 0⟩
abbrev QIF_Q_DESC_HI_ADDR (n q : Nat) : Fld := ⟨(R.QIF_Q_DESC_HI n q), 31, 0⟩
abbrev QIF_Q_DRV_LO_ADDR (n q : Nat) : Fld := ⟨(R.QIF_Q_DRV_LO n q), 31, 0⟩
abbrev QIF_Q_DRV_HI_ADDR (n q : Nat) : Fld := ⟨(R.QIF_Q_DRV_HI n q), 31, 0⟩
abbrev QIF_Q_DEV_LO_ADDR (n q : Nat) : Fld := ⟨(R.QIF_Q_DEV_LO n q), 31, 0⟩
abbrev QIF_Q_DEV_HI_ADDR (n q : Nat) : Fld := ⟨(R.QIF_Q_DEV_HI n q), 31, 0⟩

end F

/-- Part 0 of the register map. -/
def regRows0 : List RegRow := [
  ⟨0x0, [], [(31, 24, .ro), (23, 8, .ro), (7, 0, .ro)], 0x474A1000⟩,
  ⟨0x8, [], [(23, 16, .ro), (15, 8, .ro), (7, 6, .ro), (5, 4, .ro), (3, 2, .ro), (1, 0, .ro)], 0x0⟩,
  ⟨0x10, [], [(3, 0, .ro)], 0x0⟩,
  ⟨0x18, [], [(31, 0, .ro)], 0x0⟩,
  ⟨0x1C, [], [(15, 0, .ro)], 0x0⟩,
  ⟨0x20, [], [(15, 0, .ro)], 0x0⟩,
  ⟨0x28, [], [(31, 0, .ro)], 0x0⟩,
  ⟨0x2C, [], [(31, 0, .ro)], 0x0⟩,
  ⟨0x30, [], [(8, 3, .ro), (2, 0, .ro)], 0x0⟩,
  ⟨0x10000, [], [(18, 18, .ro), (17, 16, .ro), (15, 8, .ro), (7, 7, .ro), (6, 6, .ro), (5, 4, .ro), (3, 0, .ro)], 0x11⟩,
  ⟨0x10004, [], [(31, 0, .ro)], 0x0⟩,
  ⟨0x10008, [], [(31, 0, .ro)], 0x0⟩]

/-- Part 1 of the register map. -/
def regRows1 : List RegRow := [
  ⟨0x1000C, [], [(3, 0, .ro)], 0x0⟩,
  ⟨0x10010, [], [(31, 16, .ro), (15, 8, .ro), (7, 1, .ro)], 0x0⟩,
  ⟨0x10014, [], [(19, 18, .ro), (17, 16, .ro), (15, 0, .ro)], 0x0⟩,
  ⟨0x10018, [], [(31, 0, .ro)], 0x0⟩,
  ⟨0x1001C, [], [(15, 0, .ro)], 0x0⟩,
  ⟨0x10020, [], [(7, 0, .ro)], 0x0⟩,
  ⟨0x20000, [], [(10, 8, .ro), (2, 2, .w1c), (1, 1, .w1c), (0, 0, .ro)], 0x0⟩,
  ⟨0x20004, [], [(15, 0, .ro)], 0x1⟩,
  ⟨0x20008, [], [(31, 0, .ro)], 0x0⟩,
  ⟨0x2000C, [], [(31, 0, .ro)], 0x0⟩,
  ⟨0x20010, [], [(31, 0, .ro)], 0x0⟩,
  ⟨0x20014, [], [(31, 24, .ro), (23, 16, .ro), (15, 0, .ro)], 0x0⟩]

/-- Part 2 of the register map. -/
def regRows2 : List RegRow := [
  ⟨0x20020, [(0, 4, 0x10)], [(31, 16, .ro), (15, 8, .ro), (2, 0, .ro)], 0x0⟩,
  ⟨0x20024, [(0, 4, 0x10)], [(31, 16, .ro), (7, 0, .ro)], 0x0⟩,
  ⟨0x20028, [(0, 4, 0x10)], [(9, 0, .ro)], 0x0⟩,
  ⟨0x40000, [], [(16, 16, .ce), (15, 0, .ce)], 0x10001⟩,
  ⟨0x4000C, [], [(26, 0, .ce)], 0x186A0⟩,
  ⟨0x40010, [], [(19, 0, .ce)], 0x2710⟩,
  ⟨0x40014, [], [(19, 16, .ce), (15, 0, .ce)], 0x20064⟩,
  ⟨0x40018, [], [(13, 0, .ce)], 0x64⟩,
  ⟨0x4001C, [], [(8, 3, .ce), (2, 0, .ce)], 0x0⟩,
  ⟨0x40024, [], [(31, 0, .ro)], 0x0⟩,
  ⟨0x40040, [], [(26, 0, .ro)], 0x0⟩,
  ⟨0x40050, [], [(31, 16, .ro), (15, 0, .ro)], 0x0⟩]

/-- Part 3 of the register map. -/
def regRows3 : List RegRow := [
  ⟨0x40004, [], [(5, 4, .ce), (3, 2, .ce), (1, 0, .ce)], 0x0⟩,
  ⟨0x40008, [], [(5, 4, .ce), (3, 2, .ce), (1, 0, .ce)], 0x0⟩,
  ⟨0x40020, [], [(15, 15, .w1c), (14, 14, .w1c), (13, 13, .ro), (12, 12, .ro), (11, 11, .ro), (10, 10, .ro), (9, 9, .ro), (8, 8, .ro), (7, 7, .ro), (6, 6, .ro), (5, 5, .ro), (3, 3, .ro), (2, 0, .ro)], 0x0⟩,
  ⟨0x40028, [], [(31, 0, .ro)], 0x0⟩,
  ⟨0x4002C, [], [(31, 0, .ro)], 0x0⟩,
  ⟨0x40030, [], [(31, 0, .ro)], 0x0⟩,
  ⟨0x40034, [], [(31, 0, .ro)], 0x0⟩,
  ⟨0x40038, [], [(31, 0, .ro)], 0x0⟩,
  ⟨0x4003C, [], [(31, 0, .ro)], 0x0⟩,
  ⟨0x40048, [], [(31, 0, .ro)], 0x0⟩,
  ⟨0x4004C, [], [(31, 0, .ro)], 0x0⟩,
  ⟨0x50000, [], [(27, 16, .ro), (14, 12, .ro), (11, 8, .ro), (4, 0, .ro)], 0x0⟩]

/-- Part 4 of the register map. -/
def regRows4 : List RegRow := [
  ⟨0x50004, [], [(20, 16, .ro), (13, 8, .ro), (5, 0, .ro)], 0x0⟩,
  ⟨0x50008, [], [(29, 0, .ro)], 0x0⟩,
  ⟨0x5000C, [], [(15, 0, .ce)], 0x0⟩,
  ⟨0x50010, [], [(15, 0, .ce)], 0x0⟩,
  ⟨0x50020, [], [(4, 4, .ro), (3, 3, .ro), (2, 2, .ro), (1, 1, .w1c), (0, 0, .ro)], 0x0⟩,
  ⟨0x50024, [], [(15, 0, .ro)], 0x0⟩,
  ⟨0x50018, [], [(31, 0, .ce)], 0x0⟩,
  ⟨0x5001C, [], [(31, 0, .ce)], 0x0⟩,
  ⟨0x80000, [], [(0, 0, .wo)], 0x0⟩,
  ⟨0x80004, [], [(2, 2, .w1c), (1, 1, .w1c), (0, 0, .w1c)], 0x0⟩,
  ⟨0x80008, [], [(12, 0, .ro)], 0x0⟩,
  ⟨0x8000C, [], [(15, 0, .ro)], 0x0⟩]

/-- Part 5 of the register map. -/
def regRows5 : List RegRow := [
  ⟨0x80010, [], [(31, 0, .ro)], 0x0⟩,
  ⟨0x80014, [], [(31, 0, .ro)], 0x0⟩,
  ⟨0x80018, [], [(31, 0, .ro)], 0x0⟩,
  ⟨0x8001C, [], [(31, 0, .ro)], 0x0⟩,
  ⟨0x80020, [], [(31, 0, .ro)], 0x0⟩,
  ⟨0x80024, [], [(31, 0, .ro)], 0x0⟩,
  ⟨0x80028, [], [(31, 0, .ro)], 0x0⟩,
  ⟨0x8002C, [], [(31, 0, .ro)], 0x0⟩,
  ⟨0x80030, [], [(31, 0, .ro)], 0x0⟩,
  ⟨0x80034, [], [(31, 0, .ro)], 0x0⟩,
  ⟨0x80038, [], [(31, 31, .ro), (30, 24, .ro), (22, 0, .ro)], 0x0⟩,
  ⟨0x80040, [(0, 32, 0x4)], [(31, 0, .w1c)], 0x0⟩]

/-- Part 6 of the register map. -/
def regRows6 : List RegRow := [
  ⟨0x80100, [(1, 63, 0x4)], [(10, 0, .ce)], 0x0⟩,
  ⟨0x81000, [(0, 128, 0x10)], [(16, 0, .ce)], 0x0⟩,
  ⟨0x81004, [(0, 128, 0x10)], [(16, 0, .ce)], 0x0⟩,
  ⟨0x81008, [(0, 128, 0x10)], [(17, 16, .ce), (13, 8, .ce), (0, 0, .ce)], 0x0⟩,
  ⟨0x8100C, [(0, 128, 0x10)], [(19, 0, .ce)], 0x0⟩,
  ⟨0x100000, [(1, 63, 0x4)], [(31, 16, .ro), (15, 0, .ro)], 0x0⟩,
  ⟨0x100100, [], [(31, 0, .ro)], 0x0⟩,
  ⟨0x180000, [], [(13, 8, .ro), (7, 7, .ro), (4, 4, .ro), (3, 2, .ro), (1, 0, .ro)], 0x0⟩,
  ⟨0x180004, [], [(31, 0, .ro)], 0x0⟩,
  ⟨0x180008, [], [(21, 0, .rw)], 0x2710⟩,
  ⟨0x180010, [], [(31, 31, .ro), (23, 16, .ro), (15, 10, .ro), (9, 0, .ro)], 0x0⟩,
  ⟨0x180018, [], [(31, 0, .ro)], 0x0⟩]

/-- Part 7 of the register map. -/
def regRows7 : List RegRow := [
  ⟨0x18001C, [], [(15, 0, .ro)], 0x0⟩,
  ⟨0x180020, [], [(12, 0, .ro)], 0x0⟩,
  ⟨0x180024, [], [(16, 0, .ro)], 0x0⟩,
  ⟨0x181000, [(1, 63, 0x40)], [(7, 0, .ro)], 0x0⟩,
  ⟨0x181004, [(1, 63, 0x40)], [(16, 16, .ce), (15, 0, .ce)], 0x0⟩,
  ⟨0x181008, [(1, 63, 0x40)], [(31, 0, .ce)], 0x0⟩,
  ⟨0x18100C, [(1, 63, 0x40)], [(31, 0, .ce)], 0x0⟩,
  ⟨0x181010, [(1, 63, 0x40)], [(31, 0, .ro)], 0x0⟩,
  ⟨0x181014, [(1, 63, 0x40)], [(31, 0, .ro)], 0x0⟩,
  ⟨0x181018, [(1, 63, 0x40)], [(12, 0, .ce)], 0x0⟩,
  ⟨0x18101C, [(1, 63, 0x40)], [(16, 0, .ce)], 0x0⟩,
  ⟨0x181020, [(1, 63, 0x40)], [(16, 0, .ro)], 0x0⟩]

/-- Part 8 of the register map. -/
def regRows8 : List RegRow := [
  ⟨0x181024, [(1, 63, 0x40)], [(15, 0, .ce)], 0x0⟩,
  ⟨0x181028, [(1, 63, 0x40)], [(31, 0, .ro)], 0x0⟩,
  ⟨0x18102C, [(1, 63, 0x40)], [(31, 0, .ro)], 0x0⟩,
  ⟨0x181030, [(1, 63, 0x40)], [(31, 16, .ro), (15, 0, .ro)], 0x0⟩,
  ⟨0x181034, [(1, 63, 0x40)], [(31, 0, .ro)], 0x0⟩,
  ⟨0x181038, [(1, 63, 0x40)], [(16, 16, .ce), (15, 8, .ce), (7, 0, .ce)], 0x0⟩,
  ⟨0x182000, [(1, 63, 0x10)], [(31, 0, .ce)], 0x0⟩,
  ⟨0x182004, [(1, 63, 0x10)], [(31, 0, .ce)], 0x0⟩,
  ⟨0x182008, [(1, 63, 0x10)], [(31, 0, .ce)], 0x0⟩,
  ⟨0x18200C, [(1, 63, 0x10)], [(31, 0, .ce)], 0x0⟩,
  ⟨0x200000, [], [(9, 9, .ro), (8, 8, .ro), (7, 7, .ro), (4, 4, .ro), (3, 3, .ro), (2, 2, .ro)], 0x0⟩,
  ⟨0x200004, [], [(31, 24, .ro), (23, 16, .ro), (15, 8, .ro)], 0x0⟩]

/-- Part 9 of the register map. -/
def regRows9 : List RegRow := [
  ⟨0x200008, [], [(11, 8, .ro), (7, 0, .ro)], 0x0⟩,
  ⟨0x200010, [], [(31, 0, .ro)], 0x0⟩,
  ⟨0x200014, [], [(31, 0, .ro)], 0x0⟩,
  ⟨0x200018, [], [(31, 0, .ro)], 0x0⟩,
  ⟨0x20001C, [], [(31, 0, .ro)], 0x0⟩,
  ⟨0x200020, [], [(31, 0, .ro)], 0x0⟩,
  ⟨0x200024, [], [(31, 0, .ro)], 0x0⟩,
  ⟨0x200028, [], [(31, 0, .ro)], 0x0⟩,
  ⟨0x200100, [(0, 24, 0x4)], [(31, 0, .ro)], 0x0⟩,
  ⟨0x200200, [(0, 24, 0x4)], [(31, 0, .ro)], 0x0⟩,
  ⟨0x200300, [(0, 12, 0x4)], [(31, 0, .ro)], 0x0⟩,
  ⟨0x200340, [(0, 12, 0x4)], [(31, 0, .ro)], 0x0⟩]

/-- Part 10 of the register map. -/
def regRows10 : List RegRow := [
  ⟨0x200400, [(0, 12, 0x4)], [(31, 0, .ro)], 0x0⟩,
  ⟨0x200440, [(0, 4, 0x4)], [(31, 0, .ro)], 0x0⟩,
  ⟨0x200450, [], [(31, 0, .ro)], 0x0⟩,
  ⟨0x200454, [], [(31, 0, .ro)], 0x0⟩,
  ⟨0x200800, [(1, 63, 0x4)], [(15, 8, .ro), (2, 0, .ro)], 0x0⟩,
  ⟨0x300000, [], [(8, 8, .ro), (1, 1, .ro), (0, 0, .ro)], 0x0⟩,
  ⟨0x300004, [], [(12, 0, .ro)], 0x0⟩,
  ⟨0x300008, [], [(16, 0, .ro)], 0x0⟩,
  ⟨0x30000C, [], [(16, 0, .ro)], 0x0⟩,
  ⟨0x300010, [], [(16, 0, .ro)], 0x0⟩,
  ⟨0x300014, [], [(16, 0, .ro)], 0x0⟩,
  ⟨0x300018, [], [(16, 0, .ro)], 0x0⟩]

/-- Part 11 of the register map. -/
def regRows11 : List RegRow := [
  ⟨0x30001C, [], [(10, 0, .ro)], 0x0⟩,
  ⟨0x300020, [], [(7, 0, .rw)], 0x18⟩,
  ⟨0x300024, [], [(9, 0, .ro)], 0x0⟩,
  ⟨0x300040, [(0, 8, 0x8)], [(31, 0, .ro)], 0x0⟩,
  ⟨0x300080, [(0, 2, 0x8)], [(31, 0, .ro)], 0x0⟩,
  ⟨0x300044, [(0, 8, 0x8)], [(31, 0, .ro)], 0x0⟩,
  ⟨0x300084, [(0, 2, 0x8)], [(31, 0, .ro)], 0x0⟩,
  ⟨0x300090, [], [(15, 0, .ro)], 0x0⟩,
  ⟨0x300094, [], [(31, 0, .ro)], 0x0⟩,
  ⟨0x300098, [], [(31, 0, .ro)], 0x0⟩,
  ⟨0x300100, [(0, 48, 0x4)], [(31, 0, .ro)], 0x0⟩,
  ⟨0x300200, [(1, 63, 0x4)], [(7, 0, .ro)], 0x0⟩]

/-- Part 12 of the register map. -/
def regRows12 : List RegRow := [
  ⟨0x400000, [], [(24, 24, .ro), (23, 23, .ro), (22, 22, .ro), (21, 16, .ro), (6, 0, .ro)], 0x1⟩,
  ⟨0x400004, [], [(5, 0, .ro)], 0x0⟩,
  ⟨0x400010, [], [(19, 0, .rw)], 0x0⟩,
  ⟨0x400014, [], [(15, 12, .ro), (11, 11, .ro), (10, 0, .ro)], 0x0⟩,
  ⟨0x400018, [], [(15, 0, .ro)], 0x0⟩,
  ⟨0x40001C, [], [(15, 0, .ro)], 0x0⟩,
  ⟨0x400008, [], [(31, 0, .ro)], 0x0⟩,
  ⟨0x40000C, [], [(31, 0, .ro)], 0x0⟩,
  ⟨0x400020, [], [(31, 0, .ro)], 0x0⟩,
  ⟨0x400024, [], [(31, 0, .ro)], 0x0⟩,
  ⟨0x400028, [], [(31, 0, .ro)], 0x0⟩,
  ⟨0x40002C, [], [(31, 0, .ro)], 0x0⟩]

/-- Part 13 of the register map. -/
def regRows13 : List RegRow := [
  ⟨0x400030, [], [(31, 0, .ro)], 0x0⟩,
  ⟨0x401000, [(1, 63, 0x8)], [(31, 16, .ce), (15, 0, .ce)], 0x0⟩,
  ⟨0x401004, [(1, 63, 0x8)], [(31, 16, .ro), (1, 0, .ce)], 0x0⟩,
  ⟨0x480000, [], [(2, 1, .ro), (0, 0, .ro)], 0x0⟩,
  ⟨0x480004, [], [(17, 0, .ro)], 0x0⟩,
  ⟨0x480010, [], [(31, 0, .ro)], 0x0⟩,
  ⟨0x480014, [], [(31, 0, .ro)], 0x0⟩,
  ⟨0x480018, [], [(31, 0, .ro)], 0x0⟩,
  ⟨0x48001C, [], [(31, 0, .ro)], 0x0⟩,
  ⟨0x480020, [], [(31, 0, .ro)], 0x0⟩,
  ⟨0x480024, [], [(31, 0, .ro)], 0x0⟩,
  ⟨0x480028, [], [(31, 0, .ro)], 0x0⟩]

/-- Part 14 of the register map. -/
def regRows14 : List RegRow := [
  ⟨0x481000, [(1, 63, 0x10)], [(12, 0, .rw)], 0x400⟩,
  ⟨0x481004, [(1, 63, 0x10)], [(31, 31, .ro), (30, 30, .ro), (12, 0, .ro)], 0x0⟩,
  ⟨0x481008, [(1, 63, 0x10)], [(24, 0, .ro)], 0x0⟩,
  ⟨0x48100C, [(1, 63, 0x10)], [(10, 0, .ro)], 0x100⟩,
  ⟨0x500000, [], [(28, 0, .ro)], 0x0⟩,
  ⟨0x500004, [], [(15, 0, .rw)], 0x40⟩,
  ⟨0x500008, [], [(31, 24, .ro), (23, 18, .ro), (17, 13, .ro), (12, 5, .ro)], 0x0⟩,
  ⟨0x500010, [], [(31, 0, .ro)], 0x0⟩,
  ⟨0x500014, [], [(31, 0, .ro)], 0x0⟩,
  ⟨0x500018, [], [(31, 0, .ro)], 0x0⟩,
  ⟨0x50001C, [], [(31, 0, .ro)], 0x0⟩,
  ⟨0x501000, [(0, 29, 0x10)], [(10, 8, .ro), (4, 4, .ro), (0, 0, .ro)], 0x0⟩]

/-- Part 15 of the register map. -/
def regRows15 : List RegRow := [
  ⟨0x501004, [(0, 29, 0x10)], [(10, 0, .ro)], 0x0⟩,
  ⟨0x501008, [(0, 29, 0x10)], [(31, 0, .ro)], 0x0⟩,
  ⟨0x600000, [(0, 48, 0x1000)], [(22, 16, .ro), (15, 12, .ro), (9, 8, .ro), (1, 1, .ro), (0, 0, .ro)], 0x0⟩,
  ⟨0x600004, [(0, 48, 0x1000)], [(16, 0, .ro)], 0x0⟩,
  ⟨0x600008, [(0, 48, 0x1000)], [(19, 0, .ro)], 0x0⟩,
  ⟨0x600010, [(0, 48, 0x1000), (0, 4, 0x4)], [(20, 16, .ro), (9, 0, .ro)], 0x0⟩,
  ⟨0x600040, [(0, 48, 0x1000), (0, 8, 0x8)], [(31, 31, .ro), (30, 30, .ro), (29, 29, .ro), (28, 28, .ro), (27, 27, .ro), (25, 20, .ro), (15, 8, .ro)], 0x0⟩,
  ⟨0x600044, [(0, 48, 0x1000), (0, 8, 0x8)], [(19, 0, .ro)], 0x0⟩,
  ⟨0x600100, [(0, 48, 0x1000)], [(31, 0, .ro)], 0x0⟩,
  ⟨0x600104, [(0, 48, 0x1000)], [(31, 0, .ro)], 0x0⟩,
  ⟨0x600108, [(0, 48, 0x1000)], [(31, 0, .ro)], 0x0⟩,
  ⟨0x60010C, [(0, 48, 0x1000)], [(31, 0, .ro)], 0x0⟩]

/-- Part 16 of the register map. -/
def regRows16 : List RegRow := [
  ⟨0x600110, [(0, 48, 0x1000)], [(31, 0, .ro)], 0x0⟩,
  ⟨0x600114, [(0, 48, 0x1000)], [(31, 0, .ro)], 0x0⟩,
  ⟨0x600118, [(0, 48, 0x1000)], [(31, 0, .ro)], 0x0⟩,
  ⟨0x60011C, [(0, 48, 0x1000)], [(31, 0, .ro)], 0x0⟩,
  ⟨0x600200, [(0, 48, 0x1000)], [(19, 16, .ro), (8, 8, .ro), (7, 0, .ro)], 0x0⟩,
  ⟨0x600204, [(0, 48, 0x1000)], [(31, 0, .ro)], 0x0⟩,
  ⟨0x600208, [(0, 48, 0x1000)], [(31, 0, .ro)], 0x0⟩,
  ⟨0x60020C, [(0, 48, 0x1000)], [(19, 0, .ro)], 0x0⟩,
  ⟨0x680000, [(0, 96, 0x40)], [(14, 12, .ro), (8, 4, .ro), (1, 1, .ro), (0, 0, .ro)], 0x0⟩,
  ⟨0x680008, [(0, 96, 0x40)], [(31, 24, .ro), (23, 18, .ro), (17, 15, .ro), (14, 11, .ro)], 0x0⟩,
  ⟨0x680004, [(0, 96, 0x40)], [(7, 7, .ro), (6, 6, .ro), (5, 3, .ro), (2, 0, .ro), (15, 15, .ro), (14, 14, .ro), (13, 11, .ro), (10, 8, .ro), (23, 23, .ro), (22, 22, .ro), (21, 19, .ro), (18, 16, .ro), (31, 31, .ro), (30, 30, .ro), (29, 27, .ro), (26, 24, .ro)], 0x0⟩,
  ⟨0x680010, [(0, 96, 0x40)], [(31, 0, .ro)], 0x0⟩]

/-- Part 17 of the register map. -/
def regRows17 : List RegRow := [
  ⟨0x680014, [(0, 96, 0x40)], [(31, 0, .ro)], 0x0⟩,
  ⟨0x680018, [(0, 96, 0x40)], [(31, 0, .ro)], 0x0⟩,
  ⟨0x68001C, [(0, 96, 0x40)], [(31, 0, .ro)], 0x0⟩,
  ⟨0x680020, [(0, 96, 0x40)], [(31, 0, .ro)], 0x0⟩,
  ⟨0x680024, [(0, 96, 0x40)], [(31, 0, .ro)], 0x0⟩,
  ⟨0x700000, [], [(8, 8, .w1c), (7, 7, .ro), (6, 6, .ro), (5, 5, .ro), (4, 4, .ro), (3, 2, .ro), (1, 0, .ro)], 0x0⟩,
  ⟨0x700008, [(0, 2, 0x4)], [(27, 16, .rw), (5, 0, .rw)], 0x0⟩,
  ⟨0x700010, [(0, 2, 0x8)], [(31, 0, .ro)], 0x0⟩,
  ⟨0x700014, [(0, 2, 0x8)], [(31, 0, .ro)], 0x0⟩,
  ⟨0x700020, [(0, 2, 0x4)], [(13, 8, .ro), (7, 0, .ro)], 0x0⟩,
  ⟨0x700100, [(0, 2, 0x80), (0, 24, 0x4)], [(31, 0, .ro)], 0x0⟩,
  ⟨0x700200, [(0, 2, 0x20)], [(31, 0, .ro)], 0x0⟩]

/-- Part 18 of the register map. -/
def regRows18 : List RegRow := [
  ⟨0x700204, [(0, 2, 0x20)], [(31, 0, .ro)], 0x0⟩,
  ⟨0x700208, [(0, 2, 0x20)], [(31, 0, .ro)], 0x0⟩,
  ⟨0x70020C, [(0, 2, 0x20)], [(31, 0, .ro)], 0x0⟩,
  ⟨0x700210, [(0, 2, 0x20)], [(31, 0, .ro)], 0x0⟩,
  ⟨0x700214, [(0, 2, 0x20)], [(31, 0, .ro)], 0x0⟩,
  ⟨0x780000, [], [(8, 8, .w1c), (1, 1, .ro), (0, 0, .ro)], 0x0⟩,
  ⟨0x780004, [], [(31, 0, .ro)], 0x0⟩,
  ⟨0x780008, [(0, 2, 0x4)], [(27, 16, .rw), (5, 0, .rw)], 0x0⟩,
  ⟨0x780100, [(0, 2, 0x100), (0, 8, 0x10)], [(31, 31, .rw), (30, 30, .rw), (29, 28, .rw)], 0x0⟩,
  ⟨0x780104, [(0, 2, 0x100), (0, 8, 0x10)], [(3, 3, .ro), (2, 2, .ro), (1, 1, .w1c), (0, 0, .ro)], 0x0⟩,
  ⟨0x780108, [(0, 2, 0x100), (0, 8, 0x10)], [(31, 16, .ro), (15, 0, .ro)], 0x0⟩,
  ⟨0x78010C, [(0, 2, 0x100), (0, 8, 0x10)], [(31, 16, .ro), (15, 0, .ro)], 0x0⟩]

/-- Part 19 of the register map. -/
def regRows19 : List RegRow := [
  ⟨0x780400, [(0, 2, 0x10)], [(0, 0, .rw)], 0x0⟩,
  ⟨0x780404, [(0, 2, 0x10)], [(31, 0, .ro)], 0x0⟩,
  ⟨0x780600, [(0, 2, 0x100), (0, 8, 0x10)], [(31, 31, .rw), (30, 30, .rw), (15, 0, .rw)], 0x1⟩,
  ⟨0x780604, [(0, 2, 0x100), (0, 8, 0x10)], [(15, 0, .rw)], 0x0⟩,
  ⟨0x780608, [(0, 2, 0x100), (0, 8, 0x10)], [(26, 0, .rw)], 0x0⟩,
  ⟨0x78060C, [(0, 2, 0x100), (0, 8, 0x10)], [(19, 0, .rw)], 0x64⟩,
  ⟨0x780800, [(0, 2, 0x40), (0, 8, 0x4)], [(31, 16, .ro), (15, 0, .ro)], 0x0⟩,
  ⟨0x800000, [], [(7, 7, .w1c), (6, 6, .w1c), (5, 5, .w1c), (4, 4, .w1c), (3, 3, .ro), (2, 0, .ro)], 0x0⟩,
  ⟨0x800004, [], [(22, 16, .rw), (15, 0, .rw)], 0x400000⟩,
  ⟨0x800008, [], [(15, 0, .rw)], 0x3E8⟩,
  ⟨0x80000C, [], [(5, 0, .rw)], 0x0⟩,
  ⟨0x800010, [], [(31, 31, .wo), (1, 1, .wo), (0, 0, .wo)], 0x0⟩]

/-- Part 20 of the register map. -/
def regRows20 : List RegRow := [
  ⟨0x800014, [], [(0, 0, .wo)], 0x0⟩,
  ⟨0x800018, [], [(31, 0, .ro)], 0x0⟩,
  ⟨0x80001C, [], [(31, 0, .ro)], 0x0⟩,
  ⟨0x800020, [], [(31, 0, .ro)], 0x0⟩,
  ⟨0x800024, [], [(31, 0, .ro)], 0x0⟩,
  ⟨0x800028, [], [(31, 0, .ro)], 0x0⟩,
  ⟨0x80002C, [], [(31, 0, .ro)], 0x0⟩,
  ⟨0x801000, [(0, 16, 0x100)], [(7, 6, .rw), (3, 3, .rw), (2, 2, .rw), (1, 1, .rw), (0, 0, .rw)], 0x83⟩,
  ⟨0x801004, [(0, 16, 0x100)], [(31, 28, .ro), (25, 17, .ro), (8, 8, .ro), (7, 7, .ro), (6, 5, .ro), (3, 0, .ro)], 0x0⟩,
  ⟨0x801008, [(0, 16, 0x100)], [(31, 0, .ro)], 0x0⟩,
  ⟨0x801010, [(0, 16, 0x100)], [(31, 0, .ro)], 0x0⟩,
  ⟨0x801014, [(0, 16, 0x100)], [(31, 0, .ro)], 0x0⟩]

/-- Part 21 of the register map. -/
def regRows21 : List RegRow := [
  ⟨0x801018, [(0, 16, 0x100)], [(31, 0, .ro)], 0x0⟩,
  ⟨0x80101C, [(0, 16, 0x100)], [(31, 0, .ro)], 0x0⟩,
  ⟨0x801020, [(0, 16, 0x100)], [(31, 0, .ro)], 0x0⟩,
  ⟨0x801024, [(0, 16, 0x100)], [(31, 0, .ro)], 0x0⟩,
  ⟨0x801028, [(0, 16, 0x100)], [(31, 0, .ro)], 0x0⟩,
  ⟨0x801040, [(0, 16, 0x100), (0, 12, 0x4)], [(31, 0, .ro)], 0x0⟩,
  ⟨0x801080, [(0, 16, 0x100), (0, 12, 0x4)], [(31, 0, .rw)], 0x0⟩,
  ⟨0x900000, [], [(10, 8, .ro), (2, 0, .ro)], 0x0⟩,
  ⟨0x900004, [], [(2, 2, .rw), (1, 1, .rw), (0, 0, .rw)], 0x3⟩,
  ⟨0x900008, [], [(31, 24, .ro), (23, 8, .ro), (7, 0, .ro)], 0x0⟩,
  ⟨0x900018, [], [(31, 0, .ro)], 0x0⟩,
  ⟨0x90001C, [], [(15, 0, .rw)], 0x64⟩]

/-- Part 22 of the register map. -/
def regRows22 : List RegRow := [
  ⟨0x900020, [], [(31, 31, .wo), (7, 0, .wo)], 0x0⟩,
  ⟨0x900010, [], [(31, 0, .ro)], 0x0⟩,
  ⟨0x900014, [], [(31, 0, .ro)], 0x0⟩,
  ⟨0x900030, [], [(31, 0, .ro)], 0x0⟩,
  ⟨0x900034, [], [(31, 0, .ro)], 0x0⟩,
  ⟨0x900038, [], [(31, 0, .ro)], 0x0⟩,
  ⟨0x90003C, [], [(31, 0, .ro)], 0x0⟩,
  ⟨0x900040, [], [(31, 0, .ro)], 0x0⟩,
  ⟨0x900100, [(1, 63, 0x4)], [(31, 0, .ro)], 0x0⟩,
  ⟨0x980000, [], [(4, 4, .ro), (3, 3, .ro), (2, 2, .ro), (1, 1, .ro), (0, 0, .ro)], 0x0⟩,
  ⟨0x980004, [], [(7, 7, .rw), (6, 6, .rw), (2, 0, .rw)], 0xC3⟩,
  ⟨0x980008, [], [(31, 0, .ro)], 0x0⟩]

/-- Part 23 of the register map. -/
def regRows23 : List RegRow := [
  ⟨0x98000C, [], [(10, 0, .ro)], 0x0⟩,
  ⟨0x980010, [], [(17, 0, .ro)], 0x0⟩,
  ⟨0x98001C, [], [(15, 0, .ro)], 0x0⟩,
  ⟨0x980020, [], [(31, 24, .ro), (15, 0, .ro)], 0x0⟩,
  ⟨0x980014, [], [(19, 0, .ro)], 0x0⟩,
  ⟨0x980018, [], [(19, 0, .ro)], 0x0⟩,
  ⟨0x980030, [], [(31, 0, .ro)], 0x0⟩,
  ⟨0x980034, [], [(31, 0, .ro)], 0x0⟩,
  ⟨0x980038, [], [(31, 0, .ro)], 0x0⟩,
  ⟨0x98003C, [], [(31, 0, .ro)], 0x0⟩,
  ⟨0x980040, [], [(31, 0, .ro)], 0x0⟩,
  ⟨0x980044, [], [(31, 0, .ro)], 0x0⟩]

/-- Part 24 of the register map. -/
def regRows24 : List RegRow := [
  ⟨0x980100, [(0, 4, 0x10)], [(31, 31, .rw), (30, 30, .rw), (29, 24, .rw), (4, 4, .rw), (3, 3, .rw), (2, 2, .rw), (1, 1, .rw)], 0x0⟩,
  ⟨0x980104, [(0, 4, 0x10)], [(31, 16, .rw), (15, 0, .rw)], 0x0⟩,
  ⟨0x980108, [(0, 4, 0x10)], [(31, 0, .ro)], 0x0⟩,
  ⟨0xA00000, [], [(29, 29, .w1c), (28, 20, .ro), (19, 12, .ro), (11, 8, .ro), (3, 3, .ro), (2, 2, .ro), (1, 0, .ro)], 0x0⟩,
  ⟨0xA00004, [], [(7, 0, .ro)], 0x0⟩,
  ⟨0xA00008, [], [(10, 0, .ro)], 0x0⟩,
  ⟨0xA0000C, [], [(31, 0, .ro)], 0x0⟩,
  ⟨0xA00010, [], [(31, 0, .ro)], 0x0⟩,
  ⟨0xA00014, [], [(31, 0, .ro)], 0x0⟩,
  ⟨0xA80000, [], [(31, 0, .ro)], 0x0⟩,
  ⟨0xA80004, [], [(31, 0, .ro)], 0x0⟩,
  ⟨0xA80008, [], [(31, 0, .ro)], 0x0⟩]

/-- Part 25 of the register map. -/
def regRows25 : List RegRow := [
  ⟨0xA8000C, [], [(31, 0, .ro)], 0x0⟩,
  ⟨0xA80010, [], [(31, 0, .ro)], 0x320⟩,
  ⟨0xA80014, [], [(31, 0, .ro)], 0x76C⟩,
  ⟨0xA80018, [], [(31, 0, .ro)], 0x1E⟩,
  ⟨0xA8001C, [], [(31, 0, .ro)], 0x2⟩,
  ⟨0xA80020, [], [(31, 0, .ro)], 0xA⟩,
  ⟨0xA80024, [], [(31, 0, .ro)], 0xF⟩,
  ⟨0xA80028, [], [(31, 0, .ro)], 0xC8⟩,
  ⟨0xB00000, [], [(10, 8, .ro), (4, 0, .ro)], 0x6⟩,
  ⟨0xB00004, [], [(15, 0, .ce)], 0x0⟩,
  ⟨0xB00008, [], [(31, 16, .ro), (15, 0, .ro)], 0x0⟩,
  ⟨0xB0000C, [], [(31, 0, .ro)], 0x0⟩]

/-- Part 26 of the register map. -/
def regRows26 : List RegRow := [
  ⟨0xB00010, [], [(31, 0, .ro)], 0x0⟩,
  ⟨0xB00014, [(0, 11, 0x4)], [(8, 8, .ro), (7, 0, .ro)], 0x0⟩,
  ⟨0xB00040, [], [(31, 0, .ro)], 0x0⟩,
  ⟨0xB00044, [], [(31, 0, .ro)], 0x0⟩,
  ⟨0x1000, [(1, 63, 0x100000000)], [(10, 10, .ro), (9, 8, .ro), (7, 0, .ro)], 0x0⟩,
  ⟨0x1004, [(1, 63, 0x100000000)], [(5, 5, .w1c), (4, 4, .w1c), (3, 3, .w1c), (2, 2, .w1c), (1, 1, .w1c), (0, 0, .w1c)], 0x0⟩,
  ⟨0x1010, [(1, 63, 0x100000000)], [(31, 28, .ro), (15, 0, .ro)], 0x0⟩,
  ⟨0x1014, [(1, 63, 0x100000000)], [(31, 16, .ro), (7, 0, .ro)], 0x0⟩,
  ⟨0x1008, [(1, 63, 0x100000000)], [(31, 0, .ro)], 0x0⟩,
  ⟨0x100C, [(1, 63, 0x100000000)], [(31, 0, .ro)], 0x0⟩,
  ⟨0x2000, [(1, 63, 0x100000000), (0, 16, 0x40)], [(11, 8, .rw), (1, 1, .rw), (0, 0, .rw)], 0x100⟩,
  ⟨0x2004, [(1, 63, 0x100000000), (0, 16, 0x40)], [(15, 8, .ro), (2, 2, .ro), (1, 1, .ro), (0, 0, .ro)], 0x4⟩]

/-- Part 27 of the register map. -/
def regRows27 : List RegRow := [
  ⟨0x2008, [(1, 63, 0x100000000), (0, 16, 0x40)], [(12, 0, .rw)], 0x0⟩,
  ⟨0x200C, [(1, 63, 0x100000000), (0, 16, 0x40)], [(31, 31, .rw), (19, 0, .rw)], 0x0⟩,
  ⟨0x2028, [(1, 63, 0x100000000), (0, 16, 0x40)], [(9, 0, .rw)], 0x0⟩,
  ⟨0x202C, [(1, 63, 0x100000000), (0, 16, 0x40)], [(8, 0, .ro)], 0x0⟩,
  ⟨0x2030, [(1, 63, 0x100000000), (0, 16, 0x40)], [(31, 0, .ro)], 0x0⟩,
  ⟨0x2010, [(1, 63, 0x100000000), (0, 16, 0x40)], [(31, 0, .rw)], 0x0⟩,
  ⟨0x2014, [(1, 63, 0x100000000), (0, 16, 0x40)], [(31, 0, .rw)], 0x0⟩,
  ⟨0x2018, [(1, 63, 0x100000000), (0, 16, 0x40)], [(31, 0, .rw)], 0x0⟩,
  ⟨0x201C, [(1, 63, 0x100000000), (0, 16, 0x40)], [(31, 0, .rw)], 0x0⟩,
  ⟨0x2020, [(1, 63, 0x100000000), (0, 16, 0x40)], [(31, 0, .rw)], 0x0⟩,
  ⟨0x2024, [(1, 63, 0x100000000), (0, 16, 0x40)], [(31, 0, .rw)], 0x0⟩]

/-- The whole register map. -/
def regRows : List RegRow :=
  regRows0 ++ regRows1 ++ regRows2 ++ regRows3 ++ regRows4 ++ regRows5 ++ regRows6 ++ regRows7 ++ regRows8 ++ regRows9 ++ regRows10 ++ regRows11 ++ regRows12 ++ regRows13 ++ regRows14 ++ regRows15 ++ regRows16 ++ regRows17 ++ regRows18 ++ regRows19 ++ regRows20 ++ regRows21 ++ regRows22 ++ regRows23 ++ regRows24 ++ regRows25 ++ regRows26 ++ regRows27

/-- The registers whose reset value is not 0. -/
def regResets : List RegRow := [
  ⟨0x0, [], [], 0x474A1000⟩,
  ⟨0x10000, [], [], 0x11⟩,
  ⟨0x20004, [], [], 0x1⟩,
  ⟨0x40000, [], [], 0x10001⟩,
  ⟨0x4000C, [], [], 0x186A0⟩,
  ⟨0x40010, [], [], 0x2710⟩,
  ⟨0x40014, [], [], 0x20064⟩,
  ⟨0x40018, [], [], 0x64⟩,
  ⟨0x180008, [], [], 0x2710⟩,
  ⟨0x300020, [], [], 0x18⟩,
  ⟨0x400000, [], [], 0x1⟩,
  ⟨0x481000, [(1, 63, 0x10)], [], 0x400⟩,
  ⟨0x48100C, [(1, 63, 0x10)], [], 0x100⟩,
  ⟨0x500004, [], [], 0x40⟩,
  ⟨0x780600, [(0, 2, 0x100), (0, 8, 0x10)], [], 0x1⟩,
  ⟨0x78060C, [(0, 2, 0x100), (0, 8, 0x10)], [], 0x64⟩,
  ⟨0x800004, [], [], 0x400000⟩,
  ⟨0x800008, [], [], 0x3E8⟩,
  ⟨0x801000, [(0, 16, 0x100)], [], 0x83⟩,
  ⟨0x900004, [], [], 0x3⟩,
  ⟨0x90001C, [], [], 0x64⟩,
  ⟨0x980004, [], [], 0xC3⟩,
  ⟨0xA80010, [], [], 0x320⟩,
  ⟨0xA80014, [], [], 0x76C⟩,
  ⟨0xA80018, [], [], 0x1E⟩,
  ⟨0xA8001C, [], [], 0x2⟩,
  ⟨0xA80020, [], [], 0xA⟩,
  ⟨0xA80024, [], [], 0xF⟩,
  ⟨0xA80028, [], [], 0xC8⟩,
  ⟨0xB00000, [], [], 0x6⟩,
  ⟨0x2000, [(1, 63, 0x100000000), (0, 16, 0x40)], [], 0x100⟩,
  ⟨0x2004, [(1, 63, 0x100000000), (0, 16, 0x40)], [], 0x4⟩]

/-- The LO registers of the LO and HI pairs; each HI is 4 bytes above its LO (R75). -/
def loRows : List RegRow := [
  ⟨0x18, [], [], 0⟩,
  ⟨0x28, [], [], 0⟩,
  ⟨0x10008, [], [], 0⟩,
  ⟨0x40028, [], [], 0⟩,
  ⟨0x40030, [], [], 0⟩,
  ⟨0x40038, [], [], 0⟩,
  ⟨0x40048, [], [], 0⟩,
  ⟨0x50018, [], [], 0⟩,
  ⟨0x180018, [], [], 0⟩,
  ⟨0x181008, [(1, 63, 0x40)], [], 0⟩,
  ⟨0x181010, [(1, 63, 0x40)], [], 0⟩,
  ⟨0x181028, [(1, 63, 0x40)], [], 0⟩,
  ⟨0x200450, [], [], 0⟩,
  ⟨0x400008, [], [], 0⟩,
  ⟨0x700010, [(0, 2, 0x8)], [], 0⟩,
  ⟨0x800018, [], [], 0⟩,
  ⟨0x900010, [], [], 0⟩,
  ⟨0xA80000, [], [], 0⟩,
  ⟨0xB0000C, [], [], 0⟩,
  ⟨0x1008, [(1, 63, 0x100000000)], [], 0⟩,
  ⟨0x2010, [(1, 63, 0x100000000), (0, 16, 0x40)], [], 0⟩,
  ⟨0x2018, [(1, 63, 0x100000000), (0, 16, 0x40)], [], 0⟩,
  ⟨0x2020, [(1, 63, 0x100000000), (0, 16, 0x40)], [], 0⟩]

/-- The row of the map that holds address `a`, if the map assigns it (R768). -/
def regRowAt (a : Nat) : Option RegRow := regRows.find? (fun r => r.has a)

/-- What register `a` reads as after reset: the value its field map gives, 0 where the map assigns no register. -/
def regReset (a : Nat) : BitVec 32 :=
  match regResets.find? (fun r => r.has a) with
  | some r => BitVec.ofNat 32 r.reset
  | none => 0

end Sys2Proof
end

