-- ==== Sys2Proof/Machine/State.lean ====
section
/-! DEFINITION. The state of the part, the reasons a step can stop, and the state after reset. -/

namespace Sys2Proof.Machine

/-- Why a step faults. -/
inductive Fault where
  /-- No meaning of this model raises it. Safe. -/
  | none
deriving DecidableEq, Repr

/-- Why a step is refused. -/
inductive Refusal where
  /-- Raised by `exec` alone, for a command that has no meaning yet. Safe. -/
  | notModelled (mnemonic : String)
deriving DecidableEq, Repr

/-- The whole machine: the register file, the units, the outputs so far and the queue of waiting commands. -/
structure State where
  /-- the register file of PF0 BAR0 and of every VF BAR0 (chapter 23), keyed as `Regs` keys them -/
  regs : FMap Word
  /-- HI registers latched by LO reads (R75, R770): keyed requester × 2^40 + register address, value plus 1 -/
  latch : FMap Nat
  fused : Fused
  pwr : Power
  boot : Boot
  tick : Tick
  exm : Exchange
  ewb : Ewebin
  flt : Faults
  evr : Recorder
  frz : Freeze
  eng : Engine
  /-- queues, keyed 16 × VF + queue -/
  qs : FMap Queue
  slices : FMap Slice
  sec : Trust
  mem : Memory
  sch : Sched
  yar : Yarrow
  ffe : Engines
  tsl : Teasel
  cmp : Campion
  sns : Sensors
  pci : Pcie
  /-- the model's host-cycle clock, ns since power came on (log entry 7) -/
  clk : Nat
  /-- the same clock, stopped while the part is frozen (R750) -/
  runClk : Nat
  /-- how many free values have been drawn (log entry 4) -/
  freeCount : Nat
  /-- what the part has put out, newest first (log entry 5) -/
  out : List Output
  /-- the commands that wait, first in first out -/
  pending : List Instr
deriving DecidableEq, Repr

/-- The machine right after reset: the state of a cold power-on before its boot sequencer's first step ends. -/
def State.reset : State where
  regs := []
  latch := []
  fused := Config.fused
  pwr := {}
  boot := {}
  tick := {}
  exm := {}
  ewb := {}
  flt := {}
  evr := {}
  frz := {}
  eng := {}
  qs := []
  slices := []
  sec := {}
  mem := {}
  sch := {}
  yar := {}
  ffe := {}
  tsl := {}
  cmp := {}
  sns := {}
  pci := {}
  clk := 0
  runClk := 0
  freeCount := 0
  out := []
  pending := []

/-- What a meaning answers. -/
abbrev Res := Host.Outcome State Fault Refusal

end Sys2Proof.Machine
end

