-- ==== Sys2Proof/Machine/Ops.lean ====
section
/-! DEFINITION. The named operations of the whole machine: registers and fields, outputs, free values, time, NOR
bytes, exchange bytes. -/

namespace Sys2Proof.Machine

/-! ### Registers -/

/-- The stored value of register `a`. -/
def State.reg (s : State) (a : Nat) : Word := fget regReset s.regs a

/-- Store `v` in register `a`. -/
def State.setReg (s : State) (a : Nat) (v : Word) : State := { s with regs := fset regReset s.regs a v }

/-- The value of a register field. -/
def State.fld (s : State) (f : Fld) : Nat := bitsOf (s.reg f.addr).toNat f.hi f.lo

/-- A one-bit field as a truth value. -/
def State.bit (s : State) (f : Fld) : Bool := s.fld f == 1

/-- Set a register field. -/
def State.setFld (s : State) (f : Fld) (v : Nat) : State :=
  s.setReg f.addr (BitVec.ofNat 32 (setBits (s.reg f.addr).toNat f.hi f.lo v))

/-- Set a one-bit field. -/
def State.setBit (s : State) (f : Fld) (v : Bool) : State := s.setFld f (b2n v)

/-- Add `n` to a field that saturates at its width's largest value. -/
def State.addFld (s : State) (f : Fld) (n : Nat) : State :=
  s.setFld f (min (s.fld f + n) (2 ^ (f.hi + 1 - f.lo) - 1))

/-- Count one event in a saturating counter. -/
def State.bump (s : State) (f : Fld) : State := s.addFld f 1

/-- Put register `a` back to its reset value. -/
def State.resetReg (s : State) (a : Nat) : State := s.setReg a (regReset a)

/-- Put every register with an address in `[lo, hi)` back to its reset value. -/
def State.resetRegs (s : State) (lo hi : Nat) : State := { s with regs := fclear s.regs lo hi }

/-- The 64-bit value of a LO and HI pair. -/
def State.pair (s : State) (lo hi : Nat) : Nat := (s.reg lo).toNat + 2 ^ 32 * (s.reg hi).toNat

/-- Set a LO and HI pair. -/
def State.setPair (s : State) (lo hi v : Nat) : State :=
  (s.setReg lo (BitVec.ofNat 32 v)).setReg hi (BitVec.ofNat 32 (v / 2 ^ 32))

/-! ### Outputs and free values -/

/-- Put out `o`. -/
def State.emit (s : State) (o : Output) : State := { s with out := o :: s.out }

/-- Put out each of `l`, the first first. -/
def State.emitAll (s : State) (l : List Output) : State := l.foldl State.emit s

/-- A value the spec leaves open, at this point of the run (log entry 4). -/
def State.free (s : State) : DWord := Config.freeValue s.freeCount

/-- Draw past the current free value. -/
def State.drawn (s : State) : State := { s with freeCount := s.freeCount + 1 }

/-- The next `n` bytes of free values. -/
def State.freeBytes (s : State) (n : Nat) : List Byte :=
  (List.range n).map (fun i => (Config.freeValue (s.freeCount + i)).setWidth 8)

/-- Draw past `n` free values. -/
def State.drawnN (s : State) (n : Nat) : State := { s with freeCount := s.freeCount + n }

/-! ### Time -/

/-- The tick count (R71). -/
def State.tickCount (s : State) : Nat := s.pair R.TCK_COUNT_LO R.TCK_COUNT_HI

/-- TAI time of the last boundary. -/
def State.tickTime (s : State) : Nat := s.pair R.TCK_TICK_TIME_LO R.TCK_TICK_TIME_HI

/-- The tick period, ns (R70). -/
def State.periodNs (s : State) : Nat := 10 * s.fld F.TCK_PERIOD_PERIOD

/-- TAI ns now: interpolated from the last boundary, below the next boundary's time (R72). -/
def State.tai (s : State) : Nat := s.tickTime + min (s.runClk - s.tick.bndClk) (s.periodNs - 1)

/-- TIME_VALID (Table 02-4). -/
def State.timeValid (s : State) : Bool := s.bit F.TCK_STATUS_TIME_VALID

/-- The TAI stamp a notice or a fence entry carries: 0 while TIME_VALID is 0. -/
def State.taiStamp (s : State) : Nat := if s.timeValid then s.tai else 0

/-- No period change is pending: TCK_NEXT_PERIOD and TCK_NEXT_AT name none (Table 02-5; DEDUCED, log entry 52). -/
def State.noPendingPeriod (s : State) : State :=
  ((s.setFld F.TCK_STATUS_PERIOD_PENDING 0).setFld F.TCK_NEXT_PERIOD_PERIOD 0).setPair R.TCK_NEXT_AT_LO R.TCK_NEXT_AT_HI 0

/-- This module's address, as TCK_MASTER_ID lays it out (R648). -/
def State.address (s : State) : Nat := (s.reg R.ID_POSITION).toNat % 512

/-- The part is frozen or freezing (Table 22-3). -/
def State.frozen (s : State) : Bool := s.fld F.FRZ_STATUS_STATE != 0

/-! ### NOR bytes -/

/-- What a NOR byte that nothing has programmed reads as (Table 03-7). -/
def norErased (_ : Nat) : Byte := 0xFF

/-- The NOR byte at `a`; a byte left unspecified by a failed operation reads as a free value (R711). -/
def State.norByte (s : State) (a : Nat) : Byte :=
  if fget (fun _ => 0) s.evr.norOpen a = 1 then (Config.freeValue (s.freeCount + a)).setWidth 8
  else fget norErased s.evr.nor a

/-- `n` NOR bytes from `a` on. -/
def State.norBytes (s : State) (a n : Nat) : List Byte := (List.range n).map (fun i => s.norByte (a + i))

/-- No byte of `[a, a + n)` is programmed or unspecified. -/
def State.norBlank (s : State) (a n : Nat) : Bool :=
  s.evr.nor.all (fun e => decide (e.1 < a ∨ a + n ≤ e.1)) &&
  s.evr.norOpen.all (fun e => decide (e.1 < a ∨ a + n ≤ e.1) || s.norByte e.1 == 0xFF)

/-- Program bytes at `a`: programming only clears bits (R713). -/
def State.norProgram (s : State) (a : Nat) (bs : List Byte) : State :=
  { s with evr := { s.evr with
      nor := (bs.zipIdx).foldl (fun m p => fset norErased m (a + p.2) (fget norErased m (a + p.2) &&& p.1)) s.evr.nor } }

/-- Erase `[a, a + n)` (R31). -/
def State.norErase (s : State) (a n : Nat) : State :=
  { s with evr := { s.evr with nor := fclear s.evr.nor a (a + n), norOpen := fclear s.evr.norOpen a (a + n) } }

/-- Leave every byte of `[a, a + n)` unspecified (R711). -/
def State.norSpoil (s : State) (a n : Nat) : State :=
  { s with evr := { s.evr with norOpen := fsetAll (fun _ => 0) s.evr.norOpen ((List.range n).map (a + ·)) 1 } }

/-! ### Exchange bytes -/

/-- The `n` exchange bytes from `a` on. -/
def State.exmBytes (s : State) (a n : Nat) : List Byte := (List.range n).map (fun i => fget (fun _ => 0) s.exm.mem (a + i))

/-- The little-endian number in `n` exchange bytes from `a` on. -/
def State.exmLe (s : State) (a n : Nat) : Nat := ofLe (s.exmBytes a n)

/-- Write bytes to the exchange memory at `a`. -/
def State.exmPut (s : State) (a : Nat) (bs : List Byte) : State :=
  { s with exm := { s.exm with
      mem := (bs.zipIdx).foldl (fun m p => fset (fun _ => 0) m (a + p.2) p.1) s.exm.mem } }

/-- Zero the exchange bytes `[a, a + n)`, with any semaphore held there and any error. -/
def State.exmZero (s : State) (a n : Nat) : State :=
  { s with exm := { s.exm with
      mem := fclear s.exm.mem a (a + n)
      acq := fclear s.exm.acq a (a + n)
      ue := fclear s.exm.ue a (a + n) } }

/-- The exchange address of slot `k` (Table 04-1). -/
def slotAddr (k : Nat) : Nat := 0x7F0000 + 64 * k

/-- The trigger word of slot `k`. -/
def State.trigger (s : State) (k : Nat) : Nat := s.exmLe (slotAddr k + 56) 8

/-- STATE of slot `k` (Table 04-9): 0 IDLE, 1 POSTED, 2 TAKEN, 3 DONE. -/
def State.slotState (s : State) (k : Nat) : Nat := bitsOf (s.trigger k) 2 0

/-- Write the trigger word of slot `k`. -/
def State.setTrigger (s : State) (k v : Nat) : State := s.exmPut (slotAddr k + 56) (leBytes 8 v)

/-! ### MSI-X and pending bits -/

/-- A message of function `fn` on vector `vec` cannot go out: the vector is masked, or MSI-X is off or masked for the
function (PCIe; log entry 9). -/
def State.msixHeld (s : State) (fn vec : Nat) : Bool :=
  (fget (fun _ => ({} : MsixPace)) s.exm.msix (32 * fn + vec)).masked || !tst s.pci.msixEnable fn || tst s.pci.msixMask fn

/-- A change of a pending bit asks for a message of function `fn` on vector `vec`; changes within the pacing interval
are merged into one message (R156). A vector that is held sets its Pending Bit instead. -/
def State.notify (s : State) (fn vec : Nat) : State :=
  let k := 32 * fn + vec
  let p := fget (fun _ => ({} : MsixPace)) s.exm.msix k
  let put := fun (s : State) (q : MsixPace) => { s with exm := { s.exm with msix := fset (fun _ => {}) s.exm.msix k q } }
  if s.msixHeld fn vec then put s { p with pba := true }
  else if p.busy then put s { p with merged := true }
  else (put s { p with busy := true }).emit (.msix fn vec)

/-- Set EXM_PEND bit of slot `k` for PF0; a 0-to-1 change sends a message on `vec` (Table 04-5). -/
def State.pendPf (s : State) (k vec : Nat) : State :=
  let f : Fld := ⟨R.EXM_PEND (k / 32), k % 32, k % 32⟩
  if s.bit f then s else (s.setFld f 1).notify 0 vec

/-- Set bit `b` of VF `n`'s pending word; a 0-to-1 change sends a message on `vec` (Table 04-5). -/
def State.pendVf (s : State) (n b vec : Nat) : State :=
  let w := fget (fun _ => 0) s.exm.pendVf n
  if tst w b then s
  else ({ s with exm := { s.exm with pendVf := fset (fun _ => 0) s.exm.pendVf n (putBit w b true) } }).notify n vec

/-- An internal agent posts `payload` on its notice slot `k` with LEN 56 and COOKIE `cookie` (R155, Table 04-5).
`agent` is its port D ID (Table 04-8). -/
def State.postNotice (s : State) (k agent cookie : Nat) (payload : List Byte) : State :=
  let w := 1 + (0xC000 + agent) * 2 ^ 16 + 56 * 2 ^ 40 + cookie % 65536 * 2 ^ 48
  (((s.exmPut (slotAddr k) (fitTo 56 payload)).setTrigger k w).pendPf k 1)

/-! ### Control symbols -/

/-- A control symbol: TYPE, bytes 1 to 14 and the CRC-8 (R655, Table 19-4). -/
def symbolOf (type : Nat) (body : List Byte) : List Byte :=
  let b := BitVec.ofNat 8 type :: fitTo 14 body
  b ++ [BitVec.ofNat 8 (crc8 b)]

/-- STATE of Ewebin port `p` (Table 19-1). -/
def State.portState (s : State) (p : Nat) : Nat := s.fld (F.EWB_P_STATUS_STATE p)

/-- The ports whose state is UP or SOLO. -/
def State.livePorts (s : State) : List Nat :=
  (List.range 16).filter (fun p => s.portState p == 4 || s.portState p == 7)

/-- Send the symbol on each port of the list. -/
def State.sendOn (s : State) (ps : List Nat) (sym : List Byte) : State := s.emitAll (ps.map (fun p => .symbol p sym))

end Sys2Proof.Machine
end

