-- ==== Sys2Proof/Machine/Units.lean ====
section
/-! DEFINITION. Slices, units, frames and map entries as the other files read them: what the registers show of them
needs no more than this. -/

namespace Sys2Proof.Machine

/-! ### Slices and units -/

/-- The slice of VF `n`, beside its registers. -/
def State.slice (s : State) (n : Nat) : Slice := fget (fun _ => ({} : Slice)) s.slices n

/-- Change the slice of VF `n`. -/
def State.modSlice (s : State) (n : Nat) (f : Slice → Slice) : State :=
  { s with slices := fmod (fun _ => ({} : Slice)) s.slices n f }

/-- STATE of VF `n`'s slice (Table 07-3): 0 NONE, 1 CREATING, 2 ACTIVE, 3 RESIZING, 4 RESETTING, 5 DESTROYING,
6 LOST. -/
def State.sliceState (s : State) (n : Nat) : Nat := s.fld (F.SLC_S_STATE_STATE n)

/-- VF numbers 1 to 63. -/
def vfs : List Nat := (List.range 63).map (· + 1)

/-- The VFs that have a slice. -/
def State.sliced (s : State) : List Nat := vfs.filter (fun n => s.sliceState n != 0)

/-- Clusters of VF `n`'s slice, as a mask (SLC_S_CLUSTERS). -/
def State.clustersOf (s : State) (n : Nat) : Nat := s.pair (R.SLC_S_CLUSTERS_LO n) (R.SLC_S_CLUSTERS_HI n) % 2 ^ 48

/-- Clusters draining out of VF `n`'s slice (R272). -/
def State.drainOf (s : State) (n : Nat) : Nat := s.pair (R.SLC_S_DRAIN_LO n) (R.SLC_S_DRAIN_HI n) % 2 ^ 48

/-- Clusters draining out of any slice. -/
def State.draining (s : State) : Nat := vfs.foldl (fun m n => Nat.lor m (s.drainOf n)) 0

/-- Usable clusters (ID_CLUSTER_USABLE). -/
def State.usableClusters (s : State) : Nat := s.pair R.ID_CLUSTER_USABLE_LO R.ID_CLUSTER_USABLE_HI % 2 ^ 48

/-- The unit with this counter byte is down in this start: it failed, was skipped or is fenced (Table 03-10). -/
def State.down (s : State) (u : Nat) : Bool := tst s.boot.downMask u || tst s.flt.rtMask u

/-- Compute die `d` is usable: its links and its commons half are (Table 03-3). -/
def State.dieUp (s : State) (d : Nat) : Bool :=
  if d = 0 then !s.down 12 && !s.down 34 else !s.down 11 && !s.down 13 && !s.down 35

/-- The commons half that holds the system area: the lowest-numbered usable one (R334). -/
def State.sysDie (s : State) : Nat := if !s.dieUp 0 && s.dieUp 1 then 1 else 0

/-- The compute die of a cluster and of a memory stack (Tables 01-1, 01-12). -/
def clusterDie (c : Nat) : Nat := c / 24
def stackDie (k : Nat) : Nat := k / 4

/-- Usable stacks (ID_SITES.STACK_USABLE). -/
def State.stacks (s : State) : List Nat := bitList (s.fld F.ID_SITES_STACK_USABLE) 8

/-- Frames in state `k` (1 zeroing, 2 model, 3 slice, 4 quarantine). -/
def State.framesIn (s : State) (k : Nat) : Nat := s.mem.frames.countP (fun e => e.2 / 64 == k)

/-- What VF `n`'s slice is charged, in 2 MiB units: its valid granules, its quarantined frames and those being zeroed
(R350, R356). -/
def State.charge (s : State) (n : Nat) : Nat := s.mem.frames.countP (fun e => e.2 % 64 == n)

/-! ### The map view (Tables 09-5 to 09-7) -/

/-- Entry `g` is valid, is pinned. -/
def entryValid (e : Nat) : Bool := tst e 0
def entryPinned (e : Nat) : Bool := tst e 0 && tst e 3

/-- Entry of granule `g` of VF `n`. -/
def State.entry (s : State) (n g : Nat) : Nat := fget (fun _ => 0) (s.slice n).map g

/-- Pinned entries of VF `n`'s slice (MEM_PIN). -/
def State.pinned (s : State) (n : Nat) : Nat := (s.slice n).map.countP (fun e => entryPinned e.2)

/-- GiB regions of VF `n` that hold a level-1 table: those with a valid granule or a quarantined frame (R351). -/
def Slice.regions (x : Slice) : List Nat :=
  let v := (x.map.filter (fun (e : Nat × Nat) => entryValid e.2)).map (fun (e : Nat × Nat) => e.1 / 512)
  (v ++ x.quar.map (fun (q : Nat × Nat) => q.1 / 512)).eraseDups

/-- Level-1 tables in use (MEM_L1_POOL). -/
def State.l1Used (s : State) : Nat := s.slices.foldl (fun n e => n + e.2.regions.length) 0

/-! ### Engine instances and dies -/

/-- Engine instances (Table 14-1), and the class of each. -/
def instances : List Nat := List.range 29
def instClass (i : Nat) : Nat :=
  if i < 16 then 1 else if i < 20 then 2 else if i < 24 then 3 else if i < 26 then 4 else if i < 28 then 6 else 5

/-- Compute die of an instance. -/
def instDie (i : Nat) : Nat :=
  if i < 16 then i / 8 else if i < 20 then (i - 16) / 2 else if i < 24 then (i - 20) / 2 else if i < 26 then i - 24
  else if i < 28 then i - 26 else 0

def State.die (s : State) (d : Nat) : CampDie := fget (fun _ => ({} : CampDie)) s.cmp.dies d
/-- Die `d` has an event in flight (R620). -/
def State.campInFlight (s : State) (d : Nat) : Bool :=
  let y := s.die d
  !y.mesh.isEmpty || !y.ovf.isEmpty || y.ingress.any (fun e => !e.2.isEmpty) ||
    s.cmp.cores.any (fun e => e.1 / 256 == d && (!e.2.spikes.isEmpty || !e.2.delay.isEmpty || e.2.input.isSome))

end Sys2Proof.Machine
end

