-- ==== Sys2Proof/Machine/View.lean ====
section
/-! DEFINITION. What a read of a BAR0 register returns. Most registers are stored in the register file; those that
show state held elsewhere are computed here. -/

namespace Sys2Proof.Machine

/-! ### Regions -/

/-- A region descriptor (R138). -/
structure Region where
  base : Nat
  size : Nat
  kind : Nat
  vf : Nat
  sema : Bool
  lease : Nat
deriving DecidableEq, Repr

/-- Descriptor `r` as its registers hold it; base and size in bytes. -/
def State.region (s : State) (r : Nat) : Region :=
  { base := 64 * s.fld (F.EXM_RGN_BASE_BASE r), size := 64 * s.fld (F.EXM_RGN_SIZE_SIZE r),
    kind := s.fld (F.EXM_RGN_ATTR_KIND r), vf := s.fld (F.EXM_RGN_ATTR_VF r),
    sema := s.bit (F.EXM_RGN_ATTR_SEMA r), lease := s.fld (F.EXM_RGN_LEASE_LEASE_US r) }

/-- The region covers byte `a`. -/
def Region.covers (g : Region) (a : Nat) : Bool := decide (g.base ≤ a ∧ a < g.base + g.size)

/-- The enabled region that covers byte `a`: its index and descriptor. -/
def State.regionAt (s : State) (a : Nat) : Option (Nat × Region) :=
  ((List.range 128).find? (fun r => (s.region r).covers a)).map (fun r => (r, s.region r))

/-- Byte `a` of the general area is a semaphore word's (R145). -/
def State.inSema (s : State) (a : Nat) : Bool :=
  decide (a < 0x7F0000) && (match s.regionAt a with | some g => g.2.sema | none => false)

/-- Semaphore words in enabled SEMA regions (EXM_SEMA_WORDS). -/
def State.semaWords (s : State) : Nat :=
  (List.range 128).foldl (fun n r => let g := s.region r; if g.sema then n + g.size / 8 else n) 0

/-! ### The calendar -/

/-- UTC offset in force, signed seconds. -/
def State.utcOffset (s : State) : Int := sgn 16 (s.fld F.CAL_UTC_OFFSET_OFFSET)

/-- Civil seconds at TAI time `t` ns with the offset in force (chapter 02, "The calendar"). -/
def State.civilSec (s : State) (t : Nat) : Int := ((t / 1000000000 : Nat) : Int) - s.utcOffset

/-- The calendar is valid now (R77). -/
def State.calValid (s : State) : Bool :=
  s.timeValid && decide (civilLo ≤ s.civilSec s.tai ∧ s.civilSec s.tai < civilHi)

/-- The calendar conversion stands past 2399-12-31T23:59:59 (R85). -/
def State.calOut (s : State) : Bool := s.timeValid && decide (civilHi ≤ s.civilSec s.tai)

/-- The civil date and time now, when the calendar is valid. -/
def State.civil (s : State) : Civil := civilOf (s.civilSec s.tai).toNat

/-- CAL_DATE (Table 02-6). -/
def State.calDate (s : State) : Nat :=
  if s.calValid then s.civil.year * 65536 + s.civil.dow * 4096 + s.civil.month * 256 + s.civil.day else 0

/-- CAL_TIME (Table 02-6). -/
def State.calTime (s : State) : Nat :=
  if s.calValid then s.civil.hour * 65536 + s.civil.minute * 256 + s.civil.second else 0

/-- CAL_SUBSEC (Table 02-6). -/
def State.calSubsec (s : State) : Nat := if s.calValid then s.tai % 1000000000 else 0

/-- Slots of the recorder's buffer in use (EVR_BUF, R721). -/
def State.bufUsed (s : State) : Nat := s.evr.buf.foldl (fun n b => n + b.hdr.units) 0

/-- The registers computed from state held elsewhere, in PF0 BAR0: the register's value, if `a` is one of them. -/
def State.viewHost (s : State) (a : Nat) : Option Nat :=
  if a = R.ID_PART then some (setBits (s.reg a).toNat 7 0 s.fused.stepping)
  else if a = R.ID_SITES then
    some (setBits (setBits (setBits (setBits (setBits (s.reg a).toNat 15 8 s.fused.stackFitted) 7 6 (s.fused.ioType.getD 3 0))
      5 4 (s.fused.ioType.getD 2 0)) 3 2 (s.fused.ioType.getD 1 0)) 1 0 (s.fused.ioType.getD 0 0))
  else if a = R.ID_MODULE then some (s.fused.moduleRev % 65536)
  else if a = R.ID_SERIAL_LO then some s.fused.serial
  else if a = R.ID_SERIAL_HI then some (s.fused.serial / 2 ^ 32)
  else if a = R.TCK_TIME_LO then some s.tai
  else if a = R.TCK_TIME_HI then some (s.tai / 2 ^ 32)
  else if a = R.CAL_DATE then some s.calDate
  else if a = R.CAL_TIME then some s.calTime
  else if a = R.CAL_SUBSEC then some s.calSubsec
  else if a = R.CAL_STATUS then some (setBits (setBits (s.reg a).toNat 2 2 (b2n s.calOut)) 0 0 (b2n s.calValid))
  else if a = R.EXM_SEMA_WORDS then some s.semaWords
  else if a = R.EVR_BUF then some s.bufUsed
  else if a = R.EVR_MARGIN then some (s.evr.margin / 32)
  else if a = R.EVR_STATUS then some (setBits (setBits (s.reg a).toNat 0 0 (b2n (!s.evr.buf.isEmpty))) 2 2 (b2n (s.evr.clearing != 0)))
  else if a = R.FRZ_STATUS then some (setBits (s.reg a).toNat 3 3 (b2n (s.pwr.freezeIn || s.pwr.freezeDrive)))
  else if a = R.PWR_CAP then some (s.frz.capW.getD s.fused.maxPower)
  else none

/-! ### Views of the command engine, the queues and tenancy -/

/-- The index of `a` in an array of registers. -/
def arr (a base stride first count : Nat) : Option Nat :=
  if base + stride * first ≤ a ∧ (a - base) % stride = 0 ∧ (a - base) / stride < first + count then some ((a - base) / stride) else none

/-- Job unit `j` (Table 05-14): its three registers. A running job reads as paused while the part is frozen (R174). -/
def State.viewJob (s : State) (j k : Nat) : Nat :=
  let x := fget (fun _ => ({} : Job)) s.eng.units j
  match k with
  | 0 => x.num * 65536 + x.fn * 256 + (if x.state = 1 && s.frozen then 2 else x.state)
  | 1 => x.op * 65536 + (if x.state = 3 then x.final else 0)
  | _ => if x.state = 1 then s.free.toNat % 1001 else if x.total = 0 then (if x.state = 3 && x.final = 0 then 1000 else 0)
         else 1000 * x.progress / x.total

/-- Usable clusters in no slice and not draining (SLC_FREE_CLUSTERS). -/
def State.freeClusters (s : State) : Nat :=
  let held := vfs.foldl (fun m n => Nat.lor m (match (s.slice n).gone with
    | some g => g.1.clusters
    | none => if s.sliceState n = 0 then 0 else s.clustersOf n)) s.draining
  s.usableClusters - Nat.land s.usableClusters held

/-- The sum over slices, destroyed ones still being cleared included, of what `f` and `g` give. -/
def State.heldSum (s : State) (f : Nat → Nat) (g : Layout → Nat) : Nat :=
  vfs.foldl (fun t n => t + (match (s.slice n).gone with | some x => g x.1 | none => if s.sliceState n = 0 then 0 else f n)) 0

/-- The registers of chapters 05 to 09 that show state held elsewhere. -/
def State.viewTenancy (s : State) (a : Nat) : Option Nat :=
  if a = R.CMD_STATUS then
    some (setBits (s.reg a).toNat 10 8 (((List.range 4).filter (fun j => (fget (fun _ => ({} : Job)) s.eng.units j).state == 1)).length))
  else if 0x20020 ≤ a ∧ a < 0x20060 then
    match (a - 0x20020) % 16 / 4 with | 3 => none | k => some (s.viewJob ((a - 0x20020) / 16) k)
  else if a = R.SLC_SCRUB then
    some (if s.bit F.SLC_SCRUB_ACTIVE then setBits (s.reg a).toNat 9 0 (s.free.toNat % 1001)
      else if s.fld F.SLC_SCRUB_KIND = 0 then (s.reg a).toNat else setBits (s.reg a).toNat 9 0 1000)
  else if a = R.SLC_FREE_CLUSTERS_LO then some s.freeClusters
  else if a = R.SLC_FREE_CLUSTERS_HI then some (s.freeClusters / 2 ^ 32)
  else if a = R.SLC_FREE_COMMONS then
    some (s.fld F.MEM_COMMONS_AVAIL_UNITS - s.heldSum (fun n => s.fld (F.SLC_S_COMMONS_UNITS n)) (fun l => l.commons))
  else if a = R.SLC_FREE_HBM then
    some (s.fld F.MEM_HBM_FRAMES_TOTAL - max s.mem.model.length s.mem.reserved -
      s.heldSum (fun n => s.fld (F.SLC_S_HBM_UNITS n)) (fun l => l.hbm))
  else if 0x181040 ≤ a ∧ a < 0x182000 then
    let n := (a - 0x181000) / 64
    if s.sliceState n = 0 && (a % 64 != 0x38) then some 0
    else if a % 64 = 0x20 then some (s.charge n) else none
  else if a = R.MEM_STATUS then
    some (setBits (setBits (s.reg a).toNat 1 1 (b2n (s.bit F.SEC_STATUS_TENANCY_KEY && !s.frozen && !s.pwr.doze))) 0 0
      (b2n (s.framesIn 1 != 0)))
  else if a = R.MEM_HBM_ZEROED then some (s.fld F.MEM_HBM_FRAMES_TOTAL -
      s.mem.frames.countP (fun e => e.2 != 0 && s.stacks.contains (e.1 / 12288)))
  else if a = R.MEM_HBM_QUARANTINE then some (s.framesIn 4)
  else if a = R.MEM_HBM_ZEROING then some (s.framesIn 1)
  else if a = R.MEM_MODEL_FRAMES then some (s.framesIn 2)
  else if a = R.MEM_L1_POOL then some s.l1Used
  else if a = R.MEM_PATROL then
    some (if 1 ≤ s.fld F.MEM_PATROL_HOURS ∧ s.fld F.MEM_PATROL_HOURS ≤ 168 then (s.reg a).toNat else 24)
  else match arr a 0x300200 4 1 63 with
    | some n => some (s.pinned n)
    | none =>
      match arr a 0x100000 4 1 63 with
      | some n => some (((List.range 16).foldl (fun m q =>
          m + (if s.fld (F.QIF_Q_STATUS_ERROR n q) = 0 then 0 else 2 ^ (16 + q)) + (if s.bit (F.QIF_Q_CTRL_ENABLE n q) then 2 ^ q else 0)) 0))
      | none => none

/-- The registers of a VF's own BAR0 that show state held elsewhere (Table 06-11). -/
def State.viewVf (s : State) (n o : Nat) : Option Nat :=
  let a := 0x100000000 * n + o
  if o = 0x1000 then
    some (setBits (setBits (setBits (s.reg a).toNat 10 10 (b2n s.frozen)) 9 8 (s.fld F.SLC_TEN_STATUS_MODEL)) 7 0 (s.sliceState n))
  else if o = 0x1008 then some s.tickCount
  else if o = 0x100C then some (s.tickCount / 2 ^ 32)
  else if 0x2000 ≤ o ∧ o < 0x2400 then
    let cmds := (fget (fun _ => ({} : Queue)) s.qs (16 * n + (o - 0x2000) / 64)).cmds
    match o % 64 with
    | 4 => some (setBits (setBits (s.reg a).toNat 1 1 (match cmds.find? (fun c => c.phase == 0) with
        | some c => b2n c.waitTick.isSome | none => 0)) 0 0 (b2n (cmds.any (fun c => c.phase == 1))))
    | 0x2C => some cmds.length
    | _ => none
  else none

/-! ### Views of the clusters, the engines, the scheduler, Teasel and Campion -/

/-- The contexts resident on cluster `c`, with their slots. -/
def State.onCluster (s : State) (c : Nat) : List (Nat × Ctx) :=
  (List.range 8).filterMap (fun j => (fget (fun _ => none) s.yar.ctxs (8 * c + j)).map (fun x => (j, x)))

/-- Groups of a context on scheduler `i` (R368). -/
def groupsOn (groups i : Nat) : Nat := (groups + 3 - i) / 4

/-- The occupancy registers of cluster `c` (Tables 10-5, 10-6, 13-6), at offset `o` of its block. -/
def State.viewCluster (s : State) (c o : Nat) : Option Nat :=
  let r := s.onCluster c
  let sum := fun (f : Ctx → Nat) => r.foldl (fun t p => t + f p.2) 0
  if o = 0 then
    some (sum (fun x => x.groups) * 2 ^ 16 + r.length * 2 ^ 12 +
      (match r with | p :: _ => p.2.split * 256 + 2 | [] => 0) + (if r.isEmpty then 0 else s.free.toNat % 2))
  else if o = 4 then some (sum (fun x => 32 * x.groups * x.laneRegs))
  else if o = 8 then some (sum (fun x => x.share))
  else if 0x10 ≤ o ∧ o < 0x20 then
    let i := (o - 0x10) / 4
    some (sum (fun x => groupsOn x.groups i) * 2 ^ 16 + sum (fun x => groupsOn x.groups i * x.laneRegs))
  else if 0x40 ≤ o ∧ o < 0x80 then
    match fget (fun _ => none) s.yar.ctxs (8 * c + (o - 0x40) / 8) with
    | none => some 0
    | some x =>
      if o % 8 = 0 then
        some (2 ^ 31 + b2n x.parked * 2 ^ 30 + b2n x.windowed * 2 ^ 29 + b2n x.predOnly * 2 ^ 28 + b2n x.mtx * 2 ^ 27 +
          x.vf * 2 ^ 20 + x.groups * 256)
      else some x.share
  else if o = 0x200 then
    some ((r.filter (fun p => p.2.windowed)).length * 2 ^ 16 +
      b2n ((fget (fun _ => ({} : Cluster)) s.yar.clusters c).defer != 0) * 256 +
      r.foldl (fun m p => if p.2.grp.any (fun g => g.2.inTrap) then m + 2 ^ p.1 else m) 0)
  else none

/-- The registers of matrix unit `u` that show its state (Tables 12-7, 12-8). -/
def State.viewUnit (s : State) (u o : Nat) : Option Nat :=
  let x := fget (fun _ => ({} : MUnit)) s.yar.units u
  let tile := fun (p : Nat) => fget (fun _ => none) x.tiles p
  if o = 0 then
    some (((List.range 4).filter (fun p => (tile p).isSome)).length * 2 ^ 12 + (x.queue.length + b2n x.staged.isSome) * 16 +
      (if x.staged.isNone && !x.queue.isEmpty then s.free.toNat % 2 * 2 else 0) + b2n x.running.isSome)
  else if o = 4 then
    some ((List.range 4).foldl (fun m p => match tile p with
      | some t => m + 2 ^ (8 * p) * (128 + b2n t.int * 64 + t.ctx % 8 * 8 + t.ltile % 8)
      | none => m) 0)
  else none

/-- The registers of chapters 10 to 18 that show state held elsewhere. -/
def State.viewUnits (s : State) (a : Nat) : Option Nat :=
  if 0x600000 ≤ a ∧ a < 0x630000 then s.viewCluster ((a - 0x600000) / 0x1000) (a % 0x1000)
  else if 0x680000 ≤ a ∧ a < 0x681800 then s.viewUnit ((a - 0x680000) / 0x40) (a % 0x40)
  else if 0x501000 ≤ a ∧ a < 0x5011D0 then
    let i := (a - 0x501000) / 16
    match a % 16 with
    | 0 => some (instClass i * 256 + instDie i * 16 + bitOf (s.reg R.FFE_STATUS).toNat i)
    | 4 => some ((fget (fun _ => ({} : Inst)) s.ffe.inst i).sub.foldl (fun t e => t + e.2.length) 0)
    | _ => none
  else if a = R.SCH_STATUS then
    some (match s.sch.excl with
      | some e => setBits (setBits (s.reg a).toNat 22 22 1) 21 16 e.1
      | none => setBits (s.reg a).toNat 22 16 0)
  else if 0x401008 ≤ a ∧ a < 0x401200 then
    if s.sliceState ((a - 0x401000) / 8) = 0 then some 0 else none
  else if a = R.SEQ_LIVE then some (s.tsl.seqs.countP (fun e => e.2.st == 1 || e.2.st == 2))
  else if 0x481010 ≤ a ∧ a < 0x481400 then
    let n := (a - 0x481000) / 16
    match a % 16 with
    | 0 => some (min (s.reg a).toNat 4096)
    | 4 => some (b2n (s.tsl.steps.any (fun x => x.vf == n)) * 2 ^ 31 + b2n (fget (fun _ => 0) s.tsl.active n != 0) * 2 ^ 30 +
        s.tsl.seqs.countP (fun e => e.2.vf == n && (e.2.st == 1 || e.2.st == 2)))
    | _ => none
  else if a = R.CMP_STATUS then
    some (setBits (setBits (s.reg a).toNat 7 7 (b2n (s.campInFlight 1))) 6 6 (b2n (s.campInFlight 0)))
  else match arr a 0x700010 4 0 4 with
    | some i => some ((s.die (i / 2)).etime / 2 ^ (32 * (i % 2)))
    | none => none

/-- A counter that reads 0 unless the tenancy's debug consent is set (R410, R472, R494, R534, R624). -/
def gatedCounter (a : Nat) : Bool :=
  (decide (0x600000 ≤ a ∧ a < 0x630000) && (decide (0x100 ≤ a % 0x1000 ∧ a % 0x1000 < 0x120) || a % 0x1000 == 0x204 || a % 0x1000 == 0x208)) ||
    (decide (0x680000 ≤ a ∧ a < 0x681800) && decide (0x10 ≤ a % 0x40)) || decide (0x500010 ≤ a ∧ a < 0x500020) ||
    (decide (0x501000 ≤ a ∧ a < 0x5011D0) && (a % 16 == 4 || a % 16 == 8)) || decide (0x700200 ≤ a ∧ a < 0x700240)

/-- Register `a` belongs to a unit that is not fitted: an Ewebin port without a link die, a port, AER lane, trigger or
grant without a sensor die (R768). -/
def State.unfitted (s : State) (a : Nat) : Bool :=
  let io := fun (i : Nat) => s.fused.ioType.getD i 0
  if 0x801000 ≤ a ∧ a < 0x802000 then io ((a - 0x801000) / 0x400) != 1
  else if 0x780008 ≤ a ∧ a < 0x780010 then io (2 + (a - 0x780008) / 4) != 2
  else if 0x780100 ≤ a ∧ a < 0x780300 then io (2 + (a - 0x780100) / 0x100) != 2
  else if 0x780600 ≤ a ∧ a < 0x780800 then io (2 + (a - 0x780600) / 0x100) != 2
  else if 0x780400 ≤ a ∧ a < 0x780420 then io (2 + (a - 0x780400) / 0x10) != 2
  else if 0x780800 ≤ a ∧ a < 0x780880 then io (2 + (a - 0x780800) / 0x40) != 2
  else false

/-- Function and offset within its MSI-X table, for an address of one (Tables 06-1, 23-1); PF0's has 2 vectors, a VF's
18. -/
def msixTable (a : Nat) : Option (Nat × Nat) :=
  let fn := a / 0x100000000
  let o := a % 0x100000000
  if fn = 0 then (if 0x3F00000 ≤ o ∧ o < 0x3F00020 then some (0, o - 0x3F00000) else none)
  else if 0x8000 ≤ o ∧ o < 0x8120 then some (fn, o - 0x8000) else none

/-- The MSI-X registers that show state held elsewhere: a table entry's Mask bit, and the Pending Bits. -/
def State.viewMsix (s : State) (a : Nat) : Option Nat :=
  let vec := fun (fn v : Nat) => fget (fun _ => ({} : MsixPace)) s.exm.msix (32 * fn + v)
  match msixTable a with
  | some (fn, o) => if o % 16 = 12 then some (b2n (vec fn (o / 16)).masked) else none
  | none =>
    if a = 0x3F80000 then some (b2n (vec 0 0).pba + 2 * b2n (vec 0 1).pba)
    else if 0x100000000 ≤ a ∧ a % 0x100000000 = 0xC000 then
      some ((List.range 18).foldl (fun m v => m + b2n (vec (a / 0x100000000) v).pba * 2 ^ v) 0)
    else none

/-- The value that stored word `v` of register `a` reads as, for the fields whose table says what values outside their range
read as (Tables 06-14, 07-6, 14-10, 16-7, 18-8, 19-8 and 21-8). -/
def readsAs (a v : Nat) : Nat :=
  let field := fun (hi lo : Nat) (f : Nat → Nat) => setBits v hi lo (f (bitsOf v hi lo))
  let orElse := fun (d x : Nat) => if x = 0 then d else x
  if a = R.SLC_TEN_GRACE then field 21 0 (fun x => if x = 0 then 0 else min (max x 1000) 3600000)
  else if a = R.FFE_COLL_TIMEOUT then field 15 0 (orElse 64)
  else if a = R.EWB_DOMAIN then field 22 16 (fun x => if x = 0 || 64 < x then 64 else x)
  else if a = R.EWB_WINDOW then field 15 0 (orElse 1000)
  else if a = R.EVR_CTRL then field 2 0 (fun x => min x 4)
  else if 0x481000 ≤ a ∧ a < 0x481400 ∧ a % 16 = 0 then field 12 0 (fun x => min x 4096)
  else if 0x780600 ≤ a ∧ a < 0x780800 ∧ a % 16 = 0 then field 15 0 (orElse 1)
  else if 0x780600 ≤ a ∧ a < 0x780800 ∧ a % 16 = 12 then field 19 0 (orElse 1)
  else if 0x100000000 ≤ a ∧ 0x2000 ≤ a % 0x100000000 ∧ a % 0x100000000 < 0x2400 ∧ a % 64 = 0x28 then
    field 9 0 (fun x => min x 1000)
  else v

/-- What a read of register `a` returns (R768: 0 where the map assigns nothing). -/
def State.readReg (s : State) (a : Nat) : Word :=
  if s.unfitted a || (gatedCounter a && !s.bit F.SLC_TEN_STATUS_DEBUG_CONSENT) then 0
  else
    let v := if 0x100000000 ≤ a then s.viewVf (a / 0x100000000) (a % 0x100000000)
      else if a < 0x100000 && !(decide (0x20000 ≤ a ∧ a < 0x30000)) || decide (0x800000 ≤ a) then s.viewHost a
      else if a < 0x400000 then s.viewTenancy a
      else s.viewUnits a
    match v, s.viewMsix a with
    | some v, _ => BitVec.ofNat 32 v
    | none, some v => BitVec.ofNat 32 v
    | none, none => BitVec.ofNat 32 (readsAs a (s.reg a).toNat)

end Sys2Proof.Machine
end

