-- ==== Sys2Proof/Machine/Events.lean ====
section
/-! DEFINITION. Creating event records (chapter 21): the record, the volatile buffer, triggers, snapshots, and the
freeze request a trigger or a pin makes (chapter 22). Every other file logs through `State.log`. -/

namespace Sys2Proof.Machine

/-- The 32 bytes of a record, CHECK included (Table 21-2, R716). -/
def Record.bytes (r : Record) : List Byte :=
  let a := leBytes 2 r.code ++ leBytes 1 (r.sev + 8 * b2n r.timeValid + 16 * b2n r.snapshot + 32 * b2n r.injected) ++
    leBytes 1 r.units ++ leBytes 4 r.seq ++ leBytes 8 r.time ++ leBytes 2 r.bootSeq ++ leBytes 1 r.vf
  let b := leBytes 2 r.unit ++ leBytes 2 r.arg16 ++ leBytes 8 r.arg
  a ++ leBytes 1 (crc8 (a ++ b)) ++ b

/-- The next SEQ (R717); SEQ counts modulo 2^32. -/
def State.takeSeq (s : State) : State :=
  s.setReg R.EVR_SEQ (s.reg R.EVR_SEQ + 1)

/-- A record of the event, with the next SEQ and the time stamp of R716. Before the mount TIME_VALID is 0 (R728). -/
def State.mkRecord (s : State) (code sev vf unit arg16 arg : Nat) (injected : Bool) : Record :=
  let tv := s.timeValid && s.bit F.EVR_STATUS_MOUNTED
  { code := code, sev := sev, timeValid := tv, snapshot := false, injected := injected, units := 1,
    seq := (s.reg R.EVR_SEQ).toNat, time := if tv then s.tai else s.clk - s.boot.startClk,
    bootSeq := (s.reg R.BOOT_SEQ).toNat % 65536, vf := vf, unit := unit, arg16 := arg16 % 65536, arg := arg % 2 ^ 64 }

/-- Hold a notice of class `cls` for slot 1,011; a further event of a held class adds 1 to its COUNT (R740). -/
def State.recNotice (s : State) (cls trig seq : Nat) : State :=
  let n : RecNotice := match fget (fun _ => none) s.evr.notices cls with
    | some n => { n with count := (n.count + 1) % 65536 }
    | none => { trigger := trig, count := 1, seq := seq, tick := s.tickCount }
  { s with evr := { s.evr with notices := fset (fun _ => none) s.evr.notices cls (some n) } }

/-- FF_SEV; values above 4 read as 4 (Table 21-8). -/
def State.ffSev (s : State) : Nat := min (s.fld F.EVR_CTRL_FF_SEV) 4

/-- Whether a record of severity `sev` is to be copied to the first-fault log (R722, R725, R737). -/
def State.ffTakes (s : State) (sev : Nat) : Bool :=
  decide (s.ffSev ≤ sev) && !s.bit F.EVR_STATUS_FF_FULL &&
    s.evr.clearing != 1

/-- Put a record in the buffer under the next SEQ, or lose it (R717, R721, R724). `kept` uses the slot kept for
POWER_FAIL. -/
def State.pushRec (s : State) (r : Record) (body : List (List Byte)) (kept : Bool) : State :=
  let s1 := (s.takeSeq).bump F.EVR_CNT_RECORDS_COUNT
  if s.bufUsed + r.units ≤ 1023 + b2n kept then
    let ff := s.ffTakes r.sev
    let s2 := if decide (s.ffSev ≤ r.sev) && !ff then s1.bump F.EVR_CNT_FF_SKIPPED_COUNT else s1
    { s2 with evr := { s2.evr with buf := s2.evr.buf ++ [⟨r, body, 0, ff, 0⟩] } }
  else
    let s2 := s1.bump F.EVR_CNT_LOST_COUNT
    let s3 : State := { s2 with evr := { s2.evr with
        lostFirst := if s2.evr.lostCount = 0 then r.seq else s2.evr.lostFirst
        lostCount := s2.evr.lostCount + 1 } }
    if s3.bit F.EVR_CTRL_NOTIFY_LOST then s3.recNotice 3 0xFF r.seq else s3

/-- The register runs of a control-plane snapshot: base, N (stride 4 × 2^N), units (Table 21-4). -/
def snapshotRuns : List (Nat × Nat × Nat) :=
  [(0x900000, 0, 2), (0x400000, 0, 2), (0x20000, 0, 1), (0x480000, 0, 2), (0x501000, 2, 5), (0x501004, 2, 5),
   (0x600000, 10, 7), (0x680000, 4, 14), (0x700000, 0, 1), (0x801004, 6, 3), (0x300000, 0, 2), (0x181040, 4, 9)]

/-- One register-run unit (Table 21-3). -/
def State.runUnit (s : State) (off n : Nat) : List Byte :=
  leBytes 4 (off + n * 2 ^ 28) ++
    ((List.range 7).map (fun i => leBytes 4 (s.readReg (off + i * 4 * 2 ^ n)).toNat)).flatten

/-- The body of a control-plane snapshot (R719). -/
def State.snapBody (s : State) : List (List Byte) :=
  (snapshotRuns.map (fun r => (List.range r.2.2).map (fun u => s.runUnit (r.1 + u * 28 * 2 ^ r.2.1) r.2.1))).flatten

/-- Capture a snapshot with this body (R719, R720). -/
def State.snapshot (s : State) (code sev vf : Nat) (body : List (List Byte)) : State :=
  let r := { s.mkRecord code sev vf 0xFFFF 0 (crc32c body.flatten) false with
    snapshot := true, units := body.length + 1 }
  (s.bump F.EVR_CNT_SNAPSHOTS_COUNT).pushRec r body false

/-- Whether trigger `t` matches the record (R739). -/
def State.trigMatches (s : State) (t : Nat) (r : Record) : Bool :=
  s.bit (F.EVR_TRIG_CTRL_ENABLE t) && decide (0x100 ≤ r.code) &&
    (Nat.land (Nat.xor r.code (s.fld (F.EVR_TRIG_MATCH_CODE t))) (s.fld (F.EVR_TRIG_MATCH_MASK t)) == 0) &&
    (s.fld (F.EVR_TRIG_CTRL_VF t) == 0 || s.fld (F.EVR_TRIG_CTRL_VF t) == r.vf)

/-- What trigger `t` does on a match; `fr` makes the freeze request, domain-wide or not (R739). -/
def State.trigAct (fr : State → Bool → State) (r : Record) (s : State) (t : Nat) : State :=
  if s.trigMatches t r then
    let s1 := ((s.bump (F.EVR_TRIG_HITS_COUNT t)).bump F.EVR_CNT_TRIGGERS_COUNT)
    let s2 := s1.pushRec (s1.mkRecord 0x0009 1 0 0xFFFF t r.seq false) [] false
    let s3 := if s2.bit (F.EVR_TRIG_CTRL_ONESHOT t) then s2.setFld (F.EVR_TRIG_CTRL_ENABLE t) 0 else s2
    let s4 := if s.bit (F.EVR_TRIG_CTRL_SNAPSHOT t) then s3.snapshot 0x0082 1 0 s3.snapBody else s3
    let s5 := if s.bit (F.EVR_TRIG_CTRL_FREEZE_DOMAIN t) then fr s4 true
      else if s.bit (F.EVR_TRIG_CTRL_FREEZE_LOCAL t) then fr s4 false else s4
    if s.bit (F.EVR_TRIG_CTRL_NOTIFY t) then s5.recNotice 4 t r.seq else s5
  else s

/-- Create a record of an event and match the triggers (RECORD_CREATE, R717, R739). -/
def State.createWith (fr : State → Bool → State) (s : State) (r : Record) : State :=
  (List.range 4).foldl (State.trigAct fr r) (s.pushRec r [] false)

/-- Send this module's FREEZE (type 0x09) or THAW (0x0A) symbol with the next FID on every UP or SOLO port (R745,
R748). -/
def State.sendFrz (s : State) (type : Nat) : State :=
  let fid := s.fld F.FRZ_NEXT_FID_FID
  let sym := symbolOf type (0 :: leBytes 2 s.address ++ leBytes 1 fid)
  let s1 := s.sendOn s.livePorts sym
  { s1 with ewb := { s1.ewb with seenFreeze := (type, s.address, fid) :: s1.ewb.seenFreeze } }.setFld
    F.FRZ_NEXT_FID_FID ((fid + 1) % 256)

/-- A local freeze begins: FREEZE_N low, issue and intake stopped, source recorded (R742, R743). -/
def State.freezeMark (s : State) (src : Nat) : State :=
  let a := ((s.setFld F.FRZ_STATUS_STATE 1).setFld F.FRZ_STATUS_SOURCE src).bump F.FRZ_CNT_FREEZES_COUNT
  { a with
    pwr := { s.pwr with freezeDrive := true }
    frz := { s.frz with reqClk := s.clk, thawPending := 0 }
    boot := { s.boot with stepFrozen := s.boot.stepFrozen || s.fld F.BOOT_STATUS_STEP != 0xA } }

/-- The snapshot of a freeze, where EVR_CTRL asks for it (R720). -/
def State.freezeSnap (s : State) : State :=
  if s.bit F.EVR_CTRL_SNAP_FREEZE then s.snapshot 0x0081 1 0 s.snapBody else s

/-- A freeze request of source `src` (Table 22-1) on a running part starts a local freeze, FROZEN logged through `lg`,
snapshot captured (R720, R742, R743). A request on a part that is not running changes nothing (R747). A domain request
also sends FREEZE symbols (R745, R747). -/
def State.freezeVia (lg : State → Record → State) (src : Nat) (s : State) (domain : Bool) : State :=
  let s1 :=
    if s.fld F.FRZ_STATUS_STATE = 0 then
      let b := s.freezeMark src
      (lg b (b.mkRecord 0x0D01 2 0 0xFFFF src 0 false)).freezeSnap
    else s
  if domain then s1.sendFrz 0x09 else s1

/-- A freeze request made while the part is already freezing or frozen: only its symbols are sent (R747). -/
def State.freezeAgain (s : State) (domain : Bool) : State := if domain then s.sendFrz 0x09 else s

/-- Make a freeze request (R742). The FROZEN record it logs may match triggers, whose own freeze request finds the
part freezing. -/
def State.freezeReq (s : State) (src : Nat) (domain : Bool) : State :=
  s.freezeVia (State.createWith State.freezeAgain) src domain

/-- Create a record of an event, with everything a match of the triggers does. -/
def State.record (s : State) (r : Record) : State :=
  State.createWith (fun s d => s.freezeReq 4 d) s r

/-- Log an event: code, severity, slice, unit (0xFFFF none), ARG16 and ARG (Table 21-5). -/
def State.log (s : State) (code sev vf unit arg16 arg : Nat) : State :=
  s.record (s.mkRecord code sev vf unit arg16 arg false)

/-- Log an injected event (R706). -/
def State.logInjected (s : State) (code sev vf unit arg16 arg : Nat) : State :=
  s.record (s.mkRecord code sev vf unit arg16 arg true)

end Sys2Proof.Machine
end

