-- ==== Sys2Proof/Machine/Exchange.lean ====
section
/-! DEFINITION. The exchange memory (chapter 04): regions and access, semaphores and leases, mailbox slots, MSI-X
pacing. -/

namespace Sys2Proof.Machine

/-! ### Requesters -/

/-- The holder token of a requester (R144, Table 04-7). -/
def token (r : Req) : Nat := 0x8000 + 0x4000 * r.port + r.id

/-- VF and index of conversation slot `k`, 64 to 1,008 (Table 04-2). -/
def convVf (k : Nat) : Nat := (k - 64) / 15 + 1
def convIdx (k : Nat) : Nat := (k - 64) % 15

/-- The agent that posts on notice slot `k`, 1,009 to 1,012 (Tables 04-2, 04-8). -/
def noticeAgent (k : Nat) : Nat := if k = 1009 then 2 else if k = 1010 then 4 else if k = 1011 then 5 else 6

/-- Tokens of the two parties of slot `k`: for a fixed slot the producer first (Table 04-2). -/
def slotParties (k : Nat) : List Nat :=
  if k = 0 then [0x8000, 0xC001]
  else if k < 64 then [0x8000 + k, 0xC001]
  else if k ≤ 1008 then [0x8000, 0x8000 + convVf k]
  else if k ≤ 1012 then [0xC000 + noticeAgent k, 0x8000]
  else []

/-- Whether the token may produce on slot `k`: on a conversation slot either party may. -/
def mayProduce (k t : Nat) : Bool :=
  if 64 ≤ k ∧ k ≤ 1008 then (slotParties k).contains t else (slotParties k).head? == some t

/-- POSTER of slot `k`. -/
def State.poster (s : State) (k : Nat) : Nat := bitsOf (s.trigger k) 31 16

/-- The token is the consumer of the posting that slot `k` holds. -/
def State.isConsumer (s : State) (k t : Nat) : Bool := (slotParties k).contains t && s.poster k != t

/-- Whether requester `r` may write payload of slot `k` now (R152). -/
def State.payloadOpen (s : State) (k : Nat) (r : Req) : Bool :=
  let st := s.slotState k
  st == 0 || ((st == 1 || st == 2) && s.isConsumer k (token r))

/-- Whether requester `r` may read, or write, exchange byte `a` (R141, R152, Table 04-3). -/
def State.mayAccess (s : State) (r : Req) (a : Nat) (write : Bool) : Bool :=
  if a < 0x7F0000 then
    let g := match s.regionAt a with | some g => g.2 | none => ⟨0, 0, 0, 0, false, 0⟩
    if g.kind = 0 then
      (r.port == 0 && r.id == 0) || (r.port == 1 && r.id == 1 && r.vf == 0)
    else if g.kind = 1 then
      (r.port == 0 && r.id == g.vf) || (r.port == 1 && (r.id == 8 || r.id == 1) && r.vf == g.vf)
    else r.port == 0 && (r.id == 0 || r.id == g.vf)
  else if a < 0x800000 then
    let k := (a - 0x7F0000) / 64
    (slotParties k).contains (token r) && (!write || s.payloadOpen k r)
  else false

/-- Where a port H access of VF `n` at BAR2 offset `off` goes, or any other requester's at an exchange address
(R142, Table 04-6): an exchange address, the pending word, or nothing. -/
inductive Target where
  | exm (a : Nat)
  | pendWord (byte : Nat)
  | nothing
deriving DecidableEq, Repr

def State.target (s : State) (r : Req) (off : Nat) : Target :=
  if r.port = 0 ∧ r.id ≠ 0 then
    if off < 0x3F000 then .exm (s.fld (F.EXM_VF_WIN_BASE r.id) * 4096 + off)
    else if off < 0x3F040 then .exm (slotAddr r.id + (off - 0x3F000))
    else if off < 0x3F400 then .exm (slotAddr (64 + 15 * (r.id - 1)) + (off - 0x3F040))
    else if off < 0x3F408 then .pendWord (off - 0x3F400)
    else .nothing
  else .exm off

/-- Count a denial and load EXM_LAST_DENIED (R141). -/
def State.denied (s : State) (r : Req) (a : Nat) : State :=
  let s1 := (s.bump F.EXM_CNT_DENIED_COUNT).setFld F.EXM_STATUS_DENIED_SEEN 1
  ((s1.setFld F.EXM_LAST_DENIED_PORT r.port).setFld F.EXM_LAST_DENIED_ID r.id).setFld F.EXM_LAST_DENIED_ADDR a

/-! ### Errors (R128, R133) -/

/-- A correctable error is corrected, written back and counted (R133, R689). -/
def State.eccCe (s : State) : State := (s.bump F.EXM_CNT_ECC_CE_COUNT).bump F.FLT_CNT_CE_COUNT

/-- An uncorrectable error is met at word `a`: counted, flagged and logged. -/
def State.eccUe (s : State) (a : Nat) : State :=
  ((s.bump F.EXM_CNT_ECC_UE_COUNT).setFld F.EXM_STATUS_ECC_UE_SEEN 1).log 0x0401 3 0 0xFFFF 0 a

/-- Take the errors an access finds into the state: correctable ones are counted, uncorrectable ones stay in their
words until an aligned full write. -/
def State.upset (s : State) (u : Upsets) : State :=
  u.foldl (fun s p =>
    if p.2 then { s with exm := { s.exm with ue := fset (fun _ => 0) s.exm.ue (p.1 - p.1 % 8) 1 } } else s.eccCe) s

/-- Word `a` holds an uncorrectable error. -/
def State.hasUe (s : State) (a : Nat) : Bool := fget (fun _ => 0) s.exm.ue a == 1

/-- The addresses of the words that `[a, a + n)` touches. -/
def wordsOf (a n : Nat) : List Nat := (List.range ((a % 8 + n + 7) / 8)).map (fun i => a - a % 8 + 8 * i)

/-! ### Semaphores -/

/-- Store the holder's token in semaphore word `a`, noting the time (R145, R149). -/
def State.semaTake (s : State) (a tok : Nat) : State :=
  let s1 := s.exmPut a (leBytes 8 tok)
  { s1 with exm := { s1.exm with acq := fset (fun _ => 0) s1.exm.acq a (s1.runClk + 1) } }

/-- Free semaphore word `a`. -/
def State.semaFree (s : State) (a : Nat) : State := s.exmZero a 8

/-- A read-to-acquire of word `a` by `r` (R145): the word's value, and the state after. -/
def State.semaRead (s : State) (r : Req) (a : Nat) : State × Nat :=
  let v := s.exmLe a 8
  if v = 0 then (s.semaTake a (token r), 0) else (s, v)

/-- A write of `v` to semaphore word `a` (R147): the holder's 0 releases it, anything else is ignored and counted. -/
def State.semaWrite (s : State) (r : Req) (a v : Nat) : State :=
  if v = 0 ∧ s.exmLe a 8 = token r then s.semaFree a else s.bump F.EXM_CNT_SEMA_IGNORED_COUNT

/-! ### Trigger words (R151, Tables 04-4, 04-5) -/

/-- Notify the consumer of slot `k` that it is POSTED by `tok`. -/
def State.notifyPosted (s : State) (k tok : Nat) : State :=
  if k < 64 then s
  else if k ≤ 1008 then
    if tok = 0x8000 then s.pendVf (convVf k) (1 + convIdx k) 1 else s.pendPf k 1
  else s.pendPf k 1

/-- Notify the producer of slot `k` that it is DONE; an internal agent returns its slot to IDLE at once (R155). -/
def State.notifyDone (s : State) (k : Nat) : State :=
  if k = 0 then s.pendPf 0 0
  else if k < 64 then s.pendVf k 0 0
  else if k ≤ 1008 then
    if s.poster k = 0x8000 then s.pendPf k 1 else s.pendVf (convVf k) (1 + convIdx k) 1
  else s.setTrigger k 0

/-- A trigger write is refused: ignored and counted (R151). -/
def State.trigReject (s : State) : State := s.bump F.EXM_CNT_TRIG_REJECT_COUNT

/-- The POSTED transition of an IDLE slot. -/
def State.trigPost (s : State) (tok k w : Nat) : State :=
  if s.slotState k = 0 ∧ mayProduce k tok ∧ bitsOf w 47 40 ≤ 56 then
    (s.setTrigger k (1 + tok * 2 ^ 16 + bitsOf w 47 40 * 2 ^ 40 + bitsOf w 63 48 * 2 ^ 48)).notifyPosted k tok
  else s.trigReject

/-- IDLE written by the producer: a POSTED slot is withdrawn, a DONE slot is closed; the word becomes 0. -/
def State.trigIdle (s : State) (tok k : Nat) : State :=
  if (s.slotState k = 1 ∨ s.slotState k = 3) ∧ s.poster k = tok then s.setTrigger k 0 else s.trigReject

/-- TAKEN written by the consumer of a POSTED slot. -/
def State.trigTake (s : State) (tok k : Nat) : State :=
  if s.slotState k = 1 ∧ s.isConsumer k tok then s.setTrigger k (setBits (s.trigger k) 2 0 2) else s.trigReject

/-- DONE written by the consumer of a POSTED or TAKEN slot, with LEN and STATUS. -/
def State.trigDone (s : State) (tok k w : Nat) : State :=
  if (s.slotState k = 1 ∨ s.slotState k = 2) ∧ s.isConsumer k tok ∧ bitsOf w 47 40 ≤ 56 then
    (s.setTrigger k (setBits (setBits (setBits (s.trigger k) 47 40 (bitsOf w 47 40)) 15 8 (bitsOf w 15 8)) 2 0 3)).notifyDone k
  else s.trigReject

/-- An aligned 8-byte write of `w` to the trigger word of slot `k` by the holder of token `tok` (R151). -/
def State.trigWrite (s : State) (tok k w : Nat) : State :=
  if bitsOf w 39 32 ≠ 0 ∨ bitsOf w 7 3 ≠ 0 ∨ ¬ (slotParties k).contains tok then s.trigReject
  else
    match bitsOf w 2 0 with
    | 0 => s.trigIdle tok k
    | 1 => s.trigPost tok k w
    | 2 => s.trigTake tok k
    | 3 => s.trigDone tok k w
    | _ => s.trigReject

/-! ### Reads and writes -/

/-- Data of one word's part `[a, a + n)` of a read by `r`, and whether it is poisoned: zeros where denied (R141), free values
where the word holds an uncorrectable error (R133). -/
def State.readPart (s : State) (r : Req) (a n : Nat) : State × List Byte × Bool :=
  if !s.mayAccess r a false then (s.denied r a, List.replicate n 0, false)
  else if s.hasUe (a - a % 8) then ((s.eccUe (a - a % 8)).drawnN n, s.freeBytes n, true)
  else (s, s.exmBytes a n, false)

/-- The parts of `[a, a + n)` word by word: address and length. -/
def partsOf (a n : Nat) : List (Nat × Nat) :=
  (wordsOf a n).map (fun w => let lo := max a w; (lo, min (a + n) (w + 8) - lo))

/-- Read the parts in order; the state, the data and whether any part is poisoned. -/
def readParts (r : Req) : List (Nat × Nat) → State → State × List Byte × Bool
  | [], s => (s, [], false)
  | p :: t, s =>
    let x := s.readPart r p.1 p.2
    let y := readParts r t x.1
    (y.1, x.2.1 ++ y.2.1, x.2.2 || y.2.2)

/-- A read of exchange bytes `[a, a + n)` by `r` (R133, R141, R145, R146). -/
def State.exmRead (s : State) (r : Req) (a n : Nat) : State :=
  if (wordsOf a n).any s.inSema then
    if a % 8 = 0 ∧ n = 8 then
      if s.mayAccess r a false then
        let p := s.semaRead r a
        p.1.emit (.readData r.port r.id (leBytes 8 p.2) false)
      else (s.denied r a).emit (.readData r.port r.id (List.replicate n 0) false)
    else (s.bump F.EXM_CNT_SEMA_MISUSE_COUNT).emit (.readData r.port r.id (List.replicate n 0xFF) false)
  else
    let p := readParts r (partsOf a n) s
    p.1.emit (.readData r.port r.id p.2.1 p.2.2)

/-- Write one word's part by `r` at `a`; `whole` says that the access is one aligned 8-byte write (R128, R147, R151,
R152). -/
def State.writePart (s : State) (r : Req) (a : Nat) (d : List Byte) (whole : Bool) : State :=
  if s.inSema a then
    if !s.mayAccess r a true then s.denied r a
    else if whole then s.semaWrite r a (ofLe d) else s.bump F.EXM_CNT_SEMA_IGNORED_COUNT
  else if 0x7F0000 ≤ a ∧ a < 0x800000 ∧ 56 ≤ a % 64 then
    if whole then s.trigWrite (token r) ((a - 0x7F0000) / 64) (ofLe d) else s.trigReject
  else if !s.mayAccess r a true then s.denied r a
  else if d.length = 8 then (s.exmZero a 8).exmPut a d
  else if s.hasUe (a - a % 8) then s.eccUe (a - a % 8)
  else s.exmPut a d

/-- A write of bytes `d` at exchange address `a` by `r`. -/
def State.exmWrite (s : State) (r : Req) (a : Nat) (d : List Byte) : State :=
  (partsOf a d.length).foldl (fun s p =>
    s.writePart r p.1 (sliceOf d (p.1 - a) p.2) (decide (d.length = 8 ∧ a % 8 = 0))) s

/-- EXCHANGE_READ: a read through port H or D (R129 to R146); `collide` says that the other port writes the same word
in the same cycle, after which the read returns the old data and is counted (R136). -/
def execExchangeRead (r : Req) (addr len : Nat) (ups : Upsets) (collide : Bool) (s : State) : Res :=
  .next <|
    let s1 := s.upset ups
    let s2 := if collide then s1.bump F.EXM_CNT_COLLIDE_RW_COUNT else s1
    match s2.target r addr with
    | .exm a => s2.exmRead r a len
    | .pendWord b =>
      s2.emit (.readData r.port r.id (sliceOf (leBytes 8 (fget (fun _ => 0) s2.exm.pendVf r.id)) b len) false)
    | .nothing => s2.emit (.readData r.port r.id (List.replicate len 0) false)

/-- EXCHANGE_WRITE: a write through port H or D; `collide` says that the other port wrote the same word in the same
cycle (R135): port D's write is the earlier step, so the word ends with port H's data over port D's. -/
def execExchangeWrite (r : Req) (addr : Nat) (data : List Byte) (ups : Upsets) (collide : Bool) (s : State) : Res :=
  .next <|
    let s1 := s.upset ups
    let s2 := if collide then s1.bump F.EXM_CNT_COLLIDE_WW_COUNT else s1
    match s2.target r addr with
    | .exm a => s2.exmWrite r a data
    | .pendWord b =>
      let w := fget (fun _ => 0) s2.exm.pendVf r.id
      let v := Nat.land w (Nat.xor 0xFFFFFFFFFFFFFFFF (ofLe data * 2 ^ (8 * b) % 2 ^ 64))
      { s2 with exm := { s2.exm with pendVf := fset (fun _ => 0) s2.exm.pendVf r.id v } }
    | .nothing => s2

/-- SEMA_READ_ACQUIRE: a one-word read of semaphore word `addr` (R145). With `other` both ports read-to-acquire it in
the same cycle: on a free word the bank's alternating token picks the winner, who reads 0; the loser reads the winner's
token, and the bank's token passes on (R137). -/
def execSemaReadAcquire (r : Req) (addr : Nat) (other : Option Req) (s : State) : Res :=
  .next <|
    match s.target r addr with
    | .exm a =>
      if ¬ (s.inSema a ∧ a % 8 = 0) then s.exmRead r a 8
      else
        match other with
        | none => s.exmRead r a 8
        | some q =>
          if s.exmLe a 8 = 0 ∧ s.mayAccess r a false ∧ s.mayAccess q a false ∧ r.port ≠ q.port then
            let f : Fld := ⟨R.EXM_TOKEN_PHASE, a / 0x80000, a / 0x80000⟩
            let first := if s.bit f then (if r.port = 1 then r else q) else (if r.port = 0 then r else q)
            let second := if first = r then q else r
            let s1 := (s.setFld f (1 - s.fld f)).bump F.EXM_CNT_COLLIDE_AA_COUNT
            (s1.exmRead first a 8).exmRead second a 8
          else (s.exmRead r a 8).exmRead q a 8
    | _ => s

/-- SEMA_RELEASE_WRITE: an aligned 8-byte write to a semaphore word (R147). -/
def execSemaReleaseWrite (r : Req) (addr : Nat) (value : DWord) (s : State) : Res :=
  .next <|
    match s.target r addr with
    | .exm a => s.exmWrite r a (leBytes 8 value.toNat)
    | _ => s

/-- A word held past its region's lease is released by force (R150). -/
def State.forceRelease (s : State) (rgn a held : Nat) : State :=
  let tok := s.exmLe a 8
  let vf := if bitOf tok 14 = 0 then tok % 256 else 0
  let was := s.bit F.EXM_STATUS_LEASE_EXPIRED
  let s1 := ((s.semaFree a).bump F.EXM_CNT_LEASE_COUNT).setFld F.EXM_STATUS_LEASE_EXPIRED 1
  let s2 := s1.log 0x0402 2 vf 0xFFFF rgn (a % 2 ^ 23 + tok % 65536 * 2 ^ 24 + held % 2 ^ 24 * 2 ^ 40)
  let s3 := if vf ≠ 0 then s2.pendVf vf 16 1 else s2
  if was then s3 else s3.notify 0 1

/-- The sweeper's visit of one held word. -/
def State.sweepWord (s : State) (a since : Nat) : State :=
  match s.regionAt a with
  | some (rgn, g) =>
    let held := (s.runClk + 1 - since) / 1000
    if g.sema ∧ g.lease ≠ 0 ∧ g.lease * 1000 ≤ s.runClk + 1 - since then s.forceRelease rgn a held else s
  | none => s

/-- SWEEPER_VISIT: the sweeper visits every semaphore word and releases those held longer than their lease (R149,
R150). It stops during a freeze (R134). -/
def execSweeperVisit (s : State) : Res :=
  .next <| if s.frozen then s else s.exm.acq.foldl (fun s e => s.sweepWord e.1 e.2) s

/-- SLOT_POST: a producer writes `w` with STATE POSTED to the trigger word of slot `k` (R151). -/
def execSlotPost (r : Req) (k : Nat) (w : DWord) (s : State) : Res :=
  .next (s.trigWrite (token r) k (setBits w.toNat 2 0 1))

/-- SLOT_WITHDRAW: the producer writes IDLE to a POSTED slot. -/
def execSlotWithdraw (r : Req) (k : Nat) (s : State) : Res :=
  .next (if s.slotState k = 1 then s.trigWrite (token r) k 0 else s.trigReject)

/-- SLOT_TAKE: the consumer writes TAKEN to a POSTED slot. -/
def execSlotTake (r : Req) (k : Nat) (s : State) : Res := .next (s.trigWrite (token r) k 2)

/-- SLOT_DONE: the consumer writes `w` with STATE DONE; on a notice slot the agent returns it to IDLE (R155). -/
def execSlotDone (r : Req) (k : Nat) (w : DWord) (s : State) : Res :=
  .next (s.trigWrite (token r) k (setBits w.toNat 2 0 3))

/-- SLOT_RETURN_IDLE: the producer writes IDLE to a DONE slot and the word becomes 0. -/
def execSlotReturnIdle (r : Req) (k : Nat) (s : State) : Res :=
  .next (if s.slotState k = 3 then s.trigWrite (token r) k 0 else s.trigReject)

/-- MSIX_HOLDOFF_END: the pacing interval of a vector ends; changes merged in it go out as one message, which begins a
new interval (R156). -/
def execMsixHoldoffEnd (fn vec : Nat) (s : State) : Res :=
  .next <|
    let k := 32 * fn + vec
    let p := fget (fun _ => ({} : MsixPace)) s.exm.msix k
    let put := fun (q : MsixPace) => { s with exm := { s.exm with msix := fset (fun _ => {}) s.exm.msix k q } }
    if !p.busy then s
    else if p.merged then
      if s.msixHeld fn vec then put { p with busy := false, merged := false, pba := true }
      else (put { p with merged := false }).emit (.msix fn vec)
    else put { p with busy := false }

/-- CLR_COUNTERS: a write of EXM_CTRL with CLR_COUNTERS 1 zeroes every EXM_CNT_ register (R160). -/
def execClrCounters (value : Word) (s : State) : Res :=
  .next (if tst value.toNat 0 then s.resetRegs R.EXM_CNT_COLLIDE_WW (R.EXM_CNT_ECC_UE + 4) else s)

/-- Clear VF `n`'s exchange window (R157): its regions, slot n, its conversation slots and its pending word. -/
def State.clearVfExchange (s : State) (n : Nat) : State :=
  let s1 := (List.range 128).foldl (fun s r =>
    let g := s.region r
    if (g.kind = 1 ∨ g.kind = 2) ∧ g.vf = n then s.exmZero g.base g.size else s) s
  let s2 := (s1.exmZero (slotAddr n) 64).exmZero (slotAddr (64 + 15 * (n - 1))) (15 * 64)
  { s2 with exm := { s2.exm with pendVf := fset (fun _ => 0) s2.exm.pendVf n 0 } }

end Sys2Proof.Machine
end

