-- ==== Sys2Proof/Machine/FaultOps.lean ====
section
/-! DEFINITION. What every unit reports to the fault controller (chapter 20): corrected errors, contained faults and
the notices they hold for slot 1,010. -/

namespace Sys2Proof.Machine

/-- The notice after a further event of a held class (R702): COUNT rises by 1 and the fields are the new event's,
except that UNCONTAINED keeps the first fault's. -/
def mergeNotice (old : Option FaultNotice) (new : FaultNotice) (keep : Bool) : Option FaultNotice :=
  match old with
  | none => some new
  | some o => if keep then some { o with count := (o.count + 1) % 65536 }
    else some { new with count := (o.count + 1) % 65536 }

/-- A notice of an event now. -/
def State.newNotice (s : State) (kind unit inst us : Nat) : FaultNotice :=
  { kind := kind, unit := unit, inst := inst, count := 1, tick := s.tickCount, tai := s.taiStamp, fenced := false, us := us }

/-- The hour of tick-counted time this is (R691). -/
def State.hour (s : State) : Nat := s.runClk / 3600000000000

/-- A corrected error in unit `u` of Table 03-3 (class × 256 + index), or in a structure of no unit (0xFFFF): counted,
and beyond FLT_CE_LIMIT in one hour noticed and logged once (R689, R691). -/
def State.ceSeen (s : State) (u : Nat) : State :=
  let s1 := s.bump F.FLT_CNT_CE_COUNT
  if u = 0xFFFF then s1
  else
    let w := fget (fun _ => 0) s1.flt.ceHour u
    let c := (if w / 2 ^ 32 = s1.hour then w % 2 ^ 32 else 0) + 1
    let s2 : State := { s1 with flt := { s1.flt with ceHour := fset (fun _ => 0) s1.flt.ceHour u (s1.hour * 2 ^ 32 + c) } }
    let lim := s2.fld F.FLT_CE_LIMIT_PER_HOUR
    if lim = 0 || c ≤ lim || fget (fun _ => 0) s2.flt.cePosted u = s2.hour + 1 then s2
    else
      let s3 : State := { s2 with flt := { s2.flt with
        cePosted := fset (fun _ => 0) s2.flt.cePosted u (s2.hour + 1)
        nCe := mergeNotice s2.flt.nCe (s2.newNotice 0 u 0xFF c) false } }
      s3.log 0x0703 2 0 u 0 c

/-- A contained fault of VF `vf`'s slice: code of Table 20-1, exception code, instruction index or engine instance, and
TRAP_PC (R687, R702). -/
def State.contained (s : State) (vf code exc arg pc : Nat) : State :=
  let s1 := (s.bump F.FLT_CNT_CONTAINED_COUNT).bump (F.FLT_VF_CNT_COUNT vf)
  let old := fget (fun _ => none) s1.flt.nCon vf
  let n := mergeNotice old (s1.newNotice code 0xFFFF 0xFF 0) false
  let s2 : State := { s1 with flt := { s1.flt with nCon := fset (fun _ => none) s1.flt.nCon vf n } }
  s2.log 0x0C01 3 vf 0xFFFF (code + 256 * exc) (arg % 2 ^ 32 + pc % 2 ^ 32 * 2 ^ 32)

/-- STATE of the fault controller: 0 NORMAL, 1 RECOVERING, 2 LOST_SLICES, 3 DIAG_ONLY (Table 20-5). -/
def State.fltState (s : State) : Nat := s.fld F.FLT_STATUS_STATE

/-- The VFs whose slice is LOST, as a mask. -/
def State.lostMask (s : State) : Nat :=
  ((List.range 64).filter (fun n => n != 0 && s.fld (F.SLC_S_STATE_STATE n) == 6)).foldl (fun m n => m + 2 ^ n) 0

/-- Some slice is LOST, or was LOST and is being destroyed (R696). -/
def State.lostLeft (s : State) : Bool :=
  (List.range 64).any (fun n => n != 0 && (s.fld (F.SLC_S_STATE_STATE n) == 6 ||
    (s.fld (F.SLC_S_STATE_STATE n) == 5 && (fget (fun _ => ({} : Slice)) s.slices n).prev == 6)))

/-- The 56 bytes of a fault notice (Table 20-3). -/
def State.faultPayload (s : State) (cls vf : Nat) (n : FaultNotice) : List Byte :=
  leBytes 1 n.kind ++ leBytes 1 cls ++ leBytes 2 n.unit ++ leBytes 1 vf ++ leBytes 1 n.inst ++ leBytes 2 n.count ++
    leBytes 8 n.tick ++ leBytes 8 n.tai ++ leBytes 1 s.fltState ++ leBytes 1 (b2n n.fenced) ++ leBytes 6 0 ++
    leBytes 8 s.lostMask ++ leBytes 4 n.us ++ leBytes 12 0

/-- FAULT_NOTICE_POST: with slot 1,010 IDLE, the pending notice of the highest rank is posted (R702, R703). -/
def execFaultNoticePost (s : State) : Res :=
  if s.slotState 1010 != 0 then .next s
  else match s.flt.nUnc, s.flt.nRec with
  | some n, _ =>
    .next ({ s with flt := { s.flt with nUnc := none } }.postNotice 1010 4 1 (s.faultPayload 1 0 n))
  | none, some n =>
    .next ({ s with flt := { s.flt with nRec := none } }.postNotice 1010 4 3 (s.faultPayload 3 0 n))
  | none, none =>
    match s.flt.nCe, s.bit F.FLT_CTRL_NOTIFY_CE with
    | some n, true =>
      .next ({ s with flt := { s.flt with nCe := none } }.postNotice 1010 4 2 (s.faultPayload 2 0 n))
    | _, _ =>
      match s.flt.nCon.find? (fun e => e.2.isSome), s.bit F.FLT_CTRL_NOTIFY_CONTAINED with
      | some (vf, some n), true =>
        .next ({ s with flt := { s.flt with nCon := fset (fun _ => none) s.flt.nCon vf none } }.postNotice 1010 4 0
          (s.faultPayload 0 vf n))
      | _, _ => .next s

end Sys2Proof.Machine
end

