-- ==== Sys2Proof/Machine/Memory.lean ====
section
/-! DEFINITION. Commons, HBM and address translation (chapter 09): device physical bytes, frames, the map view,
cached translations, invalidation, pinning, patrol and refresh. -/

namespace Sys2Proof.Machine

/-! ### Device physical bytes (Table 09-1) -/

/-- The DPA of HBM frame `f` (R340). -/
def frameDpa (f : Nat) : Nat := 0x10000000000 + f * 0x200000

/-- The frame that holds HBM address `d`. -/
def frameOf (d : Nat) : Nat := (d - 0x10000000000) / 0x200000

/-- The byte at DPA `d`. An HBM byte that no write since its frame was zeroed has set reads 0 in a frame zeroed under
the tenancy's key, and the key's own unspecified value elsewhere (R293). -/
def State.dpaByte (s : State) (d : Nat) : Byte :=
  if d < 0x10000000 then fget (fun _ => 0) s.mem.cmn d
  else
    let v := fget (fun _ => 0) s.mem.hbm d
    if v ≠ 0 then BitVec.ofNat 8 (v - 1)
    else if fget (fun _ => 0) s.mem.clean (frameOf d) = 1 then 0
    else Config.hbmStale s.sec.keyGen d

/-- Write the byte at DPA `d`. -/
def State.dpaPut (s : State) (d : Nat) (b : Byte) : State :=
  if d < 0x10000000 then { s with mem := { s.mem with cmn := fset (fun _ => 0) s.mem.cmn d b } }
  else { s with mem := { s.mem with hbm := fset (fun _ => 0) s.mem.hbm d (b.toNat + 1) } }

/-- The protected unit that holds DPA `d`: its first address and its size (R339: a 64-bit commons word; R341: a
64-byte HBM line). -/
def eccUnit (d : Nat) : Nat × Nat := if d < 0x10000000 then (d - d % 8, 8) else (d - d % 64, 64)

/-- DPA `d` lies in a word or line with an uncorrectable error. -/
def State.poisoned (s : State) (d : Nat) : Bool := fget (fun _ => 0) s.mem.poison (eccUnit d).1 == 1

/-- Mark or clear the error of the unit at DPA `d`. -/
def State.setPoison (s : State) (d v : Nat) : State :=
  { s with mem := { s.mem with poison := fset (fun _ => 0) s.mem.poison (eccUnit d).1 v } }

/-- A corrected error met at DPA `d` (R339, R341). -/
def State.memCe (s : State) (d : Nat) : State :=
  if d < 0x10000000 then
    let h := d / 0x8000000
    (s.bump (F.MEM_CMN_CE_COUNT h)).ceSeen (0x0800 + h)
  else
    let k := frameOf d / 12288
    (s.bump (F.MEM_HBM_CE_COUNT k)).ceSeen (0x0400 + k)

/-- An uncorrectable error found at DPA `d` for slice `vf`: the word or line is poisoned, counted and logged
(R339, R341). -/
def State.memUe (s : State) (vf d : Nat) : State :=
  if d < 0x10000000 then
    let h := d / 0x8000000
    ((s.setPoison d 1).bump (F.MEM_CMN_UE_COUNT h)).log 0x0702 3 vf (0x0800 + h) 0 d
  else
    let k := frameOf d / 12288
    ((s.setPoison d 1).bump (F.MEM_HBM_UE_COUNT k)).log 0x0701 3 vf (0x0400 + k) 0 d

/-! ### Frames (R340 to R344) -/

/-- The lowest key from `c` on, below `hi`, that a rising list does not hold. -/
def lowestFree (hi : Nat) : FMap Nat → Nat → Option Nat
  | [], c => if c < hi then some c else none
  | (k, _) :: t, c =>
    if c ≥ hi then none
    else if k < c then lowestFree hi t c
    else if k = c then lowestFree hi t (c + 1)
    else some c

/-- The frame an allocation takes: the lowest free frame of the usable stack after the one allocated from last,
wrapping, among stacks that have a free frame (R344). -/
def State.nextFrame (s : State) : Option Nat :=
  let st := s.stacks
  let order := st.filter (fun k => decide (s.mem.lastStack < k)) ++ st.filter (fun k => decide (k ≤ s.mem.lastStack))
  order.findSome? (fun k => lowestFree (12288 * (k + 1)) s.mem.frames (12288 * k))

/-- Give frame `f` the state code `c` (64 × state + VF). -/
def State.setFrame (s : State) (f c : Nat) : State :=
  { s with mem := { s.mem with frames := fset (fun _ => 0) s.mem.frames f c } }

/-- Take frame `f` for state code `c`. -/
def State.takeFrame (s : State) (f c : Nat) : State :=
  let s1 := s.setFrame f c
  { s1 with mem := { s1.mem with lastStack := f / 12288 } }

/-- Erase what frame `f` holds: it reads as zeros under the tenancy's key (R344). -/
def State.zeroFrame (s : State) (f : Nat) : State :=
  { s with mem := { s.mem with
      hbm := fclear s.mem.hbm (frameDpa f) (frameDpa (f + 1))
      clean := fset (fun _ => 0) s.mem.clean f 1
      poison := fclear s.mem.poison (frameDpa f) (frameDpa (f + 1)) } }

/-- The slice has unpinned translations (R361). -/
def State.unpinned (s : State) (n : Nat) : Bool := (s.slice n).map.any (fun e => entryValid e.2 && !entryPinned e.2)

/-- An RT entry of either bank names VF `n`'s slice. -/
def State.rtNamed (s : State) (n : Nat) : Bool := s.sch.table.any (fun e => e.2 % 256 == 1 && e.2 / 256 % 256 == n)

/-- The pending change of VF `n`'s slice (R177). -/
def State.pendingOf (s : State) (n : Nat) : Option Change := s.eng.changes.find? (fun c => c.vf == n && c.kind ≤ 3)

/-- The most the slice may have mapped now: its quota, or the smaller of the old and the new one while a reduction is
pending (R275). -/
def State.mapLimit (s : State) (n : Nat) : Nat :=
  let q := s.fld (F.SLC_S_HBM_UNITS n)
  match s.pendingOf n with
  | some c => if c.kind = 2 then min q c.lay.hbm else q
  | none => q

/-- The pinned entries that a cluster must hold, over all slices that own it (R360). -/
def State.pinsOn (s : State) (c : Nat) : Nat :=
  s.sliced.foldl (fun t n => if tst (s.clustersOf n) c then t + s.pinned n else t) 0

/-- Key of a cached translation. -/
def tcKey (agent n g : Nat) : Nat := (agent * 64 + n) * 2 ^ 18 + g

/-- A cached copy of the entry: the entry and its frame. -/
def State.copyOf (s : State) (n g : Nat) : Nat := s.entry n g + 2 ^ 64 * fget (fun _ => 0) (s.slice n).frame g

/-- Load a copy of the entry into the cache of each agent of the list. -/
def State.loadTc (s : State) (agents : List Nat) (n g : Nat) : State :=
  { s with mem := { s.mem with tc := fsetAll (fun _ => 0) s.mem.tc (agents.map (fun a => tcKey a n g)) (s.copyOf n g) } }

/-- A store is rejected (R349). -/
def State.mapReject (s : State) (n err : Nat) : State :=
  (s.modSlice n (fun x => { x with mapErrors := x.mapErrors + 1, lastError := err })).bump F.MEM_CNT_MAP_REJECT_COUNT

/-- A store is ignored and recorded as MISUSE (R348). -/
def State.mapMisuse (s : State) (n : Nat) : State :=
  s.modSlice n (fun x => { x with mapErrors := x.mapErrors + 1, lastError := 1 })

/-- Load a pinned entry into every cluster of its slice (R360). -/
def State.loadPinned (s : State) (n g : Nat) : State :=
  if entryPinned (s.entry n g) then s.loadTc (bitList (s.clustersOf n) 48) n g else s

/-- What a store of `v` to entry `g` runs into, in the order of Table 09-6: 0 when it is applied. -/
def State.mapCheck (s : State) (n g v : Nat) : Nat :=
  let e := s.entry n g
  let toValid := !entryValid e && entryValid v
  let x := s.slice n
  let pins := entryPinned v && !entryPinned e
  if bitsOf v 31 4 ≠ 0 || (!tst v 1 && bitsOf v 63 32 != 0) then 2
  else if entryValid e && tst e 1 != tst v 1 then 6
  else if toValid && s.mapLimit n ≤ s.charge n then 3
  else if toValid && !x.regions.contains (g / 512) && 1008 ≤ s.l1Used then 4
  else if toValid && s.nextFrame.isNone then 5
  else if pins && (128 ≤ s.pinned n || (bitList (s.clustersOf n) 48).any (fun c => 128 ≤ s.pinsOn c)) then 7
  else if entryValid v && !entryPinned v && s.rtNamed n then 8
  else 0

/-- Apply a store that passed its checks (Table 09-6). -/
def State.mapApply (s : State) (n g v : Nat) : State :=
  let e := s.entry n g
  let put := fun (x : Slice) => { x with map := fset (fun _ => 0) x.map g v }
  if !entryValid e && entryValid v then
    match s.nextFrame with
    | some f => ((s.takeFrame f (64 * 3 + n)).modSlice n (fun x =>
        { put x with frame := fset (fun _ => 0) x.frame g (f + 1) })).loadPinned n g
    | none => s
  else if entryValid e && !entryValid v then
    let f := fget (fun _ => 0) (s.slice n).frame g - 1
    (s.setFrame f (64 * 4 + n)).modSlice n (fun x =>
      { put x with frame := fset (fun _ => 0) x.frame g 0, quar := x.quar ++ [(g, f)] })
  else (s.modSlice n put).loadPinned n g

/-- A store of `v` to map-view entry `g` of VF `n`'s slice (R349 to R353). -/
def State.mapStore (s : State) (n g v : Nat) : State :=
  let err := s.mapCheck n g v
  if err = 0 then s.mapApply n g v else s.mapReject n err

/-- A store of `cnt` to INV_COUNT (R357): an invalidation joins the slice's queue, or is rejected with INV_RANGE. -/
def State.invStart (s : State) (n cnt : Nat) : State :=
  let b := (s.slice n).invBase
  if cnt = 0 then s.modSlice n (fun x => { x with invs := x.invs ++ [(0, 262144)] })
  else if b % 0x200000 ≠ 0 || 262144 < b / 0x200000 + cnt then
    s.modSlice n (fun x => { x with mapErrors := x.mapErrors + 1, lastError := 9 })
  else s.modSlice n (fun x => { x with invs := x.invs ++ [(b / 0x200000, cnt)] })

/-- Whether a cached translation's key is of VF `n` and a granule of `[g, g + c)`. -/
def tcOf (n g c key : Nat) : Bool :=
  key / 2 ^ 18 % 64 == n && decide (g ≤ key % 2 ^ 18) && decide (key % 2 ^ 18 < g + c)

/-- What an invalidation of `c` granules from `g` does when it completes, but for its count (R357): cached copies go,
pinned ones are reloaded, quarantined frames start zeroing. -/
def State.invRun (s : State) (n g c : Nat) : State :=
  let x := s.slice n
  let gone := x.quar.filter (fun q => decide (g ≤ q.1 ∧ q.1 < g + c))
  let s1 : State := { s with mem := { s.mem with tc := s.mem.tc.filter (fun e => !tcOf n g c e.1) } }
  let s2 := gone.foldl (fun s q => s.setFrame q.2 (64 + n)) s1
  let s3 := s2.modSlice n (fun x => { x with quar := x.quar.filter (fun q => !decide (g ≤ q.1 ∧ q.1 < g + c)) })
  (x.map.filter (fun e => decide (g ≤ e.1 ∧ e.1 < g + c))).foldl (fun s e => s.loadPinned n e.1) s3

/-- The bytes of the control window at offset `o` from 0xFF00_0000_0000, as a read returns them. -/
def State.ctrlByte (s : State) (n o : Nat) : Byte :=
  let x := s.slice n
  if o < 0x200000 then BitVec.ofNat 8 (s.entry n (o / 8) / 256 ^ (o % 8))
  else
    let w := match (o - 0x200000) / 8 with
      | 0 => x.invBase
      | 2 => x.invDone
      | 3 => x.mapErrors
      | 4 => x.lastError * 2 ^ 56 + s.pinned n * 2 ^ 40 + s.charge n
      | _ => 0
    BitVec.ofNat 8 (w / 256 ^ (o % 8))

/-- A store of bytes to the control window at offset `o` (R348, Table 09-7). -/
def State.ctrlStore (s : State) (n o : Nat) (bs : List Byte) : State :=
  if bs.length = 8 && o % 8 == 0 then
    if o < 0x200000 then s.mapStore n (o / 8) (ofLe bs)
    else if o = 0x200000 then s.modSlice n (fun x => { x with invBase := ofLe bs })
    else if o = 0x200008 then s.invStart n (ofLe bs)
    else s.mapMisuse n
  else s.mapMisuse n

/-! ### Slice addresses (Table 09-4) -/

/-- The agent of an access that looks entries up afresh: a COPY or a tensor mover (R355). -/
def freshAgent : Nat := 255

/-- The entry an agent uses for granule `g`: its cached copy, if the cache still holds one, else the map view's
(R354, R355). Whether an unpinned copy is still held is a free choice, the same for one access. -/
def State.useEntry (s : State) (agent n g : Nat) : Nat :=
  let c := fget (fun _ => 0) s.mem.tc (tcKey agent n g)
  if agent != freshAgent && c != 0 && (tst c 3 || tst s.free.toNat 0) then c else s.copyOf n g

/-- The DPA of slice address `a` for an access of VF `n`, when it is valid (R346, R347). -/
def State.xlate (s : State) (agent n a : Nat) (write : Bool) : Option Nat :=
  if a < 0x8000000000 then
    let e := s.useEntry agent n (a / 0x200000)
    if !tst e 0 || (tst e 1 && !tst e (32 + a / 0x10000 % 32)) || (write && tst e 2) then none
    else some (frameDpa (e / 2 ^ 64 - 1) + a % 0x200000)
  else if 0x10000000000 ≤ a && a < 0x10010000000 then
    let o := a - 0x10000000000
    if o < 0x10000 * s.fld (F.SLC_S_COMMONS_UNITS n) then some ((s.slice n).base + o) else none
  else if 0x20000000000 ≤ a && a < 0x23000000000 then
    let o := a - 0x20000000000
    if write || s.fld F.SLC_TEN_STATUS_MODEL != 2 || s.mem.placed ≤ o then none
    else some (frameDpa (s.mem.model.getD (o / 0x200000) 0) + o % 0x200000)
  else none

/-- The control-window offset of `a`, if it lies there (Table 09-4). -/
def ctrlOffset (a : Nat) : Option Nat :=
  if 0xFF0000000000 ≤ a && a < 0xFF0000210000 then some (a - 0xFF0000000000) else none

/-- Slice address `a` can be read, or written. -/
def State.validAt (s : State) (agent n : Nat) (write ctrl : Bool) (a : Nat) : Bool :=
  (ctrl && (ctrlOffset a).isSome) || (s.xlate agent n a write).isSome

/-- The byte at slice address `a`, where the access is valid. -/
def State.sliceByte (s : State) (agent n a : Nat) : Byte :=
  match ctrlOffset a with
  | some o => s.ctrlByte n o
  | none => match s.xlate agent n a false with | some d => s.dpaByte d | none => 0

/-- How an access ends: it is done, its address is invalid (R346), or it meets an uncorrectable error. -/
inductive MemErr where
  | address (a : Nat)
  | poison (d : Nat)
deriving DecidableEq, Repr

/-- The addresses of `n` bytes from `a` on. -/
def addrs (a n : Nat) : List Nat := (List.range n).map (a + ·)

/-- Whether `len` bytes from `a` can be read or written, and what stops it otherwise. -/
def State.memCheck (s : State) (agent n a len : Nat) (write ctrl : Bool) : Option MemErr :=
  match (addrs a len).find? (fun x => !s.validAt agent n write ctrl x) with
  | some x => some (.address x)
  | none =>
    let bad := fun (x : Nat) => match s.xlate agent n x write with
      | some d => s.poisoned d && !(write && decide (a ≤ x - (d - (eccUnit d).1)) &&
          decide (x - (d - (eccUnit d).1) + (eccUnit d).2 ≤ a + len))
      | none => false
    ((addrs a len).find? bad).map (fun x => .poison ((s.xlate agent n x write).getD 0))

/-- The bytes of a read that `memCheck` passed. -/
def State.memBytes (s : State) (agent n a len : Nat) : List Byte := (addrs a len).map (s.sliceByte agent n)

/-- The granules of the general area that `[a, a + len)` touches. -/
def granules (a len : Nat) : List Nat :=
  if a < 0x8000000000 then ((List.range (len / 0x200000 + 2)).map (a / 0x200000 + ·)).filter
    (fun g => decide (g * 0x200000 < a + len ∧ g < 262144)) else []

/-- What an access leaves in the agent's translation cache: a copy of each entry it missed, with the miss counted
(R354, MEM_TC_MISS). The choice whether an unpinned copy was still held is drawn. -/
def State.touch (s : State) (agent n a len : Nat) : State :=
  if agent = freshAgent then s
  else
    let miss := (granules a len).filter (fun g =>
      let c := fget (fun _ => 0) s.mem.tc (tcKey agent n g)
      entryValid (s.entry n g) && !(c != 0 && (tst c 3 || tst s.free.toNat 0)))
    (miss.foldl (fun s g =>
      let s1 := s.loadTc [agent] n g
      if agent < 48 then s1.bump (F.MEM_TC_MISS_COUNT agent) else s1) s).drawn

/-- Write bytes at a slice address whose check passed: a whole word or line written is free of error again. -/
def State.memPut (s : State) (agent n a : Nat) (bs : List Byte) : State :=
  match ctrlOffset a with
  | some o => s.ctrlStore n o bs
  | none =>
    let ds := (bs.zipIdx).map (fun p => ((s.xlate agent n (a + p.2) true).getD 0, p.1))
    ds.foldl (fun s p => (s.dpaPut p.1 p.2).setPoison p.1 0) s

/-! ### Clearing a slice's memory (R359, R363) -/

/-- Every entry of the slice becomes invalid, its frames start zeroing, its pins, cached copies and pending
invalidations go, its commons reservation is zeroed (R277, R359, R363). -/
def State.clearSliceMem (s : State) (n : Nat) : State :=
  let x := s.slice n
  let held := (s.mem.frames.filter (fun e => e.2 % 64 == n && (e.2 / 64 == 3 || e.2 / 64 == 4))).map (fun e => e.1)
  let top := x.base + 0x10000 * s.fld (F.SLC_S_COMMONS_UNITS n)
  let s1 : State := { s with mem := { s.mem with
      frames := fsetAll (fun _ => 0) s.mem.frames held (64 + n)
      tc := s.mem.tc.filter (fun e => !tcOf n 0 262144 e.1)
      cmn := fclear s.mem.cmn x.base top
      poison := fclear s.mem.poison x.base top } }
  s1.modSlice n (fun x => { x with
    map := [], frame := [], quar := [], invs := [], invBase := 0, invDone := 0, mapErrors := 0, lastError := 0 })

/-- Frames the slice left behind are zeroed and free: the end of its clearing (R277, R363). -/
def State.finishSliceMem (s : State) (n : Nat) : State :=
  let held := (s.mem.frames.filter (fun e => e.2 == 64 + n)).map (fun e => e.1)
  held.foldl (fun s f => (s.zeroFrame f).setFrame f 0) s

/-- The resident model's frames start zeroing, and the model map is empty. -/
def State.dropModel (s : State) : State :=
  let s1 := s.mem.model.foldl (fun s f => s.setFrame f 64) s
  { s1 with mem := { s1.mem with model := [], placed := 0, reserved := 0 } }

/-! ### The commands of the memory system -/

/-- MAP_VIEW_STORE: a store to map-view entry `g` of VF `vf`'s slice arrives. `whole` says that it writes exactly one
aligned 8-byte word (R348 to R353). -/
def execMapViewStore (vf g : Nat) (value : DWord) (whole : Bool) (s : State) : Res :=
  if s.sliceState vf = 0 || 262144 ≤ g || s.frozen then .next s
  else if whole then .next (s.mapStore vf g value.toNat)
  else .next (s.mapMisuse vf)

/-- INV_COUNT_STORE: a store to INV_COUNT arrives (R357, R358). -/
def execInvCountStore (vf : Nat) (count : DWord) (s : State) : Res :=
  if s.sliceState vf = 0 || s.frozen then .next s else .next (s.invStart vf count.toNat)

/-- INVALIDATION_COMPLETE: the slice's oldest invalidation completes (R357, R358). -/
def execInvalidationComplete (vf : Nat) (s : State) : Res :=
  match (s.slice vf).invs with
  | [] => .next s
  | (g, c) :: t =>
    if s.frozen then .next s
    else .next (((s.invRun vf g c).modSlice vf (fun x => { x with invs := t, invDone := x.invDone + 1 })).bump
      F.MEM_CNT_INV_COUNT)

/-- FRAME_ZERO_COMPLETE: frame `f` has been zeroed and is free; the charge for it ends (R344, R356). -/
def execFrameZeroComplete (f : Nat) (s : State) : Res :=
  if fget (fun _ => 0) s.mem.frames f / 64 = 1 && !s.frozen then .next ((s.zeroFrame f).setFrame f 0) else .next s

/-- The patrol runs: a tenancy key exists and the part is neither frozen nor in doze (R343). -/
def State.patrolOn (s : State) : Bool :=
  s.bit F.SEC_STATUS_TENANCY_KEY && !s.frozen && !s.pwr.doze

/-- The slice that holds the frame of DPA `d`, 0 where none does. -/
def State.ownerOf (s : State) (d : Nat) : Nat := fget (fun _ => 0) s.mem.frames (frameOf d) % 64

/-- PATROL: the patrol has read further HBM lines up to `permille` of its period. `errs` are the lines in which it
found errors: the DPA, and whether the error is uncorrectable (R341, R343). -/
def execPatrol (errs : Upsets) (permille : Nat) (s : State) : Res :=
  if s.patrolOn then
    let s1 := errs.foldl (fun s e =>
      if e.1 < 0x10000000000 then s else if e.2 then s.memUe (s.ownerOf e.1) e.1 else s.memCe e.1) s
    .next (s1.setFld F.MEM_PATROL_PROGRESS_PERMILLE (min permille 1000))
  else .next s

/-- HBM_REFRESH: a bank refresh made a request wait `ns` (R342: at most 350). -/
def execHbmRefresh (ns : Nat) (s : State) : Res :=
  if s.frozen || s.pwr.doze then .next s
  else .next (s.setFld F.MEM_REFRESH_WAIT_MAX_NS (max (s.fld F.MEM_REFRESH_WAIT_MAX_NS) (min ns 350)))

end Sys2Proof.Machine
end

