-- ==== Sys2Proof/Machine/Command.lean ====
section
/-! DEFINITION. The command engine (chapter 05): the choice of the next request, the checks in the order of R163, the
response, the job units and the buffers. The commands themselves stand in files of their own. -/

namespace Sys2Proof.Machine

/-! ### Requests -/

/-- A request being executed: the caller and its 56-byte payload (Table 05-1). -/
structure Call where
  fn : Nat
  p : List Byte
deriving DecidableEq, Repr

/-- A little-endian argument at payload offset `o`. -/
def Call.arg (c : Call) (o n : Nat) : Nat := leAt c.p o n

/-- How a command ends: the state, STATUS, DETAIL and RESULT from payload offset 0x0C on (Table 05-2). -/
structure Reply where
  st : State
  status : Nat
  detail : Nat
  result : List Byte
deriving DecidableEq, Repr

/-- A command that ends at a check: no effect (R165). -/
def State.no (s : State) (status detail : Nat) : Reply := ⟨s, status, detail, []⟩

/-- A command that ends with SUCCESS. -/
def State.ok (s : State) (result : List Byte) : Reply := ⟨s, 0, 0, result⟩

/-- An argument that a table names: payload offset, size, Reserved bits. -/
structure ArgField where
  off : Nat
  len : Nat
  resv : Nat
deriving DecidableEq, Repr

/-- One row of Table 05-3: opcode; caller 0 M, 1 V, 2 V*, 3 A, 4 A*; whether a VF caller must name itself at offset
0x08 (R179); F; Table 03-5; arguments of Tables 05-8 to 05-11. -/
structure CmdRow where
  op : Nat
  caller : Nat
  self : Bool
  frz : Bool
  diag : Bool
  args : List ArgField
deriving DecidableEq, Repr

/-- The arguments of SLICE_CREATE and SLICE_RESIZE. -/
def layoutArgs : List ArgField :=
  [⟨8, 1, 0⟩, ⟨9, 1, 0⟩, ⟨10, 2, 0⟩, ⟨12, 8, 0xFFFF000000000000⟩, ⟨20, 4, 0⟩, ⟨24, 4, 0⟩, ⟨28, 2, 0⟩, ⟨32, 8, 0⟩]

/-- Table 05-3, general to exchange commands. -/
def cmdRowsA : List CmdRow := [
  ⟨0x0001, 3, false, true, false, []⟩,
  ⟨0x0002, 3, false, true, false, []⟩,
  ⟨0x0003, 3, false, true, false, [⟨8, 2, 0⟩]⟩,
  ⟨0x0101, 0, false, false, false, [⟨8, 16, 0⟩]⟩,
  ⟨0x0102, 2, false, false, false, [⟨8, 48, 0⟩]⟩,
  ⟨0x0103, 4, false, false, false, []⟩,
  ⟨0x0104, 3, false, true, false, []⟩,
  ⟨0x0105, 2, false, false, false, [⟨8, 1, 0⟩]⟩,
  ⟨0x0201, 0, false, false, false, layoutArgs⟩,
  ⟨0x0202, 0, false, false, false, layoutArgs⟩,
  ⟨0x0203, 0, false, false, false, [⟨8, 1, 0⟩, ⟨32, 8, 0⟩]⟩,
  ⟨0x0204, 0, false, false, false, [⟨8, 1, 0⟩]⟩,
  ⟨0x0205, 0, false, false, false,
    [⟨8, 1, 0⟩, ⟨9, 1, 0⟩, ⟨10, 1, 0⟩, ⟨11, 1, 0⟩, ⟨12, 4, 0⟩, ⟨16, 4, 0⟩, ⟨20, 4, 0⟩, ⟨24, 4, 0⟩]⟩,
  ⟨0x0206, 3, true, true, false, [⟨8, 1, 0⟩]⟩,
  ⟨0x0207, 0, false, false, false, [⟨8, 1, 0⟩, ⟨9, 1, 0⟩, ⟨10, 2, 0⟩, ⟨12, 2, 0⟩]⟩,
  ⟨0x0301, 0, false, false, false, [⟨8, 1, 0⟩, ⟨9, 1, 0⟩, ⟨10, 1, 0⟩, ⟨11, 1, 0⟩, ⟨12, 4, 0⟩, ⟨16, 4, 0⟩, ⟨20, 4, 0⟩]⟩,
  ⟨0x0302, 0, false, false, false, [⟨8, 1, 0⟩, ⟨12, 4, 0⟩]⟩]

/-- Table 05-3, model to tick commands. -/
def cmdRowsB : List CmdRow := [
  ⟨0x0401, 2, false, false, false, [⟨8, 8, 0⟩, ⟨16, 8, 0⟩, ⟨24, 4, 0x7FF00000⟩]⟩,
  ⟨0x0402, 4, false, false, false, []⟩,
  ⟨0x0501, 0, false, false, false, [⟨8, 1, 0⟩, ⟨10, 2, 0⟩, ⟨12, 2, 0⟩, ⟨16, 4, 0⟩]⟩,
  ⟨0x0502, 0, false, true, false, [⟨8, 1, 0⟩, ⟨10, 2, 0⟩, ⟨12, 2, 0⟩, ⟨16, 4, 0⟩]⟩,
  ⟨0x0503, 0, false, false, false, [⟨8, 1, 0⟩, ⟨16, 8, 0⟩]⟩,
  ⟨0x0601, 0, false, false, false,
    [⟨8, 4, 0xFFFFFF00⟩, ⟨12, 1, 0⟩, ⟨13, 1, 0xC0⟩, ⟨14, 1, 0xC0⟩, ⟨16, 2, 0⟩, ⟨18, 1, 0⟩, ⟨20, 4, 0⟩, ⟨24, 8, 0⟩,
     ⟨32, 4, 0⟩, ⟨36, 2, 0⟩, ⟨38, 2, 0⟩, ⟨40, 2, 0xFE00⟩]⟩,
  ⟨0x0602, 0, false, false, false, []⟩,
  ⟨0x0603, 0, false, false, false, [⟨8, 8, 0⟩, ⟨16, 8, 0⟩]⟩,
  ⟨0x0604, 0, false, false, false,
    [⟨8, 2, 0⟩, ⟨10, 1, 0⟩, ⟨11, 1, 0⟩, ⟨12, 1, 0⟩, ⟨13, 1, 0⟩, ⟨14, 1, 0⟩, ⟨16, 8, 0⟩]⟩,
  ⟨0x0605, 0, false, false, false, [⟨8, 2, 0⟩, ⟨10, 1, 0⟩, ⟨16, 8, 0⟩]⟩]

/-- Table 05-3, recorder to power commands. -/
def cmdRowsC : List CmdRow := [
  ⟨0x0701, 0, false, true, true, [⟨8, 1, 0⟩, ⟨12, 4, 0⟩, ⟨16, 4, 0⟩, ⟨20, 4, 0⟩]⟩,
  ⟨0x0702, 0, false, false, false, [⟨8, 1, 0⟩, ⟨12, 4, 0⟩]⟩,
  ⟨0x0703, 0, false, true, true, [⟨8, 4, 0⟩, ⟨12, 4, 0⟩, ⟨16, 4, 0⟩]⟩,
  ⟨0x0704, 0, false, false, false, [⟨8, 4, 0⟩, ⟨12, 4, 0⟩, ⟨16, 4, 0⟩]⟩,
  ⟨0x0705, 0, false, false, false, [⟨8, 4, 0⟩, ⟨12, 4, 0⟩]⟩,
  ⟨0x0801, 0, false, true, true, [⟨8, 1, 0⟩]⟩,
  ⟨0x0802, 0, false, true, true, [⟨8, 1, 0⟩]⟩,
  ⟨0x0803, 0, false, true, false, [⟨8, 2, 0⟩, ⟨10, 2, 0⟩, ⟨12, 4, 0⟩, ⟨16, 4, 0⟩, ⟨20, 4, 0⟩]⟩,
  ⟨0x0901, 4, false, false, true, [⟨8, 32, 0⟩, ⟨40, 4, 0⟩, ⟨44, 4, 0⟩]⟩,
  ⟨0x0A01, 3, true, true, false, [⟨8, 1, 0⟩, ⟨12, 4, 0⟩]⟩,
  ⟨0x0B01, 0, false, false, false, [⟨8, 2, 0⟩]⟩,
  ⟨0x0B02, 0, false, false, true, [⟨8, 2, 0⟩]⟩,
  ⟨0x0C01, 0, false, false, false, [⟨8, 1, 0⟩]⟩,
  ⟨0x0C02, 0, false, false, false, [⟨8, 2, 0⟩]⟩]

/-- Table 05-3. -/
def cmdRows : List CmdRow := cmdRowsA ++ cmdRowsB ++ cmdRowsC

/-- The row of an opcode, if it is known (R167). -/
def cmdRow (op : Nat) : Option CmdRow := cmdRows.find? (fun r => r.op == op)

/-- Payload offsets at which a Reserved bit of the request is set: bytes that no table names by their own offset,
Reserved bits of a named field by the field's (R164). -/
def reservedOffsets (r : CmdRow) (p : List Byte) : List Nat :=
  let named := fun o => o < 2 || (4 ≤ o && o < 8) || r.args.any (fun f => decide (f.off ≤ o ∧ o < f.off + f.len))
  ((List.range 56).filter (fun o => !named o && p.getD o 0 != 0)) ++
    (r.args.filter (fun f => Nat.land (leAt p f.off f.len) f.resv != 0)).map (fun f => f.off)

/-- The lowest of a list of offsets. -/
def lowest : List Nat → Option Nat
  | [] => none
  | a :: t => some (t.foldl min a)

/-- STATE of VF `n`'s TDI (Table 08-17): 0 CONFIG_UNLOCKED, 1 CONFIG_LOCKED, 2 RUN, 3 ERROR. -/
def State.tdi (s : State) (n : Nat) : Nat := s.fld (F.SEC_TDI_STATE n)

/-- The caller may give this command (R179). -/
def State.permitted (s : State) (r : CmdRow) (c : Call) : Bool :=
  (match r.caller with
   | 0 => c.fn == 0
   | 1 => c.fn != 0
   | 2 => c.fn != 0 && s.tdi c.fn == 2
   | 3 => true
   | _ => c.fn == 0 || s.tdi c.fn == 2) &&
  (!r.self || c.fn == 0 || c.arg 8 1 == c.fn)

/-- The part is diagnostic-only (R105, R699). -/
def State.diagOnly (s : State) : Bool := s.bit F.BOOT_STATUS_DIAG_ONLY || s.fltState == 3

/-- Checks 3 to 6 of R163. -/
def State.preCheck (s : State) (r : CmdRow) (c : Call) : Option (Nat × Nat) :=
  if !s.permitted r c then some (0x14, 0)
  else if s.diagOnly && !(r.diag && (r.op != 0x0901 || s.bit F.SEC_STATUS_SELFTEST_PASS)) then some (0x17, 0)
  else if s.frozen && !r.frz then some (0x27, 0)
  else match lowest (reservedOffsets r c.p) with
    | some o => some (0x12, o)
    | none => none

/-! ### Taking and ending a request -/

/-- The command engine's token on port D (Table 04-8). -/
def engineToken : Nat := 0xC001

/-- VF slots in the order the round robin looks at them (R168). -/
def State.vfOrder (s : State) : List Nat := (List.range 63).map (fun i => (s.eng.lastVf + i) % 63 + 1)

/-- The slot the engine takes next (R168): slot 0 when it is posted, unless the last ended command came from it and a
VF slot is posted; else the next posted VF slot. -/
def State.nextSlot (s : State) : Option Nat :=
  let vf := s.vfOrder.find? (fun k => s.slotState k == 1)
  if s.pwr.mode != .on then none
  else if s.slotState 0 = 1 && !(s.eng.lastWasPf && vf.isSome) then some 0
  else vf

/-- A request or a buffer `[a, a + n)` that cannot be read: each bad word is met as any read meets it (R133), then the
command ends with DATA_ERROR, flagged and logged (R166). -/
def State.dataError (s : State) (fn a n : Nat) : Reply :=
  let s1 := ((wordsOf a n).filter s.hasUe).foldl State.eccUe s
  ((s1.setFld F.CMD_STATUS_DATA_ERROR_SEEN 1).log 0x0501 3 fn 0xFFFF fn 0).no 0x30 0

/-- What the engine answers to the request in slot `k` (R162, R163): the checks in order, then `body`. -/
def State.answer (s : State) (k : Nat) (body : Call → State → Reply) : Reply :=
  if bitsOf (s.trigger k) 47 40 ≠ 56 then s.no 0x13 0
  else if (wordsOf (slotAddr k) 56).any s.hasUe then s.dataError k (slotAddr k) 56
  else
    let c : Call := ⟨k, s.exmBytes (slotAddr k) 56⟩
    match cmdRow (c.arg 0 2) with
    | none => s.no 0x10 0
    | some r =>
      match s.preCheck r c with
      | some (st, d) => s.no st d
      | none => body c s

/-- The response payload (Table 05-2). -/
def response (p : List Byte) (r : Reply) : List Byte :=
  sliceOf p 0 2 ++ leBytes 1 r.status ++ leBytes 1 0 ++ sliceOf p 4 4 ++ leBytes 4 r.detail ++ fitTo 44 r.result

/-- End the request in slot `k`: counters, CMD_LAST, the response and the DONE write (R161). -/
def State.finish (k : Nat) (p : List Byte) (r : Reply) : State :=
  let s := r.st
  let s1 := if r.status ≤ 1 then s else s.bump F.CMD_CNT_REJECTED_COUNT
  let s2 := ((s1.setFld F.CMD_LAST_STATUS r.status).setFld F.CMD_LAST_FUNCTION k).setFld F.CMD_LAST_OPCODE (leAt p 0 2)
  let s3 := s2.exmPut (slotAddr k) (response p r)
  let s4 := s3.trigDone engineToken k (3 + r.status * 2 ^ 8 + 56 * 2 ^ 40)
  { s4 with eng := { s4.eng with lastWasPf := k == 0, lastVf := if k = 0 then s4.eng.lastVf else k } }

/-- Take the request in slot `k`, answer it and end it. -/
def State.serve (s : State) (k : Nat) (body : Call → State → Reply) : State :=
  let p := s.exmBytes (slotAddr k) 56
  let s1 := (s.trigTake engineToken k).bump F.CMD_CNT_TAKEN_COUNT
  State.finish k p (s1.answer k body)

/-- The engine executes the next request, when it holds opcode `op`. `ups` are the errors found in its payload and its
buffer (R166). -/
def State.command (s : State) (op : Nat) (ups : Upsets) (body : Call → State → Reply) : Res :=
  match s.nextSlot with
  | none => .next s
  | some k => if s.exmLe (slotAddr k) 2 = op then .next ((s.upset ups).serve k body) else .next s

/-! ### Buffers (R181) -/

/-- `len` bytes at exchange address `a` form a valid buffer of the caller. -/
def State.bufferOk (s : State) (fn a len : Nat) : Bool :=
  a % 8 == 0 &&
  (if fn = 0 then (wordsOf a len).all (fun w => s.mayAccess ⟨1, 1, 0⟩ w true && !s.inSema w && decide (w < 0x7F0000))
   else (List.range 128).any (fun r =>
     let g := s.region r
     g.kind == 1 && g.vf == fn && !g.sema && decide (g.base ≤ a ∧ a + len ≤ g.base + g.size)))

/-- A word of the buffer holds an uncorrectable error. -/
def State.bufferUe (s : State) (a len : Nat) : Bool := (wordsOf a len).any s.hasUe

/-- Write a buffer as whole words, the last one filled with zeros (R181). -/
def State.bufferPut (s : State) (a : Nat) (bs : List Byte) : State :=
  let s1 := s.exmPut a (fitTo ((bs.length + 7) / 8 * 8) bs)
  { s1 with exm := { s1.exm with ue := fclear s1.exm.ue a (a + bs.length) } }

/-! ### Jobs (R170 to R174, Table 05-14) -/

/-- Job unit `j`. -/
def State.job (s : State) (j : Nat) : Job := fget (fun _ => ({} : Job)) s.eng.units j

/-- Change job unit `j`. -/
def State.modJob (s : State) (j : Nat) (f : Job → Job) : State :=
  { s with eng := { s.eng with units := fmod (fun _ => ({} : Job)) s.eng.units j f } }

/-- Units with a running or paused job. -/
def State.running (s : State) : List Nat := (List.range 4).filter (fun j => (s.job j).state == 1)

/-- The unit a new job takes: an empty one, else the one whose job ended earliest (note under Table 05-14). -/
def State.freeUnit (s : State) : Option Nat :=
  match (List.range 4).find? (fun j => (s.job j).state == 0) with
  | some j => some j
  | none =>
    let e := (List.range 4).filter (fun j => (s.job j).state == 3)
    e.find? (fun j => e.all (fun i => decide ((s.job j).endAt ≤ (s.job i).endAt)))

/-- A further job of `fn` would break a limit of R171. -/
def State.jobLimit (s : State) (fn : Nat) : Bool :=
  decide (4 ≤ s.running.length) || s.running.any (fun j => (s.job j).fn == fn)

/-- A LOG_CLEAR or NVM_ERASE job runs (R171). -/
def State.norJob (s : State) : Bool := s.running.any (fun j => (s.job j).op == 0x0702 || (s.job j).op == 0x0705)

/-- The running job with this opcode: its unit. -/
def State.jobOf (s : State) (op : Nat) : Option Nat := s.running.find? (fun j => (s.job j).op == op)

/-- The next job number of a function: 1 to 65,535, then 1 again (R170). -/
def State.nextJob (s : State) (fn : Nat) : Nat := fget (fun _ => 0) s.eng.lastJob fn % 65535 + 1

/-- Start a job with these parameters; the command ends with JOB_STARTED and JOB (R170). -/
def State.startJob (s : State) (c : Call) (total a b x : Nat) : Reply :=
  match s.freeUnit with
  | none => s.no 0x16 0
  | some j =>
    let n := s.nextJob c.fn
    let job : Job := { state := 1, num := n, fn := c.fn, op := c.arg 0 2, tag := c.arg 4 4, total := total,
                       a := a, b := b, c := x, beganClk := s.runClk }
    let s1 := s.modJob j (fun _ => job)
    ⟨{ s1 with eng := { s1.eng with lastJob := fset (fun _ => 0) s1.eng.lastJob c.fn n } }, 1, 0, leBytes 2 n⟩

/-- A change of an event bit of VF `n` sends a message on its vector 1 (R232). -/
def State.vfEvent (s : State) (n b : Nat) : State :=
  let f : Fld := ⟨R.QIF_VF_EVENT n, b, b⟩
  if s.bit f then s else (s.setFld f 1).notify n 1

/-- Job unit `j` ends with this status and DETAIL: recorded, signalled to PF0, and to the VF whose job it was
(R172). How far a job came that did not succeed is a free value (log entry 4). -/
def State.endJob (s : State) (j status detail : Nat) : State :=
  let x := s.job j
  let s1 := s.modJob j (fun x => { x with state := 3, final := status, detail := detail, endAt := s.eng.ended + 1,
                                           progress := if status = 0 then x.total else s.free.toNat % (x.total + 1) })
  let s2 : State := { s1.drawn with eng := { s1.eng with ended := s1.eng.ended + 1 } }
  let s3 := if s2.bit F.CMD_STATUS_JOB_DONE then s2 else (s2.setFld F.CMD_STATUS_JOB_DONE 1).notify 0 1
  if x.fn = 0 || 64 ≤ x.fn then s3
  else ((s3.setFld (F.QIF_VF_JOB_JOB x.fn) x.num).setFld (F.QIF_VF_JOB_FINAL_STATUS x.fn) status).vfEvent x.fn 0

/-! ### Boundary targets (R175) -/

/-- The boundary that AT_TICK selects, or the status it ends with: 0 is the current count plus 2. -/
def State.atTick (s : State) (at_ : Nat) : Nat ⊕ Nat :=
  if at_ = 0 then .inr (s.tickCount + 2)
  else if at_ < s.tickCount + 2 then .inl 0x1B
  else if s.tickCount + 2 + 2 ^ 32 < at_ then .inl 0x11
  else .inr at_

/-- While an uncontained fault's recovery runs (R696). -/
def State.recovering (s : State) : Bool := s.fltState == 1

/-! ### The general commands -/

/-- UNKNOWN_OPCODE: the next request has an opcode that Table 05-3 does not list, or a LEN other than 56 (R162,
R167). -/
def execUnknownOpcode (ups : Upsets) (s : State) : Res :=
  match s.nextSlot with
  | none => .next s
  | some k =>
    if (cmdRow (s.exmLe (slotAddr k) 2)).isNone || bitsOf (s.trigger k) 47 40 != 56 then
      .next ((s.upset ups).serve k (fun _ s => s.no 0x10 0))
    else .next s

/-- NOP (R182). -/
def execNop (ups : Upsets) (s : State) : Res := s.command 0x0001 ups (fun _ s => s.ok [])

/-- IDENTIFY (Table 05-8). -/
def execIdentify (ups : Upsets) (s : State) : Res :=
  s.command 0x0002 ups (fun c s =>
    s.ok (leBytes 2 (s.fld F.CMD_LEVEL_LEVEL) ++ leBytes 1 c.fn ++ leBytes 1 (s.fld F.SLC_TEN_STATUS_STATE) ++
      leBytes 1 s.fused.stepping ++ leBytes 1 (b2n s.frozen)))

/-- The caller's running job and its most recently ended one, as unit numbers (R173). -/
def State.jobsOf (s : State) (fn : Nat) : List Nat :=
  let ended := (List.range 4).filter (fun j => (s.job j).state == 3 && (s.job j).fn == fn)
  s.running.filter (fun j => (s.job j).fn == fn) ++
    ended.filter (fun j => ended.all (fun i => decide ((s.job i).endAt ≤ (s.job j).endAt)))

/-- JOB_STATUS (R173, Table 05-8). PROGRESS of a running job is a free value up to TOTAL (log entry 4). -/
def execJobStatus (ups : Upsets) (s : State) : Res :=
  s.command 0x0003 ups (fun c s =>
    match (s.jobsOf c.fn).find? (fun j => (s.job j).num == c.arg 8 2) with
    | none => s.no 0x28 0
    | some j =>
      let x := s.job j
      let done := if x.state = 3 then x.progress else s.free.toNat % (x.total + 1)
      s.drawn.ok (leBytes 2 x.num ++ leBytes 2 x.op ++ leBytes 1 (if x.state = 3 then 2 else b2n s.frozen) ++
        leBytes 1 x.final ++ leBytes 2 0 ++ leBytes 4 x.detail ++ leBytes 4 x.tag ++ leBytes 8 done ++ leBytes 8 x.total))

end Sys2Proof.Machine
end

