-- ==== Sys2Proof/Machine/Accounts.lean ====
section
/-! DEFINITION. Accounting records (chapter 15): what a slice has used, as of the last boundary. -/

namespace Sys2Proof.Machine

/-- The account of VF `n` as of the last boundary; 0 is the unattributed one (R560). -/
def State.acctAt (s : State) (n : Nat) : Account := fget (fun _ => ({} : Account)) s.sch.acctAt n

/-- Change the live account of VF `n`. -/
def State.modAcct (s : State) (n : Nat) (f : Account → Account) : State :=
  { s with sch := { s.sch with acct := fmod (fun _ => ({} : Account)) s.sch.acct n f } }

/-- `v` rounded down to a multiple of `m` (R560). -/
def roundDown (v m : Nat) : Nat := v / m * m

/-- The 256 bytes of the ACCT_READ record (Table 15-7), rounded as R560 says. Of the unattributed record only engine
time class 0 and ENERGY_UJ are nonzero. -/
def State.acctRecord (s : State) (n : Nat) : List Byte :=
  let a := s.acctAt n
  let own := fun (v : Nat) => if n = 0 then 0 else v
  let eng := (List.range 8).map (fun i => leBytes 8 (if n = 0 && i != 0 then 0 else roundDown (a.engineNs.getD i 0) 1000))
  let head := leBytes 4 0x54434341 ++ leBytes 1 n ++ leBytes 3 0 ++ leBytes 8 s.sch.acctTick ++ leBytes 8 s.sch.acctTai ++
    leBytes 4 (s.fld F.SLC_TEN_ID_TENANCY_ID) ++ leBytes 4 0
  let bytes := ([a.hbm, a.commons, a.host, a.ring].map (fun v => leBytes 8 (own (roundDown v 65536)))).flatten
  let rest := leBytes 8 (roundDown (a.energy / 1000000) 1000) ++ leBytes 8 (own a.busy) ++ leBytes 2 (own a.slowdown) ++
    leBytes 2 (own a.avg) ++ leBytes 2 (own a.fIssue) ++ leBytes 2 (own a.fMem) ++ leBytes 2 (own a.fEng) ++ leBytes 6 0 ++
    leBytes 8 (own a.rtSlots) ++ leBytes 8 (own a.rtMisses) ++ leBytes 8 (own a.switchesOut)
  fitTo 256 (head ++ eng.flatten ++ bytes ++ rest)

/-- ACCT_READ: the accounting record of a slice, or of unattributed use for VF 0, into the caller's buffer (R206,
R560). -/
def execAcctRead (ups : Upsets) (s : State) : Res :=
  s.command 0x0A01 ups (fun c s =>
    let n := c.arg 8 1
    let a := c.arg 12 4
    if 63 < n then s.no 0x11 8
    else if !s.bufferOk c.fn a 256 then s.no 0x18 12
    else if n != 0 && s.sliceState n == 0 then s.no 0x15 0
    else (s.bufferPut a (s.acctRecord n)).ok [])

/-- The accounting snapshots a release takes (R260, R720): each slice, then the unattributed record. -/
def State.acctSnapshots (s : State) : State :=
  let body := fun (s : State) (n : Nat) => (List.range 8).map (fun u => sliceOf (s.acctRecord n) (32 * u) 32)
  (s.sliced ++ [0]).foldl (fun s n => s.snapshot 0x0083 1 n (body s n)) s

end Sys2Proof.Machine
end

