-- ==== Sys2Proof/Machine/Float.lean ====
section
/-! DEFINITION. Number formats and arithmetic: exact values, the one rounding to a format, and the functions with a
stated error bound (R420 to R423, R457, R458, R519, R520). -/

namespace Sys2Proof.Machine

/-- An exact value: `fin neg m e` is (−1)^neg × m × 2^e. -/
inductive Num where
  | nan
  | inf (neg : Bool)
  | fin (neg : Bool) (m : Nat) (e : Int)
deriving DecidableEq, Repr

/-- A floating-point format: exponent and fraction bits, bias, and its special values: 0 infinities and NaN as
IEEE 754 has them, 1 NaN only at all ones (E4M3), 2 none (R458). -/
structure Fmt where
  eb : Nat
  mb : Nat
  bias : Nat
  kind : Nat
deriving DecidableEq, Repr

def f32 : Fmt := ⟨8, 23, 127, 0⟩
def bf16 : Fmt := ⟨8, 7, 127, 0⟩
def f16 : Fmt := ⟨5, 10, 15, 0⟩
def e4m3 : Fmt := ⟨4, 3, 7, 1⟩
def e5m2 : Fmt := ⟨5, 2, 15, 0⟩
def e3m2 : Fmt := ⟨3, 2, 3, 2⟩
def e2m3 : Fmt := ⟨2, 3, 1, 2⟩
def e2m1 : Fmt := ⟨2, 1, 1, 2⟩

/-- Decode the low bits of `n` in a format, exactly (R457). -/
def Fmt.decode (f : Fmt) (n : Nat) : Num :=
  let m := n % 2 ^ f.mb
  let e := n / 2 ^ f.mb % 2 ^ f.eb
  let neg := tst n (f.eb + f.mb)
  let ones := e + 1 == 2 ^ f.eb
  if f.kind = 0 && ones then (if m = 0 then .inf neg else .nan)
  else if f.kind = 1 && ones && m + 1 == 2 ^ f.mb then .nan
  else if e = 0 then .fin neg m (1 - (f.bias : Int) - f.mb)
  else .fin neg (2 ^ f.mb + m) ((e : Int) - f.bias - f.mb)

/-- The code of the largest finite magnitude. -/
def Fmt.maxCode (f : Fmt) : Nat :=
  if f.kind = 0 then (2 ^ f.eb - 1) * 2 ^ f.mb - 1
  else if f.kind = 1 then 2 ^ (f.eb + f.mb) - 2
  else 2 ^ (f.eb + f.mb) - 1

/-- The NaN every NaN result is: in FP32 0x7FC0_0000 (R420). In a narrower format the same bits of it; DEDUCED (log
entry 22). -/
def Fmt.nan (f : Fmt) : Nat :=
  if f.kind = 1 then 2 ^ (f.eb + f.mb) - 1 else (2 ^ f.eb - 1) * 2 ^ f.mb + 2 ^ (f.mb - 1)

/-- 2 to the power of the positive part of an integer. -/
def pow2 (e : Int) : Nat := 2 ^ e.toNat

/-- The exponent of the last place that a value m × 2^e has in a format, subnormals included. -/
def Fmt.lastPlace (f : Fmt) (m : Nat) (e : Int) : Int :=
  max ((Nat.log2 m : Int) + e - f.mb) (1 - (f.bias : Int) - f.mb)

/-- Whether the dropped part `r` of `d` rounds the magnitude `q` up, in mode 0 nearest even, 1 toward zero, 2 down,
3 up (Table 11-5). -/
def roundsUp (mode : Nat) (neg : Bool) (q r d : Nat) : Bool :=
  match mode with
  | 0 => decide (d < 2 * r) || (2 * r == d && q % 2 == 1)
  | 1 => false
  | 2 => neg && r != 0
  | _ => !neg && r != 0

/-- Magnitude code of m × 2^e rounded in a format, unbounded above. -/
def Fmt.roundCode (f : Fmt) (mode : Nat) (neg : Bool) (m : Nat) (e : Int) : Nat :=
  let q := f.lastPlace m e
  let d := pow2 (q - e)
  let x := m * pow2 (e - q)
  let k := x / d + b2n (roundsUp mode neg (x / d) (x % d) d)
  (q - (1 - (f.bias : Int) - f.mb)).toNat * 2 ^ f.mb + k

/-- Encode an exact value in a format, rounded once; `sat` keeps a result beyond the largest finite value at that
value (R420, R423). A format without infinities takes its NaN in their place, or its largest value if it has none. -/
def Fmt.encode (f : Fmt) (mode : Nat) (sat : Bool) (x : Num) : Nat :=
  let signed := fun (neg : Bool) (c : Nat) => c + b2n neg * 2 ^ (f.eb + f.mb)
  let infinite := fun (neg : Bool) =>
    if f.kind = 0 then signed neg (f.maxCode + 1) else if f.kind = 1 then f.nan else signed neg f.maxCode
  match x with
  | .nan => f.nan
  | .inf neg => if sat then signed neg f.maxCode else infinite neg
  | .fin neg m e =>
    if m = 0 then signed neg 0
    else
      let c := f.roundCode mode neg m e
      if c ≤ f.maxCode then signed neg c
      else if sat || mode == 1 || (mode == 2 && !neg) || (mode == 3 && neg) then signed neg f.maxCode
      else infinite neg

/-! ### Exact arithmetic -/

def Num.neg : Num → Num
  | .nan => .nan
  | .inf s => .inf (!s)
  | .fin s m e => .fin (!s) m e

def Num.abs : Num → Num
  | .nan => .nan
  | .inf _ => .inf false
  | .fin _ m e => .fin false m e

/-- The signed integer of a finite value at a common exponent. -/
def atExp (neg : Bool) (m : Nat) (e lo : Int) : Int :=
  let v : Int := (m * pow2 (e - lo) : Nat)
  if neg then -v else v

/-- The finite value i × 2^e; a zero has sign `z`. -/
def ofInt (i : Int) (e : Int) (z : Bool) : Num :=
  if i = 0 then .fin z 0 e else .fin (decide (i < 0)) i.natAbs e

/-- Exact sum; an exact zero is negative only when both are, or when rounding down (IEEE 754-2019, 6.3). -/
def Num.add (mode : Nat) : Num → Num → Num
  | .nan, _ => .nan
  | _, .nan => .nan
  | .inf a, .inf b => if a = b then .inf a else .nan
  | .inf a, _ => .inf a
  | _, .inf b => .inf b
  | .fin sa ma ea, .fin sb mb eb =>
    let lo := min ea eb
    let z := if ma = 0 && mb == 0 && sa == sb then sa else mode == 2
    ofInt (atExp sa ma ea lo + atExp sb mb eb lo) lo z

/-- Exact product. -/
def Num.mul : Num → Num → Num
  | .nan, _ => .nan
  | _, .nan => .nan
  | .inf a, .inf b => .inf (a != b)
  | .inf a, .fin b m _ => if m = 0 then .nan else .inf (a != b)
  | .fin a m _, .inf b => if m = 0 then .nan else .inf (a != b)
  | .fin a m e, .fin b n g => .fin (a != b) (m * n) (e + g)

/-- −1, 0 or 1 as the first value is below, equal to or above the second; none when either is a NaN. -/
def Num.cmp : Num → Num → Option Int
  | .nan, _ => none
  | _, .nan => none
  | .inf a, .inf b => some (if a = b then 0 else if a then -1 else 1)
  | .inf a, _ => some (if a then -1 else 1)
  | _, .inf b => some (if b then 1 else -1)
  | .fin sa ma ea, .fin sb mb eb =>
    let lo := min ea eb
    some (Int.sign (atExp sa ma ea lo - atExp sb mb eb lo))

def Num.isNeg : Num → Bool
  | .nan => false
  | .inf s => s
  | .fin s _ _ => s

/-- minimumNumber and maximumNumber (IEEE 754-2019, 9.6): −0 is below +0. -/
def Num.least (a b : Num) : Num :=
  match a.cmp b with
  | none => if a = .nan then b else a
  | some c => if c < 0 then a else if 0 < c then b else if a.isNeg then a else b

def Num.most (a b : Num) : Num :=
  match a.cmp b with
  | none => if a = .nan then b else a
  | some c => if 0 < c then a else if c < 0 then b else if a.isNeg then b else a

/-- A result clamped to [0.0, 1.0]; a NaN clamps to 0.0 (R420). -/
def Num.clamp01 (x : Num) : Num :=
  match x with
  | .nan => .fin false 0 0
  | _ =>
    if x.cmp (.fin false 0 0) = some (-1) then .fin false 0 0
    else if x.cmp (.fin false 1 0) = some 1 then .fin false 1 0
    else x

/-- Round to an integer in a mode (R423). -/
def Num.toInt (mode : Nat) : Num → Option Int
  | .fin neg m e =>
    let d := pow2 (-e)
    let x := m * pow2 e
    let k : Int := (x / d + b2n (roundsUp mode neg (x / d) (x % d) d) : Nat)
    some (if neg then -k else k)
  | _ => none

/-- A float-to-integer conversion into [lo, hi]: it saturates, and a NaN becomes 0 (R423). -/
def Num.toIntSat (mode : Nat) (lo hi : Int) (x : Num) : Int :=
  match x with
  | .nan => 0
  | .inf s => if s then lo else hi
  | _ => match x.toInt mode with | some i => max lo (min hi i) | none => 0

/-- Round a value to FP32, to nearest even, and keep it as a value. -/
def Num.r32 (x : Num) : Num := f32.decode (f32.encode 0 false x)

/-! ### The element types of the command layer (Table 06-11) -/

/-- The format of a DTYPE code that is a plain float, or of the elements of an MX type. -/
def dtFmt (c : Nat) : Option Fmt :=
  match c with
  | 1 => some f32
  | 2 => some bf16
  | 3 => some f16
  | 4 => some e4m3
  | 5 => some e5m2
  | 6 => some e4m3
  | 7 => some e5m2
  | 8 => some e3m2
  | 9 => some e2m3
  | 10 => some e2m1
  | _ => none

/-- Bits of an element of a DTYPE code; 0 for a reserved one. -/
def dtBits (c : Nat) : Nat :=
  match c with
  | 1 => 32
  | 2 => 16
  | 3 => 16
  | 4 => 8
  | 5 => 8
  | 6 => 8
  | 7 => 8
  | 8 => 6
  | 9 => 6
  | 10 => 4
  | 11 => 8
  | 12 => 4
  | 13 => 32
  | _ => 0

/-! ### Functions with an error bound

They are computed as fixed-point numbers with 160 fraction bits, far beyond every stated bound. -/

/-- The fixed-point scale. -/
def fx : Nat := 2 ^ 160

def fxOf (neg : Bool) (m : Nat) (e : Int) : Int :=
  let v : Int := (m * pow2 (e + 160) / pow2 (-(e + 160)) : Nat)
  if neg then -v else v

def fxMul (a b : Int) : Int := a * b / (fx : Int)
def fxDiv (a b : Int) : Int := a * (fx : Int) / b

/-- A power series: from term `t` with index `k`, add and step `n` times. -/
def series (next : Int → Nat → Int) : Nat → Nat → Int → Int
  | 0, _, _ => 0
  | n + 1, k, t => t + series next n (k + 1) (next t k)

/-- e^x for a small |x|. -/
def fxExp (x : Int) : Int := series (fun t k => fxMul t x / ((k : Int) + 1)) 60 0 (fx : Int)

/-- Σ y^(2k + 1) ÷ (2k + 1), with the sign of each term given by `alt`. -/
def fxAtan (alt : Bool) (y : Int) : Int :=
  let rec go : Nat → Nat → Int → Int
    | 0, _, _ => 0
    | n + 1, k, p =>
      let t := p / (2 * (k : Int) + 1)
      (if alt && k % 2 == 1 then -t else t) + go n (k + 1) (fxMul p (fxMul y y))
  go 90 0 y

/-- ln 2, π and log2 of y in [1, 2). -/
def fxLn2 : Int := 2 * fxAtan false ((fx : Int) / 3)
def fxPi : Int := 16 * fxAtan true ((fx : Int) / 5) - 4 * fxAtan true ((fx : Int) / 239)
def fxLog2 (y : Int) : Int := fxDiv (2 * fxAtan false (fxDiv (y - (fx : Int)) (y + (fx : Int)))) fxLn2

/-- 2^x as m × 2^e. -/
def exp2Fx (x : Int) : Num :=
  let n := x / (fx : Int)
  .fin false (fxExp (fxMul (x - n * (fx : Int)) fxLn2)).toNat (n - 160)

/-- sin and cos. -/
def fxSin (x : Int) : Int :=
  let r := x - 2 * fxPi * ((x + fxPi) / (2 * fxPi))
  series (fun t k => -(fxMul t (fxMul r r)) / ((2 * (k : Int) + 2) * (2 * (k : Int) + 3))) 60 0 r
def fxCos (x : Int) : Int := fxSin (x + fxPi / 2)

/-- The integer square root, bit by bit. -/
def isqrt (n : Nat) : Nat :=
  (List.range (Nat.log2 n / 2 + 1)).reverse.foldl (fun r b => if (r + 2 ^ b) * (r + 2 ^ b) ≤ n then r + 2 ^ b else r) 0

/-- 1/a to 160 bits. -/
def rcpOf (neg : Bool) (m : Nat) (e : Int) : Num :=
  let k := 200 + Nat.log2 m
  .fin neg (2 ^ k / m) (-e - k)

/-- 1/√(m × 2^e). -/
def rsqOf (m : Nat) (e : Int) : Num :=
  let e2 := if e % 2 = 0 then e else e - 1
  let m2 := if e % 2 = 0 then m else 2 * m
  let k := 200 + Nat.log2 m2
  .fin false (isqrt (2 ^ (2 * k) / m2)) (-(e2 / 2) - k)

/-- The functions by number: 0 reciprocal, 1 reciprocal square root, 2 2^a, 3 log2 a, 4 sin a, 5 cos a, 6 tanh a,
7 e^a, 8 silu, 9 gelu. An infinity takes the function's limit where it has one
(DEDUCED, log entry 23). None where the spec states no value: a NaN, a pole, an argument outside the domain or beyond
the stated range. -/
def funcOf (fn : Nat) (x : Num) : Option Num :=
  match x with
  | .fin neg m e =>
    let v := fxOf neg m e
    let small := decide ((Nat.log2 m : Int) + e < -20)
    let expOf := fun (y : Int) => exp2Fx (fxDiv y fxLn2)
    let fixed := fun (i : Int) => ofInt i (-160) neg
    match fn with
    | 0 => if m = 0 then none else some (rcpOf neg m e)
    | 1 => if m = 0 || neg then none else some (rsqOf m e)
    | 2 => some (if v > 400 * (fx : Int) then .fin false 1 400 else if v < -400 * (fx : Int) then .fin false 1 (-400) else exp2Fx v)
    | 3 =>
      if m = 0 || neg then none
      else
        let l := Nat.log2 m
        let y : Int := (m * 2 ^ 160 / 2 ^ l : Nat)
        some (ofInt (fxLog2 y + ((l : Int) + e) * (fx : Int)) (-160) false)
    | 4 => if v.natAbs > (100 * fxPi).toNat then none else some (fixed (fxSin v))
    | 5 => if v.natAbs > (100 * fxPi).toNat then none else some (ofInt (fxCos v) (-160) false)
    | 6 =>
      if small then some ((Num.fin neg m e).add 0 ((Num.fin (!neg) (m * m * m) (3 * e)).mul (.fin false (fx / 3) (-160))))
      else if v.natAbs > 40 * fx then some (.fin neg 1 0)
      else
        let p := fxExp (2 * v / 256)
        let q := (List.range 8).foldl (fun a _ => fxMul a a) p
        some (fixed (fxDiv (q - (fx : Int)) (q + (fx : Int))))
    | 7 => some (if v > 400 * (fx : Int) then .fin false 1 400 else if v < -400 * (fx : Int) then .fin false 1 (-400) else expOf v)
    | 8 =>
      if v > 100 * (fx : Int) then some (.fin neg m e)
      else if v < -100 * (fx : Int) then some (.fin true 0 0)
      else
        let q := (List.range 8).foldl (fun a _ => fxMul a a) (fxExp (-v / 256))
        some ((Num.fin neg m e).mul (.fin false (fxDiv (fx : Int) ((fx : Int) + q)).toNat (-160)))
    | _ =>
      let u := fxMul ((797885 * fx / 1000000 : Nat) : Int) (v + fxMul ((44715 * fx / 1000000 : Nat) : Int) (fxMul v (fxMul v v)))
      if v > 20 * (fx : Int) then some (.fin neg m e)
      else if v < -20 * (fx : Int) then some (.fin true 0 0)
      else
        let q := (List.range 10).foldl (fun a _ => fxMul a a) (fxExp (2 * max (-60 * (fx : Int)) (min u (60 * (fx : Int))) / 1024))
        some ((Num.fin neg m e).mul (.fin false (fxDiv q (q + (fx : Int))).toNat (-160)))
  | .inf neg =>
    match fn with
    | 0 => some (.fin neg 0 0)
    | 1 => if neg then none else some (.fin false 0 0)
    | 2 => some (if neg then .fin false 0 0 else .inf false)
    | 6 => some (.fin neg 1 0)
    | 7 => some (if neg then .fin false 0 0 else .inf false)
    | _ => none
  | .nan => none

/-- A value a bound allows: the FP32 code nearest to the exact value moved by a part of the tolerance that `draw`
picks, when it lies within the tolerance, else the nearest code to the exact value. -/
def within (tol exact : Num) (draw : Nat) : Nat :=
  let t : Num := ofInt ((draw % 2 ^ 32 : Nat) - (2 ^ 31 : Int)) (-31) false
  let c := f32.encode 0 false (exact.add 0 (tol.mul t))
  let off := ((f32.decode c).add 0 exact.neg).abs
  if off.cmp (tol.mul (.fin false (2 ^ 40 + 1) (-40))) = some 1 then f32.encode 0 false exact else c

/-- `k` units in the last place of an exact value, in FP32. -/
def ulps (k : Nat) (x : Num) : Num :=
  match x with
  | .fin _ m e => if m = 0 then .fin false k (-149) else .fin false k (f32.lastPlace m e)
  | _ => .fin false 0 0

/-- FP32 result of a bounded function of Table 11-5 or 14-5. Where the spec states no value it is the draw itself, a
NaN being 0x7FC0_0000. -/
def boundedFn (fn : Nat) (x : Num) (draw : Nat) : Nat :=
  match funcOf fn x with
  | none => let c := draw % 2 ^ 32; if f32.decode c = .nan then f32.nan else c
  | some r =>
    match fn with
    | 0 => within (ulps 1 r) r draw
    | 1 => within (ulps 1 r) r draw
    | 4 => within (.fin false 1 (-21)) r draw
    | 5 => within (.fin false 1 (-21)) r draw
    | 8 => within ((ulps 4 r).most (.fin false 1 (-24))) r draw
    | 9 => within ((ulps 4 r).most (.fin false 1 (-24))) r draw
    | _ => within (ulps 2 r) r draw

end Sys2Proof.Machine
end

