-- ==== Sys2Proof/Machine/Clusters.lean ====
section
/-! DEFINITION. Yarrow clusters (chapter 10): contexts, their placement, store buffers and caches, and what stopping a
context leaves. -/

namespace Sys2Proof.Machine

/-! ### Contexts, clusters, units -/

/-- The context in slot `k % 8` of cluster `k / 8`. -/
def State.ctx (s : State) (k : Nat) : Option Ctx := fget (fun _ => none) s.yar.ctxs k

def State.setCtx (s : State) (k : Nat) (x : Option Ctx) : State :=
  { s with yar := { s.yar with ctxs := fset (fun _ => none) s.yar.ctxs k x } }

def State.modCtx (s : State) (k : Nat) (f : Ctx → Ctx) : State :=
  match s.ctx k with | some x => s.setCtx k (some (f x)) | none => s

/-- Group `g` of a context. -/
def Ctx.group (x : Ctx) (g : Nat) : Group := fget (fun _ => ({} : Group)) x.grp g

def Ctx.setGroup (x : Ctx) (g : Nat) (y : Group) : Ctx := { x with grp := fset (fun _ => ({} : Group)) x.grp g y }

def State.modGroup (s : State) (k g : Nat) (f : Group → Group) : State :=
  s.modCtx k (fun x => x.setGroup g (f (x.group g)))

def State.cluster (s : State) (c : Nat) : Cluster := fget (fun _ => ({} : Cluster)) s.yar.clusters c

def State.modCluster (s : State) (c : Nat) (f : Cluster → Cluster) : State :=
  { s with yar := { s.yar with clusters := fmod (fun _ => ({} : Cluster)) s.yar.clusters c f } }

def State.munit (s : State) (u : Nat) : MUnit := fget (fun _ => ({} : MUnit)) s.yar.units u

def State.modUnit (s : State) (u : Nat) (f : MUnit → MUnit) : State :=
  { s with yar := { s.yar with units := fmod (fun _ => ({} : MUnit)) s.yar.units u f } }

def State.launchOf (s : State) (id : Nat) : Option Launch := s.yar.launches.find? (fun l => l.id == id)

def State.modLaunch (s : State) (id : Nat) (f : Launch → Launch) : State :=
  { s with yar := { s.yar with launches := s.yar.launches.map (fun l => if l.id = id then f l else l) } }

/-- A counter that counts only while the tenancy's debug consent is set (R410). -/
def State.count (s : State) (a n : Nat) : State :=
  if s.bit F.SLC_TEN_STATUS_DEBUG_CONSENT then s.addFld ⟨a, 31, 0⟩ n else s

/-- Context keys of a cluster, and of the whole part. -/
def slotsOf (c : Nat) : List Nat := (List.range 8).map (8 * c + ·)

/-- Slot `k` holds a context, or one on its way to it. -/
def State.taken (s : State) (k : Nat) : Option Ctx :=
  match s.ctx k with
  | some x => some x
  | none => s.yar.ctxs.findSome? (fun e => match e.2 with | some x => if x.moveTo = k + 1 then some x else none | none => none)

/-- The contexts resident on cluster `c`, those on their way to it included. -/
def State.residents (s : State) (c : Nat) : List Ctx := (slotsOf c).filterMap s.taken

/-- Every resident context with its key. -/
def State.contexts (s : State) : List (Nat × Ctx) :=
  s.yar.ctxs.filterMap (fun e => e.2.map (fun x => (e.1, x)))

/-! ### Room (R367 to R374) -/

/-- Local-store bytes of a SPLIT code (Table 06-7). -/
def localSize (split : Nat) : Nat := (512 - 128 * split) * 1024

/-- What one context of a launch needs: groups, registers in each lane of a group, local-store share, split. -/
structure Need where
  groups : Nat
  laneRegs : Nat
  share : Nat
  split : Nat
deriving DecidableEq, Repr

/-- lane_regs (R369). -/
def Kernel.laneRegs (k : Kernel) : Nat := if k.isa = 1 then 192 else (k.regs + 7) / 8 * 8

/-- The image's code holds a matrix-issue instruction (R415). -/
def Kernel.matrixImage (k : Kernel) : Bool := (List.range (k.code.length / 8)).any (fun i => k.code.getD (8 * i + 7) 0 == 0x90)

/-- The local-store share of a context (R370). -/
def Kernel.share (k : Kernel) : Nat := (k.argBytes + 63) / 64 * 64 + k.localBytes + (if k.matrixImage then 32768 else 0)

def Kernel.need (k : Kernel) (groups : Nat) : Need := ⟨groups, k.laneRegs, k.share, k.split⟩

/-- A context with this need fits beside these residents (R367, R369, R370, Table 10-1). -/
def fits (res : List Ctx) (n : Need) : Bool :=
  decide (res.length < 8) && decide (n.groups + res.foldl (fun t x => t + x.groups) 0 ≤ 64) &&
    (List.range 4).all (fun i =>
      decide (groupsOn n.groups i * n.laneRegs + res.foldl (fun t x => t + groupsOn x.groups i * x.laneRegs) 0 ≤ 512) &&
      decide (groupsOn n.groups i + res.foldl (fun t x => t + groupsOn x.groups i) 0 ≤ 16)) &&
    decide (n.share + res.foldl (fun t x => t + x.share) 0 ≤ localSize n.split) &&
    res.all (fun x => x.split == n.split)

/-- Clusters of VF `n` on which contexts may be placed: usable and not draining (R272, R373). -/
def State.placeable (s : State) (n : Nat) : List Nat :=
  (bitList (s.clustersOf n) 48).filter (fun c => tst s.usableClusters c && !tst s.draining c)

/-- A context of VF `n` has room on cluster `c` (R373). -/
def State.room (s : State) (c : Nat) (n : Need) : Bool := fits (s.residents c) n

/-! ### Store buffers and caches (R389 to R393) -/

def State.sbuf (s : State) (c i : Nat) : List SbEntry := fget (fun _ => []) (s.cluster c).sb i

def State.setSbuf (s : State) (c i : Nat) (l : List SbEntry) : State :=
  s.modCluster c (fun x => { x with sb := fset (fun _ => []) x.sb i l })

/-- Put a byte at a DPA, in memory and in the cluster's copy of its line (R389). -/
def State.writeThrough (s : State) (c d : Nat) (b : Byte) : State :=
  (s.dpaPut d b).modCluster c (fun x =>
    let l := fget (fun _ => []) x.cache (d / 128)
    if l.isEmpty then x else { x with cache := fset (fun _ => []) x.cache (d / 128) (l.set (d % 128) b) })

/-- Write a byte of a context's local store; a write of a parked tile's slot spoils it (chapter 12). -/
def Ctx.putByte (x : Ctx) (o : Nat) (b : Byte) : Ctx :=
  let x1 := { x with store := fset (fun _ => 0) x.store o b }
  if x.mtx && decide (x.share ≤ o + 32768) then
    let t := (o + 32768 - x.share) / 4096
    let y := fget (fun _ => ({} : LTile)) x.tiles t
    if y.st = 2 then { x1 with tiles := fset (fun _ => ({} : LTile)) x1.tiles t { y with dirty := true } } else x1
  else x1

/-- The entry's bytes reach their memory (R391, R396). -/
def State.sbWrite (s : State) (e : SbEntry) : State :=
  let c := e.ctx / 8
  let bs := e.bytes.map (fun (p : Nat × Nat) => (32 * e.sector + p.1, BitVec.ofNat 8 (p.2 - 1)))
  match e.space with
  | 0 =>
    let s1 := bs.foldl (fun s (p : Nat × Byte) => s.writeThrough c p.1 p.2) s
    (List.range 4).foldl (fun s i =>
      if (List.range 8).all (fun b => fget (fun _ => 0) e.bytes (8 * i + b) != 0) && decide (32 * e.sector < 0x10000000)
      then s.setPoison (32 * e.sector + 8 * i) 0 else s) s1
  | 1 => s.modCtx e.ctx (fun x => bs.foldl (fun x (p : Nat × Byte) => x.putByte p.1 p.2) x)
  | _ =>
    let n := match s.ctx e.ctx with | some x => x.vf | none => 0
    (List.range 4).foldl (fun s i =>
      let w := (List.range 8).map (fun b => fget (fun _ => 0) e.bytes (8 * i + b))
      if w.all (fun b => b == 0) then s
      else if w.all (fun b => b != 0) then
        s.ctrlStore n (32 * e.sector + 8 * i) (w.map (fun b => BitVec.ofNat 8 (b - 1)))
      else s.mapMisuse n) s

/-- The head entry of scheduler `i`'s buffer leaves. -/
def State.sbPop (s : State) (c i : Nat) : State :=
  match s.sbuf c i with
  | [] => s
  | e :: t => (s.setSbuf c i t).sbWrite e

/-- The `n` oldest entries leave, in order. -/
def State.sbDrain (s : State) (c i n : Nat) : State := (List.range n).foldl (fun s _ => s.sbPop c i) s

/-- Every entry up to and including the last that satisfies `p` leaves, in order; how many they are. -/
def sbDepth (p : SbEntry → Bool) (l : List SbEntry) : Nat :=
  (l.zipIdx).foldl (fun n (e : SbEntry × Nat) => if p e.1 then e.2 + 1 else n) 0

def State.sbDrainTo (s : State) (c i : Nat) (p : SbEntry → Bool) : State := s.sbDrain c i (sbDepth p (s.sbuf c i))

/-- Every entry of context `k` leaves its cluster's buffers. -/
def State.sbDrainCtx (s : State) (k : Nat) : State :=
  (List.range 4).foldl (fun s i => s.sbDrainTo (k / 8) i (fun e => e.ctx == k)) s

/-- Discard every line of the cluster's cache (R389, R395). -/
def State.dropCache (s : State) (c : Nat) : State := s.modCluster c (fun x => { x with cache := [] })

/-! ### Placing contexts (R374 to R376, Table 10-2) -/

/-- A group at the start of its context (Table 10-2). -/
def startGroup (k : Kernel) (index contexts groups g : Nat) : Group :=
  { pc0 := k.entry
    regs := ((List.range 32).filter (fun t => 32 * g + t != 0)).map (fun t => (t, BitVec.ofNat 32 (32 * g + t)))
    unif := ([(0, index), (1, g), (2, contexts), (3, groups)].filter (fun (p : Nat × Nat) => p.2 != 0)).map
      (fun (p : Nat × Nat) => (p.1, BitVec.ofNat 32 p.2)) }

/-- A context at its start (R376). -/
def startCtx (l : Launch) (k : Kernel) (args : List Byte) : Ctx :=
  { vf := l.vf, launch := l.id, index := l.next, handle := l.handle, groups := l.groups, laneRegs := k.laneRegs,
    share := k.share, split := k.split, predOnly := tst k.flags 0, windowed := k.isa == 1, mtx := k.matrixImage,
    parked := false, moveTo := 0, kept := [], parkedBy := [],
    store := (args.zipIdx).foldl (fun m (p : Byte × Nat) => fset (fun _ => 0) m p.2 p.1) [],
    ctrs := [], copies := [], nextCopy := 0, tiles := [],
    grp := (List.range l.groups).foldl (fun m g =>
      fset (fun _ => ({} : Group)) m g (startGroup k l.next l.contexts l.groups g)) [] }

/-- The kernel behind a handle of VF `n`. -/
def State.kernel (s : State) (n h : Nat) : Option Kernel := fget (fun _ => none) (s.slice n).kernels h

/-- The argument bytes of a launch's next context, or what stops their copy: 1 bad address, 2 uncorrectable error. -/
def State.argsOf (s : State) (l : Launch) (k : Kernel) (c : Nat) : Nat × List Byte :=
  if l.owner != 0 then (0, l.argBytes.take k.argBytes)
  else if k.argBytes = 0 then (0, [])
  else match s.memCheck c l.vf l.args k.argBytes false false with
    | some (.address _) => (1, [])
    | some (.poison _) => (2, [])
    | none => (0, s.memBytes c l.vf l.args k.argBytes)

/-- Place the launch's next context on cluster `c`, in its lowest free slot (R374, R372). -/
def State.placeOn (s : State) (l : Launch) (k : Kernel) (c : Nat) : State :=
  match (slotsOf c).find? (fun j => (s.taken j).isNone) with
  | none => s
  | some j =>
    let a := s.argsOf l k c
    let s1 := if (s.residents c).isEmpty && (s.cluster c).split != k.split then s.dropCache c else s
    let s2 := s1.modCluster c (fun x => { x with split := k.split })
    (s2.setCtx j (some (startCtx l k a.2))).modLaunch l.id (fun l =>
      { l with next := l.next + 1, live := l.live + 1, fault := max l.fault a.1 })

/-- The first launch of VF `n` with a context still to place. -/
def State.nextLaunch (s : State) (n : Nat) : Option Launch :=
  s.yar.launches.find? (fun l => l.vf == n && decide (l.next < l.contexts))

/-- Place the next waiting context of VF `n`, if it has room (R375). -/
def State.placeNext (s : State) (n : Nat) : State :=
  match s.nextLaunch n with
  | none => s
  | some l =>
    match s.kernel n l.handle with
    | none => s
    | some k =>
      match (s.placeable n).find? (fun c => s.room c (k.need l.groups)) with
      | none => s
      | some c => s.placeOn l k c

/-- Place waiting contexts of VF `n` until the next finds no room (R375): at most 384 contexts stand on the part. -/
def State.placeAll (s : State) (n : Nat) : State := (List.range 384).foldl (fun s _ => s.placeNext n) s

/-! ### Ending and discarding contexts (R377, R378, R469) -/

/-- Drop context `k`'s operations and tiles from the matrix units of its cluster (R469). -/
def State.dropMatrix (s : State) (k : Nat) : State :=
  [2 * (k / 8), 2 * (k / 8) + 1].foldl (fun s u => s.modUnit u (fun x =>
    let mine := fun (o : Option MatOp) => match o with | some m => if m.ctx = k then none else some m | none => none
    { x with
      queue := x.queue.filter (fun m => m.ctx != k)
      staged := mine x.staged
      running := mine x.running
      done := x.done && (mine x.running).isSome
      steps := if (mine x.running).isSome then x.steps else 0
      tiles := x.tiles.filter (fun e => match e.2 with | some t => t.ctx != k | none => false) })) s

/-- Free slot `k`. -/
def State.freeCtx (s : State) (k : Nat) : State :=
  match s.ctx k with
  | none => s
  | some x =>
    let s1 := (s.dropMatrix k).setCtx k none
    s1.modLaunch x.launch (fun l => { l with live := l.live - 1 })

/-- Discard context `k` (R378). Whether its stores that had not left the buffer are written is a free choice (log entry
24). -/
def State.discardCtx (s : State) (k : Nat) : State :=
  let s1 := if tst s.free.toNat 0 then s.sbDrainCtx k else s
  let s2 := (List.range 4).foldl (fun s i => s.setSbuf (k / 8) i ((s.sbuf (k / 8) i).filter (fun b => b.ctx != k))) s1
  (s2.freeCtx k).drawn

/-- Stop launch `id`: its contexts are discarded and it is gone (R378). -/
def State.stopLaunch (s : State) (id : Nat) : State :=
  let ks := (s.contexts.filter (fun e => e.2.launch == id)).map (fun e => e.1)
  let s1 := ks.foldl State.discardCtx s
  { s1 with yar := { s1.yar with launches := s1.yar.launches.filter (fun l => l.id != id) } }

/-- Stop every launch of VF `n` that satisfies `p`, and its graphs. -/
def State.stopLaunches (s : State) (n : Nat) (p : Launch → Bool) : State :=
  ((s.yar.launches.filter (fun l => l.vf == n && p l)).map (fun l => l.id)).foldl State.stopLaunch s

/-- Stop what command `uid` of VF `n` has on the clusters, and let waiting contexts in (R375). -/
def State.stopOnClusters (s : State) (n uid : Nat) : State :=
  let s1 := s.stopLaunches n (fun l => l.uid == uid)
  ({ s1 with yar := { s1.yar with graphs := s1.yar.graphs.filter (fun g => g.uid != uid) } } : State).placeAll n

/-- Stop everything VF `n` has on the clusters (R277). -/
def State.stopClusters (s : State) (n : Nat) : State :=
  let s1 := s.stopLaunches n (fun _ => true)
  { s1 with yar := { s1.yar with graphs := s1.yar.graphs.filter (fun g => g.vf != n) } }

/-- Stop everything on every cluster (R260, R692). -/
def State.stopYarrow (s : State) : State :=
  vfs.foldl State.stopClusters s

end Sys2Proof.Machine
end

