-- ==== Sys2Proof/Machine/TeaselArea.lean ====
section
/-! DEFINITION. Teasel's manifest, its area in a slice's commons window, the page pool and the sequence table (Tables 16-1
to 16-4). -/

namespace Sys2Proof.Machine

/-! ### Manifest (Table 16-1) -/

/-- A field of the valid manifest. -/
def State.mf (s : State) (o n : Nat) : Nat := leAt s.tsl.manifest o n

def State.maxTokens (s : State) : Nat := s.mf 0x10 4
def State.maxSeqs (s : State) : Nat := s.mf 0x14 2
def State.maxPages (s : State) : Nat := s.mf 0x16 2
def State.poolPages (s : State) : Nat := s.mf 0x18 4
def State.pageTokens (s : State) : Nat := s.mf 0x1C 2

/-- The manifest's own fields satisfy Table 16-1. -/
def manifestOk (m : List Byte) : Bool :=
  leAt m 0 4 == 0x4C534554 && leAt m 4 2 == 1 && leAt m 6 2 == 0 && leAt m 8 4 % 64 == 0 &&
    decide (1 ≤ leAt m 0x10 4 ∧ leAt m 0x10 4 ≤ 65536) && decide (1 ≤ leAt m 0x14 2 ∧ leAt m 0x14 2 ≤ 4096) &&
    decide (1 ≤ leAt m 0x16 2 ∧ leAt m 0x16 2 ≤ leAt m 0x18 4) && decide (1 ≤ leAt m 0x18 4 ∧ leAt m 0x18 4 ≤ 2 ^ 24) &&
    decide (1 ≤ leAt m 0x1C 2 ∧ leAt m 0x1C 2 ≤ 4096) && decide (1 ≤ leAt m 0x1E 2 ∧ leAt m 0x1E 2 ≤ leAt m 0x16 2) &&
    decide (1 ≤ leAt m 0x20 4 ∧ leAt m 0x20 4 < 2 ^ 31) && leAt m 0x44 60 == 0

/-! ### The area (Table 16-2) -/

/-- Sizes of the parts of the area for `n` page-table rows: HDR, WORK, TOKENS, POSITIONS, SLOT_MAP, LENGTHS, PAGE_LIST,
NEXT, PAGE_TABLE, BITMAP. -/
def State.areaParts (s : State) (n : Nat) : List Nat :=
  [64, 16 * s.maxSeqs, 4 * s.maxTokens, 4 * s.maxTokens, 8 * s.maxTokens, 4 * s.maxSeqs, 4 * s.maxPages * s.maxSeqs,
   4 * s.maxSeqs, 4 * s.maxPages * n, (s.poolPages + 7) / 8]

/-- Where part `k` begins: each part starts at the previous end rounded up to 64. -/
def areaOff (l : List Nat) (k : Nat) : Nat := (l.take k).foldl (fun o z => (o + z + 63) / 64 * 64) 0

/-- The area's size: the end of its last part. -/
def State.areaSize (s : State) (n : Nat) : Nat := areaOff (s.areaParts n) 9 + (s.poolPages + 7) / 8

/-- LIMIT_ACTIVE of an activated slice; 0 of another. -/
def State.limitActive (s : State) (n : Nat) : Nat := fget (fun _ => 0) s.tsl.active n - 1

/-- The slice is activated (R572). -/
def State.activated (s : State) (n : Nat) : Bool := fget (fun _ => 0) s.tsl.active n != 0

/-- Slice address of offset `o` in part `k` of the area. -/
def State.areaAddr (s : State) (n k o : Nat) : Nat := 0x10000000000 + areaOff (s.areaParts (s.limitActive n)) k + o

/-- A number in the area. -/
def State.areaLe (s : State) (n k o len : Nat) : Nat := ofLe (s.memBytes freshAgent n (s.areaAddr n k o) len)

/-- Write bytes into the area. -/
def State.areaPut (s : State) (n k o : Nat) (bs : List Byte) : State := s.memPut freshAgent n (s.areaAddr n k o) bs

/-! ### The sequence table (R570) -/

/-- Entry `i`. -/
def State.seq (s : State) (i : Nat) : Seq := fget (fun _ => ({} : Seq)) s.tsl.seqs i

/-- Change entry `i`. -/
def State.modSeq (s : State) (i : Nat) (f : Seq → Seq) : State :=
  { s with tsl := { s.tsl with seqs := fmod (fun _ => ({} : Seq)) s.tsl.seqs i f } }

/-- HIST_LEN. -/
def Seq.hist (q : Seq) : Nat := q.promptTokens + q.outLen

/-- ACTIVE or EVICTED (R570). -/
def Seq.live (q : Seq) : Bool := q.st == 1 || q.st == 2

/-- Entries of VF `n` that are not FREE, and those that are live, in index order. -/
def State.seqsOf (s : State) (n : Nat) : List Nat := (s.tsl.seqs.filter (fun e => e.2.vf == n && e.2.st != 0)).map (fun e => e.1)
def State.liveSeqs (s : State) (n : Nat) : List Nat := (s.seqsOf n).filter (fun i => (s.seq i).live)

/-! ### Pages (R586, R587) -/

/-- Page `p` is free in the slice's bitmap. -/
def State.pageFree (s : State) (n p : Nat) : Bool := tst (s.areaLe n 9 (p / 8) 1) (p % 8)

/-- Mark page `p` free or taken. -/
def State.setPage (s : State) (n p : Nat) (free : Bool) : State :=
  s.areaPut n 9 (p / 8) (leBytes 1 (putBit (s.areaLe n 9 (p / 8) 1) (p % 8) free))

/-- Free pages of the slice, lowest first. -/
def State.freePages (s : State) (n : Nat) : List Nat := (List.range s.poolPages).filter (s.pageFree n)

/-- Page `k` of the sequence in position order, from the page table. -/
def State.pageOf (s : State) (q : Seq) (k : Nat) : Nat := s.areaLe q.vf 8 (4 * (s.maxPages * q.ptRow + k)) 4

/-- The pages a sequence holds. -/
def State.pagesOf (s : State) (q : Seq) : List Nat := (List.range q.pages).map (s.pageOf q)

/-- Return a sequence's pages to the bitmap; an index outside the pool names none. -/
def State.returnPages (s : State) (q : Seq) : State :=
  (s.pagesOf q).foldl (fun s p => if p < s.poolPages then s.setPage q.vf p true else s) s

/-- Free entry `i` with its pages; the slice's last live sequence deactivates it (R572, R590). -/
def State.freeSeq (s : State) (i : Nat) : State :=
  let q := s.seq i
  let s1 := (s.returnPages q).modSeq i (fun _ => {})
  if (s1.liveSeqs q.vf).isEmpty then { s1 with tsl := { s1.tsl with active := fset (fun _ => 0) s1.tsl.active q.vf 0 } } else s1

/-- Teasel drops everything of VF `n`'s slice (R592). -/
def State.stopTeasel (s : State) (n : Nat) : State :=
  { s with tsl := { s.tsl with
      seqs := s.tsl.seqs.filter (fun e => e.2.vf != n)
      active := fset (fun _ => 0) s.tsl.active n 0
      order := fset (fun _ => 0) s.tsl.order n 0
      after := fset (fun _ => 0) s.tsl.after n 0
      stepNo := fset (fun _ => 0) s.tsl.stepNo n 0
      steps := s.tsl.steps.filter (fun x => x.vf != n)
      appends := s.tsl.appends.filter (fun a => (s.seq a.idx).vf != n) } }

end Sys2Proof.Machine
end

