-- ==== Sys2Proof/Machine/Stop.lean ====
section
/-! DEFINITION. Stopping work: what a queue command, or a whole slice, has running on the clusters, the engines,
Teasel, Campion and the sensor dies is dropped. -/

namespace Sys2Proof.Machine

/-! ### Engine blocks (chapter 14) -/

def State.inst (s : State) (i : Nat) : Inst := fget (fun _ => ({} : Inst)) s.ffe.inst i

def State.modInst (s : State) (i : Nat) (f : Inst → Inst) : State :=
  { s with ffe := { s.ffe with inst := fmod (fun _ => ({} : Inst)) s.ffe.inst i f } }

def Block.field (b : Block) (o n : Nat) : Nat := leAt b.bytes o n
def Block.cls (b : Block) : Nat := b.field 0 1
def Block.op (b : Block) : Nat := b.field 1 1
def Block.vf (b : Block) : Nat := b.field 2 1
def Block.flag (b : Block) (k : Nat) : Bool := tst (b.field 3 1) k

/-- A dropped collective sends its peers an abort notice (R532). -/
def State.abortNotices (s : State) (bs : List Block) : State :=
  s.emitAll ((bs.filter (fun b => b.cls == 6)).map (fun b => .note "collective abort" b.vf (b.field 0x20 4)))

/-- Drop the blocks of VF `n` that satisfy `p` from every instance (R507, R510): no fence is signalled for them. -/
def State.dropBlocks (s : State) (n : Nat) (p : Block → Bool) : State :=
  instances.foldl (fun s i =>
    let q := fget (fun _ => []) (s.inst i).sub n
    if q.any p then
      (s.abortNotices (q.filter p)).modInst i (fun x => { x with
        sub := fset (fun _ => []) x.sub n (q.filter (fun b => !p b))
        busy := if x.busy = n && (match q with | b :: _ => p b | [] => false) then 0 else x.busy
        worked := if x.busy = n && (match q with | b :: _ => p b | [] => false) then false else x.worked })
    else s) s

/-- The engines' part of clearing VF `n`'s slice (R510). -/
def State.stopEngines (s : State) (n : Nat) : State :=
  let s1 := s.dropBlocks n (fun _ => true)
  let s2 := instances.foldl (fun s i =>
    let x := s.inst i
    if fget (fun _ => 0) x.deficit n = 0 then s
    else s.modInst i (fun x => { x with deficit := fset (fun _ => 0) x.deficit n 0 })) s1
  { s2 with ffe := { s2.ffe with
      fences := fclear s2.ffe.fences (64 * n) (64 * n + 64)
      fenceTick := fclear s2.ffe.fenceTick (64 * n) (64 * n + 64) } }

/-! ### Campion and the sensor dies (R597, R598, R629, R644) -/

/-- STATE of Campion on die `d`: 0 none, 1 HALTED, 2 RUNNING, 3 FAULTED. -/
def State.campState (s : State) (d : Nat) : Nat := if d = 0 then s.fld F.CMP_STATUS_STATE0 else s.fld F.CMP_STATUS_STATE1

/-- The control block of the granted slice shows RUN_STATE and FAULT_CODE (Table 17-3), where the area can be written. -/
def State.campShow (s : State) (d st code : Nat) : State :=
  let n := s.fld (F.CMP_GRANT_VF d)
  let a := 0x10000000000 + 0x10000 * s.fld (F.CMP_GRANT_AREA d) + 0x15
  if n = 0 || (s.memCheck freshAgent n a 2 true false).isSome then s
  else s.memPut freshAgent n a (leBytes 1 st ++ leBytes 1 code)

/-- Campion on die `d` takes state `st`. -/
def State.setCamp (s : State) (d st code : Nat) : State :=
  (s.setFld (if d = 0 then F.CMP_STATUS_STATE0 else F.CMP_STATUS_STATE1) st).campShow d st code

/-- Campion on die `d` is zeroed: tokens, spikes, neurons, programs, overflow pointers, ETIME (R597). -/
def State.zeroCamp (s : State) (d : Nat) : State :=
  { s with cmp := { s.cmp with
      dies := fset (fun _ => ({} : CampDie)) s.cmp.dies d {}
      cores := fclear s.cmp.cores (256 * d) (256 * d + 256) } }

/-- The ports and converters of die `d` are as after a grant change: no frame, no buffered event, no converter state
(R629). -/
def State.zeroSns (s : State) (d : Nat) : State :=
  let s1 : State := { s with sns := { s.sns with
      ports := fclear s.sns.ports (8 * d) (8 * d + 8), convs := fclear s.sns.convs (8 * d) (8 * d + 8) } }
  (List.range 8).foldl (fun s j => s.setFld (F.SNS_PORT_STATUS_IN_FRAME d j) 0) s1

/-- Campion and the sensor dies granted to VF `n` are zeroed: `keep` says whether the grants stay (R598, R644). -/
def State.stopDies (s : State) (n : Nat) (keep : Bool) : State :=
  [0, 1].foldl (fun s d =>
    let s1 := if s.fld (F.CMP_GRANT_VF d) = n && n != 0 then
        let z := s.zeroCamp d
        if keep then z.setFld (if d = 0 then F.CMP_STATUS_STATE0 else F.CMP_STATUS_STATE1) 1
        else (z.setFld (if d = 0 then F.CMP_STATUS_STATE0 else F.CMP_STATUS_STATE1) 0).setReg (R.CMP_GRANT d) 0
      else s
    if s1.fld (F.SNS_GRANT_VF d) = n && n != 0 then
      if keep then s1.zeroSns d else (s1.zeroSns d).setReg (R.SNS_GRANT d) 0
    else s1) s

/-! ### Stopping -/

/-- A sequence whose SEQ_ADMIT stops is dropped; a row it has in a step ends with it. -/
def State.stopSeq (s : State) (n uid : Nat) : State :=
  let hit := (s.seqsOf n).filter (fun i => (s.seq i).uid == uid)
  let s1 := hit.foldl State.freeSeq s
  { s1 with tsl := { s1.tsl with appends := s1.tsl.appends.filter (fun a => a.uid != uid && !hit.contains a.idx) } }

/-- Stop what the started command `uid` of VF `n` has running (R243, R378, R507). -/
def State.stopCmd (s : State) (n uid : Nat) : State :=
  ((s.stopOnClusters n uid).dropBlocks n (fun b => b.uid == uid)).stopSeq n uid

/-- Stop and discard everything VF `n`'s slice has running (R277). -/
def State.stopSlice (s : State) (n : Nat) : State := (((s.stopClusters n).stopEngines n).stopTeasel n).stopDies n true

/-- Zero VF `n`'s slice data: its memory, registers, local stores, tiles and engine fences (R277). -/
def State.zeroSlice (s : State) (n : Nat) : State := (s.clearSliceMem n).finishSliceMem n

/-- Stop and zero every engine, cluster, Teasel and Campion (R260). -/
def State.stopAll (s : State) : State :=
  let s1 := vfs.foldl State.stopSlice s
  { s1 with yar := {}, ffe := {}, tsl := { s1.tsl with seqs := [], active := [], order := [], after := [], stepNo := [], steps := [], appends := [] } }

end Sys2Proof.Machine
end

