-- ==== Sys2Proof/Machine/Queue.lean ====
section
/-! DEFINITION. The queue interface (chapter 06): queue set-up, doorbells, fetching, starting, completing, fences. -/

namespace Sys2Proof.Machine

/-! ### Queues and their commands -/

/-- Queue `q` of VF `n`. -/
def State.queue (s : State) (n q : Nat) : Queue := fget (fun _ => ({} : Queue)) s.qs (16 * n + q)

/-- Change queue `q` of VF `n`. -/
def State.modQueue (s : State) (n q : Nat) (f : Queue → Queue) : State :=
  { s with qs := fmod (fun _ => ({} : Queue)) s.qs (16 * n + q) f }

/-- Change the command `uid` of queue `q`. -/
def State.modCmd (s : State) (n q uid : Nat) (f : QCmd → QCmd) : State :=
  s.modQueue n q (fun x => { x with cmds := x.cmds.map (fun c => if c.uid = uid then f c else c) })

def State.qEnabled (s : State) (n q : Nat) : Bool := s.bit (F.QIF_Q_CTRL_ENABLE n q)
def State.qError (s : State) (n q : Nat) : Nat := s.fld (F.QIF_Q_STATUS_ERROR n q)

/-- The queues of a VF. -/
def queues : List Nat := List.range 16

/-- Header fields of a command (Table 06-2). -/
def QCmd.op (c : QCmd) : Nat := leAt c.bytes 0 2
def QCmd.wait (c : QCmd) : Bool := tst (leAt c.bytes 2 2) 0
def QCmd.signal (c : QCmd) : Bool := tst (leAt c.bytes 2 2) 1
def QCmd.barrier (c : QCmd) : Bool := tst (leAt c.bytes 2 2) 2
def QCmd.waitFence (c : QCmd) : Nat := leAt c.bytes 0x10 2
def QCmd.signalFence (c : QCmd) : Nat := leAt c.bytes 0x12 2
def QCmd.waitValue (c : QCmd) : Nat := leAt c.bytes 0x18 8
def QCmd.signalValue (c : QCmd) : Nat := leAt c.bytes 0x20 8

/-- A body field of a command, by offset within the body. -/
def QCmd.body (c : QCmd) (o n : Nat) : Nat := leAt c.bytes (48 + o) n

/-- Fence `f` of VF `n`'s slice (R235). -/
def State.fence (s : State) (n f : Nat) : Fence := fget (fun _ => ({} : Fence)) (s.slice n).fences f

/-- Change fence `f` of VF `n`'s slice; it has seen progress in this tick (R238). -/
def State.modFence (s : State) (n f : Nat) (g : Fence → Fence) : State :=
  s.modSlice n (fun x => { x with fences := fmod (fun _ => ({} : Fence)) x.fences f (fun y => { g y with tick := s.tickCount }) })

/-- Completion of a command that carries SIGNAL (R235). -/
def State.signalDone (s : State) (n : Nat) (c : QCmd) : State :=
  if !c.signal || c.bytes.length < 48 then s
  else if c.status = 0 then s.modFence n (c.signalFence % 256) (fun f => { f with value := max f.value c.signalValue })
  else s.modFence n (c.signalFence % 256) (fun f => { f with err := true })

/-- The completion statuses that are contained faults, with their fault code (Tables 06-6, 20-1). -/
def faultCode (status : Nat) : Option Nat :=
  match status with
  | 0x04 => some 0x02
  | 0x20 => some 0x01
  | 0x21 => some 0x03
  | 0x22 => some 0x04
  | 0x23 => some 0x05
  | _ => none

/-- Command `uid` has ended with this status, DETAIL and RESULT and awaits its completion record. A status that is a
contained fault sets the event bit and loads QIF_VF_FAULT (R240). -/
def State.endCmd (s : State) (n q uid status detail result : Nat) : State :=
  let s1 := s.modCmd n q uid (fun c => { c with phase := 2, status := status, detail := detail, result := result,
                                                waitTick := none })
  if (faultCode status).isSome then
    ((s1.setFld (F.QIF_VF_FAULT_QUEUE n) q).setFld (F.QIF_VF_FAULT_STATUS n) status).vfEvent n 2
  else s1

/-- As `endCmd`, for a contained fault, which is also counted and logged (R687); while a recovery runs, its status is
carried by no completion (R688). -/
def State.faultCmd (s : State) (n q uid status detail exc arg pc : Nat) : State :=
  let s1 := match faultCode status with | some k => s.contained n k exc arg pc | none => s
  if s.recovering then s1 else s1.endCmd n q uid status detail 0

/-- The command `uid` of VF `n`, with its queue. -/
def State.findCmd (s : State) (n uid : Nat) : Option (Nat × QCmd) :=
  queues.findSome? (fun q => ((s.queue n q).cmds.find? (fun c => c.uid == uid)).map (fun c => (q, c)))

/-- The Teasel step named `uid` has ended with this status and DETAIL (R589, R591). -/
def State.stepResult (s : State) (uid status detail : Nat) : State :=
  { s with tsl := { s.tsl with steps := s.tsl.steps.map (fun x =>
      if x.uid = uid && x.result.isNone then { x with result := some (status, detail) } else x) } }

/-- End the command or Teasel step `uid` of VF `n`, whatever its queue. -/
def State.endUid (s : State) (n uid status detail result : Nat) : State :=
  match s.findCmd n uid with
  | some (q, _) => s.endCmd n q uid status detail result
  | none => s.stepResult uid status detail

/-- As `endUid`, for a contained fault; a failed Teasel step is one of its own (R591). -/
def State.faultUid (s : State) (n uid status detail exc arg pc : Nat) : State :=
  match s.findCmd n uid with
  | some (q, _) => s.faultCmd n q uid status detail exc arg pc
  | none =>
    if s.tsl.steps.any (fun x => x.uid == uid && x.result.isNone) then
      (s.stepResult uid status detail).contained n 7 exc arg pc
    else s

/-- Every command of the queue that has not ended completes with `status`; started ones are stopped when `all`. -/
def State.abortCmds (s : State) (n q status : Nat) (all : Bool) : State :=
  let ends := fun (c : QCmd) => c.phase == 0 || (all && c.phase == 1)
  let s1 := ((s.queue n q).cmds.filter (fun c => all && c.phase == 1)).foldl (fun s c => s.stopCmd n c.uid) s
  ((s.queue n q).cmds.filter ends).foldl (fun s c => s.endCmd n q c.uid status 0 0) s1

/-- The queue enters the error state with this code (R242). -/
def State.queueError (s : State) (n q code : Nat) : State :=
  let s1 := ((s.setFld (F.QIF_Q_STATUS_ERROR n q) code).bump F.QIF_CNT_QERR_COUNT).vfEvent n 3
  (s1.modQueue n q (fun x => { x with bell := none })).abortCmds n q 0x30 false

/-- The queue stops as a write of ENABLE = 0 stops it (R243). -/
def State.queueStop (s : State) (n q : Nat) : State :=
  if s.qEnabled n q then
    let s1 := ((s.setFld (F.QIF_Q_CTRL_ENABLE n q) 0).setFld (F.QIF_Q_STATUS_QUIESCED n q) 0).modQueue n q
      (fun x => { x with bell := none })
    s1.abortCmds n q 0x30 true
  else s

/-- Every queue of VF `n` stops, as a slice reset or a release stops them (R244). -/
def State.queuesStop (s : State) (n : Nat) : State := queues.foldl (fun s q => s.queueStop n q) s

/-- VF FLR: no completion, and every QIF_ register of the VF at its reset value (R244). While the part is frozen its
running work stands until the thaw (R753). -/
def State.queuesFlr (s : State) (n : Nat) : State :=
  let s1 := if s.frozen then s else queues.foldl (fun s q => ((s.queue n q).cmds).foldl (fun s c => s.stopCmd n c.uid) s) s
  let s2 : State := { s1 with qs := fclear s1.qs (16 * n) (16 * n + 16) }
  s2.resetRegs (R.QIF_VF_SLICE n) (R.QIF_Q_CTRL n 15 + 64)

/-- The VF's TDI leaves RUN: every queue in error, no completion for what was fetched (R216). -/
def State.queuesTdi (s : State) (n : Nat) : State :=
  let s1 := if s.frozen then s else queues.foldl (fun s q => ((s.queue n q).cmds).foldl (fun s c => s.stopCmd n c.uid) s) s
  queues.foldl (fun s q =>
    let s2 := s.modQueue n q (fun x => { x with cmds := [], bell := none })
    if s2.qEnabled n q && s2.qError n q != 0x0A then s2.queueError n q 8 else s2) s1

/-- An uncontained fault: every fetched command of the VF completes with CHIP_LOST, every enabled queue is in error
(R241, R704). -/
def State.queuesLost (s : State) (n : Nat) : State :=
  let s1 := queues.foldl (fun s q => s.abortCmds n q 0x31 true) s
  let s2 := queues.foldl (fun s q => if s.qEnabled n q then s.queueError n q 0x0A else s) s1
  ((s2.setFld (F.QIF_VF_FAULT_QUEUE n) 0).setFld (F.QIF_VF_FAULT_STATUS n) 0x31).vfEvent n 4

/-! ### Set-up -/

/-- The VF's queues may operate: its slice is there and its TDI is in RUN (R212, R216). -/
def State.vfRuns (s : State) (n : Nat) : Bool := [2, 3, 4, 5].contains (s.sliceState n) && s.tdi n == 2

/-- The 64-bit address in a register pair of a queue. -/
def State.qAddr (s : State) (lo hi : Nat) : Nat := s.pair lo hi

/-- Whether the queue's settings allow it to be enabled with this WEIGHT (R219). -/
def State.enableOk (s : State) (n q weight : Nat) : Bool :=
  let size := s.fld (F.QIF_Q_SIZE_SIZE n q)
  s.vfRuns n && s.fltState != 3 && [16, 32, 64, 128, 256, 512, 1024, 2048, 4096].contains size &&
    s.qAddr (R.QIF_Q_DESC_LO n q) (R.QIF_Q_DESC_HI n q) % 16 == 0 &&
    s.qAddr (R.QIF_Q_DRV_LO n q) (R.QIF_Q_DRV_HI n q) % 4 == 0 &&
    s.qAddr (R.QIF_Q_DEV_LO n q) (R.QIF_Q_DEV_HI n q) % 4 == 0 && weight != 0

/-- QUEUE_ENABLE: a write of QIF_Q_CTRL with ENABLE = 1 (R218 to R221). -/
def execQueueEnable (n q : Nat) (value : Word) (s : State) : Res :=
  if n = 0 || 63 < n || 15 < q || !tst value.toNat 0 || s.qEnabled n q || !s.bit (F.QIF_Q_STATUS_QUIESCED n q) then .next s
  else
    let s1 := (s.setFld (F.QIF_Q_CTRL_CLASS n q) (bitOf value.toNat 1)).setFld (F.QIF_Q_CTRL_WEIGHT n q) (bitsOf value.toNat 11 8)
    if s1.enableOk n q (bitsOf value.toNat 11 8) then
      let s2 := ((s1.setFld (F.QIF_Q_CTRL_ENABLE n q) 1).setFld (F.QIF_Q_STATUS_ERROR n q) 0).setFld (F.QIF_Q_DONE_COUNT n q) 0
      .next ((s2.modQueue n q (fun _ => {})).emit (.dma n (s.qAddr (R.QIF_Q_DEV_LO n q) (R.QIF_Q_DEV_HI n q)) (leBytes 4 0)))
    else .next (s1.setFld (F.QIF_Q_STATUS_ERROR n q) 1)

/-- QUEUE_DISABLE: a write of QIF_Q_CTRL with ENABLE = 0 (R243); on a queue that is not enabled and is quiesced it
writes CLASS and WEIGHT (R218, R220). -/
def execQueueDisable (n q : Nat) (value : Word) (s : State) : Res :=
  if n = 0 || 63 < n || 15 < q || tst value.toNat 0 then .next s
  else if s.qEnabled n q then .next (s.queueStop n q)
  else if s.bit (F.QIF_Q_STATUS_QUIESCED n q) then
    .next ((s.setFld (F.QIF_Q_CTRL_CLASS n q) (bitOf value.toNat 1)).setFld (F.QIF_Q_CTRL_WEIGHT n q) (bitsOf value.toNat 11 8))
  else .next s

/-- QUIESCE_COMPLETE: a stopping queue has no fetched command left (R243, R244). -/
def execQuiesceComplete (n q : Nat) (s : State) : Res :=
  if s.qEnabled n q || s.bit (F.QIF_Q_STATUS_QUIESCED n q) || !(s.queue n q).cmds.isEmpty then .next s
  else
    let s1 := s.setFld (F.QIF_Q_STATUS_QUIESCED n q) 1
    .next (if s1.qError n q = 9 then s1 else s1.setFld (F.QIF_Q_STATUS_ERROR n q) 0)

/-- DOORBELL_WRITE: the last doorbell of a queue is kept until it is acted on (R223, R245). -/
def execDoorbellWrite (n q : Nat) (value : Word) (s : State) : Res :=
  if n = 0 || 63 < n || 15 < q || 0x10000 ≤ value.toNat || !s.qEnabled n q then .next s
  else .next (s.modQueue n q (fun x => { x with bell := some value.toNat }))

/-! ### Fetching -/

/-- The VF is in D3hot or has not resumed since (R126). -/
def State.vfIdle (s : State) (n : Nat) : Bool := tst s.pwr.vfD3 n || tst s.pwr.vfResume n

/-- The queue may fetch now (R212, R216, R225, R242, R245). -/
def State.mayFetch (s : State) (n q : Nat) : Bool :=
  s.vfRuns n && s.qEnabled n q && s.qError n q == 0 && !s.frozen && !s.vfIdle n &&
    decide ((s.queue n q).cmds.length < 256)

/-- Body length of each opcode of Table 06-5. -/
def bodyLen (op : Nat) : Option Nat :=
  match op with
  | 0x01 => some 0
  | 0x10 => some 32
  | 0x20 => some 32
  | 0x30 => some 16
  | 0x31 => some 8
  | 0x32 => some 32
  | 0x40 => some 48
  | 0x41 => some 24
  | 0x42 => some 8
  | 0x50 => some 8
  | 0x51 => some 16
  | _ => none

/-- Reserved bytes of header and body, by offset within both (Tables 06-2, 06-5). -/
def reservedBytes (op : Nat) : List Nat :=
  let h := [0x14, 0x15, 0x16, 0x17, 0x28, 0x29, 0x2A, 0x2B, 0x2C, 0x2D, 0x2E, 0x2F]
  let b := match op with
    | 0x10 => [0x1A, 0x1B, 0x1C, 0x1D, 0x1E, 0x1F]
    | 0x20 => [0x0C, 0x0D, 0x0E, 0x0F, 0x1A, 0x1B, 0x1C, 0x1D, 0x1E, 0x1F]
    | 0x30 => [0x0C, 0x0D, 0x0E, 0x0F]
    | 0x31 => [4, 5, 6, 7]
    | 0x32 => [0x18, 0x19, 0x1A, 0x1B, 0x1C, 0x1D, 0x1E, 0x1F]
    | 0x40 => [0x25, 0x26, 0x27, 0x28, 0x29, 0x2A, 0x2B, 0x2C, 0x2D, 0x2E, 0x2F]
    | 0x41 => [0x14, 0x15, 0x16, 0x17]
    | 0x50 => [2, 3, 4, 5, 6, 7]
    | 0x51 => [2, 3, 4, 5, 6, 7]
    | _ => []
  h ++ b.map (· + 48)

/-- The lowest offset of a nonzero Reserved byte, or 2 for Reserved FLAGS bits. -/
def reservedFault (op : Nat) (b : List Byte) : Option Nat :=
  if 8 ≤ leAt b 2 2 then some 2 else lowest ((reservedBytes op).filter (fun o => b.getD o 0 != 0))

/-- Offset, within the body, of the first argument out of range (Table 06-5), with what each needs. -/
def argFault (c : QCmd) : Option Nat :=
  let t := fun (l : List (Bool × Nat)) => (l.find? (fun p => !p.1)).map (fun p => p.2)
  match c.op with
  | 0x10 => t [(decide (1 ≤ c.body 0x10 8 ∧ c.body 0x10 8 ≤ 2 ^ 36), 0x10), (decide (c.body 0x18 1 ≤ 2), 0x18),
               (decide (c.body 0x19 1 ≤ 2), 0x19)]
  | 0x20 => t [(c.body 0 8 % 64 == 0, 0), (c.body 0x10 8 % 16 == 0, 0x10), (decide (c.body 0x18 2 ≤ 4096), 0x18)]
  | 0x30 => t [(c.body 0 8 % 64 == 0, 0), (decide (128 ≤ c.body 8 4 ∧ c.body 8 4 ≤ 2 ^ 26), 8)]
  | 0x32 => t [(decide (1 ≤ c.body 4 2 ∧ c.body 4 2 ≤ 384), 4), (decide (1 ≤ c.body 6 2 ∧ c.body 6 2 ≤ 64), 6)]
  | 0x40 => t [(c.body 0 8 != 0, 0), (decide (1 ≤ c.body 0x10 4 ∧ c.body 0x10 4 ≤ 2 ^ 20), 0x10),
               (decide (1 ≤ c.body 0x14 4 ∧ c.body 0x14 4 ≤ 2 ^ 20), 0x14), (decide (c.body 0x24 1 ≤ 7), 0x24)]
  | 0x41 => t [(decide (1 ≤ c.body 0x10 4 ∧ c.body 0x10 4 ≤ 2 ^ 20), 0x10)]
  | 0x50 => t [(decide (c.body 0 2 ≤ 255), 0)]
  | 0x51 => t [(decide (c.body 0 2 ≤ 255), 0)]
  | _ => none

/-- Checks 1 to 4 of R233: status and DETAIL of the first that fails. -/
def QCmd.check (c : QCmd) : Option (Nat × Nat) :=
  if c.bytes.length < 48 || c.bytes.length != 48 + leAt c.bytes 4 4 then some (2, 4)
  else match bodyLen c.op with
    | none => some (1, 0)
    | some n =>
      if leAt c.bytes 4 4 ≠ n then some (2, 4)
      else match reservedFault c.op c.bytes with
        | some o => some (2, o)
        | none =>
          if c.wait && decide (255 < c.waitFence) then some (3, 0x10)
          else if c.signal && decide (255 < c.signalFence) then some (3, 0x12)
          else match argFault c with
            | some o => some (3, 48 + o)
            | none => none

/-- The buffers of a chain: ring descriptors that are not indirect, then the indirect table's entries. -/
def chainBufs (r : ChainRead) : List Desc := r.ring.filter (fun d => !tst d.flags 2) ++
  (if r.ring.any (fun d => tst d.flags 2) then r.table else [])

/-- A readable buffer follows a writable one. -/
def readAfterWrite : List Desc → Bool
  | [] => false
  | d :: t => (tst d.flags 1 && t.any (fun e => !tst e.flags 1)) || readAfterWrite t

/-- The chain violates a condition of R226. -/
def chainBad (r : ChainRead) : Bool :=
  let b := chainBufs r
  decide (16 < b.length) || b.any (fun d => d.len == 0) || readAfterWrite b ||
    r.ring.any (fun d => tst d.flags 2 && (tst d.flags 0 || d.len % 16 != 0 || decide (256 < d.len) || d.len == 0)) ||
    (r.ring.any (fun d => tst d.flags 2) && r.table.any (fun d => tst d.flags 2))

/-- Descriptor `i` after the available position shows available (packed ring, virtio 1.2 section 2.8). -/
def State.showsAvail (s : State) (n q i : Nat) (d : Desc) : Bool :=
  let x := s.queue n q
  let size := s.fld (F.QIF_Q_SIZE_SIZE n q)
  let w := if x.availPos + i < size then x.availWrap else !x.availWrap
  tst d.flags 7 == w && tst d.flags 15 == !w

/-- Descriptors between the available position and the doorbell's position. -/
def State.bellDist (s : State) (n q bell : Nat) : Nat :=
  let x := s.queue n q
  let size := s.fld (F.QIF_Q_SIZE_SIZE n q)
  let here := x.availPos + size * b2n x.availWrap
  let there := bell % 2 ^ 15 + size * bitOf bell 15
  (there + 2 * size - here) % (2 * size)

/-- The fetch of one chain that passed R224 to R227: its command joins the queue, or ends at once at a check of R233. -/
def State.takeChain (s : State) (n q : Nat) (r : ChainRead) : State :=
  let size := s.fld (F.QIF_Q_SIZE_SIZE n q)
  let uid := s.sch.nextUid
  let c0 : QCmd := { uid := uid, id := (r.ring.getLast?.map Desc.id).getD 0, descs := r.ring.length,
                     outs := ((chainBufs r).filter (fun d => tst d.flags 1)).map (fun d => (d.addr, d.len)),
                     bytes := r.bytes.getD [], phase := 0, status := 0, detail := 0, result := 0, waitTick := none }
  let s1 : State := { s with sch := { s.sch with nextUid := uid + 1 } }
  let s2 := s1.modQueue n q (fun x =>
    { x with cmds := x.cmds ++ [c0], availPos := (x.availPos + r.ring.length) % size,
             availWrap := if x.availPos + r.ring.length < size then x.availWrap else !x.availWrap })
  if r.bytes.isNone then s2.endCmd n q uid 5 0 0
  else match c0.check with
    | some (st, d) => s2.endCmd n q uid st d 0
    | none => s2

/-- CHAIN_FETCH: after a doorbell, the part fetches the chain at the next available position (R224 to R228, R233). -/
def execChainFetch (n q : Nat) (r : ChainRead) (s : State) : Res :=
  match (s.queue n q).bell with
  | none => .next s
  | some bell =>
    let size := s.fld (F.QIF_Q_SIZE_SIZE n q)
    if !s.mayFetch n q then .next s
    else if size ≤ bell % 2 ^ 15 then .next (s.queueError n q 7)
    else
      let dist := s.bellDist n q bell
      if dist = 0 then .next (s.modQueue n q (fun x => { x with bell := none }))
      else if !r.ok then .next (s.queueError n q 6)
      else if r.ring.isEmpty then .next s
      else if decide (dist < r.ring.length) || (r.ring.zipIdx).any (fun p => !s.showsAvail n q p.2 p.1) then
        .next (s.queueError n q 3)
      else if chainBad r then .next (s.queueError n q 2)
      else if (((chainBufs r).filter (fun d => tst d.flags 1)).foldl (fun t d => t + d.len) 0) < 32 then .next (s.queueError n q 4)
      else if (s.queue n q).cmds.any (fun c => some c.id == r.ring.getLast?.map Desc.id) then .next (s.queueError n q 5)
      else .next (s.takeChain n q r)

/-! ### Starting -/

/-- The exclusive job, while it has not ended: its VF, its command, and when it started (R552). -/
def State.exclJob (s : State) : Option (Nat × Nat × Nat) :=
  match s.sch.excl with
  | some (n, u, t) =>
    (match s.findCmd n u with | some (_, c) => if c.phase ≤ 1 then some (n, u, t) else none | none => none)
  | none => none

/-- Command `u` of VF `n` is the exclusive job. -/
def State.exclIs (s : State) (n u : Nat) : Bool :=
  match s.exclJob with | some (m, v, _) => m == n && v == u | none => false

/-- The clusters on which VF `n`'s contexts may be: its own that no slice still drains from, and those draining out of it
(R272). -/
def State.homeClusters (s : State) (n : Nat) : Nat :=
  Nat.lor (Nat.land (s.clustersOf n) (Nat.xor (2 ^ 48 - 1) s.draining)) (s.drainOf n)

/-- A running slot runs VF `n`'s slice (Table 15-2, R126, R216, R546). -/
def State.slotRuns (s : State) (n : Nat) (x : Slot) : Bool :=
  !s.vfIdle n && s.tdi n == 2 &&
  (match x.kind with
   | 1 => x.vf == n
   | 2 => x.vf == n
   | 3 => Nat.land x.clusters (s.homeClusters n) != 0
   | 4 => x.vf == n && (match s.exclJob with | some (m, _, _) => m == n | none => false)
   | _ => false)

/-- The slice holds, now, a slot in which a queue of this CLASS may start (R234, Table 15-2). -/
def State.slotFor (s : State) (n cls : Nat) : Bool :=
  s.sch.running.any (fun x => x.kind != 4 && s.slotRuns n x && (x.kind == 1) == (cls == 1))

/-- The next command of the queue to start. -/
def State.nextCmd (s : State) (n q : Nat) : Option QCmd := (s.queue n q).cmds.find? (fun c => c.phase == 0)

/-- Its wait is satisfied, or it has none. -/
def State.waitMet (s : State) (n : Nat) (c : QCmd) : Bool := !c.wait || decide (c.waitValue ≤ (s.fence n c.waitFence).value)

/-- BARRIER holds it: an earlier command of the queue has not completed (R234). -/
def State.barred (s : State) (n q : Nat) (c : QCmd) : Bool :=
  c.barrier && ((s.queue n q).cmds.takeWhile (fun d => d.uid != c.uid)).length != 0

/-- The VF's commands may start and complete now (R216, R245). -/
def State.vfLive (s : State) (n : Nat) : Bool := s.vfRuns n && !s.frozen

/-- The next command of the queue, with opcode `op`, starts, and `run` gives its effect; one whose fence carries an
error flag ends with DEPENDENCY_FAILED instead (R234, R236). The exclusive job starts in its position (R552). -/
def State.startNext (s : State) (n q op : Nat) (run : QCmd → State → State) : Res :=
  match s.nextCmd n q with
  | none => .next s
  | some c =>
    if c.op ≠ op || !s.vfLive n || s.qError n q != 0 then .next s
    else if c.wait && (s.fence n c.waitFence).err then .next (s.endCmd n q c.uid 0x10 c.waitFence 0)
    else if (s.exclIs n c.uid || s.slotFor n (s.fld (F.QIF_Q_CTRL_CLASS n q))) && s.waitMet n c && !s.barred n q c then
      let s1 := s.modCmd n q c.uid (fun c => { c with phase := 1, waitTick := none })
      let s2 := if c.signal then s1.modFence n (c.signalFence % 256) id else s1
      .next (run c s2)
    else .next s

/-! ### Completing -/

/-- The bytes of a completion record (Table 06-4). -/
def State.record32 (s : State) (c : QCmd) : List Byte :=
  sliceOf c.bytes 8 8 ++ leBytes 2 c.status ++ leBytes 2 c.op ++ leBytes 4 c.detail ++ leBytes 8 c.result ++
    leBytes 8 (s.tai / 1000 * 1000)

/-- DMA writes of bytes over a list of buffers. -/
def scatter (n : Nat) : List (Nat × Nat) → List Byte → List Output
  | [], _ => []
  | (a, l) :: t, b => if b.isEmpty then [] else .dma n a (b.take l) :: scatter n t (b.drop l)

/-- A message of function `fn` on vector `vec`, unless the vector is held, when its Pending Bit is set. -/
def State.message (s : State) (fn vec : Nat) : State :=
  let k := 32 * fn + vec
  let p := fget (fun _ => ({} : MsixPace)) s.exm.msix k
  if s.msixHeld fn vec then { s with exm := { s.exm with msix := fset (fun _ => {}) s.exm.msix k { p with pba := true } } }
  else s.emit (.msix fn vec)

/-- Whether driver event suppression permits a message for the used descriptors just written (R231). -/
def permits (x : Suppress) (pos descs size : Nat) (wrap : Bool) : Bool :=
  match x.mode with
  | 0 => true
  | 2 => (List.range descs).any (fun i =>
      (pos + i) % size == x.off && (if pos + i < size then wrap else !wrap) == x.wrap)
  | _ => false

/-- A message on the queue's vector, or a merged one at the end of its HOLDOFF_US interval (R231). -/
def State.queueIrq (s : State) (n q : Nat) : State :=
  let h := min (s.fld (F.QIF_Q_IRQ_HOLDOFF_US n q)) 1000
  if (s.queue n q).irqBusy then s.modQueue n q (fun x => { x with irqMerged := true })
  else (s.modQueue n q (fun x => { x with irqBusy := h != 0 })).message n (2 + q)

/-- COMMAND_COMPLETE: command number `i` of the queue, which has ended, completes: record, used descriptor, fence,
message (R229 to R231, R235). `ok` says that the host writes succeeded (R228). -/
def execCommandComplete (n q i : Nat) (ok : Bool) (sup : Suppress) (s : State) : Res :=
  match (s.queue n q).cmds[i]? with
  | none => .next s
  | some c =>
    if c.phase ≠ 2 || s.frozen then .next s
    else
      let s0 := s.modQueue n q (fun x => { x with cmds := x.cmds.filter (fun d => d.uid != c.uid) })
      if !ok then .next ((s0.signalDone n c).queueError n q 6)
      else
        let x := s.queue n q
        let size := s.fld (F.QIF_Q_SIZE_SIZE n q)
        let at_ := s.qAddr (R.QIF_Q_DESC_LO n q) (R.QIF_Q_DESC_HI n q) + 16 * x.usedPos
        let flags := if x.usedWrap then 0x8082 else 0x0002
        let s1 := (s0.emitAll (scatter n c.outs (s.record32 c))).emitAll
          [.dma n (at_ + 8) (leBytes 4 32 ++ leBytes 2 c.id), .dma n (at_ + 14) (leBytes 2 flags)]
        let s2 := s1.modQueue n q (fun x =>
          { x with usedPos := (x.usedPos + c.descs) % size,
                   usedWrap := if x.usedPos + c.descs < size then x.usedWrap else !x.usedWrap })
        let s3 := (s2.setReg (R.QIF_Q_DONE n q) (s2.reg (R.QIF_Q_DONE n q) + 1)).signalDone n c
        .next (if permits sup x.usedPos c.descs size x.usedWrap then s3.queueIrq n q else s3)

/-- QUEUE_IRQ_HOLDOFF_END: the interval of a queue's vector ends; one message covers the completions within it
(R231). -/
def execQueueIrqHoldoffEnd (n q : Nat) (s : State) : Res :=
  let x := s.queue n q
  if !x.irqBusy then .next s
  else if x.irqMerged then .next ((s.modQueue n q (fun x => { x with irqMerged := false })).message n (2 + q))
  else .next (s.modQueue n q (fun x => { x with irqBusy := false }))

/-! ### Fences -/

/-- Some command of the slice that names fence `f` as SIGNAL_FENCE has started and not completed. -/
def State.signallerRuns (s : State) (n f : Nat) : Bool :=
  queues.any (fun q => (s.queue n q).cmds.any (fun c => c.phase == 1 && c.signal && c.signalFence == f))

/-- The slice held a slot of this CLASS in the tick just ended (R238). -/
def State.heldSlot (s : State) (n cls : Nat) : Bool :=
  let v := fget (fun _ => 0) s.sch.slotTick (2 * n + cls)
  v / 2 + 1 == s.tickCount || (v / 2 == s.tickCount && v % 2 == 1)

/-- FENCE_STALL: the next command of the queue has waited for the whole of the tick just ended without progress
(R238). -/
def execFenceStall (n q : Nat) (s : State) : Res :=
  match s.nextCmd n q with
  | none => .next s
  | some c =>
    let t := s.tickCount
    let waited := match c.waitTick with | some w => decide (w + 2 ≤ t) | none => false
    let cls := s.fld (F.QIF_Q_CTRL_CLASS n q)
    if c.wait && waited && !s.waitMet n c && decide ((s.fence n c.waitFence).tick + 2 ≤ t) &&
        !s.signallerRuns n c.waitFence && s.heldSlot n cls && !s.frozen then
      .next (s.faultCmd n q c.uid 0x23 c.waitFence 0 0 0)
    else .next s

/-- At a boundary, every command that stands next in its queue and waits on a fence is marked with the tick just ended
(R238). -/
def State.markWaits (s : State) (old : Nat) : State :=
  s.sliced.foldl (fun s n => queues.foldl (fun s q =>
    match s.nextCmd n q with
    | some c =>
      if c.wait && !s.waitMet n c && c.waitTick.isNone then s.modCmd n q c.uid (fun c => { c with waitTick := some old })
      else s
    | none => s) s) s

/-- The slices that a slot runs now are marked as having held a slot of its CLASS in this tick (R238). -/
def State.markSlots (s : State) : State :=
  s.sliced.foldl (fun s n =>
    let mark := fun (s : State) (cls : Nat) =>
      if s.sch.running.any (fun x => s.slotRuns n x && (x.kind == 1) == (cls == 1)) then
        let k := 2 * n + cls
        let v := fget (fun _ => 0) s.sch.slotTick k
        let w := if v / 2 = s.tickCount then v else 2 * s.tickCount + b2n (v / 2 + 1 == s.tickCount)
        { s with sch := { s.sch with slotTick := fset (fun _ => 0) s.sch.slotTick k w } }
      else s
    mark (mark s 0) 1) s

/-- ATS_INVALIDATE: an ATS Invalidate Request of a function is completed (R213); the part keeps no host
translation. -/
def execAtsInvalidate (vf tag : Nat) (s : State) : Res := .next (s.emit (.atsDone vf tag))

/-! ### Opcodes that end as they start -/

/-- QUEUE_NOP (R246). -/
def execQueueNop (n q : Nat) (s : State) : Res := s.startNext n q 0x01 (fun c s => s.endCmd n q c.uid 0 0 0)

/-- FENCE_READ: the fence's value, and its error flag in DETAIL (Table 06-5). -/
def execFenceRead (n q : Nat) (s : State) : Res :=
  s.startNext n q 0x50 (fun c s =>
    let f := s.fence n (c.body 0 2)
    s.endCmd n q c.uid 0 (b2n f.err) f.value)

/-- FENCE_RESET: the fence takes VALUE and loses its error flag (R237). -/
def execFenceReset (n q : Nat) (s : State) : Res :=
  s.startNext n q 0x51 (fun c s =>
    (s.modFence n (c.body 0 2) (fun f => { f with value := c.body 8 8, err := false })).endCmd n q c.uid 0 0 0)

/-! ### COPY (R247, Table 06-3) -/

/-- The exchange address of VF `n`'s BAR2 offset `o`, when it lies in a SLICE region of the VF (Table 06-3). -/
def State.copyExm (s : State) (n o : Nat) : Option Nat :=
  let a := s.fld (F.EXM_VF_WIN_BASE n) * 4096 + o
  if o < 0x3F000 then
    match s.regionAt a with
    | some (_, g) => if g.kind = 1 && g.vf == n then some a else none
    | none => none
  else none

/-- How one end of a COPY fares: a status and DETAIL that end it, or nothing. -/
def State.copyCheck (s : State) (n space a len : Nat) (write hostOk : Bool) : Option (Nat × Nat) :=
  match space with
  | 0 => match s.memCheck freshAgent n a len write true with
    | some (.address _) => some (4, 0)
    | some (.poison _) => some (0x21, 0)
    | none => none
  | 1 => if hostOk then none else some (5, 0)
  | _ =>
    if (addrs a len).any (fun o => (s.copyExm n o).isNone) then some (4, 1)
    else if !write && (addrs a len).any (fun o => s.hasUe ((s.copyExm n o).getD 0 / 8 * 8)) then some (0x21, 0)
    else none

/-- The source bytes of a COPY. -/
def State.copyRead (s : State) (n space a len : Nat) (host : List Byte) : List Byte :=
  match space with
  | 0 => s.memBytes freshAgent n a len
  | 1 => fitTo len host
  | _ => (addrs a len).map (fun o => fget (fun _ => 0) s.exm.mem ((s.copyExm n o).getD 0))

/-- Write the destination of a COPY. -/
def State.copyWrite (s : State) (n space a : Nat) (bs : List Byte) : State :=
  match space with
  | 0 => s.memPut freshAgent n a bs
  | 1 => s.emit (.dma n a bs)
  | _ => (bs.zipIdx).foldl (fun s p => s.exmPut ((s.copyExm n (a + p.2)).getD 0) [p.1]) s

/-- A COPY ends at a check. An uncorrectable error of the exchange memory is counted and logged there and is no fault of
the job (R133, R686). -/
def State.copyFail (s : State) (n q uid space a len st d : Nat) : State :=
  if space = 2 && st = 0x21 then
    let w := ((addrs a len).map (fun o => (s.copyExm n o).getD 0 / 8 * 8)).find? s.hasUe
    (s.eccUe (w.getD 0)).endCmd n q uid st d 0
  else s.faultCmd n q uid st d 0 0 0

/-- COPY: the source is read whole, then the destination is written (R247). `host` is what a host source returns, none
where its read fails; `sent` is how many bytes a host destination took. -/
def execCopy (n q : Nat) (host : Option (List Byte)) (sent : Nat) (s : State) : Res :=
  s.startNext n q 0x10 (fun c s =>
    let len := c.body 0x10 8
    let ss := c.body 0x18 1
    let ds := c.body 0x19 1
    match s.copyCheck n ss (c.body 0 8) len false host.isSome with
    | some (st, d) => s.copyFail n q c.uid ss (c.body 0 8) len st d
    | none =>
      match s.copyCheck n ds (c.body 8 8) len true true with
      | some (st, d) => s.faultCmd n q c.uid st d 0 0 0
      | none =>
        let bs := s.copyRead n ss (c.body 0 8) len (host.getD [])
        if ds = 1 && decide (sent < len) then (s.copyWrite n 1 (c.body 8 8) (bs.take sent)).endCmd n q c.uid 5 0 0
        else (s.copyWrite n ds (c.body 8 8) bs).endCmd n q c.uid 0 0 len)

end Sys2Proof.Machine
end

