-- ==== Sys2Proof/Machine/Issue.lean ====
section
/-! DEFINITION. Issuing a Yarrow instruction (chapters 10, 11, 13): which group issues, its word, its operands, the
decode checks, guards, and how exceptions end a launch. -/

namespace Sys2Proof.Machine

/-- An instruction at issue: context key and group, which half of a split group, the context, the group and the kernel
as they stand, the instruction's index and word, and the active lanes. -/
structure Iss where
  k : Nat
  g : Nat
  hi : Bool
  x : Ctx
  y : Group
  kn : Kernel
  pc : Nat
  w : Nat
  act : Nat
  /-- it is the first instruction after a WRESUME -/
  was : Bool
deriving DecidableEq, Repr

/-! ### Fields (Tables 11-1, 11-2) -/

def w32 : Nat := 2 ^ 32


def Iss.c (i : Iss) : Nat := i.k / 8
def Iss.sched (i : Iss) : Nat := i.g % 4
def Iss.op (i : Iss) : Nat := bitsOf i.w 63 56
def Iss.guard (i : Iss) : Nat := bitsOf i.w 55 52
def Iss.neg (i : Iss) : Bool := tst i.w 51
def Iss.d (i : Iss) : Nat := bitsOf i.w 50 43
def Iss.a (i : Iss) : Nat := bitsOf i.w 42 35
def Iss.b (i : Iss) : Nat := bitsOf i.w 34 27
def Iss.imm (i : Iss) : Nat := bitsOf i.w 34 3
def Iss.mod (i : Iss) : Nat := bitsOf i.w 7 0
def Iss.srcC (i : Iss) : Nat := bitsOf i.w 23 16
/-- An odd opcode below 0x48, or MOVI, is in Format I (R412). -/
def Iss.isI (i : Iss) : Bool := (decide (i.op < 0x48) && i.op % 2 == 1) || i.op == 0x51
def Iss.ua (i : Iss) : Bool := if i.isI then tst i.w 2 else tst i.w 26
def Iss.ub (i : Iss) : Bool := tst i.w 25
def Iss.uc (i : Iss) : Bool := tst i.w 24
def Iss.ud (i : Iss) : Bool := if i.isI then tst i.w 1 else tst i.w 15

/-! ### Registers -/

/-- The vector register a field names (Table 13-2 in a windowed context). -/
def Iss.phys (i : Iss) (f : Nat) : Nat :=
  if !i.x.windowed then f
  else if f < 8 then f
  else if f < 20 then (if i.y.inTrap then 128 + f else 16 * i.y.wcur + f)
  else if f < 24 then (if i.y.inTrap then 16 * i.y.wcur + f else 16 * ((i.y.wcur + 7) % 8) + f)
  else if i.y.inTrap then 124 + f else 16 * i.y.wcur + f - 4

/-- The field names no register of the context (R414, R477). -/
def Iss.outOfRange (i : Iss) (f : Nat) : Bool := if i.x.windowed then decide (28 ≤ f) else decide (i.x.laneRegs ≤ f)

def Group.v (y : Group) (r t : Nat) : Nat := (fget (fun _ => 0) y.regs (32 * r + t)).toNat
def Group.u (y : Group) (r : Nat) : Nat := (fget (fun _ => 0) y.unif r).toNat
def Group.p (y : Group) (r t : Nat) : Bool := r == 15 || tst (fget (fun _ => 0) y.preds r) t

def Group.setV (y : Group) (r t v : Nat) : Group :=
  { y with regs := fset (fun _ => 0) y.regs (32 * r + t) (BitVec.ofNat 32 v) }
def Group.setU (y : Group) (r v : Nat) : Group := { y with unif := fset (fun _ => 0) y.unif r (BitVec.ofNat 32 v) }
def Group.setP (y : Group) (r t : Nat) (v : Bool) : Group :=
  { y with preds := fset (fun _ => 0) y.preds r (putBit (fget (fun _ => 0) y.preds r) t v) }

def Iss.v (i : Iss) (f t : Nat) : Nat := i.y.v (i.phys f) t
/-- A field as a vector or a uniform register, in lane `t`. -/
def Iss.src (i : Iss) (u : Bool) (f t : Nat) : Nat := if u then i.y.u f else i.v f t

/-! ### Lanes and guards (R416, R417) -/

def Iss.lanes (i : Iss) : List Nat := bitList i.act 32
def Iss.holds (i : Iss) (t : Nat) : Bool := i.guard == 15 || (i.y.p i.guard t != i.neg)
/-- The active lanes whose guard holds. -/
def Iss.on (i : Iss) : List Nat := i.lanes.filter i.holds
/-- The lowest-numbered active lane, and whether the guard holds in it. -/
def Iss.first (i : Iss) : Nat := i.lanes.headD 0
def Iss.groupOn (i : Iss) : Bool := match i.lanes with | [] => false | t :: _ => i.holds t

/-- The mask of a list of lanes. -/
def maskOfLanes (l : List Nat) : Nat := l.foldl (fun m t => m + 2 ^ t) 0

/-! ### Readiness (R379, R381, R436, R482, R491) -/

/-- Where a context's work comes from: CLASS 0 or 1 of its command's queue, or 2 for a Teasel step (Table 15-6). -/
def State.ctxClass (s : State) (x : Ctx) : Nat :=
  match s.launchOf x.launch with
  | some l =>
    if l.owner = 2 then 2
    else (match s.findCmd x.vf l.uid with | some (q, _) => s.fld (F.QIF_Q_CTRL_CLASS x.vf q) | none => 0)
  | none => 0

/-- The exclusive job is what the context works for (R552). -/
def State.ctxExcl (s : State) (x : Ctx) : Bool :=
  match s.launchOf x.launch with | some l => l.owner != 2 && s.exclIs x.vf l.uid | none => false

/-- A running slot runs the context on cluster `c`: it covers the cluster, runs the slice, and continues work of its class
(R381, R544, R547, Table 15-2). -/
def State.runsOn (s : State) (x : Ctx) (c : Nat) : Bool :=
  tst (s.homeClusters x.vf) c &&
  s.sch.running.any (fun y => s.slotRuns x.vf y && (y.kind == 4 || tst y.clusters c) &&
    (match y.kind with
     | 1 => s.ctxClass x == 1
     | 2 => s.ctxClass x == 0
     | 3 => s.ctxClass x == 0 || (s.ctxClass x == 2 && y.teasel)
     | _ => s.ctxExcl x))

/-- The context's groups may issue on cluster `c` now: it runs there and the lag rule does not hold it (R545). -/
def State.mayIssue (s : State) (x : Ctx) (c : Nat) : Bool :=
  s.runsOn x c && fget (fun _ => 0) s.sch.held (64 * c + x.vf) == 0

/-- The first issue of an RT context that was resident at its slot's START: the time since START is recorded when it is the
longest seen (R568). -/
def State.rtFirst (s : State) (k : Nat) : State :=
  match s.sch.running.find? (fun y => y.kind == 1 && y.waiting.contains k) with
  | none => s
  | some y =>
    let ns := min (s.runClk - (s.tick.bndClk + 10 * y.start)) 0xFFFF
    let s1 := s.setFld F.SCH_RT_LAT_MAX_NS (max (s.fld F.SCH_RT_LAT_MAX_NS) ns)
    { s1 with sch := { s1.sch with running := s1.sch.running.map (fun z =>
        if z.kind = 1 then { z with waiting := z.waiting.filter (fun j => j != k) } else z) } }

def Group.pc (y : Group) (hi : Bool) : Nat := if hi then y.pc1 else y.pc0
def Group.act (y : Group) (hi : Bool) : Nat := if hi then y.act1 else y.act0

/-- The code word at an instruction index. -/
def Kernel.word (k : Kernel) (pc : Nat) : Nat := leAt k.code (8 * pc) 8

/-- (counter − target) as a signed value is 0 or more (R398). -/
def reached (ctr v : Nat) : Bool := decide ((ctr + 2 ^ 32 - v % 2 ^ 32) % 2 ^ 32 < 2 ^ 31)

def Ctx.ctr (x : Ctx) (n : Nat) : Nat := fget (fun _ => 0) x.ctrs n

/-- The group's next word is a WAIT or WAITU whose counter has not reached its target. -/
def waitsAt (x : Ctx) (y : Group) (w : Nat) : Bool :=
  let op := bitsOf w 63 56
  (op == 0x72 && !reached (x.ctr (bitsOf w 46 43)) (bitsOf w 34 3)) ||
    (op == 0x73 && !reached (x.ctr (bitsOf w 46 43)) (y.u (bitsOf w 42 35)))

/-- Another group that YIELD MODE 0 still waits for: it is there and could issue. -/
def State.awaited (s : State) (c key : Nat) : Bool :=
  match s.ctx (8 * c + key / 64) with
  | none => false
  | some x =>
    let y := x.group (key % 64)
    let w := match s.kernel x.vf x.handle with | some k => k.word y.pc0 | none => 0
    decide (y.exited ≠ 0xFFFFFFFF) && !x.parked && y.yieldOn.isEmpty && y.yieldTick == 0 && !waitsAt x y w &&
      s.mayIssue x c

/-- The group is ready to issue (R379, R436, R491). -/
def State.ready (s : State) (i : Iss) : Bool :=
  let cl := s.cluster i.c
  !s.frozen && decide (i.y.exited ≠ 0xFFFFFFFF) && !i.x.parked &&
    (if cl.defer = 0 then s.mayIssue i.x i.c else i.y.inTrap) &&
    i.y.atJoin != (if i.hi then 2 else 1) &&
    (i.y.yieldTick == 0 || decide (i.y.yieldTick ≤ s.tickCount)) &&
    !i.y.yieldOn.any (s.awaited i.c)

/-- The instruction that a group, or a half of it, issues next; none where there is no such group or the fetch lies
outside the code (R435). -/
def State.fetch (s : State) (c j g : Nat) (hi : Bool) : Option Iss :=
  match (if j < 8 then s.ctx (8 * c + j) else none) with
  | none => none
  | some x =>
    match s.kernel x.vf x.handle with
    | none => none
    | some kn =>
      let y := x.group g
      if x.groups ≤ g || (hi && !y.split) then none
      else some { k := 8 * c + j, g := g, hi := hi, x := x, y := y, kn := kn, pc := y.pc hi, w := kn.word (y.pc hi), act := y.act hi,
                  was := y.resumed }

def Iss.inCode (i : Iss) : Bool := decide (8 * i.pc < i.kn.code.length)

/-! ### Effects -/

/-- The group as the instruction leaves it. -/
def Iss.put (i : Iss) (s : State) (y : Group) : State := s.modCtx i.k (fun x => x.setGroup i.g y)

def Group.setPc (y : Group) (hi : Bool) (pc : Nat) : Group := if hi then { y with pc1 := pc } else { y with pc0 := pc }
def Group.setAct (y : Group) (hi : Bool) (m : Nat) : Group := if hi then { y with act1 := m } else { y with act0 := m }

/-- An index relative to an instruction's own, modulo 2^32. -/
def relPc (pc : Nat) (off : Int) : Nat := (((pc : Int) + off) % 2 ^ 32).toNat

/-- Continue at the next instruction. -/
def Iss.next (i : Iss) (y : Group) : Group := y.setPc i.hi (i.pc + 1)

/-- Stop launch `id`, and end what it belongs to with a contained fault (R378, R446). -/
def State.failLaunch (s : State) (id status detail exc pc tp : Nat) : State :=
  match s.launchOf id with
  | none => s
  | some l =>
    ((s.stopCmd l.vf l.uid).stopLaunch id).faultUid l.vf l.uid status detail exc pc tp

/-- An exception at this instruction (R446): code of Table 11-10, and the CODE of a TRAP. -/
def Iss.exc (i : Iss) (s : State) (code trap : Nat) : State :=
  s.failLaunch i.x.launch 0x20 (code + 256 * trap) code i.pc (if i.y.inTrap then i.y.trapPc else 0)

/-- The first of a list of conditions, each with the exception it raises (R447). -/
def Iss.firstExc (i : Iss) (s : State) (l : List (Bool × Nat)) (k : Unit → State) : State :=
  match l.find? (fun p => p.1) with
  | some p => i.exc s p.2 0
  | none => k ()

/-- What the decoder checks of one instruction: it is illegal (R413), the vector register fields it uses, each with the
number of registers from it on (R414), and whether it is barred from the trap window (R483, R485): 0 no, 1
HANDLER_LIMIT, 2 a nested window fault. -/
structure Decoded where
  illegal : Bool
  regs : List (Nat × Nat)
  barred : Nat := 0
deriving DecidableEq, Repr

/-- The fields of a register group. -/
def fieldsOf (l : List (Nat × Nat)) : List Nat := (l.map (fun (p : Nat × Nat) => (List.range p.2).map (p.1 + ·))).flatten

/-- The instruction reads or writes a register that a load has not yet written (R449). -/
def Iss.hazard (i : Iss) (l : List (Nat × Nat)) : Bool :=
  (fieldsOf l).any (fun f => i.y.loads.any (fun p => decide (p.reg ≤ i.phys f ∧ i.phys f < p.reg + (p.size + 3) / 4)))

/-- Count an issue, unless it takes no issue slot: the other groups of the scheduler that yielded to this one have seen it
offered issue. -/
def Iss.count (i : Iss) (s : State) (slot : Bool) : State :=
  let key := 64 * (i.k % 8) + i.g
  let s1 := if slot then s.count (R.YAR_CNT_ISSUE i.c) 1 else s
  (slotsOf i.c).foldl (fun s k => match s.ctx k with
    | none => s
    | some x => (List.range x.groups).foldl (fun s g =>
        if (x.group g).yieldOn.contains key then s.modGroup k g (fun y => { y with yieldOn := y.yieldOn.filter (· != key) })
        else s) s) s1

/-- The common decode faults: a guard of 15 negated (R413). -/
def Iss.guardBad (i : Iss) : Bool := i.guard == 15 && i.neg

/-- A group in the trap window counts its issues (R484). -/
def Iss.handled (i : Iss) : Iss :=
  { i with y := { i.y with handlerCount := if i.y.inTrap then i.y.handlerCount + 1 else i.y.handlerCount, resumed := false
                           yieldTick := 0, yieldOn := [] } }

/-- Issue the group's next instruction when its opcode is one of `ops`: readiness, decode checks, then its effect
(R379, R413, R414, R447, R484). A launch whose arguments could not be copied ends instead (R376). While `hold` says that
the instruction must wait for room, it has not issued; while `free` says so, it takes no issue slot. -/
def State.issue (s : State) (c j g : Nat) (hi : Bool) (ops : List Nat) (dec : Iss → Decoded) (body : Iss → State → State)
    (hold : Iss → State → Bool := fun _ _ => false) (free : Iss → Bool := fun _ => false) : Res :=
  match s.fetch c j g hi with
  | none => .next s
  | some i =>
    if !i.inCode || !ops.contains i.op || !s.ready i then .next s
    else
      let d := dec i
      let f := match s.launchOf i.x.launch with | some l => l.fault | none => 0
      if f ≠ 0 then .next (s.failLaunch i.x.launch (if f = 1 then 4 else 0x21) 0 0 i.pc 0)
      else if (waitsAt i.x i.y i.w && i.groupOn) || i.hazard d.regs then .next s
      else
        let s1 := (i.count s (!free i)).rtFirst i.k
        let i1 := { i.handled with x := match s1.ctx i.k with | some x => x | none => i.x }
        if i.y.inTrap && decide (256 ≤ i.y.handlerCount) then .next (i1.exc s1 0x0D 0)
        else if i.guardBad || d.illegal then .next (i1.exc s1 0x01 0)
        else if (fieldsOf d.regs).any i.outOfRange then .next (i1.exc s1 0x02 0)
        else if i.y.inTrap && d.barred == 2 && i.groupOn then
          .next (s1.failLaunch i.x.launch 0x22 0 0 i.pc i.y.trapPc)
        else if i.y.inTrap && d.barred == 1 && !i.on.isEmpty then .next (i1.exc s1 0x0D 0)
        else if hold i s then .next s
        else .next (body i1 s1)

/-- Whether the word of an instruction is of no known opcode for its image (R413). -/
def knownOps : List Nat :=
  [0x00, 0x01, 0x02, 0x03, 0x04, 0x05, 0x06, 0x07, 0x08, 0x0A, 0x0B, 0x0C, 0x0D, 0x0E, 0x0F, 0x10, 0x11, 0x12, 0x13, 0x14,
   0x15, 0x16, 0x17, 0x18, 0x1A, 0x1C, 0x1E, 0x1F] ++
  [0x20, 0x21, 0x22, 0x23, 0x24, 0x25, 0x26, 0x27, 0x28, 0x29, 0x2A, 0x2B, 0x2C, 0x2E, 0x30, 0x32, 0x34, 0x36, 0x38, 0x3A,
   0x3C, 0x3E, 0x40, 0x41, 0x42, 0x43, 0x44, 0x46] ++
  [0x50, 0x51, 0x52, 0x54, 0x60, 0x61, 0x62, 0x63, 0x64, 0x65, 0x66, 0x67, 0x68, 0x69, 0x6A, 0x6B, 0x6C, 0x6D, 0x6E, 0x70,
   0x71, 0x72, 0x73, 0x74, 0x78, 0x7A] ++
  [0x80, 0x81, 0x82, 0x83, 0x84, 0x85, 0x86, 0x87, 0x90, 0x98, 0x99]

def windowOps : List Nat := [0xA0, 0xA1, 0xA2, 0xA3, 0xA4, 0xA5]

/-- KERNEL_EXCEPTION: the group's next instruction lies outside the code, or its opcode is reserved (R413, R435, R447);
every other exception is raised by its own instruction. -/
def execKernelException (c j g : Nat) (hi : Bool) (s : State) : Res :=
  match s.fetch c j g hi with
  | none => .next s
  | some i =>
    if !s.ready i then .next s
    else if !i.inCode then .next (i.exc s 0x03 0)
    else if knownOps.contains i.op || (i.x.windowed && windowOps.contains i.op) then .next s
    else .next (i.exc s 0x01 0)

end Sys2Proof.Machine
end

