-- ==== Sys2Proof/Machine/Alu.lean ====
section
/-! DEFINITION. The arithmetic, compare, move, convert and lane instructions of Yarrow (chapter 11). -/

namespace Sys2Proof.Machine

/-! ### Three-operand and immediate forms -/

/-- Operands of an arithmetic instruction: how many sources it has. -/
def Iss.vecRegs (i : Iss) (srcs : Nat) : List (Nat × Nat) :=
  (if i.ud then [] else [(i.d, 1)]) ++ (if i.ua then [] else [(i.a, 1)]) ++
    (if decide (2 ≤ srcs) && !i.isI && !i.ub then [(i.b, 1)] else []) ++
    (if srcs = 3 && !i.uc then [(i.srcC, 1)] else [])

/-- The checks common to Formats T and I (R413): uniform names up to u63, a uniform destination only from uniform
sources, B zero in a unary operation, Reserved bits zero. -/
def Iss.formBad (i : Iss) (srcs : Nat) : Bool :=
  (i.ua && decide (63 < i.a)) || (decide (2 ≤ srcs) && !i.isI && i.ub && decide (63 < i.b)) ||
    (srcs == 3 && i.uc && decide (63 < i.srcC)) || (i.ud && decide (63 < i.d)) ||
    (i.ud && (!i.ua || (decide (2 ≤ srcs) && !i.isI && !i.ub) || (srcs == 3 && !i.uc))) ||
    (srcs == 1 && i.b != 0) || (i.isI && tst i.w 0)

/-- Source b: a register, or IMM32 in Format I. -/
def Iss.srcB (i : Iss) (t : Nat) : Nat := if i.isI then i.imm else i.src i.ub i.b t

/-- MOD, 0 in Format I (R412). -/
def Iss.mods (i : Iss) : Nat := if i.isI then 0 else i.mod

/-- Write a result in every active lane whose guard holds, or once to a uniform register (R416, R417, R418). -/
def Iss.result (i : Iss) (f : Nat → Nat) : Group :=
  if i.ud then (if i.groupOn then i.y.setU i.d (f i.first) else i.y)
  else i.on.foldl (fun y t => y.setV (i.phys i.d) t (f t)) i.y

/-- An instruction of the integer or float class: its opcodes, its number of sources, the MOD bits it may have, and its
result from MOD, a, b, c and a free value (R416 to R421). -/
def State.alu (s : State) (c j g : Nat) (hi : Bool) (ops : List Nat) (srcs allowed : Nat)
    (f : Nat → Nat → Nat → Nat → Nat → Nat) : Res :=
  s.issue c j g hi ops
    (fun i => ⟨i.formBad srcs || Nat.land i.mods (255 - allowed) != 0, i.vecRegs srcs, 0⟩)
    (fun i s =>
      let r := fun (t : Nat) => f i.mods (i.src i.ua i.a t) (if 2 ≤ srcs then i.srcB t else 0)
        (if srcs = 3 then i.src i.uc i.srcC t else 0) (Config.freeValue (s.freeCount + t)).toNat
      (i.put s (i.next (i.result r))).drawnN 32)

/-! ### Integer class (Table 11-4) -/

def s32 (n : Nat) : Int := sgn 32 n

/-- A sum or difference, saturated in the signedness SIGNED selects when SAT is set. -/
def satInt (m : Nat) (u s : Int) : Nat :=
  if !tst m 1 then unsgn 32 u
  else if tst m 0 then unsgn 32 (max (-2147483648) (min 2147483647 s))
  else (max 0 (min 4294967295 u)).toNat

def intMul (m a b : Nat) : Int := if tst m 0 then s32 a * s32 b else (a : Int) * (b : Int)
def intLt (m a b : Nat) : Bool := if tst m 0 then decide (s32 a < s32 b) else decide (a < b)

/-- Leading zeros of a 32-bit value. -/
def clz32 (a : Nat) : Nat := if a % w32 = 0 then 32 else 31 - Nat.log2 (a % w32)

/-- BFE: `len` bits of `a` from `pos`, bits above bit 31 reading 0; sign-extended when SIGNED. -/
def bfe (m a b : Nat) : Nat :=
  let len := bitsOf b 13 8
  let v := a % w32 / 2 ^ (b % 32) % 2 ^ min len 32
  if len = 0 then 0 else if tst m 0 then unsgn 32 (sgn (min len 32) v) else v

/-- IADD (R419, Table 11-4). -/
def execIadd (c j g : Nat) (hi : Bool) (s : State) : Res :=
  s.alu c j g hi [0x00, 0x01] 2 3 (fun m a b _c _r => satInt m ((a : Int) + b) (s32 a + s32 b))

/-- ISUB (R419, Table 11-4). -/
def execIsub (c j g : Nat) (hi : Bool) (s : State) : Res :=
  s.alu c j g hi [0x02, 0x03] 2 3 (fun m a b _c _r => satInt m ((a : Int) - b) (s32 a - s32 b))

/-- IMUL (R419, Table 11-4). -/
def execImul (c j g : Nat) (hi : Bool) (s : State) : Res :=
  s.alu c j g hi [0x04, 0x05] 2 0 (fun _m a b _c _r => a * b)

/-- IMULHI (R419, Table 11-4). -/
def execImulhi (c j g : Nat) (hi : Bool) (s : State) : Res :=
  s.alu c j g hi [0x06, 0x07] 2 1 (fun m a b _c _r => unsgn 32 (intMul m a b / 4294967296))

/-- IMAC (R419, Table 11-4). -/
def execImac (c j g : Nat) (hi : Bool) (s : State) : Res :=
  s.alu c j g hi [0x08] 3 0 (fun _m a b c _r => a * b + c)

/-- IMIN (R419, Table 11-4). -/
def execImin (c j g : Nat) (hi : Bool) (s : State) : Res :=
  s.alu c j g hi [0x0A, 0x0B] 2 1 (fun m a b _c _r => if intLt m b a then b else a)

/-- IMAX (R419, Table 11-4). -/
def execImax (c j g : Nat) (hi : Bool) (s : State) : Res :=
  s.alu c j g hi [0x0C, 0x0D] 2 1 (fun m a b _c _r => if intLt m a b then b else a)

/-- AND (R419, Table 11-4). -/
def execAnd (c j g : Nat) (hi : Bool) (s : State) : Res :=
  s.alu c j g hi [0x0E, 0x0F] 2 0 (fun _m a b _c _r => Nat.land a b)

/-- OR (R419, Table 11-4). -/
def execOr (c j g : Nat) (hi : Bool) (s : State) : Res :=
  s.alu c j g hi [0x10, 0x11] 2 0 (fun _m a b _c _r => Nat.lor a b)

/-- XOR (R419, Table 11-4). -/
def execXor (c j g : Nat) (hi : Bool) (s : State) : Res :=
  s.alu c j g hi [0x12, 0x13] 2 0 (fun _m a b _c _r => Nat.xor a b)

/-- SHL (R419, Table 11-4). -/
def execShl (c j g : Nat) (hi : Bool) (s : State) : Res :=
  s.alu c j g hi [0x14, 0x15] 2 0 (fun _m a b _c _r => a * 2 ^ (b % 32))

/-- SHR (R419, Table 11-4). -/
def execShr (c j g : Nat) (hi : Bool) (s : State) : Res :=
  s.alu c j g hi [0x16, 0x17] 2 1 (fun m a b _c _r => if tst m 0 then unsgn 32 (s32 a / 2 ^ (b % 32)) else a / 2 ^ (b % 32))

/-- POPC (R419, Table 11-4). -/
def execPopc (c j g : Nat) (hi : Bool) (s : State) : Res :=
  s.alu c j g hi [0x18] 1 0 (fun _m a _b _c _r => popCount a 32)

/-- CLZ (R419, Table 11-4). -/
def execClz (c j g : Nat) (hi : Bool) (s : State) : Res :=
  s.alu c j g hi [0x1A] 1 0 (fun _m a _b _c _r => clz32 a)

/-- IABS (R419, Table 11-4). -/
def execIabs (c j g : Nat) (hi : Bool) (s : State) : Res :=
  s.alu c j g hi [0x1C] 1 2 (fun m a _b _c _r => if tst m 1 && a == 0x80000000 then 0x7FFFFFFF else unsgn 32 ((s32 a).natAbs : Nat))

/-- BFE (R419, Table 11-4). -/
def execBfe (c j g : Nat) (hi : Bool) (s : State) : Res :=
  s.alu c j g hi [0x1E, 0x1F] 2 1 (fun m a b _c _r => bfe m a b)

/-! ### Float class (Table 11-5) -/

/-- ABSA and NEGA, or ABSB and NEGB, on one element. -/
def signMods (absBit negBit : Nat) (m : Nat) (x : Num) : Num :=
  let y := if tst m absBit then x.abs else x
  if tst m negBit then y.neg else y

def opA (m : Nat) (x : Num) : Num := signMods 6 4 m x
def opB (m : Nat) (x : Num) : Num := signMods 7 5 m x

/-- Round to a format in the ROUND mode, then clamp when SAT is set (R420). -/
def fOut (f : Fmt) (m : Nat) (x : Num) : Nat :=
  let c := f.encode (m % 4) false x
  if tst m 2 then f.encode 0 false (f.decode c).clamp01 else c

/-- A binary32 operation on decoded sources. -/
def f32op (m a b c : Nat) (f : Num → Num → Num → Num) : Nat :=
  fOut f32 m (f (opA m (f32.decode a)) (opB m (f32.decode b)) (f32.decode c))

/-- A function with a stated error bound. -/
def f32fn (fn m a r : Nat) : Nat :=
  let c := boundedFn fn (opA m (f32.decode a)) r
  if tst m 2 then f32.encode 0 false (f32.decode c).clamp01 else c

/-- A packed operation: element 0 in bits 15 to 0 (R421). -/
def packed (m a b c : Nat) (f : Num → Num → Num → Num) : Nat :=
  let t := if tst m 3 then bf16 else f16
  let e := fun (k : Nat) =>
    fOut t m (f (opA m (t.decode (a / 2 ^ k % 65536))) (opB m (t.decode (b / 2 ^ k % 65536))) (t.decode (c / 2 ^ k % 65536)))
  e 0 + 65536 * e 16

/-- FADD (R420, Table 11-5). -/
def execFadd (c j g : Nat) (hi : Bool) (s : State) : Res :=
  s.alu c j g hi [0x20, 0x21] 2 247 (fun m a b _ _ => f32op m a b 0 (fun x y _ => x.add (m % 4) y))

/-- FSUB (R420, Table 11-5). -/
def execFsub (c j g : Nat) (hi : Bool) (s : State) : Res :=
  s.alu c j g hi [0x22, 0x23] 2 247 (fun m a b _ _ => f32op m a b 0 (fun x y _ => x.add (m % 4) y.neg))

/-- FMUL (R420, Table 11-5). -/
def execFmul (c j g : Nat) (hi : Bool) (s : State) : Res :=
  s.alu c j g hi [0x24, 0x25] 2 247 (fun m a b _ _ => f32op m a b 0 (fun x y _ => x.mul y))

/-- FMAC (R420, Table 11-5). -/
def execFmac (c j g : Nat) (hi : Bool) (s : State) : Res :=
  s.alu c j g hi [0x26] 3 247 (fun m a b c _r => f32op m a b c (fun x y z => (x.mul y).add (m % 4) z))

/-- FMIN (R420, Table 11-5). -/
def execFmin (c j g : Nat) (hi : Bool) (s : State) : Res :=
  s.alu c j g hi [0x28, 0x29] 2 244 (fun m a b _ _ => f32op m a b 0 (fun x y _ => x.least y))

/-- FMAX (R420, Table 11-5). -/
def execFmax (c j g : Nat) (hi : Bool) (s : State) : Res :=
  s.alu c j g hi [0x2A, 0x2B] 2 244 (fun m a b _ _ => f32op m a b 0 (fun x y _ => x.most y))

/-- FRCP (R420, Table 11-5). -/
def execFrcp (c j g : Nat) (hi : Bool) (s : State) : Res :=
  s.alu c j g hi [0x2C] 1 244 (fun m a _b _c r => f32fn 0 m a r)

/-- FRSQ (R420, Table 11-5). -/
def execFrsq (c j g : Nat) (hi : Bool) (s : State) : Res :=
  s.alu c j g hi [0x2E] 1 244 (fun m a _b _c r => f32fn 1 m a r)

/-- FEXP2 (R420, Table 11-5). -/
def execFexp2 (c j g : Nat) (hi : Bool) (s : State) : Res :=
  s.alu c j g hi [0x30] 1 244 (fun m a _b _c r => f32fn 2 m a r)

/-- FLOG2 (R420, Table 11-5). -/
def execFlog2 (c j g : Nat) (hi : Bool) (s : State) : Res :=
  s.alu c j g hi [0x32] 1 244 (fun m a _b _c r => f32fn 3 m a r)

/-- FSIN (R420, Table 11-5). -/
def execFsin (c j g : Nat) (hi : Bool) (s : State) : Res :=
  s.alu c j g hi [0x34] 1 244 (fun m a _b _c r => f32fn 4 m a r)

/-- FCOS (R420, Table 11-5). -/
def execFcos (c j g : Nat) (hi : Bool) (s : State) : Res :=
  s.alu c j g hi [0x36] 1 244 (fun m a _b _c r => f32fn 5 m a r)

/-- FTANH (R420, Table 11-5). -/
def execFtanh (c j g : Nat) (hi : Bool) (s : State) : Res :=
  s.alu c j g hi [0x38] 1 244 (fun m a _b _c r => f32fn 6 m a r)

/-- PADD (R421, Table 11-5). -/
def execPadd (c j g : Nat) (hi : Bool) (s : State) : Res :=
  s.alu c j g hi [0x3A] 2 255 (fun m a b _c _r => packed m a b 0 (fun x y _ => x.add (m % 4) y))

/-- PMUL (R421, Table 11-5). -/
def execPmul (c j g : Nat) (hi : Bool) (s : State) : Res :=
  s.alu c j g hi [0x3C] 2 255 (fun m a b _c _r => packed m a b 0 (fun x y _ => x.mul y))

/-- PMAC (R421, Table 11-5). -/
def execPmac (c j g : Nat) (hi : Bool) (s : State) : Res :=
  s.alu c j g hi [0x3E] 3 255 (fun m a b c _r => packed m a b c (fun x y z => (x.mul y).add (m % 4) z))

/-! ### Compares and predicates (R416, R424) -/

/-- CMP on the order of a and b. -/
def cmpHolds (cmp : Nat) (o : Int) : Bool :=
  match cmp with
  | 0 => o == 0
  | 1 => o != 0
  | 2 => decide (o < 0)
  | 3 => decide (o ≤ 0)
  | 4 => decide (0 < o)
  | _ => decide (0 ≤ o)

/-- A compare: the predicate it writes in each lane (Table 11-2, Format P). -/
def State.compare (s : State) (c j g : Nat) (hi : Bool) (ops : List Nat) (f : Bool → Nat → Nat → Nat → Bool) : Res :=
  s.issue c j g hi ops
    (fun i =>
      let bad := (i.ua && decide (63 < i.a)) || (!i.isI && i.ub && decide (63 < i.b)) || i.ud || (i.isI && tst i.w 0) ||
        decide (6 ≤ bitsOf i.w 49 47) || bitsOf i.w 46 43 == 15
      ⟨bad, (if i.ua then [] else [(i.a, 1)]) ++ (if i.isI || i.ub then [] else [(i.b, 1)]), 0⟩)
    (fun i s => i.put s (i.next (i.on.foldl (fun y t =>
      y.setP (bitsOf i.w 46 43) t (f (tst i.w 50) (bitsOf i.w 49 47) (i.src i.ua i.a t) (i.srcB t))) i.y)))

/-- ICMP (R424). -/
def execIcmp (c j g : Nat) (hi : Bool) (s : State) : Res :=
  s.compare c j g hi [0x40, 0x41] (fun su cmp a b =>
    cmpHolds cmp (if su then s32 a - s32 b else (a : Int) - b))

/-- FCMP: a comparison with a NaN is false, and true with UNORD (R424). -/
def execFcmp (c j g : Nat) (hi : Bool) (s : State) : Res :=
  s.compare c j g hi [0x42, 0x43] (fun su cmp a b =>
    match (f32.decode a).cmp (f32.decode b) with | some o => cmpHolds cmp o | none => su)

/-- PCOMB (Table 11-3). -/
def execPcomb (c j g : Nat) (hi : Bool) (s : State) : Res :=
  s.issue c j g hi [0x44]
    (fun i => ⟨decide (15 < i.a) || decide (15 < i.b) || i.d % 16 == 15, [], 0⟩)
    (fun i s => i.put s (i.next (i.on.foldl (fun y t =>
      y.setP (i.d % 16) t (tst i.mod (2 * b2n (i.y.p i.a t) + b2n (i.y.p i.b t)))) i.y)))

/-- SEL (Table 11-3). -/
def execSel (c j g : Nat) (hi : Bool) (s : State) : Res :=
  s.issue c j g hi [0x46]
    (fun i => ⟨i.formBad 2, i.vecRegs 2, 0⟩)
    (fun i s => i.put s (i.next (i.result (fun t =>
      if i.y.p (i.srcC % 16) t then i.src i.ua i.a t else i.src i.ub i.b t))))

/-- MOV (Table 11-3). -/
def execMov (c j g : Nat) (hi : Bool) (s : State) : Res :=
  s.issue c j g hi [0x50]
    (fun i => ⟨i.formBad 1 || i.srcC != 0, i.vecRegs 1, 0⟩)
    (fun i s => i.put s (i.next (i.result (fun t => i.src i.ua i.a t))))

/-- MOVI (Table 11-3): with UD it writes a uniform register. -/
def execMovi (c j g : Nat) (hi : Bool) (s : State) : Res :=
  s.issue c j g hi [0x51]
    (fun i => ⟨i.a != 0 || (i.ud && decide (63 < i.d)) || tst i.w 0, if i.ud then [] else [(i.d, 1)], 0⟩)
    (fun i s => i.put s (i.next (i.result (fun _ => i.imm))))

/-! ### CVT (R423, Table 11-6) -/

/-- The float format of a CVT type code. -/
def cvtFmt (c : Nat) : Option Fmt :=
  match c with
  | 1 => some f32
  | 2 => some bf16
  | 3 => some f16
  | 4 => some e4m3
  | 5 => some e5m2
  | _ => none

/-- The range of an integer type code. -/
def cvtRange (c : Nat) : Option (Int × Int) :=
  match c with
  | 0xB => some (-128, 127)
  | 0xD => some (-2147483648, 2147483647)
  | 0xE => some (0, 4294967295)
  | _ => none

def cvtKnown (c : Nat) : Bool := (cvtFmt c).isSome || (cvtRange c).isSome

/-- An integer source: INT8 from its low bits. -/
def cvtInt (c a : Nat) : Int := if c = 0xB then sgn 8 a else if c = 0xD then s32 a else (a : Int)

/-- The result of a conversion. An integer that the destination integer type does not hold has no stated result: a free
value of that type (log entry 23). -/
def convert (src dst mode : Nat) (sat : Bool) (a r : Nat) : Nat :=
  match cvtFmt src, cvtFmt dst, cvtRange dst with
  | some f, some t, _ => t.encode mode sat (f.decode a)
  | some f, none, some (lo, hi) => unsgn 32 ((f.decode a).toIntSat mode lo hi)
  | none, some t, _ => t.encode mode sat (ofInt (cvtInt src a) 0 false)
  | none, none, some (lo, hi) =>
    let v := cvtInt src a
    if lo ≤ v ∧ v ≤ hi then unsgn 32 v else unsgn 32 (if dst = 0xB then sgn 8 r else (r : Int))
  | _, _, _ => 0

/-- CVT (R423). -/
def execCvt (c j g : Nat) (hi : Bool) (s : State) : Res :=
  s.issue c j g hi [0x52]
    (fun i => ⟨i.formBad 1 || !cvtKnown (i.mod % 16) || !cvtKnown (i.mod / 16), i.vecRegs 1, 0⟩)
    (fun i s =>
      let m2 := bitsOf i.w 14 8
      (i.put s (i.next (i.result (fun t =>
        convert (i.mod % 16) (i.mod / 16) (m2 % 4) (tst m2 2) (i.src i.ua i.a t)
          (Config.freeValue (s.freeCount + t)).toNat)))).drawnN 32)

/-! ### Lanes and system values (R438 to R440) -/

/-- RDLANE (R440). -/
def execRdlane (c j g : Nat) (hi : Bool) (s : State) : Res :=
  s.issue c j g hi [0x54]
    (fun i => ⟨!i.ub || decide (63 < i.b) || decide (63 < i.d) || i.ud, [(i.a, 1)], 0⟩)
    (fun i s => i.put s (i.next (if i.groupOn then i.y.setU i.d (i.v i.a (i.y.u i.b % 32)) else i.y)))

/-- The source lane of a shuffle (R401, R438). -/
def srcLane (mode t k : Nat) : Option Nat :=
  match mode with
  | 0 => some k
  | 1 => if k ≤ t then some (t - k) else none
  | 2 => if t + k < 32 then some (t + k) else none
  | _ => some (Nat.xor t k)

/-- XLANE (R438). -/
def execXlane (c j g : Nat) (hi : Bool) (s : State) : Res :=
  s.issue c j g hi [0x78]
    (fun i =>
      let imm := tst i.mod 2
      ⟨i.ud || (!imm && i.ub && decide (63 < i.b)), [(i.d, 1), (i.a, 1)] ++ (if imm || i.ub then [] else [(i.b, 1)]), 0⟩)
    (fun i s => i.put s (i.next (i.on.foldl (fun y t =>
      let k := (if tst i.mod 2 then bitsOf i.w 12 8 else i.src i.ub i.b t) % 32
      let from_ := match srcLane (i.mod % 4) t k with | some l => if tst i.act l then l else t | none => t
      y.setV (i.phys i.d) t (i.v i.a from_)) i.y)))

/-- VOTE (R402, R439). -/
def execVote (c j g : Nat) (hi : Bool) (s : State) : Res :=
  s.issue c j g hi [0x7A]
    (fun i =>
      let m := i.mod % 4
      let top := tst i.mod 2
      ⟨m == 3 || (top && m == 2) || decide (15 < i.a) || (if top then decide (14 < i.d) else decide (63 < i.d)), [], 0⟩)
    (fun i s =>
      let t := i.lanes.filter (fun t => i.y.p i.a t)
      let v := match i.mod % 4 with
        | 0 => b2n (t.length == i.lanes.length)
        | 1 => b2n (!t.isEmpty)
        | _ => maskOfLanes t
      i.put s (i.next (if !i.groupOn then i.y
        else if tst i.mod 2 then i.lanes.foldl (fun y l => y.setP i.d l (v == 1)) i.y
        else i.y.setU i.d v)))

/-- A system value (Table 11-9). -/
def State.sysValue (s : State) (i : Iss) (sel t : Nat) : Nat :=
  let us := s.taiStamp / 1000
  match sel with
  | 0 => t
  | 1 => i.act
  | 2 => i.sched
  | 3 => i.c
  | 4 => s.tickCount
  | 5 => s.tickCount / w32
  | 6 => us
  | _ => us / w32

/-- RDSYS (R440). -/
def execRdsys (c j g : Nat) (hi : Bool) (s : State) : Res :=
  s.issue c j g hi [0x99]
    (fun i => ⟨decide (7 < i.a) || (tst i.w 1 && decide (63 < i.d)), if tst i.w 1 then [] else [(i.d, 1)], 0⟩)
    (fun i s => i.put s (i.next (
      if tst i.w 1 then (if i.groupOn then i.y.setU i.d (s.sysValue i i.a i.first) else i.y)
      else i.on.foldl (fun y t => y.setV (i.phys i.d) t (s.sysValue i i.a t)) i.y)))

/-- YARROW_NOP (Table 11-3). -/
def execYarrowNop (c j g : Nat) (hi : Bool) (s : State) : Res :=
  s.issue c j g hi [0x87] (fun i => ⟨bitsOf i.w 50 0 != 0, [], 0⟩) (fun i s => i.put s (i.next i.y))

end Sys2Proof.Machine
end

