-- ==== Sys2Proof/Machine/Tenancy.lean ====
section
/-! DEFINITION. Tenancy, slices as objects and TDI states (chapters 07 and 08): the tenancy state, the clearing of a
slice, releases, and what a TDI that leaves RUN does. -/

namespace Sys2Proof.Machine

/-! ### States -/

/-- Tenancy STATE: 0 UNOWNED, 1 ADMITTING, 2 OWNED, 3 RELEASING (Table 05-6). -/
def State.tenancy (s : State) : Nat := s.fld F.SLC_TEN_STATUS_STATE

/-- MODEL: 0 none, 1 loading, 2 resident, 3 unloading. -/
def State.model (s : State) : Nat := s.fld F.SLC_TEN_STATUS_MODEL

/-- Give VF `n`'s slice a state; its VF sees STATE_CHANGED (Tables 06-14, 07-3). -/
def State.setSlice (s : State) (n st : Nat) : State :=
  if s.sliceState n = st then s else (s.setFld (F.SLC_S_STATE_STATE n) st).vfEvent n 1

/-- Set MODEL; the VFs with a slice see STATE_CHANGED. -/
def State.setModel (s : State) (m : Nat) : State :=
  if s.model = m then s else s.sliced.foldl (fun s n => s.vfEvent n 1) (s.setFld F.SLC_TEN_STATUS_MODEL m)

/-- The tenancy's VFs: the claiming VF and every VF with a slice (R258). -/
def State.tenancyVfs (s : State) : List Nat :=
  let c := s.fld F.SLC_TEN_STATUS_CLAIM_VF
  vfs.filter (fun n => n == c || s.sliceState n != 0)

/-! ### Clearing a slice (R277) -/

/-- The clearing of VF `n`'s slice begins, for the reason whose bit `b` is: contexts and queued work stop, queues stop,
and an ACTIVE or RESIZING slice is RESETTING (Table 07-3). While the part is frozen the slice's data and contexts stand
until the thaw (R753), which bit 4 says. -/
def State.clearBegin (s : State) (n b : Nat) : State :=
  let st := s.sliceState n
  let s1 := if s.frozen then s else s.stopSlice n
  let s2 := s1.modSlice n (fun x => { x with
    clearing := putBit (putBit x.clearing b true) 4 (s.frozen || tst x.clearing 4), prev := if st = 2 || st = 3 then st else x.prev })
  if st = 2 || st = 3 then s2.setSlice n 4 else s2

/-- The clearing ends: data zero, measurements reset, RESETS counted (R277, R320). Registers keep the layout. -/
def State.clearData (s : State) (n : Nat) : State :=
  let s1 := (s.zeroSlice n).clearVfExchange n
  s1.modSlice n (fun x => { x with
    fences := [], kernels := [], kmeas := [], kcount := 0, resets := (x.resets + 1) % 2 ^ 32 })

/-- The clearing with bit `b` ends; when no other runs, a RESETTING slice returns to its earlier state. -/
def State.clearEnd (s : State) (n b : Nat) : State :=
  let s1 := (s.clearData n).modSlice n (fun x => { x with clearing := putBit x.clearing b false })
  if s1.sliceState n = 4 && (s1.slice n).clearing % 8 == 0 then s1.setSlice n (s1.slice n).prev else s1

/-! ### TDI states (Table 08-7, R307, R308) -/

/-- TDI `n` takes state `st`. Leaving RUN puts its queues in error and resets its slice (R216, R308); for the grace
time, a VF of the tenancy has just left RUN (R258). -/
def State.setTdi (s : State) (n st : Nat) : State :=
  let old := s.tdi n
  let s1 := s.setFld (F.SEC_TDI_STATE n) st
  let s2 := if st = 0 || st = 3 then s1.setFld (F.SEC_TDI_STREAM_ID n) 0 else s1
  if old = 2 && st != 2 then
    let s3 := s2.queuesTdi n
    let s4 := if s3.tenancyVfs.contains n then { s3 with sec := { s3.sec with graceClk := s3.runClk } } else s3
    if [2, 3, 4].contains (s4.sliceState n) then
      let s5 := s4.clearBegin n 2
      ((s5.setFld F.SLC_SCRUB_ACTIVE 1).setFld F.SLC_SCRUB_KIND 2).setFld F.SLC_SCRUB_VF n
    else s4
  else s2

/-- TDI `n` enters ERROR if it is locked or running. -/
def State.tdiError (s : State) (n : Nat) : State := if s.tdi n = 1 || s.tdi n = 2 then s.setTdi n 3 else s

/-- Every locked or running TDI enters ERROR. -/
def State.tdiErrorAll (s : State) : State := vfs.foldl (fun s n => s.tdiError n) s

/-- SLICE_CLEAR_COMPLETE: a clearing that a VF FLR or a TDI started, or one of a destroyed or LOST slice, ends
(R276, R278, R281). -/
def execSliceClearComplete (n : Nat) (s : State) : Res :=
  let c := (s.slice n).clearing
  if n = 0 || 63 < n || c / 2 % 8 = 0 || s.tenancy = 3 || s.frozen then .next s
  else
    let s1 := [1, 2].foldl (fun s b => if tst c b then s.clearEnd n b else s) s
    let s2 := if tst c 3 then s1.finishSliceMem n else s1
    .next ((s2.modSlice n (fun x => { x with
      flrBusy := false, gone := none, clearing := putBit x.clearing 3 false })).setFld F.SLC_SCRUB_ACTIVE 0)

/-! ### Pending changes (R176 to R178) -/

/-- The opcode of the command that made a change. -/
def Change.op (c : Change) : Nat := if c.kind = 4 then 0x0503 else 0x0200 + c.kind

/-- Cancel one accepted slice change or swap; a slice returns to the state it had before acceptance. `log` says whether
the cancelled change is logged (R178). -/
def State.cancelChange (s : State) (log : Bool) (c : Change) : State :=
  let s2 := if c.kind = 4 then
      (s.setFld F.SCH_STATUS_SWAP_PENDING 0).setPair R.SCH_SWAP_AT_LO R.SCH_SWAP_AT_HI 0
    else
      let s3 := s.setPair (R.SLC_S_PENDING_LO c.vf) (R.SLC_S_PENDING_HI c.vf) 0
      if s3.sliceState c.vf = 1 then s3.setSlice c.vf 0
      else if s3.sliceState c.vf = 3 then s3.setSlice c.vf 2
      else if s3.sliceState c.vf = 5 then s3.setSlice c.vf (s3.slice c.vf).prev
      else s3.modSlice c.vf (fun x => { x with prev := 2 })
  if log then s2.log 0x0502 2 (if c.kind = 4 then 0 else c.vf) 0xFFFF c.op 0 else s2

/-- Drop every accepted slice change and swap. -/
def State.dropChanges (s : State) (log : Bool) : State :=
  let s1 := s.eng.changes.foldl (fun s c => s.cancelChange log c) s
  { s1 with eng := { s1.eng with changes := [] } }

/-- Drop a pending tick period and a pending time set (R177). -/
def State.dropTickChanges (s : State) (log : Bool) : State :=
  let s1 := if s.bit F.TCK_STATUS_PERIOD_PENDING then
      let a := s.noPendingPeriod
      if log then a.log 0x0502 2 0 0xFFFF 0x0601 0 else a
    else s
  match s1.tick.pendTime with
  | some (_, _, op) =>
    let a : State := { s1 with tick := { s1.tick with pendTime := none } }
    if log then a.log 0x0502 2 0 0xFFFF op 0 else a
  | none => s1

/-! ### Release (R185, R259, R260, R264) -/

/-- The model's measurement registers read zero (R319), and its manifest is not yet read (R571, R593). -/
def State.clearModelRegs (s : State) : State :=
  let s1 := s.resetRegs (R.SEC_MODEL_DIGEST 0) (R.SEC_MODEL_SIZE_HI + 4)
  ({ s1 with sec := { s1.sec with headerDigest := [], signerDigest := [] }, tsl := { s1.tsl with manifest := [] } } : State).setFld
    F.SEQ_STATUS_MANIFEST 0

/-- What a release does at acceptance: pending changes cancelled, VF jobs aborted, TDIs in ERROR, everything stopped,
the tenancy key destroyed (R185, R260 steps 1 and 2, Table 08-7). -/
def State.releaseBegin (s : State) : State :=
  let s1 := (s.dropChanges false).dropTickChanges false
  let s2 := (s1.running.filter (fun j => (s1.job j).fn != 0 && decide ((s1.job j).fn < 64))).foldl (fun s j => s.endJob j 0x2F 0) s1
  let s3 := (s2.setFld F.SEC_STATUS_LOAD_ACTIVE 0).tdiErrorAll
  let s4 := s3.sliced.foldl (fun s n => ((s.stopSlice n).stopDies n false).queuesStop n) s3
  let s5 := (s4.setFld F.SLC_TEN_STATUS_STATE 3).setFld F.SEC_STATUS_TENANCY_KEY 0
  ((s5.setFld F.SLC_SCRUB_ACTIVE 1).setFld F.SLC_SCRUB_KIND 1).setFld F.SLC_SCRUB_VF 0

/-- Zero what the tenancy could have written (R260 step 3): HBM in full, commons, on-chip data, Campion, schedule banks,
exchange contents, fences. -/
def State.releaseZero (s : State) : State :=
  let s1 := s.stopAll
  let s2 : State := { s1 with
    regs := s1.regs.filter (fun e => !gatedCounter e.1)
    mem := { s1.mem with cmn := [], hbm := [], clean := [], frames := [], poison := [], model := [], reserved := 0,
                         placed := 0, tc := [] }
    sch := { s1.sch with table := [], was := [], lag := [], held := [], excl := none } }
  let s3 := vfs.foldl (fun s n => s.clearVfExchange n) s2
  s3.exmZero (slotAddr 1) (1008 * 64)

/-- Clear every slice layout, its bounds, and everything held for it (R260 step 5). -/
def State.releaseSlices (s : State) : State :=
  let s1 := s.sliced.foldl (fun s n => s.setSlice n 0) s
  let s2 := s1.resetRegs (R.SLC_S_STATE 1) (R.SLC_B_MAX_HBM 63 + 4)
  let s3 := s2.resetRegs (R.SCH_SD_CFG 1) (R.SCH_SD_STATE 63 + 4)
  { s3 with
    slices := []
    sch := { s3.sch with persist := [], sdPend := [], sdLast := [], acct := [], acctAt := [], slotTick := [] } }

/-- The end of a release: zeroing, final totals, layouts, consent, model, the event (R260, R263, R264). -/
def State.releaseEnd (s : State) (forced : Bool) (us : Nat) : State :=
  let id := s.fld F.SLC_TEN_ID_TENANCY_ID
  let s1 := (s.releaseZero).acctSnapshots.releaseSlices
  let s2 := (((s1.setFld F.SLC_TEN_STATUS_DEBUG_CONSENT 0).setModel 0).clearModelRegs.setFld F.SLC_TEN_STATUS_STATE 0).setFld
    F.SLC_TEN_STATUS_CLAIM_VF 0
  let s3 := s2.setFld F.SLC_SCRUB_ACTIVE 0
  let s4 : State := { s3 with
    sec := { s3.sec with opLabel := [], tenantId := [], dmeas := [], dcount := 0 }
    eng := { s3.eng with changes := [] } }
  let s5 := if s4.fltState = 2 then s4.setFld F.FLT_STATUS_STATE 0 else s4
  s5.log 0x0506 1 0 0xFFFF (b2n forced) (id + us % 2 ^ 32 * 2 ^ 32)

/-- RELEASE_JOB_END: the release job ends with SUCCESS, and with it any slice reset or model unload it subsumed
(R264, R282). -/
def execReleaseJobEnd (s : State) : Res :=
  match s.jobOf 0x0103 with
  | none => .next s
  | some j =>
    if s.frozen then .next s
    else
      let s1 := s.releaseEnd ((s.job j).fn == 0xFF) ((s.runClk - (s.job j).beganClk) / 1000)
      let sub := s1.running.filter (fun i => (s1.job i).op == 0x0204 || (s1.job i).op == 0x0402)
      .next (sub.foldl (fun s i => s.endJob i 0 0) (s1.endJob j 0 0))

/-- A release the part starts itself (R259). -/
def State.ownRelease (s : State) : State :=
  let s1 := s.releaseBegin
  match s1.freeUnit with
  | none => s1
  | some j =>
    let n := s1.nextJob 0xFF
    let job : Job := { state := 1, num := n, fn := 0xFF, op := 0x0103, beganClk := s1.runClk }
    let s2 := s1.modJob j (fun _ => job)
    let s3 : State := { s2 with eng := { s2.eng with lastJob := fset (fun _ => 0) s2.eng.lastJob 0xFF n } }
    (s3.setFld F.SLC_TEN_STATUS_FORCED 1).log 0x0505 3 0 0xFFFF 0 (s3.fld F.SLC_TEN_ID_TENANCY_ID)

/-- The grace time in ms as SLC_TEN_GRACE reads it: 0 none, 1 to 999 as 1,000, at most 3,600,000 (Table 07-6). -/
def State.graceMs (s : State) : Nat :=
  let v := s.fld F.SLC_TEN_GRACE_GRACE_MS
  if v = 0 then 0 else min (max v 1000) 3600000

/-- The grace time has passed since it began. -/
def State.gracePassed (s : State) : Bool :=
  s.graceMs != 0 && decide (s.sec.graceClk + s.graceMs * 1000000 ≤ s.runClk) && !s.frozen

/-- FORCED_RELEASE: in OWNED, no VF of the tenancy has had its TDI in RUN for the grace time (R258). -/
def execForcedRelease (s : State) : Res :=
  if s.tenancy = 2 && s.gracePassed && s.tenancyVfs.all (fun n => s.tdi n != 2) then .next s.ownRelease else .next s

/-- CLAIM_TIMEOUT: the grace time passes in ADMITTING without a claim (Table 07-2, R258). -/
def execClaimTimeout (s : State) : Res :=
  if s.tenancy = 1 && s.gracePassed then .next s.ownRelease else .next s

/-! ### The tenancy commands -/

/-- TENANCY_ADMIT: nonce, key, TENANCY_ID, ADMITTING (R183, R287, R289, R321). -/
def execTenancyAdmit (ups : Upsets) (s : State) : Res :=
  s.command 0x0101 ups (fun c s =>
    if s.tenancy ≠ 0 || s.fld F.BOOT_STATUS_STEP != 0xA || s.bit F.SEC_STATUS_RNG_FAIL then s.no 0x15 0
    else if s.recovering then s.no 0x16 0
    else
      let id := s.sec.lastTen + 1
      let s1 := (((s.setFld F.SLC_TEN_STATUS_STATE 1).setFld F.SLC_TEN_STATUS_FORCED 0).setFld F.SLC_TEN_STATUS_CLAIM_VF 0).setFld
        F.SLC_TEN_ID_TENANCY_ID id
      let s2 := s1.setFld F.SEC_STATUS_TENANCY_KEY 1
      let s3 : State := { s2 with
        sec := { s2.sec with opLabel := sliceOf c.p 8 16, tenantId := [], lastTen := id, keyGen := s2.sec.keyGen + 1,
                             graceClk := s2.runClk, dmeas := [], dcount := 0 }
        mem := { s2.mem with hbm := [], clean := [], poison := [] } }
      s3.ok (leBytes 4 id))

/-- TENANCY_CLAIM: TENANT_ID, the claiming VF, OWNED (R184). -/
def execTenancyClaim (ups : Upsets) (s : State) : Res :=
  s.command 0x0102 ups (fun c s =>
    if s.tenancy ≠ 1 then s.no 0x15 0
    else
      let s1 := (s.setFld F.SLC_TEN_STATUS_STATE 2).setFld F.SLC_TEN_STATUS_CLAIM_VF c.fn
      let s2 : State := { s1 with sec := { s1.sec with tenantId := sliceOf c.p 8 48, graceClk := s1.runClk } }
      s2.ok (leBytes 4 (s2.fld F.SLC_TEN_ID_TENANCY_ID)))

/-- TENANCY_RELEASE: the release job starts (R185, R260). -/
def execTenancyRelease (ups : Upsets) (s : State) : Res :=
  s.command 0x0103 ups (fun c s =>
    if s.tenancy ≠ 1 && s.tenancy != 2 then s.no 0x15 0
    else if s.jobLimit c.fn then s.no 0x16 0
    else s.releaseBegin.startJob c 0 0 0 0)

/-- TENANCY_STATUS (Table 05-8). -/
def execTenancyStatus (ups : Upsets) (s : State) : Res :=
  s.command 0x0104 ups (fun _ s =>
    s.ok (leBytes 1 s.tenancy ++ leBytes 1 s.model ++ leBytes 1 (s.fld F.SLC_TEN_STATUS_DEBUG_CONSENT) ++ leBytes 1 0 ++
      leBytes 4 (s.fld F.SLC_TEN_ID_TENANCY_ID) ++ leBytes 8 (s.sliced.foldl (fun m n => m + 2 ^ n) 0)))

/-- DEBUG_CONSENT_SET (R186, R326). -/
def execDebugConsentSet (ups : Upsets) (s : State) : Res :=
  s.command 0x0105 ups (fun c s =>
    if 1 < c.arg 8 1 then s.no 0x11 8
    else if s.tenancy ≠ 2 then s.no 0x15 0
    else (s.setFld F.SLC_TEN_STATUS_DEBUG_CONSENT (c.arg 8 1)).ok [])

end Sys2Proof.Machine
end

