-- ==== Sys2Proof/Machine/FenceList.lean ====
section
/-! DEFINITION. Units and the fence list (chapter 03): unit codes, usable bits, fence entries, compaction. -/

namespace Sys2Proof.Machine

/-! ### Units (Tables 03-3, 03-10) -/

/-- First counter byte and number of units of each class of Table 03-3. -/
def classRange (c : Nat) : Option (Nat × Nat) :=
  match c with
  | 1 => some (0, 1)
  | 2 => some (1, 1)
  | 3 => some (2, 1)
  | 4 => some (3, 8)
  | 5 => some (11, 3)
  | 6 => some (14, 4)
  | 7 => some (18, 16)
  | 8 => some (34, 2)
  | 9 => some (36, 48)
  | 10 => some (84, 2)
  | 11 => some (86, 1)
  | 12 => some (87, 1)
  | _ => none

/-- The unit, 0 to 87, with a code of class × 256 + index. -/
def unitOf (code : Nat) : Option Nat :=
  match classRange (code / 256) with
  | some (b, n) => if code % 256 < n then some (b + code % 256) else none
  | none => none

/-- The class of unit `u`. -/
def classOf (u : Nat) : Nat :=
  if u < 3 then u + 1 else if u < 11 then 4 else if u < 14 then 5 else if u < 18 then 6 else if u < 34 then 7
  else if u < 36 then 8 else if u < 84 then 9 else if u < 86 then 10 else u - 75

/-- The code of unit `u`. -/
def codeOf (u : Nat) : Nat :=
  match classRange (classOf u) with
  | some (b, _) => classOf u * 256 + (u - b)
  | none => 0

/-- IOn_TYPE of I/O-die site `i`: 0 empty, 1 link die, 2 sensor die. -/
def State.ioType (s : State) (i : Nat) : Nat := s.fused.ioType.getD i 0

/-- The unit is fitted (R18): stacks by their fuse, I/O-site links where a die is, ports where a link die is. -/
def State.fitted (s : State) (u : Nat) : Bool :=
  match classOf u with
  | 4 => tst s.fused.stackFitted (u - 3)
  | 6 => s.ioType (u - 14) != 0
  | 7 => s.ioType ((u - 18) / 4) == 1
  | _ => true

/-- The boot step that brings the unit up (Table 03-3). -/
def stepOf (u : Nat) : Nat :=
  match classOf u with
  | 1 => 1
  | 2 => 2
  | 3 => 3
  | 4 => 4
  | 5 => 5
  | 6 => 5
  | 7 => 6
  | 8 => 7
  | 9 => 7
  | 10 => 7
  | 11 => 8
  | _ => 9

/-- I/O-die site `i` is usable: fitted, its link up and its compute die usable (Table 03-3). -/
def State.siteUp (s : State) (i : Nat) : Bool := s.ioType i != 0 && !s.down (14 + i) && s.dieUp (i % 2)

/-- Ewebin port `p` is usable. -/
def State.portUp (s : State) (p : Nat) : Bool := s.ioType (p / 4) == 1 && s.siteUp (p / 4) && !s.down (18 + p)

/-- A mask of the indexes below `n` that satisfy `f`. -/
def maskOf (n : Nat) (f : Nat → Bool) : Nat := ((List.range n).filter f).foldl (fun m i => m + 2 ^ i) 0

/-- Load the usable bits of the ID_, MEM_, FFE_, CMP_ and SNS_ registers from the units' condition (R19, R334, R335, R495,
R596, R700, Table 03-3). -/
def State.refreshUsable (s : State) : State :=
  let s1 := s.setFld F.ID_SITES_STACK_USABLE (maskOf 8 (fun k => s.fitted (3 + k) && !s.down (3 + k) && s.dieUp (stackDie k)))
  let s2 := s1.setFld F.ID_IO_STATUS_IO_USABLE (maskOf 4 s.siteUp)
  let s3 := s2.setPair R.ID_CLUSTER_USABLE_LO R.ID_CLUSTER_USABLE_HI
    (maskOf 48 (fun c => !s.down (36 + c) && s.dieUp (clusterDie c)))
  let s4 := ((s3.setFld F.MEM_STATUS_SYS_DIE s.sysDie).setFld F.MEM_COMMONS_AVAIL_UNITS
    (2048 * (b2n (s.dieUp 0) + b2n (s.dieUp 1)) - 256)).setFld F.MEM_HBM_FRAMES_TOTAL (12288 * s3.stacks.length)
  let s5 := s4.setReg R.FFE_STATUS (BitVec.ofNat 32 (maskOf 29 (fun i => !tst s.flt.engDown i && (i == 28 || s.dieUp (instDie i)))))
  let s6 := (s5.setBit F.CMP_STATUS_USABLE0 (!s.down 84 && s.dieUp 0)).setBit F.CMP_STATUS_USABLE1 (!s.down 85 && s.dieUp 1)
  (s6.setBit F.SNS_STATUS_USABLE0 (s.ioType 2 == 2 && s.siteUp 2)).setBit F.SNS_STATUS_USABLE1 (s.ioType 3 == 2 && s.siteUp 3)

/-- The minimal serviceable set of chapter 03 is usable. -/
def State.serviceable (s : State) : Bool :=
  !s.down 2 && !s.down 0 && !s.down 1 &&
    [0, 1].any (fun d => s.dieUp d &&
      decide (4 ≤ popCount (s.usableClusters / 2 ^ (24 * d)) 24) && s.stacks.any (fun k => stackDie k == d))

/-! ### The fence list (R110, R111, Table 03-11) -/

/-- NOR offset of half A or B. -/
def halfAt (h : Nat) : Nat := 0x1C10000 + 0x8000 * h

/-- The half's header is valid. -/
def State.halfValid (s : State) (h : Nat) : Bool :=
  leAt (s.norBytes (halfAt h) 4) 0 4 == 0x4A464C54 &&
    leAt (s.norBytes (halfAt h + 0x1C) 4) 0 4 == crc32c (s.norBytes (halfAt h) 0x1C)

/-- GENERATION of a half. -/
def State.halfGen (s : State) (h : Nat) : Nat := leAt (s.norBytes (halfAt h + 4) 4) 0 4

/-- The active half: the valid one with the higher GENERATION, half A when both are equal (R110). -/
def State.activeHalf (s : State) : Option Nat :=
  match s.halfValid 0, s.halfValid 1 with
  | true, true => if s.halfGen 0 < s.halfGen 1 then some 1 else some 0
  | true, false => some 0
  | false, true => some 1
  | false, false => none

/-- Entry slot `i` of half `h`. -/
def State.fenceSlot (s : State) (h i : Nat) : List Byte := s.norBytes (halfAt h + 32 + 32 * i) 32

/-- The first slot of half `h` from `i` on whose KIND is blank, among `n`. -/
def State.firstBlank (s : State) (h : Nat) : Nat → Nat → Option Nat
  | 0, _ => none
  | n + 1, i => if (s.fenceSlot h i).getD 0 0 == 0xFF then some i else State.firstBlank s h n (i + 1)

/-- The entries written to the active half, oldest first; those with a failing CHECK left out. -/
def State.fenceEntries (s : State) : List (List Byte) :=
  match s.activeHalf with
  | none => []
  | some h =>
    let k := (s.firstBlank h 1023 0).getD 1023
    ((List.range k).map (s.fenceSlot h)).filter (fun e => leAt e 0x1C 4 == crc32c (e.take 0x1C))

/-- The units whose last fence entry no unfence entry follows, as a mask (R102). -/
def State.listedFences (s : State) : Nat :=
  s.fenceEntries.foldl (fun m e =>
    match unitOf (leAt e 2 2) with
    | some u => putBit m u (e.getD 0 0 == 1)
    | none => m) 0

/-- An entry of the list (Table 03-11). -/
def State.fenceEntry (s : State) (kind source unit step count event : Nat) : List Byte :=
  let b := leBytes 1 kind ++ leBytes 1 source ++ leBytes 2 unit ++ leBytes 4 (s.reg R.BOOT_SEQ).toNat ++
    leBytes 8 s.taiStamp ++ leBytes 1 step ++ leBytes 1 count ++ leBytes 2 event ++ leBytes 8 0
  b ++ leBytes 4 (crc32c b)

/-- The header of a half. -/
def fenceHeader (gen : Nat) : List Byte :=
  let b := leBytes 4 0x4A464C54 ++ leBytes 4 gen ++ leBytes 20 0
  b ++ leBytes 4 (crc32c b)

/-- Compact the list into the other half (R111): one fence entry for each fenced unit, the unfence entries of this
start, the header last. -/
def State.compact (s : State) (h : Nat) : State :=
  let o := 1 - h
  let seq := (s.reg R.BOOT_SEQ).toNat
  let old := s.fenceEntries
  let last := fun u => (old.filter (fun e => e.getD 0 0 == 1 && leAt e 2 2 == codeOf u)).getLast?
  let keep := (bitList s.listedFences 88).filterMap last ++ old.filter (fun e => e.getD 0 0 == 2 && leAt e 4 4 == seq)
  let s1 := s.norErase (halfAt o) 0x8000
  let s2 := (keep.zipIdx).foldl (fun s p => s.norProgram (halfAt o + 32 + 32 * p.2) p.1) s1
  s2.norProgram (halfAt o) (fenceHeader (s.halfGen h + 1))

/-- BOOT_FENCE_COUNT: units fenced in the fence list, saturating at 255. -/
def State.fenceCount (s : State) : State := s.setFld F.BOOT_FENCE_COUNT_UNITS (min 255 (popCount s.listedFences 88))

/-- Write an entry to the list, starting or compacting it where it must (R110, R111). -/
def State.putFence (s : State) (kind source unit step count event : Nat) : State :=
  let e := s.fenceEntry kind source unit step count event
  match s.activeHalf with
  | none =>
    let s1 := (s.norErase (halfAt 0) 0x8000).norProgram (halfAt 0) (fenceHeader 1)
    s1.norProgram (halfAt 0 + 32) e
  | some h =>
    match s.firstBlank h 1023 0 with
    | some i => s.norProgram (halfAt h + 32 + 32 * i) e
    | none =>
      let s1 := s.compact h
      match s1.firstBlank (1 - h) 1023 0 with
      | some i => s1.norProgram (halfAt (1 - h) + 32 + 32 * i) e
      | none => s1

/-- Append an entry to the fence list; BOOT_FENCE_COUNT follows. -/
def State.appendFence (s : State) (kind source unit step count event : Nat) : State :=
  (s.putFence kind source unit step count event).fenceCount

/-! ### Fencing at run time (R203, R700) -/

/-- Unit `u` is fenced now, by boot or at run time. -/
def State.fencedNow (s : State) (u : Nat) : Bool := tst (fget (fun _ => 0) s.boot.counters u) 5 || tst s.flt.rtMask u

/-- Clear the unit's usable bit, with its dependants' (Table 03-3), append its entry and count it (R700). -/
def State.fenceUnit (s : State) (u event : Nat) : State :=
  let s1 : State := { s with flt := { s.flt with rtMask := putBit s.flt.rtMask u true } }
  (s1.refreshUsable.appendFence 1 2 (codeOf u) 0 0 event).bump F.FLT_CNT_RT_FENCE_COUNT

/-- A slice holds the unit: a cluster of its layout, a stack with its frames, a die granted to it. -/
def State.unitHeld (s : State) (u : Nat) : Bool :=
  match classOf u with
  | 4 => s.mem.frames.any (fun e => e.1 / 12288 == u - 3 && e.2 % 64 != 0)
  | 9 => s.sliced.any (fun n => tst (Nat.lor (s.clustersOf n) (s.drainOf n)) (u - 36))
  | 10 => s.fld (F.CMP_GRANT_VF (u - 84)) != 0
  | 6 => s.ioType (u - 14) == 2 && s.fld (F.SNS_GRANT_VF (u - 16)) != 0
  | _ => false

/-- FENCE_UNIT (R203). -/
def execFenceUnit (ups : Upsets) (s : State) : Res :=
  s.command 0x0B01 ups (fun c s =>
    match unitOf (c.arg 8 2) with
    | none => s.no 0x11 8
    | some u =>
      if u = 0 || u = 2 || u = 86 || !s.fitted u then s.no 0x11 8
      else if s.fencedNow u then s.no 0x15 0
      else if s.unitHeld u || ([2, 5, 8, 12].contains (classOf u) && s.tenancy != 0) then s.no 0x1F 0
      else ((s.log 0x0507 2 0 (codeOf u) 0 0).fenceUnit u 0x0507).ok [])

/-- UNFENCE_UNIT: an unfence entry that takes effect at the next start (R104). -/
def execUnfenceUnit (ups : Upsets) (s : State) : Res :=
  s.command 0x0B02 ups (fun c s =>
    match unitOf (c.arg 8 2) with
    | none => s.no 0x11 8
    | some u => (s.appendFence 2 3 (codeOf u) 0 0 0).ok [])

end Sys2Proof.Machine
end

