-- ==== Sys2Proof/Machine/Trust.lean ====
section
/-! DEFINITION. The crypto engine, the random source, IDE streams, TDISP and the events that put a TDI in ERROR (chapter
08). SPDM stands in Spdm.lean. -/

namespace Sys2Proof.Machine

/-! ### P-384 and the KDF -/

/-- The prime, the group order and the coefficient b of P-384 (PRESUMED, FIPS 186; log entry 27). -/
def p384 : Nat := 2 ^ 384 - 2 ^ 128 - 2 ^ 96 + 2 ^ 32 - 1
def n384 : Nat := 0xffffffffffffffffffffffffffffffffffffffffffffffffc7634d81f4372ddf581a0db248b0a77aecec196accc52973
def b384 : Nat := 0xb3312fa7e23ee7e4988e056be3f82d19181d9c6efe8141120314088f5013875ac656398d8a2ed19d2a85c8edd3ec2aef

/-- The point lies on the curve y² = x³ − 3x + b. -/
def onCurve (q : Nat × Nat) : Bool := q.2 * q.2 % p384 == (q.1 * q.1 * q.1 + (p384 - 3) * q.1 + b384) % p384

/-- Checks 1 to 10 of R328: the first that fails, in that order, as its status of Table 08-11; 0 when all pass. -/
def ecInputs (points : List (Nat × Nat)) (scalars : List Nat) (sig : Option (Nat × Nat)) : Nat :=
  let sg := fun (f : Nat × Nat → Bool) => match sig with | some g => f g | none => false
  if points.any (fun q => q.1 == 0 && q.2 == 0) then 6
  else if points.any (fun q => decide (p384 ≤ q.1)) then 3
  else if points.any (fun q => decide (p384 ≤ q.2)) then 4
  else if points.any (fun q => !onCurve q) then 5
  else if scalars.any (fun d => d == 0) then 1
  else if scalars.any (fun d => decide (n384 ≤ d)) then 2
  else if sg (fun g => g.1 == 0) then 7
  else if sg (fun g => decide (n384 ≤ g.1)) then 8
  else if sg (fun g => g.2 == 0) then 9
  else if sg (fun g => decide (n384 ≤ g.2)) then 0xA
  else 0

/-- A 96-byte public key as a point, and a 96-byte signature as r and s (R285). -/
def pointOf (b : List Byte) : Nat × Nat := (leAt b 0 48, leAt b 48 48)

/-- Status of a verify of `sig` over `digest` under `pub` (R328). -/
def verifyStatus (pub sig digest : List Byte) : Nat :=
  let e := ecInputs [pointOf pub] [] (some (pointOf sig))
  if e ≠ 0 then e else if Config.ecdsaHolds pub sig digest then 0 else 0xB

/-- Status of a whole EC operation (R328, R329). -/
def ecStatus (x : EcInput) : Nat :=
  let e := ecInputs x.points x.scalars x.sig
  if e ≠ 0 then e
  else if x.op = 2 then
    match x.points, x.sig with
    | q :: _, some g =>
      if Config.ecdsaHolds (leBytes 48 q.1 ++ leBytes 48 q.2) (leBytes 48 g.1 ++ leBytes 48 g.2) x.digest then 0 else 0xB
    | _, _ => 0
  else if x.op = 1 && (Config.signIk x.digest).isNone then 0xF
  else 0

/-- 32-bit big-endian bytes. -/
def be32 (n : Nat) : List Byte := (leBytes 4 n).reverse

/-- The counter-mode KDF of chapter 08. -/
def kdf (key label context : List Byte) (bits : Nat) : List Byte :=
  (((List.range ((bits + 383) / 384)).map (fun i =>
    Config.hmac384 key (be32 (i + 1) ++ label ++ [0] ++ context ++ be32 bits))).flatten).take (bits / 8)

/-- An ASCII label. -/
def label (s : String) : List Byte := s.toList.map (fun c => BitVec.ofNat 8 c.toNat)

/-! ### Crypto engine -/

/-- A rejection: recorded, counted, logged (R330). `op` is 1 sign, 2 verify, 3 ECDH, 4 unwrap, 5 GCM. -/
def State.cryptoReject (s : State) (op status requester : Nat) : State :=
  let s1 := s.setReg R.SEC_CRYPTO_LAST (BitVec.ofNat 32 (op * 2 ^ 24 + status * 2 ^ 16 + requester * 2 ^ 8))
  (s1.bump F.SEC_CNT_REJECT_COUNT).log 0x0603 2 0 0xFFFF status requester

/-- A tag check that failed, or an unwrap's, for `requester`. -/
def State.sealReject (s : State) (status requester : Nat) : State :=
  let s1 := if status = 0xC then s.bump F.SEC_CNT_AEAD_FAIL_COUNT else s
  s1.cryptoReject (if status = 0xC then 5 else 4) status requester

/-- EC_OPERATION_END: an EC operation reaches its fixed time, is counted, and a rejection is recorded (R327 to R330). -/
def execEcOperationEnd (x : EcInput) (s : State) : Res :=
  let f := if x.op = 1 then F.SEC_CNT_SIGN_COUNT else if x.op = 2 then F.SEC_CNT_VERIFY_COUNT else F.SEC_CNT_ECDH_COUNT
  let s1 := s.bump f
  .next (if ecStatus x = 0 then s1 else s1.cryptoReject x.op (ecStatus x) x.requester)

/-- RNG_HEALTH_FAIL: RNG_FAIL is set and logged (R289). Which crypto status the record carries is open. -/
def execRngHealthFail (s : State) : Res :=
  .next ((s.drawn.setFld F.SEC_STATUS_RNG_FAIL 1).log 0x0602 4 0 0xFFFF (s.free.toNat % 256) 0)

/-! ### Sessions -/

/-- PF0's DOE mailbox answers: the part is powered and configuration-ready (R91, R295). -/
def State.doeUp (s : State) : Bool := s.pwr.mode == .on && s.boot.configReady

/-- The session with this ID. -/
def State.session (s : State) (sid : Nat) : Option Session := s.sec.sessions.find? (fun x => x.id == sid)

/-- The session is complete. -/
def State.inSession (s : State) (sid : Nat) : Bool := match s.session sid with | some x => x.up | none => false

/-- An SPDM ERROR response: error code and data (R296; codes of DSP0274, log entry 28). -/
def State.spdmError (s : State) (code data : Nat) : State := s.emit (.spdm 0x7F (leBytes 1 code ++ leBytes 1 data))

/-- Replace the sessions; SEC_SPDM_STATUS shows their number (R298). -/
def State.setSessions (s : State) (l : List Session) : State :=
  let s1 : State := { s with sec := { s.sec with sessions := l } }
  s1.setFld F.SEC_SPDM_STATUS_SESSIONS l.length

/-- A vendor-defined request inside session `sid`, or ERROR UnsupportedRequest outside one (R296). -/
def State.vendorIn (s : State) (sid : Nat) (f : State → State) : Res :=
  if !s.doeUp then .next s
  else if s.inSession sid then .next (f s)
  else .next (s.spdmError 0x07 0xFE)

/-! ### IDE streams (R301, R302) -/

/-- Stream `k`. -/
def State.stream (s : State) (k : Nat) : Stream := fget (fun _ => ({} : Stream)) s.sec.streams k

/-- Change stream `k`. -/
def State.modStream (s : State) (k : Nat) (f : Stream → Stream) : State :=
  { s with sec := { s.sec with streams := fmod (fun _ => ({} : Stream)) s.sec.streams k f } }

/-- The stream is in the Secure state: one key set runs on every sub-stream in both directions (PRESUMED, PCIe 6.0; log
entry 29). -/
def Stream.secure (x : Stream) : Bool := x.running % 64 == 63 || x.running / 64 % 64 == 63

/-- The bit of a key set, sub-stream (0 PR, 1 NPR, 2 CPL) and direction. -/
def keyBit (set sub dir : Nat) : Nat := 6 * set + 2 * sub + dir

/-- VFs whose TDI is locked or running on stream `k`. -/
def State.boundTo (s : State) (k : Nat) : List Nat :=
  vfs.filter (fun n => (s.tdi n == 1 || s.tdi n == 2) && s.fld (F.SEC_TDI_STREAM_ID n) == k)

/-- R302: the stream becomes Insecure, its TDIs enter ERROR, the failure is counted and logged. -/
def State.streamFail (s : State) (k : Nat) : State :=
  let s1 := s.modStream k (fun _ => {})
  let s2 := (s.boundTo k).foldl (fun s n => s.tdiError n) s1
  (s2.bump F.SEC_CNT_IDE_FAIL_COUNT).log 0x0604 3 0 0xFFFF k 0

/-- IDE_CHECK_FAIL: an integrity check fails on stream `k` (R302). -/
def execIdeCheckFail (k : Nat) (s : State) : Res := .next (if k < 64 then s.streamFail k else s)

/-- The 8 bytes of an IDE_KM object: object ID, stream, status, key set with direction and sub-stream, port index
(PRESUMED, PCIe 6.0; log entry 29). -/
def ideObject (id k status set sub dir : Nat) : List Byte :=
  leBytes 1 id ++ leBytes 2 0 ++ leBytes 1 k ++ leBytes 1 status ++ leBytes 1 (set + 2 * dir + 16 * sub) ++ leBytes 1 0

/-- The stream, key set, sub-stream and direction are ones the part has (R301). -/
def ideNamed (k set sub dir : Nat) : Bool := decide (k < 64 ∧ set < 2 ∧ sub < 3 ∧ dir < 2)

/-- QUERY: the IDE_KM QUERY is answered with the port's IDE capability: 64 selective streams and what runs (R301). -/
def execQuery (sid : Nat) (s : State) : Res :=
  s.vendorIn sid (fun s => s.emit (.vendor 1 (leBytes 1 1 ++ leBytes 1 0 ++ leBytes 1 63 ++
    (List.range 64).map (fun k => BitVec.ofNat 8 (b2n (s.stream k).secure)))))

/-- KEY_PROG: a key is programmed for a key set of a stream's sub-stream and direction (R301). -/
def execKeyProg (sid k set sub dir : Nat) (s : State) : Res :=
  s.vendorIn sid (fun s =>
    if ideNamed k set sub dir then
      (s.modStream k (fun x => { x with keys := putBit x.keys (keyBit set sub dir) true })).emit
        (.vendor 3 (ideObject 3 k 0 set sub dir))
    else s.emit (.vendor 3 (ideObject 3 k 3 set sub dir)))

/-- K_SET_GO: a programmed key set starts on a stream (R301). -/
def execKSetGo (sid k set sub dir : Nat) (s : State) : Res :=
  s.vendorIn sid (fun s =>
    let b := keyBit set sub dir
    let s1 := if ideNamed k set sub dir && tst (s.stream k).keys b then
      s.modStream k (fun x => { x with running := putBit x.running b true }) else s
    s1.emit (.vendor 6 (ideObject 6 k 0 set sub dir)))

/-- K_SET_STOP: a key set stops; on a stream that a TDI is bound to this has the effects of R302. -/
def execKSetStop (sid k set sub dir : Nat) (s : State) : Res :=
  s.vendorIn sid (fun s =>
    let b := keyBit set sub dir
    let s1 := if !ideNamed k set sub dir then s
      else if !(s.boundTo k).isEmpty then s.streamFail k
      else s.modStream k (fun x => { x with keys := putBit x.keys b false, running := putBit x.running b false })
    s1.emit (.vendor 6 (ideObject 6 k 0 set sub dir)))

/-! ### TDISP (R303 to R308, Table 08-6) -/

/-- A TDISP response or ERROR (message codes of TDISP 1.0; PRESUMED, log entry 30). -/
def State.tdisp (s : State) (code n : Nat) (body : List Byte) : State :=
  s.emit (.vendor code (leBytes 1 0x10 ++ leBytes 1 code ++ leBytes 1 n ++ body))

/-- A TDISP ERROR. -/
def State.tdispError (s : State) (n code : Nat) : State := s.tdisp 0x7F n (leBytes 4 code ++ leBytes 4 0)

/-- A TDISP request of session `sid` that names VF `n`'s TDI: PF0 is never a TDI. -/
def State.tdiIn (s : State) (sid n : Nat) (f : State → State) : Res :=
  s.vendorIn sid (fun s => if n = 0 || 63 < n then s.tdispError n 0x0101 else f s)

/-- GET_TDISP_VERSION: version 1.0. -/
def execGetTdispVersion (sid n : Nat) (s : State) : Res :=
  s.tdiIn sid n (fun s => s.tdisp 0x01 n (leBytes 1 1 ++ leBytes 1 0x10))

/-- GET_TDISP_CAPABILITIES: the lock flags NO_FW_UPDATE (bit 0) and LOCK_MSIX (bit 2). -/
def execGetTdispCapabilities (sid n : Nat) (s : State) : Res :=
  s.tdiIn sid n (fun s => s.tdisp 0x02 n (leBytes 4 0 ++ leBytes 16 0xFE ++ leBytes 2 5 ++ leBytes 3 0 ++ leBytes 1 52 ++
    leBytes 1 1 ++ leBytes 1 1))

/-- TDI `n`'s part beside SEC_TDI. -/
def State.tdiRec (s : State) (n : Nat) : Tdi := fget (fun _ => ({} : Tdi)) s.sec.tdis n

/-- Change it. -/
def State.modTdi (s : State) (n : Nat) (f : Tdi → Tdi) : State :=
  { s with sec := { s.sec with tdis := fmod (fun _ => ({} : Tdi)) s.sec.tdis n f } }

/-- LOCK_INTERFACE_REQUEST is accepted (R304). -/
def State.lockOk (s : State) (n stream : Nat) (p2p redirect : Bool) : Bool :=
  s.tdi n == 0 && (s.tenancy == 1 || s.tenancy == 2) && decide (stream < 64) && (s.stream stream).secure && !p2p && !redirect

/-- LOCK_INTERFACE_REQUEST: the TDI is locked onto its default stream, and a nonce returned (R304). -/
def execLockInterfaceRequest (sid n stream : Nat) (noFw lockMsix p2p redirect : Bool) (s : State) : Res :=
  s.tdiIn sid n (fun s =>
    let _ := noFw
    if s.lockOk n stream p2p redirect then
      let nonce := s.freeBytes 32
      let s1 := ((s.drawnN 32).setTdi n 1).setFld (F.SEC_TDI_STREAM_ID n) stream
      (s1.modTdi n (fun _ => { nonce := nonce, lockMsix := lockMsix })).tdisp 0x03 n nonce
    else s.tdispError n 0x0001)

/-- The MMIO ranges of the interface report (R305): first 4 KiB page, pages, BAR, and whether it is the MSI-X range. -/
def mmioRanges : List (Nat × Nat × Nat × Bool) := [(0, 8, 0, false), (8, 8, 0, true), (0, 64, 2, false)]

/-- The interface report of VF `n` (R305): flags, ranges, and the 64 bytes of device-specific information. -/
def State.interfaceReport (s : State) (n : Nat) : List Byte :=
  let x := s.tdiRec n
  let range := fun (r : Nat × Nat × Nat × Bool) =>
    leBytes 8 r.1 ++ leBytes 4 r.2.1 ++ leBytes 4 ((if r.2.2.2 then 1 + 8 * b2n x.lockMsix else 0) + r.2.2.1 * 2 ^ 16)
  leBytes 2 0 ++ leBytes 2 0 ++ leBytes 4 0 ++ leBytes 2 0 ++ leBytes 4 3 ++ (mmioRanges.map range).flatten ++ leBytes 4 64 ++
    leBytes 1 n ++ leBytes 7 0 ++ leBytes 4 (s.fld F.SLC_TEN_ID_TENANCY_ID) ++ leBytes 4 0 ++
    fitTo 48 (Config.sha384 s.fused.ikPub)

/-- GET_DEVICE_INTERFACE_REPORT: the report of a locked or running TDI, from `off` on, at most `len` bytes (R305). -/
def execGetDeviceInterfaceReport (sid n off len : Nat) (s : State) : Res :=
  s.tdiIn sid n (fun s =>
    let r := s.interfaceReport n
    if s.tdi n ≠ 1 && s.tdi n != 2 then s.tdispError n 0x0004
    else if r.length ≤ off then s.tdispError n 0x0001
    else
      let k := min len (r.length - off)
      s.tdisp 0x04 n (leBytes 2 k ++ leBytes 2 (r.length - off - k) ++ sliceOf r off k))

/-- GET_DEVICE_INTERFACE_STATE: the TDI's state. -/
def execGetDeviceInterfaceState (sid n : Nat) (s : State) : Res :=
  s.tdiIn sid n (fun s => s.tdisp 0x05 n (leBytes 1 (s.tdi n)))

/-- START_INTERFACE_REQUEST: accepted only in CONFIG_LOCKED with the nonce that the lock returned: the TDI is in RUN
(Table 08-6). -/
def execStartInterfaceRequest (sid n : Nat) (nonce : List Byte) (s : State) : Res :=
  s.tdiIn sid n (fun s =>
    if s.tdi n ≠ 1 then s.tdispError n 0x0004
    else if nonce ≠ (s.tdiRec n).nonce then s.tdispError n 0x0102
    else (s.setTdi n 2).tdisp 0x06 n [])

/-- STOP_INTERFACE_REQUEST: accepted in any state: the TDI returns to CONFIG_UNLOCKED (R307, R308). -/
def execStopInterfaceRequest (sid n : Nat) (s : State) : Res :=
  s.tdiIn sid n (fun s => ((s.setTdi n 0).modTdi n (fun _ => {})).tdisp 0x07 n [])

/-- VENDOR_DEFINED_REQUEST: only inside a session (R296). The IDE_KM objects (`proto` 0) and TDISP messages (`proto` 1)
that the part answers have commands of their own; any other TDISP request gets ERROR UNSUPPORTED_REQUEST (R303). -/
def execVendorDefinedRequest (sid proto code : Nat) (s : State) : Res :=
  s.vendorIn sid (fun s =>
    if proto = 0 && [0, 2, 4, 5].contains code then s
    else if proto = 1 && 0x81 ≤ code && code ≤ 0x87 then s
    else if proto = 1 then s.tdispError 0 0x0007
    else s.spdmError 0x07 0xFE)

/-! ### What puts a TDI in ERROR (Table 08-7) -/

/-- TDI_TLP_DROP: a TLP to a locked TDI's BARs that is not on its stream with the T bit is dropped, or completed with
Unsupported Request, and counted (R306). -/
def execTdiTlpDrop (n : Nat) (posted : Bool) (s : State) : Res :=
  if s.tdi n = 1 || s.tdi n = 2 then
    let s1 := s.bump F.SEC_CNT_TDI_DROP_COUNT
    .next (if posted then s1 else s1.emit (.unsupported n))
  else .next s

end Sys2Proof.Machine
end

