-- ==== Sys2Proof/Machine/Attest.lean ====
section
/-! DEFINITION. The attestation report, ATTEST, and the measurement blocks (chapter 08). -/

namespace Sys2Proof.Machine

/-- Exactly `n` bytes of a digest or key; an empty one is zero. -/
def digest48 (l : List Byte) : List Byte := fitTo 48 l

/-- The part's BK_DIGEST (R285). -/
def State.bkDigest (s : State) : List Byte := digest48 (Config.sha384 s.fused.bkPub)

/-- The part's IK_DIGEST (R285). -/
def State.ikDigest (s : State) : List Byte := digest48 (Config.sha384 s.fused.ikPub)

/-- Bytes of a run of registers. -/
def State.regBytes (s : State) (a n : Nat) : List Byte := ((List.range n).map (fun i => leBytes 4 (s.readReg (a + 4 * i)).toNat)).flatten

/-- Every unit fenced now, by boot or at run time: bit i for counter byte i (Table 08-14, FENCED). -/
def State.fencedMask (s : State) : Nat := maskOf 88 s.fencedNow

/-- Report fields 0x0F8 to 0x0FF: TENANCY_ID, 0 while UNOWNED, and the states. -/
def State.tenancyBytes (s : State) : List Byte :=
  leBytes 4 (if s.tenancy = 0 then 0 else s.fld F.SLC_TEN_ID_TENANCY_ID) ++ leBytes 1 s.tenancy ++ leBytes 1 s.model

/-- Report FLAGS (Table 08-14). -/
def State.reportFlags (s : State) : Nat :=
  s.fld F.SLC_TEN_STATUS_DEBUG_CONSENT + 2 * s.fld F.BOOT_STATUS_NO_HISTORY + 4 * b2n s.diagOnly + 8 * b2n s.timeValid +
    16 * s.fld F.SEC_STATUS_RNG_FAIL + 32 * s.fld F.SLC_TEN_STATUS_FORCED

/-- Report fields PACKAGE_ID to SIGNER_DIGEST (R319). -/
def State.modelBytes (s : State) : List Byte :=
  s.regBytes (R.SEC_MODEL_ID 0) 4 ++ s.regBytes R.SEC_MODEL_SIZE_LO 2 ++ s.regBytes (R.SEC_MODEL_DIGEST 0) 12 ++
    digest48 s.sec.headerDigest ++ digest48 s.sec.signerDigest

/-- The record of VF `n`'s slice (Table 08-15). -/
def State.sliceRecord (s : State) (n : Nat) : List Byte :=
  let x := s.slice n
  leBytes 1 n ++ leBytes 1 (s.sliceState n) ++ leBytes 1 (s.fld (F.SLC_S_SHARE_MODE n)) ++ leBytes 1 (s.tdi n) ++
    leBytes 4 x.resets ++ leBytes 8 (s.clustersOf n) ++ leBytes 4 (s.fld (F.SLC_S_COMMONS_UNITS n)) ++
    leBytes 4 (s.fld (F.SLC_S_HBM_UNITS n)) ++ leBytes 4 x.kcount ++ leBytes 4 x.kernels.length ++ digest48 x.kmeas ++
    leBytes 1 (s.fld (F.SEC_TDI_STREAM_ID n)) ++ leBytes 47 0

/-- The active fence half, and its GENERATION. -/
def State.fenceGeneration (s : State) : Nat := match s.activeHalf with | some h => s.halfGen h | none => 0

/-- FENCE_DIGEST: the SHA-384 of the active half's header and of every entry written. -/
def State.fenceDigest (s : State) : List Byte :=
  match s.activeHalf with
  | some h => digest48 (Config.sha384 (s.norBytes (halfAt h) 32 ++ s.fenceEntries.flatten))
  | none => digest48 (Config.sha384 [])

/-- Report bytes 0 to 0x33F for a caller and its nonce (Table 08-14). -/
def State.reportHead (s : State) (caller : Nat) (nonce : List Byte) : List Byte :=
  let k := s.sliced.length
  leBytes 4 0x5254414A ++ leBytes 2 1 ++ leBytes 2 s.reportFlags ++ leBytes 4 (0x340 + 0x80 * k + 96) ++ leBytes 2 k ++
    leBytes 1 caller ++ leBytes 1 0 ++ fitTo 32 nonce ++ leBytes 8 s.fused.serial ++ s.regBytes R.ID_PART 1 ++
    leBytes 2 (s.fld F.CMD_LEVEL_LEVEL) ++ leBytes 2 0 ++ s.regBytes R.ID_SITES 1 ++ s.regBytes R.ID_IO_STATUS 1 ++
    leBytes 8 s.usableClusters ++ s.regBytes R.ID_MODULE 1 ++ s.regBytes R.ID_POSITION 1 ++ leBytes 8 s.tickCount ++
    leBytes 8 s.taiStamp ++ fitTo 96 s.fused.ikPub ++ s.bkDigest ++ s.tenancyBytes ++ leBytes 2 0 ++
    fitTo 16 s.sec.opLabel ++ fitTo 48 s.sec.tenantId ++ s.modelBytes ++ digest48 s.sec.dmeas ++ leBytes 4 s.sec.dcount ++
    leBytes 4 0 ++ s.norBytes s.boot.entryAt 256 ++ leBytes 4 s.fenceGeneration ++ leBytes 4 (popCount s.fencedMask 88) ++
    leBytes 16 s.fencedMask ++ leBytes 8 0

/-- The report but for its signature (R322). -/
def State.report (s : State) (caller : Nat) (nonce : List Byte) : List Byte :=
  s.reportHead caller nonce ++ (s.sliced.map s.sliceRecord).flatten

/-- ATTEST: the signed report, in the caller's buffer (R206, R322 to R324). -/
def execAttest (ups : Upsets) (s : State) : Res :=
  s.command 0x0901 ups (fun c s =>
    let len := 0x340 + 0x80 * s.sliced.length + 96
    let exa := c.arg 0x28 4
    if c.arg 0x2C 4 < len then s.no 0x13 len
    else if !s.bufferOk c.fn exa len then s.no 0x18 0
    else
      let body := s.report c.fn (sliceOf c.p 8 32)
      match Config.signIk (Config.sha384 body) with
      | none => s.no 0x31 0
      | some sig => (s.bufferPut exa (body ++ fitTo 96 sig)).ok (leBytes 4 len))

/-! ### Measurement blocks (Table 08-5) -/

/-- The fields that block `k` digests, when it exists (R300). -/
def State.blockFields (s : State) (k : Nat) : Option (List Byte) :=
  let r := s.reportHead 0 []
  if k = 1 then some (sliceOf r 0x30 14 ++ sliceOf r 0x68 96 ++ sliceOf r 0xC8 48)
  else if k = 2 then some (sliceOf r 0x40 16 ++ sliceOf r 0x50 4)
  else if k = 3 then some (sliceOf r 0x220 256)
  else if k = 4 then some (sliceOf r 0x320 8 ++ s.fenceDigest ++ sliceOf r 0x328 16)
  else if k = 5 then some (sliceOf r 6 2 ++ sliceOf r 0xF8 6 ++ sliceOf r 0x100 64)
  else if k = 6 then some (sliceOf r 0x140 168)
  else if k = 7 then some (sliceOf r 0x1E8 52)
  else if k ≤ 70 && s.sliceState (k - 7) != 0 then some (s.sliceRecord (k - 7))
  else none

/-- A measurement block as GET_MEASUREMENTS carries it: index, DMTF specification, and the digest value (PRESUMED,
DSP0274; log entry 28). -/
def State.measureBlock (s : State) (k : Nat) : Option (List Byte) :=
  (s.blockFields k).map (fun b =>
    leBytes 1 k ++ leBytes 1 1 ++ leBytes 2 51 ++ leBytes 1 0 ++ leBytes 2 48 ++ digest48 (Config.sha384 b))

/-- The blocks that exist, in index order. -/
def State.allBlocks (s : State) : List (List Byte) := ((List.range 70).map (· + 1)).filterMap s.measureBlock

end Sys2Proof.Machine
end

