-- ==== Sys2Proof/Machine/FreezeOps.lean ====
section
/-! DEFINITION. Freeze, thaw, the TAP and the power limiter (chapter 22). The FREEZE, THAW and OBSERVE_READ commands are
in Observe.lean. -/

namespace Sys2Proof.Machine

/-- Start the thaw of a static part (R748, R749): FREEZE_N released and ignored for 20 µs, THAWED logged. -/
def State.thawStart (s : State) (src : Nat) : State :=
  let s1 := (s.setFld F.FRZ_STATUS_STATE 3).setFld F.FRZ_STATUS_BLANKING 1
  let s2 : State := { s1 with pwr := { s1.pwr with freezeDrive := false }, frz := { s1.frz with thawPending := 0 } }
  s2.log 0x0D02 2 0 0xFFFF src 0

/-- A thaw by command (2) or symbol (3): at once when FROZEN, once static when FREEZING (Table 22-3). -/
def State.thawReq (s : State) (src : Nat) : State :=
  if s.fld F.FRZ_STATUS_STATE = 2 then s.thawStart src
  else if s.fld F.FRZ_STATUS_STATE = 1 then { s with frz := { s.frz with thawPending := src } }
  else s

/-- FREEZE_N_LOW: a low level held on FREEZE_N for 50 ns is recognised and makes a local freeze request of source 1;
for 20 µs after a thaw it is ignored (R34, R749). -/
def execFreezeNLow (s : State) : Res :=
  .next <|
    let s1 : State := { s with pwr := { s.pwr with freezeIn := true } }
    if s1.bit F.FRZ_STATUS_BLANKING then s1 else s1.freezeReq 1 false

/-- FREEZE_REQUEST: a freeze request of source `src` (Table 22-1), domain-wide or not (R742, R743, R745, R747). -/
def execFreezeRequest (src : Nat) (domain : Bool) (s : State) : Res :=
  .next (s.freezeReq src (domain && (src == 2 || src == 4)))

/-- FREEZE_STATIC: transactions in flight have completed and the clocks stop: the part is FROZEN, and a thaw that
waited begins (R743, R751). -/
def execFreezeStatic (s : State) : Res :=
  .next <|
    if s.fld F.FRZ_STATUS_STATE ≠ 1 then s
    else
      let s1 := (s.setFld F.FRZ_STATUS_STATE 2).setFld F.FRZ_LAST_LOCAL_NS (min (s.clk - s.frz.reqClk) 2047)
      if s1.frz.thawPending = 0 then s1 else s1.thawStart s1.frz.thawPending

/-- BLANKING_END: 20 µs after a thaw FREEZE_N is recognised again; a level that is low then is a new freeze of source 1
(R749). -/
def execBlankingEnd (low : Bool) (s : State) : Res :=
  .next <|
    if !s.bit F.FRZ_STATUS_BLANKING then s
    else
      let s1 := (s.setFld F.FRZ_STATUS_BLANKING 0)
      let s2 : State := { s1 with pwr := { s1.pwr with freezeIn := low } }
      if low ∧ s2.fld F.FRZ_STATUS_STATE = 0 then (s2.bump F.FRZ_CNT_REFREEZE_COUNT).freezeReq 1 false else s2

/-! ### The TAP (R759, Table 22-5) -/

/-- The TAP takes instruction `ir`, which leaves the pins driven as `mode` says. -/
def State.tapSet (s : State) (ir mode : Nat) : State := { s with frz := { s.frz with tapIr := ir, pinMode := mode } }

/-- The bypass register: one bit, which captures 0 (PRESUMED, IEEE 1149.1, log entry 8). -/
def State.tapBypass (s : State) (ir : Nat) : State := (s.tapSet ir 0).emit (.tap 1 0)

/-- The boundary-scan register is read, its `bits` bits being pin levels, which are free values, and `value` is
shifted in. -/
def State.tapScan (s : State) (bits value : Nat) : State :=
  let v := (s.free).toNat % 2 ^ min bits 64
  ({ s with frz := { s.frz with scanReg := value % 2 ^ bits } }.drawn).emit (.tap bits v)

/-- EXTEST: drives boundary scan while PERST_N is asserted, else acts as BYPASS. -/
def execExtest (bits value : Nat) (s : State) : Res :=
  .next (if s.pwr.perst then (s.tapSet 0x00 1).tapScan bits value else s.tapBypass 0x00)

/-- The 32-bit ID code (Table 22-5). -/
def State.idCode (s : State) : Nat := s.fused.stepping / 16 % 16 * 2 ^ 28 + 0x4A10 * 2 ^ 12 + 0x07F * 2 + 1

/-- IDCODE: returns the 32-bit ID code. -/
def execIdcode (s : State) : Res := .next ((s.tapSet 0x01 0).emit (.tap 32 s.idCode))

/-- SAMPLE/PRELOAD: accesses boundary scan without driving the pins. -/
def execSamplePreload (bits value : Nat) (s : State) : Res := .next ((s.tapSet 0x02 0).tapScan bits value)

/-- CLAMP: holds the pins at the boundary-scan values while PERST_N is asserted, with the bypass register selected;
else acts as BYPASS. -/
def execClamp (s : State) : Res :=
  .next (if s.pwr.perst then (s.tapSet 0x03 2).emit (.tap 1 0) else s.tapBypass 0x03)

/-- HIGHZ: releases the pins while PERST_N is asserted, with the bypass register selected; else acts as BYPASS. -/
def execHighz (s : State) : Res :=
  .next (if s.pwr.perst then (s.tapSet 0x04 3).emit (.tap 1 0) else s.tapBypass 0x04)

/-- BYPASS: selects the 1-bit bypass register (0xFF and every code Table 22-5 does not name). -/
def execBypass (ir : Nat) (s : State) : Res :=
  .next (if [0x00, 0x01, 0x02, 0x03, 0x04, 0x20, 0x21, 0x22].contains ir then s else s.tapBypass ir)

/-- OBS_ADDR: sets the observer object, index and 8-byte-aligned offset. -/
def execObsAddr (v : DWord) (s : State) : Res :=
  .next <|
    let w := v.toNat
    let s1 := s.tapSet 0x20 0
    { s1 with frz := { s1.frz with
        obsObject := bitsOf w 15 0, obsIndex := bitsOf w 31 16, obsOffset := bitsOf w 63 32 / 8 * 8 } }

/-- OBS_STATUS: returns the observer's status: NOT_FROZEN, BAD_ADDR, CONSENT, OBS_UE. -/
def execObsStatus (s : State) : Res :=
  .next <|
    let w := b2n s.frz.obsNotFrozen + 2 * b2n s.frz.obsBadAddr + 4 * s.fld F.SLC_TEN_STATUS_DEBUG_CONSENT +
      8 * s.fld F.FRZ_STATUS_OBS_UE
    (s.tapSet 0x22 0).emit (.tap 32 w)

/-! ### Limits (R763 to R766) -/

/-- The power cap in force, mW (R766). -/
def State.capMw (s : State) : Nat := 1000 * s.frz.capW.getD s.fused.maxPower

/-- Lower the clock one step for `limit` (1 power, 2 temperature). -/
def State.clockDown (s : State) (limit : Nat) : State :=
  if s.fld F.PWR_STATUS_STEP = 0 then s
  else
    let s1 := (s.setFld F.PWR_STATUS_STEP (s.fld F.PWR_STATUS_STEP - 1)).bump F.PWR_CNT_STEP_DOWN_COUNT
    if s1.frz.hold then s1 else s1.setFld F.PWR_STATUS_LIMIT limit

/-- Raise the clock one step; at 1.6 GHz nothing limits any more. -/
def State.clockUp (s : State) : State :=
  if s.fld F.PWR_STATUS_STEP = 6 then s
  else
    let s1 := s.setFld F.PWR_STATUS_STEP (s.fld F.PWR_STATUS_STEP + 1)
    let s2 : State := { s1 with frz := { s1.frz with lowUs := 0 } }
    if s2.fld F.PWR_STATUS_STEP = 6 ∧ ¬ s2.frz.hold then s2.setFld F.PWR_STATUS_LIMIT 0 else s2

/-- Impose a hold (R765). -/
def State.imposeHold (s : State) : State :=
  if s.frz.hold then s
  else
    let s1 : State := { s with frz := { s.frz with hold := true, holdStops := false } }
    (s1.bump F.PWR_CNT_HOLD_COUNT).setFld F.PWR_STATUS_LIMIT 3

/-- POWER_SAMPLE: every 10 µs the limiter measures input power: `avgMw` is the average over the last 1 ms (R763,
R765). -/
def execPowerSample (avgMw : Nat) (s : State) : Res :=
  .next <|
    let low := decide (10 * avgMw < 9 * s.capMw)
    let s1 : State := { s with frz := { s.frz with lowUs := if low then s.frz.lowUs + 10 else 0 } }
    if s.capMw < avgMw then
      if s1.fld F.PWR_STATUS_STEP = 0 then s1.imposeHold else s1.clockDown 1
    else if 10000 ≤ s1.frz.lowUs ∧ s1.frz.hottest < 90 then s1.clockUp
    else s1

/-- THERMAL_STEP: the limiter reads the hottest junction: at 95 °C or above the clock goes down one step; at 1.0 GHz,
105 °C imposes a hold (R764, R765). -/
def execThermalStep (hottest : Int) (s : State) : Res :=
  .next <|
    let s1 : State := { s with frz := { s.frz with hottest := hottest } }
    if s1.fld F.PWR_STATUS_STEP = 0 ∧ 105 ≤ hottest then s1.imposeHold
    else if 95 ≤ hottest then s1.clockDown 2
    else s1

/-- At a tick boundary a hold takes hold of dispatch, and ends when power stayed below 90 % of the cap for 1 ms and
every junction is below 100 °C (R765). -/
def State.holdBoundary (s : State) : State :=
  if !s.frz.hold then s
  else if s.frz.holdStops ∧ 1000 ≤ s.frz.lowUs ∧ s.frz.hottest < 100 then
    { s with frz := { s.frz with hold := false, holdStops := false } }.setFld F.PWR_STATUS_LIMIT
      (if s.fld F.PWR_STATUS_STEP = 6 then 0 else 1)
  else { s with frz := { s.frz with holdStops := true } }

/-- TELEMETRY_UPDATE: every 10 ms the readings are updated: input voltage (10 mV), 10 ms average power (100 mW), energy
of the interval (mJ), and for each temperature sensor whether it is read and its °C (R762, Table 22-8). -/
def execTelemetryUpdate (volt power energyMj : Nat) (temps : List (Bool × Int)) (s : State) : Res :=
  .next <|
    let s1 := (s.setFld F.PWR_INPUT_VOLT_10MV volt).setFld F.PWR_INPUT_POWER_100MW power
    let s2 := s1.setPair R.PWR_ENERGY_LO R.PWR_ENERGY_HI (s1.pair R.PWR_ENERGY_LO R.PWR_ENERGY_HI + energyMj)
    (List.range 11).foldl (fun s i =>
      let t := temps.getD i (false, 0)
      (s.setFld (F.PWR_TEMP_VALID i) (b2n t.1)).setFld (F.PWR_TEMP_DEG_C i) (unsgn 8 t.2)) s2

end Sys2Proof.Machine
end

