-- ==== Sys2Proof/Machine/Layout.lean ====
section
/-! DEFINITION. Slice layouts (chapters 05, 07, 09): the projected layout, placing reservations, the slice commands,
and the exchange-layout commands. -/

namespace Sys2Proof.Machine

/-! ### The projected layout (R176) -/

/-- A slice's layout with the base of its reservation. -/
structure Held where
  vf : Nat
  lay : Layout
  base : Nat
deriving DecidableEq, Repr

/-- The layout VF `n`'s slice has now. -/
def State.layoutOf (s : State) (n : Nat) : Layout :=
  { mode := s.fld (F.SLC_S_SHARE_MODE n), share := s.fld (F.SLC_S_SHARE_SHARE n), clusters := s.clustersOf n,
    commons := s.fld (F.SLC_S_COMMONS_UNITS n), hbm := s.fld (F.SLC_S_HBM_UNITS n),
    engShare := s.fld (F.SLC_S_ENGINE_SHARE_WEIGHT n) }

/-- One change applied to a list of layouts. -/
def applyHeld (l : List Held) (c : Change) : List Held :=
  match c.kind with
  | 1 => l ++ [⟨c.vf, c.lay, c.base⟩]
  | 2 => l.map (fun h => if h.vf = c.vf then ⟨c.vf, c.lay, c.base⟩ else h)
  | 3 => l.filter (fun h => h.vf != c.vf)
  | _ => l

/-- The layouts that all accepted changes will produce (R176). -/
def State.projected (s : State) : List Held :=
  s.eng.changes.foldl applyHeld
    ((s.sliced.filter (fun n => s.sliceState n != 1)).map (fun n => ⟨n, s.layoutOf n, (s.slice n).base⟩))

/-- What destroyed slices still hold while they are cleared (R276). -/
def State.goneHeld (s : State) : List Held :=
  vfs.filterMap (fun n => (s.slice n).gone.map (fun g => ⟨n, g.1, g.2⟩))

/-! ### Commons and HBM (R335 to R338) -/

/-- First and end address of commons half `d` for reservations: all of it but the system area. -/
def State.halfRange (s : State) (d : Nat) : Nat × Nat :=
  (d * 0x8000000, d * 0x8000000 + (if d = s.sysDie then 0x7000000 else 0x8000000))

/-- Address `a` is free for a reservation of `len` bytes beside `held`. -/
def freeAt (held : List Held) (a len : Nat) : Bool :=
  held.all (fun h => h.lay.commons == 0 || decide (a + len ≤ h.base ∨ h.base + 0x10000 * h.lay.commons ≤ a))

/-- The lowest place in half `d` at which `units` fit: the half's start or the end of a held reservation. -/
def State.fitIn (s : State) (held : List Held) (d units : Nat) : Option Nat :=
  let (lo, hi) := s.halfRange d
  if !s.dieUp d then none
  else
    let cand := (lo :: (held.map (fun h => h.base + 0x10000 * h.lay.commons))).filter (fun a =>
      decide (lo ≤ a ∧ a + 0x10000 * units ≤ hi) && freeAt held a (0x10000 * units))
    lowest cand

/-- The compute die that holds most of the clusters, 0 on a tie. -/
def mostDie (clusters : Nat) : Nat :=
  if popCount clusters 24 < popCount (clusters / 2 ^ 24) 24 then 1 else 0

/-- Where a new reservation goes (R336); a slice with none has no base. -/
def State.place (s : State) (held : List Held) (clusters units : Nat) : Option Nat :=
  if units = 0 then some 0
  else
    let d := mostDie clusters
    match s.fitIn held d units with
    | some a => some a
    | none => s.fitIn held (1 - d) units

/-- The home die of VF `n`'s slice (R338). -/
def State.homeDie (s : State) (n : Nat) : Nat :=
  if s.fld (F.SLC_S_COMMONS_UNITS n) = 0 then
    (if s.dieUp (mostDie (s.clustersOf n)) then mostDie (s.clustersOf n) else 1 - mostDie (s.clustersOf n))
  else (s.slice n).base / 0x8000000

/-- Usable frames (MEM_HBM_FRAMES). -/
def State.totalFrames (s : State) : Nat := 12288 * s.stacks.length

/-- Frames the model holds or a load has reserved (R312). -/
def State.modelFrames (s : State) : Nat := max s.mem.model.length s.mem.reserved

/-- HBM units in neither the model nor any quota of the list (SLC_FREE_HBM). -/
def State.freeHbm (s : State) (held : List Held) : Nat :=
  s.totalFrames - s.modelFrames - held.foldl (fun t h => t + h.lay.hbm) 0

/-- Commons units in no reservation (SLC_FREE_COMMONS, R335). -/
def State.freeCommons (s : State) (held : List Held) : Nat :=
  2048 * (b2n (s.dieUp 0) + b2n (s.dieUp 1)) - 256 - held.foldl (fun t h => t + h.lay.commons) 0

/-- The slice holds a handle of an ISA 0x01 image (R493). -/
def State.windowed (s : State) (n : Nat) : Bool :=
  (s.slice n).kernels.any (fun e => match e.2 with | some k => k.isa == 1 | none => false)

/-- Clusters a layout needs do not all exist, or meet another slice's in a way R190 forbids. -/
def clusterClash (usable n : Nat) (l : Layout) (others : List Held) : Bool :=
  Nat.lor l.clusters usable != usable ||
    others.any (fun h => h.vf != n && Nat.land h.lay.clusters l.clusters != 0 && (l.mode == 0 || h.lay.mode == 0))

/-- More than 128 pinned entries on a cluster (R362), or a windowed slice beside one named by an RT entry (R493). -/
def State.clusterLimits (s : State) (n : Nat) (l : Layout) (others : List Held) : Bool :=
  (bitList l.clusters 48).any (fun c =>
    decide (128 < others.foldl (fun t h => if h.vf != n && tst h.lay.clusters c then t + s.pinned h.vf else t) (s.pinned n))) ||
  others.any (fun h => h.vf != n && Nat.land h.lay.clusters l.clusters != 0 &&
    ((s.windowed n && s.rtNamed h.vf) || (s.windowed h.vf && s.rtNamed n)))

/-- The offset of the first value outside the VF's operator bounds, when its AUTO bound is set (R190). -/
def State.outOfBounds (s : State) (n : Nat) (l : Layout) : Option Nat :=
  let k := popCount l.clusters 48
  if !s.bit (F.SLC_S_BOUNDS_AUTO n) then none
  else if k < s.fld (F.SLC_S_BOUNDS_MIN_CLUSTERS n) || s.fld (F.SLC_S_BOUNDS_MAX_CLUSTERS n) < k then some 12
  else if l.commons < (s.reg (R.SLC_B_MIN_COMMONS n)).toNat || (s.reg (R.SLC_B_MAX_COMMONS n)).toNat < l.commons then some 20
  else if l.hbm < (s.reg (R.SLC_B_MIN_HBM n)).toNat || (s.reg (R.SLC_B_MAX_HBM n)).toNat < l.hbm then some 24
  else none

/-- The base of the reservation that a layout gives VF `n`, which has `old` units at `base` now: a new place, the same
place grown upward or cut at its top (R274, R336, R337). -/
def State.newBase (s : State) (held : List Held) (n : Nat) (l : Layout) (old base : Nat) : Option Nat :=
  let others := held.filter (fun h => h.vf != n)
  if old = 0 then s.place others l.clusters l.commons
  else if l.commons ≤ old then some base
  else
    let d := base / 0x8000000
    if base + 0x10000 * l.commons ≤ (s.halfRange d).2 &&
        freeAt others (base + 0x10000 * old) (0x10000 * (l.commons - old)) then some base
    else none

/-- Step 10 of R163 for a create or resize: status and DETAIL of what fails, or the base of the reservation. A
resize below the Teasel area of an activated slice fails at COMMONS (R574). -/
def State.resourceCheck (s : State) (n : Nat) (l : Layout) (resize : Bool) : (Nat × Nat) ⊕ Nat :=
  let held := s.projected ++ s.goneHeld
  let others := held.filter (fun h => h.vf != n)
  let (old, base) := match s.projected.find? (fun h => h.vf == n) with
    | some h => (h.lay.commons, h.base)
    | none => (0, 0)
  if clusterClash s.usableClusters n l others then .inl (0x19, 12)
  else if resize && s.activated n && decide (0x10000 * l.commons < s.areaSize (s.limitActive n)) then .inl (0x19, 20)
  else match s.newBase held n l (if resize then old else 0) base with
    | none => .inl (0x19, 20)
    | some b =>
      if s.freeHbm others < l.hbm || (resize && decide (l.hbm < s.charge n)) then .inl (0x19, 24)
      else if s.clusterLimits n l others then .inl (0x19, 12)
      else match s.outOfBounds n l with
        | some o => .inl (0x1A, o)
        | none => if (s.pendingOf n).isSome then .inl (0x16, 0) else .inr b

/-! ### The slice commands -/

/-- The layout in the arguments of SLICE_CREATE or SLICE_RESIZE (Table 05-9). -/
def Call.layout (c : Call) : Layout :=
  { mode := c.arg 9 1, share := c.arg 10 2, clusters := c.arg 12 8, commons := c.arg 20 4, hbm := c.arg 24 4,
    engShare := c.arg 28 2 }

/-- Step 7 of R163 for these arguments. -/
def Call.layoutRange (c : Call) (s : State) : Option (Nat × Nat) :=
  if c.arg 8 1 = 0 || 63 < c.arg 8 1 then some (0x11, 8)
  else if 1 < c.arg 9 1 then some (0x11, 9)
  else if c.arg 10 2 = 0 then some (0x11, 10)
  else if c.arg 28 2 = 0 then some (0x11, 28)
  else match s.atTick (c.arg 32 8) with
    | .inl st => some (st, if st = 0x11 then 32 else 0)
    | .inr _ => none

/-- The boundary an accepted command names. -/
def State.boundaryFor (s : State) (a : Nat) : Nat := match s.atTick a with | .inr t => t | .inl _ => 0

/-- Accept a change: it joins the pending ones and the slice's SLC_S_PENDING shows its boundary. -/
def State.accept (s : State) (ch : Change) : State :=
  let s1 : State := { s with eng := { s.eng with changes := s.eng.changes ++ [ch] } }
  s1.setPair (R.SLC_S_PENDING_LO ch.vf) (R.SLC_S_PENDING_HI ch.vf) ch.tick

/-- SLICE_CREATE (R189, R190). -/
def execSliceCreate (ups : Upsets) (s : State) : Res :=
  s.command 0x0201 ups (fun c s =>
    let n := c.arg 8 1
    match c.layoutRange s with
    | some (st, d) => s.no st d
    | none =>
      if s.tenancy ≠ 2 || (s.sliceState n != 0 && s.sliceState n != 5) || s.sliceState n == 6 then s.no 0x15 0
      else if s.recovering then s.no 0x16 0
      else match s.resourceCheck n c.layout false with
        | .inl (st, d) => s.no st d
        | .inr b =>
          let t := s.boundaryFor (c.arg 32 8)
          ((s.setSlice n 1).accept ⟨1, n, t, c.layout, 0, b⟩).ok (leBytes 8 t))

/-- SLICE_RESIZE (R189, R190, R273, R275). -/
def execSliceResize (ups : Upsets) (s : State) : Res :=
  s.command 0x0202 ups (fun c s =>
    let n := c.arg 8 1
    match c.layoutRange s with
    | some (st, d) => s.no st d
    | none =>
      let st := s.sliceState n
      if s.tenancy ≠ 2 || st = 0 || st = 5 || st = 6 then s.no 0x15 0
      else if s.rtNamed n && Nat.lor (s.clustersOf n) c.layout.clusters != c.layout.clusters then s.no 0x15 12
      else if s.recovering || st = 4 then s.no 0x16 0
      else match s.resourceCheck n c.layout true with
        | .inl (st, d) => s.no st d
        | .inr b =>
          let t := s.boundaryFor (c.arg 32 8)
          ((s.setSlice n 3).accept ⟨2, n, t, c.layout, 0, b⟩).ok (leBytes 8 t))

/-- SLICE_DESTROY (R189, R191, R267). -/
def execSliceDestroy (ups : Upsets) (s : State) : Res :=
  s.command 0x0203 ups (fun c s =>
    let n := c.arg 8 1
    if n = 0 || 63 < n then s.no 0x11 8
    else match s.atTick (c.arg 32 8) with
      | .inl st => s.no st (if st = 0x11 then 32 else 0)
      | .inr t =>
        let st := s.sliceState n
        if st = 0 || st = 5 then s.no 0x15 0
        else if st = 4 || (s.pendingOf n).isSome then s.no 0x16 0
        else
          let s1 := (s.modSlice n (fun x => { x with prev := st })).setSlice n 5
          (s1.accept ⟨3, n, t, {}, 0, 0⟩).ok (leBytes 8 t))

/-- SLICE_RESET: a job that stops and clears the slice (R267, R277). -/
def execSliceReset (ups : Upsets) (s : State) : Res :=
  s.command 0x0204 ups (fun c s =>
    let n := c.arg 8 1
    if n = 0 || 63 < n then s.no 0x11 8
    else if s.sliceState n ≠ 2 && s.sliceState n != 3 then s.no 0x15 0
    else if s.jobLimit c.fn then s.no 0x16 0
    else
      let s1 := (s.clearBegin n 0).queuesStop n
      let s2 := ((s1.setFld F.SLC_SCRUB_ACTIVE 1).setFld F.SLC_SCRUB_KIND 2).setFld F.SLC_SCRUB_VF n
      s2.startJob c (0x200000 * s2.fld (F.SLC_S_HBM_UNITS n)) n 0 0)

/-- SLICE_RESET_JOB_END: the clearing of a slice reset job ends (R266, R278); a release subsumes it (R282). -/
def execSliceResetJobEnd (s : State) : Res :=
  match s.jobOf 0x0204 with
  | none => .next s
  | some j =>
    if s.frozen || s.tenancy = 3 then .next s
    else .next (((s.clearEnd (s.job j).a 0).setFld F.SLC_SCRUB_ACTIVE 0).endJob j 0 0)

/-- SLICE_BOUNDS_SET: bounds in force at once; a slice outside them is brought inside later (R192, R566). -/
def execSliceBoundsSet (ups : Upsets) (s : State) : Res :=
  s.command 0x0205 ups (fun c s =>
    let n := c.arg 8 1
    if n = 0 || 63 < n then s.no 0x11 8
    else if 1 < c.arg 9 1 then s.no 0x11 9
    else if 48 < c.arg 11 1 || c.arg 11 1 < c.arg 10 1 then s.no 0x11 11
    else
      let s1 := ((s.setFld (F.SLC_S_BOUNDS_AUTO n) (c.arg 9 1)).setFld (F.SLC_S_BOUNDS_MIN_CLUSTERS n) (c.arg 10 1)).setFld
        (F.SLC_S_BOUNDS_MAX_CLUSTERS n) (c.arg 11 1)
      let s2 := (s1.setReg (R.SLC_B_MIN_COMMONS n) (BitVec.ofNat 32 (c.arg 12 4))).setReg (R.SLC_B_MAX_COMMONS n)
        (BitVec.ofNat 32 (c.arg 16 4))
      let s3 := (s2.setReg (R.SLC_B_MIN_HBM n) (BitVec.ofNat 32 (c.arg 20 4))).setReg (R.SLC_B_MAX_HBM n)
        (BitVec.ofNat 32 (c.arg 24 4))
      (s3.modSlice n (fun x => { x with boundsAt := s3.tickCount + 2, boundsLogged := false })).ok [])

/-- SLICE_STATUS (Table 05-9). -/
def execSliceStatus (ups : Upsets) (s : State) : Res :=
  s.command 0x0206 ups (fun c s =>
    let n := c.arg 8 1
    if n = 0 || 63 < n then s.no 0x11 8
    else if s.sliceState n = 0 then s.ok []
    else
      let l := s.layoutOf n
      s.ok (leBytes 1 (s.sliceState n) ++ leBytes 1 l.mode ++ leBytes 2 l.share ++ leBytes 8 l.clusters ++ leBytes 4 l.commons ++
        leBytes 4 l.hbm ++ leBytes 8 (s.pair (R.SLC_S_PENDING_LO n) (R.SLC_S_PENDING_HI n))))

/-- SLOWDOWN_SET for the slices named: threshold, persistence, action; THRESHOLD 0 turns the reports off and clears
count and pending notice (Table 05-9). -/
def State.slowdownSet (s : State) (c : Call) (n : Nat) : State :=
  let th := c.arg 10 2
  let s1 := ((s.setFld (F.SCH_SD_CFG_THRESHOLD n) th).setFld (F.SCH_SD_CFG_PERSIST n) (c.arg 12 2)).setFld
    (F.SCH_SD_STATE_ACTION n) (c.arg 9 1)
  if th = 0 then
    { s1 with sch := { s1.sch with persist := fset (fun _ => 0) s1.sch.persist n 0, sdPend := fset (fun _ => 0) s1.sch.sdPend n 0 } }
  else s1

/-- SLOWDOWN_SET (R564, Table 05-9). -/
def execSlowdownSet (ups : Upsets) (s : State) : Res :=
  s.command 0x0207 ups (fun c s =>
    let n := c.arg 8 1
    let th := c.arg 10 2
    if 63 < n then s.no 0x11 8
    else if 1 < c.arg 9 1 then s.no 0x11 9
    else if 1 ≤ th && th ≤ 256 then s.no 0x11 10
    else if th ≠ 0 && c.arg 12 2 = 0 then s.no 0x11 12
    else ((if n = 0 then vfs else [n]).foldl (fun s n => s.slowdownSet c n) s).ok [])

/-! ### Exchange layout (R139, R140) -/

/-- The region that the arguments of EXCHANGE_REGION_SET describe. -/
def Call.region (c : Call) : Region :=
  { base := 64 * c.arg 12 4, size := 64 * c.arg 16 4, kind := c.arg 9 1, vf := c.arg 10 1, sema := c.arg 11 1 == 1,
    lease := c.arg 20 4 }

/-- The regions with descriptor `r` replaced by `g`. -/
def State.regionsWith (s : State) (r : Nat) (g : Region) : List Region :=
  (List.range 128).map (fun i => if i = r then g else s.region i)

/-- Two enabled regions of the list overlap. -/
def overlaps : List Region → Bool
  | [] => false
  | g :: t => t.any (fun h => g.size != 0 && h.size != 0 && decide (g.base < h.base + h.size ∧ h.base < g.base + g.size)) ||
    overlaps t

/-- Window base of VF `n`, in bytes. -/
def State.window (s : State) (n : Nat) : Nat := 4096 * s.fld (F.EXM_VF_WIN_BASE n)

/-- A region lies wholly in its VF's window, which `base` places (R132, R139): the window's 0x3F000 exchange bytes. -/
def inWindow (g : Region) (base : Nat) : Bool := decide (base ≤ g.base ∧ g.base + g.size ≤ base + 0x3F000)

/-- A list of regions breaks R139. -/
def State.regionConflict (s : State) (l : List Region) : Bool :=
  overlaps l || l.any (fun g => g.size != 0 && decide (0x7F0000 < g.base + g.size)) ||
    l.any (fun g => g.size != 0 && g.kind != 0 && !inWindow g (s.window g.vf)) ||
    decide (0x8000 < l.foldl (fun t g => if g.sema then t + g.size else t) 0)

/-- Byte `a` lies in some region of the list with this kind, VF and SEMA flag. -/
def inKind (l : List Region) (g : Region) (a : Nat) : Bool :=
  l.any (fun h => h.covers a && h.kind == g.kind && h.vf == g.vf && h.sema == g.sema)

/-- Zero every byte that leaves the SLICE or CONVERSATION region `g` when the regions become `l` (R140). -/
def State.zeroLeaving (s : State) (g : Region) (l : List Region) : State :=
  if g.kind = 0 || g.size = 0 then s
  else ((List.range (g.size / 8)).filter (fun i => !inKind l g (g.base + 8 * i))).foldl
    (fun s i => s.exmZero (g.base + 8 * i) 8) s

/-- Write descriptor `r`. -/
def State.setRegion (s : State) (r : Nat) (c : Call) : State :=
  let s1 := ((s.setFld (F.EXM_RGN_BASE_BASE r) (c.arg 12 4)).setFld (F.EXM_RGN_SIZE_SIZE r) (c.arg 16 4)).setFld
    (F.EXM_RGN_ATTR_KIND r) (c.arg 9 1)
  ((s1.setFld (F.EXM_RGN_ATTR_VF r) (c.arg 10 1)).setFld (F.EXM_RGN_ATTR_SEMA r) (c.arg 11 1)).setFld
    (F.EXM_RGN_LEASE_LEASE_US r) (c.arg 20 4)

/-- EXCHANGE_REGION_SET (R138 to R140, Tables 04-11, 05-9). -/
def execExchangeRegionSet (ups : Upsets) (s : State) : Res :=
  s.command 0x0301 ups (fun c s =>
    let r := c.arg 8 1
    let g := c.region
    if 127 < r then s.no 0x11 8
    else if 2 < g.kind then s.no 0x11 9
    else if 63 < g.vf || (g.kind == 0) != (g.vf == 0) then s.no 0x11 10
    else if 1 < c.arg 11 1 then s.no 0x11 11
    else if 2 ^ 17 ≤ c.arg 12 4 then s.no 0x11 12
    else if 2 ^ 17 ≤ c.arg 16 4 then s.no 0x11 16
    else if 1000000 < g.lease then s.no 0x11 20
    else
      let l := s.regionsWith r g
      if s.regionConflict l then s.no 0x1E 0
      else if s.region r = g then s.ok []
      else ((s.zeroLeaving (s.region r) l).setRegion r c |>.log 0x0403 1 0 0xFFFF r 0).ok [])

/-- EXCHANGE_WINDOW_SET (R140, Tables 05-7, 05-9): the VF's regions must lie in the new window; bytes that leave the
window's regions are zeroed. -/
def execExchangeWindowSet (ups : Upsets) (s : State) : Res :=
  s.command 0x0302 ups (fun c s =>
    let n := c.arg 8 1
    let b := c.arg 12 4
    if n = 0 || 63 < n then s.no 0x11 8
    else if 1969 < b then s.no 0x11 12
    else if (List.range 128).any (fun r =>
        let g := s.region r
        g.size != 0 && g.kind != 0 && g.vf == n && !inWindow g (4096 * b)) then s.no 0x1E 0
    else if s.fld (F.EXM_VF_WIN_BASE n) = b then s.ok []
    else ((s.setFld (F.EXM_VF_WIN_BASE n) b).log 0x0403 1 n 0xFFFF (0x100 + n) 0).ok [])

end Sys2Proof.Machine
end

