-- ==== Sys2Proof/Machine/Recorder.lean ====
section
/-! DEFINITION. The event recorder's logs (chapter 21): slots, sector headers, the drain, erase-ahead, the run-end
list, the flush, the mount, and its commands. -/

namespace Sys2Proof.Machine

/-! ### Slots of the logs -/

/-- NOR offset of a log: 0 the first-fault log, 1 the ring log (Table 21-1). -/
def logBase (log : Nat) : Nat := if log = 0 then 0 else 0x400000

/-- Slots of a log. -/
def logSlots (log : Nat) : Nat := if log = 0 then 131072 else 786432

/-- NOR byte and bit that hold the bad-slot bit of slot `i` (R713). -/
def bitmapAt (log i : Nat) : Nat × Nat :=
  let b := if log = 0 then i else 131072 + i
  (0x1C20000 + b / 8, b % 8)

/-- The bitmap marks the slot usable (R713). -/
def State.slotUsable (s : State) (log i : Nat) : Bool :=
  tst (s.norByte (bitmapAt log i).1).toNat (bitmapAt log i).2

/-- Mark a slot bad: the bitmap bit is cleared, counted and logged (R714). -/
def State.markBad (s : State) (log i : Nat) (erase : Bool) : State :=
  let p := bitmapAt log i
  let s1 := s.norProgram p.1 [BitVec.ofNat 8 (putBit 0xFF p.2 false)]
  (s1.bump F.EVR_CNT_BAD_SLOT_COUNT).log 0x0007 2 0 0xFFFF log (i + b2n erase * 2 ^ 32)

/-- The write position of a log. -/
def State.logPos (s : State) (log : Nat) : Nat :=
  if log = 0 then s.fld F.EVR_FF_NEXT_SLOT else s.fld F.EVR_RING_NEXT_SLOT

/-- Move a log's write position to `i`; the ring wraps, the first-fault log stops at its end. -/
def State.setLogPos (s : State) (log i : Nat) : State :=
  if log = 0 then s.setFld F.EVR_FF_NEXT_SLOT (min i 131072)
  else
    let d := i - s.fld F.EVR_RING_NEXT_SLOT
    { s with evr := { s.evr with margin := s.evr.margin - d } }.setFld F.EVR_RING_NEXT_SLOT (i % 786432)

/-- Find the next usable blank slot of a log from `i` on, marking non-blank slots bad on the way (R712, R714). -/
def slotAfter (log : Nat) : Nat → Nat → State → State × Option Nat
  | 0, _, s => (s, none)
  | n + 1, i, s =>
    if log = 0 ∧ 131072 ≤ i then (s, none)
    else
      let j := i % logSlots log
      if s.slotUsable log j then
        if s.norBlank (logBase log + 32 * j) 32 then (s, some i)
        else slotAfter log n (i + 1) (s.markBad log j false)
      else slotAfter log n (i + 1) s

/-- Slot `i` is the lowest usable slot of its sector, which holds the sector's header (R712). -/
def State.isHeaderSlot (s : State) (log i : Nat) : Bool :=
  (List.range (i % 128)).all (fun k => !s.slotUsable log (i - i % 128 + k))

/-- Program the header of the sector that begins at slot `i`, with the next SEQ and the next sector sequence (R712). -/
def State.putHeader (s : State) (log i : Nat) : State :=
  let sq := ((if log = 0 then s.evr.ffSector else s.evr.ringSector) + 1) % 2 ^ 32
  let r := s.mkRecord 0x0001 0 0 0xFFFF log sq false
  let s1 := (s.takeSeq).bump F.EVR_CNT_RECORDS_COUNT
  let s2 := s1.norProgram (logBase log + 32 * (i % logSlots log)) r.bytes
  { s2 with evr := { s2.evr with
      ffSector := if log = 0 then sq else s2.evr.ffSector
      ringSector := if log = 0 then s2.evr.ringSector else sq } }

/-- Program one 32-byte unit at the next usable slot of a log, with a sector header first where one is due; answers
whether a slot was found. -/
def State.putUnit (s : State) (log : Nat) (bytes : List Byte) : State × Bool :=
  match slotAfter log 512 (s.logPos log) s with
  | (s1, none) => (s1, false)
  | (s1, some i) =>
    if s1.isHeaderSlot log (i % logSlots log) then
      let s2 := (s1.putHeader log i).setLogPos log (i + 1)
      match slotAfter log 512 (i + 1) s2 with
      | (s3, none) => (s3, false)
      | (s3, some k) => ((s3.norProgram (logBase log + 32 * (k % logSlots log)) bytes).setLogPos log (k + 1), true)
    else ((s1.norProgram (logBase log + 32 * (i % logSlots log)) bytes).setLogPos log (i + 1), true)

/-! ### The buffer -/

/-- Units of a buffered record that a log still needs. -/
def BufRec.left (b : BufRec) (log : Nat) : Nat :=
  if log = 0 then (if b.ffWant then b.hdr.units - b.ffDone else 0) else b.hdr.units - b.ringDone

/-- The next unit of a buffered record for a log. -/
def BufRec.unit (b : BufRec) (log : Nat) : List Byte :=
  let k := if log = 0 then b.ffDone else b.ringDone
  if k = 0 then b.hdr.bytes else b.body.getD (k - 1) []

/-- One more unit of the record is in the log. -/
def BufRec.did (b : BufRec) (log : Nat) : BufRec :=
  if log = 0 then { b with ffDone := b.ffDone + 1 } else { b with ringDone := b.ringDone + 1 }

/-- Count the first unit of the oldest record that waits for the log as programmed. -/
def bufDid (log : Nat) : List BufRec → List BufRec
  | [] => []
  | b :: t => if b.left log = 0 then b :: bufDid log t else b.did log :: t

/-- The oldest record that waits for the log. -/
def State.waiting (s : State) (log : Nat) : Option BufRec := s.evr.buf.find? (fun b => b.left log != 0)

/-- Records that every log they need holds leave the buffer (R722); when that frees space after a loss, a
RECORDS_LOST record is created (R724). -/
def State.tidy (s : State) : State :=
  let s1 : State := { s with evr := { s.evr with buf := s.evr.buf.filter (fun b => b.left 0 != 0 || b.left 1 != 0) } }
  if 0 < s1.evr.lostCount ∧ s1.bufUsed < 1023 then
    let s2 : State := { s1 with evr := { s1.evr with lostFirst := 0, lostCount := 0 } }
    s2.log 0x0005 2 0 0xFFFF 0 (s1.evr.lostFirst + s1.evr.lostCount * 2 ^ 32)
  else s1

/-- The record is no longer to be copied to the first-fault log. -/
def BufRec.noFf (b : BufRec) : BufRec := { b with ffWant := false }

/-- The first-fault log has no usable slot left: flag, record, notice, and every copy it still owed is skipped
(R725). -/
def State.ffFull (s : State) : State :=
  let owed := (s.evr.buf.filter (fun b => b.left 0 != 0)).length
  let s1 : State := { s with evr := { s.evr with buf := s.evr.buf.map BufRec.noFf } }
  let s2 := (s1.setFld F.EVR_STATUS_FF_FULL 1).setFld F.EVR_FF_NEXT_SLOT 131072
  let seq := (s2.reg R.EVR_SEQ).toNat
  ((s2.addFld F.EVR_CNT_FF_SKIPPED_COUNT owed).log 0x0008 2 0 0xFFFF 0 0).recNotice 2 0xFF seq

/-- Whether the drain may program the ring: outside a flush a margin of 128 KiB stays (R723). -/
def State.ringRoom (s : State) (flush : Bool) : Bool :=
  if flush then decide (0 < s.evr.margin) else decide (4096 < s.evr.margin)

/-- Program waiting units of a log until the page that begins the run is filled, no unit waits, or no room is left;
at most `n` units (R722). -/
def drainUnits (log : Nat) (flush : Bool) : Nat → State → State
  | 0, s => s
  | n + 1, s =>
    match s.waiting log with
    | none => s
    | some b =>
      if log ≠ 0 ∧ ¬ s.ringRoom flush then s
      else
        match s.putUnit log (b.unit log) with
        | (s1, false) => if log = 0 then s1.ffFull else s1
        | (s1, true) =>
          let s2 : State := { s1 with evr := { s1.evr with
            buf := bufDid log s1.evr.buf
            ffNewest := if log = 0 then b.hdr.seq + 1 else s1.evr.ffNewest
            ringNewest := if log = 0 then s1.evr.ringNewest else b.hdr.seq + 1 } }
          if s2.logPos log % 8 = 0 then s2 else drainUnits log flush n s2

/-- A program or erase failed; at the eighth in a row the recorder stops programming (R715). -/
def State.norFailed (s : State) : State :=
  let s1 : State := { s with evr := { s.evr with norFails := s.evr.norFails + 1 } }
  if s1.evr.norFails = 8 then
    let seq := (s1.reg R.EVR_SEQ).toNat
    ((s1.setFld F.EVR_STATUS_NOR_FAIL 1).log 0x000C 4 0 0xFFFF 0 0).recNotice 1 0xFF seq
  else s1

/-- A program or erase succeeded: the run of failures ends. -/
def State.norOk (s : State) : State := { s with evr := { s.evr with norFails := 0 } }

/-- The drain may program NOR: mounted, the device has not failed, power is on (R715, R728). -/
def State.canDrain (s : State) : Bool :=
  s.bit F.EVR_STATUS_MOUNTED && !s.bit F.EVR_STATUS_NOR_FAIL && s.pwr.mode == .on

/-- DRAIN_PAGE_PROGRAM: the drain programs one page of a log, or the device reports the program as failed, which
leaves the page's bytes unspecified and marks each slot of the program bad (R711, R714, R722). -/
def execDrainPageProgram (log : Nat) (ok : Bool) (s : State) : Res :=
  .next <|
    if !s.canDrain || (log = 0 && s.evr.clearing == 1) || (s.waiting log).isNone || (log ≠ 0 && !s.ringRoom false) then s
    else if ok then (drainUnits log false 8 s.norOk).tidy
    else
      let p := s.logPos log
      let n := min (8 - p % 8) ((s.evr.buf.map (fun b => b.left log)).foldl (· + ·) 0)
      let s1 := s.norSpoil (logBase log + 256 * (p / 8)) 256
      let s2 := ((List.range n).map (fun i => (p + i) % logSlots log)).foldl (fun s i => s.markBad log i false) s1
      (s2.setLogPos log (p + n)).norFailed

/-- ERASE_AHEAD_COMPLETE: an erase of `sectors` ring sectors (1, or 16 for a block) beyond the margin ends (R723); a
failed one leaves their bytes unspecified and marks every slot of them bad (R711, R714). While frozen the recorder
erases only to hold the 128 KiB floor (R736). -/
def execEraseAheadComplete (sectors : Nat) (ok : Bool) (s : State) : Res :=
  .next <|
    if !s.canDrain || (s.frozen && decide (4096 ≤ s.evr.margin)) || decide (786432 ≤ s.evr.margin + 128 * sectors) then s
    else
      let n := if sectors = 16 then 16 else 1
      let first := ((s.logPos 1 + s.evr.margin + 127) / 128) % 6144
      let secs := (List.range n).map (fun i => (first + i) % 6144)
      if ok then
        let s1 := secs.foldl (fun s c => s.norErase (0x400000 + 4096 * c) 4096) s.norOk
        { s1 with evr := { s1.evr with margin := s1.evr.margin + 128 * n } }.setFld F.EVR_RING_OLDEST_SLOT
          (128 * ((first + n) % 6144))
      else
        let s1 := secs.foldl (fun s c => s.norSpoil (0x400000 + 4096 * c) 4096) s
        (secs.foldl (fun s c => (List.range 128).foldl (fun s k => s.markBad 1 (128 * c + k) true) s) s1).norFailed

/-! ### Run-end list and flush -/

/-- Find the next blank run-end slot from the write position on; slots that are not blank are skipped (R714). -/
def nextRunEnd : Nat → Nat → State → Nat
  | 0, i, _ => i
  | n + 1, i, s => if s.norBlank (0x1C40000 + 32 * (i % 2048)) 32 then i % 2048 else nextRunEnd n (i + 1) s

/-- Program a run-end entry; the sector after the write position is kept erased (R734). -/
def State.putRunEnd (s : State) (code cause lost : Nat) : State :=
  let i := nextRunEnd 256 s.evr.runEnd s
  let r := s.mkRecord code 1 0 0xFFFF cause ((s.reg R.BOOT_SEQ).toNat + lost * 2 ^ 32) false
  let s1 := ((s.takeSeq).bump F.EVR_CNT_RECORDS_COUNT).norProgram (0x1C40000 + 32 * i) r.bytes
  let s2 := if (i + 1) % 128 = 0 then s1.norErase (0x1C40000 + 4096 * (((i + 1) / 128 + 1) % 16)) 4096 else s1
  { s2 with evr := { s2.evr with runEnd := (i + 1) % 2048 } }

/-- Program waiting ring units page after page (R730 step 3), counting pages. -/
def flushRing : Nat → State → Nat → State × Nat
  | 0, s, p => (s, p)
  | n + 1, s, p =>
    if (s.waiting 1).isNone ∨ ¬ s.ringRoom true then (s, p)
    else flushRing n (drainUnits 1 true 8 s) (p + 1)

/-- Copy waiting first-fault records while at most 142 pages are programmed (R730 step 4, R731). -/
def flushFf : Nat → State → Nat → State
  | 0, s, _ => s
  | n + 1, s, p =>
    if (s.waiting 0).isNone ∨ 142 ≤ p ∨ s.bit F.EVR_STATUS_FF_FULL then s
    else flushFf n (drainUnits 0 true 8 s) (p + 1)

/-- The flush of R730: BEGIN, the whole buffer into the ring, first-fault copies, END_OF_RUN, DONE. Before the mount
only the two run-end entries are programmed and the buffered records are lost (R733). A failed or dead device programs
nothing (R715). -/
def State.flush (s : State) (begin done : Nat) : State :=
  if s.bit F.EVR_STATUS_NOR_FAIL || s.evr.norDead then s
  else if !s.bit F.EVR_STATUS_MOUNTED then
    let n := s.evr.buf.length
    let s1 := ((s.putRunEnd 0x000A begin 0).putRunEnd 0x000B done n)
    { s1 with evr := { s1.evr with buf := [] } }
  else
    let s1 := s.putRunEnd 0x000A begin 0
    let r := flushRing 256 s1 0
    let s2 := flushFf 256 r.1 r.2
    let skipped := (s2.evr.buf.filter (fun b => b.left 0 != 0)).length
    let e := s2.mkRecord 0x0003 1 0 0xFFFF done skipped false
    let s3 := (((s2.takeSeq).bump F.EVR_CNT_RECORDS_COUNT).putUnit 1 e.bytes).1
    let s4 := s3.putRunEnd 0x000B done 0
    { s4 with evr := { s4.evr with ffSkipped := skipped, buf := [] } }

/-- The power-fail flush: POWER_FAIL in the kept slot, then the flush with causes 0x02 and 0x01 (R730). -/
def State.powerFailFlush (s : State) (source mv : Nat) : State :=
  (s.pushRec (s.mkRecord 0x0004 3 0 0xFFFF source mv false) [] true).flush 0x02 0x01

/-! ### Mount -/

/-- Later of two sequence numbers, compared modulo 2^32 (R717). -/
def seqNewer (a b : Nat) : Bool := decide ((a + 2 ^ 32 - b) % 2 ^ 32 < 2 ^ 31) && a != b

/-- The bytes are a record: CHECK holds and CODE is neither 0x0000 nor 0xFFFF (R716). -/
def isRecord (b : List Byte) : Bool :=
  let code := leAt b 0 2
  b.length == 32 && code != 0 && code != 0xFFFF && leAt b 0x13 1 == crc8 (b.take 0x13 ++ b.drop 0x14)

/-- Find the header slot of a sector from its `k`-th slot on: a slot that is not blank and fails CHECK is marked bad
(R727). Answers the header's bytes, if the sector has one. -/
def findHeader (log sec : Nat) : Nat → Nat → State → State × Option (List Byte)
  | 0, _, s => (s, none)
  | n + 1, k, s =>
    let i := 128 * sec + k
    let a := logBase log + 32 * i
    if !s.slotUsable log i then findHeader log sec n (k + 1) s
    else if s.norBlank a 32 then (s, none)
    else if isRecord (s.norBytes a 32) then (s, some (s.norBytes a 32))
    else findHeader log sec n (k + 1) (s.markBad log i false)

/-- The sectors of a log that hold a byte that is not erased. -/
def State.usedSectors (s : State) (log : Nat) : List Nat :=
  let n := logSlots log / 128
  ((s.evr.nor ++ (s.evr.norOpen.map (fun e => (e.1, (0 : Byte))))).filterMap (fun e =>
    if logBase log ≤ e.1 ∧ e.1 < logBase log + 4096 * n then some ((e.1 - logBase log) / 4096) else none)).eraseDups

/-- What the mount finds in one log: the newest and the oldest sector with their sequences. -/
structure MountScan where
  newest : Option (Nat × Nat)
  oldest : Option (Nat × Nat)
deriving DecidableEq, Repr

/-- Scan the headers of the log's sectors (R727). -/
def scanSectors (log : Nat) : List Nat → State → MountScan → State × MountScan
  | [], s, m => (s, m)
  | c :: t, s, m =>
    match findHeader log c 128 0 s with
    | (s1, none) => scanSectors log t s1 m
    | (s1, some b) =>
      let q := leAt b 0x18 8 % 2 ^ 32
      let nw := match m.newest with | none => (c, q) | some o => if seqNewer q o.2 then (c, q) else o
      let od := match m.oldest with | none => (c, q) | some o => if seqNewer o.2 q then (c, q) else o
      scanSectors log t s1 ⟨some nw, some od⟩

/-- The slot after the last programmed slot of a sector. -/
def State.afterLast (s : State) (log sec : Nat) : Nat :=
  let used := (List.range 128).filter (fun k => !s.norBlank (logBase log + 32 * (128 * sec + k)) 32)
  128 * sec + (match used.getLast? with | some k => k + 1 | none => 0)

/-- The highest SEQ among the records of the given sectors of a log, compared modulo 2^32, with the one so far. -/
def State.maxSeq (s : State) (log : Nat) (secs : List Nat) (m : Option Nat) : Option Nat :=
  secs.foldl (fun m c => (List.range 128).foldl (fun m k =>
    let b := s.norBytes (logBase log + 32 * (128 * c + k)) 32
    if isRecord b then
      (match m with | none => some (leAt b 4 4) | some o => if seqNewer (leAt b 4 4) o then some (leAt b 4 4) else some o)
    else m) m) m

/-- Ring sectors after sector `c` that hold nothing. -/
def State.blankAfter (s : State) (c : Nat) : Nat :=
  match ((s.usedSectors 1).filter (· != c)).map (fun d => (d + 6144 - c) % 6144 - 1) with
  | [] => 6143
  | d :: t => t.foldl min d

/-- Give the records that waited for the mount their SEQs from `n` on. -/
def renumber : Nat → List BufRec → List BufRec
  | _, [] => []
  | n, b :: t => { b with hdr := { b.hdr with seq := n % 2 ^ 32 } } :: renumber (n + 1) t

/-- The newest run-end entry of boot SEQ `q` (R734): its bytes. -/
def State.runEndOf (s : State) (q : Nat) : Option (List Byte) :=
  (List.range 2048).foldl (fun m i =>
    let b := s.norBytes (0x1C40000 + 32 * i) 32
    if isRecord b && (leAt b 0 2 == 0x000A || leAt b 0 2 == 0x000B) && leAt b 0x18 4 == q then
      (match m with | none => some b | some o => if seqNewer (leAt b 4 4) (leAt o 4 4) then some b else m)
    else m) none

/-- LAST_CAUSE for the start after the run of boot SEQ `q`: 0x00 when there is no entry (R734). -/
def State.lastCause (s : State) (q : Nat) : Nat :=
  match s.runEndOf q with | some b => leAt b 0x16 2 | none => 0

/-- The mount of a cold start (R727): write positions, newest sectors, oldest data, next SEQ; then START_OF_RUN. EVR_LAST_FLUSH
takes LAST_CAUSE; its duration is a free value, since no stored entry carries it. -/
def State.mountCold (s : State) : State :=
  let f := scanSectors 0 (s.usedSectors 0) s ⟨none, none⟩
  let r := scanSectors 1 (f.1.usedSectors 1) f.1 ⟨none, none⟩
  let s1 := r.1
  let ffPos := match f.2.newest with | some n => s1.afterLast 0 n.1 | none => 0
  let rgPos := match r.2.newest with | some n => s1.afterLast 1 n.1 | none => 0
  let sec := match r.2.newest with | some n => n.1 | none => 0
  let margin := 128 * (sec + 1) - rgPos + 128 * s1.blankAfter sec
  let top := s1.maxSeq 1 (s1.usedSectors 1) (s1.maxSeq 0 (s1.usedSectors 0) none)
  let next := match top with | some q => (q + 1) % 2 ^ 32 | none => 0
  let s2 : State := { s1 with evr := { s1.evr with
      ffSector := match f.2.newest with | some n => n.2 | none => 0
      ringSector := match r.2.newest with | some n => n.2 | none => 0
      margin := margin
      buf := renumber next s1.evr.buf } }
  let s3 := ((s2.setReg R.EVR_SEQ (BitVec.ofNat 32 (next + s1.evr.buf.length))).setFld F.EVR_FF_NEXT_SLOT ffPos).setFld
    F.EVR_RING_NEXT_SLOT (rgPos % 786432)
  let s4 := s3.setFld F.EVR_RING_OLDEST_SLOT (match r.2.oldest with | some n => 128 * n.1 | none => 0)
  let cause := s.fld F.BOOT_STATUS_LAST_CAUSE
  let s5 := ((s4.setFld F.EVR_LAST_FLUSH_CAUSE cause).setFld F.EVR_LAST_FLUSH_US
    (if cause = 0 then 0 else (s.free).toNat % 65536)).drawn
  (s5.setFld F.EVR_STATUS_MOUNTED 1).log 0x0002 1 0 0xFFFF (s.fld F.BOOT_STATUS_START_KIND) (s.reg R.BOOT_SEQ).toNat

/-- The recorder's part of boot step 8: the mount at a cold start; at a warm start, where it keeps its positions,
START_OF_RUN alone (R727, R729). -/
def State.mount (s : State) : State :=
  if s.bit F.EVR_STATUS_MOUNTED then
    s.log 0x0002 1 0 0xFFFF (s.fld F.BOOT_STATUS_START_KIND) (s.reg R.BOOT_SEQ).toNat
  else s.mountCold

/-! ### Commands -/

/-- RECORD_CREATE: an event becomes a record with the next SEQ in the volatile buffer, and triggers are matched (R717,
R739). -/
def execRecordCreate (code sev vf unit arg16 arg : Nat) (s : State) : Res :=
  .next (s.log code (sev % 8) vf unit arg16 arg)

/-- The 56 bytes of a recorder notice (Table 21-6). -/
def State.recNoticeBytes (s : State) (cls : Nat) (n : RecNotice) : List Byte :=
  leBytes 1 cls ++ leBytes 1 n.trigger ++ leBytes 2 n.count ++ leBytes 4 n.seq ++ leBytes 8 n.tick ++
    leBytes 8 (s.fld F.EVR_CNT_LOST_COUNT)

/-- RECORDER_NOTICE_POST: while slot 1,011 is IDLE the pending class with the lowest code is posted (R740). -/
def execRecorderNoticePost (s : State) : Res :=
  .next <|
    if s.slotState 1011 ≠ 0 then s
    else
      match s.evr.notices with
      | (cls, some n) :: _ =>
        let s1 : State := { s with evr := { s.evr with notices := fset (fun _ => none) s.evr.notices cls none } }
        s1.postNotice 1011 5 cls (s.recNoticeBytes cls n)
      | _ => s

end Sys2Proof.Machine
end

