-- ==== Sys2Proof/Machine/Tick.lean ====
section
/-! DEFINITION. The tick unit and calendar (chapter 02): references, state transitions, acquire, pending changes, the
notice. -/

namespace Sys2Proof.Machine

/-! ### Notice and state (R86, Table 02-1) -/

/-- An event of the tick unit asks for a notice with this cause: it replaces what a held notice says and is merged into
it (R86). -/
def State.tickNotice (s : State) (cause prev other : Nat) : State :=
  let bit := 2 ^ (cause - 1)
  let old := s.tick.notice
  let n : TickNotice := {
    cause := cause, state := s.fld F.TCK_STATUS_STATE, prev := prev
    causes := match old with | some o => Nat.lor o.causes bit | none => bit
    count := match old with | some o => (o.count + 1) % 65536 | none => 1
    tick := s.tickCount, tai := s.taiStamp
    phase := s.fld F.TCK_PHASE_ERR_ERR_NS, status := (s.reg R.TCK_STATUS).toNat
    other := other
    offset := if cause = 5 then s.fld F.CAL_UTC_OFFSET_OFFSET else 0 }
  { s with tick := { s.tick with notice := some n } }

/-- Enter tick state `st` (Table 02-4 codes): logged, counted when it is SWITCHING, and noticed. SW_TARGET reads 0 outside
SWITCHING (DEDUCED, log entry 52). -/
def State.tickState (s : State) (st : Nat) : State :=
  let prev := s.fld F.TCK_STATUS_STATE
  let s1 := s.setFld F.TCK_STATUS_STATE st
  let s2 := if st = 3 then s1.bump F.TCK_EVENTS_SWITCHES else s1.setFld F.TCK_STATUS_SW_TARGET 0
  (s2.log 0x0207 1 0 0xFFFF st 0).tickNotice 1 prev 0

/-- RESYNC_REQUIRED is set; its change to 1 is logged and noticed (R65, R86). -/
def State.resync (s : State) (err : Int) : State :=
  if s.bit F.TCK_STATUS_RESYNC_REQUIRED then s
  else
    let st := s.fld F.TCK_STATUS_STATE
    ((s.setFld F.TCK_STATUS_RESYNC_REQUIRED 1).log 0x0202 3 0 0xFFFF 0 (unsgn 64 err)).tickNotice 3 st 0

/-- TCK_MAX_ERR in ns. -/
def State.maxErrNs (s : State) : Int := 1000 * (s.fld F.TCK_MAX_ERR_MAX_ERR_US : Nat)

/-- A phase error lies within TCK_MAX_ERR (R65). -/
def State.within (s : State) (e : Int) : Bool := decide (-s.maxErrNs ≤ e ∧ e ≤ s.maxErrNs)

/-- The lock condition: the phase error's magnitude is 2 ns or less (R63). -/
def locked (e : Int) : Bool := decide (-2 ≤ e ∧ e ≤ 2)

/-- Begin a switch toward reference `t` (0 primary, 1 secondary). -/
def State.switchTo (s : State) (t : Nat) : State :=
  let s1 := s.setFld F.TCK_STATUS_SW_TARGET t
  { s1 with tick := { s1.tick with targetLost := false } }.tickState 3

/-- The row of Table 02-1 that applies at this boundary, with the phase errors measured against primary and secondary
(R61, R64, R65). -/
def State.tickRow (s : State) (pe se : Int) : State :=
  let pq := s.bit F.TCK_STATUS_PRI_QUALIFIED
  let sq := s.bit F.TCK_STATUS_SEC_QUALIFIED
  let pl := s.tick.pri.lostNow
  let sl := s.tick.sec.lostNow
  match s.fld F.TCK_STATUS_STATE with
  | 1 => if pl then s.tickState 2 else s
  | 2 =>
    if pq ∧ s.within pe then s.switchTo 0
    else if sq ∧ s.within se then (if pq then s.resync pe else s).switchTo 1
    else if pq then s.resync pe
    else if sq then s.resync se
    else s
  | 3 =>
    let t := s.fld F.TCK_STATUS_SW_TARGET
    if (t = 0 ∧ pl) ∨ (t = 1 ∧ sl) then { s with tick := { s.tick with targetLost := true } }
    else if locked (if t = 0 then pe else se) then
      if s.tick.targetLost then s.tickState 2
      else if t = 0 then s.tickState 1
      else if s.bit F.TCK_STATUS_PRI_VALID then s.tickState 5 else s.tickState 4
    else s
  | 4 => if sl then s.tickState 2 else if s.bit F.TCK_STATUS_PRI_VALID then s.tickState 5 else s
  | 5 =>
    if sl then s.tickState 2
    else if pl then s.tickState 4
    else if pq then (if s.within pe then s.switchTo 0 else s.resync pe)
    else s
  | _ => s

/-- After the transition: the losses have been seen, and TCK_PHASE_ERR and ALIGNED follow (R67). -/
def State.tickAfter (s : State) (pe se : Int) : State :=
  let st := s.fld F.TCK_STATUS_STATE
  let e := if st = 1 ∨ st = 2 ∨ (st = 3 ∧ s.fld F.TCK_STATUS_SW_TARGET = 0) then pe else se
  let al := (st == 1 || st == 4 || st == 5) && locked e
  let s1 := (s.setFld F.TCK_PHASE_ERR_ERR_NS (unsgn 32 e)).setBit F.TCK_STATUS_ALIGNED al
  { s1 with tick := { s1.tick with
      pri := { s1.tick.pri with lostNow := false }, sec := { s1.tick.sec with lostNow := false } } }

/-- TICK_STATE_TRANSITION: the reference state machine at a boundary (R61). A LOCAL primary has no phase error. -/
def State.tickTransition (s : State) (pe se : Int) : State :=
  let p := if s.fld F.TCK_PRI_SRC_KIND = 3 then 0 else pe
  (s.tickRow p se).tickAfter p se

/-! ### References (R56 to R60) -/

/-- A reference by number: 0 primary, 1 secondary. -/
def State.refOf (s : State) (w : Nat) : RefState := if w = 0 then s.tick.pri else s.tick.sec

/-- Set a reference's state. -/
def State.setRef (s : State) (w : Nat) (r : RefState) : State :=
  { s with tick := if w = 0 then { s.tick with pri := r } else { s.tick with sec := r } }

/-- The source register of a reference: KIND, SITE and PORT. -/
def refKind (w : Nat) : Fld := if w = 0 then F.TCK_PRI_SRC_KIND else F.TCK_SEC_SRC_KIND
def refSrc (w : Nat) : Nat := if w = 0 then R.TCK_PRI_SRC else R.TCK_SEC_SRC
def refValid (w : Nat) : Fld := if w = 0 then F.TCK_STATUS_PRI_VALID else F.TCK_STATUS_SEC_VALID
def refQual (w : Nat) : Fld := if w = 0 then F.TCK_STATUS_PRI_QUALIFIED else F.TCK_STATUS_SEC_QUALIFIED

/-- The Ewebin port a reference takes its markers from: 4 × site + port. -/
def State.refPort (s : State) (w : Nat) : Nat := bitsOf (s.reg (refSrc w)).toNat 3 0

/-- The validity window in ns. -/
def State.windowNs (s : State) : Nat := 10 * s.fld F.TCK_QUAL_WINDOW

/-- An edge or marker that arrives at `now` lies within the window of a predicted time (R58). -/
def State.onTime (s : State) (r : RefState) (now ival : Nat) : Bool :=
  let w := s.windowNs
  if now + w < r.nextAt then false
  else
    let k := (now + w - r.nextAt) / max ival 1
    decide (now + w - r.nextAt - k * max ival 1 ≤ 2 * w)

/-- An edge or marker of reference `w` arrives at `now`, the next being expected after `ival` ns (R58): without a
prediction it is valid and sets one; with one it is valid when on time. -/
def State.refEdge (s : State) (w now ival : Nat) : State :=
  let r := s.refOf w
  if !r.pred then
    (s.setRef w { r with pred := true, nextAt := now + ival, since := now, missed := 0 }).setFld (refValid w) 1
  else if s.onTime r now ival then s.setRef w { r with nextAt := now + ival, missed := 0 }
  else s

/-- A reference is lost (R58, R59): neither valid nor qualified, no prediction, counted. -/
def State.refLose (s : State) (w : Nat) : State :=
  let r := s.refOf w
  let s1 := ((s.setFld (refValid w) 0).setFld (refQual w) 0).bump F.TCK_EVENTS_REF_LOSSES
  s1.setRef w { r with pred := false, missed := 0, lostNow := true }

/-- REF_LOSS: LOSS_COUNT consecutive predicted edges or markers of a reference are missing or invalid (R58). LOCAL is
always valid (R60). -/
def execRefLoss (w : Nat) (s : State) : Res :=
  .next <|
    if 1 < w ∨ s.frozen ∨ ¬ s.bit (refValid w) ∨ s.fld (refKind w) = 3 ∨ s.fld (refKind w) = 0 then s else s.refLose w

/-- REF_QUALIFIED: a reference has been valid without loss for TCK_HOLDOFF (R59). -/
def execRefQualified (w : Nat) (s : State) : Res :=
  .next <|
    if 1 < w ∨ ¬ s.bit (refValid w) ∨ s.runClk - (s.refOf w).since < 1000000 * s.fld F.TCK_HOLDOFF_HOLDOFF_MS then s
    else s.setFld (refQual w) 1

/-- TICK_IN_EDGE: a positive TICK_IN edge of a pulse `width` ns wide; one narrower than 100 ns is ignored (R56). The
interval since the edge before is measured in either role (R57). -/
def execTickInEdge (width : Nat) (s : State) : Res :=
  .next <|
    if width < 100 ∨ s.frozen then s
    else
      let now := s.runClk
      let iv := match s.tick.inLast with | some t => (now - t) :: s.tick.inIvals | none => s.tick.inIvals
      let s1 : State := { s with tick := { s.tick with
        inLast := some now, inIvals := iv.take 8
        acqEdges := if s.tick.listening then now :: s.tick.acqEdges else s.tick.acqEdges } }
      let ival := s1.fld F.TCK_CONFIG_IN_DIV * s1.periodNs
      let s2 := if s1.fld F.TCK_PRI_SRC_KIND = 1 then s1.refEdge 0 now ival else s1
      if s2.fld F.TCK_SEC_SRC_KIND = 1 then s2.refEdge 1 now ival else s2

/-- KIND of a source byte as TCK_PRI_SRC lays it out: 0 none, 1 TICK_IN, 2 Ewebin port, 3 LOCAL. -/
def srcKind (v : Nat) : Nat := bitsOf v 5 4

/-- A source byte without the SITE and PORT that its KIND does not use. -/
def srcKey (v : Nat) : Nat := if srcKind v = 2 then v % 64 else 16 * srcKind v

/-- What is known of source `v` when it becomes configured (R61): the state, VALID and QUALIFIED of the reference that has
it now, else a reference without prediction; LOCAL is always valid and qualified (R60). -/
def State.sourceState (s : State) (v : Nat) : RefState × Nat × Nat :=
  if srcKind v = 0 then ({}, 0, 0)
  else if srcKind v = 3 then ({}, 1, 1)
  else if srcKey v = srcKey (s.reg R.TCK_PRI_SRC).toNat then
    (s.tick.pri, s.fld F.TCK_STATUS_PRI_VALID, s.fld F.TCK_STATUS_PRI_QUALIFIED)
  else if srcKey v = srcKey (s.reg R.TCK_SEC_SRC).toNat then
    (s.tick.sec, s.fld F.TCK_STATUS_SEC_VALID, s.fld F.TCK_STATUS_SEC_QUALIFIED)
  else ({}, 0, 0)

/-- At a boundary the role and sources that TICK_CONFIG named take effect: a source that is no longer configured counts as
lost, an added one starts with no prediction (R61, R196). A unit locked to a reference whose place another source takes has
lost it (DEDUCED, log entry 52). -/
def State.sourcesApply (s : State) : State :=
  match s.tick.pendCfg with
  | none => s
  | some (role, p, q) =>
    let op := (s.reg R.TCK_PRI_SRC).toNat
    let oq := (s.reg R.TCK_SEC_SRC).toNat
    let gone := [(op, F.TCK_STATUS_PRI_VALID), (oq, F.TCK_STATUS_SEC_VALID)].countP (fun o =>
      srcKind o.1 != 0 && srcKey o.1 != srcKey p && srcKey o.1 != srcKey q && s.bit o.2)
    let x := s.sourceState p
    let y := s.sourceState q
    let s1 := ((s.setFld F.TCK_CONFIG_ROLE role).setReg R.TCK_PRI_SRC (BitVec.ofNat 32 (p % 64))).setReg R.TCK_SEC_SRC
      (BitVec.ofNat 32 (q % 64))
    let s2 := (((s1.setFld F.TCK_STATUS_PRI_VALID x.2.1).setFld F.TCK_STATUS_PRI_QUALIFIED x.2.2).setFld
      F.TCK_STATUS_SEC_VALID y.2.1).setFld F.TCK_STATUS_SEC_QUALIFIED y.2.2
    let s3 := s2.addFld F.TCK_EVENTS_REF_LOSSES gone
    { s3 with tick := { s3.tick with
        pendCfg := none
        pri := { x.1 with lostNow := srcKind op != 0 && srcKey op != srcKey p }
        sec := { y.1 with lostNow := srcKind oq != 0 && srcKey oq != srcKey q } } }

/-! ### Markers (R54, R55) -/

/-- What a follower takes from a valid marker of the reference it follows: time and a pending period change (R68, R73,
R74). While neither the master's time nor its own is set, it takes the marker's count of ns without a record; a period that
differs from its own with no change pending is taken at the next boundary (R69; DEDUCED, log entry 52). `tk` is the TAI time the marker gives the last local boundary. -/
def State.takeMarker (s : State) (m : MarkerMsg) : State :=
  let tk := m.tai + (s.tickCount - m.count) * s.periodNs - (m.count - s.tickCount) * s.periodNs
  let s1 :=
    if !m.timeValid then (if s.timeValid then s else s.setPair R.TCK_TICK_TIME_LO R.TCK_TICK_TIME_HI tk)
    else if s.timeValid ∧ s.tickTime = tk then s
    else
      let old := s.tickTime
      ((s.setPair R.TCK_TICK_TIME_LO R.TCK_TICK_TIME_HI tk).setFld F.TCK_STATUS_TIME_VALID 1).log 0x0203 1 0 0xFFFF 0 old
  let set := fun (at_ per : Nat) => ((s1.setFld F.TCK_NEXT_PERIOD_PERIOD per).setPair R.TCK_NEXT_AT_LO R.TCK_NEXT_AT_HI at_).setFld
    F.TCK_STATUS_PERIOD_PENDING 1
  match m.next with
  | some (at_, per) => set at_ per
  | none => if m.period = s.fld F.TCK_PERIOD_PERIOD || s.bit F.TCK_STATUS_PERIOD_PENDING then s1 else set (s.tickCount + 1) m.period

/-- The reference the tick follows: the secondary in LOCKED-SECONDARY and REQUALIFY, else the primary. -/
def State.followed (s : State) : Nat :=
  let st := s.fld F.TCK_STATUS_STATE
  if st = 4 ∨ st = 5 then 1 else 0

/-- A marker of the configured master arrives on port `p` (R54, R58). -/
def State.followMarker (s : State) (p : Nat) (m : MarkerMsg) : State :=
  let ival := 10 * (match m.next with | some (at_, per) => if at_ ≤ m.count then per else m.period | none => m.period)
  let go := fun (s : State) (w : Nat) =>
    if s.fld (refKind w) = 2 ∧ s.refPort w = p then
      let s1 := s.refEdge w s.runClk ival
      let r := s1.refOf w
      let s2 := s1.setRef w { r with holdover := m.holdover, hops := m.hops }
      if s.followed = w then s2.takeMarker m else s2
    else s
  go (go s 0) 1

/-- MARKER: a tick marker sequence arrives on port `p`, intact and in consecutive slots (R671). While tick acquire
listens it is recorded (R52); a master that sees another master's marker flags and logs it (R55); a follower discards
markers of any other master (R54). -/
def execMarker (p : Nat) (m : MarkerMsg) (s : State) : Res :=
  .next <|
    if s.frozen then s
    else
      let s1 : State := if s.tick.listening then { s with tick := { s.tick with heard := (p, s.runClk, m) :: s.tick.heard } } else s
      if !s1.tick.running then s1
      else if s1.bit F.TCK_CONFIG_ROLE then
        if m.master = s1.address ∨ s1.bit F.TCK_STATUS_DUAL_MASTER then s1
        else
          let st := s1.fld F.TCK_STATUS_STATE
          ((s1.setFld F.TCK_STATUS_DUAL_MASTER 1).log 0x0201 3 0 0xFFFF 0
            (unsgn 64 (sgn 32 (s1.fld F.TCK_PHASE_ERR_ERR_NS)))).tickNotice 2 st m.master
      else if m.master ≠ (s1.reg R.TCK_MASTER_ID).toNat % 512 then s1.setFld F.TCK_STATUS_MARKER_DISCARD 1
      else s1.followMarker p m

/-! ### Tick acquire (R52) -/

/-- Start tick acquire: the tick stands, listening begins. -/
def State.acquireStart (s : State) : State :=
  let s1 := (s.setFld F.TCK_STATUS_STATE 0).setFld F.TCK_STATUS_TICK_IN_UNUSED 0
  let s2 := (((s1.setFld F.TCK_STATUS_ALIGNED 0).setFld F.TCK_STATUS_PRI_VALID 0).setFld F.TCK_STATUS_PRI_QUALIFIED 0).setFld
    F.TCK_STATUS_SEC_VALID 0
  let s3 := s2.setFld F.TCK_STATUS_SEC_QUALIFIED 0
  { s3 with tick := { s3.tick with
      running := false, listening := true, acqClk := s3.runClk, acqEdges := [], heard := [], pri := {}, sec := {}
      pendCfg := none, targetLost := false } }

/-- The measured TICK_IN interval of an acquire: the mean of up to 8 consecutive intervals from the first edge on, as
many as end within 8 s of it. The edges come oldest first. -/
def acqInterval : List Nat → Option Nat
  | [] => none
  | e :: t =>
    let ends := ((t.filter (fun x => decide (x ≤ e + 8000000000))).take 8)
    match ends.getLast? with
    | some l => some ((l - e) / ends.length)
    | none => none

/-- A period (10 ns units) and IN_DIV meet R57 for measured interval `i` ns: within 200 ppm. -/
def refMatch (per div i : Nat) : Bool := decide (1000000 * (10 * per * div) ≤ i * 1000200 ∧ i * 999800 ≤ 1000000 * (10 * per * div))

/-- The smallest IN_DIV from `d` on for which `i ÷ IN_DIV`, rounded to 10 ns, is a legal period that meets R57. -/
def findDiv (i : Nat) : Nat → Nat → Option (Nat × Nat)
  | 0, _ => none
  | n + 1, d =>
    let per := (i + 5 * d) / (10 * d)
    if 65535 < d ∨ i < 20000 * d / 2 then none
    else if 2000 ≤ per ∧ per ≤ 100000000 ∧ refMatch per d i then some (per, d)
    else findDiv i n (d + 1)

/-- The tick starts as LOCKED-PRIMARY with this count and last boundary. -/
def State.tickStart (s : State) (count time bnd : Nat) : State :=
  let s1 := ((s.setPair R.TCK_COUNT_LO R.TCK_COUNT_HI count).setPair R.TCK_TICK_TIME_LO R.TCK_TICK_TIME_HI time).setFld
    F.TCK_STATUS_STATE 1
  { s1 with tick := { s1.tick with running := true, listening := false, bndClk := bnd } }

/-- Acquire as a follower of the markers on port `p`. -/
def State.acquireFollow (s : State) (p at_ : Nat) (m : MarkerMsg) : State :=
  let sec := (List.range 16).find? (fun q => decide (p < q) &&
    (match s.tick.heard.find? (fun h => h.1 == q) with | some h => h.2.2.master == m.master | none => false))
  let k := (s.runClk - at_) / max (10 * m.period) 1
  let s1 := ((s.setFld F.TCK_CONFIG_ROLE 0).setFld F.TCK_PERIOD_PERIOD m.period).setReg R.TCK_MASTER_ID
    (BitVec.ofNat 32 (m.master % 512))
  let s2 := (s1.setReg R.TCK_PRI_SRC (BitVec.ofNat 32 (32 + p))).setReg R.TCK_SEC_SRC
    (match sec with | some q => BitVec.ofNat 32 (32 + q) | none => 0)
  (s2.setBit F.TCK_STATUS_TIME_VALID m.timeValid).tickStart (m.count + k) (m.tai + k * 10 * m.period)
    (at_ + k * 10 * m.period)

/-- Acquire as a master with this primary kind (1 TICK_IN, 3 LOCAL), period and IN_DIV; count 0 and time not set. -/
def State.acquireMaster (s : State) (kind per div : Nat) : State :=
  let s1 := ((s.setFld F.TCK_CONFIG_ROLE 1).setFld F.TCK_PERIOD_PERIOD per).setFld F.TCK_CONFIG_IN_DIV div
  let s2 := ((s1.setReg R.TCK_PRI_SRC (BitVec.ofNat 32 (16 * kind))).setReg R.TCK_SEC_SRC 0).setReg R.TCK_MASTER_ID
    (BitVec.ofNat 32 s.address)
  let s3 := if kind = 3 then (s2.setFld F.TCK_STATUS_PRI_VALID 1).setFld F.TCK_STATUS_PRI_QUALIFIED 1 else s2
  (s3.setFld F.TCK_STATUS_TIME_VALID 0).tickStart 0 0 s.runClk

/-- Tick acquire stops listening, chooses role, sources and period, and starts the tick (R52). -/
def State.listenEnd (s : State) : State :=
    if !s.tick.listening ∨ s.frozen then s
    else
      match (List.range 16).find? (fun p => s.tick.heard.any (fun h => h.1 == p)) with
      | some p =>
        match s.tick.heard.find? (fun h => h.1 == p) with
        | some (_, at_, m) => s.acquireFollow p at_ m
        | none => s
      | none =>
        let edges := s.tick.acqEdges.reverse
        let pulses := match edges.head? with | some e => decide (e ≤ s.tick.acqClk + 2000000000) | none => false
        let iv := if pulses then acqInterval edges else none
        let fit := match iv with
          | some i => if i < 20000 then none else findDiv i 65535 (max 1 (i / 1000000000))
          | none => none
        match fit with
        | some (per, div) => s.acquireMaster 1 per div
        | none =>
          let s1 := s.acquireMaster 3 100000 (s.fld F.TCK_CONFIG_IN_DIV)
          if pulses then
            let st := s1.fld F.TCK_STATUS_STATE
            ((s1.setFld F.TCK_STATUS_TICK_IN_UNUSED 1).log 0x0208 2 0 0xFFFF 0 (iv.getD 0)).tickNotice 6 st 0
          else s1

/-! ### Boundaries and pending changes -/

/-- The tick's own part of a boundary: the count and the boundary time advance (R71, "Time follows the tick"), TICK_OUT
rises (R76), the reference state machine takes its row (R61). -/
def State.tickAdvance (s : State) (pe se : Int) : State :=
  let per := s.periodNs
  let s1 := s.setPair R.TCK_COUNT_LO R.TCK_COUNT_HI (s.tickCount + 1)
  let s2 := s1.setPair R.TCK_TICK_TIME_LO R.TCK_TICK_TIME_HI (s.tickTime + per)
  let s3 : State := { s2 with tick := { s2.tick with bndClk := s2.runClk } }
  (s3.emit (.tickOut (s.tickCount + 1))).tickTransition pe se

/-- After time or offset changed: a conversion back within range lets a later passing log again (R85). -/
def State.calRecheck (s : State) : State :=
  if s.calOut then s else { s with tick := { s.tick with wasOut := false } }

/-- PENDING_PERIOD_APPLY: at the named boundary the pending period takes effect (R68). -/
def execPendingPeriodApply (s : State) : Res :=
  .next <|
    if s.bit F.TCK_STATUS_PERIOD_PENDING ∧ s.pair R.TCK_NEXT_AT_LO R.TCK_NEXT_AT_HI ≤ s.tickCount ∧ ¬ s.frozen then
      (s.setFld F.TCK_PERIOD_PERIOD (s.fld F.TCK_NEXT_PERIOD_PERIOD)).noPendingPeriod
    else s

/-- PENDING_TIME_APPLY: at the target boundary the written time becomes that boundary's TAI time; old and new times are
logged and TIME_VALID is 1 (R73, R74). -/
def execPendingTimeApply (s : State) : Res :=
  .next <|
    match s.tick.pendTime with
    | some (at_, t, _) =>
      if at_ ≤ s.tickCount ∧ ¬ s.frozen then
        let old := s.tickTime
        let s1 : State := { s with tick := { s.tick with pendTime := none } }
        let s2 := (s1.setPair R.TCK_TICK_TIME_LO R.TCK_TICK_TIME_HI t).setFld F.TCK_STATUS_TIME_VALID 1
        (s2.log 0x0203 1 0 0xFFFF 0 old).calRecheck
      else s
    | none => s

/-- UTC_OFFSET_APPLY: TAI time reaches the pending instant and CAL_UTC_OFFSET takes NEXT_OFFSET (R82). -/
def execUtcOffsetApply (s : State) : Res :=
  .next <|
    if s.bit F.CAL_STATUS_UTC_PENDING ∧ s.timeValid ∧ s.pair R.CAL_UTC_NEXT_AT_LO R.CAL_UTC_NEXT_AT_HI ≤ s.tai ∧
        ¬ s.frozen then
      let n := s.fld F.CAL_UTC_NEXT_NEXT_OFFSET
      let s1 := ((s.setFld F.CAL_UTC_OFFSET_OFFSET n).setFld F.CAL_STATUS_UTC_PENDING 0).setFld F.CAL_STATUS_UTC_SET 1
      ((s1.log 0x0205 1 0 0xFFFF n 0).tickNotice 5 (s1.fld F.TCK_STATUS_STATE) 0).calRecheck
    else s

/-- CAL_OUT_OF_RANGE_PASS: the conversion passes 2399-12-31T23:59:59: logged and noticed once per passing (R85). -/
def execCalOutOfRangePass (s : State) : Res :=
  .next <|
    if s.calOut ∧ ¬ s.tick.wasOut ∧ ¬ s.frozen then
      let s1 : State := { s with tick := { s.tick with wasOut := true } }
      (s1.log 0x0206 2 0 0xFFFF 0 0).tickNotice 4 (s1.fld F.TCK_STATUS_STATE) 0
    else s

/-- The 56 bytes of a tick notice (Table 02-7). -/
def TickNotice.bytes (n : TickNotice) : List Byte :=
  leBytes 1 n.cause ++ leBytes 1 n.state ++ leBytes 1 n.prev ++ leBytes 1 n.causes ++ leBytes 2 n.count ++ leBytes 2 0 ++
    leBytes 8 n.tick ++ leBytes 8 n.tai ++ leBytes 4 n.phase ++ leBytes 4 n.status ++ leBytes 2 n.other ++ leBytes 2 n.offset

/-- TICK_NOTICE_POST: while slot 1,012 is IDLE the tick unit posts its pending notice (R86). -/
def execTickNoticePost (s : State) : Res :=
  .next <|
    match s.tick.notice with
    | some n =>
      if s.slotState 1012 ≠ 0 then s
      else ({ s with tick := { s.tick with notice := none } }).postNotice 1012 6 n.cause n.bytes
    | none => s

end Sys2Proof.Machine
end

