-- ==== Sys2Proof/Machine/EngineCmds.lean ====
section
/-! DEFINITION. The command engine's tick, time, recorder, NVM and power commands (chapters 02, 03, 05, 21, 22). -/

namespace Sys2Proof.Machine

/-! ### Tick and time -/

/-- Tick acquire runs, at boot step 9 or under TICK_REACQUIRE. -/
def State.acquiring (s : State) : Bool := s.tick.listening || !s.tick.running

/-- PRI_SRC is a primary that role `role` may have (R51): TICK_IN or LOCAL on a master, a port or none on a follower. -/
def primaryOk (role p : Nat) : Bool :=
  if role = 1 then srcKind p == 1 || srcKind p == 3 else srcKind p == 0 || srcKind p == 2

/-- SEC_SRC is a secondary that role `role` may have beside primary `p` (R51). -/
def secondaryOk (role p q : Nat) : Bool :=
  if role = 1 then srcKind q == 0 || (srcKind q == 1 && srcKind p != 1)
  else srcKind q == 0 || (srcKind q == 2 && !(srcKind p == 2 && p % 16 == q % 16))

/-- The mean of the measured TICK_IN intervals, ns (R57). -/
def State.inInterval (s : State) : Option Nat :=
  let l := s.tick.inIvals
  if l.isEmpty then none else some (l.foldl (· + ·) 0 / l.length)

/-- What TICK_CONFIG would leave in force: role, sources, IN_DIV, period. -/
structure TickCfg where
  role : Nat
  pri : Nat
  sec : Nat
  div : Nat
  per : Nat
deriving DecidableEq, Repr

/-- The role and sources that the next boundary leaves in force. -/
def State.sourcesNext (s : State) : Nat × Nat × Nat :=
  s.tick.pendCfg.getD (s.fld F.TCK_CONFIG_ROLE, (s.reg R.TCK_PRI_SRC).toNat % 64, (s.reg R.TCK_SEC_SRC).toNat % 64)

/-- The configuration after the groups that MASK selects. -/
def State.tickCfg (s : State) (c : Call) : TickCfg :=
  let m := c.arg 8 4
  { role := if tst m 0 then c.arg 12 1 else s.sourcesNext.1
    pri := if tst m 1 then c.arg 13 1 else s.sourcesNext.2.1
    sec := if tst m 1 then c.arg 14 1 else s.sourcesNext.2.2
    div := if tst m 2 then c.arg 16 2 else s.fld F.TCK_CONFIG_IN_DIV
    per := if tst m 3 then c.arg 20 4 else s.fld F.TCK_PERIOD_PERIOD }

/-- EFFECTIVE_AT of a period change: 0 is the current count plus 4 (R68, R196). -/
def State.periodAt (s : State) (c : Call) : Nat := if c.arg 24 8 = 0 then s.tickCount + 4 else c.arg 24 8

/-- Steps 7 and 9 of R163 for TICK_CONFIG (R51, R57, R68 to R70, R196, Tables 02-3 and 05-10). -/
def State.tickConfigCheck (s : State) (c : Call) : Option (Nat × Nat) :=
  let m := c.arg 8 4
  let g := s.tickCfg c
  if tst m 0 && decide (1 < c.arg 12 1) then some (0x11, 12)
  else if (tst m 0 || tst m 1) && !primaryOk g.role g.pri then some (0x11, 13)
  else if (tst m 0 || tst m 1) && !secondaryOk g.role g.pri g.sec then some (0x11, 14)
  else if tst m 2 && c.arg 16 2 == 0 then some (0x11, 16)
  else if tst m 5 && !decide (1 ≤ c.arg 18 1 ∧ c.arg 18 1 ≤ 15) then some (0x11, 18)
  else if tst m 3 && !decide (2000 ≤ g.per ∧ g.per ≤ 100000000) then some (0x11, 20)
  else if !tst m 3 && c.arg 24 8 != 0 then some (0x11, 24)
  else if tst m 3 && c.arg 24 8 != 0 && decide (c.arg 24 8 < s.tickCount + 4) then some (0x1B, 0)
  else if tst m 3 && decide (s.tickCount + 2 ^ 32 < c.arg 24 8) then some (0x11, 24)
  else if tst m 4 && !decide (100 ≤ c.arg 32 4 ∧ c.arg 32 4 ≤ 1000000) then some (0x11, 32)
  else if tst m 5 && !decide (1 ≤ c.arg 36 2 ∧ c.arg 36 2 ≤ 10000) then some (0x11, 36)
  else if tst m 6 && !decide (1 ≤ c.arg 38 2 ∧ c.arg 38 2 ≤ 10000) then some (0x11, 38)
  else if s.acquiring then some (0x15, 0)
  else if tst m 3 && g.role == 0 then some (0x1C, 0)
  else if (srcKind g.pri == 1 || srcKind g.sec == 1) &&
      (match s.inInterval with | none => true | some i => !refMatch g.per g.div i) then some (0x2E, 0)
  else if tst m 3 && s.bit F.TCK_STATUS_PERIOD_PENDING then some (0x16, 0)
  else none

/-- Apply the groups of TICK_CONFIG; a role or source change takes effect at the next boundary, a period change at
EFFECTIVE_AT (R196). -/
def State.tickConfigApply (s : State) (c : Call) : State :=
  let m := c.arg 8 4
  let on := fun (b : Nat) (f : State → State) (s : State) => if tst m b then f s else s
  let g := s.tickCfg c
  let s2 : State := if tst m 0 || tst m 1 then { s with tick := { s.tick with pendCfg := some (g.role, g.pri, g.sec) } } else s
  let s3 := on 2 (fun s => s.setFld F.TCK_CONFIG_IN_DIV (c.arg 16 2)) s2
  let s4 := on 3 (fun s =>
    ((s.setFld F.TCK_NEXT_PERIOD_PERIOD (c.arg 20 4)).setPair R.TCK_NEXT_AT_LO R.TCK_NEXT_AT_HI (s.periodAt c)).setFld
      F.TCK_STATUS_PERIOD_PENDING 1) s3
  let s5 := on 4 (fun s => s.setFld F.TCK_HOLDOFF_HOLDOFF_MS (c.arg 32 4)) s4
  let s6 := on 5 (fun s => (s.setFld F.TCK_QUAL_LOSS_COUNT (c.arg 18 1)).setFld F.TCK_QUAL_WINDOW (c.arg 36 2)) s5
  let s7 := on 6 (fun s => s.setFld F.TCK_MAX_ERR_MAX_ERR_US (c.arg 38 2)) s6
  on 7 (fun s => s.setReg R.TCK_MASTER_ID (BitVec.ofNat 32 (c.arg 40 2 % 512))) s7

/-- TICK_CONFIG (R196). -/
def execTickConfig (ups : Upsets) (s : State) : Res :=
  s.command 0x0601 ups (fun c s =>
    match s.tickConfigCheck c with
    | some (st, d) => s.no st d
    | none => (s.tickConfigApply c).ok [])

/-- TICK_REACQUIRE: cancel the boundary changes, stop the tick, listen again (R66, R197). -/
def execTickReacquire (ups : Upsets) (s : State) : Res :=
  s.command 0x0602 ups (fun c s =>
    if s.tenancy ≠ 0 || s.acquiring then s.no 0x15 0
    else if s.jobLimit c.fn then s.no 0x16 0
    else
      let s1 := (s.dropChanges true).dropTickChanges true
      ((s1.setFld F.TCK_STATUS_RESYNC_REQUIRED 0).acquireStart).startJob c 10001000000 0 0 0)

/-- A TICK_REACQUIRE job ends when the acquire has started the tick. -/
def State.reacquired (s : State) : State :=
  match s.jobOf 0x0602 with
  | some j => if s.acquiring then s else s.endJob j 0 0
  | none => s

/-- Step 9 of R163 for TIME_SET and CAL_SET (R198), then R177. -/
def State.timeCheck (s : State) : Option Nat :=
  if s.acquiring then some 0x15
  else if s.fld F.TCK_CONFIG_ROLE = 0 then some 0x1C
  else if s.tick.pendTime.isSome then some 0x16
  else none

/-- TIME_SET (R73, R198). -/
def execTimeSet (ups : Upsets) (s : State) : Res :=
  s.command 0x0603 ups (fun c s =>
    match s.atTick (c.arg 16 8) with
    | .inl st => s.no st (if st = 0x11 then 16 else 0)
    | .inr t =>
      match s.timeCheck with
      | some st => s.no st 0
      | none => ({ s with tick := { s.tick with pendTime := some (t, c.arg 8 8, 0x0603) } } : State).ok (leBytes 8 t))

/-- CAL_SET (R79, R80, R198): a civil date is converted to TAI with the offset in force. -/
def execCalSet (ups : Upsets) (s : State) : Res :=
  s.command 0x0604 ups (fun c s =>
    let y := c.arg 8 2
    if !dateOk y (c.arg 10 1) (c.arg 11 1) (c.arg 12 1) (c.arg 13 1) (c.arg 14 1) then
      let s1 := (s.setFld F.CAL_STATUS_BAD_DATE 1).bump F.CAL_BAD_COUNT_COUNT
      (s1.log 0x0204 2 0 0xFFFF 0 (y * 2 ^ 48 + c.arg 10 1 * 2 ^ 40 + c.arg 11 1 * 2 ^ 32 + c.arg 12 1 * 2 ^ 24 +
        c.arg 13 1 * 2 ^ 16 + c.arg 14 1 * 2 ^ 8)).no 0x1D 0
    else match s.atTick (c.arg 16 8) with
      | .inl st => s.no st (if st = 0x11 then 16 else 0)
      | .inr t =>
        match s.timeCheck with
        | some st => s.no st 0
        | none =>
          let sec : Int := (civilSecs y (c.arg 10 1) (c.arg 11 1) (c.arg 12 1) (c.arg 13 1) (c.arg 14 1) : Nat)
          let tai := (sec + s.utcOffset).toNat * 1000000000
          ({ s with tick := { s.tick with pendTime := some (t, tai, 0x0604) } } : State).ok (leBytes 8 t ++ leBytes 8 tai))

/-- UTC_OFFSET_SET (R82, R83). -/
def execUtcOffsetSet (ups : Upsets) (s : State) : Res :=
  s.command 0x0605 ups (fun c s =>
    let off := c.arg 8 2
    let mode := c.arg 10 1
    if 1 < mode then s.no 0x11 10
    else if mode = 0 then
      let s1 := ((s.setFld F.CAL_UTC_OFFSET_OFFSET off).setFld F.CAL_STATUS_UTC_PENDING 0).setFld F.CAL_STATUS_UTC_SET 1
      s1.calRecheck.ok []
    else if !s.timeValid then s.no 0x15 0
    else if c.arg 16 8 ≤ s.tai then s.no 0x11 16
    else
      let s1 := (s.setFld F.CAL_UTC_NEXT_NEXT_OFFSET off).setPair R.CAL_UTC_NEXT_AT_LO R.CAL_UTC_NEXT_AT_HI (c.arg 16 8)
      (s1.setFld F.CAL_STATUS_UTC_PENDING 1).ok [])

/-! ### Recorder and NVM -/

/-- Slots of the volatile buffer, oldest first: header and body units of each record (R735). -/
def State.bufSlots (s : State) : List (List Byte) := (s.evr.buf.map (fun b => b.hdr.bytes :: b.body)).flatten

/-- Index of the buffer slot that holds the newest record. -/
def State.bufNewest (s : State) : Option Nat :=
  match s.evr.buf.getLast? with
  | none => none
  | some b => some (s.bufSlots.length - (1 + b.body.length))

/-- Index of the log slot that holds the newest record (R735). -/
def State.logNewest (s : State) (log : Nat) : Option Nat :=
  let q := if log = 0 then s.evr.ffNewest else s.evr.ringNewest
  if q = 0 then none
  else (List.range (logSlots log)).find? (fun i =>
    let b := s.norBytes (logBase log + 32 * i) 32
    isRecord b && leAt b 4 4 == q - 1)

/-- Slots that LOG_READ copies: their bytes and the index after the last (R735). The buffer has 1,024 slots (R721); one that
holds nothing reads as 0xFF bytes (DEDUCED, log entry 51). -/
def State.logSlice (s : State) (log start count : Nat) : List (List Byte) × Nat :=
  if log = 2 then
    ((List.range count).map (fun i => s.bufSlots.getD ((start + i) % 1024) (List.replicate 32 0xFF)), (start + count) % 1024)
  else if log = 1 then
    ((List.range count).map (fun i => s.norBytes (logBase 1 + 32 * ((start + i) % logSlots 1)) 32), (start + count) % logSlots 1)
  else
    let n := min count (logSlots 0 - start)
    ((List.range n).map (fun i => s.norBytes (logBase 0 + 32 * (start + i)) 32), start + n)

/-- LOG_READ (R735). `norOk` says that the NOR device completed its reads. -/
def execLogRead (norOk : Bool) (ups : Upsets) (s : State) : Res :=
  s.command 0x0701 ups (fun c s =>
    let log := c.arg 8 1
    let start := c.arg 12 4
    let count := c.arg 16 4
    let a := c.arg 20 4
    if 2 < log then s.no 0x11 8
    else if start ≥ (if log = 2 then 1024 else logSlots log) then s.no 0x11 12
    else if count = 0 || 2048 < count then s.no 0x11 16
    else if !s.bufferOk c.fn a (32 * count) then s.no 0x18 20
    else if log ≠ 2 && !s.bit F.EVR_STATUS_MOUNTED then s.no 0x15 0
    else if s.norJob then s.no 0x16 0
    else if log ≠ 2 && !norOk then s.no 0x23 0
    else
      let r := s.logSlice log start count
      let newest := ((if log = 2 then s.bufNewest else s.logNewest log).getD 0xFFFFFFFF)
      (s.bufferPut a r.1.flatten).ok (leBytes 4 r.1.length ++ leBytes 4 r.2 ++ leBytes 4 newest))

/-- LOG_CLEAR: a job that clears a log starts (R200, R737). -/
def execLogClear (ups : Upsets) (s : State) : Res :=
  s.command 0x0702 ups (fun c s =>
    let log := c.arg 8 1
    if 1 < log then s.no 0x11 8
    else if c.arg 12 4 ≠ 0x4C4F4743 then s.no 0x11 12
    else if s.jobLimit c.fn || s.norJob then s.no 0x16 0
    else ({ s with evr := { s.evr with clearing := log + 1 } } : State).startJob c (logSlots log / 128) log 0 0)

/-- Clear a log (R737): every sector but, for the ring, a new one is erased, the log goes on there, and a LOG_CLEARED
record is created. -/
def State.clearLog (s : State) (log : Nat) : State :=
  let newest := if log = 0 then s.evr.ffNewest else s.evr.ringNewest
  if log = 0 then
    let s1 := ((s.norErase (logBase 0) 0x400000).setFld F.EVR_STATUS_FF_FULL 0).setFld F.EVR_FF_NEXT_SLOT 0
    let r := s1.mkRecord 0x0006 2 0 0xFFFF log (newest - 1) false
    let s2 : State := { s1 with evr := { s1.evr with clearing := 0, ffNewest := r.seq + 1 } }
    let s3 := s2.record r
    let s4 : State := { s3 with evr := { s3.evr with buf := s3.evr.buf.map (fun b => if b.hdr.seq = r.seq then b.noFf else b) } }
    (s4.putUnit 0 r.bytes).1
  else
    let next := (s.fld F.EVR_RING_NEXT_SLOT + 127) / 128 * 128 % 786432
    let s1 := s.norErase (logBase 1) 0x1800000
    let s2 := s1.setFld F.EVR_RING_NEXT_SLOT next
    let s3 : State := { s2 with evr := { s2.evr with clearing := 0, ringNewest := 0, margin := 786432 - 128 } }
    (s3.setFld F.EVR_RING_OLDEST_SLOT next).log 0x0006 2 0 0xFFFF log (newest - 1)

/-- LOG_CLEAR_JOB_END: the job finishes (R737). -/
def execLogClearJobEnd (s : State) : Res :=
  match s.jobOf 0x0702 with
  | none => .next s
  | some j => if s.frozen then .next s else .next ((s.clearLog (s.job j).a).endJob j 0 0)

/-- Bytes `[o, o + n)` touch the boot record partition or the fence list halves (R112). -/
def nvmProtected (o n : Nat) : Bool := decide (o < 0x1C20000 ∧ 0x1C00000 < o + n)

/-- NVM_READ (R201). -/
def execNvmRead (norOk : Bool) (ups : Upsets) (s : State) : Res :=
  s.command 0x0703 ups (fun c s =>
    let o := c.arg 8 4
    let n := c.arg 12 4
    let a := c.arg 16 4
    if n = 0 || 65536 < n then s.no 0x11 12
    else if 0x2000000 < o + n then s.no 0x22 0
    else if !s.bufferOk c.fn a n then s.no 0x18 16
    else if s.norJob then s.no 0x16 0
    else if !norOk || s.evr.norDead then s.no 0x23 0
    else ((s.bufferPut a (s.norBytes o n)).drawnN n).ok [])

/-- NVM_WRITE: blank check, then one program (R201, R202). `norOk` says that the device reported no failure. -/
def execNvmWrite (norOk : Bool) (ups : Upsets) (s : State) : Res :=
  s.command 0x0704 ups (fun c s =>
    let o := c.arg 8 4
    let n := c.arg 12 4
    let a := c.arg 16 4
    if n = 0 || 256 < n then s.no 0x11 12
    else if 0x2000000 < o + n || o / 256 ≠ (o + n - 1) / 256 then s.no 0x22 0
    else if nvmProtected o n then s.no 0x20 0
    else if !s.bufferOk c.fn a n then s.no 0x18 16
    else if s.bufferUe a n then s.dataError c.fn a n
    else if s.tenancy ≠ 0 then s.no 0x15 0
    else if s.norJob then s.no 0x16 0
    else if (s.norBytes o n).any (fun b => b != 0xFF) then s.no 0x21 0
    else
      let s1 := if norOk then s.norProgram o (s.exmBytes a n) else s.norSpoil (o / 256 * 256) 256
      let s2 := s1.log 0x0503 2 0 0xFFFF 0 (o + n * 2 ^ 32)
      if norOk then s2.ok [] else s2.no 0x23 0)

/-- NVM_ERASE: a job that erases sectors starts (R201, R202). -/
def execNvmErase (ups : Upsets) (s : State) : Res :=
  s.command 0x0705 ups (fun c s =>
    let o := c.arg 8 4
    let n := c.arg 12 4
    if o % 4096 ≠ 0 then s.no 0x11 8
    else if n = 0 || 1024 < n then s.no 0x11 12
    else if 0x2000000 < o + 4096 * n then s.no 0x22 0
    else if nvmProtected o (4096 * n) then s.no 0x20 0
    else if s.tenancy ≠ 0 then s.no 0x15 0
    else if s.jobLimit c.fn || s.norJob then s.no 0x16 0
    else s.startJob c n o n 0)

/-- NVM_ERASE_JOB_END: the job has erased `done` sectors; fewer than it was asked for means that the device reported
the next one's erase as failed (R202). -/
def execNvmEraseJobEnd (done : Nat) (s : State) : Res :=
  match s.jobOf 0x0705 with
  | none => .next s
  | some j =>
    if s.frozen then .next s
    else
      let x := s.job j
      let d := min done x.b
      let s1 := s.norErase x.a (4096 * d)
      let s2 := if d < x.b then s1.norSpoil (x.a + 4096 * d) 4096 else s1
      let s3 := (s2.modJob j (fun y => { y with progress := d })).log 0x0504 2 0 0xFFFF 0 (x.a + x.b * 2 ^ 32)
      .next (s3.endJob j (if d < x.b then 0x23 else 0) 0)

/-! ### Power -/

/-- The active schedule bank's hyperperiod holds an RT slot (R121, R537). -/
def State.activeRt (s : State) : Bool :=
  let at_ := fun (p j : Nat) => fget (fun _ => 0) s.sch.table (2048 * s.fld F.SCH_STATUS_ACTIVE_BANK + 32 * p + j) % 256
  (List.range (s.fld F.SCH_STATUS_HYPER)).any (fun p =>
    ((List.range 32).map (at_ p)).takeWhile (fun k => k != 0) |>.any (fun k => k == 1))

/-- POWER_STATE: doze is asked for, or left (R121, R124, R199). -/
def execPowerState (ups : Upsets) (s : State) : Res :=
  s.command 0x0C01 ups (fun c s =>
    if 1 < c.arg 8 1 then s.no 0x11 8
    else if c.arg 8 1 = 1 then
      if s.activeRt then s.no 0x2D 0
      else ({ s with pwr := { s.pwr with dozeAsked := true } } : State).ok []
    else
      let up := if s.pwr.doze then s.runClk + 1 else s.pwr.resumeFrom
      ({ s with pwr := { s.pwr with dozeAsked := false, resumeFrom := up } } : State).ok [])

/-- POWER_CAP_SET: 200 W to the assembly's maximum (R199). -/
def execPowerCapSet (ups : Upsets) (s : State) : Res :=
  s.command 0x0C02 ups (fun c s =>
    let w := c.arg 8 2
    if w < 200 || s.fused.maxPower < w then s.no 0x11 8
    else ({ s with frz := { s.frz with capW := some w } } : State).ok [])

end Sys2Proof.Machine
end

