-- ==== Sys2Proof/Machine/BootHist.lean ====
section
/-! DEFINITION. Before boot step 1 (chapter 03): the newest valid boot entry, the condition each unit starts with, and
the entry of the start that begins (R97 to R104, R107 to R109, Tables 03-8 to 03-10). -/

namespace Sys2Proof.Machine

/-! ### Units and their dependants -/

/-- Compute die `d` is unusable when the units that satisfy `down` are: link 1 takes die 0, links 0 and 2 die 1, and a
commons half its die (Table 03-3). -/
def dieDown (down : Nat → Bool) (d : Nat) : Bool :=
  if d = 0 then down 12 || down 34 else down 11 || down 13 || down 35

/-- Unit `u` depends on a unit that is unusable (R98). -/
def blockedBy (down : Nat → Bool) (u : Nat) : Bool :=
  match classOf u with
  | 4 => dieDown down (stackDie (u - 3))
  | 6 => dieDown down ((u - 14) % 2)
  | 7 => down (14 + (u - 18) / 4) || dieDown down ((u - 18) / 4 % 2)
  | 8 => dieDown down (u - 34)
  | 9 => dieDown down (clusterDie (u - 36))
  | 10 => dieDown down (u - 84)
  | _ => false

/-- The unit is required (Table 03-3). -/
def required (u : Nat) : Bool := [1, 2, 3, 4, 5, 8, 9, 12].contains (classOf u)

/-- The highest method level of the unit (R99, R100). -/
def maxLevel (u : Nat) : Nat := if u = 2 then 2 else if required u then 1 else 0

/-- The unit is never fenced (R102): the fuse block, PCIe, the NOR device. -/
def neverFenced (u : Nat) : Bool := u == 0 || u == 2 || u == 86

/-- Bit of unit `u` in its step record's FAILED_UNITS (Table 03-9). -/
def failBit (u : Nat) : Nat :=
  match classOf u with
  | 4 => u - 3
  | 5 => u - 11
  | 6 => u - 11
  | 7 => u - 18
  | 8 => u - 34
  | 9 => u - 34
  | 10 => u - 34
  | _ => 0

/-- The 88 units. -/
def units : List Nat := List.range 88

/-- The units of boot step `n`. -/
def stepUnits (n : Nat) : List Nat := units.filter (fun u => stepOf u == n)

/-! ### The boot record -/

/-- NOR offset of slot `i` of the boot record partition. -/
def bootSlot (i : Nat) : Nat := 0x1C00000 + 256 * (i % 256)

/-- The slots of the partition that hold a byte that is not erased. -/
def State.usedBootSlots (s : State) : List Nat :=
  ((s.evr.nor.map (fun (e : Nat × Byte) => e.1) ++ s.evr.norOpen.map (fun (e : Nat × Nat) => e.1)).filterMap (fun a =>
    if 0x1C00000 ≤ a ∧ a < 0x1C10000 then some ((a - 0x1C00000) / 256) else none)).eraseDups

/-- The CHECK of an entry: CRC-32C over 0x00–0x0F and 0xA0–0xF7 (Table 03-8). -/
def bootCheck (b : List Byte) : Nat := crc32c (b.take 16 ++ sliceOf b 0xA0 88)

/-- The bytes are a valid boot entry (R109). -/
def bootValid (b : List Byte) : Bool := leAt b 0 4 == 0x4A424F54 && leAt b 0xF8 4 == bootCheck b

/-- The newest valid entry, the one with the highest SEQ: its slot and its bytes (R109). -/
def State.newestBoot (s : State) : Option (Nat × List Byte) :=
  s.usedBootSlots.foldl (fun m i =>
    let b := s.norBytes (bootSlot i) 256
    if bootValid b then
      match m with
      | none => some (i, b)
      | some o => if leAt o.2 4 4 < leAt b 4 4 then some (i, b) else m
    else m) none

/-- Counter byte of unit `u` in an entry. -/
def counterIn (b : List Byte) (u : Nat) : Nat := leAt b (0xA0 + u) 1

/-- COUNT, LEVEL, SKIP and FENCED of a counter byte (Table 03-10). -/
def ctrCount (c : Nat) : Nat := bitsOf c 1 0
def ctrLevel (c : Nat) : Nat := bitsOf c 3 2
def ctrSkip (c : Nat) : Bool := tst c 4
def ctrFenced (c : Nat) : Bool := tst c 5

/-- A counter byte. -/
def ctrByte (count level : Nat) (skip fenced : Bool) : Nat := count + 4 * level + 16 * b2n skip + 32 * b2n fenced

/-- STARTED, OUTCOME and FAILED_UNITS of step `n` in an entry. -/
def startedIn (b : List Byte) (n : Nat) : Bool := leAt b (16 * n) 1 != 0xFF
def outcomeIn (b : List Byte) (n : Nat) : Nat := leAt b (16 * n + 1) 1
def failedIn (b : List Byte) (u : Nat) : Bool := tst (leAt b (16 * stepOf u + 8) 8) (failBit u)

/-- Unit `u` was unusable when step `n` of the entry's start began: fenced or skipped at that start, or failed at an
earlier step of it. -/
def downIn (b : List Byte) (n u : Nat) : Bool :=
  ctrSkip (counterIn b u) || ctrFenced (counterIn b u) ||
    (decide (stepOf u < n) && outcomeIn b (stepOf u) != 0xFF && failedIn b u)

/-- How unit `u` fared at the entry's start. -/
inductive Fared where
  /-- it was not tried, or its attempt was interrupted (R101) -/
  | untried
  | passed
  | failed
  /-- its attempt was interrupted by an overvoltage or overcurrent and counts as failed (R101) -/
  | tripped
deriving DecidableEq, Repr

/-- How unit `u` fared at the start of entry `b`, which LAST_CAUSE `cause` ended (R101). -/
def State.fared (s : State) (b : List Byte) (cause u : Nat) : Fared :=
  let n := stepOf u
  if !s.fitted u || ctrSkip (counterIn b u) || ctrFenced (counterIn b u) || !startedIn b n ||
      blockedBy (downIn b n) u then .untried
  else if outcomeIn b n = 0xFF then (if cause = 3 ∨ cause = 4 then .tripped else .untried)
  else if failedIn b u then .failed
  else .passed

/-- The units an unfence entry of the start `seq` names, no later fence entry of it undoing that (R104). -/
def State.unfenced (s : State) (seq : Nat) : Nat :=
  (s.fenceEntries.filter (fun e => leAt e 4 4 == seq)).foldl (fun m e =>
    match unitOf (leAt e 2 2) with
    | some u => putBit m u (e.getD 0 0 == 2)
    | none => m) 0

/-- What the sequencer knows before step 1 (R97): the newest valid entry, LAST_CAUSE, the units listed as fenced, and
whether the list could be read. -/
structure Known where
  entry : Option (Nat × List Byte)
  cause : Nat
  listed : Nat
  unfenced : Nat
  listRead : Bool
deriving DecidableEq, Repr

/-- Read the history; `nor` bit 0 says that the boot record, bit 1 that the fence list cannot be read. -/
def State.known (s : State) (nor : Nat) : Known :=
  let e := if tst nor 0 then none else s.newestBoot
  { entry := e
    cause := match e with | some x => s.lastCause (leAt x.2 4 4) | none => 0
    listed := if tst nor 1 then 0 else s.listedFences
    unfenced := match e with | some x => if tst nor 1 then 0 else s.unfenced (leAt x.2 4 4) | none => 0
    listRead := !tst nor 1 }

/-- The unit's counter byte at this start before fencing: count, level and skip (R99 to R101, R104). -/
def State.startCtr (s : State) (k : Known) (u : Nat) : Nat :=
  match k.entry with
  | none => 0
  | some x =>
    let c := counterIn x.2 u
    if tst k.unfenced u then 0
    else match s.fared x.2 k.cause u with
      | .untried => ctrByte (ctrCount c) (ctrLevel c) false false
      | .passed => ctrByte 0 (ctrLevel c) false false
      | _ => ctrByte (min 3 (ctrCount c + 1)) (min (maxLevel u) (ctrLevel c + 1)) (!required u) false

/-- The unit is on the fence list, or in the entry where the list cannot be read (Table 03-13, FENCE_UNREAD). -/
def Known.fenced (k : Known) (u : Nat) : Bool :=
  if k.listRead then tst k.listed u
  else match k.entry with | some x => ctrFenced (counterIn x.2 u) | none => false

/-- A count of 3 fences the unit although the list holds no fence entry for it (R102). -/
def State.dueFence (s : State) (k : Known) (u : Nat) : Bool :=
  s.fitted u && ctrCount (s.startCtr k u) == 3 && !neverFenced u && !k.fenced u && !tst k.unfenced u

/-- The unit's counter byte at this start (Table 03-10). -/
def State.newCtr (s : State) (k : Known) (u : Nat) : Nat :=
  let c := s.startCtr k u
  let f := k.fenced u || s.dueFence k u
  ctrByte (ctrCount c) (ctrLevel c) (ctrSkip c && !f) f

/-- EVENT of a fence entry that the start itself appends: what cut the unit's last attempt, or UNIT_FAILED. -/
def State.dueEvent (s : State) (k : Known) (u : Nat) : Nat :=
  match k.entry with
  | some x => if s.fared x.2 k.cause u = .tripped then (if k.cause = 3 then 0x0102 else 0x0101) else 0x0301
  | none => 0x0301

/-! ### The entry of a start -/

/-- The 4 KiB sector of slot `i` is blank. -/
def State.bootSectorBlank (s : State) (i : Nat) : Bool := s.norBlank (bootSlot (i / 16 * 16)) 4096

/-- The slot this start programs, from slot `i` on (R108): the first blank one, a sector that is not blank being erased
when its first slot is reached. -/
def State.placeEntry : Nat → Nat → State → State × Nat
  | 0, i, s => (s, i % 256)
  | n + 1, i, s =>
    let j := i % 256
    if j % 16 = 0 ∧ ¬ s.bootSectorBlank j then (s.norErase (bootSlot j) 4096, j)
    else if s.norBlank (bootSlot j) 256 then (s, j)
    else State.placeEntry n (i + 1) s

/-- Header bytes 0x00–0x0F of an entry (Table 03-8). -/
def bootHeader (seq kind cause flags : Nat) : List Byte :=
  leBytes 4 0x4A424F54 ++ leBytes 4 seq ++ leBytes 1 kind ++ leBytes 1 cause ++ leBytes 1 flags ++ leBytes 5 0

/-- Program the entry's header, counter bytes and CHECK (R107). -/
def State.programEntry (s : State) (at_ : Nat) (hdr ctrs : List Byte) : State :=
  ((s.norProgram at_ hdr).norProgram (at_ + 0xA0) ctrs).norProgram (at_ + 0xF8) (leBytes 4 (crc32c (hdr ++ ctrs)))

/-- Step `n` begins (R94, R107): STEP, the STARTED byte, the clocks of its record. -/
def State.beginStep (s : State) (n : Nat) : State :=
  let s1 := s.setFld F.BOOT_STATUS_STEP n
  let s2 := if s1.boot.entryOk then s1.norProgram (s1.boot.entryAt + 16 * n) [0] else s1
  { s2 with boot := { s2.boot with stepClk := s2.runClk, stepFrozen := false, waitPerst := false } }

/-- Append the fence entries of R102 that are missing, and log each (Table 21-5). -/
def State.appendDue (s : State) (k : Known) : State :=
  if !k.listRead then s
  else (units.filter (s.dueFence k)).foldl (fun s u =>
    (s.appendFence 1 1 (codeOf u) (stepOf u) 3 (s.dueEvent k u)).log 0x0302 3 0 (codeOf u) 0 0) s

/-- What the sequencer does from the starting event to the begin of step 1 (R88, R97, R107): `kind` is START_KIND. -/
def State.bootStart (s : State) (kind nor : Nat) : State :=
  let k := s.known nor
  let seq := match k.entry with | some x => (leAt x.2 4 4 + 1) % 2 ^ 32 | none => 0
  let blind := k.entry.isNone && (!k.listRead || s.activeHalf.isNone)
  let unread := !k.listRead && k.entry.isSome
  let ctrs := units.map (s.newCtr k)
  let s1 := (((s.setFld F.BOOT_STATUS_START_KIND kind).setFld F.BOOT_STATUS_LAST_CAUSE k.cause).setBit
    F.BOOT_STATUS_NO_HISTORY blind).setBit F.BOOT_STATUS_FENCE_UNREAD unread
  let s2 := s1.setReg R.BOOT_SEQ (BitVec.ofNat 32 seq)
  let r := if tst nor 0 then (s2, 0) else State.placeEntry 257 (match k.entry with | some x => x.1 + 1 | none => 0) s2
  let at_ := bootSlot r.2
  let s3 := if tst nor 0 then r.1
    else r.1.programEntry at_ (bootHeader seq kind k.cause (b2n blind + 2 * b2n unread)) (ctrs.map (BitVec.ofNat 8))
  let s4 : State := { s3 with
    boot := { s3.boot with
      counters := (units.filter (fun u => ctrs.getD u 0 != 0)).map (fun u => (u, ctrs.getD u 0))
      entryAt := at_, entryOk := !tst nor 0, startClk := s3.clk
      downMask := maskOf 88 (fun u => ctrSkip (ctrs.getD u 0) || ctrFenced (ctrs.getD u 0)) } }
  let s5 := ((s4.appendDue k).beginStep 1)
  if k.listRead then s5.fenceCount else s5

end Sys2Proof.Machine
end

