-- ==== Sys2Proof/Machine/Ewebin.lean ====
section
/-! DEFINITION. Ewebin links (chapter 19): ports and their states, flits, control symbols, training checks, insertion
and removal, failure notices, markers. FAIL_NOTICE's effect on collectives is in Engines.lean. -/

namespace Sys2Proof.Machine

/-! ### Ports -/

/-- Port `p`'s state beside its registers. -/
def State.port (s : State) (p : Nat) : Port := fget (fun _ => ({} : Port)) s.ewb.ports p

/-- Set port `p`'s state. -/
def State.setPort (s : State) (p : Nat) (x : Port) : State :=
  { s with ewb := { s.ewb with ports := fset (fun _ => ({} : Port)) s.ewb.ports p x } }

/-- Enter port state `st` (Table 19-1 codes). -/
def State.goPort (s : State) (p st : Nat) : State := s.setFld (F.EWB_P_STATUS_STATE p) st

/-- Site, role and ring of port `p`: roles 0 X+, 1 X−, 2 Y+, 3 Y− (R648). -/
def portSite (p : Nat) : Nat := p / 4
def portRole (p : Nat) : Nat := p % 4
def portRing (p : Nat) : Nat := p % 4 / 2

/-- The port on the same ring and plane that faces the other way. -/
def opposite (p : Nat) : Nat := if p % 2 = 0 then p + 1 else p - 1

/-- Y_SIZE: 0 and above 64 read as 64 (Table 19-8). -/
def State.ySize (s : State) : Nat :=
  let y := s.fld F.EWB_DOMAIN_Y_SIZE
  if y = 0 ∨ 64 < y then 64 else y

/-- Positions on a ring: 8 for X, Y_SIZE for Y (R649). -/
def State.ringSize (s : State) (ring : Nat) : Nat := if ring = 0 then 8 else s.ySize

/-- Position of an address on a ring. -/
def posOf (addr ring : Nat) : Nat := if ring = 0 then addr % 8 else addr / 8 % 64

/-- BYP_READY is high. -/
def State.bypReady (s : State) : Bool := s.bit F.EWB_STATUS_BYP_READY

/-- The insertion state (R672): 0 OUT, 1 WAIT_GRANT, 2 GRANTED, 3 ENTERING, 4 IN, 5 LEAVING. -/
def State.insertion (s : State) : Nat := s.fld F.EWB_STATUS_INSERT

/-- The port's I/O-die site is usable as a link die and the port is not fenced. -/
def State.portUsable (s : State) (p : Nat) : Bool :=
  s.fused.ioType.getD (portSite p) 0 == 1 && !s.down (14 + portSite p) && s.dieUp (portSite p % 2) && !s.down (18 + p)

/-- A control symbol is well formed: 16 bytes, the TYPE expected, CRC-8 correct (R655). -/
def symOk (type : Nat) (b : List Byte) : Bool :=
  b.length == 16 && leAt b 0 1 == type && leAt b 15 1 == crc8 (b.take 15)

/-- A symbol is discarded and counted (R655). -/
def State.symBad (s : State) (p : Nat) : State := (s.bump (F.EWB_P_CNT_SYM_BAD_COUNT p)).bump F.EWB_CNT_SYM_BAD_COUNT

/-- A symbol heard on a tap shows that the tap carries a stream (R672). -/
def State.heardOn (s : State) (p : Nat) : State :=
  if s.portState p = 2 then s.setPort p { s.port p with stream := true } else s

/-- Act on a well-formed symbol, or discard and count a bad one. -/
def State.onSymbol (s : State) (p type : Nat) (b : List Byte) (act : State → State) : State :=
  if symOk type b then act (s.heardOn p) else s.symBad p

/-! ### Failure notices (R679, R680) -/

/-- Ports that can carry symbols: UP, SOLO or PAUSING. -/
def State.trainedPorts (s : State) : List Nat :=
  (List.range 16).filter (fun p => s.portState p == 4 || s.portState p == 5 || s.portState p == 7)

/-- Send a FAIL_NOTICE of this module with the next NID on the given ports (Table 19-4). -/
def State.failNotice (s : State) (cause : Nat) (ps : List Nat) (ring port : Nat) : State :=
  let nid := s.ewb.nextNid
  let sym := symbolOf 0x0B (leBytes 1 cause ++ leBytes 2 s.address ++ leBytes 1 nid ++ leBytes 1 ring ++ leBytes 1 port)
  let s1 : State := { s with ewb := { s.ewb with
    nextNid := (nid + 1) % 256, seenNotice := ((s.address, nid) :: s.ewb.seenNotice).take 256 } }
  (s1.sendOn ps sym).bump F.EWB_CNT_NOTICE_TX_COUNT

/-- A port fails (R660): DOWN, counted, its buffers discarded, logged, and FAIL_NOTICE with cause LINK goes out on that
ring in the other direction (R679). -/
def State.portFail (s : State) (p : Nat) : State :=
  let s1 := (s.goPort p 6).bump (F.EWB_P_CNT_DOWN_COUNT p)
  let s2 := s1.setPort p { s1.port p with replay := [], txq := [], nakRun := 0 }
  let s3 := s2.log 0x0B01 3 0 (0x0700 + p) 0 0
  s3.failNotice 3 (s3.trainedPorts.filter (fun q => portRing q == portRing p && q % 2 != p % 2)) (portRing p) p

/-- PORT_FAILED: a port meets a failure condition of R660. A PAUSING port whose peer goes after DRAINED retrains
(Table 19-1). -/
def execPortFailed (p : Nat) (s : State) : Res :=
  .next <|
    if s.portState p = 5 ∧ (s.port p).drainTx ∧ (s.port p).drainRx ≠ 0 then s.goPort p 3
    else if s.portState p = 4 ∨ s.portState p = 5 then s.portFail p
    else s

/-! ### Flits, credits and replay (R654 to R663) -/

/-- Buffer entries of a VC (R657). -/
def vcDepth (vc : Nat) : Nat := if vc < 2 then 288 else 32

/-- Port `x` holds a credit for a VC and its replay buffer has room. -/
def Port.maySend (x : Port) (vc : Nat) : Bool :=
  decide ((x.sentVc.getD vc 0 + 65536 - x.creditRx.getD vc 0) % 65536 < vcDepth vc) && decide (x.replay.length < 1024)

/-- Send one flit on port `p`: SEQ, replay buffer, count. -/
def State.sendFlit (s : State) (p : Nat) (f : Flit) : State :=
  let x := s.port p
  let g : Flit := { f with seq := x.txSeq }
  (s.setPort p { x with
    txSeq := (x.txSeq + 1) % 4096, replay := x.replay ++ [g]
    sentVc := x.sentVc.set f.vc ((x.sentVc.getD f.vc 0 + 1) % 65536) }).emit (.flit p g)

/-- Free one receive-buffer entry of a VC on port `p` and say so by CREDIT (R657). Own flits (port 16) hold none. -/
def State.freeEntry (s : State) (p vc : Nat) : State :=
  if 16 ≤ p then s
  else
    let x := s.port p
    let y : Port := { x with freedVc := x.freedVc.set vc ((x.freedVc.getD vc 0 + 1) % 65536) }
    (s.setPort p y).sendOn [p] (symbolOf 0x01 (0 :: (y.freedVc.map (leBytes 2)).flatten))

/-- Send what waits on port `p` while credits last, at most `n` flits. -/
def drainTxq (p : Nat) : Nat → State → State
  | 0, s => s
  | n + 1, s =>
    match (s.port p).txq with
    | [] => s
    | (q, f) :: t =>
      if s.portState p = 4 ∧ (s.port p).maySend f.vc ∧ ¬ s.frozen then
        drainTxq p n (((s.setPort p { s.port p with txq := t }).sendFlit p f).freeEntry q (if f.vc % 2 = 1 then f.vc - 1 else f.vc))
      else s

/-- Queue a flit on port `p`, from port `q` (16 own), and send what can be sent. -/
def State.queueFlit (s : State) (p q : Nat) (f : Flit) : State :=
  let s1 := s.setPort p { s.port p with txq := (s.port p).txq ++ [(q, f)] }
  drainTxq p ((s.port p).txq.length + 1) s1

/-- `x` lies strictly between `a` and `b` going up (or down) a ring of `n` positions. -/
def strictlyBetween (n a b x : Nat) (up : Bool) : Bool :=
  let d := fun u v => if up then (v + n - u) % n else (u + n - v) % n
  decide (0 < d a x ∧ d a x < d a b)

/-- A hop from `a` to `b` in the given direction crosses the dateline (R662). -/
def crosses (a b : Nat) (up : Bool) : Bool := if up then decide (b < a) else decide (a < b)

/-- Peer address of port `p`. -/
def State.peer (s : State) (p : Nat) : Nat := s.fld (F.EWB_P_STATUS_PEER p)

/-- An accepted flit on port `p`: delivered here, discarded when its destination was passed, or forwarded on the
opposite port, on the next VC of its class where the hop crosses the dateline (R661, R662). -/
def State.routeFlit (s : State) (p : Nat) (f : Flit) : State :=
  let ring := portRing p
  let own := posOf s.address ring
  let up := p % 2 == 1
  let out := opposite p
  if f.dst = own then
    ({ s with ewb := { s.ewb with inbox := s.ewb.inbox ++ [(p, f)] } }).freeEntry p f.vc
  else if strictlyBetween (s.ringSize ring) (posOf (s.peer p) ring) own f.dst up then
    (s.bump (F.EWB_P_CNT_NO_ROUTE_COUNT p)).freeEntry p f.vc
  else
    let vc := if f.vc % 2 = 0 ∧ crosses own (posOf (s.peer out) ring) up then f.vc + 1 else f.vc
    s.queueFlit out p { f with vc := vc }

/-- NAK with the SEQ expected (R658). -/
def State.sendNak (s : State) (p : Nat) : State := s.sendOn [p] (symbolOf 0x03 (0 :: leBytes 2 (s.port p).rxSeq))

/-- FLIT_RECEIVE: a flit arrives on port `p`; `ok` says that its CRC or tag holds, `corr` and `unc` how many FEC
codewords were corrected and uncorrectable. It is accepted in SEQ order and acknowledged, or NAKed (R654, R658, R684).
A frozen part accepts no flit (R664). -/
def execFlitReceive (p : Nat) (f : Flit) (ok : Bool) (corr unc : Nat) (s : State) : Res :=
  .next <|
    if 16 ≤ p ∨ s.frozen ∨ (s.portState p ≠ 4 ∧ s.portState p ≠ 5) then s
    else
      let s1 := (s.addFld (F.EWB_P_CNT_FEC_CORR_COUNT p) corr).addFld (F.EWB_P_CNT_FEC_UNCORR_COUNT p) unc
      if !ok then
        (if s1.bit (F.EWB_P_STATUS_ENCRYPTED p) then s1.bump (F.EWB_P_CNT_TAG_FAIL_COUNT p) else s1).sendNak p
      else if f.kind = 0 then s1
      else if f.seq ≠ (s1.port p).rxSeq then s1.sendNak p
      else
        let s2 := s1.setPort p { s1.port p with rxSeq := (f.seq + 1) % 4096 }
        (s2.sendOn [p] (symbolOf 0x02 (0 :: leBytes 2 f.seq))).routeFlit p f

/-- CREDIT: the cumulative freed counts of the four VCs arrive and waiting flits go (R657). -/
def execCredit (p : Nat) (b : List Byte) (s : State) : Res :=
  .next <| s.onSymbol p 0x01 b fun s =>
    let s1 := s.setPort p { s.port p with creditRx := [leAt b 2 2, leAt b 4 2, leAt b 6 2, leAt b 8 2] }
    drainTxq p (s1.port p).txq.length s1

/-- Send DRAINED once the peer's PAUSE has come and every flit sent is acknowledged (R673). -/
def State.drainCheck (s : State) (p : Nat) : State :=
  let x := s.port p
  if s.portState p = 5 ∧ x.pauseRx ∧ x.pauseTx ∧ x.replay.isEmpty ∧ ¬ x.drainTx then
    (s.setPort p { x with drainTx := true }).sendOn [p] (symbolOf 0x0E (0 :: leBytes 4 s.ewb.winAt))
  else s

/-- ACK: flits up to the SEQ named leave the replay buffer (R658). -/
def execAck (p : Nat) (b : List Byte) (s : State) : Res :=
  .next <| s.onSymbol p 0x02 b fun s =>
    let q := leAt b 2 2 % 4096
    let x := s.port p
    let s1 := s.setPort p { x with replay := x.replay.filter (fun f => decide (2048 ≤ (q + 4096 - f.seq) % 4096)), nakRun := 0 }
    (drainTxq p (s1.port p).txq.length s1).drainCheck p

/-- NAK: the sender resends from the SEQ named; the eighth successive NAK of one SEQ fails the port (R658, R660). -/
def execNak (p : Nat) (b : List Byte) (s : State) : Res :=
  .next <| s.onSymbol p 0x03 b fun s =>
    let q := leAt b 2 2 % 4096
    let x := s.port p
    let run := if x.nakSeq = q then x.nakRun + 1 else 1
    let again := x.replay.filter (fun f => decide ((f.seq + 4096 - q) % 4096 < 2048))
    let s1 := (s.setPort p { x with nakSeq := q, nakRun := run }).addFld (F.EWB_P_CNT_REPLAY_COUNT p) again.length
    if 8 ≤ run ∧ (s1.portState p = 4 ∨ s1.portState p = 5) then s1.portFail p
    else if s1.frozen then s1
    else s1.emitAll (again.map (fun f => .flit p f))

/-! ### Delay measurement (R670) -/

/-- DELAY_REQ: answered with DELAY_RESP; `turn` is the time from arrival to answer, ps. -/
def execDelayReq (p : Nat) (b : List Byte) (turn : Nat) (s : State) : Res :=
  .next <| s.onSymbol p 0x07 b fun s =>
    s.sendOn [p] (symbolOf 0x08 (leBytes 1 (leAt b 1 1) ++ leBytes 8 (leAt b 2 8) ++ leBytes 4 turn))

/-- The mean of a list of numbers. -/
def mean (l : List Nat) : Nat := l.foldl (· + ·) 0 / max l.length 1

/-- DELAY_RESP: gives one delay sample, `t4` being its arrival time in ps; the sixteenth sets EWB_P_DELAY to the
mean. -/
def execDelayResp (p : Nat) (b : List Byte) (t4 : Nat) (s : State) : Res :=
  .next <| s.onSymbol p 0x08 b fun s =>
    let x := s.port p
    if x.awaiting = 0 then s
    else
      let l := (t4 - leAt b 2 8 - leAt b 10 4) / 2 :: x.samples
      let s1 := s.setPort p { x with samples := l, awaiting := x.awaiting - 1 }
      if x.awaiting = 1 then s1.setFld (F.EWB_P_DELAY_PS p) (mean l) else s1

/-- DELAY_MEASURE: at every 1,024th boundary each link end sends 16 DELAY_REQ. T1 is this end's clock in ps. -/
def execDelayMeasure (s : State) : Res :=
  .next <|
    if s.tickCount % 1024 ≠ 0 then s
    else s.livePorts.foldl (fun s p =>
      let s1 := s.setPort p { s.port p with samples := [], awaiting := 16 }
      (List.range 16).foldl (fun s i => s.sendOn [p] (symbolOf 0x07 (leBytes 1 i ++ leBytes 8 (s.clk * 1000)))) s1) s

/-! ### FREEZE, THAW and FAIL_NOTICE (R680, R681) -/

/-- Forward a FREEZE or THAW once per ORIGIN and FID on every UP or SOLO port but the one it came on; answers whether
it is new here. -/
def State.forwardFrz (s : State) (p type : Nat) (b : List Byte) : State × Bool :=
  let key := (type, leAt b 2 2 % 512, leAt b 4 1)
  if s.ewb.seenFreeze.contains key then (s, false)
  else
    let s1 : State := { s with ewb := { s.ewb with seenFreeze := (key :: s.ewb.seenFreeze).take 128 } }
    let s2 := s1.sendOn (s1.livePorts.filter (· != p)) b
    ((s2.setFld F.FRZ_STATUS_ORIGIN key.2.1).setFld F.FRZ_STATUS_FID key.2.2, true)

/-- FREEZE_SYMBOL: forwarded once, and makes a freeze request of source 3. A module in TAP ignores it (R681, R742). -/
def execFreezeSymbol (p : Nat) (b : List Byte) (s : State) : Res :=
  .next <| s.onSymbol p 0x09 b fun s =>
    if s.portState p = 2 then s
    else
      let r := (s.bump F.EWB_CNT_FREEZE_RX_COUNT).forwardFrz p 0x09 b
      if r.2 then r.1.freezeReq 3 false else r.1

/-- THAW_SYMBOL: forwarded once, and thaws the module whatever froze it (R681, R748). -/
def execThawSymbol (p : Nat) (b : List Byte) (s : State) : Res :=
  .next <| s.onSymbol p 0x0A b fun s =>
    if s.portState p = 2 then s
    else
      let r := s.forwardFrz p 0x0A b
      if r.2 then r.1.thawReq 3 else r.1

/-- Forward a FAIL_NOTICE on the opposite port of its ring, on every plane, once per ORIGIN and NID (R680); answers
whether it is new here. -/
def State.forwardNotice (s : State) (p : Nat) (b : List Byte) : State × Bool :=
  let key := (leAt b 2 2 % 512, leAt b 4 1)
  if s.ewb.seenNotice.contains key then (s, false)
  else
    let s1 : State := { s with ewb := { s.ewb with seenNotice := (key :: s.ewb.seenNotice).take 256 } }
    let outs := s1.trainedPorts.filter (fun q => q % 4 == opposite p % 4)
    ((s1.sendOn outs b).bump F.EWB_CNT_NOTICE_RX_COUNT, true)

/-! ### Insertion and removal (R672 to R677) -/

/-- The window boundary first at least 4 ticks ahead; DIV 0 reads as 1,000 (R673). -/
def State.nextWindow (s : State) : Nat :=
  let d := if s.fld F.EWB_WINDOW_DIV = 0 then 1000 else s.fld F.EWB_WINDOW_DIV
  (s.tickCount + 4 + d - 1) / d * d

/-- The pending window, 0 none. -/
def State.pendingW (s : State) : Nat := s.pair R.EWB_PENDING_W_LO R.EWB_PENDING_W_HI

/-- Hold window `w` of a kind for the gap on this ring and direction. -/
def State.holdWindow (s : State) (w kind ring dir : Nat) (own enter : Bool) : State :=
  let s1 := s.setPair R.EWB_PENDING_W_LO R.EWB_PENDING_W_HI w
  { s1 with ewb := { s1.ewb with winKind := kind, winRing := ring, winDir := dir, winOwn := own, winEnter := enter, winAt := w } }

/-- The UP ports of a ring and direction (0 toward +, 1 toward −), on every plane. -/
def State.gapPorts (s : State) (ring dir : Nat) : List Nat :=
  (List.range 16).filter (fun p => s.portState p == 4 && p % 4 == 2 * ring + dir)

/-- The ANNOUNCE symbol for a port (Table 19-4). -/
def State.announceOn (s : State) (p kind : Nat) : State :=
  s.sendOn [p] (symbolOf 0x0C (leBytes 1 (kind + 4 * portRing p + 8 * portSite p) ++
    leBytes 2 (s.fld F.EWB_DOMAIN_DOMAIN_ID) ++ leBytes 2 s.address ++ leBytes 2 (s.peer p) ++ leBytes 4 s.pendingW))

/-- At a tick boundary before W the module that asked for the window sends ANNOUNCE (R673, R676). -/
def State.announceBoundary (s : State) : State :=
  if !s.ewb.winOwn || s.pendingW == 0 || s.pendingW ≤ s.tickCount then s
  else
    let ps := if s.ewb.winKind = 1 then s.gapPorts s.ewb.winRing s.ewb.winDir
      else (List.range 16).filter (fun p => s.portState p == 4)
    ps.foldl (fun s p => s.announceOn p s.ewb.winKind) s

/-- EWB_ADMIT: a write of EWB_ADMIT with GO announces an admission window (R673), or is ignored and flagged (R677). -/
def execEwbAdmit (v : Word) (s : State) : Res :=
  .next <|
    let ring := bitOf v.toNat 1
    let dir := bitOf v.toNat 0
    if !tst v.toNat 31 then s
    else if s.insertion ≠ 4 ∨ (s.gapPorts ring dir).isEmpty ∨ s.pendingW ≠ 0 then s.setFld F.EWB_STATUS_ADMIT_REFUSED 1
    else s.holdWindow s.nextWindow 1 ring dir true false

/-- EWB_REMOVE: a write of EWB_REMOVE with GO announces a removal window and leads to LEAVING (R672, R676), or is ignored
and flagged (R677). -/
def execEwbRemove (v : Word) (s : State) : Res :=
  .next <|
    if !tst v.toNat 0 then s
    else if s.insertion ≠ 4 ∨ s.pendingW ≠ 0 then s.setFld F.EWB_STATUS_ADMIT_REFUSED 1
    else (s.holdWindow s.nextWindow 2 0 0 true false).setFld F.EWB_STATUS_INSERT 5

/-- The 64-bit count at or after now whose low 32 bits are `lo`. -/
def State.expandW (s : State) (lo : Nat) : Nat :=
  let w := s.tickCount / 2 ^ 32 * 2 ^ 32 + lo
  if w < s.tickCount then w + 2 ^ 32 else w

/-- A waiting module accepts an ANNOUNCE admit heard on tap `p` (R674). -/
def State.announceFits (s : State) (p : Nat) (b : List Byte) : Bool :=
  let k := leAt b 1 1
  let ring := bitOf k 2
  let a := leAt b 4 2 % 512
  let e := leAt b 6 2 % 512
  let other := 1 - ring
  leAt b 2 2 == s.fld F.EWB_DOMAIN_DOMAIN_ID && bitsOf k 4 3 == portSite p && ring == portRing p &&
    strictlyBetween (s.ringSize ring) (posOf a ring) (posOf e ring) (posOf s.address ring) (p % 2 == 1) &&
    posOf a other == posOf s.address other && posOf e other == posOf s.address other

/-- ANNOUNCE: a waiting module is granted the window, or ignores the announcement and flags it (R672, R674); a module
in the ring adopts the window unless it holds an earlier one (R673). -/
def execAnnounce (p : Nat) (b : List Byte) (s : State) : Res :=
  .next <| s.onSymbol p 0x0C b fun s =>
    let kind := bitsOf (leAt b 1 1) 1 0
    let w := s.expandW (leAt b 8 4)
    if s.portState p = 2 then
      if s.insertion = 1 ∧ kind = 1 then
        if s.announceFits p b then (s.holdWindow w 1 (portRing p) (p % 2) false true).setFld F.EWB_STATUS_INSERT 2
        else s.setFld F.EWB_STATUS_REFUSED_SEEN 1
      else s
    else if s.portState p = 4 ∧ (kind = 1 ∨ kind = 2) ∧ (s.pendingW = 0 ∨ w < s.pendingW) then
      s.holdWindow w kind (portRing p) (p % 2) false false
    else s

/-- Pause port `p` for the window held (R673). -/
def State.pausePort (s : State) (p : Nat) : State :=
  let s1 := (s.goPort p 5).setPort p { s.port p with pauseTx := true, drainTx := false, drainRx := 0 }
  (s1.sendOn [p] (symbolOf 0x0D (0 :: leBytes 4 s.ewb.winAt))).drainCheck p

/-- INSERTION_WINDOW: at W the border modules pause and drain; a leaving module pauses every UP port and sends
FAIL_NOTICE with cause REMOVED (R673, R676). -/
def execInsertionWindow (s : State) : Res :=
  .next <|
    if s.pendingW = 0 ∨ s.tickCount < s.pendingW ∨ s.frozen then s
    else
      let s1 := s.setPair R.EWB_PENDING_W_LO R.EWB_PENDING_W_HI 0
      if s.ewb.winEnter then s1
      else if s.insertion = 5 then
        let s2 := ((List.range 16).filter (fun p => s1.portState p == 4)).foldl State.pausePort s1
        s2.failNotice 4 s2.trainedPorts 0 0
      else (s1.gapPorts s.ewb.winRing s.ewb.winDir).foldl State.pausePort s1

/-- PAUSE: noted; DRAINED follows once every flit sent is acknowledged (R673). -/
def execPause (p : Nat) (b : List Byte) (s : State) : Res :=
  .next <| s.onSymbol p 0x0D b fun s =>
    if leAt b 2 4 ≠ s.ewb.winAt % 2 ^ 32 ∨ s.portState p = 2 then s
    else (s.setPort p { s.port p with pauseRx := true }).drainCheck p

/-- Raise BYP_READY and go to ENTERING; the ports whose taps carry a stream must come up (R672). -/
def State.enterRing (s : State) : State :=
  let s1 := (s.setFld F.EWB_STATUS_BYP_READY 1).setFld F.EWB_STATUS_INSERT 3
  (List.range 16).foldl (fun s p =>
    let x := s.port p
    s.setPort p { x with needUp := x.stream && s.portState p == 2 }) s1

/-- Drive BYP_READY low and be OUT (R672). -/
def State.leaveRing (s : State) : State :=
  ((s.setFld F.EWB_STATUS_BYP_READY 0).setFld F.EWB_STATUS_INSERT 0).setPair R.EWB_PENDING_W_LO R.EWB_PENDING_W_HI 0

/-- DRAINED: heard on every tap that carries a stream it lets a granted module enter (R672); a leaving module goes out
after the last one (R676). -/
def execDrained (p : Nat) (b : List Byte) (s : State) : Res :=
  .next <| s.onSymbol p 0x0E b fun s =>
    if leAt b 2 4 ≠ s.ewb.winAt % 2 ^ 32 then s
    else
      let s1 := s.setPort p { s.port p with drainRx := 1 }
      if s1.insertion = 2 ∧
          (List.range 16).all (fun q => !(s1.portState q == 2 && (s1.port q).stream) || (s1.port q).drainRx != 0) then s1.enterRing
      else if s1.insertion = 5 ∧ (List.range 16).all (fun q => s1.portState q != 5 || (s1.port q).drainRx != 0) then s1.leaveRing
      else s1

/-- TAP_SILENT_ENTRY: no tap has carried a stream for 10 ms, so the waiting module enters at once (R672). -/
def execTapSilentEntry (s : State) : Res :=
  .next <|
    if s.insertion ≠ 1 ∨ s.frozen then s
    else ((List.range 16).foldl (fun s p => s.setPort p { s.port p with stream := false }) s).enterRing

/-- Entry fails: BYP_READY low, logged, OUT (R672). -/
def State.entryFail (s : State) : State := s.leaveRing.log 0x0B03 3 0 0xFFFF 0 s.ewb.winAt

/-- Once every port whose tap carried a stream is UP, the module is IN (R672). -/
def State.enterCheck (s : State) : State :=
  if s.insertion = 3 ∧ (List.range 16).all (fun p => !(s.port p).needUp || s.portState p == 4) then
    s.setFld F.EWB_STATUS_INSERT 4
  else s

/-- ENTRY_TIMEOUT: a port that must come up is not UP within 5 ms of entry (R672). -/
def execEntryTimeout (s : State) : Res :=
  .next <|
    if s.insertion = 3 ∧ (List.range 16).any (fun p => (s.port p).needUp && s.portState p != 4) then s.entryFail else s

/-- WINDOW_ABANDON: 1 ms after W a border module still has its old peer: it resumes traffic, logs and flags it; a waiting
module that missed W waits again (R675). -/
def execWindowAbandon (s : State) : Res :=
  .next <|
    if s.insertion = 2 then s.setFld F.EWB_STATUS_INSERT 1
    else
      let ps := (List.range 16).filter (fun p => s.portState p == 5)
      if ps.isEmpty then s
      else
        let s1 := ps.foldl (fun s p =>
          (s.goPort p 4).setPort p { s.port p with pauseRx := false, pauseTx := false, drainTx := false, drainRx := 0 }) s
        (s1.setFld F.EWB_STATUS_ABANDONED 1).log 0x0B02 2 0 0xFFFF 0 s.ewb.winAt

/-! ### Link states and training (R665 to R668, Table 19-6) -/

/-- Lanes of a width: width code 0 eight, 1 four, 2 two, from the mask of lanes that hold lock (R666). -/
def widthOf (mask : Nat) : Option Nat :=
  if Nat.land mask 0xFF = 0xFF then some 0
  else if Nat.land mask 0x0F = 0x0F ∨ Nat.land mask 0xF0 = 0xF0 then some 1
  else if Nat.land mask 0x03 = 0x03 then some 2
  else none

/-- LEG_TRAIN_END: leg training against the own element ends, or fails at 100 ms (R665). Trained legs make an OUT module
wait for a grant (R672). -/
def execLegTrainEnd (p : Nat) (ok : Bool) (s : State) : Res :=
  .next <|
    if s.portState p ≠ 1 then s
    else if ok then
      let s1 := (s.setPort p { s.port p with leg := true }).goPort p (if s.bypReady then 3 else 2)
      if s1.insertion = 0 then s1.setFld F.EWB_STATUS_INSERT 1 else s1
    else s.goPort p 6

/-- The link's two ends lie in different racks (R682). -/
def State.rackEdge (s : State) (p peer : Nat) : Bool :=
  let n := s.fld F.EWB_RACK_RACK_TRAYS
  n != 0 && portRing p == 1 && posOf s.address 1 / n != posOf peer 1 / n

/-- TRAIN_HELLO: a TRAIN HELLO arrives on a port in LINK_TRAIN and is answered with this end's (R666); `lanes` is the
mask of lanes that hold lock here. -/
def execTrainHello (p : Nat) (b : List Byte) (lanes : Nat) (s : State) : Res :=
  .next <| s.onSymbol p 0x10 b fun s =>
    if s.portState p ≠ 3 then s
    else
      let h := [leAt b 1 2 % 512, leAt b 3 1, leAt b 4 1, leAt b 5 2, leAt b 7 1, leAt b 8 1, leAt b 9 1 % 2, leAt b 10 1]
      let own := symbolOf 0x10 (leBytes 2 s.address ++ leBytes 1 (portSite p) ++ leBytes 1 (portRole p) ++
        leBytes 2 (s.fld F.EWB_DOMAIN_DOMAIN_ID) ++ leBytes 1 s.ySize ++ leBytes 1 (s.fld F.EWB_RACK_RACK_TRAYS) ++
        leBytes 1 (s.fld (F.EWB_P_CTRL_FORCE_CRYPT p)) ++ leBytes 1 lanes)
      (s.setPort p { s.port p with hello := some h }).sendOn [p] own

/-- TRAIN_KEY: a TRAIN KEY chunk (TYPE 0x11 to 0x18) of the peer's IK_PUB and contribution arrives; this end sends its
own chunk, whose contribution bytes are random, so free (R683). -/
def execTrainKey (p : Nat) (b : List Byte) (s : State) : Res :=
  .next <|
    let i := leAt b 0 1 - 0x11
    if leAt b 0 1 < 0x11 ∨ 0x18 < leAt b 0 1 then s.symBad p
    else s.onSymbol p (leAt b 0 1) b fun s =>
      if s.portState p ≠ 3 then s
      else
        let x := s.port p
        let s1 := s.setPort p { x with keyChunks := (i, sliceOf b 1 14) :: x.keyChunks }
        let own := sliceOf (fitTo 96 s.fused.ikPub ++ s.freeBytes 8) (14 * i) 14
        (s1.drawnN 8).sendOn [p] (symbolOf (0x11 + i) own)

/-- The first check of Table 19-6 that refuses the link, as its refusal code; 0 none. -/
def State.refusal (s : State) (p : Nat) (h : List Nat) (r : LinkResult) (crypt : Bool) : Nat :=
  let peer := h.getD 0 0
  let expect := (List.range 12).map (fun i => s.reg (R.EWB_P_EXPECT p i))
  let got := (List.range 12).map (fun i => BitVec.ofNat 32 (leAt r.peerDigest (4 * i) 4))
  let sameOther := if portRing p = 0 then posOf peer 1 == posOf s.address 1 else posOf peer 0 == posOf s.address 0
  let width := match widthOf r.lanes, widthOf (h.getD 7 0) with | some a, some c => some (max a c) | _, _ => none
  if h.getD 3 0 ≠ s.fld F.EWB_DOMAIN_DOMAIN_ID then 1
  else if h.getD 1 0 ≠ portSite p ∨ h.getD 2 0 ≠ opposite (portRole p) ∨ ¬ sameOther then 2
  else if peer = s.address then 3
  else if h.getD 4 0 ≠ s.ySize ∨ h.getD 5 0 ≠ s.fld F.EWB_RACK_RACK_TRAYS then 4
  else if s.bit (F.EWB_P_CTRL_EXPECT_EN p) ∧ expect ≠ got then 5
  else if crypt ∧ ¬ r.keyOk then 6
  else if crypt ∧ s.bit F.SEC_STATUS_RNG_FAIL then 7
  else match width with
    | some w => if s.fld (F.EWB_P_CTRL_MIN_WIDTH p) < w then 8 else 0
    | none => 8

/-- The link comes up (or meets this module itself, SOLO): peer, width, encryption, delay, fresh credits and SEQs. -/
def State.linkUp (s : State) (p st : Nat) (h : List Nat) (r : LinkResult) (crypt : Bool) : State :=
  let w := match widthOf r.lanes, widthOf (h.getD 7 0) with | some a, some c => max a c | _, _ => 2
  let s1 := (((s.goPort p st).setFld (F.EWB_P_STATUS_PEER p) (h.getD 0 0)).setFld (F.EWB_P_STATUS_WIDTH p) w).setFld
    (F.EWB_P_STATUS_REFUSE p) 0
  let s2 := ((s1.setBit (F.EWB_P_STATUS_ENCRYPTED p) crypt).setBit (F.EWB_P_STATUS_RACK_EDGE p) (s.rackEdge p (h.getD 0 0))).setFld
    (F.EWB_P_DELAY_PS p) (mean r.samples)
  let s3 := (List.range 12).foldl (fun s i => s.setReg (R.EWB_P_PEER_DIGEST p i) (BitVec.ofNat 32 (leAt r.peerDigest (4 * i) 4))) s2
  let x := s3.port p
  s3.setPort p { x with
    creditRx := [0, 0, 0, 0], sentVc := [0, 0, 0, 0], freedVc := [0, 0, 0, 0], txSeq := 0, rxSeq := 0, replay := []
    nakRun := 0, keyed := crypt, pauseRx := false, pauseTx := false, drainTx := false, drainRx := 0 }

/-- LINK_TRAIN_END: LINK_TRAIN completes to UP or SOLO, is refused by a check of Table 19-6, or times out to DOWN (R665,
R666, R685). -/
def execLinkTrainEnd (p : Nat) (r : LinkResult) (s : State) : Res :=
  .next <|
    if s.portState p ≠ 3 then s
    else
      let h := (s.port p).hello.getD []
      let own := (List.range 12).map (fun i => s.readReg (R.SEC_IK_DIGEST i))
      let got := (List.range 12).map (fun i => BitVec.ofNat 32 (leAt r.peerDigest (4 * i) 4))
      let crypt := s.rackEdge p (h.getD 0 0) || s.bit (F.EWB_P_CTRL_FORCE_CRYPT p) || h.getD 6 0 == 1
      if !r.complete then s.goPort p 6
      else if own = got then (s.linkUp p 7 h r false).enterCheck
      else
        match s.refusal p h r crypt with
        | 0 =>
          let s1 := s.linkUp p 4 h r crypt
          let s2 : State := if crypt then { s1 with ewb := { s1.ewb with
            zCache := (r.peerDigest :: s1.ewb.zCache.filter (· != r.peerDigest)).take 8 } } else s1
          s2.enterCheck
        | c =>
          let s1 := ((s.goPort p 8).setFld (F.EWB_P_STATUS_REFUSE p) c).setFld F.EWB_STATUS_REFUSED_SEEN 1
          let s2 := if c = 3 then s1.setFld F.EWB_STATUS_DUP_SEEN 1 else s1
          let s3 := if c = 6 then s2.setFld F.SEC_CRYPTO_LAST_REQUESTER 4 else s2
          if s3.insertion = 3 ∧ (s3.port p).needUp then s3.entryFail else s3

/-- PORT_RETRY_TIMER: a DOWN port retries training every 1 ms, a REFUSED one after 1 s; `legLost` says that a leg lost
lock (R665). -/
def execPortRetryTimer (p : Nat) (legLost : Bool) (s : State) : Res :=
  .next <|
    if s.portState p = 6 then
      if legLost ∨ ¬ (s.port p).leg then (s.setPort p { s.port p with leg := false }).goPort p 1 else s.goPort p 3
    else if s.portState p = 8 then s.goPort p 3
    else s

/-- ELEMENT_STATE_CHANGE: the port's own bypass element opens or closes (R665). -/
def execElementStateChange (p : Nat) (opened : Bool) (s : State) : Res :=
  .next <|
    let s1 := s.setPort p { s.port p with elemOpen := opened }
    if opened then (if s1.portState p = 2 then (s1.goPort p 3).enterCheck else s1)
    else if [4, 5, 6, 7].contains (s1.portState p) then
      let s2 := (s1.goPort p 2).setPort p { s1.port p with stream := false, replay := [], txq := [] }
      if s2.insertion = 0 ∧ (s2.port p).leg then s2.setFld F.EWB_STATUS_INSERT 1 else s2
    else s1

/-- PEER_STREAM_APPEAR: a stream from another module appears on a SOLO port, or a REFUSED port's stream changes (R665);
on a tap it is noted (R672). -/
def execPeerStreamAppear (p : Nat) (s : State) : Res :=
  .next <|
    if s.portState p = 7 ∨ s.portState p = 8 then s.goPort p 3 else s.heardOn p

/-- A port goes DISABLED, from any state (Table 19-1). -/
def State.portDisable (s : State) (p : Nat) : State :=
  (s.goPort p 0).setPort p { s.port p with leg := false, replay := [], txq := [] }

/-- PORT_CTRL_WRITE: a write of EWB_P_CTRL sets its fields; ENABLE 0 disables the port, ENABLE 1 on a disabled usable
port begins leg training (R665). -/
def execPortCtrlWrite (p : Nat) (v : Word) (s : State) : Res :=
  .next <|
    if 16 ≤ p ∨ s.fused.ioType.getD (portSite p) 0 ≠ 1 then s
    else
      let w := v.toNat
      let s1 := s.setReg (R.EWB_P_CTRL p) (BitVec.ofNat 32 (Nat.land w 0xCF))
      if !tst w 0 then s1.portDisable p
      else if s1.portState p = 0 ∧ s1.portUsable p then s1.goPort p 1
      else s1

/-! ### Markers at a boundary (R671) -/

/-- The HOLDOVER flag this module sends. -/
def State.markHoldover (s : State) : Bool :=
  let st := s.fld F.TCK_STATUS_STATE
  st == 2 || st == 3 || (!s.bit F.TCK_CONFIG_ROLE && (s.refOf s.followed).holdover)

/-- TICK_MARKER_SEND: every port with MARKER_OUT whose state is UP or SOLO sends MARKER, MARKER_TIME and, while a period
change is pending, MARKER_NEXT. OFFSET is the time to the departure, which the spec bounds and does not fix: a free
value. -/
def State.markersSend (s : State) : State :=
  let role := s.bit F.TCK_CONFIG_ROLE
  let hops := if role then 0 else s.tick.pri.hops + 1
  let pend := s.bit F.TCK_STATUS_PERIOD_PENDING
  let flags := b2n s.markHoldover + 2 * b2n s.timeValid + 4 * b2n pend
  let master := if role then s.address else (s.reg R.TCK_MASTER_ID).toNat % 512
  ((s.livePorts.filter (fun p => s.bit (F.EWB_P_CTRL_MARKER_OUT p))).foldl (fun s p =>
    let m := symbolOf 0x04 (leBytes 1 flags ++ leBytes 2 (master + 512 * (hops % 128)) ++ leBytes 2 (s.free).toNat ++ leBytes 8 s.tickCount)
    let t := symbolOf 0x05 (0 :: leBytes 8 s.tickTime ++ leBytes 4 (s.fld F.TCK_PERIOD_PERIOD))
    let n := symbolOf 0x06 (0 :: leBytes 8 (s.pair R.TCK_NEXT_AT_LO R.TCK_NEXT_AT_HI) ++ leBytes 4 (s.fld F.TCK_NEXT_PERIOD_PERIOD))
    let s1 := (s.sendOn [p] m).sendOn [p] t
    (if pend then s1.sendOn [p] n else s1).drawn) s)

end Sys2Proof.Machine
end

