-- ==== Sys2Proof/Machine/Boot.lean ====
section
/-! DEFINITION. The boot steps (chapter 03, R87 to R108): how a step ends, what it leaves in the boot record, the BOOT_
registers and the part, and how the next one begins. -/

namespace Sys2Proof.Machine

/-! ### The units of a step -/

/-- Unit `u`'s counter byte at this start. -/
def State.ctr (s : State) (u : Nat) : Nat := fget (fun _ => 0) s.boot.counters u

/-- The running step tries unit `u` (R98, R100). -/
def State.tries (s : State) (u : Nat) : Bool :=
  s.fitted u && !ctrSkip (s.ctr u) && !ctrFenced (s.ctr u) && !blockedBy (fun v => tst s.boot.downMask v) u

/-- A tried unit of step `n` has failed (R90). `fails` names the units that had not passed when the step ended. A port
has failed when it is enabled and its legs have not trained (R668); the NOR device, also when the recorder had stopped
programming (R715); the tick unit, when the tick does not run. -/
def State.unitFails (s : State) (n fails u : Nat) : Bool :=
  match n with
  | 6 => s.bit (F.EWB_P_CTRL_ENABLE (u - 18)) && !(s.port (u - 18)).leg
  | 8 => tst fails u || decide (8 ≤ s.evr.norFails)
  | 9 => !s.tick.running
  | _ => tst fails u

/-- The units that the step tried, and those of them that failed. -/
def State.triedIn (s : State) (n : Nat) : List Nat := (stepUnits n).filter s.tries
def State.failedNow (s : State) (n fails : Nat) : List Nat := (s.triedIn n).filter (s.unitFails n fails)

/-- OUTCOME of the step (Table 03-9). -/
def State.outcomeOf (s : State) (n fails : Nat) : Nat :=
  let t := s.triedIn n
  let f := s.failedNow n fails
  if t.isEmpty then (if (stepUnits n).any s.fitted then 5 else 1)
  else if f.length = t.length then 4
  else if !f.isEmpty then 3
  else if [1, 2, 3, 4, 5, 7].contains n && t.any (fun u => ctrLevel (s.ctr u) != 0) then 2
  else 1

/-- The outcome that BOOT_OUTCOME shows for step `n`. -/
def State.outcomeReg (s : State) (n : Nat) : Nat :=
  if n = 9 then s.fld F.BOOT_OUTCOME_HI_STEP9 else bitsOf (s.reg R.BOOT_OUTCOME_LO).toNat (4 * n - 1) (4 * n - 4)

/-- Show the outcome of step `n`. -/
def State.setOutcome (s : State) (n o : Nat) : State :=
  if n = 9 then s.setFld F.BOOT_OUTCOME_HI_STEP9 o
  else s.setReg R.BOOT_OUTCOME_LO (BitVec.ofNat 32 (setBits (s.reg R.BOOT_OUTCOME_LO).toNat (4 * n - 1) (4 * n - 4) o))

/-- Steps 1 and 2 have passed (R105). -/
def State.stepPassed (s : State) (n : Nat) : Bool := s.outcomeReg n == 1 || s.outcomeReg n == 2

/-! ### What every step leaves -/

/-- The step used saved training parameters (Table 03-9, FLAGS). -/
def State.usedSaved (s : State) (n : Nat) : Bool :=
  decide (4 ≤ n ∧ n ≤ 6) && s.fld F.BOOT_STATUS_START_KIND != 1 && (s.triedIn n).any (fun u => tst s.boot.saved u)

/-- Program the rest of the step's record (R107, Table 03-9). -/
def State.programStep (s : State) (n fails : Nat) : State :=
  if !s.boot.entryOk then s
  else
    let us := min ((s.runClk - s.boot.stepClk) / 1000) 0xFFFFFFFF
    let mask := (s.failedNow n fails).foldl (fun m u => m + 2 ^ failBit u) 0
    s.norProgram (s.boot.entryAt + 16 * n + 1) (leBytes 1 (s.outcomeOf n fails) ++
      leBytes 1 (b2n (s.usedSaved n) + 2 * b2n s.boot.stepFrozen) ++ leBytes 1 0 ++ leBytes 4 us ++ leBytes 8 mask)

/-- The crypto status of a step 2 failure: SCALAR_ZERO or SCALAR_GE_N, and KAT_FAIL for every other cause (R284). -/
def step2Status (crypto : Nat) : Nat := if crypto = 1 ∨ crypto = 2 then crypto else 0x0E

/-- A unit fails at step `n`: logged, and fenced when its count reaches 3 (R101, R102, R103, Table 21-5). -/
def State.failUnit (n crypto : Nat) (s : State) (u : Nat) : State :=
  let s1 := s.log 0x0301 3 0 (codeOf u) n (if n = 2 then step2Status crypto else 0)
  let s2 := if n = 2 then s1.log 0x0601 4 0 0xFFFF (step2Status crypto) 0 else s1
  let c := s2.ctr u
  let s3 : State := { s2 with boot := { s2.boot with
    downMask := putBit s2.boot.downMask u true, failMask := putBit s2.boot.failMask u true } }
  if ctrCount c < 2 || neverFenced u then s3
  else
    let s4 : State := { s3 with boot := { s3.boot with counters := fset (fun _ => 0) s3.boot.counters u (putBit c 5 true) } }
    (s4.appendFence 1 1 (codeOf u) n 3 0x0301).log 0x0302 3 0 (codeOf u) 0 0

/-- Training parameters of the step's units are held from its success on (Table 03-6). -/
def State.keepParams (s : State) (n fails : Nat) : State :=
  if 4 ≤ n ∧ n ≤ 6 then
    let f := s.failedNow n fails
    { s with boot := { s.boot with
      saved := (s.triedIn n).foldl (fun m u => putBit m u (!f.contains u)) s.boot.saved } }
  else s

/-- The BOOT_FAIL_ registers (Table 03-13). -/
def State.failRegs (s : State) : State :=
  let failed := fun u => tst s.boot.failMask u
  let fenced := fun u => ctrFenced (s.ctr u)
  let skipped := fun u => ctrSkip (s.ctr u)
  let ports := maskOf 16 (fun p => failed (18 + p) || skipped (18 + p))
  let stks := maskOf 8 (fun k => failed (3 + k) || fenced (3 + k))
  let links := maskOf 7 (fun l => failed (11 + l) || fenced (11 + l) || (decide (3 ≤ l) && skipped (11 + l)))
  let camp := maskOf 2 (fun d => failed (84 + d) || skipped (84 + d))
  let cmn := maskOf 2 (fun d => failed (34 + d) || fenced (34 + d))
  let cl := maskOf 48 (fun c => failed (36 + c) || fenced (36 + c))
  let s1 := ((s.setFld F.BOOT_FAIL_A_EWB_PORTS ports).setFld F.BOOT_FAIL_A_STACKS stks).setFld F.BOOT_FAIL_A_LINKS links
  let s2 := (s1.setFld F.BOOT_FAIL_B_CAMPION camp).setFld F.BOOT_FAIL_B_COMMONS cmn
  (s2.setFld F.BOOT_FAIL_B_CLUSTERS_47_32 (cl / 2 ^ 32)).setFld F.BOOT_FAIL_C_CLUSTERS_31_0 cl

/-- The part of a step's end that every step shares: its record, the registers, each failed unit. -/
def State.recordStep (s : State) (n fails crypto : Nat) : State :=
  let f := s.failedNow n fails
  let s1 := ((s.programStep n fails).setOutcome n (s.outcomeOf n fails)).keepParams n fails
  (f.foldl (State.failUnit n crypto) s1).failRegs

/-! ### What each step does -/

/-- Store words of a byte string in a run of registers. -/
def State.setWords (s : State) (r : Nat → Nat) (n : Nat) (b : List Byte) : State :=
  (List.range n).foldl (fun s i => s.setReg (r i) (BitVec.ofNat 32 (leAt b (4 * i) 4))) s

/-- Step 2 passed: self-test bits, key and digest registers, KEYS_VALID (R284, Table 08-17). -/
def State.keysLoad (s : State) (alt : Bool) : State :=
  let s1 := ((s.setFld F.SEC_STATUS_SELFTEST_PASS 1).setBit F.SEC_STATUS_SELFTEST_ALT alt).setFld F.SEC_STATUS_KEYS_VALID 1
  let s2 := (s1.setWords R.SEC_IK_PUB 24 (fitTo 96 s.fused.ikPub)).setWords R.SEC_BK_PUB 24 (fitTo 96 s.fused.bkPub)
  (s2.setWords R.SEC_IK_DIGEST 12 s.ikDigest).setWords R.SEC_BK_DIGEST 12 s.bkDigest

/-- Step 6 begins: every enabled port that it tries begins leg training (R665). -/
def State.portsTrain (s : State) : State :=
  ((List.range 16).filter (fun p => s.tries (18 + p) && s.bit (F.EWB_P_CTRL_ENABLE p))).foldl (fun s p => s.goPort p 1) s

/-- Step 7 ends: commons, register files, near memories and the exchange memory are zero (R96). -/
def State.zeroAll (s : State) : State :=
  { s with
    mem := { s.mem with cmn := [] }
    yar := {}
    exm := { s.exm with mem := [], ue := [], acq := [] } }

/-- The recorder's part of step 8: the mount, or the buffer alone where the device failed or was skipped (R727). -/
def State.mountStep (s : State) (up : Bool) : State :=
  let s1 : State := { s with evr := { s.evr with norFails := 0, norDead := !up } }
  if up then s1.mount else s1.setFld F.EVR_STATUS_MOUNTED 0

/-- Step 8 ends: usable bits, service or diagnostic-only, configuration-ready (R19, R91, R93, R105). -/
def State.configReadyNow (s : State) : State :=
  let s1 := s.refreshUsable
  let s2 := s1.setBit F.BOOT_STATUS_DIAG_ONLY (!(s1.serviceable && s1.stepPassed 1 && s1.stepPassed 2))
  let s3 := s2.setFld F.BOOT_READY_TIME_MS (min ((s2.clk - s2.pwr.releaseClk) / 1000000) 65535)
  { s3 with boot := { s3.boot with configReady := true } }.emit .readiness

/-- Step 9 ends, and the start with it: DIAG_ONLY on a failure, STEP 0xA, END, and the sector after the entry's erased
unless it is blank (R94, R105, R107, R108). -/
def State.bootEnd (s : State) : State :=
  let s1 := (if s.stepPassed 9 then s else s.setFld F.BOOT_STATUS_DIAG_ONLY 1).setFld F.BOOT_STATUS_STEP 0xA
  if !s1.boot.entryOk then s1
  else
    let s2 := s1.norProgram (s1.boot.entryAt + 0xFC) (leBytes 4 (1 + s1.fld F.BOOT_STATUS_DIAG_ONLY))
    let next := ((s2.boot.entryAt - 0x1C00000) / 4096 + 1) % 16
    if s2.bootSectorBlank (16 * next) then s2 else s2.norErase (bootSlot (16 * next)) 4096

/-- What the end of step `n` does to the part; `up` says that the step's single unit, if it has one, was tried and
passed. -/
def State.stepEffect (s : State) (n : Nat) (up : Bool) : State :=
  match n with
  | 2 => if up then s.keysLoad (ctrLevel (s.ctr 1) != 0) else s
  | 3 => if up then s.setFld F.BOOT_STATUS_PCIE_WIDTH (ctrLevel (s.ctr 2)) else s
  | 7 => s.zeroAll
  | 8 => (s.mountStep up).configReadyNow
  | 9 => s.bootEnd
  | _ => s

/-- The step after `n` begins: step 3 waits for the release of PERST_N (R89), step 6 trains the ports, step 9 finds the
tick running or starts tick acquire (R95). -/
def State.nextStep (s : State) (n : Nat) : State :=
  match n with
  | 9 => s
  | 2 => if s.pwr.perst then { s with boot := { s.boot with waitPerst := true } } else s.beginStep 3
  | 5 => (s.beginStep 6).portsTrain
  | 8 => if s.tick.running || !s.tries 87 then s.beginStep 9 else (s.beginStep 9).acquireStart
  | _ => s.beginStep (n + 1)

/-- BOOT_STEP_END: the running step ends, all of its units having passed or its bound having expired. `fails` names, as a
mask, the units that have not passed, and `crypto` the status of a step 2 failure (R90, R94 to R108, R284). -/
def execBootStepEnd (fails crypto : Nat) (s : State) : Res :=
  .next <|
    let n := s.fld F.BOOT_STATUS_STEP
    if s.frozen || decide (9 < n) || n == 0 || s.boot.waitPerst || s.pwr.mode != .on then s
    else
      let up := !(s.triedIn n).isEmpty && (s.failedNow n fails).isEmpty
      ((s.recordStep n fails crypto).stepEffect n up).nextStep n

/-- PERST_N_RELEASE: the host releases PERST_N; step 3 begins once step 2 has ended (R89). Boundary scan no longer drives
the pins (Table 22-5). -/
def execPerstNRelease (s : State) : Res :=
  .next <|
    if !s.pwr.perst then s
    else
      let s1 : State := { s with
        pwr := { s.pwr with perst := false, releaseClk := s.clk }, frz := { s.frz with pinMode := 0 } }
      if s1.boot.waitPerst && !s1.frozen then s1.beginStep 3 else s1

/-- TICK_ACQUIRE_LISTEN_END: tick acquire stops listening, chooses role, sources and period, and starts the tick (R52); a
TICK_REACQUIRE job ends with it (R197). -/
def execTickAcquireListenEnd (s : State) : Res := .next s.listenEnd.reacquired

end Sys2Proof.Machine
end

