-- ==== Sys2Proof/Machine/Campion.lean ====
section
/-! DEFINITION. Campion, the spiking event fabric (chapter 17): grants, commands, runs and tokens. What converters see of an
EMIT stands here too (R641 to R643). -/

namespace Sys2Proof.Machine

/-! ### Dies, cores, the area -/

def State.modDie (s : State) (d : Nat) (f : CampDie → CampDie) : State :=
  { s with cmp := { s.cmp with dies := fmod (fun _ => ({} : CampDie)) s.cmp.dies d f } }
def State.core (s : State) (k : Nat) : Core := fget (fun _ => ({} : Core)) s.cmp.cores k
def State.modCore (s : State) (k : Nat) (f : Core → Core) : State :=
  { s with cmp := { s.cmp with cores := fmod (fun _ => ({} : Core)) s.cmp.cores k f } }

/-- Neuron `i` of a core. -/
def Core.neuron (x : Core) (i : Nat) : Neuron := fget (fun _ => ({} : Neuron)) x.neurons i
def Core.setNeuron (x : Core) (i : Nat) (v : Neuron) : Core := { x with neurons := fset (fun _ => ({} : Neuron)) x.neurons i v }

/-- The VF die `d` is granted to. -/
def State.cmpVf (s : State) (d : Nat) : Nat := s.fld (F.CMP_GRANT_VF d)

/-- Slice address of area offset `x` of die `d` (R599). -/
def State.campAddr (s : State) (d x : Nat) : Nat := 0x10000000000 + 0x10000 * s.fld (F.CMP_GRANT_AREA d) + x

/-- What stops an access of `len` bytes at area offset `x`: none, an address outside the reservation, or poison. -/
def State.campCheck (s : State) (d x len : Nat) (write : Bool) : Option MemErr :=
  s.memCheck freshAgent (s.cmpVf d) (s.campAddr d x) len write false

def State.campBytes (s : State) (d x len : Nat) : List Byte := s.memBytes freshAgent (s.cmpVf d) (s.campAddr d x) len
def State.campLe (s : State) (d x len : Nat) : Nat := ofLe (s.campBytes d x len)
def State.campPut (s : State) (d x : Nat) (bs : List Byte) : State := s.memPut freshAgent (s.cmpVf d) (s.campAddr d x) bs

/-- Campion on die `d` is usable (R596). -/
def State.campUsable (s : State) (d : Nat) : Bool := s.bit (if d = 0 then F.CMP_STATUS_USABLE0 else F.CMP_STATUS_USABLE1)

/-- Campion works: the part is neither frozen nor in doze (R600, R620, R621). -/
def State.campLive (s : State) : Bool := !s.frozen && !s.pwr.doze && s.pwr.mode == .on

/-- Die `d` is RUNNING and works. -/
def State.campRuns (s : State) (d : Nat) : Bool := decide (d < 2) && s.campState d == 2 && s.campLive

/-! ### Faults (R622) -/

/-- Die `d` is FAULTED with this code: contained to its slice. The runs in progress are abandoned. -/
def State.campFault (s : State) (d code : Nat) : State :=
  let n := s.cmpVf d
  if s.campState d = 0 || n = 0 then s
  else
    let s1 := (s.setCamp d 3 code).setReg (R.CMP_FAULT d) (BitVec.ofNat 32 (n * 256 + code))
    let s2 := (s1.contained n 6 0 0 0).vfEvent n 2
    s2.log 0x0A02 3 n 0xFFFF d code

/-- The fault of an access that failed while the die runs: 4 outside the reservation, 3 poison. -/
def campCode (e : MemErr) : Nat := match e with | .address _ => 4 | .poison _ => 3

/-- CAMPION_FAULT: an uncorrectable error in neuron or program storage of a granted die (code 2), or another of Table 17-8
found while it works. -/
def execCampionFault (d code : Nat) (s : State) : Res :=
  if d < 2 && 1 ≤ code && code ≤ 4 then .next (s.campFault d code) else .next s

/-! ### The grant (R597) -/

/-- CMP_GRANT_WRITE: a write to CMP_GRANT[d]. -/
def execCmpGrantWrite (d : Nat) (value : Word) (s : State) : Res :=
  let vf := bitsOf value.toNat 5 0
  let area := bitsOf value.toNat 27 16
  if 2 ≤ d then .next s
  else if s.tenancy ≠ 2 || !s.campUsable d || (vf != 0 && (s.sliceState vf == 0 || s.sliceState vf == 6)) then
    .next (s.setFld F.CMP_STATUS_GRANT_REJECT 1)
  else if vf = s.cmpVf d && area == s.fld (F.CMP_GRANT_AREA d) then .next s
  else
    let s1 := (s.zeroCamp d).setReg (R.CMP_GRANT d) (BitVec.ofNat 32 (area * 65536 + vf))
    .next ((s1.setCamp d (if vf = 0 then 0 else 1) 0).log 0x0A01 1 vf 0xFFFF d 0)

/-! ### Tokens -/

/-- A BAD_DEST of die `d`. -/
def State.badDest (s : State) (d k : Nat) : State :=
  (s.modDie d (fun x => { x with badDest := sat32 (x.badDest + k) })).count (R.CMP_CNT_BAD_DEST d) k

/-- A token from its 8-byte entry (Table 17-5), and whether Reserved bits are zero. -/
def tokOf (w : Nat) : Tok := ⟨bitsOf w 18 0, bitsOf w 20 19, bitsOf w 28 21, bitsOf w 47 32⟩
def tokClean (w : Nat) : Bool := bitsOf w 31 29 == 0 && bitsOf w 63 48 == 0
def Tok.word (t : Tok) : Nat := t.dest + t.var * 2 ^ 19 + t.delay * 2 ^ 21 + t.weight * 2 ^ 32

/-- Core of a neuron address, and its die. -/
def Tok.coreOf (t : Tok) : Nat := t.dest / 1024
def Tok.dieOf (t : Tok) : Nat := t.dest / 262144

/-- A token of die `d` enters the mesh, unless its destination lies on a die not granted to the same VF (R611). -/
def State.intoMesh (s : State) (d : Nat) (t : Tok) : State :=
  let e := t.dieOf
  if s.cmpVf e = s.cmpVf d then s.modDie e (fun x => { x with mesh := x.mesh ++ [t] }) else s.badDest d 1

/-- A stored entry of die `d` becomes a token, if it passes the checks of R611. -/
def State.sendEntry (s : State) (d w : Nat) : State := if tokClean w then s.intoMesh d (tokOf w) else s.badDest d 1

/-! ### Commands (R600 to R604) -/

/-- End the command of die `d`: DONE_STATUS and DETAIL, then DONE_SEQ (R600). -/
def State.campDone (s : State) (d status detail : Nat) : State :=
  match (s.die d).cmd with
  | none => s
  | some w =>
    let s1 := s.modDie d (fun x => { x with cmd := none })
    if (s1.campCheck d 0x10 12 true).isSome then s1
    else ((s1.campPut d 0x14 (leBytes 1 status)).campPut d 0x18 (leBytes 4 detail)).campPut d 0x10 (sliceOf w 0 4)

/-- CAMPION_COMMAND_POLL: the interface reads CMD_SEQ; when it differs from DONE_SEQ it takes the command; an unknown CMD_OP
ends at once (R600, R601). -/
def execCampionCommandPoll (d : Nat) (s : State) : Res :=
  if 2 ≤ d || s.cmpVf d = 0 || !s.campLive || (s.die d).cmd.isSome || (s.campCheck d 0 0x14 false).isSome then .next s
  else if s.campLe d 0 4 = s.campLe d 0x10 4 then .next s
  else
    let w := s.campBytes d 0 16
    let s1 := s.modDie d (fun x => { x with cmd := some w })
    .next (if 1 ≤ leAt w 4 1 && leAt w 4 1 ≤ 6 then s1 else s1.campDone d 1 0)

/-- Cores a command names; the die of core k is k ÷ 256. -/
def cmdFirst (w : List Byte) : Nat := leAt w 6 2
def cmdCount (w : List Byte) : Nat := leAt w 8 2
def cmdSrc (w : List Byte) : Nat := leAt w 0xC 4

/-- Carry out the command in progress on die `d` when its CMD_OP is `op`: checks 2 to 4 of R601, then `f`. `states` are the
RUN_STATEs that permit it, `cores` says whether it names cores. -/
def State.campCmd (s : State) (d op : Nat) (states : List Nat) (cores : Bool) (f : List Byte → State → State) : Res :=
  match (if d < 2 && s.campLive then (s.die d).cmd else none) with
  | none => .next s
  | some w =>
    if leAt w 4 1 ≠ op then .next s
    else if leAt w 5 1 ≠ 0 || leAt w 0xA 2 != 0 then .next (s.campDone d 2 0)
    else if !states.contains (s.campState d) then .next (s.campDone d 3 0)
    else if cores && (cmdCount w == 0 || decide (cmdFirst w < 256 * d ∨ 256 * d + 256 < cmdFirst w + cmdCount w)) then
      .next (s.campDone d 4 0)
    else .next (f w s)

/-- A buffer of a command: 64-byte aligned, in the area and the reservation. Answers DONE_STATUS. -/
def State.campBuffer (s : State) (d off len : Nat) (write : Bool) : Nat :=
  if off % 64 ≠ 0 then 5
  else match s.campCheck d off len write with
    | some (.address _) => 5
    | some (.poison _) => 8
    | none => 0

/-- Operands that a micro-operation uses: X, Y, C. -/
def opUses (opc : Nat) : Bool × Bool × Bool :=
  match opc with
  | 0x01 => (true, false, true)
  | 0x02 => (true, false, true)
  | 0x04 => (true, true, false)
  | 0x05 => (true, false, true)
  | 0x06 => (true, false, true)
  | 0x07 => (true, true, false)
  | 0x08 => (true, false, true)
  | 0x09 => (true, false, true)
  | 0x0A => (true, false, true)
  | 0x0B => (true, false, true)
  | 0x0C => (true, false, true)
  | 0x0D => (true, true, false)
  | 0x0E => (true, false, true)
  | 0x11 => (true, false, true)
  | 0x12 => (true, false, false)
  | _ => (false, false, false)

/-- A micro-operation word is valid under Tables 17-4 and 17-6 in a program of `vars` variables. -/
def opWordOk (vars w : Nat) : Bool :=
  let opc := bitsOf w 31 26
  let u := opUses opc
  decide (opc ≤ 0x14) && bitsOf w 17 0 == 0 &&
    (if u.1 then decide (bitsOf w 25 24 < vars) else bitsOf w 25 24 == 0) &&
    (if u.2.1 then decide (bitsOf w 23 22 < vars) else bitsOf w 23 22 == 0) && (u.2.2 || bitsOf w 21 18 == 0)

/-- The first check that a program fails (Table 17-6): 0xFF a header field, else the micro-operation. -/
def progFault (p : List Byte) : Option Nat :=
  let ops := leAt p 4 1
  let vars := leAt p 7 1
  if leAt p 0 4 ≠ 0x504D4143 || ops = 0 || 32 < ops || ops ≤ leAt p 5 1 || ops ≤ leAt p 6 1 || vars = 0 || 4 < vars ||
      leAt p 8 8 != 0 then some 0xFF
  else (List.range 32).find? (fun i =>
    let w := leAt p (0x30 + 4 * i) 4
    if i < ops then !opWordOk vars w else w != 0)

/-- LOAD_PROGRAMS (R602). -/
def execLoadPrograms (d : Nat) (s : State) : Res :=
  s.campCmd d 1 [1, 3] true (fun w s =>
    let src := cmdSrc w
    let b0 := s.campBuffer d src 4 false
    if b0 ≠ 0 then s.campDone d b0 0
    else
      let n := s.campLe d src 4
      if n = 0 || 16 < n then s.campDone d 6 0xFF
      else
        let b1 := s.campBuffer d src (4 + 176 * n) false
        if b1 ≠ 0 then s.campDone d b1 0
        else
          let ps := (List.range n).map (fun i => s.campBytes d (src + 4 + 176 * i) 176)
          match ps.zipIdx.findSome? (fun p => (progFault p.1).map (fun f => 256 * p.2 + f)) with
          | some f => s.campDone d 6 f
          | none =>
            let s1 := (List.range (cmdCount w)).foldl (fun s i =>
              s.modCore (cmdFirst w + i) (fun x => { x with progs := ps, neurons := [] })) s
            let m := ps.foldl (fun m p => Config.sha384 (fitTo 48 m ++ fitTo 48 (Config.sha384 p))) s1.sec.dmeas
            let s2 : State := { s1 with sec := { s1.sec with dmeas := m, dcount := (s1.sec.dcount + n) % 2 ^ 32 } }
            s2.campDone d 0 0)

/-- A neuron record of core `x` is acceptable (R603, Table 17-7). -/
def recordOk (x : Core) (r : List Byte) : Bool :=
  decide (leAt r 0xE 1 < x.progs.length) && decide (leAt r 0x10 4 < 2 ^ 19) && leAt r 0xF 1 == 0 && leAt r 0x14 12 == 0 &&
    decide (leAt r 0xC 2 ≤ 4096)

/-- The neuron of a record at ETIME `t`. -/
def neuronOf (r : List Byte) (t : Nat) : Neuron :=
  { s0 := leAt r 0 2, s1 := leAt r 2 2, s2 := leAt r 4 2, s3 := leAt r 6 2, destIdx := leAt r 8 4, destCount := leAt r 0xC 2,
    prog := leAt r 0xE 1, lt := (t + 2 ^ 32 * 2 ^ 20 - leAt r 0x10 4) % 2 ^ 20 }

/-- The record of a neuron at ETIME `t` (R603). -/
def Neuron.record (v : Neuron) (t : Nat) : List Byte :=
  leBytes 2 v.s0 ++ leBytes 2 v.s1 ++ leBytes 2 v.s2 ++ leBytes 2 v.s3 ++ leBytes 4 v.destIdx ++ leBytes 2 v.destCount ++
    leBytes 1 v.prog ++ leBytes 1 0 ++ leBytes 4 ((t % 2 ^ 20 + 2 ^ 20 - v.lt) % 2 ^ 20) ++ leBytes 12 0

/-- LOAD_NEURONS (R603). -/
def execLoadNeurons (d : Nat) (s : State) : Res :=
  s.campCmd d 2 [1, 3] true (fun w s =>
    let n := 1024 * cmdCount w
    let b := s.campBuffer d (cmdSrc w) (32 * n) false
    if b ≠ 0 then s.campDone d b 0
    else
      let r := fun (i : Nat) => s.campBytes d (cmdSrc w + 32 * i) 32
      match (List.range n).find? (fun i => !recordOk (s.core (cmdFirst w + i / 1024)) (r i)) with
      | some i => s.campDone d 7 (1024 * cmdFirst w + i)
      | none =>
        let t := (s.die d).etime
        ((List.range n).foldl (fun s i =>
          s.modCore (cmdFirst w + i / 1024) (fun x => x.setNeuron (i % 1024) (neuronOf (r i) t))) s).campDone d 0 0)

/-- SAVE_NEURONS (R603). -/
def execSaveNeurons (d : Nat) (s : State) : Res :=
  s.campCmd d 3 [1, 3] true (fun w s =>
    let n := 1024 * cmdCount w
    let b := s.campBuffer d (cmdSrc w) (32 * n) true
    if b ≠ 0 then s.campDone d b 0
    else
      let t := (s.die d).etime
      ((List.range n).foldl (fun s i =>
        s.campPut d (cmdSrc w + 32 * i) (((s.core (cmdFirst w + i / 1024)).neuron (i % 1024)).record t)) s).campDone d 0 0)

/-- The regions a control block names: base and length in bytes (Table 17-3). -/
def CampRun.regions (r : CampRun) : List (Nat × Nat) :=
  [(r.injBase, 8 * r.injSize), (r.egrBase, 16 * r.egrSize), (r.ovfBase, 16 * r.ovfSize), (r.destBase, r.destSize)]

/-- RUN: UNIT and every region field are checked and latched, and the die is RUNNING (R604). -/
def execRun (d : Nat) (s : State) : Res :=
  s.campCmd d 4 [1] false (fun _ s =>
    match s.campCheck d 0 256 false with
    | some (.address _) => s.campDone d 5 0
    | some (.poison _) => s.campDone d 8 0
    | none =>
      let g := fun (o n : Nat) => s.campLe d o n
      let r : CampRun := { unit := if g 0x66 2 = 0 then 100 else g 0x66 2, injBase := g 0x30 4, injSize := g 0x34 4,
                           egrBase := g 0x40 4, egrSize := g 0x44 4, ovfBase := g 0x50 4, ovfSize := g 0x54 4,
                           destBase := g 0x58 4, destSize := g 0x5C 4, listOff := g 0x60 4, listCount := g 0x64 2 }
      let rs := r.regions
      let all := rs ++ (if r.listCount = 0 then [] else [(r.listOff, 8 * r.listCount)])
      let inArea := all.all (fun p => match s.campCheck d p.1 p.2 false with | some (.address _) => false | _ => true)
      let clash := (all.zipIdx).any (fun p => decide (p.1.1 < 256) || (all.drop (p.2 + 1)).any (fun q =>
        decide (p.1.1 < q.1 + q.2 ∧ q.1 < p.1.1 + p.1.2)))
      if rs.any (fun p => p.1 % 64 != 0) then s.campDone d 5 0
      else if r.unit < 10 || 10000 < r.unit || rs.any (fun p => p.2 == 0) || !inArea || clash || 64 < r.listCount then s.campDone d 7 0
      else ((s.modDie d (fun x => { x with run := r })).setCamp d 2 0).campDone d 0 0)

/-- HALT: intake stops, the runs and fan-outs in progress complete, and the die is HALTED with its tokens kept (R604). -/
def execHalt (d : Nat) (s : State) : Res :=
  s.campCmd d 5 [2] false (fun _ s => (s.setCamp d 1 0).campDone d 0 0)

/-- Every token of die `d` is gone: spike FIFOs, delay queues, inputs, mesh, overflow, ingress. -/
def State.clearTokens (s : State) (d : Nat) : State :=
  let s1 := s.modDie d (fun x => { x with ovf := [], ingress := [], mesh := [] })
  { s1 with cmp := { s1.cmp with cores := s1.cmp.cores.filterMap (fun e =>
      if e.1 / 256 = d then
        let x : Core := { e.2 with spikes := [], delay := [], input := none }
        if x = {} then none else some (e.1, x)
      else some e) } }

/-- CLEAR: every token is discarded and the die is HALTED (R604). -/
def execClear (d : Nat) (s : State) : Res :=
  s.campCmd d 6 [1, 3] false (fun _ s => ((s.clearTokens d).setCamp d 1 0).campDone d 0 0)

/-! ### Time (R605) -/

/-- ETIME_ADVANCE: UNIT × 10 ns of running time have passed on die `d`. -/
def execEtimeAdvance (d : Nat) (s : State) : Res :=
  if s.campRuns d then .next (s.modDie d (fun x => { x with etime := (x.etime + 1) % 2 ^ 64 })) else .next s

/-! ### Runs (R606, R607, Table 17-4) -/

/-- A signed value saturated to 16 bits, and back to 16 bits. -/
def sat16 (i : Int) : Int := max (-32768) (min 32767 i)
def low16 (i : Int) : Nat := unsgn 16 i

/-- Division by a positive number, toward zero. -/
def quot (a : Int) (b : Nat) : Int := if 0 ≤ a then ((a.toNat / b : Nat) : Int) else -(((-a).toNat / b : Nat) : Int)

/-- The Q0.16 factor of DECAY over `dt` from bit `b` down (R607). -/
def decayFactor (dt k : Nat) : Nat → Nat → Nat
  | 0, p => p
  | b + 1, p =>
    let p1 := p * p / 65536
    decayFactor dt k b (if tst dt b then p1 * k / 65536 else p1)

/-- State of a run: the four variables, the flag, and what it asked for. -/
structure RunSt where
  v : List Nat
  f : Bool
  spike : Bool
  emit : Bool
deriving DecidableEq, Repr

def RunSt.get (r : RunSt) (x : Nat) : Int := sgn 16 (r.v.getD x 0)
def RunSt.put (r : RunSt) (x : Nat) (i : Int) : RunSt := { r with v := r.v.set x (low16 i) }

/-- One micro-operation; true when the run ends there. -/
def microOp (p : List Byte) (dt t weight var w : Nat) (r : RunSt) : RunSt × Bool :=
  let x := bitsOf w 25 24
  let y := bitsOf w 23 22
  let ku := leAt p (0x10 + 2 * bitsOf w 21 18) 2
  let k := sgn 16 ku
  let a := r.get x
  match bitsOf w 31 26 with
  | 0x01 =>
    let q := a.natAbs * decayFactor dt ku 20 65536 / 65536
    (r.put x (if a < 0 then -(q : Int) else q), false)
  | 0x02 =>
    let q := a.natAbs - min a.natAbs (ku * dt)
    (r.put x (if a < 0 then -(q : Int) else q), false)
  | 0x03 => (r.put var (sat16 (r.get var + sgn 16 weight)), false)
  | 0x04 => (r.put x (sat16 (a + r.get y)), false)
  | 0x05 => (r.put x (sat16 (a + k)), false)
  | 0x06 => (r.put x (sat16 (quot (a * k) 256)), false)
  | 0x07 => (r.put x (r.get y), false)
  | 0x08 => (r.put x k, false)
  | 0x09 => (r.put x (max a k), false)
  | 0x0A => (r.put x (min a k), false)
  | 0x0B => ({ r with f := decide (k ≤ a) }, false)
  | 0x0C => ({ r with f := decide (a < k) }, false)
  | 0x0D => ({ r with f := decide (r.get y ≤ a) }, false)
  | 0x0E => ({ r with f := decide ((t % 65536 + 65536 - low16 a) % 65536 < ku) }, false)
  | 0x0F => (r, r.f)
  | 0x10 => (r, !r.f)
  | 0x11 => (if r.f then r.put x k else r, false)
  | 0x12 => (r.put x (sgn 16 (t % 65536)), false)
  | 0x13 => (if r.f then { r with spike := true } else r, false)
  | 0x14 => (if r.f then { r with emit := true } else r, false)
  | _ => (r, true)

/-- Micro-operations from index `i` on, at most `fuel`. -/
def runOps (p : List Byte) (dt t weight var : Nat) : Nat → Nat → RunSt → RunSt
  | 0, _, r => r
  | fuel + 1, i, r =>
    if leAt p 4 1 ≤ i then r
    else
      let (r1, stop) := microOp p dt t weight var (leAt p (0x30 + 4 * i) 4) r
      if stop then r1 else runOps p dt t weight var fuel (i + 1) r1

/-- A converter of die `d`. -/
def State.conv (s : State) (d c : Nat) : Conv := fget (fun _ => ({} : Conv)) s.sns.convs (8 * d + c)
def State.modConv (s : State) (d c : Nat) (f : Conv → Conv) : State :=
  { s with sns := { s.sns with convs := fmod (fun _ => ({} : Conv)) s.sns.convs (8 * d + c) f } }

/-- Sensor and converter tokens reach die `d`'s fabric (R636). -/
def State.snsFeeds (s : State) (d : Nat) : Bool :=
  s.cmpVf d != 0 && s.fld (F.SNS_GRANT_VF d) == s.cmpVf d && s.campState d == 2

/-- Slice address of I/O area offset `x` of die `d` (R630). -/
def State.ioAddr (s : State) (d x : Nat) : Nat := 0x10000000000 + 0x10000 * s.fld (F.SNS_GRANT_AREA d) + x
def State.ioBad (s : State) (d x len : Nat) (write : Bool) : Bool :=
  s.fld (F.SNS_GRANT_VF d) == 0 || (s.memCheck freshAgent (s.fld (F.SNS_GRANT_VF d)) (s.ioAddr d x) len write false).isSome
def State.ioBytes (s : State) (d x len : Nat) : List Byte :=
  s.memBytes freshAgent (s.fld (F.SNS_GRANT_VF d)) (s.ioAddr d x) len
def State.ioLe (s : State) (d x len : Nat) : Nat := ofLe (s.ioBytes d x len)
def State.ioPut (s : State) (d x : Nat) (bs : List Byte) : State :=
  s.memPut freshAgent (s.fld (F.SNS_GRANT_VF d)) (s.ioAddr d x) bs

/-- Add to a 32-bit count that the part writes in the I/O area. -/
def State.ioCount (s : State) (d x k : Nat) : State :=
  if s.ioBad d x 4 true then s.bump F.SNS_CNT_ADDR_COUNT else s.ioPut d x (leBytes 4 (s.ioLe d x 4 + k))

/-- Descriptor of converter `c`, 64 bytes. -/
def State.convDesc (s : State) (d c : Nat) : List Byte := if s.ioBad d (0x200 + 64 * c) 64 false then [] else s.ioBytes d (0x200 + 64 * c) 64

/-- A converter descriptor satisfies Tables 18-2 and 18-3. -/
def convOk (b : List Byte) : Bool :=
  let kind := leAt b 0 1
  let count := leAt b 8 4
  let buf := leAt b 0xC 4
  let slots := leAt b 0x10 4
  let inKind := kind == 1 || kind == 2 || kind == 3
  decide (1 ≤ kind ∧ kind ≤ 6) && decide (leAt b 1 1 ≤ 3) && decide (leAt b 3 1 < 4) && decide (leAt b 4 4 < 2 ^ 19) &&
    (!tst (leAt b 3 1) 0 || !inKind) && (!tst (leAt b 3 1) 1 || kind == 2) &&
    (if kind = 3 then count == 0 && buf == 0 else decide (1 ≤ count ∧ count ≤ 4096) && buf % 64 == 0) &&
    (if inKind then slots == 0 else decide (1 ≤ slots ∧ slots ≤ 65536)) && leAt b 0x23 1 == 0 && leAt b 0x30 16 == 0 &&
    (if kind = 3 then leAt b 0x20 2 != 0 && decide (leAt b 0x22 1 < 8) && leAt b 0x24 4 % 64 == 0
     else leAt b 0x20 2 == 0 && leAt b 0x22 1 == 0 && leAt b 0x24 4 == 0 && leAt b 0x1E 2 == 0) &&
    (inKind || (leAt b 1 1 == 0 && leAt b 2 1 == 0 && leAt b 0x1C 2 == 0)) && (kind != 2 || leAt b 0x1C 2 == 0) &&
    (!inKind || leAt b 0x18 4 == 0) && (kind != 3 || leAt b 4 4 == 0)

/-- The OUT converters of die `d` that observe neuron `a`, with their descriptors (R643). -/
def State.observers (s : State) (d a : Nat) : List (Nat × List Byte) :=
  if !s.snsFeeds d then []
  else ((List.range 8).map (fun c => (c, s.convDesc d c))).filter (fun p =>
    !p.2.isEmpty && convOk p.2 && decide (4 ≤ leAt p.2 0 1) && decide (leAt p.2 4 4 ≤ a ∧ a < leAt p.2 4 4 + leAt p.2 8 4))

/-- What one OUT converter does with an EMIT of neuron `a` at ETIME `t` (R641, R642). -/
def State.observe (s : State) (d a t : Nat) (c : Nat) (b : List Byte) : State :=
  let i := a - leAt b 4 4
  let rel := t - (s.die d).tickEtime
  match leAt b 0 1 with
  | 4 => s.modConv d c (fun x => { x with count := fmod (fun _ => 0) x.count i (fun v => min 65535 (v + 1)) })
  | 5 => s.modConv d c (fun x => { x with first := fmod (fun _ => 0) x.first i (fun v => if v = 0 then min rel 65534 + 1 else v) })
  | _ =>
    let head := leAt b 0x14 4
    let slots := leAt b 0x10 4
    let at_ := leAt b 0xC 4 + 16 * (head % slots)
    if (head + 2 ^ 32 - leAt b 0x18 4) % 2 ^ 32 = slots then s.ioCount d (0x200 + 64 * c + 0x28) 1
    else if s.ioBad d at_ 16 true then
      let s1 := s.bump F.SNS_CNT_ADDR_COUNT
      s1.ioPut d (0x200 + 64 * c + 0x2C) (leBytes 4 (Nat.lor (s1.ioLe d (0x200 + 64 * c + 0x2C) 4) 1))
    else
      (s.ioPut d at_ (leBytes 4 a ++ leBytes 4 rel ++ leBytes 8 s.tickCount)).ioPut d (0x200 + 64 * c + 0x14) (leBytes 4 (head + 1))

/-- EMIT with F = 1 of neuron `a` in a run that began at ETIME `t`: the converters see it, and unless one takes it the egress
ring gets its record (R616, R643). -/
def State.emitSpike (s : State) (d a t : Nat) : State :=
  let obs := s.observers d a
  let s1 := obs.foldl (fun s p => s.observe d a t p.1 p.2) s
  if obs.any (fun p => tst (leAt p.2 3 1) 0) then s1
  else
    let r := (s1.die d).run
    match s1.campCheck d 0x48 8 true with
    | some e => s1.campFault d (campCode e)
    | none =>
      let head := s1.campLe d 0x48 4
      let next := (head + 1) % max 1 r.egrSize
      if next = s1.campLe d 0x4C 4 then
        (s1.modDie d (fun x => { x with egrDrops := sat32 (x.egrDrops + 1) })).count (R.CMP_CNT_EGR_DROP d) 1
      else match s1.campCheck d (r.egrBase + 16 * (head % max 1 r.egrSize)) 16 true with
        | some e => s1.campFault d (campCode e)
        | none =>
          (s1.campPut d (r.egrBase + 16 * (head % max 1 r.egrSize)) (leBytes 4 a ++ leBytes 4 0 ++ leBytes 8 t)).campPut d 0x48
            (leBytes 4 next)

/-- A run of neuron `i` of core `k` from `entry`, with weight and VAR (R606). -/
def State.runNeuron (s : State) (k i : Nat) (sweep : Bool) (weight var : Nat) : State :=
  let d := k / 256
  let x := s.core k
  let v := x.neuron i
  let p := x.progs.getD v.prog []
  let t := (s.die d).etime
  let dt := (t % 2 ^ 20 + 2 ^ 20 - v.lt) % 2 ^ 20
  let r := runOps p dt t weight var 32 (leAt p (if sweep then 6 else 5) 1) ⟨[v.s0, v.s1, v.s2, v.s3], false, false, false⟩
  let v1 : Neuron := { v with s0 := r.v.getD 0 0, s1 := r.v.getD 1 0, s2 := r.v.getD 2 0, s3 := r.v.getD 3 0, lt := t % 2 ^ 20 }
  let s1 := (s.modCore k (fun x => { (x.setNeuron i v1) with spikes := if r.spike then x.spikes ++ [i] else x.spikes })).count
    (R.CMP_CNT_RUNS d) 1
  let s2 := if r.spike then s1.count (R.CMP_CNT_SPIKES d) 1 else s1
  if r.emit then s2.emitSpike d (1024 * k + i) t else s2

/-- EVENT_RUN: core `k` takes the token at its input; a token of a VAR or program it does not have is counted in BAD_DEST
(R606, R608, R610, R613). A full spike FIFO holds it back. -/
def execEventRun (k : Nat) (s : State) : Res :=
  let x := s.core k
  match x.input with
  | none => .next s
  | some t =>
    if !s.campRuns (k / 256) || 512 ≤ k || 256 ≤ x.spikes.length then .next s
    else
      let s1 := s.modCore k (fun x => { x with input := none })
      let i := t.dest % 1024
      let p := x.progs.getD (x.neuron i).prog []
      if p.isEmpty || leAt p 7 1 ≤ t.var then .next (s1.badDest (k / 256) 1)
      else .next (s1.runNeuron k i false t.weight t.var)

/-- SWEEP_VISIT: the sweeper of core `k` visits its next neuron; one not updated for 2^16 units has a sweep run (R609). -/
def execSweepVisit (k : Nat) (s : State) : Res :=
  let x := s.core k
  if 512 ≤ k || !s.campRuns (k / 256) || 256 ≤ x.spikes.length then .next s
  else
    let i := x.sweep
    let s1 := s.modCore k (fun x => { x with sweep := (i + 1) % 1024 })
    let dt := ((s.die (k / 256)).etime % 2 ^ 20 + 2 ^ 20 - (x.neuron i).lt) % 2 ^ 20
    if 2 ^ 16 ≤ dt && !(x.progs.getD (x.neuron i).prog []).isEmpty then .next (s1.runNeuron k i true 0 0) else .next s1

/-- FAN_OUT: the fan-out unit of core `k` takes the oldest spike and sends a token for each entry of its list (R611). -/
def execFanOut (k : Nat) (s : State) : Res :=
  let x := s.core k
  let d := k / 256
  match x.spikes with
  | [] => .next s
  | i :: rest =>
    if 512 ≤ k || !s.campRuns d then .next s
    else
      let v := x.neuron i
      let r := (s.die d).run
      let max_ := r.destSize / 8 - v.destIdx
      let n := min v.destCount max_
      let base := r.destBase + 8 * v.destIdx
      let s1 := s.modCore k (fun x => { x with spikes := rest })
      match s1.campCheck d base (8 * n) false with
      | some e => .next (s1.campFault d (campCode e))
      | none =>
        let s2 := (List.range n).foldl (fun s j => s.sendEntry d (s1.campLe d (base + 8 * j) 8)) s1
        .next (if max_ < v.destCount then s2.badDest d 1 else s2)

/-! ### Delay queues (R612, R613) -/

/-- A token reaches the router of its core on die `d`: into the delay queue, or spilled to the overflow region. -/
def State.arrive (s : State) (d : Nat) (t : Tok) : State :=
  let k := t.coreOf
  let y := s.die d
  let due := y.etime + t.delay
  if (s.core k).delay.length < 4096 then s.modCore k (fun x => { x with delay := x.delay ++ [(due, t)] })
  else if y.run.ovfSize ≤ y.ovf.length then s.campFault d 1
  else
    let slot := y.ovfNext % max 1 y.run.ovfSize
    match s.campCheck d (y.run.ovfBase + 16 * slot) 16 true with
    | some e => s.campFault d (campCode e)
    | none =>
      let s1 := s.campPut d (y.run.ovfBase + 16 * slot) (leBytes 8 t.word ++ leBytes 8 due)
      (s1.modDie d (fun y => { y with ovfNext := (slot + 1) % max 1 y.run.ovfSize, ovf := y.ovf ++ [(k, slot)],
                                      spills := sat32 (y.spills + 1) })).count (R.CMP_CNT_SPILL d) 1

/-- TOKEN_ARRIVE: the `i`-th token in the mesh of die `d` (`port` 0), or the oldest in ingress FIFO `port` − 1 of die `d`,
reaches its router (R611, R612, R614). -/
def execTokenArrive (d port i : Nat) (s : State) : Res :=
  if !s.campRuns d then .next s
  else if port = 0 then
    match (s.die d).mesh[i]? with
    | none => .next s
    | some t => .next ((s.modDie d (fun y => { y with mesh := y.mesh.eraseIdx i })).arrive d t)
  else
    match fget (fun _ => []) (s.die d).ingress (port - 1) with
    | [] => .next s
    | t :: rest =>
      let s1 := s.modDie d (fun y => { y with ingress := fset (fun _ => []) y.ingress (port - 1) rest })
      if s1.cmpVf t.dieOf = s1.cmpVf d then .next (s1.arrive t.dieOf t) else .next (s1.badDest d 1)

/-- The oldest spilled token of core `k` returns to its delay queue when an entry is free; poison faults the die. -/
def State.unspill (s : State) (k : Nat) : State :=
  let d := k / 256
  let y := s.die d
  match y.ovf.find? (fun o => o.1 == k) with
  | none => s
  | some o =>
    if 4096 ≤ (s.core k).delay.length then s
    else match s.campCheck d (y.run.ovfBase + 16 * o.2) 16 false with
      | some e => s.campFault d (campCode e)
      | none =>
        let w := s.campBytes d (y.run.ovfBase + 16 * o.2) 16
        (s.modDie d (fun y => { y with ovf := y.ovf.filter (fun p => p.2 != o.2) })).modCore k (fun x =>
          { x with delay := x.delay ++ [(leAt w 8 8, tokOf (leAt w 0 8))] })

/-- The queued token that falls due first: earliest due time, then arrival order. -/
def firstDue : List (Nat × Tok) → Option (Nat × Tok)
  | [] => none
  | a :: t => match firstDue t with | some b => if b.1 < a.1 then some b else some a | none => some a

/-- TOKEN_DUE: the token of core `k` that falls due first is delivered to the core's free input; one later than its due time
plus 1 is counted in LATE (R612, R613). -/
def execTokenDue (k : Nat) (s : State) : Res :=
  let x := s.core k
  let d := k / 256
  match firstDue x.delay with
  | none => .next s
  | some (due, t) =>
    if 512 ≤ k || !s.campRuns d || (s.die d).etime < due || x.input.isSome || 256 ≤ x.spikes.length then .next s
    else
      let s1 := (s.modCore k (fun x => { x with input := some t, delay := x.delay.erase (due, t) })).unspill k
      if due + 1 < (s.die d).etime then
        .next ((s1.modDie d (fun y => { y with late := sat32 (y.late + 1) })).count (R.CMP_CNT_LATE d) 1)
      else .next s1

/-! ### Ingress and injection (R614, R615) -/

/-- Tokens arrive at ingress port `p` of die `d`: queued, or dropped and counted. -/
def State.ingress (s : State) (d p : Nat) (t : Tok) : State :=
  let q := fget (fun _ => []) (s.die d).ingress p
  if s.campState d = 2 && s.campLive && decide (q.length < 4096) then
    s.modDie d (fun y => { y with ingress := fset (fun _ => []) y.ingress p (q ++ [t]) })
  else
    let s1 := s.bump (F.CMP_DROP_COUNT d p)
    if s.cmpVf d = 0 then s1 else s1.modDie d (fun y => { y with drops := sat32 (y.drops + 1) })

/-- A sensor's or converter's token for port `p`: it enters only when R636 holds. -/
def State.feed (s : State) (d p : Nat) (t : Tok) : State :=
  if s.snsFeeds d then s.ingress d p t
  else
    let s1 := s.bump (F.CMP_DROP_COUNT d p)
    if s.cmpVf d = 0 then s1 else s1.modDie d (fun y => { y with drops := sat32 (y.drops + 1) })

/-- INGRESS_TOKEN: a token arrives at ingress port `p` (0 to 8, 16 to 23) of die `d`. -/
def execIngressToken (d p dest var delay weight : Nat) (s : State) : Res :=
  if 2 ≤ d || !(decide (p ≤ 8) || decide (16 ≤ p ∧ p ≤ 23)) || s.frozen then .next s
  else .next (s.feed d p ⟨dest % 2 ^ 19, var % 4, delay % 256, weight % 65536⟩)

/-- INJECTION_READ: the interface reads the ring entry at INJ_TAIL as a token and advances INJ_TAIL (R615). -/
def execInjectionRead (d : Nat) (s : State) : Res :=
  if !s.campRuns d then .next s
  else match s.campCheck d 0x38 8 true with
    | some e => .next (s.campFault d (campCode e))
    | none =>
      let r := (s.die d).run
      let tail := s.campLe d 0x3C 4
      if s.campLe d 0x38 4 = tail then .next s
      else
        let a := r.injBase + 8 * (tail % max 1 r.injSize)
        match s.campCheck d a 8 false with
        | some e => .next (s.campFault d (campCode e))
        | none => .next ((s.sendEntry d (s.campLe d a 8)).campPut d 0x3C (leBytes 4 ((tail + 1) % max 1 r.injSize)))

/-! ### The tick (R617) -/

/-- Campion's work at a boundary on die `d`: TICK_COUNT and ETIME, the tenant counters, the tick list. -/
def State.campTick (s : State) (d : Nat) : State :=
  if !s.campRuns d then s
  else match s.campCheck d 0x20 0x60 true with
    | some e => s.campFault d (campCode e)
    | none =>
      let y := s.die d
      let s1 := s.campPut d 0x20 (leBytes 8 s.tickCount ++ leBytes 8 y.etime)
      let s2 := s1.campPut d 0x68 (leBytes 4 y.drops ++ leBytes 4 y.egrDrops ++ leBytes 4 y.badDest ++ leBytes 4 y.late ++
        leBytes 4 y.spills ++ leBytes 4 0)
      let s3 := s2.modDie d (fun y => { y with tickEtime := y.etime })
      match s3.campCheck d y.run.listOff (8 * y.run.listCount) false with
      | some e => s3.campFault d (campCode e)
      | none => (List.range y.run.listCount).foldl (fun s i => s.sendEntry d (s3.campLe d (y.run.listOff + 8 * i) 8)) s3

end Sys2Proof.Machine
end

