-- ==== Sys2Proof/Machine/YarrowMem.lean ====
section
/-! DEFINITION. Yarrow memory instructions: loads, stores, atomics, asynchronous copies, arrival counters and fences
(chapters 10 and 11). -/

namespace Sys2Proof.Machine

/-! ### Addresses (R425, Table 11-7) -/

def Iss.space (i : Iss) : Nat := bitsOf i.w 25 24
def Iss.sizeCode (i : Iss) : Nat := bitsOf i.w 23 21
def Iss.size (i : Iss) : Nat := 2 ^ i.sizeCode
def Iss.mub (i : Iss) : Bool := tst i.w 20
def Iss.offset (i : Iss) : Int := sgn 20 (bitsOf i.w 19 0)
/-- Registers of a data group. -/
def Iss.words (i : Iss) : Nat := (i.size + 3) / 4

/-- The address in lane `t`: a slice address with SPACE 00, an offset otherwise, each modulo 2^64. -/
def Iss.addr (i : Iss) (pair : Bool) (t : Nat) : Nat :=
  let lo := i.src i.ua i.a t
  let base := if pair then lo + w32 * i.src i.ua (i.a + 1) t else lo
  (((base : Int) + i.offset) % 2 ^ 64).toNat

/-- Checks of Format M: `data` says whether B names data. -/
def Iss.memBad (i : Iss) (data : Bool) : Bool :=
  decide (1 < i.space) || decide (4 < i.sizeCode) || (i.space == 0 && i.a % 2 == 1) ||
    (i.ua && decide (63 < i.a + 1 - i.space)) || (data && i.mub && decide (63 < i.b)) || (!data && (i.mub || i.b != 0))

/-- The address registers of Format M. -/
def Iss.addrRegs (i : Iss) : List (Nat × Nat) := if i.ua then [] else [(i.a, if i.space = 0 then 2 else 1)]

/-- The access of lane `t`, for the exceptions of R425: 6, 7, 4 or 5, or none. `atom` bars the control window. -/
def State.access (s : State) (i : Iss) (write atom : Bool) (t : Nat) : Nat ⊕ Loc :=
  let a := i.addr (i.space == 0) t
  if a % i.size ≠ 0 then .inl 6
  else if i.space = 1 then (if i.x.share < a + i.size then .inl 7 else .inr ⟨1, a⟩)
  else match ctrlOffset a with
    | some o => if atom then .inl 4 else .inr ⟨2, o⟩
    | none =>
      match s.xlate i.c i.x.vf a write with
      | some d => .inr ⟨0, d⟩
      | none => .inl (if write && ((s.xlate i.c i.x.vf a false).isSome || decide (0x20000000000 ≤ a ∧ a < 0x23000000000)) then 5 else 4)

/-- The address lies where a handler may load and store (R483). -/
def Iss.handlerMay (i : Iss) (t : Nat) : Bool :=
  i.space == 1 || (let a := i.addr true t; decide (0x10000000000 ≤ a ∧ a < 0x10010000000))

/-- Run `k` with the accesses of the lanes whose guard holds, unless one of them raises an exception: the first in the
order of Table 11-10 (R447), with HANDLER_LIMIT last (R483). -/
def State.withAccess (s : State) (i : Iss) (write atom : Bool) (k : List (Nat × Loc) → State) : State :=
  let l := i.on.map (fun t => (t, s.access i write atom t))
  let has := fun (c : Nat) => l.any (fun (p : Nat × (Nat ⊕ Loc)) => match p.2 with | .inl e => e == c | .inr _ => false)
  let limit := i.y.inTrap && (atom || i.on.any (fun t => !i.handlerMay t)) && !i.on.isEmpty
  i.firstExc s [(has 6, 6), (has 7, 7), (has 4, 4), (has 5, 5), (limit, 0x0D)] (fun _ =>
    let locs := l.filterMap (fun (p : Nat × (Nat ⊕ Loc)) => match p.2 with | .inr x => some (p.1, x) | .inl _ => none)
    k locs)

/-- Distinct 32-byte sectors of a list of accesses (R386). -/
def sectorsOf (l : List (Nat × Loc)) : List (Nat × Nat) := (l.map (fun p => (p.2.space, p.2.addr / 32))).eraseDups

/-- Count the issue cycles beyond the first, and note the translations the access used (R386, R354). -/
def State.memIssue (s : State) (i : Iss) (l : List (Nat × Loc)) : State :=
  let s1 := s.count (R.YAR_CNT_SECTOR_EXTRA i.c) ((sectorsOf l).length - 1)
  if i.space = 0 then i.on.foldl (fun s t => s.touch i.c i.x.vf (i.addr true t) i.size) s1 else s1

/-! ### Reading (R389, R392) -/

/-- Bytes of device memory read through the cluster's cache: a miss fills the line; whether a line is still held is a
free choice (log entry 24). None where a byte to be read from memory has an uncorrectable error. -/
def State.cacheRead (s : State) (c d n : Nat) : Option (List Byte) × State :=
  let l := fget (fun _ => []) (s.cluster c).cache (d / 128)
  if !l.isEmpty && tst s.free.toNat 0 then (some (sliceOf l (d % 128) n), s.drawn)
  else if (addrs d n).any s.poisoned then (none, s.drawn)
  else
    let line := (addrs (d / 128 * 128) 128).map s.dpaByte
    (some (sliceOf line (d % 128) n), (s.modCluster c (fun x => { x with cache := fset (fun _ => []) x.cache (d / 128) line })).drawn)

/-- What one access reads now. -/
def State.readLoc (s : State) (k : Nat) (l : Loc) (n : Nat) : Option (List Byte) × State :=
  match s.ctx k with
  | none => (none, s)
  | some x =>
    match l.space with
    | 0 => s.cacheRead (k / 8) l.addr n
    | 1 => (some ((addrs l.addr n).map (fget (fun _ => 0) x.store)), s)
    | _ => (some ((addrs l.addr n).map (s.ctrlByte x.vf)), s)

/-- Read the lanes of a pending load that have not been read; false where one met an uncorrectable error. -/
def State.capture (s : State) (k : Nat) (p : PendLoad) : Bool × PendLoad × State :=
  (p.lanes.filter (fun l => !p.data.any (fun (d : Nat × List Byte) => d.1 == l.1))).foldl
    (fun (a : Bool × PendLoad × State) (l : Nat × Loc) =>
      match a.2.2.readLoc k l.2 p.size with
      | (some b, s1) => (a.1, { a.2.1 with data := a.2.1.data ++ [(l.1, b)] }, s1)
      | (none, s1) => (false, a.2.1, s1)) (true, p, s)

/-- Two accesses share a byte. -/
def overlap (a : Loc) (n : Nat) (b : Loc) (m : Nat) : Bool :=
  a.space == b.space && decide (a.addr < b.addr + m) && decide (b.addr < a.addr + n)

/-- End the launch with DATA_UNCORRECTABLE (R446). -/
def State.poisonEnd (s : State) (k pc : Nat) : State :=
  match s.ctx k with | some x => s.failLaunch x.launch 0x21 0 0 pc 0 | none => s

/-- Pending loads of the group that share a byte with these accesses are read before them, so that a thread's accesses
to one byte keep their order (R394). -/
def State.orderLoads (s : State) (i : Iss) (l : List (Nat × Loc)) : State :=
  let hit := fun (p : PendLoad) => p.lanes.any (fun a => l.any (fun b => overlap a.2 p.size b.2 i.size))
  let go := i.y.loads.foldl (fun (a : List PendLoad × State) p =>
    if hit p then let r := a.2.capture i.k p; (a.1 ++ [r.2.1], r.2.2) else (a.1 ++ [p], a.2)) ([], s)
  go.2.modGroup i.k i.g (fun y => { y with loads := go.1 })

/-- An entry holds a byte, or every byte, of an access of its own context. -/
def SbEntry.holds (e : SbEntry) (k : Nat) (l : Loc) (n : Nat) (all : Bool) : Bool :=
  let b := fun (o : Nat) => fget (fun _ => 0) e.bytes (l.addr % 32 + o) != 0
  e.ctx == k && e.space == l.space && e.sector == l.addr / 32 && (if all then (List.range n).all b else (List.range n).any b)

/-- Whether a load finds all its bytes in the youngest entry that holds any of them (R392): those bytes; and whether it
must wait for an entry. -/
def State.forward (s : State) (i : Iss) (l : Loc) : Option (List Byte) × Bool :=
  match (s.sbuf i.c i.sched).reverse.find? (fun e => e.holds i.k l i.size false) with
  | none => (none, false)
  | some e =>
    if e.holds i.k l i.size true then
      (some ((List.range i.size).map (fun o => BitVec.ofNat 8 (fget (fun _ => 0) e.bytes (l.addr % 32 + o) - 1))), false)
    else (none, true)

/-- Issue a load: forwarding, the wait for partial overlaps, and the load in flight (R392, R449). -/
def State.startLoad (s : State) (i : Iss) (signed : Bool) (l : List (Nat × Loc)) : State :=
  let s1 := (s.orderLoads i l).memIssue i l
  let fw := l.map (fun p => (p.1, s1.forward i p.2))
  let stall := fw.any (fun (p : Nat × (Option (List Byte) × Bool)) => p.2.2)
  let waits := l.filter (fun p => (s1.forward i p.2).2)
  let s2 := if stall then (s1.sbDrainTo i.c i.sched (fun e => waits.any (fun p => e.holds i.k p.2 i.size false))).count
    (R.YAR_CNT_PARTIAL_STALL i.c) 1 else s1
  let data := fw.filterMap (fun (p : Nat × (Option (List Byte) × Bool)) => p.2.1.map (fun b => (p.1, b)))
  let s3 := if !stall && !data.isEmpty then s2.count (R.YAR_CNT_FORWARD i.c) 1 else s2
  let y := match s3.ctx i.k with | some x => x.group i.g | none => i.y
  let p : PendLoad := { reg := i.phys i.d, size := i.size, signed := signed, lanes := l, data := data }
  i.put s3 (i.next { i.y with loads := if l.isEmpty then y.loads else y.loads ++ [p] })

/-- LD and LDS. -/
def State.loadInstr (s : State) (c j g : Nat) (hi : Bool) (op : Nat) (signed : Bool) : Res :=
  s.issue c j g hi [op]
    (fun i => ⟨i.memBad false || i.d % i.words != 0 || (signed && i.sizeCode != 0 && i.sizeCode != 1),
      (i.d, i.words) :: i.addrRegs, 0⟩)
    (fun i s => s.withAccess i false false (s.startLoad i signed))

/-- LD: zero-extended bytes into a register or group (R426). -/
def execLd (c j g : Nat) (hi : Bool) (s : State) : Res := s.loadInstr c j g hi 0x60 false

/-- LDS: sign-extended bytes (R426). -/
def execLds (c j g : Nat) (hi : Bool) (s : State) : Res := s.loadInstr c j g hi 0x61 true

/-- LDC: bytes of the image's constants (R411, R426). -/
def execLdc (c j g : Nat) (hi : Bool) (s : State) : Res :=
  s.issue c j g hi [0x63]
    (fun i => ⟨i.space != 0 || decide (4 < i.sizeCode) || (i.ua && decide (63 < i.a)) || i.mub || i.b != 0 || i.d % i.words != 0,
      (i.d, i.words) :: (if i.ua then [] else [(i.a, 1)]), 0⟩)
    (fun i s =>
      let l := i.on.map (fun t => (t, i.addr false t))
      i.firstExc s [(l.any (fun p => p.2 % i.size != 0), 6), (l.any (fun p => decide (i.kn.consts.length < p.2 + i.size)), 4)]
        (fun _ =>
          let p : PendLoad := { reg := i.phys i.d, size := i.size, signed := false, lanes := [],
                                data := l.map (fun q => (q.1, sliceOf i.kn.consts q.2 i.size)) }
          i.put s (i.next { i.y with loads := if l.isEmpty then i.y.loads else i.y.loads ++ [p] })))

/-- Write a returned load's value to its registers (R426). -/
def writeLoad (p : PendLoad) (y : Group) : Group :=
  p.data.foldl (fun y (d : Nat × List Byte) =>
    if p.size ≤ 4 then
      let v := ofLe d.2
      y.setV p.reg d.1 (if p.signed then unsgn 32 (sgn (8 * p.size) v) else v)
    else (List.range (p.size / 4)).foldl (fun y k => y.setV (p.reg + k) d.1 (leAt d.2 (4 * k) 4)) y) y

/-- LOAD_DATA_RETURN: pending load `n` of a group returns (R449, R392, Table 10-4). -/
def execLoadDataReturn (c j g n : Nat) (s : State) : Res :=
  let k := 8 * c + j
  match (if j < 8 then s.ctx k else none) with
  | none => .next s
  | some x =>
    match (x.group g).loads[n]? with
    | none => .next s
    | some p =>
      if s.frozen then .next s
      else
        let r := s.capture k p
        if r.1 then .next (r.2.2.modGroup k g (fun y => writeLoad r.2.1 { y with loads := y.loads.eraseIdx n }))
        else .next (r.2.2.poisonEnd k ((x.group g).pc false))

/-! ### Stores (R391) -/

/-- The sectors of a store with their bytes: where lanes name one byte, which lane's value it takes is a free choice. -/
def storeEntries (k : Nat) (l : List (Loc × List Byte)) : List SbEntry :=
  ((l.map (fun p => (p.1.space, p.1.addr / 32))).eraseDups).map (fun q =>
    { ctx := k, space := q.1, sector := q.2,
      bytes := (l.filter (fun p => p.1.space == q.1 && p.1.addr / 32 == q.2)).foldl (fun m p =>
        (p.2.zipIdx).foldl (fun m (b : Byte × Nat) => fset (fun _ => 0) m (p.1.addr % 32 + b.2) (b.1.toNat + 1)) m) [] })

/-- Entries join the scheduler's buffer; older ones leave while there is no room (R391). -/
def State.sbPush (s : State) (c i : Nat) (es : List SbEntry) : State :=
  let excess := (s.sbuf c i).length + es.length - 32
  let s1 := if excess = 0 then s
    else ((s.sbDrain c i excess).count (R.YAR_CNT_SB_FULL c) (1 + s.free.toNat % (12 * excess))).drawn
  s1.setSbuf c i (s1.sbuf c i ++ es)

/-- A store meets an uncorrectable error that it does not overwrite whole (R339, R341). -/
def State.storePoison (s : State) (l : Loc) (n : Nat) : Bool :=
  l.space == 0 && (addrs l.addr n).any s.poisoned && !(decide (l.addr < 0x10000000) && decide (8 ≤ n))

/-- ST (R426, R391). -/
def execSt (c j g : Nat) (hi : Bool) (s : State) : Res :=
  s.issue c j g hi [0x62]
    (fun i => ⟨i.memBad true || i.d != 0 || i.b % i.words != 0, i.addrRegs ++ (if i.mub then [] else [(i.b, i.words)]), 0⟩)
    (fun i s => s.withAccess i true false (fun l =>
      if l.any (fun p => s.storePoison p.2 i.size) then s.poisonEnd i.k i.pc
      else
        let s1 := (s.orderLoads i l).memIssue i l
        let dat := fun (t : Nat) => ((List.range i.words).map (fun w => leBytes 4 (i.src i.mub (i.b + w) t))).flatten.take i.size
        let d := l.map (fun p => (p.2, dat p.1))
        let es := storeEntries i.k (if tst s1.free.toNat 0 then d.reverse else d)
        let y := match s1.ctx i.k with | some x => x.group i.g | none => i.y
        i.put (s1.drawn.sbPush i.c i.sched es) (i.next { i.y with loads := y.loads })))

/-- STORE_ENTRY_RETIRE: the head entry of a scheduler's store buffer leaves (R391). -/
def execStoreEntryRetire (c i : Nat) (s : State) : Res := if s.frozen then .next s else .next (s.sbPop c i)

/-! ### Atomics (R387, R388, R427) -/

/-- The old value and the memory after one lane's atomic. -/
def State.atomOne (s : State) (k : Nat) (l : Loc) (n new : Nat) : State :=
  let bs := leBytes n new
  if l.space = 1 then s.modCtx k (fun x => (bs.zipIdx).foldl (fun x (b : Byte × Nat) => x.putByte (l.addr + b.2) b.1) x)
  else (bs.zipIdx).foldl (fun s (b : Byte × Nat) => s.writeThrough (k / 8) (l.addr + b.2) b.1) s

/-- The word an atomic finds at its address: never in the cache. -/
def State.atomOld (s : State) (k : Nat) (l : Loc) (n : Nat) : Nat :=
  if l.space = 1 then
    match s.ctx k with | some x => ofLe ((addrs l.addr n).map (fget (fun _ => 0) x.store)) | none => 0
  else ofLe ((addrs l.addr n).map s.dpaByte)

/-- An atomic: `f` gives the new value from the size in bits, the old value, the operand and the second operand. -/
def State.atomic (s : State) (c j g : Nat) (hi : Bool) (op : Nat) (cas only4 : Bool) (f : Nat → Nat → Nat → Nat → Nat) : Res :=
  s.issue c j g hi [op]
    (fun i =>
      let nb := if cas then 2 * i.words else i.words
      ⟨i.memBad true || (i.sizeCode != 2 && i.sizeCode != 3) || (only4 && i.sizeCode != 2) || i.d % i.words != 0 ||
          i.b % nb != 0,
        (i.d, i.words) :: i.addrRegs ++ (if i.mub then [] else [(i.b, nb)]), 0⟩)
    (fun i s => s.withAccess i true true (fun l =>
      if l.any (fun p => p.2.space == 0 && (addrs p.2.addr i.size).any s.poisoned) then s.poisonEnd i.k i.pc
      else
        let s1 := (s.orderLoads i l).memIssue i l
        let s2 := s1.sbDrainTo i.c i.sched (fun e => l.any (fun p => e.holds i.k p.2 i.size false))
        let s3 := s2.count (R.YAR_CNT_ATOMIC_COMBINED i.c) (l.length - ((l.map (fun p => p.2)).eraseDups).length)
        let val := fun (r t : Nat) => ofLe (((List.range i.words).map (fun w => leBytes 4 (i.src i.mub (r + w) t))).flatten)
        let go := l.foldl (fun (a : List (Nat × List Byte) × State) p =>
          let old := a.2.atomOld i.k p.2 i.size
          let new := f (8 * i.size) old (val i.b p.1) (val (i.b + i.words) p.1)
          (a.1 ++ [(p.1, leBytes i.size old)], a.2.atomOne i.k p.2 i.size new)) ([], s3)
        let y := match go.2.ctx i.k with | some x => x.group i.g | none => i.y
        let p : PendLoad := { reg := i.phys i.d, size := i.size, signed := false, lanes := [], data := go.1 }
        i.put go.2 (i.next { i.y with loads := if l.isEmpty then y.loads else y.loads ++ [p] })))

/-- ATOM.ADD (R427). -/
def execAtomAdd (c j g : Nat) (hi : Bool) (s : State) : Res :=
  s.atomic c j g hi 0x64 false false (fun _ old v _ => old + v)

/-- ATOM.SMIN (R427). -/
def execAtomSmin (c j g : Nat) (hi : Bool) (s : State) : Res :=
  s.atomic c j g hi 0x65 false false (fun n old v _ => if sgn n v < sgn n old then v else old)

/-- ATOM.SMAX (R427). -/
def execAtomSmax (c j g : Nat) (hi : Bool) (s : State) : Res :=
  s.atomic c j g hi 0x66 false false (fun n old v _ => if sgn n old < sgn n v then v else old)

/-- ATOM.UMIN (R427). -/
def execAtomUmin (c j g : Nat) (hi : Bool) (s : State) : Res :=
  s.atomic c j g hi 0x67 false false (fun _ old v _ => min old v)

/-- ATOM.UMAX (R427). -/
def execAtomUmax (c j g : Nat) (hi : Bool) (s : State) : Res :=
  s.atomic c j g hi 0x68 false false (fun _ old v _ => max old v)

/-- ATOM.AND (R427). -/
def execAtomAnd (c j g : Nat) (hi : Bool) (s : State) : Res :=
  s.atomic c j g hi 0x69 false false (fun _ old v _ => Nat.land old v)

/-- ATOM.OR (R427). -/
def execAtomOr (c j g : Nat) (hi : Bool) (s : State) : Res :=
  s.atomic c j g hi 0x6A false false (fun _ old v _ => Nat.lor old v)

/-- ATOM.XOR (R427). -/
def execAtomXor (c j g : Nat) (hi : Bool) (s : State) : Res :=
  s.atomic c j g hi 0x6B false false (fun _ old v _ => Nat.xor old v)

/-- ATOM.EXCH (R427). -/
def execAtomExch (c j g : Nat) (hi : Bool) (s : State) : Res :=
  s.atomic c j g hi 0x6C false false (fun _ _ v _ => v)

/-- ATOM.CAS (R427). -/
def execAtomCas (c j g : Nat) (hi : Bool) (s : State) : Res :=
  s.atomic c j g hi 0x6D true false (fun _ old v v2 => if old = v then v2 else old)

/-- ATOM.FADD (R427). -/
def execAtomFadd (c j g : Nat) (hi : Bool) (s : State) : Res :=
  s.atomic c j g hi 0x6E false true (fun _ old v _ => f32.encode 0 false ((f32.decode old).add 0 (f32.decode v)))

/-! ### Asynchronous copies, counters, fences (R395 to R399, R441 to R445) -/

/-- A field of a Format G instruction: the counter. -/
def Iss.ctrOf (i : Iss) : Nat := bitsOf i.w 46 43
def Iss.gBad (i : Iss) : Bool := bitsOf i.w 50 47 != 0

/-- Counter `n` of a context rises by 1, wrapping (R397). -/
def State.raiseCtr (s : State) (k n : Nat) : State :=
  s.modCtx k (fun x => { x with ctrs := fset (fun _ => 0) x.ctrs n ((x.ctr n + 1) % w32) })

/-- ACOPY: an asynchronous copy starts; beyond 64 outstanding its group waits (R399, R441). -/
def execAcopy (c j g : Nat) (hi : Bool) (s : State) : Res :=
  s.issue c j g hi [0x70]
    (fun i =>
      let l := bitsOf i.w 25 10
      ⟨i.gBad || i.a % 2 == 1 || decide (62 < i.a) || decide (63 < i.b) || bitsOf i.w 9 0 != 0 || l == 0 || decide (32768 < l), [], 0⟩)
    (fun i s =>
      if !i.groupOn then i.put s (i.next i.y)
      else
        let sa := i.y.u i.a + w32 * i.y.u (i.a + 1)
        let lo := i.y.u i.b
        let len := 16 * bitsOf i.w 25 10
        i.firstExc s [(sa % 16 != 0 || lo % 16 != 0, 6), (decide (i.x.share < lo + len), 7), (i.y.inTrap, 0x0D)] (fun _ =>
          let cp : Copy := { id := i.x.nextCopy, ctr := i.ctrOf, toSlice := tst i.w 26, slice := sa, loc := lo, len := len }
          (i.put s (i.next i.y)).modCtx i.k (fun x => { x with copies := x.copies ++ [cp], nextCopy := x.nextCopy + 1 })))
    (fun i _ => i.groupOn && decide (64 ≤ i.x.copies.length))

/-- How many bytes of a copy come before the first 64 KiB block with an invalid address (R442); none where the whole
copy is valid. -/
def State.copyStop (s : State) (k : Nat) (x : Ctx) (p : Copy) : Option Nat :=
  ((List.range p.len).find? (fun o => (s.xlate (k / 8) x.vf (p.slice + o) p.toSlice).isNone)).map (fun o =>
    o - min o ((p.slice + o) % 65536))

/-- Move the first `n` bytes of a copy. -/
def State.copyMove (s : State) (k : Nat) (x : Ctx) (p : Copy) (n : Nat) : State :=
  (List.range n).foldl (fun s o =>
    match s.xlate (k / 8) x.vf (p.slice + o) p.toSlice with
    | none => s
    | some d =>
      if p.toSlice then s.writeThrough (k / 8) d (fget (fun _ => 0) x.store (p.loc + o))
      else s.modCtx k (fun x => x.putByte (p.loc + o) (s.dpaByte d))) s

/-- The copy reads or writes part of a word or line with an uncorrectable error. -/
def State.copyPoison (s : State) (k : Nat) (x : Ctx) (p : Copy) : Bool :=
  match s.memCheck (k / 8) x.vf p.slice p.len p.toSlice false with | some (.poison _) => true | _ => false

/-- ACOPY_COMPLETE: outstanding copy `n` of a context has written its bytes and raises its counter (R443, R397). -/
def execAcopyComplete (c j n : Nat) (s : State) : Res :=
  let k := 8 * c + j
  match (if j < 8 then s.ctx k else none) with
  | none => .next s
  | some x =>
    match x.copies[n]? with
    | none => .next s
    | some p =>
      if s.frozen || (s.copyStop k x p).isSome then .next s
      else if s.copyPoison k x p then .next (s.poisonEnd k 0)
      else
        let s1 := (s.touch c x.vf p.slice p.len).copyMove k x p p.len
        .next ((s1.modCtx k (fun x => { x with copies := x.copies.eraseIdx n })).raiseCtr k p.ctr)

/-- ASYNC_ADDRESS: outstanding copy `n` of a context meets an invalid block and stops (R442, R448). -/
def execAsyncAddress (c j n : Nat) (s : State) : Res :=
  let k := 8 * c + j
  match (if j < 8 then s.ctx k else none) with
  | none => .next s
  | some x =>
    match x.copies[n]? with
    | none => .next s
    | some p =>
      match s.copyStop k x p with
      | none => .next s
      | some m => if s.frozen then .next s else .next ((s.copyMove k x p m).failLaunch x.launch 0x20 0x0B 0x0B 0 0)

/-- The stores of the group's scheduler leave its buffer (R395, R397). -/
def Iss.drain (i : Iss) (s : State) : State := s.sbDrainTo i.c i.sched (fun e => e.ctx == i.k)

/-- ARRIVE (R397, R443). -/
def execArrive (c j g : Nat) (hi : Bool) (s : State) : Res :=
  s.issue c j g hi [0x71]
    (fun i => ⟨i.gBad || bitsOf i.w 42 0 != 0, [], 1⟩)
    (fun i s => if i.groupOn then ((i.drain (i.put s (i.next i.y))).raiseCtr i.k i.ctrOf) else i.put s (i.next i.y))

/-- WAIT: the group goes on once its counter has reached IMM32 (R398, R443). -/
def execWait (c j g : Nat) (hi : Bool) (s : State) : Res :=
  s.issue c j g hi [0x72] (fun i => ⟨i.gBad || bitsOf i.w 2 0 != 0, [], 1⟩) (fun i s => i.put s (i.next i.y))

/-- WAITU: as WAIT, with the target in a uniform register (R443). -/
def execWaitu (c j g : Nat) (hi : Bool) (s : State) : Res :=
  s.issue c j g hi [0x73] (fun i => ⟨i.gBad || decide (63 < i.a), [], 1⟩) (fun i s => i.put s (i.next i.y))

/-- CTRREAD (R443). -/
def execCtrread (c j g : Nat) (hi : Bool) (s : State) : Res :=
  s.issue c j g hi [0x74]
    (fun i => ⟨!i.ud || decide (63 < i.d), [], 0⟩)
    (fun i s => i.put s (i.next (if i.groupOn then i.y.setU i.d (i.x.ctr (i.b % 16)) else i.y)))

/-- FENCE (R395, R445, Table 10-3). -/
def execFence (c j g : Nat) (hi : Bool) (s : State) : Res :=
  s.issue c j g hi [0x98]
    (fun i => ⟨i.gBad || bitsOf i.w 1 0 == 3, [], if bitsOf i.w 1 0 = 2 then 1 else 0⟩)
    (fun i s =>
      let s1 := i.put s (i.next i.y)
      if !i.groupOn || bitsOf i.w 1 0 == 0 then s1
      else
        let s2 := i.drain s1
        if bitsOf i.w 1 0 = 2 && tst i.w 2 then s2.dropCache i.c else s2)

end Sys2Proof.Machine
end

