-- ==== Sys2Proof/Machine/YarrowFlow.lean ====
section
/-! DEFINITION. Yarrow branches, the mask stack, group control and the windowed instructions (chapters 10, 11, 13). -/

namespace Sys2Proof.Machine

/-! ### Branches (R428 to R435) -/

/-- Divergence is not allowed here: predication-only mode, or the trap window (R385, R428, R483). -/
def Iss.predMode (i : Iss) : Bool := i.x.predOnly || i.y.inTrap

/-- The owner of an entry this issue pushes (R432). -/
def Iss.owner (i : Iss) : Nat := if !i.y.split then 0 else if i.hi then 2 else 1

def lowHalf : Nat := 0xFFFF
def highHalf : Nat := 0xFFFF0000

/-- The masks lie wholly in opposite halves (R429). -/
def opposed (a b : Nat) : Bool :=
  (Nat.land a highHalf == 0 && Nat.land b lowHalf == 0) || (Nat.land a lowHalf == 0 && Nat.land b highHalf == 0)

/-- BRA (R428 to R430). -/
def execBra (c j g : Nat) (hi : Bool) (s : State) : Res :=
  s.issue c j g hi [0x80]
    (fun i => ⟨i.d != 0, [], 0⟩)
    (fun i s =>
      let held := maskOfLanes i.on
      let rest := i.act - held
      let target := relPc i.pc (sgn 27 (bitsOf i.w 26 0))
      let recon := sgn 16 (bitsOf i.w 42 27)
      if rest = 0 then i.put s (i.y.setPc i.hi target)
      else if held = 0 then i.put s (i.next i.y)
      else if i.predMode || recon == 0 then i.exc s 0x09 0
      else if 32 ≤ i.y.stack.length then i.exc s 0x08 0
      else if !i.y.split && opposed held rest then
        let e : MaskEntry := { kind := 2, owner := 0, rpc := relPc i.pc recon, pc := 0, mask := i.act }
        let low := Nat.land held highHalf == 0
        let y : Group := { i.y with
          split := true, stack := e :: i.y.stack, atJoin := 0
          pc0 := if low then target else i.pc + 1
          pc1 := if low then i.pc + 1 else target
          act0 := if low then held else rest
          act1 := if low then rest else held }
        (i.put s y).count (R.YAR_CNT_HALF_SPLIT i.c) 1
      else
        let e : MaskEntry := { kind := 0, owner := i.owner, rpc := relPc i.pc recon, pc := i.pc + 1, mask := rest }
        i.put s (({ i.y with stack := e :: i.y.stack }.setAct i.hi held).setPc i.hi target))

/-- The entry a JOIN considers (R431): its place in the stack. -/
def Iss.joinEntry (i : Iss) : Option Nat :=
  if !i.y.split then i.y.stack.findIdx? (fun e => e.owner == 0)
  else i.y.stack.findIdx? (fun e => e.owner == i.owner || e.kind == 2)

/-- Lanes of a mask that have not executed EXIT. -/
def alive (y : Group) (m : Nat) : Nat := m - Nat.land m y.exited

/-- The group is whole again, at `pc` (R431). -/
def rejoin (y : Group) (at_ : Nat) (e : MaskEntry) (pc : Nat) : Group :=
  { y with split := false, atJoin := 0, stack := y.stack.eraseIdx at_, pc0 := pc, pc1 := 0, act0 := alive y e.mask, act1 := 0 }

/-- Lanes of one half in a SPLIT entry. -/
def halfLanes (e : MaskEntry) (hi : Bool) : Nat := Nat.land e.mask (if hi then highHalf else lowHalf)

/-- JOIN (R431). -/
def execJoin (c j g : Nat) (hi : Bool) (s : State) : Res :=
  s.issue c j g hi [0x82]
    (fun i => ⟨i.neg || bitsOf i.w 50 0 != 0, [], 0⟩)
    (fun i s =>
      let skip := i.put s (i.next i.y)
      if i.predMode || (!i.groupOn && !i.lanes.isEmpty) then skip
      else match i.joinEntry with
        | none => skip
        | some n =>
          match i.y.stack[n]? with
          | none => skip
          | some e =>
            if e.rpc ≠ i.pc then skip
            else if e.kind = 0 then
              let r : MaskEntry := { e with kind := 1, pc := 0, mask := Nat.lor i.act e.mask }
              i.put s (({ i.y with stack := i.y.stack.set n r }.setAct i.hi (alive i.y e.mask)).setPc i.hi e.pc)
            else if e.kind = 1 then
              i.put s (i.next ({ i.y with stack := i.y.stack.eraseIdx n }.setAct i.hi (alive i.y e.mask)))
            else if i.y.atJoin = (if i.hi then 1 else 2) || alive i.y (halfLanes e (!i.hi)) == 0 then
              i.put s (rejoin i.y n e (i.pc + 1))
            else i.put s { i.y with atJoin := if i.hi then 2 else 1 })

/-- The guard gives one result in every active lane. -/
def Iss.uniform (i : Iss) : Bool := i.on.isEmpty || i.on.length == i.lanes.length

/-- JMPU (R433). -/
def execJmpu (c j g : Nat) (hi : Bool) (s : State) : Res :=
  s.issue c j g hi [0x81]
    (fun i => ⟨i.d != 0 || decide (63 < i.a) || bitsOf i.w 34 0 != 0, [], 0⟩)
    (fun i s =>
      if !i.uniform then i.exc s 0x09 0
      else if i.groupOn then i.put s (i.y.setPc i.hi (i.y.u i.a)) else i.put s (i.next i.y))

/-- CALL (R433, R485). -/
def execCall (c j g : Nat) (hi : Bool) (s : State) : Res :=
  s.issue c j g hi [0x83]
    (fun i => ⟨decide (63 < i.d) || bitsOf i.w 42 27 != 0, [], 2⟩)
    (fun i s =>
      if !i.uniform then i.exc s 0x09 0
      else if i.groupOn then
        i.put s ((i.y.setU i.d (i.pc + 1)).setPc i.hi (relPc i.pc (sgn 27 (bitsOf i.w 26 0))))
      else i.put s (i.next i.y))

/-- EXIT (R434): a half whose lanes have all gone lets the waiting one go on (R431). -/
def execExit (c j g : Nat) (hi : Bool) (s : State) : Res :=
  s.issue c j g hi [0x84]
    (fun i => ⟨bitsOf i.w 50 0 != 0, [], 1⟩)
    (fun i s =>
      let m := maskOfLanes i.on
      let y := (i.next { i.y with exited := Nat.lor i.y.exited m }).setAct i.hi (i.act - m)
      match (if y.split then y.stack.findIdx? (fun e => e.kind == 2) else none) with
      | none => i.put s y
      | some n =>
        match y.stack[n]? with
        | none => i.put s y
        | some e =>
          if alive y (halfLanes e i.hi) = 0 && y.atJoin == (if i.hi then 1 else 2) then
            i.put s (rejoin y n e ((y.pc (!i.hi)) + 1))
          else i.put s y)

/-- The other groups of a scheduler, by key 64 × context slot + group. -/
def State.schedGroups (s : State) (c sched : Nat) : List Nat :=
  ((List.range 8).map (fun j => match s.ctx (8 * c + j) with
    | none => []
    | some x => ((List.range x.groups).filter (fun g => g % 4 == sched)).map (64 * j + ·))).flatten

/-- YIELD (R436). -/
def execYield (c j g : Nat) (hi : Bool) (s : State) : Res :=
  s.issue c j g hi [0x85]
    (fun i => ⟨bitsOf i.w 50 1 != 0, [], 1⟩)
    (fun i s =>
      let y := i.next i.y
      if !i.groupOn then i.put s y
      else if tst i.w 0 then i.put s { y with yieldTick := s.tickCount + 1 }
      else i.put s { y with yieldOn := (s.schedGroups i.c i.sched).filter (· != 64 * (i.k % 8) + i.g) })

/-- TRAP (R437). -/
def execTrap (c j g : Nat) (hi : Bool) (s : State) : Res :=
  s.issue c j g hi [0x86]
    (fun i => ⟨i.gBad || bitsOf i.w 46 16 != 0, [], 0⟩)
    (fun i s => if i.groupOn then i.exc s 0x0C (bitsOf i.w 15 0) else i.put s (i.next i.y))

/-! ### Windows (R476 to R492) -/

/-- Another group of the context is in the trap window (R482). -/
def Iss.trapBusy (i : Iss) : Bool := (List.range i.x.groups).any (fun g => g != i.g && (i.x.group g).inTrap)

/-- Enter the trap window for this instruction (R482); the entry uses no issue slot. -/
def Iss.enterTrap (i : Iss) (s : State) (kind : Nat) : State :=
  let y := { i.y with inTrap := true, trapKind := kind, trapPc := i.pc, handlerCount := 0 }
  (i.put s (y.setPc i.hi i.kn.handler)).count (if kind = 0 then R.WIN_CNT_OVERFLOW i.c else R.WIN_CNT_UNDERFLOW i.c) 1

/-- A windowed instruction: only in an ISA 0x01 image, with every other field 0. One that `traps` waits while another
group of its context is in the trap window (R482). -/
def State.windowInstr (s : State) (c j g : Nat) (hi : Bool) (op bar : Nat) (body : Iss → State → State)
    (traps : Iss → Bool := fun _ => false) : Res :=
  s.issue c j g hi [op]
    (fun i => ⟨!i.x.windowed || bitsOf i.w 50 0 != 0, [], bar⟩)
    (fun i s => if i.groupOn then body i s else i.put s (i.next i.y))
    (fun i _ => i.groupOn && traps i && i.trapBusy) (fun i => i.groupOn && traps i && !i.y.inTrap && !i.guardBad &&
      i.x.windowed && bitsOf i.w 50 0 == 0)

/-- WSAVE (R480). -/
def execWsave (c j g : Nat) (hi : Bool) (s : State) : Res :=
  s.windowInstr c j g hi 0xA0 2 (fun i s =>
    if i.y.resident < 7 then i.put s (i.next { i.y with wcur := (i.y.wcur + 1) % 8, resident := i.y.resident + 1 })
    else if i.was then i.exc s 0x0E 0 else i.enterTrap s 0)
    (fun i => decide (7 ≤ i.y.resident) && !i.was)

/-- WRESTORE (R481). -/
def execWrestore (c j g : Nat) (hi : Bool) (s : State) : Res :=
  s.windowInstr c j g hi 0xA1 2 (fun i s =>
    if 2 ≤ i.y.resident then i.put s (i.next { i.y with wcur := (i.y.wcur + 7) % 8, resident := i.y.resident - 1 })
    else if i.was || i.y.spilled == 0 then i.exc s 0x0E 0 else i.enterTrap s 1)
    (fun i => decide (i.y.resident < 2) && !i.was && i.y.spilled != 0)

/-- The physical register behind frame register `r` of window `w`: own registers, then its arguments (Table 13-5). -/
def frameReg (w r : Nat) : Nat := if r < 12 then 8 + 16 * w + r else 20 + 16 * ((w + 7) % 8) + r - 12

/-- Slice address of frame register `r`, lane 0, of the group's frame `f` (R489). -/
def State.frameAddr (s : State) (i : Iss) (f r : Nat) : Nat :=
  let spill := match s.launchOf i.x.launch with | some l => l.spill | none => 0
  spill + 2048 * (16 * (i.x.groups * i.x.index + i.g) + f) + 128 * r

/-- WSPILL: the oldest resident window becomes frame SPILLED, through the store buffer (R486, R490). -/
def execWspill (c j g : Nat) (hi : Bool) (s : State) : Res :=
  s.windowInstr c j g hi 0xA2 0 (fun i s =>
    if !i.y.inTrap || i.y.resident < 2 || 16 ≤ i.y.spilled then i.exc s 0x0E 0
    else
      let w := (i.y.wcur + 9 - i.y.resident) % 8
      let st := (List.range 16).foldl (fun (s : State) r =>
        let d := (List.range 32).filterMap (fun t =>
          (s.xlate i.c i.x.vf (s.frameAddr i i.y.spilled r + 4 * t) true).map (fun a =>
            ((⟨0, a⟩ : Loc), leBytes 4 (i.y.v (frameReg w r) t))))
        s.sbPush i.c i.sched (storeEntries i.k d)) s
      i.put (st.count (R.YAR_CNT_SECTOR_EXTRA i.c) 63) (i.next { i.y with spilled := i.y.spilled + 1, resident := i.y.resident - 1 }))

/-- WFILL: frame SPILLED − 1 becomes the window below the oldest resident one (R487, R490). -/
def execWfill (c j g : Nat) (hi : Bool) (s : State) : Res :=
  s.windowInstr c j g hi 0xA3 0 (fun i s =>
    if !i.y.inTrap || 6 < i.y.resident || i.y.spilled == 0 then i.exc s 0x0E 0
    else
      let w := (i.y.wcur + 8 - i.y.resident) % 8
      let loc := fun (r t : Nat) => (s.xlate i.c i.x.vf (s.frameAddr i (i.y.spilled - 1) r + 4 * t) false).map (fun a => (⟨0, a⟩ : Loc))
      let cells := ((List.range 16).map (fun r => (List.range 32).filterMap (fun t => (loc r t).map (fun l => (r, t, l))))).flatten
      let s1 := s.sbDrainTo i.c i.sched (fun e => cells.any (fun q => e.holds i.k q.2.2 4 false))
      let go := cells.foldl (fun (a : Bool × Group × State) q =>
        match a.2.2.readLoc i.k q.2.2 4 with
        | (some b, s2) => (a.1, a.2.1.setV (frameReg w q.1) q.2.1 (ofLe b), s2)
        | (none, s2) => (false, a.2.1, s2)) (true, i.y, s1)
      if go.1 then
        i.put (go.2.2.count (R.YAR_CNT_SECTOR_EXTRA i.c) 63)
          (i.next { go.2.1 with spilled := i.y.spilled - 1, resident := i.y.resident + 1 })
      else go.2.2.poisonEnd i.k i.pc)

/-- WRESUME: leave the trap window; the trapped instruction issues again, and a deferred switch is free to follow
(R488, R491). -/
def execWresume (c j g : Nat) (hi : Bool) (s : State) : Res :=
  s.windowInstr c j g hi 0xA4 0 (fun i s =>
    if i.y.inTrap then i.put s ({ i.y with inTrap := false, resumed := true }.setPc i.hi i.y.trapPc) else i.exc s 0x0E 0)

/-- The window state word (Table 13-3). -/
def Group.windowState (y : Group) : Nat :=
  y.handlerCount * 2 ^ 17 + (if y.inTrap then y.trapKind else 0) * 2 ^ 16 + b2n y.inTrap * 2 ^ 15 + y.spilled * 2 ^ 8 +
    y.resident * 16 + y.wcur

/-- WRDSTATE (R479). -/
def execWrdstate (c j g : Nat) (hi : Bool) (s : State) : Res :=
  s.issue c j g hi [0xA5]
    (fun i => ⟨!i.x.windowed || decide (63 < i.d) || bitsOf i.w 42 0 != 0, [], 0⟩)
    (fun i s => i.put s (i.next (if i.groupOn then i.y.setU i.d i.y.windowState else i.y)))

end Sys2Proof.Machine
end

