-- ==== Sys2Proof/Machine/Matrix.lean ====
section
/-! DEFINITION. The matrix units (chapter 12): issue, staging and checks, arithmetic, tiles, completion; and switching
contexts on a cluster (R407 to R409, R450, R468, R491). -/

namespace Sys2Proof.Machine

/-! ### Descriptors (Tables 12-4 to 12-6) -/

/-- A field of a descriptor. -/
def MatOp.f (m : MatOp) (o n : Nat) : Nat := leAt m.desc o n
def MatOp.op (m : MatOp) : Nat := m.f 0 1
def MatOp.tile (m : MatOp) : Nat := m.f 1 1 % 8
def MatOp.flag (m : MatOp) (b : Nat) : Bool := tst (m.f 2 1) b
def MatOp.kk (m : MatOp) : Nat := m.f 3 1
def MatOp.aType (m : MatOp) : Nat := m.f 4 1
def MatOp.bType (m : MatOp) : Nat := m.f 5 1
/-- SPACES bit `b`: 0 local store, 1 slice address. -/
def MatOp.sp (m : MatOp) (b : Nat) : Nat := bitOf (m.f 6 1) b

def isMx (t : Nat) : Bool := decide (6 ≤ t ∧ t ≤ 10)

/-- The class of a pair of operand types (Table 12-1): 1 16-bit float, 2 8-bit float, 3 MXFP8, 4 MXFP6, 5 MXFP4, 6 INT8,
7 INT4; 0 for a pair not permitted. -/
def pairClass (a b : Nat) : Nat :=
  if (a = 2 && b == 2) || (a == 3 && b == 3) then 1
  else if (a = 4 || a == 5) && (b == 4 || b == 5) then 2
  else if (a = 6 || a == 7) && (b == 6 || b == 7) then 3
  else if (a = 8 || a == 9) && (b == 8 || b == 9) then 4
  else if a = 10 && b == 10 then 5
  else if a = 11 && b == 11 then 6
  else if a = 12 && b == 12 then 7
  else 0

/-- K permitted for a class (Table 12-1). -/
def kOk (cls k : Nat) : Bool :=
  match cls with
  | 1 => decide (1 ≤ k ∧ k ≤ 32)
  | 2 => decide (2 ≤ k ∧ k ≤ 32) && k % 2 == 0
  | 6 => decide (2 ≤ k ∧ k ≤ 32) && k % 2 == 0
  | 7 => decide (4 ≤ k ∧ k ≤ 32) && k % 4 == 0
  | _ => k == 32

/-- The result type of an MMA is INT32. -/
def MatOp.intMma (m : MatOp) : Bool := decide (11 ≤ m.aType)

/-- Bytes of an A row and of a B row. -/
def MatOp.aBytes (m : MatOp) : Nat := (m.kk * dtBits m.aType + 7) / 8
def MatOp.bBytes (m : MatOp) : Nat := 64 * dtBits m.bType / 8
def MatOp.outBytes (m : MatOp) : Nat := 64 * dtBits m.aType / 8

/-- The memory ranges of an operation: space, address, length, and whether it writes them. -/
def MatOp.ranges (m : MatOp) : List (Nat × Nat × Nat × Bool) :=
  match m.op with
  | 1 =>
    (List.range 16).map (fun r => (m.sp 0, m.f 8 8 + r * m.f 0x18 4, m.aBytes, false)) ++
    (List.range m.kk).map (fun r => (m.sp 1, m.f 0x10 8 + r * m.f 0x1C 4, m.bBytes, false)) ++
    (if isMx m.aType then [(m.sp 2, m.f 0x20 8, 16, false), (m.sp 3, m.f 0x28 8, 64, false)] else [])
  | 2 => (List.range 16).map (fun r => (m.sp 0, m.f 8 8 + r * m.f 0x18 4, 256, false))
  | 3 => (List.range 16).map (fun r => (m.sp 0, m.f 8 8 + r * m.f 0x18 4, m.outBytes, true))
  | _ => []

/-- Check 1: Reserved bytes and bits the operation does not use are 0. -/
def MatOp.clean (m : MatOp) : Bool :=
  let op := m.op
  let mma := op == 1
  let z := fun (b : Bool) (o n : Nat) => b || m.f o n == 0
  let fl := match op with | 1 => 1 | 2 => 8 | 3 => 6 | 4 => 0 | _ => 15
  let mem := op == 1 || op == 2 || op == 3
  let mx := mma && (isMx m.aType || isMx m.bType)
  let sp := if mma then (if mx then 15 else 3) else if mem then 1 else 0
  let known := decide (1 ≤ op ∧ op ≤ 4)
  decide (m.f 1 1 < 8) && Nat.land (m.f 2 1) (255 - fl) == 0 && m.f 7 1 == 0 && m.f 0x30 16 == 0 &&
    (!known || (z mma 3 1 && z (mma || op == 3) 4 1 && z mma 5 1 && Nat.land (m.f 6 1) (255 - sp) == 0 && z mem 8 8 &&
      z mma 0x10 8 && z mem 0x18 4 && z mma 0x1C 4 && z mx 0x20 8 && z mx 0x28 8))

/-- Check 5: alignment, and no A or B row across a 64 KiB page (R454 to R456). -/
def MatOp.aligned (m : MatOp) : Bool :=
  let a16 := fun (o n : Nat) => m.f o n % 16 == 0
  a16 8 8 && a16 0x10 8 && a16 0x18 4 && a16 0x1C 4 && a16 0x20 8 && a16 0x28 8 &&
    (m.op != 1 || (m.ranges.take (16 + m.kk)).all (fun r => decide (r.2.1 % 65536 + r.2.2.1 ≤ 65536)))

/-- The tile an operation finds: its context's logical tile, as the operation running on the same unit will leave it. -/
def State.tileSeen (s : State) (u : Nat) (m : MatOp) : Nat × Bool :=
  let t := match s.ctx m.ctx with | some x => fget (fun _ => ({} : LTile)) x.tiles m.tile | none => {}
  match (s.munit u).running with
  | some r =>
    if r.ctx = m.ctx && r.tile == m.tile then
      match r.op with
      | 1 => (1, r.intMma)
      | 2 => (1, r.flag 3)
      | 3 => if r.flag 2 then (0, false) else (t.st, t.int)
      | _ => (0, false)
    else (t.st, t.int)
  | none => (t.st, t.int)

/-- Check 6: the tile's type matches (R460, R461). -/
def MatOp.typeOk (m : MatOp) (seen : Nat × Bool) : Bool :=
  if seen.1 = 0 then true
  else match m.op with
    | 1 => m.intMma == seen.2
    | 2 => m.flag 3 == seen.2
    | 3 => (m.aType == 13) == seen.2
    | _ => true

/-- The first failing check of Table 12-6: its subcode; 0 where none fails. -/
def State.descCheck (s : State) (u : Nat) (m : MatOp) (x : Ctx) : Nat :=
  let rs := m.ranges
  let slice := rs.filter (fun r => r.1 == 1)
  let valid := fun (w : Bool) (r : Nat × Nat × Nat × Bool) => (addrs r.2.1 r.2.2.1).all (fun a => (s.xlate (m.ctx / 8) x.vf a w).isSome)
  if !m.clean then 1
  else if m.op = 0 || 4 < m.op then 2
  else if (m.op = 1 && pairClass m.aType m.bType == 0) || (m.op == 3 && !(decide (1 ≤ m.aType ∧ m.aType ≤ 5) || m.aType == 13)) then 3
  else if m.op = 1 && !kOk (pairClass m.aType m.bType) m.kk then 4
  else if !m.aligned then 5
  else if !m.typeOk (s.tileSeen u m) then 9
  else if rs.any (fun r => r.1 == 0 && decide (x.share < r.2.1 + r.2.2.1)) then 6
  else if slice.any (fun r => !valid false r) then 7
  else if slice.any (fun r => r.2.2.2 && !valid true r) then 8
  else 0

/-! ### Issue (R403, R404, R444) -/

/-- Operations of a unit that have not started. -/
def MUnit.waiting (x : MUnit) : Nat := x.queue.length + b2n x.staged.isSome

/-- The lane that issues an MMA, the address of its descriptor, and the units it may go to. -/
def Iss.mmaAddr (i : Iss) : Nat :=
  i.v i.a i.first + (if tst i.w 26 then w32 * i.v (i.a + 1) i.first else 0)

def Iss.mmaUnits (i : Iss) : List Nat := match bitsOf i.w 24 23 with | 0 => [0] | 1 => [1] | _ => [0, 1]

/-- The exceptions of an MMA (Table 11-10). -/
def Iss.mmaExc (i : Iss) (s : State) : List (Bool × Nat) :=
  let a := i.mmaAddr
  [(a % 64 != 0, 6), (!tst i.w 26 && decide (i.x.share < a + 64), 7),
   (tst i.w 26 && (addrs a 64).any (fun b => (s.xlate i.c i.x.vf b false).isNone), 4), (i.y.inTrap, 0x0D)]

/-- The unit an MMA goes to: one of its own with room in its queue. -/
def Iss.mmaUnit (i : Iss) (s : State) : Option Nat :=
  i.mmaUnits.find? (fun u => decide ((s.munit (2 * i.c + u)).waiting < 16))

/-- MMA: one operation joins a unit's queue; beyond a limit its group waits (R404, R444). -/
def execMma (c j g : Nat) (hi : Bool) (s : State) : Res :=
  s.issue c j g hi [0x90]
    (fun i => ⟨i.gBad || bitsOf i.w 24 23 == 3 || (tst i.w 26 && i.a % 2 == 1), [(i.a, if tst i.w 26 then 2 else 1)], 0⟩)
    (fun i s =>
      let t := i.first
      if !i.groupOn then i.put s (i.next i.y)
      else
        i.firstExc s (i.mmaExc s) (fun _ =>
          match i.mmaUnit s with
          | none => s
          | some u =>
            let m : MatOp := { seq := s.yar.nextOp, ctx := i.k, unit := u, group := i.g, lane := t, space := bitOf i.w 26,
                               addr := i.mmaAddr, ctr := if tst i.w 25 then some i.ctrOf else none, desc := [], aRows := [],
                               bRows := [], aScale := [], bScale := [] }
            let y := i.next { i.y with inFlight := fset (fun _ => 0) i.y.inFlight t (fget (fun _ => 0) i.y.inFlight t + 1) }
            let s1 := (i.put s y).modUnit (2 * i.c + u) (fun x => { x with queue := x.queue ++ [m] })
            { s1 with yar := { s1.yar with nextOp := s1.yar.nextOp + 1 } }))
    (fun i s => i.groupOn && !(i.mmaExc s).any (fun p => p.1) &&
      ((i.mmaUnit s).isNone || decide (8 ≤ fget (fun _ => 0) i.y.inFlight i.first)))

/-! ### Staging (R452, R453, R463) -/

/-- Bytes of an operand range. -/
def State.operand (s : State) (m : MatOp) (x : Ctx) (sp a n : Nat) : List Byte :=
  if sp = 0 then (addrs a n).map (fget (fun _ => 0) x.store) else s.memBytes (m.ctx / 8) x.vf a n

/-- The operation with its operands read. -/
def State.readOperands (s : State) (m : MatOp) (x : Ctx) : MatOp :=
  let row := fun (r : Nat × Nat × Nat × Bool) => s.operand m x r.1 r.2.1 r.2.2.1
  match m.op with
  | 1 => { m with aRows := (m.ranges.take 16).map row, bRows := ((m.ranges.drop 16).take m.kk).map row,
                  aScale := if isMx m.aType then s.operand m x (m.sp 2) (m.f 0x20 8) 16 else [],
                  bScale := if isMx m.aType then s.operand m x (m.sp 3) (m.f 0x28 8) 64 else [] }
  | 2 => { m with aRows := m.ranges.map row }
  | _ => m

/-- Every operation queued, staged or running on a unit. -/
def MUnit.ops (x : MUnit) : List MatOp := x.queue ++ x.staged.toList ++ x.running.toList

/-- An operation of the other unit, issued earlier, names the same logical tile. An operation whose descriptor is not
read yet may name any tile. -/
def State.tileBusy (s : State) (u : Nat) (m : MatOp) : Bool :=
  (s.munit (2 * (u / 2) + 1 - u % 2)).ops.any (fun o => o.ctx == m.ctx && decide (o.seq < m.seq) && (o.desc.isEmpty || o.tile == m.tile))

/-- OPERATION_STAGE: a unit reads and checks the descriptor at its queue head and reads its operands (R452, R453,
R463). -/
def execOperationStage (u : Nat) (s : State) : Res :=
  let x := s.munit u
  match x.queue, x.staged with
  | m0 :: q, none =>
    match s.ctx m0.ctx with
    | none => .next s
    | some c =>
      let desc := s.operand m0 c m0.space m0.addr 64
      let m := { m0 with desc := desc }
      if s.frozen || s.tileBusy u m then .next s
      else
        let code := s.descCheck u m c
        if code ≠ 0 then
          let s1 := s.setReg (R.MXU_LAST_FAULT u) (BitVec.ofNat 32 (code * 2 ^ 24 + c.vf * 2 ^ 18 + m.ctx % 8 * 2 ^ 15 + m.op % 16 * 2 ^ 11))
          .next (s1.failLaunch c.launch 0x20 0x0A 0x0A 0 0)
        else if m.ranges.any (fun r => r.1 == 1 &&
            (match s.memCheck (m.ctx / 8) c.vf r.2.1 r.2.2.1 r.2.2.2 false with | some _ => true | none => false)) then
          .next (s.poisonEnd m.ctx 0)
        else .next (s.modUnit u (fun x => { x with queue := q, staged := some (s.readOperands m c) }))
  | _, _ => .next s

/-! ### Tiles (R460, R465 to R468) -/

/-- The physical tile of unit `u` bound to a logical tile. -/
def State.boundOn (s : State) (u k t : Nat) : Option Nat :=
  (List.range 4).find? (fun p => match fget (fun _ => none) (s.munit u).tiles p with
    | some x => x.ctx == k && x.ltile == t
    | none => false)

def State.ptile (s : State) (u p : Nat) : Option PTile := fget (fun _ => none) (s.munit u).tiles p

def State.setPtile (s : State) (u p : Nat) (t : Option PTile) : State :=
  s.modUnit u (fun x => { x with tiles := fset (fun _ => none) x.tiles p t })

def State.setLtile (s : State) (k t : Nat) (v : LTile) : State :=
  s.modCtx k (fun x => { x with tiles := fset (fun _ => ({} : LTile)) x.tiles t v })

/-- Park a physical tile in its owner's park area (R466, R468). -/
def State.parkTile (s : State) (u p : Nat) : State :=
  match s.ptile u p with
  | none => s
  | some t =>
    match s.ctx t.ctx with
    | none => s
    | some x =>
      let base := x.share - 32768 + 4096 * t.ltile
      let st := (List.range 4096).foldl (fun m o =>
        fset (fun _ => 0) m (base + o) (BitVec.ofNat 8 ((fget (fun _ => 0) t.vals (o / 4)).toNat / 256 ^ (o % 4)))) x.store
      let s1 := s.setCtx t.ctx (some { x with store := st, tiles := fset (fun _ => ({} : LTile)) x.tiles t.ltile { st := 2, int := t.int } })
      (s1.setPtile u p none).count (R.MXU_CNT_PARKS u) 1

/-- The tile to park when none is free: the least recently used one that no started or staged operation names; ties go to
the lowest number (R466). -/
def State.victim (s : State) (u : Nat) : Option Nat :=
  let named := fun (t : PTile) => [2 * (u / 2), 2 * (u / 2) + 1].any (fun v =>
    ((s.munit v).staged.toList ++ (s.munit v).running.toList).any (fun m => m.ctx == t.ctx && m.tile == t.ltile))
  let c := (List.range 4).filterMap (fun p => match s.ptile u p with | some t => if named t then none else some (p, t.used) | none => none)
  (c.find? (fun a => c.all (fun b => decide (a.2 ≤ b.2)))).map (fun a => a.1)

/-- A free physical tile of unit `u`, after parking a victim if need be. -/
def State.freeTile (s : State) (u : Nat) : Option (Nat × State) :=
  match (List.range 4).find? (fun p => (s.ptile u p).isNone) with
  | some p => some (p, s)
  | none => (s.victim u).map (fun p => (p, s.parkTile u p))

/-- The values a parked tile holds in its slot. -/
def parkedVals (x : Ctx) (t : Nat) : FMap Word :=
  let base := x.share - 32768 + 4096 * t
  (List.range 1024).foldl (fun m e =>
    fset (fun _ => 0) m e (BitVec.ofNat 32 (ofLe ((addrs (base + 4 * e) 4).map (fget (fun _ => 0) x.store))))) []

/-- How binding a tile ends: bound at a physical tile, waiting, or an uncorrectable error. -/
inductive Bound where
  | ok (p : Nat) (s : State)
  | wait
  | bad
deriving DecidableEq, Repr

/-- Bind logical tile `t` of context `k` on unit `u` for an operation (R466). A parked tile whose slot was overwritten may
be found uncorrectable; that is a free choice (log entry 24). -/
def State.bind (s : State) (u : Nat) (m : MatOp) (int : Bool) : Bound :=
  let o := 2 * (u / 2) + 1 - u % 2
  let t := m.tile
  let use := fun (p : Nat) (s : State) (int : Bool) (vals : FMap Word) =>
    Bound.ok p (((s.setPtile u p (some { ctx := m.ctx, ltile := t, int := int, vals := vals, used := m.seq })).setLtile m.ctx t
      { st := 1, int := int }))
  match s.boundOn u m.ctx t with
  | some p => match s.ptile u p with | some x => use p s x.int x.vals | none => .wait
  | none =>
    match s.boundOn o m.ctx t with
    | some q =>
      if s.tileBusy u m then .wait
      else match s.ptile o q, s.freeTile u with
        | some x, some (p, s1) => use p ((s1.setPtile o q none).count (R.MXU_CNT_MOVES u) 1) x.int x.vals
        | _, _ => .wait
    | none =>
      match s.ctx m.ctx, s.freeTile u with
      | some x, some (p, s1) =>
        let lt := fget (fun _ => ({} : LTile)) x.tiles t
        if lt.st = 2 then
          if lt.dirty && tst s.free.toNat 0 then .bad
          else
            let x1 := match s1.ctx m.ctx with | some x1 => x1 | none => x
            use p (s1.drawn.count (R.MXU_CNT_RESTORES u) 1) lt.int (parkedVals x1 t)
        else use p s1 int []
      | _, _ => .wait

/-! ### Arithmetic (R455 to R461) -/

/-- Element `i` of a packed row. -/
def element (row : List Byte) (bits i : Nat) : Nat := leAt row (bits * i / 8) 3 / 2 ^ (bits * i % 8) % 2 ^ bits

/-- The exact value of an MX or plain float element with a scale byte (127 is 1). -/
def scaled (f : Fmt) (e scale : Nat) : Num :=
  if scale = 255 then .nan
  else match f.decode e with
    | .fin s m x => .fin s m (x + scale - 127)
    | y => y

/-- One FP32 tile element after an MMA (R457, R458). -/
def MatOp.dotF (m : MatOp) (old : Num) (r n : Nat) : Nat :=
  match dtFmt m.aType, dtFmt m.bType with
  | some fa, some fb =>
    let sum := (List.range m.kk).foldl (fun acc k =>
      let a := scaled fa (element (m.aRows.getD r []) (dtBits m.aType) k) (if isMx m.aType then leAt m.aScale r 1 else 127)
      let b := scaled fb (element (m.bRows.getD k []) (dtBits m.bType) n) (if isMx m.bType then leAt m.bScale n 1 else 127)
      match acc with
      | none => some (a.mul b)
      | some x => some (x.add 0 (a.mul b))) (none : Option Num)
    f32.encode 0 false (match sum with | some x => x.add 0 old | none => old)
  | _, _ => 0

/-- One INT32 tile element after an MMA (R459). -/
def MatOp.dotI (m : MatOp) (old r n : Nat) : Nat :=
  let w := dtBits m.aType
  unsgn 32 ((List.range m.kk).foldl (fun acc k =>
    acc + sgn w (element (m.aRows.getD r []) w k) * sgn w (element (m.bRows.getD k []) w n)) (sgn 32 old))

/-- Every element of a tile. -/
def tileMap (f : Nat → Nat → Nat → Nat) (old : FMap Word) : FMap Word :=
  (List.range 1024).foldl (fun m e => fset (fun _ => 0) m e (BitVec.ofNat 32 (f (e / 64) (e % 64) (fget (fun _ => 0) old e).toNat))) []

/-- The tile after an MMA; `zero` takes the old values as 0 (R460). -/
def MatOp.product (m : MatOp) (zero : Bool) (old : FMap Word) : FMap Word :=
  tileMap (fun r n v =>
    let w := if zero then 0 else v
    if m.intMma then m.dotI w r n else m.dotF (f32.decode w) r n) old

/-! ### Running and completing (R461, R462, R464) -/

/-- The staged operation of unit `u`, when it is of this OP and the unit is free. -/
def State.toRun (s : State) (u op : Nat) : Option MatOp :=
  match (s.munit u).staged, (s.munit u).running with
  | some m, none => if m.op = op && !s.frozen then some m else none
  | _, _ => none

/-- It runs and has done its work, in `steps` k-steps. -/
def State.ran (s : State) (u : Nat) (m : MatOp) (steps : Nat) : State :=
  s.modUnit u (fun x => { x with staged := none, running := some m, done := true, steps := steps })

/-- MMA_OPERATION: the staged MMA runs its k-steps into its tile (R457 to R460, R462). -/
def execMmaOperation (u : Nat) (s : State) : Res :=
  match s.toRun u 1 with
  | none => .next s
  | some m =>
    let dead := match s.ctx m.ctx with | some x => (fget (fun _ => ({} : LTile)) x.tiles m.tile).st == 0 | none => true
    match s.bind u m m.intMma with
    | .wait => .next s
    | .bad => .next (s.poisonEnd m.ctx 0)
    | .ok p s1 =>
      match s1.ptile u p with
      | none => .next s
      | some t => .next ((s1.setPtile u p (some { t with vals := m.product (dead || m.flag 0) t.vals })).ran u m m.kk)

/-- LOAD: the staged LOAD reads its rows into the tile (R461). -/
def execLoad (u : Nat) (s : State) : Res :=
  match s.toRun u 2 with
  | none => .next s
  | some m =>
    match s.bind u m (m.flag 3) with
    | .wait => .next s
    | .bad => .next (s.poisonEnd m.ctx 0)
    | .ok p s1 =>
      match s1.ptile u p with
      | none => .next s
      | some t => .next ((s1.setPtile u p (some { t with vals := tileMap (fun r n _ => leAt (m.aRows.getD r []) (4 * n) 4) [] })).ran u m 32)

/-- The bytes of one row of a STORE (R461). -/
def MatOp.outRow (m : MatOp) (vals : FMap Word) (r : Nat) : List Byte :=
  ((List.range 64).map (fun n =>
    let v := (fget (fun _ => 0) vals (64 * r + n)).toNat
    leBytes (dtBits m.aType / 8) (match dtFmt m.aType with | some f => f.encode 0 (m.flag 1) (f32.decode v) | none => v))).flatten

/-- Write one row of a STORE. -/
def State.storeRow (s : State) (m : MatOp) (vf a : Nat) (bs : List Byte) : State :=
  if m.sp 0 = 0 then s.modCtx m.ctx (fun x => (bs.zipIdx).foldl (fun x (b : Byte × Nat) => x.putByte (a + b.2) b.1) x)
  else (bs.zipIdx).foldl (fun s (b : Byte × Nat) =>
    match s.xlate (m.ctx / 8) vf (a + b.2) true with
    | some d => (s.writeThrough (m.ctx / 8) d b.1).setPoison d 0
    | none => s) s

/-- STORE: the staged STORE writes the tile's rows; a DEAD tile's are zeros (R461). -/
def execStore (u : Nat) (s : State) : Res :=
  match s.toRun u 3 with
  | none => .next s
  | some m =>
    match s.ctx m.ctx with
    | none => .next s
    | some x =>
      let write := fun (s : State) (vals : FMap Word) =>
        ((List.range 16).foldl (fun s r => s.storeRow m x.vf (m.f 8 8 + r * m.f 0x18 4) (m.outRow vals r)) s).ran u m 32
      if (fget (fun _ => ({} : LTile)) x.tiles m.tile).st = 0 then .next (write s [])
      else match s.bind u m false with
        | .wait => .next s
        | .bad => .next (s.poisonEnd m.ctx 0)
        | .ok p s1 => match s1.ptile u p with | none => .next s | some t => .next (write s1 t.vals)

/-- The tile becomes DEAD, wherever it is. -/
def State.killTile (s : State) (u k t : Nat) : State :=
  let s1 := [2 * (u / 2), 2 * (u / 2) + 1].foldl (fun s v => match s.boundOn v k t with | some p => s.setPtile v p none | none => s) s
  s1.setLtile k t {}

/-- RELEASE: the tile becomes DEAD without being written (R461). -/
def execRelease (u : Nat) (s : State) : Res :=
  match s.toRun u 4 with
  | none => .next s
  | some m => if s.tileBusy u m then .next s else .next ((s.killTile u m.ctx m.tile).ran u m 1)

/-- MATRIX_OP_COMPLETE: the running operation completes and raises its counter (R464, R397). -/
def execMatrixOpComplete (u : Nat) (s : State) : Res :=
  let x := s.munit u
  match x.running with
  | none => .next s
  | some m =>
    if !x.done || s.frozen then .next s
    else
      let s1 := s.modUnit u (fun x => { x with running := none, done := false, steps := 0 })
      let s2 := if m.op = 3 && m.flag 2 then s1.killTile u m.ctx m.tile else s1
      let s3 := (s2.count (R.MXU_CNT_OPS u) 1).count (R.MXU_CNT_KSTEPS u) x.steps
      let s4 := s3.modGroup m.ctx m.group (fun y =>
        { y with inFlight := fset (fun _ => 0) y.inFlight m.lane (fget (fun _ => 0) y.inFlight m.lane - 1) })
      .next (match m.ctr with | some n => s4.raiseCtr m.ctx n | none => s4)

/-! ### Switching (R407 to R409, R450, R468, R491) -/

/-- Context `k` runs on its cluster and its slice may not (R407). -/
def State.outgoing (s : State) (k : Nat) : Bool :=
  match s.ctx k with | some x => !x.parked && !s.runsOn x (k / 8) | none => false

/-- Context `k` is switched out and its slice may run again. -/
def State.incoming (s : State) (k : Nat) : Bool :=
  match s.ctx k with | some x => x.parked && s.runsOn x (k / 8) | none => false

/-- Switch context `k` out (Table 10-4): its stores drain, its queued operations are kept, its tiles are parked. An
operation in progress has done its work and completes by itself. -/
def State.switchOut (s : State) (k : Nat) : State :=
  let us := [2 * (k / 8), 2 * (k / 8) + 1]
  let s1 := s.sbDrainCtx k
  let mine := fun (m : MatOp) => m.ctx == k
  let ops := (us.map (fun u => ((s1.munit u).queue ++ (s1.munit u).staged.toList).filter mine)).flatten
  let s2 := us.foldl (fun s u => s.modUnit u (fun x =>
    { x with queue := x.queue.filter (fun m => !mine m), staged := x.staged.filter (fun m => !mine m) })) s1
  let tiles := (us.map (fun u => (List.range 4).filterMap (fun p => match s2.ptile u p with
    | some t => if t.ctx = k then some (u, p, t.ltile) else none
    | none => none))).flatten
  let s3 := tiles.foldl (fun s (t : Nat × Nat × Nat) => s.parkTile t.1 t.2.1) s2
  let sorted := ops.mergeSort (fun a b => decide (a.seq ≤ b.seq))
  s3.modCtx k (fun x => { x with
    parked := true
    kept := sorted.map (fun (m : MatOp) => { m with desc := [], aRows := [], bRows := [], aScale := [], bScale := [] })
    parkedBy := tiles.map (fun (t : Nat × Nat × Nat) => 8 * t.1 + t.2.2) })

/-- Context `k` resumes: its parked tiles are restored in ascending order, its operations queued again (R468). -/
def State.switchIn (s : State) (k : Nat) : State :=
  match s.ctx k with
  | none => s
  | some x =>
    let back := fun (s : State) (e : Nat) =>
      let u := 2 * (k / 8) + e / 8 % 2
      match s.freeTile u with
      | none => s
      | some (p, s1) =>
        let lt := fget (fun _ => ({} : LTile)) x.tiles (e % 8)
        if lt.st = 2 then
          ((s1.setPtile u p (some { ctx := k, ltile := e % 8, int := lt.int, vals := parkedVals x (e % 8), used := s1.yar.nextOp })).setLtile
            k (e % 8) { st := 1, int := lt.int }).count (R.MXU_CNT_RESTORES u) 1
        else s
    let s1 := (x.parkedBy.mergeSort (fun a b => decide (a % 8 ≤ b % 8))).foldl back s
    let s2 := x.kept.foldl (fun s m =>
      s.modUnit (2 * (k / 8) + m.unit) (fun u => { u with queue := u.queue ++ [m] })) s1
    s2.modCtx k (fun x => { x with parked := false, kept := [], parkedBy := [] })

/-- An outgoing windowed context of cluster `c` has a group in the trap window (R491). -/
def State.deferring (s : State) (c : Nat) : Bool :=
  (slotsOf c).any (fun k => s.outgoing k && (match s.ctx k with
    | some x => (List.range x.groups).any (fun g => (x.group g).inTrap)
    | none => false))

/-- The contexts that leave cluster `c` at a switch. -/
def State.leaving (s : State) (c : Nat) : List Nat := (slotsOf c).filter s.outgoing

/-- A switch was performed: it is counted, its length recorded, and each slice that left the cluster counts it (R548). -/
def State.switched (s : State) (ks : List Nat) (took : Nat) : State :=
  if ks.isEmpty then s
  else
    let ns := (ks.filterMap (fun k => (s.ctx k).map (fun x => x.vf))).eraseDups
    let s1 := (s.bump F.SCH_CNT_SWITCH_COUNT).setFld F.SCH_SWITCH_MAX_CYCLES (max (s.fld F.SCH_SWITCH_MAX_CYCLES) (min took 0xFFFF))
    ns.foldl (fun s n => s.modAcct n (fun a => { a with switchesOut := a.switchesOut + 1 })) s1

/-- A context that a layout change moves goes to the slot decided for it (R269, R271). -/
def State.moveCtx (s : State) (k dest : Nat) : State :=
  match s.ctx k with
  | none => s
  | some x =>
    let op := fun (m : MatOp) => { m with ctx := dest }
    let tile := fun (t : Nat) => t % 8 + 8 * (t / 8 % 2 + 2 * (dest / 8))
    let y : Ctx := { x with kept := x.kept.map op, parkedBy := x.parkedBy.map tile, moveTo := 0,
                            grp := x.grp.map (fun (e : Nat × Group) => (e.1, { e.2 with yieldOn := [] })) }
    (s.setCtx k none).setCtx dest (some y)

/-- The contexts of cluster `c` that wait to move and have been switched out leave for their new slots. -/
def State.moveParked (s : State) (c : Nat) : State :=
  (slotsOf c).foldl (fun s k => match s.ctx k with
    | some x => if x.moveTo != 0 && x.parked then s.moveCtx k (x.moveTo - 1) else s
    | none => s) s

/-- CONTEXT_SWITCH: a switch signal reaches cluster `c`: contexts that no slot runs there now are switched out, those that
a slot runs again come in. A group in the trap window defers it. `cycles` is how long it was deferred, `took` how long the
switch took (R407 to R409, R450, R491, R548). -/
def execContextSwitch (c cycles took : Nat) (s : State) : Res :=
  if s.frozen || 48 ≤ c then .next s
  else if s.deferring c then .next (s.modCluster c (fun x => if x.defer = 0 then { x with defer := s.runClk + 1 } else x))
  else
    let s1 := if (s.cluster c).defer = 0 then s
      else (s.modCluster c (fun x => { x with defer := 0 })).setFld ⟨R.WIN_DEFER_MAX c, 19, 0⟩
        (max (s.fld ⟨R.WIN_DEFER_MAX c, 19, 0⟩) (min cycles 0xFFFFF))
    let s2 := (((s1.leaving c).foldl State.switchOut (s1.switched (s1.leaving c) took)).moveParked c)
    .next (((slotsOf c).filter s2.incoming).foldl State.switchIn s2)

end Sys2Proof.Machine
end

