-- ==== Sys2Proof/Machine/Numeric.lean ====
section
/-! DEFINITION. What the reduce-normalise and top-k engines compute on rows of elements (R518 to R524, Table 14-5). -/

namespace Sys2Proof.Machine

/-- An element as the engines keep it: a float, decoded exactly, or an INT32 (R519). -/
inductive Val where
  | f (x : Num)
  | i (n : Int)
deriving DecidableEq, Repr

/-- The types the reduce-normalise engine accepts (Table 14-5). -/
def rnType (dt : Nat) : Bool := decide (1 ≤ dt ∧ dt ≤ 5) || dt == 13

def Val.decode (dt code : Nat) : Val :=
  match dtFmt dt with
  | some t => .f (t.decode code)
  | none => .i (sgn (dtBits dt) code)

def Val.num : Val → Num
  | .f x => x
  | .i n => ofInt n 0 false

def Val.isInt : Val → Bool
  | .f _ => false
  | .i _ => true

/-- Conversion to OUT_TYPE: nearest even, SAT set (R520). -/
def Val.encode (dt : Nat) (v : Val) : Nat :=
  match dtFmt dt, v with
  | some t, _ => t.encode 0 true v.num
  | none, .i n => unsgn (dtBits dt) (max (-(2 ^ (dtBits dt - 1) : Int)) (min (2 ^ (dtBits dt - 1) - 1 : Int) n))
  | none, .f x => unsgn (dtBits dt) (x.toIntSat 0 (-(2 ^ (dtBits dt - 1) : Int)) (2 ^ (dtBits dt - 1) - 1 : Int))

/-- An INT32 result modulo 2^32 (R521). -/
def wrap32 (n : Int) : Val := .i (sgn 32 (unsgn 32 n))

/-- A bounded function's FP32 result; a NaN gives the NaN (R521). -/
def fnVal (fn : Nat) (x : Num) (r : Nat) : Val := if x = .nan then .f .nan else .f (f32.decode (boundedFn fn x r))

/-- ELEMENTWISE functions 0 to 10 (Table 14-5). -/
def elementwise (fn : Nat) (a b : Val) (r : Nat) : Val :=
  match a, b, fn with
  | .i x, .i y, 0 => wrap32 (x + y)
  | .i x, .i y, 1 => wrap32 (x - y)
  | .i x, .i y, 2 => wrap32 (x * y)
  | .i x, .i y, 3 => .i (max x y)
  | .i x, .i y, 4 => .i (min x y)
  | .i x, _, 5 => .i (max x 0)
  | a, _, 10 => a
  | a, b, 0 => .f (a.num.add 0 b.num).r32
  | a, b, 1 => .f (a.num.add 0 b.num.neg).r32
  | a, b, 2 => .f (a.num.mul b.num).r32
  | a, b, 3 => .f (a.num.most b.num)
  | a, b, 4 => .f (a.num.least b.num)
  | a, _, 5 => if a.num = .nan then .f .nan else .f (a.num.most (.fin false 0 0))
  | a, _, 6 => fnVal 9 a.num r
  | a, _, 7 => fnVal 8 a.num r
  | a, _, 8 => fnVal 7 a.num r
  | a, _, _ => fnVal 1 a.num r

/-- Left-to-right sum, rounded to FP32 after each addition (R519). -/
def chain32 : List Num → Num
  | [] => .fin false 0 0
  | x :: t => t.foldl (fun s y => (s.add 0 y).r32) x

/-- Consecutive blocks of 64. -/
def blocks64 : Nat → List Num → List (List Num)
  | 0, _ => []
  | n + 1, l => if l.isEmpty then [] else l.take 64 :: blocks64 n (l.drop 64)

/-- The sum over a row (R519). -/
def rowSum (l : List Num) : Num := chain32 ((blocks64 l.length l).map chain32)

/-- Exact quotient to 64 bits and a sticky bit, then rounded to FP32. -/
def Num.div32 (x y : Num) : Num :=
  match x, y with
  | .nan, _ => .nan
  | _, .nan => .nan
  | .inf _, .inf _ => .nan
  | .inf s, .fin t _ _ => .inf (s != t)
  | .fin s _ _, .inf t => .fin (s != t) 0 0
  | .fin s m e, .fin t n g =>
    if n = 0 then (if m = 0 then .nan else .inf (s != t))
    else
      let k := 64 + Nat.log2 n
      let q := m * 2 ^ k / n
      (Num.fin (s != t) (2 * q + b2n (m * 2 ^ k % n != 0)) (e - g - k - 1)).r32

def natNum (n : Nat) : Num := .fin false n 0

/-- MEAN (R519). -/
def rowMean (l : List Num) : Num := (rowSum l).div32 (natNum l.length)

/-- REDUCE: 0 sum, 1 max, 2 min, 3 mean (R519, R521). -/
def reduceRow (fn : Nat) (l : List Val) : Val :=
  match l with
  | [] => .f (.fin false 0 0)
  | v :: t =>
    if l.all Val.isInt then
      let x := l.map (fun v => match v with | .i n => n | .f _ => 0)
      match fn with
      | 0 => wrap32 (x.foldl (· + ·) 0)
      | 1 => .i (x.foldl max (x.headD 0))
      | 2 => .i (x.foldl min (x.headD 0))
      | _ => .f (rowMean (l.map Val.num))
    else
      let n := l.map Val.num
      match fn with
      | 0 => .f (rowSum n)
      | 3 => .f (rowMean n)
      | _ => if n.any (· == .nan) then .f .nan
             else .f (t.foldl (fun m w => if fn = 1 then m.most w.num else m.least w.num) v.num)

/-- NORMALISE: 0 layer, 1 RMS, each step rounded to FP32 (R520). -/
def normaliseRow (kind : Nat) (eps : Num) (gamma : List Num) (l : List Num) (r : Nat) : List Num :=
  let mean := if kind = 0 then rowMean l else .fin false 0 0
  let d := if kind = 0 then l.map (fun a => (a.add 0 mean.neg).r32) else l
  let var := rowMean (d.map (fun x => (x.mul x).r32))
  let s := (fnVal 1 (var.add 0 eps).r32 r).num
  (d.zipIdx).map (fun (p : Num × Nat) => ((p.1.mul s).r32.mul (gamma.getD p.2 (.fin false 1 0))).r32)

/-- SOFTMAX (R520, R521). -/
def softmaxRow (scale : Num) (l : List Num) (r : Nat → Nat) : List Num :=
  let z := l.map (fun a => (scale.mul a).r32)
  if z.all (· == .inf true) then z.map (fun _ => .fin false 0 0)
  else
    let mx := (reduceRow 1 (z.map Val.f)).num
    let e := (z.zipIdx).map (fun (p : Num × Nat) => (fnVal 7 (p.1.add 0 mx.neg).r32 (r p.2)).num)
    let t := rowSum e
    e.map (fun x => x.div32 t)

/-- TOPK: indices of the K selected elements, in order (R523). -/
def topkRow (k : Nat) (largest : Bool) (l : List Val) : List Nat :=
  let le := fun (a b : Val × Nat) =>
    match a.1.num.cmp b.1.num with
    | some o => if o = 0 then decide (a.2 ≤ b.2) else (if largest then decide (0 < o) else decide (o < 0))
    | none => if a.1.num = .nan then (b.1.num == .nan && decide (a.2 ≤ b.2)) else true
  (((l.zipIdx).mergeSort le).take k).map (fun p => p.2)

end Sys2Proof.Machine
end

