-- ==== Sys2Proof/Machine/Engines.lean ====
section
/-! DEFINITION. The fixed-function engines (chapter 14): blocks, sub-queues, dispatch, steps, engine fences and the
operations of each class. -/

namespace Sys2Proof.Machine

/-! ### Blocks (Tables 14-3, 14-4) -/

def Block.src (b : Block) : Nat := b.field 0x10 8
def Block.dst (b : Block) : Nat := b.field 0x18 8
def Block.origin (b : Block) : Nat := bitsOf (b.field 6 2) 15 12
def Block.queue (b : Block) : Nat := bitsOf (b.field 6 2) 11 0
def Block.srcSpace (b : Block) : Nat := bitsOf (b.field 0x38 4) 31 28
def Block.dstSpace (b : Block) : Nat := bitsOf (b.field 0x38 4) 27 24
def Block.rows (b : Block) : Nat := b.field 0x28 4
def Block.rowLen (b : Block) : Nat := b.field 0x2C 4

/-- Bytes of an element of a DTYPE code that is a whole number of bytes. -/
def dtBytes (dt : Nat) : Nat := dtBits dt / 8

/-- Bytes of a GATHER row (R517). -/
def Block.rowBytes (b : Block) : Nat := if b.op = 2 then 65536 else b.field 0x28 4
def Block.tableStride (b : Block) : Nat := if b.op = 2 then 65536 else b.field 0x34 4

/-- Rows of a row block that one step handles: whole rows up to 64 KiB, at least one (R499, R518). -/
def Block.rowsPerStep (b : Block) : Nat :=
  let dt := if b.cls = 4 then b.field 0x33 1 else b.field 0x31 1
  max 1 (65536 / max 1 (b.rowLen * dtBytes dt))

/-- Bytes the block moves or writes, for classes divided by bytes. -/
def Block.total (b : Block) : Nat :=
  match b.cls with
  | 1 => b.field 0x20 4 * b.field 0x24 2 * b.field 0x26 2
  | 2 => b.rowBytes * b.field 0x2C 4
  | 5 => b.field 0x20 8
  | _ => b.field 0x28 8

/-- Steps of a block (R499). -/
def Block.stepCount (b : Block) : Nat :=
  if b.cls = 3 || b.cls == 4 then max 1 ((b.rows + b.rowsPerStep - 1) / b.rowsPerStep)
  else max 1 ((b.total + 65535) / 65536)

/-- Bytes, or elements, of the block's next step. -/
def Block.stepBytes (b : Block) : Nat := min 65536 (b.total - 65536 * b.steps)
def Block.stepRows (b : Block) : Nat := min b.rowsPerStep (b.rows - b.rowsPerStep * b.steps)

def ceilDiv (a b : Nat) : Nat := (a + b - 1) / b

/-- Passes over a row's data (R522). -/
def Block.passes (b : Block) : Nat :=
  if b.rowLen ≤ 16384 then 1 else if b.op = 3 then 2 else if b.op = 4 then 3 else 1

/-- Engine cycles of the next step (R500, R515, R522, R524). -/
def Block.cost (b : Block) : Nat :=
  match b.cls with
  | 1 =>
    let l := max 1 (b.field 0x20 4)
    ceilDiv b.stepBytes 64 + (ceilDiv (65536 * b.steps + b.stepBytes) l - 65536 * b.steps / l)
  | 3 => ceilDiv (b.stepRows * b.rowLen) 128 * b.passes
  | 4 => b.stepRows * (ceilDiv b.rowLen 64 + b.field 0x30 2)
  | _ => ceilDiv b.stepBytes 64

/-! ### Instances (R495, R497) -/

def State.instUsable (s : State) (i : Nat) : Bool := tst (s.reg R.FFE_STATUS).toNat i && !tst s.flt.engDown i

/-- The translation agent of an instance (Table 14-1, R355). -/
def instAgent (i : Nat) : Nat := if i < 16 then freshAgent else 48 + instDie i

def Inst.queueOf (x : Inst) (n : Nat) : List Block := fget (fun _ => []) x.sub n

/-- Steps queued at an instance. -/
def Inst.load (x : Inst) : Nat := x.sub.foldl (fun t e => e.2.foldl (fun t b => t + (b.stepCount - b.steps)) t) 0

/-- The instance a block of this class and VF goes to (R497). -/
def State.instFor (s : State) (cls n : Nat) : Option Nat :=
  let all := instances.filter (fun i => instClass i == cls && (s.instUsable i || cls == 5))
  let home := all.filter (fun i => instDie i == s.homeDie n)
  let c := if home.isEmpty then all else home
  c.find? (fun i => c.all (fun k => decide ((s.inst i).load ≤ (s.inst k).load)))

/-- What blocks of VF `n` with this ORIGIN serve: the first started command of the queue, or the slice's Teasel step. -/
def State.blockUid (s : State) (n origin q : Nat) : Nat :=
  if origin = 0 then match (s.queue n q).cmds.find? (fun c => c.phase == 1) with | some c => c.uid | none => 0
  else if origin = 1 then match s.tsl.steps.find? (fun x => x.vf == n) with | some x => x.uid | none => 0
  else 0

/-- Put a block at the end of a sub-queue. Blocks beyond the 32nd are those their producers wait with (R498). -/
def State.enqueue (s : State) (bytes : List Byte) (uid : Nat) : State :=
  let b : Block := { bytes := fitTo 64 bytes, uid := uid, steps := 0, started := false, waitTick := none, saved := none }
  match s.instFor b.cls b.vf with
  | none => s
  | some i =>
    s.modInst i (fun x => { x with sub := fset (fun _ => []) x.sub b.vf (x.queueOf b.vf ++ [b]) })

/-- BLOCK_ENQUEUE: a producer places a block for a VF that has a slice, or for its model load; with 32 blocks in the
sub-queue it waits (R496 to R498). -/
def execBlockEnqueue (block : List Byte) (s : State) : Res :=
  let b : Block := { bytes := fitTo 64 block, uid := 0, steps := 0, started := false, waitTick := none, saved := none }
  if s.frozen || b.vf = 0 || 63 < b.vf || (s.sliceState b.vf == 0 && b.origin != 2) then .next s
  else match s.instFor b.cls b.vf with
    | none => .next s
    | some i =>
      if 32 ≤ ((s.inst i).queueOf b.vf).length then .next s
      else .next (s.enqueue block (s.blockUid b.vf b.origin (b.queue % 16)))

/-! ### Engine fences (R504) -/

def State.efence (s : State) (n f : Nat) : Nat := fget (fun _ => 0) s.ffe.fences (64 * n + f)

/-- The fence has seen progress in this tick (R505). -/
def State.efProgress (s : State) (n f : Nat) : State :=
  { s with ffe := { s.ffe with fenceTick := fset (fun _ => 0) s.ffe.fenceTick (64 * n + f) (s.tickCount + 1) } }

def Block.waitOk (b : Block) (s : State) : Bool := !b.flag 0 || reached (s.efence b.vf (b.field 4 1 % 64)) (b.field 8 4)

/-- A completed block signals its fence (R504). -/
def State.efSignal (s : State) (b : Block) : State :=
  let f := b.field 5 1 % 64
  let v := b.field 0xC 4
  if b.flag 1 && reached v (s.efence b.vf f) && v != s.efence b.vf f then
    ({ s with ffe := { s.ffe with fences := fset (fun _ => 0) s.ffe.fences (64 * b.vf + f) v } }).efProgress b.vf f
  else s

/-! ### Dispatch (R500 to R502) -/

/-- The slice may use engines now (R502). A model load's blocks may always run. -/
def State.mayUseEngines (s : State) (n : Nat) (b : Block) : Bool :=
  b.origin == 2 || s.sch.running.any (s.slotRuns n)

/-- The head block of a VF's sub-queue, when it may be dispatched. -/
def State.headFor (s : State) (i n : Nat) : Option Block :=
  match (s.inst i).queueOf n with
  | b :: _ => if b.waitOk s && s.mayUseEngines n b then some b else none
  | [] => none

/-- The step of VF `n`'s head block is dispatched. -/
def State.dispatch (s : State) (i n : Nat) : State :=
  let s1 := s.modInst i (fun x => { x with
    busy := n, worked := false, last := n,
    sub := fset (fun _ => []) x.sub n (match x.queueOf n with | b :: t => { b with started := true, waitTick := none } :: t | [] => []) })
  match (s.inst i).queueOf n with
  | b :: _ => if b.flag 1 then s1.efProgress n (b.field 5 1 % 64) else s1
  | [] => s1

/-- The slice with a head that may go after the one visited last gains its share (R500). -/
def State.drrVisit (s : State) (i : Nat) : Option State :=
  let x := s.inst i
  let order := (List.range 64).map (fun k => (x.last + 1 + k) % 64)
  (order.find? (fun n => n != 0 && (s.headFor i n).isSome)).map (fun n =>
    let d := fget (fun _ => 0) x.deficit n + 16 * s.fld (F.SLC_S_ENGINE_SHARE_WEIGHT n)
    s.modInst i (fun x => { x with last := n, deficit := fset (fun _ => 0) x.deficit n d }))

/-- The step of the slice visited last, while its deficit allows it (R500). -/
def State.drrTake (s : State) (i : Nat) : Option State :=
  let x := s.inst i
  let d := fget (fun _ => 0) x.deficit x.last
  match s.headFor i x.last with
  | some b =>
    if b.cost ≤ d then
      some ((s.modInst i (fun y => { y with deficit := fset (fun _ => 0) y.deficit x.last (d - b.cost) })).dispatch i x.last)
    else none
  | none => none

/-- Deficit round robin (R500). -/
def State.drr (s : State) (i : Nat) : Nat → State
  | 0 => s
  | fuel + 1 =>
    match s.drrTake i with
    | some t => t
    | none => match s.drrVisit i with | some t => t.drr i fuel | none => s

/-- ENGINE_STEP_DISPATCH: an idle instance takes its next step (R500, R501). -/
def execEngineStepDispatch (i : Nat) (s : State) : Res :=
  let x := s.inst i
  if s.frozen || x.busy ≠ 0 || 29 ≤ i then .next s
  else match vfs.find? (fun n => match s.headFor i n with | some b => b.flag 2 | none => false) with
    | some n => .next (s.dispatch i n)
    | none => .next (s.drr i 300000)

/-! ### Steps -/

/-- How a step fares: it is done, or it ends its block with a status, a DETAIL and a FFE_LAST_FAULT kind (R506). -/
inductive StepRes where
  | ok (s : State)
  | bad (status detail kind : Nat)
deriving DecidableEq, Repr

/-- FFE_LAST_FAULT (Table 14-10). -/
def State.ffeFault (s : State) (kind vf i op : Nat) : State :=
  s.setReg R.FFE_LAST_FAULT (BitVec.ofNat 32 (kind * 2 ^ 24 + vf * 2 ^ 18 + i * 2 ^ 13 + op % 256 * 32))

/-- A block ends with a fault: the other blocks of its command go, its command completes (R506, R507). One that serves no
queue command counts as a fault of its slice alone. -/
def State.blockFault (s : State) (i : Nat) (b : Block) (status detail kind : Nat) : State :=
  let s1 := s.ffeFault kind b.vf i b.op
  let s2 := if b.uid = 0 then s1.dropBlocks b.vf (fun c => c.uid == 0 && c.origin == b.origin && c.queue == b.queue)
    else s1.stopCmd b.vf b.uid
  if b.uid = 0 then (match faultCode status with | some k => s2.contained b.vf k 0 i 0 | none => s2)
  else s2.faultUid b.vf b.uid status detail 0 i 0

/-- The block whose step is in progress on instance `i`. -/
def State.stepping (s : State) (i : Nat) : Option Block :=
  let x := s.inst i
  if x.busy = 0 || x.worked || s.frozen then none else (x.queueOf x.busy).head?

/-- Carry out the step in progress of an instance when its block is of this class and OP. -/
def State.engineStep (s : State) (i cls op : Nat) (f : Block → StepRes) : Res :=
  match s.stepping i with
  | none => .next s
  | some b =>
    if b.cls ≠ cls || b.op ≠ op then .next s
    else match f b with
      | .ok s1 => .next (s1.modInst i (fun x => { x with worked := true }))
      | .bad st d k => .next (s.blockFault i b st d k)

/-- The step in progress completes (R499, R503, R504): the state, and the block when it has finished, its fence
signalled. -/
def State.stepDone (s : State) (i : Nat) : State × Option Block :=
  let x := s.inst i
  match x.queueOf x.busy with
  | [] => (s, none)
  | b :: t =>
    if x.busy = 0 || !x.worked || s.frozen then (s, none)
    else
      let n := x.busy
      let fin := decide (b.stepCount ≤ b.steps + 1)
      let q := if fin then t else { b with steps := b.steps + 1 } :: t
      let d := if q.isEmpty then fset (fun _ => 0) x.deficit n 0 else x.deficit
      let s1 := (s.modInst i (fun x => { x with busy := 0, worked := false, sub := fset (fun _ => []) x.sub n q, deficit := d })).count
        (R.FFE_I_CNT_STEPS i) 1
      if fin then (s1.efSignal b, some b) else (s1, none)

/-! ### Tensor movers (R512 to R514) -/

/-- Address of byte `o` of a MOVE's or FILL's flattened shape, on the source or the destination side. -/
def Block.moveAddr (b : Block) (dst : Bool) (o : Nat) : Nat :=
  let l := max 1 (b.field 0x20 4)
  let run := o / l
  let d1 := max 1 (b.field 0x24 2)
  let base := if dst then b.dst else b.src
  let s1 := b.field (if dst then 0x30 else 0x28) 4
  let s2 := b.field (if dst then 0x34 else 0x2C) 4
  (base + run % d1 * s1 + run / d1 * s2 + o % l) % 2 ^ 64

/-- The flattened range `[o, o + n)` as runs of contiguous bytes: offset and length. -/
def runsOf (len : Nat) : Nat → Nat → Nat → List (Nat × Nat)
  | 0, _, _ => []
  | fuel + 1, o, n =>
    if n = 0 then [] else
      let k := min n (len - o % len)
      (o, k) :: runsOf len fuel (o + k) (n - k)

def Block.stepRuns (b : Block) : List (Nat × Nat) :=
  let l := max 1 (b.field 0x20 4)
  runsOf l (b.stepBytes + 1) (65536 * b.steps) b.stepBytes

/-- The first failing end of a list of runs. -/
def State.runsCheck (s : State) (b : Block) (dst : Bool) (hostOk : Bool) (rs : List (Nat × Nat)) : Option (Nat × Nat) :=
  rs.findSome? (fun r => s.copyCheck b.vf (if dst then b.dstSpace else b.srcSpace) (b.moveAddr dst r.1) r.2 dst hostOk)

/-- The FFE_LAST_FAULT kind of a status. -/
def kindOf (status : Nat) : Nat := if status = 0x21 then 2 else if status = 5 then 3 else 1

/-- The bytes a MOVE reads for a list of runs; host bytes come in order. -/
def State.runsRead (s : State) (b : Block) (host : List Byte) : List (Nat × Nat) → Nat → List Byte
  | [], _ => []
  | r :: t, k => s.copyRead b.vf b.srcSpace (b.moveAddr false r.1) r.2 (host.drop k) ++ s.runsRead b host t (k + r.2)

/-- Write bytes over a list of destination runs. -/
def State.runsWrite (s : State) (b : Block) : List (Nat × Nat) → List Byte → State
  | [], _ => s
  | r :: t, bs => (s.copyWrite b.vf b.dstSpace (b.moveAddr true r.1) (bs.take r.2)).runsWrite b t (bs.drop r.2)

/-- Whether a MOVE within one space may write a byte that it has still to read. -/
def Block.overlaps (b : Block) : Bool :=
  let ends := fun (dst : Bool) => b.moveAddr dst 0 + b.field 0x20 4 + (b.field 0x24 2) * b.field (if dst then 0x30 else 0x28) 4 +
    (b.field 0x26 2) * b.field (if dst then 0x34 else 0x2C) 4
  b.srcSpace == b.dstSpace && b.srcSpace != 1 && decide (b.src < ends true) && decide (b.dst < ends false)

/-- Keep what a block's overlapping MOVE will read. -/
def State.saveSource (s : State) (i : Nat) (b : Block) (bs : List Byte) : State :=
  let q := match (s.inst i).queueOf b.vf with | c :: t => { c with saved := some bs } :: t | [] => []
  s.modInst i (fun x => { x with sub := fset (fun _ => []) x.sub b.vf q })

/-- MOVE: one step of a MOVE block (R512, R513). `host` is what host memory returns for a host source, `sent` whether a
host destination took the bytes. -/
def execMove (i : Nat) (host : Option (List Byte)) (sent : Bool) (s : State) : Res :=
  s.engineStep i 1 1 (fun b =>
    let rs := b.stepRuns
    let l := max 1 (b.field 0x20 4)
    let all := runsOf l (b.total + 1) 0 b.total
    match (if b.saved.isSome then none else s.runsCheck b false host.isSome rs) with
    | some (st, d) => .bad st d (kindOf st)
    | none =>
      match s.runsCheck b true sent rs with
      | some (st, d) => .bad st d (kindOf st)
      | none =>
        if b.overlaps && b.saved.isNone then
          match s.runsCheck b false true all with
          | some (st, d) => .bad st d (kindOf st)
          | none =>
            let bs := s.runsRead b [] all 0
            .ok ((s.saveSource i b bs).runsWrite b rs ((bs.drop (65536 * b.steps)).take b.stepBytes))
        else match b.saved with
          | some bs => .ok (s.runsWrite b rs ((bs.drop (65536 * b.steps)).take b.stepBytes))
          | none => .ok (s.runsWrite b rs (s.runsRead b (host.getD []) rs 0)))

/-- FILL: one step of a FILL block (R514). -/
def execFill (i : Nat) (sent : Bool) (s : State) : Res :=
  s.engineStep i 1 2 (fun b =>
    let rs := b.stepRuns
    match s.runsCheck b true sent rs with
    | some (st, d) => .bad st d (kindOf st)
    | none => .ok (s.runsWrite b rs ((List.range b.stepBytes).map (fun k => b.bytes.getD (0x10 + (65536 * b.steps + k) % 8) 0))))

/-! ### Slice operands of the other engines -/

/-- What a list of ranges meets (R506): status, DETAIL and kind. -/
def State.rangesBad (s : State) (i n : Nat) (write : Bool) (rs : List (Nat × Nat)) : Option (Nat × Nat × Nat) :=
  rs.findSome? (fun r => match s.memCheck (instAgent i) n r.1 r.2 write false with
    | some (.address _) => some (4, 0, 1)
    | some (.poison _) => some (0x21, 0, 2)
    | none => none)

def State.rangesRead (s : State) (i n a len : Nat) : List Byte := s.memBytes (instAgent i) n a len

/-- Run `k` unless a range of the step fails its check. -/
def State.withRanges (s : State) (i n : Nat) (rd wr : List (Nat × Nat)) (k : Unit → State) : StepRes :=
  match s.rangesBad i n false rd with
  | some (st, d, x) => .bad st d x
  | none => match s.rangesBad i n true wr with
    | some (st, d, x) => .bad st d x
    | none => .ok ((rd ++ wr).foldl (fun s r => s.touch (instAgent i) n r.1 r.2) (k ()))

/-- Elements in consecutive bytes. -/
def valsOf (dt : Nat) (bs : List Byte) (n : Nat) : List Val :=
  (List.range n).map (fun k => Val.decode dt (leAt bs (dtBytes dt * k) (dtBytes dt)))

def bytesOf (dt : Nat) (l : List Val) : List Byte := (l.map (fun v => leBytes (dtBytes dt) (v.encode dt))).flatten

/-! ### Gather (R516, R517) -/

/-- One step of a gather: the part of each output row that lies in it. -/
def State.gatherStep (s : State) (i : Nat) (b : Block) (pages : Bool) : StepRes :=
  let rb := max 1 b.rowBytes
  let o0 := 65536 * b.steps
  let rows := runsOf rb (b.stepBytes + 1) o0 b.stepBytes
  let idxAddr := fun (r : Nat) => b.field 0x20 8 + 4 * r
  match s.rangesBad i b.vf false (rows.map (fun r => (idxAddr (r.1 / rb), 4))) with
  | some (st, d, x) => .bad st d x
  | none =>
    let idx := fun (o : Nat) => ofLe (s.rangesRead i b.vf (idxAddr (o / rb)) 4)
    let inRange := fun (o : Nat) => decide (idx o < b.field 0x30 4 ∧ idx o < 2 ^ 31)
    let srcs := (rows.filter (fun r => inRange r.1)).map (fun r => (b.src + idx r.1 * b.tableStride + r.1 % rb, r.2))
    s.withRanges i b.vf srcs [(b.dst + o0, b.stepBytes)] (fun _ =>
      let data := (rows.map (fun r => if inRange r.1 then s.rangesRead i b.vf (b.src + idx r.1 * b.tableStride + r.1 % rb) r.2
        else List.replicate r.2 0)).flatten
      let zeros := (rows.filter (fun r => r.1 % rb == 0 && !inRange r.1 && !(pages && idx r.1 == 0xFFFFFFFF))).length
      (s.memPut (instAgent i) b.vf (b.dst + o0) data).count R.FFE_CNT_INDEX_ZERO zeros)

/-- GATHER (R516). -/
def execGather (i : Nat) (s : State) : Res := s.engineStep i 2 1 (fun b => s.gatherStep i b false)

/-- GATHER_PAGES (R517). -/
def execGatherPages (i : Nat) (s : State) : Res := s.engineStep i 2 2 (fun b => s.gatherStep i b true)

/-! ### Reduce-normalise and top-k (R518 to R524) -/

/-- The rows of a step: the element rows read, the row numbers, and the state they are read in. -/
def State.rowStep (s : State) (i : Nat) (b : Block) (dt out perRow : Nat) (aux : List (Nat × Nat)) (f : Nat → List Val → List Val) : StepRes :=
  let r0 := b.rowsPerStep * b.steps
  let inB := b.rowLen * dtBytes dt
  let outB := perRow * dtBytes out
  let rd := (b.src + r0 * inB, b.stepRows * inB)
  s.withRanges i b.vf (rd :: aux) [(b.dst + r0 * outB, b.stepRows * outB)] (fun _ =>
    let data := (List.range b.stepRows).map (fun r =>
      bytesOf out (f (r0 + r) (valsOf dt (s.rangesRead i b.vf (b.src + (r0 + r) * inB) inB) b.rowLen)))
    (s.memPut (instAgent i) b.vf (b.dst + r0 * outB) data.flatten).drawnN (b.rows * b.rowLen))

def Block.inType (b : Block) : Nat := b.field 0x31 1
def Block.outType (b : Block) : Nat := b.field 0x32 1
def Block.auxType (b : Block) : Nat := b.field 0x33 1
def Block.func (b : Block) : Nat := b.field 0x30 1 % 128
def Block.param (b : Block) : Num := f32.decode (b.field 0x34 4)

/-- The draw of element `e` of a block. -/
def State.draw (s : State) (e : Nat) : Nat := (Config.freeValue (s.freeCount + e)).toNat

/-- ELEMENTWISE (R520, R521). -/
def execElementwise (i : Nat) (s : State) : Res :=
  s.engineStep i 3 1 (fun b =>
    let ab := dtBytes b.auxType
    let two := decide (b.func ≤ 4)
    let bc := tst (b.field 0x30 1) 7
    let r0 := b.rowsPerStep * b.steps
    let auxAt := fun (r : Nat) => b.field 0x20 8 + (if bc then 0 else r * b.rowLen * ab)
    let aux := if two then (List.range b.stepRows).map (fun r => (auxAt (r0 + r), b.rowLen * ab)) else []
    s.rowStep i b b.inType b.outType b.rowLen aux (fun r l =>
      let a := if two then valsOf b.auxType (s.rangesRead i b.vf (auxAt r) (b.rowLen * ab)) b.rowLen else []
      (l.zipIdx).map (fun (p : Val × Nat) => elementwise b.func p.1 (a.getD p.2 (.f (.fin false 0 0))) (s.draw (r * b.rowLen + p.2)))))

/-- REDUCE (R519, R521). -/
def execReduce (i : Nat) (s : State) : Res :=
  s.engineStep i 3 2 (fun b => s.rowStep i b b.inType b.outType 1 [] (fun _ l => [reduceRow b.func l]))

/-- NORMALISE (R520); AUX is gamma. -/
def execNormalise (i : Nat) (s : State) : Res :=
  s.engineStep i 3 3 (fun b =>
    let n := b.rowLen * dtBytes b.auxType
    s.rowStep i b b.inType b.outType b.rowLen [(b.field 0x20 8, n)] (fun r l =>
      (normaliseRow b.func b.param ((valsOf b.auxType (s.rangesRead i b.vf (b.field 0x20 8) n) b.rowLen).map Val.num)
        (l.map Val.num) (s.draw r)).map Val.f))

/-- SOFTMAX (R520, R521). -/
def execSoftmax (i : Nat) (s : State) : Res :=
  s.engineStep i 3 4 (fun b => s.rowStep i b b.inType b.outType b.rowLen [] (fun r l =>
    (softmaxRow b.param (l.map Val.num) (fun k => s.draw (r * b.rowLen + k))).map Val.f))

/-- TOPK: selected elements and their INT32 indices (R523). -/
def execTopk (i : Nat) (s : State) : Res :=
  s.engineStep i 4 1 (fun b =>
    let dt := b.field 0x33 1
    let k := b.field 0x30 2
    let eb := dtBytes dt
    let r0 := b.rowsPerStep * b.steps
    let at_ := fun (r : Nat) => b.src + r * b.rowLen * eb
    let rows := (List.range b.stepRows).map (r0 + ·)
    s.withRanges i b.vf (rows.map (fun r => (at_ r, b.rowLen * eb)))
      ((rows.map (fun r => (b.dst + r * k * eb, k * eb))) ++ rows.map (fun r => (b.field 0x20 8 + r * k * 4, k * 4)))
      (fun _ => rows.foldl (fun st r =>
        let bs := s.rangesRead i b.vf (at_ r) (b.rowLen * eb)
        let ix := topkRow k (b.field 0x32 1 == 1) (valsOf dt bs b.rowLen)
        (st.memPut (instAgent i) b.vf (b.dst + r * k * eb) ((ix.map (fun j => sliceOf bs (j * eb) eb)).flatten)).memPut
          (instAgent i) b.vf (b.field 0x20 8 + r * k * 4) ((ix.map (leBytes 4)).flatten)) s))

/-! ### Collectives (R529 to R533) -/

/-- This module's position on the ring a GROUP names (R648): its slot on the tray ring, its tray on the column ring. -/
def State.ringPos (s : State) (dim : Nat) : Nat := if dim = 2 then s.fld F.ID_POSITION_TRAY_ID else s.fld F.ID_POSITION_SLOT_ID

/-- This module's place among the members of a GROUP: its distance from FIRST along the ring (R529, Table 14-7). -/
def State.memberOf (s : State) (g : Nat) : Nat :=
  let dim := bitsOf g 31 30
  let n := if dim = 0 then 1 else s.ringSize (dim - 1)
  (s.ringPos dim + n - bitsOf g 29 24 % n) % n

/-- A collective ends with ABORTED (R530, R532). -/
def State.collAbort (s : State) (i : Nat) (b : Block) : State :=
  (s.blockFault i b 0x30 0 5).count R.FFE_CNT_COLL_ABORT 1

/-- The result of one element of an ALL_REDUCE, in member order (R531): 0 sum, 1 max. -/
def combine (fn dt : Nat) (l : List Val) : Val :=
  match l with
  | [] => .f (.fin false 0 0)
  | v :: t =>
    if dt = 13 then t.foldl (fun a w => elementwise (if fn = 1 then 3 else 0) a w 0) v
    else if fn = 1 then t.foldl (fun a w => elementwise 3 a w 0) v
    else .f (t.foldl (fun a w => (a.add 0 w.num).r32) v.num.r32)

/-- A collective step: the members' inputs in member order, this module's own taken from memory. `peers` gives the others
in that order; with a mismatch in the first flits it ends with ABORTED (R530). -/
def State.collective (s : State) (i : Nat) (b : Block) (peers : List (List Byte)) (same : Bool)
    (f : List (List Byte) → List Byte) : Res :=
  let g := b.field 0x20 4
  let dim := bitsOf g 31 30
  let count := if dim = 0 then 1 else max 1 (bitsOf g 23 17)
  let n := b.field 0x28 8
  let own := s.memberOf g
  let out := if b.op = 2 then n * count else n
  if !same then .next ((s.log 0x0901 3 b.vf 0xFFFF 0 g).collAbort i b)
  else match s.withRanges i b.vf [(b.src, n)] [(b.dst, out)] (fun _ =>
      let mine := s.rangesRead i b.vf b.src n
      let p := if dim = 0 then [] else peers
      let members := (p.take own).map (fitTo n) ++ [mine] ++ ((p.drop own).take (count - 1 - own)).map (fitTo n)
      s.memPut (instAgent i) b.vf b.dst (f members)) with
    | .ok s1 => .next (s1.modInst i (fun x => { x with
        worked := true, sub := fset (fun _ => []) x.sub b.vf (match x.queueOf b.vf with
          | c :: t => { c with steps := c.stepCount - 1 } :: t
          | [] => []) }))
    | .bad st d k => .next (s.blockFault i b st d k)

/-- ALL_REDUCE (R531). -/
def execAllReduce (i : Nat) (peers : List (List Byte)) (same : Bool) (s : State) : Res :=
  match s.stepping i with
  | none => .next s
  | some b =>
    if b.cls ≠ 6 || b.op ≠ 1 then .next s
    else
      let dt := b.field 0x31 1
      let eb := max 1 (dtBytes dt)
      s.collective i b peers same (fun m =>
        ((List.range (b.field 0x28 8 / eb)).map (fun e =>
          leBytes eb ((combine (b.field 0x30 1) dt (m.map (fun x => Val.decode dt (leAt x (eb * e) eb)))).encode dt))).flatten)

/-- ALL_GATHER (R531). -/
def execAllGather (i : Nat) (peers : List (List Byte)) (same : Bool) (s : State) : Res :=
  match s.stepping i with
  | none => .next s
  | some b =>
    if b.cls ≠ 6 || b.op ≠ 2 then .next s
    else s.collective i b peers same (fun m => m.flatten)

/-- COLLECTIVE_TIMEOUT: FFE_COLL_TIMEOUT ticks have passed with no data for the collective in progress (R532). -/
def execCollectiveTimeout (i : Nat) (s : State) : Res :=
  match s.stepping i with
  | none => .next s
  | some b =>
    let lim := if s.fld F.FFE_COLL_TIMEOUT_TICKS = 0 then 64 else s.fld F.FFE_COLL_TIMEOUT_TICKS
    if b.cls = 6 && decide (lim ≤ fget (fun _ => 0) s.ffe.collTicks i) then .next (s.collAbort i b) else .next s

/-! ### Stalls (R505) -/

/-- The head blocks that wait are marked at a boundary, and collectives without data count a tick (R505, R532). -/
def State.markBlocks (s : State) (old : Nat) : State :=
  instances.foldl (fun s i =>
    let x := s.inst i
    let x1 := { x with sub := x.sub.map (fun (e : Nat × List Block) => (e.1, match e.2 with
      | b :: t => (if !b.waitOk s && b.waitTick.isNone then { b with waitTick := some old } else b) :: t
      | [] => [])) }
    let s1 := if x.sub.isEmpty then s else s.modInst i (fun _ => x1)
    if instClass i = 6 then
      let v := if (s.stepping i).isSome then fget (fun _ => 0) s.ffe.collTicks i + 1 else 0
      { s1 with ffe := { s1.ffe with collTicks := fset (fun _ => 0) s1.ffe.collTicks i v } }
    else s1) s

/-- ENGINE_FENCE_STALL: VF `n`'s head block on instance `i` has waited for the whole tick just ended without progress
(R505). -/
def execEngineFenceStall (i n : Nat) (s : State) : Res :=
  match (s.inst i).queueOf n with
  | [] => .next s
  | b :: _ =>
    let t := s.tickCount
    let f := b.field 4 1 % 64
    let waited := match b.waitTick with | some w => decide (w + 2 ≤ t) | none => false
    if waited && !b.waitOk s && decide (fget (fun _ => 0) s.ffe.fenceTick (64 * n + f) + 1 ≤ t) &&
        (s.heldSlot n 0 || s.heldSlot n 1) && !s.frozen then
      .next ((s.blockFault i b 0x23 (0x100 + f) 4).count R.FFE_CNT_FENCE_STALL 1)
    else .next s

end Sys2Proof.Machine
end

