-- ==== Sys2Proof/Machine/Graph.lean ====
section
/-! DEFINITION. Kernel images and launches, tensor graphs, and the end of contexts and engine blocks (R248 to R253, R371
to R377; Tables 06-7, 06-10 to 06-13). -/

namespace Sys2Proof.Machine

/-! ### Kernel images (Table 06-7) -/

/-- The header offset of the first field that fails, lowest offset first (R251, R256, R473). A range that does not lie in
the image is a fault of its length field; DEDUCED. -/
def imageFault (len : Nat) (b : List Byte) : Option Nat :=
  let f := leAt b
  let isa := f 0x2B 1
  let local_ := (512 - 128 * f 0x2A 1) * 1024
  let codeEnd := f 0xC 4 + f 0x10 4
  let meets := decide (f 0x14 4 < codeEnd) && decide (f 0xC 4 < f 0x14 4 + f 0x18 4)
  let checks : List (Bool × Nat) := [
    (f 0 4 == 0x4B424E53, 0), (f 4 2 == 1, 4), (decide (f 6 2 < 2) && !(isa == 1 && f 6 2 == 1), 6), (f 8 4 == len, 8),
    (f 0xC 4 % 8 == 0 && decide (128 ≤ f 0xC 4), 0xC), (f 0x10 4 % 8 == 0 && f 0x10 4 != 0 && decide (codeEnd ≤ len), 0x10),
    (f 0x14 4 % 64 == 0 && (f 0x18 4 == 0 || (decide (128 ≤ f 0x14 4) && !meets)), 0x14),
    (f 0x18 4 == 0 || decide (f 0x14 4 + f 0x18 4 ≤ len), 0x18), (decide (f 0x1C 4 < f 0x10 4 / 8), 0x1C),
    (if isa = 1 then f 0x20 2 == 192 else decide (1 ≤ f 0x20 2 ∧ f 0x20 2 ≤ 256), 0x20), (decide (f 0x22 2 ≤ 64), 0x22),
    (f 0x24 4 % 64 == 0 && decide (f 0x24 4 + f 0x28 2 ≤ local_), 0x24), (decide (f 0x28 2 ≤ 4096), 0x28),
    (decide (f 0x2A 1 ≤ 3), 0x2A), (isa == 1 || isa == 2, 0x2B),
    (if isa = 1 then decide (f 0x2C 4 < f 0x10 4 / 8) else f 0x2C 4 == 0xFFFFFFFF, 0x2C), (f 0x30 8 == 0, 0x30),
    (sliceOf b 0x38 48 == Config.sha384 (b.take 0x38 ++ List.replicate 48 0 ++ b.drop 0x68), 0x38), (f 0x70 16 == 0, 0x70)]
  (checks.find? (fun p => !p.1)).map (fun p => p.2)

/-- The kernel an image holds. -/
def kernelOf (b : List Byte) : Kernel :=
  { flags := leAt b 6 2, isa := leAt b 0x2B 1, entry := leAt b 0x1C 4, regs := leAt b 0x20 2, uniforms := leAt b 0x22 2,
    localBytes := leAt b 0x24 4, argBytes := leAt b 0x28 2, split := leAt b 0x2A 1, handler := leAt b 0x2C 4,
    code := (b.drop (leAt b 0xC 4)).take (leAt b 0x10 4), consts := (b.drop (leAt b 0x14 4)).take (leAt b 0x18 4) }

/-- An RT entry names VF `n`'s slice, or a slice that shares a cluster with it (R493). -/
def State.nearRt (s : State) (n : Nat) : Bool :=
  s.rtNamed n || vfs.any (fun m => s.rtNamed m && Nat.land (s.clustersOf m) (s.clustersOf n) != 0)

/-- How a queue command's read of slice memory fares. -/
def memFault (e : Option MemErr) : Option Nat :=
  match e with
  | some (.address _) => some 4
  | some (.poison _) => some 0x21
  | none => none

/-- KERNEL_REGISTER (R251, R371, R473, R493). -/
def execKernelRegister (n q : Nat) (s : State) : Res :=
  s.startNext n q 0x30 (fun c s =>
    let len := c.body 8 4
    match memFault (s.memCheck freshAgent n (c.body 0 8) len false true) with
    | some st => s.faultCmd n q c.uid st 0 0 0 0
    | none =>
      let b := s.memBytes freshAgent n (c.body 0 8) len
      match imageFault len b with
      | some o => s.endCmd n q c.uid 7 o 0
      | none =>
        if leAt b 0x2B 1 = 1 && s.nearRt n then s.endCmd n q c.uid 3 0x30 0
        else match (List.range 256).find? (fun h => (s.kernel n (h + 1)).isNone) with
          | none => s.endCmd n q c.uid 0xA 0 0
          | some h0 =>
            let h := h0 + 1
            let s1 := s.modSlice n (fun x => { x with
              kernels := fset (fun _ => none) x.kernels h (some (kernelOf b))
              kmeas := Config.sha384 (fitTo 48 x.kmeas ++ sliceOf b 0x38 48 ++ leBytes 4 h)
              kcount := x.kcount + 1 })
            s1.endCmd n q c.uid 0 0 h)

/-- KERNEL_RELEASE (R252). -/
def execKernelRelease (n q : Nat) (s : State) : Res :=
  s.startNext n q 0x31 (fun c s =>
    let h := c.body 0 4
    let nodeUses := fun (g : GraphRun) => g.vf == n && g.nodes.any (fun b => leAt b 0 2 == 0xC && leAt b 0x1C 4 == h)
    if (s.kernel n h).isNone then s.endCmd n q c.uid 8 0 0
    else if s.yar.launches.any (fun l => l.vf == n && l.handle == h) || s.yar.graphs.any nodeUses then s.endCmd n q c.uid 9 0 0
    else (s.modSlice n (fun x => { x with kernels := fset (fun _ => none) x.kernels h none })).endCmd n q c.uid 0 0 0)

/-! ### Launches (R253, R374, R474) -/

/-- SPILL is one that the image allows (R474). -/
def State.spillOk (s : State) (n : Nat) (k : Kernel) (spill size : Nat) : Bool :=
  if k.isa = 1 then
    let o := spill - 0x10000000000
    decide (0x10000000000 ≤ spill) && o % 64 == 0 && decide (o + size ≤ 0x1000000) &&
      decide (o + size ≤ 0x10000 * s.fld (F.SLC_S_COMMONS_UNITS n))
  else spill == 0

/-- Start a launch and place what has room (R374, R375). -/
def State.startLaunch (s : State) (l : Launch) : State :=
  let s1 : State := { s with
    yar := { s.yar with launches := s.yar.launches ++ [{ l with id := s.sch.nextUid }] }
    sch := { s.sch with nextUid := s.sch.nextUid + 1 } }
  s1.placeAll l.vf

/-- KERNEL_LAUNCH (R253, R374, R474). -/
def execKernelLaunch (n q : Nat) (s : State) : Res :=
  s.startNext n q 0x32 (fun c s =>
    let h := c.body 0 4
    let ctxs := c.body 4 2
    let groups := c.body 6 2
    match s.kernel n h with
    | none => s.endCmd n q c.uid 8 0 0
    | some k =>
      if s.fld (F.QIF_Q_CTRL_CLASS n q) = 1 && !tst k.flags 0 then s.endCmd n q c.uid 0xB 0 0
      else if !s.spillOk n k (c.body 0x10 8) (ctxs * groups * 32768) then s.endCmd n q c.uid 3 0x40 0
      else if !fits [] (k.need groups) then s.endCmd n q c.uid 3 0x36 0
      else match (if k.argBytes = 0 then none else memFault (s.memCheck freshAgent n (c.body 8 8) k.argBytes false false)) with
        | some st => s.faultCmd n q c.uid st 0 0 0 0
        | none => s.startLaunch { id := 0, vf := n, uid := c.uid, owner := 0, handle := h, contexts := ctxs, groups := groups,
                                  args := c.body 8 8, argBytes := [], spill := c.body 0x10 8, next := 0, live := 0, fault := 0 })

/-! ### Tensors (Table 06-11) -/

def tBase (t : List Byte) : Nat := leAt t 0 8 + (if tst (leAt t 0xA 1) 0 then 0x20000000000 else 0)
def tType (t : List Byte) : Nat := leAt t 8 1
def tModel (t : List Byte) : Bool := tst (leAt t 0xA 1) 0
def tDim (t : List Byte) (k : Nat) : Nat := max 1 (leAt t (0x10 + 4 * k) 4)
def tStride (t : List Byte) (k : Nat) : Nat := leAt t (0x24 + 4 * k) 4
def tSize (t : List Byte) : Nat := (List.range 5).foldl (fun p k => p * tDim t k) 1

/-- The five indices of element `e` of a shape, the innermost first. -/
def unflat (dims : List Nat) (e : Nat) : List Nat :=
  match dims with
  | [] => []
  | d :: t => e % max 1 d :: unflat t (e / max 1 d)

def flat (dims idx : List Nat) : Nat :=
  match dims, idx with
  | d :: t, i :: u => i + d * flat t u
  | _, _ => 0

def tDims (t : List Byte) : List Nat := (List.range 5).map (tDim t)

/-- The bit offset of an element; an index beyond a dimension wraps into it, which broadcasts a dimension of 1. -/
def tBit (t : List Byte) (idx : List Nat) : Nat :=
  dtBits (tType t) * ((List.range 5).foldl (fun o k => o + idx.getD k 0 % tDim t k * tStride t k) 0)

/-- Address and length of the bytes that hold an element. -/
def tSpan (t : List Byte) (idx : List Nat) : Nat × Nat :=
  let b := tBit t idx
  (tBase t + b / 8, (b % 8 + dtBits (tType t) + 7) / 8)

/-- Address of an element's E8M0 scale: one per 32 elements along the innermost dimension. -/
def tScaleAddr (t : List Byte) (idx : List Nat) : Nat :=
  let per := (tDim t 0 + 31) / 32
  let outer := flat ((tDims t).drop 1) (((idx.drop 1).zipIdx).map (fun (p : Nat × Nat) => p.1 % tDim t (p.2 + 1)))
  leAt t 0x38 8 + (if tModel t then 0x20000000000 else 0) + outer * per + idx.getD 0 0 % tDim t 0 / 32

/-- An element's exact value. -/
def State.tGet (s : State) (n : Nat) (t : List Byte) (idx : List Nat) : Val :=
  let p := tSpan t idx
  let code := ofLe (s.memBytes freshAgent n p.1 p.2) / 2 ^ (tBit t idx % 8) % 2 ^ dtBits (tType t)
  if isMx (tType t) then
    match dtFmt (tType t) with
    | some f => .f (scaled f code (ofLe (s.memBytes freshAgent n (tScaleAddr t idx) 1)))
    | none => .i 0
  else Val.decode (tType t) code

/-- Every index list of a tensor. -/
def tAll (t : List Byte) : List (List Nat) := (List.range (tSize t)).map (unflat (tDims t))

/-- What reading, or writing, every element meets. -/
def State.tBad (s : State) (n : Nat) (write : Bool) (t : List Byte) : Option Nat :=
  (tAll t).findSome? (fun idx =>
    let p := tSpan t idx
    match memFault (s.memCheck freshAgent n p.1 p.2 write false) with
    | some e => some e
    | none => if isMx (tType t) then memFault (s.memCheck freshAgent n (tScaleAddr t idx) 1 write false) else none)

/-- Write one element, keeping the other bits of its bytes. -/
def State.tPut (s : State) (n : Nat) (t : List Byte) (idx : List Nat) (code : Nat) : State :=
  let p := tSpan t idx
  let old := ofLe (s.memBytes freshAgent n p.1 p.2)
  let b := tBit t idx % 8
  s.memPut freshAgent n p.1 (leBytes p.2 (setBits old (b + dtBits (tType t) - 1) b code))

/-- Write a tensor from a function of the index. -/
def State.tFill (s : State) (n : Nat) (t : List Byte) (f : List Nat → Nat) : State :=
  (tAll t).foldl (fun s idx => s.tPut n t idx (f idx)) s

/-! ### Graph checks (R248 to R250, R475, R517, R518, R523, R529) -/

def nOp (b : List Byte) : Nat := leAt b 0 2
def nIn (b : List Byte) : List Nat := (List.range (leAt b 2 1)).map (fun k => leAt b (4 + 2 * k) 2)
def nOut (b : List Byte) : List Nat := (List.range (leAt b 3 1)).map (fun k => leAt b (0x10 + 2 * k) 2)
def nPar (b : List Byte) (o n : Nat) : Nat := leAt b o n

/-- Inputs, least and most, and outputs of a graph op, with its named parameter bytes (Table 06-13). -/
def opShape (op : Nat) : Option (Nat × Nat × Nat × Nat × List Nat) :=
  let r := fun (a n : Nat) => (List.range n).map (a + ·)
  match op with
  | 1 => some (2, 3, 1, 1, 0x18 :: r 0x1C 8)
  | 2 => some (1, 2, 1, 1, [0x18])
  | 3 => some (1, 1, 1, 1, [0x18, 0x19])
  | 4 => some (2, 3, 1, 1, 0x18 :: 0x19 :: r 0x1C 4)
  | 5 => some (1, 1, 1, 1, 0x19 :: r 0x1C 4)
  | 6 => some (2, 2, 1, 1, [0x19])
  | 7 => some (1, 1, 2, 2, 0x18 :: 0x19 :: r 0x1C 4)
  | 8 => some (5, 5, 1, 1, r 0x1C 8)
  | 9 => some (1, 1, 1, 1, r 0x18 5)
  | 10 => some (1, 1, 1, 1, 0x18 :: r 0x1C 4)
  | 11 => some (1, 1, 1, 1, 0x19 :: r 0x1C 4)
  | 12 => some (0, 6, 0, 2, r 0x1C 8)
  | _ => none

/-- A tensor entry is well formed. -/
def tOk (t : List Byte) : Bool :=
  let dt := tType t
  dtBits dt != 0 && decide (1 ≤ leAt t 9 1 ∧ leAt t 9 1 ≤ 5) && decide (leAt t 0xA 1 < 2) && leAt t 0xB 1 == 0 &&
    leAt t 0xC 4 == 0 && (List.range 5).all (fun k => leAt t (0x10 + 4 * k) 4 != 0 && (decide (k < leAt t 9 1) || leAt t (0x10 + 4 * k) 4 == 1)) &&
    (dtBits dt % 8 == 0 || tStride t 0 == 1) && (isMx dt || leAt t 0x38 8 == 0)

/-- The GROUP of a collective may run here (R529). -/
def State.groupOk (s : State) (g : Nat) : Bool :=
  let dim := bitsOf g 31 30
  let count := bitsOf g 23 17
  if dim = 0 then decide (count ≤ 1)
  else
    dim != 3 && decide (1 ≤ count ∧ count ≤ s.ringSize (dim - 1) ∧ s.memberOf g < count) &&
      (List.range 16).any (fun p => s.portUsable p && portRing p == dim - 1)

/-- Parameters and types of a node (R248, R475, R517, R518, R523, R529). -/
def State.nodeOk (s : State) (n : Nat) (kern : Bool) (ts : List (List Byte)) (b : List Byte) : Bool :=
  let t := fun (k : Nat) => ts.getD ((nIn b).getD k 0) []
  let axis := nPar b 0x19 1
  let types := fun (p : Nat → Bool) => ((nIn b) ++ (nOut b)).all (fun k => p (tType (ts.getD k [])))
  let fp := fun (dt : Nat) => decide (1 ≤ dt ∧ dt ≤ 5)
  match nOp b with
  | 1 => decide (nPar b 0x18 1 < 4)
  | 2 => decide (nPar b 0x18 1 ≤ 10) && types rnType && (decide (nPar b 0x18 1 ≤ 4) == ((nIn b).length == 2)) &&
      (decide (nPar b 0x18 1 ≤ 5) || nPar b 0x18 1 == 10 || fp (tType (t 0)))
  | 3 => decide (nPar b 0x18 1 ≤ 3) && decide (axis < 32) && types rnType && (nPar b 0x18 1 != 3 || fp (tType (t 0)))
  | 4 => decide (nPar b 0x18 1 ≤ 1) && decide (axis < 5) && types fp
  | 5 => decide (axis < 5) && types fp
  | 6 => decide (axis < 5) && tType (t 1) == 13
  | 7 => decide (nPar b 0x18 1 ≤ 1) && decide (axis < 5) && decide (1 ≤ nPar b 0x1C 4 ∧ nPar b 0x1C 4 ≤ 1024) &&
      decide (nPar b 0x1C 4 ≤ tDim (t 0) axis) && rnType (tType (t 0)) && tType (ts.getD ((nOut b).getD 1 0) []) == 13
  | 8 => (tSize (t 1) * dtBits (tType (t 1)) / 8) % 65536 == 0 && (tSize (t 2) * dtBits (tType (t 2)) / 8) % 65536 == 0 &&
      tType (t 3) == 13 && tType (t 4) == 13
  | 9 => (List.range 5).all (fun k => decide (nPar b (0x18 + k) 1 < 5)) &&
      (List.range 5).all (fun k => (List.range 5).any (fun j => nPar b (0x18 + j) 1 == k))
  | 10 => decide (nPar b 0x18 1 ≤ 1) && s.groupOk (nPar b 0x1C 4)
  | 11 => decide (axis < 5) && s.groupOk (nPar b 0x1C 4)
  | _ => match s.kernel n (nPar b 0x1C 4) with
    | some k => k.isa == 2 && decide (1 ≤ nPar b 0x20 2 ∧ nPar b 0x20 2 ≤ 384) && decide (1 ≤ nPar b 0x22 2 ∧ nPar b 0x22 2 ≤ 64)
    | none => !kern

/-- A node entry is well formed (Table 06-12), writes no model tensor, and takes no input that a later node writes. -/
def nodeForm (ts nodes : List (List Byte)) (k : Nat) (b : List Byte) : Bool :=
  match opShape (nOp b) with
  | none => false
  | some (i0, i1, o0, o1, par) =>
    let ni := leAt b 2 1
    let no := leAt b 3 1
    decide (i0 ≤ ni ∧ ni ≤ i1 ∧ o0 ≤ no ∧ no ≤ o1) &&
      (List.range 6).all (fun j => decide (j < ni) || leAt b (4 + 2 * j) 2 == 0) &&
      (List.range 2).all (fun j => decide (j < no) || leAt b (0x10 + 2 * j) 2 == 0) && leAt b 0x14 4 == 0 &&
      (List.range 40).all (fun o => par.contains (0x18 + o) || leAt b (0x18 + o) 1 == 0) &&
      ((nIn b) ++ (nOut b)).all (fun j => decide (j < ts.length)) && (nOut b).all (fun j => !tModel (ts.getD j [])) &&
      (nIn b).all (fun j => !((nodes.drop k).any (fun c => (nOut c).contains j)) || (nodes.take k).any (fun c => (nOut c).contains j))

/-- A graph as read from slice memory: its tensors, each after `fix`, with bindings applied, and its nodes; or the status
and DETAIL that end the command. KERNEL handles are checked when `kern` is set. -/
def State.readGraph (s : State) (n cls : Nat) (kern : Bool) (fix : List Byte → List Byte) (g len bind count : Nat) : (Nat × Nat) ⊕ (List (List Byte) × List (List Byte)) :=
  match memFault (s.memCheck freshAgent n g len false true) with
  | some st => .inl (st, 0)
  | none =>
    match memFault (s.memCheck freshAgent n bind (16 * count) false true) with
    | some st => .inl (st, 0)
    | none =>
      let b := s.memBytes freshAgent n g len
      let bd := s.memBytes freshAgent n bind (16 * count)
      let nt := leAt b 8 2
      let nn := leAt b 0xA 2
      let dest := leAt b 0x10 8
      let no := leAt b 0x18 8
      let headOk := decide (64 ≤ len) && leAt b 0 4 == 0x48505247 && leAt b 4 2 == 1 && leAt b 6 2 == 0 && decide (1 ≤ nt ∧ nt ≤ 4096) &&
        decide (1 ≤ nn ∧ nn ≤ 4096) && leAt b 0xC 4 == 0 && dest % 64 == 0 && no % 64 == 0 && decide (dest + 64 * nt ≤ len) &&
        decide (no + 64 * nn ≤ len) && leAt b 0x20 32 == 0
      if !headOk then .inl (0xC, 0)
      else
        let ts0 := (List.range nt).map (fun k => fix (sliceOf b (dest + 64 * k) 64))
        let nodes := (List.range nn).map (fun k => sliceOf b (no + 64 * k) 64)
        let badBind := (List.range count).find? (fun k => decide (nt ≤ leAt bd (16 * k) 2) || leAt bd (16 * k + 2) 6 != 0)
        let ts := (List.range count).foldl (fun l k =>
          let j := leAt bd (16 * k) 2
          l.set j (sliceOf bd (16 * k + 8) 8 ++ (l.getD j []).drop 8)) ts0
        match ts.findIdx? (fun t => !tOk t), badBind with
        | some k, _ => .inl (0xC, k + 2 ^ 31)
        | none, some k => .inl (0xC, leAt bd (16 * k) 2 + 2 ^ 31)
        | none, none =>
          match (nodes.zipIdx).find? (fun p => !nodeForm ts nodes p.2 p.1 || !s.nodeOk n kern ts p.1) with
          | some p => .inl (0xC, p.2)
          | none =>
            let named := (nodes.map (fun b => nIn b ++ nOut b)).flatten
            let ker := nodes.any (fun b => nOp b == 12 && (match s.kernel n (nPar b 0x1C 4) with | some k => !tst k.flags 0 | none => false))
            let big := nodes.any (fun b => nOp b == 12 && (match s.kernel n (nPar b 0x1C 4) with
              | some k => !fits [] (k.need (nPar b 0x22 2))
              | none => false))
            if named.any (fun j => tModel (ts.getD j [])) && s.fld F.SLC_TEN_STATUS_MODEL != 2 then .inl (6, 0)
            else if cls = 1 && ker then .inl (0xB, 0)
            else if big then .inl (3, 0)
            else .inr (ts, nodes)

/-! ### What a node computes (Table 06-13, chapter 14) -/

/-- The elements of a tensor along one axis, or along several, at an output index. -/
def lineOf (t : List Byte) (axes : Nat) (idx : List Nat) : List (List Nat) :=
  let dims := (List.range 5).map (fun k => if tst axes k then tDim t k else 1)
  (List.range (dims.foldl (· * ·) 1)).map (fun e =>
    let j := unflat dims e
    (List.range 5).map (fun k => if tst axes k then j.getD k 0 else idx.getD k 0))

/-- MATMUL's element: products summed exactly in runs of at most 32 along k, each run rounded into an FP32 accumulator, as
the matrix units do; the run length, and whether scaling rounds once or at each step, are free choices (log entry 25). -/
def State.matmulAt (s : State) (n : Nat) (b : List Byte) (ta tb : List Byte) (tc : Option (List Byte)) (idx : List Nat) (r : Nat) : Val :=
  let kd := tDim ta (if tst (nPar b 0x18 1) 0 then 1 else 0)
  let at2 := fun (x y : Nat) => x :: y :: idx.drop 2
  let row := idx.getD 1 0
  let col := idx.getD 0 0
  let a := fun (k : Nat) => s.tGet n ta (if tst (nPar b 0x18 1) 0 then at2 row k else at2 k row)
  let c := fun (k : Nat) => s.tGet n tb (if tst (nPar b 0x18 1) 1 then at2 k col else at2 col k)
  let run := 1 + r % 32
  let ints := (a 0).isInt && (c 0).isInt
  let acc := (List.range ((kd + run - 1) / run)).foldl (fun (x : Num) j =>
    let part := (List.range (min run (kd - j * run))).foldl (fun (p : Option Num) k =>
      let t := (a (j * run + k)).num.mul (c (j * run + k)).num
      some (match p with | some p => p.add 0 t | none => t)) none
    match part with
    | some p => if ints then (wrap32 (((p.add 0 x).toInt 0).getD 0)).num else (p.add 0 x).r32
    | none => x) (.fin false 0 0)
  let p := (f32.decode (nPar b 0x1C 4)).mul acc
  match tc with
  | none => .f p.r32
  | some t =>
    let q := (f32.decode (nPar b 0x20 4)).mul (s.tGet n t idx).num
    if tst r 5 then .f (p.add 0 q).r32 else .f (p.r32.add 0 q.r32).r32

/-- Run one node other than KERNEL and a ring collective: its reads are checked, then its writes, then it computes. -/
def State.runNode (s : State) (n : Nat) (ts : List (List Byte)) (b : List Byte) : Nat ⊕ State :=
  let ti := fun (k : Nat) => ts.getD ((nIn b).getD k 0) []
  let o := ts.getD ((nOut b).getD 0 0) []
  let od := tType o
  let axis := nPar b 0x19 1
  let pool := nOp b == 8
  let reads := if nOp b = 6 then [ti 1] else if pool then [ti 0, ti 3, ti 4] else (nIn b).map (fun k => ts.getD k [])
  match reads.findSome? (s.tBad n false), ((nOut b).map (fun k => ts.getD k [])).findSome? (s.tBad n true) with
  | some st, _ => .inl st
  | none, some st => .inl st
  | none, none =>
    let get := fun (k : Nat) (idx : List Nat) => s.tGet n (ti k) idx
    let fill := fun (f : List Nat → Nat) => (s.tFill n o f).drawnN (1 + tSize o)
    let pos := fun (idx : List Nat) => s.draw (flat (tDims o) idx)
    match nOp b with
    | 1 => .inr (fill (fun idx =>
        (s.matmulAt n b (ti 0) (ti 1) (if (nIn b).length = 3 then some (ti 2) else none) idx (s.draw 0)).encode od))
    | 2 => .inr (fill (fun idx =>
        (elementwise (nPar b 0x18 1) (get 0 idx) (if (nIn b).length = 2 then get 1 idx else .f (.fin false 0 0)) (pos idx)).encode od))
    | 3 => .inr (fill (fun idx => (reduceRow (nPar b 0x18 1) ((lineOf (ti 0) axis idx).map (get 0))).encode od))
    | 4 => .inr (fill (fun idx =>
        let line := lineOf (ti 0) (2 ^ axis) idx
        let g := (List.range line.length).map (fun k => (s.tGet n (ti 1) (unflat (tDims (ti 1)) k)).num)
        let y := (normaliseRow (nPar b 0x18 1) (f32.decode (nPar b 0x1C 4)) g (line.map (fun i => (get 0 i).num)) (s.draw 0)).getD
          (idx.getD axis 0) .nan
        let v := Val.decode od ((Val.f y).encode od)
        if (nIn b).length = 3 then
          (elementwise 0 v (s.tGet n (ti 2) (unflat (tDims (ti 2)) (idx.getD axis 0))) 0).encode od
        else v.encode od))
    | 5 => .inr (fill (fun idx =>
        (Val.f ((softmaxRow (f32.decode (nPar b 0x1C 4)) ((lineOf (ti 0) (2 ^ axis) idx).map (fun i => (get 0 i).num)) s.draw).getD
          (idx.getD axis 0) .nan)).encode od))
    | 6 =>
      let row := fun (idx : List Nat) =>
        match get 1 (unflat (tDims (ti 1)) (idx.getD axis 0)) with
        | .i v => if 0 ≤ v ∧ v < tDim (ti 0) axis then some (idx.set axis v.toNat) else none
        | .f _ => none
      let bad := (tAll o).findSome? (fun idx => match row idx with
        | some i => memFault (s.memCheck freshAgent n (tSpan (ti 0) i).1 (tSpan (ti 0) i).2 false false)
        | none => none)
      let holes := ((List.range (tDim o axis)).filter (fun k => (row ((List.replicate 5 0).set axis k)).isNone)).length
      match bad with
      | some st => .inl st
      | none => .inr ((fill (fun idx => match row idx with | some i => (get 0 i).encode od | none => 0)).count R.FFE_CNT_INDEX_ZERO holes)
    | 7 =>
      let ix := ts.getD ((nOut b).getD 1 0) []
      let pick := fun (idx : List Nat) =>
        (topkRow (nPar b 0x1C 4) (nPar b 0x18 1 == 1) ((lineOf (ti 0) (2 ^ axis) idx).map (get 0))).getD (idx.getD axis 0) 0
      .inr ((fill (fun idx => (get 0 (idx.set axis (pick idx))).encode od)).tFill n ix pick)
    | 8 => .inr (fill (fun idx => (pos idx) % 2 ^ dtBits od))
    | 9 => .inr (fill (fun idx =>
        (get 0 ((List.range 5).map (fun k =>
          idx.getD ((List.range 5).find? (fun j => nPar b (0x18 + j) 1 == k) |>.getD 0) 0))).encode od))
    | _ => .inr (fill (fun idx => (get 0 idx).encode od))

/-! ### Running graphs -/

/-- A collective node that needs other modules. -/
def ringNode (b : List Byte) : Bool := (nOp b == 10 || nOp b == 11) && bitsOf (nPar b 0x1C 4) 31 30 != 0

/-- The engine block of a collective node (Tables 14-3, 14-4). -/
def collBlock (n origin : Nat) (ts : List (List Byte)) (b : List Byte) (k : Nat) : List Byte :=
  let i := ts.getD ((nIn b).getD 0 0) []
  let o := ts.getD ((nOut b).getD 0 0) []
  leBytes 1 6 ++ leBytes 1 (nOp b - 9) ++ leBytes 1 n ++ leBytes 1 8 ++ leBytes 2 0 ++ leBytes 2 origin ++ leBytes 8 0 ++ leBytes 8 (tBase i) ++
    leBytes 8 (tBase o) ++ leBytes 4 (nPar b 0x1C 4) ++ leBytes 4 0 ++ leBytes 8 (tSize i * dtBits (tType i) / 8) ++
    leBytes 1 (nPar b 0x18 1) ++ leBytes 1 (tType i) ++ leBytes 6 0 ++ leBytes 4 0 ++ leBytes 4 k

/-- Run a graph's nodes from `g.next` on, up to a KERNEL node or a ring collective, which it waits for, or to its end
(R248, R249). -/
def State.graphGo (s : State) (g : GraphRun) : Nat → State
  | 0 => s
  | fuel + 1 =>
    let keep := fun (s : State) (k : Nat) => ({ s with yar := { s.yar with graphs := s.yar.graphs ++ [{ g with next := k + 1 }] } } : State)
    match g.nodes[g.next]? with
    | none => s.endUid g.vf g.uid 0 0 g.nodes.length
    | some b =>
      if nOp b = 12 then
        let bases := ((nIn b ++ nOut b).map (fun j => sliceOf (g.tensors.getD j []) 0 8)).flatten
        (keep s g.next).startLaunch
          { id := 0, vf := g.vf, uid := g.uid, owner := if g.cls = 2 then 2 else 1, handle := nPar b 0x1C 4, contexts := nPar b 0x20 2,
            groups := nPar b 0x22 2, args := 0, argBytes := bases, spill := 0, next := 0, live := 0, fault := 0 }
      else if ringNode b then (keep s g.next).enqueue (collBlock g.vf (if g.cls = 2 then 0x1000 + g.vf else 0) g.tensors b g.next) g.uid
      else match s.runNode g.vf g.tensors b with
        | .inl st => s.faultUid g.vf g.uid st 0 0 0 0
        | .inr s1 => s1.graphGo { g with next := g.next + 1 } fuel

/-- The graph that command `uid` runs goes on; a command without one ends with this RESULT. -/
def State.graphNext (s : State) (n uid result : Nat) : State :=
  match s.yar.graphs.find? (fun g => g.uid == uid) with
  | none => s.endUid n uid 0 0 result
  | some g =>
    ({ s with yar := { s.yar with graphs := s.yar.graphs.filter (fun h => h.uid != uid) } } : State).graphGo g (g.nodes.length + 1)

/-- TENSOR_GRAPH: the whole graph is checked, then its nodes run in order (R248 to R250, R475). -/
def execTensorGraph (n q : Nat) (s : State) : Res :=
  s.startNext n q 0x20 (fun c s =>
    let cls := s.fld (F.QIF_Q_CTRL_CLASS n q)
    match s.readGraph n cls true id (c.body 0 8) (c.body 8 4) (c.body 0x10 8) (c.body 0x18 2) with
    | .inl (st, d) => s.faultCmd n q c.uid st d 0 0 0
    | .inr (ts, nodes) => s.graphGo { vf := n, uid := c.uid, cls := cls, tensors := ts, nodes := nodes, next := 0 } (nodes.length + 1))

/-- ENGINE_STEP_COMPLETE: the step in progress completes; a finished last block lets its command go on (R499, R504). -/
def execEngineStepComplete (i : Nat) (s : State) : Res :=
  match s.stepDone i with
  | (s1, some b) => .next (if b.flag 3 && b.uid != 0 then s1.graphNext b.vf b.uid b.total else s1)
  | (s1, none) => .next s1

/-- Whether context `k` may end: every lane has exited, no copy and no matrix operation is outstanding (R377, R442). -/
def State.ctxDone (s : State) (k : Nat) (x : Ctx) : Bool :=
  (List.range x.groups).all (fun g => (x.group g).exited == 0xFFFFFFFF) && x.copies.isEmpty && x.kept.isEmpty &&
    [2 * (k / 8), 2 * (k / 8) + 1].all (fun u => !((s.munit u).ops.any (fun m => m.ctx == k)))

/-- A launch whose contexts have all ended completes (R377). -/
def State.launchEnd (s : State) (id : Nat) : State :=
  match s.launchOf id with
  | none => s
  | some l =>
    if l.next < l.contexts || l.live != 0 then s
    else
      let s1 : State := { s with yar := { s.yar with launches := s.yar.launches.filter (fun l => l.id != id) } }
      s1.graphNext l.vf l.uid 0

/-- CONTEXT_END: a context's threads have all exited: its stores complete, its resources are freed, waiting contexts are
placed, and its launch completes when it was the last (R375, R377). -/
def execContextEnd (c j : Nat) (s : State) : Res :=
  let k := 8 * c + j
  match (if j < 8 then s.ctx k else none) with
  | none => .next s
  | some x =>
    if s.frozen || !s.ctxDone k x then .next s
    else .next ((((s.sbDrainCtx k).freeCtx k).placeAll x.vf).launchEnd x.launch)

end Sys2Proof.Machine
end

