-- ==== Sys2Proof/Machine/Teasel.lean ====
section
/-! DEFINITION. Teasel, the sequence batcher (chapter 16): admission, appends, cancels, steps. -/

namespace Sys2Proof.Machine

/-! ### The manifest (R571) -/

/-- A tensor of the step graph with the step dimensions replaced: N_TOKENS and N_SEQS. -/
def stepDims (tokens seqs : Nat) (t : List Byte) : List Byte :=
  let d := fun (k : Nat) =>
    let v := leAt t (0x10 + 4 * k) 4
    leBytes 4 (if v = 0xFFFFFFF0 then tokens else if v = 0xFFFFFFF1 then seqs else v)
  t.take 0x10 ++ ((List.range 5).map d).flatten ++ t.drop 0x24

/-- The step graph of the manifest `m`, read for VF `n` with these step dimensions. -/
def State.stepGraph (s : State) (n : Nat) (m : List Byte) (kern : Bool) (tokens seqs : Nat) :
    (Nat × Nat) ⊕ (List (List Byte) × List (List Byte)) :=
  s.readGraph n 0 kern (stepDims tokens seqs) (0x20000000000 + leAt m 8 4) (leAt m 0xC 4) 0x20000000000 0

/-- Read the manifest, when it has not been read and a model is resident (R571). A DIM may hold either step dimension: the
graph is checked with their largest values. -/
def State.readManifest (s : State) (n : Nat) : State :=
  if s.fld F.SEQ_STATUS_MANIFEST ≠ 0 || s.fld F.SLC_TEN_STATUS_MODEL != 2 then s
  else
    let m := if (s.memCheck freshAgent n 0x20000000000 128 false false).isSome then []
      else s.memBytes freshAgent n 0x20000000000 128
    let good := manifestOk m && decide (leAt m 8 4 + leAt m 0xC 4 ≤ s.mem.placed) &&
      (match s.stepGraph n m false (leAt m 0x10 4) (leAt m 0x14 2) with | .inr _ => true | .inl _ => false)
    let s1 : State := { s with tsl := { s.tsl with manifest := if good then m else [] } }
    s1.setFld F.SEQ_STATUS_MANIFEST (if good then 1 else 2)

/-! ### Retirement (R590) -/

/-- Appends that wait for an entry that is no longer live end with SEQ_UNKNOWN (R254). -/
def State.dropAppends (s : State) (n i : Nat) : State :=
  let mine := s.tsl.appends.filter (fun a => a.idx == i)
  let s1 := mine.foldl (fun s a => s.endUid n a.uid 0xE 0 0) s
  { s1 with tsl := { s1.tsl with appends := s1.tsl.appends.filter (fun a => a.idx != i) } }

/-- Sequence `i` retires: its pages and row are free, its entry FREE, its SEQ_ADMIT completes with this status and DETAIL and
RESULT PRODUCED; a SEQ_CANCEL that waits for it completes (R579, R590). `fault` says that the cause is a contained fault of
its own. -/
def State.retire (s : State) (i status detail : Nat) (fault : Bool) : State :=
  let q := s.seq i
  let s1 := ((s.freeSeq i).bump F.SEQ_CNT_RETIRE_COUNT).dropAppends q.vf i
  let s2 := (if fault then s1.contained q.vf 2 0 0 0 else s1).endUid q.vf q.uid status detail q.produced
  if q.cancelUid = 0 then s2 else s2.endUid q.vf q.cancelUid 0 0 0

/-! ### Admission (R572, R575, R576) -/

/-- The limit on live sequences that SEQ_S_LIMIT sets: above 4,096 reads as 4,096. -/
def State.seqLimit (s : State) (n : Nat) : Nat := min (s.fld (F.SEQ_S_LIMIT_LIMIT n)) 4096

/-- The first condition of R575 that a SEQ_ADMIT fails: its DETAIL. -/
def State.admitFault (s : State) (n : Nat) (c : QCmd) : Option Nat :=
  let kv := if c.body 0x20 4 = 0 then s.mf 0x1E 2 else c.body 0x20 4
  if c.body 8 8 % 4 ≠ 0 then some 0x38
  else if c.body 0x18 8 % 4 ≠ 0 then some 0x48
  else if s.maxPages < kv then some 0x50
  else if kv * s.pageTokens < c.body 0x10 4 then some 0x40
  else if (s.liveSeqs n).any (fun i => (s.seq i).userSeq == c.body 0 8) then some 0x30
  else none

/-- Activate the slice: LIMIT_ACTIVE is latched, the page table zeroed, every page of the pool free, SCALE 256 (R572,
R584; log entry 40). Nothing where the area does not fit the reservation. -/
def State.activate (s : State) (n : Nat) : Option State :=
  let lim := s.seqLimit n
  if lim = 0 || 0x10000 * s.fld (F.SLC_S_COMMONS_UNITS n) < s.areaSize lim then none
  else
    let s1 : State := { s with tsl := { s.tsl with
      active := fset (fun _ => 0) s.tsl.active n (lim + 1), order := fset (fun _ => 0) s.tsl.order n 0,
      after := fset (fun _ => 0) s.tsl.after n 0 } }
    let s2 := s1.areaPut n 8 0 (List.replicate (4 * s1.maxPages * lim) 0)
    let k := s2.poolPages
    let s3 := s2.areaPut n 9 0 ((List.range ((k + 7) / 8)).map (fun b => BitVec.ofNat 8 (2 ^ min 8 (k - 8 * b) - 1)))
    some (s3.setReg (R.SEQ_S_SCALE n) 256)

/-- The lowest FREE entry of the table. -/
def State.freeSeqEntry (s : State) : Option Nat := lowestFree 131072 (s.tsl.seqs.map (fun e => (e.1, 0))) 0

/-- The lowest page-table row that no sequence of the slice has. -/
def State.freeRow (s : State) (n : Nat) : Option Nat :=
  let used := (s.seqsOf n).map (fun i => (s.seq i).ptRow)
  (List.range (s.limitActive n)).find? (fun r => !used.contains r)

/-- Take the entry for an accepted SEQ_ADMIT, or end it with SEQ_FULL (R576). -/
def State.admitSeq (s : State) (n q : Nat) (c : QCmd) : State :=
  let full := fun (s : State) => (s.bump F.SEQ_CNT_FULL_COUNT).endCmd n q c.uid 0xD 0 0
  match (if s.activated n then some s else s.activate n) with
  | none => full s
  | some s1 =>
    match s1.freeSeqEntry, s1.freeRow n with
    | some i, some r =>
      if min (s1.limitActive n) (s1.seqLimit n) ≤ (s1.liveSeqs n).length then full s1
      else
        let o := fget (fun _ => 0) s1.tsl.order n + 1
        let e : Seq := { st := 1, vf := n, prio := c.body 0x24 1, ptRow := r, userSeq := c.body 0 8, prompt := c.body 8 8,
                         out := c.body 0x18 8, promptTokens := c.body 0x10 4, maxNew := c.body 0x14 4,
                         kvLimit := if c.body 0x20 4 = 0 then s1.mf 0x1E 2 else c.body 0x20 4, order := o, queue := q,
                         bufId := c.id, uid := c.uid }
        let s2 : State := { s1 with tsl := { s1.tsl with order := fset (fun _ => 0) s1.tsl.order n o } }
        (s2.modSeq i (fun _ => e)).bump F.SEQ_CNT_ADMIT_COUNT
    | _, _ => full s1

/-- SEQ_ADMIT (R571, R572, R575, R576). -/
def execSeqAdmit (n q : Nat) (s : State) : Res :=
  if s.frozen then .next s
  else s.startNext n q 0x40 (fun c s =>
    let s1 := s.readManifest n
    if s1.fld F.SLC_TEN_STATUS_MODEL ≠ 2 || s1.fld F.SEQ_STATUS_MANIFEST ≠ 1 then s1.endCmd n q c.uid 6 0 0
    else match s1.admitFault n c with
      | some d => s1.endCmd n q c.uid 3 d 0
      | none => s1.admitSeq n q c)

/-! ### Append and cancel (R578, R579) -/

/-- The live sequence of the slice with this USER_SEQ. -/
def State.seqNamed (s : State) (n user : Nat) : Option Nat := (s.liveSeqs n).find? (fun i => (s.seq i).userSeq == user)

/-- SEQ_APPEND: checked, then it waits until the sequence is in no step (R578). -/
def execSeqAppend (n q : Nat) (s : State) : Res :=
  if s.frozen then .next s
  else s.startNext n q 0x41 (fun c s =>
    match s.seqNamed n (c.body 0 8) with
    | none => s.endCmd n q c.uid 0xE 0 0
    | some i =>
      let x := s.seq i
      let k := c.body 0x10 4
      if x.maxNew < x.outLen + k || x.kvLimit * s.pageTokens < x.hist + k then s.endCmd n q c.uid 3 0x40 0
      else { s with tsl := { s.tsl with appends := s.tsl.appends ++ [⟨i, c.uid, c.body 8 8, k⟩] } })

/-- Apply one append: its tokens are copied to OUT and count in OUT_LEN and HIST_LEN; a copy that fails ends its command. -/
def State.applyAppend (s : State) (a : Append) : State :=
  let x := s.seq a.idx
  let s1 : State := { s with tsl := { s.tsl with appends := s.tsl.appends.filter (fun b => b.uid != a.uid) } }
  let dst := x.out + 4 * x.outLen
  match memFault (s1.memCheck freshAgent x.vf a.tokens (4 * a.count) false false) with
  | some st => s1.faultUid x.vf a.uid st 0 0 0 0
  | none =>
    match memFault (s1.memCheck freshAgent x.vf dst (4 * a.count) true false) with
    | some st => s1.faultUid x.vf a.uid st 0 0 0 0
    | none =>
      let s2 := s1.memPut freshAgent x.vf dst (s1.memBytes freshAgent x.vf a.tokens (4 * a.count))
      let s3 := s2.modSeq a.idx (fun x => { x with outLen := x.outLen + a.count })
      s3.endUid x.vf a.uid 0 0 (x.hist + a.count)

/-- SEQ_APPEND_APPLY: the oldest append of VF `n`'s slice whose sequence is in no step is applied (R578). -/
def execSeqAppendApply (n : Nat) (s : State) : Res :=
  if s.frozen then .next s
  else match s.tsl.appends.find? (fun a => (s.seq a.idx).vf == n && !(s.seq a.idx).inStep) with
    | none => .next s
    | some a => .next (s.applyAppend a)

/-- SEQ_CANCEL: the sequence is RETIRING; in no step, it retires at once with SEQ_CANCELLED, after the appends that came
before (R579). -/
def execSeqCancel (n q : Nat) (s : State) : Res :=
  if s.frozen then .next s
  else s.startNext n q 0x42 (fun c s =>
    match s.seqNamed n (c.body 0 8) with
    | none => s.endCmd n q c.uid 0xE 0 0
    | some i =>
      if (s.seq i).inStep then s.modSeq i (fun x => { x with st := 3, cancelUid := c.uid })
      else
        let s1 := (s.tsl.appends.filter (fun a => a.idx == i)).foldl State.applyAppend s
        (s1.modSeq i (fun x => { x with st := 3, cancelUid := c.uid })).retire i 0xF 0 false)

/-! ### Building a step (R581 to R588) -/

/-- Insert by key, and sort by key. -/
def insertKey (k v : Nat) : List (Nat × Nat) → List (Nat × Nat)
  | [] => [(k, v)]
  | (k', v') :: t => if k < k' then (k, v) :: (k', v') :: t else (k', v') :: insertKey k v t
def sortKeys (l : List (Nat × Nat)) : List Nat := (l.foldl (fun a p => insertKey p.1 p.2 a) []).map (fun p => p.2)

/-- One unprocessed token: the sequence is decoding. -/
def Seq.decoding (q : Seq) : Bool := q.hist - q.done == 1

/-- The candidates of the slice in the order of R582. -/
def State.candidates (s : State) (n : Nat) : List Nat :=
  let a := fget (fun _ => 0) s.tsl.after n
  let key := fun (i : Nat) =>
    let q := s.seq i
    (2 * (7 - q.prio) + (if q.decoding then 0 else 1)) * 2 ^ 40 +
      (if q.decoding then (i + 131072 - a) % 131072 else q.order)
  sortKeys (((s.liveSeqs n).filter (fun i => !(s.seq i).inStep && decide ((s.seq i).done < (s.seq i).hist))).map
    (fun i => (key i, i)))

/-- EST of a step with these totals (R584), ns. -/
def State.stepEst (s : State) (n tokens seqs pages : Nat) : Nat :=
  let raw := s.mf 0x34 4 * 1000 + tokens * s.mf 0x38 4 + seqs * s.mf 0x3C 4 + pages * s.mf 0x40 4
  raw * s.fld (F.SEQ_S_SCALE_SCALE n) / 256 / 1000

/-- A step being built. -/
structure Build where
  st : State
  rows : List (Nat × Nat × Nat)
  tokens : Nat
  pages : Nat
deriving DecidableEq, Repr

/-- Pages that `k` tokens of context need. -/
def State.pagesFor (s : State) (k : Nat) : Nat := (k + s.pageTokens - 1) / s.pageTokens

/-- The largest run of a filling sequence that fits: at most `c` tokens (R583, R584). -/
def State.fitRun (s : State) (n r : Nat) (b : Build) (q : Seq) : Nat → Nat
  | 0 => 0
  | c + 1 =>
    if s.stepEst n (b.tokens + c + 1) (b.rows.length + 1) (b.pages + s.pagesFor (q.done + c + 1)) ≤ r then c + 1
    else s.fitRun n r b q c

/-- Evict sequence `i` (R587). -/
def State.evict (s : State) (i : Nat) : State :=
  ((s.returnPages (s.seq i)).modSeq i (fun x => { x with pages := 0, done := 0, st := 2 })).bump F.SEQ_CNT_EVICT_COUNT

/-- The victims that sequence `i` may take, in order (R586). -/
def State.victims (s : State) (i : Nat) (b : Build) : List Nat :=
  let q := s.seq i
  let ok := fun (j : Nat) =>
    let v := s.seq j
    j != i && decide (v.pages ≠ 0) && !v.inStep && !b.rows.any (fun r => r.1 == j) &&
      (decide (v.prio < q.prio) || (v.prio == q.prio && decide (q.order < v.order)))
  sortKeys (((s.liveSeqs q.vf).filter ok).map (fun j => ((s.seq j).prio * 2 ^ 40 + (2 ^ 39 - (s.seq j).order), j)))

/-- Evict victims until `need` pages are free. -/
def State.evictUntil (n need : Nat) : List Nat → State → State
  | [], s => s
  | j :: t, s => if need ≤ (s.freePages n).length then s else State.evictUntil n need t (s.evict j)

/-- Get sequence `i` the pages for a context of `k` tokens, or nothing (R586). -/
def State.takePages (s : State) (i k : Nat) (b : Build) : Option State :=
  let q := s.seq i
  let more := s.pagesFor k - q.pages
  let vs := s.victims i b
  if (s.freePages q.vf).length + (vs.map (fun j => (s.seq j).pages)).foldl (· + ·) 0 < more then none
  else
    let s1 := State.evictUntil q.vf more vs s
    let ps := (s1.freePages q.vf).take more
    if ps.length < more then none
    else
      let s2 := (ps.zipIdx).foldl (fun s p =>
        (s.setPage q.vf p.1 false).areaPut q.vf 8 (4 * (s.maxPages * q.ptRow + q.pages + p.2)) (leBytes 4 p.1)) s1
      some (s2.modSeq i (fun x => { x with pages := x.pages + more }))

/-- Offer candidate `i` (R583, R586, R590): it is included, skipped, or retires at its page limit, or for a page index
outside the pool (R573). -/
def State.offer (n r : Nat) (b : Build) (i : Nat) : Build :=
  let s := b.st
  let q := s.seq i
  if !q.live || s.maxTokens ≤ b.tokens || s.maxSeqs ≤ b.rows.length then b
  else if (s.pagesOf q).any (fun p => decide (s.poolPages ≤ p)) then { b with st := s.retire i 4 0 true }
  else if q.decoding && q.kvLimit < s.pagesFor (q.done + 1) then
    { b with st := (s.bump F.SEQ_CNT_KV_LIMIT_COUNT).retire i 0 0 false }
  else
    let room := min (min (q.hist - q.done) (s.maxTokens - b.tokens)) (q.kvLimit * s.pageTokens - q.done)
    let fit := if q.decoding then 1 else s.fitRun n r b q room
    let c := if b.rows.isEmpty then max fit 1 else fit
    if c = 0 then b
    else match s.takePages i (q.done + c) b with
      | none => b
      | some s1 => { st := s1.modSeq i (fun x => { x with st := 1 }), rows := b.rows ++ [(i, q.done, c)],
                     tokens := b.tokens + c, pages := b.pages + s1.pagesFor (q.done + c) }

/-- Slice address of history token `p` of a sequence: PROMPT, then OUT. -/
def Seq.tokenAt (q : Seq) (p : Nat) : Nat := if p < q.promptTokens then q.prompt + 4 * p else q.out + 4 * (p - q.promptTokens)

/-- Write the rows' inputs into the area (R585, Table 16-3); the status of a token copy that fails. -/
def State.writeRows (s : State) (n : Nat) (rows : List (Nat × Nat × Nat)) : Nat ⊕ State :=
  let offs := (List.range rows.length).map (fun k => (rows.take k).foldl (fun t r => t + r.2.2) 0)
  let toks := (rows.map (fun r => (List.range r.2.2).map (fun j => (s.seq r.1, r.2.1 + j)))).flatten
  match toks.findSome? (fun t => memFault (s.memCheck freshAgent n (t.1.tokenAt t.2) 4 false false)) with
  | some st => .inl st
  | none =>
    let s1 := (toks.zipIdx).foldl (fun s t =>
      let q := t.1.1
      let p := t.1.2
      let s1 := s.areaPut n 2 (4 * t.2) (s.memBytes freshAgent n (q.tokenAt p) 4)
      (s1.areaPut n 3 (4 * t.2) (leBytes 4 p)).areaPut n 4 (8 * t.2)
        (leBytes 4 (s1.pageOf q (p / s1.pageTokens)) ++ leBytes 4 (p % s1.pageTokens))) s
    let s2 := (rows.zipIdx).foldl (fun s r =>
      let i := r.1.1
      let k := r.2
      let s1 := s.areaPut n 1 (16 * k) (leBytes 4 i ++ leBytes 4 r.1.2.1 ++ leBytes 4 r.1.2.2 ++ leBytes 4 (offs.getD k 0))
      let list := (s.pagesOf (s.seq i)) ++ List.replicate (s.maxPages - (s.seq i).pages) 0xFFFFFFFF
      (s1.areaPut n 5 (4 * k) (leBytes 4 (r.1.2.1 + r.1.2.2))).areaPut n 6 (4 * s.maxPages * k) ((list.map (leBytes 4)).flatten)) s1
    .inr s2

/-- An ELASTIC slot with FLAGS.TEASEL runs the slice. -/
def State.teaselSlot (s : State) (n : Nat) : Bool :=
  s.sch.running.any (fun y => y.kind == 3 && y.teasel && s.slotRuns n y)

/-- Hand the step to the graph executor (R588); a graph that fails its check fails the step (R591). -/
def State.handOver (s : State) (n : Nat) (x : TStep) (tokens : Nat) : State :=
  let s1 : State := { s with tsl := { s.tsl with steps := s.tsl.steps ++ [x] } }
  let s2 := (x.rows.foldl (fun s r => s.modSeq r.1 (fun q => { q with inStep := true })) s1).bump F.SEQ_CNT_STEPS_COUNT
  match s2.stepGraph n s2.tsl.manifest true tokens x.rows.length with
  | .inl (st, d) => s2.faultUid n x.uid st d 0 0 0
  | .inr (ts, nodes) => s2.graphGo { vf := n, uid := x.uid, cls := 2, tensors := ts, nodes := nodes, next := 0 } (nodes.length + 1)

/-- STEP_BUILD: in a slot that runs the slice with TEASEL and `r` ns left in it, Teasel chooses a batch, evicts where needed,
writes the area and hands the step graph over (R581 to R588). -/
def execStepBuild (n r : Nat) (s : State) : Res :=
  if s.frozen || !s.activated n || s.tsl.steps.any (fun x => x.vf == n) || !s.teaselSlot n || r < s.mf 0x34 4 then .next s
  else
    let b := (s.candidates n).foldl (State.offer n r) ⟨s, [], 0, 0⟩
    if b.rows.isEmpty then .next b.st
    else
      let est := b.st.stepEst n b.tokens b.rows.length b.pages
      let dec := b.rows.filter (fun r => (s.seq r.1).decoding)
      let uid := b.st.sch.nextUid
      let s1 : State := { b.st with
        sch := { b.st.sch with nextUid := uid + 1 }
        tsl := { b.st.tsl with
          after := (match dec.getLast? with | some r => fset (fun _ => 0) b.st.tsl.after n ((r.1 + 1) % 131072) | none => b.st.tsl.after)
          stepNo := fmod (fun _ => 0) b.st.tsl.stepNo n (· + 1) } }
      let x : TStep := { uid := uid, vf := n, rows := b.rows, est := est, result := none }
      match s1.writeRows n b.rows with
      | .inl st =>
        let s2 : State := { s1 with tsl := { s1.tsl with steps := s1.tsl.steps ++ [x] } }
        .next ((b.rows.foldl (fun s r => s.modSeq r.1 (fun q => { q with inStep := true })) s2).faultUid n uid st 0 0 0 0)
      | .inr s2 =>
        let s3 := s2.areaPut n 0 0 (leBytes 8 (fget (fun _ => 0) s2.tsl.stepNo n) ++ leBytes 4 b.tokens ++ leBytes 4 b.rows.length)
        .next (s3.handOver n x b.tokens)

/-! ### Ending a step (R584, R589 to R591) -/

/-- The slice's SCALE after a step that took `actual` ns against `est` (R584). -/
def newScale (scale actual est : Nat) : Nat := max 128 (min 1024 ((7 * scale + min 1024 (256 * actual / max 1 est)) / 8))

/-- Commit row `k` (R589, R590): answers the status that fails the step, if its token cannot be written. -/
def State.commitRow (s : State) (k : Nat) (r : Nat × Nat × Nat) : State × Option Nat :=
  let q0 := s.seq r.1
  if !q0.inStep then (s, none)
  else
    let s1 := s.modSeq r.1 (fun x => { x with done := x.done + r.2.2, inStep := false })
    let q := s1.seq r.1
    if q.st = 3 then (s1.retire r.1 0xF 0 false, none)
    else if q.done ≠ q.hist then (s1, none)
    else
      let v := s1.areaLe q.vf 7 (4 * k) 4
      if s1.mf 0x20 4 ≤ v then (s1.retire r.1 0xC 0xFFFF false, none)
      else match memFault (s1.memCheck freshAgent q.vf (q.out + 4 * q.outLen) 4 true false) with
        | some st => (s1.modSeq r.1 (fun x => { x with inStep := true }), some st)
        | none =>
          let s2 := s1.memPut freshAgent q.vf (q.out + 4 * q.outLen) (leBytes 4 v)
          let s3 := s2.modSeq r.1 (fun x => { x with outLen := x.outLen + 1, produced := x.produced + 1 })
          if (List.range 4).any (fun j => s3.mf (0x24 + 4 * j) 4 == v) || decide (q.maxNew ≤ q.outLen + 1) then
            (s3.retire r.1 0 0 false, none)
          else (s3, none)

/-- Commit the rows in ascending order; what fails on the way. -/
def State.commitRows : List ((Nat × Nat × Nat) × Nat) → State → State × Option Nat
  | [], s => (s, none)
  | (r, k) :: t, s =>
    match s.commitRow k r with
    | (s1, none) => State.commitRows t s1
    | (s1, some st) => (s1, some st)

/-- Every sequence still in a failed step retires with its status and DETAIL (R591). -/
def State.failRows (s : State) (rows : List (Nat × Nat × Nat)) (status detail : Nat) : State :=
  (rows.foldl (fun s r =>
    let q := s.seq r.1
    if !q.inStep then s
    else if q.st = 3 then s.retire r.1 0xF 0 false
    else s.retire r.1 status detail false) s).bump F.SEQ_CNT_STEP_FAIL_COUNT

/-- STEP_END: the slice's step has ended after `actual` ns: tokens are committed and sequences retire, or the step fails
(R584, R589 to R591). -/
def execStepEnd (n actual : Nat) (s : State) : Res :=
  match s.tsl.steps.find? (fun x => x.vf == n && x.result.isSome) with
  | none => .next s
  | some x =>
    if s.frozen then .next s
    else
      let s1 : State := { s with tsl := { s.tsl with steps := s.tsl.steps.filter (fun y => y.uid != x.uid) } }
      let s2 := s1.setFld (F.SEQ_S_SCALE_SCALE n) (newScale (s1.fld (F.SEQ_S_SCALE_SCALE n)) actual x.est)
      match x.result with
      | some (0, _) =>
        (match State.commitRows x.rows.zipIdx s2 with
         | (s3, none) => .next s3
         | (s3, some st) => .next ((s3.contained n 7 0 0 0).failRows x.rows st 0))
      | some (st, d) => .next (s2.failRows x.rows st d)
      | none => .next s2

/-! ### Unloading (R593) -/

/-- MODEL_UNLOAD is accepted: every step is dropped, every live sequence retires with NO_MODEL. -/
def State.unloadTeasel (s : State) : State :=
  let s1 := s.tsl.steps.foldl (fun s x => (s.stopOnClusters x.vf x.uid).dropBlocks x.vf (fun b => b.uid == x.uid)) s
  let s2 : State := { s1 with tsl := { s1.tsl with steps := [] } }
  s2.tsl.seqs.foldl (fun s e => s.retire e.1 6 0 false) s2

end Sys2Proof.Machine
end

