-- ==== Sys2Proof/Machine/ModelLoad.lean ====
section
/-! DEFINITION. Weight packages: MODEL_LOAD, the decompressor, and MODEL_UNLOAD (R187, R188, R310 to R319, R525 to
R528). -/

namespace Sys2Proof.Machine

/-! ### The commands -/

/-- MODEL_LOAD (R187): the load job starts. -/
def execModelLoad (ups : Upsets) (s : State) : Res :=
  s.command 0x0401 ups (fun c s =>
    let len := c.arg 16 8
    if c.arg 8 8 % 64 ≠ 0 then s.no 0x11 8
    else if len = 0 || 2 ^ 40 < len then s.no 0x11 16
    else if s.tenancy ≠ 2 || s.model != 0 then s.no 0x15 0
    else if s.jobLimit c.fn then s.no 0x16 0
    else
      let s1 := (s.setModel 1).setFld F.SEC_STATUS_LOAD_ACTIVE 1
      let s2 : State := { s1 with sec := { s1.sec with decodeBad := false, loadHash := [], loadOut := 0 } }
      s2.startJob c len (c.arg 8 8) len c.fn)

/-- MODEL_UNLOAD (R188, R593): Teasel drops its steps and the scrub of the model starts. -/
def execModelUnload (ups : Upsets) (s : State) : Res :=
  s.command 0x0402 ups (fun c s =>
    if s.model ≠ 2 then s.no 0x15 0
    else if s.jobLimit c.fn then s.no 0x16 0
    else
      let s1 := ((s.unloadTeasel.setModel 3).clearModelRegs.dropModel)
      let s2 := ((s1.setFld F.SLC_SCRUB_ACTIVE 1).setFld F.SLC_SCRUB_KIND 3).setFld F.SLC_SCRUB_VF 0
      s2.startJob c 0 0 0 0)

/-- MODEL_UNLOAD_JOB_END: the model's frames are zero and free, and MODEL is none (R188). -/
def execModelUnloadJobEnd (s : State) : Res :=
  match s.jobOf 0x0402 with
  | none => .next s
  | some j =>
    if s.frozen then .next s
    else .next (((((s.finishSliceMem 0).setFld F.SLC_SCRUB_ACTIVE 0).setModel 0).endJob j 0 0))

/-! ### The package (Tables 08-12 and 08-13) -/

/-- The byte-plane unshuffle of R527 over one block. -/
def unshuffleBlock (e : Nat) (d : List Byte) : List Byte :=
  let m := d.length / e
  (List.range d.length).map (fun o => d.getD (o % e * m + o / e) 0)

/-- The unshuffle of a decoded stream, block by block of 65,536 bytes, at most `n` blocks; none where a block's length is
not a multiple of E. -/
def unshuffle (e : Nat) : Nat → List Byte → Option (List Byte)
  | 0, _ => some []
  | n + 1, d =>
    if d.isEmpty then some []
    else
      let b := d.take 65536
      if b.length % e ≠ 0 then none
      else (unshuffle e n (d.drop 65536)).map (fun r => unshuffleBlock e b ++ r)

/-- What the decompressor makes of a plaintext under a COMPRESSION code (Table 14-6, R526, R527). -/
def decompress (code : Nat) (p : List Byte) : Option (List Byte) :=
  match code with
  | 0 => some p
  | 1 => Config.zstd p
  | 2 => (Config.zstd p).bind (fun d => unshuffle 2 (d.length / 65536 + 1) d)
  | 3 => (Config.zstd p).bind (fun d => unshuffle 4 (d.length / 65536 + 1) d)
  | 4 => Config.inflate p
  | _ => none

/-- Take frames for the model until it has `n`, as R344 allocates (R345). -/
def State.growModel (s : State) (n : Nat) : Nat → State
  | 0 => s
  | k + 1 =>
    if n ≤ s.mem.model.length then s
    else match s.nextFrame with
      | none => s
      | some f =>
        let s1 := s.takeFrame f (64 * 2)
        State.growModel { s1 with mem := { s1.mem with model := s1.mem.model ++ [f] } } n k

/-- Write model bytes at offset `o`, in frames taken for them. -/
def State.modelPut (s : State) (o : Nat) (bs : List Byte) : State :=
  let s1 := s.growModel ((o + bs.length + 0x1FFFFF) / 0x200000) 2
  (bs.zipIdx).foldl (fun s p =>
    s.dpaPut (frameDpa (s.mem.model.getD ((o + p.2) / 0x200000) 0) + (o + p.2) % 0x200000) p.1) s1

/-- DECODE: one step of a class 5 block on instance `i`. In the block's first step the load hash unit passes the chunk
plaintexts `plain` on, and the decompressor stops at once on an error or on output beyond OUT_LIMIT; each step writes the
next 64 KiB of output from the model's base (R316, R317, R525 to R528). -/
def execDecode (i : Nat) (plain : List Byte) (s : State) : Res :=
  s.engineStep i 5 1 (fun b =>
    let first := b.saved.isNone
    let lim := b.field 0x20 8
    let out := match b.saved with | some o => some o | none => decompress (b.field 0x28 1) plain
    let s1 : State := if first then
        { s with sec := { s.sec with loadHash := digest48 (Config.sha384 plain) }, mem := { s.mem with reserved := (lim + 0x1FFFFF) / 0x200000 } }
      else s
    let stop : StepRes := .ok ({ s1.ffeFault 8 b.vf i b.op with sec := { s1.sec with decodeBad := true } }.count R.FFE_CNT_DECODE_ERR 1)
    match out with
    | none => stop
    | some o =>
      if lim < o.length then stop
      else
        let bs := (o.drop (65536 * b.steps)).take 65536
        let s2 := (if first then s1.saveSource i b o else s1).modelPut (b.dst + 65536 * b.steps) bs
        .ok { s2 with sec := { s2.sec with loadOut := s2.sec.loadOut + bs.length } })

/-- Check 2 of Table 08-8 over the header's 512 bytes. -/
def headerOk (h : List Byte) (len : Nat) : Bool :=
  let binds := leAt h 0xC 2
  let comp := leAt h 0xE 1
  let placed := leAt h 0x20 8
  let clen := leAt h 0x28 4
  let chunks := leAt h 0x30 8
  let content := leAt h 0x38 8
  let off := leAt h 0x40 8
  leAt h 0 4 == 0x4B50574A && leAt h 4 2 == 1 && decide (leAt h 6 2 < 2) && leAt h 8 4 == 512 + 96 * binds &&
    decide (1 ≤ binds ∧ binds ≤ 512 ∧ comp ≤ 4) && leAt h 0xF 1 == 0 && placed % 64 == 0 &&
    decide (64 ≤ placed ∧ placed ≤ 192 * 2 ^ 30) && (comp != 0 || placed == content) &&
    (List.range 11).any (fun k => clen == 2 ^ (16 + k)) && leAt h 0x2C 4 == 0 && decide (1 ≤ content) &&
    chunks == (content + clen - 1) / clen && off % 64 == 0 && decide (leAt h 8 4 ≤ off) && leAt h 0xD8 8 == 0 &&
    leAt h 0x1A0 80 == 0 && len == off + content + 16 * chunks &&
    (tst (leAt h 6 2) 0 || (leAt h 0xE0 96 == 0 && leAt h 0x140 96 == 0))

/-- A failed check: its number, crypto status and the job's status (R311, Table 08-8). -/
structure LoadFail where
  check : Nat
  crypto : Nat
  status : Nat
deriving DecidableEq, Repr

/-- `n` header bytes with the ranges of the list read as zero. -/
def zeroed (h : List Byte) (rs : List (Nat × Nat)) : List Byte :=
  (h.zipIdx).map (fun p => if rs.any (fun r => decide (r.1 ≤ p.2 ∧ p.2 < r.1 + r.2)) then 0 else p.1)

/-- The IV of chunk `i` (R316). -/
def chunkIv (i : Nat) : List Byte := leBytes 4 0 ++ leBytes 8 i

/-- Checks 4 to 7: the part's entry, the key agreement, the unwrap, the header tag. The content key on success. -/
def State.loadKey (s : State) (h : List Byte) (bindings : Option (List Byte)) : LoadFail ⊕ List Byte :=
  match bindings with
  | none => .inl ⟨4, 0, 0x2C⟩
  | some bt =>
    let own := (List.range (leAt h 0xC 2)).filter (fun k => sliceOf bt (96 * k) 48 == s.bkDigest)
    match own with
    | [] => .inl ⟨4, 0, 0x29⟩
    | _ :: _ :: _ => .inl ⟨4, 0, 0x2A⟩
    | [k] =>
      let epk := sliceOf h 0x48 96
      let e := ecInputs [pointOf epk] [] none
      if e ≠ 0 then .inl ⟨5, e, 0x2A⟩
      else
        let kek := kdf (Config.ecdhB epk) (label "JOIVO-WRAP") (sliceOf h 0x10 16 ++ s.bkDigest) 256
        match Config.keyUnwrap kek (sliceOf bt (96 * k + 0x30) 40) with
        | none => .inl ⟨6, 0xD, 0x2A⟩
        | some key =>
          let aad := zeroed (sliceOf h 0 512) [(0x1F0, 16)] ++ sliceOf bt 0 (96 * leAt h 0xC 2)
          if Config.gcmTag key (leBytes 4 0 ++ leBytes 8 0xFFFFFFFFFFFFFFFF) aad [] ≠ sliceOf h 0x1F0 16 then .inl ⟨7, 0xC, 0x2A⟩
          else .inr key

/-- Check 9: chunk reads and tags. -/
def chunkFail (h key : List Byte) (chunks : List (Option (List Byte))) : Option LoadFail :=
  let n := leAt h 0x30 8
  let clen := leAt h 0x28 4
  let bad := fun (i : Nat) =>
    match chunks.getD i none with
    | none => some (⟨9, 0, 0x2C⟩ : LoadFail)
    | some c =>
      let l := if i + 1 = n then leAt h 0x38 8 - (n - 1) * clen else clen
      if Config.gcmTag key (chunkIv i) (sliceOf h 0x10 16 ++ leBytes 8 i) (sliceOf c 0 l) ≠ sliceOf c l 16 then some ⟨9, 0xC, 0x2A⟩
      else none
  (List.range n).findSome? bad

/-- Checks 1 to 9 of Table 08-8: the first failure, or the header and binding table. -/
def State.loadCheck (s : State) (len : Nat) (r : PkgRead) : LoadFail ⊕ List Byte :=
  match r.header with
  | none => .inl ⟨1, 0, 0x2C⟩
  | some h =>
    let room : State := { s with mem := { s.mem with model := [], reserved := 0 } }
    if !headerOk h len then .inl ⟨2, 0, 0x2A⟩
    else if room.freeHbm room.projected < (leAt h 0x20 8 + 0x1FFFFF) / 0x200000 then .inl ⟨3, 0, 0x2B⟩
    else match s.loadKey h r.bindings with
      | .inl e => .inl e
      | .inr key =>
        let v := if tst (leAt h 6 2) 0 then
            verifyStatus (sliceOf h 0xE0 96) (sliceOf h 0x140 96) (Config.sha384 (zeroed (sliceOf h 0 512) [(0x140, 96), (0x1F0, 16)]))
          else 0
        if v ≠ 0 then .inl ⟨8, v, 0x2A⟩
        else match chunkFail h key r.chunks with
          | some e => .inl e
          | none => .inr (sliceOf h 0 512 ++ sliceOf (r.bindings.getD []) 0 (96 * leAt h 0xC 2))

/-- Write bytes into a run of registers, four to each. -/
def State.putRegs (s : State) (a n : Nat) (bs : List Byte) : State :=
  (List.range n).foldl (fun s i => s.setReg (a + 4 * i) (BitVec.ofNat 32 (leAt bs (4 * i) 4))) s

/-- The load succeeds: the measurement is recorded and the model is resident (R318, R319). -/
def State.loadDone (s : State) (j : Nat) (h : List Byte) : State :=
  let s1 := ((s.putRegs (R.SEC_MODEL_DIGEST 0) 12 (sliceOf h 0xA8 48)).putRegs (R.SEC_MODEL_ID 0) 4 (sliceOf h 0x10 16)).putRegs
    R.SEC_MODEL_SIZE_LO 2 (sliceOf h 0x20 8)
  let s2 : State := { s1 with
    sec := { s1.sec with
      headerDigest := Config.sha384 h
      signerDigest := if tst (leAt h 6 2) 0 then Config.sha384 (sliceOf h 0xE0 96) else [] }
    mem := { s1.mem with placed := leAt h 0x20 8, reserved := 0 } }
  ((s2.setFld F.SEC_STATUS_LOAD_ACTIVE 0).setModel 2).endJob j 0 0

/-- The load fails: what it placed is scrubbed, its reservation returns, no model is resident (R187, R312). -/
def State.loadFailed (s : State) (j : Nat) (e : LoadFail) : State :=
  let s1 := if e.check = 6 || e.check = 7 || (e.check = 9 && e.crypto != 0) then s.sealReject e.crypto 3 else s
  let s2 := (s1.dropModel.finishSliceMem 0).setFld F.SEC_STATUS_LOAD_ACTIVE 0
  let s3 := s2.dropBlocks (s2.job j).fn (fun b => b.cls == 5)
  (s3.setModel 0).endJob j e.status (e.check * 2 ^ 24 + e.crypto * 2 ^ 16)

/-- MODEL_LOAD_JOB_END: host memory answered `r`. At the first check that fails the job ends with its status; when all
pass and the decompressor has stopped or placed its output, check 10 is made (R311, R317 to R319). A job whose
decompressor still runs goes on. -/
def execModelLoadJobEnd (r : PkgRead) (s : State) : Res :=
  match s.jobOf 0x0401 with
  | none => .next s
  | some j =>
    if s.frozen then .next s
    else match s.loadCheck (s.job j).b r with
      | .inl e => .next (s.loadFailed j e)
      | .inr h =>
        let placed := leAt h 0x20 8
        if s.sec.loadHash.isEmpty then .next s
        else if s.sec.decodeBad || s.sec.loadOut ≠ placed || s.sec.loadHash ≠ sliceOf h 0xA8 48 then
          .next (s.loadFailed j ⟨10, 0, 0x2A⟩)
        else .next (s.loadDone j h)

end Sys2Proof.Machine
end

