-- ==== Sys2Proof/Machine/Faults.lean ====
section
/-! DEFINITION. The fault controller (chapter 20): uncontained faults and their recovery, contained faults, hangs,
injection, and the failure notices of other modules. -/

namespace Sys2Proof.Machine

/-! ### Classification (Table 20-1) -/

/-- The class of Table 03-3 of the unit that a fault of this code names, 0 none. -/
def faultClass (code : Nat) : Nat :=
  match code with
  | 0x86 => 9
  | 0x87 => 10
  | 0x88 => 5
  | 0x89 => 6
  | 0x8A => 8
  | 0x8B => 4
  | _ => 0

/-- The compute dies that unit `u` needs are usable (Table 03-3). -/
def State.dieOf (s : State) (u : Nat) : Bool :=
  match classOf u with
  | 4 => s.dieUp (stackDie (u - 3))
  | 6 => s.siteUp (u - 14)
  | 8 => s.dieUp (u - 34)
  | 9 => s.dieUp (clusterDie (u - 36))
  | 10 => s.dieUp (u - 84)
  | _ => true

/-- Unit `u` is usable. -/
def State.unitUsable (s : State) (u : Nat) : Bool := s.fitted u && !s.down u && s.dieOf u

/-- A fault of this code is raised for this unit and instance: the unit is of the code's class and usable. -/
def State.faultApplies (s : State) (code unit inst : Nat) : Bool :=
  if code = 0x84 || code = 0x85 then decide (inst < 29) && tst (s.fld F.FFE_STATUS_USABLE) inst
  else if faultClass code = 0 then decide (0x81 ≤ code ∧ code ≤ 0x8C)
  else match unitOf unit with
    | some u => classOf u == faultClass code && s.unitUsable u
    | none => false

/-- Whether the fault fences at step 3 of the recovery: arbitration parity only at the half's second fault of the start
(R701). -/
def State.fences (s : State) (code unit : Nat) : Bool :=
  code == 0x84 || code == 0x85 ||
    (faultClass code != 0 && (code != 0x8A || decide (2 ≤ fget (fun _ => 0) s.flt.parity unit)))

/-! ### Detection (R692, R281, R241) -/

/-- The counts, registers, record, snapshot and notices of an uncontained fault (R692, R702, R706, R720, R679). -/
def State.faultSeen (s : State) (code unit inst : Nat) (injected : Bool) : State :=
  let s1 := s.bump F.FLT_CNT_UNCONTAINED_COUNT
  let s2 := if injected then s1.bump F.FLT_CNT_INJECTED_COUNT else s1
  let s3 := (s2.setReg R.FLT_LAST (BitVec.ofNat 32 (code * 2 ^ 24 + unit * 2 ^ 8 + inst))).setPair R.FLT_LAST_TICK_LO
    R.FLT_LAST_TICK_HI s2.tickCount
  let s4 := if injected then s3.logInjected 0x0C02 4 0 unit code inst else s3.log 0x0C02 4 0 unit code inst
  let s5 := s4.snapshot 0x0080 4 0 s4.snapBody
  let op := match (s5.inst inst).queueOf (s5.inst inst).busy with | b :: _ => b.op | [] => 0
  let s6 := if code = 0x85 then s5.ffeFault 6 (s5.inst inst).busy inst op
    else if code = 0x84 then s5.ffeFault 7 (s5.inst inst).busy inst op
    else s5
  let n : FaultNotice := { s6.newNotice code unit inst 0 with fenced := s6.fences code unit }
  let s7 : State := { s6 with flt := { s6.flt with nUnc := mergeNotice s6.flt.nUnc n true } }
  s7.failNotice 2 s7.trainedPorts 0 0

/-- Every pending change but a destroy is cancelled and logged; every slice that is not NONE or DESTROYING is LOST
(R281). -/
def State.loseSlices (s : State) : State :=
  let hit := vfs.filter (fun n => s.sliceState n != 0 && s.sliceState n != 5)
  let s1 := (s.eng.changes.filter (fun c => c.kind != 3)).foldl (fun s c => s.cancelChange true c) s
  let s2 : State := { s1 with eng := { s1.eng with changes := s1.eng.changes.filter (fun c => c.kind == 3) } }
  hit.foldl (fun s n => s.setSlice n 6) s2

/-- The running jobs of VFs end with ABORTED; a load's placed bytes are scrubbed (R692, R187). A release goes on. -/
def State.abortVfJobs (s : State) : State :=
  (s.running.filter (fun j => (s.job j).fn != 0 && decide ((s.job j).fn < 64) && (s.job j).op != 0x0103)).foldl (fun s j =>
    if (s.job j).op = 0x0401 then s.loadFailed j ⟨0, 0, 0x2F⟩
    else if (s.job j).op = 0x0402 then (((s.finishSliceMem 0).setFld F.SLC_SCRUB_ACTIVE 0).setModel 0).endJob j 0x2F 0
    else s.endJob j 0x2F 0) s

/-- All work is given up: contexts, engine steps, layouts, commands, TDIs, jobs (R692). -/
def State.giveUp (s : State) : State :=
  let s1 := (vfs.foldl State.stopSlice s).loseSlices
  let s2 := vfs.foldl State.queuesLost s1
  let s3 : State := { s2 with sch := { s2.sch with excl := none } }
  s3.tdiErrorAll.abortVfJobs

/-! ### The end of a recovery (R694 to R697, R699) -/

/-- The recovery ends: in DIAG_ONLY when `diag`, else in LOST_SLICES while a slice is LOST, else in NORMAL. -/
def State.endRecovery (s : State) (diag : Bool) : State :=
  let us := min ((s.runClk - s.flt.beganClk) / 1000) 0xFFFFFFFF
  let s1 := s.setReg R.FLT_RECOVERY (BitVec.ofNat 32 us)
  let s2 := if diag then (s1.setFld F.BOOT_STATUS_DIAG_ONLY 1).setFld F.FLT_STATUS_STATE 3
    else s1.setFld F.FLT_STATUS_STATE (if s1.lostLeft then 2 else 0)
  let s3 := s2.log 0x0C03 2 0 0xFFFF 0 us
  let n : FaultNotice := { s3.newNotice 0 0xFFFF 0xFF us with fenced := s3.flt.fencedAny }
  { s3 with flt := { s3.flt with nRec := mergeNotice s3.flt.nRec n false, fences := [], modelHit := false } }

/-- An uncontained fault is detected (R692). While a recovery runs, the recovery restarts with the fault's fence added, and
a third fault ends it in DIAG_ONLY (R697); in DIAG_ONLY the fault is only recorded and reported. -/
def State.uncontained (s : State) (code unit inst : Nat) (injected modelMap : Bool) : State :=
  let s0 : State := if code = 0x8A then
      { s with flt := { s.flt with parity := fmod (fun _ => 0) s.flt.parity unit (· + 1) } }
    else s
  let s1 := s0.faultSeen code unit inst injected
  if s1.fltState = 3 then s1
  else
    let add := if s1.fences code unit && !s1.flt.fences.contains (code, unit, inst) then [(code, unit, inst)] else []
    let s2 : State := { s1 with flt := { s1.flt with modelHit := s1.flt.modelHit || modelMap, fences := s1.flt.fences ++ add } }
    if s2.fltState = 1 then
      let s3 := s2.bump F.FLT_STATUS_RESTARTS
      if 2 ≤ s3.fld F.FLT_STATUS_RESTARTS then s3.endRecovery true else s3
    else
      let s3 : State := { s2 with flt := { s2.flt with
        beganClk := s2.runClk, fences := add, modelHit := modelMap, fencedAny := false, releasing := s2.tenancy == 3 } }
      ((s3.setFld F.FLT_STATUS_RESTARTS 0).setFld F.FLT_STATUS_STATE 1).giveUp

/-- The part can detect a fault now: powered, with its clocks running (R705). -/
def State.detects (s : State) : Bool := s.pwr.mode == .on && !s.frozen

/-- UNCONTAINED_FAULT: a fault of Table 20-1's codes 0x81 to 0x8C in unit `unit` (class × 256 + index) or engine instance
`inst`; `modelMap` says that a fault 0x83 lies in a model map (R692, R694). -/
def execUncontainedFault (code unit inst : Nat) (modelMap : Bool) (s : State) : Res :=
  if s.detects && s.faultApplies code unit inst then
    .next (s.uncontained code (if faultClass code = 0 then 0xFFFF else unit) (if code = 0x84 || code = 0x85 then inst else 0xFF)
      false (modelMap && code == 0x83))
  else .next s

/-- FLT_INJECT (R706). Written while the part is frozen, the fault is raised at the thaw (log entry 50). -/
def execFltInject (v : Word) (s : State) : Res :=
  if !(tst v.toNat 31 && bitsOf v.toNat 7 0 == 0x8F && s.bit F.FLT_CTRL_INJECT_EN) then .next s
  else if s.frozen then .next { s with flt := { s.flt with injectDue := true } }
  else .next (s.uncontained 0x8F 0xFFFF 0xFF true false)

/-! ### Hangs (R470, R508, R623) -/

/-- MATRIX_UNIT_HANG: unit `u` (2 × cluster + unit) has not completed a started operation within 10 µs (R470). -/
def execMatrixUnitHang (u : Nat) (s : State) : Res :=
  if s.detects && !s.pwr.doze && (s.munit u).running.isSome && s.faultApplies 0x86 (0x0900 + u / 2) 0 then
    .next (s.uncontained 0x86 (0x0900 + u / 2) 0xFF false false)
  else .next s

/-- ENGINE_HANG: instance `i` has not completed a started step within 50 µs (R508). -/
def execEngineHang (i : Nat) (s : State) : Res :=
  if s.detects && !s.pwr.doze && (s.inst i).busy != 0 && s.faultApplies 0x85 0 i then
    .next (s.uncontained 0x85 0xFFFF i false false)
  else .next s

/-- CAMPION_HANG: die `d` holds tokens and has completed no run for 100 µs (R623). -/
def execCampionHang (d : Nat) (s : State) : Res :=
  if s.detects && !s.pwr.doze && s.campInFlight d && s.campState d != 1 && s.faultApplies 0x87 (0x0A00 + d) 0 then
    .next (s.uncontained 0x87 (0x0A00 + d) 0xFF false false)
  else .next s

/-! ### Contained faults (R687, R688, R704) -/

/-- CONTAINED_FAULT: a fault of Table 20-1's codes 0x01 to 0x07 in VF `vf`'s slice, with its exception code, instruction
index or engine instance, and TRAP_PC. -/
def execContainedFault (vf code exc arg pc : Nat) (s : State) : Res :=
  if s.detects && decide (1 ≤ code ∧ code ≤ 7 ∧ 1 ≤ vf ∧ vf ≤ 63) && s.sliceState vf != 0 then
    let s1 := s.contained vf code exc arg pc
    .next (if s.recovering then s1 else s1.vfEvent vf 2)
  else .next s

/-! ### The recovery (R693, R694) -/

/-- Step 1: every LOST slice's data is cleared as R277 clears it, unless a release clears everything. The exchange
contents survive (R694). -/
def State.clearLost (s : State) : State :=
  if s.tenancy = 3 || s.flt.releasing then s
  else (vfs.filter (fun n => s.sliceState n == 6)).foldl (fun s n =>
    ((s.stopSlice n).zeroSlice n).modSlice n (fun x => { x with
      fences := [], kernels := [], kmeas := [], kcount := 0, resets := (x.resets + 1) % 2 ^ 32 })) s

/-- Step 2: the shared structures are as after reset. -/
def State.rebuild (s : State) : State :=
  let s1 := (((s.setFld F.SCH_STATUS_ACTIVE_BANK 0).setFld F.SCH_STATUS_HYPER 1).setFld F.SCH_POS_POSITION 0).setFld
    F.SCH_STATUS_SWAP_PENDING 0
  let s2 := s1.sliced.foldl (fun s n => if s.sliceState n = 6 then s else s.clearSliceMem n) s1
  { s2 with
    sch := { s2.sch with table := [], was := [], ready := [], rdBase := 0, rdIdx := 32, ahead := false, running := [],
                         lag := [], held := [], excl := none, exclIdle := false }
    ffe := {}
    mem := { s2.mem with tc := [] }
    tsl := { s2.tsl with seqs := [], active := [], order := [], after := [], stepNo := [], steps := [], appends := [] } }

/-- Step 3: one fence of Table 20-1. -/
def State.applyFence (s : State) (f : Nat × Nat × Nat) : State :=
  if f.1 = 0x84 || f.1 = 0x85 then
    ({ s with flt := { s.flt with engDown := putBit s.flt.engDown f.2.2 true, fencedAny := true } } : State).refreshUsable
  else match unitOf f.2.1 with
    | none => s
    | some u =>
      if s.fencedNow u then s
      else
        let s1 := (s.log 0x0C04 4 0 f.2.1 0 0).fenceUnit u 0x0C02
        { s1 with flt := { s1.flt with fencedAny := true } }

/-- The resident model goes when the fault lay in a model map or a frame of it on a stack that is not usable (R694). -/
def State.keepModel (s : State) : State :=
  if s.model = 2 && (s.flt.modelHit || s.mem.model.any (fun f => !s.stacks.contains (f / 12288))) then
    (((s.dropModel.finishSliceMem 0).clearModelRegs.setModel 0)).log 0x0704 3 0 0xFFFF 0 0
  else s

/-- RECOVERY_END: the steps of R693 are done; the minimal serviceable set decides where the part goes (R105, R696). -/
def execRecoveryEnd (s : State) : Res :=
  if s.fltState ≠ 1 || !s.detects then .next s
  else
    let s1 := s.clearLost.rebuild
    let s2 := (s1.flt.fences.foldl State.applyFence s1).refreshUsable.keepModel
    .next (s2.endRecovery (!s2.serviceable))

/-- The bound of R695 in ns: 2 ms and the LOST slices' quotas at 0.48 TB/s for each usable stack. -/
def State.recoveryNs (s : State) : Nat :=
  let q := (vfs.filter (fun n => s.sliceState n == 6)).foldl (fun a n => a + 0x200000 * s.fld (F.SLC_S_HBM_UNITS n)) 0
  2000000 + (if s.stacks.isEmpty then 0 else q * 25 / (12000 * s.stacks.length))

/-- RECOVERY_TIMEOUT: the recovery has not ended within twice its bound (R697). -/
def execRecoveryTimeout (s : State) : Res :=
  if s.fltState = 1 && s.detects && decide (s.flt.beganClk + 2 * s.recoveryNs ≤ s.runClk) then .next (s.endRecovery true)
  else .next s

/-! ### Failure notices of other modules (R532, R680) -/

/-- A module's address is a member of the collective that the GROUP names on this module's ring. -/
def State.isMember (s : State) (g a : Nat) : Bool :=
  let ring := bitsOf g 31 30 - 1
  let n := s.ringSize ring
  bitsOf g 31 30 != 0 && posOf a (1 - ring) == posOf s.address (1 - ring) &&
    decide ((posOf a ring + n - bitsOf g 29 24 % n) % n < bitsOf g 23 17)

/-- The notice ends the collective: it comes from a member, or from a link of its ring. -/
def State.noticeEnds (s : State) (b g : List Byte) : Bool :=
  let grp := leAt g 0x20 4
  s.isMember grp (leAt b 2 2 % 512) || (leAt b 1 1 == 3 && bitsOf grp 31 30 == leAt b 5 1 + 1)

/-- FAIL_NOTICE: forwarded once, and the collectives it concerns end with ABORTED (R680, R532). -/
def execFailNotice (p : Nat) (b : List Byte) (s : State) : Res :=
  .next <|
    if !s.trainedPorts.contains p then s
    else s.onSymbol p 0x0B b (fun s =>
      let r := s.forwardNotice p b
      if !r.2 then r.1
      else [26, 27].foldl (fun s i =>
        match s.stepping i with
        | some k => if k.cls = 6 && s.noticeEnds b k.bytes then s.collAbort i k else s
        | none => s) r.1)

end Sys2Proof.Machine
end

