-- ==== Sys2Proof/Machine/Sensors.lean ====
section
/-! DEFINITION. The sensor dies and the event converters (chapter 18): grants, frames, events, AER words, triggers, and the
six kinds of converter. -/

namespace Sys2Proof.Machine

/-! ### Dies and descriptors -/

/-- The sensor die serving die `d` is usable (Table 18-8). -/
def State.snsUsable (s : State) (d : Nat) : Bool := s.bit (if d = 0 then F.SNS_STATUS_USABLE0 else F.SNS_STATUS_USABLE1)

def State.snsPort (s : State) (d j : Nat) : SnsPort := fget (fun _ => ({} : SnsPort)) s.sns.ports (8 * d + j)
def State.modPort18 (s : State) (d j : Nat) (f : SnsPort → SnsPort) : State :=
  { s with sns := { s.sns with ports := fmod (fun _ => ({} : SnsPort)) s.sns.ports (8 * d + j) f } }

/-- SNS_GRANT_WRITE: a write to SNS_GRANT[d] (R629). -/
def execSnsGrantWrite (d : Nat) (value : Word) (s : State) : Res :=
  let vf := bitsOf value.toNat 5 0
  let area := bitsOf value.toNat 27 16
  if 2 ≤ d then .next s
  else if s.tenancy ≠ 2 || !(s.snsUsable d || s.campUsable d) || (vf != 0 && (s.sliceState vf == 0 || s.sliceState vf == 6)) then
    .next (s.setFld F.SNS_STATUS_GRANT_REJECT 1)
  else if vf = s.fld (F.SNS_GRANT_VF d) && area == s.fld (F.SNS_GRANT_AREA d) then .next s
  else
    .next (((s.zeroSns d).setReg (R.SNS_GRANT d) (BitVec.ofNat 32 (area * 65536 + vf))).log 0x0A03 1 vf 0xFFFF d 0)

/-- Bytes of one pixel of a RAW data type as written (chapter 18, "Frames"). -/
def pixelSize (dt : Nat) : Nat := if dt = 0x2A then 1 else 2

/-- A port descriptor satisfies Table 18-3. -/
def portOk (b : List Byte) : Bool :=
  let mode := leAt b 0 1
  let frames := tst mode 0
  let events := tst mode 1
  let dt := leAt b 1 1
  let w := leAt b 4 2
  let h := leAt b 6 2
  decide (mode ≤ 3) && decide (leAt b 3 1 ≤ 3) && decide (1 ≤ w ∧ w ≤ 8192) && decide (1 ≤ h ∧ h ≤ 8192) &&
    decide (leAt b 0x12 1 ≤ 7) && decide (leAt b 0x13 1 < 2) && decide (leAt b 0x14 4 < 2 ^ 19) && leAt b 0x1E 2 == 0 &&
    leAt b 0x30 16 == 0 &&
    (if frames then decide (0x2A ≤ dt ∧ dt ≤ 0x2E) && leAt b 8 4 % 64 == 0 && leAt b 0xC 4 % 64 == 0 &&
        decide (64 + w * h * pixelSize dt ≤ leAt b 0xC 4) && decide (1 ≤ leAt b 0x10 2 ∧ leAt b 0x10 2 ≤ 64)
     else dt == 0 && leAt b 8 4 == 0 && leAt b 0xC 4 == 0 && leAt b 0x10 2 == 0 && leAt b 0x24 4 == 0) &&
    (if events then decide (0x30 ≤ leAt b 2 1 ∧ leAt b 2 1 ≤ 0x37) && decide (leAt b 0x1C 1 ≤ 3)
     else leAt b 2 1 == 0 && leAt b 0x18 4 == 0 && leAt b 0x1C 2 == 0)

/-- The descriptor of port `j`, read now (R631): one that fails its table has MODE 0. Empty where the access fails. -/
def State.portDesc (s : State) (d j : Nat) : List Byte :=
  if s.ioBad d (64 * j) 64 true then []
  else
    let b := s.ioBytes d (64 * j) 64
    if portOk b then b else List.replicate 64 0

/-- What becomes of a packet before its content is looked at: none where the receiver is off or the part is frozen, which the
first component counts (R645). -/
def State.packet (s : State) (d j : Nat) : State × Bool :=
  if 2 ≤ d || 8 ≤ j || !s.snsUsable d || s.pwr.mode != .on || !s.bit (F.SNS_PORT_CTRL_ENABLE d j) ||
      !s.bit (F.SNS_PORT_STATUS_PWR_ON d j) then (s, false)
  else
    let s1 := (s.setFld (F.SNS_PORT_STATUS_LINK d j) 1).modPort18 d j (fun p => { p with last := s.clk })
    if s1.frozen then (s1.bump (F.SNS_PORT_CNT_PKT_FROZEN d j), false) else (s1, true)

/-! ### Tokens of the dies -/

/-- A token to `base` + `i` on port `p`: an address past bit 18 is a free value (log entry 41). -/
def State.feedAt (s : State) (d p addr var delay weight : Nat) : State :=
  if addr < 2 ^ 19 then s.feed d p ⟨addr, var, delay, weight⟩
  else s.drawn.feed d p ⟨s.free.toNat % 2 ^ 19, var, delay, weight⟩

/-! ### EVENT_IN (R640) -/

/-- Neuron index of pixel (x, y) and polarity under a port's map (chapter 18, "Events"). -/
def eventIdx (pd : List Byte) (x y pol : Nat) : Nat :=
  let sh := 2 ^ leAt pd 0x12 1
  let cols := (leAt pd 4 2 + sh - 1) / sh
  let idx := y / sh * cols + x / sh
  leAt pd 0x14 4 + (if tst (leAt pd 0x13 1) 0 then 2 * idx + pol else idx)

/-- STATUS bits `bits` of converter `c` are set. -/
def State.convStatus (s : State) (d c bits : Nat) : State :=
  let a := 0x200 + 64 * c + 0x2C
  if s.ioBad d a 4 true then s.bump F.SNS_CNT_ADDR_COUNT else s.ioPut d a (leBytes 4 (Nat.lor (s.ioLe d a 4) bits))

/-- DROPS of converter `c`. -/
def State.convDrop (s : State) (d c : Nat) : State := s.ioCount d (0x200 + 64 * c + 0x28) 1

/-- The descriptor of converter `c`, read for a run: a change of KIND zeroes its state; one that fails its table sets
BAD_CONFIG and is KIND 0 (R631, R638, R640). -/
def State.convRead (s : State) (d c : Nat) : State × List Byte :=
  if s.fld (F.SNS_GRANT_VF d) = 0 then (s, [])
  else if s.ioBad d (0x200 + 64 * c) 64 false then (s.bump F.SNS_CNT_ADDR_COUNT, [])
  else
    let b := s.ioBytes d (0x200 + 64 * c) 64
    let kind := leAt b 0 1
    let ok := convOk b
    let k := if ok then kind else 0
    let s1 := if (s.conv d c).kind = k then s else s.modConv d c (fun _ => { kind := k })
    if ok then (s1, b) else (if kind = 0 then s1 else s1.convStatus d c 2, [])

/-- One pixel of EVENT_IN: the reference, and the token where it changed by THRESH or more. -/
def State.eventPixel (s : State) (d c : Nat) (b pd : List Byte) (px : Nat → Nat) (i : Nat) : State :=
  let ref := leAt b 0x24 4 + 2 * i
  let old := s.ioLe d ref 2
  let v := px i
  let th := leAt b 0x20 2
  let w := leAt pd 4 2
  let put := fun (s : State) (pol weight : Nat) =>
    (s.ioPut d ref (leBytes 2 v)).feedAt d (16 + c) (eventIdx pd (i % w) (i / w) pol) (leAt b 1 1) (leAt b 2 1) weight
  if old + th ≤ v then put s 1 (leAt b 0x1C 2) else if v + th ≤ old then put s 0 (leAt b 0x1E 2) else s

/-- EVENT_IN converters run at the publish of a frame of port `j` (R640): `status` is the frame's, its pixels start at area
offset `px`, `size` bytes each. -/
def State.eventIn (s : State) (d j : Nat) (status base size : Nat) : State :=
  let pd := s.portDesc d j
  (List.range 8).foldl (fun s c =>
    let (s1, b) := s.convRead d c
    if leAt b 0 1 ≠ 3 || leAt b 0x22 1 != j || !tst (leAt pd 0 1) 0 then s1
    else if !s1.snsFeeds d || tst status 4 || tst status 5 then s1.convDrop d c
    else
      let n := leAt pd 4 2 * leAt pd 6 2
      let ref := leAt b 0x24 4
      if s1.ioBad d base (n * size) false || s1.ioBad d ref (2 * n) true then (s1.bump F.SNS_CNT_ADDR_COUNT).convStatus d c 1
      else
        let px := fun (i : Nat) => s1.ioLe d (base + size * i) size
        if (s1.conv d c).ref then (List.range n).foldl (fun s i => s.eventPixel d c b pd px i) s1
        else
          ((List.range n).foldl (fun s i => s.ioPut d (ref + 2 * i) (leBytes 2 (px i))) s1).modConv d c
            (fun x => { x with ref := true })) s

/-! ### Frames (R632, R633) -/

/-- Publish the frame of port `j`: missing lines are zero-filled, the header is written, then HEAD + 1, and the EVENT_IN
converters of the port run. -/
def State.closeFrame (s : State) (d j : Nat) (truncated : Bool) : State :=
  match (s.snsPort d j).frame with
  | none => s
  | some f =>
    let size := pixelSize f.dt
    let row := f.width * size
    let miss := f.height - f.lines
    let s1 := (s.modPort18 d j (fun p => { p with frame := none })).setFld (F.SNS_PORT_STATUS_IN_FRAME d j) 0
    let fill := f.at_ + 64 + row * min f.lines f.height
    let bad := miss != 0 && !tst f.status 6 && s1.ioBad d fill (row * miss) true
    let s2 := if bad then s1.bump F.SNS_CNT_ADDR_COUNT
      else if miss = 0 || tst f.status 6 then s1 else s1.ioPut d fill (List.replicate (row * miss) 0)
    let st := Nat.lor f.status ((if miss = 0 then 0 else 4) + (if truncated then 32 else 0)) 
    let st := if bad then Nat.lor st 64 else st
    if s2.ioBad d f.at_ 64 true || s2.ioBad d (64 * j + 0x20) 4 true then s2.bump F.SNS_CNT_ADDR_COUNT
    else
      let hdr := leBytes 8 f.tick ++ leBytes 8 f.tai ++ leBytes 2 f.num ++ leBytes 2 f.lines ++ leBytes 2 st ++ leBytes 2 0 ++
        leBytes 4 (row * f.height) ++ leBytes 4 (s2.runClk - f.startClk) ++ leBytes 32 0
      let s3 := (s2.ioPut d f.at_ hdr).ioPut d (64 * j + 0x20) (leBytes 4 (f.head + 1))
      if s3.frozen || s3.pwr.doze then s3 else s3.eventIn d j st (f.at_ + 64) size

/-- FRAME_START: a Frame Start of virtual channel `vc` with frame number `num`: the frame in progress ends TRUNCATED; the next
slot is taken if it is free and the part is not in doze, else the whole frame is dropped (R632, R633, R645). -/
def execFrameStart (d j vc num : Nat) (s : State) : Res :=
  let (s1, go) := s.packet d j
  if !go || s1.fld (F.SNS_GRANT_VF d) = 0 then .next s1
  else
    let pd := s1.portDesc d j
    if pd.isEmpty then .next (s1.bump F.SNS_CNT_ADDR_COUNT)
    else if leAt pd 3 1 ≠ vc then .next s1
    else
      let s2 := s1.closeFrame d j true
      let head := leAt pd 0x20 4 + (if (s1.snsPort d j).frame.isSome then 1 else 0)
      let slots := leAt pd 0x10 2
      if !tst (leAt pd 0 1) 0 then .next s2
      else if s2.pwr.doze || slots ≤ (head + 2 ^ 32 - leAt pd 0x24 4) % 2 ^ 32 then .next (s2.ioCount d (64 * j + 0x28) 1)
      else
        let f : Frame := { vc := vc, at_ := leAt pd 8 4 + leAt pd 0xC 4 * (head % slots), width := leAt pd 4 2,
                           height := leAt pd 6 2, dt := leAt pd 1 1, head := head % 2 ^ 32, tick := s2.tickCount,
                           tai := s2.taiStamp, num := num % 65536, startClk := s2.runClk, lines := 0, status := 0 }
        .next ((s2.modPort18 d j (fun p => { p with frame := some f })).setFld (F.SNS_PORT_STATUS_IN_FRAME d j) 1)

/-- The pixels of a RAW payload, unpacked as CSI-2 packs the data type (PRESUMED, log entry 42). -/
def rawPixels (dt : Nat) (b : List Byte) : List Nat :=
  let at1 := fun (i : Nat) => leAt b i 1
  match dt with
  | 0x2A => (List.range b.length).map at1
  | 0x2B => (List.range (b.length / 5 * 4)).map (fun k => 4 * at1 (5 * (k / 4) + k % 4) + bitsOf (at1 (5 * (k / 4) + 4)) (2 * (k % 4) + 1) (2 * (k % 4)))
  | 0x2C => (List.range (b.length / 3 * 2)).map (fun k => 16 * at1 (3 * (k / 2) + k % 2) + bitsOf (at1 (3 * (k / 2) + 2)) (4 * (k % 2) + 3) (4 * (k % 2)))
  | 0x2D => (List.range (b.length / 7 * 4)).map (fun k => 64 * at1 (7 * (k / 4) + k % 4) + bitsOf (leAt b (7 * (k / 4) + 4) 3) (6 * (k % 4) + 5) (6 * (k % 4)))
  | _ => (List.range (b.length / 2)).map (fun k => 256 * at1 (2 * k) + at1 (2 * k + 1))

/-- RAW_LINE_PACKET: a long packet of a RAW data type: a row of the frame in progress (R633). One that belongs to no frame is
discarded; one of a data type the descriptor does not name counts in OTHER (R626). -/
def execRawLinePacket (d j vc dt : Nat) (payload : List Byte) (crcOk : Bool) (s : State) : Res :=
  let (s1, go) := s.packet d j
  if !go then .next s1
  else
    let bad := fun (s : State) => if crcOk then s else s.bump (F.SNS_PORT_CNT_ERR_ERR_CRC d j)
    match (s1.snsPort d j).frame with
    | none =>
      let pd := s1.portDesc d j
      if pd.isEmpty || leAt pd 3 1 ≠ vc then .next s1
      else if tst (leAt pd 0 1) 0 && leAt pd 1 1 == dt then .next (bad s1)
      else .next (s1.bump (F.SNS_PORT_CNT_PKT_OTHER d j))
    | some f =>
      if f.vc ≠ vc then .next s1
      else if f.dt ≠ dt then .next (s1.bump (F.SNS_PORT_CNT_PKT_OTHER d j))
      else
        let px := rawPixels dt payload
        let size := pixelSize dt
        let row := f.width * size
        let a := f.at_ + 64 + row * f.lines
        let data := ((List.range f.width).map (fun i => leBytes size (px.getD i 0))).flatten
        let extra := decide (f.height ≤ f.lines)
        let fails := !extra && s1.ioBad d a row true
        let st := Nat.lor f.status ((if px.length < f.width && !extra then 1 else 0) + (if f.width < px.length && !extra then 2 else 0) +
          (if extra then 8 else 0) + (if crcOk then 0 else 16) + (if fails then 64 else 0))
        let s2 := (bad s1).modPort18 d j (fun p => { p with frame := some { f with lines := f.lines + 1, status := st } })
        .next (if extra || tst f.status 6 then s2 else if fails then s2.bump F.SNS_CNT_ADDR_COUNT else s2.ioPut d a data)

/-- FRAME_END: a Frame End of virtual channel `vc` publishes the frame in progress (R632). -/
def execFrameEnd (d j vc : Nat) (s : State) : Res :=
  let (s1, go) := s.packet d j
  match (s1.snsPort d j).frame with
  | none => .next s1
  | some f => .next (if go && f.vc == vc then s1.closeFrame d j false else s1)

/-- FRAME_TIMEOUT: 100 ms have passed without a packet: the frame is published TRUNCATED (R633). -/
def execFrameTimeout (d j : Nat) (s : State) : Res :=
  if 2 ≤ d || 8 ≤ j || s.frozen then .next s else .next (s.closeFrame d j true)

/-! ### Events (R634) -/

/-- One event word: the token, and whether it is bad. -/
def State.eventWord (s : State) (d j : Nat) (pd : List Byte) (w : Nat) : State × Nat :=
  let x := bitsOf w 14 0
  let y := bitsOf w 29 15
  match bitsOf w 31 30 with
  | 2 => (s, 0)
  | 3 => (s, 1)
  | k =>
    if leAt pd 4 2 ≤ x || leAt pd 6 2 ≤ y then (s, 1)
    else
      (s.feedAt d j (eventIdx pd x y k) (leAt pd 0x1C 1) (leAt pd 0x1D 1) (leAt pd (if k = 1 then 0x18 else 0x1A) 2), 0)

/-- EVENT_PACKET: a long packet of a user-defined data type: after its CRC passes each event word becomes a token, in payload
order (R626, R634). In doze its events are dropped and counted (R123, R614). -/
def execEventPacket (d j vc dt : Nat) (payload : List Byte) (crcOk : Bool) (s : State) : Res :=
  let (s1, go) := s.packet d j
  if !go || s1.fld (F.SNS_GRANT_VF d) = 0 then .next s1
  else
    let pd := s1.portDesc d j
    if pd.isEmpty then .next (s1.bump F.SNS_CNT_ADDR_COUNT)
    else if leAt pd 3 1 ≠ vc then .next s1
    else if !tst (leAt pd 0 1) 1 || leAt pd 2 1 != dt then .next (s1.bump (F.SNS_PORT_CNT_PKT_OTHER d j))
    else if !crcOk then .next (s1.bump (F.SNS_PORT_CNT_ERR_ERR_CRC d j))
    else
      let r := (List.range (payload.length / 4)).foldl (fun (acc : State × Nat) i =>
        let q := acc.1.eventWord d j pd (leAt payload (4 * i) 4)
        (q.1, acc.2 + q.2)) (s1, if payload.length % 4 = 0 then 0 else 1)
      .next (if r.2 = 0 then r.1 else r.1.ioCount d (64 * j + 0x2C) r.2)

/-- OTHER_PACKET: a generic short packet, embedded data or any other data type of virtual channel `vc` is discarded and
counted; one of another channel is ignored; a header with an uncorrectable error (`eccOk` false) counts in ERR_ECC; Line Start
and Line End (`dt` 2 and 3) change nothing (R626). -/
def execOtherPacket (d j vc dt : Nat) (eccOk : Bool) (s : State) : Res :=
  let (s1, go) := s.packet d j
  if !go then .next s1
  else if !eccOk then .next (s1.bump (F.SNS_PORT_CNT_ERR_ERR_ECC d j))
  else
    let pd := s1.portDesc d j
    if dt = 2 || dt = 3 || (!pd.isEmpty && leAt pd 3 1 != vc) then .next s1
    else .next (s1.bump (F.SNS_PORT_CNT_PKT_OTHER d j))

/-- CLOCK_LANE_INACTIVE: the clock lane of a port has been inactive for 1 ms (Table 18-8, LINK). -/
def execClockLaneInactive (d j : Nat) (s : State) : Res :=
  if 2 ≤ d || 8 ≤ j then .next s else .next (s.setFld (F.SNS_PORT_STATUS_LINK d j) 0)

/-! ### AER words (R627, R635) -/

/-- The AER descriptor satisfies Table 18-1. -/
def aerOk (b : List Byte) : Bool :=
  leAt b 0 1 == 1 && leAt b 1 3 == 0 && decide (leAt b 4 4 < 2 ^ 19) && leAt b 0xD 3 == 0 && leAt b 0x14 44 == 0

/-- AER_WORD: one four-phase handshake delivers a 24-bit word; it is acknowledged whatever becomes of it, while ENABLE is 1 and
the part is not frozen. A request that finds ENABLE 0 or the part frozen stays pending. -/
def execAerWord (d : Nat) (word : Nat) (s : State) : Res :=
  if 2 ≤ d || !s.bit (F.SNS_AER_CTRL_ENABLE d) || s.frozen || s.pwr.mode != .on || !s.snsUsable d then .next s
  else
    let s1 := s.bump (F.SNS_AER_CNT_COUNT d)
    if s1.fld (F.SNS_GRANT_VF d) = 0 then .next s1
    else if s1.ioBad d 0x400 64 true then .next (s1.bump F.SNS_CNT_ADDR_COUNT)
    else
      let b := s1.ioBytes d 0x400 64
      if !aerOk b then .next s1
      else if bitsOf word 23 22 ≠ 0 then .next (s1.ioCount d 0x410 1)
      else
        .next (s1.feedAt d 8 (leAt b 4 4 + bitsOf word 18 0) (bitsOf word 20 19) (leAt b 0xC 1)
          (leAt b (if tst word 21 then 0xA else 8) 2))

/-! ### Triggers (R628) -/

/-- TRIGGER_PULSE: output `t` of die `d` at the last boundary, whose tick lasts `len` ns: it pulses when the boundary's count is
PHASE modulo DIV. A pulse that would start at or past the next boundary is not driven, one that would pass it ends there. -/
def execTriggerPulse (d t len : Nat) (s : State) : Res :=
  let div := max 1 (s.fld (F.SNS_TRIG_CFG_DIV d t))
  if 2 ≤ d || 8 ≤ t || !s.snsUsable d || !s.tick.running || s.frozen || s.pwr.mode != .on ||
      !s.bit (F.SNS_TRIG_CFG_ENABLE d t) || s.tickCount % div ≠ s.fld (F.SNS_TRIG_PHASE_PHASE d t) then .next s
  else
    let off := 10 * s.fld (F.SNS_TRIG_OFFSET_OFFSET d t)
    let w := 10 * max 1 (s.fld (F.SNS_TRIG_WIDTH_WIDTH d t))
    if len ≤ off then .next (s.bump (F.SNS_TRIG_CNT_CUT d t))
    else
      let s1 := s.setFld (F.SNS_TRIG_CNT_PULSES d t) (s.fld (F.SNS_TRIG_CNT_PULSES d t) + 1)
      let s2 := s1.emit (.trig d t (min w (len - off)) (s1.bit (F.SNS_TRIG_CFG_INVERT d t)))
      .next (if len < off + w then s2.bump (F.SNS_TRIG_CNT_CUT d t) else s2)

/-! ### Port supply -/

/-- A write of SNS_PORT_CTRL acts on the port: its supply follows PWR_EN, and a frame in progress ends TRUNCATED where the
port is disabled or powered off (R633, R646). -/
def State.portCtrl (s : State) (d j : Nat) (v : Word) : State :=
  let s1 := s.setReg (R.SNS_PORT_CTRL d j) (BitVec.ofNat 32 (bitsOf v.toNat 31 28 * 2 ^ 28))
  let s2 := s1.setFld (F.SNS_PORT_STATUS_PWR_ON d j) (bitOf v.toNat 31)
  if tst v.toNat 31 && tst v.toNat 30 then s2 else s2.closeFrame d j true

/-- SENSOR_PORT_OVERCURRENT: the supply of a port is switched off, PWR_FAULT is set and the fault is logged (R48, R646). -/
def execSensorPortOvercurrent (d j : Nat) (s : State) : Res :=
  if 2 ≤ d || 8 ≤ j || !s.bit (F.SNS_PORT_STATUS_PWR_ON d j) then .next s
  else
    let s1 := (s.setFld (F.SNS_PORT_CTRL_PWR_EN d j) 0).setFld (F.SNS_PORT_STATUS_PWR_ON d j) 0
    let s2 := (s1.setFld (F.SNS_PORT_STATUS_PWR_FAULT d j) 1).log 0x0103 2 0 0xFFFF (8 * d + j) 0
    .next (if s2.frozen then s2 else s2.closeFrame d j true)

/-! ### Converters at a boundary (R637 to R641) -/

/-- RATE_OUT or VALUE_OUT closes the tick that ended, which began at ETIME `t0`. -/
def State.outConv (s : State) (d c : Nat) (b : List Byte) (t0 : Nat) : State :=
  let x := s.conv d c
  let n := leAt b 8 4
  let size := (64 + 2 * n + 63) / 64 * 64
  let head := leAt b 0x14 4
  let slots := leAt b 0x10 4
  let z := s.modConv d c (fun x => { x with count := [], first := [] })
  if (head + 2 ^ 32 - leAt b 0x18 4) % 2 ^ 32 = slots then z.convDrop d c
  else
    let a := leAt b 0xC 4 + size * (head % slots)
    if z.ioBad d a size true || z.ioBad d (0x200 + 64 * c + 0x14) 4 true then (z.bump F.SNS_CNT_ADDR_COUNT).convStatus d c 1
    else
      let v := fun (i : Nat) =>
        if leAt b 0 1 = 4 then fget (fun _ => 0) x.count i
        else let f := fget (fun _ => 0) x.first i
             if f = 0 then 65535 else f - 1
      let bytes := leBytes 8 (s.tickCount - 1) ++ leBytes 8 t0 ++ leBytes 4 n ++ leBytes 44 0 ++
        ((List.range n).map (fun i => leBytes 2 (v i))).flatten
      (z.ioPut d a (fitTo size bytes)).ioPut d (0x200 + 64 * c + 0x14) (leBytes 4 (head + 1))

/-- RATE_IN: evenly spaced tokens of one value (R638). -/
def State.rateIn (s : State) (d c : Nat) (b : List Byte) (i v : Nat) : State :=
  let t := fget (fun _ => 0) (s.conv d c).acc i + v
  let n := t / 256
  let delay := leAt b 2 1
  let span := min (255 - delay) (s.fld F.TCK_PERIOD_PERIOD / max 1 (s.die d).run.unit)
  let s1 := s.modConv d c (fun x => { x with acc := fset (fun _ => 0) x.acc i (t % 256) })
  (List.range n).foldl (fun s k => s.feedAt d (16 + c) (leAt b 4 4 + i) (leAt b 1 1) (delay + k * span / n) (leAt b 0x1C 2)) s1

/-- Converter `c` of die `d` at a boundary; `t0` is the ETIME at which the tick that ended began. -/
def State.convTick (s : State) (d c t0 : Nat) : State :=
  let (s1, b) := s.convRead d c
  let kind := leAt b 0 1
  if !s1.snsFeeds d then (if kind = 1 ∨ kind = 2 then s1.convDrop d c else s1)
  else if kind = 4 ∨ kind = 5 then s1.outConv d c b t0
  else if kind = 1 ∨ kind = 2 then
    let n := leAt b 8 4
    let buf := leAt b 0xC 4
    if s1.ioBad d buf (2 * n) false then (s1.bump F.SNS_CNT_ADDR_COUNT).convStatus d c 1
    else
      (List.range n).foldl (fun s i =>
        let v := s1.ioLe d (buf + 2 * i) 2
        if kind = 1 then s.rateIn d c b i v
        else if tst (leAt b 3 1) 1 && v == 0 then s
        else s.feedAt d (16 + c) (leAt b 4 4 + i) (leAt b 1 1) (leAt b 2 1) v) s1
  else s1

/-- The work of both dies at a boundary: Campion's, then the converters in ascending number (R617, R637). None in doze or while
frozen (R621, R645). -/
def State.diesTick (s : State) : State :=
  if !s.campLive then s
  else [0, 1].foldl (fun s d =>
    let t0 := (s.die d).tickEtime
    (List.range 8).foldl (fun s c => s.convTick d c t0) (s.campTick d)) s

end Sys2Proof.Machine
end

