-- ==== Sys2Proof/Machine/Power.lean ====
section
/-! DEFINITION. Power and resets (chapters 01 and 03): cold power-on, warm resets, power failure and the shutdowns; FLRs;
configuration requests; clock gating, doze and D-states; the thaw's resume. -/

namespace Sys2Proof.Machine

/-! ### Jobs cut short -/

/-- A reset or power loss cuts an erase job short: every byte it addressed is unspecified (R711). A running LOG_CLEAR
addresses its whole log, an NVM_ERASE its sectors. -/
def State.cutErases (s : State) : State :=
  let s1 := match s.jobOf 0x0705 with
    | some j => s.norSpoil (s.job j).a (4096 * (s.job j).b)
    | none => s
  if s1.evr.clearing = 1 then s1.norSpoil (logBase 0) (32 * logSlots 0)
  else if s1.evr.clearing = 2 then s1.norSpoil (logBase 1) (32 * logSlots 1)
  else s1

/-! ### Cold power-on (R10, R37, R87, Table 03-6) -/

/-- The part as power comes on: every field at its Reset value; the NOR device, the fuses and what the model alone keeps
stay. PERST_N is held by the host (R39). -/
def State.powered (s : State) : State :=
  { State.reset with
    fused := s.fused
    pwr := { State.reset.pwr with freezeIn := s.pwr.freezeIn }
    evr := { State.reset.evr with nor := s.evr.nor, norOpen := s.evr.norOpen, norFails := s.evr.norFails }
    sec := { State.reset.sec with keyGen := s.sec.keyGen }
    sch := { State.reset.sch with nextUid := s.sch.nextUid }
    clk := s.clk, runClk := s.runClk, freeCount := s.freeCount, out := s.out, pending := s.pending }

/-- The module powers on: straps sampled (R37: `straps` is SLOT_ID in bits 2:0, TRAY_ID in bits 8:3), the boot sequencer
begins (R87, R88). -/
def State.coldStart (s : State) (straps nor : Nat) : State :=
  (s.powered.setReg R.ID_POSITION (BitVec.ofNat 32 (straps % 512))).bootStart 1 nor

/-- COLD_POWER_ON: the input reaches 48 V after being absent or after a power-fail sequence. `nor` bit 0 says that the boot
record, bit 1 that the fence list cannot be read (R97). -/
def execColdPowerOn (straps nor : Nat) (s : State) : Res := .next (s.coldStart straps nor)

/-- POWER_RETURN_RESTART: after the flush of a power failure or an overvoltage the input has stayed within 48–56 V for
100 ms (R21, R29). After an overcurrent the module stays off (R24). -/
def execPowerReturnRestart (straps nor : Nat) (s : State) : Res :=
  .next (if s.pwr.restartDue then s.coldStart straps nor else s)

/-! ### Warm resets (R114 to R117, Table 03-6) -/

/-- Register blocks and registers that a warm reset keeps: ID_POSITION (R37), TCK and CAL (R95), EVR (R729, R741),
PWR_ENERGY (Table 22-8), and the Ewebin settings of R669. -/
def keptWarm (a : Nat) : Bool :=
  a == R.ID_POSITION || decide (0x40000 ≤ a ∧ a < 0x60000) || decide (0x980000 ≤ a ∧ a < 0xA00000) ||
    a == R.PWR_ENERGY_LO || a == R.PWR_ENERGY_HI || a == R.EWB_DOMAIN || a == R.EWB_WINDOW || a == R.EWB_RACK ||
    (decide (0x801000 ≤ a ∧ a < 0x802000) && (a % 256 == 0 || decide (0x80 ≤ a % 256 ∧ a % 256 < 0xB0)))

/-- The part after a warm reset, before the boot sequencer begins: the tick unit and calendar, the recorder and NOR, the
TAP, the training parameters and the settings of `keptWarm` stay, and everything else is at its Reset value. -/
def State.warmed (s : State) : State :=
  let s1 : State := { s.powered with
    regs := s.regs.filter (fun e => keptWarm e.1)
    pwr := { s.powered.pwr with perst := s.pwr.perst, releaseClk := s.pwr.releaseClk }
    boot := { State.reset.boot with saved := s.boot.saved }
    tick := s.tick
    frz := { State.reset.frz with
      tapIr := s.frz.tapIr, scanReg := s.frz.scanReg, pinMode := s.frz.pinMode, obsObject := s.frz.obsObject
      obsIndex := s.frz.obsIndex, obsOffset := s.frz.obsOffset, hottest := s.frz.hottest }
    evr := { s.evr with clearing := 0 } }
  s1.setFld F.EVR_STATUS_NOR_FAIL 0

/-- A warm reset with START_KIND `kind` and end-of-run cause `cause`: pending changes are cancelled and logged (R178), an
ended tenancy and an ended freeze logged (R115, R116), the recorder flushed (R729). -/
def State.warmReset (s : State) (kind cause nor : Nat) : State :=
  let id := s.fld F.SLC_TEN_ID_TENANCY_ID
  let s1 := s.dropChanges true
  let s2 := if s1.tenancy = 0 then s1 else s1.log 0x0303 3 0 0xFFFF 0 id
  let s3 := if s.frozen then s2.log 0x0304 3 0 0xFFFF 0 id else s2
  ((s3.cutErases.flush cause cause).warmed).bootStart kind nor

/-- WARM_RESET_PERST: PERST_N is asserted (R114). -/
def execWarmResetPerst (nor : Nat) (s : State) : Res :=
  .next <|
    if s.pwr.mode != .on then s
    else ({ s with pwr := { s.pwr with perst := true } } : State).warmReset 2 5 nor

/-- WARM_RESET_HOT: a PCIe hot reset, or link down, with saved link parameters (R114). -/
def execWarmResetHot (nor : Nat) (s : State) : Res :=
  .next <|
    if s.pwr.mode != .on then s
    else ({ s with pwr := { s.pwr with releaseClk := s.clk } } : State).warmReset 3 6 nor

/-! ### Loss of power (R21, R24 to R29) -/

/-- Power goes from everything but the hold-up domain: BYP_READY low, erases cut short. -/
def State.shed (s : State) (m : PowerMode) : State :=
  let s1 := s.leaveRing.cutErases
  { s1 with pwr := { s1.pwr with mode := m, freezeDrive := false, restartDue := m == .failed } }

/-- POWER_FAIL_DETECT: PWR_FAIL_N (source 1) or the input, at `mv` mV (source 2), fails: failure notices on every trained
port, power shed, the flush (R25 to R29, R679, R730). -/
def execPowerFailDetect (source mv : Nat) (s : State) : Res :=
  .next <|
    if s.pwr.mode != .on then s
    else ((s.failNotice 1 s.trainedPorts 0 0).shed .failed).powerFailFlush source mv

/-- OVERVOLTAGE_SHUTDOWN: the input stays above 58 V for 10 µs: power removed, the event logged, the flush; a cold power-on
follows once the input is back (R21, R732). -/
def execOvervoltageShutdown (s : State) : Res :=
  .next <|
    if s.pwr.mode != .on then s else ((s.log 0x0102 4 0 0xFFFF 0 0).shed .failed).flush 3 3

/-- RAIL_OVERCURRENT: rail group `group` draws more than 125 % of its limit for 10 µs: power removed, logged, flushed, and
the module stays off until the next cold power-on (R24, R732). -/
def execRailOvercurrent (group : Nat) (s : State) : Res :=
  .next <|
    if s.pwr.mode != .on then s else ((s.log 0x0101 4 0 0xFFFF group 0).shed .tripped).flush 4 4

/-! ### Configuration space (R3, R91, R93, R106, R119, R210, R211, R213) -/

/-- The PCIe link is up: step 3 of this start has passed. -/
def State.pcieUp (s : State) : Bool := s.pwr.mode == .on && s.stepPassed 3

/-- The part presents PF0 alone (R106); a part that a fault has made diagnostic-only keeps its VFs (R699). -/
def State.pfOnly (s : State) : Bool := s.bit F.BOOT_STATUS_DIAG_ONLY && s.fltState != 3

/-- What function `fn` reads of a configuration item. -/
def State.configRead (s : State) (fn : Nat) (i : ConfigItem) : Nat :=
  let pf := fun (v : Nat) => if fn = 0 then v else 0
  match i with
  | .vendorId => 0x1D8F
  | .deviceId => if fn = 0 then 0x4A10 else 0x4A11
  | .totalVfs => pf (if s.pfOnly then 0 else 63)
  | .initialVfs => pf (if s.pfOnly then 0 else 63)
  | .firstVfOffset => pf 1
  | .vfStride => pf 1
  | .vfDeviceId => pf 0x4A11
  | .pageSizes => pf 0x11
  | .numVfs => pf s.pci.numVfs
  | .vfEnable => pf (b2n s.pci.vfEnable)
  | .vfMse => pf (b2n s.pci.vfMse)
  | .vfBar0 => pf s.pci.vfBar0
  | .vfBar2 => pf s.pci.vfBar2
  | .busMaster => bitOf s.pci.busMaster fn
  | .memEnable => bitOf s.pci.memEnable fn
  | .bar0 => pf s.pci.bar0
  | .bar2 => pf s.pci.bar2
  | .msixEnable => bitOf s.pci.msixEnable fn
  | .msixMask => bitOf s.pci.msixMask fn
  | .msixSize => if fn = 0 then 2 else 18
  | .atsDepth => 0
  | .atsPageAligned => 1
  | .atsGlobal => 0
  | .resetTimeMs => 1600
  | .resetTimeValid => 1
  | .noSoftReset => 1
  | .powerState => if (if fn = 0 then s.pwr.pf0D3 else tst s.pwr.vfD3 fn) then 3 else 0
  | .other _ => s.free.toNat % 2 ^ 32

/-- What a write changes of PF0's SR-IOV controls and BARs that Table 08-7 names. -/
def Pcie.sriov (p : Pcie) (i : ConfigItem) (v : Nat) : Pcie :=
  match i with
  | .numVfs => { p with numVfs := v % 65536 }
  | .vfEnable => { p with vfEnable := v % 2 == 1 }
  | .vfMse => { p with vfMse := v % 2 == 1 }
  | .vfBar0 => { p with vfBar0 := v }
  | .vfBar2 => { p with vfBar2 := v }
  | _ => p

/-- A write to PF0's SR-IOV capability: a change puts every locked or running TDI in ERROR (R307, Table 08-7). -/
def State.sriovWrite (s : State) (i : ConfigItem) (v : Nat) : State :=
  let p := s.pci.sriov i v
  if p = s.pci then s else { s with pci := p }.tdiErrorAll

/-- A write of function `fn`'s Bus Master Enable: clearing a VF's puts its TDI in ERROR (R307, Table 08-7). -/
def State.busMasterWrite (s : State) (fn : Nat) (on : Bool) : State :=
  let was := tst s.pci.busMaster fn
  let s1 : State := { s with pci := { s.pci with busMaster := putBit s.pci.busMaster fn on } }
  if was && !on && fn != 0 then s1.tdiError fn else s1

/-- Held MSI-X messages of function `fn` that nothing holds any more go out (R156, PCIe Pending Bit rules). -/
def State.msixRelease (s : State) (fn : Nat) : State :=
  (List.range 32).foldl (fun s v =>
    let p := fget (fun _ => ({} : MsixPace)) s.exm.msix (32 * fn + v)
    if p.pba && !s.msixHeld fn v then
      ({ s with exm := { s.exm with msix := fset (fun _ => {}) s.exm.msix (32 * fn + v) { p with pba := false } } } : State).notify fn v
    else s) s

/-- A configuration write of function `fn`. Items that PCIe or the spec makes read-only are not written; the power state and
FLR have commands of their own. -/
def State.configWrite (s : State) (fn : Nat) (i : ConfigItem) (v : Nat) : State :=
  let on := v % 2 == 1
  match i with
  | .numVfs | .vfEnable | .vfMse | .vfBar0 | .vfBar2 => if fn = 0 then s.sriovWrite i v else s
  | .busMaster => s.busMasterWrite fn on
  | .memEnable => { s with pci := { s.pci with memEnable := putBit s.pci.memEnable fn on } }
  | .msixEnable => ({ s with pci := { s.pci with msixEnable := putBit s.pci.msixEnable fn on } } : State).msixRelease fn
  | .msixMask => ({ s with pci := { s.pci with msixMask := putBit s.pci.msixMask fn on } } : State).msixRelease fn
  | .bar0 => if fn = 0 then { s with pci := { s.pci with bar0 := v } } else s
  | .bar2 => if fn = 0 then { s with pci := { s.pci with bar2 := v } } else s
  | _ => s

/-- CONFIG_REQUEST: a configuration read, or a write of a value, of function `fn`. There is no answer before link-up, Request
Retry Status until step 8 has ended, and a normal answer from then on (R91); a VF that is not presented does not answer
as a function (R106). -/
def execConfigRequest (fn : Nat) (item : ConfigItem) (write : Option Nat) (s : State) : Res :=
  .next <|
    if !s.pcieUp || 63 < fn then s
    else if !s.boot.configReady then s.emit (.config fn none)
    else if fn != 0 && s.pfOnly then s.emit (.unsupported fn)
    else match write with
      | none => (s.emit (.config fn (some (s.configRead fn item)))).drawn
      | some v => (s.configWrite fn item v).emit (.config fn (some 0))

/-- SRIOV_CONFIG_WRITE: a write that sets the SR-IOV controls and VF BARs; any change of them puts every locked or running
TDI in ERROR (R307). -/
def execSriovConfigWrite (numVfs : Nat) (vfEnable vfMse : Bool) (vfBar0 vfBar2 : Nat) (s : State) : Res :=
  .next <|
    if !s.boot.configReady || s.pwr.mode != .on then s
    else
      let p : Pcie := { s.pci with numVfs := numVfs % 65536, vfEnable := vfEnable, vfMse := vfMse, vfBar0 := vfBar0, vfBar2 := vfBar2 }
      if p = s.pci then s else ({ s with pci := p } : State).tdiErrorAll

/-- BUS_MASTER_CLEAR: a write clears VF `n`'s Bus Master Enable, and its TDI enters ERROR (R307). -/
def execBusMasterClear (n : Nat) (s : State) : Res :=
  .next <|
    if !s.boot.configReady || s.pwr.mode != .on || n = 0 || 63 < n then s
    else ({ s with pci := { s.pci with busMaster := putBit s.pci.busMaster n false } } : State).tdiError n

/-! ### Function-level resets (R118, R119, R157, R159, R244, R753) -/

/-- Function `fn`'s PCIe state at its reset value (PCIe 6.0; log entry 9). -/
def State.fnReset (s : State) (fn : Nat) : State :=
  let off := fun (m : Nat) => putBit m fn false
  let p := s.pci
  { s with
    exm := { s.exm with msix := fclear s.exm.msix (32 * fn) (32 * fn + 32) }
    pci := { p with busMaster := off p.busMaster, memEnable := off p.memEnable, msixEnable := off p.msixEnable,
                    msixMask := off p.msixMask } }

/-- VF `n` is back in D0: its queues fetch from the next boundary on (R126). -/
def State.vfD0 (s : State) (n : Nat) : State :=
  if tst s.pwr.vfD3 n then
    { s with pwr := { s.pwr with vfD3 := putBit s.pwr.vfD3 n false, vfResume := putBit s.pwr.vfResume n true } }
  else s

/-- PF0 is back in D0: dispatch resumes 200 µs later (R124, R125). -/
def State.pf0D0 (s : State) : State :=
  if s.pwr.pf0D3 then
    { s with pwr := { s.pwr with
        pf0D3 := false, dozeAsked := false
        resumeFrom := if s.pwr.doze || s.pwr.dispatchOff then s.runClk + 1 else s.pwr.resumeFrom } }
  else s

/-- VF_FLR: Initiate Function Level Reset in VF `n`; one more while it runs changes nothing (R118). Its TDI enters ERROR, its
QIF_ registers and PCIe state are reset, its exchange window is cleared, and the clearing of its slice begins; while the
part is frozen that clearing waits for the thaw (R277, R753). -/
def execVfFlr (n : Nat) (s : State) : Res :=
  .next <|
    if n = 0 || 63 < n || !s.boot.configReady || s.pwr.mode != .on || (s.slice n).flrBusy then s
    else
      let s1 := ((s.tdiError n).queuesFlr n).clearVfExchange n
      let s2 := (s1.fnReset n).vfD0 n
      if s2.sliceState n = 0 then s2
      else
        let s3 := (s2.clearBegin n 1).modSlice n (fun x => { x with flrBusy := true })
        ((s3.setFld F.SLC_SCRUB_ACTIVE 1).setFld F.SLC_SCRUB_KIND 2).setFld F.SLC_SCRUB_VF n

/-- PF0_FLR: PF0's function state is reset, and slot 0 returns to IDLE with its payload zeroed; no slice, tenancy or table
is touched (R159). -/
def execPf0Flr (s : State) : Res :=
  .next <|
    if !s.boot.configReady || s.pwr.mode != .on then s
    else
      let s1 := ((s.exmZero (slotAddr 0) 64).fnReset 0).pf0D0
      { s1 with pci := { s1.pci with
          numVfs := 0, vfEnable := false, vfMse := false, vfBar0 := 0, vfBar2 := 0, bar0 := 0, bar2 := 0 } }

/-! ### Clock gating (R120) -/

/-- Unit `u` has no issued or queued work: clusters 0 to 47, matrix units 48 to 143, engine instances 144 to 172. -/
def State.unitIdle (s : State) (u : Nat) : Bool :=
  if u < 48 then (s.onCluster u).all (fun p => p.2.parked || p.2.grp.all (fun g => g.2.exited == 0xFFFFFFFF))
  else if u < 144 then
    let x := fget (fun _ => ({} : MUnit)) s.yar.units (u - 48)
    x.queue.isEmpty && x.staged.isNone && x.running.isNone
  else (s.inst (u - 144)).sub.all (fun e => e.2.isEmpty)

/-- Unit `u` is clock-gated: it was gated and no new work has come since. -/
def State.clockGated (s : State) (u : Nat) : Bool := fget (fun _ => 0) s.pwr.gated u == 1 && s.unitIdle u

/-- IDLE_CLOCK_GATE: unit `u` has had no work for 64 host cycles and is clock-gated; gated units that have work are awake.
No state is lost (R120). -/
def execIdleClockGate (u : Nat) (s : State) : Res :=
  .next <|
    if 173 ≤ u || !s.unitIdle u then s
    else { s with pwr := { s.pwr with gated := fset (fun _ => 0) (s.pwr.gated.filter (fun e => s.unitIdle e.1)) u 1 } }

/-! ### Doze and D-states (R121 to R126) -/

/-- No context is resident. -/
def State.noContext (s : State) : Bool := s.yar.ctxs.all (fun e => e.2.isNone)

/-- An engine queue holds a started item. -/
def State.engineStarted (s : State) : Bool := s.ffe.inst.any (fun e => e.2.sub.any (fun q => q.2.any (fun b => b.started)))

/-- The four conditions of R121. -/
def State.dozeReady (s : State) : Bool :=
  s.noContext && !s.engineStarted && !s.campInFlight 0 && !s.campInFlight 1 && !s.activeRt

/-- DOZE_ENTER: at a tick boundary the part enters doze: POWER_STATE asked for it and the conditions of R121 hold, or PF0 is
in D3hot with dispatch stopped and no context is resident (R125). -/
def execDozeEnter (s : State) : Res :=
  .next <|
    if s.frozen || !s.tick.running || s.pwr.doze then s
    else if (s.pwr.dozeAsked && s.dozeReady) || (s.pwr.pf0D3 && s.pwr.dispatchOff && s.noContext) then
      { s with pwr := { s.pwr with doze := true, dozeAsked := false } }
    else s

/-- DOZE_EXIT_RESUME: the first tick boundary at least 200 µs after a doze exit or a D0 return: dispatch resumes (R124,
R125). -/
def execDozeExitResume (s : State) : Res :=
  .next <|
    if s.frozen || s.pwr.resumeFrom = 0 || s.runClk + 1 < s.pwr.resumeFrom + 200000 then s
    else { s with pwr := { s.pwr with doze := false, resumeFrom := 0, dispatchOff := s.pwr.pf0D3 && s.pwr.dispatchOff } }

/-- PF0_D3HOT_ENTER: PF0 enters D3hot; dispatch stops at the next boundary (R125). -/
def execPf0D3hotEnter (s : State) : Res :=
  .next (if s.boot.configReady && s.pwr.mode == .on then { s with pwr := { s.pwr with pf0D3 := true } } else s)

/-- PF0_D0_RETURN: PF0 returns to D0; dispatch resumes at the first boundary at least 200 µs later (R124, R125). -/
def execPf0D0Return (s : State) : Res := .next s.pf0D0

/-- VF_D3HOT_ENTER: VF `n` enters D3hot: its queues stop fetching and its slots pass unused (R126). -/
def execVfD3hotEnter (n : Nat) (s : State) : Res :=
  .next <|
    if n = 0 || 63 < n || !s.boot.configReady || s.pwr.mode != .on then s
    else { s with pwr := { s.pwr with vfD3 := putBit s.pwr.vfD3 n true, vfResume := putBit s.pwr.vfResume n false } }

/-- VF_D0_RETURN: VF `n` returns to D0; fetching resumes at the next boundary (R126). -/
def execVfD0Return (n : Nat) (s : State) : Res := .next (if n = 0 || 63 < n then s else s.vfD0 n)

/-! ### Thaw -/

/-- The clearing that a VF FLR or a TDI started during the freeze begins (R753). -/
def State.thawClears (s : State) : State :=
  vfs.foldl (fun s n =>
    if tst (s.slice n).clearing 4 then
      (s.stopSlice n).modSlice n (fun x => { x with clearing := putBit x.clearing 4 false })
    else s) s

/-- THAW_RESUME: the stacks have left self-refresh, the clocks run and issue resumes (R748, R750). A frame that was in progress
is published TRUNCATED (R633); a clearing that waited begins (R753); a fault injected during the freeze is raised; a boot step that waited for PERST_N begins (R89). -/
def execThawResume (s : State) : Res :=
  .next <|
    if s.fld F.FRZ_STATUS_STATE ≠ 3 then s
    else
      let s1 := (s.setFld F.FRZ_STATUS_STATE 0).setFld F.FRZ_LAST_US_US ((s.clk - s.frz.reqClk) / 1000)
      let s2 := ((List.range 16).foldl (fun s i => s.closeFrame (i / 8) (i % 8) true) s1).thawClears
      let s3 := if s2.boot.waitPerst && !s2.pwr.perst then s2.beginStep 3 else s2
      if s3.flt.injectDue then
        ({ s3 with flt := { s3.flt with injectDue := false } } : State).uncontained 0x8F 0xFFFF 0xFF true false
      else s3

end Sys2Proof.Machine
end

