-- ==== Sys2Proof/Machine/Sched.lean ====
section
/-! DEFINITION. The schedule table (chapter 15): entries and their checks, the commands that write it, group reads, slots,
exclusive jobs, lags. -/

namespace Sys2Proof.Machine

/-! ### Entries (Table 15-3) -/

/-- A schedule entry as a 256-bit number, byte 0x00 lowest. -/
abbrev Entry := Nat

def eKind (e : Entry) : Nat := bitsOf e 7 0
def eVf (e : Entry) : Nat := bitsOf e 15 8
def eOverrun (e : Entry) : Nat := bitsOf e 23 16
def eFlags (e : Entry) : Nat := bitsOf e 31 24
def eStart (e : Entry) : Nat := bitsOf e 90 64
def eLen (e : Entry) : Nat := bitsOf e 154 128
def eClusters (e : Entry) : Nat := bitsOf e 239 192

/-- The four VER fields. -/
def eVers (e : Entry) : List Nat := [bitsOf e 63 62, bitsOf e 127 126, bitsOf e 191 190, bitsOf e 247 246]

/-- The XOR of bytes 0x00 to 0x1E. -/
def eXor (e : Entry) : Nat := (List.range 31).foldl (fun x i => Nat.xor x (bitsOf e (8 * i + 7) (8 * i))) 0

/-- The bits that Table 15-3 calls Reserved. -/
def eReserved (e : Entry) : Bool :=
  bitsOf e 31 25 != 0 || bitsOf e 61 32 != 0 || bitsOf e 125 91 != 0 || bitsOf e 189 155 != 0 || bitsOf e 245 240 != 0

/-- The entry as SCHED_WRITE stores it over `old`: every VER field one more than before, CHECK the XOR (R539). -/
def stamp (e old : Entry) : Entry :=
  let v := 64 * ((bitsOf old 63 62 + 1) % 4)
  let e1 := setBits (setBits (setBits (setBits e 63 56 v) 127 120 v) 191 184 v) 247 240 v
  setBits e1 255 248 (eXor e1)

/-- Entry `i` of the table, 2048 × bank + index. -/
def State.entryAt (s : State) (i : Nat) : Entry := fget (fun _ => 0) s.sch.table i

/-- HYPER, the active bank, the position. -/
def State.hyper (s : State) : Nat := s.fld F.SCH_STATUS_HYPER
def State.bank (s : State) : Nat := s.fld F.SCH_STATUS_ACTIVE_BANK
def State.position (s : State) : Nat := s.fld F.SCH_POS_POSITION

/-! ### Entry checks (Table 15-4) -/

/-- The layout an entry's VF has, for the checks: its mode and clusters, none where it has no slice or a LOST one. -/
def State.layNow (s : State) (n : Nat) : Option Layout :=
  if [2, 3, 4, 5].contains (s.sliceState n) then some (s.layoutOf n) else none

/-- The same, after every accepted change (R176). -/
def State.layNext (s : State) (n : Nat) : Option Layout :=
  if s.sliceState n = 6 then none else (s.projected.find? (fun h => h.vf == n)).map (fun h => h.lay)

/-- The slice, or one that shares a cluster with it, holds an ISA 0x01 handle (R493). -/
def State.windowedNear (s : State) (n : Nat) (l : Layout) : Bool :=
  s.windowed n || s.sliced.any (fun m => s.windowed m && Nat.land (s.clustersOf m) l.clusters != 0)

/-- Check 1: KIND known, Reserved bits and unused fields 0. -/
def entryForm (e : Entry) : Bool :=
  decide (eKind e ≤ 5) && !eReserved e && (eOverrun e == 0 || (eKind e == 1 && eOverrun e == 1)) &&
    (eFlags e == 0 || eKind e == 3) &&
    (eKind e != 0 || (eVf e == 0 && eStart e == 0 && eLen e == 0 && eClusters e == 0))

/-- Check 4: LENGTH, START and their sum against the period. -/
def entryTime (e : Entry) (period : Nat) : Bool :=
  decide ((if eKind e = 1 then 200 else 100) ≤ eLen e ∧ eStart e + eLen e ≤ period ∧ eStart e + 100 ≤ period) &&
    (eKind e != 1 || decide (eStart e + eLen e + 5 ≤ period))

/-- Checks 1, 3, 4, 6, 8 and 9 for one entry: the first that fails, 0 when none does. -/
def State.entryCheck (s : State) (lay : Nat → Option Layout) (period : Nat) (e : Entry) : Nat :=
  let named := [1, 2, 4].contains (eKind e)
  let l := if named then lay (eVf e) else none
  let own := (l.getD {}).clusters
  if !entryForm e then 1
  else if eKind e = 0 then 0
  else if named != (eVf e != 0) || (named && l.isNone) || 63 < eVf e then 3
  else if !entryTime e period then 4
  else if Nat.lor (eClusters e) s.usableClusters != s.usableClusters then 6
  else if (eKind e == 1 || eKind e == 2) && (Nat.lor (eClusters e) own != own || Nat.land (eClusters e) s.draining != 0) then 6
  else if eKind e = 4 && eClusters e != 0 then 6
  else if eKind e = 1 && ((l.getD {}).mode != 0 || s.windowedNear (eVf e) (l.getD {})) then 8
  else if eKind e = 1 && s.unpinned (eVf e) then 9
  else 0

/-- Two slots overlap in time on a shared cluster. -/
def slotsMeet (a b : Entry) : Bool :=
  Nat.land (eClusters a) (eClusters b) != 0 && decide (eStart a < eStart b + eLen b ∧ eStart b < eStart a + eLen a)

/-- Checks 2, 5 and 7 for entry `j` of a position: the first that fails, 0 when none does. Of two slots that overlap, both
fail. -/
def posCheck (pos : List Entry) (j period : Nat) : Nat :=
  let e := pos.getD j 0
  let before := pos.take j
  let prev := before.getLast?
  let slots := pos.takeWhile (fun x => eKind x != 0)
  if eKind e = 0 then 0
  else if before.any (fun x => eKind x == 0) then 2
  else if (match prev with
      | some p => decide (eStart e < eStart p ∨ (eStart e ≠ eStart p ∧ eStart e < eStart p + 100))
      | none => false) then 5
  else if eKind e = 4 then
    (if (pos.zipIdx).any (fun x => x.2 != j && eKind x.1 != 0) || eStart e != 0 || eLen e != period then 7 else 0)
  else if (slots.zipIdx).any (fun x => x.2 != j && eKind x.1 != 4 && slotsMeet x.1 e) then 7
  else 0

/-- The first check that fails, of the entry's own and its position's. -/
def firstCheck (a b : Nat) : Nat := if a = 0 then b else if b = 0 then a else min a b

/-- Check the entries of bank image `get` at the indices `idx`, and the positions they lie in, in ascending index: status
and index of the first that fails (R193, R538). -/
def State.checkEntries (s : State) (lay : Nat → Option Layout) (period : Nat) (get : Nat → Entry) (idx : List Nat) :
    Option (Nat × Nat) :=
  let ps := (idx.map (· / 32)).eraseDups
  ps.findSome? (fun p =>
    let pos := (List.range 32).map (fun j => get (32 * p + j))
    (List.range 32).findSome? (fun j =>
      let i := 32 * p + j
      let own := if idx.contains i then s.entryCheck lay period (get i) else 0
      match firstCheck own (posCheck pos j period) with
      | 0 => none
      | 9 => some (0x24, i)
      | _ => some (0x25, i)))

/-- Where the first `32 × hyper` entries hold both an EXCLUSIVE and an RT entry: the index to report, one of the entries
written where there is one (R195, R538). -/
def exclWithRt (get : Nat → Entry) (hyper : Nat) (idx : List Nat) : Option Nat :=
  let l := List.range (32 * hyper)
  if l.any (fun i => eKind (get i) == 1) && l.any (fun i => eKind (get i) == 4) then
    let hit := fun i => eKind (get i) == 1 || eKind (get i) == 4
    match idx.find? (fun i => decide (i < 32 * hyper) && hit i) with
    | some i => some i
    | none => l.find? hit
  else none

/-! ### The schedule commands -/

/-- Period in force, in 10 ns units. -/
def State.period10 (s : State) : Nat := s.fld F.TCK_PERIOD_PERIOD

/-- The pending swap: its boundary and HYPER. -/
def State.swapPending (s : State) : Option (Nat × Nat) :=
  (s.eng.changes.find? (fun c => c.kind == 4)).map (fun c => (c.tick, c.hyper))

/-- HYPER that counts for R538 in bank `b`: the active one, or a pending swap's. -/
def State.hyperOf (s : State) (b : Nat) : Option Nat :=
  if b = s.bank then some s.hyper else s.swapPending.map (fun p => p.2)

/-- Range checks of SCHED_WRITE and SCHED_READ (Table 05-10). -/
def Call.schedRange (c : Call) : Option Nat :=
  if 1 < c.arg 8 1 then some 8
  else if 2047 < c.arg 10 2 then some 10
  else if c.arg 12 2 = 0 || 2048 < c.arg 10 2 + c.arg 12 2 then some 12
  else none

/-- Store the entries of a bank: what stood there before is kept beside it (R542). -/
def State.putEntries (s : State) (base : Nat) (es : List Entry) : State :=
  (es.zipIdx).foldl (fun s p =>
    let i := base + p.2
    { s with sch := { s.sch with was := fset (fun _ => 0) s.sch.was i (s.entryAt i), table := fset (fun _ => 0) s.sch.table i p.1 } }) s

/-- SCHED_WRITE (R193, R194, R538, R539). -/
def execSchedWrite (ups : Upsets) (s : State) : Res :=
  s.command 0x0501 ups (fun c s =>
    let b := c.arg 8 1
    let first := c.arg 10 2
    let n := c.arg 12 2
    let a := c.arg 16 4
    match c.schedRange with
    | some o => s.no 0x11 o
    | none =>
      if !s.bufferOk c.fn a (32 * n) then s.no 0x18 16
      else if s.bufferUe a (32 * n) then s.dataError c.fn a (32 * n)
      else
        let old := fun i => s.entryAt (2048 * b + i)
        let es := (List.range n).map (fun i => stamp (s.exmLe (a + 32 * i) 32) (old (first + i)))
        let get := fun i => if first ≤ i && i < first + n then es.getD (i - first) 0 else old i
        let idx := (List.range n).map (first + ·)
        match s.checkEntries s.layNow s.period10 get idx with
        | some (st, i) => s.no st i
        | none =>
          match (s.hyperOf b).bind (fun h => exclWithRt get h idx) with
          | some i => s.no 0x26 i
          | none => if s.recovering then s.no 0x16 0 else (s.putEntries (2048 * b + first) es).ok [])

/-- SCHED_READ: the entries as stored (R539). -/
def execSchedRead (ups : Upsets) (s : State) : Res :=
  s.command 0x0502 ups (fun c s =>
    let n := c.arg 12 2
    let a := c.arg 16 4
    match c.schedRange with
    | some o => s.no 0x11 o
    | none =>
      if !s.bufferOk c.fn a (32 * n) then s.no 0x18 16
      else
        let bs := (List.range n).map (fun i => leBytes 32 (s.entryAt (2048 * c.arg 8 1 + c.arg 10 2 + i)))
        (s.bufferPut a bs.flatten).ok [])

/-- The period that will be in force at boundary `t` (R176). -/
def State.periodNext (s : State) (t : Nat) : Nat :=
  if s.bit F.TCK_STATUS_PERIOD_PENDING && decide (s.pair R.TCK_NEXT_AT_LO R.TCK_NEXT_AT_HI ≤ t) then
    s.fld F.TCK_NEXT_PERIOD_PERIOD
  else s.period10

/-- SCHED_SWAP (R175 to R177, R195, R538). -/
def execSchedSwap (ups : Upsets) (s : State) : Res :=
  s.command 0x0503 ups (fun c s =>
    let h := c.arg 8 1
    if h = 0 || 64 < h then s.no 0x11 8
    else match s.atTick (c.arg 16 8) with
      | .inl st => s.no st (if st = 0x11 then 16 else 0)
      | .inr t =>
        let get := fun i => s.entryAt (2048 * (1 - s.bank) + i)
        match s.checkEntries s.layNext (s.periodNext t) get (List.range (32 * h)) with
        | some (st, i) => s.no st i
        | none =>
          match exclWithRt get h [] with
          | some i => s.no 0x26 i
          | none =>
            if s.swapPending.isSome || s.recovering then s.no 0x16 0
            else
              let ch : Change := ⟨4, 0, t, {}, h, 0⟩
              let s1 : State := { s with eng := { s.eng with changes := s.eng.changes ++ [ch] } }
              ((s1.setFld F.SCH_STATUS_SWAP_PENDING 1).setPair R.SCH_SWAP_AT_LO R.SCH_SWAP_AT_HI t).ok (leBytes 8 t))

/-! ### Group reads (R540 to R542) -/

/-- What a read of entry `i` sees. `mid` is an entry that is being written and how many of its four words the read finds
new (R542). -/
def State.entryRead (s : State) (mid : Option (Nat × Nat)) (i : Nat) : Entry :=
  match mid with
  | some (j, k) =>
    if j = i && k < 4 then
      bitsOf (s.entryAt i) (64 * k) 0 % 2 ^ (64 * k) + fget (fun _ => 0) s.sch.was i / 2 ^ (64 * k) * 2 ^ (64 * k)
    else s.entryAt i
  | none => s.entryAt i

/-- Why a read entry is not used: 1 version mismatch, 2 check byte; 0 when it is (R541). -/
def entryBad (e : Entry) : Nat :=
  match eVers e with
  | v :: t => if t.any (fun w => w != v) then 1 else if eXor e != bitsOf e 255 248 then 2 else 0
  | [] => 0

/-- A skipped entry is logged and counted (R541). -/
def State.skipEntry (s : State) (i reason : Nat) : State :=
  ((s.log 0x0801 2 0 0xFFFF i reason).bump F.SCH_CNT_SKIP_COUNT).setReg R.SCH_LAST_SKIP
    (BitVec.ofNat 32 (reason * 2 ^ 12 + i))

/-- The slot of entry `i`. -/
def slotOf (e : Entry) (i : Nat) : Slot :=
  { bank := i / 2048, index := i % 2048, kind := eKind e, vf := eVf e, overrun := eOverrun e, teasel := tst (eFlags e) 0,
    start := eStart e, len := eLen e, clusters := eClusters e, waiting := [] }

/-- Read entries from entry `rdIdx` of the position being read on, until the group ends: at a NONE entry, at another
START, or at the position's end. -/
def readGroup (mid : Option (Nat × Nat)) : Nat → State → State
  | 0, s => s
  | fuel + 1, s =>
    let i := s.sch.rdBase + s.sch.rdIdx
    let e := s.entryRead mid i
    let step := fun (s : State) (k : Nat) (r : List Slot) => { s with sch := { s.sch with rdIdx := k, ready := r } }
    if 32 ≤ s.sch.rdIdx then s
    else if entryBad e ≠ 0 then readGroup mid fuel (step (s.skipEntry i (entryBad e)) (s.sch.rdIdx + 1) s.sch.ready)
    else if eKind e = 0 then step s 32 s.sch.ready
    else if s.sch.ready.any (fun x => x.start != eStart e) then s
    else readGroup mid fuel (step s (s.sch.rdIdx + 1) (s.sch.ready ++ [slotOf e i]))

/-- The first entry of the position that follows: position 0 of the new bank when a swap is due at the next boundary, else
the next position (R536, R540). -/
def State.nextBase (s : State) (count : Nat) : Nat :=
  match s.swapPending with
  | some (t, _) => if t ≤ count then 2048 * (1 - s.bank) else 2048 * s.bank + 32 * ((s.position + 1) % max s.hyper 1)
  | none => 2048 * s.bank + 32 * ((s.position + 1) % max s.hyper 1)

/-- The position that starts at entry `base` is to be read. -/
def State.readFrom (s : State) (base : Nat) (ahead : Bool) : State :=
  { s with sch := { s.sch with rdBase := base, rdIdx := 0, ready := [], ahead := ahead } }

/-- Read the next group: of the current position, or, when it has no further one, group 0 of the next position. -/
def State.groupRead (s : State) (mid : Option (Nat × Nat)) : State :=
  if s.sch.ahead || !s.sch.ready.isEmpty then s
  else
    let s1 := readGroup mid 32 s
    if s1.sch.ready.isEmpty then readGroup mid 32 (s1.readFrom (s1.nextBase (s1.tickCount + 1)) true) else s1

/-- SCHEDULE_GROUP_READ: the part reads a group's entries ahead of need (R540, R541). -/
def execScheduleGroupRead (mid : Option (Nat × Nat)) (s : State) : Res :=
  if s.frozen || !s.tick.running then .next s else .next (s.groupRead mid)

/-! ### Slots (R543 to R550) -/

/-- No slot dispatches now: PF0 in D3hot (R125), doze or a resume under way (R121, R124), a power hold (R765). -/
def State.dispatchStopped (s : State) : Bool :=
  s.pwr.dispatchOff || s.pwr.doze || s.pwr.resumeFrom != 0 || s.frz.holdStops

/-- Dispatch a slot, or let it pass (R125, R543). -/
def State.dispatchSlot (s : State) (x : Slot) : State :=
  if s.dispatchStopped then
    if x.kind = 1 && s.pwr.pf0D3 then s.log 0x0305 2 0 0xFFFF x.index 0 else s
  else
    let w := if x.kind = 1 then
        (s.contexts.filter (fun (e : Nat × Ctx) => e.2.vf == x.vf && tst x.clusters (e.1 / 8) && s.ctxClass e.2 == 1)).map (fun e => e.1)
      else []
    let s1 : State := { s with sch := { s.sch with running := s.sch.running ++ [{ x with waiting := w }] } }
    if x.kind = 1 && s1.slotRuns x.vf x then s1.modAcct x.vf (fun a => { a with rtSlots := a.rtSlots + 1 }) else s1

/-- SLOT_START: the group that stands read is dispatched (R543). -/
def execSlotStart (s : State) : Res :=
  let s1 := if s.sch.ready.isEmpty then s.groupRead none else s
  if s.frozen || !s.tick.running || s1.sch.ahead || s1.sch.rdBase / 2048 != s1.bank then .next s
  else
    let r := s1.sch.ready
    let s2 : State := { s1 with sch := { s1.sch with ready := [] } }
    .next (r.foldl State.dispatchSlot s2)

/-- Entry key of a slot. -/
def Slot.key (x : Slot) : Nat := 2048 * x.bank + x.index

/-- The CLASS 1 commands of the slice that have started and not ended, with their queues. -/
def State.rtCommands (s : State) (n : Nat) : List (Nat × Nat) :=
  (queues.filter (fun q => s.fld (F.QIF_Q_CTRL_CLASS n q) == 1)).flatMap (fun q =>
    ((s.queue n q).cmds.filter (fun c => c.phase == 1)).map (fun c => (q, c.uid)))

/-- An RT miss (R549): counted and logged; under ABORT the command stops and completes with ABORTED. -/
def State.rtMiss (s : State) (x : Slot) (q uid : Nat) : State :=
  let s1 := ((s.bump F.SCH_CNT_RT_MISS_COUNT).modAcct x.vf (fun a => { a with rtMisses := a.rtMisses + 1 })).log
    0x0803 3 x.vf 0xFFFF q x.index
  if x.overrun = 1 then (s1.stopCmd x.vf uid).endCmd x.vf q uid 0x30 0 0 else s1

/-- The lags of cluster `c` return to 0, and nothing is held there (R545). -/
def State.lagClear (s : State) (c : Nat) : State :=
  { s with sch := { s.sch with
      lag := fclear s.sch.lag (64 * c) (64 * c + 64), held := fclear s.sch.held (64 * c) (64 * c + 64) } }

/-- ELASTIC time goes on for cluster `c` past the end of slot `x`: another slot that runs, or one that starts there, is
ELASTIC on it. -/
def State.elasticOn (s : State) (c at_ : Nat) : Bool :=
  s.sch.running.any (fun y => y.kind == 3 && tst y.clusters c) ||
    (!s.sch.ahead && s.sch.ready.any (fun y => y.kind == 3 && tst y.clusters c && y.start == at_))

/-- Slot `x` ends (R547, R549): its RT misses are acted on. -/
def State.slotEnd (s : State) (x : Slot) : State :=
  let runs := s.slotRuns x.vf x
  let s1 : State := { s with sch := { s.sch with running := s.sch.running.filter (fun y => y.key != x.key) } }
  if x.kind = 1 && runs then (s1.rtCommands x.vf).foldl (fun s p => s.rtMiss x p.1 p.2) s1 else s1

/-- The lags of the slot's clusters are cleared where ELASTIC time has ended (R545). -/
def State.lagEnd (s : State) (x : Slot) (at_ : Nat) : State :=
  if x.kind = 3 then
    ((bitList x.clusters 48).filter (fun c => !s.elasticOn c at_)).foldl State.lagClear s
  else s

/-- SLOT_END: the running slot of entry `i`, 2048 × bank + index, ends. An exclusive job has no deadline (R547 to R549,
R552). -/
def execSlotEnd (i : Nat) (s : State) : Res :=
  match s.sch.running.find? (fun x => x.key == i) with
  | none => .next s
  | some x =>
    if s.frozen || (x.kind == 4 && s.exclJob.isSome) then .next s
    else .next ((s.slotEnd x).lagEnd x (x.start + x.len))

/-- A slot that did not run, or was cut at the boundary (R543). The reason is a value the spec does not state. -/
def State.cutSlot (s : State) (i : Nat) : State :=
  ((s.log 0x0802 2 0 0xFFFF i s.free.toNat).drawn).bump F.SCH_CNT_CUT_COUNT

/-- Entries of the current position that have not been read: none of them will start in this tick. -/
def State.unread (s : State) : List Nat :=
  if s.sch.ahead then []
  else
    let l := (List.range (32 - s.sch.rdIdx)).map (fun j => s.sch.rdBase + s.sch.rdIdx + j)
    (l.takeWhile (fun i => eKind (s.entryAt i) != 0)).filter (fun i => entryBad (s.entryAt i) == 0)

/-- The scheduler at a boundary to tick `count`: slots end or are cut, the position advances unless an exclusive job pauses
the table, group 0 of the new position stands read (R536, R540, R543, R547, R552, R553). `period` is the period of the
tick that ends, in 10 ns units. -/
def State.schedBoundary (s : State) (count period : Nat) : State :=
  if s.exclJob.isSome then s
  else
    let run := s.sch.running
    let late := (run.filter (fun x => x.start + x.len != period && !(x.kind == 4 && s.sch.excl.isSome))).map Slot.key
    let never := (if s.sch.ahead then [] else s.sch.ready.map Slot.key) ++ s.unread
    let s1 := (late ++ (if s.dispatchStopped then [] else never)).foldl State.cutSlot s
    let base := s1.nextBase count
    let s2 := if s1.sch.ahead && s1.sch.rdBase == base then { s1 with sch := { s1.sch with ahead := false } }
      else readGroup none 32 (s1.readFrom base false)
    let s3 := run.foldl State.slotEnd s2
    let s4 := run.foldl (fun s x => s.lagEnd x 0) s3
    let s5 : State := { s4 with sch := { s4.sch with excl := none, exclIdle := false } }
    s5.setFld F.SCH_POS_POSITION ((s5.position + 1) % max s5.hyper 1)

/-- SCHED_SWAP_APPLY: at its boundary the inactive bank becomes active at position 0; an exclusive job that pauses the
table is pre-empted (R195, R536, R555). -/
def execSchedSwapApply (s : State) : Res :=
  match s.eng.changes.find? (fun c => c.kind == 4) with
  | none => .next s
  | some c =>
    if s.frozen || s.tickCount < c.tick then .next s
    else
      let nb := 1 - s.bank
      let s1 : State := match s.exclJob with
        | some (n, _, _) =>
          let a := s.log 0x0805 2 n 0xFFFF 0 0
          { a with sch := { a.sch with excl := none, exclIdle := false, running := [] } }
        | none => s
      let s2 : State := { s1 with eng := { s1.eng with changes := s1.eng.changes.filter (fun d => d.kind != 4) } }
      let s3 := (((s2.setFld F.SCH_STATUS_ACTIVE_BANK nb).setFld F.SCH_STATUS_HYPER c.hyper).setFld F.SCH_POS_POSITION 0).setFld
        F.SCH_STATUS_SWAP_PENDING 0
      let s4 := s3.setPair R.SCH_SWAP_AT_LO R.SCH_SWAP_AT_HI 0
      .next (if s4.sch.rdBase = 2048 * nb && !s4.sch.ahead then s4 else readGroup none 32 (s4.readFrom (2048 * nb) false))

/-! ### Exclusive jobs (R552 to R555) -/

/-- The next command of the queue can start (R234, R236). -/
def State.canStart (s : State) (n q : Nat) : Bool :=
  match s.nextCmd n q with
  | none => false
  | some c => s.vfLive n && s.qError n q == 0 && s.waitMet n c && !(c.wait && (s.fence n c.waitFence).err) && !s.barred n q c

/-- The first command that can start on the slice's CLASS 0 queues. -/
def State.exclPick (s : State) (n : Nat) : Option Nat :=
  queues.findSome? (fun q =>
    if s.fld (F.QIF_Q_CTRL_CLASS n q) = 0 && s.canStart n q then (s.nextCmd n q).map (fun c => c.uid) else none)

/-- EXCLUSIVE_JOB_START: at an exclusive position's boundary its job is chosen, or none is and the position is idle
(R552). The command then starts as any other does. -/
def execExclusiveJobStart (s : State) : Res :=
  match s.sch.running.find? (fun x => x.kind == 4) with
  | none => .next s
  | some x =>
    if s.frozen || s.sch.excl.isSome || s.sch.exclIdle then .next s
    else
      let pick := if s.vfIdle x.vf then none else s.exclPick x.vf
      let e := pick.map (fun u => (x.vf, u, s.runClk))
      .next { s with sch := { s.sch with excl := e, exclIdle := e.isNone } }

/-- EXCL_LIMIT: the exclusive job has run for SCH_EXCL_LIMIT.MS: it stops and completes with ABORTED (R554). -/
def execExclLimit (s : State) : Res :=
  match s.exclJob with
  | none => .next s
  | some (n, u, t) =>
    let ms := s.fld F.SCH_EXCL_LIMIT_MS
    if s.frozen || ms = 0 || s.runClk < t + ms * 1000000 then .next s
    else
      let s1 := ((s.stopCmd n u).endUid n u 0x30 0 0).log 0x0804 2 n 0xFFFF 0 0
      .next { s1 with sch := { s1.sch with exclIdle := true } }

/-! ### Lags (R545) -/

/-- The slices that run on cluster `c` in ELASTIC time. -/
def State.elasticOf (s : State) (c : Nat) : List Nat :=
  s.sliced.filter (fun n => tst (s.homeClusters n) c &&
    s.sch.running.any (fun x => x.kind == 3 && tst x.clusters c && s.slotRuns n x))

def State.lagOf (s : State) (c n : Nat) : Int := fget (fun _ => (0 : Int)) s.sch.lag (64 * c + n)

/-- The lag rule for the slices of R with the issue slots each used: the amount added is rounded toward zero (R545). -/
def State.lagNew (s : State) (c : Nat) (r : List (Nat × Nat)) (n : Nat) : Int :=
  match r.find? (fun p => p.1 == n) with
  | none => 0
  | some p =>
    let u := r.foldl (fun t q => t + q.2) 0
    let sum := r.foldl (fun t q => t + s.fld (F.SLC_S_SHARE_SHARE q.1)) 0
    let add := Int.tdiv ((u * s.fld (F.SLC_S_SHARE_SHARE n) : Nat) - (p.2 * sum : Nat)) (sum : Nat)
    max (-65536) (min 65536 (s.lagOf c n + add))

/-- LAG_QUANTUM: 4,096 core cycles of ELASTIC time have passed on cluster `c`. `used` names the slices that had a group
ready, or would have had but for a hold, with the issue slots each used (R545). -/
def execLagQuantum (c : Nat) (used : List (Nat × Nat)) (s : State) : Res :=
  let ns := s.elasticOf c
  if s.frozen || 48 ≤ c || ns.length < 2 then .next s
  else
    let r := used.filter (fun p => ns.contains p.1)
    let lags := ns.map (fun n => (n, s.lagNew c r n))
    let ahead := r.any (fun p => lags.any (fun l => l.1 == p.1 && decide (0 ≤ l.2)))
    let s1 : State := { s with sch := { s.sch with
      lag := lags.foldl (fun m l => fset (fun _ => (0 : Int)) m (64 * c + l.1) l.2) s.sch.lag
      held := lags.foldl (fun m l => fset (fun _ => 0) m (64 * c + l.1) (b2n (decide (l.2 < -4096) && ahead))) s.sch.held } }
    .next s1

end Sys2Proof.Machine
end

