-- ==== Sys2Proof/Machine/Reshape.lean ====
section
/-! DEFINITION. Layout changes at a boundary (chapter 07): creates, resizes with their migrations and drains, destroys, and
the passing of drained clusters. -/

namespace Sys2Proof.Machine

/-! ### Registers of a layout -/

/-- The per-slice registers of a layout. -/
def State.setLayout (s : State) (n : Nat) (l : Layout) : State :=
  let s1 := ((s.setFld (F.SLC_S_SHARE_MODE n) l.mode).setFld (F.SLC_S_SHARE_SHARE n) l.share).setPair
    (R.SLC_S_CLUSTERS_LO n) (R.SLC_S_CLUSTERS_HI n) l.clusters
  ((s1.setFld (F.SLC_S_COMMONS_UNITS n) l.commons).setFld (F.SLC_S_HBM_UNITS n) l.hbm).setFld
    (F.SLC_S_ENGINE_SHARE_WEIGHT n) l.engShare

def State.setDrain (s : State) (n m : Nat) : State := s.setPair (R.SLC_S_DRAIN_LO n) (R.SLC_S_DRAIN_HI n) m

/-- A layout change has been applied to VF `n`'s slice: the pending boundary is gone, the change counted. -/
def State.reshaped (s : State) (n : Nat) : State :=
  (s.setPair (R.SLC_S_PENDING_LO n) (R.SLC_S_PENDING_HI n) 0).bump (F.SLC_S_RESHAPES_COUNT n)

/-! ### Create -/

/-- SLICE_CREATE at its boundary: the slice holds its layout and starts empty (Table 07-3, R504). What a clearing of an
earlier slice of the VF still holds stays held. -/
def State.applyCreate (s : State) (n : Nat) (l : Layout) (base : Nat) : State :=
  let s1 := s.modSlice n (fun x =>
    { ({} : Slice) with base := base, gone := x.gone, clearing := x.clearing, boundsAt := x.boundsAt })
  (((s1.setLayout n l).setReg (R.FLT_VF_CNT n) 0).reshaped n).setSlice n 2

/-! ### Migration (R269 to R272) -/

/-- The state that a meaning answers, or the one before it. -/
def after (r : Res) (s : State) : State := match r with | .next t => t | _ => s

/-- The operation running on unit `u` goes to its end (Table 10-4). -/
def State.finishUnit (s : State) (u : Nat) : State :=
  [execMmaOperation, execLoad, execStore, execRelease, execMatrixOpComplete].foldl (fun s f => after (f u s) s) s

/-- Operations of VF `n`'s contexts that run on cluster `c` go to their end. -/
def State.finishOps (s : State) (n c : Nat) : State :=
  [2 * c, 2 * c + 1].foldl (fun s u =>
    match (s.munit u).running with
    | some m => (match s.ctx m.ctx with | some x => if x.vf = n then s.finishUnit u else s | none => s)
    | none => s) s

/-- The slot a departing context goes to: the lowest-numbered kept cluster with room, its lowest free slot (R269). -/
def State.newHome (s : State) (kept : List Nat) (x : Ctx) : Option Nat :=
  match kept.find? (fun c => fits (s.residents c) ⟨x.groups, x.laneRegs, x.share, x.split⟩) with
  | some c => (slotsOf c).find? (fun k => (s.taken k).isNone)
  | none => none

/-- Context `k` leaves for slot `dest`: at once, or, from the trap window, once it has left that (R271). -/
def State.depart (s : State) (k dest : Nat) : State :=
  match s.ctx k with
  | none => s
  | some x =>
    if (List.range x.groups).any (fun g => (x.group g).inTrap) then
      (s.modCtx k (fun x => { x with moveTo := dest + 1 })).modCluster (k / 8)
        (fun y => if y.defer = 0 then { y with defer := s.runClk + 1 } else y)
    else ((if x.parked then s else s.switchOut k).moveCtx k dest)

/-- The contexts of VF `n` leave cluster `c`, as far as the kept clusters have room; one that finds none stays. Answers
how many left. -/
def State.migrate (s : State) (n c : Nat) (kept : List Nat) : State × Nat :=
  (slotsOf c).foldl (fun (p : State × Nat) k =>
    match p.1.ctx k with
    | some x =>
      if x.vf ≠ n then p
      else (match p.1.newHome kept x with
        | some d => (p.1.depart k d, p.2 + 1)
        | none => p)
    | none => p) (s.finishOps n c, 0)

/-- VF `n` still has a context on cluster `c` that is not on its way elsewhere. -/
def State.staysOn (s : State) (n c : Nat) : Bool :=
  (slotsOf c).any (fun k => match s.ctx k with | some x => x.vf == n && x.moveTo == 0 | none => false)

/-- VF `n`'s layout becomes `l` with its reservation at `base`: departing contexts move or drain, cached translations of
the removed clusters and the removed top of the reservation go, waiting contexts find new room (R268 to R275, R359).
`cycles` is the longest migration of one source cluster. -/
def State.reshape (s : State) (n : Nat) (l : Layout) (base cycles : Nat) : State :=
  let old := s.layoutOf n
  let ob := (s.slice n).base
  let gone := (bitList old.clusters 48).filter (fun c => !tst l.clusters c)
  let kept := (bitList (Nat.land old.clusters l.clusters) 48).filter (fun c => tst s.usableClusters c && !tst s.draining c)
  let (s1, moved) := gone.foldl (fun (p : State × Nat) c => let r := p.1.migrate n c kept; (r.1, p.2 + r.2)) (s, 0)
  let drain := (gone.filter (s1.staysOn n)).foldl (fun m c => Nat.lor m (2 ^ c)) (s1.drainOf n)
  let s2 := (s1.setLayout n l).setDrain n drain
  let cut := fun (m : FMap Byte) => if l.commons < old.commons then fclear m (ob + 0x10000 * l.commons) (ob + 0x10000 * old.commons) else m
  let cutP := fun (m : FMap Nat) => if l.commons < old.commons then fclear m (ob + 0x10000 * l.commons) (ob + 0x10000 * old.commons) else m
  let s3 : State := { s2 with mem := { s2.mem with
    tc := s2.mem.tc.filter (fun e => !gone.any (fun c => e.1 / 2 ^ 18 == 64 * c + n)), cmn := cut s2.mem.cmn, poison := cutP s2.mem.poison } }
  let s4 := (s3.modSlice n (fun x => { x with base := base })).reshaped n
  let s5 := (s4.setFld (F.SLC_S_MIGRATION_CONTEXTS n) moved).setFld (F.SLC_S_MIGRATION_CYCLES n) (min cycles 0xFFFF)
  (s5.vfEvent n 5).placeAll n

/-- SLICE_RESIZE at its boundary (Table 07-3). -/
def State.applyResize (s : State) (c : Change) (cycles : Nat) : State :=
  let s1 := s.reshape c.vf c.lay c.base cycles
  if s1.sliceState c.vf = 3 then s1.setSlice c.vf 2
  else if s1.sliceState c.vf = 4 then s1.modSlice c.vf (fun x => { x with prev := 2 })
  else s1

/-! ### Destroy -/

/-- SLICE_DESTROY at its boundary: work and queues stop, the data is cleared, and the resources stay held until that
clearing ends; with the last LOST slice gone, the fault controller is NORMAL again (R191, R244, R276, R359, R696). -/
def State.applyDestroy (s : State) (n : Nat) : State :=
  let l := s.layoutOf n
  let held : Layout := { l with clusters := Nat.lor l.clusters (s.drainOf n) }
  let base := (s.slice n).base
  let on := queues.filter (s.qEnabled n)
  let s1 := ((s.stopSlice n).stopDies n false).queuesStop n
  let s2 := on.foldl (fun s q => s.setFld (F.QIF_Q_STATUS_ERROR n q) 9) s1
  let s3 := (s2.clearSliceMem n).clearVfExchange n
  let s4 := (s3.setSlice n 0).resetRegs (R.SLC_S_STATE n) (R.SLC_S_BOUNDS n)
  let s5 := s4.modSlice n (fun _ => { ({} : Slice) with gone := some (held, base), clearing := 8 })
  let s6 : State := { s5 with sch := { s5.sch with
    persist := fset (fun _ => 0) s5.sch.persist n 0, sdPend := fset (fun _ => 0) s5.sch.sdPend n 0 } }
  let s7 := if s6.fltState = 2 && !s6.lostLeft then s6.setFld F.FLT_STATUS_STATE 0 else s6
  ((s7.setFld F.SLC_SCRUB_ACTIVE 1).setFld F.SLC_SCRUB_KIND 4).setFld F.SLC_SCRUB_VF n

/-! ### At the boundary -/

/-- Apply one due change. -/
def State.applyChange (s : State) (cycles : Nat) (c : Change) : State :=
  match c.kind with
  | 1 => s.applyCreate c.vf c.lay c.base
  | 2 => s.applyResize c cycles
  | 3 => s.applyDestroy c.vf
  | _ => s

/-- PENDING_LAYOUT_APPLY: the layout changes due at this boundary are applied in the order of their acceptance (R176,
R268). `cycles` is the longest migration of one source cluster. -/
def execPendingLayoutApply (cycles : Nat) (s : State) : Res :=
  if s.frozen then .next s
  else
    let due := fun (c : Change) => c.kind != 4 && decide (c.tick ≤ s.tickCount)
    let s1 : State := { s with eng := { s.eng with changes := s.eng.changes.filter (fun c => !due c) } }
    .next ((s.eng.changes.filter due).foldl (fun s c => s.applyChange cycles c) s1)

/-- DRAIN_CLUSTER_PASS: at a boundary, every draining cluster on which its slice has no context left passes on (R272). -/
def execDrainClusterPass (s : State) : Res :=
  if s.frozen then .next s
  else
    let t := vfs.foldl (fun s n =>
    let d := s.drainOf n
    let left := (bitList d 48).filter (fun c => (slotsOf c).any (fun k => match s.ctx k with | some x => x.vf == n | none => false))
    let m := left.foldl (fun m c => Nat.lor m (2 ^ c)) 0
    if m = d then s else ((s.setDrain n m).vfEvent n 5)) s
    .next (t.sliced.foldl State.placeAll t)

end Sys2Proof.Machine
end

