-- ==== Sys2Proof/Machine/Slowdown.lean ====
section
/-! DEFINITION. Accounting at a boundary, slowdown, automatic re-slices and operator bounds (chapter 15). -/

namespace Sys2Proof.Machine

def State.acct (s : State) (n : Nat) : Account := fget (fun _ => ({} : Account)) s.sch.acct n

/-! ### Accounting (R556 to R560) -/

/-- The energy of a slice's activities in pJ (Table 15-5). -/
def activity (u : SliceUse) : Nat :=
  u.cycles * 800 + u.ksteps * 1900 + u.hbm * 30 + u.commons * 2 + u.host * 10 + u.ring * 15 + u.engCycles * 200

/-- The part of the residual that this much class 0 time receives (R559). -/
def residualShare (residual classNs tickNs : Nat) : Nat := residual * classNs / (48 * max tickNs 1)

/-- A measured fraction in units of 1/65,536, capped (R562). -/
def fraction (f : Nat × Nat) : Nat := min 65535 (65536 * f.1 / max f.2 1)

/-- Charge one slice for the tick that ends. -/
def State.charge1 (s : State) (residual tickNs : Nat) (u : SliceUse) : State :=
  s.modAcct u.vf (fun a => { a with
    engineNs := (List.range 8).map (fun i => a.engineNs.getD i 0 + u.engineNs.getD i 0)
    hbm := a.hbm + u.hbm, commons := a.commons + u.commons, host := a.host + u.host, ring := a.ring + u.ring
    energy := a.energy + activity u + residualShare residual (u.engineNs.getD 0 0) tickNs
    busy := u.busy, fIssue := fraction u.issue, fMem := fraction u.mem, fEng := fraction u.eng })

/-- The tick's charges, to the slices and to the unattributed record (R557 to R559). `idle` is the class 0 time of
cycles in which no slice ran, `input` the measured input energy in pJ. -/
def State.chargeTick (s : State) (uses : List SliceUse) (idle input tickNs : Nat) : State :=
  let us := uses.filter (fun u => s.sliceState u.vf != 0)
  let residual := input - us.foldl (fun t u => t + activity u) 0
  let s1 := us.foldl (fun s u => s.charge1 residual tickNs u) s
  s1.modAcct 0 (fun a => { a with
    engineNs := (List.range 8).map (fun i => a.engineNs.getD i 0 + (if i = 0 then idle else 0))
    energy := a.energy + residualShare residual idle tickNs })

/-- The counters as ACCT_READ shows them until the next boundary (R560). -/
def State.acctSample (s : State) : State :=
  { s with sch := { s.sch with acctAt := s.sch.acct, acctTick := s.tickCount, acctTai := if s.timeValid then s.tickTime else 0 } }

/-! ### Automatic re-slices (R565) -/

/-- Clusters in no layout of the list. -/
def State.spareClusters (s : State) (held : List Held) : Nat :=
  Nat.land s.usableClusters (Nat.xor (2 ^ 48 - 1)
    (Nat.lor s.draining (held.foldl (fun m h => Nat.lor m h.lay.clusters) 0)))

/-- The highest cluster of a mask. -/
def topCluster (m : Nat) : Nat := ((bitList m 48).getLast?).getD 0

/-- Taking cluster `c` would set a windowed slice beside one that an RT entry names (R493). -/
def State.breaks493 (s : State) (held : List Held) (n c : Nat) : Bool :=
  held.any (fun h => h.vf != n && tst h.lay.clusters c && ((s.windowed n && s.rtNamed h.vf) || (s.windowed h.vf && s.rtNamed n)))

/-- The donor of a cluster for VF `n`: the slice with the lowest AVG among those that may give one; ties to the lower VF. -/
def State.donor (s : State) (held : List Held) (n : Nat) : Option Held :=
  let l := held.filter (fun h => h.vf != n && s.sliceState h.vf != 5 && (s.slice h.vf).gone.isNone &&
    decide (s.fld (F.SLC_S_BOUNDS_MIN_CLUSTERS h.vf) < popCount h.lay.clusters 48) && !s.rtNamed h.vf &&
    !s.breaks493 (held.filter (fun k => k.vf != h.vf)) n (topCluster h.lay.clusters))
  l.find? (fun h => l.all (fun k => decide ((s.acct h.vf).avg < (s.acct k.vf).avg ∨
    ((s.acct h.vf).avg = (s.acct k.vf).avg ∧ h.vf ≤ k.vf))))

/-- Give cluster `c` to VF `n` in a list of layouts, and take it from VF `d`. -/
def moveCluster (held : List Held) (n c d : Nat) : List Held :=
  held.map (fun h =>
    if h.vf = n then { h with lay := { h.lay with clusters := Nat.lor h.lay.clusters (2 ^ c) } }
    else if h.vf = d then { h with lay := { h.lay with clusters := Nat.land h.lay.clusters (Nat.xor (2 ^ 48 - 1) (2 ^ c)) } }
    else h)

/-- One more cluster for VF `n`: the lowest-numbered free one, else a donor's highest: the layouts, the cluster and the
donor, 0 for none. -/
def State.takeCluster (s : State) (held : List Held) (n : Nat) : Option (List Held × Nat × Nat) :=
  match lowBit (s.spareClusters (held ++ s.goneHeld)) 48 with
  | some c => some (moveCluster held n c 0, c, 0)
  | none => (s.donor held n).map (fun h => let c := topCluster h.lay.clusters; (moveCluster held n c h.vf, c, h.vf))

/-- The layout of VF `n` in a list. -/
def layIn (held : List Held) (n : Nat) : Layout := match held.find? (fun h => h.vf == n) with | some h => h.lay | none => {}

/-- The quota a re-slice adds, in 2 MiB units (R565 step 2). -/
def State.hbmRaise (s : State) (held : List Held) (n : Nat) (l : Layout) : Nat :=
  let q := l.hbm
  if 10 * s.charge n < 9 * q then 0
  else min (q / 10) (min (s.freeHbm held) ((s.reg (R.SLC_B_MAX_HBM n)).toNat - q))

/-- The commons units a re-slice adds: as many as fit in place, at most 16 (R337, R565 step 3). -/
def State.commonsRaise (s : State) (held : List Held) (n : Nat) (l : Layout) (base : Nat) : Nat :=
  let a := s.acct n
  let most := min 16 ((s.reg (R.SLC_B_MAX_COMMONS n)).toNat - l.commons)
  if a.fMem < a.fIssue || a.fMem < a.fEng then 0
  else (((List.range (most + 1)).filter (fun k =>
    k == 0 || (s.newBase (held ++ s.goneHeld) n { l with commons := l.commons + k } l.commons base).isSome)).getLast?).getD 0

/-- What a slowdown event did: ACTION, DONOR_VF, EFFECTIVE_TICK and what was added (Table 15-8). -/
structure Reslice where
  action : Nat
  donor : Nat := 0
  tick : Nat := 0
  clusters : Nat := 0
  hbm : Nat := 0
  commons : Nat := 0
deriving DecidableEq, Repr

/-- A change of a slice's layout two ticks from now, as a SLICE_RESIZE makes it. -/
def State.acceptReslice (s : State) (n : Nat) (l : Layout) (base : Nat) : State :=
  (s.setSlice n 3).accept ⟨2, n, s.tickCount + 2, l, 0, base⟩

/-- The re-slice of R565 for VF `n`: the state with its change pending, and the outcome. -/
def State.autoReslice (s : State) (n : Nat) : State × Reslice :=
  let held := s.projected
  let l0 := layIn held n
  let base0 := match held.find? (fun h => h.vf == n) with | some h => h.base | none => 0
  if (s.pendingOf n).isSome then (s, { action := 4 })
  else if s.sliceState n != 2 || s.tenancy != 2 then (s, { action := 3 })
  else
    let want := decide (popCount l0.clusters 48 < s.fld (F.SLC_S_BOUNDS_MAX_CLUSTERS n))
    let t := if want then s.takeCluster held n else none
    let (held1, c, d) := t.getD (held, 48, 0)
    let l1 := layIn held1 n
    let hb := s.hbmRaise (held1 ++ s.goneHeld) n l1
    let cm := s.commonsRaise held1 n l1 base0
    let l2 : Layout := { l1 with hbm := l1.hbm + hb, commons := l1.commons + cm }
    if t.isNone && hb == 0 && cm == 0 then (s, { action := if want then 3 else 2 })
    else
      let rest := (held1.filter (fun h => h.vf != n)) ++ s.goneHeld
      let bad := clusterClash s.usableClusters n l2 rest || s.clusterLimits n l2 rest ||
        (d != 0 && (s.pendingOf d).isSome) || (s.outOfBounds n l2).isSome || s.recovering
      match s.newBase (held1 ++ s.goneHeld) n l2 l1.commons base0 with
      | none => (s, { action := 3 })
      | some b =>
        if bad then (s, { action := 3 })
        else
          let s1 := if d = 0 then s else
            (match held1.find? (fun h => h.vf == d) with | some h => s.acceptReslice d h.lay h.base | none => s)
          let s2 := (s1.acceptReslice n l2 b).bump F.SCH_CNT_RESLICE_COUNT
          (s2, { action := 1, donor := d, tick := s.tickCount + 2, clusters := if t.isSome then 2 ^ c else 0, hbm := hb, commons := cm })

/-! ### Slowdown (R563, R564) -/

/-- SLOWDOWN of a tick from its largest fraction (R563). -/
def slowdownOf (f : Nat) : Nat := min 65535 (16777216 / (65536 - f))

/-- A slowdown event of VF `n`: the action is taken and the notice is pending (R564). -/
def State.slowdownEvent (s : State) (n : Nat) : State :=
  let (s1, r) := if s.fld (F.SCH_SD_STATE_ACTION n) = 1 && s.bit (F.SLC_S_BOUNDS_AUTO n) then s.autoReslice n
    else (s, { action := 0 })
  { s1 with sch := { s1.sch with
      sdPend := fset (fun _ => 0) s1.sch.sdPend n 1
      sdLast := fset (fun _ => []) s1.sch.sdLast n [r.action, r.donor, r.tick, r.clusters, r.hbm, r.commons, s1.tickCount] } }

/-- Slowdown, average and persistence of one slice for the tick that ends (R563, R564). -/
def State.slowdown1 (s : State) (tickNs : Nat) (u : SliceUse) : State :=
  let n := u.vf
  let sd := slowdownOf (max (fraction u.issue) (max (fraction u.mem) (fraction u.eng)))
  if s.sliceState n = 0 || 10 * u.busy < tickNs then s
  else
    let s1 := (s.modAcct n (fun a => { a with slowdown := sd, avg := (7 * a.avg + sd) / 8 })).setFld (F.SCH_SD_STATE_SLOWDOWN n) sd
    let th := s1.fld (F.SCH_SD_CFG_THRESHOLD n)
    let p := if th ≤ sd then fget (fun _ => 0) s1.sch.persist n + 1 else 0
    let put := fun (s : State) (v : Nat) => { s with sch := { s.sch with persist := fset (fun _ => 0) s.sch.persist n v } }
    if th = 0 then s1
    else if th ≤ sd && s1.fld (F.SCH_SD_CFG_PERSIST n) ≤ p then (put s1 0).slowdownEvent n
    else put s1 p

/-- Charges, slowdown and the sample of one boundary, in that order (R556 to R565). -/
def State.accountTick (s : State) (uses : List SliceUse) (idle input tickNs : Nat) : State :=
  let s1 := s.chargeTick uses idle input tickNs
  (uses.foldl (fun s u => s.slowdown1 tickNs u) s1).acctSample

/-- SLOWDOWN_NOTICE_POST: on an idle slot 1,009 the notice of the lowest pending VF is posted with current values (R564,
Table 15-8). -/
def execSlowdownNoticePost (s : State) : Res :=
  match vfs.find? (fun n => fget (fun _ => 0) s.sch.sdPend n == 1) with
  | none => .next s
  | some n =>
    if s.slotState 1009 ≠ 0 || s.frozen then .next s
    else
      let a := s.acct n
      let r := fget (fun _ => []) s.sch.sdLast n
      let p := leBytes 1 n ++ leBytes 1 (r.getD 0 0) ++ leBytes 2 (s.fld (F.SCH_SD_STATE_SLOWDOWN n)) ++ leBytes 2 a.avg ++
        leBytes 2 0 ++ leBytes 8 (r.getD 6 0) ++ leBytes 2 a.fIssue ++ leBytes 2 a.fMem ++ leBytes 2 a.fEng ++
        leBytes 1 (r.getD 1 0) ++ leBytes 1 0 ++ leBytes 8 (r.getD 2 0) ++ leBytes 8 (r.getD 3 0) ++ leBytes 4 (r.getD 4 0) ++
        leBytes 4 (r.getD 5 0)
      .next ((({ s with sch := { s.sch with sdPend := fset (fun _ => 0) s.sch.sdPend n 0 } } : State)).postNotice 1009 2 n p)

/-! ### Operator bounds (R566) -/

/-- Clusters of a layout cut to at most `m`, from the highest number down. -/
def cutClusters : Nat → Nat → Nat → Nat
  | 0, _, c => c
  | fuel + 1, m, c => if m < popCount c 48 then cutClusters fuel m (c - 2 ^ topCluster c) else c

/-- Clusters added to VF `n` until it holds `m`; the layouts, and whether that was reached. -/
def State.addClusters (s : State) (n m : Nat) : Nat → List Held → List Held × Bool
  | 0, held => (held, false)
  | fuel + 1, held =>
    if m ≤ popCount (layIn held n).clusters 48 then (held, true)
    else match s.takeCluster held n with
      | none => (held, false)
      | some (held1, c, d) =>
        let rest := (held1.filter (fun h => h.vf != n)) ++ s.goneHeld
        if clusterClash s.usableClusters n (layIn held1 n) rest || s.breaks493 rest n c || (d != 0 && (s.pendingOf d).isSome) then (held, false)
        else s.addClusters n m fuel held1

/-- The layouts after bringing VF `n`'s slice inside its bounds as far as each step can be taken, and whether all could. -/
def State.boundLayouts (s : State) (n : Nat) : List Held × Bool :=
  let held := s.projected
  let l := layIn held n
  let mx := s.fld (F.SLC_S_BOUNDS_MAX_CLUSTERS n)
  let excess := decide (mx < popCount l.clusters 48)
  let set := fun (hs : List Held) (f : Layout → Layout) => hs.map (fun h => if h.vf = n then { h with lay := f h.lay } else h)
  let (h1, ok1) := if excess then
      (if s.rtNamed n then (held, false) else (set held (fun l => { l with clusters := cutClusters 48 mx l.clusters }), true))
    else s.addClusters n (s.fld (F.SLC_S_BOUNDS_MIN_CLUSTERS n)) 48 held
  let cm := (s.reg (R.SLC_B_MAX_COMMONS n)).toNat
  let h2 := set h1 (fun l => { l with commons := min l.commons cm })
  let hm := (s.reg (R.SLC_B_MAX_HBM n)).toNat
  if hm < l.hbm && hm < s.charge n then (h2, false)
  else (set h2 (fun l => { l with hbm := min l.hbm hm }), ok1)

/-- BOUNDS_ENFORCE: at a boundary at least 2 ticks after SLICE_BOUNDS_SET with no change pending for it, a slice outside
its bounds is brought inside them; a step that cannot be taken is tried again, its failure logged once (R192, R566).
`cycles` is the longest migration of one source cluster. -/
def execBoundsEnforce (n cycles : Nat) (s : State) : Res :=
  let x := s.slice n
  if s.frozen || n = 0 || 63 < n || x.boundsAt = 0 || s.tickCount < x.boundsAt || s.sliceState n ≠ 2 ||
      (s.pendingOf n).isSome || s.tenancy != 2 then .next s
  else
    let (held, ok) := s.boundLayouts n
    let ch := held.filter (fun h => !s.projected.contains h)
    let s1 := ch.foldl (fun s h => s.reshape h.vf h.lay h.base cycles) s
    let s2 := if ch.isEmpty then s1 else s1.bump F.SCH_CNT_RESLICE_COUNT
    if ok then .next (s2.modSlice n (fun x => { x with boundsAt := 0 }))
    else
      let s3 := if x.boundsLogged then s2 else s2.log 0x0806 2 n 0xFFFF 0 0
      .next (s3.modSlice n (fun x => { x with boundsLogged := true }))

end Sys2Proof.Machine
end

