-- ==== Sys2Proof/Machine/Boundary.lean ====
section
/-! DEFINITION. The tick boundary (chapters 02, 15 to 18), and writes of registers that have no command of their own
(chapters 00, 06 and 23). -/

namespace Sys2Proof.Machine

/-! ### The boundary -/

/-- PF0 is in D3hot: from this boundary dispatch stands still, and an exclusive job is pre-empted with the rest (R125). -/
def State.d3Boundary (s : State) : State :=
  if s.pwr.pf0D3 && !s.pwr.dispatchOff then
    let s1 : State := { s with pwr := { s.pwr with dispatchOff := true } }
    if s1.exclJob.isSome then { s1 with sch := { s1.sch with excl := none, running := [] } } else s1
  else s

/-- TICK_BOUNDARY: the count advances; the reference state machine, the holds, the slots, the accounts, Campion and the
converters, the markers and the announcements take their turn (R71, R61, R76, R536, R557 to R564, R617, R637, R671, R673,
R765). `pe` and `se` are the phase errors of the two references, `uses`, `idle` and `input` what was measured in the tick
that ends. Changes due at the boundary are commands of their own. -/
def execTickBoundary (pe se : Int) (uses : List SliceUse) (idle input : Nat) (s : State) : Res :=
  if !s.tick.running || s.frozen || s.pwr.mode != .on then .next s
  else
    let old := s.tickCount
    let s1 := ((s.markSlots.markWaits old).markBlocks old).sourcesApply.tickAdvance pe se
    let s2 := (s1.holdBoundary.d3Boundary.schedBoundary (old + 1) (s.fld F.TCK_PERIOD_PERIOD)).accountTick uses idle input s.periodNs
    let s3 := s2.diesTick.markersSend.announceBoundary
    .next { s3 with pwr := { s3.pwr with vfResume := 0 } }

/-! ### Register writes -/

/-- A write of `v` acts on each field as its access code says (Table 00-3): RW takes it, W1C clears where it is 1, the
others and Reserved bits keep what they hold. -/
def writeFields (flds : List (Nat × Nat × Acc)) (old v : Nat) : Nat :=
  flds.foldl (fun w f =>
    match f.2.2 with
    | .rw => setBits w f.1 f.2.1 (bitsOf v f.1 f.2.1)
    | .w1c => setBits w f.1 f.2.1 (Nat.land (bitsOf old f.1 f.2.1) (2 ^ (f.1 + 1 - f.2.1) - 1 - bitsOf v f.1 f.2.1))
    | _ => w) old

/-- Settings whose register says how a value out of range reads (Tables 06-9, 16-7, 18-8, 21-8). -/
def settingOf (a v : Nat) : Nat :=
  if 0x481010 ≤ a && a < 0x481400 && a % 16 == 0 then min v 4096
  else if 0x100000000 ≤ a && decide (0x2000 ≤ a % 0x100000000 ∧ a % 0x100000000 < 0x2400) && a % 64 == 0x28 then min v 1000
  else if 0x780600 ≤ a && a < 0x780800 && a % 16 == 12 then max v 1
  else if a = R.EVR_CTRL then setBits v 2 0 (min (bitsOf v 2 0) 4)
  else v

/-- A write of this register is a command of its own. -/
def ownRow (a : Nat) : Bool :=
  [R.EXM_CTRL, R.CMP_GRANT 0, R.CMP_GRANT 1, R.SNS_GRANT 0, R.SNS_GRANT 1, R.EWB_ADMIT, R.EWB_REMOVE, R.FLT_INJECT].contains a ||
    (decide (0x801000 ≤ a ∧ a < 0x802000) && a % 256 == 0) ||
    (decide (0x100000000 ≤ a) && decide (0x2000 ≤ a % 0x100000000 ∧ a % 0x100000000 < 0x2400) && a % 64 == 0)

/-- Queue settings are not written while the queue is enabled or quiescing (R218, R220). -/
def State.queueLocked (s : State) (a : Nat) : Bool :=
  let n := a / 0x100000000
  let o := a % 0x100000000
  let q := (o - 0x2000) / 64
  n != 0 && decide (0x2000 ≤ o ∧ o < 0x2400) && decide (8 ≤ o % 64 ∧ o % 64 < 0x28) &&
    (s.qEnabled n q || !s.bit (F.QIF_Q_STATUS_QUIESCED n q))

/-- A write of a dword of function `fn`'s MSI-X table at offset `o`: dword 3 of an entry holds the Mask bit, and a vector
that is unmasked sends what it held (PCIe, log entry 9). -/
def State.msixWrite (s : State) (a fn o : Nat) (v : Word) : State :=
  if o % 16 ≠ 12 then s.setReg a (if o % 16 = 0 then BitVec.ofNat 32 (v.toNat / 4 * 4) else v)
  else
    let k := 32 * fn + o / 16
    let p := fget (fun _ => ({} : MsixPace)) s.exm.msix k
    ({ s with exm := { s.exm with msix := fset (fun _ => {}) s.exm.msix k { p with masked := tst v.toNat 0 } } } : State).msixRelease fn

/-- REGISTER_WRITE: function `fn` (0 PF0, n VF n) writes a register of its own BAR0 with all 4 byte enables (R9, R218, R220,
R768, R769). A write of an offset the map does not assign, or of a unit that is not fitted, is ignored. -/
def execRegisterWrite (fn a : Nat) (v : Word) (s : State) : Res :=
  if a / 0x100000000 ≠ fn || a % 4 != 0 || s.pwr.mode != .on || s.unfitted a || ownRow a || s.queueLocked a then .next s
  else match msixTable a with
    | some (f, o) => .next (s.msixWrite a f o v)
    | none =>
      match regRowAt a with
      | none => .next s
      | some r =>
        if 0x780100 ≤ a && a < 0x780300 && a % 16 == 0 then
          .next (s.portCtrl ((a - 0x780100) / 0x100) (a % 0x100 / 16) v)
        else .next (s.setReg a (BitVec.ofNat 32 (settingOf a (writeFields r.flds (s.reg a).toNat v.toNat))))

end Sys2Proof.Machine
end

