-- ==== Sys2Proof/Machine/Mctp.lean ====
section
/-! DEFINITION. The MCTP endpoint with its PLDM subset (R207 to R209, Tables 05-4 and 05-12). Codes and layouts are those of
DSP0236, DSP0240, DSP0248 and DSP0257 (PRESUMED, log entry 31). `m` is the medium: 0 I3C, 1 PF0 vendor-defined messages. -/

namespace Sys2Proof.Machine

/-- Answer a message on medium `m`. -/
def State.mctpDo (s : State) (m : Nat) (f : State → State) : Res :=
  if s.pwr.mode != .on || 1 < m then .next s else .next (f s)

/-- An MCTP control response: type 0, command, completion code and data. -/
def State.control (s : State) (m cmd cc : Nat) (d : List Byte) : State :=
  s.emit (.mctp m (leBytes 1 0 ++ leBytes 1 cmd ++ leBytes 1 cc ++ d))

/-- A PLDM response: type 1, PLDM type, command, completion code and data. -/
def State.pldm (s : State) (m ty cmd cc : Nat) (d : List Byte) : State :=
  s.emit (.mctp m (leBytes 1 1 ++ leBytes 1 ty ++ leBytes 1 cmd ++ leBytes 1 cc ++ d))

/-- The endpoint ID on medium `m`; 0 is none. -/
def State.eid (s : State) (m : Nat) : Nat := fget (fun _ => 0) s.eng.eids m

/-- SET_ENDPOINT_ID: operations 0 and 1 set the ID of the medium. -/
def execSetEndpointId (m op eid : Nat) (s : State) : Res :=
  s.mctpDo m (fun s =>
    if 1 < op || eid < 8 || 254 < eid then s.control m 1 2 []
    else ({ s with eng := { s.eng with eids := fset (fun _ => 0) s.eng.eids m eid } } : State).control m 1 0
      (leBytes 1 0 ++ leBytes 1 eid ++ leBytes 1 0))

/-- GET_ENDPOINT_ID. -/
def execGetEndpointId (m : Nat) (s : State) : Res :=
  s.mctpDo m (fun s => s.control m 2 0 (leBytes 1 (s.eid m) ++ leBytes 2 0))

/-- GET_ENDPOINT_UUID. -/
def execGetEndpointUuid (m : Nat) (s : State) : Res := s.mctpDo m (fun s => s.control m 3 0 (fitTo 16 Config.uuid))

/-- GET_MCTP_VERSION_SUPPORT: one version for the types answered. -/
def execGetMctpVersionSupport (m ty : Nat) (s : State) : Res :=
  s.mctpDo m (fun s =>
    if ty = 0 || ty = 1 || ty = 0xFF then s.control m 4 0 (leBytes 1 1 ++ [0x00, 0xFF, 0xF3, 0xF1]) else s.control m 4 0x80 [])

/-- GET_MESSAGE_TYPE_SUPPORT: MCTP control and PLDM. -/
def execGetMessageTypeSupport (m : Nat) (s : State) : Res := s.mctpDo m (fun s => s.control m 5 0 [2, 0, 1])

/-- SETTID: the terminus ID is set. -/
def execSettid (m tid : Nat) (s : State) : Res :=
  s.mctpDo m (fun s =>
    if tid = 0 || 254 < tid then s.pldm m 0 1 2 [] else ({ s with eng := { s.eng with tid := tid } } : State).pldm m 0 1 0 [])

/-- GETTID. -/
def execGettid (m : Nat) (s : State) : Res := s.mctpDo m (fun s => s.pldm m 0 2 0 (leBytes 1 s.eng.tid))

/-- The PLDM types answered and their commands (Table 05-4). -/
def pldmCommands (ty : Nat) : List Nat :=
  match ty with
  | 0 => [1, 2, 3, 4, 5]
  | 2 => [0x11, 0x21, 0x50, 0x51]
  | 4 => [1, 2]
  | _ => []

/-- GETPLDMVERSION of a type: 1.0.0, or INVALID_PLDM_TYPE. -/
def execGetpldmversion (m ty : Nat) (s : State) : Res :=
  s.mctpDo m (fun s =>
    if (pldmCommands ty).isEmpty then s.pldm m 0 3 0x83 []
    else s.pldm m 0 3 0 (leBytes 4 0 ++ leBytes 1 5 ++ [0x00, 0xF0, 0xF0, 0xF1]))

/-- GETPLDMTYPES: types 0, 2 and 4. -/
def execGetpldmtypes (m : Nat) (s : State) : Res := s.mctpDo m (fun s => s.pldm m 0 4 0 (leBytes 8 0b10101))

/-- GETPLDMCOMMANDS of a type, as a 256-bit mask. -/
def execGetpldmcommands (m ty : Nat) (s : State) : Res :=
  s.mctpDo m (fun s =>
    if (pldmCommands ty).isEmpty then s.pldm m 0 5 0x83 []
    else s.pldm m 0 5 0 (leBytes 32 ((pldmCommands ty).foldl (fun t c => t + 2 ^ c) 0)))

/-- A numeric sensor's reading, none while it is unavailable; and whether the sensor exists (Table 05-12). The PWR_TEMP
registers hold die 0, die 1, host die, then stacks 0 to 7. -/
def State.sensor (s : State) (id : Nat) : Option (Option Nat) :=
  if id = 1 then some (some (s.fld F.PWR_INPUT_POWER_100MW / 10))
  else if id = 2 then some (some (s.fld F.PWR_INPUT_VOLT_10MV))
  else if 3 ≤ id && id ≤ 13 then
    some (if s.bit (F.PWR_TEMP_VALID (id - 3)) then some (s.fld (F.PWR_TEMP_DEG_C (id - 3))) else none)
  else none

/-- GETSENSORREADING: operational state 0 enabled, 2 unavailable; a 32-bit reading. -/
def execGetsensorreading (m id : Nat) (s : State) : Res :=
  s.mctpDo m (fun s =>
    match s.sensor id with
    | none => s.pldm m 2 0x11 0x80 []
    | some r => s.pldm m 2 0x11 0 (leBytes 1 4 ++ leBytes 1 (if r.isSome then 0 else 2) ++ leBytes 4 0 ++
        leBytes 4 (match r with | some v => if 3 ≤ id then unsgn 32 (sgn 8 v) else v | none => 0)))

/-- A state sensor's reading (Table 05-12). During a hold the spec names no cause: the reading is then 1 or 2. -/
def State.stateSensor (s : State) (id : Nat) : Option Nat :=
  if id = 20 then some (if s.fld F.PWR_STATUS_LIMIT = 3 then 1 + s.free.toNat % 2 else s.fld F.PWR_STATUS_LIMIT)
  else if id = 21 then some (s.fld F.SLC_TEN_STATUS_STATE)
  else if id = 22 then some (if s.frozen then 1 else if s.diagOnly then 2 else 0)
  else none

/-- GETSTATESENSORREADINGS. -/
def execGetstatesensorreadings (m id : Nat) (s : State) : Res :=
  s.mctpDo m (fun s =>
    match s.stateSensor id with
    | none => s.pldm m 2 0x21 0x80 []
    | some v => s.drawn.pldm m 2 0x21 0 (leBytes 1 1 ++ leBytes 1 0 ++ leBytes 1 v ++ leBytes 1 0 ++ leBytes 1 v))

/-- The sensors of Table 05-12, in order of their PDR handles. -/
def sensorIds : List Nat := [1, 2, 3, 4, 5, 6, 7, 8, 9, 10, 11, 12, 13, 20, 21, 22]

/-- GETPDRREPOSITORYINFO: available, one record for each sensor. -/
def execGetpdrrepositoryinfo (m : Nat) (s : State) : Res :=
  s.mctpDo m (fun s => s.pldm m 2 0x50 0 (leBytes 1 0 ++ leBytes 26 0 ++ leBytes 4 sensorIds.length))

/-- GETPDR of record handle `h` (0 the first). -/
def execGetpdr (m h : Nat) (s : State) : Res :=
  s.mctpDo m (fun s =>
    let k := if h = 0 then 1 else h
    match sensorIds[k - 1]? with
    | none => s.pldm m 2 0x51 0x82 []
    | some id =>
      let r := Config.pdr id
      s.pldm m 2 0x51 0 (leBytes 4 (if k < 16 then k + 1 else 0) ++ leBytes 4 0 ++ leBytes 1 5 ++ leBytes 2 r.length ++ r))

/-- One ASCII FRU field. -/
def fruField (ty : Nat) (v : List Byte) : List Byte := leBytes 1 ty ++ leBytes 1 v.length ++ v

/-- ASCII of a string. -/
def asciiOf (t : String) : List Byte := t.toList.map (fun c => BitVec.ofNat 8 c.toNat)

/-- A number as eight hexadecimal digits. -/
def hex8 (n : Nat) : List Byte :=
  (List.range 8).map (fun k => let d := n / 16 ^ (7 - k) % 16; BitVec.ofNat 8 (if d < 10 then 48 + d else 55 + d))

/-- The one General FRU record: manufacturer, product, part number, serial, version, assembly name. -/
def State.fruTable (s : State) : List Byte :=
  leBytes 2 1 ++ leBytes 1 1 ++ leBytes 1 6 ++ leBytes 1 1 ++ fruField 5 (asciiOf "Quinren") ++
    fruField 2 (asciiOf "Glogalas Joivo") ++ fruField 3 Config.partNumber ++
    fruField 4 (hex8 (s.fused.serial / 2 ^ 32) ++ hex8 s.fused.serial) ++ fruField 10 (hex8 (s.fused.moduleRev % 65536)) ++
    fruField 8 (hex8 (s.reg R.ID_SITES).toNat)

/-- GETFRURECORDTABLEMETADATA. -/
def execGetfrurecordtablemetadata (m : Nat) (s : State) : Res :=
  s.mctpDo m (fun s => s.pldm m 4 1 0 (leBytes 2 1 ++ leBytes 4 s.fruTable.length ++ leBytes 4 s.fruTable.length ++
    leBytes 2 1 ++ leBytes 2 1 ++ leBytes 4 (crc32c s.fruTable)))

/-- GETFRURECORDTABLE. -/
def execGetfrurecordtable (m : Nat) (s : State) : Res :=
  s.mctpDo m (fun s => s.pldm m 4 2 0 (leBytes 4 0 ++ leBytes 1 5 ++ s.fruTable))

/-- MCTP_OTHER_MESSAGE: a request on a medium still busy with the last one is dropped and counted; another PLDM command
gets ERROR_UNSUPPORTED_PLDM_CMD; another message type is discarded (R207, R208). -/
def execMctpOtherMessage (m type ty cmd : Nat) (busy : Bool) (s : State) : Res :=
  s.mctpDo m (fun s =>
    if busy then s.bump F.CMD_CNT_MCTP_DROP_COUNT
    else if type = 1 && !(pldmCommands ty).contains cmd then s.pldm m ty cmd 5 []
    else s)

end Sys2Proof.Machine
end

