-- ==== Sys2Proof/Machine/Reads.lean ====
section
/-! DEFINITION. Register reads through a BAR (R75, R768 to R770). -/

namespace Sys2Proof.Machine

/-- What a read of register `a` returns; SEQ_S_POOL counts the free pages of the slice's area (Table 16-7). -/
def State.viewReg (s : State) (a : Nat) : Word :=
  if 0x481010 ≤ a && a < 0x481400 && a % 16 == 8 then
    let n := (a - 0x481000) / 16
    if s.activated n then BitVec.ofNat 32 (s.freePages n).length else 0
  else s.readReg a

/-- Key of the latch of register `a` for requester `fn`. -/
def latchKey (fn a : Nat) : Nat := fn * 2 ^ 40 + a

/-- Latch register `a`'s value now for requester `fn`. -/
def State.latchReg (s : State) (fn a : Nat) : State :=
  { s with latch := fset (fun _ => 0) s.latch (latchKey fn a) ((s.viewReg a).toNat + 1) }

/-- Register `a` is the LO register of a pair (R75). -/
def isLo (a : Nat) : Bool := loRows.any (fun r => r.has a)

/-- Register `a` is a HI register, or one that a read of CAL_DATE latches. -/
def isHi (a : Nat) : Bool := (decide (4 ≤ a) && isLo (a - 4)) || a == R.CAL_TIME || a == R.CAL_SUBSEC

/-- What requester `fn` reads at `a`: a HI register gives what was latched for it, or its current value where nothing
was (R75, R770). -/
def State.readBy (s : State) (fn a : Nat) : Word :=
  let held := fget (fun _ => 0) s.latch (latchKey fn a)
  if isHi a && held != 0 then BitVec.ofNat 32 (held - 1) else s.viewReg a

/-- What a read of `a` latches: a LO register its HI register, CAL_DATE the other two of its group (R75). -/
def State.latchFor (s : State) (fn a : Nat) : State :=
  if isLo a then s.latchReg fn (a + 4)
  else if a = R.CAL_DATE then (s.latchReg fn R.CAL_TIME).latchReg fn R.CAL_SUBSEC
  else s

/-- One aligned 32-bit read of register `a` by requester `fn`: what it returns, after what it latches; 0 outside the
requester's own BAR0. -/
def State.readOne (s : State) (fn a : Nat) : Word × State :=
  if a / 0x100000000 = fn then ((s.readBy fn a), (s.latchFor fn a).drawn) else (0, s)

/-- LO_REGISTER_READ: requester `fn` (0 PF0, n VF n) reads 4 bytes of its own BAR0 from `a` on (R75, R769, R770). An access
that is not aligned is the two aligned ones it covers, the lower first, each giving the bytes it has in common with it.
Nothing is read while the module is not powered. -/
def execLoRegisterRead (fn a : Nat) (s : State) : Res :=
  if a / 0x100000000 ≠ fn || s.pwr.mode != .on then .next s
  else
    let k := a % 4
    let lo := s.readOne fn (a - k)
    if k = 0 then .next (lo.2.emit (.regData fn lo.1))
    else
      let hi := lo.2.readOne fn (a - k + 4)
      .next (hi.2.emit (.regData fn (BitVec.ofNat 32 ((lo.1.toNat + 2 ^ 32 * hi.1.toNat) / 2 ^ (8 * k)))))

end Sys2Proof.Machine
end

