-- ==== Sys2Proof/Machine/Observe.lean ====
section
/-! DEFINITION. The FREEZE and THAW commands and the observer (chapter 22): OBSERVE_READ and the TAP's OBS_DATA. -/

namespace Sys2Proof.Machine

/-! ### FREEZE and THAW (R204) -/

/-- FREEZE: the local freeze is complete after `ns`; SCOPE 1 also sends freeze symbols, on a frozen part too (R204, R743,
R747). -/
def execFreeze (ns : Nat) (ups : Upsets) (s : State) : Res :=
  s.command 0x0801 ups (fun c s =>
    if 1 < c.arg 8 1 then s.no 0x11 8
    else
      let s1 := s.freezeReq 2 (c.arg 8 1 == 1)
      if s1.fld F.FRZ_STATUS_STATE ≠ 1 then s1.ok []
      else
        let s2 := (s1.setFld F.FRZ_STATUS_STATE 2).setFld F.FRZ_LAST_LOCAL_NS (min ns 2047)
        (if s2.frz.thawPending = 0 then s2 else s2.thawStart s2.frz.thawPending).ok [])

/-- THAW: a part that is not frozen ends with BAD_STATE (R204, R748). -/
def execThaw (ups : Upsets) (s : State) : Res :=
  s.command 0x0802 ups (fun c s =>
    if 1 < c.arg 8 1 then s.no 0x11 8
    else if s.fld F.FRZ_STATUS_STATE ≠ 1 && s.fld F.FRZ_STATUS_STATE != 2 then s.no 0x15 0
    else
      let s1 := s.thawReq 2
      (if c.arg 8 1 = 1 then s1.sendFrz 0x0A else s1).ok [])

/-! ### Objects (Table 22-4) -/

/-- Number of indexes and size of an object; none for an unknown one. -/
def obsObject (o : Nat) : Option (Nat × Nat) :=
  match o with
  | 0x01 => some (1, 0x4000000)
  | 0x02 => some (2, 0x10000)
  | 0x10 => some (48, 0xD0000)
  | 0x11 => some (96, 0x4400)
  | 0x12 => some (2, 0x8000000)
  | 0x13 => some (8, 0x600000000)
  | 0x14 => some (512, 0x18B00)
  | 0x15 => some (29, 0x1F800)
  | _ => none

/-- The byte at offset `o` of an object is data plane. -/
def obsData (obj o : Nat) : Bool :=
  match obj with
  | 0x01 => false
  | 0x02 => false
  | 0x10 => !(decide (0xC0800 ≤ o ∧ o < 0xC0C00) && decide ((o - 0xC0800) % 128 < 16))
  | 0x15 => decide (4 ≤ o % 64)
  | _ => true

/-- The unit that an object shows is usable (R755). -/
def State.obsUsable (s : State) (obj idx : Nat) : Bool :=
  match obj with
  | 0x10 => tst s.usableClusters idx
  | 0x11 => tst s.usableClusters (idx / 2)
  | 0x12 => s.dieUp idx
  | 0x13 => s.stacks.contains idx
  | 0x14 => if idx < 256 then s.bit F.CMP_STATUS_USABLE0 else s.bit F.CMP_STATUS_USABLE1
  | 0x15 => tst (s.fld F.FFE_STATUS_USABLE) idx
  | _ => true

/-- What is wrong with a read of `n` bytes at `o`: DETAIL, the payload offset of the faulting field (R755). -/
def State.obsBad (s : State) (obj idx o n : Nat) : Option Nat :=
  match obsObject obj with
  | none => some 8
  | some (k, size) =>
    if k ≤ idx || (obj == 0x13 && !tst s.fused.stackFitted idx) then some 0xA
    else if size < o + n then some (if size ≤ o then 0xC else 0x10)
    else none

/-! ### A cluster (Table 22-9) -/

/-- Group slot, first register and first near-memory byte of what a context holds: the spec gives no placement. -/
def groupPlace (c j : Nat) (x : Ctx) (g : Nat) : Nat := 4 * (Config.place [0, c, j, x.launch, x.index, g] % 16) + g % 4
def regPlace (c j : Nat) (x : Ctx) (g : Nat) : Nat := Config.place [1, c, j, x.launch, x.index, g] % 512
def localPlace (c j : Nat) (x : Ctx) : Nat := Config.place [2, c, j, x.launch, x.index] % 0x80000

/-- The groups on a cluster: context slot, context, group. -/
def State.groupsIn (s : State) (c : Nat) : List (Nat × Ctx × Nat) :=
  ((s.onCluster c).map (fun (p : Nat × Ctx) => (List.range p.2.groups).map (fun g => (p.1, p.2, g)))).flatten

/-- The group in group slot `k`. -/
def State.groupIn (s : State) (c k : Nat) : Option (Nat × Ctx × Nat) :=
  (s.groupsIn c).find? (fun p => groupPlace c p.1 p.2.1 p.2.2 == k)

/-- Byte `i` of a list of bytes. -/
def byteOf (l : List Byte) (i : Nat) : Byte := l.getD i 0

/-- The 32 bytes of a group record. -/
def State.groupRecord (s : State) (c j : Nat) (x : Ctx) (g : Nat) : List Byte :=
  let y := x.group g
  let run : State := s.setFld F.FRZ_STATUS_STATE 0
  let ready := [false, true].any (fun h => match run.fetch c j g h with | some i => run.ready i | none => false)
  leBytes 4 y.pc0 ++ leBytes 4 (Nat.lor y.act0 y.act1) ++ leBytes 4 y.exited ++ leBytes 1 y.stack.length ++
    leBytes 1 (1 + 2 * b2n y.split + 4 * b2n ready) ++ leBytes 1 j ++ leBytes 1 0 ++ leBytes 2 (regPlace c j x g) ++
    leBytes 2 x.laneRegs ++ leBytes 4 (if x.windowed then y.windowState else 0) ++ leBytes 4 (if y.split then y.pc1 else 0) ++
    leBytes 4 0

/-- The 128 bytes of the record of context slot `j`. -/
def State.ctxRecord (s : State) (c j : Nat) : List Byte :=
  match fget (fun _ => none) s.yar.ctxs (8 * c + j) with
  | none => List.replicate 128 0
  | some x =>
    leBytes 4 ((s.viewCluster c (0x40 + 8 * j)).getD 0) ++ leBytes 4 (localPlace c j x) ++ leBytes 4 x.share ++ leBytes 4 0 ++
      ((List.range 16).map (fun k => leBytes 4 (fget (fun _ => 0) x.ctrs k))).flatten ++ List.replicate 48 0

/-- One mask-stack entry. -/
def MaskEntry.bytes (e : MaskEntry) : List Byte :=
  leBytes 1 e.kind ++ leBytes 1 e.owner ++ leBytes 2 0 ++ leBytes 4 e.rpc ++ leBytes 4 e.pc ++ leBytes 4 e.mask

/-- One store-buffer entry. -/
def SbEntry.image (e : SbEntry) : List Byte :=
  let held := (List.range 32).filter (fun i => fget (fun _ => 0) e.bytes i != 0)
  leBytes 8 (32 * e.sector) ++ leBytes 4 (held.foldl (fun m i => m + 2 ^ i) 0) ++ leBytes 1 (e.ctx % 8) ++
    List.replicate 19 0 ++ (List.range 32).map (fun i => BitVec.ofNat 8 (fget (fun _ => 0) e.bytes i - 1))

/-- Byte `o` of the CLUSTER object; `fr` where no context holds it. -/
def State.clusterByte (s : State) (c o : Nat) (fr : Byte) : Byte :=
  if o < 0x40000 then
    let r := o % 65536 / 128
    match (s.groupsIn c).find? (fun p => p.2.2 % 4 == o / 65536 &&
        decide (regPlace c p.1 p.2.1 p.2.2 ≤ r ∧ r < regPlace c p.1 p.2.1 p.2.2 + p.2.1.laneRegs)) with
    | some (j, x, g) =>
      byteOf (leBytes 4 (fget (fun _ => (0 : Word)) (x.group g).regs (32 * (r - regPlace c j x g) + o / 4 % 32)).toNat) (o % 4)
    | none => fr
  else if o < 0xC0000 then
    let a := o - 0x40000
    match (s.onCluster c).find? (fun p => decide (localPlace c p.1 p.2 ≤ a ∧ a < localPlace c p.1 p.2 + p.2.share)) with
    | some (j, x) => fget (fun _ => 0) x.store (a - localPlace c j x)
    | none => fr
  else if o < 0xC0800 then
    match s.groupIn c ((o - 0xC0000) / 32) with
    | some (j, x, g) => byteOf (s.groupRecord c j x g) (o % 32)
    | none => 0
  else if o < 0xC0C00 then byteOf (s.ctxRecord c ((o - 0xC0800) / 128)) ((o - 0xC0800) % 128)
  else if o < 0xC1000 then 0
  else if o < 0xC5000 then
    match s.groupIn c ((o - 0xC1000) / 256) with
    | some (_, x, g) => byteOf (leBytes 4 (fget (fun _ => (0 : Word)) (x.group g).unif (o % 256 / 4)).toNat) (o % 4)
    | none => fr
  else if o < 0xC6000 then
    match s.groupIn c ((o - 0xC5000) / 64) with
    | some (_, x, g) =>
      let t := o % 64 / 2
      let v := (List.range 15).foldl (fun m k => m + bitOf (fget (fun _ => 0) (x.group g).preds k) t * 2 ^ k) 0
      byteOf (leBytes 2 v) (o % 2)
    | none => fr
  else if o < 0xCE000 then
    match s.groupIn c ((o - 0xC6000) / 512) with
    | some (_, x, g) => match (x.group g).stack.reverse[(o - 0xC6000) % 512 / 16]? with
      | some e => byteOf e.bytes (o % 16)
      | none => fr
    | none => fr
  else
    let b := o - 0xCE000
    match (fget (fun _ => []) (fget (fun _ => ({} : Cluster)) s.yar.clusters c).sb (b / 2048))[b % 2048 / 64]? with
    | some e => byteOf e.image (b % 64)
    | none => 0

/-! ### The other objects -/

/-- Byte `o` of the MATRIX object of unit `u`. -/
def State.matrixByte (s : State) (u o : Nat) (fr : Byte) : Byte :=
  let x := fget (fun _ => ({} : MUnit)) s.yar.units u
  if o < 0x4000 then
    match fget (fun _ => none) x.tiles (o / 4096) with
    | some t => byteOf (leBytes 4 (fget (fun _ => (0 : Word)) t.vals (o % 4096 / 4)).toNat) (o % 4)
    | none => fr
  else
    match (x.staged.toList ++ x.queue)[(o - 0x4000) / 64]? with
    | some m => m.desc.getD (o % 64) fr
    | none => fr

/-- The 64 bytes of sequence-table entry `i` (Table 16-4). -/
def State.seqRecord (s : State) (i : Nat) : List Byte :=
  let q := fget (fun _ => ({} : Seq)) s.tsl.seqs i
  leBytes 1 q.st ++ leBytes 1 q.vf ++ leBytes 1 q.prio ++
    leBytes 1 (b2n q.inStep + 2 * b2n (s.tsl.appends.any (fun a => a.idx == i)) + 4 * b2n (q.cancelUid != 0)) ++
    leBytes 2 q.ptRow ++ leBytes 2 q.pages ++ leBytes 8 q.userSeq ++ leBytes 8 q.prompt ++ leBytes 8 q.out ++
    leBytes 4 q.promptTokens ++ leBytes 4 q.maxNew ++ leBytes 4 q.outLen ++ leBytes 4 q.done ++ leBytes 4 q.produced ++
    leBytes 2 q.kvLimit ++ leBytes 2 0 ++ leBytes 4 q.order ++ leBytes 1 q.queue ++ leBytes 1 0 ++ leBytes 2 q.bufId

/-- Byte `o` of commons half `h`: the system area's tables beyond the sequence table are internal (Table 09-3). -/
def State.commonsByte (s : State) (h o : Nat) (fr : Byte) : Byte :=
  if h = s.sysDie && decide (0x7000000 ≤ o) then
    if o < 0x7800000 then byteOf (s.seqRecord ((o - 0x7000000) / 64)) (o % 64) else fr
  else s.dpaByte (0x8000000 * h + o)

/-- Byte `o` of the CAMPION object of core `k`. -/
def State.campionByte (s : State) (k o : Nat) : Byte :=
  let x := s.core k
  if o < 0x8000 then
    let v := { (fget (fun _ => ({} : Neuron)) x.neurons (o / 32)) with lt := 0 }
    byteOf (v.record 0) (o % 32)
  else if o < 0x8B00 then byteOf (x.progs.getD ((o - 0x8000) / 176) []) ((o - 0x8000) % 176)
  else match x.delay[(o - 0x8B00) / 16]? with
    | some (due, t) => byteOf (leBytes 8 t.word ++ leBytes 8 due) ((o - 0x8B00) % 16)
    | none => 0

/-- Byte `o` of the ENGINE object of instance `i`. -/
def State.engineByte (s : State) (i o : Nat) : Byte :=
  match (fget (fun _ => []) (fget (fun _ => ({} : Inst)) s.ffe.inst i).sub (o / 2048 + 1))[o % 2048 / 64]? with
  | some b => byteOf b.bytes (o % 64)
  | none => 0

/-- The uncorrectable word or line that holds byte `o` of an object (R339, R341). -/
def State.obsPoison (s : State) (obj idx o : Nat) : Bool :=
  match obj with
  | 0x12 => s.poisoned (0x8000000 * idx + o)
  | 0x13 => s.poisoned (0x10000000000 + 0x600000000 * idx + o)
  | _ => false

/-- The byte at offset `o` of an object as stored; `fr` where the spec gives none. -/
def State.storedByte (s : State) (obj idx o : Nat) (fr : Byte) : Byte :=
  if s.obsPoison obj idx o then fr
  else match obj with
    | 0x01 => byteOf (leBytes 4 (s.viewReg (o - o % 4)).toNat) (o % 4)
    | 0x02 => BitVec.ofNat 8 (fget (fun _ => 0) s.sch.table (2048 * idx + o / 32) / 2 ^ (8 * (o % 32)))
    | 0x10 => s.clusterByte idx o fr
    | 0x11 => s.matrixByte idx o fr
    | 0x12 => s.commonsByte idx o fr
    | 0x13 => s.dpaByte (0x10000000000 + 0x600000000 * idx + o)
    | 0x14 => s.campionByte idx o
    | _ => s.engineByte idx o

/-- The byte an observer read returns (R755, R757, R759): `i` numbers the free values of the read. -/
def State.obsByte (s : State) (obj idx o i : Nat) : Byte :=
  if !s.obsUsable obj idx then 0
  else if obsData obj o && !(s.bit F.SLC_TEN_STATUS_DEBUG_CONSENT && s.fld F.FRZ_STATUS_STATE == 2) then 0
  else s.storedByte obj idx o (BitVec.ofNat 8 (Config.freeValue (s.freeCount + i)).toNat)

/-- A read of `n` bytes: poison met is reported in FRZ_STATUS.OBS_UE (R705, R758). -/
def State.obsBytes (s : State) (obj idx o n : Nat) : State × List Byte :=
  let open_ := s.obsUsable obj idx && s.bit F.SLC_TEN_STATUS_DEBUG_CONSENT && s.fld F.FRZ_STATUS_STATE == 2
  let ue := open_ && (List.range n).any (fun i => s.obsPoison obj idx (o + i))
  let bs := (List.range n).map (fun i => s.obsByte obj idx (o + i) i)
  (((if ue then s.setFld F.FRZ_STATUS_OBS_UE 1 else s).drawnN n), bs)

/-! ### The two readers -/

/-- OBSERVE_READ (R205, R755): the object's bytes go to the buffer. -/
def execObserveRead (ups : Upsets) (s : State) : Res :=
  s.command 0x0803 ups (fun c s =>
    let obj := c.arg 8 2
    let idx := c.arg 0xA 2
    let o := c.arg 0xC 4
    let n := c.arg 0x10 4
    if n = 0 || 65536 < n then s.no 0x11 ((s.obsBad obj idx o 1).getD 0x10)
    else match s.obsBad obj idx o n with
      | some d => s.no 0x11 d
      | none =>
        if !s.bufferOk c.fn (c.arg 0x14 4) n then s.no 0x18 0x14
        else if s.fld F.FRZ_STATUS_STATE ≠ 2 then s.no 0x15 0
        else
          let r := s.obsBytes obj idx o n
          (r.1.bufferPut (c.arg 0x14 4) r.2).ok (leBytes 4 n))

/-- OBS_DATA: the TAP reads the 8-byte word at OBS_ADDR, and OFFSET advances by 8 (R759, Table 22-5). -/
def execObsData (s : State) : Res :=
  .next <|
    let f := s.frz
    let s1 := s.tapSet 0x21 0
    let bad := (s.obsBad f.obsObject f.obsIndex f.obsOffset 8).isSome
    let r := if bad then (s1, List.replicate 8 0) else s1.obsBytes f.obsObject f.obsIndex f.obsOffset 8
    let nf := !bad && s.fld F.FRZ_STATUS_STATE != 2 && (List.range 8).any (fun i => obsData f.obsObject (f.obsOffset + i))
    let s2 : State := { r.1 with frz := { r.1.frz with
      obsOffset := (f.obsOffset + 8) % 2 ^ 32, obsNotFrozen := nf, obsBadAddr := bad } }
    s2.emit (.tap 64 (ofLe r.2))

end Sys2Proof.Machine
end

