-- ==== Sys2Proof/Machine/Spdm.lean ====
section
/-! DEFINITION. The SPDM responder (R295 to R300, Table 08-3). Codes and layouts are those of DSP0274 (PRESUMED, log entry
28). A request is answered when PF0's DOE mailbox answers. `tr` is the transcript of the connection or session up to the
response's own bytes, which the requester and the part both hold. -/

namespace Sys2Proof.Machine

/-- A request is answered by `f`, when the mailbox answers at all. -/
def State.spdmDo (s : State) (f : State → State) : Res := if s.doeUp then .next (f s) else .next s

/-- Put out a response. One longer than the requester takes at once is announced with ERROR LargeResponse and kept for
CHUNK_GET. -/
def State.spdmSend (s : State) (code : Nat) (body : List Byte) : State :=
  let sent := body.length + 2
  if s.sec.xfer ≠ 0 && s.sec.xfer < sent then
    { s with sec := { s.sec with chunkOut := leBytes 1 0x12 ++ leBytes 1 code ++ body } }.spdmError 0x0F 0
  else s.emit (.spdm code body)

/-- GET_VERSION: versions 1.2 and 1.3; a new negotiation begins. -/
def execGetVersion (s : State) : Res :=
  s.spdmDo (fun s =>
    let s1 : State := { s with sec := { s.sec with spdm := 1, xfer := 0, chunkIn := [], chunkOut := [] } }
    (s1.setFld F.SEC_SPDM_STATUS_VERSION 0).spdmSend 0x04 (leBytes 2 0 ++ leBytes 1 0 ++ leBytes 1 2 ++ leBytes 2 0x1200 ++ leBytes 2 0x1300))

/-- The capability flags of Table 08-3. -/
def spdmFlags : Nat := 2 ^ 2 + 2 * 2 ^ 3 + 2 ^ 5 + 2 ^ 6 + 2 ^ 7 + 2 ^ 9 + 2 ^ 13 + 2 ^ 14 + 2 ^ 16 + 2 ^ 17

/-- GET_CAPABILITIES in version `ver`, from a requester that takes `xfer` bytes at once: CTExponent 12, the flags,
DataTransferSize 4,096, MaxSPDMmsgSize 16,384 (R295). -/
def execGetCapabilities (ver xfer : Nat) (s : State) : Res :=
  s.spdmDo (fun s =>
    if s.sec.spdm = 0 then s.spdmError 0x04 0
    else if ver ≠ 0x12 && ver != 0x13 then s.spdmError 0x41 0
    else
      let s1 : State := { s with sec := { s.sec with spdm := 2, xfer := xfer } }
      (s1.setFld F.SEC_SPDM_STATUS_VERSION ver).spdmSend 0x61
        (leBytes 2 0 ++ leBytes 1 0 ++ leBytes 1 12 ++ leBytes 2 0 ++ leBytes 4 spdmFlags ++ leBytes 4 4096 ++ leBytes 4 16384))

/-- NEGOTIATE_ALGORITHMS: what the requester offers of Table 08-3's algorithms is chosen. -/
def execNegotiateAlgorithms (asym hash dhe aead sched : Nat) (s : State) : Res :=
  s.spdmDo (fun s =>
    if s.sec.spdm < 2 then s.spdmError 0x04 0
    else
      let alg := fun (t v : Nat) => leBytes 1 t ++ leBytes 1 0x20 ++ leBytes 2 v
      ({ s with sec := { s.sec with spdm := 3 } } : State).spdmSend 0x63
        (leBytes 1 4 ++ leBytes 1 0 ++ leBytes 2 52 ++ leBytes 1 1 ++ leBytes 1 2 ++ leBytes 4 4 ++
          leBytes 4 (Nat.land asym 0x80) ++ leBytes 4 (Nat.land hash 2) ++ leBytes 12 0 ++ leBytes 4 0 ++
          alg 2 (Nat.land dhe 0x10) ++ alg 3 (Nat.land aead 2) ++ alg 4 0 ++ alg 5 (Nat.land sched 1)))

/-- A signed response: nothing is answered but ERROR Unspecified while the random source has failed (R289) or the sign is
degenerate (R329). -/
def State.spdmSigned (s : State) (tr : List Byte) (code : Nat) (body : List Byte) : State :=
  if s.bit F.SEC_STATUS_RNG_FAIL then s.spdmError 0x05 0
  else match Config.signIk (Config.sha384 (tr ++ body)) with
    | none => s.spdmError 0x05 0
    | some sig => s.spdmSend code (body ++ fitTo 96 sig)

/-- CHALLENGE: CHALLENGE_AUTH with SlotID 0xF, the digest of the public key, a fresh nonce, the digest of every
measurement when `sum` asks for it, signed by IK (R297). -/
def execChallenge (sum : Bool) (tr : List Byte) (s : State) : Res :=
  s.spdmDo (fun s =>
    if s.sec.spdm < 3 then s.spdmError 0x04 0
    else
      let m := if sum then digest48 (Config.sha384 s.allBlocks.flatten) else []
      (s.drawnN 32).spdmSigned tr 0x03 (leBytes 1 0xF ++ leBytes 1 0 ++ s.ikDigest ++ s.freeBytes 32 ++ m ++ leBytes 2 0))

/-- GET_MEASUREMENTS of index `k`: 0 the number of blocks, 0xFF every block that exists, else the block of that index,
none where it does not exist (R300). -/
def execGetMeasurements (k : Nat) (sign : Bool) (tr : List Byte) (s : State) : Res :=
  s.spdmDo (fun s =>
    if s.sec.spdm < 3 then s.spdmError 0x04 0
    else if s.bit F.SEC_STATUS_RNG_FAIL then s.spdmError 0x05 0
    else
      let bs := if k = 0 then [] else if k = 0xFF then s.allBlocks else (s.measureBlock k).toList
      let body := leBytes 1 (if k = 0 then s.allBlocks.length else 0) ++ leBytes 1 0xF ++ leBytes 1 bs.length ++
        leBytes 3 bs.flatten.length ++ bs.flatten ++ s.freeBytes 32 ++ leBytes 2 0
      if sign then (s.drawnN 32).spdmSigned tr 0x60 body else (s.drawnN 32).spdmSend 0x60 body)

/-- KEY_EXCHANGE: a session opens, at most four at once; HeartbeatPeriod 0; the ephemeral key, the random bytes and the
verify data are values the part draws or derives (R297, R298). -/
def execKeyExchange (reqSid : Nat) (sum : Bool) (tr : List Byte) (s : State) : Res :=
  s.spdmDo (fun s =>
    if s.sec.spdm < 3 then s.spdmError 0x04 0
    else if 4 ≤ s.sec.sessions.length then s.spdmError 0x0A 0
    else if s.bit F.SEC_STATUS_RNG_FAIL then s.spdmError 0x05 0
    else
      let rsp := s.free.toNat % 65536
      let s1 := s.drawn
      let m := if sum then digest48 (Config.sha384 s.allBlocks.flatten) else []
      let body := leBytes 1 0 ++ leBytes 1 0 ++ leBytes 2 rsp ++ leBytes 1 0 ++ leBytes 1 0xF ++ s1.freeBytes 128 ++ m ++ leBytes 2 0
      match Config.signIk (Config.sha384 (tr ++ body)) with
      | none => s.spdmError 0x05 0
      | some sig =>
        let s2 := s1.drawnN 128
        let sess : Session := { id := reqSid % 65536 + 65536 * rsp, up := false, updates := 0 }
        ((s2.drawnN 48).setSessions (s2.sec.sessions ++ [sess])).spdmSend 0x64 (body ++ fitTo 96 sig ++ s2.freeBytes 48))

/-- Change the session with this ID. -/
def State.modSession (s : State) (sid : Nat) (f : Session → Session) : State :=
  { s with sec := { s.sec with sessions := s.sec.sessions.map (fun x => if x.id = sid then f x else x) } }

/-- FINISH: with verify data that holds, the session is complete; else ERROR DecryptError. -/
def execFinish (sid : Nat) (good : Bool) (s : State) : Res :=
  s.spdmDo (fun s =>
    if (s.session sid).isNone then s.spdmError 0x02 0
    else if good then (s.modSession sid (fun x => { x with up := true })).spdmSend 0x65 (leBytes 2 0)
    else s.spdmError 0x06 0)

/-- HEARTBEAT in a session. -/
def execHeartbeat (sid : Nat) (s : State) : Res :=
  s.spdmDo (fun s => if s.inSession sid then s.spdmSend 0x68 (leBytes 2 0) else s.spdmError 0x02 0)

/-- KEY_UPDATE: operation 1 updates the requester's key, 2 both keys, 3 verifies the new key. -/
def execKeyUpdate (sid op tag : Nat) (s : State) : Res :=
  s.spdmDo (fun s =>
    if !s.inSession sid then s.spdmError 0x02 0
    else if op = 0 || 3 < op then s.spdmError 0x01 0
    else
      (if op = 3 then s else s.modSession sid (fun x => { x with updates := x.updates + 1 })).spdmSend 0x69
        (leBytes 1 op ++ leBytes 1 tag))

/-- END_SESSION: the session ends (R298). -/
def execEndSession (sid : Nat) (s : State) : Res :=
  s.spdmDo (fun s =>
    if !s.inSession sid then s.spdmError 0x02 0
    else (s.setSessions (s.sec.sessions.filter (fun x => x.id != sid))).spdmSend 0x6C (leBytes 2 0))

/-- CHUNK_SEND: chunk `num` of a large request; the last one completes the message, which is then a request of its own.
A message above MaxSPDMmsgSize is refused (R295). -/
def execChunkSend (handle num : Nat) (last : Bool) (bytes : List Byte) (s : State) : Res :=
  s.spdmDo (fun s =>
    let got := (if num = 0 then [] else s.sec.chunkIn) ++ bytes
    if 16384 < got.length then ({ s with sec := { s.sec with chunkIn := [] } } : State).spdmError 0x01 0
    else
      ({ s with sec := { s.sec with chunkIn := if last then [] else got } } : State).emit
        (.spdm 0x05 (leBytes 1 0 ++ leBytes 1 handle ++ leBytes 2 num)))

/-- CHUNK_GET: the next chunk of the large response kept; without one, ERROR InvalidRequest. -/
def execChunkGet (handle num : Nat) (s : State) : Res :=
  s.spdmDo (fun s =>
    if s.sec.chunkOut.isEmpty then s.spdmError 0x01 0
    else
      let n := max 1 (s.sec.xfer - 16)
      let rest := s.sec.chunkOut.drop n
      ({ s with sec := { s.sec with chunkOut := rest } } : State).emit
        (.spdm 0x06 (leBytes 1 (b2n rest.isEmpty) ++ leBytes 1 handle ++ leBytes 2 num ++ leBytes 2 0 ++
          leBytes 4 (min n s.sec.chunkOut.length) ++ s.sec.chunkOut.take n)))

/-- GET_DIGESTS, GET_CERTIFICATE and every request the part does not answer: ERROR UnsupportedRequest (R296, R297). -/
def execSpdmUnsupportedRequest (code : Nat) (s : State) : Res := s.spdmDo (fun s => s.spdmError 0x07 code)

/-- DOE_ABORT: the data object in transfer is discarded, and nothing else (R298). -/
def execDoeAbort (s : State) : Res :=
  .next { s with sec := { s.sec with chunkIn := [], chunkOut := [] } }

end Sys2Proof.Machine
end

