-- ==== Sys2Proof/Machine/Dispatch.lean ====
section
/-! DEFINITION. The meaning of every command: one arm per constructor. -/

namespace Sys2Proof.Machine

/-- The effect of a command on everything but the queue of waiting commands. -/
def exec (i : Instr) (s : State) : Host.Outcome State Fault Refusal :=
  match i with
  | .coldPowerOn straps nor => Sys2Proof.Machine.execColdPowerOn straps nor s
  | .warmResetPerst nor => Sys2Proof.Machine.execWarmResetPerst nor s
  | .warmResetHot nor => Sys2Proof.Machine.execWarmResetHot nor s
  | .powerFailDetect source mv => Sys2Proof.Machine.execPowerFailDetect source mv s
  | .overvoltageShutdown => Sys2Proof.Machine.execOvervoltageShutdown s
  | .railOvercurrent group => Sys2Proof.Machine.execRailOvercurrent group s
  | .powerReturnRestart straps nor => Sys2Proof.Machine.execPowerReturnRestart straps nor s
  | .freezeNLow => Sys2Proof.Machine.execFreezeNLow s
  | .sensorPortOvercurrent d j => Sys2Proof.Machine.execSensorPortOvercurrent d j s
  | .configRequest fn item write => Sys2Proof.Machine.execConfigRequest fn item write s
  | .bootStepEnd fails crypto => Sys2Proof.Machine.execBootStepEnd fails crypto s
  | .tickAcquireListenEnd => Sys2Proof.Machine.execTickAcquireListenEnd s
  | .tickBoundary pe se uses idle input => Sys2Proof.Machine.execTickBoundary pe se uses idle input s
  | .tickInEdge width => Sys2Proof.Machine.execTickInEdge width s
  | .marker p m => Sys2Proof.Machine.execMarker p m s
  | .refLoss w => Sys2Proof.Machine.execRefLoss w s
  | .refQualified w => Sys2Proof.Machine.execRefQualified w s
  | .pendingPeriodApply => Sys2Proof.Machine.execPendingPeriodApply s
  | .pendingTimeApply => Sys2Proof.Machine.execPendingTimeApply s
  | .utcOffsetApply => Sys2Proof.Machine.execUtcOffsetApply s
  | .calOutOfRangePass => Sys2Proof.Machine.execCalOutOfRangePass s
  | .tickNoticePost => Sys2Proof.Machine.execTickNoticePost s
  | .delayMeasure => Sys2Proof.Machine.execDelayMeasure s
  | .vfFlr n => Sys2Proof.Machine.execVfFlr n s
  | .pf0Flr => Sys2Proof.Machine.execPf0Flr s
  | .sliceClearComplete n => Sys2Proof.Machine.execSliceClearComplete n s
  | .idleClockGate u => Sys2Proof.Machine.execIdleClockGate u s
  | .dozeEnter => Sys2Proof.Machine.execDozeEnter s
  | .dozeExitResume => Sys2Proof.Machine.execDozeExitResume s
  | .pf0D3hotEnter => Sys2Proof.Machine.execPf0D3hotEnter s
  | .pf0D0Return => Sys2Proof.Machine.execPf0D0Return s
  | .vfD3hotEnter n => Sys2Proof.Machine.execVfD3hotEnter n s
  | .vfD0Return n => Sys2Proof.Machine.execVfD0Return n s
  | .exchangeRead r addr len ups collide => Sys2Proof.Machine.execExchangeRead r addr len ups collide s
  | .exchangeWrite r addr data ups collide => Sys2Proof.Machine.execExchangeWrite r addr data ups collide s
  | .semaReadAcquire r addr other => Sys2Proof.Machine.execSemaReadAcquire r addr other s
  | .semaReleaseWrite r addr value => Sys2Proof.Machine.execSemaReleaseWrite r addr value s
  | .sweeperVisit => Sys2Proof.Machine.execSweeperVisit s
  | .slotPost r k w => Sys2Proof.Machine.execSlotPost r k w s
  | .slotWithdraw r k => Sys2Proof.Machine.execSlotWithdraw r k s
  | .slotTake r k => Sys2Proof.Machine.execSlotTake r k s
  | .slotDone r k w => Sys2Proof.Machine.execSlotDone r k w s
  | .slotReturnIdle r k => Sys2Proof.Machine.execSlotReturnIdle r k s
  | .msixHoldoffEnd fn vec => Sys2Proof.Machine.execMsixHoldoffEnd fn vec s
  | .clrCounters value => Sys2Proof.Machine.execClrCounters value s
  | .registerWrite fn a v => Sys2Proof.Machine.execRegisterWrite fn a v s
  | .unknownOpcode ups => Sys2Proof.Machine.execUnknownOpcode ups s
  | .nop ups => Sys2Proof.Machine.execNop ups s
  | .identify ups => Sys2Proof.Machine.execIdentify ups s
  | .jobStatus ups => Sys2Proof.Machine.execJobStatus ups s
  | .tenancyAdmit ups => Sys2Proof.Machine.execTenancyAdmit ups s
  | .tenancyClaim ups => Sys2Proof.Machine.execTenancyClaim ups s
  | .tenancyRelease ups => Sys2Proof.Machine.execTenancyRelease ups s
  | .tenancyStatus ups => Sys2Proof.Machine.execTenancyStatus ups s
  | .debugConsentSet ups => Sys2Proof.Machine.execDebugConsentSet ups s
  | .sliceCreate ups => Sys2Proof.Machine.execSliceCreate ups s
  | .sliceResize ups => Sys2Proof.Machine.execSliceResize ups s
  | .sliceDestroy ups => Sys2Proof.Machine.execSliceDestroy ups s
  | .sliceReset ups => Sys2Proof.Machine.execSliceReset ups s
  | .sliceBoundsSet ups => Sys2Proof.Machine.execSliceBoundsSet ups s
  | .sliceStatus ups => Sys2Proof.Machine.execSliceStatus ups s
  | .slowdownSet ups => Sys2Proof.Machine.execSlowdownSet ups s
  | .exchangeRegionSet ups => Sys2Proof.Machine.execExchangeRegionSet ups s
  | .exchangeWindowSet ups => Sys2Proof.Machine.execExchangeWindowSet ups s
  | .modelLoad ups => Sys2Proof.Machine.execModelLoad ups s
  | .modelUnload ups => Sys2Proof.Machine.execModelUnload ups s
  | .schedWrite ups => Sys2Proof.Machine.execSchedWrite ups s
  | .schedRead ups => Sys2Proof.Machine.execSchedRead ups s
  | .schedSwap ups => Sys2Proof.Machine.execSchedSwap ups s
  | .tickConfig ups => Sys2Proof.Machine.execTickConfig ups s
  | .tickReacquire ups => Sys2Proof.Machine.execTickReacquire ups s
  | .timeSet ups => Sys2Proof.Machine.execTimeSet ups s
  | .calSet ups => Sys2Proof.Machine.execCalSet ups s
  | .utcOffsetSet ups => Sys2Proof.Machine.execUtcOffsetSet ups s
  | .logRead norOk ups => Sys2Proof.Machine.execLogRead norOk ups s
  | .logClear ups => Sys2Proof.Machine.execLogClear ups s
  | .nvmRead norOk ups => Sys2Proof.Machine.execNvmRead norOk ups s
  | .nvmWrite norOk ups => Sys2Proof.Machine.execNvmWrite norOk ups s
  | .nvmErase ups => Sys2Proof.Machine.execNvmErase ups s
  | .freeze ns ups => Sys2Proof.Machine.execFreeze ns ups s
  | .thaw ups => Sys2Proof.Machine.execThaw ups s
  | .observeRead ups => Sys2Proof.Machine.execObserveRead ups s
  | .attest ups => Sys2Proof.Machine.execAttest ups s
  | .acctRead ups => Sys2Proof.Machine.execAcctRead ups s
  | .fenceUnit ups => Sys2Proof.Machine.execFenceUnit ups s
  | .unfenceUnit ups => Sys2Proof.Machine.execUnfenceUnit ups s
  | .powerState ups => Sys2Proof.Machine.execPowerState ups s
  | .powerCapSet ups => Sys2Proof.Machine.execPowerCapSet ups s
  | .releaseJobEnd => Sys2Proof.Machine.execReleaseJobEnd s
  | .sliceResetJobEnd => Sys2Proof.Machine.execSliceResetJobEnd s
  | .modelLoadJobEnd r => Sys2Proof.Machine.execModelLoadJobEnd r s
  | .modelUnloadJobEnd => Sys2Proof.Machine.execModelUnloadJobEnd s
  | .logClearJobEnd => Sys2Proof.Machine.execLogClearJobEnd s
  | .nvmEraseJobEnd done => Sys2Proof.Machine.execNvmEraseJobEnd done s
  | .pendingLayoutApply cycles => Sys2Proof.Machine.execPendingLayoutApply cycles s
  | .schedSwapApply => Sys2Proof.Machine.execSchedSwapApply s
  | .drainClusterPass => Sys2Proof.Machine.execDrainClusterPass s
  | .setEndpointId m op eid => Sys2Proof.Machine.execSetEndpointId m op eid s
  | .getEndpointId m => Sys2Proof.Machine.execGetEndpointId m s
  | .getEndpointUuid m => Sys2Proof.Machine.execGetEndpointUuid m s
  | .getMctpVersionSupport m ty => Sys2Proof.Machine.execGetMctpVersionSupport m ty s
  | .getMessageTypeSupport m => Sys2Proof.Machine.execGetMessageTypeSupport m s
  | .settid m tid => Sys2Proof.Machine.execSettid m tid s
  | .gettid m => Sys2Proof.Machine.execGettid m s
  | .getpldmversion m ty => Sys2Proof.Machine.execGetpldmversion m ty s
  | .getpldmtypes m => Sys2Proof.Machine.execGetpldmtypes m s
  | .getpldmcommands m ty => Sys2Proof.Machine.execGetpldmcommands m ty s
  | .getsensorreading m id => Sys2Proof.Machine.execGetsensorreading m id s
  | .getstatesensorreadings m id => Sys2Proof.Machine.execGetstatesensorreadings m id s
  | .getpdrrepositoryinfo m => Sys2Proof.Machine.execGetpdrrepositoryinfo m s
  | .getpdr m h => Sys2Proof.Machine.execGetpdr m h s
  | .getfrurecordtablemetadata m => Sys2Proof.Machine.execGetfrurecordtablemetadata m s
  | .getfrurecordtable m => Sys2Proof.Machine.execGetfrurecordtable m s
  | .mctpOtherMessage m type ty cmd busy => Sys2Proof.Machine.execMctpOtherMessage m type ty cmd busy s
  | .queueEnable n q value => Sys2Proof.Machine.execQueueEnable n q value s
  | .queueDisable n q value => Sys2Proof.Machine.execQueueDisable n q value s
  | .quiesceComplete n q => Sys2Proof.Machine.execQuiesceComplete n q s
  | .doorbellWrite n q value => Sys2Proof.Machine.execDoorbellWrite n q value s
  | .chainFetch n q r => Sys2Proof.Machine.execChainFetch n q r s
  | .commandComplete n q ix ok sup => Sys2Proof.Machine.execCommandComplete n q ix ok sup s
  | .queueIrqHoldoffEnd n q => Sys2Proof.Machine.execQueueIrqHoldoffEnd n q s
  | .fenceStall n q => Sys2Proof.Machine.execFenceStall n q s
  | .queueNop n q => Sys2Proof.Machine.execQueueNop n q s
  | .copy n q host sent => Sys2Proof.Machine.execCopy n q host sent s
  | .tensorGraph n q => Sys2Proof.Machine.execTensorGraph n q s
  | .kernelRegister n q => Sys2Proof.Machine.execKernelRegister n q s
  | .kernelRelease n q => Sys2Proof.Machine.execKernelRelease n q s
  | .kernelLaunch n q => Sys2Proof.Machine.execKernelLaunch n q s
  | .seqAdmit n q => Sys2Proof.Machine.execSeqAdmit n q s
  | .seqAppend n q => Sys2Proof.Machine.execSeqAppend n q s
  | .seqAppendApply n => Sys2Proof.Machine.execSeqAppendApply n s
  | .seqCancel n q => Sys2Proof.Machine.execSeqCancel n q s
  | .fenceRead n q => Sys2Proof.Machine.execFenceRead n q s
  | .fenceReset n q => Sys2Proof.Machine.execFenceReset n q s
  | .atsInvalidate vf tag => Sys2Proof.Machine.execAtsInvalidate vf tag s
  | .forcedRelease => Sys2Proof.Machine.execForcedRelease s
  | .claimTimeout => Sys2Proof.Machine.execClaimTimeout s
  | .getVersion => Sys2Proof.Machine.execGetVersion s
  | .getCapabilities ver xfer => Sys2Proof.Machine.execGetCapabilities ver xfer s
  | .negotiateAlgorithms asym hash dhe aead sched => Sys2Proof.Machine.execNegotiateAlgorithms asym hash dhe aead sched s
  | .challenge sum tr => Sys2Proof.Machine.execChallenge sum tr s
  | .getMeasurements k sign tr => Sys2Proof.Machine.execGetMeasurements k sign tr s
  | .keyExchange reqSid sum tr => Sys2Proof.Machine.execKeyExchange reqSid sum tr s
  | .finish sid good => Sys2Proof.Machine.execFinish sid good s
  | .heartbeat sid => Sys2Proof.Machine.execHeartbeat sid s
  | .keyUpdate sid op tag => Sys2Proof.Machine.execKeyUpdate sid op tag s
  | .endSession sid => Sys2Proof.Machine.execEndSession sid s
  | .chunkSend handle num last bytes => Sys2Proof.Machine.execChunkSend handle num last bytes s
  | .chunkGet handle num => Sys2Proof.Machine.execChunkGet handle num s
  | .vendorDefinedRequest sid proto code => Sys2Proof.Machine.execVendorDefinedRequest sid proto code s
  | .spdmUnsupportedRequest code => Sys2Proof.Machine.execSpdmUnsupportedRequest code s
  | .doeAbort => Sys2Proof.Machine.execDoeAbort s
  | .query sid => Sys2Proof.Machine.execQuery sid s
  | .keyProg sid k set sub dir => Sys2Proof.Machine.execKeyProg sid k set sub dir s
  | .kSetGo sid k set sub dir => Sys2Proof.Machine.execKSetGo sid k set sub dir s
  | .kSetStop sid k set sub dir => Sys2Proof.Machine.execKSetStop sid k set sub dir s
  | .getTdispVersion sid n => Sys2Proof.Machine.execGetTdispVersion sid n s
  | .getTdispCapabilities sid n => Sys2Proof.Machine.execGetTdispCapabilities sid n s
  | .lockInterfaceRequest sid n stream noFw lockMsix p2p redirect => Sys2Proof.Machine.execLockInterfaceRequest sid n stream noFw lockMsix p2p redirect s
  | .getDeviceInterfaceReport sid n off len => Sys2Proof.Machine.execGetDeviceInterfaceReport sid n off len s
  | .getDeviceInterfaceState sid n => Sys2Proof.Machine.execGetDeviceInterfaceState sid n s
  | .startInterfaceRequest sid n nonce => Sys2Proof.Machine.execStartInterfaceRequest sid n nonce s
  | .stopInterfaceRequest sid n => Sys2Proof.Machine.execStopInterfaceRequest sid n s
  | .ideCheckFail k => Sys2Proof.Machine.execIdeCheckFail k s
  | .sriovConfigWrite numVfs vfEnable vfMse vfBar0 vfBar2 => Sys2Proof.Machine.execSriovConfigWrite numVfs vfEnable vfMse vfBar0 vfBar2 s
  | .busMasterClear n => Sys2Proof.Machine.execBusMasterClear n s
  | .tdiTlpDrop n posted => Sys2Proof.Machine.execTdiTlpDrop n posted s
  | .rngHealthFail => Sys2Proof.Machine.execRngHealthFail s
  | .ecOperationEnd x => Sys2Proof.Machine.execEcOperationEnd x s
  | .mapViewStore vf g value whole => Sys2Proof.Machine.execMapViewStore vf g value whole s
  | .invCountStore vf count => Sys2Proof.Machine.execInvCountStore vf count s
  | .invalidationComplete vf => Sys2Proof.Machine.execInvalidationComplete vf s
  | .frameZeroComplete f => Sys2Proof.Machine.execFrameZeroComplete f s
  | .patrol errs permille => Sys2Proof.Machine.execPatrol errs permille s
  | .hbmRefresh ns => Sys2Proof.Machine.execHbmRefresh ns s
  | .contextEnd c j => Sys2Proof.Machine.execContextEnd c j s
  | .contextSwitch c cycles took => Sys2Proof.Machine.execContextSwitch c cycles took s
  | .storeEntryRetire c ix => Sys2Proof.Machine.execStoreEntryRetire c ix s
  | .loadDataReturn c j g n => Sys2Proof.Machine.execLoadDataReturn c j g n s
  | .acopyComplete c j n => Sys2Proof.Machine.execAcopyComplete c j n s
  | .asyncAddress c j n => Sys2Proof.Machine.execAsyncAddress c j n s
  | .iadd c j g hi => Sys2Proof.Machine.execIadd c j g hi s
  | .isub c j g hi => Sys2Proof.Machine.execIsub c j g hi s
  | .imul c j g hi => Sys2Proof.Machine.execImul c j g hi s
  | .imulhi c j g hi => Sys2Proof.Machine.execImulhi c j g hi s
  | .imac c j g hi => Sys2Proof.Machine.execImac c j g hi s
  | .imin c j g hi => Sys2Proof.Machine.execImin c j g hi s
  | .imax c j g hi => Sys2Proof.Machine.execImax c j g hi s
  | .and c j g hi => Sys2Proof.Machine.execAnd c j g hi s
  | .or c j g hi => Sys2Proof.Machine.execOr c j g hi s
  | .xor c j g hi => Sys2Proof.Machine.execXor c j g hi s
  | .shl c j g hi => Sys2Proof.Machine.execShl c j g hi s
  | .shr c j g hi => Sys2Proof.Machine.execShr c j g hi s
  | .popc c j g hi => Sys2Proof.Machine.execPopc c j g hi s
  | .clz c j g hi => Sys2Proof.Machine.execClz c j g hi s
  | .iabs c j g hi => Sys2Proof.Machine.execIabs c j g hi s
  | .bfe c j g hi => Sys2Proof.Machine.execBfe c j g hi s
  | .fadd c j g hi => Sys2Proof.Machine.execFadd c j g hi s
  | .fsub c j g hi => Sys2Proof.Machine.execFsub c j g hi s
  | .fmul c j g hi => Sys2Proof.Machine.execFmul c j g hi s
  | .fmac c j g hi => Sys2Proof.Machine.execFmac c j g hi s
  | .fmin c j g hi => Sys2Proof.Machine.execFmin c j g hi s
  | .fmax c j g hi => Sys2Proof.Machine.execFmax c j g hi s
  | .frcp c j g hi => Sys2Proof.Machine.execFrcp c j g hi s
  | .frsq c j g hi => Sys2Proof.Machine.execFrsq c j g hi s
  | .fexp2 c j g hi => Sys2Proof.Machine.execFexp2 c j g hi s
  | .flog2 c j g hi => Sys2Proof.Machine.execFlog2 c j g hi s
  | .fsin c j g hi => Sys2Proof.Machine.execFsin c j g hi s
  | .fcos c j g hi => Sys2Proof.Machine.execFcos c j g hi s
  | .ftanh c j g hi => Sys2Proof.Machine.execFtanh c j g hi s
  | .padd c j g hi => Sys2Proof.Machine.execPadd c j g hi s
  | .pmul c j g hi => Sys2Proof.Machine.execPmul c j g hi s
  | .pmac c j g hi => Sys2Proof.Machine.execPmac c j g hi s
  | .icmp c j g hi => Sys2Proof.Machine.execIcmp c j g hi s
  | .fcmp c j g hi => Sys2Proof.Machine.execFcmp c j g hi s
  | .pcomb c j g hi => Sys2Proof.Machine.execPcomb c j g hi s
  | .sel c j g hi => Sys2Proof.Machine.execSel c j g hi s
  | .mov c j g hi => Sys2Proof.Machine.execMov c j g hi s
  | .movi c j g hi => Sys2Proof.Machine.execMovi c j g hi s
  | .cvt c j g hi => Sys2Proof.Machine.execCvt c j g hi s
  | .rdlane c j g hi => Sys2Proof.Machine.execRdlane c j g hi s
  | .ld c j g hi => Sys2Proof.Machine.execLd c j g hi s
  | .lds c j g hi => Sys2Proof.Machine.execLds c j g hi s
  | .st c j g hi => Sys2Proof.Machine.execSt c j g hi s
  | .ldc c j g hi => Sys2Proof.Machine.execLdc c j g hi s
  | .atomAdd c j g hi => Sys2Proof.Machine.execAtomAdd c j g hi s
  | .atomSmin c j g hi => Sys2Proof.Machine.execAtomSmin c j g hi s
  | .atomSmax c j g hi => Sys2Proof.Machine.execAtomSmax c j g hi s
  | .atomUmin c j g hi => Sys2Proof.Machine.execAtomUmin c j g hi s
  | .atomUmax c j g hi => Sys2Proof.Machine.execAtomUmax c j g hi s
  | .atomAnd c j g hi => Sys2Proof.Machine.execAtomAnd c j g hi s
  | .atomOr c j g hi => Sys2Proof.Machine.execAtomOr c j g hi s
  | .atomXor c j g hi => Sys2Proof.Machine.execAtomXor c j g hi s
  | .atomExch c j g hi => Sys2Proof.Machine.execAtomExch c j g hi s
  | .atomCas c j g hi => Sys2Proof.Machine.execAtomCas c j g hi s
  | .atomFadd c j g hi => Sys2Proof.Machine.execAtomFadd c j g hi s
  | .acopy c j g hi => Sys2Proof.Machine.execAcopy c j g hi s
  | .arrive c j g hi => Sys2Proof.Machine.execArrive c j g hi s
  | .wait c j g hi => Sys2Proof.Machine.execWait c j g hi s
  | .waitu c j g hi => Sys2Proof.Machine.execWaitu c j g hi s
  | .ctrread c j g hi => Sys2Proof.Machine.execCtrread c j g hi s
  | .xlane c j g hi => Sys2Proof.Machine.execXlane c j g hi s
  | .vote c j g hi => Sys2Proof.Machine.execVote c j g hi s
  | .bra c j g hi => Sys2Proof.Machine.execBra c j g hi s
  | .jmpu c j g hi => Sys2Proof.Machine.execJmpu c j g hi s
  | .join c j g hi => Sys2Proof.Machine.execJoin c j g hi s
  | .call c j g hi => Sys2Proof.Machine.execCall c j g hi s
  | .exit c j g hi => Sys2Proof.Machine.execExit c j g hi s
  | .yield c j g hi => Sys2Proof.Machine.execYield c j g hi s
  | .trap c j g hi => Sys2Proof.Machine.execTrap c j g hi s
  | .yarrowNop c j g hi => Sys2Proof.Machine.execYarrowNop c j g hi s
  | .mma c j g hi => Sys2Proof.Machine.execMma c j g hi s
  | .fence c j g hi => Sys2Proof.Machine.execFence c j g hi s
  | .rdsys c j g hi => Sys2Proof.Machine.execRdsys c j g hi s
  | .wsave c j g hi => Sys2Proof.Machine.execWsave c j g hi s
  | .wrestore c j g hi => Sys2Proof.Machine.execWrestore c j g hi s
  | .wspill c j g hi => Sys2Proof.Machine.execWspill c j g hi s
  | .wfill c j g hi => Sys2Proof.Machine.execWfill c j g hi s
  | .wresume c j g hi => Sys2Proof.Machine.execWresume c j g hi s
  | .wrdstate c j g hi => Sys2Proof.Machine.execWrdstate c j g hi s
  | .kernelException c j g hi => Sys2Proof.Machine.execKernelException c j g hi s
  | .operationStage u => Sys2Proof.Machine.execOperationStage u s
  | .mmaOperation u => Sys2Proof.Machine.execMmaOperation u s
  | .load u => Sys2Proof.Machine.execLoad u s
  | .store u => Sys2Proof.Machine.execStore u s
  | .release u => Sys2Proof.Machine.execRelease u s
  | .matrixOpComplete u => Sys2Proof.Machine.execMatrixOpComplete u s
  | .matrixUnitHang u => Sys2Proof.Machine.execMatrixUnitHang u s
  | .blockEnqueue block => Sys2Proof.Machine.execBlockEnqueue block s
  | .engineStepDispatch ix => Sys2Proof.Machine.execEngineStepDispatch ix s
  | .engineStepComplete ix => Sys2Proof.Machine.execEngineStepComplete ix s
  | .move ix host sent => Sys2Proof.Machine.execMove ix host sent s
  | .fill ix sent => Sys2Proof.Machine.execFill ix sent s
  | .gather ix => Sys2Proof.Machine.execGather ix s
  | .gatherPages ix => Sys2Proof.Machine.execGatherPages ix s
  | .elementwise ix => Sys2Proof.Machine.execElementwise ix s
  | .reduce ix => Sys2Proof.Machine.execReduce ix s
  | .normalise ix => Sys2Proof.Machine.execNormalise ix s
  | .softmax ix => Sys2Proof.Machine.execSoftmax ix s
  | .topk ix => Sys2Proof.Machine.execTopk ix s
  | .decode ix plain => Sys2Proof.Machine.execDecode ix plain s
  | .allReduce ix peers same => Sys2Proof.Machine.execAllReduce ix peers same s
  | .allGather ix peers same => Sys2Proof.Machine.execAllGather ix peers same s
  | .engineFenceStall ix n => Sys2Proof.Machine.execEngineFenceStall ix n s
  | .engineHang ix => Sys2Proof.Machine.execEngineHang ix s
  | .collectiveTimeout ix => Sys2Proof.Machine.execCollectiveTimeout ix s
  | .scheduleGroupRead mid => Sys2Proof.Machine.execScheduleGroupRead mid s
  | .slotStart => Sys2Proof.Machine.execSlotStart s
  | .slotEnd ix => Sys2Proof.Machine.execSlotEnd ix s
  | .lagQuantum c used => Sys2Proof.Machine.execLagQuantum c used s
  | .exclusiveJobStart => Sys2Proof.Machine.execExclusiveJobStart s
  | .exclLimit => Sys2Proof.Machine.execExclLimit s
  | .slowdownNoticePost => Sys2Proof.Machine.execSlowdownNoticePost s
  | .boundsEnforce n cycles => Sys2Proof.Machine.execBoundsEnforce n cycles s
  | .stepBuild n r => Sys2Proof.Machine.execStepBuild n r s
  | .stepEnd n actual => Sys2Proof.Machine.execStepEnd n actual s
  | .cmpGrantWrite d value => Sys2Proof.Machine.execCmpGrantWrite d value s
  | .campionCommandPoll d => Sys2Proof.Machine.execCampionCommandPoll d s
  | .loadPrograms d => Sys2Proof.Machine.execLoadPrograms d s
  | .loadNeurons d => Sys2Proof.Machine.execLoadNeurons d s
  | .saveNeurons d => Sys2Proof.Machine.execSaveNeurons d s
  | .run d => Sys2Proof.Machine.execRun d s
  | .halt d => Sys2Proof.Machine.execHalt d s
  | .clear d => Sys2Proof.Machine.execClear d s
  | .etimeAdvance d => Sys2Proof.Machine.execEtimeAdvance d s
  | .eventRun k => Sys2Proof.Machine.execEventRun k s
  | .sweepVisit k => Sys2Proof.Machine.execSweepVisit k s
  | .fanOut k => Sys2Proof.Machine.execFanOut k s
  | .tokenArrive d port ix => Sys2Proof.Machine.execTokenArrive d port ix s
  | .tokenDue k => Sys2Proof.Machine.execTokenDue k s
  | .ingressToken d p dest var delay weight => Sys2Proof.Machine.execIngressToken d p dest var delay weight s
  | .injectionRead d => Sys2Proof.Machine.execInjectionRead d s
  | .campionFault d code => Sys2Proof.Machine.execCampionFault d code s
  | .campionHang d => Sys2Proof.Machine.execCampionHang d s
  | .snsGrantWrite d value => Sys2Proof.Machine.execSnsGrantWrite d value s
  | .frameStart d j vc num => Sys2Proof.Machine.execFrameStart d j vc num s
  | .rawLinePacket d j vc dt payload crcOk => Sys2Proof.Machine.execRawLinePacket d j vc dt payload crcOk s
  | .frameEnd d j vc => Sys2Proof.Machine.execFrameEnd d j vc s
  | .frameTimeout d j => Sys2Proof.Machine.execFrameTimeout d j s
  | .eventPacket d j vc dt payload crcOk => Sys2Proof.Machine.execEventPacket d j vc dt payload crcOk s
  | .otherPacket d j vc dt eccOk => Sys2Proof.Machine.execOtherPacket d j vc dt eccOk s
  | .aerWord d word => Sys2Proof.Machine.execAerWord d word s
  | .triggerPulse d t len => Sys2Proof.Machine.execTriggerPulse d t len s
  | .flitReceive p f ok corr unc => Sys2Proof.Machine.execFlitReceive p f ok corr unc s
  | .credit p b => Sys2Proof.Machine.execCredit p b s
  | .ack p b => Sys2Proof.Machine.execAck p b s
  | .nak p b => Sys2Proof.Machine.execNak p b s
  | .delayReq p b turn => Sys2Proof.Machine.execDelayReq p b turn s
  | .delayResp p b t4 => Sys2Proof.Machine.execDelayResp p b t4 s
  | .freezeSymbol p b => Sys2Proof.Machine.execFreezeSymbol p b s
  | .thawSymbol p b => Sys2Proof.Machine.execThawSymbol p b s
  | .failNotice p b => Sys2Proof.Machine.execFailNotice p b s
  | .announce p b => Sys2Proof.Machine.execAnnounce p b s
  | .pause p b => Sys2Proof.Machine.execPause p b s
  | .drained p b => Sys2Proof.Machine.execDrained p b s
  | .trainHello p b lanes => Sys2Proof.Machine.execTrainHello p b lanes s
  | .trainKey p b => Sys2Proof.Machine.execTrainKey p b s
  | .legTrainEnd p ok => Sys2Proof.Machine.execLegTrainEnd p ok s
  | .linkTrainEnd p r => Sys2Proof.Machine.execLinkTrainEnd p r s
  | .portFailed p => Sys2Proof.Machine.execPortFailed p s
  | .portRetryTimer p legLost => Sys2Proof.Machine.execPortRetryTimer p legLost s
  | .elementStateChange p opened => Sys2Proof.Machine.execElementStateChange p opened s
  | .peerStreamAppear p => Sys2Proof.Machine.execPeerStreamAppear p s
  | .portCtrlWrite p v => Sys2Proof.Machine.execPortCtrlWrite p v s
  | .ewbAdmit v => Sys2Proof.Machine.execEwbAdmit v s
  | .ewbRemove v => Sys2Proof.Machine.execEwbRemove v s
  | .insertionWindow => Sys2Proof.Machine.execInsertionWindow s
  | .tapSilentEntry => Sys2Proof.Machine.execTapSilentEntry s
  | .entryTimeout => Sys2Proof.Machine.execEntryTimeout s
  | .windowAbandon => Sys2Proof.Machine.execWindowAbandon s
  | .uncontainedFault code unit inst modelMap => Sys2Proof.Machine.execUncontainedFault code unit inst modelMap s
  | .containedFault vf code exc arg pc => Sys2Proof.Machine.execContainedFault vf code exc arg pc s
  | .recoveryEnd => Sys2Proof.Machine.execRecoveryEnd s
  | .faultNoticePost => Sys2Proof.Machine.execFaultNoticePost s
  | .fltInject v => Sys2Proof.Machine.execFltInject v s
  | .recordCreate code sev vf unit arg16 arg => Sys2Proof.Machine.execRecordCreate code sev vf unit arg16 arg s
  | .drainPageProgram log ok => Sys2Proof.Machine.execDrainPageProgram log ok s
  | .eraseAheadComplete sectors ok => Sys2Proof.Machine.execEraseAheadComplete sectors ok s
  | .recorderNoticePost => Sys2Proof.Machine.execRecorderNoticePost s
  | .freezeRequest src domain => Sys2Proof.Machine.execFreezeRequest src domain s
  | .freezeStatic => Sys2Proof.Machine.execFreezeStatic s
  | .thawResume => Sys2Proof.Machine.execThawResume s
  | .blankingEnd low => Sys2Proof.Machine.execBlankingEnd low s
  | .extest bits value => Sys2Proof.Machine.execExtest bits value s
  | .idcode => Sys2Proof.Machine.execIdcode s
  | .samplePreload bits value => Sys2Proof.Machine.execSamplePreload bits value s
  | .clamp => Sys2Proof.Machine.execClamp s
  | .highz => Sys2Proof.Machine.execHighz s
  | .obsAddr v => Sys2Proof.Machine.execObsAddr v s
  | .obsData => Sys2Proof.Machine.execObsData s
  | .obsStatus => Sys2Proof.Machine.execObsStatus s
  | .bypass ir => Sys2Proof.Machine.execBypass ir s
  | .powerSample avgMw => Sys2Proof.Machine.execPowerSample avgMw s
  | .thermalStep hottest => Sys2Proof.Machine.execThermalStep hottest s
  | .telemetryUpdate volt power energyMj temps => Sys2Proof.Machine.execTelemetryUpdate volt power energyMj temps s
  | .perstNRelease => Sys2Proof.Machine.execPerstNRelease s
  | .loRegisterRead fn a => Sys2Proof.Machine.execLoRegisterRead fn a s
  | .recoveryTimeout => Sys2Proof.Machine.execRecoveryTimeout s
  | .clockLaneInactive d j => Sys2Proof.Machine.execClockLaneInactive d j s

end Sys2Proof.Machine
end

