-- ==== Sys2Proof/Machine/Step.lean ====
section
/-! DEFINITION. One step of the block: the command at the front of the queue is carried out; with an empty queue the
part idles for a nanosecond of its own clock. -/

namespace Sys2Proof.Machine

/-- What happens while no command waits: the model's host-cycle clock goes on by 1 ns, and the run clock with it unless the
part is frozen (R750; log entry 7). -/
def State.idle (s : State) : State :=
  { s with clk := s.clk + 1, runClk := if s.frozen then s.runClk else s.runClk + 1 }

/-- One step: the front command's meaning over the queue's rest; on an empty queue the part idles. -/
def step (s : State) : Host.Outcome State Fault Refusal :=
  match s.pending with
  | [] => .next s.idle
  | c :: rest => exec c { s with pending := rest }

/-- `s` with the command that a table word spells at the front of its queue; `s` itself where the word spells none. -/
def State.withFetchWord (s : State) (nbits w : Nat) : State :=
  match decodeTableWord nbits w with
  | some c => { s with pending := c :: s.pending }
  | none => s

end Sys2Proof.Machine
end

