-- ==== Sys2Proof/Safety.lean ====
section
/-! DEFINITION. The terms the statements are made in: the invariants that every reachable state of the block keeps, and
the words for what a command leaves alone. -/

namespace Sys2Proof.Machine

/-- The byte and register stores are in their canonical form: keys strictly rising, nothing listed that an unlisted key
reads as, so that equal contents are equal data. -/
def State.canonical (s : State) : Bool :=
  fwf regReset s.regs && fwf (fun _ => (0 : Byte)) s.exm.mem && fwf norErased s.evr.nor &&
    fwf (fun _ => (0 : Byte)) s.mem.cmn && fwf (fun _ => 0) s.mem.hbm

/-- A step that ends in a next state, from any state, ends in one where `P` holds again if it held before. -/
def Keeps (P : State → Prop) : Prop := ∀ s s' : State, P s → step s = .next s' → P s'

/-- The parts of the state, for saying what a command leaves alone. `nor` is the NOR device's bytes, `exmMem` the exchange
memory's, `cmn` and `hbm` those of the commons and of HBM; `evr`, `exm` and `mem` are the units that hold them, these bytes
apart. `drive` is whether the part drives FREEZE_N low and `stepFrozen` the boot sequencer's note of a freeze; `pwr` and `boot`
are the rest of theirs. `clocks` are the two readings of the model's own clock. -/
inductive Part where
  | regs | latch | fused | pwr | boot | tick | exm | ewb | flt | evr | nor | frz | eng | qs | slices | sec | mem | sch
  | yar | ffe | tsl | cmp | sns | pci | clocks | free | out | pending | drive | stepFrozen | exmMem | cmn | hbm
deriving DecidableEq, Repr

/-- Part `p` of `t` is what it is in `s`. -/
def State.same (s t : State) : Part → Prop
  | .regs => t.regs = s.regs
  | .latch => t.latch = s.latch
  | .fused => t.fused = s.fused
  | .pwr => { t.pwr with freezeDrive := false } = { s.pwr with freezeDrive := false }
  | .boot => { t.boot with stepFrozen := false } = { s.boot with stepFrozen := false }
  | .tick => t.tick = s.tick
  | .exm => { t.exm with mem := [] } = { s.exm with mem := [] }
  | .ewb => t.ewb = s.ewb
  | .flt => t.flt = s.flt
  | .evr => { t.evr with nor := [], norOpen := [] } = { s.evr with nor := [], norOpen := [] }
  | .nor => t.evr.nor = s.evr.nor ∧ t.evr.norOpen = s.evr.norOpen
  | .frz => t.frz = s.frz
  | .eng => t.eng = s.eng
  | .qs => t.qs = s.qs
  | .slices => t.slices = s.slices
  | .sec => t.sec = s.sec
  | .mem => { t.mem with cmn := [], hbm := [] } = { s.mem with cmn := [], hbm := [] }
  | .sch => t.sch = s.sch
  | .yar => t.yar = s.yar
  | .ffe => t.ffe = s.ffe
  | .tsl => t.tsl = s.tsl
  | .cmp => t.cmp = s.cmp
  | .sns => t.sns = s.sns
  | .pci => t.pci = s.pci
  | .clocks => t.clk = s.clk ∧ t.runClk = s.runClk
  | .free => t.freeCount = s.freeCount
  | .out => t.out = s.out
  | .pending => t.pending = s.pending
  | .drive => t.pwr.freezeDrive = s.pwr.freezeDrive
  | .stepFrozen => t.boot.stepFrozen = s.boot.stepFrozen
  | .exmMem => t.exm.mem = s.exm.mem
  | .cmn => t.mem.cmn = s.mem.cmn
  | .hbm => t.mem.hbm = s.mem.hbm

/-- Every part of the state but those of `touched` is in `t` what it is in `s`. -/
def OnlyIn (touched : List Part) (s t : State) : Prop := ∀ p : Part, p ∉ touched → s.same t p

/-- Every register but those with an address in `[lo, hi)` reads in `t` what it reads in `s`. -/
def RegsOutside (lo hi : Nat) (s t : State) : Prop := ∀ a, a < lo ∨ hi ≤ a → t.reg a = s.reg a

/-- The command ends in a next state, and `Q` holds of it. -/
def Ends (c : Instr) (s : State) (Q : State → Prop) : Prop := ∃ t, exec c s = .next t ∧ Q t

/-- The command engine finds a request with opcode `op` next, in slot `k`, whole and without errors, and none of the checks of
R163 ends it: `v` is the state its body finds once the request is taken, `c` the request. -/
structure Asked (s : State) (op : Nat) (ups : Upsets) (k : Nat) (v : State) (c : Call) : Prop where
  next : s.nextSlot = some k
  opcode : s.exmLe (slotAddr k) 2 = op
  taken : v = ((s.upset ups).trigTake engineToken k).bump F.CMD_CNT_TAKEN_COUNT
  call : c = ⟨k, v.exmBytes (slotAddr k) 56⟩
  len : bitsOf (v.trigger k) 47 40 = 56
  sound : (wordsOf (slotAddr k) 56).any v.hasUe = false
  passes : ∃ r, cmdRow (c.arg 0 2) = some r ∧ v.preCheck r c = none

/-- The command ends in the state in which the request in slot `k` is answered from `u` with this STATUS, DETAIL and RESULT
(Table 05-2). -/
def Answered (cmd : Instr) (s : State) (ups : Upsets) (k : Nat) (u : State) (status detail : Nat) (result : List Byte) : Prop :=
  exec cmd s = .next (State.finish k ((s.upset ups).exmBytes (slotAddr k) 56) ⟨u, status, detail, result⟩)

/-- The commands that the command engine answers, each with its opcode of Table 05-3. `ups` are the errors it meets, `norOk` says
that the NOR device answers, `ns` is the time of a local freeze. -/
def engineCommands (ups : Upsets) (norOk : Bool) (ns : Nat) : List (Nat × Instr) :=
  [(0x0001, .nop ups), (0x0002, .identify ups), (0x0003, .jobStatus ups), (0x0101, .tenancyAdmit ups),
   (0x0102, .tenancyClaim ups), (0x0103, .tenancyRelease ups), (0x0104, .tenancyStatus ups),
   (0x0105, .debugConsentSet ups), (0x0201, .sliceCreate ups), (0x0202, .sliceResize ups),
   (0x0203, .sliceDestroy ups), (0x0204, .sliceReset ups), (0x0205, .sliceBoundsSet ups),
   (0x0206, .sliceStatus ups), (0x0207, .slowdownSet ups), (0x0301, .exchangeRegionSet ups),
   (0x0302, .exchangeWindowSet ups), (0x0401, .modelLoad ups), (0x0402, .modelUnload ups),
   (0x0501, .schedWrite ups), (0x0502, .schedRead ups), (0x0503, .schedSwap ups), (0x0601, .tickConfig ups),
   (0x0602, .tickReacquire ups), (0x0603, .timeSet ups), (0x0604, .calSet ups), (0x0605, .utcOffsetSet ups),
   (0x0701, .logRead norOk ups), (0x0702, .logClear ups), (0x0703, .nvmRead norOk ups),
   (0x0704, .nvmWrite norOk ups), (0x0705, .nvmErase ups), (0x0801, .freeze ns ups), (0x0802, .thaw ups),
   (0x0803, .observeRead ups), (0x0901, .attest ups), (0x0A01, .acctRead ups), (0x0B01, .fenceUnit ups),
   (0x0B02, .unfenceUnit ups), (0x0C01, .powerState ups), (0x0C02, .powerCapSet ups)]

/-- The parts that logging an event may touch (chapter 21): the recorder and its registers, and, where a trigger asks for
it, the freeze controller, the FREEZE_N pin, the boot sequencer's note that its step was frozen, and the symbols sent. -/
def logParts : List Part := [.regs, .drive, .stepFrozen, .ewb, .evr, .frz, .out]

/-- The next command of queue `q` of VF `n` is `c`, it has opcode `op` and starts now (R234, R236); `v` is the state that its
effect finds. -/
structure Starts (s : State) (n q op : Nat) (c : QCmd) (v : State) : Prop where
  next : s.nextCmd n q = some c
  opcode : c.op = op
  live : s.vfLive n = true
  sound : s.qError n q = 0
  clean : c.wait = true → (s.fence n c.waitFence).err = false
  slot : s.exclIs n c.uid = true ∨ s.slotFor n (s.fld (F.QIF_Q_CTRL_CLASS n q)) = true
  met : s.waitMet n c = true
  free : s.barred n q c = false
  taken : v = (if c.signal then (s.modCmd n q c.uid (fun c => { c with phase := 1, waitTick := none })).modFence n
      (c.signalFence % 256) id else s.modCmd n q c.uid (fun c => { c with phase := 1, waitTick := none }))

/-- The command `uid` in queue `q` of VF `n` has ended with this status, DETAIL and RESULT and waits for its completion
record. -/
def CmdEnded (t : State) (n q uid status detail result : Nat) : Prop :=
  ∃ c, (t.queue n q).cmds.find? (fun c => c.uid == uid) = some c ∧ c.phase = 2 ∧ c.status = status ∧ c.detail = detail ∧
    c.result = result

/-- Every byte of commons and HBM reads in `t` what it reads in `s`, but for those at the device addresses `ds`. -/
def BytesOutside (ds : List Nat) (s t : State) : Prop := ∀ d, d ∉ ds → t.dpaByte d = s.dpaByte d

/-- The device addresses that an access of `len` bytes from slice address `a` of VF `n` reaches. -/
def State.reach (s : State) (agent n a len : Nat) (write : Bool) : List Nat :=
  (addrs a len).filterMap (fun x => s.xlate agent n x write)

/-! ### Yarrow -/

/-- Group `g` of the context in slot `k`. -/
def State.groupAt (s : State) (k g : Nat) : Group := match s.ctx k with | some x => x.group g | none => {}

/-- Group `g` of context slot `j` of cluster `c`, or its half, issues `i`, whose opcode is one of `ops`, now: it is ready, its
launch has its arguments, the counter it waits for has been reached, no register it uses is out of range or waits for a load,
its guard is well formed, and the handler limit is not passed (R379, R413, R414, R447, R449, R484). `regs` are the vector
register fields it uses, with the length of each group. -/
structure Issues (s : State) (c j g : Nat) (hi : Bool) (ops : List Nat) (i : Iss) (regs : List (Nat × Nat)) : Prop where
  fetched : s.fetch c j g hi = some i
  cluster : c < 48
  inCode : i.inCode = true
  opcode : i.op ∈ ops
  ready : s.ready i = true
  sound : ∀ l, s.launchOf i.x.launch = some l → l.fault = 0
  goes : waitsAt i.x i.y i.w = true → i.groupOn = false
  guard : i.guardBad = false
  limit : i.y.inTrap = true → i.y.handlerCount < 256
  fits : ∀ r, r ∈ fieldsOf regs → i.outOfRange r = false
  settled : i.hazard regs = false

/-- What every issue does to the group beside its instruction's own effect: the yields it stood under end, and an issue in
the trap window is counted (R436, R484). -/
def Iss.after (i : Iss) (y : Group) : Group :=
  { y with resumed := false, yieldTick := 0, yieldOn := [],
           handlerCount := if i.y.inTrap then i.y.handlerCount + 1 else i.y.handlerCount }

/-- Nothing but the issuing group changes among the contexts: of another group at most what it yielded to is struck off
(R436), and of a context nothing but its groups. -/
structure Iss.GroupOnly (i : Iss) (s t : State) : Prop where
  groups : ∀ k g, k ≠ i.k ∨ g ≠ i.g → { t.groupAt k g with yieldOn := [] } = { s.groupAt k g with yieldOn := [] }
  ctxs : ∀ k, (t.ctx k).map (fun x => { x with grp := [] }) = (s.ctx k).map (fun x => { x with grp := [] })

/-- The instruction leaves its group as `y`, and beside it changes only the counters `regs`, the issue counter, the RT
latency maximum with its list of contexts, and free values. -/
structure Iss.Leaves (i : Iss) (regs : List Nat) (s t : State) (y : Group) : Prop where
  group : t.groupAt i.k i.g = i.after y
  others : i.GroupOnly s t
  clusters : t.yar.clusters = s.yar.clusters
  units : t.yar.units = s.yar.units
  launches : t.yar.launches = s.yar.launches
  counters : ∀ a, a ∉ [R.YAR_CNT_ISSUE i.c, R.SCH_RT_LAT_MAX] ++ regs → t.reg a = s.reg a
  parts : OnlyIn [.regs, .sch, .yar, .free] s t

/-- The instruction has written `f` to its destination, in each lane whose guard holds or once to a uniform register, and
goes on at the next one; every other register, predicate and flow value of its group is what it was (R416 to R418). -/
structure Iss.Wrote (i : Iss) (s t : State) (f : Nat → Nat) : Prop where
  vec : i.ud = false → ∀ l, l < 32 →
    (t.groupAt i.k i.g).v (i.phys i.d) l = if l ∈ i.on then f l % 2 ^ 32 else i.y.v (i.phys i.d) l
  uni : i.ud = true → (t.groupAt i.k i.g).u i.d = if i.groupOn then f i.first % 2 ^ 32 else i.y.u i.d
  vecs : ∀ r l, l < 32 → i.ud = true ∨ r ≠ i.phys i.d → (t.groupAt i.k i.g).v r l = i.y.v r l
  unis : ∀ r, i.ud = false ∨ r ≠ i.d → (t.groupAt i.k i.g).u r = i.y.u r
  rest : ∃ y, i.Leaves [] s t y ∧ { y with regs := [], unif := [] } = { i.next i.y with regs := [], unif := [] }

/-- The command issues an instruction of the integer or float class with these opcodes, number of sources and permitted MOD
bits, and its result is `f` of MOD, the sources in the lane, and a free value (R416 to R421). -/
def Does (cmd : Instr) (c j g : Nat) (hi : Bool) (ops : List Nat) (srcs allowed : Nat) (f : Nat → Nat → Nat → Nat → Nat → Nat) : Prop :=
  ∀ (s : State) (i : Iss), Issues s c j g hi ops i (i.vecRegs srcs) → i.formBad srcs = false →
    Nat.land i.mods (255 - allowed) = 0 → Ends cmd s (fun t => i.Wrote s t (fun l =>
      f i.mods (i.src i.ua i.a l) (if 2 ≤ srcs then i.srcB l else 0) (if srcs = 3 then i.src i.uc i.srcC l else 0)
        (Config.freeValue (s.freeCount + l)).toNat))

/-- Launch `id` is gone, with every context of it. -/
def LaunchGone (t : State) (id : Nat) : Prop :=
  (∀ l ∈ t.yar.launches, l.id ≠ id) ∧ ∀ k x, t.ctx k = some x → x.launch ≠ id

/-- The launch has ended with KERNEL_EXCEPTION: its contexts are gone, and its queue command, unless a recovery runs, has
ended with that status and DETAIL (R446, R688). -/
def Raises (s t : State) (l : Launch) (detail : Nat) : Prop :=
  LaunchGone t l.id ∧ ∀ q, l.vf ≤ 63 → (s.findCmd l.vf l.uid).map Prod.fst = some q → t.fltState ≠ 1 →
    CmdEnded t l.vf q l.uid 0x20 detail 0

/-- The operand of `i` in lane `t` from the register group at `r`. -/
def Iss.wide (i : Iss) (r t : Nat) : Nat :=
  ofLe (((List.range i.words).map (fun w => leBytes 4 (i.src i.mub (r + w) t))).flatten)

/-- The command issues an atomic: each lane whose guard holds reads the old value into a pending load and leaves `f` of
size in bits, old value and operands, when no two lanes meet and the group has no load or store of its own under way
(R387, R388, R427). -/
def DoesAtomic (cmd : Instr) (c j g : Nat) (hi : Bool) (op : Nat) (cas only4 : Bool) (f : Nat → Nat → Nat → Nat → Nat) : Prop :=
  ∀ (s : State) (i : Iss) (nb : Nat) (loc : Nat → Loc), nb = (if cas then 2 * i.words else i.words) →
    Issues s c j g hi [op] i ((i.d, i.words) :: i.addrRegs ++ (if i.mub then [] else [(i.b, nb)])) →
    i.y.inTrap = false → i.memBad true = false → i.sizeCode = 2 ∨ (i.sizeCode = 3 ∧ only4 = false) →
    i.d % i.words = 0 → i.b % nb = 0 → (∀ l ∈ i.on, s.access i true true l = .inr (loc l)) →
    (∀ l ∈ i.on, (loc l).space = 1 ∨ (addrs (loc l).addr i.size).any s.poisoned = false) →
    (∀ a ∈ i.on, ∀ b ∈ i.on, a ≠ b → overlap (loc a) i.size (loc b) i.size = false) → i.y.loads = [] →
    (∀ e ∈ s.sbuf i.c i.sched, e.ctx ≠ i.k) → Ends cmd s (fun t =>
      (∀ l ∈ i.on, t.atomOld i.k (loc l) i.size =
        f (8 * i.size) (s.atomOld i.k (loc l) i.size) (i.wide i.b l) (i.wide (i.b + i.words) l) % 2 ^ (8 * i.size)) ∧
      t.groupAt i.k i.g = i.after (i.next { i.y with loads := if i.on = [] then [] else
        [⟨i.phys i.d, i.size, false, [], i.on.map (fun l => (l, leBytes i.size (s.atomOld i.k (loc l) i.size)))⟩] }) ∧
      (∀ d, (∀ l ∈ i.on, (loc l).space = 1 ∨ d < (loc l).addr ∨ (loc l).addr + i.size ≤ d) → t.dpaByte d = s.dpaByte d) ∧
      (∀ k h, k ≠ i.k ∨ h ≠ i.g → { t.groupAt k h with yieldOn := [] } = { s.groupAt k h with yieldOn := [] }) ∧
      OnlyIn [.regs, .sch, .yar, .mem, .cmn, .hbm, .free] s t)

/-! ### Matrix units and engines -/

/-- The tile that operation `m` of unit `u` works on is physical tile `p`, at hand without parking or moving one: it is bound
there, with this type and contents, or it is DEAD and `p` is the lowest free tile (R460, R466). -/
def State.tileAt (s : State) (u : Nat) (m : MatOp) (x : Ctx) (int0 : Bool) (p : Nat) (int : Bool) (old : FMap Word) : Prop :=
  s.ctx m.ctx = some x ∧
  ((s.boundOn u m.ctx m.tile = some p ∧ ∃ y, s.ptile u p = some y ∧ y.int = int ∧ y.vals = old) ∨
   (s.boundOn u m.ctx m.tile = none ∧ s.boundOn (2 * (u / 2) + 1 - u % 2) m.ctx m.tile = none ∧ p < 4 ∧
     (∀ q, q < p → (s.ptile u q).isSome = true) ∧ s.ptile u p = none ∧
     (fget (fun _ => ({} : LTile)) x.tiles m.tile).st = 0 ∧ int = int0 ∧ old = []))

/-- The staged operation `m` has run on unit `u` and has left these contents in its tile, and nothing else is touched. -/
def TileHolds (s t : State) (u : Nat) (m : MatOp) (p : Nat) (int : Bool) (f : Nat → Nat → Nat) : Prop :=
  (∃ y, t.ptile u p = some y ∧ y.ctx = m.ctx ∧ y.ltile = m.tile ∧ y.int = int ∧
    ∀ r n, r < 16 → n < 64 → fget (fun _ => 0) y.vals (64 * r + n) = BitVec.ofNat 32 (f r n)) ∧
  (t.ctx m.ctx).map (fun x => fget (fun _ => ({} : LTile)) x.tiles m.tile) = some { st := 1, int := int } ∧
  (t.munit u).running = some m ∧ (t.munit u).done = true ∧ (t.munit u).staged = none ∧ (t.munit u).queue = (s.munit u).queue ∧
  OnlyIn [.yar] s t

/-- The step in progress at instance `i` is one of block `b`, of this class and OP. -/
structure StepOf (s : State) (i cls op : Nat) (b : Block) : Prop where
  stepping : s.stepping i = some b
  cls : b.cls = cls
  op : b.op = op
  inst : i < 29

/-- The command carries out a step of block `b`: it writes `n` bytes, byte `o` to the slice address `adr o`, when these
addresses can be written, hold no error and lie apart, and changes nothing else but counters and translation caches. -/
def StepWrites (cmd : Instr) (s : State) (i : Nat) (b : Block) (agent n : Nat) (adr : Nat → Nat) (f : Nat → Byte) : Prop :=
  ∀ a : Nat → Nat, (∀ o, o < n → s.xlate agent b.vf (adr o) true = some (a o) ∧ s.poisoned (a o) = false) →
    (∀ o p, o < n → p < n → a o = a p → o = p) → Ends cmd s (fun t =>
      (∀ o, o < n → t.dpaByte (a o) = f o) ∧ (t.inst i).worked = true ∧ BytesOutside ((List.range n).map a) s t ∧
      OnlyIn [.regs, .mem, .ffe, .cmn, .hbm, .free] s t)

/-- `len` bytes from slice address `a` can be read by the engine instance `i` for VF `n`. -/
def State.engineReads (s : State) (i n a len : Nat) : Prop := s.memCheck (instAgent i) n a len false false = none

/-- The queue command of block `b` has ended with this status and DETAIL, unless a recovery runs, and no block of it is left
(R506, R507). -/
def BlockEnds (s t : State) (b : Block) (status detail : Nat) : Prop :=
  ∀ q, b.vf ≤ 63 → (s.findCmd b.vf b.uid).map Prod.fst = some q → b.uid ≠ 0 →
    (∀ i c, i < 29 → c ∈ (t.inst i).queueOf b.vf → c.uid ≠ b.uid) ∧
    (t.fltState ≠ 1 → CmdEnded t b.vf q b.uid status detail 0)

/-- The command carries out a step of a row block: each row of the output is `f` of its number and of the elements of its
input row (R518). -/
def RowsWritten (cmd : Instr) (s : State) (i : Nat) (b : Block) (dt out perRow : Nat) (f : Nat → List Val → List Val) : Prop :=
  let r0 := b.rowsPerStep * b.steps
  let inB := b.rowLen * dtBytes dt
  let outB := perRow * dtBytes out
  s.engineReads i b.vf (b.src + r0 * inB) (b.stepRows * inB) →
  StepWrites cmd s i b (instAgent i) (b.stepRows * outB) (fun o => b.dst + r0 * outB + o) (fun o =>
    (bytesOf out (f (r0 + o / outB) (valsOf dt (s.rangesRead i b.vf (b.src + (r0 + o / outB) * inB) inB) b.rowLen))).getD
      (o % outB) 0)

/-! ### Campion and the sensor dies -/

/-- Die `d` works and has command `w`, whose CMD_OP is `op`, in progress (R600). -/
def CampTakes (s : State) (d op : Nat) (w : List Byte) : Prop :=
  d < 2 ∧ s.campLive = true ∧ (s.die d).cmd = some w ∧ leAt w 4 1 = op ∧ w.length = 16

/-- The command has ended: its control block, where it can be written, shows DONE_SEQ, DONE_STATUS and DETAIL (R600). -/
def CampEnds (s t : State) (d : Nat) (w : List Byte) (status detail : Nat) : Prop :=
  (t.die d).cmd = none ∧ (s.campCheck d 0x10 12 true = none →
    t.campLe d 0x10 4 = leAt w 0 4 ∧ t.campLe d 0x14 1 = status ∧ t.campLe d 0x18 4 = detail % 2 ^ 32)

/-- Checks 2 to 4 of R601 pass: no Reserved bit is set, RUN_STATE permits it, the cores it names are the die's. -/
def CampPasses (s : State) (d : Nat) (w : List Byte) (states : List Nat) (cores : Bool) : Prop :=
  leAt w 5 1 = 0 ∧ leAt w 0xA 2 = 0 ∧ s.campState d ∈ states ∧
    (cores = true → cmdCount w ≠ 0 ∧ 256 * d ≤ cmdFirst w ∧ cmdFirst w + cmdCount w ≤ 256 * d + 256)

/-- Neuron `i` of core `k` has run from micro-operation `entry` with this weight and VAR: it holds the variables its program
leaves and the time, its spike joined the FIFO, its record the egress ring where no converter observes it (R606, R616); no other
neuron and no other core changed. -/
def NeuronRan (s t : State) (k i entry weight var : Nat) : Prop :=
  let d := k / 256
  let v := (s.core k).neuron i
  let e := (s.die d).etime
  let r := runOps ((s.core k).progs.getD v.prog []) ((e % 2 ^ 20 + 2 ^ 20 - v.lt) % 2 ^ 20) e weight var 32 entry
    ⟨[v.s0, v.s1, v.s2, v.s3], false, false, false⟩
  let head := s.campLe d 0x48 4
  let size := max 1 (s.die d).run.egrSize
  let a := (s.die d).run.egrBase + 16 * (head % size)
  (t.core k).neuron i = { v with s0 := r.v.getD 0 0, s1 := r.v.getD 1 0, s2 := r.v.getD 2 0, s3 := r.v.getD 3 0, lt := e % 2 ^ 20 } ∧
  (∀ j, j ≠ i → (t.core k).neuron j = (s.core k).neuron j) ∧
  (t.core k).spikes = (if r.spike then (s.core k).spikes ++ [i] else (s.core k).spikes) ∧
  (∀ c, c ≠ k → t.core c = s.core c) ∧ (r.emit = false → OnlyIn [.regs, .cmp] s t) ∧
  (r.emit = true → s.observers d (1024 * k + i) = [] → s.campCheck d 0x48 8 true = none → s.campCheck d a 16 true = none →
    0x50 ≤ a → (head + 1) % size ≠ s.campLe d 0x4C 4 →
    t.campBytes d a 16 = leBytes 4 (1024 * k + i) ++ leBytes 4 0 ++ leBytes 8 e ∧
    t.campLe d 0x48 4 = (head + 1) % size % 2 ^ 32)

/-- Frame `f` of port `j` has ended: no frame is in progress; where no converter is configured, its header can be written and its
missing rows can be zeroed, these are written and HEAD has moved on (R632, R633). -/
def FramePublished (s t : State) (d j : Nat) (f : Frame) (truncated : Bool) : Prop :=
  let row := f.width * pixelSize f.dt
  let miss := f.height - f.lines
  let fill := f.at_ + 64 + row * min f.lines f.height
  (t.snsPort d j).frame = none ∧ t.fld (F.SNS_PORT_STATUS_IN_FRAME d j) = 0 ∧
  ((∀ c, c < 8 → s.ioBytes d (0x200 + 64 * c) 64 = List.replicate 64 0) → 0x440 ≤ f.at_ → s.ioBad d f.at_ 64 true = false →
    s.ioBad d (64 * j + 0x20) 4 true = false → s.ioBad d fill (row * miss) true = false → tst f.status 6 = false →
    t.ioBytes d f.at_ 64 = leBytes 8 f.tick ++ leBytes 8 f.tai ++ leBytes 2 f.num ++ leBytes 2 f.lines ++
      leBytes 2 (Nat.lor f.status ((if miss = 0 then 0 else 4) + (if truncated then 32 else 0))) ++ leBytes 2 0 ++
      leBytes 4 (row * f.height) ++ leBytes 4 (s.runClk - f.startClk) ++ leBytes 32 0 ∧
    t.ioLe d (64 * j + 0x20) 4 = (f.head + 1) % 2 ^ 32 ∧ t.ioBytes d fill (row * miss) = List.replicate (row * miss) 0)

/-- `ts` have joined ingress FIFO `p` of die `d`, in this order, and of Campion's dies nothing else has changed. -/
def TokensIn (s t : State) (d p : Nat) (ts : List Tok) : Prop :=
  (t.die d).ingress = fset (fun _ => []) (s.die d).ingress p (fget (fun _ => []) (s.die d).ingress p ++ ts) ∧
  { t.die d with ingress := [] } = { s.die d with ingress := [] } ∧ (∀ e, e ≠ d → t.die e = s.die e) ∧ t.cmp.cores = s.cmp.cores

/-- The command reports, in `s`, an uncontained fault with this code, unit and engine instance of FLT_LAST: a detected fault of
Table 20-1 that applies here, a hang of a matrix unit, an engine instance or a Campion die outside doze (R470, R508, R623), or
an enabled injection (R706). -/
inductive Reports (s : State) : Instr → Nat → Nat → Nat → Prop where
  | unit {code u inst : Nat} {m : Bool} (on : s.detects = true) (hit : s.faultApplies code u inst = true)
      (cls : faultClass code ≠ 0) : Reports s (.uncontainedFault code u inst m) code u 0xFF
  | engine {code u inst : Nat} {m : Bool} (on : s.detects = true) (hit : s.faultApplies code u inst = true)
      (cls : code = 0x84 ∨ code = 0x85) : Reports s (.uncontainedFault code u inst m) code 0xFFFF inst
  | plain {code u inst : Nat} {m : Bool} (on : s.detects = true) (hit : s.faultApplies code u inst = true)
      (cls : faultClass code = 0) (eng : code ≠ 0x84 ∧ code ≠ 0x85) : Reports s (.uncontainedFault code u inst m) code 0xFFFF 0xFF
  | matrixHang {u : Nat} (on : s.detects = true) (awake : s.pwr.doze = false) (busy : (s.munit u).running.isSome = true)
      (hit : s.faultApplies 0x86 (0x0900 + u / 2) 0 = true) : Reports s (.matrixUnitHang u) 0x86 (0x0900 + u / 2) 0xFF
  | engineHang {k : Nat} (on : s.detects = true) (awake : s.pwr.doze = false) (busy : (s.inst k).busy ≠ 0)
      (hit : s.faultApplies 0x85 0 k = true) : Reports s (.engineHang k) 0x85 0xFFFF k
  | campionHang {d : Nat} (on : s.detects = true) (awake : s.pwr.doze = false) (held : s.campInFlight d = true)
      (run : s.campState d ≠ 1) (hit : s.faultApplies 0x87 (0x0A00 + d) 0 = true) :
      Reports s (.campionHang d) 0x87 (0x0A00 + d) 0xFF
  | inject {v : Word} (go : tst v.toNat 31 = true) (kind : bitsOf v.toNat 7 0 = 0x8F) (en : s.bit F.FLT_CTRL_INJECT_EN = true)
      (live : s.frozen = false) : Reports s (.fltInject v) 0x8F 0xFFFF 0xFF

/-- The fault is counted, in FLT_LAST, and noticed (R692, R702). -/
structure Reported (s t : State) (code unit inst : Nat) : Prop where
  count : t.fld F.FLT_CNT_UNCONTAINED_COUNT = min (s.fld F.FLT_CNT_UNCONTAINED_COUNT + 1) (2 ^ 32 - 1)
  last : t.reg R.FLT_LAST = BitVec.ofNat 32 (code * 2 ^ 24 + unit * 2 ^ 8 + inst)
  notice : t.flt.nUnc.isSome = true

end Sys2Proof.Machine
end

