-- ==== Sys2Proof/Certificates/Slice0/Obligations.lean ====
section
/-! DEFINITION. The statements about the block. Each one's docstring says what it formalises. -/

open Sys2Proof Sys2Proof.Machine

/-- For every state whose queue has a command at its front, a step is exactly the meaning of that command over the state
with the rest of the queue. The queue of commands is the model's own (log entry 7). -/
def Obligations.StepRunsFront : Prop :=
  ∀ (s : State) (c : Instr) (rest : List Instr), s.pending = c :: rest → step s = exec c { s with pending := rest }

/-- With an empty queue a step answers a next state in which the host-cycle clock is 1 ns further, the run clock too
unless the part is frozen or freezing, and everything else is as it was. That an empty queue is 1 ns of idling is the
model's choice (log entry 7); that nothing but the host-cycle clock runs in a freeze is R750. -/
def Obligations.EmptyQueueIdles : Prop :=
  ∀ s : State, s.pending = [] →
    ∃ t, step s = .next t ∧ t.clk = s.clk + 1 ∧ t.runClk = (if s.frozen then s.runClk else s.runClk + 1) ∧
      OnlyIn [.clocks] s t

/-- Every command with any operands, in any state, answers a next state: the spec gives every command an effect or says
that it is ignored, so the model neither faults nor refuses. -/
def Obligations.EveryCommandAnswers : Prop := ∀ (c : Instr) (s : State), ∃ t, exec c s = .next t

/-- No command's meaning changes the queue of waiting commands. The queue is the model's own (log entry 7). -/
def Obligations.QueueUntouched : Prop :=
  ∀ (c : Instr) (s t : State), exec c s = .next t → t.pending = s.pending

/-- From every state, a step that answers a next state leaves STACK_FITTED and the four IOn_TYPE fields, and with them
every other figure that the model keeps as fused, as they were; and a read of ID_SITES gives exactly those fields,
whatever the state holds besides. -/
def Obligations.FusesNeverChange : Prop :=
  (∀ s t : State, step s = .next t → t.fused = s.fused) ∧
  (∀ s : State, bitsOf (s.viewReg R.ID_SITES).toNat 15 8 = s.fused.stackFitted % 2 ^ 8) ∧
  (∀ (s : State) (n : Nat), n < 4 →
    bitsOf (s.viewReg R.ID_SITES).toNat (2 * n + 1) (2 * n) = s.fused.ioType.getD n 0 % 4)

/-- From every state whose byte and register stores are in canonical form (keys strictly rising, nothing listed that an
unlisted key reads as, so that equal contents are equal data), a step that answers a next state leaves them in
canonical form. The form is the model's own representation of the memories the spec describes. -/
def Obligations.StoresStayCanonical : Prop := Keeps (fun s => s.canonical = true)

/-- The state after reset meets the invariant that every step keeps: its byte and register stores are in canonical form.
The registers whose tables state a reset value read it. No command waits and no table word spells one, so placing a
word leaves any state as it is (the queue is the model's own, log entry 7). -/
def Obligations.ResetIsAsTheSpecStates : Prop :=
  State.reset.canonical = true ∧ State.reset.pending = [] ∧
  (∀ r, r ∈ [(R.TCK_CONFIG, 0x10001), (R.TCK_PERIOD, 100000), (R.TCK_HOLDOFF, 10000), (R.TCK_QUAL, 0x20064), (R.TCK_MAX_ERR, 100),
      (R.SLC_TEN_GRACE, 10000), (R.MEM_PATROL, 24), (R.SCH_STATUS, 1), (R.FFE_COLL_TIMEOUT, 64), (R.EWB_DOMAIN, 0x400000),
      (R.EWB_WINDOW, 1000), (R.FLT_CTRL, 3), (R.FLT_CE_LIMIT, 100), (R.EVR_CTRL, 0xC3), (R.FLT_STATUS, 0), (R.FRZ_STATUS, 0),
      (R.EVR_SEQ, 0)] → (State.reset.reg r.1).toNat = r.2) ∧
  (∀ p, p < 16 → (State.reset.reg (R.EWB_P_CTRL p)).toNat = 0x83) ∧
  (∀ nbits w, decodeTableWord nbits w = none) ∧ (∀ (s : State) (nbits w : Nat), s.withFetchWord nbits w = s)

/-- COLD_POWER_ON, and POWER_RETURN_RESTART where a restart is due, end with the module on and PERST_N held, ID_POSITION
at the straps sampled, START_KIND 1 and STEP 1, and no slice, queue or job left; the fuses and the commands that wait
stay. Without a restart due, POWER_RETURN_RESTART changes nothing: after an overcurrent the module stays off. -/
def Obligations.PowerOnStartsSequencer : Prop :=
  (∀ (straps nor : Nat) (s : State), Ends (.coldPowerOn straps nor) s (fun t =>
    t.pwr.mode = .on ∧ t.pwr.perst = true ∧ t.reg R.ID_POSITION = BitVec.ofNat 32 (straps % 512) ∧
    t.fld F.BOOT_STATUS_START_KIND = 1 ∧ t.fld F.BOOT_STATUS_STEP = 1 ∧ t.slices = [] ∧ t.qs = [] ∧ t.eng.units = [] ∧
    t.fused = s.fused ∧ t.pending = s.pending)) ∧
  (∀ (straps nor : Nat) (s : State), s.pwr.restartDue = true → Ends (.powerReturnRestart straps nor) s (fun t =>
    t.pwr.mode = .on ∧ t.reg R.ID_POSITION = BitVec.ofNat 32 (straps % 512) ∧ t.fld F.BOOT_STATUS_START_KIND = 1 ∧
    t.fld F.BOOT_STATUS_STEP = 1 ∧ t.slices = [] ∧ t.qs = [] ∧ t.fused = s.fused ∧ t.pending = s.pending)) ∧
  (∀ (straps nor : Nat) (s : State), s.pwr.restartDue = false → exec (.powerReturnRestart straps nor) s = .next s)

/-- On a module that is on, WARM_RESET_PERST and WARM_RESET_HOT end with START_KIND 2 or 3, STEP 1, the tenancy and every
slice gone, while ID_POSITION, the tick count, the tick state and the fuses are what they were. PERST_N is held after
the first. On a module that is not on they change nothing. -/
def Obligations.WarmResetsKeepTheTick : Prop :=
  (∀ (nor : Nat) (s : State), s.pwr.mode = .on → Ends (.warmResetPerst nor) s (fun t =>
    t.pwr.perst = true ∧ t.fld F.BOOT_STATUS_START_KIND = 2 ∧ t.fld F.BOOT_STATUS_STEP = 1 ∧
    t.fld F.SLC_TEN_STATUS_STATE = 0 ∧ t.slices = [] ∧ t.reg R.ID_POSITION = s.reg R.ID_POSITION ∧
    t.tickCount = s.tickCount ∧ t.fld F.TCK_STATUS_STATE = s.fld F.TCK_STATUS_STATE ∧ t.fused = s.fused)) ∧
  (∀ (nor : Nat) (s : State), s.pwr.mode = .on → Ends (.warmResetHot nor) s (fun t =>
    t.pwr.perst = s.pwr.perst ∧ t.fld F.BOOT_STATUS_START_KIND = 3 ∧ t.fld F.BOOT_STATUS_STEP = 1 ∧
    t.fld F.SLC_TEN_STATUS_STATE = 0 ∧ t.slices = [] ∧ t.reg R.ID_POSITION = s.reg R.ID_POSITION ∧
    t.tickCount = s.tickCount ∧ t.fld F.TCK_STATUS_STATE = s.fld F.TCK_STATUS_STATE ∧ t.fused = s.fused)) ∧
  (∀ (nor : Nat) (s : State), s.pwr.mode ≠ .on →
    exec (.warmResetPerst nor) s = .next s ∧ exec (.warmResetHot nor) s = .next s)

/-- On a module that is on, POWER_FAIL_DETECT and OVERVOLTAGE_SHUTDOWN leave it failed with a restart due,
RAIL_OVERCURRENT leaves it tripped with none due. A power failure sends a failure notice on every trained port first.
Only power, boot, recorder, NOR, freeze, Ewebin and register state and the outputs are touched. On a module that is
not on none of them changes anything. -/
def Obligations.PowerLossShedsPower : Prop :=
  (∀ (source mv : Nat) (s : State), s.pwr.mode = .on → Ends (.powerFailDetect source mv) s (fun t =>
    t.pwr.mode = .failed ∧ t.pwr.restartDue = true ∧
    (∀ p, p ∈ s.trainedPorts → ∃ sym, Output.symbol p sym ∈ t.out ∧ sym[0]? = some 0x0B) ∧
    OnlyIn (.pwr :: .nor :: logParts) s t)) ∧
  (∀ s : State, s.pwr.mode = .on → Ends .overvoltageShutdown s (fun t =>
    t.pwr.mode = .failed ∧ t.pwr.restartDue = true ∧ OnlyIn (.pwr :: .nor :: logParts) s t)) ∧
  (∀ (group : Nat) (s : State), s.pwr.mode = .on → Ends (.railOvercurrent group) s (fun t =>
    t.pwr.mode = .tripped ∧ t.pwr.restartDue = false ∧ OnlyIn (.pwr :: .nor :: logParts) s t)) ∧
  (∀ (source mv group : Nat) (s : State), s.pwr.mode ≠ .on → exec (.powerFailDetect source mv) s = .next s ∧
    exec .overvoltageShutdown s = .next s ∧ exec (.railOvercurrent group) s = .next s)

/-- A configuration request before link-up, or of a function number above 63, changes nothing; after link-up and before
configuration-ready it is answered with Request Retry Status; a read from then on, of PF0 or of a VF of a part that is
not diagnostic-only, is answered with the item, Vendor ID reading 0x1D8F and Device ID 0x4A10 in PF0 and 0x4A11 in a
VF; a write of Bus Master Enable changes the function's bit and is answered, and only that bit, the TDI states a
cleared bit puts in ERROR and the outputs are touched. -/
def Obligations.ConfigRequestsAnswer : Prop :=
  (∀ (fn : Nat) (i : ConfigItem) (w : Option Nat) (s : State), s.pcieUp = false ∨ 63 < fn →
    exec (.configRequest fn i w) s = .next s) ∧
  (∀ (fn : Nat) (i : ConfigItem) (w : Option Nat) (s : State), s.pcieUp = true → fn ≤ 63 → s.boot.configReady = false →
    exec (.configRequest fn i w) s = .next (s.emit (.config fn none))) ∧
  (∀ (fn : Nat) (i : ConfigItem) (s : State), s.pcieUp = true → fn ≤ 63 → s.boot.configReady = true →
    fn = 0 ∨ s.pfOnly = false → Ends (.configRequest fn i none) s (fun t =>
      t.out = .config fn (some (s.configRead fn i)) :: s.out ∧ OnlyIn [.out, .free] s t)) ∧
  (∀ (fn : Nat) (v : Nat) (s : State), s.pcieUp = true → fn ≤ 63 → s.boot.configReady = true → fn = 0 ∨ s.pfOnly = false →
    Ends (.configRequest fn .busMaster (some v)) s (fun t =>
      (∀ n, n ≤ 63 → tst t.pci.busMaster n = (if n = fn then v % 2 == 1 else tst s.pci.busMaster n)) ∧
      t.out.head? = some (.config fn (some 0)) ∧ OnlyIn (.pci :: .sec :: .exm :: logParts) s t)) ∧
  (∀ s : State, s.configRead 0 .vendorId = 0x1D8F ∧ s.configRead 0 .deviceId = 0x4A10 ∧
    ∀ n, 1 ≤ n → s.configRead n .deviceId = 0x4A11)

/-- BOOT_STEP_END, with the module on, no freeze, a step from 1 to 9 running and no wait for PERST_N, leaves BOOT_OUTCOME
of that step at the outcome of Table 03-9 and STEP at the next step; after step 2 STEP stays 2 while PERST_N is held,
and after step 9 it reads 0xA. PERST_N_RELEASE while PERST_N is held releases it, and with step 2 ended and no freeze
begins step 3. Outside these states BOOT_STEP_END and PERST_N_RELEASE change nothing. -/
def Obligations.BootStepsFollowEachOther : Prop :=
  (∀ (fails crypto n : Nat) (s : State), s.fld F.BOOT_STATUS_STEP = n → 1 ≤ n → n ≤ 9 → s.frozen = false →
    s.boot.waitPerst = false → s.pwr.mode = .on → Ends (.bootStepEnd fails crypto) s (fun t =>
      t.outcomeReg n = s.outcomeOf n fails ∧
      t.fld F.BOOT_STATUS_STEP = if n = 9 then 0xA else if n = 2 ∧ s.pwr.perst = true then 2 else n + 1)) ∧
  (∀ (fails crypto : Nat) (s : State), s.frozen = true ∨ s.fld F.BOOT_STATUS_STEP = 0 ∨ 9 < s.fld F.BOOT_STATUS_STEP ∨
    s.boot.waitPerst = true ∨ s.pwr.mode ≠ .on → exec (.bootStepEnd fails crypto) s = .next s) ∧
  (∀ s : State, s.pwr.perst = true → Ends .perstNRelease s (fun t =>
    t.pwr.perst = false ∧ t.pwr.releaseClk = s.clk ∧
    t.fld F.BOOT_STATUS_STEP = (if s.boot.waitPerst = true ∧ s.frozen = false then 3 else s.fld F.BOOT_STATUS_STEP) ∧
    OnlyIn [.regs, .pwr, .boot, .stepFrozen, .nor, .frz] s t)) ∧
  (∀ s : State, s.pwr.perst = false → exec .perstNRelease s = .next s)

/-- TICK_ACQUIRE_LISTEN_END while tick acquire listens and the part is not frozen starts the tick as LOCKED-PRIMARY: with
a marker heard on port 0 the module follows its master with the marker's period; with neither a marker on any port nor
a TICK_IN edge it is a master on its own LOCAL clock with a period of 1 ms, count 0 and time not set. -/
def Obligations.TickAcquireChooses : Prop :=
  (∀ (s : State) (m : MarkerMsg) (at_ : Nat), s.tick.listening = true → s.frozen = false → s.jobOf 0x0602 = none →
    s.tick.heard.find? (fun h => h.1 == 0) = some (0, at_, m) → m.period < 2 ^ 27 →
    Ends .tickAcquireListenEnd s (fun t =>
      t.tick.running = true ∧ t.tick.listening = false ∧ t.fld F.TCK_STATUS_STATE = 1 ∧ t.fld F.TCK_CONFIG_ROLE = 0 ∧
      t.fld F.TCK_PERIOD_PERIOD = m.period ∧ (t.reg R.TCK_MASTER_ID).toNat = m.master % 512 ∧
      (t.reg R.TCK_PRI_SRC).toNat = 32)) ∧
  (∀ s : State, s.tick.listening = true → s.frozen = false → s.jobOf 0x0602 = none → s.tick.heard = [] →
    s.tick.acqEdges = [] →
    Ends .tickAcquireListenEnd s (fun t =>
      t.tick.running = true ∧ t.tick.listening = false ∧ t.fld F.TCK_STATUS_STATE = 1 ∧ t.fld F.TCK_CONFIG_ROLE = 1 ∧
      t.fld F.TCK_PERIOD_PERIOD = 100000 ∧ t.tickCount = 0 ∧ t.fld F.TCK_STATUS_TIME_VALID = 0 ∧
      (t.reg R.TCK_PRI_SRC).toNat = 48 ∧ t.fld F.TCK_STATUS_PRI_VALID = 1 ∧ t.fld F.TCK_STATUS_PRI_QUALIFIED = 1))

/-- TICK_BOUNDARY with the tick running, no freeze and the module on puts out TICK_OUT with the count that follows and
takes the boundary's run-clock time; the advance of the tick's own part makes the count one more, modulo 2^64, and the
time of the boundary one period later. Otherwise TICK_BOUNDARY changes nothing. -/
def Obligations.TickBoundaryCounts : Prop :=
  (∀ (pe se : Int) (uses : List SliceUse) (idle input : Nat) (s : State), s.tick.running = true → s.frozen = false →
    s.pwr.mode = .on → Ends (.tickBoundary pe se uses idle input) s (fun t =>
      .tickOut (s.tickCount + 1) ∈ t.out ∧ t.tick.bndClk = s.runClk ∧ t.tick.running = true ∧ t.pwr.vfResume = 0)) ∧
  (∀ (pe se : Int) (s : State), (s.tickAdvance pe se).tickCount = (s.tickCount + 1) % 2 ^ 64 ∧
    (s.tickAdvance pe se).tickTime = (s.tickTime + s.periodNs) % 2 ^ 64) ∧
  (∀ (pe se : Int) (uses : List SliceUse) (idle input : Nat) (s : State), s.tick.running = false ∨ s.frozen = true ∨
    s.pwr.mode ≠ .on → exec (.tickBoundary pe se uses idle input) s = .next s)

/-- A TICK_IN edge of 100 ns or more becomes the last edge measured, and makes a TICK_IN primary without a prediction
valid; a narrower one changes nothing. A marker of another master sets DUAL_MASTER on a master, and on a follower is
discarded with MARKER_DISCARD set. REF_LOSS of a valid reference that is configured and not LOCAL clears its VALID and
QUALIFIED bits and counts it. REF_QUALIFIED of a reference valid for the holdoff sets its QUALIFIED bit. -/
def Obligations.ReferencesAreWatched : Prop :=
  (∀ (width : Nat) (s : State), 100 ≤ width → s.frozen = false → Ends (.tickInEdge width) s (fun t =>
    t.tick.inLast = some s.runClk ∧
    (s.fld F.TCK_PRI_SRC_KIND = 1 → s.tick.pri.pred = false →
      t.fld F.TCK_STATUS_PRI_VALID = 1 ∧ t.tick.pri.pred = true ∧
      t.tick.pri.nextAt = s.runClk + s.fld F.TCK_CONFIG_IN_DIV * s.periodNs))) ∧
  (∀ (width : Nat) (s : State), width < 100 → exec (.tickInEdge width) s = .next s) ∧
  (∀ (p : Nat) (m : MarkerMsg) (s : State), s.frozen = false → s.tick.listening = false → s.tick.running = true →
    s.bit F.TCK_CONFIG_ROLE = true → m.master ≠ s.address → s.bit F.TCK_STATUS_DUAL_MASTER = false →
    Ends (.marker p m) s (fun t => t.fld F.TCK_STATUS_DUAL_MASTER = 1 ∧ t.tick.notice.isSome = true)) ∧
  (∀ (p : Nat) (m : MarkerMsg) (s : State), s.frozen = false → s.tick.listening = false → s.tick.running = true →
    s.bit F.TCK_CONFIG_ROLE = false → m.master ≠ (s.reg R.TCK_MASTER_ID).toNat % 512 →
    Ends (.marker p m) s (fun t => t.fld F.TCK_STATUS_MARKER_DISCARD = 1 ∧ OnlyIn [.regs] s t)) ∧
  (∀ (w : Nat) (s : State), w ≤ 1 → s.frozen = false → s.bit (refValid w) = true → s.fld (refKind w) ≠ 3 →
    s.fld (refKind w) ≠ 0 → Ends (.refLoss w) s (fun t =>
      t.fld (refValid w) = 0 ∧ t.fld (refQual w) = 0 ∧ (t.refOf w).pred = false ∧ (t.refOf w).lostNow = true ∧
      t.fld F.TCK_EVENTS_REF_LOSSES = min (s.fld F.TCK_EVENTS_REF_LOSSES + 1) (2 ^ 16 - 1) ∧ OnlyIn [.regs, .tick] s t)) ∧
  (∀ (w : Nat) (s : State), w ≤ 1 → s.bit (refValid w) = true →
    1000000 * s.fld F.TCK_HOLDOFF_HOLDOFF_MS ≤ s.runClk - (s.refOf w).since → Ends (.refQualified w) s (fun t =>
      t.fld (refQual w) = 1 ∧ OnlyIn [.regs] s t))

/-- PENDING_PERIOD_APPLY at or past the named boundary makes the pending period the period and clears PERIOD_PENDING;
PENDING_TIME_APPLY at or past its boundary makes the written time that boundary's and sets TIME_VALID;
UTC_OFFSET_APPLY once TAI time has reached the pending instant makes NEXT_OFFSET the offset, clears UTC_PENDING and
sets UTC_SET; CAL_OUT_OF_RANGE_PASS of a calendar that has just left its range is noticed. None of them acts in a
freeze. -/
def Obligations.PendingTickChangesApply : Prop :=
  (∀ s : State, s.bit F.TCK_STATUS_PERIOD_PENDING = true → s.pair R.TCK_NEXT_AT_LO R.TCK_NEXT_AT_HI ≤ s.tickCount →
    s.frozen = false → Ends .pendingPeriodApply s (fun t =>
      t.fld F.TCK_PERIOD_PERIOD = s.fld F.TCK_NEXT_PERIOD_PERIOD ∧ t.fld F.TCK_STATUS_PERIOD_PENDING = 0 ∧
      OnlyIn [.regs] s t)) ∧
  (∀ (s : State) (at_ tm op : Nat), s.tick.pendTime = some (at_, tm, op) → at_ ≤ s.tickCount → s.frozen = false →
    Ends .pendingTimeApply s (fun t =>
      t.tickTime = tm % 2 ^ 64 ∧ t.fld F.TCK_STATUS_TIME_VALID = 1 ∧ t.tick.pendTime = none ∧
      OnlyIn (.tick :: logParts) s t)) ∧
  (∀ s : State, s.bit F.CAL_STATUS_UTC_PENDING = true → s.timeValid = true →
    s.pair R.CAL_UTC_NEXT_AT_LO R.CAL_UTC_NEXT_AT_HI ≤ s.tai → s.frozen = false → Ends .utcOffsetApply s (fun t =>
      t.fld F.CAL_UTC_OFFSET_OFFSET = s.fld F.CAL_UTC_NEXT_NEXT_OFFSET ∧ t.fld F.CAL_STATUS_UTC_PENDING = 0 ∧
      t.fld F.CAL_STATUS_UTC_SET = 1 ∧ t.tick.notice.isSome = true ∧ OnlyIn (.tick :: logParts) s t)) ∧
  (∀ s : State, s.calOut = true → s.tick.wasOut = false → s.frozen = false → Ends .calOutOfRangePass s (fun t =>
    t.tick.wasOut = true ∧ t.tick.notice.isSome = true ∧ OnlyIn (.tick :: logParts) s t)) ∧
  (∀ s : State, s.frozen = true → exec .pendingPeriodApply s = .next s ∧ exec .pendingTimeApply s = .next s ∧
    exec .utcOffsetApply s = .next s ∧ exec .calOutOfRangePass s = .next s)

/-- TICK_NOTICE_POST with a notice pending and slot 1,012 IDLE posts the notice: the slot is POSTED with COOKIE the cause,
its payload is the 56 bytes of Table 02-7, and no notice is pending any more. While the slot is not IDLE, or with no
notice, it changes nothing. DELAY_MEASURE at a count divisible by 1,024 sends 16 DELAY_REQ on every live port and
awaits 16 answers there; at any other count it changes nothing. -/
def Obligations.TickNoticeAndDelays : Prop :=
  (∀ (s : State) (n : TickNotice), s.tick.notice = some n → s.slotState 1012 = 0 → Ends .tickNoticePost s (fun t =>
    t.tick.notice = none ∧ t.slotState 1012 = 1 ∧ t.exmBytes (slotAddr 1012) 56 = fitTo 56 n.bytes ∧
    bitsOf (t.trigger 1012) 63 48 = n.cause % 65536)) ∧
  (∀ s : State, s.tick.notice = none ∨ s.slotState 1012 ≠ 0 → exec .tickNoticePost s = .next s) ∧
  (∀ s : State, s.tickCount % 1024 = 0 → Ends .delayMeasure s (fun t =>
    (∀ p, p ∈ s.livePorts → (t.port p).samples = [] ∧ (t.port p).awaiting = 16 ∧
      .symbol p (symbolOf 0x07 (leBytes 1 15 ++ leBytes 8 (s.clk * 1000))) ∈ t.out) ∧ OnlyIn [.ewb, .out] s t)) ∧
  (∀ s : State, s.tickCount % 1024 ≠ 0 → exec .delayMeasure s = .next s)

/-- On a running part, FREEZE_N_LOW outside the blanking, FREEZE_REQUEST, and a well-formed FREEZE_SYMBOL that is new here
and was not heard on a tap, end with STATE 1 (FREEZING), SOURCE 1, the request's source and 3, FREEZE_N driven low and
the request's time taken. In the blanking FREEZE_N_LOW only notes the level. A local request on a part that is not
running changes nothing; a domain-wide one of source 2 or 4 sends a symbol with TYPE 9 on every UP or SOLO port and
leaves STATE. Only power, recorder, freeze, Ewebin and register state, the boot sequencer's note and the outputs are
touched. -/
def Obligations.FreezeRequestsFreeze : Prop :=
  (∀ s : State, s.frozen = false → s.bit F.FRZ_STATUS_BLANKING = false → Ends .freezeNLow s (fun t =>
    t.fld F.FRZ_STATUS_STATE = 1 ∧ t.fld F.FRZ_STATUS_SOURCE = 1 ∧ t.pwr.freezeDrive = true ∧ t.pwr.freezeIn = true ∧
    t.frz.reqClk = s.clk ∧ OnlyIn (.pwr :: logParts) s t)) ∧
  (∀ s : State, s.bit F.FRZ_STATUS_BLANKING = true →
    exec .freezeNLow s = .next { s with pwr := { s.pwr with freezeIn := true } }) ∧
  (∀ (src : Nat) (domain : Bool) (s : State), src < 16 → s.frozen = false → Ends (.freezeRequest src domain) s (fun t =>
    t.fld F.FRZ_STATUS_STATE = 1 ∧ t.fld F.FRZ_STATUS_SOURCE = src ∧ t.pwr.freezeDrive = true ∧ t.frz.reqClk = s.clk ∧
    OnlyIn logParts s t)) ∧
  (∀ (src : Nat) (s : State), s.frozen = true → exec (.freezeRequest src false) s = .next s) ∧
  (∀ (src : Nat) (s : State), src = 2 ∨ src = 4 → s.frozen = true → Ends (.freezeRequest src true) s (fun t =>
    t.fld F.FRZ_STATUS_STATE = s.fld F.FRZ_STATUS_STATE ∧ t.pwr = s.pwr ∧
    (∀ p, p ∈ s.livePorts → ∃ sym, Output.symbol p sym ∈ t.out ∧ sym[0]? = some 9))) ∧
  (∀ (p : Nat) (b : List Byte) (s : State), p < 16 → symOk 0x09 b = true → s.portState p ≠ 2 → s.frozen = false →
    s.ewb.seenFreeze.contains (0x09, leAt b 2 2 % 512, leAt b 4 1) = false → Ends (.freezeSymbol p b) s (fun t =>
      t.fld F.FRZ_STATUS_STATE = 1 ∧ t.fld F.FRZ_STATUS_SOURCE = 3 ∧ t.pwr.freezeDrive = true ∧
      t.fld F.FRZ_STATUS_ORIGIN = leAt b 2 2 % 512 ∧ t.fld F.FRZ_STATUS_FID = leAt b 4 1 ∧
      (∀ q, q ∈ s.livePorts → q ≠ p → Output.symbol q b ∈ t.out) ∧ OnlyIn logParts s t))

/-- FREEZE_STATIC of a FREEZING part without a thaw waiting makes STATE 2 (FROZEN) and takes the local freeze time; with
one waiting it begins the thaw: STATE 3, BLANKING, FREEZE_N released. A new THAW_SYMBOL on a FROZEN part does the
same, and on a FREEZING part waits. THAW_RESUME of a THAWING part without an injected fault, a waiting boot step or a
waiting clearing makes STATE 0 and takes the freeze's length. BLANKING_END ends the blanking; with FREEZE_N low on a
running part it counts a new freeze and makes one of source 1. In other states FREEZE_STATIC, THAW_RESUME and
BLANKING_END change nothing. -/
def Obligations.ThawsRelease : Prop :=
  (∀ s : State, s.fld F.FRZ_STATUS_STATE = 1 → s.frz.thawPending = 0 → Ends .freezeStatic s (fun t =>
    t.fld F.FRZ_STATUS_STATE = 2 ∧ t.fld F.FRZ_LAST_LOCAL_NS = min (s.clk - s.frz.reqClk) 2047 ∧ OnlyIn [.regs] s t)) ∧
  (∀ s : State, s.fld F.FRZ_STATUS_STATE = 1 → s.frz.thawPending ≠ 0 → Ends .freezeStatic s (fun t =>
    t.fld F.FRZ_STATUS_STATE = 3 ∧ t.fld F.FRZ_STATUS_BLANKING = 1 ∧ t.pwr.freezeDrive = false ∧ t.frz.thawPending = 0 ∧
    OnlyIn logParts s t)) ∧
  (∀ s : State, s.fld F.FRZ_STATUS_STATE ≠ 1 → exec .freezeStatic s = .next s) ∧
  (∀ (p : Nat) (b : List Byte) (s : State), p < 16 → symOk 0x0A b = true → s.portState p ≠ 2 →
    s.ewb.seenFreeze.contains (0x0A, leAt b 2 2 % 512, leAt b 4 1) = false →
    (s.fld F.FRZ_STATUS_STATE = 2 → Ends (.thawSymbol p b) s (fun t =>
      t.fld F.FRZ_STATUS_STATE = 3 ∧ t.fld F.FRZ_STATUS_BLANKING = 1 ∧ t.pwr.freezeDrive = false ∧ OnlyIn logParts s t)) ∧
    (s.fld F.FRZ_STATUS_STATE = 1 → Ends (.thawSymbol p b) s (fun t =>
      t.frz.thawPending = 3 ∧ t.fld F.FRZ_STATUS_STATE = 1 ∧ t.pwr = s.pwr))) ∧
  (∀ s : State, s.fld F.FRZ_STATUS_STATE = 3 → s.flt.injectDue = false → s.boot.waitPerst = false →
    (∀ n, tst (s.slice n).clearing 4 = false) →
    Ends .thawResume s (fun t =>
      t.fld F.FRZ_STATUS_STATE = 0 ∧ t.fld F.FRZ_LAST_US_US = (s.clk - s.frz.reqClk) / 1000 % 2 ^ 32)) ∧
  (∀ s : State, s.fld F.FRZ_STATUS_STATE ≠ 3 → exec .thawResume s = .next s) ∧
  (∀ (low : Bool) (s : State), s.bit F.FRZ_STATUS_BLANKING = true → Ends (.blankingEnd low) s (fun t =>
    t.fld F.FRZ_STATUS_BLANKING = 0 ∧ t.pwr.freezeIn = low ∧
    (low = true → s.frozen = false → t.fld F.FRZ_STATUS_STATE = 1 ∧ t.fld F.FRZ_STATUS_SOURCE = 1 ∧
      t.pwr.freezeDrive = true ∧ t.fld F.FRZ_CNT_REFREEZE_COUNT = min (s.fld F.FRZ_CNT_REFREEZE_COUNT + 1) (2 ^ 32 - 1)) ∧
    (low = false → OnlyIn [.regs, .pwr] s t))) ∧
  (∀ (low : Bool) (s : State), s.bit F.FRZ_STATUS_BLANKING = false → exec (.blankingEnd low) s = .next s)

/-- IDCODE puts out the ID code of Table 22-5. EXTEST, CLAMP and HIGHZ drive the pins while PERST_N is held, and otherwise
act as BYPASS, which puts out one bit; SAMPLE_PRELOAD takes the value shifted in and leaves the pins to the part.
OBS_ADDR sets object, index and 8-byte-aligned offset; OBS_STATUS puts out its four bits; OBS_DATA puts out 64 bits
and advances the offset by 8, and they are 0 where the address is bad, and where it reads data-plane bytes of a part
that is not frozen or did not consent. Nothing but the TAP's own state, the outputs, free values and OBS_UE is
touched. What the bypass register captures is the model's choice (log entry 8). -/
def Obligations.TapReadsAndDrives : Prop :=
  (∀ s : State, exec .idcode s = .next { s with
    frz := { s.frz with tapIr := 1, pinMode := 0 }, out := .tap 32 s.idCode :: s.out }) ∧
  (∀ (bits value : Nat) (s : State), s.pwr.perst = true → Ends (.extest bits value) s (fun t =>
    t.frz.tapIr = 0 ∧ t.frz.pinMode = 1 ∧ t.frz.scanReg = value % 2 ^ bits ∧ OnlyIn [.frz, .free, .out] s t)) ∧
  (∀ s : State, s.pwr.perst = true → Ends .clamp s (fun t => t.frz.pinMode = 2 ∧ OnlyIn [.frz, .out] s t)) ∧
  (∀ s : State, s.pwr.perst = true → Ends .highz s (fun t => t.frz.pinMode = 3 ∧ OnlyIn [.frz, .out] s t)) ∧
  (∀ (bits value : Nat) (s : State), s.pwr.perst = false →
    (∀ c : Instr, c = .extest bits value ∨ c = .clamp ∨ c = .highz → Ends c s (fun t =>
      t.frz.pinMode = 0 ∧ t.frz.scanReg = s.frz.scanReg ∧ t.out = .tap 1 0 :: s.out ∧ OnlyIn [.frz, .out] s t))) ∧
  (∀ (bits value : Nat) (s : State), Ends (.samplePreload bits value) s (fun t =>
    t.frz.tapIr = 2 ∧ t.frz.pinMode = 0 ∧ t.frz.scanReg = value % 2 ^ bits ∧ OnlyIn [.frz, .free, .out] s t)) ∧
  (∀ (ir : Nat) (s : State), 0x22 < ir → Ends (.bypass ir) s (fun t =>
    t.frz.tapIr = ir ∧ t.frz.pinMode = 0 ∧ t.out = .tap 1 0 :: s.out ∧ OnlyIn [.frz, .out] s t)) ∧
  (∀ (v : DWord) (s : State), Ends (.obsAddr v) s (fun t =>
    t.frz.obsObject = v.toNat % 2 ^ 16 ∧ t.frz.obsIndex = v.toNat / 2 ^ 16 % 2 ^ 16 ∧
    t.frz.obsOffset = v.toNat / 2 ^ 32 / 8 * 8 ∧ OnlyIn [.frz] s t)) ∧
  (∀ s : State, Ends .obsStatus s (fun t => OnlyIn [.frz, .out] s t ∧ t.out = .tap 32 (b2n s.frz.obsNotFrozen +
    2 * b2n s.frz.obsBadAddr + 4 * s.fld F.SLC_TEN_STATUS_DEBUG_CONSENT + 8 * s.fld F.FRZ_STATUS_OBS_UE) :: s.out)) ∧
  (∀ s : State, Ends .obsData s (fun t => t.frz.obsOffset = (s.frz.obsOffset + 8) % 2 ^ 32 ∧
    t.frz.obsBadAddr = (s.obsBad s.frz.obsObject s.frz.obsIndex s.frz.obsOffset 8).isSome ∧
    (∃ v, v < 2 ^ 64 ∧ t.out = .tap 64 v :: s.out ∧
      (t.frz.obsBadAddr = true ∨ (s.frozen = false ∧ obsObject s.frz.obsObject ≠ none ∧ 0x12 ≤ s.frz.obsObject ∧
        s.frz.obsObject ≤ 0x14) → v = 0)) ∧ OnlyIn [.regs, .frz, .free, .out] s t))

/-- A power sample above the cap lowers the clock step by one, or at the lowest step imposes a hold; one below 90 % of the
cap for 10 ms with every junction below 90 °C raises it by one. A junction of 95 °C or more lowers it by one, and 105
°C at the lowest step imposes a hold. TELEMETRY_UPDATE sets input voltage and power and adds the interval's energy.
Only registers and the limiter's own state are touched. -/
def Obligations.LimiterAndTelemetry : Prop :=
  (∀ (mw : Nat) (s : State), s.capMw < mw → 1 ≤ s.fld F.PWR_STATUS_STEP → Ends (.powerSample mw) s (fun t =>
    t.fld F.PWR_STATUS_STEP = s.fld F.PWR_STATUS_STEP - 1 ∧ OnlyIn [.regs, .frz] s t)) ∧
  (∀ (mw : Nat) (s : State), s.capMw < mw → s.fld F.PWR_STATUS_STEP = 0 → Ends (.powerSample mw) s (fun t =>
    t.frz.hold = true ∧ t.fld F.PWR_STATUS_STEP = 0 ∧ (s.frz.hold = false → t.fld F.PWR_STATUS_LIMIT = 3) ∧
    OnlyIn [.regs, .frz] s t)) ∧
  (∀ (mw : Nat) (s : State), 10 * mw < 9 * s.capMw → 9990 ≤ s.frz.lowUs → s.frz.hottest < 90 → s.fld F.PWR_STATUS_STEP < 6 →
    Ends (.powerSample mw) s (fun t =>
      t.fld F.PWR_STATUS_STEP = s.fld F.PWR_STATUS_STEP + 1 ∧ t.frz.lowUs = 0 ∧ OnlyIn [.regs, .frz] s t)) ∧
  (∀ (hot : Int) (s : State), 95 ≤ hot → 1 ≤ s.fld F.PWR_STATUS_STEP → Ends (.thermalStep hot) s (fun t =>
    t.fld F.PWR_STATUS_STEP = s.fld F.PWR_STATUS_STEP - 1 ∧ t.frz.hottest = hot ∧ OnlyIn [.regs, .frz] s t)) ∧
  (∀ (hot : Int) (s : State), 105 ≤ hot → s.fld F.PWR_STATUS_STEP = 0 → Ends (.thermalStep hot) s (fun t =>
    t.frz.hold = true ∧ t.frz.hottest = hot ∧ OnlyIn [.regs, .frz] s t)) ∧
  (∀ (volt power mj : Nat) (temps : List (Bool × Int)) (s : State), Ends (.telemetryUpdate volt power mj temps) s (fun t =>
    t.fld F.PWR_INPUT_VOLT_10MV = volt % 2 ^ 16 ∧ t.fld F.PWR_INPUT_POWER_100MW = power % 2 ^ 16 ∧
    t.pair R.PWR_ENERGY_LO R.PWR_ENERGY_HI = (s.pair R.PWR_ENERGY_LO R.PWR_ENERGY_HI + mj) % 2 ^ 64 ∧ OnlyIn [.regs] s t))

/-- With the boot configuration-ready and the module on, VF_FLR of a VF whose clearing does not already run ends with its
PCIe enables clear and no command in its queues; if it has a slice then, its FLR is busy and SLC_SCRUB names it with
KIND 2. VF_FLR during such a clearing changes nothing. PF0_FLR clears PF0's PCIe enables and the SR-IOV controls,
zeroes slot 0 and touches nothing but power, exchange and PCIe state. SLICE_CLEAR_COMPLETE of a running clearing ends
it. -/
def Obligations.FunctionResets : Prop :=
  (∀ (n : Nat) (s : State), 1 ≤ n → n ≤ 63 → s.boot.configReady = true → s.pwr.mode = .on → (s.slice n).flrBusy = false →
    Ends (.vfFlr n) s (fun t =>
      (∀ k, tst t.pci.busMaster k = (if k = n then false else tst s.pci.busMaster k)) ∧
      (∀ k, tst t.pci.memEnable k = (if k = n then false else tst s.pci.memEnable k)) ∧
      (∀ k, tst t.pci.msixEnable k = (if k = n then false else tst s.pci.msixEnable k)) ∧
      tst t.pwr.vfD3 n = false ∧ (∀ q, q < 16 → (t.queue n q).cmds = []) ∧
      (t.sliceState n ≠ 0 → (t.slice n).flrBusy = true ∧ t.fld F.SLC_SCRUB_ACTIVE = 1 ∧ t.fld F.SLC_SCRUB_KIND = 2 ∧
        t.fld F.SLC_SCRUB_VF = n) ∧
      OnlyIn [.regs, .pwr, .exm, .exmMem, .qs, .slices, .sec, .mem, .cmn, .hbm, .yar, .ffe, .tsl, .cmp, .sns, .pci, .free,
        .out] s t)) ∧
  (∀ (n : Nat) (s : State), (s.slice n).flrBusy = true → exec (.vfFlr n) s = .next s) ∧
  (∀ s : State, s.boot.configReady = true → s.pwr.mode = .on → Ends .pf0Flr s (fun t =>
    t.slotState 0 = 0 ∧ t.exmBytes (slotAddr 0) 64 = List.replicate 64 0 ∧ t.pwr.pf0D3 = false ∧
    (∀ k, tst t.pci.busMaster k = (if k = 0 then false else tst s.pci.busMaster k)) ∧
    t.pci.numVfs = 0 ∧ t.pci.vfEnable = false ∧ OnlyIn [.pwr, .exm, .exmMem, .pci] s t)) ∧
  (∀ (n : Nat) (s : State), 1 ≤ n → n ≤ 63 → (s.slice n).clearing / 2 % 8 ≠ 0 → s.fld F.SLC_TEN_STATUS_STATE ≠ 3 →
    s.frozen = false → Ends (.sliceClearComplete n) s (fun t =>
      (t.slice n).clearing / 2 % 8 = 0 ∧ (t.slice n).flrBusy = false ∧ (t.slice n).gone = none ∧
      t.fld F.SLC_SCRUB_ACTIVE = 0 ∧ OnlyIn [.regs, .exm, .exmMem, .slices, .mem, .cmn, .hbm, .out] s t)) ∧
  (∀ (n : Nat) (s : State), (s.slice n).clearing / 2 % 8 = 0 → exec (.sliceClearComplete n) s = .next s)

/-- With the boot configuration-ready and the module on, SRIOV_CONFIG_WRITE leaves exactly the values written; one that
changes nothing leaves the state as it was. BUS_MASTER_CLEAR clears that VF's Bus Master Enable and no other bit; a
TDI that was in CONFIG_LOCKED is in ERROR after it. -/
def Obligations.ControlWritesPutTdisInError : Prop :=
  (∀ (nv : Nat) (en mse : Bool) (b0 b2 : Nat) (s : State), s.boot.configReady = true → s.pwr.mode = .on →
    Ends (.sriovConfigWrite nv en mse b0 b2) s (fun t =>
      t.pci = { s.pci with numVfs := nv % 65536, vfEnable := en, vfMse := mse, vfBar0 := b0, vfBar2 := b2 } ∧
      (t.pci = s.pci → t = s) ∧
      OnlyIn [.regs, .exm, .qs, .slices, .sec, .mem, .cmn, .hbm, .yar, .ffe, .tsl, .cmp, .sns, .pci, .free, .out] s t)) ∧
  (∀ (n : Nat) (s : State), 1 ≤ n → n ≤ 63 → s.boot.configReady = true → s.pwr.mode = .on →
    Ends (.busMasterClear n) s (fun t =>
    (∀ k, tst t.pci.busMaster k = (if k = n then false else tst s.pci.busMaster k)) ∧
    (s.tdi n = 1 → t.tdi n = 3 ∧ OnlyIn [.regs, .pci] s t) ∧
    OnlyIn [.regs, .exm, .qs, .slices, .sec, .mem, .cmn, .hbm, .yar, .ffe, .tsl, .cmp, .sns, .pci, .free, .out] s t))

/-- IDLE_CLOCK_GATE of an idle unit gates it. DOZE_ENTER with the tick running, on a part that is not frozen and whose
doze was asked for and is possible, enters doze; DOZE_EXIT_RESUME 200 µs after the exit ends it. PF0_D3HOT_ENTER and
VF_D3HOT_ENTER put the function in D3hot, and the returns take it out; a VF's queues then fetch from the next boundary
on. All of them touch power state alone. -/
def Obligations.DozeAndDStates : Prop :=
  (∀ (u : Nat) (s : State), u < 173 → s.unitIdle u = true → Ends (.idleClockGate u) s (fun t =>
    t.clockGated u = true ∧ OnlyIn [.pwr] s t)) ∧
  (∀ (u : Nat) (s : State), s.unitIdle u = false → exec (.idleClockGate u) s = .next s) ∧
  (∀ s : State, s.frozen = false → s.tick.running = true → s.pwr.doze = false →
    (s.pwr.dozeAsked = true ∧ s.dozeReady = true) ∨ (s.pwr.pf0D3 = true ∧ s.pwr.dispatchOff = true ∧ s.noContext = true) →
    Ends .dozeEnter s (fun t => t.pwr.doze = true ∧ t.pwr.dozeAsked = false ∧ OnlyIn [.pwr] s t)) ∧
  (∀ s : State, s.frozen = false → s.pwr.resumeFrom ≠ 0 → s.pwr.resumeFrom + 200000 ≤ s.runClk + 1 →
    Ends .dozeExitResume s (fun t => t.pwr.doze = false ∧ t.pwr.resumeFrom = 0 ∧
      (s.pwr.pf0D3 = false → t.pwr.dispatchOff = false) ∧ OnlyIn [.pwr] s t)) ∧
  (∀ s : State, s.frozen = false → s.runClk + 1 < s.pwr.resumeFrom + 200000 → exec .dozeExitResume s = .next s) ∧
  (∀ s : State, s.boot.configReady = true → s.pwr.mode = .on → Ends .pf0D3hotEnter s (fun t =>
    t.pwr.pf0D3 = true ∧ OnlyIn [.pwr] s t)) ∧
  (∀ s : State, s.pwr.pf0D3 = true → Ends .pf0D0Return s (fun t => t.pwr.pf0D3 = false ∧ t.pwr.dozeAsked = false ∧
    (s.pwr.doze = true → t.pwr.resumeFrom = s.runClk + 1) ∧ OnlyIn [.pwr] s t)) ∧
  (∀ (n : Nat) (s : State), 1 ≤ n → n ≤ 63 → s.boot.configReady = true → s.pwr.mode = .on →
    Ends (.vfD3hotEnter n) s (fun t =>
    (∀ k, tst t.pwr.vfD3 k = (if k = n then true else tst s.pwr.vfD3 k)) ∧ OnlyIn [.pwr] s t)) ∧
  (∀ (n : Nat) (s : State), 1 ≤ n → n ≤ 63 → tst s.pwr.vfD3 n = true → Ends (.vfD0Return n) s (fun t =>
    (∀ k, tst t.pwr.vfD3 k = (if k = n then false else tst s.pwr.vfD3 k)) ∧ tst t.pwr.vfResume n = true ∧
    OnlyIn [.pwr] s t))

/-- For an access through port H or D that reaches exchange address a, with no error among the words it touches and no
semaphore word among them: a read of bytes that the requester may read returns them and changes nothing else; a write
of bytes it may write, none of them of a trigger word, leaves the data there and every other exchange byte as it was.
A read of one word's part that the requester may not read returns zeros and is recorded in EXM_LAST_DENIED; a write of
one that it may not write leaves every byte. A read that touches a semaphore word and is not of one whole aligned word
returns 0xFF bytes, and only EXM_CNT_SEMA_MISUSE counts. A read or write of a VF at no place of its window reads zeros
or changes nothing. `v` is the state once the errors the access finds are taken in. -/
def Obligations.ExchangeReadsAndWrites : Prop :=
  (∀ (r : Req) (addr len a : Nat) (ups : Upsets) (s v : State), v = s.upset ups → v.target r addr = .exm a → 0 < len →
    (wordsOf a len).any v.inSema = false →
    ((∀ b, a ≤ b → b < a + len → v.mayAccess r b false = true) → (wordsOf a len).any v.hasUe = false →
      exec (.exchangeRead r addr len ups false) s = .next (v.emit (.readData r.port r.id (v.exmBytes a len) false))) ∧
    (a % 8 + len ≤ 8 → v.mayAccess r a false = false → Ends (.exchangeRead r addr len ups false) s (fun t =>
      t.out = .readData r.port r.id (List.replicate len 0) false :: v.out ∧ t.fld F.EXM_STATUS_DENIED_SEEN = 1 ∧
      t.fld F.EXM_LAST_DENIED_ADDR = a % 2 ^ 23 ∧ t.exm = v.exm))) ∧
  (∀ (r : Req) (addr len a : Nat) (ups : Upsets) (s v : State), v = s.upset ups → v.target r addr = .exm a →
    (wordsOf a len).any v.inSema = true → (a % 8 ≠ 0 ∨ len ≠ 8) → Ends (.exchangeRead r addr len ups false) s (fun t =>
      t.out = .readData r.port r.id (List.replicate len 0xFF) false :: v.out ∧ t.exm = v.exm ∧
      t.fld F.EXM_CNT_SEMA_MISUSE_COUNT = min (v.fld F.EXM_CNT_SEMA_MISUSE_COUNT + 1) (2 ^ 32 - 1) ∧
        OnlyIn [.regs, .out] v t)) ∧
  (∀ (r : Req) (addr a : Nat) (d : List Byte) (ups : Upsets) (s v : State), v = s.upset ups → v.target r addr = .exm a →
    d ≠ [] → (∀ b, a ≤ b → b < a + d.length → v.inSema b = false ∧ ¬ (0x7F0000 ≤ b ∧ 56 ≤ b % 64)) →
    ((∀ b, a ≤ b → b < a + d.length → v.mayAccess r b true = true) → (wordsOf a d.length).any v.hasUe = false →
      Ends (.exchangeWrite r addr d ups false) s (fun t =>
        t.exmBytes a d.length = d ∧
        (∀ b, b < a ∨ a + d.length ≤ b → fget (fun _ => (0 : Byte)) t.exm.mem b = fget (fun _ => (0 : Byte)) s.exm.mem b) ∧
        OnlyIn [.exm, .exmMem] v t)) ∧
    (a % 8 + d.length ≤ 8 → v.mayAccess r a true = false → Ends (.exchangeWrite r addr d ups false) s (fun t =>
      t.exm = v.exm ∧ t.fld F.EXM_STATUS_DENIED_SEEN = 1 ∧ OnlyIn [.regs] v t))) ∧
  (∀ (r : Req) (addr len : Nat) (d : List Byte) (s : State), s.target r addr = .nothing →
    exec (.exchangeRead r addr len [] false) s = .next (s.emit (.readData r.port r.id (List.replicate len 0) false)) ∧
    exec (.exchangeWrite r addr d [] false) s = .next s)

/-- A read of exactly one 8-byte-aligned word in a SEMA region, by a requester that may read there, as EXCHANGE_READ of 8
bytes or as SEMA_READ_ACQUIRE by itself: a free word gives 0 and holds the reader's token after it, every other byte
as it was; a held word gives its token and the answer is all that changes. -/
def Obligations.SemaphoreReadAcquires : Prop :=
  ∀ (r : Req) (addr a : Nat) (s : State) (cmd : Instr), s.target r addr = .exm a → s.inSema a = true → a % 8 = 0 →
    s.mayAccess r a false = true → cmd = .exchangeRead r addr 8 [] false ∨ cmd = .semaReadAcquire r addr none →
    (s.exmLe a 8 = 0 → Ends cmd s (fun t =>
      t.out = .readData r.port r.id (leBytes 8 0) false :: s.out ∧ t.exmBytes a 8 = leBytes 8 (token r) ∧
      (∀ b, b < a ∨ a + 8 ≤ b → fget (fun _ => (0 : Byte)) t.exm.mem b = fget (fun _ => (0 : Byte)) s.exm.mem b) ∧
      OnlyIn [.exm, .exmMem, .out] s t)) ∧
    (s.exmLe a 8 ≠ 0 → exec cmd s = .next (s.emit (.readData r.port r.id (leBytes 8 (s.exmLe a 8)) false)))

/-- SEMA_RELEASE_WRITE of 0 by the holder, who may write there, frees the word; any other value or writer is ignored and
counted. SWEEPER_VISIT frees every word held for its region's lease; with none held that long, or in a freeze, it
changes nothing. Two ports that acquire one free word in the same cycle: the winner by the bank's token reads 0 and
holds the word, and the token passes on. -/
def Obligations.SemaphoresRelease : Prop :=
  (∀ (r : Req) (addr a : Nat) (w : DWord) (s : State), s.target r addr = .exm a → s.inSema a = true → a % 8 = 0 →
    s.mayAccess r a true = true →
    (w = 0 → s.exmLe a 8 = token r → Ends (.semaReleaseWrite r addr w) s (fun t =>
      t.exmLe a 8 = 0 ∧
      (∀ b, b < a ∨ a + 8 ≤ b → fget (fun _ => (0 : Byte)) t.exm.mem b = fget (fun _ => (0 : Byte)) s.exm.mem b) ∧
      OnlyIn [.exm, .exmMem] s t)) ∧
    (w ≠ 0 ∨ s.exmLe a 8 ≠ token r → exec (.semaReleaseWrite r addr w) s = .next (s.bump F.EXM_CNT_SEMA_IGNORED_COUNT))) ∧
  (∀ s : State, s.frozen = false → Ends .sweeperVisit s (fun t =>
    (∀ (a since rgn : Nat) (g : Region), (a, since) ∈ s.exm.acq → s.regionAt a = some (rgn, g) → g.sema = true →
      g.lease ≠ 0 →
      g.lease * 1000 ≤ s.runClk + 1 - since → t.exmLe a 8 = 0 ∧ t.fld F.EXM_STATUS_LEASE_EXPIRED = 1) ∧
    OnlyIn (.exm :: .exmMem :: logParts) s t)) ∧
  (∀ s : State, s.frozen = true ∨ (∀ (a since rgn : Nat) (g : Region), (a, since) ∈ s.exm.acq →
      s.regionAt a = some (rgn, g) → g.lease = 0 ∨ s.runClk + 1 - since < g.lease * 1000) →
    exec .sweeperVisit s = .next s) ∧
  (∀ (r q : Req) (addr a : Nat) (s : State), s.target r addr = .exm a → s.inSema a = true → a % 8 = 0 → s.exmLe a 8 = 0 →
    s.mayAccess r a false = true → s.mayAccess q a false = true → r.port = 0 → q.port = 1 → r.id < 0x4000 → q.id < 0x4000 →
    Ends (.semaReadAcquire r addr (some q)) s (fun t =>
      (bitOf (s.reg R.EXM_TOKEN_PHASE).toNat (a / 0x80000) = 0 → t.exmLe a 8 = token r ∧
        t.out = .readData 1 q.id (leBytes 8 (token r)) false :: .readData 0 r.id (leBytes 8 0) false :: s.out) ∧
      (bitOf (s.reg R.EXM_TOKEN_PHASE).toNat (a / 0x80000) = 1 → t.exmLe a 8 = token q ∧
        t.out = .readData 0 r.id (leBytes 8 (token q)) false :: .readData 1 q.id (leBytes 8 0) false :: s.out) ∧
      bitOf (t.reg R.EXM_TOKEN_PHASE).toNat (a / 0x80000) = 1 - bitOf (s.reg R.EXM_TOKEN_PHASE).toNat (a / 0x80000)))

/-- A permitted producer's SLOT_POST makes an IDLE slot POSTED with its token and LEN; the consumer's SLOT_TAKE makes it
TAKEN, its SLOT_DONE makes it DONE, and an agent's notice slot IDLE at once; the producer's SLOT_WITHDRAW of a POSTED
slot and SLOT_RETURN_IDLE of a DONE one make the word 0. A write by one that is no party of the slot, or in another
state, is ignored and counted. The payload is not touched. -/
def Obligations.SlotsFollowTheirStates : Prop :=
  (∀ (r : Req) (k : Nat) (w : DWord) (s : State), s.slotState k = 0 → mayProduce k (token r) = true →
    bitsOf w.toNat 47 40 ≤ 56 → bitsOf w.toNat 39 32 = 0 → bitsOf w.toNat 7 3 = 0 → Ends (.slotPost r k w) s (fun t =>
      t.slotState k = 1 ∧ t.poster k = token r ∧ bitsOf (t.trigger k) 47 40 = bitsOf w.toNat 47 40 ∧
      bitsOf (t.trigger k) 63 48 = bitsOf w.toNat 63 48 ∧ t.exmBytes (slotAddr k) 56 = s.exmBytes (slotAddr k) 56 ∧
      OnlyIn [.regs, .exm, .exmMem, .out] s t)) ∧
  (∀ (r : Req) (k : Nat) (s : State), s.slotState k = 1 → s.isConsumer k (token r) = true → Ends (.slotTake r k) s (fun t =>
    t.slotState k = 2 ∧ t.poster k = s.poster k ∧ t.exmBytes (slotAddr k) 56 = s.exmBytes (slotAddr k) 56 ∧
    OnlyIn [.exm, .exmMem] s t)) ∧
  (∀ (r : Req) (k : Nat) (w : DWord) (s : State), s.slotState k = 1 ∨ s.slotState k = 2 → s.isConsumer k (token r) = true →
    bitsOf w.toNat 47 40 ≤ 56 → bitsOf w.toNat 39 32 = 0 → bitsOf w.toNat 7 3 = 0 → Ends (.slotDone r k w) s (fun t =>
      (k ≤ 1008 → t.slotState k = 3 ∧ bitsOf (t.trigger k) 15 8 = bitsOf w.toNat 15 8 ∧
        bitsOf (t.trigger k) 47 40 = bitsOf w.toNat 47 40) ∧
      (1009 ≤ k → t.trigger k = 0) ∧ t.exmBytes (slotAddr k) 56 = s.exmBytes (slotAddr k) 56 ∧
      OnlyIn [.regs, .exm, .exmMem, .out] s t)) ∧
  (∀ (r : Req) (k : Nat) (s : State), s.poster k = token r → (slotParties k).contains (token r) = true →
    (s.slotState k = 1 → Ends (.slotWithdraw r k) s (fun t => t.trigger k = 0 ∧ OnlyIn [.exm, .exmMem] s t)) ∧
    (s.slotState k = 3 → Ends (.slotReturnIdle r k) s (fun t => t.trigger k = 0 ∧ OnlyIn [.exm, .exmMem] s t))) ∧
  (∀ (r : Req) (k : Nat) (w : DWord) (s : State), (slotParties k).contains (token r) = false →
    exec (.slotPost r k w) s = .next (s.bump F.EXM_CNT_TRIG_REJECT_COUNT) ∧
    exec (.slotTake r k) s = .next (s.bump F.EXM_CNT_TRIG_REJECT_COUNT) ∧
    exec (.slotDone r k w) s = .next (s.bump F.EXM_CNT_TRIG_REJECT_COUNT) ∧
    exec (.slotWithdraw r k) s = .next (s.bump F.EXM_CNT_TRIG_REJECT_COUNT) ∧
    exec (.slotReturnIdle r k) s = .next (s.bump F.EXM_CNT_TRIG_REJECT_COUNT)) ∧
  (∀ (r : Req) (k : Nat) (w : DWord) (s : State), s.slotState k ≠ 0 ∨ mayProduce k (token r) = false →
    exec (.slotPost r k w) s = .next (s.bump F.EXM_CNT_TRIG_REJECT_COUNT))

/-- MSIX_HOLDOFF_END of a vector whose interval runs sends one message for the changes merged in it and begins a new
interval, or sets the Pending Bit where the vector is held, or ends the interval where none was merged. CLR_COUNTERS
with bit 0 zeroes every EXM_CNT_ register and no other; without it nothing changes. -/
def Obligations.MessagesArePacedAndCountersCleared : Prop :=
  (∀ (fn vec : Nat) (s : State) (p : MsixPace), p = fget (fun _ => ({} : MsixPace)) s.exm.msix (32 * fn + vec) →
    (p.busy = false → exec (.msixHoldoffEnd fn vec) s = .next s) ∧
    (p.busy = true → p.merged = true → s.msixHeld fn vec = false → Ends (.msixHoldoffEnd fn vec) s (fun t =>
      t.out = .msix fn vec :: s.out ∧
      fget (fun _ => ({} : MsixPace)) t.exm.msix (32 * fn + vec) = { p with merged := false } ∧ OnlyIn [.exm, .out] s t)) ∧
    (p.busy = true → p.merged = true → s.msixHeld fn vec = true → Ends (.msixHoldoffEnd fn vec) s (fun t =>
      fget (fun _ => ({} : MsixPace)) t.exm.msix (32 * fn + vec) = { p with busy := false, merged := false, pba := true } ∧
      OnlyIn [.exm] s t)) ∧
    (p.busy = true → p.merged = false → Ends (.msixHoldoffEnd fn vec) s (fun t =>
      fget (fun _ => ({} : MsixPace)) t.exm.msix (32 * fn + vec) = { p with busy := false } ∧ OnlyIn [.exm] s t))) ∧
  (∀ (v : Word) (s : State), tst v.toNat 0 = true → Ends (.clrCounters v) s (fun t =>
    t.fld F.EXM_CNT_COLLIDE_WW_COUNT = 0 ∧ t.fld F.EXM_CNT_COLLIDE_RW_COUNT = 0 ∧ t.fld F.EXM_CNT_COLLIDE_AA_COUNT = 0 ∧
    t.fld F.EXM_CNT_DENIED_COUNT = 0 ∧ t.fld F.EXM_CNT_SEMA_MISUSE_COUNT = 0 ∧ t.fld F.EXM_CNT_SEMA_IGNORED_COUNT = 0 ∧
    t.fld F.EXM_CNT_TRIG_REJECT_COUNT = 0 ∧ t.fld F.EXM_CNT_LEASE_COUNT = 0 ∧ t.fld F.EXM_CNT_ECC_CE_COUNT = 0 ∧
    t.fld F.EXM_CNT_ECC_UE_COUNT = 0 ∧ OnlyIn [.regs] s t ∧
    (∀ a, a < R.EXM_CNT_COLLIDE_WW ∨ R.EXM_CNT_ECC_UE + 4 ≤ a → t.reg a = s.reg a))) ∧
  (∀ (v : Word) (s : State), tst v.toNat 0 = false → exec (.clrCounters v) s = .next s)

/-- On a module that is on, a requester's aligned read of a LO register of its own BAR0 is answered and latches the HI
register's present value for that requester alone. Its read of a HI register gives the latched value where there is
one, and the present value where it has read no LO since a reset. No other command but a cold power-on, the return of
power and a warm reset changes any latch, observer reads included, and a start leaves none. -/
def Obligations.LoReadsLatch : Prop :=
  (∀ (fn a : Nat) (s : State), a / 0x100000000 = fn → a % 4 = 0 → s.pwr.mode = .on → isLo a = true →
    Ends (.loRegisterRead fn a) s (fun t =>
      t.out = .regData fn (s.readBy fn a) :: s.out ∧ (isHi a = false → s.readBy fn a = s.viewReg a) ∧
      (∀ k, fget (fun _ => 0) t.latch k =
        (if k = latchKey fn (a + 4) then (s.viewReg (a + 4)).toNat + 1 else fget (fun _ => 0) s.latch k)) ∧
      OnlyIn [.latch, .free, .out] s t)) ∧
  (∀ (fn a : Nat) (s : State), a / 0x100000000 = fn → a % 4 = 0 → s.pwr.mode = .on → isHi a = true →
    Ends (.loRegisterRead fn a) s (fun t =>
      (∀ v : Word, fget (fun _ => 0) s.latch (latchKey fn a) = v.toNat + 1 → t.out = .regData fn v :: s.out) ∧
      (fget (fun _ => 0) s.latch (latchKey fn a) = 0 → t.out = .regData fn (s.viewReg a) :: s.out))) ∧
  (∀ (c : Instr) (s t : State), exec c s = .next t → t.latch = s.latch ∨ (∃ fn a, c = .loRegisterRead fn a) ∨
    (∃ x y, c = .coldPowerOn x y ∨ c = .powerReturnRestart x y) ∨ (∃ x, c = .warmResetPerst x ∨ c = .warmResetHot x)) ∧
  (∀ (straps nor : Nat) (s t : State), exec (.coldPowerOn straps nor) s = .next t ∨
    (s.pwr.restartDue = true ∧ exec (.powerReturnRestart straps nor) s = .next t) ∨
    (s.pwr.mode = .on ∧ (exec (.warmResetPerst nor) s = .next t ∨ exec (.warmResetHot nor) s = .next t)) →
    ∀ k, fget (fun _ => 0) t.latch k = 0)

/-- For a register that the map assigns, that is fitted, has no command of its own, is not an enabled queue's setting nor
one that bounds what it takes, REGISTER_WRITE by the function whose BAR0 holds it leaves each RW field at the value
written, each W1C field with the bits written as 1 cleared, every other field as it was, and every other register as
it was. A write of an address of another function's, of one that the map does not assign, or of a unit that is not
fitted changes nothing. -/
def Obligations.RegisterWritesFollowAccess : Prop :=
  (∀ (fn a : Nat) (v : Word) (s : State) (r : RegRow), a / 0x100000000 = fn → a % 4 = 0 → s.pwr.mode = .on →
    s.unfitted a = false → ownRow a = false → s.queueLocked a = false → msixTable a = none → regRowAt a = some r →
    (a < 0x780100 ∨ 0x780300 ≤ a) → (∀ w, settingOf a w = w) → Ends (.registerWrite fn a v) s (fun t =>
      (∀ hi lo acc, (hi, lo, acc) ∈ r.flds → bitsOf (t.reg a).toNat hi lo =
        match acc with
        | .rw => bitsOf v.toNat hi lo
        | .w1c => Nat.land (bitsOf (s.reg a).toNat hi lo) (2 ^ (hi + 1 - lo) - 1 - bitsOf v.toNat hi lo)
        | _ => bitsOf (s.reg a).toNat hi lo) ∧
      (∀ b, b ≠ a → t.reg b = s.reg b) ∧ OnlyIn [.regs] s t)) ∧
  (∀ (fn a : Nat) (v : Word) (s : State), a / 0x100000000 ≠ fn ∨ a % 4 ≠ 0 ∨ s.unfitted a = true ∨
    (msixTable a = none ∧ regRowAt a = none) → exec (.registerWrite fn a v) s = .next s)

/-- For each of the engine's commands with its opcode of Table 05-3, with its request next: a LEN other than 56 ends it
with BAD_LEN; a caller that may not give it with NOT_PERMITTED; a diagnostic-only part that does not run it with
DIAGNOSTIC_ONLY; a frozen part that does not with FROZEN; a set Reserved bit with RESERVED_NONZERO and the lowest such
payload offset as DETAIL; in this order, and without any effect beyond taking and answering. While no request is next,
or its opcode is another, the command changes nothing. -/
def Obligations.EngineChecksInOrder : Prop :=
  ∀ (ups : Upsets) (norOk : Bool) (ns op : Nat) (cmd : Instr), (op, cmd) ∈ engineCommands ups norOk ns →
    (∀ s : State, s.nextSlot = none → exec cmd s = .next s) ∧
    (∀ (s : State) (k : Nat), s.nextSlot = some k → s.exmLe (slotAddr k) 2 ≠ op → exec cmd s = .next s) ∧
    (∀ (s v : State) (k : Nat) (c : Call) (r : CmdRow), s.nextSlot = some k → s.exmLe (slotAddr k) 2 = op →
      v = ((s.upset ups).trigTake engineToken k).bump F.CMD_CNT_TAKEN_COUNT → c = ⟨k, v.exmBytes (slotAddr k) 56⟩ →
      cmdRow op = some r →
      (bitsOf (v.trigger k) 47 40 ≠ 56 → Answered cmd s ups k v 0x13 0 []) ∧
      (bitsOf (v.trigger k) 47 40 = 56 → (wordsOf (slotAddr k) 56).any v.hasUe = false →
        (v.permitted r c = false → Answered cmd s ups k v 0x14 0 []) ∧
        (v.permitted r c = true → v.diagOnly = true → r.diag = false → Answered cmd s ups k v 0x17 0 []) ∧
        (v.permitted r c = true → v.diagOnly = false → v.frozen = true → r.frz = false → Answered cmd s ups k v 0x27 0 []) ∧
        (∀ o, v.permitted r c = true → v.diagOnly = false → v.frozen = false → o ∈ reservedOffsets r c.p →
          (∀ x, x ∈ reservedOffsets r c.p → o ≤ x) → Answered cmd s ups k v 0x12 o [])))

/-- Ending a request in a slot from 0 to 63 that the engine has taken leaves the slot DONE, its payload the response
(opcode, STATUS, TAG, DETAIL, RESULT), CMD_LAST at opcode, function and STATUS, and counts a STATUS above 1 as
rejected. UNKNOWN_OPCODE with an unlisted opcode next is answered with BAD_OPCODE, and with a LEN other than 56 with
BAD_LEN. The next request is slot 0's when posted, unless slot 0 was served last and a VF slot is posted; else the
next posted VF slot. -/
def Obligations.EngineEndsRequests : Prop :=
  (∀ (k status detail : Nat) (p result : List Byte) (u : State), k < 64 → p.length = 56 → status < 256 → u.slotState k = 2 →
    u.isConsumer k engineToken = true →
    (State.finish k p ⟨u, status, detail, result⟩).slotState k = 3 ∧
    (State.finish k p ⟨u, status, detail, result⟩).exmBytes (slotAddr k) 56 =
      sliceOf p 0 2 ++ leBytes 1 status ++ [0] ++ sliceOf p 4 4 ++ leBytes 4 detail ++ fitTo 44 result ∧
    (State.finish k p ⟨u, status, detail, result⟩).fld F.CMD_LAST_STATUS = status ∧
    (State.finish k p ⟨u, status, detail, result⟩).fld F.CMD_LAST_FUNCTION = k ∧
    (State.finish k p ⟨u, status, detail, result⟩).fld F.CMD_CNT_REJECTED_COUNT =
      (if status ≤ 1 then u.fld F.CMD_CNT_REJECTED_COUNT else min (u.fld F.CMD_CNT_REJECTED_COUNT + 1) (2 ^ 32 - 1)) ∧
    OnlyIn [.regs, .exm, .exmMem, .eng, .out] u (State.finish k p ⟨u, status, detail, result⟩)) ∧
  (∀ (ups : Upsets) (s v : State) (k : Nat), s.nextSlot = some k →
    v = ((s.upset ups).trigTake engineToken k).bump F.CMD_CNT_TAKEN_COUNT → (wordsOf (slotAddr k) 56).any v.hasUe = false →
    (bitsOf (s.trigger k) 47 40 ≠ 56 → Answered (.unknownOpcode ups) s ups k v 0x13 0 []) ∧
    (bitsOf (s.trigger k) 47 40 = 56 → cmdRow (s.exmLe (slotAddr k) 2) = none →
      Answered (.unknownOpcode ups) s ups k v 0x10 0 [])) ∧
  (∀ s : State, s.pwr.mode = .on → s.slotState 0 = 1 → s.eng.lastWasPf = false → s.nextSlot = some 0) ∧
  (∀ (s : State) (k : Nat), s.pwr.mode = .on → s.eng.lastWasPf = true → s.nextSlot = some k → k = 0 →
    ∀ j, 1 ≤ j → j ≤ 63 → s.slotState j ≠ 1) ∧
  (∀ (s : State) (k : Nat), s.nextSlot = some k → k ≤ 63 ∧ s.slotState k = 1)

/-- With its request next and past the checks of R163, NOP is answered with SUCCESS, IDENTIFY, TENANCY_STATUS, JOB_STATUS
and SLICE_STATUS with the bytes of Tables 05-8 and 05-9; SCHED_READ, LOG_READ, NVM_READ, OBSERVE_READ and ACCT_READ,
with a valid buffer and arguments in range, leave the entries, slots, NOR bytes, observed bytes or record in the
buffer. Beside the buffer no part of the state is touched. JOB_STATUS of a job that runs gives a PROGRESS up to TOTAL
(free, log entry 4). -/
def Obligations.StatusCommandsReport : Prop :=
  (∀ (s v : State) (ups : Upsets) (k : Nat) (c : Call), Asked s 0x0001 ups k v c → Answered (.nop ups) s ups k v 0 0 []) ∧
  (∀ (s v : State) (ups : Upsets) (k : Nat) (c : Call), Asked s 0x0002 ups k v c →
    Answered (.identify ups) s ups k v 0 0 (leBytes 2 (v.fld F.CMD_LEVEL_LEVEL) ++ leBytes 1 k ++ leBytes 1 v.tenancy ++
      leBytes 1 v.fused.stepping ++ leBytes 1 (b2n v.frozen))) ∧
  (∀ (s v : State) (ups : Upsets) (k j : Nat) (c : Call), Asked s 0x0003 ups k v c →
    (v.jobsOf k).find? (fun j => (v.job j).num == c.arg 8 2) = some j →
    ∃ done, ((v.job j).state = 3 → done = (v.job j).progress) ∧ ((v.job j).state ≠ 3 → done ≤ (v.job j).total) ∧
      Answered (.jobStatus ups) s ups k v.drawn 0 0 (leBytes 2 (v.job j).num ++ leBytes 2 (v.job j).op ++
        leBytes 1 (if (v.job j).state = 3 then 2 else b2n v.frozen) ++ leBytes 1 (v.job j).final ++ leBytes 2 0 ++
        leBytes 4 (v.job j).detail ++ leBytes 4 (v.job j).tag ++ leBytes 8 done ++ leBytes 8 (v.job j).total)) ∧
  (∀ (s v : State) (ups : Upsets) (k : Nat) (c : Call), Asked s 0x0104 ups k v c →
    Answered (.tenancyStatus ups) s ups k v 0 0 (leBytes 1 v.tenancy ++ leBytes 1 v.model ++
      leBytes 1 (v.fld F.SLC_TEN_STATUS_DEBUG_CONSENT) ++ leBytes 1 0 ++ leBytes 4 (v.fld F.SLC_TEN_ID_TENANCY_ID) ++
      leBytes 8 (v.sliced.foldl (fun m n => m + 2 ^ n) 0))) ∧
  (∀ (s v : State) (ups : Upsets) (k n : Nat) (c : Call), Asked s 0x0206 ups k v c → n = c.arg 8 1 → 1 ≤ n → n ≤ 63 →
    Answered (.sliceStatus ups) s ups k v 0 0 (if v.sliceState n = 0 then [] else
      leBytes 1 (v.sliceState n) ++ leBytes 1 (v.layoutOf n).mode ++ leBytes 2 (v.layoutOf n).share ++
      leBytes 8 (v.layoutOf n).clusters ++ leBytes 4 (v.layoutOf n).commons ++ leBytes 4 (v.layoutOf n).hbm ++
      leBytes 8 (v.pair (R.SLC_S_PENDING_LO n) (R.SLC_S_PENDING_HI n)))) ∧
  (∀ (s v : State) (ups : Upsets) (k : Nat) (c : Call) (d : List Byte), Asked s 0x0502 ups k v c → c.schedRange = none →
    v.bufferOk k (c.arg 16 4) (32 * c.arg 12 2) = true →
    d = ((List.range (c.arg 12 2)).map (fun i => leBytes 32 (v.entryAt (2048 * c.arg 8 1 + c.arg 10 2 + i)))).flatten →
    ∃ u, Answered (.schedRead ups) s ups k u 0 0 [] ∧ u.exmBytes (c.arg 16 4) d.length = d ∧ OnlyIn [.exm, .exmMem] v u) ∧
  (∀ (s v : State) (ups : Upsets) (k log : Nat) (c : Call) (d : List Byte), Asked s 0x0701 ups k v c → log = c.arg 8 1 →
    log ≤ 2 → c.arg 12 4 < (if log = 2 then 1024 else logSlots log) → 1 ≤ c.arg 16 4 → c.arg 16 4 ≤ 2048 →
    v.bufferOk k (c.arg 20 4) (32 * c.arg 16 4) = true → log = 2 ∨ v.bit F.EVR_STATUS_MOUNTED = true → v.norJob = false →
    d = (v.logSlice log (c.arg 12 4) (c.arg 16 4)).1.flatten →
    ∃ u r, Answered (.logRead true ups) s ups k u 0 0 r ∧ u.exmBytes (c.arg 20 4) d.length = d ∧
      OnlyIn [.exm, .exmMem] v u) ∧
  (∀ (s v : State) (ups : Upsets) (k n : Nat) (c : Call), Asked s 0x0703 ups k v c → n = c.arg 12 4 → 1 ≤ n → n ≤ 65536 →
    c.arg 8 4 + n ≤ 0x2000000 → v.bufferOk k (c.arg 16 4) n = true → v.norJob = false → v.evr.norDead = false →
    ∃ u, Answered (.nvmRead true ups) s ups k u 0 0 [] ∧ u.exmBytes (c.arg 16 4) n = v.norBytes (c.arg 8 4) n ∧
      OnlyIn [.exm, .exmMem, .free] v u) ∧
  (∀ (s v : State) (ups : Upsets) (k n : Nat) (c : Call), Asked s 0x0803 ups k v c → n = c.arg 0x10 4 → 1 ≤ n → n ≤ 65536 →
    v.obsBad (c.arg 8 2) (c.arg 0xA 2) (c.arg 0xC 4) n = none → v.bufferOk k (c.arg 0x14 4) n = true →
    v.fld F.FRZ_STATUS_STATE = 2 →
    ∃ u, Answered (.observeRead ups) s ups k u 0 0 (leBytes 4 n) ∧
      u.exmBytes (c.arg 0x14 4) n = (List.range n).map (fun i => v.obsByte (c.arg 8 2) (c.arg 0xA 2) (c.arg 0xC 4 + i) i) ∧
      OnlyIn [.regs, .exm, .exmMem, .free] v u) ∧
  (∀ (s v : State) (ups : Upsets) (k n : Nat) (c : Call), Asked s 0x0A01 ups k v c → n = c.arg 8 1 → n ≤ 63 →
    v.bufferOk k (c.arg 12 4) 256 = true → n = 0 ∨ v.sliceState n ≠ 0 →
    ∃ u, Answered (.acctRead ups) s ups k u 0 0 [] ∧
      u.exmBytes (c.arg 12 4) (v.acctRecord n).length = v.acctRecord n ∧ OnlyIn [.exm, .exmMem] v u)

/-- TENANCY_ADMIT of a booted, UNOWNED part whose random number generator works makes it ADMITTING with the next
TENANCY_ID and a new key; TENANCY_CLAIM of an ADMITTING one makes it OWNED by the calling VF with its TENANT_ID.
TENANCY_RELEASE starts a job, makes it RELEASING and destroys the key; so do FORCED_RELEASE and CLAIM_TIMEOUT once the
grace time has passed, which also set FORCED. RELEASE_JOB_END ends UNOWNED, with no slice, HBM and commons content
gone, and the job ended with SUCCESS. DEBUG_CONSENT_SET sets the consent of an OWNED part. In another tenancy state
each command is answered with BAD_STATE. -/
def Obligations.TenancyFollowsItsStates : Prop :=
  (∀ (s v : State) (ups : Upsets) (k : Nat) (c : Call), Asked s 0x0101 ups k v c → v.tenancy = 0 →
    v.fld F.BOOT_STATUS_STEP = 0xA → v.bit F.SEC_STATUS_RNG_FAIL = false → v.recovering = false →
    ∃ u, Answered (.tenancyAdmit ups) s ups k u 0 0 (leBytes 4 (v.sec.lastTen + 1)) ∧ u.tenancy = 1 ∧
      u.fld F.SEC_STATUS_TENANCY_KEY = 1 ∧ u.sec.keyGen = v.sec.keyGen + 1 ∧ u.sec.lastTen = v.sec.lastTen + 1 ∧
      u.sec.opLabel = sliceOf c.p 8 16 ∧ u.sec.tenantId = [] ∧ OnlyIn [.regs, .sec, .mem, .hbm] v u) ∧
  (∀ (s v : State) (ups : Upsets) (k : Nat) (c : Call), Asked s 0x0102 ups k v c → v.tenancy = 1 →
    ∃ u, Answered (.tenancyClaim ups) s ups k u 0 0 (leBytes 4 (v.fld F.SLC_TEN_ID_TENANCY_ID)) ∧ u.tenancy = 2 ∧
      u.fld F.SLC_TEN_STATUS_CLAIM_VF = k ∧ u.sec.tenantId = sliceOf c.p 8 48 ∧ OnlyIn [.regs, .sec] v u) ∧
  (∀ (s v : State) (ups : Upsets) (k : Nat) (c : Call), Asked s 0x0103 ups k v c → v.tenancy = 1 ∨ v.tenancy = 2 →
    v.jobLimit k = false → v.freeUnit.isSome = true →
    ∃ u n, Answered (.tenancyRelease ups) s ups k u 1 0 (leBytes 2 n) ∧ u.tenancy = 3 ∧
      u.fld F.SEC_STATUS_TENANCY_KEY = 0 ∧ u.fld F.SLC_SCRUB_ACTIVE = 1 ∧ u.fld F.SLC_SCRUB_KIND = 1) ∧
  (∀ (s v : State) (ups : Upsets) (k : Nat) (c : Call), Asked s 0x0105 ups k v c → c.arg 8 1 ≤ 1 → v.tenancy = 2 →
    ∃ u, Answered (.debugConsentSet ups) s ups k u 0 0 [] ∧ u.fld F.SLC_TEN_STATUS_DEBUG_CONSENT = c.arg 8 1 ∧
      OnlyIn [.regs] v u) ∧
  (∀ (s v : State) (ups : Upsets) (k : Nat) (c : Call),
    (Asked s 0x0101 ups k v c → v.tenancy ≠ 0 → Answered (.tenancyAdmit ups) s ups k v 0x15 0 []) ∧
    (Asked s 0x0102 ups k v c → v.tenancy ≠ 1 → Answered (.tenancyClaim ups) s ups k v 0x15 0 []) ∧
    (Asked s 0x0103 ups k v c → v.tenancy ≠ 1 → v.tenancy ≠ 2 → Answered (.tenancyRelease ups) s ups k v 0x15 0 []) ∧
    (Asked s 0x0105 ups k v c → c.arg 8 1 ≤ 1 → v.tenancy ≠ 2 → Answered (.debugConsentSet ups) s ups k v 0x15 0 [])) ∧
  (∀ (s : State) (j : Nat), s.jobOf 0x0103 = some j → s.frozen = false → Ends .releaseJobEnd s (fun t =>
    t.tenancy = 0 ∧ t.fld F.SLC_TEN_STATUS_DEBUG_CONSENT = 0 ∧ t.slices = [] ∧ t.mem.hbm = [] ∧ t.mem.cmn = [] ∧
    (t.job j).state = 3 ∧ (t.job j).final = 0)) ∧
  (∀ s : State, s.jobOf 0x0103 = none → exec .releaseJobEnd s = .next s) ∧
  (∀ s : State, s.tenancy = 2 → s.gracePassed = true → (∀ n, n ∈ s.tenancyVfs → s.tdi n ≠ 2) → s.freeUnit.isSome = true →
    Ends .forcedRelease s (fun t => t.tenancy = 3 ∧ t.fld F.SLC_TEN_STATUS_FORCED = 1 ∧
      t.fld F.SEC_STATUS_TENANCY_KEY = 0)) ∧
  (∀ s : State, s.tenancy = 1 → s.gracePassed = true → s.freeUnit.isSome = true →
    Ends .claimTimeout s (fun t => t.tenancy = 3 ∧ t.fld F.SLC_TEN_STATUS_FORCED = 1 ∧
      t.fld F.SEC_STATUS_TENANCY_KEY = 0)) ∧
  (∀ s : State, s.gracePassed = false → exec .forcedRelease s = .next s ∧ exec .claimTimeout s = .next s)

/-- SLICE_CREATE, SLICE_RESIZE and SLICE_DESTROY, with arguments in range, a slice in a state that takes them and the
resources there, are answered with the boundary, make the slice CREATING, RESIZING or DESTROYING, put their change
last among the pending ones and show its boundary; no other slice's registers are touched. SLICE_RESET starts a job
and marks the clearing; SLICE_RESET_JOB_END ends it. SLICE_BOUNDS_SET sets the six bounds. -/
def Obligations.SliceCommandsAreAccepted : Prop :=
  (∀ (s v : State) (ups : Upsets) (k n b : Nat) (c : Call), Asked s 0x0201 ups k v c → n = c.arg 8 1 →
    c.layoutRange v = none → v.tenancy = 2 → v.sliceState n = 0 ∨ v.sliceState n = 5 → v.recovering = false →
    v.resourceCheck n c.layout false = .inr b →
    ∃ u, Answered (.sliceCreate ups) s ups k u 0 0 (leBytes 8 (v.boundaryFor (c.arg 32 8))) ∧ u.sliceState n = 1 ∧
      u.eng.changes = v.eng.changes ++ [⟨1, n, v.boundaryFor (c.arg 32 8), c.layout, 0, b⟩] ∧
      u.pair (R.SLC_S_PENDING_LO n) (R.SLC_S_PENDING_HI n) = v.boundaryFor (c.arg 32 8) % 2 ^ 64 ∧
      (∀ m, m ≠ n → m ≤ 63 → u.sliceState m = v.sliceState m) ∧ OnlyIn [.regs, .exm, .eng, .out] v u) ∧
  (∀ (s v : State) (ups : Upsets) (k n b : Nat) (c : Call), Asked s 0x0202 ups k v c → n = c.arg 8 1 →
    c.layoutRange v = none → v.tenancy = 2 → v.sliceState n = 2 →
    v.rtNamed n = false ∨ Nat.lor (v.clustersOf n) c.layout.clusters = c.layout.clusters → v.recovering = false →
    v.resourceCheck n c.layout true = .inr b →
    ∃ u, Answered (.sliceResize ups) s ups k u 0 0 (leBytes 8 (v.boundaryFor (c.arg 32 8))) ∧ u.sliceState n = 3 ∧
      u.eng.changes = v.eng.changes ++ [⟨2, n, v.boundaryFor (c.arg 32 8), c.layout, 0, b⟩] ∧
      u.layoutOf n = v.layoutOf n ∧ OnlyIn [.regs, .exm, .eng, .out] v u) ∧
  (∀ (s v : State) (ups : Upsets) (k n t : Nat) (c : Call), Asked s 0x0203 ups k v c → n = c.arg 8 1 → 1 ≤ n → n ≤ 63 →
    v.atTick (c.arg 32 8) = .inr t → v.sliceState n ≠ 0 → v.sliceState n ≠ 5 → v.sliceState n ≠ 4 → v.pendingOf n = none →
    ∃ u, Answered (.sliceDestroy ups) s ups k u 0 0 (leBytes 8 t) ∧ u.sliceState n = 5 ∧
      u.eng.changes = v.eng.changes ++ [⟨3, n, t, {}, 0, 0⟩] ∧ u.layoutOf n = v.layoutOf n ∧
      OnlyIn [.regs, .exm, .eng, .slices, .out] v u) ∧
  (∀ (s v : State) (ups : Upsets) (k n : Nat) (c : Call), Asked s 0x0204 ups k v c → n = c.arg 8 1 → 1 ≤ n → n ≤ 63 →
    v.sliceState n = 2 ∨ v.sliceState n = 3 → v.jobLimit k = false → v.freeUnit.isSome = true →
    ∃ u m, Answered (.sliceReset ups) s ups k u 1 0 (leBytes 2 m) ∧ u.fld F.SLC_SCRUB_ACTIVE = 1 ∧
      u.fld F.SLC_SCRUB_KIND = 2 ∧ u.fld F.SLC_SCRUB_VF = n ∧ u.jobOf 0x0204 ≠ none) ∧
  (∀ (s v : State) (ups : Upsets) (k n : Nat) (c : Call), Asked s 0x0205 ups k v c → n = c.arg 8 1 → 1 ≤ n → n ≤ 63 →
    c.arg 9 1 ≤ 1 → c.arg 10 1 ≤ c.arg 11 1 → c.arg 11 1 ≤ 48 →
    ∃ u, Answered (.sliceBoundsSet ups) s ups k u 0 0 [] ∧ u.fld (F.SLC_S_BOUNDS_AUTO n) = c.arg 9 1 ∧
      u.fld (F.SLC_S_BOUNDS_MIN_CLUSTERS n) = c.arg 10 1 ∧ u.fld (F.SLC_S_BOUNDS_MAX_CLUSTERS n) = c.arg 11 1 ∧
      (u.reg (R.SLC_B_MIN_COMMONS n)).toNat = c.arg 12 4 ∧ (u.reg (R.SLC_B_MAX_COMMONS n)).toNat = c.arg 16 4 ∧
      (u.reg (R.SLC_B_MIN_HBM n)).toNat = c.arg 20 4 ∧ (u.reg (R.SLC_B_MAX_HBM n)).toNat = c.arg 24 4 ∧
      OnlyIn [.regs, .slices] v u) ∧
  (∀ (s : State) (j : Nat), s.jobOf 0x0204 = some j → s.frozen = false → s.tenancy ≠ 3 → Ends .sliceResetJobEnd s (fun t =>
    (t.job j).state = 3 ∧ (t.job j).final = 0 ∧ t.fld F.SLC_SCRUB_ACTIVE = 0 ∧
    tst (t.slice (s.job j).a).clearing 0 = false)) ∧
  (∀ s : State, s.jobOf 0x0204 = none ∨ s.frozen = true ∨ s.tenancy = 3 → exec .sliceResetJobEnd s = .next s)

/-- PENDING_LAYOUT_APPLY takes exactly the layout changes that are due off the list. A due SLICE_CREATE, alone, makes its
slice ACTIVE with its layout and reservation; a due SLICE_DESTROY, alone, leaves the VF without a slice, its resources
held until the clearing ends. DRAIN_CLUSTER_PASS with no context resident leaves no cluster draining. Neither acts in
a freeze. -/
def Obligations.LayoutsChangeAtTheBoundary : Prop :=
  (∀ (cycles : Nat) (s : State), s.frozen = false → Ends (.pendingLayoutApply cycles) s (fun t =>
    t.eng.changes = s.eng.changes.filter (fun c => c.kind == 4 || decide (s.tickCount < c.tick)))) ∧
  (∀ (cycles n tick hyper b : Nat) (l : Layout) (s : State), 1 ≤ n → n ≤ 63 → s.frozen = false → tick ≤ s.tickCount →
    s.eng.changes = [⟨1, n, tick, l, hyper, b⟩] → Ends (.pendingLayoutApply cycles) s (fun t =>
      t.sliceState n = 2 ∧ t.clustersOf n = l.clusters % 2 ^ 48 ∧ (t.slice n).base = b ∧
      t.pair (R.SLC_S_PENDING_LO n) (R.SLC_S_PENDING_HI n) = 0 ∧ (t.slice n).map = [] ∧ t.eng.changes = [])) ∧
  (∀ (cycles n tick hyper b : Nat) (l : Layout) (s : State), 1 ≤ n → n ≤ 63 → s.frozen = false → tick ≤ s.tickCount →
    s.eng.changes = [⟨3, n, tick, l, hyper, b⟩] → Ends (.pendingLayoutApply cycles) s (fun t =>
      t.sliceState n = 0 ∧ (t.slice n).gone.isSome = true ∧ (t.slice n).map = [] ∧ (t.slice n).clearing = 8 ∧
      t.fld F.SLC_SCRUB_KIND = 4 ∧ t.fld F.SLC_SCRUB_VF = n)) ∧
  (∀ s : State, s.frozen = false → s.noContext = true → Ends .drainClusterPass s (fun t =>
    (∀ n, 1 ≤ n → n ≤ 63 → t.drainOf n = 0) ∧ OnlyIn [.regs, .exm, .yar, .out] s t)) ∧
  (∀ (cycles : Nat) (s : State), s.frozen = true →
    exec (.pendingLayoutApply cycles) s = .next s ∧ exec .drainClusterPass s = .next s)

/-- With arguments in range and no conflict, EXCHANGE_REGION_SET leaves the region it describes and no other region
changed; EXCHANGE_WINDOW_SET the window base; SLOWDOWN_SET the threshold, count and action of its slice, or of all of
them for VF 0. SCHED_WRITE of entries that pass the checks stores each with its check byte; SCHED_SWAP shows its
boundary and is pending; SCHED_SWAP_APPLY at that boundary makes the other bank active at position 0. -/
def Obligations.ExchangeAndScheduleCommands : Prop :=
  (∀ (s v : State) (ups : Upsets) (k r : Nat) (c : Call), Asked s 0x0301 ups k v c → r = c.arg 8 1 → r ≤ 127 →
    c.region.kind ≤ 2 → c.region.vf ≤ 63 → (c.region.kind = 0 ↔ c.region.vf = 0) → c.arg 11 1 ≤ 1 → c.arg 12 4 < 2 ^ 17 →
    c.arg 16 4 < 2 ^ 17 → c.region.lease ≤ 1000000 → v.regionConflict (v.regionsWith r c.region) = false →
    ∃ u, Answered (.exchangeRegionSet ups) s ups k u 0 0 [] ∧ u.region r = c.region ∧
      (∀ q, q ≠ r → q ≤ 127 → u.region q = v.region q) ∧ OnlyIn (.exm :: .exmMem :: logParts) v u) ∧
  (∀ (s v : State) (ups : Upsets) (k n : Nat) (c : Call), Asked s 0x0302 ups k v c → n = c.arg 8 1 → 1 ≤ n → n ≤ 63 →
    c.arg 12 4 ≤ 1969 → (∀ r, r < 128 → (v.region r).size = 0 ∨ (v.region r).kind = 0 ∨ (v.region r).vf ≠ n ∨
      inWindow (v.region r) (4096 * c.arg 12 4) = true) →
    ∃ u, Answered (.exchangeWindowSet ups) s ups k u 0 0 [] ∧ u.fld (F.EXM_VF_WIN_BASE n) = c.arg 12 4 ∧
      OnlyIn logParts v u) ∧
  (∀ (s v : State) (ups : Upsets) (k n : Nat) (c : Call), Asked s 0x0207 ups k v c → n = c.arg 8 1 → n ≤ 63 →
    c.arg 9 1 ≤ 1 → c.arg 10 2 = 0 ∨ (256 < c.arg 10 2 ∧ c.arg 12 2 ≠ 0) →
    ∃ u, Answered (.slowdownSet ups) s ups k u 0 0 [] ∧
      (∀ m, 1 ≤ m → m ≤ 63 → n = 0 ∨ m = n → u.fld (F.SCH_SD_CFG_THRESHOLD m) = c.arg 10 2 ∧
        u.fld (F.SCH_SD_CFG_PERSIST m) = c.arg 12 2 ∧ u.fld (F.SCH_SD_STATE_ACTION m) = c.arg 9 1) ∧
      OnlyIn [.regs, .sch] v u) ∧
  (∀ (s v : State) (ups : Upsets) (k bank first n : Nat) (c : Call) (es : List Entry) (get : Nat → Entry),
    Asked s 0x0501 ups k v c → c.schedRange = none → bank = c.arg 8 1 → first = c.arg 10 2 → n = c.arg 12 2 →
    v.bufferOk k (c.arg 16 4) (32 * n) = true → v.bufferUe (c.arg 16 4) (32 * n) = false →
    es = (List.range n).map (fun i => stamp (v.exmLe (c.arg 16 4 + 32 * i) 32) (v.entryAt (2048 * bank + (first + i)))) →
    get = (fun i => if first ≤ i && i < first + n then es.getD (i - first) 0 else v.entryAt (2048 * bank + i)) →
    v.checkEntries v.layNow v.period10 get ((List.range n).map (first + ·)) = none →
    (v.hyperOf bank).bind (fun h => exclWithRt get h ((List.range n).map (first + ·))) = none → v.recovering = false →
    ∃ u, Answered (.schedWrite ups) s ups k u 0 0 [] ∧
      (∀ i, i < n → some (u.entryAt (2048 * bank + first + i)) = es[i]?) ∧
      (∀ i, i < 2048 * bank + first ∨ 2048 * bank + first + n ≤ i → u.entryAt i = v.entryAt i) ∧ OnlyIn [.sch] v u) ∧
  (∀ (s v : State) (ups : Upsets) (k h t : Nat) (c : Call), Asked s 0x0503 ups k v c → h = c.arg 8 1 → 1 ≤ h → h ≤ 64 →
    v.atTick (c.arg 16 8) = .inr t →
    v.checkEntries v.layNext (v.periodNext t) (fun i => v.entryAt (2048 * (1 - v.bank) + i)) (List.range (32 * h)) = none →
    exclWithRt (fun i => v.entryAt (2048 * (1 - v.bank) + i)) h [] = none → v.swapPending = none → v.recovering = false →
    ∃ u, Answered (.schedSwap ups) s ups k u 0 0 (leBytes 8 t) ∧ u.swapPending = some (t, h) ∧
      u.fld F.SCH_STATUS_SWAP_PENDING = 1 ∧ u.bank = v.bank ∧ OnlyIn [.regs, .eng] v u) ∧
  (∀ (s : State) (t h : Nat), s.swapPending = some (t, h) → t ≤ s.tickCount → s.frozen = false → h ≤ 64 →
    Ends .schedSwapApply s (fun u =>
      u.bank = 1 - s.bank ∧ u.hyper = h ∧ u.position = 0 ∧ u.fld F.SCH_STATUS_SWAP_PENDING = 0 ∧ u.swapPending = none ∧
      OnlyIn (.eng :: .sch :: logParts) s u)) ∧
  (∀ (s : State), s.swapPending = none ∨ s.frozen = true → exec .schedSwapApply s = .next s)

/-- With its checks passed, TICK_CONFIG keeps role and sources for the next boundary, makes a period change pending at its
boundary, and sets holdoff, qualification and the error limit. TICK_REACQUIRE stops the tick, listens and starts a
job. TIME_SET and CAL_SET on a master make a time pending at their boundary, CAL_SET the TAI time of the civil date; a
date that does not exist is answered with BAD_DATE and counted. UTC_OFFSET_SET takes the offset at once or makes it
pending. -/
def Obligations.TickAndTimeCommands : Prop :=
  (∀ (s v : State) (ups : Upsets) (k : Nat) (c : Call), Asked s 0x0601 ups k v c → v.tickConfigCheck c = none →
    ∃ u, Answered (.tickConfig ups) s ups k u 0 0 [] ∧
      (tst (c.arg 8 4) 0 = true → ∃ p q, u.tick.pendCfg = some (c.arg 12 1, p, q)) ∧
      (tst (c.arg 8 4) 1 = true → ∃ r, u.tick.pendCfg = some (r, c.arg 13 1, c.arg 14 1)) ∧
      (tst (c.arg 8 4) 2 = true → u.fld F.TCK_CONFIG_IN_DIV = c.arg 16 2) ∧
      (tst (c.arg 8 4) 3 = true → u.fld F.TCK_STATUS_PERIOD_PENDING = 1 ∧ u.fld F.TCK_NEXT_PERIOD_PERIOD = c.arg 20 4 ∧
        u.pair R.TCK_NEXT_AT_LO R.TCK_NEXT_AT_HI = v.periodAt c % 2 ^ 64 ∧
          u.fld F.TCK_PERIOD_PERIOD = v.fld F.TCK_PERIOD_PERIOD) ∧
      (tst (c.arg 8 4) 4 = true → u.fld F.TCK_HOLDOFF_HOLDOFF_MS = c.arg 32 4) ∧
      (tst (c.arg 8 4) 5 = true → u.fld F.TCK_QUAL_LOSS_COUNT = c.arg 18 1 ∧ u.fld F.TCK_QUAL_WINDOW = c.arg 36 2) ∧
      (tst (c.arg 8 4) 6 = true → u.fld F.TCK_MAX_ERR_MAX_ERR_US = c.arg 38 2) ∧ OnlyIn [.regs, .tick] v u) ∧
  (∀ (s v : State) (ups : Upsets) (k st d : Nat) (c : Call), Asked s 0x0601 ups k v c → v.tickConfigCheck c = some (st, d) →
    Answered (.tickConfig ups) s ups k v st d []) ∧
  (∀ (s v : State) (ups : Upsets) (k : Nat) (c : Call), Asked s 0x0602 ups k v c → v.tenancy = 0 → v.acquiring = false →
    v.jobLimit k = false → v.freeUnit.isSome = true →
    ∃ u n, Answered (.tickReacquire ups) s ups k u 1 0 (leBytes 2 n) ∧ u.tick.listening = true ∧ u.tick.running = false ∧
      u.tick.pendTime = none ∧ u.eng.changes = [] ∧ u.fld F.TCK_STATUS_RESYNC_REQUIRED = 0 ∧ u.jobOf 0x0602 ≠ none) ∧
  (∀ (s v : State) (ups : Upsets) (k t : Nat) (c : Call), Asked s 0x0603 ups k v c → v.atTick (c.arg 16 8) = .inr t →
    v.timeCheck = none →
    ∃ u, Answered (.timeSet ups) s ups k u 0 0 (leBytes 8 t) ∧ u.tick.pendTime = some (t, c.arg 8 8, 0x0603) ∧
      OnlyIn [.tick] v u) ∧
  (∀ (s v : State) (ups : Upsets) (k t tai : Nat) (c : Call), Asked s 0x0604 ups k v c →
    dateOk (c.arg 8 2) (c.arg 10 1) (c.arg 11 1) (c.arg 12 1) (c.arg 13 1) (c.arg 14 1) = true →
    v.atTick (c.arg 16 8) = .inr t → v.timeCheck = none →
    tai = (((civilSecs (c.arg 8 2) (c.arg 10 1) (c.arg 11 1) (c.arg 12 1) (c.arg 13 1) (c.arg 14 1) : Nat) : Int) +
      v.utcOffset).toNat * 1000000000 →
    ∃ u, Answered (.calSet ups) s ups k u 0 0 (leBytes 8 t ++ leBytes 8 tai) ∧
      u.tick.pendTime = some (t, tai, 0x0604) ∧ OnlyIn [.tick] v u) ∧
  (∀ (s v : State) (ups : Upsets) (k : Nat) (c : Call), Asked s 0x0604 ups k v c →
    dateOk (c.arg 8 2) (c.arg 10 1) (c.arg 11 1) (c.arg 12 1) (c.arg 13 1) (c.arg 14 1) = false →
    ∃ u, Answered (.calSet ups) s ups k u 0x1D 0 [] ∧ u.fld F.CAL_STATUS_BAD_DATE = 1 ∧ OnlyIn logParts v u) ∧
  (∀ (s v : State) (ups : Upsets) (k : Nat) (c : Call), Asked s 0x0605 ups k v c → c.arg 10 1 = 0 →
    ∃ u, Answered (.utcOffsetSet ups) s ups k u 0 0 [] ∧ u.fld F.CAL_UTC_OFFSET_OFFSET = c.arg 8 2 ∧
      u.fld F.CAL_STATUS_UTC_SET = 1 ∧ u.fld F.CAL_STATUS_UTC_PENDING = 0 ∧ OnlyIn [.regs, .tick] v u) ∧
  (∀ (s v : State) (ups : Upsets) (k : Nat) (c : Call), Asked s 0x0605 ups k v c → c.arg 10 1 = 1 → v.timeValid = true →
    v.tai < c.arg 16 8 →
    ∃ u, Answered (.utcOffsetSet ups) s ups k u 0 0 [] ∧ u.fld F.CAL_UTC_NEXT_NEXT_OFFSET = c.arg 8 2 ∧
      u.pair R.CAL_UTC_NEXT_AT_LO R.CAL_UTC_NEXT_AT_HI = c.arg 16 8 ∧ u.fld F.CAL_STATUS_UTC_PENDING = 1 ∧
      u.fld F.CAL_UTC_OFFSET_OFFSET = v.fld F.CAL_UTC_OFFSET_OFFSET ∧ OnlyIn [.regs] v u)

/-- LOG_CLEAR and NVM_ERASE with valid arguments start their jobs. NVM_WRITE of blank bytes outside the boot record and
the fence list, in a part that is UNOWNED, programs them and no other byte; where the device fails it ends with
NVM_FAILED; a protected range is answered with NVM_PROTECTED, and then the NOR device is as it was. NVM_ERASE_JOB_END
leaves the sectors it erased blank, and ends the job; a device that failed ends it with NVM_FAILED. LOG_CLEAR_JOB_END
ends its job. No device byte outside the erased sectors changes in an erase job. -/
def Obligations.RecorderAndNvmCommands : Prop :=
  (∀ (s v : State) (ups : Upsets) (k log : Nat) (c : Call), Asked s 0x0702 ups k v c → log = c.arg 8 1 → log ≤ 1 →
    c.arg 12 4 = 0x4C4F4743 → v.jobLimit k = false → v.norJob = false → v.freeUnit.isSome = true →
    ∃ u n, Answered (.logClear ups) s ups k u 1 0 (leBytes 2 n) ∧ u.evr.clearing = log + 1 ∧ u.jobOf 0x0702 ≠ none ∧
      OnlyIn [.evr, .eng] v u) ∧
  (∀ (s v : State) (ups : Upsets) (k o n : Nat) (c : Call), Asked s 0x0704 ups k v c → o = c.arg 8 4 → n = c.arg 12 4 →
    1 ≤ n → n ≤ 256 → o + n ≤ 0x2000000 → o / 256 = (o + n - 1) / 256 →
    (nvmProtected o n = true → Answered (.nvmWrite true ups) s ups k v 0x20 0 []) ∧
    (nvmProtected o n = false → v.bufferOk k (c.arg 16 4) n = true → v.bufferUe (c.arg 16 4) n = false → v.tenancy = 0 →
      v.norJob = false → v.norBytes o n = List.replicate n 0xFF →
      (∃ u, Answered (.nvmWrite true ups) s ups k u 0 0 [] ∧
        (∀ i, i < n → fget norErased u.evr.nor (o + i) = fget norErased v.evr.nor (o + i) &&&
          (v.exmBytes (c.arg 16 4) n).getD i 0) ∧
        (∀ a, a < o ∨ o + n ≤ a → fget norErased u.evr.nor a = fget norErased v.evr.nor a) ∧
        OnlyIn (.nor :: logParts) v u) ∧
      (∃ u, Answered (.nvmWrite false ups) s ups k u 0x23 0 [] ∧ u.evr.nor = v.evr.nor ∧ OnlyIn (.nor :: logParts) v u))) ∧
  (∀ (s v : State) (ups : Upsets) (k o n : Nat) (c : Call), Asked s 0x0705 ups k v c → o = c.arg 8 4 → n = c.arg 12 4 →
    o % 4096 = 0 → 1 ≤ n → n ≤ 1024 → o + 4096 * n ≤ 0x2000000 →
    (nvmProtected o (4096 * n) = true → Answered (.nvmErase ups) s ups k v 0x20 0 []) ∧
    (nvmProtected o (4096 * n) = false → v.tenancy = 0 → v.jobLimit k = false → v.norJob = false →
      v.freeUnit.isSome = true →
      ∃ u m, Answered (.nvmErase ups) s ups k u 1 0 (leBytes 2 m) ∧ u.jobOf 0x0705 ≠ none ∧ OnlyIn [.eng] v u)) ∧
  (∀ (done j : Nat) (s : State), s.jobOf 0x0705 = some j → s.frozen = false → Ends (.nvmEraseJobEnd done) s (fun t =>
    (t.job j).state = 3 ∧ (t.job j).final = (if done < (s.job j).b then 0x23 else 0) ∧
    (∀ a, (s.job j).a ≤ a → a < (s.job j).a + 4096 * min done (s.job j).b → fget norErased t.evr.nor a = 0xFF ∧
      fget (fun _ => 0) t.evr.norOpen a = 0) ∧
    (∀ a, a < (s.job j).a ∨ (s.job j).a + 4096 * (s.job j).b ≤ a →
      fget norErased t.evr.nor a = fget norErased s.evr.nor a) ∧
    OnlyIn (.exm :: .nor :: .eng :: .free :: logParts) s t)) ∧
  (∀ (j : Nat) (s : State), s.jobOf 0x0702 = some j → s.frozen = false → Ends .logClearJobEnd s (fun t =>
    (t.job j).state = 3 ∧ (t.job j).final = 0 ∧ t.evr.clearing = 0 ∧
      OnlyIn (.exm :: .nor :: .eng :: .free :: logParts) s t)) ∧
  (∀ (done : Nat) (s : State), s.jobOf 0x0702 = none → s.jobOf 0x0705 = none →
    exec .logClearJobEnd s = .next s ∧ exec (.nvmEraseJobEnd done) s = .next s)

/-- FREEZE on a running part leaves it FROZEN with source 2; THAW on a FROZEN part begins the thaw, and on one that is not
frozen is answered with BAD_STATE. FENCE_UNIT of a unit that is fitted, not fenced and not in use fences it; of one
fenced already it is answered with BAD_STATE, and of one in use with UNIT_IN_USE. UNFENCE_UNIT only appends to the
fence list. POWER_STATE asks for doze, or leaves it; POWER_CAP_SET takes a cap from 200 W to the assembly's maximum. -/
def Obligations.FreezeFenceAndPowerCommands : Prop :=
  (∀ (s v : State) (ups : Upsets) (k ns : Nat) (c : Call), Asked s 0x0801 ups k v c → c.arg 8 1 ≤ 1 → v.frozen = false →
    ∃ u, Answered (.freeze ns ups) s ups k u 0 0 [] ∧ u.fld F.FRZ_STATUS_STATE = 2 ∧ u.fld F.FRZ_STATUS_SOURCE = 2 ∧
      u.fld F.FRZ_LAST_LOCAL_NS = min ns 2047 ∧ u.pwr.freezeDrive = true ∧ OnlyIn logParts v u) ∧
  (∀ (s v : State) (ups : Upsets) (k : Nat) (c : Call), Asked s 0x0802 ups k v c → c.arg 8 1 ≤ 1 →
    (v.fld F.FRZ_STATUS_STATE = 2 → ∃ u, Answered (.thaw ups) s ups k u 0 0 [] ∧ u.fld F.FRZ_STATUS_STATE = 3 ∧
      u.fld F.FRZ_STATUS_BLANKING = 1 ∧ u.pwr.freezeDrive = false ∧ OnlyIn logParts v u) ∧
    (v.frozen = false → Answered (.thaw ups) s ups k v 0x15 0 [])) ∧
  (∀ (s v : State) (ups : Upsets) (k n : Nat) (c : Call), Asked s 0x0B01 ups k v c → unitOf (c.arg 8 2) = some n →
    n ≠ 0 → n ≠ 2 → n ≠ 86 → v.fitted n = true →
    (v.fencedNow n = true → Answered (.fenceUnit ups) s ups k v 0x15 0 []) ∧
    (v.fencedNow n = false → v.unitHeld n = true → Answered (.fenceUnit ups) s ups k v 0x1F 0 []) ∧
    (v.fencedNow n = false → v.unitHeld n = false → [2, 5, 8, 12].contains (classOf n) = false ∨ v.tenancy = 0 →
      ∃ u, Answered (.fenceUnit ups) s ups k u 0 0 [] ∧
      u.fencedNow n = true ∧ (∀ m, tst v.flt.rtMask m = true → tst u.flt.rtMask m = true) ∧
      OnlyIn (.flt :: .nor :: logParts) v u)) ∧
  (∀ (s v : State) (ups : Upsets) (k n : Nat) (c : Call), Asked s 0x0B02 ups k v c → unitOf (c.arg 8 2) = some n →
    ∃ u, Answered (.unfenceUnit ups) s ups k u 0 0 [] ∧ u.fencedNow n = v.fencedNow n ∧ OnlyIn [.regs, .nor] v u) ∧
  (∀ (s v : State) (ups : Upsets) (k : Nat) (c : Call), Asked s 0x0C01 ups k v c →
    (c.arg 8 1 = 1 → v.activeRt = false → ∃ u, Answered (.powerState ups) s ups k u 0 0 [] ∧ u.pwr.dozeAsked = true ∧
      OnlyIn [.pwr] v u) ∧
    (c.arg 8 1 = 1 → v.activeRt = true → Answered (.powerState ups) s ups k v 0x2D 0 []) ∧
    (c.arg 8 1 = 0 → ∃ u, Answered (.powerState ups) s ups k u 0 0 [] ∧ u.pwr.dozeAsked = false ∧
      (v.pwr.doze = true → u.pwr.resumeFrom = v.runClk + 1) ∧ OnlyIn [.pwr] v u)) ∧
  (∀ (s v : State) (ups : Upsets) (k : Nat) (c : Call), Asked s 0x0C02 ups k v c → 200 ≤ c.arg 8 2 →
    c.arg 8 2 ≤ v.fused.maxPower → ∃ u, Answered (.powerCapSet ups) s ups k u 0 0 [] ∧ u.capMw = 1000 * c.arg 8 2 ∧
      OnlyIn [.frz] v u)

/-- MODEL_LOAD with aligned arguments and no model starts a job with MODEL loading; MODEL_UNLOAD of a resident one a job
with MODEL unloading, the measurement registers zero. MODEL_LOAD_JOB_END of a package that fails a check leaves MODEL
none, no frame held by a model and the job ended with that check's status and DETAIL; of one that passes them all with
its whole output placed it leaves MODEL resident with the package's digest and SUCCESS. MODEL_UNLOAD_JOB_END leaves
MODEL none. ATTEST with a valid buffer leaves the report and its signature there, and ends with SIGN_FAILED where
signing fails. -/
def Obligations.ModelsAndReports : Prop :=
  (∀ (s v : State) (ups : Upsets) (k : Nat) (c : Call), Asked s 0x0401 ups k v c → c.arg 8 8 % 64 = 0 → 1 ≤ c.arg 16 8 →
    c.arg 16 8 ≤ 2 ^ 40 → v.tenancy = 2 → v.model = 0 → v.jobLimit k = false → v.freeUnit.isSome = true →
    ∃ u n, Answered (.modelLoad ups) s ups k u 1 0 (leBytes 2 n) ∧ u.model = 1 ∧ u.fld F.SEC_STATUS_LOAD_ACTIVE = 1 ∧
      u.jobOf 0x0401 ≠ none ∧ OnlyIn [.regs, .exm, .eng, .sec, .out] v u) ∧
  (∀ (s v : State) (ups : Upsets) (k : Nat) (c : Call), Asked s 0x0402 ups k v c → v.model = 2 → v.jobLimit k = false →
    v.freeUnit.isSome = true →
    ∃ u n, Answered (.modelUnload ups) s ups k u 1 0 (leBytes 2 n) ∧ u.model = 3 ∧ u.mem.model = [] ∧
      (∀ i, i < 12 → u.reg (R.SEC_MODEL_DIGEST i) = 0) ∧ u.fld F.SLC_SCRUB_KIND = 3 ∧ u.jobOf 0x0402 ≠ none) ∧
  (∀ (r : PkgRead) (s : State) (j : Nat) (e : LoadFail), s.jobOf 0x0401 = some j → s.frozen = false →
    s.loadCheck (s.job j).b r = .inl e → Ends (.modelLoadJobEnd r) s (fun t =>
      t.model = 0 ∧ t.mem.model = [] ∧ t.fld F.SEC_STATUS_LOAD_ACTIVE = 0 ∧ (t.job j).state = 3 ∧
      (t.job j).final = e.status ∧ (t.job j).detail = e.check * 2 ^ 24 + e.crypto * 2 ^ 16)) ∧
  (∀ (r : PkgRead) (s : State) (j : Nat) (h : List Byte), s.jobOf 0x0401 = some j → s.frozen = false →
    s.loadCheck (s.job j).b r = .inr h → s.sec.loadHash ≠ [] → s.sec.decodeBad = false → s.sec.loadOut = leAt h 0x20 8 →
    s.sec.loadHash = sliceOf h 0xA8 48 → Ends (.modelLoadJobEnd r) s (fun t =>
      t.model = 2 ∧ t.fld F.SEC_STATUS_LOAD_ACTIVE = 0 ∧ t.sec.headerDigest = Config.sha384 h ∧ (t.job j).state = 3 ∧
      (t.job j).final = 0 ∧ t.mem.placed = leAt h 0x20 8)) ∧
  (∀ (s : State) (j : Nat), s.jobOf 0x0402 = some j → s.frozen = false → Ends .modelUnloadJobEnd s (fun t =>
    t.model = 0 ∧ t.fld F.SLC_SCRUB_ACTIVE = 0 ∧ (t.job j).state = 3 ∧ (t.job j).final = 0)) ∧
  (∀ (s v : State) (ups : Upsets) (k len : Nat) (c : Call), Asked s 0x0901 ups k v c →
    len = 0x340 + 0x80 * v.sliced.length + 96 → len ≤ c.arg 0x2C 4 → v.bufferOk k (c.arg 0x28 4) len = true →
    (Config.signIk (Config.sha384 (v.report k (sliceOf c.p 8 32))) = none → Answered (.attest ups) s ups k v 0x31 0 []) ∧
    (∀ sig d, Config.signIk (Config.sha384 (v.report k (sliceOf c.p 8 32))) = some sig →
      d = v.report k (sliceOf c.p 8 32) ++ fitTo 96 sig →
      ∃ u, Answered (.attest ups) s ups k u 0 0 (leBytes 4 len) ∧ u.exmBytes (c.arg 0x28 4) d.length = d ∧
        OnlyIn [.exm, .exmMem] v u))

/-- On a module that is on, on medium 0 or 1: SET_ENDPOINT_ID of a valid ID sets that medium's and GET_ENDPOINT_ID gives
it; SETTID and GETTID do the same for the terminus ID; the version, type and command requests are answered; a numeric
sensor's reading is input power in watts, input voltage or a junction temperature, and an unknown sensor is answered
with INVALID_SENSOR_ID; PDRs and FRU records are answered. A request while the endpoint is busy is dropped and
counted, a PLDM command that is not answered gets ERROR_UNSUPPORTED_PLDM_CMD, another message type is discarded.
Nothing but the endpoint's IDs, the drop counter, free values and the outputs is touched. Codes are the model's
reading of the DSP standards (log entry 31). -/
def Obligations.ManagementEndpointAnswers : Prop :=
  ∀ (m : Nat) (s : State), m ≤ 1 → s.pwr.mode = .on →
    (∀ op eid, op ≤ 1 → 8 ≤ eid → eid ≤ 254 → Ends (.setEndpointId m op eid) s (fun t =>
      t.eid m = eid ∧ t.eid (1 - m) = s.eid (1 - m) ∧
      t.out = .mctp m ([0, 1, 0, 0] ++ leBytes 1 eid ++ [0]) :: s.out ∧ OnlyIn [.eng, .out] s t)) ∧
    (∀ op eid, 1 < op ∨ eid < 8 ∨ 254 < eid → Ends (.setEndpointId m op eid) s (fun t =>
      t.out = .mctp m [0, 1, 2] :: s.out ∧ OnlyIn [.out] s t)) ∧
    Ends (.getEndpointId m) s (fun t => t.out = .mctp m ([0, 2, 0] ++ leBytes 1 (s.eid m) ++ [0, 0]) :: s.out ∧
      OnlyIn [.out] s t) ∧
    (∀ tid, 1 ≤ tid → tid ≤ 254 → Ends (.settid m tid) s (fun t =>
      t.eng.tid = tid ∧ t.out = .mctp m [1, 0, 1, 0] :: s.out ∧ OnlyIn [.eng, .out] s t)) ∧
    Ends (.gettid m) s (fun t => t.out = .mctp m ([1, 0, 2, 0] ++ leBytes 1 s.eng.tid) :: s.out ∧ OnlyIn [.out] s t) ∧
    (∀ (ty h : Nat) (c : Instr), c = .getEndpointUuid m ∨ c = .getMctpVersionSupport m ty ∨ c = .getMessageTypeSupport m ∨
      c = .getpldmversion m ty ∨ c = .getpldmtypes m ∨ c = .getpldmcommands m ty ∨ c = .getpdrrepositoryinfo m ∨
      c = .getpdr m h ∨ c = .getfrurecordtablemetadata m ∨ c = .getfrurecordtable m →
      Ends c s (fun t => (∃ d, t.out = .mctp m d :: s.out ∧ 3 ≤ d.length) ∧ OnlyIn [.out] s t)) ∧
    Ends (.getsensorreading m 1) s (fun t => t.out = .mctp m ([1, 2, 0x11, 0, 4, 0, 0, 0, 0, 0] ++
      leBytes 4 (s.fld F.PWR_INPUT_POWER_100MW / 10)) :: s.out ∧ OnlyIn [.out] s t) ∧
    Ends (.getsensorreading m 2) s (fun t => t.out = .mctp m ([1, 2, 0x11, 0, 4, 0, 0, 0, 0, 0] ++
      leBytes 4 (s.fld F.PWR_INPUT_VOLT_10MV)) :: s.out ∧ OnlyIn [.out] s t) ∧
    (∀ id, 3 ≤ id → id ≤ 13 → Ends (.getsensorreading m id) s (fun t => t.out = .mctp m ([1, 2, 0x11, 0, 4] ++
      leBytes 1 (if s.bit (F.PWR_TEMP_VALID (id - 3)) then 0 else 2) ++ [0, 0, 0, 0] ++
      leBytes 4 (if s.bit (F.PWR_TEMP_VALID (id - 3)) then unsgn 32 (sgn 8 (s.fld (F.PWR_TEMP_DEG_C (id - 3)))) else 0))
      :: s.out ∧ OnlyIn [.out] s t)) ∧
    Ends (.getMessageTypeSupport m) s (fun t => t.out = .mctp m [0, 5, 0, 2, 0, 1] :: s.out) ∧
    Ends (.getpldmtypes m) s (fun t => t.out = .mctp m [1, 0, 4, 0, 0x15, 0, 0, 0, 0, 0, 0, 0] :: s.out) ∧
    (∀ id, id = 0 ∨ 13 < id → Ends (.getsensorreading m id) s (fun t => t.out = .mctp m [1, 2, 0x11, 0x80] :: s.out ∧
      OnlyIn [.out] s t)) ∧
    Ends (.getstatesensorreadings m 21) s (fun t => t.out = .mctp m ([1, 2, 0x21, 0, 1, 0] ++ leBytes 1 s.tenancy ++ [0] ++
      leBytes 1 s.tenancy) :: s.out ∧ OnlyIn [.free, .out] s t) ∧
    (∀ type ty cmd, Ends (.mctpOtherMessage m type ty cmd true) s (fun t => OnlyIn [.regs] s t ∧
      t.fld F.CMD_CNT_MCTP_DROP_COUNT = min (s.fld F.CMD_CNT_MCTP_DROP_COUNT + 1) (2 ^ 32 - 1))) ∧
    (∀ ty cmd, (pldmCommands ty).contains cmd = false → Ends (.mctpOtherMessage m 1 ty cmd false) s (fun t =>
      t.out = .mctp m ([1] ++ leBytes 1 ty ++ leBytes 1 cmd ++ [5]) :: s.out ∧ OnlyIn [.out] s t)) ∧
    (∀ type ty cmd, type ≠ 1 → exec (.mctpOtherMessage m type ty cmd false) s = .next s)

/-- With PF0's mailbox up: GET_VERSION begins a negotiation; GET_CAPABILITIES and NEGOTIATE_ALGORITHMS follow it in order,
and each out of order is answered with ERROR UnexpectedRequest; CHALLENGE, GET_MEASUREMENTS and KEY_EXCHANGE need it
complete, and are refused while the random source has failed; a fifth session is refused. FINISH with verify data that
holds completes its session; in a session HEARTBEAT and KEY_UPDATE are answered and END_SESSION ends it. Large
messages go in chunks. GET_DIGESTS, GET_CERTIFICATE and other requests are answered with UnsupportedRequest, DOE_ABORT
drops a message in transfer. Codes are the model's reading of DSP0274 (log entry 28). -/
def Obligations.SpdmConnectionAndSessions : Prop :=
  (∀ s : State, s.doeUp = true →
    Ends .getVersion s (fun t => t.sec.spdm = 1 ∧ t.fld F.SEC_SPDM_STATUS_VERSION = 0 ∧ OnlyIn [.regs, .sec, .out] s t) ∧
    (∀ ver xfer, 1 ≤ s.sec.spdm → ver = 0x12 ∨ ver = 0x13 → Ends (.getCapabilities ver xfer) s (fun t =>
      t.sec.spdm = 2 ∧ t.fld F.SEC_SPDM_STATUS_VERSION = ver ∧ t.sec.xfer = xfer ∧ OnlyIn [.regs, .sec, .out] s t)) ∧
    (∀ ver xfer, s.sec.spdm = 0 → Ends (.getCapabilities ver xfer) s (fun t =>
      t.out = .spdm 0x7F [4, 0] :: s.out ∧ OnlyIn [.out] s t)) ∧
    (∀ a h d e k, 2 ≤ s.sec.spdm → Ends (.negotiateAlgorithms a h d e k) s (fun t =>
      t.sec.spdm = 3 ∧ OnlyIn [.sec, .out] s t)) ∧
    (∀ sum sign tr k sid, s.sec.spdm < 3 → (∀ c : Instr, c = .challenge sum tr ∨ c = .getMeasurements k sign tr ∨
      c = .keyExchange sid sum tr → Ends c s (fun t => t.out = .spdm 0x7F [4, 0] :: s.out ∧ OnlyIn [.out] s t))) ∧
    (∀ sum sign tr k sid, 3 ≤ s.sec.spdm → s.bit F.SEC_STATUS_RNG_FAIL = true → s.sec.sessions.length < 4 →
      (∀ c : Instr, c = .challenge sum tr ∨ c = .getMeasurements k sign tr ∨ c = .keyExchange sid sum tr →
        Ends c s (fun t => t.out = .spdm 0x7F [5, 0] :: s.out ∧ t.sec.sessions = s.sec.sessions ∧
          OnlyIn [.free, .out] s t))) ∧
    (∀ tr k, 3 ≤ s.sec.spdm → s.bit F.SEC_STATUS_RNG_FAIL = false → s.sec.xfer = 0 →
      Ends (.getMeasurements k false tr) s (fun t =>
      (∃ d, t.out = .spdm 0x60 d :: s.out ∧ d.take 3 =
        [BitVec.ofNat 8 (if k = 0 then s.allBlocks.length else 0), 0xF, BitVec.ofNat 8 (if k = 0 then 0 else if k = 0xFF then
          s.allBlocks.length else (s.measureBlock k).toList.length)]) ∧ OnlyIn [.free, .out] s t)) ∧
    (∀ sum tr sid, 3 ≤ s.sec.spdm → 4 ≤ s.sec.sessions.length → Ends (.keyExchange sid sum tr) s (fun t =>
      t.out = .spdm 0x7F [0x0A, 0] :: s.out ∧ OnlyIn [.out] s t)) ∧
    (∀ sum tr sid, 3 ≤ s.sec.spdm → s.sec.sessions.length < 4 → s.bit F.SEC_STATUS_RNG_FAIL = false →
      Ends (.keyExchange sid sum tr) s (fun t => (t.sec.sessions = s.sec.sessions ∧ t.out = .spdm 0x7F [5, 0] :: s.out) ∨
        (∃ x, t.sec.sessions = s.sec.sessions ++ [x] ∧ x.id % 65536 = sid % 65536 ∧ x.up = false ∧
          t.fld F.SEC_SPDM_STATUS_SESSIONS = s.sec.sessions.length + 1))) ∧
    (∀ sum tr, 3 ≤ s.sec.spdm → s.sec.xfer = 0 → Ends (.challenge sum tr) s (fun t =>
      (t.out = .spdm 0x7F [5, 0] :: s.out ∨ (s.bit F.SEC_STATUS_RNG_FAIL = false ∧ ∃ d, t.out = .spdm 3 d :: s.out ∧
        d.take 50 = [0xF, 0] ++ s.ikDigest)) ∧ OnlyIn [.free, .out] s t)) ∧
    (∀ sid x, s.session sid = some x → Ends (.finish sid true) s (fun t =>
      t.inSession sid = true ∧ (∀ o, o ≠ sid → t.session o = s.session o) ∧ OnlyIn [.sec, .out] s t)) ∧
    (∀ sid, s.session sid = none → Ends (.finish sid true) s (fun t => t.out = .spdm 0x7F [2, 0] :: s.out ∧
      OnlyIn [.out] s t)) ∧
    (∀ sid op tag, s.inSession sid = true → 1 ≤ op → op ≤ 3 → s.sec.xfer = 0 →
      Ends (.heartbeat sid) s (fun t => t.out = .spdm 0x68 [0, 0] :: s.out ∧ OnlyIn [.out] s t) ∧
      Ends (.keyUpdate sid op tag) s (fun t =>
        t.out = .spdm 0x69 [BitVec.ofNat 8 op, BitVec.ofNat 8 tag] :: s.out ∧ OnlyIn [.sec, .out] s t) ∧
      Ends (.endSession sid) s (fun t => t.session sid = none ∧ t.out = .spdm 0x6C [0, 0] :: s.out ∧
        OnlyIn [.regs, .sec, .out] s t)) ∧
    (∀ sid op tag, s.inSession sid = false →
      (∀ c : Instr, c = .heartbeat sid ∨ c = .keyUpdate sid op tag ∨ c = .endSession sid →
      Ends c s (fun t => t.out = .spdm 0x7F [2, 0] :: s.out ∧ OnlyIn [.out] s t))) ∧
    (∀ h n last bs, (if n = 0 then [] else s.sec.chunkIn).length + bs.length ≤ 16384 →
      Ends (.chunkSend h n last bs) s (fun t =>
      t.sec.chunkIn = (if last then [] else (if n = 0 then [] else s.sec.chunkIn) ++ bs) ∧ OnlyIn [.sec, .out] s t)) ∧
    (∀ h n, s.sec.chunkOut ≠ [] → Ends (.chunkGet h n) s (fun t =>
      t.sec.chunkOut = s.sec.chunkOut.drop (max 1 (s.sec.xfer - 16)) ∧ OnlyIn [.sec, .out] s t)) ∧
    (∀ code, Ends (.spdmUnsupportedRequest code) s (fun t =>
      t.out = .spdm 0x7F [7, BitVec.ofNat 8 code] :: s.out ∧ OnlyIn [.out] s t))) ∧
  (∀ s : State, Ends .doeAbort s (fun t => t.sec.chunkIn = [] ∧ t.sec.chunkOut = [] ∧ OnlyIn [.sec] s t)) ∧
  (∀ s : State, s.doeUp = false → exec .getVersion s = .next s)

/-- Outside a session every IDE_KM and TDISP request is answered with ERROR UnsupportedRequest and changes nothing. Inside
one, KEY_PROG programs its key, K_SET_GO starts a programmed one, K_SET_STOP of a stream that no TDI is bound to drops
it, QUERY answers. LOCK_INTERFACE_REQUEST of an unlocked TDI onto a Secure stream locks it, binds the stream and
returns 32 bytes; START_INTERFACE_REQUEST with that nonce runs it, with another or in another state it is refused and
TDI and stream stay; STOP_INTERFACE_REQUEST of a TDI that does not run unlocks it. The report and the state are
answered in the states that have them. A TLP off the stream of a locked or running TDI is counted. Codes are the
model's (log entries 29, 30). -/
def Obligations.StreamsAndTdis : Prop :=
  (∀ (sid n k b d l : Nat) (nf lm pp rd : Bool) (nonce : List Byte) (s : State), s.doeUp = true → s.inSession sid = false →
    (∀ c : Instr, c = .query sid ∨ c = .keyProg sid n k b d ∨ c = .kSetGo sid n k b d ∨ c = .kSetStop sid n k b d ∨
      c = .getTdispVersion sid n ∨ c = .getTdispCapabilities sid n ∨ c = .lockInterfaceRequest sid n k nf lm pp rd ∨
      c = .getDeviceInterfaceReport sid n d l ∨ c = .getDeviceInterfaceState sid n ∨
      c = .startInterfaceRequest sid n nonce ∨ c = .stopInterfaceRequest sid n ∨ c = .vendorDefinedRequest sid k b →
      Ends c s (fun t => t.out = .spdm 0x7F [7, 0xFE] :: s.out ∧ OnlyIn [.out] s t))) ∧
  (∀ (sid : Nat) (s : State), s.doeUp = true → s.inSession sid = true →
    Ends (.query sid) s (fun t => (∃ d, t.out = .vendor 1 d :: s.out ∧ d.length = 67) ∧ OnlyIn [.out] s t) ∧
    (∀ k set sub dir, ideNamed k set sub dir = true →
      Ends (.keyProg sid k set sub dir) s (fun t => tst (t.stream k).keys (keyBit set sub dir) = true ∧
        (t.stream k).running = (s.stream k).running ∧ (∀ j, j ≠ k → t.stream j = s.stream j) ∧ OnlyIn [.sec, .out] s t) ∧
      (tst (s.stream k).keys (keyBit set sub dir) = true → Ends (.kSetGo sid k set sub dir) s (fun t =>
        tst (t.stream k).running (keyBit set sub dir) = true ∧ (∀ j, j ≠ k → t.stream j = s.stream j) ∧
        OnlyIn [.sec, .out] s t)) ∧
      (s.boundTo k = [] → Ends (.kSetStop sid k set sub dir) s (fun t =>
        tst (t.stream k).running (keyBit set sub dir) = false ∧ tst (t.stream k).keys (keyBit set sub dir) = false ∧
        (∀ j, j ≠ k → t.stream j = s.stream j) ∧ OnlyIn [.sec, .out] s t))) ∧
    (∀ n, 1 ≤ n → n ≤ 63 →
      Ends (.getTdispVersion sid n) s (fun t => t.out = .vendor 1 ([0x10, 1] ++ leBytes 1 n ++ [1, 0x10]) :: s.out ∧
        OnlyIn [.out] s t) ∧
      Ends (.getTdispCapabilities sid n) s (fun t => (∃ d, t.out = .vendor 2 d :: s.out) ∧ OnlyIn [.out] s t) ∧
      Ends (.getDeviceInterfaceState sid n) s (fun t =>
        t.out = .vendor 5 ([0x10, 5] ++ leBytes 1 n ++ leBytes 1 (s.tdi n)) :: s.out ∧ OnlyIn [.out] s t) ∧
      (∀ stream nf lm, s.tdi n = 0 → s.tenancy = 1 ∨ s.tenancy = 2 → stream < 64 → (s.stream stream).secure = true →
        Ends (.lockInterfaceRequest sid n stream nf lm false false) s (fun t =>
          t.tdi n = 1 ∧ t.fld (F.SEC_TDI_STREAM_ID n) = stream ∧ (t.tdiRec n).nonce = s.freeBytes 32 ∧
          (t.tdiRec n).lockMsix = lm ∧ (∀ m, m ≠ n → m ≤ 63 → t.tdi m = s.tdi m) ∧ OnlyIn [.regs, .sec, .free, .out] s t)) ∧
      (∀ stream nf lm pp rd, s.tdi n ≠ 0 ∨ 64 ≤ stream ∨ (s.stream stream).secure = false ∨ pp = true ∨ rd = true →
        Ends (.lockInterfaceRequest sid n stream nf lm pp rd) s (fun t => OnlyIn [.out] s t ∧
          t.out.length = s.out.length + 1)) ∧
      (∀ off len, s.tdi n = 1 ∨ s.tdi n = 2 → off < (s.interfaceReport n).length →
        Ends (.getDeviceInterfaceReport sid n off len) s (fun t => (∃ d, t.out = .vendor 4 d :: s.out ∧
          d.drop 7 = sliceOf (s.interfaceReport n) off (min len ((s.interfaceReport n).length - off))) ∧
            OnlyIn [.out] s t)) ∧
      (s.tdi n = 1 → Ends (.startInterfaceRequest sid n (s.tdiRec n).nonce) s (fun t =>
        t.tdi n = 2 ∧ t.fld (F.SEC_TDI_STREAM_ID n) = s.fld (F.SEC_TDI_STREAM_ID n) ∧ OnlyIn [.regs, .out] s t)) ∧
      (∀ nonce, s.tdi n ≠ 1 ∨ nonce ≠ (s.tdiRec n).nonce → Ends (.startInterfaceRequest sid n nonce) s (fun t =>
        OnlyIn [.out] s t ∧ t.out.length = s.out.length + 1)) ∧
      Ends (.stopInterfaceRequest sid n) s (fun t => (t.tdiRec n).nonce = [] ∧
        (s.tdi n ≠ 2 → t.tdi n = 0 ∧ OnlyIn [.regs, .sec, .out] s t))) ∧
    (∀ code, code < 0x81 ∨ 0x87 < code → Ends (.vendorDefinedRequest sid 1 code) s (fun t =>
      (∃ d, t.out = .vendor 0x7F d :: s.out) ∧ OnlyIn [.out] s t))) ∧
  (∀ (n : Nat) (s : State), s.tdi n = 1 ∨ s.tdi n = 2 →
    Ends (.tdiTlpDrop n false) s (fun t => t.out = .unsupported n :: s.out ∧ OnlyIn [.regs, .out] s t) ∧
    Ends (.tdiTlpDrop n true) s (fun t => OnlyIn [.regs] s t ∧
      t.fld F.SEC_CNT_TDI_DROP_COUNT = min (s.fld F.SEC_CNT_TDI_DROP_COUNT + 1) (2 ^ 32 - 1)))

/-- EC_OPERATION_END counts the operation by its kind; when a check of R328 fails SEC_CRYPTO_LAST holds operation, status
and requester, and the rejection is counted, and otherwise that register stays. A point at infinity is status 6.
RNG_HEALTH_FAIL sets RNG_FAIL. IDE_CHECK_FAIL of a stream that no TDI is bound to leaves it without keys, and not
Secure, and counts it. -/
def Obligations.CryptoEventsAreRecorded : Prop :=
  (∀ (x : EcInput) (s : State), 1 ≤ x.op → x.op ≤ 3 → ecStatus x = 0 → Ends (.ecOperationEnd x) s (fun t =>
    t.reg R.SEC_CRYPTO_LAST = s.reg R.SEC_CRYPTO_LAST ∧
    (∀ k f, (k, f) ∈ [(1, F.SEC_CNT_SIGN_COUNT), (2, F.SEC_CNT_VERIFY_COUNT), (3, F.SEC_CNT_ECDH_COUNT)] →
      t.fld f = if x.op = k then min (s.fld f + 1) (2 ^ 32 - 1) else s.fld f) ∧ OnlyIn [.regs] s t)) ∧
  (∀ (x : EcInput) (s : State), ecStatus x ≠ 0 → Ends (.ecOperationEnd x) s (fun t =>
    (t.reg R.SEC_CRYPTO_LAST).toNat = (x.op * 2 ^ 24 + ecStatus x * 2 ^ 16 + x.requester * 2 ^ 8) % 2 ^ 32 ∧
    t.fld F.SEC_CNT_REJECT_COUNT = min (s.fld F.SEC_CNT_REJECT_COUNT + 1) (2 ^ 32 - 1) ∧ OnlyIn logParts s t)) ∧
  (∀ x : EcInput, (0, 0) ∈ x.points → ecStatus x = 6) ∧
  (∀ s : State, Ends .rngHealthFail s (fun t => t.fld F.SEC_STATUS_RNG_FAIL = 1 ∧ OnlyIn (.free :: logParts) s t)) ∧
  (∀ (k : Nat) (s : State), k < 64 → s.boundTo k = [] → Ends (.ideCheckFail k) s (fun t =>
    (t.stream k).secure = false ∧ (t.stream k).keys = 0 ∧ (∀ j, j ≠ k → t.stream j = s.stream j) ∧
    t.fld F.SEC_CNT_IDE_FAIL_COUNT = min (s.fld F.SEC_CNT_IDE_FAIL_COUNT + 1) (2 ^ 32 - 1) ∧
    OnlyIn (.sec :: logParts) s t))

/-- QUEUE_ENABLE of a queue that is not enabled and quiesced, when the VF has a slice and its TDI runs, SIZE is a power of
two from 16 to 4,096, the three addresses are aligned and WEIGHT is not 0: ENABLE is 1, ERROR and DONE are 0, CLASS
and WEIGHT are those written, positions are 0 and wrap counters 1, and the device event suppression structure is
written 0. When one of these does not hold, ENABLE stays 0 and ERROR is ENABLE_REFUSED. QUEUE_DISABLE leaves no
command that has not ended, and no doorbell; while no command had started, ENABLE and QUIESCED are 0 and what had not
ended is ABORTED. On a quiesced queue it writes CLASS and WEIGHT. QUIESCE_COMPLETE sets QUIESCED and ends ERROR,
SLICE_GONE apart. A doorbell is kept. Enabling is refused in DIAG_ONLY too (R704). -/
def Obligations.QueuesAreSetUpAndStopped : Prop :=
  ∀ (n q : Nat) (value : Word) (s : State), 1 ≤ n → n ≤ 63 → q ≤ 15 →
    (tst value.toNat 0 = true → s.qEnabled n q = false → s.bit (F.QIF_Q_STATUS_QUIESCED n q) = true →
      (s.sliceState n ∈ [2, 3, 4, 5] → s.tdi n = 2 → s.fltState ≠ 3 → (∃ k, 4 ≤ k ∧ k ≤ 12 ∧
        s.fld (F.QIF_Q_SIZE_SIZE n q) = 2 ^ k) →
        s.pair (R.QIF_Q_DESC_LO n q) (R.QIF_Q_DESC_HI n q) % 16 = 0 →
        s.pair (R.QIF_Q_DRV_LO n q) (R.QIF_Q_DRV_HI n q) % 4 = 0 →
        s.pair (R.QIF_Q_DEV_LO n q) (R.QIF_Q_DEV_HI n q) % 4 = 0 → bitsOf value.toNat 11 8 ≠ 0 →
        Ends (.queueEnable n q value) s (fun t => t.qEnabled n q = true ∧ t.qError n q = 0 ∧
          t.fld (F.QIF_Q_DONE_COUNT n q) = 0 ∧ t.fld (F.QIF_Q_CTRL_CLASS n q) = bitOf value.toNat 1 ∧
          t.fld (F.QIF_Q_CTRL_WEIGHT n q) = bitsOf value.toNat 11 8 ∧ t.queue n q = {} ∧
          (∀ p, p ≠ q → p ≤ 15 → t.queue n p = s.queue n p) ∧
          t.out = .dma n (s.pair (R.QIF_Q_DEV_LO n q) (R.QIF_Q_DEV_HI n q)) [0, 0, 0, 0] :: s.out ∧
          OnlyIn [.regs, .qs, .out] s t)) ∧
      (s.sliceState n ∉ [2, 3, 4, 5] ∨ s.tdi n ≠ 2 ∨ (∀ k, 4 ≤ k → k ≤ 12 → s.fld (F.QIF_Q_SIZE_SIZE n q) ≠ 2 ^ k) ∨
        s.pair (R.QIF_Q_DESC_LO n q) (R.QIF_Q_DESC_HI n q) % 16 ≠ 0 ∨
        s.pair (R.QIF_Q_DRV_LO n q) (R.QIF_Q_DRV_HI n q) % 4 ≠ 0 ∨
        s.pair (R.QIF_Q_DEV_LO n q) (R.QIF_Q_DEV_HI n q) % 4 ≠ 0 ∨ bitsOf value.toNat 11 8 = 0 →
        Ends (.queueEnable n q value) s (fun t => t.qEnabled n q = false ∧ t.qError n q = 1 ∧ OnlyIn [.regs] s t))) ∧
    (s.qEnabled n q = true ∨ s.bit (F.QIF_Q_STATUS_QUIESCED n q) = false → exec (.queueEnable n q value) s = .next s) ∧
    (tst value.toNat 0 = false → s.qEnabled n q = true → Ends (.queueDisable n q value) s (fun t =>
      (t.queue n q).bell = none ∧ (∀ c ∈ (t.queue n q).cmds, c.phase ≠ 0 ∧ c.phase ≠ 1) ∧
      (t.queue n q).cmds.map QCmd.uid = (s.queue n q).cmds.map QCmd.uid ∧ (∀ m p, p ≤ 15 → m ≠ n ∨ p ≠ q →
        t.queue m p = s.queue m p) ∧
      ((∀ c ∈ (s.queue n q).cmds, c.phase ≠ 1) → t.qEnabled n q = false ∧ t.bit (F.QIF_Q_STATUS_QUIESCED n q) = false ∧
        (∀ c ∈ (s.queue n q).cmds, c.phase = 0 → CmdEnded t n q c.uid 0x30 0 0) ∧ OnlyIn [.regs, .qs] s t))) ∧
    (tst value.toNat 0 = false → s.qEnabled n q = false → s.bit (F.QIF_Q_STATUS_QUIESCED n q) = true →
      Ends (.queueDisable n q value) s (fun t => t.qEnabled n q = false ∧
        t.fld (F.QIF_Q_CTRL_CLASS n q) = bitOf value.toNat 1 ∧
        t.fld (F.QIF_Q_CTRL_WEIGHT n q) = bitsOf value.toNat 11 8 ∧ OnlyIn [.regs] s t)) ∧
    (s.qEnabled n q = false → s.bit (F.QIF_Q_STATUS_QUIESCED n q) = false → (s.queue n q).cmds = [] →
      Ends (.quiesceComplete n q) s (fun t => t.bit (F.QIF_Q_STATUS_QUIESCED n q) = true ∧
        t.qError n q = (if s.qError n q = 9 then 9 else 0) ∧ OnlyIn [.regs] s t)) ∧
    ((s.queue n q).cmds ≠ [] → exec (.quiesceComplete n q) s = .next s) ∧
    (value.toNat < 0x10000 → s.qEnabled n q = true → Ends (.doorbellWrite n q value) s (fun t =>
      t.queue n q = { s.queue n q with bell := some value.toNat } ∧ OnlyIn [.qs] s t)) ∧
    (s.qEnabled n q = false → exec (.doorbellWrite n q value) s = .next s)

/-- CHAIN_FETCH of a queue that may fetch, with a doorbell beyond its position: a chain whose descriptors show available,
that meets R226 and R227 and whose buffer ID no open command has becomes the last command of the queue, with its bytes
and buffers, and the available position moves past it. It has not ended if it passes the checks of R233, and ends with
the first that fails, or with HOST_DMA_FAULT. A doorbell at the position does nothing but end. Otherwise the queue
enters the error of R224 to R228: then nothing is fetched and every command that has not started is ABORTED.
ATS_INVALIDATE is answered. -/
def Obligations.ChainsAreFetched : Prop :=
  (∀ (n q b dist : Nat) (r : ChainRead) (s : State), 1 ≤ n → n ≤ 63 → q ≤ 15 → s.mayFetch n q = true →
    (s.queue n q).bell = some b → dist = s.bellDist n q b →
    (dist = 0 → b % 2 ^ 15 < s.fld (F.QIF_Q_SIZE_SIZE n q) → Ends (.chainFetch n q r) s (fun t =>
      t.queue n q = { s.queue n q with bell := none } ∧ OnlyIn [.qs] s t)) ∧
    (dist ≠ 0 → b % 2 ^ 15 < s.fld (F.QIF_Q_SIZE_SIZE n q) → r.ok = true → r.ring ≠ [] → r.ring.length ≤ dist →
      (∀ i d, r.ring[i]? = some d → s.showsAvail n q i d = true) → chainBad r = false →
      32 ≤ ((chainBufs r).filter (fun d => tst d.flags 1)).foldl (fun k d => k + d.len) 0 →
      (∀ c ∈ (s.queue n q).cmds, some c.id ≠ r.ring.getLast?.map Desc.id ∧ c.uid ≠ s.sch.nextUid) →
      Ends (.chainFetch n q r) s (fun t => ∃ c, (t.queue n q).cmds = (s.queue n q).cmds ++ [c] ∧ c.uid = s.sch.nextUid ∧
        some c.id = r.ring.getLast?.map Desc.id ∧ c.descs = r.ring.length ∧ c.bytes = r.bytes.getD [] ∧
        c.outs = ((chainBufs r).filter (fun d => tst d.flags 1)).map (fun d => (d.addr, d.len)) ∧
        (r.bytes.isSome = true → c.check = none → c.phase = 0) ∧
        (∀ st d, r.bytes.isSome = true → c.check = some (st, d) → c.phase = 2 ∧ c.status = st ∧ c.detail = d) ∧
        (r.bytes = none → c.phase = 2 ∧ c.status = 5) ∧
        (t.queue n q).availPos = ((s.queue n q).availPos + r.ring.length) % s.fld (F.QIF_Q_SIZE_SIZE n q) ∧
        (t.queue n q).availWrap = (if (s.queue n q).availPos + r.ring.length < s.fld (F.QIF_Q_SIZE_SIZE n q) then
          (s.queue n q).availWrap else !(s.queue n q).availWrap) ∧
        t.sch.nextUid = s.sch.nextUid + 1 ∧ OnlyIn [.qs, .sch] s t)) ∧
    (∀ code, (code, true) ∈ [(7, decide (s.fld (F.QIF_Q_SIZE_SIZE n q) ≤ b % 2 ^ 15)),
        (6, decide (b % 2 ^ 15 < s.fld (F.QIF_Q_SIZE_SIZE n q) ∧ dist ≠ 0 ∧ r.ok = false)),
        (3, decide (b % 2 ^ 15 < s.fld (F.QIF_Q_SIZE_SIZE n q) ∧ dist ≠ 0 ∧ r.ok = true ∧ dist < r.ring.length))] →
      Ends (.chainFetch n q r) s (fun t => t.qError n q = code ∧ (t.queue n q).bell = none ∧
        (∀ c ∈ (t.queue n q).cmds, c.phase ≠ 0) ∧ OnlyIn [.regs, .exm, .qs, .out] s t)) ∧
    (∀ code, b % 2 ^ 15 < s.fld (F.QIF_Q_SIZE_SIZE n q) → r.ok = true → r.ring ≠ [] → r.ring.length ≤ dist →
      (∀ i d, r.ring[i]? = some d → s.showsAvail n q i d = true) →
      ((code = 2 ∧ chainBad r = true) ∨ (code = 4 ∧ chainBad r = false ∧
        ((chainBufs r).filter (fun d => tst d.flags 1)).foldl (fun k d => k + d.len) 0 < 32) ∨
        (code = 5 ∧ chainBad r = false ∧
          32 ≤ ((chainBufs r).filter (fun d => tst d.flags 1)).foldl (fun k d => k + d.len) 0 ∧
          ∃ c ∈ (s.queue n q).cmds, some c.id = r.ring.getLast?.map Desc.id)) →
      Ends (.chainFetch n q r) s (fun t => t.qError n q = code ∧ (t.queue n q).bell = none ∧
        (∀ c ∈ (t.queue n q).cmds, c.phase ≠ 0) ∧ OnlyIn [.regs, .exm, .qs, .out] s t))) ∧
  (∀ (n q : Nat) (r : ChainRead) (s : State), s.mayFetch n q = false ∨ (s.queue n q).bell = none →
    exec (.chainFetch n q r) s = .next s) ∧
  (∀ (vf tag : Nat) (s : State), Ends (.atsInvalidate vf tag) s (fun t =>
    t.out = .atsDone vf tag :: s.out ∧ OnlyIn [.out] s t))

/-- COMMAND_COMPLETE of a command that has ended, with its host writes done: the record of Table 06-4 goes to the chain's
writable buffers, then length and buffer ID, last the flags word with AVAIL and USED at the used wrap counter, go to
the used position, which moves by the chain's descriptors and flips the counter past SIZE − 1; the count of
completions goes up by 1, the command is gone from its queue, and its SIGNAL fence has the larger value, or its error
flag after a failure. A message follows only where driver event suppression permits. A failed host write puts the
queue in error HOST_DMA_FAULT. QUEUE_IRQ_HOLDOFF_END ends an interval, or sends the one message for the completions
within it. Nothing acts in a freeze. -/
def Obligations.CommandsComplete : Prop :=
  (∀ (n q i at_ : Nat) (sup : Suppress) (c : QCmd) (x : Queue) (s : State), 1 ≤ n → n ≤ 63 → q ≤ 15 → s.frozen = false →
    x = s.queue n q → x.cmds[i]? = some c → c.phase = 2 →
    at_ = s.pair (R.QIF_Q_DESC_LO n q) (R.QIF_Q_DESC_HI n q) + 16 * x.usedPos →
    Ends (.commandComplete n q i true sup) s (fun t =>
      (∃ m, t.out = m ++ [.dma n (at_ + 14) (leBytes 2 (if x.usedWrap then 0x8082 else 0x0002)),
        .dma n (at_ + 8) (leBytes 4 32 ++ leBytes 2 c.id)] ++ (scatter n c.outs (s.record32 c)).reverse ++ s.out ∧
        (m = [] ∨ m = [.msix n (2 + q)])) ∧
      (sup.mode = 1 → OnlyIn [.regs, .qs, .slices, .out] s t ∧ (t.queue n q).irqMerged = x.irqMerged) ∧
      (t.queue n q).cmds = x.cmds.filter (fun d => d.uid != c.uid) ∧
      (t.queue n q).usedPos = (x.usedPos + c.descs) % s.fld (F.QIF_Q_SIZE_SIZE n q) ∧
      (t.queue n q).usedWrap = (if x.usedPos + c.descs < s.fld (F.QIF_Q_SIZE_SIZE n q) then x.usedWrap else !x.usedWrap) ∧
      t.reg (R.QIF_Q_DONE n q) = s.reg (R.QIF_Q_DONE n q) + 1 ∧
      (c.signal = true → 48 ≤ c.bytes.length → c.status = 0 → (t.fence n (c.signalFence % 256)).value =
        max (s.fence n (c.signalFence % 256)).value c.signalValue) ∧
      (c.signal = true → 48 ≤ c.bytes.length → c.status ≠ 0 → (t.fence n (c.signalFence % 256)).err = true ∧
        (t.fence n (c.signalFence % 256)).value = (s.fence n (c.signalFence % 256)).value) ∧
      (∀ f, c.signal = false ∨ f ≠ c.signalFence % 256 → t.fence n f = s.fence n f) ∧
        OnlyIn [.regs, .exm, .qs, .slices, .out] s t) ∧
    Ends (.commandComplete n q i false sup) s (fun t => t.qError n q = 6 ∧ (∀ d ∈ (t.queue n q).cmds, d.uid ≠ c.uid ∧
      d.phase ≠ 0) ∧
      OnlyIn [.regs, .exm, .qs, .slices, .out] s t)) ∧
  (∀ (n q i : Nat) (ok : Bool) (sup : Suppress) (s : State), s.frozen = true →
    exec (.commandComplete n q i ok sup) s = .next s) ∧
  (∀ (n q : Nat) (s : State), n ≤ 63 → q ≤ 15 → (s.queue n q).irqBusy = true →
    ((s.queue n q).irqMerged = false → Ends (.queueIrqHoldoffEnd n q) s (fun t =>
      t.queue n q = { s.queue n q with irqBusy := false } ∧ OnlyIn [.qs] s t)) ∧
    ((s.queue n q).irqMerged = true → s.msixHeld n (2 + q) = false → Ends (.queueIrqHoldoffEnd n q) s (fun t =>
      t.queue n q = { s.queue n q with irqMerged := false } ∧ t.out = .msix n (2 + q) :: s.out ∧ OnlyIn [.qs, .out] s t)))

/-- When it starts: QUEUE_NOP ends with OK; FENCE_READ with value and error flag; FENCE_RESET sets the value that waiting
commands see and clears the flag; COPY within its checks with the number of bytes, its destination holding the source
bytes and no other byte changed; KERNEL_REGISTER of a sound image with its new handle, KMEAS extended; KERNEL_RELEASE
of an idle handle frees it, of one in use ends with HANDLE_BUSY; KERNEL_LAUNCH of a kernel it may launch adds its
launch; TENSOR_GRAPH ends with the first failing check, or after its nodes. A command that waits on a fence with its
error flag set ends with DEPENDENCY_FAILED. FENCE_STALL of a wait of a whole tick without progress ends it with that
status. A bad image, a missing handle and a failing launch end with theirs. An opcode's command leaves a queue whose
next command is another unchanged. -/
def Obligations.QueueCommandsEndAsTheirTablesSay : Prop :=
  (∀ (n q : Nat) (c : QCmd) (s v : State), 1 ≤ n → n ≤ 63 → q ≤ 15 →
    (Starts s n q 0x01 c v → Ends (.queueNop n q) s (fun t => CmdEnded t n q c.uid 0 0 0 ∧
      (∀ f, (t.fence n f).value = (s.fence n f).value) ∧ OnlyIn [.qs, .slices] s t)) ∧
    (Starts s n q 0x50 c v → Ends (.fenceRead n q) s (fun t =>
      CmdEnded t n q c.uid 0 (b2n (s.fence n (c.body 0 2)).err) (s.fence n (c.body 0 2)).value ∧
        OnlyIn [.qs, .slices] s t)) ∧
    (Starts s n q 0x51 c v → Ends (.fenceReset n q) s (fun t =>
      (t.fence n (c.body 0 2)).value = c.body 8 8 ∧ (t.fence n (c.body 0 2)).err = false ∧
      (∀ p, p ≤ 15 → ∀ d ∈ (t.queue n p).cmds, d.wait = true → d.waitFence = c.body 0 2 →
        t.waitMet n d = decide (d.waitValue ≤ c.body 8 8)) ∧ CmdEnded t n q c.uid 0 0 0 ∧
      (∀ f, f ≠ c.body 0 2 → (t.fence n f).value = (s.fence n f).value ∧ (t.fence n f).err = (s.fence n f).err) ∧
      OnlyIn [.qs, .slices] s t)) ∧
    (∀ host dst len bs, Starts s n q 0x10 c v → c.body 0x19 1 = 0 → dst = c.body 8 8 → len = c.body 0x10 8 →
      v.copyCheck n (c.body 0x18 1) (c.body 0 8) len false (Option.isSome host) = none →
      v.copyCheck n 0 dst len true true = none → bs = v.copyRead n (c.body 0x18 1) (c.body 0 8) len (host.getD []) →
      ctrlOffset dst = none → (v.reach freshAgent n dst len true).Nodup → (v.reach freshAgent n dst len true).length = len →
      Ends (.copy n q host len) s (fun t => CmdEnded t n q c.uid 0 0 len ∧
        (v.reach freshAgent n dst len true).map t.dpaByte = bs ∧
        BytesOutside (v.reach freshAgent n dst len true) s t ∧ OnlyIn [.qs, .slices, .mem, .cmn, .hbm] s t)) ∧
    (∀ host dst len, Starts s n q 0x10 c v → c.body 0x19 1 = 1 → dst = c.body 8 8 → len = c.body 0x10 8 →
      v.copyCheck n (c.body 0x18 1) (c.body 0 8) len false (Option.isSome host) = none →
      Ends (.copy n q host len) s (fun t => CmdEnded t n q c.uid 0 0 len ∧
        t.out = .dma n dst (v.copyRead n (c.body 0x18 1) (c.body 0 8) len (host.getD [])) :: s.out ∧
        OnlyIn [.qs, .slices, .out] s t)) ∧
    (∀ h b, Starts s n q 0x30 c v → memFault (v.memCheck freshAgent n (c.body 0 8) (c.body 8 4) false true) = none →
      b = v.memBytes freshAgent n (c.body 0 8) (c.body 8 4) → imageFault (c.body 8 4) b = none → leAt b 0x2B 1 = 2 →
      1 ≤ h → h ≤ 256 → v.kernel n h = none → (∀ g, 1 ≤ g → g < h → (v.kernel n g).isSome = true) →
      Ends (.kernelRegister n q) s (fun t => CmdEnded t n q c.uid 0 0 h ∧ t.kernel n h = some (kernelOf b) ∧
        (t.slice n).kmeas = Config.sha384 (fitTo 48 (s.slice n).kmeas ++ sliceOf b 0x38 48 ++ leBytes 4 h) ∧
        (t.slice n).kcount = (s.slice n).kcount + 1 ∧ (∀ g, g ≠ h → t.kernel n g = s.kernel n g) ∧
          OnlyIn [.qs, .slices] s t)) ∧
    (∀ o, Starts s n q 0x30 c v → memFault (v.memCheck freshAgent n (c.body 0 8) (c.body 8 4) false true) = none →
      imageFault (c.body 8 4) (v.memBytes freshAgent n (c.body 0 8) (c.body 8 4)) = some o →
      Ends (.kernelRegister n q) s (fun t => CmdEnded t n q c.uid 7 o 0 ∧ OnlyIn [.qs, .slices] s t)) ∧
    (Starts s n q 0x31 c v → (∀ l ∈ s.yar.launches, l.vf ≠ n) → s.yar.graphs = [] → Ends (.kernelRelease n q) s (fun t =>
      CmdEnded t n q c.uid (if (s.kernel n (c.body 0 4)).isSome then 0 else 8) 0 0 ∧ t.kernel n (c.body 0 4) = none ∧
      (∀ g, g ≠ c.body 0 4 → t.kernel n g = s.kernel n g) ∧ OnlyIn [.qs, .slices] s t)) ∧
    (∀ l ∈ s.yar.launches, Starts s n q 0x31 c v → l.vf = n → l.handle = c.body 0 4 → (s.kernel n l.handle).isSome = true →
      Ends (.kernelRelease n q) s (fun t => CmdEnded t n q c.uid 9 0 0 ∧ OnlyIn [.qs, .slices] s t)) ∧
    (∀ k, Starts s n q 0x32 c v → v.kernel n (c.body 0 4) = some k →
      (s.fld (F.QIF_Q_CTRL_CLASS n q) = 1 → tst k.flags 0 = true) →
      v.spillOk n k (c.body 0x10 8) (c.body 4 2 * c.body 6 2 * 32768) = true → fits [] (k.need (c.body 6 2)) = true →
      (k.argBytes ≠ 0 → v.memCheck freshAgent n (c.body 8 8) k.argBytes false false = none) →
      Ends (.kernelLaunch n q) s (fun t => t.sch.nextUid = s.sch.nextUid + 1 ∧
        (∃ l ∈ t.yar.launches, l.id = s.sch.nextUid ∧ l.uid = c.uid ∧ l.vf = n ∧ l.handle = c.body 0 4 ∧
          l.contexts = c.body 4 2 ∧ l.groups = c.body 6 2 ∧ l.args = c.body 8 8 ∧ l.spill = c.body 0x10 8) ∧
        t.queue n q = v.queue n q ∧ OnlyIn [.qs, .slices, .sch, .yar] s t)) ∧
    (Starts s n q 0x32 c v → v.kernel n (c.body 0 4) = none → Ends (.kernelLaunch n q) s (fun t =>
      CmdEnded t n q c.uid 8 0 0 ∧ OnlyIn [.qs, .slices] s t)) ∧
    (∀ ts b v', Starts s n q 0x20 c v → v.readGraph n (s.fld (F.QIF_Q_CTRL_CLASS n q)) true id (c.body 0 8) (c.body 8 4)
        (c.body 0x10 8) (c.body 0x18 2) = .inr (ts, [b]) → nOp b ≠ 12 → ringNode b = false →
      v.runNode n ts b = .inr v' → (v.findCmd n c.uid).map Prod.fst = some q → Ends (.tensorGraph n q) s (fun t =>
        CmdEnded t n q c.uid 0 0 1 ∧ t.mem = v'.mem ∧ OnlyIn [.regs, .qs, .slices, .mem, .cmn, .hbm, .free] s t)) ∧
    (∀ st d, Starts s n q 0x20 c v → v.readGraph n (s.fld (F.QIF_Q_CTRL_CLASS n q)) true id (c.body 0 8) (c.body 8 4)
        (c.body 0x10 8) (c.body 0x18 2) = .inl (st, d) → faultCode st = none → s.recovering = false →
          Ends (.tensorGraph n q) s (fun t =>
        CmdEnded t n q c.uid st d 0 ∧ OnlyIn [.qs, .slices] s t)) ∧
    (∀ op cmd, (op, cmd) ∈ [(0x01, Instr.queueNop n q), (0x20, .tensorGraph n q), (0x30, .kernelRegister n q),
        (0x31, .kernelRelease n q), (0x32, .kernelLaunch n q), (0x50, .fenceRead n q), (0x51, .fenceReset n q)] →
      s.nextCmd n q = some c →
      (c.op ≠ op → exec cmd s = .next s) ∧
      (c.op = op → s.vfLive n = true → s.qError n q = 0 → c.wait = true → (s.fence n c.waitFence).err = true →
        Ends cmd s (fun t => CmdEnded t n q c.uid 0x10 c.waitFence 0 ∧ OnlyIn [.qs] s t))) ∧
    (∀ w, s.nextCmd n q = some c → c.wait = true → c.waitTick = some w → w + 2 ≤ s.tickCount → s.waitMet n c = false →
      (s.fence n c.waitFence).tick + 2 ≤ s.tickCount → s.signallerRuns n c.waitFence = false →
      s.heldSlot n (s.fld (F.QIF_Q_CTRL_CLASS n q)) = true → s.frozen = false → s.recovering = false →
      Ends (.fenceStall n q) s (fun t => CmdEnded t n q c.uid 0x23 c.waitFence 0 ∧
        OnlyIn ([.exm, .flt, .qs] ++ logParts) s t))) ∧
  (∀ (n q : Nat) (c : QCmd) (s : State), s.nextCmd n q = some c → c.wait = false ∨ c.waitTick = none →
    exec (.fenceStall n q) s = .next s)

/-- MAP_VIEW_STORE of a whole word that passes every check sets the entry: a granule that becomes valid takes a frame, one
that becomes invalid leaves its frame quarantined, and no other entry changes. A store that fails a check, or is not a
whole word, changes no entry, adds 1 to the errors and records the first check that failed. INV_COUNT_STORE of a range
within the map joins the slice's invalidations, another is INV_RANGE. INVALIDATION_COMPLETE runs the oldest: its
range's quarantined frames start zeroing, no unpinned cached translation of the range stays. FRAME_ZERO_COMPLETE makes
a frame being zeroed free, and it reads 0. PATROL, with a tenancy key and outside a freeze and doze, shows its
progress and poisons a line with an uncorrectable error. HBM_REFRESH keeps the longest wait, at most 350 ns. Nothing
else acts in a freeze. -/
def Obligations.MapViewStoresFollowTheTable : Prop :=
  (∀ (n g : Nat) (value : DWord) (s : State), 1 ≤ n → n ≤ 63 → s.sliceState n ≠ 0 → g < 262144 → s.frozen = false →
    (s.mapCheck n g value.toNat = 0 → Ends (.mapViewStore n g value true) s (fun t =>
      t.entry n g = value.toNat ∧ (∀ h, h ≠ g → t.entry n h = s.entry n h) ∧
      (∀ m h, m ≠ n → t.entry m h = s.entry m h) ∧ (t.slice n).mapErrors = (s.slice n).mapErrors ∧
      (entryValid (s.entry n g) = false → entryValid value.toNat = true → ∃ f, s.nextFrame = some f ∧
        fget (fun _ => 0) (t.slice n).frame g = f + 1 ∧ fget (fun _ => 0) t.mem.frames f = 64 * 3 + n ∧
        (t.slice n).quar = (s.slice n).quar) ∧
      (entryValid (s.entry n g) = true → entryValid value.toNat = false → ∃ f,
        f = fget (fun _ => 0) (s.slice n).frame g - 1 ∧ (t.slice n).quar = (s.slice n).quar ++ [(g, f)] ∧
        fget (fun _ => 0) t.mem.frames f = 64 * 4 + n ∧ fget (fun _ => 0) (t.slice n).frame g = 0) ∧
      (entryValid (s.entry n g) = entryValid value.toNat → (t.slice n).frame = (s.slice n).frame ∧
        (t.slice n).quar = (s.slice n).quar ∧ t.mem.frames = s.mem.frames) ∧ OnlyIn [.slices, .mem] s t)) ∧
    (s.mapCheck n g value.toNat ≠ 0 → Ends (.mapViewStore n g value true) s (fun t =>
      (t.slice n).map = (s.slice n).map ∧ (t.slice n).lastError = s.mapCheck n g value.toNat ∧
      (t.slice n).mapErrors = (s.slice n).mapErrors + 1 ∧
      t.fld F.MEM_CNT_MAP_REJECT_COUNT = min (s.fld F.MEM_CNT_MAP_REJECT_COUNT + 1) (2 ^ 32 - 1) ∧
      OnlyIn [.regs, .slices] s t)) ∧
    Ends (.mapViewStore n g value false) s (fun t => (t.slice n).map = (s.slice n).map ∧ (t.slice n).lastError = 1 ∧
      (t.slice n).mapErrors = (s.slice n).mapErrors + 1 ∧ OnlyIn [.slices] s t) ∧
    (∀ v : Nat, bitsOf v 31 4 ≠ 0 → s.mapCheck n g v = 2) ∧
    (∀ v : Nat, bitsOf v 31 4 = 0 → tst v 1 = true → entryValid (s.entry n g) = false → entryValid v = true →
      s.mapLimit n ≤ s.charge n → s.mapCheck n g v = 3)) ∧
  (∀ (n : Nat) (count : DWord) (b : Nat) (s : State), 1 ≤ n → n ≤ 63 → s.sliceState n ≠ 0 → s.frozen = false →
    b = (s.slice n).invBase →
    (b % 0x200000 = 0 → b / 0x200000 + count.toNat ≤ 262144 → count.toNat ≠ 0 → Ends (.invCountStore n count) s (fun t =>
      t.slice n = { s.slice n with invs := (s.slice n).invs ++ [(b / 0x200000, count.toNat)] } ∧ OnlyIn [.slices] s t)) ∧
    (count.toNat = 0 → Ends (.invCountStore n count) s (fun t =>
      t.slice n = { s.slice n with invs := (s.slice n).invs ++ [(0, 262144)] } ∧ OnlyIn [.slices] s t)) ∧
    (count.toNat ≠ 0 → b % 0x200000 ≠ 0 ∨ 262144 < b / 0x200000 + count.toNat → Ends (.invCountStore n count) s (fun t =>
      (t.slice n).invs = (s.slice n).invs ∧ (t.slice n).lastError = 9 ∧ (t.slice n).mapErrors = (s.slice n).mapErrors + 1 ∧
      OnlyIn [.slices] s t))) ∧
  (∀ (n g c : Nat) (l : List (Nat × Nat)) (s : State), 1 ≤ n → n ≤ 63 → s.frozen = false →
    (s.slice n).invs = (g, c) :: l → g + c ≤ 262144 →
    Ends (.invalidationComplete n) s (fun t => (t.slice n).invs = l ∧ (t.slice n).invDone = (s.slice n).invDone + 1 ∧
      (t.slice n).map = (s.slice n).map ∧
      (t.slice n).quar = (s.slice n).quar.filter (fun q => !decide (g ≤ q.1 ∧ q.1 < g + c)) ∧
      (∀ q ∈ (s.slice n).quar, g ≤ q.1 → q.1 < g + c → fget (fun _ => 0) t.mem.frames q.2 = 64 + n) ∧
      (∀ a h, g ≤ h → h < g + c → entryPinned (s.entry n h) = false →
        fget (fun _ => 0) t.mem.tc (tcKey a n h) = 0) ∧
      t.fld F.MEM_CNT_INV_COUNT = min (s.fld F.MEM_CNT_INV_COUNT + 1) (2 ^ 32 - 1) ∧ OnlyIn [.regs, .slices, .mem] s t)) ∧
  (∀ (n g : Nat) (value : DWord) (whole : Bool) (s : State), s.frozen = true ∨ s.sliceState n = 0 →
    exec (.mapViewStore n g value whole) s = .next s ∧ exec (.invCountStore n value) s = .next s) ∧
  (∀ (f : Nat) (s : State), fget (fun _ => 0) s.mem.frames f / 64 = 1 → s.frozen = false →
    Ends (.frameZeroComplete f) s (fun t => fget (fun _ => 0) t.mem.frames f = 0 ∧
      (∀ h, h ≠ f → fget (fun _ => 0) t.mem.frames h = fget (fun _ => 0) s.mem.frames h) ∧
      (∀ d, frameDpa f ≤ d → d < frameDpa (f + 1) → t.dpaByte d = 0 ∧ t.poisoned d = false) ∧
      (∀ d, d < 0x10000000 ∨ (0x10000000000 ≤ d ∧ d < frameDpa f) ∨ frameDpa (f + 1) ≤ d → t.dpaByte d = s.dpaByte d) ∧
      OnlyIn [.mem, .cmn, .hbm] s t)) ∧
  (∀ (f : Nat) (s : State), fget (fun _ => 0) s.mem.frames f / 64 ≠ 1 ∨ s.frozen = true →
    exec (.frameZeroComplete f) s = .next s) ∧
  (∀ (permille : Nat) (s : State), s.bit F.SEC_STATUS_TENANCY_KEY = true → s.frozen = false → s.pwr.doze = false →
    Ends (.patrol [] permille) s (fun t => t.fld F.MEM_PATROL_PROGRESS_PERMILLE = min permille 1000 ∧ OnlyIn [.regs] s t) ∧
    (∀ d, 0x10000000000 ≤ d → Ends (.patrol [(d, true)] permille) s (fun t => t.poisoned d = true ∧
      t.fld F.MEM_PATROL_PROGRESS_PERMILLE = min permille 1000 ∧ OnlyIn (.mem :: logParts) s t))) ∧
  (∀ (errs : Upsets) (permille : Nat) (s : State),
    s.bit F.SEC_STATUS_TENANCY_KEY = false ∨ s.frozen = true ∨ s.pwr.doze = true →
    exec (.patrol errs permille) s = .next s) ∧
  (∀ (ns : Nat) (s : State), s.frozen = false → s.pwr.doze = false → Ends (.hbmRefresh ns) s (fun t =>
    t.fld F.MEM_REFRESH_WAIT_MAX_NS = max (s.fld F.MEM_REFRESH_WAIT_MAX_NS) (min ns 350) ∧ OnlyIn [.regs] s t))

/-- When it starts: SEQ_ADMIT with a resident model and a valid manifest takes the lowest free entry and row with its
fields, and runs on; without a model it ends with NO_MODEL, with a bad argument with BAD_ARG, past the limits with
SEQ_FULL. SEQ_APPEND of a named sequence waits; SEQ_APPEND_APPLY copies its tokens behind the history and counts them.
SEQ_CANCEL ends a sequence in no step at once, and marks one in a step. STEP_BUILD hands over a step of at least one
row when a candidate is included; a step holds at most MAX_SEQS rows of at least one token, at most MAX_STEP_TOKENS
tokens in all. STEP_END takes the step off, counts a row's tokens as done and, when the history is processed, appends
the next token; a failed step retires its row. A command naming no live sequence ends with SEQ_UNKNOWN. Nothing acts
in a freeze. -/
def Obligations.SequencesAreBatched : Prop :=
  (∀ (n q : Nat) (c : QCmd) (s v : State), 1 ≤ n → n ≤ 63 → q ≤ 15 →
    (Starts s n q 0x40 c v → s.fld F.SLC_TEN_STATUS_MODEL ≠ 2 → Ends (.seqAdmit n q) s (fun t =>
      CmdEnded t n q c.uid 6 0 0 ∧ OnlyIn [.qs, .slices] s t)) ∧
    (Starts s n q 0x40 c v → s.fld F.SLC_TEN_STATUS_MODEL = 2 → s.fld F.SEQ_STATUS_MANIFEST = 1 →
      (∀ d, v.admitFault n c = some d → Ends (.seqAdmit n q) s (fun t => CmdEnded t n q c.uid 3 d 0 ∧
        OnlyIn [.qs, .slices] s t)) ∧
      (∀ i r, v.admitFault n c = none → v.activated n = true → v.freeSeqEntry = some i → v.freeRow n = some r →
        (v.liveSeqs n).length < min (v.limitActive n) (v.seqLimit n) → Ends (.seqAdmit n q) s (fun t =>
          (t.seq i).st = 1 ∧ (t.seq i).vf = n ∧ (t.seq i).ptRow = r ∧ (t.seq i).userSeq = c.body 0 8 ∧
          (t.seq i).prompt = c.body 8 8 ∧ (t.seq i).promptTokens = c.body 0x10 4 ∧ (t.seq i).maxNew = c.body 0x14 4 ∧
          (t.seq i).out = c.body 0x18 8 ∧ (t.seq i).kvLimit = (if c.body 0x20 4 = 0 then s.mf 0x1E 2 else c.body 0x20 4) ∧
          (t.seq i).prio = c.body 0x24 1 ∧ (t.seq i).uid = c.uid ∧ (∀ j, j ≠ i → t.seq j = s.seq j) ∧
          t.queue n q = v.queue n q ∧ t.fld F.SEQ_CNT_ADMIT_COUNT = min (s.fld F.SEQ_CNT_ADMIT_COUNT + 1) (2 ^ 32 - 1) ∧
          OnlyIn [.regs, .qs, .slices, .tsl] s t)) ∧
      (v.admitFault n c = none → v.activated n = true → min (v.limitActive n) (v.seqLimit n) ≤ (v.liveSeqs n).length →
        Ends (.seqAdmit n q) s (fun t => CmdEnded t n q c.uid 0xD 0 0 ∧
          t.fld F.SEQ_CNT_FULL_COUNT = min (s.fld F.SEQ_CNT_FULL_COUNT + 1) (2 ^ 32 - 1) ∧
            OnlyIn [.regs, .qs, .slices] s t))) ∧
    (∀ cmd op, (op, cmd) ∈ [(0x41, Instr.seqAppend n q), (0x42, .seqCancel n q)] → Starts s n q op c v →
      s.seqNamed n (c.body 0 8) = none → Ends cmd s (fun t => CmdEnded t n q c.uid 0xE 0 0 ∧ OnlyIn [.qs, .slices] s t)) ∧
    (∀ i x, Starts s n q 0x41 c v → s.seqNamed n (c.body 0 8) = some i → x = s.seq i →
      (x.outLen + c.body 0x10 4 ≤ x.maxNew → x.hist + c.body 0x10 4 ≤ x.kvLimit * s.pageTokens →
        Ends (.seqAppend n q) s (fun t => t.tsl.appends = s.tsl.appends ++ [⟨i, c.uid, c.body 8 8, c.body 0x10 4⟩] ∧
          t.queue n q = v.queue n q ∧ t.tsl.seqs = s.tsl.seqs ∧ OnlyIn [.qs, .slices, .tsl] s t)) ∧
      (x.maxNew < x.outLen + c.body 0x10 4 → Ends (.seqAppend n q) s (fun t =>
        CmdEnded t n q c.uid 3 0x40 0 ∧ OnlyIn [.qs, .slices] s t))) ∧
    (∀ i, Starts s n q 0x42 c v → s.seqNamed n (c.body 0 8) = some i →
      ((s.seq i).inStep = true → Ends (.seqCancel n q) s (fun t => (t.seq i).st = 3 ∧ (t.seq i).cancelUid = c.uid ∧
        (∀ j, j ≠ i → t.seq j = s.seq j) ∧ t.queue n q = v.queue n q ∧ OnlyIn [.qs, .slices, .tsl] s t)) ∧
      ((s.seq i).inStep = false → (s.seq i).vf = n → (∀ a ∈ s.tsl.appends, a.idx ≠ i) → c.uid ≠ 0 →
        (v.findCmd n c.uid).map Prod.fst = some q → Ends (.seqCancel n q) s (fun t =>
          t.seq i = {} ∧ CmdEnded t n q c.uid 0 0 0 ∧ (∀ j, j ≠ i → t.seq j = s.seq j))))) ∧
  (∀ (n dst : Nat) (a : Append) (x : Seq) (s : State), s.frozen = false →
    s.tsl.appends.find? (fun a => (s.seq a.idx).vf == n && !(s.seq a.idx).inStep) = some a → x = s.seq a.idx →
    dst = x.out + 4 * x.outLen → 1 ≤ a.count → s.memCheck freshAgent n a.tokens (4 * a.count) false false = none →
    s.memCheck freshAgent n dst (4 * a.count) true false = none → Ends (.seqAppendApply n) s (fun t =>
      (t.seq a.idx).outLen = x.outLen + a.count ∧ (∀ b ∈ t.tsl.appends, b.uid ≠ a.uid) ∧
      ((s.reach freshAgent n dst (4 * a.count) true).Nodup → (s.reach freshAgent n dst (4 * a.count) true).map t.dpaByte =
        s.memBytes freshAgent n a.tokens (4 * a.count)) ∧
      BytesOutside (s.reach freshAgent n dst (4 * a.count) true) s t ∧ OnlyIn [.qs, .mem, .cmn, .hbm, .tsl] s t)) ∧
  (∀ (n r : Nat) (b : Build) (s : State), s.frozen = false → s.activated n = true → (∀ x ∈ s.tsl.steps, x.vf ≠ n) →
    s.teaselSlot n = true → s.mf 0x34 4 ≤ r → b = (s.candidates n).foldl (State.offer n r) ⟨s, [], 0, 0⟩ → b.rows ≠ [] →
    Ends (.stepBuild n r) s (fun t => ∃ x ∈ t.tsl.steps, x.vf = n ∧ x.rows = b.rows ∧ x.rows.length ≤ s.maxSeqs ∧
      (x.rows.map (fun r => r.2.2)).sum ≤ s.maxTokens ∧ (∀ r ∈ x.rows, 1 ≤ r.2.2) ∧
      x.est = b.st.stepEst n b.tokens b.rows.length b.pages)) ∧
  (∀ (n r : Nat) (s : State), s.frozen = true ∨ s.activated n = false ∨ (∃ x ∈ s.tsl.steps, x.vf = n) ∨ s.teaselSlot n = false →
    exec (.stepBuild n r) s = .next s) ∧
  (∀ (n actual i first k tok : Nat) (x : TStep) (y : Seq) (s : State), 1 ≤ n → n ≤ 63 → s.frozen = false →
    s.tsl.steps.find? (fun x => x.vf == n && x.result.isSome) = some x → x.rows = [(i, first, k)] → y = s.seq i →
    y.inStep = true → y.st = 1 → y.vf = n →
    (x.result = some (0, 0) → y.done + k ≠ y.hist → Ends (.stepEnd n actual) s (fun t =>
      t.seq i = { y with done := y.done + k, inStep := false } ∧
      t.fld (F.SEQ_S_SCALE_SCALE n) = newScale (s.fld (F.SEQ_S_SCALE_SCALE n)) actual x.est ∧
      t.tsl.steps = s.tsl.steps.filter (fun z => z.uid != x.uid) ∧ OnlyIn [.regs, .tsl] s t)) ∧
    (x.result = some (0, 0) → y.done + k = y.hist → tok = s.areaLe n 7 0 4 → tok < s.mf 0x20 4 →
      s.memCheck freshAgent n (y.out + 4 * y.outLen) 4 true false = none → (∀ j, j < 4 → s.mf (0x24 + 4 * j) 4 ≠ tok) →
      y.outLen + 1 < y.maxNew → Ends (.stepEnd n actual) s (fun t =>
        t.seq i = { y with done := y.hist, inStep := false, outLen := y.outLen + 1, produced := y.produced + 1 } ∧
        ((s.reach freshAgent n (y.out + 4 * y.outLen) 4 true).Nodup →
          (s.reach freshAgent n (y.out + 4 * y.outLen) 4 true).map t.dpaByte = leBytes 4 tok) ∧
        BytesOutside (s.reach freshAgent n (y.out + 4 * y.outLen) 4 true) s t ∧
          OnlyIn [.regs, .tsl, .mem, .cmn, .hbm] s t)) ∧
    (∀ st d, st ≠ 0 → x.result = some (st, d) → Ends (.stepEnd n actual) s (fun t => t.seq i = {} ∧
      (∀ z ∈ t.tsl.steps, z.uid ≠ x.uid)))) ∧
  (∀ (n actual : Nat) (s : State), s.frozen = true ∨ (∀ x ∈ s.tsl.steps, x.vf = n → x.result = none) →
    exec (.stepEnd n actual) s = .next s ∧ (s.frozen = true → exec (.seqAppendApply n) s = .next s))

/-- While the tick runs and the part is not frozen: SCHEDULE_GROUP_READ reads the entries of one START up to the next
START or a NONE entry, skipping and recording a bad one; SLOT_START dispatches the group that stands read; SLOT_END
takes its slot off, and an RT slot that ends with a command started counts the miss or, under ABORT, aborts it.
LAG_QUANTUM gives each ELASTIC slice of the cluster its new lag and holds exactly those behind −4,096 while one that
used slots is not. EXCLUSIVE_JOB_START chooses the job or leaves the position idle; EXCL_LIMIT ends the job with
ABORTED. SLOWDOWN_NOTICE_POST posts the lowest pending slice's notice. BOUNDS_ENFORCE leaves a slice inside its bounds
alone and gives one outside them its new layout. -/
def Obligations.SlotsFollowTheSchedule : Prop :=
  (∀ (i : Nat) (e f : Entry) (s : State), s.frozen = false → s.tick.running = true → s.sch.ahead = false →
    s.sch.ready = [] → i = s.sch.rdBase + s.sch.rdIdx → s.sch.rdIdx < 31 → i < 4096 → e = s.entryAt i →
      f = s.entryAt (i + 1) →
    (entryBad e = 0 → eKind e ≠ 0 → entryBad f = 0 → (eKind f = 0 ∨ eStart f ≠ eStart e) →
      Ends (.scheduleGroupRead none) s (fun t => t.sch.ready = [slotOf e i] ∧ t.sch.rdBase = s.sch.rdBase ∧
        t.sch.rdIdx = (if eKind f = 0 then 32 else s.sch.rdIdx + 1) ∧ OnlyIn [.sch] s t)) ∧
    (entryBad e ≠ 0 → entryBad f = 0 → eKind f ≠ 0 → s.sch.rdIdx = 30 → Ends (.scheduleGroupRead none) s (fun t =>
      t.sch.ready = [slotOf f (i + 1)] ∧ (t.reg R.SCH_LAST_SKIP).toNat = entryBad e * 2 ^ 12 + i ∧
      t.fld F.SCH_CNT_SKIP_COUNT = min (s.fld F.SCH_CNT_SKIP_COUNT + 1) (2 ^ 32 - 1) ∧ OnlyIn (.sch :: logParts) s t))) ∧
  (∀ (mid : Option (Nat × Nat)) (s : State), s.frozen = true ∨ s.tick.running = false ∨ s.sch.ready ≠ [] →
    exec (.scheduleGroupRead mid) s = .next s) ∧
  (∀ s : State, s.frozen = false → s.tick.running = true → s.sch.ready ≠ [] → s.sch.ahead = false →
    s.sch.rdBase / 2048 = s.bank → s.dispatchStopped = false → Ends .slotStart s (fun t => t.sch.ready = [] ∧
      t.sch.running.map Slot.key = s.sch.running.map Slot.key ++ s.sch.ready.map Slot.key ∧ OnlyIn [.sch] s t)) ∧
  (∀ s : State, s.frozen = true ∨ s.tick.running = false → exec .slotStart s = .next s) ∧
  (∀ (i : Nat) (x : Slot) (s : State), s.sch.running.find? (fun x => x.key == i) = some x → s.frozen = false →
    (x.kind ≠ 4 → Ends (.slotEnd i) s (fun t => t.sch.running = s.sch.running.filter (fun y => y.key != i))) ∧
    (x.kind = 2 → Ends (.slotEnd i) s (OnlyIn [.sch] s)) ∧
    (∀ q uid, x.kind = 1 → 1 ≤ x.vf → x.vf ≤ 63 → q ≤ 15 → s.slotRuns x.vf x = true → s.rtCommands x.vf = [(q, uid)] →
      (x.overrun ≠ 1 → Ends (.slotEnd i) s (fun t => t.queue x.vf q = s.queue x.vf q ∧
        t.fld F.SCH_CNT_RT_MISS_COUNT = min (s.fld F.SCH_CNT_RT_MISS_COUNT + 1) (2 ^ 32 - 1) ∧
        OnlyIn (.sch :: logParts) s t)) ∧
      (x.overrun = 1 → Ends (.slotEnd i) s (fun t => CmdEnded t x.vf q uid 0x30 0 0))) ∧
    (x.kind = 3 → Ends (.slotEnd i) s (fun t => OnlyIn [.sch] s t ∧ ∀ c, c < 48 → tst x.clusters c = true →
      (∀ y ∈ t.sch.running, y.kind = 3 → tst y.clusters c = false) →
      (∀ y ∈ s.sch.ready, s.sch.ahead = true ∨ y.kind ≠ 3 ∨ tst y.clusters c = false ∨ y.start ≠ x.start + x.len) →
      ∀ n, n ≤ 63 → t.lagOf c n = 0))) ∧
  (∀ (c : Nat) (used r : List (Nat × Nat)) (s : State), s.frozen = false → c < 48 → 2 ≤ (s.elasticOf c).length →
    r = used.filter (fun p => (s.elasticOf c).contains p.1) → Ends (.lagQuantum c used) s (fun t =>
      (∀ n ∈ s.elasticOf c, t.lagOf c n = s.lagNew c r n ∧ -65536 ≤ t.lagOf c n ∧ t.lagOf c n ≤ 65536) ∧
      (∀ d n, n ≤ 63 → d ≠ c ∨ n ∉ s.elasticOf c → t.lagOf d n = s.lagOf d n) ∧
      (∀ n ∈ s.elasticOf c, fget (fun _ => 0) t.sch.held (64 * c + n) = 1 ↔
        t.lagOf c n < -4096 ∧ ∃ p ∈ r, 0 ≤ t.lagOf c p.1) ∧ OnlyIn [.sch] s t)) ∧
  (∀ (x : Slot) (s : State), s.sch.running.find? (fun x => x.kind == 4) = some x → s.frozen = false → s.sch.excl = none →
    s.sch.exclIdle = false → s.vfIdle x.vf = false → Ends .exclusiveJobStart s (fun t =>
      t.sch = { s.sch with excl := (s.exclPick x.vf).map (fun u => (x.vf, u, s.runClk)),
                           exclIdle := (s.exclPick x.vf).isNone } ∧ OnlyIn [.sch] s t)) ∧
  (∀ (n u began q : Nat) (s : State), s.exclJob = some (n, u, began) → s.frozen = false → s.fld F.SCH_EXCL_LIMIT_MS ≠ 0 →
    (s.findCmd n u).map Prod.fst = some q →
    (began + s.fld F.SCH_EXCL_LIMIT_MS * 1000000 ≤ s.runClk → Ends .exclLimit s (fun t =>
      CmdEnded t n q u 0x30 0 0 ∧ t.sch.exclIdle = true)) ∧
    (s.runClk < began + s.fld F.SCH_EXCL_LIMIT_MS * 1000000 → exec .exclLimit s = .next s)) ∧
  (∀ (n : Nat) (s : State), vfs.find? (fun n => fget (fun _ => 0) s.sch.sdPend n == 1) = some n → s.slotState 1009 = 0 →
    s.frozen = false → Ends .slowdownNoticePost s (fun t => t.slotState 1009 = 1 ∧ fget (fun _ => 0) t.sch.sdPend n = 0 ∧
      t.exmLe (slotAddr 1009) 1 = n ∧ t.exmLe (slotAddr 1009 + 2) 2 = s.fld (F.SCH_SD_STATE_SLOWDOWN n) ∧
      OnlyIn [.regs, .exm, .exmMem, .sch, .out] s t)) ∧
  (∀ (n cycles : Nat) (s : State), 1 ≤ n → n ≤ 63 → s.frozen = false → (s.slice n).boundsAt ≠ 0 →
    (s.slice n).boundsAt ≤ s.tickCount → s.sliceState n = 2 → s.pendingOf n = none → s.tenancy = 2 →
    (s.boundLayouts n = (s.projected, true) → Ends (.boundsEnforce n cycles) s (fun t =>
      t.slice n = { s.slice n with boundsAt := 0 } ∧ OnlyIn [.slices] s t)) ∧
    (∀ held h, s.boundLayouts n = (held, true) → held.filter (fun h => !s.projected.contains h) = [h] → h.vf = n →
      Ends (.boundsEnforce n cycles) s (fun t => t.clustersOf n = h.lay.clusters % 2 ^ 48 ∧ (t.slice n).base = h.base ∧
        (t.slice n).boundsAt = 0)) ∧
    (∀ held, s.boundLayouts n = (held, false) → held = s.projected → (s.slice n).boundsLogged = false →
      Ends (.boundsEnforce n cycles) s (fun t => t.slice n = { s.slice n with boundsLogged := true } ∧
        OnlyIn (.slices :: logParts) s t)))

/-- When it issues with a well-formed word, each instruction of the integer and float classes writes the result of Table
11-4 or 11-5 in each active lane whose guard holds, or once to a uniform register; ICMP, FCMP and PCOMB write their
predicate; SEL, MOV, MOVI, CVT, RDLANE, XLANE, VOTE, RDSYS and YARROW_NOP do as their tables say. The group goes on at
the next instruction; no other register, predicate, group, context, memory byte or special register changes, but for
the issue counters, the RT latency maximum and free values. A result within the error bound of R420, and an integer
conversion out of range, are free (log entries 4, 23). -/
def Obligations.ArithmeticWritesItsResult : Prop :=
  ∀ (c j g : Nat) (hi : Bool),
    Does (.iadd c j g hi) c j g hi [0x00, 0x01] 2 3 (fun m a b _ _ => satInt m ((a : Int) + b) (s32 a + s32 b)) ∧
    Does (.isub c j g hi) c j g hi [0x02, 0x03] 2 3 (fun m a b _ _ => satInt m ((a : Int) - b) (s32 a - s32 b)) ∧
    Does (.imul c j g hi) c j g hi [0x04, 0x05] 2 0 (fun _ a b _ _ => a * b) ∧
    Does (.imulhi c j g hi) c j g hi [0x06, 0x07] 2 1 (fun m a b _ _ =>
      unsgn 32 (if tst m 0 then s32 a * s32 b / 2 ^ 32 else (a : Int) * b / 2 ^ 32)) ∧
    Does (.imac c j g hi) c j g hi [0x08] 3 0 (fun _ a b d _ => a * b + d) ∧
    Does (.imin c j g hi) c j g hi [0x0A, 0x0B] 2 1 (fun m a b _ _ =>
      if tst m 0 then (if s32 b < s32 a then b else a) else min a b) ∧
    Does (.imax c j g hi) c j g hi [0x0C, 0x0D] 2 1 (fun m a b _ _ =>
      if tst m 0 then (if s32 a < s32 b then b else a) else max a b) ∧
    Does (.and c j g hi) c j g hi [0x0E, 0x0F] 2 0 (fun _ a b _ _ => Nat.land a b) ∧
    Does (.or c j g hi) c j g hi [0x10, 0x11] 2 0 (fun _ a b _ _ => Nat.lor a b) ∧
    Does (.xor c j g hi) c j g hi [0x12, 0x13] 2 0 (fun _ a b _ _ => Nat.xor a b) ∧
    Does (.shl c j g hi) c j g hi [0x14, 0x15] 2 0 (fun _ a b _ _ => a * 2 ^ (b % 32)) ∧
    Does (.shr c j g hi) c j g hi [0x16, 0x17] 2 1 (fun m a b _ _ =>
      if tst m 0 then unsgn 32 (s32 a / 2 ^ (b % 32)) else a / 2 ^ (b % 32)) ∧
    Does (.popc c j g hi) c j g hi [0x18] 1 0 (fun _ a _ _ _ => ((List.range 32).filter (tst a)).length) ∧
    Does (.clz c j g hi) c j g hi [0x1A] 1 0 (fun _ a _ _ _ => clz32 a) ∧
    Does (.iabs c j g hi) c j g hi [0x1C] 1 2 (fun m a _ _ _ =>
      if tst m 1 && a == 0x80000000 then 0x7FFFFFFF else (s32 a).natAbs) ∧
    Does (.bfe c j g hi) c j g hi [0x1E, 0x1F] 2 1 (fun m a b _ _ => bfe m a b) ∧
    Does (.fadd c j g hi) c j g hi [0x20, 0x21] 2 247 (fun m a b _ _ => f32op m a b 0 (fun x y _ => x.add (m % 4) y)) ∧
    Does (.fsub c j g hi) c j g hi [0x22, 0x23] 2 247 (fun m a b _ _ => f32op m a b 0 (fun x y _ => x.add (m % 4) y.neg)) ∧
    Does (.fmul c j g hi) c j g hi [0x24, 0x25] 2 247 (fun m a b _ _ => f32op m a b 0 (fun x y _ => x.mul y)) ∧
    Does (.fmac c j g hi) c j g hi [0x26] 3 247 (fun m a b d _ => f32op m a b d (fun x y z => (x.mul y).add (m % 4) z)) ∧
    Does (.fmin c j g hi) c j g hi [0x28, 0x29] 2 244 (fun m a b _ _ => f32op m a b 0 (fun x y _ => x.least y)) ∧
    Does (.fmax c j g hi) c j g hi [0x2A, 0x2B] 2 244 (fun m a b _ _ => f32op m a b 0 (fun x y _ => x.most y)) ∧
    Does (.frcp c j g hi) c j g hi [0x2C] 1 244 (fun m a _ _ r => f32fn 0 m a r) ∧
    Does (.frsq c j g hi) c j g hi [0x2E] 1 244 (fun m a _ _ r => f32fn 1 m a r) ∧
    Does (.fexp2 c j g hi) c j g hi [0x30] 1 244 (fun m a _ _ r => f32fn 2 m a r) ∧
    Does (.flog2 c j g hi) c j g hi [0x32] 1 244 (fun m a _ _ r => f32fn 3 m a r) ∧
    Does (.fsin c j g hi) c j g hi [0x34] 1 244 (fun m a _ _ r => f32fn 4 m a r) ∧
    Does (.fcos c j g hi) c j g hi [0x36] 1 244 (fun m a _ _ r => f32fn 5 m a r) ∧
    Does (.ftanh c j g hi) c j g hi [0x38] 1 244 (fun m a _ _ r => f32fn 6 m a r) ∧
    Does (.padd c j g hi) c j g hi [0x3A] 2 255 (fun m a b _ _ => packed m a b 0 (fun x y _ => x.add (m % 4) y)) ∧
    Does (.pmul c j g hi) c j g hi [0x3C] 2 255 (fun m a b _ _ => packed m a b 0 (fun x y _ => x.mul y)) ∧
    Does (.pmac c j g hi) c j g hi [0x3E] 3 255 (fun m a b d _ => packed m a b d (fun x y z => (x.mul y).add (m % 4) z)) ∧
    (∀ (s : State) (i : Iss),
      (∀ d : Nat, d = bitsOf i.w 46 43 → Issues s c j g hi [0x40, 0x41, 0x42, 0x43] i
          ((if i.ua then [] else [(i.a, 1)]) ++ (if i.isI || i.ub then [] else [(i.b, 1)])) →
        (i.ua = true → i.a ≤ 63) → (i.isI = false → i.ub = true → i.b ≤ 63) → i.ud = false → (i.isI = true →
          tst i.w 0 = false) →
        bitsOf i.w 49 47 < 6 → d ≠ 15 →
        (i.op ≤ 0x41 → Ends (.icmp c j g hi) s (fun t => ∃ y, i.Leaves [] s t y ∧ { y with preds := [] } =
            { i.next i.y with preds := [] } ∧ (∀ l, l < 32 → y.p d l = if l ∈ i.on then cmpHolds (bitsOf i.w 49 47)
              (if tst i.w 50 then s32 (i.src i.ua i.a l) - s32 (i.srcB l) else (i.src i.ua i.a l : Int) - i.srcB l)
            else i.y.p d l) ∧ ∀ r l, r ≠ d → y.p r l = i.y.p r l)) ∧
        (0x42 ≤ i.op → Ends (.fcmp c j g hi) s (fun t => ∃ y, i.Leaves [] s t y ∧ { y with preds := [] } =
            { i.next i.y with preds := [] } ∧ (∀ l, l < 32 → y.p d l = if l ∈ i.on then
              (match (f32.decode (i.src i.ua i.a l)).cmp (f32.decode (i.srcB l)) with
               | some o => cmpHolds (bitsOf i.w 49 47) o
               | none => tst i.w 50)
            else i.y.p d l) ∧ ∀ r l, r ≠ d → y.p r l = i.y.p r l))) ∧
      (Issues s c j g hi [0x44] i [] → i.a ≤ 15 → i.b ≤ 15 → i.d % 16 ≠ 15 → Ends (.pcomb c j g hi) s (fun t =>
        ∃ y, i.Leaves [] s t y ∧ { y with preds := [] } = { i.next i.y with preds := [] } ∧
          (∀ l, l < 32 → y.p (i.d % 16) l = if l ∈ i.on then tst i.mod (2 * b2n (i.y.p i.a l) + b2n (i.y.p i.b l)) else
            i.y.p (i.d % 16) l) ∧ ∀ r l, r ≠ i.d % 16 → y.p r l = i.y.p r l)) ∧
      (Issues s c j g hi [0x46] i (i.vecRegs 2) → i.formBad 2 = false → Ends (.sel c j g hi) s (fun t =>
        i.Wrote s t (fun l => if i.y.p (i.srcC % 16) l then i.src i.ua i.a l else i.src i.ub i.b l))) ∧
      (Issues s c j g hi [0x50] i (i.vecRegs 1) → i.formBad 1 = false → i.srcC = 0 → Ends (.mov c j g hi) s (fun t =>
        i.Wrote s t (fun l => i.src i.ua i.a l))) ∧
      (Issues s c j g hi [0x51] i (if i.ud then [] else [(i.d, 1)]) → i.a = 0 → (i.ud = true → i.d ≤ 63) →
        tst i.w 0 = false →
        Ends (.movi c j g hi) s (fun t => i.Wrote s t (fun _ => bitsOf i.w 34 3))) ∧
      (Issues s c j g hi [0x52] i (i.vecRegs 1) → i.formBad 1 = false → cvtKnown (i.mod % 16) = true →
        cvtKnown (i.mod / 16) = true → Ends (.cvt c j g hi) s (fun t => i.Wrote s t (fun l =>
          convert (i.mod % 16) (i.mod / 16) (bitsOf i.w 9 8) (tst i.w 10) (i.src i.ua i.a l)
            (Config.freeValue (s.freeCount + l)).toNat))) ∧
      (Issues s c j g hi [0x54] i [(i.a, 1)] → i.ub = true → i.b ≤ 63 → i.d ≤ 63 → i.ud = false →
        Ends (.rdlane c j g hi) s (fun t =>
        i.Leaves [] s t (i.next (if i.groupOn then i.y.setU i.d (i.v i.a (i.y.u i.b % 32)) else i.y)))) ∧
      (Issues s c j g hi [0x78] i ([(i.d, 1), (i.a, 1)] ++ (if tst i.mod 2 || i.ub then [] else [(i.b, 1)])) →
        i.ud = false →
        (tst i.mod 2 = false → i.ub = true → i.b ≤ 63) → Ends (.xlane c j g hi) s (fun t => i.Wrote s t (fun l =>
          match srcLane (i.mod % 4) l ((if tst i.mod 2 then bitsOf i.w 12 8 else i.src i.ub i.b l) % 32) with
          | some m => if tst i.act m then i.v i.a m else i.v i.a l
          | none => i.v i.a l))) ∧
      (Issues s c j g hi [0x7A] i [] → i.groupOn = true → i.a ≤ 15 →
        (i.mod % 8 = 0 → i.d ≤ 63 → Ends (.vote c j g hi) s (fun t => i.Leaves [] s t (i.next
          (i.y.setU i.d (b2n (i.lanes.all (i.y.p i.a))))))) ∧
        (i.mod % 8 = 1 → i.d ≤ 63 → Ends (.vote c j g hi) s (fun t => i.Leaves [] s t (i.next
          (i.y.setU i.d (b2n (i.lanes.any (i.y.p i.a))))))) ∧
        (i.mod % 8 = 2 → i.d ≤ 63 → Ends (.vote c j g hi) s (fun t => ∃ v, i.Leaves [] s t (i.next (i.y.setU i.d v)) ∧
          ∀ l, l < 32 → tst v l = (tst i.act l && i.y.p i.a l))) ∧
        (∀ m, m ≤ 1 → i.mod % 8 = 4 + m → i.d ≤ 14 → Ends (.vote c j g hi) s (fun t => ∃ y, i.Leaves [] s t (i.next y) ∧
          { y with preds := [] } = { i.y with preds := [] } ∧ ∀ l ∈ i.lanes, y.p i.d l =
            (if m = 0 then i.lanes.all (i.y.p i.a) else i.lanes.any (i.y.p i.a))))) ∧
      (Issues s c j g hi [0x99] i (if tst i.w 1 then [] else [(i.d, 1)]) → i.a ≤ 7 → (tst i.w 1 = true → i.d ≤ 63) →
        (tst i.w 1 = true → Ends (.rdsys c j g hi) s (fun t => i.Leaves [] s t (i.next (if i.groupOn then
          i.y.setU i.d ([i.first, i.act, g % 4, c, s.tickCount, s.tickCount / 2 ^ 32, s.taiStamp / 1000,
            s.taiStamp / 1000 / 2 ^ 32].getD i.a 0) else i.y)))) ∧
        (tst i.w 1 = false → Ends (.rdsys c j g hi) s (fun t => ∃ y, i.Leaves [] s t y ∧
          ∀ l, l < 32 → y.v (i.phys i.d) l = if l ∈ i.on then [l, i.act, g % 4, c, s.tickCount, s.tickCount / 2 ^ 32,
            s.taiStamp / 1000, s.taiStamp / 1000 / 2 ^ 32].getD i.a 0 % 2 ^ 32 else i.y.v (i.phys i.d) l))) ∧
      (Issues s c j g hi [0x87] i [] → bitsOf i.w 50 0 = 0 → Ends (.yarrowNop c j g hi) s (fun t =>
        i.Leaves [] s t (i.next i.y))))

/-- With well-formed words and valid addresses in every lane: LD, LDS and LDC leave a load in flight with its lanes,
LOAD_DATA_RETURN writes its bytes to the register, zero- or sign-extended. ST adds its sectors to the store buffer of
its scheduler and touches no memory byte; STORE_ENTRY_RETIRE writes the oldest entry's bytes and no other. An atomic
returns the old value and leaves the new one, in local store or memory, and no other byte changes. ACOPY starts a
copy; ACOPY_COMPLETE moves its bytes and raises its counter, ASYNC_ADDRESS of a copy with an invalid block ends the
launch. ARRIVE raises its counter and FENCE goes on, both after the group's stores; WAIT and WAITU go on once their
counter has reached the target, and stay before that; CTRREAD reads it. -/
def Obligations.LoadsStoresAndAtomicsAct : Prop :=
  (∀ (c j g : Nat) (hi : Bool),
    DoesAtomic (.atomAdd c j g hi) c j g hi 0x64 false false (fun _ old v _ => old + v) ∧
    DoesAtomic (.atomSmin c j g hi) c j g hi 0x65 false false (fun n old v _ => if sgn n v < sgn n old then v else old) ∧
    DoesAtomic (.atomSmax c j g hi) c j g hi 0x66 false false (fun n old v _ => if sgn n old < sgn n v then v else old) ∧
    DoesAtomic (.atomUmin c j g hi) c j g hi 0x67 false false (fun _ old v _ => min old v) ∧
    DoesAtomic (.atomUmax c j g hi) c j g hi 0x68 false false (fun _ old v _ => max old v) ∧
    DoesAtomic (.atomAnd c j g hi) c j g hi 0x69 false false (fun _ old v _ => Nat.land old v) ∧
    DoesAtomic (.atomOr c j g hi) c j g hi 0x6A false false (fun _ old v _ => Nat.lor old v) ∧
    DoesAtomic (.atomXor c j g hi) c j g hi 0x6B false false (fun _ old v _ => Nat.xor old v) ∧
    DoesAtomic (.atomExch c j g hi) c j g hi 0x6C false false (fun _ _ v _ => v) ∧
    DoesAtomic (.atomCas c j g hi) c j g hi 0x6D true false (fun _ old v w => if old = v then w else old) ∧
    DoesAtomic (.atomFadd c j g hi) c j g hi 0x6E false true (fun _ old v _ =>
      f32.encode 0 false ((f32.decode old).add 0 (f32.decode v)))) ∧
  (∀ (c j g : Nat) (hi : Bool) (s : State) (i : Iss) (loc : Nat → Loc),
    (∀ op cmd, (op, cmd) ∈ [(0x60, Instr.ld c j g hi), (0x61, .lds c j g hi)] →
      Issues s c j g hi [op] i ((i.d, i.words) :: i.addrRegs) → i.y.inTrap = false → i.memBad false = false →
      i.d % i.words = 0 → (op = 0x61 → i.sizeCode ≤ 1) → i.on ≠ [] → (∀ l ∈ i.on, s.access i false false l = .inr (loc l)) →
      Ends cmd s (fun t => (t.groupAt i.k i.g).pc hi = i.pc + 1 ∧ (t.groupAt i.k i.g).regs = i.y.regs ∧
        (t.groupAt i.k i.g).preds = i.y.preds ∧ (t.groupAt i.k i.g).unif = i.y.unif ∧
        (∃ data, (t.groupAt i.k i.g).loads.getLast? =
          some ⟨i.phys i.d, i.size, op == 0x61, i.on.map (fun l => (l, loc l)), data⟩ ∧
          ((∀ e ∈ s.sbuf i.c i.sched, e.ctx ≠ i.k) → data = [])) ∧
        ((∀ e ∈ s.sbuf i.c i.sched, e.ctx ≠ i.k) → OnlyIn [.regs, .sch, .yar, .mem, .free] s t))) ∧
    (Issues s c j g hi [0x63] i ((i.d, i.words) :: (if i.ua then [] else [(i.a, 1)])) → i.space = 0 → i.sizeCode ≤ 4 →
      (i.ua = true → i.a ≤ 63) → i.mub = false → i.b = 0 → i.d % i.words = 0 → i.on ≠ [] → (∀ l ∈ i.on,
        i.addr false l % i.size = 0 ∧ i.addr false l + i.size ≤ i.kn.consts.length) → Ends (.ldc c j g hi) s (fun t =>
      i.Leaves [] s t (i.next { i.y with loads := i.y.loads ++ [⟨i.phys i.d, i.size, false, [],
        i.on.map (fun l => (l, sliceOf i.kn.consts (i.addr false l) i.size))⟩] }))) ∧
    (∀ dat, Issues s c j g hi [0x62] i (i.addrRegs ++ (if i.mub then [] else [(i.b, i.words)])) → i.y.inTrap = false →
      i.memBad true = false → i.d = 0 → i.b % i.words = 0 → (∀ l ∈ i.on, s.access i true false l = .inr (loc l)) →
      (∀ l ∈ i.on, s.storePoison (loc l) i.size = false) → i.y.loads = [] →
      dat = i.on.map (fun l => (loc l, leBytes i.size (i.wide i.b l))) →
      (s.sbuf i.c i.sched).length + (storeEntries i.k dat).length ≤ 32 → Ends (.st c j g hi) s (fun t =>
        (∃ d, (d = dat ∨ d = dat.reverse) ∧ t.sbuf i.c i.sched = s.sbuf i.c i.sched ++ storeEntries i.k d) ∧
        t.groupAt i.k i.g = i.after (i.next i.y) ∧ OnlyIn [.regs, .sch, .yar, .mem, .free] s t)) ∧
    (Issues s c j g hi [0x70] i [] → i.groupOn = true → i.y.inTrap = false → i.gBad = false → i.a % 2 = 0 → i.a ≤ 62 →
      i.b ≤ 63 →
      bitsOf i.w 9 0 = 0 → 1 ≤ bitsOf i.w 25 10 → bitsOf i.w 25 10 ≤ 32768 →
      (i.x.copies.length < 64 → (i.y.u i.a + 2 ^ 32 * i.y.u (i.a + 1)) % 16 = 0 → i.y.u i.b % 16 = 0 →
        i.y.u i.b + 16 * bitsOf i.w 25 10 ≤ i.x.share → Ends (.acopy c j g hi) s (fun t =>
          (t.ctx i.k).map Ctx.copies = some (i.x.copies ++ [⟨i.x.nextCopy, i.ctrOf, tst i.w 26,
            i.y.u i.a + 2 ^ 32 * i.y.u (i.a + 1), i.y.u i.b, 16 * bitsOf i.w 25 10⟩]) ∧
          t.groupAt i.k i.g = i.after (i.next i.y) ∧ OnlyIn [.regs, .sch, .yar] s t))) ∧
    (Issues s c j g hi [0x71] i [] → i.groupOn = true → i.y.inTrap = false → i.gBad = false → bitsOf i.w 42 0 = 0 →
      Ends (.arrive c j g hi) s (fun t => t.groupAt i.k i.g = i.after (i.next i.y) ∧
        (t.ctx i.k).map (fun x => x.ctr i.ctrOf) = some ((i.x.ctr i.ctrOf + 1) % 2 ^ 32) ∧
        (∀ e ∈ t.sbuf i.c i.sched, e.ctx ≠ i.k))) ∧
    (Issues s c j g hi [0x72] i [] → i.y.inTrap = false → i.gBad = false → bitsOf i.w 2 0 = 0 →
      Ends (.wait c j g hi) s (fun t =>
      i.Leaves [] s t (i.next i.y))) ∧
    (Issues s c j g hi [0x73] i [] → i.y.inTrap = false → i.gBad = false → i.a ≤ 63 → Ends (.waitu c j g hi) s (fun t =>
      i.Leaves [] s t (i.next i.y))) ∧
    (s.fetch c j g hi = some i → (∀ l, s.launchOf i.x.launch = some l → l.fault = 0) → i.groupOn = true →
      (i.op = 0x72 → reached (i.x.ctr i.ctrOf) (bitsOf i.w 34 3) = false → exec (.wait c j g hi) s = .next s) ∧
      (i.op = 0x73 → reached (i.x.ctr i.ctrOf) (i.y.u i.a) = false → exec (.waitu c j g hi) s = .next s)) ∧
    (Issues s c j g hi [0x74] i [] → i.ud = true → i.d ≤ 63 → Ends (.ctrread c j g hi) s (fun t =>
      i.Leaves [] s t (i.next (if i.groupOn then i.y.setU i.d (i.x.ctr (i.b % 16)) else i.y)))) ∧
    (Issues s c j g hi [0x98] i [] → i.y.inTrap = false → i.gBad = false → bitsOf i.w 1 0 ≤ 2 →
      Ends (.fence c j g hi) s (fun t =>
      t.groupAt i.k i.g = i.after (i.next i.y) ∧
      (i.groupOn = true → bitsOf i.w 1 0 ≠ 0 → ∀ e ∈ t.sbuf i.c i.sched, e.ctx ≠ i.k) ∧
      (i.groupOn = true → bitsOf i.w 1 0 = 2 → tst i.w 2 = true → (t.cluster i.c).cache = []) ∧
      (i.groupOn = false ∨ bitsOf i.w 1 0 = 0 → i.Leaves [] s t (i.next i.y))))) ∧
  (∀ (c j g n k : Nat) (x : Ctx) (p : PendLoad) (s : State), j < 8 → k = 8 * c + j → s.ctx k = some x →
    (x.group g).loads[n]? = some p → s.frozen = false →
    ((∀ l ∈ p.lanes, p.data.any (fun d => d.1 == l.1) = true) → (p.data.map Prod.fst).Nodup → (∀ d ∈ p.data, d.1 < 32) →
      p.size ≤ 4 → Ends (.loadDataReturn c j g n) s (fun t =>
        (∀ d ∈ p.data, (t.groupAt k g).v p.reg d.1 =
          (if p.signed then unsgn 32 (sgn (8 * p.size) (ofLe d.2)) else ofLe d.2) % 2 ^ 32) ∧
        (∀ r l, l < 32 → r ≠ p.reg ∨ (∀ d ∈ p.data, d.1 ≠ l) → (t.groupAt k g).v r l = (x.group g).v r l) ∧
        (t.groupAt k g).loads = (x.group g).loads.eraseIdx n ∧ OnlyIn [.yar] s t)) ∧
    (∀ l a, p.lanes = [(l, ⟨1, a⟩)] → p.data = [] → l < 32 → p.size ≤ 4 → p.signed = false →
      Ends (.loadDataReturn c j g n) s (fun t => OnlyIn [.yar] s t ∧
        (t.groupAt k g).v p.reg l = ofLe ((addrs a p.size).map (fget (fun _ => 0) x.store)) ∧
        (t.groupAt k g).loads = (x.group g).loads.eraseIdx n))) ∧
  (∀ (c i : Nat) (e : SbEntry) (l : List SbEntry) (s : State), s.frozen = false → s.sbuf c i = e :: l →
    (e.bytes.map Prod.fst).Nodup →
    (e.space = 0 → Ends (.storeEntryRetire c i) s (fun t => t.sbuf c i = l ∧
      (∀ p ∈ e.bytes, t.dpaByte (32 * e.sector + p.1) = BitVec.ofNat 8 (p.2 - 1)) ∧
      BytesOutside (e.bytes.map (fun p => 32 * e.sector + p.1)) s t ∧ OnlyIn [.yar, .mem, .cmn, .hbm] s t)) ∧
    (∀ x, e.space = 1 → s.ctx e.ctx = some x → Ends (.storeEntryRetire c i) s (fun t => t.sbuf c i = l ∧ OnlyIn [.yar] s t ∧
      ∀ p ∈ e.bytes, (t.ctx e.ctx).map (fun y => fget (fun _ => 0) y.store (32 * e.sector + p.1)) =
        some (BitVec.ofNat 8 (p.2 - 1))))) ∧
  (∀ (c j n k : Nat) (x : Ctx) (p : Copy) (s v : State), j < 8 → k = 8 * c + j → s.ctx k = some x → x.copies[n]? = some p →
    s.frozen = false →
    (s.copyStop k x p = none → s.copyPoison k x p = false → v = s.touch c x.vf p.slice p.len →
      Ends (.acopyComplete c j n) s (fun t => (t.ctx k).map Ctx.copies = some (x.copies.eraseIdx n) ∧
        (t.ctx k).map (fun y => y.ctr p.ctr) = some ((x.ctr p.ctr + 1) % 2 ^ 32) ∧
        (p.toSlice = false → (∀ o d, o < p.len → v.xlate c x.vf (p.slice + o) false = some d →
          (t.ctx k).map (fun y => fget (fun _ => 0) y.store (p.loc + o)) = some (s.dpaByte d)) ∧
          t.mem.cmn = s.mem.cmn ∧ t.mem.hbm = s.mem.hbm) ∧
        (p.toSlice = true → (v.reach c x.vf p.slice p.len true).Nodup → (∀ o d, o < p.len →
          v.xlate c x.vf (p.slice + o) true = some d → t.dpaByte d = fget (fun _ => 0) x.store (p.loc + o)) ∧
          BytesOutside (v.reach c x.vf p.slice p.len true) s t) ∧ OnlyIn [.regs, .yar, .mem, .cmn, .hbm, .free] s t)) ∧
    (∀ l, (s.copyStop k x p).isSome = true → s.launchOf x.launch = some l → Ends (.asyncAddress c j n) s (fun t =>
      Raises s t l 0x0B)) ∧
    (s.copyStop k x p = none → exec (.asyncAddress c j n) s = .next s))

/-- When it issues with a well-formed word, each command has its effect on its group and beside the issue counters on
nothing else. BRA: all lanes hold: to the target; none: on; mixed: a push with the held lanes going to the target, a
split in two halves when the lanes lie in opposite halves, exception 9 in predication-only mode or without a rejoin
point, 8 with a full stack. JOIN: a first entry is turned over, a second popped, the halves meet; elsewhere it goes
on. JMPU and CALL jump with a uniform guard, and raise 9 with a mixed one. EXIT takes its lanes out. YIELD waits for
the others or for the next tick. TRAP raises 0x0C with its CODE. WSAVE and WRESTORE turn the window in place, enter
the trap handler without an issue slot, wait while another group is in it, and raise 0x0E. WSPILL and WFILL turn out
and in one frame; WRESUME goes back; WRDSTATE reads Table 13-3's word. A word outside the code raises 3, an unknown
one 1. CONTEXT_END frees a context whose lanes have all exited, and with the last one its launch ends. CONTEXT_SWITCH
parks what no slot runs and resumes what one runs, or waits for a trap window. -/
def Obligations.BranchesWindowsAndContextsAct : Prop :=
  (∀ (c j g : Nat) (hi : Bool) (s : State) (i : Iss), i.act < 2 ^ 32 →
    (∀ held rest target recon, Issues s c j g hi [0x80] i [] → i.d = 0 → held = maskOfLanes i.on → rest = i.act - held →
      target = relPc i.pc (sgn 27 (bitsOf i.w 26 0)) → recon = sgn 16 (bitsOf i.w 42 27) →
      (i.on = i.lanes → Ends (.bra c j g hi) s (fun t => i.Leaves [] s t (i.y.setPc hi target))) ∧
      (i.on = [] → i.lanes ≠ [] → Ends (.bra c j g hi) s (fun t => i.Leaves [] s t (i.next i.y))) ∧
      (i.on ≠ [] → i.on ≠ i.lanes →
        (∀ l, s.launchOf i.x.launch = some l → i.predMode = true ∨ recon = 0 → Ends (.bra c j g hi) s (fun t =>
          Raises s t l 9)) ∧
        (∀ l, s.launchOf i.x.launch = some l → i.predMode = false → recon ≠ 0 → 32 ≤ i.y.stack.length →
          Ends (.bra c j g hi) s (fun t => Raises s t l 8)) ∧
        (∀ low : Bool, i.predMode = false → recon ≠ 0 → i.y.stack.length < 32 → i.y.split = false →
          (∀ l ∈ i.lanes, l ∈ i.on ↔ (l < 16 ↔ low = true)) → Ends (.bra c j g hi) s (fun t =>
            i.Leaves [R.YAR_CNT_HALF_SPLIT i.c] s t { i.y with
              split := true, atJoin := 0, stack := ⟨2, 0, relPc i.pc recon, 0, i.act⟩ :: i.y.stack,
              pc0 := if low then target else i.pc + 1, pc1 := if low then i.pc + 1 else target,
              act0 := if low then held else rest, act1 := if low then rest else held })) ∧
        (i.predMode = false → recon ≠ 0 → i.y.stack.length < 32 →
          i.y.split = true ∨ (∃ a ∈ i.on, ∃ b ∈ i.lanes, b ∉ i.on ∧ (a < 16 ↔ b < 16)) → Ends (.bra c j g hi) s (fun t =>
            i.Leaves [] s t (({ i.y with stack :=
              ⟨0, if i.y.split then (if hi then 2 else 1) else 0, relPc i.pc recon, i.pc + 1, rest⟩ :: i.y.stack }.setAct hi
                held).setPc hi target))))) ∧
    (Issues s c j g hi [0x82] i [] → i.neg = false → bitsOf i.w 50 0 = 0 →
      (i.predMode = true ∨ (i.groupOn = false ∧ i.lanes ≠ []) ∨ i.joinEntry = none → Ends (.join c j g hi) s (fun t =>
        i.Leaves [] s t (i.next i.y))) ∧
      (∀ n e, i.predMode = false → i.groupOn = true ∨ i.lanes = [] → i.joinEntry = some n → i.y.stack[n]? = some e →
        (e.rpc ≠ i.pc → Ends (.join c j g hi) s (fun t => i.Leaves [] s t (i.next i.y))) ∧
        (e.rpc = i.pc → e.kind = 0 → Ends (.join c j g hi) s (fun t => i.Leaves [] s t
          (({ i.y with stack := i.y.stack.set n { e with kind := 1, pc := 0, mask := Nat.lor i.act e.mask } }.setAct hi
            (alive i.y e.mask)).setPc hi e.pc))) ∧
        (e.rpc = i.pc → e.kind = 1 → Ends (.join c j g hi) s (fun t => i.Leaves [] s t
          (i.next ({ i.y with stack := i.y.stack.eraseIdx n }.setAct hi (alive i.y e.mask))))) ∧
        (e.rpc = i.pc → e.kind = 2 → i.y.atJoin = 0 → alive i.y (halfLanes e (!hi)) ≠ 0 →
          Ends (.join c j g hi) s (fun t => i.Leaves [] s t { i.y with atJoin := if hi then 2 else 1 })) ∧
        (e.rpc = i.pc → e.kind = 2 → i.y.atJoin = (if hi then 1 else 2) ∨ alive i.y (halfLanes e (!hi)) = 0 →
          Ends (.join c j g hi) s (fun t => i.Leaves [] s t { i.y with
            split := false, atJoin := 0, stack := i.y.stack.eraseIdx n, pc0 := i.pc + 1, pc1 := 0, act0 := alive i.y e.mask,
            act1 := 0 })))) ∧
    (Issues s c j g hi [0x81] i [] → i.d = 0 → i.a ≤ 63 → bitsOf i.w 34 0 = 0 →
      (i.on = i.lanes → i.lanes ≠ [] → Ends (.jmpu c j g hi) s (fun t => i.Leaves [] s t (i.y.setPc hi (i.y.u i.a)))) ∧
      (i.on = [] → Ends (.jmpu c j g hi) s (fun t => i.Leaves [] s t (i.next i.y))) ∧
      (∀ l, s.launchOf i.x.launch = some l → i.on ≠ [] → i.on ≠ i.lanes → Ends (.jmpu c j g hi) s (fun t =>
        Raises s t l 9))) ∧
    (Issues s c j g hi [0x83] i [] → i.d ≤ 63 → bitsOf i.w 42 27 = 0 →
      (i.y.inTrap = false → i.on = i.lanes → i.lanes ≠ [] → Ends (.call c j g hi) s (fun t =>
        i.Leaves [] s t ((i.y.setU i.d (i.pc + 1)).setPc hi (relPc i.pc (sgn 27 (bitsOf i.w 26 0)))))) ∧
      (i.on = [] → Ends (.call c j g hi) s (fun t => i.Leaves [] s t (i.next i.y))) ∧
      (∀ l, s.launchOf i.x.launch = some l → i.y.inTrap = false → i.on ≠ [] → i.on ≠ i.lanes →
        Ends (.call c j g hi) s (fun t => Raises s t l 9))) ∧
    (Issues s c j g hi [0x84] i [] → bitsOf i.w 50 0 = 0 → i.y.inTrap = false →
      (i.y.split = false → Ends (.exit c j g hi) s (fun t => i.Leaves [] s t
        (i.next { i.y with exited := Nat.lor i.y.exited (maskOfLanes i.on), act0 := i.act - maskOfLanes i.on }))) ∧
      (∀ n e, i.y.split = true → i.y.stack.findIdx? (fun e => e.kind == 2) = some n → i.y.stack[n]? = some e →
        i.on = i.lanes → (∀ l, l < 32 → tst (halfLanes e hi) l = true → l ∉ i.lanes → tst i.y.exited l = true) →
        e.mask < 2 ^ 32 → i.y.exited < 2 ^ 32 → i.y.atJoin = (if hi then 1 else 2) → Ends (.exit c j g hi) s (fun t =>
          ∃ m, i.Leaves [] s t { i.y with
            split := false, atJoin := 0, stack := i.y.stack.eraseIdx n, exited := Nat.lor i.y.exited (maskOfLanes i.on),
            pc0 := i.y.pc (!hi) + 1, pc1 := 0, act0 := m, act1 := 0 } ∧
          ∀ l, l < 32 → tst m l = (tst e.mask l && !tst i.y.exited l && !i.on.contains l)))) ∧
    (Issues s c j g hi [0x85] i [] → bitsOf i.w 50 1 = 0 → i.y.inTrap = false →
      (i.groupOn = false → Ends (.yield c j g hi) s (fun t => i.Leaves [] s t (i.next i.y))) ∧
      (i.groupOn = true → tst i.w 0 = true → Ends (.yield c j g hi) s (fun t =>
        t.groupAt i.k i.g = { i.after (i.next i.y) with yieldTick := s.tickCount + 1 } ∧ i.GroupOnly s t ∧
        OnlyIn [.regs, .sch, .yar] s t)) ∧
      (i.groupOn = true → tst i.w 0 = false → i.x.groups ≤ 64 → Ends (.yield c j g hi) s (fun t =>
        { t.groupAt i.k i.g with yieldOn := [] } = i.after (i.next i.y) ∧ (∀ n h x, n < 8 → s.ctx (8 * c + n) = some x →
          h < x.groups → x.groups ≤ 64 → h % 4 = g % 4 → n ≠ j ∨ h ≠ g → 64 * n + h ∈ (t.groupAt i.k i.g).yieldOn) ∧
        i.GroupOnly s t ∧ OnlyIn [.regs, .sch, .yar] s t))) ∧
    (Issues s c j g hi [0x86] i [] → i.gBad = false → bitsOf i.w 46 16 = 0 →
      (i.groupOn = false → Ends (.trap c j g hi) s (fun t => i.Leaves [] s t (i.next i.y))) ∧
      (∀ l, s.launchOf i.x.launch = some l → i.groupOn = true → Ends (.trap c j g hi) s (fun t =>
        Raises s t l (0x0C + 256 * bitsOf i.w 15 0)))) ∧
    (∀ op cmd kind, (op, cmd, kind) ∈ [(0xA0, Instr.wsave c j g hi, 0), (0xA1, .wrestore c j g hi, 1)] →
      Issues s c j g hi [op] i [] → i.x.windowed = true → bitsOf i.w 50 0 = 0 →
      (i.groupOn = false → Ends cmd s (fun t => i.Leaves [] s t (i.next i.y))) ∧
      (i.groupOn = true → i.y.inTrap = false →
        (kind = 0 → i.y.resident < 7 → Ends cmd s (fun t => i.Leaves [] s t
          (i.next { i.y with wcur := (i.y.wcur + 1) % 8, resident := i.y.resident + 1 }))) ∧
        (kind = 1 → 2 ≤ i.y.resident → Ends cmd s (fun t => i.Leaves [] s t
          (i.next { i.y with wcur := (i.y.wcur + 7) % 8, resident := i.y.resident - 1 }))) ∧
        ((kind = 0 ∧ 7 ≤ i.y.resident) ∨ (kind = 1 ∧ i.y.resident < 2 ∧ 1 ≤ i.y.spilled) → i.was = false →
          (i.trapBusy = false → Ends cmd s (fun t =>
            t.groupAt i.k i.g = { i.y with
              inTrap := true, trapKind := kind, trapPc := i.pc, handlerCount := 0, resumed := false, yieldTick := 0,
              yieldOn := [] }.setPc hi i.kn.handler ∧ i.GroupOnly s t ∧
            t.reg (R.YAR_CNT_ISSUE i.c) = s.reg (R.YAR_CNT_ISSUE i.c) ∧ OnlyIn [.regs, .sch, .yar] s t)) ∧
          (i.trapBusy = true → exec cmd s = .next s)) ∧
        (∀ l, s.launchOf i.x.launch = some l → (kind = 0 ∧ 7 ≤ i.y.resident ∧ i.was = true) ∨
          (kind = 1 ∧ i.y.resident < 2 ∧ (i.was = true ∨ i.y.spilled = 0)) → Ends cmd s (fun t => Raises s t l 0x0E))) ∧
      (∀ l q, s.launchOf i.x.launch = some l → l.vf ≤ 63 → i.groupOn = true → i.y.inTrap = true →
        (s.findCmd l.vf l.uid).map Prod.fst = some q →
        Ends cmd s (fun t => LaunchGone t l.id ∧ (t.fltState ≠ 1 → CmdEnded t l.vf q l.uid 0x22 0 0)))) ∧
    (Issues s c j g hi [0xA2] i [] → i.x.windowed = true → bitsOf i.w 50 0 = 0 → i.groupOn = true →
      (i.y.inTrap = true → 2 ≤ i.y.resident → i.y.spilled < 16 → (∀ e ∈ s.sbuf i.c i.sched, e.space ≤ 1) →
        Ends (.wspill c j g hi) s (fun t =>
        t.groupAt i.k i.g = i.after (i.next { i.y with spilled := i.y.spilled + 1, resident := i.y.resident - 1 }))) ∧
      (∀ l, s.launchOf i.x.launch = some l → i.y.inTrap = false ∨ i.y.resident < 2 ∨ 16 ≤ i.y.spilled →
        Ends (.wspill c j g hi) s (fun t => Raises s t l 0x0E))) ∧
    (Issues s c j g hi [0xA3] i [] → i.x.windowed = true → bitsOf i.w 50 0 = 0 → i.groupOn = true →
      (∀ a : Nat → Nat → Nat, i.y.inTrap = true → i.y.resident ≤ 6 → 1 ≤ i.y.spilled → (∀ n e, e ∈ s.sbuf i.c n →
        e.ctx ≠ i.k) →
        (∀ r l, r < 16 → l < 32 → s.xlate i.c i.x.vf (s.frameAddr i (i.y.spilled - 1) r + 4 * l) false = some (a r l) ∧
          (addrs (a r l) 4).any s.poisoned = false ∧ fget (fun _ => []) (s.cluster i.c).cache (a r l / 128) = [] ∧
          a r l % 128 + 4 ≤ 128) → Ends (.wfill c j g hi) s (fun t =>
          (∀ r l, r < 16 → l < 32 → (t.groupAt i.k i.g).v (frameReg ((i.y.wcur + 8 - i.y.resident) % 8) r) l =
            ofLe ((addrs (a r l) 4).map s.dpaByte)) ∧
          { t.groupAt i.k i.g with regs := [] } = { i.after (i.next { i.y with
            spilled := i.y.spilled - 1, resident := i.y.resident + 1 }) with regs := [] })) ∧
      (∀ l, s.launchOf i.x.launch = some l → i.y.inTrap = false ∨ 6 < i.y.resident ∨ i.y.spilled = 0 →
        Ends (.wfill c j g hi) s (fun t => Raises s t l 0x0E))) ∧
    (Issues s c j g hi [0xA4] i [] → i.x.windowed = true → bitsOf i.w 50 0 = 0 → i.groupOn = true →
      (i.y.inTrap = true → Ends (.wresume c j g hi) s (fun t =>
        t.groupAt i.k i.g = { i.after i.y with inTrap := false, resumed := true }.setPc hi i.y.trapPc ∧ i.GroupOnly s t ∧
        OnlyIn [.regs, .sch, .yar] s t)) ∧
      (∀ l, s.launchOf i.x.launch = some l → i.y.inTrap = false → Ends (.wresume c j g hi) s (fun t =>
        Raises s t l 0x0E))) ∧
    (Issues s c j g hi [0xA5] i [] → i.x.windowed = true → i.d ≤ 63 → bitsOf i.w 42 0 = 0 →
      Ends (.wrdstate c j g hi) s (fun t =>
      i.Leaves [] s t (i.next (if i.groupOn then i.y.setU i.d ((i.after i.y).handlerCount * 2 ^ 17 +
        (if i.y.inTrap then i.y.trapKind * 2 ^ 16 + 2 ^ 15 else 0) + i.y.spilled * 2 ^ 8 + i.y.resident * 16 + i.y.wcur)
        else i.y)))) ∧
    (∀ l, s.fetch c j g hi = some i → s.launchOf i.x.launch = some l → s.ready i = true →
      (i.inCode = false → Ends (.kernelException c j g hi) s (fun t => Raises s t l 3)) ∧
      (i.inCode = true → knownOps.contains i.op = false → i.x.windowed = false ∨ windowOps.contains i.op = false →
        Ends (.kernelException c j g hi) s (fun t => Raises s t l 1)) ∧
      (i.inCode = true → knownOps.contains i.op = true → exec (.kernelException c j g hi) s = .next s))) ∧
  (∀ (c j k q : Nat) (x : Ctx) (l : Launch) (s : State), j < 8 → k = 8 * c + j → s.ctx k = some x → s.frozen = false →
    s.launchOf x.launch = some l →
    (s.ctxDone k x = false → exec (.contextEnd c j) s = .next s) ∧
    (s.ctxDone k x = true → (∀ n e, e ∈ s.sbuf c n → e.ctx ≠ k) → (∀ m ∈ s.yar.launches, m.vf = x.vf →
      m.contexts ≤ m.next) →
      (∀ m ∈ s.yar.launches, m.id = x.launch → m = l) → (∀ h ∈ s.yar.graphs, h.uid ≠ l.uid) →
      (2 ≤ l.live → Ends (.contextEnd c j) s (fun t => t.ctx k = none ∧ (∀ n, n ≠ k → t.ctx n = s.ctx n) ∧
        t.launchOf x.launch = some { l with live := l.live - 1 } ∧ OnlyIn [.yar] s t)) ∧
      (l.live = 1 → l.contexts ≤ l.next → (s.findCmd l.vf l.uid).map Prod.fst = some q → Ends (.contextEnd c j) s (fun t =>
        t.ctx k = none ∧ (∀ n, n ≠ k → t.ctx n = s.ctx n) ∧ t.launchOf x.launch = none ∧ CmdEnded t l.vf q l.uid 0 0 0 ∧
        OnlyIn [.yar, .qs, .slices] s t)))) ∧
  (∀ (c cycles took : Nat) (s : State), s.frozen = false → c < 48 →
    (s.deferring c = true → Ends (.contextSwitch c cycles took) s (fun t => OnlyIn [.yar] s t ∧ (t.cluster c).defer ≠ 0 ∧
      ∀ k, t.ctx k = s.ctx k)) ∧
    (s.deferring c = false → (∀ n, n < 4 → s.sbuf c n = []) → (∀ k ∈ slotsOf c, ∀ x, s.ctx k = some x → x.moveTo = 0) →
      Ends (.contextSwitch c cycles took) s (fun t => (t.cluster c).defer = 0 ∧
        (∀ k ∈ slotsOf c, ∀ x, s.ctx k = some x → ∃ y, t.ctx k = some y ∧ y.parked = !s.runsOn x c ∧ y.grp = x.grp ∧
          y.launch = x.launch ∧ y.copies = x.copies ∧ y.ctrs = x.ctrs) ∧
        OnlyIn [.regs, .slices, .mem, .sch, .yar, .cmn, .hbm] s t)))

/-- MMA appends its operation to a unit with room, waits without, and raises 6 for an address off 64 bytes.
OPERATION_STAGE reads descriptor and operands; a bad descriptor raises 0x0A. MMA_OPERATION leaves Table 12-1's
products in the tile, LOAD the rows; STORE writes them; RELEASE frees it; MATRIX_OP_COMPLETE raises the counter.
BLOCK_ENQUEUE appends a block to an instance of its class with room. ENGINE_STEP_DISPATCH takes a flagged head first,
else the step its deficit pays for. ENGINE_STEP_COMPLETE takes the step or the block off, signals its fence and ends
its command. MOVE, FILL, GATHER, GATHER_PAGES, ELEMENTWISE, REDUCE, NORMALISE, SOFTMAX, TOPK, DECODE, ALL_REDUCE and
ALL_GATHER write their step's bytes and no others; DECODE of bad input marks its load failed. A failing address ends
the command with its status, a mismatch or timeout of a collective with ABORTED, a stalled fence with FENCE_STALL. -/
def Obligations.MatrixUnitsAndEnginesWork : Prop :=
  (∀ (c j g : Nat) (hi : Bool) (s : State) (i : Iss), Issues s c j g hi [0x90] i [(i.a, if tst i.w 26 then 2 else 1)] →
    i.gBad = false → bitsOf i.w 24 23 ≠ 3 → (tst i.w 26 = true → i.a % 2 = 0) →
    (i.groupOn = false → Ends (.mma c j g hi) s (fun t => i.Leaves [] s t (i.next i.y))) ∧
    (i.groupOn = true →
      (∀ l, s.launchOf i.x.launch = some l → i.mmaAddr % 64 ≠ 0 → Ends (.mma c j g hi) s (fun t => Raises s t l 6)) ∧
      (i.mmaAddr % 64 = 0 → i.y.inTrap = false → (tst i.w 26 = false → i.mmaAddr + 64 ≤ i.x.share) →
        (tst i.w 26 = true → ∀ b ∈ addrs i.mmaAddr 64, (s.xlate c i.x.vf b false).isSome = true) →
        (∀ u, i.mmaUnit s = some u → fget (fun _ => 0) i.y.inFlight i.first < 8 → Ends (.mma c j g hi) s (fun t =>
          (∃ m : MatOp, (t.munit (2 * c + u)).queue = (s.munit (2 * c + u)).queue ++ [m] ∧ m.seq = s.yar.nextOp ∧
            m.ctx = i.k ∧
            m.unit = u ∧ m.group = g ∧ m.lane = i.first ∧ m.space = bitOf i.w 26 ∧ m.addr = i.mmaAddr ∧ m.desc = [] ∧
            m.ctr = (if tst i.w 25 then some i.ctrOf else none)) ∧
          t.groupAt i.k g = i.after (i.next { i.y with
            inFlight := fset (fun _ => 0) i.y.inFlight i.first (fget (fun _ => 0) i.y.inFlight i.first + 1) }) ∧
          OnlyIn [.regs, .sch, .yar] s t)) ∧
        (i.mmaUnit s = none ∨ 8 ≤ fget (fun _ => 0) i.y.inFlight i.first → exec (.mma c j g hi) s = .next s)))) ∧
  (∀ (u : Nat) (m0 m : MatOp) (q : List MatOp) (x : Ctx) (s : State), (s.munit u).queue = m0 :: q →
    (s.munit u).staged = none →
    s.ctx m0.ctx = some x → s.frozen = false → m = { m0 with desc := s.operand m0 x m0.space m0.addr 64 } →
    s.tileBusy u m = false →
    (s.descCheck u m x = 0 → (∀ r ∈ m.ranges, r.1 = 1 → s.memCheck (m.ctx / 8) x.vf r.2.1 r.2.2.1 r.2.2.2 false = none) →
      Ends (.operationStage u) s (fun t => t.munit u = { s.munit u with queue := q, staged := some (s.readOperands m x) } ∧
        (∀ v, v ≠ u → t.munit v = s.munit v) ∧ OnlyIn [.yar] s t)) ∧
    (∀ l, s.launchOf x.launch = some l → s.descCheck u m x ≠ 0 → Ends (.operationStage u) s (fun t => Raises s t l 0x0A))) ∧
  (∀ (u p : Nat) (m : MatOp) (x : Ctx) (int : Bool) (old : FMap Word) (s : State),
    (s.toRun u 1 = some m → s.tileAt u m x m.intMma p int old → Ends (.mmaOperation u) s (fun t =>
      TileHolds s t u m p int (fun r n =>
        let v := if (fget (fun _ => ({} : LTile)) x.tiles m.tile).st = 0 ∨ m.flag 0 = true then 0
          else (fget (fun _ => 0) old (64 * r + n)).toNat
        if m.intMma then m.dotI v r n else m.dotF (f32.decode v) r n))) ∧
    (s.toRun u 2 = some m → s.tileAt u m x (m.flag 3) p int old → Ends (.load u) s (fun t =>
      TileHolds s t u m p int (fun r n => leAt (m.aRows.getD r []) (4 * n) 4))) ∧
    (∀ row : Nat → List Byte, s.toRun u 3 = some m → s.ctx m.ctx = some x →
      (fget (fun _ => ({} : LTile)) x.tiles m.tile).st = 0 ∨
        (s.tileAt u m x false p int old ∧ s.boundOn u m.ctx m.tile = some p) →
      row = (fun r => m.outRow (if (fget (fun _ => ({} : LTile)) x.tiles m.tile).st = 0 then [] else old) r) →
      (m.sp 0 = 0 → m.outBytes ≤ m.f 0x18 4 → Ends (.store u) s (fun t =>
        (∀ r k b, r < 16 → (row r)[k]? = some b →
          (t.ctx m.ctx).map (fun y => fget (fun _ => 0) y.store (m.f 8 8 + r * m.f 0x18 4 + k)) = some b) ∧
        (t.munit u).running = some m ∧ (t.munit u).done = true ∧ OnlyIn [.yar] s t)) ∧
      (∀ a : Nat → Nat → Nat, m.sp 0 = 1 → (∀ r k, r < 16 → k < m.outBytes →
          s.xlate (m.ctx / 8) x.vf (m.f 8 8 + r * m.f 0x18 4 + k) true = some (a r k)) →
        (∀ r k r' k', r < 16 → k < m.outBytes → r' < 16 → k' < m.outBytes → a r k = a r' k' → r = r' ∧ k = k') →
        Ends (.store u) s (fun t => (∀ r k b, r < 16 → k < m.outBytes → (row r)[k]? = some b → t.dpaByte (a r k) = b) ∧
          (t.munit u).running = some m ∧ (t.munit u).done = true ∧ OnlyIn [.yar, .mem, .cmn, .hbm] s t))) ∧
    (s.toRun u 4 = some m → s.tileBusy u m = false → s.ctx m.ctx = some x → Ends (.release u) s (fun t =>
      (t.ctx m.ctx).map (fun y => fget (fun _ => ({} : LTile)) y.tiles m.tile) = some {} ∧
      (s.boundOn u m.ctx m.tile = some p → t.ptile u p = none) ∧ (t.munit u).running = some m ∧ (t.munit u).done = true ∧
      OnlyIn [.yar] s t)) ∧
    ((s.munit u).running = some m → (s.munit u).done = true → s.frozen = false → s.ctx m.ctx = some x →
      Ends (.matrixOpComplete u) s (fun t => (t.munit u).running = none ∧ (t.munit u).queue = (s.munit u).queue ∧
        fget (fun _ => 0) (t.groupAt m.ctx m.group).inFlight m.lane = fget (fun _ => 0) (x.group m.group).inFlight m.lane - 1 ∧
        (∀ n, m.ctr = some n → (t.ctx m.ctx).map (fun y => y.ctr n) = some ((x.ctr n + 1) % 2 ^ 32)) ∧
        OnlyIn [.regs, .yar] s t)) ∧
    ((s.munit u).running = none ∨ (s.munit u).done = false ∨ s.frozen = true → exec (.matrixOpComplete u) s = .next s)) ∧
  (∀ (block : List Byte) (b : Block) (i : Nat) (s : State), b = ⟨fitTo 64 block, 0, 0, false, none, none⟩ →
    s.frozen = false →
    1 ≤ b.vf → b.vf ≤ 63 → s.sliceState b.vf ≠ 0 ∨ b.origin = 2 → s.instFor b.cls b.vf = some i →
    (((s.inst i).queueOf b.vf).length < 32 → Ends (.blockEnqueue block) s (fun t =>
      (t.inst i).queueOf b.vf = (s.inst i).queueOf b.vf ++ [{ b with uid := s.blockUid b.vf b.origin (b.queue % 16) }] ∧
      (∀ n, n ≠ b.vf → (t.inst i).queueOf n = (s.inst i).queueOf n) ∧ (∀ k, k ≠ i → t.inst k = s.inst k) ∧
      instClass i = b.cls ∧ OnlyIn [.ffe] s t)) ∧
    (32 ≤ ((s.inst i).queueOf b.vf).length → exec (.blockEnqueue block) s = .next s)) ∧
  (∀ (i n : Nat) (b : Block) (s : State), s.frozen = false → (s.inst i).busy = 0 → i < 29 → s.headFor i n = some b →
    1 ≤ n → n ≤ 63 →
    (b.flag 2 = true → (∀ m c, 1 ≤ m → m < n → s.headFor i m = some c → c.flag 2 = false) →
      Ends (.engineStepDispatch i) s (fun t =>
      (t.inst i).busy = n ∧ (t.inst i).deficit = (s.inst i).deficit ∧
      (((t.inst i).queueOf n).head?).map Block.bytes = some b.bytes ∧ OnlyIn [.ffe] s t)) ∧
    ((∀ m c, 1 ≤ m → m ≤ 63 → s.headFor i m = some c → c.flag 2 = false) →
      ((s.inst i).last = n → b.cost ≤ fget (fun _ => 0) (s.inst i).deficit n → Ends (.engineStepDispatch i) s (fun t =>
        (t.inst i).busy = n ∧ fget (fun _ => 0) (t.inst i).deficit n = fget (fun _ => 0) (s.inst i).deficit n - b.cost ∧
        OnlyIn [.ffe] s t)) ∧
      (∀ d, (∀ m, (s.headFor i m).isSome = true → m = n) → (s.inst i).last < 64 →
        fget (fun _ => 0) (s.inst i).deficit n < b.cost →
        d = fget (fun _ => 0) (s.inst i).deficit n + 16 * s.fld (F.SLC_S_ENGINE_SHARE_WEIGHT n) → b.cost ≤ d →
        Ends (.engineStepDispatch i) s (fun t => (t.inst i).busy = n ∧ fget (fun _ => 0) (t.inst i).deficit n = d - b.cost ∧
          OnlyIn [.ffe] s t)))) ∧
  (∀ (i : Nat) (s : State), (∀ n, s.headFor i n = none) → exec (.engineStepDispatch i) s = .next s) ∧
  (∀ (i n : Nat) (b : Block) (l : List Block) (s : State), (s.inst i).busy = n → n ≠ 0 → (s.inst i).worked = true →
    s.frozen = false →
    (s.inst i).queueOf n = b :: l → b.vf = n →
    (b.steps + 1 < b.stepCount → Ends (.engineStepComplete i) s (fun t => (t.inst i).busy = 0 ∧ (t.inst i).worked = false ∧
      (t.inst i).queueOf n = { b with steps := b.steps + 1 } :: l ∧ OnlyIn [.regs, .ffe] s t)) ∧
    (b.stepCount ≤ b.steps + 1 → b.flag 3 = false ∨ b.uid = 0 → Ends (.engineStepComplete i) s (fun t =>
      (t.inst i).busy = 0 ∧
      (t.inst i).queueOf n = l ∧ (b.flag 1 = true → t.efence n (b.field 5 1 % 64) =
        (if reached (b.field 0xC 4) (s.efence n (b.field 5 1 % 64)) then b.field 0xC 4 else s.efence n (b.field 5 1 % 64))) ∧
      (b.flag 1 = false → ∀ f, f < 64 → t.efence n f = s.efence n f) ∧ OnlyIn [.regs, .ffe] s t)) ∧
    (∀ q, b.stepCount ≤ b.steps + 1 → b.flag 3 = true → b.uid ≠ 0 → (∀ g ∈ s.yar.graphs, g.uid ≠ b.uid) →
      (s.findCmd n b.uid).map Prod.fst = some q → Ends (.engineStepComplete i) s (fun t => (t.inst i).busy = 0 ∧
        (t.inst i).queueOf n = l ∧ CmdEnded t n q b.uid 0 0 b.total ∧ OnlyIn [.regs, .ffe, .qs, .slices] s t))) ∧
  (∀ (i : Nat) (b : Block) (s : State), i < 29 →
    (∀ host sent, StepOf s i 1 1 b → b.saved = none → 1 ≤ b.field 0x20 4 →
      (b.srcSpace = 0 → b.dstSpace = 0 → b.overlaps = false → s.runsCheck b false host.isSome b.stepRuns = none →
        s.runsCheck b true sent b.stepRuns = none → StepWrites (.move i host sent) s i b freshAgent b.stepBytes
          (fun o => b.moveAddr true (65536 * b.steps + o))
          (fun o => s.sliceByte freshAgent b.vf (b.moveAddr false (65536 * b.steps + o)))) ∧
      (∀ st d, s.runsCheck b false host.isSome b.stepRuns = some (st, d) → Ends (.move i host sent) s (fun t =>
        BlockEnds s t b st d))) ∧
    (∀ sent, StepOf s i 1 2 b → 1 ≤ b.field 0x20 4 →
      (b.dstSpace = 0 → s.runsCheck b true sent b.stepRuns = none → StepWrites (.fill i sent) s i b freshAgent b.stepBytes
        (fun o => b.moveAddr true (65536 * b.steps + o)) (fun o => b.bytes.getD (0x10 + (65536 * b.steps + o) % 8) 0)) ∧
      (∀ st d, s.runsCheck b true sent b.stepRuns = some (st, d) → Ends (.fill i sent) s (fun t => BlockEnds s t b st d))) ∧
    (∀ op cmd (row idx src : Nat → Nat), (op, cmd) ∈ [(1, Instr.gather i), (2, .gatherPages i)] → StepOf s i 2 op b →
      1 ≤ b.rowBytes →
      row = (fun o => (65536 * b.steps + o) / b.rowBytes) →
      idx = (fun o => ofLe (s.rangesRead i b.vf (b.field 0x20 8 + 4 * row o) 4)) →
      src = (fun o => b.src + idx o * b.tableStride + (65536 * b.steps + o) % b.rowBytes) →
      (∀ o, o < b.stepBytes → s.engineReads i b.vf (b.field 0x20 8 + 4 * row o) 4 ∧
        (idx o < b.field 0x30 4 → idx o < 2 ^ 31 → s.engineReads i b.vf (src o) 1)) →
      StepWrites cmd s i b (instAgent i) b.stepBytes (fun o => b.dst + 65536 * b.steps + o) (fun o =>
        if idx o < b.field 0x30 4 ∧ idx o < 2 ^ 31 then s.sliceByte (instAgent i) b.vf (src o) else 0)) ∧
    (∀ auxAt : Nat → Nat, StepOf s i 3 1 b → auxAt = (fun r => b.field 0x20 8 +
        (if tst (b.field 0x30 1) 7 then 0 else r * b.rowLen * dtBytes b.auxType)) →
      (b.func ≤ 4 → ∀ r, r < b.rowsPerStep * b.steps + b.stepRows →
        s.engineReads i b.vf (auxAt r) (b.rowLen * dtBytes b.auxType)) →
      RowsWritten (.elementwise i) s i b b.inType b.outType b.rowLen (fun r l => (l.zipIdx).map (fun p =>
        elementwise b.func p.1 ((if b.func ≤ 4 then valsOf b.auxType (s.rangesRead i b.vf (auxAt r)
          (b.rowLen * dtBytes b.auxType)) b.rowLen else []).getD p.2 (.f (.fin false 0 0))) (s.draw (r * b.rowLen + p.2))))) ∧
    (StepOf s i 3 2 b → RowsWritten (.reduce i) s i b b.inType b.outType 1 (fun _ l => [reduceRow b.func l])) ∧
    (StepOf s i 3 3 b → s.engineReads i b.vf (b.field 0x20 8) (b.rowLen * dtBytes b.auxType) →
      RowsWritten (.normalise i) s i b b.inType b.outType b.rowLen (fun r l => (normaliseRow b.func b.param
        ((valsOf b.auxType (s.rangesRead i b.vf (b.field 0x20 8) (b.rowLen * dtBytes b.auxType)) b.rowLen).map Val.num)
        (l.map Val.num) (s.draw r)).map Val.f)) ∧
    (StepOf s i 3 4 b → RowsWritten (.softmax i) s i b b.inType b.outType b.rowLen (fun r l =>
      (softmaxRow b.param (l.map Val.num) (fun k => s.draw (r * b.rowLen + k))).map Val.f)) ∧
    (∀ eb k rb r0 (ix : Nat → List Nat), StepOf s i 4 1 b → eb = dtBytes (b.field 0x33 1) → k = b.field 0x30 2 →
      k ≤ b.rowLen →
      rb = b.rowLen * eb → r0 = b.rowsPerStep * b.steps → ix = (fun r => topkRow k (b.field 0x32 1 == 1)
        (valsOf (b.field 0x33 1) (s.rangesRead i b.vf (b.src + r * b.rowLen * eb) rb) b.rowLen)) →
      (∀ r, r < r0 + b.stepRows → s.engineReads i b.vf (b.src + r * b.rowLen * eb) rb) →
      StepWrites (.topk i) s i b (instAgent i) (b.stepRows * k * eb + b.stepRows * k * 4)
        (fun o => if o < b.stepRows * k * eb then b.dst + r0 * k * eb + o
          else b.field 0x20 8 + r0 * k * 4 + (o - b.stepRows * k * eb))
        (fun o => if o < b.stepRows * k * eb then
            (s.rangesRead i b.vf (b.src + (r0 + o / (k * eb)) * b.rowLen * eb) rb).getD
              ((ix (r0 + o / (k * eb))).getD (o % (k * eb) / eb) 0 * eb + o % eb) 0
          else (leBytes 4 ((ix (r0 + (o - b.stepRows * k * eb) / (k * 4))).getD
            ((o - b.stepRows * k * eb) % (k * 4) / 4) 0)).getD ((o - b.stepRows * k * eb) % 4) 0)) ∧
    (∀ op cmd peers same n dim own count (ms : List (List Byte)),
      (op, cmd) ∈ [(1, Instr.allReduce i peers same), (2, .allGather i peers same)] → StepOf s i 6 op b →
        n = b.field 0x28 8 →
      dim = bitsOf (b.field 0x20 4) 31 30 → own = s.memberOf (b.field 0x20 4) →
      count = (if dim = 0 then 1 else max 1 (bitsOf (b.field 0x20 4) 23 17)) →
      ms = (((if dim = 0 then [] else peers).take own).map (fitTo n)) ++ [s.rangesRead i b.vf b.src n] ++
        (((if dim = 0 then [] else peers).drop own).take (count - 1 - own)).map (fitTo n) →
      (same = true → ms.length = count → s.engineReads i b.vf b.src n →
        (∀ eb, op = 1 → eb = dtBytes (b.field 0x31 1) → 1 ≤ eb → n % eb = 0 →
          StepWrites cmd s i b (instAgent i) n (fun o => b.dst + o) (fun o =>
          (leBytes eb ((combine (b.field 0x30 1) (b.field 0x31 1) (ms.map (fun x =>
            Val.decode (b.field 0x31 1) (leAt x (o / eb * eb) eb)))).encode (b.field 0x31 1))).getD (o % eb) 0)) ∧
        (op = 2 → StepWrites cmd s i b (instAgent i) (n * count) (fun o => b.dst + o) (fun o => ms.flatten.getD o 0))) ∧
      (same = false → Ends cmd s (fun t => BlockEnds s t b 0x30 0))) ∧
    (∀ (plain o bs : List Byte) (dst : Nat) (adr : Nat → Nat), StepOf s i 5 1 b → b.saved = some o ∨
      (b.saved = none ∧ decompress (b.field 0x28 1) plain = some o) → o.length ≤ b.field 0x20 8 →
      bs = (o.drop (65536 * b.steps)).take 65536 → dst = b.dst + 65536 * b.steps →
      dst + bs.length ≤ 0x200000 * s.mem.model.length → s.mem.model.Nodup →
      adr = (fun k => frameDpa (s.mem.model.getD ((dst + k) / 0x200000) 0) + (dst + k) % 0x200000) →
      Ends (.decode i plain) s (fun t => (∀ k, k < bs.length → t.dpaByte (adr k) = bs.getD k 0) ∧
        (t.inst i).worked = true ∧ t.sec.loadOut = s.sec.loadOut + bs.length ∧
        (b.saved = none → t.sec.loadHash = digest48 (Config.sha384 plain)) ∧
        BytesOutside ((List.range bs.length).map adr) s t ∧ OnlyIn [.sec, .mem, .ffe, .cmn, .hbm] s t)) ∧
    (∀ plain, StepOf s i 5 1 b → b.saved = none → decompress (b.field 0x28 1) plain = none →
      Ends (.decode i plain) s (fun t =>
      t.sec.decodeBad = true ∧ (t.inst i).worked = true ∧ OnlyIn [.regs, .sec, .mem, .ffe] s t)) ∧
    (∀ lim, s.stepping i = some b →
      lim = (if s.fld F.FFE_COLL_TIMEOUT_TICKS = 0 then 64 else s.fld F.FFE_COLL_TIMEOUT_TICKS) →
      (b.cls = 6 → lim ≤ fget (fun _ => 0) s.ffe.collTicks i → Ends (.collectiveTimeout i) s (fun t =>
        BlockEnds s t b 0x30 0)) ∧
      (b.cls ≠ 6 ∨ fget (fun _ => 0) s.ffe.collTicks i < lim → exec (.collectiveTimeout i) s = .next s)) ∧
    (∀ n f w l, (s.inst i).queueOf n = b :: l → f = b.field 4 1 % 64 → b.vf = n → b.waitTick = some w → s.frozen = false →
      s.heldSlot n 0 = true ∨ s.heldSlot n 1 = true →
      (w + 2 ≤ s.tickCount → b.waitOk s = false → fget (fun _ => 0) s.ffe.fenceTick (64 * n + f) + 1 ≤ s.tickCount →
        Ends (.engineFenceStall i n) s (fun t => BlockEnds s t b 0x23 (0x100 + f))) ∧
      (s.tickCount < w + 2 ∨ b.waitOk s = true → exec (.engineFenceStall i n) s = .next s)))

/-- A grant write zeroes its die and shows the new grant, or is rejected. A command that fails a check of R601 ends with
its status. LOAD_PROGRAMS, LOAD_NEURONS, SAVE_NEURONS, RUN, HALT and CLEAR have their effect and end. A poll takes a
new command; time advances while it runs. A run leaves what its program computes, a sweep visits the next neuron, a
fan-out sends its list's tokens, tokens arrive in delay queues and fall due, injection reads its ring, a fault shows
FAULTED. A Frame Start takes the next slot, a line its row, a Frame End or timeout publishes; event packets and AER
words feed one token for each event; other packets are counted; a trigger pulses at its phase; overcurrent switches
the port off. A module that is off hears nothing. -/
def Obligations.CampionAndSensorsWork : Prop :=
  (∀ (d vf area : Nat) (value : Word) (s : State), d < 2 → vf = bitsOf value.toNat 5 0 → area = bitsOf value.toNat 27 16 →
    (s.tenancy ≠ 2 ∨ s.campUsable d = false ∨ (vf ≠ 0 ∧ s.sliceState vf ∈ [0, 6]) →
      Ends (.cmpGrantWrite d value) s (fun t =>
      t.fld F.CMP_STATUS_GRANT_REJECT = 1 ∧ t.cmpVf d = s.cmpVf d ∧ OnlyIn [.regs] s t)) ∧
    (s.tenancy = 2 → s.campUsable d = true → vf = 0 ∨ s.sliceState vf ∉ [0, 6] →
      vf ≠ s.cmpVf d ∨ area ≠ s.fld (F.CMP_GRANT_AREA d) → Ends (.cmpGrantWrite d value) s (fun t =>
        t.cmpVf d = vf ∧ t.fld (F.CMP_GRANT_AREA d) = area ∧ t.campState d = (if vf = 0 then 0 else 1) ∧ t.die d = {} ∧
        (∀ k, k / 256 = d → t.core k = {}) ∧ (∀ k, k / 256 ≠ d → t.core k = s.core k) ∧
        OnlyIn (logParts ++ [.mem, .cmp, .cmn, .hbm]) s t)) ∧
    (s.tenancy ≠ 2 ∨ (s.snsUsable d = false ∧ s.campUsable d = false) ∨ (vf ≠ 0 ∧ s.sliceState vf ∈ [0, 6]) →
      Ends (.snsGrantWrite d value) s (fun t => t.fld F.SNS_STATUS_GRANT_REJECT = 1 ∧ OnlyIn [.regs] s t)) ∧
    (s.tenancy = 2 → s.snsUsable d = true ∨ s.campUsable d = true → vf = 0 ∨ s.sliceState vf ∉ [0, 6] →
      vf ≠ s.fld (F.SNS_GRANT_VF d) ∨ area ≠ s.fld (F.SNS_GRANT_AREA d) → Ends (.snsGrantWrite d value) s (fun t =>
        t.fld (F.SNS_GRANT_VF d) = vf ∧ t.fld (F.SNS_GRANT_AREA d) = area ∧
        (∀ j, j < 8 → t.snsPort d j = {} ∧ t.conv d j = {}) ∧ OnlyIn (logParts ++ [.sns]) s t))) ∧
  (∀ (d n src : Nat) (w : List Byte) (s : State), src = cmdSrc w →
    (∀ op cmd states cores st, (op, cmd, states, cores) ∈ [(1, Instr.loadPrograms d, [1, 3], true),
        (2, .loadNeurons d, [1, 3], true), (3, .saveNeurons d, [1, 3], true), (4, .run d, [1], false), (5, .halt d, [2], false),
        (6, .clear d, [1, 3], false)] → CampTakes s d op w →
      ((leAt w 5 1 ≠ 0 ∨ leAt w 0xA 2 ≠ 0) ∧ st = 2) ∨
      (leAt w 5 1 = 0 ∧ leAt w 0xA 2 = 0 ∧ s.campState d ∉ states ∧ st = 3) ∨
      (leAt w 5 1 = 0 ∧ leAt w 0xA 2 = 0 ∧ s.campState d ∈ states ∧ cores = true ∧ st = 4 ∧
        (cmdCount w = 0 ∨ cmdFirst w < 256 * d ∨ 256 * d + 256 < cmdFirst w + cmdCount w)) →
      Ends cmd s (fun t => CampEnds s t d w st 0 ∧ t.cmp.cores = s.cmp.cores ∧ OnlyIn [.mem, .cmp, .cmn, .hbm] s t)) ∧
    (∀ prog : Nat → List Byte, CampTakes s d 1 w → CampPasses s d w [1, 3] true → src % 64 = 0 →
      n = s.campLe d src 4 → 1 ≤ n →
      n ≤ 16 → s.campCheck d src (4 + 176 * n) false = none → prog = (fun i => s.campBytes d (src + 4 + 176 * i) 176) →
      ((∀ i, i < n → progFault (prog i) = none) → Ends (.loadPrograms d) s (fun t => CampEnds s t d w 0 0 ∧
        (∀ k, t.core k = if cmdFirst w ≤ k ∧ k < cmdFirst w + cmdCount w then
          { s.core k with progs := (List.range n).map prog, neurons := [] } else s.core k) ∧
        t.sec.dcount = (s.sec.dcount + n) % 2 ^ 32 ∧ OnlyIn [.sec, .mem, .cmp, .cmn, .hbm] s t)) ∧
      (∀ i f, i < n → (∀ j, j < i → progFault (prog j) = none) → progFault (prog i) = some f →
        Ends (.loadPrograms d) s (fun t =>
        CampEnds s t d w 6 (256 * i + f) ∧ t.cmp.cores = s.cmp.cores ∧ OnlyIn [.mem, .cmp, .cmn, .hbm] s t))) ∧
    (∀ rec : Nat → List Byte, CampTakes s d 2 w → CampPasses s d w [1, 3] true → src % 64 = 0 → n = 1024 * cmdCount w →
      s.campCheck d src (32 * n) false = none → rec = (fun i => s.campBytes d (src + 32 * i) 32) →
      ((∀ i, i < n → recordOk (s.core (cmdFirst w + i / 1024)) (rec i) = true) → Ends (.loadNeurons d) s (fun t =>
        CampEnds s t d w 0 0 ∧ (∀ i, i < n →
          (t.core (cmdFirst w + i / 1024)).neuron (i % 1024) = neuronOf (rec i) (s.die d).etime) ∧
        (∀ k, k < cmdFirst w ∨ cmdFirst w + cmdCount w ≤ k → t.core k = s.core k) ∧ OnlyIn [.mem, .cmp, .cmn, .hbm] s t)) ∧
      (∀ i, i < n → (∀ j, j < i → recordOk (s.core (cmdFirst w + j / 1024)) (rec j) = true) →
        recordOk (s.core (cmdFirst w + i / 1024)) (rec i) = false → Ends (.loadNeurons d) s (fun t =>
          CampEnds s t d w 7 (1024 * cmdFirst w + i) ∧ t.cmp.cores = s.cmp.cores ∧ OnlyIn [.mem, .cmp, .cmn, .hbm] s t))) ∧
    (CampTakes s d 3 w → CampPasses s d w [1, 3] true → src % 64 = 0 → 64 ≤ src → n = 1024 * cmdCount w →
      s.campCheck d src (32 * n) true = none → Ends (.saveNeurons d) s (fun t => CampEnds s t d w 0 0 ∧
        (∀ i, i < n → t.campBytes d (src + 32 * i) 32 =
          ((s.core (cmdFirst w + i / 1024)).neuron (i % 1024)).record (s.die d).etime) ∧ t.cmp.cores = s.cmp.cores ∧
        OnlyIn [.mem, .cmp, .cmn, .hbm] s t)) ∧
    (∀ (r : CampRun) (all : List (Nat × Nat)), CampTakes s d 4 w → CampPasses s d w [1] false →
      s.campCheck d 0 256 false = none →
      r = { unit := if s.campLe d 0x66 2 = 0 then 100 else s.campLe d 0x66 2, injBase := s.campLe d 0x30 4,
            injSize := s.campLe d 0x34 4, egrBase := s.campLe d 0x40 4, egrSize := s.campLe d 0x44 4,
            ovfBase := s.campLe d 0x50 4, ovfSize := s.campLe d 0x54 4, destBase := s.campLe d 0x58 4,
            destSize := s.campLe d 0x5C 4, listOff := s.campLe d 0x60 4, listCount := s.campLe d 0x64 2 } →
      all = r.regions ++ (if r.listCount = 0 then [] else [(r.listOff, 8 * r.listCount)]) →
      ((∀ p ∈ r.regions, p.1 % 64 = 0 ∧ p.2 ≠ 0) → 10 ≤ r.unit → r.unit ≤ 10000 → r.listCount ≤ 64 →
        (∀ p ∈ all, s.campCheck d p.1 p.2 false = none ∧ 256 ≤ p.1) →
        all.Pairwise (fun p q => p.1 + p.2 ≤ q.1 ∨ q.1 + q.2 ≤ p.1) → Ends (.run d) s (fun t => CampEnds s t d w 0 0 ∧
          t.campState d = 2 ∧ (t.die d).run = r ∧ t.cmp.cores = s.cmp.cores ∧ OnlyIn [.regs, .mem, .cmp, .cmn, .hbm] s t)) ∧
      ((∀ p ∈ r.regions, p.1 % 64 = 0) → r.unit < 10 ∨ 10000 < r.unit ∨ (∃ p ∈ r.regions, p.2 = 0) ∨ 64 < r.listCount →
        Ends (.run d) s (fun t => CampEnds s t d w 7 0 ∧ t.campState d = s.campState d ∧
          OnlyIn [.mem, .cmp, .cmn, .hbm] s t))) ∧
    (CampTakes s d 5 w → CampPasses s d w [2] false → Ends (.halt d) s (fun t => CampEnds s t d w 0 0 ∧ t.campState d = 1 ∧
      t.die d = { s.die d with cmd := none } ∧ t.cmp.cores = s.cmp.cores ∧ OnlyIn [.regs, .mem, .cmp, .cmn, .hbm] s t)) ∧
    (CampTakes s d 6 w → CampPasses s d w [1, 3] false → Ends (.clear d) s (fun t => CampEnds s t d w 0 0 ∧
      t.campState d = 1 ∧
      (t.die d).ovf = [] ∧ (t.die d).ingress = [] ∧ (t.die d).mesh = [] ∧ (t.die d).etime = (s.die d).etime ∧
      (∀ k, k / 256 = d → (t.core k).spikes = [] ∧ (t.core k).delay = [] ∧ (t.core k).input = none) ∧
      OnlyIn [.regs, .mem, .cmp, .cmn, .hbm] s t))) ∧
  (∀ (d : Nat) (s : State), (s.campRuns d = true → Ends (.etimeAdvance d) s (fun t =>
      t.die d = { s.die d with etime := ((s.die d).etime + 1) % 2 ^ 64 } ∧ t.cmp.cores = s.cmp.cores ∧ OnlyIn [.cmp] s t)) ∧
    (s.campRuns d = false → exec (.etimeAdvance d) s = .next s) ∧
    (∀ w, d < 2 → s.cmpVf d ≠ 0 → s.campLive = true → (s.die d).cmd = none → s.campCheck d 0 0x14 false = none →
      w = s.campBytes d 0 16 →
      (s.campLe d 0 4 = s.campLe d 0x10 4 → exec (.campionCommandPoll d) s = .next s) ∧
      (s.campLe d 0 4 ≠ s.campLe d 0x10 4 → 1 ≤ leAt w 4 1 → leAt w 4 1 ≤ 6 → Ends (.campionCommandPoll d) s (fun t =>
        t.die d = { s.die d with cmd := some w } ∧ OnlyIn [.cmp] s t)) ∧
      (s.campLe d 0 4 ≠ s.campLe d 0x10 4 → leAt w 4 1 = 0 ∨ 6 < leAt w 4 1 → Ends (.campionCommandPoll d) s (fun t =>
        CampEnds s t d w 1 0 ∧ OnlyIn [.mem, .cmp, .cmn, .hbm] s t))) ∧
    (∀ code, d < 2 → 1 ≤ code → code ≤ 4 → s.campState d ≠ 0 → s.cmpVf d ≠ 0 → Ends (.campionFault d code) s (fun t =>
      t.campState d = 3 ∧ t.reg (R.CMP_FAULT d) = BitVec.ofNat 32 (s.cmpVf d * 256 + code) ∧ t.cmp = s.cmp ∧
      OnlyIn (logParts ++ [.exm, .flt, .mem, .cmn, .hbm]) s t)) ∧
    (∀ tail a e, s.campRuns d = true → s.campCheck d 0x38 8 true = none → tail = s.campLe d 0x3C 4 →
      a = (s.die d).run.injBase + 8 * (tail % max 1 (s.die d).run.injSize) → e = s.campLe d a 8 →
      (s.campLe d 0x38 4 = tail → exec (.injectionRead d) s = .next s) ∧
      (s.campLe d 0x38 4 ≠ tail → s.campCheck d a 8 false = none → tokClean e = true → s.cmpVf (tokOf e).dieOf = s.cmpVf d →
        Ends (.injectionRead d) s (fun t => (t.die (tokOf e).dieOf).mesh = (s.die (tokOf e).dieOf).mesh ++ [tokOf e] ∧
          t.campLe d 0x3C 4 = (tail + 1) % max 1 (s.die d).run.injSize % 2 ^ 32 ∧ t.cmp.cores = s.cmp.cores ∧
          OnlyIn [.mem, .cmp, .cmn, .hbm] s t)))) ∧
  (∀ (k d : Nat) (x : Core) (s : State), k < 512 → d = k / 256 → x = s.core k → s.campRuns d = true →
    (∀ tok p, x.input = some tok → x.spikes.length < 256 → p = x.progs.getD (x.neuron (tok.dest % 1024)).prog [] → p ≠ [] →
      tok.var < leAt p 7 1 → Ends (.eventRun k) s (fun t => (t.core k).input = none ∧ (t.core k).delay = x.delay ∧
        NeuronRan s t k (tok.dest % 1024) (leAt p 5 1) tok.weight tok.var)) ∧
    (∀ i dt p, i = x.sweep → x.spikes.length < 256 → p = x.progs.getD (x.neuron i).prog [] →
      dt = ((s.die d).etime % 2 ^ 20 + 2 ^ 20 - (x.neuron i).lt) % 2 ^ 20 →
      (2 ^ 16 ≤ dt → p ≠ [] → Ends (.sweepVisit k) s (fun t => (t.core k).sweep = (i + 1) % 1024 ∧
        NeuronRan s t k i (leAt p 6 1) 0 0)) ∧
      (dt < 2 ^ 16 ∨ p = [] → Ends (.sweepVisit k) s (fun t => t.core k = { x with sweep := (i + 1) % 1024 } ∧
        OnlyIn [.cmp] s t))) ∧
    (256 ≤ x.spikes.length → exec (.eventRun k) s = .next s ∧ exec (.sweepVisit k) s = .next s) ∧
    (∀ i rest v base (e : Nat → Nat), x.spikes = i :: rest → v = x.neuron i →
      base = (s.die d).run.destBase + 8 * v.destIdx →
      e = (fun j => s.campLe d (base + 8 * j) 8) → v.destIdx + v.destCount ≤ (s.die d).run.destSize / 8 →
      s.campCheck d base (8 * v.destCount) false = none →
      (∀ j, j < v.destCount → tokClean (e j) = true ∧ s.cmpVf (tokOf (e j)).dieOf = s.cmpVf d) →
        Ends (.fanOut k) s (fun t =>
        t.core k = { x with spikes := rest } ∧ (∀ g, (t.die g).mesh = (s.die g).mesh ++
          ((List.range v.destCount).map (fun j => tokOf (e j))).filter (fun q => q.dieOf == g)) ∧ OnlyIn [.cmp] s t)) ∧
    (∀ due tok, firstDue x.delay = some (due, tok) → due ≤ (s.die d).etime → x.input = none → x.spikes.length < 256 →
      (∀ o ∈ (s.die d).ovf, o.1 ≠ k) → Ends (.tokenDue k) s (fun t =>
        t.core k = { x with input := some tok, delay := x.delay.erase (due, tok) } ∧ (t.die d).late =
          (if due + 1 < (s.die d).etime then min ((s.die d).late + 1) 0xFFFFFFFF else (s.die d).late) ∧
            OnlyIn [.regs, .cmp] s t)) ∧
    (∀ due tok, firstDue x.delay = some (due, tok) → (s.die d).etime < due → exec (.tokenDue k) s = .next s)) ∧
  (∀ (d e p i slot due : Nat) (tok : Tok) (rest : List Tok) (s : State), d < 2 → s.campRuns d = true →
    due = (s.die e).etime + tok.delay →
    slot = (s.die e).ovfNext % max 1 (s.die e).run.ovfSize →
    (p = 0 ∧ e = d ∧ (s.die d).mesh[i]? = some tok) ∨ (1 ≤ p ∧ e = tok.dieOf ∧ e < 2 ∧ s.cmpVf e = s.cmpVf d ∧
      fget (fun _ => []) (s.die d).ingress (p - 1) = tok :: rest) →
    ((s.core tok.coreOf).delay.length < 4096 → Ends (.tokenArrive d p i) s (fun t =>
      t.core tok.coreOf = { s.core tok.coreOf with delay := (s.core tok.coreOf).delay ++ [(due, tok)] } ∧
      (p = 0 → (t.die d).mesh = (s.die d).mesh.eraseIdx i) ∧
      (1 ≤ p → fget (fun _ => []) (t.die d).ingress (p - 1) = rest) ∧ OnlyIn [.cmp] s t)) ∧
    (4096 ≤ (s.core tok.coreOf).delay.length → (s.die e).ovf.length < (s.die e).run.ovfSize →
      s.campCheck e ((s.die e).run.ovfBase + 16 * slot) 16 true = none → Ends (.tokenArrive d p i) s (fun t =>
        (t.die e).ovf = (s.die e).ovf ++ [(tok.coreOf, slot)] ∧
        t.campBytes e ((s.die e).run.ovfBase + 16 * slot) 16 = leBytes 8 tok.word ++ leBytes 8 due ∧
        t.cmp.cores = s.cmp.cores ∧ OnlyIn [.regs, .mem, .cmp, .cmn, .hbm] s t))) ∧
  (∀ (d p dest var delay weight : Nat) (s : State), d < 2 → p ≤ 8 ∨ (16 ≤ p ∧ p ≤ 23) → s.frozen = false →
    (s.snsFeeds d = true → s.campLive = true → (fget (fun _ => []) (s.die d).ingress p).length < 4096 →
      Ends (.ingressToken d p dest var delay weight) s (fun t => OnlyIn [.cmp] s t ∧
        TokensIn s t d p [⟨dest % 2 ^ 19, var % 4, delay % 256, weight % 65536⟩])) ∧
    (s.snsFeeds d = false → Ends (.ingressToken d p dest var delay weight) s (fun t =>
      t.fld (F.CMP_DROP_COUNT d p) = min (s.fld (F.CMP_DROP_COUNT d p) + 1) (2 ^ 32 - 1) ∧
      (t.die d).ingress = (s.die d).ingress ∧ OnlyIn [.regs, .cmp] s t))) ∧
  (∀ (d j vc num dt : Nat) (payload : List Byte) (pd : List Byte) (ok : Bool) (s v : State), d < 2 → j < 8 →
    (s.snsUsable d = false ∨ s.bit (F.SNS_PORT_CTRL_ENABLE d j) = false ∨ s.bit (F.SNS_PORT_STATUS_PWR_ON d j) = false →
      ∀ cmd ∈ [Instr.frameStart d j vc num, .rawLinePacket d j vc dt payload ok, .eventPacket d j vc dt payload ok,
        .otherPacket d j vc dt ok], exec cmd s = .next s) ∧
    (s.packet d j = (v, true) → v.fld (F.SNS_GRANT_VF d) ≠ 0 → pd = v.portDesc d j → pd ≠ [] → leAt pd 3 1 = vc →
      (tst (leAt pd 0 1) 0 = true → (v.snsPort d j).frame = none → v.pwr.doze = false →
        ((leAt pd 0x20 4 + 2 ^ 32 - leAt pd 0x24 4) % 2 ^ 32 < leAt pd 0x10 2 → Ends (.frameStart d j vc num) s (fun t =>
          (t.snsPort d j).frame = some {
            vc := vc, width := leAt pd 4 2, height := leAt pd 6 2, dt := leAt pd 1 1, num := num % 65536,
            at_ := leAt pd 8 4 + leAt pd 0xC 4 * (leAt pd 0x20 4 % leAt pd 0x10 2), head := leAt pd 0x20 4,
            tick := s.tickCount, tai := s.taiStamp, startClk := s.runClk, lines := 0, status := 0 } ∧
          t.fld (F.SNS_PORT_STATUS_IN_FRAME d j) = 1 ∧ t.fld (F.SNS_PORT_STATUS_LINK d j) = 1 ∧ OnlyIn [.regs, .sns] s t)) ∧
        (leAt pd 0x10 2 ≤ (leAt pd 0x20 4 + 2 ^ 32 - leAt pd 0x24 4) % 2 ^ 32 → v.ioBad d (64 * j + 0x28) 4 true = false →
          Ends (.frameStart d j vc num) s (fun t => (t.snsPort d j).frame = none ∧
            t.ioLe d (64 * j + 0x28) 4 = (v.ioLe d (64 * j + 0x28) 4 + 1) % 2 ^ 32 ∧
            OnlyIn [.regs, .mem, .sns, .cmn, .hbm] s t))) ∧
      (tst (leAt pd 0 1) 1 = true → leAt pd 2 1 = dt →
        (∀ (n : Nat) (ev : Nat → Nat) (idx : Nat → Nat), ok = true → payload.length = 4 * n →
          ev = (fun i => leAt payload (4 * i) 4) →
          idx = (fun i => eventIdx pd (bitsOf (ev i) 14 0) (bitsOf (ev i) 29 15) (bitsOf (ev i) 31 30)) →
          (∀ i, i < n → bitsOf (ev i) 31 30 ≤ 1 ∧ bitsOf (ev i) 14 0 < leAt pd 4 2 ∧ bitsOf (ev i) 29 15 < leAt pd 6 2 ∧
            idx i < 2 ^ 19) → v.snsFeeds d = true → v.campLive = true → 1 ≤ n →
          (fget (fun _ => []) (v.die d).ingress j).length + n ≤ 4096 → Ends (.eventPacket d j vc dt payload ok) s (fun t =>
            fget (fun _ => []) (t.die d).ingress j = fget (fun _ => []) (s.die d).ingress j ++ (List.range n).map (fun i =>
              ⟨idx i, leAt pd 0x1C 1, leAt pd 0x1D 1, leAt pd (if bitsOf (ev i) 31 30 = 1 then 0x18 else 0x1A) 2⟩) ∧
            t.cmp.cores = s.cmp.cores ∧ OnlyIn [.regs, .cmp, .sns] s t)) ∧
        (ok = false → Ends (.eventPacket d j vc dt payload ok) s (fun t => OnlyIn [.regs, .sns] s t ∧
          t.fld (F.SNS_PORT_CNT_ERR_ERR_CRC d j) = min (s.fld (F.SNS_PORT_CNT_ERR_ERR_CRC d j) + 1) (2 ^ 16 - 1)))) ∧
      (dt ≠ 2 → dt ≠ 3 → ok = true → Ends (.otherPacket d j vc dt ok) s (fun t => OnlyIn [.regs, .sns] s t ∧
        t.fld (F.SNS_PORT_CNT_PKT_OTHER d j) = min (s.fld (F.SNS_PORT_CNT_PKT_OTHER d j) + 1) (2 ^ 16 - 1)))) ∧
    (∀ f a row, s.packet d j = (v, true) → (v.snsPort d j).frame = some f → f.vc = vc → row = f.width * pixelSize f.dt →
      a = f.at_ + 64 + row * f.lines →
      (f.dt = dt → f.lines < f.height → ok = true → (rawPixels dt payload).length = f.width → tst f.status 6 = false →
        v.ioBad d a row true = false → Ends (.rawLinePacket d j vc dt payload ok) s (fun t =>
          t.ioBytes d a row = ((rawPixels dt payload).map (fun p => leBytes (pixelSize dt) p)).flatten ∧
          (t.snsPort d j).frame = some { f with lines := f.lines + 1 } ∧ OnlyIn [.regs, .mem, .sns, .cmn, .hbm] s t)) ∧
      (f.dt ≠ dt → Ends (.rawLinePacket d j vc dt payload ok) s (fun t => (t.snsPort d j).frame = some f ∧
        t.fld (F.SNS_PORT_CNT_PKT_OTHER d j) = min (s.fld (F.SNS_PORT_CNT_PKT_OTHER d j) + 1) (2 ^ 16 - 1) ∧
        OnlyIn [.regs, .sns] s t)) ∧
      Ends (.frameEnd d j vc) s (fun t => FramePublished v t d j f false)) ∧
    (∀ f, s.frozen = false → (s.snsPort d j).frame = some f → Ends (.frameTimeout d j) s (fun t =>
      FramePublished s t d j f true)) ∧
    ((s.snsPort d j).frame = none → s.frozen = false → exec (.frameTimeout d j) s = .next s) ∧
    (s.bit (F.SNS_PORT_STATUS_PWR_ON d j) = true → (s.snsPort d j).frame = none →
      Ends (.sensorPortOvercurrent d j) s (fun t =>
      t.bit (F.SNS_PORT_CTRL_PWR_EN d j) = false ∧ t.bit (F.SNS_PORT_STATUS_PWR_ON d j) = false ∧
      t.bit (F.SNS_PORT_STATUS_PWR_FAULT d j) = true ∧ OnlyIn logParts s t)) ∧
    Ends (.clockLaneInactive d j) s (fun t => t.fld (F.SNS_PORT_STATUS_LINK d j) = 0 ∧ OnlyIn [.regs] s t)) ∧
  (∀ (d word addr : Nat) (b : List Byte) (s : State), d < 2 → s.frozen = false → s.pwr.mode = .on → s.snsUsable d = true →
    s.bit (F.SNS_AER_CTRL_ENABLE d) = true → s.fld (F.SNS_GRANT_VF d) ≠ 0 → s.ioBad d 0x400 64 true = false →
    b = s.ioBytes d 0x400 64 → aerOk b = true → addr = leAt b 4 4 + bitsOf word 18 0 →
    (bitsOf word 23 22 = 0 → addr < 2 ^ 19 → s.snsFeeds d = true → s.campLive = true →
      (fget (fun _ => []) (s.die d).ingress 8).length < 4096 → Ends (.aerWord d word) s (fun t =>
        TokensIn s t d 8 [⟨addr, bitsOf word 20 19, leAt b 0xC 1, leAt b (if tst word 21 then 0xA else 8) 2⟩] ∧
        t.fld (F.SNS_AER_CNT_COUNT d) = min (s.fld (F.SNS_AER_CNT_COUNT d) + 1) (2 ^ 32 - 1) ∧ OnlyIn [.regs, .cmp] s t)) ∧
    (bitsOf word 23 22 ≠ 0 → s.ioBad d 0x410 4 true = false → Ends (.aerWord d word) s (fun t => t.cmp = s.cmp ∧
      t.ioLe d 0x410 4 = (s.ioLe d 0x410 4 + 1) % 2 ^ 32 ∧ OnlyIn [.regs, .mem, .cmn, .hbm] s t))) ∧
  (∀ (d n len w off : Nat) (s : State), d < 2 → n < 8 → s.snsUsable d = true → s.tick.running = true → s.frozen = false →
    s.pwr.mode = .on → s.bit (F.SNS_TRIG_CFG_ENABLE d n) = true → off = 10 * s.fld (F.SNS_TRIG_OFFSET_OFFSET d n) →
    w = 10 * max 1 (s.fld (F.SNS_TRIG_WIDTH_WIDTH d n)) →
    (s.tickCount % max 1 (s.fld (F.SNS_TRIG_CFG_DIV d n)) = s.fld (F.SNS_TRIG_PHASE_PHASE d n) →
      (off < len → Ends (.triggerPulse d n len) s (fun t =>
        t.out = .trig d n (min w (len - off)) (s.bit (F.SNS_TRIG_CFG_INVERT d n)) :: s.out ∧
        t.fld (F.SNS_TRIG_CNT_PULSES d n) = (s.fld (F.SNS_TRIG_CNT_PULSES d n) + 1) % 2 ^ 16 ∧ OnlyIn [.regs, .out] s t)) ∧
      (len ≤ off → Ends (.triggerPulse d n len) s (fun t => t.fld (F.SNS_TRIG_CNT_CUT d n) =
        min (s.fld (F.SNS_TRIG_CNT_CUT d n) + 1) (2 ^ 16 - 1) ∧ OnlyIn [.regs] s t))) ∧
    (s.tickCount % max 1 (s.fld (F.SNS_TRIG_CFG_DIV d n)) ≠ s.fld (F.SNS_TRIG_PHASE_PHASE d n) →
      exec (.triggerPulse d n len) s = .next s))

/-- For each port: a bad symbol is discarded and counted. A flit in order is acknowledged and delivered or queued onward,
a bad or unexpected one is answered with NAK. CREDIT, ACK, NAK, DELAY_REQ, DELAY_RESP, PAUSE, TRAIN HELLO and TRAIN
KEY have their effect and answer; the eighth NAK of a SEQ fails the port. FAIL_NOTICE is forwarded once and ends the
collective it concerns. ANNOUNCE grants a waiting module, flags what does not fit, or is adopted. Leg and link
training, retries, the element, a peer's stream and a control write move the port by Table 19-1. Admission and removal
announce a window, or are flagged; at the window ports pause; DRAINED on every tap enters or leaves the ring; a silent
tap enters at once; entry that fails and a window that is not used are undone. -/
def Obligations.LinksTrainCarryAndWindow : Prop :=
  (∀ (p : Nat) (b : List Byte) (s v : State), p < 16 → v = s.heardOn p →
    (∀ type cmd, (type, cmd) ∈ [(0x01, Instr.credit p b), (0x02, .ack p b), (0x03, .nak p b), (0x07, .delayReq p b 0),
        (0x08, .delayResp p b 0), (0x0C, .announce p b), (0x0D, .pause p b), (0x0E, .drained p b), (0x10, .trainHello p b 0)] →
      symOk type b = false → Ends cmd s (fun t => OnlyIn [.regs] s t ∧
        t.fld (F.EWB_P_CNT_SYM_BAD_COUNT p) = min (s.fld (F.EWB_P_CNT_SYM_BAD_COUNT p) + 1) (2 ^ 32 - 1) ∧
        t.fld F.EWB_CNT_SYM_BAD_COUNT = min (s.fld F.EWB_CNT_SYM_BAD_COUNT + 1) (2 ^ 32 - 1))) ∧
    (∀ (f : Flit) (ok : Bool) (corr unc : Nat),
      (s.frozen = true ∨ (s.portState p ≠ 4 ∧ s.portState p ≠ 5) → exec (.flitReceive p f ok corr unc) s = .next s) ∧
      (s.frozen = false → s.portState p = 4 ∨ s.portState p = 5 →
        (ok = false ∨ (f.kind ≠ 0 ∧ f.seq ≠ (s.port p).rxSeq) → Ends (.flitReceive p f ok corr unc) s (fun t =>
          t.out = .symbol p (symbolOf 0x03 (0 :: leBytes 2 (s.port p).rxSeq)) :: s.out ∧ OnlyIn [.regs, .out] s t)) ∧
        (∀ own peer, ok = true → f.kind ≠ 0 → f.seq = (s.port p).rxSeq → own = posOf s.address (portRing p) →
          peer = posOf (s.peer p) (portRing p) →
          (f.dst = own → Ends (.flitReceive p f ok corr unc) s (fun t => t.ewb.inbox = s.ewb.inbox ++ [(p, f)] ∧
            (t.port p).rxSeq = (f.seq + 1) % 4096 ∧ .symbol p (symbolOf 0x02 (0 :: leBytes 2 f.seq)) ∈ t.out ∧
            (∀ q, q ≠ p → t.port q = s.port q) ∧ OnlyIn [.regs, .ewb, .out] s t)) ∧
          (∀ g : Flit, f.dst ≠ own → strictlyBetween (s.ringSize (portRing p)) peer own f.dst (p % 2 == 1) = false →
            s.portState (opposite p) ≠ 4 → g = { f with
              vc := if f.vc % 2 = 0 ∧
                crosses own (posOf (s.peer (opposite p)) (portRing p)) (p % 2 == 1) = true then f.vc + 1
                else f.vc } → Ends (.flitReceive p f ok corr unc) s (fun t =>
              (t.port (opposite p)).txq = (s.port (opposite p)).txq ++ [(p, g)] ∧ (t.port p).rxSeq = (f.seq + 1) % 4096 ∧
              t.out = .symbol p (symbolOf 0x02 (0 :: leBytes 2 f.seq)) :: s.out ∧ OnlyIn [.regs, .ewb, .out] s t))))) ∧
    (symOk 0x01 b = true →
      ((s.port p).txq = [] → Ends (.credit p b) s (fun t => OnlyIn [.ewb] s t ∧
        t.port p = { v.port p with creditRx := [leAt b 2 2, leAt b 4 2, leAt b 6 2, leAt b 8 2] })) ∧
      (∀ f x, (s.port p).txq = [(16, f)] → s.portState p = 4 → s.frozen = false →
        x = { s.port p with creditRx := [leAt b 2 2, leAt b 4 2, leAt b 6 2, leAt b 8 2] } → x.maySend f.vc = true →
        Ends (.credit p b) s (fun t => t.out = .flit p { f with seq := x.txSeq } :: s.out ∧ (t.port p).txq = [] ∧
          (t.port p).replay = x.replay ++ [{ f with seq := x.txSeq }] ∧ (t.port p).txSeq = (x.txSeq + 1) % 4096 ∧
          OnlyIn [.ewb, .out] s t))) ∧
    (symOk 0x02 b = true → (s.port p).txq = [] → s.portState p ≠ 5 → Ends (.ack p b) s (fun t => OnlyIn [.ewb] s t ∧
      t.port p = { v.port p with
        nakRun := 0, replay := (s.port p).replay.filter (fun f => decide (2048 ≤ (leAt b 2 2 % 4096 + 4096 - f.seq) % 4096)) })) ∧
    (∀ q run again, symOk 0x03 b = true → q = leAt b 2 2 % 4096 →
      run = (if (s.port p).nakSeq = q then (s.port p).nakRun + 1 else 1) →
      again = (s.port p).replay.filter (fun f => decide ((f.seq + 4096 - q) % 4096 < 2048)) →
      (run < 8 → s.frozen = false → Ends (.nak p b) s (fun t =>
        t.out = (again.map (fun f => Output.flit p f)).reverse ++ s.out ∧
        t.port p = { v.port p with nakSeq := q, nakRun := run } ∧ OnlyIn [.regs, .ewb, .out] s t)) ∧
      (8 ≤ run → s.portState p = 4 ∨ s.portState p = 5 → Ends (.nak p b) s (fun t => t.portState p = 6 ∧
        (t.port p).replay = [] ∧ (t.port p).txq = [] ∧ OnlyIn logParts s t))) ∧
    (∀ turn, symOk 0x07 b = true → Ends (.delayReq p b turn) s (fun t => OnlyIn [.ewb, .out] s t ∧ t.port p = v.port p ∧
      t.out = .symbol p (symbolOf 0x08 (leBytes 1 (leAt b 1 1) ++ leBytes 8 (leAt b 2 8) ++ leBytes 4 turn)) :: s.out)) ∧
    (∀ t4 l, symOk 0x08 b = true → l = (t4 - leAt b 2 8 - leAt b 10 4) / 2 :: (s.port p).samples →
      ((s.port p).awaiting = 0 → Ends (.delayResp p b t4) s (fun t => t = v)) ∧
      ((s.port p).awaiting ≠ 0 → Ends (.delayResp p b t4) s (fun t => (t.port p).samples = l ∧
        (t.port p).awaiting = (s.port p).awaiting - 1 ∧ t.fld (F.EWB_P_DELAY_PS p) =
          (if (s.port p).awaiting = 1 then mean l % 2 ^ 32 else s.fld (F.EWB_P_DELAY_PS p)) ∧ OnlyIn [.regs, .ewb] s t))) ∧
    (∀ key, symOk 0x0B b = true → p ∈ s.trainedPorts → key = (leAt b 2 2 % 512, leAt b 4 1) →
      (key ∈ s.ewb.seenNotice → Ends (.failNotice p b) s (fun t => t = s)) ∧
      (key ∉ s.ewb.seenNotice → s.stepping 26 = none → s.stepping 27 = none → Ends (.failNotice p b) s (fun t =>
        key ∈ t.ewb.seenNotice ∧ t.out = ((s.trainedPorts.filter (fun q => q % 4 == opposite p % 4)).map
          (fun q => Output.symbol q b)).reverse ++ s.out ∧
        t.fld F.EWB_CNT_NOTICE_RX_COUNT = min (s.fld F.EWB_CNT_NOTICE_RX_COUNT + 1) (2 ^ 32 - 1) ∧
        OnlyIn [.regs, .ewb, .out] s t)) ∧
      (∀ k, key ∉ s.ewb.seenNotice → s.stepping 26 = some k → s.stepping 27 = none → k.cls = 6 →
        s.noticeEnds b k.bytes = true →
        Ends (.failNotice p b) s (fun t => BlockEnds s t k 0x30 0))) ∧
    (∀ kind w, symOk 0x0C b = true → kind = bitsOf (leAt b 1 1) 1 0 → w = s.expandW (leAt b 8 4) →
      (s.portState p = 2 → s.insertion = 1 → kind = 1 →
        (s.announceFits p b = true → Ends (.announce p b) s (fun t => t.insertion = 2 ∧ t.pendingW = w % 2 ^ 64 ∧
          t.ewb.winAt = w ∧ t.ewb.winEnter = true ∧ OnlyIn [.regs, .ewb] s t)) ∧
        (s.announceFits p b = false → Ends (.announce p b) s (fun t => t.bit F.EWB_STATUS_REFUSED_SEEN = true ∧
          t.insertion = 1 ∧ OnlyIn [.regs, .ewb] s t))) ∧
      (s.portState p = 4 → kind = 1 ∨ kind = 2 → s.pendingW = 0 ∨ w < s.pendingW → Ends (.announce p b) s (fun t =>
        t.pendingW = w % 2 ^ 64 ∧ t.ewb.winKind = kind ∧ t.ewb.winRing = portRing p ∧ t.ewb.winDir = p % 2 ∧
        t.ewb.winOwn = false ∧ t.ewb.winEnter = false ∧ OnlyIn [.regs, .ewb] s t)) ∧
      (s.portState p = 4 → s.pendingW ≠ 0 → s.pendingW ≤ w → exec (.announce p b) s = .next s)) ∧
    (symOk 0x0D b = true → leAt b 2 4 = s.ewb.winAt % 2 ^ 32 → s.portState p ≠ 2 →
      (s.portState p = 5 → (s.port p).pauseTx = true → (s.port p).replay = [] → (s.port p).drainTx = false →
        Ends (.pause p b) s (fun t => (t.port p).pauseRx = true ∧ (t.port p).drainTx = true ∧
          t.out = .symbol p (symbolOf 0x0E (0 :: leBytes 4 s.ewb.winAt)) :: s.out ∧ OnlyIn [.ewb, .out] s t)) ∧
      (s.portState p ≠ 5 ∨ (s.port p).replay ≠ [] → Ends (.pause p b) s (fun t =>
        t.port p = { s.port p with pauseRx := true } ∧ OnlyIn [.ewb] s t))) ∧
    (symOk 0x0E b = true → leAt b 2 4 = s.ewb.winAt % 2 ^ 32 →
      (s.insertion = 2 → (∀ q, q < 16 → q ≠ p → s.portState q = 2 → (s.port q).stream = true → (s.port q).drainRx ≠ 0) →
        Ends (.drained p b) s (fun t => t.insertion = 3 ∧ t.bypReady = true ∧ OnlyIn [.regs, .ewb] s t)) ∧
      (s.insertion = 5 → (∀ q, q < 16 → q ≠ p → s.portState q = 5 → (s.port q).drainRx ≠ 0) →
        Ends (.drained p b) s (fun t =>
        t.insertion = 0 ∧ t.bypReady = false ∧ t.pendingW = 0 ∧ OnlyIn [.regs, .ewb] s t)) ∧
      (s.insertion ≠ 2 → s.insertion ≠ 5 → Ends (.drained p b) s (fun t => t.port p = { v.port p with drainRx := 1 } ∧
        OnlyIn [.ewb] s t))) ∧
    (∀ lanes, symOk 0x10 b = true →
      (s.portState p = 3 → Ends (.trainHello p b lanes) s (fun t =>
        (t.port p).hello = some [leAt b 1 2 % 512, leAt b 3 1, leAt b 4 1, leAt b 5 2, leAt b 7 1, leAt b 8 1, leAt b 9 1 % 2,
          leAt b 10 1] ∧
        t.out = .symbol p (symbolOf 0x10 (leBytes 2 s.address ++ leBytes 1 (portSite p) ++ leBytes 1 (portRole p) ++
          leBytes 2 (s.fld F.EWB_DOMAIN_DOMAIN_ID) ++ leBytes 1 s.ySize ++ leBytes 1 (s.fld F.EWB_RACK_RACK_TRAYS) ++
          leBytes 1 (s.fld (F.EWB_P_CTRL_FORCE_CRYPT p)) ++ leBytes 1 lanes)) :: s.out ∧ OnlyIn [.ewb, .out] s t)) ∧
      (s.portState p ≠ 3 → Ends (.trainHello p b lanes) s (fun t => t = v))) ∧
    (∀ n, n = leAt b 0 1 → 0x11 ≤ n → n ≤ 0x18 → symOk n b = true → s.portState p = 3 → Ends (.trainKey p b) s (fun t =>
      (t.port p).keyChunks = (n - 0x11, sliceOf b 1 14) :: (s.port p).keyChunks ∧
      (∃ sym, t.out = .symbol p sym :: s.out ∧ symOk n sym = true) ∧ OnlyIn [.ewb, .free, .out] s t)) ∧
    ((s.portState p = 1 → Ends (.legTrainEnd p true) s (fun t => t.portState p = (if s.bypReady then 3 else 2) ∧
        (t.port p).leg = true ∧ t.insertion = (if s.insertion = 0 then 1 else s.insertion) ∧ OnlyIn [.regs, .ewb] s t) ∧
        Ends (.legTrainEnd p false) s (fun t => t.portState p = 6 ∧ OnlyIn [.regs] s t)) ∧
      (s.portState p ≠ 1 → ∀ ok, exec (.legTrainEnd p ok) s = .next s)) ∧
    (∀ (r : LinkResult) (h : List Nat) (crypt same : Bool), h = (s.port p).hello.getD [] →
      crypt = (s.rackEdge p (h.getD 0 0) || s.bit (F.EWB_P_CTRL_FORCE_CRYPT p) || h.getD 6 0 == 1) →
      (same = true ↔ ∀ i, i < 12 → s.readReg (R.SEC_IK_DIGEST i) = BitVec.ofNat 32 (leAt r.peerDigest (4 * i) 4)) →
      (s.portState p ≠ 3 → exec (.linkTrainEnd p r) s = .next s) ∧
      (s.portState p = 3 → r.complete = false → Ends (.linkTrainEnd p r) s (fun t => t.portState p = 6 ∧
        OnlyIn [.regs] s t)) ∧
      (s.portState p = 3 → r.complete = true → same = true ∨ s.refusal p h r crypt = 0 →
        Ends (.linkTrainEnd p r) s (fun t =>
        t.portState p = (if same then 7 else 4) ∧ t.peer p = h.getD 0 0 % 512 ∧ t.fld (F.EWB_P_STATUS_REFUSE p) = 0 ∧
        t.bit (F.EWB_P_STATUS_ENCRYPTED p) = (!same && crypt) ∧ (t.port p).txSeq = 0 ∧ (t.port p).rxSeq = 0 ∧
        (t.port p).replay = [] ∧ (t.port p).sentVc = [0, 0, 0, 0] ∧ OnlyIn [.regs, .ewb] s t)) ∧
      (∀ c, s.portState p = 3 → r.complete = true → same = false → s.refusal p h r crypt = c → c ≠ 0 →
        s.insertion ≠ 3 ∨ (s.port p).needUp = false → Ends (.linkTrainEnd p r) s (fun t => t.portState p = 8 ∧
          t.fld (F.EWB_P_STATUS_REFUSE p) = c ∧ t.bit F.EWB_STATUS_REFUSED_SEEN = true ∧
          (c = 3 → t.bit F.EWB_STATUS_DUP_SEEN = true) ∧ OnlyIn [.regs] s t))) ∧
    ((s.portState p = 4 ∨ (s.portState p = 5 ∧ ((s.port p).drainTx = false ∨ (s.port p).drainRx = 0)) →
        Ends (.portFailed p) s (fun t => t.portState p = 6 ∧ (t.port p).replay = [] ∧ (t.port p).txq = [] ∧
          t.fld (F.EWB_P_CNT_DOWN_COUNT p) = min (s.fld (F.EWB_P_CNT_DOWN_COUNT p) + 1) (2 ^ 32 - 1) ∧
            OnlyIn logParts s t)) ∧
      (s.portState p = 5 → (s.port p).drainTx = true → (s.port p).drainRx ≠ 0 → Ends (.portFailed p) s (fun t =>
        t.portState p = 3 ∧ OnlyIn [.regs] s t)) ∧
      (s.portState p ≠ 4 → s.portState p ≠ 5 → exec (.portFailed p) s = .next s)) ∧
    (∀ lost : Bool,
      (s.portState p = 6 → lost = true ∨ (s.port p).leg = false → Ends (.portRetryTimer p lost) s (fun t =>
        t.portState p = 1 ∧
        (t.port p).leg = false ∧ OnlyIn [.regs, .ewb] s t)) ∧
      ((s.portState p = 6 ∧ lost = false ∧ (s.port p).leg = true) ∨ s.portState p = 8 →
        Ends (.portRetryTimer p lost) s (fun t =>
        t.portState p = 3 ∧ OnlyIn [.regs] s t)) ∧
      (s.portState p ≠ 6 → s.portState p ≠ 8 → exec (.portRetryTimer p lost) s = .next s)) ∧
    ((s.portState p = 2 → Ends (.elementStateChange p true) s (fun t => t.portState p = 3 ∧ (t.port p).elemOpen = true ∧
        OnlyIn [.regs, .ewb] s t)) ∧
      (s.portState p ∈ [4, 5, 6, 7] → Ends (.elementStateChange p false) s (fun t => t.portState p = 2 ∧
        (t.port p).elemOpen = false ∧ (t.port p).stream = false ∧ (t.port p).replay = [] ∧ OnlyIn [.regs, .ewb] s t)) ∧
      (s.portState p ≠ 2 → Ends (.elementStateChange p true) s (fun t => t.port p = { s.port p with elemOpen := true } ∧
        OnlyIn [.ewb] s t))) ∧
    ((s.portState p = 7 ∨ s.portState p = 8 → Ends (.peerStreamAppear p) s (fun t => t.portState p = 3 ∧
      OnlyIn [.regs] s t)) ∧
      (s.portState p = 2 → Ends (.peerStreamAppear p) s (fun t => t.port p = { s.port p with stream := true } ∧
        OnlyIn [.ewb] s t))) ∧
    (∀ w : Word, s.fused.ioType.getD (portSite p) 0 = 1 →
      (tst w.toNat 0 = false → Ends (.portCtrlWrite p w) s (fun t => t.portState p = 0 ∧ (t.port p).leg = false ∧
        t.reg (R.EWB_P_CTRL p) = w &&& 0xCF ∧ OnlyIn [.regs, .ewb] s t)) ∧
      (tst w.toNat 0 = true → Ends (.portCtrlWrite p w) s (fun t => t.reg (R.EWB_P_CTRL p) = w &&& 0xCF ∧
        t.portState p = (if s.portState p = 0 ∧ s.portUsable p = true then 1 else s.portState p) ∧ OnlyIn [.regs] s t))) ∧
    (∀ w : Word, s.fused.ioType.getD (portSite p) 0 ≠ 1 → exec (.portCtrlWrite p w) s = .next s)) ∧
  (∀ (w : Word) (ring dir : Nat) (s : State), ring = bitOf w.toNat 1 → dir = bitOf w.toNat 0 →
    (tst w.toNat 31 = false → exec (.ewbAdmit w) s = .next s) ∧
    (tst w.toNat 31 = true → s.insertion ≠ 4 ∨ s.gapPorts ring dir = [] ∨ s.pendingW ≠ 0 → Ends (.ewbAdmit w) s (fun t =>
      t.bit F.EWB_STATUS_ADMIT_REFUSED = true ∧ t.pendingW = s.pendingW ∧ OnlyIn [.regs] s t)) ∧
    (tst w.toNat 31 = true → s.insertion = 4 → s.gapPorts ring dir ≠ [] → s.pendingW = 0 → Ends (.ewbAdmit w) s (fun t =>
      t.pendingW = s.nextWindow % 2 ^ 64 ∧ t.ewb.winKind = 1 ∧ t.ewb.winRing = ring ∧ t.ewb.winDir = dir ∧
        t.ewb.winOwn = true ∧
      t.insertion = 4 ∧ OnlyIn [.regs, .ewb] s t)) ∧
    (tst w.toNat 0 = false → exec (.ewbRemove w) s = .next s) ∧
    (tst w.toNat 0 = true → s.insertion ≠ 4 ∨ s.pendingW ≠ 0 → Ends (.ewbRemove w) s (fun t =>
      t.bit F.EWB_STATUS_ADMIT_REFUSED = true ∧ t.insertion = s.insertion ∧ OnlyIn [.regs] s t)) ∧
    (tst w.toNat 0 = true → s.insertion = 4 → s.pendingW = 0 → Ends (.ewbRemove w) s (fun t => t.insertion = 5 ∧
      t.pendingW = s.nextWindow % 2 ^ 64 ∧ t.ewb.winKind = 2 ∧ OnlyIn [.regs, .ewb] s t))) ∧
  (∀ s : State,
    (s.pendingW = 0 ∨ s.tickCount < s.pendingW ∨ s.frozen = true → exec .insertionWindow s = .next s) ∧
    (s.pendingW ≠ 0 → s.pendingW ≤ s.tickCount → s.frozen = false →
      (s.ewb.winEnter = true → Ends .insertionWindow s (fun t => t.pendingW = 0 ∧ OnlyIn [.regs] s t)) ∧
      (s.ewb.winEnter = false → Ends .insertionWindow s (fun t => t.pendingW = 0 ∧ (∀ p, p < 16 →
        t.portState p = (if s.portState p = 4 ∧ (s.insertion = 5 ∨ p ∈ s.gapPorts s.ewb.winRing s.ewb.winDir) then 5
          else s.portState p)) ∧ OnlyIn [.regs, .ewb, .out] s t))) ∧
    (s.insertion = 1 → s.frozen = false → Ends .tapSilentEntry s (fun t => t.insertion = 3 ∧ t.bypReady = true ∧
      (∀ p, p < 16 → (t.port p).stream = false ∧ (t.port p).needUp = false) ∧ OnlyIn [.regs, .ewb] s t)) ∧
    (s.insertion ≠ 1 ∨ s.frozen = true → exec .tapSilentEntry s = .next s) ∧
    (∀ p, p < 16 → s.insertion = 3 → (s.port p).needUp = true → s.portState p ≠ 4 → Ends .entryTimeout s (fun t =>
      t.insertion = 0 ∧ t.bypReady = false ∧ t.pendingW = 0 ∧ OnlyIn logParts s t)) ∧
    (s.insertion ≠ 3 → exec .entryTimeout s = .next s) ∧
    (s.insertion = 2 → Ends .windowAbandon s (fun t => t.insertion = 1 ∧ OnlyIn [.regs] s t)) ∧
    (∀ p, p < 16 → s.insertion ≠ 2 → s.portState p = 5 → Ends .windowAbandon s (fun t => t.portState p = 4 ∧
      (t.port p).pauseTx = false ∧ (t.port p).drainTx = false ∧ t.bit F.EWB_STATUS_ABANDONED = true ∧
        OnlyIn logParts s t)) ∧
    (s.insertion ≠ 2 → (∀ p, p < 16 → s.portState p ≠ 5) → exec .windowAbandon s = .next s))

/-- An uncontained fault, a hang or an injection that applies is counted, in FLT_LAST and noticed. In DIAG_ONLY nothing
more follows; in RECOVERING the recovery restarts, and the third fault ends it in DIAG_ONLY; else RECOVERING begins
and all work is given up. One that does not apply changes nothing. A contained fault is counted, noticed and, outside
a recovery, an event of its VF. RECOVERY_END leaves RECOVERING, and RECOVERY_TIMEOUT past twice the bound ends it in
DIAG_ONLY. A pending fault or recorder notice is posted in its IDLE slot. An event that no trigger matches is the last
record of the buffer. A page program of the buffer's one waiting record writes it to its log's blank slot and empties
the buffer; a failed one leaves the page's bytes unspecified. ERASE_AHEAD_COMPLETE erases the sectors past the margin.
What their conditions rule out changes nothing. The buffer's exact form is the model's. -/
def Obligations.FaultsRecoverAndTheRecorderKeeps : Prop :=
  (∀ (s : State) (cmd : Instr) (code unit inst : Nat), Reports s cmd code unit inst →
    (s.fltState = 3 → Ends cmd s (fun t => Reported s t code unit inst ∧ t.fltState = 3 ∧
      OnlyIn (.flt :: logParts) s t)) ∧
    (s.fltState = 1 → s.fld F.FLT_STATUS_RESTARTS = 0 → Ends cmd s (fun t => Reported s t code unit inst ∧ t.fltState = 1 ∧
      t.fld F.FLT_STATUS_RESTARTS = 1 ∧ OnlyIn (.flt :: logParts) s t)) ∧
    (s.fltState = 1 → 1 ≤ s.fld F.FLT_STATUS_RESTARTS → Ends cmd s (fun t => Reported s t code unit inst ∧ t.fltState = 3 ∧
      t.fld F.BOOT_STATUS_DIAG_ONLY = 1 ∧ t.flt.nRec.isSome = true ∧ t.flt.fences = [] ∧ OnlyIn (.flt :: logParts) s t)) ∧
    (s.fltState = 0 ∨ s.fltState = 2 → Ends cmd s (fun t => ∃ u : State, t = u.giveUp ∧ Reported s u code unit inst ∧
      u.fltState = 1 ∧ u.fld F.FLT_STATUS_RESTARTS = 0 ∧ u.flt.beganClk = s.runClk ∧ OnlyIn (.flt :: logParts) s u))) ∧
  (∀ s : State,
    (∀ code u inst m, s.detects = false ∨ s.faultApplies code u inst = false →
      exec (.uncontainedFault code u inst m) s = .next s) ∧
    (∀ u, s.detects = false ∨ s.pwr.doze = true ∨ (s.munit u).running = none → exec (.matrixUnitHang u) s = .next s) ∧
    (∀ k, s.detects = false ∨ s.pwr.doze = true ∨ (s.inst k).busy = 0 → exec (.engineHang k) s = .next s) ∧
    (∀ d, s.detects = false ∨ s.pwr.doze = true ∨ s.campInFlight d = false → exec (.campionHang d) s = .next s) ∧
    (∀ v : Word, tst v.toNat 31 = false ∨ bitsOf v.toNat 7 0 ≠ 0x8F ∨ s.bit F.FLT_CTRL_INJECT_EN = false →
      exec (.fltInject v) s = .next s)) ∧
  (∀ (s : State) (vf code exc arg pc : Nat), 1 ≤ vf → vf ≤ 63 →
    (s.detects = true → 1 ≤ code → code ≤ 7 → s.sliceState vf ≠ 0 → Ends (.containedFault vf code exc arg pc) s (fun t =>
      t.fld F.FLT_CNT_CONTAINED_COUNT = min (s.fld F.FLT_CNT_CONTAINED_COUNT + 1) (2 ^ 32 - 1) ∧
      t.fld (F.FLT_VF_CNT_COUNT vf) = min (s.fld (F.FLT_VF_CNT_COUNT vf) + 1) (2 ^ 32 - 1) ∧
      (fget (fun _ => none) t.flt.nCon vf).isSome = true ∧ (s.recovering = false → t.bit ⟨R.QIF_VF_EVENT vf, 2, 2⟩ = true) ∧
      OnlyIn ([.flt, .exm] ++ logParts) s t)) ∧
    (s.detects = false ∨ code = 0 ∨ 7 < code ∨ s.sliceState vf = 0 →
      exec (.containedFault vf code exc arg pc) s = .next s)) ∧
  (∀ s : State, s.detects = true → s.fltState = 1 →
    Ends .recoveryEnd s (fun t => t.fltState ≠ 1 ∧ t.flt.fences = [] ∧ t.flt.modelHit = false ∧ t.flt.nRec.isSome = true ∧
      (t.fltState = 3 → t.fld F.BOOT_STATUS_DIAG_ONLY = 1) ∧
      OnlyIn ([.flt, .exm, .nor, .slices, .sec, .mem, .sch, .yar, .ffe, .tsl, .cmp, .sns, .free, .cmn, .hbm] ++ logParts) s t) ∧
    (s.flt.beganClk + 2 * s.recoveryNs ≤ s.runClk → Ends .recoveryTimeout s (fun t => t.fltState = 3 ∧
      t.fld F.BOOT_STATUS_DIAG_ONLY = 1 ∧ t.flt.nRec.isSome = true ∧ t.flt.fences = [] ∧ OnlyIn (.flt :: logParts) s t)) ∧
    (s.runClk < s.flt.beganClk + 2 * s.recoveryNs → exec .recoveryTimeout s = .next s)) ∧
  (∀ s : State, s.detects = false ∨ s.fltState ≠ 1 → exec .recoveryEnd s = .next s ∧ exec .recoveryTimeout s = .next s) ∧
  (∀ (s : State) (n : FaultNotice) (cls vf : Nat) (f : Faults), s.slotState 1010 = 0 →
    ((cls = 1 ∧ vf = 0 ∧ s.flt.nUnc = some n ∧ f = { s.flt with nUnc := none }) ∨
     (cls = 3 ∧ vf = 0 ∧ s.flt.nUnc = none ∧ s.flt.nRec = some n ∧ f = { s.flt with nRec := none }) ∨
     (cls = 2 ∧ vf = 0 ∧ s.flt.nUnc = none ∧ s.flt.nRec = none ∧ s.flt.nCe = some n ∧ s.bit F.FLT_CTRL_NOTIFY_CE = true ∧
      f = { s.flt with nCe := none }) ∨
     (cls = 0 ∧ s.flt.nUnc = none ∧ s.flt.nRec = none ∧ (s.flt.nCe = none ∨ s.bit F.FLT_CTRL_NOTIFY_CE = false) ∧
      s.flt.nCon.find? (fun e => e.2.isSome) = some (vf, some n) ∧ s.bit F.FLT_CTRL_NOTIFY_CONTAINED = true ∧
      f = { s.flt with nCon := fset (fun _ => none) s.flt.nCon vf none })) → Ends .faultNoticePost s (fun t =>
    t.flt = f ∧ t.slotState 1010 = 1 ∧ t.exmBytes (slotAddr 1010) 56 = fitTo 56 (s.faultPayload cls vf n) ∧
    bitsOf (t.trigger 1010) 63 48 = cls ∧ OnlyIn [.regs, .exm, .flt, .out, .exmMem] s t)) ∧
  (∀ (s : State) (cls : Nat) (n : RecNotice) (rest : FMap (Option RecNotice)), s.slotState 1011 = 0 →
    s.evr.notices = (cls, some n) :: rest → Ends .recorderNoticePost s (fun t =>
      fget (fun _ => none) t.evr.notices cls = none ∧ t.slotState 1011 = 1 ∧
      t.exmBytes (slotAddr 1011) 56 = fitTo 56 (s.recNoticeBytes cls n) ∧ bitsOf (t.trigger 1011) 63 48 = cls % 2 ^ 16 ∧
      OnlyIn [.regs, .exm, .evr, .out, .exmMem] s t)) ∧
  (∀ s : State, (s.slotState 1010 ≠ 0 → exec .faultNoticePost s = .next s) ∧
    (s.slotState 1011 ≠ 0 ∨ s.evr.notices = [] → exec .recorderNoticePost s = .next s)) ∧
  (∀ (code sev vf unit arg16 arg : Nat) (s : State) (r : Record), r = s.mkRecord code (sev % 8) vf unit arg16 arg false →
    (∀ k, k < 4 → s.trigMatches k r = false) → s.bufUsed + 1 ≤ 1023 →
    Ends (.recordCreate code sev vf unit arg16 arg) s (fun t =>
      t.evr.buf = s.evr.buf ++ [⟨r, [], 0, s.ffTakes r.sev, 0⟩] ∧ t.reg R.EVR_SEQ = s.reg R.EVR_SEQ + 1 ∧
      t.fld F.EVR_CNT_RECORDS_COUNT = min (s.fld F.EVR_CNT_RECORDS_COUNT + 1) (2 ^ 32 - 1) ∧ OnlyIn [.regs, .evr] s t)) ∧
  (∀ (s : State) (log : Nat) (ok : Bool), log ≤ 1 →
    (s.canDrain = false ∨ s.waiting log = none ∨ (log = 0 ∧ s.evr.clearing = 1) ∨ (log = 1 ∧ s.evr.margin ≤ 4096) →
      exec (.drainPageProgram log ok) s = .next s) ∧
    (s.canDrain = true → s.waiting log ≠ none → (log = 0 → s.evr.clearing ≠ 1) → (log = 1 → 4096 < s.evr.margin) →
      (ok = false → Ends (.drainPageProgram log ok) s (fun t => OnlyIn (.nor :: logParts) s t ∧
        ∀ k, k < 256 → fget (fun _ => 0) t.evr.norOpen (logBase log + 256 * (s.logPos log / 8) + k) = 1)) ∧
      (∀ b, ok = true → s.evr.buf = [b] → b.hdr.units = 1 → b.left log = 1 → b.left (1 - log) = 0 → s.evr.lostCount = 0 →
        s.logPos log < logSlots log → s.slotUsable log (s.logPos log) = true →
        s.norBlank (logBase log + 32 * s.logPos log) 32 = true → s.isHeaderSlot log (s.logPos log) = false →
        (∀ k, k < 32 → fget (fun _ => 0) s.evr.norOpen (logBase log + 32 * s.logPos log + k) = 0) →
        Ends (.drainPageProgram log ok) s (fun t => t.norBytes (logBase log + 32 * s.logPos log) 32 = b.hdr.bytes ∧
          t.logPos log = (if log = 0 then s.logPos log + 1 else (s.logPos log + 1) % 786432) ∧ t.evr.buf = [] ∧
          t.evr.margin = (if log = 0 then s.evr.margin else s.evr.margin - 1) ∧
          (∀ a, a < logBase log + 32 * s.logPos log ∨ logBase log + 32 * s.logPos log + 32 ≤ a →
            t.norByte a = s.norByte a) ∧
          OnlyIn [.regs, .evr, .nor] s t)))) ∧
  (∀ (s : State) (sectors n first : Nat), n = (if sectors = 16 then 16 else 1) →
    first = ((s.logPos 1 + s.evr.margin + 127) / 128) % 6144 → s.canDrain = true → (s.frozen = true → s.evr.margin < 4096) →
    s.evr.margin + 128 * sectors < 786432 → Ends (.eraseAheadComplete sectors true) s (fun t =>
      (∀ k a, k < n → a < 4096 → t.norByte (0x400000 + 4096 * ((first + k) % 6144) + a) = 0xFF) ∧
      (∀ x, (∀ k, k < n → x < 0x400000 + 4096 * ((first + k) % 6144) ∨ 0x401000 + 4096 * ((first + k) % 6144) ≤ x) →
        t.norByte x = s.norByte x) ∧
      t.evr.margin = s.evr.margin + 128 * n ∧ t.fld F.EVR_RING_OLDEST_SLOT = 128 * ((first + n) % 6144) ∧
      OnlyIn [.regs, .evr, .nor] s t)) ∧
  (∀ (s : State) (sectors : Nat) (ok : Bool), s.canDrain = false ∨ (s.frozen = true ∧ 4096 ≤ s.evr.margin) ∨
    786432 ≤ s.evr.margin + 128 * sectors → exec (.eraseAheadComplete sectors ok) s = .next s)
end

