-- ==== Sys2Proof/Laws/FMap.lean ====
section
/-! SUPPORT. The laws of the sparse maps: reading after writing, and the canonical form. -/

namespace Sys2Proof

variable {α : Type} [DecidableEq α] (d : Nat → α)

omit [DecidableEq α] in
theorem fget_filter_ne (m : FMap α) (k j : Nat) (h : j ≠ k) :
    fget d (m.filter (fun e => e.1 != k)) j = fget d m j := by
  induction m with
  | nil => rfl
  | cons e t ih =>
    obtain ⟨a, v⟩ := e
    by_cases ha : a = k
    · subst ha
      simp only [List.filter_cons, bne_self_eq_false, Bool.false_eq_true, if_false, fget, ih]
      rw [if_neg (fun x => h x.symm)]
    · simp only [List.filter_cons, bne_iff_ne, ne_eq, ha, not_false_eq_true, if_true, fget, ih]

omit [DecidableEq α] in
theorem fget_filter_self (m : FMap α) (k : Nat) : fget d (m.filter (fun e => e.1 != k)) k = d k := by
  induction m with
  | nil => rfl
  | cons e t ih =>
    obtain ⟨a, v⟩ := e
    by_cases ha : a = k
    · subst ha
      simpa only [List.filter_cons, bne_self_eq_false, Bool.false_eq_true, if_false] using ih
    · simp only [List.filter_cons, bne_iff_ne, ne_eq, ha, not_false_eq_true, if_true, fget, if_false, ih]

omit [DecidableEq α] in
theorem fget_fins_ne (m : FMap α) (k j : Nat) (v : α) (h : j ≠ k) : fget d (fins k v m) j = fget d m j := by
  induction m with
  | nil => simp only [fins, fget]; rw [if_neg (fun x => h x.symm)]
  | cons e t ih =>
    obtain ⟨a, w⟩ := e
    by_cases hk : k < a
    · simp only [fins, hk, if_true, fget]; rw [if_neg (fun x => h x.symm)]
    · simp [fins, hk, fget, ih]

omit [DecidableEq α] in
theorem fget_fins_self (m : FMap α) (k : Nat) (v : α) (h : ∀ e ∈ m, e.1 ≠ k) : fget d (fins k v m) k = v := by
  induction m with
  | nil => simp [fins, fget]
  | cons e t ih =>
    obtain ⟨a, w⟩ := e
    have ha : a ≠ k := h (a, w) (List.mem_cons_self ..)
    by_cases hk : k < a
    · simp [fins, hk, fget]
    · simp [fins, hk, fget, ha, ih (fun e he => h e (List.mem_cons_of_mem _ he))]

/-- Reading the key just written gives the value written. -/
@[simp] theorem fget_fset_self (m : FMap α) (k : Nat) (v : α) : fget d (fset d m k v) k = v := by
  unfold fset
  by_cases h : v = d k
  · simp only [h, if_true]; exact fget_filter_self d m k
  · simp only [h, if_false]
    exact fget_fins_self d _ k v (fun e he => by simpa using (List.mem_filter.mp he).2)

/-- Writing a key leaves every other key as it was. -/
theorem fget_fset_ne (m : FMap α) (k j : Nat) (v : α) (h : j ≠ k) : fget d (fset d m k v) j = fget d m j := by
  unfold fset
  by_cases hv : v = d k
  · simp only [hv, if_true]; exact fget_filter_ne d m k j h
  · simp only [hv, if_false]; rw [fget_fins_ne d _ k j v h, fget_filter_ne d m k j h]

theorem fget_fset (m : FMap α) (k j : Nat) (v : α) :
    fget d (fset d m k v) j = if j = k then v else fget d m j := by
  by_cases h : j = k
  · subst h; simp
  · simp only [h, if_false]; exact fget_fset_ne d m k j v h

omit [DecidableEq α] in
/-- A cleared key reads as if it had never been listed; every other key is as it was. -/
theorem fget_fclear (m : FMap α) (lo hi j : Nat) :
    fget d (fclear m lo hi) j = if lo ≤ j ∧ j < hi then d j else fget d m j := by
  induction m with
  | nil => simp [fclear, fget]
  | cons e t ih =>
    obtain ⟨a, v⟩ := e
    unfold fclear at ih ⊢
    by_cases hk : a < lo ∨ hi ≤ a
    · have : (decide (a < lo) || decide (hi ≤ a)) = true := by simpa using hk
      simp only [List.filter_cons, this, if_true, fget, ih]
      by_cases ha : a = j
      · subst ha
        have : ¬ (lo ≤ a ∧ a < hi) := by omega
        simp [this]
      · simp [ha]
    · have : (decide (a < lo) || decide (hi ≤ a)) = false := by simpa using hk
      simp only [List.filter_cons, this, Bool.false_eq_true, if_false, fget, ih]
      by_cases ha : a = j
      · subst ha
        have h2 : lo ≤ a ∧ a < hi := by omega
        simp [h2]
      · simp [ha]

/-! ### The canonical form -/

theorem fwf_cons (k : Nat) (v : α) (t : FMap α) :
    fwf d ((k, v) :: t) = true ↔ v ≠ d k ∧ (∀ e ∈ t, k < e.1) ∧ fwf d t = true := by
  induction t generalizing k v with
  | nil => simp [fwf]
  | cons e t ih =>
    obtain ⟨a, w⟩ := e
    simp only [fwf, Bool.and_eq_true, decide_eq_true_eq]
    constructor
    · rintro ⟨⟨h1, h2⟩, h3⟩
      refine ⟨h1, fun e he => ?_, h3⟩
      rcases List.mem_cons.mp he with rfl | he
      · exact h2
      · exact Nat.lt_trans h2 (((ih a w).mp h3).2.1 e he)
    · rintro ⟨h1, h2, h3⟩
      exact ⟨⟨h1, h2 (a, w) (List.mem_cons_self ..)⟩, h3⟩

theorem fwf_filter (p : Nat × α → Bool) (m : FMap α) (h : fwf d m = true) : fwf d (m.filter p) = true := by
  induction m with
  | nil => rfl
  | cons e t ih =>
    obtain ⟨a, v⟩ := e
    obtain ⟨h1, h2, h3⟩ := (fwf_cons d a v t).mp h
    by_cases hp : p (a, v) = true
    · simp only [List.filter_cons, hp, if_true]
      exact (fwf_cons d a v _).mpr ⟨h1, fun e he => h2 e (List.mem_filter.mp he).1, ih h3⟩
    · simp only [List.filter_cons, hp]; exact ih h3

omit [DecidableEq α] in
theorem mem_fins (m : FMap α) (k : Nat) (v : α) (e : Nat × α) (h : e ∈ fins k v m) : e = (k, v) ∨ e ∈ m := by
  induction m with
  | nil => simpa [fins] using h
  | cons f t ih =>
    obtain ⟨a, w⟩ := f
    by_cases hk : k < a
    · simpa [fins, hk] using h
    · simp only [fins, hk, if_false, List.mem_cons] at h
      rcases h with h | h
      · exact .inr (List.mem_cons.mpr (.inl h))
      · rcases ih h with h | h
        · exact .inl h
        · exact .inr (List.mem_cons_of_mem _ h)

theorem fwf_fins (m : FMap α) (k : Nat) (v : α) (hv : v ≠ d k) (hm : ∀ e ∈ m, e.1 ≠ k) (h : fwf d m = true) :
    fwf d (fins k v m) = true := by
  induction m with
  | nil => simp [fins, fwf, hv]
  | cons e t ih =>
    obtain ⟨a, w⟩ := e
    obtain ⟨h1, h2, h3⟩ := (fwf_cons d a w t).mp h
    have ha : a ≠ k := hm (a, w) (List.mem_cons_self ..)
    by_cases hk : k < a
    · simp only [fins, hk, if_true]
      refine (fwf_cons d k v _).mpr ⟨hv, fun e he => ?_, h⟩
      rcases List.mem_cons.mp he with rfl | he
      · exact hk
      · exact Nat.lt_trans hk (h2 e he)
    · simp only [fins, hk, if_false]
      refine (fwf_cons d a w _).mpr ⟨h1, fun e he => ?_, ih (fun e he => hm e (List.mem_cons_of_mem _ he)) h3⟩
      rcases mem_fins t k v e he with rfl | he
      · show a < k; omega
      · exact h2 e he

/-- A write keeps the canonical form. -/
theorem fwf_fset (m : FMap α) (k : Nat) (v : α) (h : fwf d m = true) : fwf d (fset d m k v) = true := by
  unfold fset
  by_cases hv : v = d k
  · simp only [hv, if_true]; exact fwf_filter d _ m h
  · simp only [hv, if_false]
    exact fwf_fins d _ k v hv (fun e he => by simpa using (List.mem_filter.mp he).2) (fwf_filter d _ m h)

theorem fwf_fmod (m : FMap α) (k : Nat) (f : α → α) (h : fwf d m = true) : fwf d (fmod d m k f) = true :=
  fwf_fset d m k _ h

theorem fwf_fclear (m : FMap α) (lo hi : Nat) (h : fwf d m = true) : fwf d (fclear m lo hi) = true :=
  fwf_filter d _ m h

theorem fwf_fsetAll (m : FMap α) (ks : List Nat) (v : α) (h : fwf d m = true) : fwf d (fsetAll d m ks v) = true := by
  unfold fsetAll
  induction ks generalizing m with
  | nil => exact h
  | cons k t ih => exact ih _ (fwf_fset d m k v h)

/-- Writing a list of bytes from a key on keeps the canonical form. -/
theorem fwf_foldl_fset {β : Type} (key : β → Nat) (val : FMap α → β → α) (l : List β) (m : FMap α) (h : fwf d m = true) :
    fwf d (l.foldl (fun m b => fset d m (key b) (val m b)) m) = true := by
  induction l generalizing m with
  | nil => exact h
  | cons b t ih => exact ih _ (fwf_fset d m _ _ h)

end Sys2Proof
end

