-- ==== Sys2Proof/Laws/Regs.lean ====
section
/-! SUPPORT. Reading a register or a field after writing one. -/

namespace Sys2Proof

/-- A field just written reads as the value, cut to its width. -/
theorem bitsOf_setBits_self (w hi lo v : Nat) (h : lo ≤ hi) :
    bitsOf (setBits w hi lo v) hi lo = v % 2 ^ (hi + 1 - lo) := by
  unfold bitsOf setBits
  have e : 2 ^ (hi + 1) = 2 ^ lo * 2 ^ (hi + 1 - lo) := by
    rw [← Nat.pow_add]; congr 1; omega
  have hp : 0 < 2 ^ lo := Nat.two_pow_pos _
  rw [e]
  generalize w / (2 ^ lo * 2 ^ (hi + 1 - lo)) = q
  have : q * (2 ^ lo * 2 ^ (hi + 1 - lo)) + v % 2 ^ (hi + 1 - lo) * 2 ^ lo + w % 2 ^ lo
      = w % 2 ^ lo + 2 ^ lo * (q * 2 ^ (hi + 1 - lo) + v % 2 ^ (hi + 1 - lo)) := by
    simp only [Nat.mul_add, Nat.mul_comm, Nat.mul_left_comm, Nat.add_comm, Nat.add_left_comm]
  rw [this, Nat.add_mul_div_left _ _ hp, Nat.div_eq_of_lt (Nat.mod_lt _ hp), Nat.zero_add,
    Nat.add_comm, Nat.add_mul_mod_self_right, Nat.mod_mod]

/-- Writing a field leaves the bits above and below it. -/
theorem testBit_setBits (w hi lo v b : Nat) (h : lo ≤ hi) :
    (setBits w hi lo v).testBit b = if lo ≤ b ∧ b ≤ hi then v.testBit (b - lo) else w.testBit b := by
  unfold setBits
  have hp : w % 2 ^ lo < 2 ^ lo := Nat.mod_lt _ (Nat.two_pow_pos _)
  have hq : v % 2 ^ (hi + 1 - lo) * 2 ^ lo + w % 2 ^ lo < 2 ^ (hi + 1) := by
    have e : 2 ^ (hi + 1) = 2 ^ (hi + 1 - lo) * 2 ^ lo := by rw [← Nat.pow_add]; congr 1; omega
    have : v % 2 ^ (hi + 1 - lo) < 2 ^ (hi + 1 - lo) := Nat.mod_lt _ (Nat.two_pow_pos _)
    have h2 := Nat.mul_le_mul_right (2 ^ lo) (Nat.succ_le_of_lt this)
    rw [Nat.succ_mul] at h2
    rw [e]; omega
  rw [Nat.add_assoc, Nat.mul_comm (w / 2 ^ (hi + 1)), Nat.testBit_two_pow_mul_add _ hq,
    Nat.mul_comm (v % _), Nat.testBit_two_pow_mul_add _ hp]
  by_cases h1 : b < hi + 1
  · by_cases h2 : b < lo
    · have : ¬ (lo ≤ b ∧ b ≤ hi) := by omega
      simp [h1, h2, this, Nat.testBit_mod_two_pow]
    · have h3 : lo ≤ b ∧ b ≤ hi := by omega
      have h4 : b - lo < hi + 1 - lo := by omega
      simp [h1, h2, h3, Nat.testBit_mod_two_pow, h4]
  · have : ¬ (lo ≤ b ∧ b ≤ hi) := by omega
    simp only [h1, this, if_false, Nat.testBit_div_two_pow]
    congr 1; omega

theorem testBit_bitsOf (w hi lo b : Nat) : (bitsOf w hi lo).testBit b = (decide (b < hi + 1 - lo) && w.testBit (b + lo)) := by
  unfold bitsOf
  rw [Nat.testBit_mod_two_pow, Nat.testBit_div_two_pow]

/-- A field that does not meet the one written reads as before. -/
theorem bitsOf_setBits_disjoint (w hi lo v hi' lo' : Nat) (h : lo ≤ hi) (hd : hi' < lo ∨ hi < lo') :
    bitsOf (setBits w hi lo v) hi' lo' = bitsOf w hi' lo' := by
  apply Nat.eq_of_testBit_eq
  intro b
  rw [testBit_bitsOf, testBit_bitsOf, testBit_setBits _ _ _ _ _ h]
  by_cases hb : b < hi' + 1 - lo'
  · have : ¬ (lo ≤ b + lo' ∧ b + lo' ≤ hi) := by omega
    simp [this]
  · simp [hb]

theorem setBits_lt (w hi lo v n : Nat) (h : lo ≤ hi) (hn : hi < n) (hw : w < 2 ^ n) : setBits w hi lo v < 2 ^ n := by
  apply Nat.lt_pow_two_of_testBit
  intro i hi'
  rw [testBit_setBits _ _ _ _ _ h]
  have : ¬ (lo ≤ i ∧ i ≤ hi) := by omega
  simp only [this, if_false]
  exact Nat.testBit_lt_two_pow (Nat.lt_of_lt_of_le hw (Nat.pow_le_pow_right (by decide) hi'))

end Sys2Proof

namespace Sys2Proof.Machine

variable (s : State)

/-- A register reads as what was last written to it. -/
@[simp] theorem reg_setReg_self (a : Nat) (v : Word) : (s.setReg a v).reg a = v := fget_fset_self _ _ _ _

/-- A write leaves every other register. -/
theorem reg_setReg_ne (a b : Nat) (v : Word) (h : b ≠ a) : (s.setReg a v).reg b = s.reg b := fget_fset_ne _ _ _ _ _ h

theorem reg_setReg (a b : Nat) (v : Word) : (s.setReg a v).reg b = if b = a then v else s.reg b := fget_fset _ _ _ _ _

theorem reg_setFld_ne (f : Fld) (v b : Nat) (h : b ≠ f.addr) : (s.setFld f v).reg b = s.reg b := reg_setReg_ne s _ _ _ h

/-- A field reads as what was last written to it, cut to its width. -/
theorem fld_setFld_self (f : Fld) (v : Nat) (h : f.lo ≤ f.hi) (h32 : f.hi < 32) :
    (s.setFld f v).fld f = v % 2 ^ (f.hi + 1 - f.lo) := by
  unfold State.fld State.setFld
  rw [reg_setReg_self, BitVec.toNat_ofNat, Nat.mod_eq_of_lt, bitsOf_setBits_self _ _ _ _ h]
  exact setBits_lt _ _ _ _ 32 h h32 (BitVec.isLt _)

/-- Writing a field leaves the fields of every other register. -/
theorem fld_setFld_ne (f g : Fld) (v : Nat) (h : g.addr ≠ f.addr) : (s.setFld f v).fld g = s.fld g := by
  unfold State.fld; rw [reg_setFld_ne s f v _ h]

/-- Writing a field leaves the fields of its register that it does not meet. -/
theorem fld_setFld_disjoint (f g : Fld) (v : Nat) (ha : g.addr = f.addr) (h : f.lo ≤ f.hi) (h32 : f.hi < 32)
    (hd : g.hi < f.lo ∨ f.hi < g.lo) : (s.setFld f v).fld g = s.fld g := by
  unfold State.fld State.setFld
  rw [ha, reg_setReg_self, BitVec.toNat_ofNat, Nat.mod_eq_of_lt, bitsOf_setBits_disjoint _ _ _ _ _ _ h hd]
  exact setBits_lt _ _ _ _ 32 h h32 (BitVec.isLt _)

theorem fld_setReg_ne (a : Nat) (v : Word) (g : Fld) (h : g.addr ≠ a) : (s.setReg a v).fld g = s.fld g := by
  unfold State.fld; rw [reg_setReg_ne s a _ v h]

theorem reg_addFld_ne (f : Fld) (n b : Nat) (h : b ≠ f.addr) : (s.addFld f n).reg b = s.reg b := reg_setFld_ne s f _ b h
theorem reg_bump_ne (f : Fld) (b : Nat) (h : b ≠ f.addr) : (s.bump f).reg b = s.reg b := reg_setFld_ne s f _ b h
theorem reg_setBit_ne (f : Fld) (v : Bool) (b : Nat) (h : b ≠ f.addr) : (s.setBit f v).reg b = s.reg b := reg_setFld_ne s f _ b h
theorem fld_addFld_ne (f g : Fld) (n : Nat) (h : g.addr ≠ f.addr) : (s.addFld f n).fld g = s.fld g := fld_setFld_ne s f g _ h
theorem fld_bump_ne (f g : Fld) (h : g.addr ≠ f.addr) : (s.bump f).fld g = s.fld g := fld_setFld_ne s f g _ h
theorem fld_setBit_ne (f g : Fld) (v : Bool) (h : g.addr ≠ f.addr) : (s.setBit f v).fld g = s.fld g := fld_setFld_ne s f g _ h

theorem fld_lt (f : Fld) : s.fld f < 2 ^ (f.hi + 1 - f.lo) := Nat.mod_lt _ (Nat.two_pow_pos _)

/-- A saturating counter counts `n` events, up to its largest value. -/
theorem fld_addFld_self (f : Fld) (n : Nat) (h : f.lo ≤ f.hi) (h32 : f.hi < 32) :
    (s.addFld f n).fld f = min (s.fld f + n) (2 ^ (f.hi + 1 - f.lo) - 1) := by
  unfold State.addFld
  rw [fld_setFld_self s f _ h h32, Nat.mod_eq_of_lt]
  have := Nat.two_pow_pos (f.hi + 1 - f.lo)
  omega

theorem fld_bump_self (f : Fld) (h : f.lo ≤ f.hi) (h32 : f.hi < 32) :
    (s.bump f).fld f = min (s.fld f + 1) (2 ^ (f.hi + 1 - f.lo) - 1) := fld_addFld_self s f 1 h h32

/-- A LO and HI pair reads as the value written, cut to 64 bits. -/
theorem pair_setPair_self (lo hi v : Nat) (h : lo ≠ hi) : (s.setPair lo hi v).pair lo hi = v % 2 ^ 64 := by
  unfold State.pair State.setPair
  rw [reg_setReg_self, reg_setReg_ne _ _ _ _ h, reg_setReg_self, BitVec.toNat_ofNat, BitVec.toNat_ofNat]
  omega

theorem reg_setPair_ne (lo hi v b : Nat) (h1 : b ≠ lo) (h2 : b ≠ hi) : (s.setPair lo hi v).reg b = s.reg b := by
  unfold State.setPair
  rw [reg_setReg_ne _ _ _ _ h2, reg_setReg_ne _ _ _ _ h1]

theorem fld_setPair_ne (lo hi v : Nat) (g : Fld) (h1 : g.addr ≠ lo) (h2 : g.addr ≠ hi) :
    (s.setPair lo hi v).fld g = s.fld g := by
  unfold State.fld; rw [reg_setPair_ne s lo hi v _ h1 h2]

/-- Registers put back to reset read as their reset values. -/
theorem reg_resetRegs (lo hi b : Nat) :
    (s.resetRegs lo hi).reg b = if lo ≤ b ∧ b < hi then regReset b else s.reg b := fget_fclear _ _ _ _ _

end Sys2Proof.Machine
end

