-- ==== Sys2Proof/Laws/State.lean ====
section
/-! SUPPORT. What each base update of the state leaves alone: one lemma per field per update, so that no proof unfolds a
record update. -/

namespace Sys2Proof.Machine

variable (s : State)

@[simp] theorem setReg_latch (a : Nat) (v : Word) : (s.setReg a v).latch = s.latch := (rfl)
@[simp] theorem setReg_fused (a : Nat) (v : Word) : (s.setReg a v).fused = s.fused := (rfl)
@[simp] theorem setReg_pwr (a : Nat) (v : Word) : (s.setReg a v).pwr = s.pwr := (rfl)
@[simp] theorem setReg_boot (a : Nat) (v : Word) : (s.setReg a v).boot = s.boot := (rfl)
@[simp] theorem setReg_tick (a : Nat) (v : Word) : (s.setReg a v).tick = s.tick := (rfl)
@[simp] theorem setReg_exm (a : Nat) (v : Word) : (s.setReg a v).exm = s.exm := (rfl)
@[simp] theorem setReg_ewb (a : Nat) (v : Word) : (s.setReg a v).ewb = s.ewb := (rfl)
@[simp] theorem setReg_flt (a : Nat) (v : Word) : (s.setReg a v).flt = s.flt := (rfl)
@[simp] theorem setReg_evr (a : Nat) (v : Word) : (s.setReg a v).evr = s.evr := (rfl)
@[simp] theorem setReg_frz (a : Nat) (v : Word) : (s.setReg a v).frz = s.frz := (rfl)
@[simp] theorem setReg_eng (a : Nat) (v : Word) : (s.setReg a v).eng = s.eng := (rfl)
@[simp] theorem setReg_qs (a : Nat) (v : Word) : (s.setReg a v).qs = s.qs := (rfl)
@[simp] theorem setReg_slices (a : Nat) (v : Word) : (s.setReg a v).slices = s.slices := (rfl)
@[simp] theorem setReg_sec (a : Nat) (v : Word) : (s.setReg a v).sec = s.sec := (rfl)
@[simp] theorem setReg_mem (a : Nat) (v : Word) : (s.setReg a v).mem = s.mem := (rfl)
@[simp] theorem setReg_sch (a : Nat) (v : Word) : (s.setReg a v).sch = s.sch := (rfl)
@[simp] theorem setReg_yar (a : Nat) (v : Word) : (s.setReg a v).yar = s.yar := (rfl)
@[simp] theorem setReg_ffe (a : Nat) (v : Word) : (s.setReg a v).ffe = s.ffe := (rfl)
@[simp] theorem setReg_tsl (a : Nat) (v : Word) : (s.setReg a v).tsl = s.tsl := (rfl)
@[simp] theorem setReg_cmp (a : Nat) (v : Word) : (s.setReg a v).cmp = s.cmp := (rfl)
@[simp] theorem setReg_sns (a : Nat) (v : Word) : (s.setReg a v).sns = s.sns := (rfl)
@[simp] theorem setReg_pci (a : Nat) (v : Word) : (s.setReg a v).pci = s.pci := (rfl)
@[simp] theorem setReg_clk (a : Nat) (v : Word) : (s.setReg a v).clk = s.clk := (rfl)
@[simp] theorem setReg_runClk (a : Nat) (v : Word) : (s.setReg a v).runClk = s.runClk := (rfl)
@[simp] theorem setReg_freeCount (a : Nat) (v : Word) : (s.setReg a v).freeCount = s.freeCount := (rfl)
@[simp] theorem setReg_out (a : Nat) (v : Word) : (s.setReg a v).out = s.out := (rfl)
@[simp] theorem setReg_pending (a : Nat) (v : Word) : (s.setReg a v).pending = s.pending := (rfl)

@[simp] theorem setFld_latch (f : Fld) (v : Nat) : (s.setFld f v).latch = s.latch := (rfl)
@[simp] theorem setFld_fused (f : Fld) (v : Nat) : (s.setFld f v).fused = s.fused := (rfl)
@[simp] theorem setFld_pwr (f : Fld) (v : Nat) : (s.setFld f v).pwr = s.pwr := (rfl)
@[simp] theorem setFld_boot (f : Fld) (v : Nat) : (s.setFld f v).boot = s.boot := (rfl)
@[simp] theorem setFld_tick (f : Fld) (v : Nat) : (s.setFld f v).tick = s.tick := (rfl)
@[simp] theorem setFld_exm (f : Fld) (v : Nat) : (s.setFld f v).exm = s.exm := (rfl)
@[simp] theorem setFld_ewb (f : Fld) (v : Nat) : (s.setFld f v).ewb = s.ewb := (rfl)
@[simp] theorem setFld_flt (f : Fld) (v : Nat) : (s.setFld f v).flt = s.flt := (rfl)
@[simp] theorem setFld_evr (f : Fld) (v : Nat) : (s.setFld f v).evr = s.evr := (rfl)
@[simp] theorem setFld_frz (f : Fld) (v : Nat) : (s.setFld f v).frz = s.frz := (rfl)
@[simp] theorem setFld_eng (f : Fld) (v : Nat) : (s.setFld f v).eng = s.eng := (rfl)
@[simp] theorem setFld_qs (f : Fld) (v : Nat) : (s.setFld f v).qs = s.qs := (rfl)
@[simp] theorem setFld_slices (f : Fld) (v : Nat) : (s.setFld f v).slices = s.slices := (rfl)
@[simp] theorem setFld_sec (f : Fld) (v : Nat) : (s.setFld f v).sec = s.sec := (rfl)
@[simp] theorem setFld_mem (f : Fld) (v : Nat) : (s.setFld f v).mem = s.mem := (rfl)
@[simp] theorem setFld_sch (f : Fld) (v : Nat) : (s.setFld f v).sch = s.sch := (rfl)
@[simp] theorem setFld_yar (f : Fld) (v : Nat) : (s.setFld f v).yar = s.yar := (rfl)
@[simp] theorem setFld_ffe (f : Fld) (v : Nat) : (s.setFld f v).ffe = s.ffe := (rfl)
@[simp] theorem setFld_tsl (f : Fld) (v : Nat) : (s.setFld f v).tsl = s.tsl := (rfl)
@[simp] theorem setFld_cmp (f : Fld) (v : Nat) : (s.setFld f v).cmp = s.cmp := (rfl)
@[simp] theorem setFld_sns (f : Fld) (v : Nat) : (s.setFld f v).sns = s.sns := (rfl)
@[simp] theorem setFld_pci (f : Fld) (v : Nat) : (s.setFld f v).pci = s.pci := (rfl)
@[simp] theorem setFld_clk (f : Fld) (v : Nat) : (s.setFld f v).clk = s.clk := (rfl)
@[simp] theorem setFld_runClk (f : Fld) (v : Nat) : (s.setFld f v).runClk = s.runClk := (rfl)
@[simp] theorem setFld_freeCount (f : Fld) (v : Nat) : (s.setFld f v).freeCount = s.freeCount := (rfl)
@[simp] theorem setFld_out (f : Fld) (v : Nat) : (s.setFld f v).out = s.out := (rfl)
@[simp] theorem setFld_pending (f : Fld) (v : Nat) : (s.setFld f v).pending = s.pending := (rfl)

@[simp] theorem setBit_latch (f : Fld) (v : Bool) : (s.setBit f v).latch = s.latch := (rfl)
@[simp] theorem setBit_fused (f : Fld) (v : Bool) : (s.setBit f v).fused = s.fused := (rfl)
@[simp] theorem setBit_pwr (f : Fld) (v : Bool) : (s.setBit f v).pwr = s.pwr := (rfl)
@[simp] theorem setBit_boot (f : Fld) (v : Bool) : (s.setBit f v).boot = s.boot := (rfl)
@[simp] theorem setBit_tick (f : Fld) (v : Bool) : (s.setBit f v).tick = s.tick := (rfl)
@[simp] theorem setBit_exm (f : Fld) (v : Bool) : (s.setBit f v).exm = s.exm := (rfl)
@[simp] theorem setBit_ewb (f : Fld) (v : Bool) : (s.setBit f v).ewb = s.ewb := (rfl)
@[simp] theorem setBit_flt (f : Fld) (v : Bool) : (s.setBit f v).flt = s.flt := (rfl)
@[simp] theorem setBit_evr (f : Fld) (v : Bool) : (s.setBit f v).evr = s.evr := (rfl)
@[simp] theorem setBit_frz (f : Fld) (v : Bool) : (s.setBit f v).frz = s.frz := (rfl)
@[simp] theorem setBit_eng (f : Fld) (v : Bool) : (s.setBit f v).eng = s.eng := (rfl)
@[simp] theorem setBit_qs (f : Fld) (v : Bool) : (s.setBit f v).qs = s.qs := (rfl)
@[simp] theorem setBit_slices (f : Fld) (v : Bool) : (s.setBit f v).slices = s.slices := (rfl)
@[simp] theorem setBit_sec (f : Fld) (v : Bool) : (s.setBit f v).sec = s.sec := (rfl)
@[simp] theorem setBit_mem (f : Fld) (v : Bool) : (s.setBit f v).mem = s.mem := (rfl)
@[simp] theorem setBit_sch (f : Fld) (v : Bool) : (s.setBit f v).sch = s.sch := (rfl)
@[simp] theorem setBit_yar (f : Fld) (v : Bool) : (s.setBit f v).yar = s.yar := (rfl)
@[simp] theorem setBit_ffe (f : Fld) (v : Bool) : (s.setBit f v).ffe = s.ffe := (rfl)
@[simp] theorem setBit_tsl (f : Fld) (v : Bool) : (s.setBit f v).tsl = s.tsl := (rfl)
@[simp] theorem setBit_cmp (f : Fld) (v : Bool) : (s.setBit f v).cmp = s.cmp := (rfl)
@[simp] theorem setBit_sns (f : Fld) (v : Bool) : (s.setBit f v).sns = s.sns := (rfl)
@[simp] theorem setBit_pci (f : Fld) (v : Bool) : (s.setBit f v).pci = s.pci := (rfl)
@[simp] theorem setBit_clk (f : Fld) (v : Bool) : (s.setBit f v).clk = s.clk := (rfl)
@[simp] theorem setBit_runClk (f : Fld) (v : Bool) : (s.setBit f v).runClk = s.runClk := (rfl)
@[simp] theorem setBit_freeCount (f : Fld) (v : Bool) : (s.setBit f v).freeCount = s.freeCount := (rfl)
@[simp] theorem setBit_out (f : Fld) (v : Bool) : (s.setBit f v).out = s.out := (rfl)
@[simp] theorem setBit_pending (f : Fld) (v : Bool) : (s.setBit f v).pending = s.pending := (rfl)

@[simp] theorem addFld_latch (f : Fld) (n : Nat) : (s.addFld f n).latch = s.latch := (rfl)
@[simp] theorem addFld_fused (f : Fld) (n : Nat) : (s.addFld f n).fused = s.fused := (rfl)
@[simp] theorem addFld_pwr (f : Fld) (n : Nat) : (s.addFld f n).pwr = s.pwr := (rfl)
@[simp] theorem addFld_boot (f : Fld) (n : Nat) : (s.addFld f n).boot = s.boot := (rfl)
@[simp] theorem addFld_tick (f : Fld) (n : Nat) : (s.addFld f n).tick = s.tick := (rfl)
@[simp] theorem addFld_exm (f : Fld) (n : Nat) : (s.addFld f n).exm = s.exm := (rfl)
@[simp] theorem addFld_ewb (f : Fld) (n : Nat) : (s.addFld f n).ewb = s.ewb := (rfl)
@[simp] theorem addFld_flt (f : Fld) (n : Nat) : (s.addFld f n).flt = s.flt := (rfl)
@[simp] theorem addFld_evr (f : Fld) (n : Nat) : (s.addFld f n).evr = s.evr := (rfl)
@[simp] theorem addFld_frz (f : Fld) (n : Nat) : (s.addFld f n).frz = s.frz := (rfl)
@[simp] theorem addFld_eng (f : Fld) (n : Nat) : (s.addFld f n).eng = s.eng := (rfl)
@[simp] theorem addFld_qs (f : Fld) (n : Nat) : (s.addFld f n).qs = s.qs := (rfl)
@[simp] theorem addFld_slices (f : Fld) (n : Nat) : (s.addFld f n).slices = s.slices := (rfl)
@[simp] theorem addFld_sec (f : Fld) (n : Nat) : (s.addFld f n).sec = s.sec := (rfl)
@[simp] theorem addFld_mem (f : Fld) (n : Nat) : (s.addFld f n).mem = s.mem := (rfl)
@[simp] theorem addFld_sch (f : Fld) (n : Nat) : (s.addFld f n).sch = s.sch := (rfl)
@[simp] theorem addFld_yar (f : Fld) (n : Nat) : (s.addFld f n).yar = s.yar := (rfl)
@[simp] theorem addFld_ffe (f : Fld) (n : Nat) : (s.addFld f n).ffe = s.ffe := (rfl)
@[simp] theorem addFld_tsl (f : Fld) (n : Nat) : (s.addFld f n).tsl = s.tsl := (rfl)
@[simp] theorem addFld_cmp (f : Fld) (n : Nat) : (s.addFld f n).cmp = s.cmp := (rfl)
@[simp] theorem addFld_sns (f : Fld) (n : Nat) : (s.addFld f n).sns = s.sns := (rfl)
@[simp] theorem addFld_pci (f : Fld) (n : Nat) : (s.addFld f n).pci = s.pci := (rfl)
@[simp] theorem addFld_clk (f : Fld) (n : Nat) : (s.addFld f n).clk = s.clk := (rfl)
@[simp] theorem addFld_runClk (f : Fld) (n : Nat) : (s.addFld f n).runClk = s.runClk := (rfl)
@[simp] theorem addFld_freeCount (f : Fld) (n : Nat) : (s.addFld f n).freeCount = s.freeCount := (rfl)
@[simp] theorem addFld_out (f : Fld) (n : Nat) : (s.addFld f n).out = s.out := (rfl)
@[simp] theorem addFld_pending (f : Fld) (n : Nat) : (s.addFld f n).pending = s.pending := (rfl)

@[simp] theorem bump_latch (f : Fld) : (s.bump f).latch = s.latch := (rfl)
@[simp] theorem bump_fused (f : Fld) : (s.bump f).fused = s.fused := (rfl)
@[simp] theorem bump_pwr (f : Fld) : (s.bump f).pwr = s.pwr := (rfl)
@[simp] theorem bump_boot (f : Fld) : (s.bump f).boot = s.boot := (rfl)
@[simp] theorem bump_tick (f : Fld) : (s.bump f).tick = s.tick := (rfl)
@[simp] theorem bump_exm (f : Fld) : (s.bump f).exm = s.exm := (rfl)
@[simp] theorem bump_ewb (f : Fld) : (s.bump f).ewb = s.ewb := (rfl)
@[simp] theorem bump_flt (f : Fld) : (s.bump f).flt = s.flt := (rfl)
@[simp] theorem bump_evr (f : Fld) : (s.bump f).evr = s.evr := (rfl)
@[simp] theorem bump_frz (f : Fld) : (s.bump f).frz = s.frz := (rfl)
@[simp] theorem bump_eng (f : Fld) : (s.bump f).eng = s.eng := (rfl)
@[simp] theorem bump_qs (f : Fld) : (s.bump f).qs = s.qs := (rfl)
@[simp] theorem bump_slices (f : Fld) : (s.bump f).slices = s.slices := (rfl)
@[simp] theorem bump_sec (f : Fld) : (s.bump f).sec = s.sec := (rfl)
@[simp] theorem bump_mem (f : Fld) : (s.bump f).mem = s.mem := (rfl)
@[simp] theorem bump_sch (f : Fld) : (s.bump f).sch = s.sch := (rfl)
@[simp] theorem bump_yar (f : Fld) : (s.bump f).yar = s.yar := (rfl)
@[simp] theorem bump_ffe (f : Fld) : (s.bump f).ffe = s.ffe := (rfl)
@[simp] theorem bump_tsl (f : Fld) : (s.bump f).tsl = s.tsl := (rfl)
@[simp] theorem bump_cmp (f : Fld) : (s.bump f).cmp = s.cmp := (rfl)
@[simp] theorem bump_sns (f : Fld) : (s.bump f).sns = s.sns := (rfl)
@[simp] theorem bump_pci (f : Fld) : (s.bump f).pci = s.pci := (rfl)
@[simp] theorem bump_clk (f : Fld) : (s.bump f).clk = s.clk := (rfl)
@[simp] theorem bump_runClk (f : Fld) : (s.bump f).runClk = s.runClk := (rfl)
@[simp] theorem bump_freeCount (f : Fld) : (s.bump f).freeCount = s.freeCount := (rfl)
@[simp] theorem bump_out (f : Fld) : (s.bump f).out = s.out := (rfl)
@[simp] theorem bump_pending (f : Fld) : (s.bump f).pending = s.pending := (rfl)

@[simp] theorem resetReg_latch (a : Nat) : (s.resetReg a).latch = s.latch := (rfl)
@[simp] theorem resetReg_fused (a : Nat) : (s.resetReg a).fused = s.fused := (rfl)
@[simp] theorem resetReg_pwr (a : Nat) : (s.resetReg a).pwr = s.pwr := (rfl)
@[simp] theorem resetReg_boot (a : Nat) : (s.resetReg a).boot = s.boot := (rfl)
@[simp] theorem resetReg_tick (a : Nat) : (s.resetReg a).tick = s.tick := (rfl)
@[simp] theorem resetReg_exm (a : Nat) : (s.resetReg a).exm = s.exm := (rfl)
@[simp] theorem resetReg_ewb (a : Nat) : (s.resetReg a).ewb = s.ewb := (rfl)
@[simp] theorem resetReg_flt (a : Nat) : (s.resetReg a).flt = s.flt := (rfl)
@[simp] theorem resetReg_evr (a : Nat) : (s.resetReg a).evr = s.evr := (rfl)
@[simp] theorem resetReg_frz (a : Nat) : (s.resetReg a).frz = s.frz := (rfl)
@[simp] theorem resetReg_eng (a : Nat) : (s.resetReg a).eng = s.eng := (rfl)
@[simp] theorem resetReg_qs (a : Nat) : (s.resetReg a).qs = s.qs := (rfl)
@[simp] theorem resetReg_slices (a : Nat) : (s.resetReg a).slices = s.slices := (rfl)
@[simp] theorem resetReg_sec (a : Nat) : (s.resetReg a).sec = s.sec := (rfl)
@[simp] theorem resetReg_mem (a : Nat) : (s.resetReg a).mem = s.mem := (rfl)
@[simp] theorem resetReg_sch (a : Nat) : (s.resetReg a).sch = s.sch := (rfl)
@[simp] theorem resetReg_yar (a : Nat) : (s.resetReg a).yar = s.yar := (rfl)
@[simp] theorem resetReg_ffe (a : Nat) : (s.resetReg a).ffe = s.ffe := (rfl)
@[simp] theorem resetReg_tsl (a : Nat) : (s.resetReg a).tsl = s.tsl := (rfl)
@[simp] theorem resetReg_cmp (a : Nat) : (s.resetReg a).cmp = s.cmp := (rfl)
@[simp] theorem resetReg_sns (a : Nat) : (s.resetReg a).sns = s.sns := (rfl)
@[simp] theorem resetReg_pci (a : Nat) : (s.resetReg a).pci = s.pci := (rfl)
@[simp] theorem resetReg_clk (a : Nat) : (s.resetReg a).clk = s.clk := (rfl)
@[simp] theorem resetReg_runClk (a : Nat) : (s.resetReg a).runClk = s.runClk := (rfl)
@[simp] theorem resetReg_freeCount (a : Nat) : (s.resetReg a).freeCount = s.freeCount := (rfl)
@[simp] theorem resetReg_out (a : Nat) : (s.resetReg a).out = s.out := (rfl)
@[simp] theorem resetReg_pending (a : Nat) : (s.resetReg a).pending = s.pending := (rfl)

@[simp] theorem resetRegs_latch (a b : Nat) : (s.resetRegs a b).latch = s.latch := (rfl)
@[simp] theorem resetRegs_fused (a b : Nat) : (s.resetRegs a b).fused = s.fused := (rfl)
@[simp] theorem resetRegs_pwr (a b : Nat) : (s.resetRegs a b).pwr = s.pwr := (rfl)
@[simp] theorem resetRegs_boot (a b : Nat) : (s.resetRegs a b).boot = s.boot := (rfl)
@[simp] theorem resetRegs_tick (a b : Nat) : (s.resetRegs a b).tick = s.tick := (rfl)
@[simp] theorem resetRegs_exm (a b : Nat) : (s.resetRegs a b).exm = s.exm := (rfl)
@[simp] theorem resetRegs_ewb (a b : Nat) : (s.resetRegs a b).ewb = s.ewb := (rfl)
@[simp] theorem resetRegs_flt (a b : Nat) : (s.resetRegs a b).flt = s.flt := (rfl)
@[simp] theorem resetRegs_evr (a b : Nat) : (s.resetRegs a b).evr = s.evr := (rfl)
@[simp] theorem resetRegs_frz (a b : Nat) : (s.resetRegs a b).frz = s.frz := (rfl)
@[simp] theorem resetRegs_eng (a b : Nat) : (s.resetRegs a b).eng = s.eng := (rfl)
@[simp] theorem resetRegs_qs (a b : Nat) : (s.resetRegs a b).qs = s.qs := (rfl)
@[simp] theorem resetRegs_slices (a b : Nat) : (s.resetRegs a b).slices = s.slices := (rfl)
@[simp] theorem resetRegs_sec (a b : Nat) : (s.resetRegs a b).sec = s.sec := (rfl)
@[simp] theorem resetRegs_mem (a b : Nat) : (s.resetRegs a b).mem = s.mem := (rfl)
@[simp] theorem resetRegs_sch (a b : Nat) : (s.resetRegs a b).sch = s.sch := (rfl)
@[simp] theorem resetRegs_yar (a b : Nat) : (s.resetRegs a b).yar = s.yar := (rfl)
@[simp] theorem resetRegs_ffe (a b : Nat) : (s.resetRegs a b).ffe = s.ffe := (rfl)
@[simp] theorem resetRegs_tsl (a b : Nat) : (s.resetRegs a b).tsl = s.tsl := (rfl)
@[simp] theorem resetRegs_cmp (a b : Nat) : (s.resetRegs a b).cmp = s.cmp := (rfl)
@[simp] theorem resetRegs_sns (a b : Nat) : (s.resetRegs a b).sns = s.sns := (rfl)
@[simp] theorem resetRegs_pci (a b : Nat) : (s.resetRegs a b).pci = s.pci := (rfl)
@[simp] theorem resetRegs_clk (a b : Nat) : (s.resetRegs a b).clk = s.clk := (rfl)
@[simp] theorem resetRegs_runClk (a b : Nat) : (s.resetRegs a b).runClk = s.runClk := (rfl)
@[simp] theorem resetRegs_freeCount (a b : Nat) : (s.resetRegs a b).freeCount = s.freeCount := (rfl)
@[simp] theorem resetRegs_out (a b : Nat) : (s.resetRegs a b).out = s.out := (rfl)
@[simp] theorem resetRegs_pending (a b : Nat) : (s.resetRegs a b).pending = s.pending := (rfl)

@[simp] theorem setPair_latch (a b v : Nat) : (s.setPair a b v).latch = s.latch := (rfl)
@[simp] theorem setPair_fused (a b v : Nat) : (s.setPair a b v).fused = s.fused := (rfl)
@[simp] theorem setPair_pwr (a b v : Nat) : (s.setPair a b v).pwr = s.pwr := (rfl)
@[simp] theorem setPair_boot (a b v : Nat) : (s.setPair a b v).boot = s.boot := (rfl)
@[simp] theorem setPair_tick (a b v : Nat) : (s.setPair a b v).tick = s.tick := (rfl)
@[simp] theorem setPair_exm (a b v : Nat) : (s.setPair a b v).exm = s.exm := (rfl)
@[simp] theorem setPair_ewb (a b v : Nat) : (s.setPair a b v).ewb = s.ewb := (rfl)
@[simp] theorem setPair_flt (a b v : Nat) : (s.setPair a b v).flt = s.flt := (rfl)
@[simp] theorem setPair_evr (a b v : Nat) : (s.setPair a b v).evr = s.evr := (rfl)
@[simp] theorem setPair_frz (a b v : Nat) : (s.setPair a b v).frz = s.frz := (rfl)
@[simp] theorem setPair_eng (a b v : Nat) : (s.setPair a b v).eng = s.eng := (rfl)
@[simp] theorem setPair_qs (a b v : Nat) : (s.setPair a b v).qs = s.qs := (rfl)
@[simp] theorem setPair_slices (a b v : Nat) : (s.setPair a b v).slices = s.slices := (rfl)
@[simp] theorem setPair_sec (a b v : Nat) : (s.setPair a b v).sec = s.sec := (rfl)
@[simp] theorem setPair_mem (a b v : Nat) : (s.setPair a b v).mem = s.mem := (rfl)
@[simp] theorem setPair_sch (a b v : Nat) : (s.setPair a b v).sch = s.sch := (rfl)
@[simp] theorem setPair_yar (a b v : Nat) : (s.setPair a b v).yar = s.yar := (rfl)
@[simp] theorem setPair_ffe (a b v : Nat) : (s.setPair a b v).ffe = s.ffe := (rfl)
@[simp] theorem setPair_tsl (a b v : Nat) : (s.setPair a b v).tsl = s.tsl := (rfl)
@[simp] theorem setPair_cmp (a b v : Nat) : (s.setPair a b v).cmp = s.cmp := (rfl)
@[simp] theorem setPair_sns (a b v : Nat) : (s.setPair a b v).sns = s.sns := (rfl)
@[simp] theorem setPair_pci (a b v : Nat) : (s.setPair a b v).pci = s.pci := (rfl)
@[simp] theorem setPair_clk (a b v : Nat) : (s.setPair a b v).clk = s.clk := (rfl)
@[simp] theorem setPair_runClk (a b v : Nat) : (s.setPair a b v).runClk = s.runClk := (rfl)
@[simp] theorem setPair_freeCount (a b v : Nat) : (s.setPair a b v).freeCount = s.freeCount := (rfl)
@[simp] theorem setPair_out (a b v : Nat) : (s.setPair a b v).out = s.out := (rfl)
@[simp] theorem setPair_pending (a b v : Nat) : (s.setPair a b v).pending = s.pending := (rfl)

@[simp] theorem emit_latch (o : Output) : (s.emit o).latch = s.latch := (rfl)
@[simp] theorem emit_fused (o : Output) : (s.emit o).fused = s.fused := (rfl)
@[simp] theorem emit_pwr (o : Output) : (s.emit o).pwr = s.pwr := (rfl)
@[simp] theorem emit_boot (o : Output) : (s.emit o).boot = s.boot := (rfl)
@[simp] theorem emit_tick (o : Output) : (s.emit o).tick = s.tick := (rfl)
@[simp] theorem emit_exm (o : Output) : (s.emit o).exm = s.exm := (rfl)
@[simp] theorem emit_ewb (o : Output) : (s.emit o).ewb = s.ewb := (rfl)
@[simp] theorem emit_flt (o : Output) : (s.emit o).flt = s.flt := (rfl)
@[simp] theorem emit_evr (o : Output) : (s.emit o).evr = s.evr := (rfl)
@[simp] theorem emit_frz (o : Output) : (s.emit o).frz = s.frz := (rfl)
@[simp] theorem emit_eng (o : Output) : (s.emit o).eng = s.eng := (rfl)
@[simp] theorem emit_qs (o : Output) : (s.emit o).qs = s.qs := (rfl)
@[simp] theorem emit_slices (o : Output) : (s.emit o).slices = s.slices := (rfl)
@[simp] theorem emit_sec (o : Output) : (s.emit o).sec = s.sec := (rfl)
@[simp] theorem emit_mem (o : Output) : (s.emit o).mem = s.mem := (rfl)
@[simp] theorem emit_sch (o : Output) : (s.emit o).sch = s.sch := (rfl)
@[simp] theorem emit_yar (o : Output) : (s.emit o).yar = s.yar := (rfl)
@[simp] theorem emit_ffe (o : Output) : (s.emit o).ffe = s.ffe := (rfl)
@[simp] theorem emit_tsl (o : Output) : (s.emit o).tsl = s.tsl := (rfl)
@[simp] theorem emit_cmp (o : Output) : (s.emit o).cmp = s.cmp := (rfl)
@[simp] theorem emit_sns (o : Output) : (s.emit o).sns = s.sns := (rfl)
@[simp] theorem emit_pci (o : Output) : (s.emit o).pci = s.pci := (rfl)
@[simp] theorem emit_clk (o : Output) : (s.emit o).clk = s.clk := (rfl)
@[simp] theorem emit_runClk (o : Output) : (s.emit o).runClk = s.runClk := (rfl)
@[simp] theorem emit_freeCount (o : Output) : (s.emit o).freeCount = s.freeCount := (rfl)
@[simp] theorem emit_pending (o : Output) : (s.emit o).pending = s.pending := (rfl)
@[simp] theorem emit_regs (o : Output) : (s.emit o).regs = s.regs := (rfl)
@[simp] theorem emit_reg (o : Output) (x : Nat) : (s.emit o).reg x = s.reg x := (rfl)
@[simp] theorem emit_fld (o : Output) (x : Fld) : (s.emit o).fld x = s.fld x := (rfl)

@[simp] theorem drawn_latch : (s.drawn).latch = s.latch := (rfl)
@[simp] theorem drawn_fused : (s.drawn).fused = s.fused := (rfl)
@[simp] theorem drawn_pwr : (s.drawn).pwr = s.pwr := (rfl)
@[simp] theorem drawn_boot : (s.drawn).boot = s.boot := (rfl)
@[simp] theorem drawn_tick : (s.drawn).tick = s.tick := (rfl)
@[simp] theorem drawn_exm : (s.drawn).exm = s.exm := (rfl)
@[simp] theorem drawn_ewb : (s.drawn).ewb = s.ewb := (rfl)
@[simp] theorem drawn_flt : (s.drawn).flt = s.flt := (rfl)
@[simp] theorem drawn_evr : (s.drawn).evr = s.evr := (rfl)
@[simp] theorem drawn_frz : (s.drawn).frz = s.frz := (rfl)
@[simp] theorem drawn_eng : (s.drawn).eng = s.eng := (rfl)
@[simp] theorem drawn_qs : (s.drawn).qs = s.qs := (rfl)
@[simp] theorem drawn_slices : (s.drawn).slices = s.slices := (rfl)
@[simp] theorem drawn_sec : (s.drawn).sec = s.sec := (rfl)
@[simp] theorem drawn_mem : (s.drawn).mem = s.mem := (rfl)
@[simp] theorem drawn_sch : (s.drawn).sch = s.sch := (rfl)
@[simp] theorem drawn_yar : (s.drawn).yar = s.yar := (rfl)
@[simp] theorem drawn_ffe : (s.drawn).ffe = s.ffe := (rfl)
@[simp] theorem drawn_tsl : (s.drawn).tsl = s.tsl := (rfl)
@[simp] theorem drawn_cmp : (s.drawn).cmp = s.cmp := (rfl)
@[simp] theorem drawn_sns : (s.drawn).sns = s.sns := (rfl)
@[simp] theorem drawn_pci : (s.drawn).pci = s.pci := (rfl)
@[simp] theorem drawn_clk : (s.drawn).clk = s.clk := (rfl)
@[simp] theorem drawn_runClk : (s.drawn).runClk = s.runClk := (rfl)
@[simp] theorem drawn_out : (s.drawn).out = s.out := (rfl)
@[simp] theorem drawn_pending : (s.drawn).pending = s.pending := (rfl)
@[simp] theorem drawn_regs : (s.drawn).regs = s.regs := (rfl)
@[simp] theorem drawn_reg (x : Nat) : (s.drawn).reg x = s.reg x := (rfl)
@[simp] theorem drawn_fld (x : Fld) : (s.drawn).fld x = s.fld x := (rfl)

@[simp] theorem drawnN_latch (n : Nat) : (s.drawnN n).latch = s.latch := (rfl)
@[simp] theorem drawnN_fused (n : Nat) : (s.drawnN n).fused = s.fused := (rfl)
@[simp] theorem drawnN_pwr (n : Nat) : (s.drawnN n).pwr = s.pwr := (rfl)
@[simp] theorem drawnN_boot (n : Nat) : (s.drawnN n).boot = s.boot := (rfl)
@[simp] theorem drawnN_tick (n : Nat) : (s.drawnN n).tick = s.tick := (rfl)
@[simp] theorem drawnN_exm (n : Nat) : (s.drawnN n).exm = s.exm := (rfl)
@[simp] theorem drawnN_ewb (n : Nat) : (s.drawnN n).ewb = s.ewb := (rfl)
@[simp] theorem drawnN_flt (n : Nat) : (s.drawnN n).flt = s.flt := (rfl)
@[simp] theorem drawnN_evr (n : Nat) : (s.drawnN n).evr = s.evr := (rfl)
@[simp] theorem drawnN_frz (n : Nat) : (s.drawnN n).frz = s.frz := (rfl)
@[simp] theorem drawnN_eng (n : Nat) : (s.drawnN n).eng = s.eng := (rfl)
@[simp] theorem drawnN_qs (n : Nat) : (s.drawnN n).qs = s.qs := (rfl)
@[simp] theorem drawnN_slices (n : Nat) : (s.drawnN n).slices = s.slices := (rfl)
@[simp] theorem drawnN_sec (n : Nat) : (s.drawnN n).sec = s.sec := (rfl)
@[simp] theorem drawnN_mem (n : Nat) : (s.drawnN n).mem = s.mem := (rfl)
@[simp] theorem drawnN_sch (n : Nat) : (s.drawnN n).sch = s.sch := (rfl)
@[simp] theorem drawnN_yar (n : Nat) : (s.drawnN n).yar = s.yar := (rfl)
@[simp] theorem drawnN_ffe (n : Nat) : (s.drawnN n).ffe = s.ffe := (rfl)
@[simp] theorem drawnN_tsl (n : Nat) : (s.drawnN n).tsl = s.tsl := (rfl)
@[simp] theorem drawnN_cmp (n : Nat) : (s.drawnN n).cmp = s.cmp := (rfl)
@[simp] theorem drawnN_sns (n : Nat) : (s.drawnN n).sns = s.sns := (rfl)
@[simp] theorem drawnN_pci (n : Nat) : (s.drawnN n).pci = s.pci := (rfl)
@[simp] theorem drawnN_clk (n : Nat) : (s.drawnN n).clk = s.clk := (rfl)
@[simp] theorem drawnN_runClk (n : Nat) : (s.drawnN n).runClk = s.runClk := (rfl)
@[simp] theorem drawnN_out (n : Nat) : (s.drawnN n).out = s.out := (rfl)
@[simp] theorem drawnN_pending (n : Nat) : (s.drawnN n).pending = s.pending := (rfl)
@[simp] theorem drawnN_regs (n : Nat) : (s.drawnN n).regs = s.regs := (rfl)
@[simp] theorem drawnN_reg (n : Nat) (x : Nat) : (s.drawnN n).reg x = s.reg x := (rfl)
@[simp] theorem drawnN_fld (n : Nat) (x : Fld) : (s.drawnN n).fld x = s.fld x := (rfl)

@[simp] theorem norProgram_latch (a : Nat) (b : List Byte) : (s.norProgram a b).latch = s.latch := (rfl)
@[simp] theorem norProgram_fused (a : Nat) (b : List Byte) : (s.norProgram a b).fused = s.fused := (rfl)
@[simp] theorem norProgram_pwr (a : Nat) (b : List Byte) : (s.norProgram a b).pwr = s.pwr := (rfl)
@[simp] theorem norProgram_boot (a : Nat) (b : List Byte) : (s.norProgram a b).boot = s.boot := (rfl)
@[simp] theorem norProgram_tick (a : Nat) (b : List Byte) : (s.norProgram a b).tick = s.tick := (rfl)
@[simp] theorem norProgram_exm (a : Nat) (b : List Byte) : (s.norProgram a b).exm = s.exm := (rfl)
@[simp] theorem norProgram_ewb (a : Nat) (b : List Byte) : (s.norProgram a b).ewb = s.ewb := (rfl)
@[simp] theorem norProgram_flt (a : Nat) (b : List Byte) : (s.norProgram a b).flt = s.flt := (rfl)
@[simp] theorem norProgram_frz (a : Nat) (b : List Byte) : (s.norProgram a b).frz = s.frz := (rfl)
@[simp] theorem norProgram_eng (a : Nat) (b : List Byte) : (s.norProgram a b).eng = s.eng := (rfl)
@[simp] theorem norProgram_qs (a : Nat) (b : List Byte) : (s.norProgram a b).qs = s.qs := (rfl)
@[simp] theorem norProgram_slices (a : Nat) (b : List Byte) : (s.norProgram a b).slices = s.slices := (rfl)
@[simp] theorem norProgram_sec (a : Nat) (b : List Byte) : (s.norProgram a b).sec = s.sec := (rfl)
@[simp] theorem norProgram_mem (a : Nat) (b : List Byte) : (s.norProgram a b).mem = s.mem := (rfl)
@[simp] theorem norProgram_sch (a : Nat) (b : List Byte) : (s.norProgram a b).sch = s.sch := (rfl)
@[simp] theorem norProgram_yar (a : Nat) (b : List Byte) : (s.norProgram a b).yar = s.yar := (rfl)
@[simp] theorem norProgram_ffe (a : Nat) (b : List Byte) : (s.norProgram a b).ffe = s.ffe := (rfl)
@[simp] theorem norProgram_tsl (a : Nat) (b : List Byte) : (s.norProgram a b).tsl = s.tsl := (rfl)
@[simp] theorem norProgram_cmp (a : Nat) (b : List Byte) : (s.norProgram a b).cmp = s.cmp := (rfl)
@[simp] theorem norProgram_sns (a : Nat) (b : List Byte) : (s.norProgram a b).sns = s.sns := (rfl)
@[simp] theorem norProgram_pci (a : Nat) (b : List Byte) : (s.norProgram a b).pci = s.pci := (rfl)
@[simp] theorem norProgram_clk (a : Nat) (b : List Byte) : (s.norProgram a b).clk = s.clk := (rfl)
@[simp] theorem norProgram_runClk (a : Nat) (b : List Byte) : (s.norProgram a b).runClk = s.runClk := (rfl)
@[simp] theorem norProgram_freeCount (a : Nat) (b : List Byte) : (s.norProgram a b).freeCount = s.freeCount := (rfl)
@[simp] theorem norProgram_out (a : Nat) (b : List Byte) : (s.norProgram a b).out = s.out := (rfl)
@[simp] theorem norProgram_pending (a : Nat) (b : List Byte) : (s.norProgram a b).pending = s.pending := (rfl)
@[simp] theorem norProgram_regs (a : Nat) (b : List Byte) : (s.norProgram a b).regs = s.regs := (rfl)
@[simp] theorem norProgram_reg (a : Nat) (b : List Byte) (x : Nat) : (s.norProgram a b).reg x = s.reg x := (rfl)
@[simp] theorem norProgram_fld (a : Nat) (b : List Byte) (x : Fld) : (s.norProgram a b).fld x = s.fld x := (rfl)

@[simp] theorem norErase_latch (a n : Nat) : (s.norErase a n).latch = s.latch := (rfl)
@[simp] theorem norErase_fused (a n : Nat) : (s.norErase a n).fused = s.fused := (rfl)
@[simp] theorem norErase_pwr (a n : Nat) : (s.norErase a n).pwr = s.pwr := (rfl)
@[simp] theorem norErase_boot (a n : Nat) : (s.norErase a n).boot = s.boot := (rfl)
@[simp] theorem norErase_tick (a n : Nat) : (s.norErase a n).tick = s.tick := (rfl)
@[simp] theorem norErase_exm (a n : Nat) : (s.norErase a n).exm = s.exm := (rfl)
@[simp] theorem norErase_ewb (a n : Nat) : (s.norErase a n).ewb = s.ewb := (rfl)
@[simp] theorem norErase_flt (a n : Nat) : (s.norErase a n).flt = s.flt := (rfl)
@[simp] theorem norErase_frz (a n : Nat) : (s.norErase a n).frz = s.frz := (rfl)
@[simp] theorem norErase_eng (a n : Nat) : (s.norErase a n).eng = s.eng := (rfl)
@[simp] theorem norErase_qs (a n : Nat) : (s.norErase a n).qs = s.qs := (rfl)
@[simp] theorem norErase_slices (a n : Nat) : (s.norErase a n).slices = s.slices := (rfl)
@[simp] theorem norErase_sec (a n : Nat) : (s.norErase a n).sec = s.sec := (rfl)
@[simp] theorem norErase_mem (a n : Nat) : (s.norErase a n).mem = s.mem := (rfl)
@[simp] theorem norErase_sch (a n : Nat) : (s.norErase a n).sch = s.sch := (rfl)
@[simp] theorem norErase_yar (a n : Nat) : (s.norErase a n).yar = s.yar := (rfl)
@[simp] theorem norErase_ffe (a n : Nat) : (s.norErase a n).ffe = s.ffe := (rfl)
@[simp] theorem norErase_tsl (a n : Nat) : (s.norErase a n).tsl = s.tsl := (rfl)
@[simp] theorem norErase_cmp (a n : Nat) : (s.norErase a n).cmp = s.cmp := (rfl)
@[simp] theorem norErase_sns (a n : Nat) : (s.norErase a n).sns = s.sns := (rfl)
@[simp] theorem norErase_pci (a n : Nat) : (s.norErase a n).pci = s.pci := (rfl)
@[simp] theorem norErase_clk (a n : Nat) : (s.norErase a n).clk = s.clk := (rfl)
@[simp] theorem norErase_runClk (a n : Nat) : (s.norErase a n).runClk = s.runClk := (rfl)
@[simp] theorem norErase_freeCount (a n : Nat) : (s.norErase a n).freeCount = s.freeCount := (rfl)
@[simp] theorem norErase_out (a n : Nat) : (s.norErase a n).out = s.out := (rfl)
@[simp] theorem norErase_pending (a n : Nat) : (s.norErase a n).pending = s.pending := (rfl)
@[simp] theorem norErase_regs (a n : Nat) : (s.norErase a n).regs = s.regs := (rfl)
@[simp] theorem norErase_reg (a n : Nat) (x : Nat) : (s.norErase a n).reg x = s.reg x := (rfl)
@[simp] theorem norErase_fld (a n : Nat) (x : Fld) : (s.norErase a n).fld x = s.fld x := (rfl)

@[simp] theorem norSpoil_latch (a n : Nat) : (s.norSpoil a n).latch = s.latch := (rfl)
@[simp] theorem norSpoil_fused (a n : Nat) : (s.norSpoil a n).fused = s.fused := (rfl)
@[simp] theorem norSpoil_pwr (a n : Nat) : (s.norSpoil a n).pwr = s.pwr := (rfl)
@[simp] theorem norSpoil_boot (a n : Nat) : (s.norSpoil a n).boot = s.boot := (rfl)
@[simp] theorem norSpoil_tick (a n : Nat) : (s.norSpoil a n).tick = s.tick := (rfl)
@[simp] theorem norSpoil_exm (a n : Nat) : (s.norSpoil a n).exm = s.exm := (rfl)
@[simp] theorem norSpoil_ewb (a n : Nat) : (s.norSpoil a n).ewb = s.ewb := (rfl)
@[simp] theorem norSpoil_flt (a n : Nat) : (s.norSpoil a n).flt = s.flt := (rfl)
@[simp] theorem norSpoil_frz (a n : Nat) : (s.norSpoil a n).frz = s.frz := (rfl)
@[simp] theorem norSpoil_eng (a n : Nat) : (s.norSpoil a n).eng = s.eng := (rfl)
@[simp] theorem norSpoil_qs (a n : Nat) : (s.norSpoil a n).qs = s.qs := (rfl)
@[simp] theorem norSpoil_slices (a n : Nat) : (s.norSpoil a n).slices = s.slices := (rfl)
@[simp] theorem norSpoil_sec (a n : Nat) : (s.norSpoil a n).sec = s.sec := (rfl)
@[simp] theorem norSpoil_mem (a n : Nat) : (s.norSpoil a n).mem = s.mem := (rfl)
@[simp] theorem norSpoil_sch (a n : Nat) : (s.norSpoil a n).sch = s.sch := (rfl)
@[simp] theorem norSpoil_yar (a n : Nat) : (s.norSpoil a n).yar = s.yar := (rfl)
@[simp] theorem norSpoil_ffe (a n : Nat) : (s.norSpoil a n).ffe = s.ffe := (rfl)
@[simp] theorem norSpoil_tsl (a n : Nat) : (s.norSpoil a n).tsl = s.tsl := (rfl)
@[simp] theorem norSpoil_cmp (a n : Nat) : (s.norSpoil a n).cmp = s.cmp := (rfl)
@[simp] theorem norSpoil_sns (a n : Nat) : (s.norSpoil a n).sns = s.sns := (rfl)
@[simp] theorem norSpoil_pci (a n : Nat) : (s.norSpoil a n).pci = s.pci := (rfl)
@[simp] theorem norSpoil_clk (a n : Nat) : (s.norSpoil a n).clk = s.clk := (rfl)
@[simp] theorem norSpoil_runClk (a n : Nat) : (s.norSpoil a n).runClk = s.runClk := (rfl)
@[simp] theorem norSpoil_freeCount (a n : Nat) : (s.norSpoil a n).freeCount = s.freeCount := (rfl)
@[simp] theorem norSpoil_out (a n : Nat) : (s.norSpoil a n).out = s.out := (rfl)
@[simp] theorem norSpoil_pending (a n : Nat) : (s.norSpoil a n).pending = s.pending := (rfl)
@[simp] theorem norSpoil_regs (a n : Nat) : (s.norSpoil a n).regs = s.regs := (rfl)
@[simp] theorem norSpoil_reg (a n : Nat) (x : Nat) : (s.norSpoil a n).reg x = s.reg x := (rfl)
@[simp] theorem norSpoil_fld (a n : Nat) (x : Fld) : (s.norSpoil a n).fld x = s.fld x := (rfl)

@[simp] theorem exmPut_latch (a : Nat) (b : List Byte) : (s.exmPut a b).latch = s.latch := (rfl)
@[simp] theorem exmPut_fused (a : Nat) (b : List Byte) : (s.exmPut a b).fused = s.fused := (rfl)
@[simp] theorem exmPut_pwr (a : Nat) (b : List Byte) : (s.exmPut a b).pwr = s.pwr := (rfl)
@[simp] theorem exmPut_boot (a : Nat) (b : List Byte) : (s.exmPut a b).boot = s.boot := (rfl)
@[simp] theorem exmPut_tick (a : Nat) (b : List Byte) : (s.exmPut a b).tick = s.tick := (rfl)
@[simp] theorem exmPut_ewb (a : Nat) (b : List Byte) : (s.exmPut a b).ewb = s.ewb := (rfl)
@[simp] theorem exmPut_flt (a : Nat) (b : List Byte) : (s.exmPut a b).flt = s.flt := (rfl)
@[simp] theorem exmPut_evr (a : Nat) (b : List Byte) : (s.exmPut a b).evr = s.evr := (rfl)
@[simp] theorem exmPut_frz (a : Nat) (b : List Byte) : (s.exmPut a b).frz = s.frz := (rfl)
@[simp] theorem exmPut_eng (a : Nat) (b : List Byte) : (s.exmPut a b).eng = s.eng := (rfl)
@[simp] theorem exmPut_qs (a : Nat) (b : List Byte) : (s.exmPut a b).qs = s.qs := (rfl)
@[simp] theorem exmPut_slices (a : Nat) (b : List Byte) : (s.exmPut a b).slices = s.slices := (rfl)
@[simp] theorem exmPut_sec (a : Nat) (b : List Byte) : (s.exmPut a b).sec = s.sec := (rfl)
@[simp] theorem exmPut_mem (a : Nat) (b : List Byte) : (s.exmPut a b).mem = s.mem := (rfl)
@[simp] theorem exmPut_sch (a : Nat) (b : List Byte) : (s.exmPut a b).sch = s.sch := (rfl)
@[simp] theorem exmPut_yar (a : Nat) (b : List Byte) : (s.exmPut a b).yar = s.yar := (rfl)
@[simp] theorem exmPut_ffe (a : Nat) (b : List Byte) : (s.exmPut a b).ffe = s.ffe := (rfl)
@[simp] theorem exmPut_tsl (a : Nat) (b : List Byte) : (s.exmPut a b).tsl = s.tsl := (rfl)
@[simp] theorem exmPut_cmp (a : Nat) (b : List Byte) : (s.exmPut a b).cmp = s.cmp := (rfl)
@[simp] theorem exmPut_sns (a : Nat) (b : List Byte) : (s.exmPut a b).sns = s.sns := (rfl)
@[simp] theorem exmPut_pci (a : Nat) (b : List Byte) : (s.exmPut a b).pci = s.pci := (rfl)
@[simp] theorem exmPut_clk (a : Nat) (b : List Byte) : (s.exmPut a b).clk = s.clk := (rfl)
@[simp] theorem exmPut_runClk (a : Nat) (b : List Byte) : (s.exmPut a b).runClk = s.runClk := (rfl)
@[simp] theorem exmPut_freeCount (a : Nat) (b : List Byte) : (s.exmPut a b).freeCount = s.freeCount := (rfl)
@[simp] theorem exmPut_out (a : Nat) (b : List Byte) : (s.exmPut a b).out = s.out := (rfl)
@[simp] theorem exmPut_pending (a : Nat) (b : List Byte) : (s.exmPut a b).pending = s.pending := (rfl)
@[simp] theorem exmPut_regs (a : Nat) (b : List Byte) : (s.exmPut a b).regs = s.regs := (rfl)
@[simp] theorem exmPut_reg (a : Nat) (b : List Byte) (x : Nat) : (s.exmPut a b).reg x = s.reg x := (rfl)
@[simp] theorem exmPut_fld (a : Nat) (b : List Byte) (x : Fld) : (s.exmPut a b).fld x = s.fld x := (rfl)

@[simp] theorem exmZero_latch (a n : Nat) : (s.exmZero a n).latch = s.latch := (rfl)
@[simp] theorem exmZero_fused (a n : Nat) : (s.exmZero a n).fused = s.fused := (rfl)
@[simp] theorem exmZero_pwr (a n : Nat) : (s.exmZero a n).pwr = s.pwr := (rfl)
@[simp] theorem exmZero_boot (a n : Nat) : (s.exmZero a n).boot = s.boot := (rfl)
@[simp] theorem exmZero_tick (a n : Nat) : (s.exmZero a n).tick = s.tick := (rfl)
@[simp] theorem exmZero_ewb (a n : Nat) : (s.exmZero a n).ewb = s.ewb := (rfl)
@[simp] theorem exmZero_flt (a n : Nat) : (s.exmZero a n).flt = s.flt := (rfl)
@[simp] theorem exmZero_evr (a n : Nat) : (s.exmZero a n).evr = s.evr := (rfl)
@[simp] theorem exmZero_frz (a n : Nat) : (s.exmZero a n).frz = s.frz := (rfl)
@[simp] theorem exmZero_eng (a n : Nat) : (s.exmZero a n).eng = s.eng := (rfl)
@[simp] theorem exmZero_qs (a n : Nat) : (s.exmZero a n).qs = s.qs := (rfl)
@[simp] theorem exmZero_slices (a n : Nat) : (s.exmZero a n).slices = s.slices := (rfl)
@[simp] theorem exmZero_sec (a n : Nat) : (s.exmZero a n).sec = s.sec := (rfl)
@[simp] theorem exmZero_mem (a n : Nat) : (s.exmZero a n).mem = s.mem := (rfl)
@[simp] theorem exmZero_sch (a n : Nat) : (s.exmZero a n).sch = s.sch := (rfl)
@[simp] theorem exmZero_yar (a n : Nat) : (s.exmZero a n).yar = s.yar := (rfl)
@[simp] theorem exmZero_ffe (a n : Nat) : (s.exmZero a n).ffe = s.ffe := (rfl)
@[simp] theorem exmZero_tsl (a n : Nat) : (s.exmZero a n).tsl = s.tsl := (rfl)
@[simp] theorem exmZero_cmp (a n : Nat) : (s.exmZero a n).cmp = s.cmp := (rfl)
@[simp] theorem exmZero_sns (a n : Nat) : (s.exmZero a n).sns = s.sns := (rfl)
@[simp] theorem exmZero_pci (a n : Nat) : (s.exmZero a n).pci = s.pci := (rfl)
@[simp] theorem exmZero_clk (a n : Nat) : (s.exmZero a n).clk = s.clk := (rfl)
@[simp] theorem exmZero_runClk (a n : Nat) : (s.exmZero a n).runClk = s.runClk := (rfl)
@[simp] theorem exmZero_freeCount (a n : Nat) : (s.exmZero a n).freeCount = s.freeCount := (rfl)
@[simp] theorem exmZero_out (a n : Nat) : (s.exmZero a n).out = s.out := (rfl)
@[simp] theorem exmZero_pending (a n : Nat) : (s.exmZero a n).pending = s.pending := (rfl)
@[simp] theorem exmZero_regs (a n : Nat) : (s.exmZero a n).regs = s.regs := (rfl)
@[simp] theorem exmZero_reg (a n : Nat) (x : Nat) : (s.exmZero a n).reg x = s.reg x := (rfl)
@[simp] theorem exmZero_fld (a n : Nat) (x : Fld) : (s.exmZero a n).fld x = s.fld x := (rfl)

@[simp] theorem setTrigger_latch (k v : Nat) : (s.setTrigger k v).latch = s.latch := (rfl)
@[simp] theorem setTrigger_fused (k v : Nat) : (s.setTrigger k v).fused = s.fused := (rfl)
@[simp] theorem setTrigger_pwr (k v : Nat) : (s.setTrigger k v).pwr = s.pwr := (rfl)
@[simp] theorem setTrigger_boot (k v : Nat) : (s.setTrigger k v).boot = s.boot := (rfl)
@[simp] theorem setTrigger_tick (k v : Nat) : (s.setTrigger k v).tick = s.tick := (rfl)
@[simp] theorem setTrigger_ewb (k v : Nat) : (s.setTrigger k v).ewb = s.ewb := (rfl)
@[simp] theorem setTrigger_flt (k v : Nat) : (s.setTrigger k v).flt = s.flt := (rfl)
@[simp] theorem setTrigger_evr (k v : Nat) : (s.setTrigger k v).evr = s.evr := (rfl)
@[simp] theorem setTrigger_frz (k v : Nat) : (s.setTrigger k v).frz = s.frz := (rfl)
@[simp] theorem setTrigger_eng (k v : Nat) : (s.setTrigger k v).eng = s.eng := (rfl)
@[simp] theorem setTrigger_qs (k v : Nat) : (s.setTrigger k v).qs = s.qs := (rfl)
@[simp] theorem setTrigger_slices (k v : Nat) : (s.setTrigger k v).slices = s.slices := (rfl)
@[simp] theorem setTrigger_sec (k v : Nat) : (s.setTrigger k v).sec = s.sec := (rfl)
@[simp] theorem setTrigger_mem (k v : Nat) : (s.setTrigger k v).mem = s.mem := (rfl)
@[simp] theorem setTrigger_sch (k v : Nat) : (s.setTrigger k v).sch = s.sch := (rfl)
@[simp] theorem setTrigger_yar (k v : Nat) : (s.setTrigger k v).yar = s.yar := (rfl)
@[simp] theorem setTrigger_ffe (k v : Nat) : (s.setTrigger k v).ffe = s.ffe := (rfl)
@[simp] theorem setTrigger_tsl (k v : Nat) : (s.setTrigger k v).tsl = s.tsl := (rfl)
@[simp] theorem setTrigger_cmp (k v : Nat) : (s.setTrigger k v).cmp = s.cmp := (rfl)
@[simp] theorem setTrigger_sns (k v : Nat) : (s.setTrigger k v).sns = s.sns := (rfl)
@[simp] theorem setTrigger_pci (k v : Nat) : (s.setTrigger k v).pci = s.pci := (rfl)
@[simp] theorem setTrigger_clk (k v : Nat) : (s.setTrigger k v).clk = s.clk := (rfl)
@[simp] theorem setTrigger_runClk (k v : Nat) : (s.setTrigger k v).runClk = s.runClk := (rfl)
@[simp] theorem setTrigger_freeCount (k v : Nat) : (s.setTrigger k v).freeCount = s.freeCount := (rfl)
@[simp] theorem setTrigger_out (k v : Nat) : (s.setTrigger k v).out = s.out := (rfl)
@[simp] theorem setTrigger_pending (k v : Nat) : (s.setTrigger k v).pending = s.pending := (rfl)
@[simp] theorem setTrigger_regs (k v : Nat) : (s.setTrigger k v).regs = s.regs := (rfl)
@[simp] theorem setTrigger_reg (k v : Nat) (x : Nat) : (s.setTrigger k v).reg x = s.reg x := (rfl)
@[simp] theorem setTrigger_fld (k v : Nat) (x : Fld) : (s.setTrigger k v).fld x = s.fld x := (rfl)

end Sys2Proof.Machine
end

