-- ==== Sys2Proof/Laws/Log.lean ====
section
/-! SUPPORT. Everything that logging an event can touch (chapters 21 and 22). -/

namespace Sys2Proof.Machine

theorem same_refl (s : State) (p : Part) : s.same s p := by
  cases p <;> first | exact rfl | exact ⟨rfl, rfl⟩

theorem same_trans {s t u : State} (p : Part) (h : s.same t p) (k : t.same u p) : s.same u p := by
  cases p <;> first | exact Eq.trans k h | exact ⟨Eq.trans k.1 h.1, Eq.trans k.2 h.2⟩

/-- The exchange unit is what it was when its bytes and the rest are; so for the other units that are told apart. -/
theorem exm_of_same {s t : State} (h : s.same t .exm) (k : s.same t .exmMem) : t.exm = s.exm := by
  cases ht : t.exm; cases hs : s.exm; simp_all [State.same]

theorem mem_of_same {s t : State} (h : s.same t .mem) (k : s.same t .cmn) (l : s.same t .hbm) : t.mem = s.mem := by
  cases ht : t.mem; cases hs : s.mem; simp_all [State.same]

theorem pwr_of_same {s t : State} (h : s.same t .pwr) (k : s.same t .drive) : t.pwr = s.pwr := by
  cases ht : t.pwr; cases hs : s.pwr; simp_all [State.same]

theorem boot_of_same {s t : State} (h : s.same t .boot) (k : s.same t .stepFrozen) : t.boot = s.boot := by
  cases ht : t.boot; cases hs : s.boot; simp_all [State.same]

theorem evr_of_same {s t : State} (h : s.same t .evr) (k : s.same t .nor) : t.evr = s.evr := by
  cases ht : t.evr; cases hs : s.evr; simp_all [State.same]

theorem OnlyIn.refl {T : List Part} (s : State) : OnlyIn T s s := fun p _ => same_refl s p

theorem OnlyIn.trans {T : List Part} {s t u : State} (h : OnlyIn T s t) (k : OnlyIn T t u) : OnlyIn T s u :=
  fun p hp => same_trans p (h p hp) (k p hp)

theorem OnlyIn.mono {T U : List Part} {s t : State} (h : OnlyIn T s t) (hTU : ∀ p, p ∈ T → p ∈ U) : OnlyIn U s t :=
  fun p hp => h p (fun x => hp (hTU p x))

/-- What logging an event keeps: the parts outside `logParts` (the NOR device's bytes among them), and every register
outside the recorder's and the freeze controller's. -/
structure Logged (s t : State) : Prop where
  parts : OnlyIn logParts s t
  regs : RegsOutside 0x980000 0xA10000 s t
  pwr : t.pwr = { s.pwr with freezeDrive := t.pwr.freezeDrive }
  boot : t.boot = { s.boot with stepFrozen := t.boot.stepFrozen }

theorem Logged.refl (s : State) : Logged s s :=
  ⟨OnlyIn.refl s, fun _ _ => rfl, rfl, rfl⟩

theorem Logged.trans {s t u : State} (h : Logged s t) (k : Logged t u) : Logged s u :=
  ⟨h.parts.trans k.parts, fun a ha => (k.regs a ha).trans (h.regs a ha), by rw [k.pwr, h.pwr], by rw [k.boot, h.boot]⟩

theorem Logged.setFld {s t : State} (h : Logged s t) (f : Fld) (v : Nat) (hf : 0x980000 ≤ f.addr ∧ f.addr < 0xA10000) :
    Logged s (t.setFld f v) :=
  h.trans ⟨fun p hp => by cases p <;> simp [logParts, State.same] at hp ⊢,
    fun a ha => reg_setFld_ne t f v a (by omega), rfl, rfl⟩

theorem Logged.bump {s t : State} (h : Logged s t) (f : Fld) (hf : 0x980000 ≤ f.addr ∧ f.addr < 0xA10000) :
    Logged s (t.bump f) := h.setFld f _ hf

theorem Logged.setReg {s t : State} (h : Logged s t) (a : Nat) (v : Word) (hf : 0x980000 ≤ a ∧ a < 0xA10000) :
    Logged s (t.setReg a v) :=
  h.trans ⟨fun p hp => by cases p <;> simp [logParts, State.same] at hp ⊢,
    fun b hb => reg_setReg_ne t a b v (by omega), rfl, rfl⟩

/-- An update of the recorder's own state that leaves its NOR device. -/
theorem Logged.evr {s t : State} (h : Logged s t) (e : Recorder) (hn : e.nor = t.evr.nor) (ho : e.norOpen = t.evr.norOpen) :
    Logged s { t with evr := e } :=
  h.trans ⟨fun p hp => by cases p <;> simp [logParts, State.same] at hp ⊢; exact ⟨hn, ho⟩, fun _ _ => rfl, rfl, rfl⟩

theorem recNotice_logged {s t : State} (h : Logged s t) (c g q : Nat) : Logged s (t.recNotice c g q) :=
  h.evr _ rfl rfl

theorem pushRec_logged {s t : State} (h : Logged s t) (r : Record) (b : List (List Byte)) (k : Bool) :
    Logged s (t.pushRec r b k) := by
  have h1 : Logged s (t.takeSeq.bump F.EVR_CNT_RECORDS_COUNT) := (h.setReg _ _ (by decide)).bump _ (by decide)
  unfold State.pushRec
  dsimp only
  split
  · refine Logged.evr ?_ _ rfl rfl
    split
    · exact h1.bump _ (by decide)
    · exact h1
  · have key : ∀ u, Logged s u → Logged s (if u.bit F.EVR_CTRL_NOTIFY_LOST then u.recNotice 3 0xFF r.seq else u) := by
      intro u hu
      split
      · exact recNotice_logged hu _ _ _
      · exact hu
    exact key _ (Logged.evr (h1.bump F.EVR_CNT_LOST_COUNT (by decide)) _ rfl rfl)

theorem snapshot_logged {s t : State} (h : Logged s t) (c v f : Nat) (b : List (List Byte)) :
    Logged s (t.snapshot c v f b) := pushRec_logged (h.bump _ (by decide)) _ _ _

theorem emitAll_logged {s t : State} (h : Logged s t) (l : List Output) : Logged s (t.emitAll l) := by
  unfold State.emitAll
  induction l generalizing t with
  | nil => exact h
  | cons o l ih =>
    refine ih (h.trans ⟨fun p hp => ?_, fun _ _ => rfl, rfl, rfl⟩)
    cases p <;> simp [logParts, State.same] at hp ⊢

theorem sendFrz_logged {s t : State} (h : Logged s t) (k : Nat) : Logged s (t.sendFrz k) := by
  unfold State.sendFrz State.sendOn
  refine Logged.setFld ?_ _ _ (by decide)
  refine (emitAll_logged h _).trans ⟨fun p hp => ?_, fun _ _ => rfl, rfl, rfl⟩
  cases p <;> simp [logParts, State.same] at hp ⊢

theorem freezeMark_regs (s : State) (src : Nat) : (s.freezeMark src).regs =
    (((s.setFld F.FRZ_STATUS_STATE 1).setFld F.FRZ_STATUS_SOURCE src).bump F.FRZ_CNT_FREEZES_COUNT).regs := by
  unfold State.freezeMark; rfl

theorem freezeMark_only (s : State) (src : Nat) : OnlyIn logParts s (s.freezeMark src) := by
  intro p hp
  unfold State.freezeMark
  cases p <;> simp [logParts] at hp <;> simp [State.same]

theorem freezeMark_logged {s t : State} (h : Logged s t) (src : Nat) : Logged s (t.freezeMark src) := by
  refine h.trans ⟨freezeMark_only t src, fun a ha => ?_, rfl, rfl⟩
  have h2 := (((Logged.refl t).setFld F.FRZ_STATUS_STATE 1 (by decide)).setFld F.FRZ_STATUS_SOURCE src (by decide)).bump
      F.FRZ_CNT_FREEZES_COUNT (by decide)
  have h3 := h2.regs a ha
  unfold State.reg at h3 ⊢
  rw [freezeMark_regs, h3]

theorem freezeSnap_logged {s t : State} (h : Logged s t) : Logged s t.freezeSnap := by
  unfold State.freezeSnap
  split
  · exact snapshot_logged h _ _ _ _
  · exact h

/-- A freeze request keeps what logging keeps, if the log it uses does. -/
theorem freezeVia_logged {lg : State → Record → State} (hl : ∀ s t r, Logged s t → Logged s (lg t r)) {s t : State}
    (h : Logged s t) (src : Nat) (d : Bool) : Logged s (State.freezeVia lg src t d) := by
  have hd : ∀ u, Logged s u → Logged s (if d then u.sendFrz 0x09 else u) := by
    intro u hu
    split
    · exact sendFrz_logged hu _
    · exact hu
  refine hd _ ?_
  split
  · exact freezeSnap_logged (hl _ _ _ (freezeMark_logged h src))
  · exact h

theorem trigAct_logged {fr : State → Bool → State} (hf : ∀ s t d, Logged s t → Logged s (fr t d)) (r : Record)
    {s t : State} (h : Logged s t) (k : Nat) (hk : k < 4) : Logged s (State.trigAct fr r t k) := by
  have in1 : 0x980000 ≤ (F.EVR_TRIG_HITS_COUNT k).addr ∧ (F.EVR_TRIG_HITS_COUNT k).addr < 0xA10000 := by
    constructor <;> simp only [R.EVR_TRIG_HITS] <;> omega
  have in2 : 0x980000 ≤ (F.EVR_TRIG_CTRL_ENABLE k).addr ∧ (F.EVR_TRIG_CTRL_ENABLE k).addr < 0xA10000 := by
    constructor <;> simp only [R.EVR_TRIG_CTRL] <;> omega
  unfold State.trigAct
  split
  · have h2 := pushRec_logged ((h.bump _ in1).bump F.EVR_CNT_TRIGGERS_COUNT (by decide))
      (((t.bump (F.EVR_TRIG_HITS_COUNT k)).bump F.EVR_CNT_TRIGGERS_COUNT).mkRecord 0x0009 1 0 0xFFFF k r.seq false) [] false
    dsimp only
    generalize ((t.bump (F.EVR_TRIG_HITS_COUNT k)).bump F.EVR_CNT_TRIGGERS_COUNT).pushRec _ _ _ = u at h2 ⊢
    have h3 : Logged s (if u.bit (F.EVR_TRIG_CTRL_ONESHOT k) then u.setFld (F.EVR_TRIG_CTRL_ENABLE k) 0 else u) := by
      split
      · exact h2.setFld _ _ in2
      · exact h2
    generalize (if u.bit (F.EVR_TRIG_CTRL_ONESHOT k) then u.setFld (F.EVR_TRIG_CTRL_ENABLE k) 0 else u) = v at h3 ⊢
    have h4 : Logged s (if t.bit (F.EVR_TRIG_CTRL_SNAPSHOT k) then v.snapshot 0x0082 1 0 v.snapBody else v) := by
      split
      · exact snapshot_logged h3 _ _ _ _
      · exact h3
    generalize (if t.bit (F.EVR_TRIG_CTRL_SNAPSHOT k) then v.snapshot 0x0082 1 0 v.snapBody else v) = w at h4 ⊢
    have h5 : Logged s (if t.bit (F.EVR_TRIG_CTRL_FREEZE_DOMAIN k) then fr w true
        else if t.bit (F.EVR_TRIG_CTRL_FREEZE_LOCAL k) then fr w false else w) := by
      split
      · exact hf _ _ _ h4
      · split
        · exact hf _ _ _ h4
        · exact h4
    split
    · exact recNotice_logged h5 _ _ _
    · exact h5
  · exact h

theorem createWith_logged {fr : State → Bool → State} (hf : ∀ s t d, Logged s t → Logged s (fr t d)) (r : Record)
    {s t : State} (h : Logged s t) : Logged s (State.createWith fr t r) := by
  unfold State.createWith
  have : ∀ (l : List Nat), (∀ k ∈ l, k < 4) → ∀ t, Logged s t → Logged s (l.foldl (State.trigAct fr r) t) := by
    intro l
    induction l with
    | nil => intro _ t h; exact h
    | cons k l ih =>
      intro hl t h
      exact ih (fun j hj => hl j (List.mem_cons_of_mem _ hj)) _
        (trigAct_logged hf r h k (hl k (List.mem_cons_self ..)))
  exact this _ (fun k hk => List.mem_range.mp hk) _ (pushRec_logged h r [] false)

theorem freezeReq_logged {s t : State} (h : Logged s t) (src : Nat) (d : Bool) : Logged s (t.freezeReq src d) :=
  freezeVia_logged (fun _ _ r hst => createWith_logged (fun s t d h => by
    unfold State.freezeAgain; split
    · exact sendFrz_logged h _
    · exact h) r hst) h src d

theorem record_logged {s t : State} (h : Logged s t) (r : Record) : Logged s (t.record r) :=
  createWith_logged (fun _ _ d h => freezeReq_logged h 4 d) r h

/-- Logging an event keeps everything that `Logged` names. -/
theorem log_logged (s : State) (c v f u a x : Nat) : Logged s (s.log c v f u a x) := record_logged (Logged.refl s) _

theorem logInjected_logged (s : State) (c v f u a x : Nat) : Logged s (s.logInjected c v f u a x) :=
  record_logged (Logged.refl s) _

/-! ### The same, field by field -/

variable (s : State) (c v f u a x : Nat)

@[simp] theorem log_latch : (s.log c v f u a x).latch = s.latch := (log_logged s c v f u a x).parts .latch (by decide)
@[simp] theorem log_fused : (s.log c v f u a x).fused = s.fused := (log_logged s c v f u a x).parts .fused (by decide)
@[simp] theorem log_tick : (s.log c v f u a x).tick = s.tick := (log_logged s c v f u a x).parts .tick (by decide)
@[simp] theorem log_exm : (s.log c v f u a x).exm = s.exm := exm_of_same ((log_logged s c v f u a x).parts .exm (by decide))
    ((log_logged s c v f u a x).parts .exmMem (by decide))
@[simp] theorem log_flt : (s.log c v f u a x).flt = s.flt := (log_logged s c v f u a x).parts .flt (by decide)
@[simp] theorem log_eng : (s.log c v f u a x).eng = s.eng := (log_logged s c v f u a x).parts .eng (by decide)
@[simp] theorem log_qs : (s.log c v f u a x).qs = s.qs := (log_logged s c v f u a x).parts .qs (by decide)
@[simp] theorem log_slices : (s.log c v f u a x).slices = s.slices := (log_logged s c v f u a x).parts .slices (by decide)
@[simp] theorem log_sec : (s.log c v f u a x).sec = s.sec := (log_logged s c v f u a x).parts .sec (by decide)
@[simp] theorem log_mem : (s.log c v f u a x).mem = s.mem := mem_of_same ((log_logged s c v f u a x).parts .mem (by decide))
    ((log_logged s c v f u a x).parts .cmn (by decide)) ((log_logged s c v f u a x).parts .hbm (by decide))
@[simp] theorem log_sch : (s.log c v f u a x).sch = s.sch := (log_logged s c v f u a x).parts .sch (by decide)
@[simp] theorem log_yar : (s.log c v f u a x).yar = s.yar := (log_logged s c v f u a x).parts .yar (by decide)
@[simp] theorem log_ffe : (s.log c v f u a x).ffe = s.ffe := (log_logged s c v f u a x).parts .ffe (by decide)
@[simp] theorem log_tsl : (s.log c v f u a x).tsl = s.tsl := (log_logged s c v f u a x).parts .tsl (by decide)
@[simp] theorem log_cmp : (s.log c v f u a x).cmp = s.cmp := (log_logged s c v f u a x).parts .cmp (by decide)
@[simp] theorem log_sns : (s.log c v f u a x).sns = s.sns := (log_logged s c v f u a x).parts .sns (by decide)
@[simp] theorem log_pci : (s.log c v f u a x).pci = s.pci := (log_logged s c v f u a x).parts .pci (by decide)
@[simp] theorem log_pending : (s.log c v f u a x).pending = s.pending := (log_logged s c v f u a x).parts .pending (by decide)
@[simp] theorem log_clk : (s.log c v f u a x).clk = s.clk := ((log_logged s c v f u a x).parts .clocks (by decide)).1
@[simp] theorem log_runClk : (s.log c v f u a x).runClk = s.runClk := ((log_logged s c v f u a x).parts .clocks (by decide)).2
@[simp] theorem log_freeCount : (s.log c v f u a x).freeCount = s.freeCount := (log_logged s c v f u a x).parts .free (by decide)
@[simp] theorem log_nor : (s.log c v f u a x).evr.nor = s.evr.nor := ((log_logged s c v f u a x).parts .nor (by decide)).1
@[simp] theorem log_norOpen : (s.log c v f u a x).evr.norOpen = s.evr.norOpen :=
  ((log_logged s c v f u a x).parts .nor (by decide)).2

@[simp] theorem log_mode : (s.log c v f u a x).pwr.mode = s.pwr.mode := by rw [(log_logged s c v f u a x).pwr]
@[simp] theorem log_perst : (s.log c v f u a x).pwr.perst = s.pwr.perst := by rw [(log_logged s c v f u a x).pwr]
@[simp] theorem log_entryOk : (s.log c v f u a x).boot.entryOk = s.boot.entryOk := by rw [(log_logged s c v f u a x).boot]
@[simp] theorem log_configReady : (s.log c v f u a x).boot.configReady = s.boot.configReady := by
  rw [(log_logged s c v f u a x).boot]

/-- Logging leaves every register outside the recorder's and the freeze controller's. -/
theorem log_reg (b : Nat) (h : b < 0x980000 ∨ 0xA10000 ≤ b) : (s.log c v f u a x).reg b = s.reg b :=
  (log_logged s c v f u a x).regs b h

theorem log_fld (g : Fld) (h : g.addr < 0x980000 ∨ 0xA10000 ≤ g.addr) : (s.log c v f u a x).fld g = s.fld g := by
  unfold State.fld; rw [log_reg s c v f u a x _ h]

end Sys2Proof.Machine
end

