-- ==== Sys2Proof/Laws/Kept.lean ====
section
/-! SUPPORT. What an operation keeps, in a form that composes: the parts outside a mask, the canonical form of the stores,
and the outputs so far. Each operation of the model has one lemma in this form, in the files whose names begin with Kept. -/

namespace Sys2Proof.Machine

/-- The bit of a part in a mask. -/
def Part.bit : Part → Nat
  | .regs => 0 | .latch => 1 | .fused => 2 | .pwr => 3 | .boot => 4 | .tick => 5 | .exm => 6 | .ewb => 7 | .flt => 8
  | .evr => 9 | .nor => 10 | .frz => 11 | .eng => 12 | .qs => 13 | .slices => 14 | .sec => 15 | .mem => 16 | .sch => 17
  | .yar => 18 | .ffe => 19 | .tsl => 20 | .cmp => 21 | .sns => 22 | .pci => 23 | .clocks => 24 | .free => 25 | .out => 26
  | .pending => 27 | .drive => 28 | .stepFrozen => 29 | .exmMem => 30 | .cmn => 31 | .hbm => 32

/-- The parts of mask `m` are parts of mask `P`. -/
def allows (m P : Nat) : Bool := Nat.land m P == m

/-- `t` differs from `s` in parts of the mask only; canonical stores are canonical still; outputs are only added. -/
structure Kept (P : Nat) (s t : State) : Prop where
  parts : ∀ p : Part, P.testBit p.bit = false → s.same t p
  canon : s.canonical = true → t.canonical = true
  outs : ∃ l, t.out = l ++ s.out

/-- An answer that is a next state within the mask. -/
def KeptR (P : Nat) (s : State) (r : Res) : Prop := ∃ t, r = .next t ∧ Kept P s t

variable {P : Nat} {s t u : State}

theorem Kept.refl (s : State) : Kept P s s := ⟨fun p _ => same_refl s p, id, [], rfl⟩

theorem Kept.trans (h : Kept P s t) (k : Kept P t u) : Kept P s u := by
  refine ⟨fun p hp => same_trans p (h.parts p hp) (k.parts p hp), fun c => k.canon (h.canon c), ?_⟩
  obtain ⟨l, hl⟩ := h.outs
  obtain ⟨m, hm⟩ := k.outs
  exact ⟨m ++ l, by rw [hm, hl, List.append_assoc]⟩

theorem allows_iff {m : Nat} : allows m P = true ↔ Nat.land m P = m := by simp [allows]

theorem testBit_of_land {m n i : Nat} (h : Nat.land m n = m) (hi : n.testBit i = false) : m.testBit i = false := by
  have : (Nat.land m n).testBit i = m.testBit i := by rw [h]
  rw [show Nat.land m n = m &&& n from rfl, Nat.testBit_and, hi] at this
  simpa using this.symm

/-- What a smaller mask keeps, a larger one does. -/
theorem Kept.mono {m : Nat} (h : Kept m s t) (hP : allows m P = true) : Kept P s t :=
  ⟨fun p hp => h.parts p (testBit_of_land (allows_iff.mp hP) hp), h.canon, h.outs⟩

theorem allows_trans {m m' : Nat} (h : allows m m' = true) (hP : allows m' P = true) : allows m P = true := by
  have h1 := allows_iff.mp h
  have h3 := allows_iff.mp hP
  refine allows_iff.mpr (Nat.eq_of_testBit_eq fun i => ?_)
  have e1 : (Nat.land m m').testBit i = m.testBit i := by rw [h1]
  have e2 : (Nat.land m' P).testBit i = m'.testBit i := by rw [h3]
  rw [show Nat.land m m' = m &&& m' from rfl, Nat.testBit_and] at e1
  rw [show Nat.land m' P = m' &&& P from rfl, Nat.testBit_and] at e2
  rw [show Nat.land m P = m &&& P from rfl, Nat.testBit_and]
  revert e1 e2
  cases m.testBit i <;> cases m'.testBit i <;> cases P.testBit i <;> simp

theorem allows_bit {m : Nat} (h : allows m P = true) (i : Nat) (hm : m.testBit i = true) : P.testBit i = true := by
  cases hi : P.testBit i
  · exact absurd hm (by simp [testBit_of_land (allows_iff.mp h) hi])
  · rfl

/-- An operation that keeps what is outside the mask from every state, as one that continues from `t`. -/
theorem Kept.then {f : State → State} (h : Kept P s t) (hf : ∀ v, Kept P v (f v)) : Kept P s (f t) := h.trans (hf t)

/-! ### Combinators -/

theorem kept_ite {c : Prop} [Decidable c] {a b : State} (ha : Kept P s a) (hb : Kept P s b) :
    Kept P s (if c then a else b) := by split <;> assumption

theorem kept_foldl {β : Type} {g : State → β → State} {l : List β} (hg : ∀ u b, Kept P s u → Kept P s (g u b))
    (h : Kept P s t) : Kept P s (l.foldl g t) := by
  induction l generalizing t with
  | nil => exact h
  | cons b l ih => exact ih (hg t b h)

theorem keptR_next (h : Kept P s t) : KeptR P s (.next t) := ⟨t, rfl, h⟩

theorem keptR_ite {c : Prop} [Decidable c] {a b : Res} (ha : KeptR P s a) (hb : KeptR P s b) :
    KeptR P s (if c then a else b) := by split <;> assumption

/-- A state named for what it is. -/
theorem kept_sub {x a : State} {g : Prop} (e : x = a) (h : Kept P s a) (k : Kept P s x → g) : g := k (e ▸ h)

/-- Anything named for what it is. -/
theorem kept_subG {α : Type} {x a : α} {g : Prop} (Q : α → Prop) (e : x = a) (h : Q a) (k : Q x → g) : g := k (e ▸ h)

/-! ### The other shapes of an answer -/

/-- A state with something beside it. -/
structure KeptF {α : Type} (P : Nat) (s : State) (x : State × α) : Prop where
  fst : Kept P s x.1

/-- Something with a state after it. -/
structure KeptL {α : Type} (P : Nat) (s : State) (x : α × State) : Prop where
  snd : Kept P s x.2

/-- Two things with a state after them. -/
structure KeptN {α β : Type} (P : Nat) (s : State) (x : α × β × State) : Prop where
  snd : Kept P s x.2.2

/-- A reply of a command. -/
structure KeptReply (P : Nat) (s : State) (x : Reply) : Prop where
  st : Kept P s x.st

/-- A state under construction for a batch. -/
structure KeptBuild (P : Nat) (s : State) (x : Build) : Prop where
  st : Kept P s x.st

/-- The end of an engine's step. -/
structure KeptS (P : Nat) (s : State) (x : StepRes) : Prop where
  on : ∀ t, x = .ok t → Kept P s t

/-- A state that need not be there. -/
structure KeptO (P : Nat) (s : State) (x : Option State) : Prop where
  on : ∀ t, x = some t → Kept P s t

/-- A state that need not be there, after something. -/
structure KeptP {α : Type} (P : Nat) (s : State) (x : Option (α × State)) : Prop where
  on : ∀ a t, x = some (a, t) → Kept P s t

/-- A state, or something in its place. -/
structure KeptI {α : Type} (P : Nat) (s : State) (x : α ⊕ State) : Prop where
  on : ∀ t, x = .inr t → Kept P s t

/-- A tile bound to a place. -/
structure KeptB (P : Nat) (s : State) (x : Bound) : Prop where
  on : ∀ p t, x = .ok p t → Kept P s t

section Shapes
variable {α β : Type}

theorem KeptF.pair {b : α} (h : Kept P s t) : KeptF P s (t, b) := ⟨h⟩
theorem KeptF.of {x : State × α} {a : State} {b : α} (e : x = (a, b)) (h : KeptF P s x) : Kept P s a := by
  subst e; exact h.fst
theorem KeptL.pair {b : α} (h : Kept P s t) : KeptL P s (b, t) := ⟨h⟩
theorem KeptL.of {x : α × State} {a : State} {b : α} (e : x = (b, a)) (h : KeptL P s x) : Kept P s a := by
  subst e; exact h.snd
theorem KeptN.pair {a : α} {b : β} (h : Kept P s t) : KeptN P s (a, b, t) := ⟨h⟩
theorem KeptN.of {x : α × β × State} {a : State} {b : β} {c : α} (e : x = (c, b, a)) (h : KeptN P s x) : Kept P s a := by
  subst e; exact h.snd
theorem KeptReply.made {a b : Nat} {l : List Byte} (h : Kept P s t) : KeptReply P s ⟨t, a, b, l⟩ := ⟨h⟩
theorem KeptBuild.made {r : List (Nat × Nat × Nat)} {a b : Nat} (h : Kept P s t) : KeptBuild P s ⟨t, r, a, b⟩ := ⟨h⟩
theorem KeptS.ok (h : Kept P s t) : KeptS P s (.ok t) := ⟨fun _ e => by cases e; exact h⟩
theorem KeptS.bad {a b c : Nat} : KeptS P s (.bad a b c) := ⟨fun _ e => by cases e⟩
theorem KeptS.of {x : StepRes} (e : x = .ok t) (h : KeptS P s x) : Kept P s t := h.on _ e
theorem KeptB.ok {p : Nat} (h : Kept P s t) : KeptB P s (.ok p t) := ⟨fun _ _ e => by cases e; exact h⟩
theorem KeptB.wait : KeptB P s .wait := ⟨fun _ _ e => by cases e⟩
theorem KeptB.bad : KeptB P s .bad := ⟨fun _ _ e => by cases e⟩
theorem KeptB.of {x : Bound} {p : Nat} (e : x = .ok p t) (h : KeptB P s x) : Kept P s t := h.on _ _ e
theorem KeptO.some (h : Kept P s t) : KeptO P s (some t) := ⟨fun _ e => by cases e; exact h⟩
theorem KeptO.none : KeptO P s none := ⟨fun _ e => by cases e⟩
theorem KeptO.of {x : Option State} (e : x = .some t) (h : KeptO P s x) : Kept P s t := h.on _ e
theorem KeptP.some {a : α} (h : Kept P s t) : KeptP P s (some (a, t)) := ⟨fun _ _ e => by cases e; exact h⟩
theorem KeptP.none : KeptP P s (none : Option (α × State)) := ⟨fun _ _ e => by cases e⟩
theorem KeptP.of {x : Option (α × State)} {a : α} (e : x = .some (a, t)) (h : KeptP P s x) : Kept P s t := h.on _ _ e
theorem KeptI.inr (h : Kept P s t) : KeptI P s (.inr t : α ⊕ State) := ⟨fun _ e => by cases e; exact h⟩
theorem KeptI.inl {a : α} : KeptI P s (.inl a : α ⊕ State) := ⟨fun _ e => by cases e⟩
theorem KeptI.of {x : α ⊕ State} (e : x = .inr t) (h : KeptI P s x) : Kept P s t := h.on _ e
theorem KeptO.map {f : α → State} {o : Option α} (h : ∀ x, Kept P s (f x)) : KeptO P s (o.map f) := by
  cases o with
  | none => exact KeptO.none
  | some x => exact KeptO.some (h x)
theorem KeptP.map {f : α → β × State} {o : Option α} (h : ∀ x, KeptL P s (f x)) : KeptP P s (o.map f) := by
  cases o with
  | none => exact KeptP.none
  | some x => exact KeptP.some (h x).snd
theorem kept_foldl_F {g : State × α → β → State × α} {l : List β} {x : State × α}
    (hg : ∀ x b, KeptF P s x → KeptF P s (g x b)) (h : KeptF P s x) : KeptF P s (l.foldl g x) := by
  induction l generalizing x with
  | nil => exact h
  | cons b l ih => exact ih (hg x b h)
theorem kept_foldl_L {g : α × State → β → α × State} {l : List β} {x : α × State}
    (hg : ∀ x b, KeptL P s x → KeptL P s (g x b)) (h : KeptL P s x) : KeptL P s (l.foldl g x) := by
  induction l generalizing x with
  | nil => exact h
  | cons b l ih => exact ih (hg x b h)
theorem kept_foldl_N {γ : Type} {g : α × β × State → γ → α × β × State} {l : List γ} {x : α × β × State}
    (hg : ∀ x b, KeptN P s x → KeptN P s (g x b)) (h : KeptN P s x) : KeptN P s (l.foldl g x) := by
  induction l generalizing x with
  | nil => exact h
  | cons b l ih => exact ih (hg x b h)
theorem kept_foldl_O {g : Option State → β → Option State} {l : List β} {x : Option State}
    (hg : ∀ x b, KeptO P s x → KeptO P s (g x b)) (h : KeptO P s x) : KeptO P s (l.foldl g x) := by
  induction l generalizing x with
  | nil => exact h
  | cons b l ih => exact ih (hg x b h)

end Shapes

/-! ### Base operations -/

/-- An update of the state that leaves registers, stores and outputs. -/
theorem Kept.other (h : Kept P s t) (hp : ∀ p : Part, P.testBit p.bit = false → t.same u p)
    (hr : u.regs = t.regs) (hm : u.exm.mem = t.exm.mem) (hn : u.evr.nor = t.evr.nor) (hc : u.mem.cmn = t.mem.cmn)
    (hh : u.mem.hbm = t.mem.hbm) (ho : u.out = t.out) : Kept P s u :=
  h.trans ⟨hp, by unfold State.canonical; rw [hr, hm, hn, hc, hh]; exact id, [], by rw [ho]; rfl⟩

theorem canonical_iff : s.canonical = true ↔ fwf regReset s.regs = true ∧ fwf (fun _ => (0 : Byte)) s.exm.mem = true ∧
    fwf norErased s.evr.nor = true ∧ fwf (fun _ => (0 : Byte)) s.mem.cmn = true ∧ fwf (fun _ => 0) s.mem.hbm = true := by
  simp [State.canonical, and_assoc]

/-- An update of the register file. -/
theorem Kept.regs (h : Kept P s t) (r : FMap Word) (h0 : allows 1 P = true)
    (hc : fwf regReset t.regs = true → fwf regReset r = true) : Kept P s { t with regs := r } := by
  have hb := allows_bit h0 0 (by decide)
  refine h.trans ⟨fun p hp => ?_, fun c => ?_, [], rfl⟩
  · cases p <;> simp_all [State.same, Part.bit]
  · have := canonical_iff.mp c
    exact canonical_iff.mpr ⟨hc this.1, this.2⟩

theorem setReg_kept (h : Kept P s t) (a : Nat) (v : Word) (hP : allows 1 P = true) : Kept P s (t.setReg a v) :=
  Kept.regs h _ hP (fwf_fset _ _ _ _)

theorem setFld_kept (h : Kept P s t) (f : Fld) (v : Nat) (hP : allows 1 P = true) : Kept P s (t.setFld f v) :=
  setReg_kept h _ _ hP

theorem setBit_kept (h : Kept P s t) (f : Fld) (v : Bool) (hP : allows 1 P = true) : Kept P s (t.setBit f v) :=
  setReg_kept h _ _ hP

theorem addFld_kept (h : Kept P s t) (f : Fld) (n : Nat) (hP : allows 1 P = true) : Kept P s (t.addFld f n) :=
  setReg_kept h _ _ hP

theorem bump_kept (h : Kept P s t) (f : Fld) (hP : allows 1 P = true) : Kept P s (t.bump f) :=
  setReg_kept h _ _ hP

theorem resetReg_kept (h : Kept P s t) (a : Nat) (hP : allows 1 P = true) : Kept P s (t.resetReg a) :=
  setReg_kept h _ _ hP

theorem resetRegs_kept (h : Kept P s t) (lo hi : Nat) (hP : allows 1 P = true) : Kept P s (t.resetRegs lo hi) :=
  Kept.regs h _ hP (fwf_fclear _ _ _ _)

theorem setPair_kept (h : Kept P s t) (lo hi v : Nat) (hP : allows 1 P = true) :
    Kept P s (t.setPair lo hi v) := setReg_kept (setReg_kept h _ _ hP) _ _ hP

/-! One lemma for an update of each part. -/

theorem Kept.set_latch (h : Kept P s t) (v : FMap Nat) (hP : allows 2 P = true) :
    Kept P s { t with latch := v } := by
  have hb := allows_bit hP 1 (by decide)
  exact h.other (fun p hp => by cases p <;> simp_all [State.same, Part.bit]) rfl rfl rfl rfl rfl rfl

theorem Kept.set_fused (h : Kept P s t) (v : Fused) (hP : allows 4 P = true) :
    Kept P s { t with fused := v } := by
  have hb := allows_bit hP 2 (by decide)
  exact h.other (fun p hp => by cases p <;> simp_all [State.same, Part.bit]) rfl rfl rfl rfl rfl rfl

theorem Kept.set_pwr (h : Kept P s t) (v : Power) (hP : allows 268435464 P = true) :
    Kept P s { t with pwr := v } := by
  have epwr := allows_bit hP 28 (by decide)
  have hb := allows_bit hP 3 (by decide)
  exact h.other (fun p hp => by cases p <;> simp_all [State.same, Part.bit]) rfl rfl rfl rfl rfl rfl

theorem Kept.set_boot (h : Kept P s t) (v : Boot) (hP : allows 536870928 P = true) :
    Kept P s { t with boot := v } := by
  have eboot := allows_bit hP 29 (by decide)
  have hb := allows_bit hP 4 (by decide)
  exact h.other (fun p hp => by cases p <;> simp_all [State.same, Part.bit]) rfl rfl rfl rfl rfl rfl

theorem Kept.set_tick (h : Kept P s t) (v : Tick) (hP : allows 32 P = true) :
    Kept P s { t with tick := v } := by
  have hb := allows_bit hP 5 (by decide)
  exact h.other (fun p hp => by cases p <;> simp_all [State.same, Part.bit]) rfl rfl rfl rfl rfl rfl

theorem Kept.set_exm (h : Kept P s t) (v : Exchange) (hP : allows 64 P = true) (hm : v.mem = t.exm.mem) :
    Kept P s { t with exm := v } := by
  have hb := allows_bit hP 6 (by decide)
  exact h.other (fun p hp => by cases p <;> simp_all [State.same, Part.bit]) rfl hm rfl rfl rfl rfl

theorem Kept.set_ewb (h : Kept P s t) (v : Ewebin) (hP : allows 128 P = true) :
    Kept P s { t with ewb := v } := by
  have hb := allows_bit hP 7 (by decide)
  exact h.other (fun p hp => by cases p <;> simp_all [State.same, Part.bit]) rfl rfl rfl rfl rfl rfl

theorem Kept.set_flt (h : Kept P s t) (v : Faults) (hP : allows 256 P = true) :
    Kept P s { t with flt := v } := by
  have hb := allows_bit hP 8 (by decide)
  exact h.other (fun p hp => by cases p <;> simp_all [State.same, Part.bit]) rfl rfl rfl rfl rfl rfl

theorem Kept.set_evr (h : Kept P s t) (v : Recorder) (hP : allows 512 P = true) (hn : v.nor = t.evr.nor) (ho : v.norOpen = t.evr.norOpen) :
    Kept P s { t with evr := v } := by
  have hb := allows_bit hP 9 (by decide)
  exact h.other (fun p hp => by cases p <;> simp_all [State.same, Part.bit]) rfl rfl hn rfl rfl rfl

theorem Kept.set_frz (h : Kept P s t) (v : Freeze) (hP : allows 2048 P = true) :
    Kept P s { t with frz := v } := by
  have hb := allows_bit hP 11 (by decide)
  exact h.other (fun p hp => by cases p <;> simp_all [State.same, Part.bit]) rfl rfl rfl rfl rfl rfl

theorem Kept.set_eng (h : Kept P s t) (v : Engine) (hP : allows 4096 P = true) :
    Kept P s { t with eng := v } := by
  have hb := allows_bit hP 12 (by decide)
  exact h.other (fun p hp => by cases p <;> simp_all [State.same, Part.bit]) rfl rfl rfl rfl rfl rfl

theorem Kept.set_qs (h : Kept P s t) (v : FMap Queue) (hP : allows 8192 P = true) :
    Kept P s { t with qs := v } := by
  have hb := allows_bit hP 13 (by decide)
  exact h.other (fun p hp => by cases p <;> simp_all [State.same, Part.bit]) rfl rfl rfl rfl rfl rfl

theorem Kept.set_slices (h : Kept P s t) (v : FMap Slice) (hP : allows 16384 P = true) :
    Kept P s { t with slices := v } := by
  have hb := allows_bit hP 14 (by decide)
  exact h.other (fun p hp => by cases p <;> simp_all [State.same, Part.bit]) rfl rfl rfl rfl rfl rfl

theorem Kept.set_sec (h : Kept P s t) (v : Trust) (hP : allows 32768 P = true) :
    Kept P s { t with sec := v } := by
  have hb := allows_bit hP 15 (by decide)
  exact h.other (fun p hp => by cases p <;> simp_all [State.same, Part.bit]) rfl rfl rfl rfl rfl rfl

theorem Kept.set_mem (h : Kept P s t) (v : Memory) (hP : allows 65536 P = true) (hm : v.cmn = t.mem.cmn) (hn : v.hbm = t.mem.hbm) :
    Kept P s { t with mem := v } := by
  have hb := allows_bit hP 16 (by decide)
  exact h.other (fun p hp => by cases p <;> simp_all [State.same, Part.bit]) rfl rfl rfl hm hn rfl

theorem Kept.set_sch (h : Kept P s t) (v : Sched) (hP : allows 131072 P = true) :
    Kept P s { t with sch := v } := by
  have hb := allows_bit hP 17 (by decide)
  exact h.other (fun p hp => by cases p <;> simp_all [State.same, Part.bit]) rfl rfl rfl rfl rfl rfl

theorem Kept.set_yar (h : Kept P s t) (v : Yarrow) (hP : allows 262144 P = true) :
    Kept P s { t with yar := v } := by
  have hb := allows_bit hP 18 (by decide)
  exact h.other (fun p hp => by cases p <;> simp_all [State.same, Part.bit]) rfl rfl rfl rfl rfl rfl

theorem Kept.set_ffe (h : Kept P s t) (v : Engines) (hP : allows 524288 P = true) :
    Kept P s { t with ffe := v } := by
  have hb := allows_bit hP 19 (by decide)
  exact h.other (fun p hp => by cases p <;> simp_all [State.same, Part.bit]) rfl rfl rfl rfl rfl rfl

theorem Kept.set_tsl (h : Kept P s t) (v : Teasel) (hP : allows 1048576 P = true) :
    Kept P s { t with tsl := v } := by
  have hb := allows_bit hP 20 (by decide)
  exact h.other (fun p hp => by cases p <;> simp_all [State.same, Part.bit]) rfl rfl rfl rfl rfl rfl

theorem Kept.set_cmp (h : Kept P s t) (v : Campion) (hP : allows 2097152 P = true) :
    Kept P s { t with cmp := v } := by
  have hb := allows_bit hP 21 (by decide)
  exact h.other (fun p hp => by cases p <;> simp_all [State.same, Part.bit]) rfl rfl rfl rfl rfl rfl

theorem Kept.set_sns (h : Kept P s t) (v : Sensors) (hP : allows 4194304 P = true) :
    Kept P s { t with sns := v } := by
  have hb := allows_bit hP 22 (by decide)
  exact h.other (fun p hp => by cases p <;> simp_all [State.same, Part.bit]) rfl rfl rfl rfl rfl rfl

theorem Kept.set_pci (h : Kept P s t) (v : Pcie) (hP : allows 8388608 P = true) :
    Kept P s { t with pci := v } := by
  have hb := allows_bit hP 23 (by decide)
  exact h.other (fun p hp => by cases p <;> simp_all [State.same, Part.bit]) rfl rfl rfl rfl rfl rfl

theorem Kept.set_freeCount (h : Kept P s t) (v : Nat) (hP : allows 33554432 P = true) :
    Kept P s { t with freeCount := v } := by
  have hb := allows_bit hP 25 (by decide)
  exact h.other (fun p hp => by cases p <;> simp_all [State.same, Part.bit]) rfl rfl rfl rfl rfl rfl

/-! Updates of several parts at once. -/

theorem Kept.set_clk_runClk (h : Kept P s t) (v0 : Nat) (v1 : Nat) (hP : allows 16777216 P = true) :
    Kept P s { t with clk := v0, runClk := v1 } := by
  have b0 := allows_bit hP 24 (by decide)
  have b1 := allows_bit hP 24 (by decide)
  exact h.other (fun p hp => by cases p <;> simp_all [State.same, Part.bit]) rfl rfl rfl rfl rfl rfl

theorem Kept.set_eng_sec (h : Kept P s t) (v0 : Engine) (v1 : Trust) (hP : allows 36864 P = true) :
    Kept P s { t with eng := v0, sec := v1 } := by
  have b0 := allows_bit hP 12 (by decide)
  have b1 := allows_bit hP 15 (by decide)
  exact h.other (fun p hp => by cases p <;> simp_all [State.same, Part.bit]) rfl rfl rfl rfl rfl rfl

theorem Kept.set_mem_sch_ffe_tsl (h : Kept P s t) (v0 : Memory) (v1 : Sched) (v2 : Engines) (v3 : Teasel) (hP : allows 1769472 P = true) (hc : v0.cmn = t.mem.cmn) (hh : v0.hbm = t.mem.hbm) :
    Kept P s { t with mem := v0, sch := v1, ffe := v2, tsl := v3 } := by
  have b0 := allows_bit hP 16 (by decide)
  have b1 := allows_bit hP 17 (by decide)
  have b2 := allows_bit hP 19 (by decide)
  have b3 := allows_bit hP 20 (by decide)
  exact h.other (fun p hp => by cases p <;> simp_all [State.same, Part.bit]) rfl rfl rfl hc hh rfl

theorem Kept.set_pwr_boot_frz (h : Kept P s t) (v0 : Power) (v1 : Boot) (v2 : Freeze) (hP : allows 805308440 P = true) :
    Kept P s { t with pwr := v0, boot := v1, frz := v2 } := by
  have epwr := allows_bit hP 28 (by decide)
  have eboot := allows_bit hP 29 (by decide)
  have b0 := allows_bit hP 3 (by decide)
  have b1 := allows_bit hP 4 (by decide)
  have b2 := allows_bit hP 11 (by decide)
  exact h.other (fun p hp => by cases p <;> simp_all [State.same, Part.bit]) rfl rfl rfl rfl rfl rfl

theorem Kept.set_pwr_evr_sec_sch (h : Kept P s t) (v0 : Power) (v1 : Recorder) (v2 : Trust) (v3 : Sched) (hP : allows 268599816 P = true) (hn : v1.nor = t.evr.nor) (ho : v1.norOpen = t.evr.norOpen) :
    Kept P s { t with pwr := v0, evr := v1, sec := v2, sch := v3 } := by
  have epwr := allows_bit hP 28 (by decide)
  have b0 := allows_bit hP 3 (by decide)
  have b1 := allows_bit hP 9 (by decide)
  have b2 := allows_bit hP 15 (by decide)
  have b3 := allows_bit hP 17 (by decide)
  exact h.other (fun p hp => by cases p <;> simp_all [State.same, Part.bit]) rfl rfl hn rfl rfl rfl

theorem Kept.set_pwr_frz (h : Kept P s t) (v0 : Power) (v1 : Freeze) (hP : allows 268437512 P = true) :
    Kept P s { t with pwr := v0, frz := v1 } := by
  have epwr := allows_bit hP 28 (by decide)
  have b0 := allows_bit hP 3 (by decide)
  have b1 := allows_bit hP 11 (by decide)
  exact h.other (fun p hp => by cases p <;> simp_all [State.same, Part.bit]) rfl rfl rfl rfl rfl rfl

theorem Kept.set_sch_tsl (h : Kept P s t) (v0 : Sched) (v1 : Teasel) (hP : allows 1179648 P = true) :
    Kept P s { t with sch := v0, tsl := v1 } := by
  have b0 := allows_bit hP 17 (by decide)
  have b1 := allows_bit hP 20 (by decide)
  exact h.other (fun p hp => by cases p <;> simp_all [State.same, Part.bit]) rfl rfl rfl rfl rfl rfl

theorem Kept.set_sch_yar (h : Kept P s t) (v0 : Sched) (v1 : Yarrow) (hP : allows 393216 P = true) :
    Kept P s { t with sch := v0, yar := v1 } := by
  have b0 := allows_bit hP 17 (by decide)
  have b1 := allows_bit hP 18 (by decide)
  exact h.other (fun p hp => by cases p <;> simp_all [State.same, Part.bit]) rfl rfl rfl rfl rfl rfl

theorem Kept.set_sec_mem (h : Kept P s t) (v0 : Trust) (v1 : Memory) (hP : allows 98304 P = true) (hc : v1.cmn = t.mem.cmn) (hh : v1.hbm = t.mem.hbm) :
    Kept P s { t with sec := v0, mem := v1 } := by
  have b0 := allows_bit hP 15 (by decide)
  have b1 := allows_bit hP 16 (by decide)
  exact h.other (fun p hp => by cases p <;> simp_all [State.same, Part.bit]) rfl rfl rfl hc hh rfl

theorem Kept.set_sec_tsl (h : Kept P s t) (v0 : Trust) (v1 : Teasel) (hP : allows 1081344 P = true) :
    Kept P s { t with sec := v0, tsl := v1 } := by
  have b0 := allows_bit hP 15 (by decide)
  have b1 := allows_bit hP 20 (by decide)
  exact h.other (fun p hp => by cases p <;> simp_all [State.same, Part.bit]) rfl rfl rfl rfl rfl rfl

theorem Kept.set_slices_sch (h : Kept P s t) (v0 : FMap Slice) (v1 : Sched) (hP : allows 147456 P = true) :
    Kept P s { t with slices := v0, sch := v1 } := by
  have b0 := allows_bit hP 14 (by decide)
  have b1 := allows_bit hP 17 (by decide)
  exact h.other (fun p hp => by cases p <;> simp_all [State.same, Part.bit]) rfl rfl rfl rfl rfl rfl

theorem Kept.set_yar_ffe_tsl (h : Kept P s t) (v0 : Yarrow) (v1 : Engines) (v2 : Teasel) (hP : allows 1835008 P = true) :
    Kept P s { t with yar := v0, ffe := v1, tsl := v2 } := by
  have b0 := allows_bit hP 18 (by decide)
  have b1 := allows_bit hP 19 (by decide)
  have b2 := allows_bit hP 20 (by decide)
  exact h.other (fun p hp => by cases p <;> simp_all [State.same, Part.bit]) rfl rfl rfl rfl rfl rfl

theorem Kept.set_exm_pci (h : Kept P s t) (v0 : Exchange) (v1 : Pcie) (hP : allows 8388672 P = true) (hm : v0.mem = t.exm.mem) :
    Kept P s { t with exm := v0, pci := v1 } := by
  have b0 := allows_bit hP 6 (by decide)
  have b1 := allows_bit hP 23 (by decide)
  exact h.other (fun p hp => by cases p <;> simp_all [State.same, Part.bit]) rfl hm rfl rfl rfl rfl

theorem emit_kept (h : Kept P s t) (o : Output) (hP : allows 0x4000000 P = true) : Kept P s (t.emit o) := by
  have hb := allows_bit hP 26 (by decide)
  refine h.trans ⟨fun p hp => ?_, id, [o], rfl⟩
  cases p <;> simp_all [State.same, Part.bit]

theorem emitAll_kept (h : Kept P s t) (l : List Output) (hP : allows 0x4000000 P = true) :
    Kept P s (t.emitAll l) := kept_foldl (fun _ o hu => emit_kept hu o hP) h

theorem drawnN_kept (h : Kept P s t) (n : Nat) (hP : allows 0x2000000 P = true) : Kept P s (t.drawnN n) :=
  h.set_freeCount _ hP

theorem drawn_kept (h : Kept P s t) (hP : allows 0x2000000 P = true) : Kept P s t.drawn := h.set_freeCount _ hP

/-- The exchange memory's bytes and what goes with them change. -/
theorem Kept.exmMem (h : Kept P s t) (x : Exchange) (hP : allows 0x40000040 P = true)
    (hc : fwf (fun _ => (0 : Byte)) t.exm.mem = true → fwf (fun _ => (0 : Byte)) x.mem = true) :
    Kept P s { t with exm := x } := by
  have hb := allows_bit hP 6 (by decide)
  have hd := allows_bit hP 30 (by decide)
  refine h.trans ⟨fun p hp => ?_, fun c => ?_, [], rfl⟩
  · cases p <;> simp_all [State.same, Part.bit]
  · have := canonical_iff.mp c
    exact canonical_iff.mpr ⟨this.1, hc this.2.1, this.2.2⟩

/-- The exchange memory's bytes alone change. -/
theorem Kept.exmBytes (h : Kept P s t) (m : FMap Byte) (hP : allows 0x40000000 P = true)
    (hc : fwf (fun _ => (0 : Byte)) t.exm.mem = true → fwf (fun _ => (0 : Byte)) m = true) :
    Kept P s { t with exm := { t.exm with mem := m } } := by
  have hd := allows_bit hP 30 (by decide)
  refine h.trans ⟨fun p hp => ?_, fun c => ?_, [], rfl⟩
  · cases p <;> simp_all [State.same, Part.bit]
  · have := canonical_iff.mp c
    exact canonical_iff.mpr ⟨this.1, hc this.2.1, this.2.2⟩

/-- The NOR device's bytes alone change. -/
theorem Kept.norBytes (h : Kept P s t) (m : FMap Byte) (o : FMap Nat) (hP : allows 0x400 P = true)
    (hc : fwf norErased t.evr.nor = true → fwf norErased m = true) :
    Kept P s { t with evr := { t.evr with nor := m, norOpen := o } } := by
  have hd := allows_bit hP 10 (by decide)
  refine h.trans ⟨fun p hp => ?_, fun c => ?_, [], rfl⟩
  · cases p <;> simp_all [State.same, Part.bit]
  · have := canonical_iff.mp c
    exact canonical_iff.mpr ⟨this.1, this.2.1, hc this.2.2.1, this.2.2.2⟩

/-- The stores of the memory system and what goes with them change. -/
theorem Kept.memMem (h : Kept P s t) (x : Memory) (hP : allows 0x180010000 P = true)
    (hc : fwf (fun _ => (0 : Byte)) t.mem.cmn = true → fwf (fun _ => (0 : Byte)) x.cmn = true)
    (hh : fwf (fun _ => 0) t.mem.hbm = true → fwf (fun _ => 0) x.hbm = true) : Kept P s { t with mem := x } := by
  have hb := allows_bit hP 16 (by decide)
  have hd := allows_bit hP 31 (by decide)
  have he := allows_bit hP 32 (by decide)
  refine h.trans ⟨fun p hp => ?_, fun c => ?_, [], rfl⟩
  · cases p <;> simp_all [State.same, Part.bit]
  · have := canonical_iff.mp c
    exact canonical_iff.mpr ⟨this.1, this.2.1, this.2.2.1, hc this.2.2.2.1, hh this.2.2.2.2⟩

/-- The stores of the memory system alone change. -/
theorem Kept.memBytes (h : Kept P s t) (c : FMap Byte) (d : FMap Nat) (hP : allows 0x180000000 P = true)
    (hc : fwf (fun _ => (0 : Byte)) t.mem.cmn = true → fwf (fun _ => (0 : Byte)) c = true)
    (hh : fwf (fun _ => 0) t.mem.hbm = true → fwf (fun _ => 0) d = true) :
    Kept P s { t with mem := { t.mem with cmn := c, hbm := d } } := by
  have hd := allows_bit hP 31 (by decide)
  have he := allows_bit hP 32 (by decide)
  refine h.trans ⟨fun p hp => ?_, fun c => ?_, [], rfl⟩
  · cases p <;> simp_all [State.same, Part.bit]
  · have := canonical_iff.mp c
    exact canonical_iff.mpr ⟨this.1, this.2.1, this.2.2.1, hc this.2.2.2.1, hh this.2.2.2.2⟩

/-- The registers, the memory system and the scheduler change. -/
theorem Kept.set_regs_mem_sch (h : Kept P s t) (r : FMap Word) (m : Memory) (c : Sched) (hP : allows 0x180030001 P = true)
    (hr : fwf regReset t.regs = true → fwf regReset r = true)
    (hc : fwf (fun _ => (0 : Byte)) t.mem.cmn = true → fwf (fun _ => (0 : Byte)) m.cmn = true)
    (hh : fwf (fun _ => 0) t.mem.hbm = true → fwf (fun _ => 0) m.hbm = true) :
    Kept P s { t with regs := r, mem := m, sch := c } := by
  have k0 := allows_bit hP 0 (by decide)
  have k1 := allows_bit hP 16 (by decide)
  have k2 := allows_bit hP 17 (by decide)
  have hd := allows_bit hP 31 (by decide)
  have he := allows_bit hP 32 (by decide)
  refine h.trans ⟨fun p hp => ?_, fun c => ?_, [], rfl⟩
  · cases p <;> simp_all [State.same, Part.bit]
  · have := canonical_iff.mp c
    exact canonical_iff.mpr ⟨hr this.1, this.2.1, this.2.2.1, hc this.2.2.2.1, hh this.2.2.2.2⟩

/-- The keys and the memory system change. -/
theorem Kept.set_sec_memMem (h : Kept P s t) (v : Trust) (m : Memory) (hP : allows 0x180018000 P = true)
    (hc : fwf (fun _ => (0 : Byte)) t.mem.cmn = true → fwf (fun _ => (0 : Byte)) m.cmn = true)
    (hh : fwf (fun _ => 0) t.mem.hbm = true → fwf (fun _ => 0) m.hbm = true) : Kept P s { t with sec := v, mem := m } := by
  have k0 := allows_bit hP 15 (by decide)
  have k1 := allows_bit hP 16 (by decide)
  have hd := allows_bit hP 31 (by decide)
  have he := allows_bit hP 32 (by decide)
  refine h.trans ⟨fun p hp => ?_, fun c => ?_, [], rfl⟩
  · cases p <;> simp_all [State.same, Part.bit]
  · have := canonical_iff.mp c
    exact canonical_iff.mpr ⟨this.1, this.2.1, this.2.2.1, hc this.2.2.2.1, hh this.2.2.2.2⟩

theorem exmPut_kept (h : Kept P s t) (a : Nat) (bs : List Byte) (hP : allows 0x40000000 P = true) : Kept P s (t.exmPut a bs) :=
  h.exmBytes _ hP (fwf_foldl_fset _ (fun p : Byte × Nat => a + p.2) (fun _ p => p.1) _ _)

theorem exmZero_kept (h : Kept P s t) (a n : Nat) (hP : allows 0x40000040 P = true) : Kept P s (t.exmZero a n) :=
  h.exmMem _ hP (fwf_fclear _ _ _ _)

theorem norProgram_kept (h : Kept P s t) (a : Nat) (bs : List Byte) (hP : allows 0x400 P = true) :
    Kept P s (t.norProgram a bs) :=
  h.norBytes _ _ hP (fwf_foldl_fset _ (fun p : Byte × Nat => a + p.2) (fun m p => fget norErased m (a + p.2) &&& p.1) _ _)

theorem norErase_kept (h : Kept P s t) (a n : Nat) (hP : allows 0x400 P = true) : Kept P s (t.norErase a n) :=
  h.norBytes _ _ hP (fwf_fclear _ _ _ _)

theorem norSpoil_kept (h : Kept P s t) (a n : Nat) (hP : allows 0x400 P = true) : Kept P s (t.norSpoil a n) :=
  h.norBytes _ _ hP id

end Sys2Proof.Machine
end

