-- ==== Sys2Proof/Laws/KeptOps.lean ====
section
/-! SUPPORT. What each operation of Machine/Ops.lean keeps: see `Kept`. -/

namespace Sys2Proof.Machine

variable {P : Nat} {b : State}

theorem sendOn_kept (x1 : State) (x2 : List Nat) (x3 : List Byte) (h1 : Kept P b x1) (hP : allows 67108864 P = true) :
    Kept P b (State.sendOn x1 x2 x3) := by
  unfold State.sendOn
  repeat' first
    | with_reducible first
      | assumption | apply emitAll_kept

theorem notify_kept (x1 : State) (x2 : Nat) (x3 : Nat) (h1 : Kept P b x1) (hP : allows 67108928 P = true) :
    Kept P b (State.notify x1 x2 x3) := by
  unfold State.notify
  repeat' first
    | with_reducible first
      | assumption | exact allows_trans (by decide) hP | (extract_lets +onlyGivenNames x; revert x; intro y)
      | apply emit_kept | split | apply Kept.set_exm | (dsimp only)

theorem setTrigger_kept (x1 : State) (x2 : Nat) (x3 : Nat) (h1 : Kept P b x1) (hP : allows 1073741824 P = true) :
    Kept P b (State.setTrigger x1 x2 x3) := by
  unfold State.setTrigger
  repeat' first
    | with_reducible first
      | assumption | apply exmPut_kept

theorem pendPf_kept (x1 : State) (x2 : Nat) (x3 : Nat) (h1 : Kept P b x1) (hP : allows 67108929 P = true) :
    Kept P b (State.pendPf x1 x2 x3) := by
  unfold State.pendPf
  repeat' first
    | with_reducible first
      | assumption | exact allows_trans (by decide) hP | (extract_lets +onlyGivenNames x; revert x; intro y)
      | apply notify_kept | apply setFld_kept | split

theorem pendVf_kept (x1 : State) (x2 : Nat) (x3 : Nat) (x4 : Nat) (h1 : Kept P b x1) (hP : allows 67108928 P = true) :
    Kept P b (State.pendVf x1 x2 x3 x4) := by
  unfold State.pendVf
  repeat' first
    | with_reducible first
      | assumption | exact allows_trans (by decide) hP | (extract_lets +onlyGivenNames x; revert x; intro y)
      | apply notify_kept | split | apply Kept.set_exm | (dsimp only)

theorem noPendingPeriod_kept (x1 : State) (h1 : Kept P b x1) (hP : allows 1 P = true) :
    Kept P b (State.noPendingPeriod x1) := by
  unfold State.noPendingPeriod
  repeat' first
    | with_reducible first
      | assumption | apply setPair_kept | apply setFld_kept

theorem postNotice_kept (x1 : State) (x2 : Nat) (x3 : Nat) (x4 : Nat) (x5 : List Byte) (h1 : Kept P b x1) (hP : allows 1140850753 P = true) :
    Kept P b (State.postNotice x1 x2 x3 x4 x5) := by
  unfold State.postNotice
  repeat' first
    | with_reducible first
      | assumption | exact allows_trans (by decide) hP | (extract_lets +onlyGivenNames x; revert x; intro y)
      | apply pendPf_kept | apply setTrigger_kept | apply exmPut_kept

end Sys2Proof.Machine
end

