-- ==== Sys2Proof/Laws/KeptEvents.lean ====
section
/-! SUPPORT. What each operation of Machine/Events.lean keeps: see `Kept`. -/

namespace Sys2Proof.Machine

variable {P : Nat} {b : State}

theorem takeSeq_kept (x1 : State) (h1 : Kept P b x1) (hP : allows 1 P = true) :
    Kept P b (State.takeSeq x1) := by
  unfold State.takeSeq
  repeat' first
    | with_reducible first
      | assumption | apply setReg_kept

theorem recNotice_kept (x1 : State) (x2 : Nat) (x3 : Nat) (x4 : Nat) (h1 : Kept P b x1) (hP : allows 512 P = true) :
    Kept P b (State.recNotice x1 x2 x3 x4) := by
  unfold State.recNotice
  repeat' first
    | with_reducible first
      | assumption | (extract_lets +onlyGivenNames x; revert x; intro y) | apply Kept.set_evr | (dsimp only)

theorem pushRec_kept (x1 : State) (x2 : Record) (x3 : List (List Byte)) (x4 : Bool) (h1 : Kept P b x1) (hP : allows 513 P = true) :
    Kept P b (State.pushRec x1 x2 x3 x4) := by
  unfold State.pushRec
  repeat' first
    | with_reducible first
      | assumption | exact allows_trans (by decide) hP
      | (extract_lets +onlyGivenNames x; have : State := x; clear this; clear_value (ex : x = _); revert x; intro z ez; refine kept_sub (P := P) (s := b) ez ?_ (fun hz => ?_))
      | (extract_lets +onlyGivenNames x; revert x; intro y) | apply bump_kept | apply takeSeq_kept | apply recNotice_kept
      | split | apply Kept.set_evr | (dsimp only)

theorem snapshot_kept (x1 : State) (x2 : Nat) (x3 : Nat) (x4 : Nat) (x5 : List (List Byte)) (h1 : Kept P b x1) (hP : allows 513 P = true) :
    Kept P b (State.snapshot x1 x2 x3 x4 x5) := by
  unfold State.snapshot
  repeat' first
    | with_reducible first
      | assumption | exact allows_trans (by decide) hP | (extract_lets +onlyGivenNames x; revert x; intro y)
      | apply pushRec_kept | apply bump_kept

theorem trigAct_kept (x1 : State → Bool → State) (x2 : Record) (x3 : State) (x4 : Nat) (h1 : ∀ y0 y1, Kept P b y0 → Kept P b (x1 y0 y1)) (h3 : Kept P b x3) (hP : allows 513 P = true) :
    Kept P b (State.trigAct x1 x2 x3 x4) := by
  unfold State.trigAct
  repeat' first
    | with_reducible first
      | assumption | exact allows_trans (by decide) hP
      | (extract_lets +onlyGivenNames x; have : State := x; clear this; clear_value (ex : x = _); revert x; intro z ez; refine kept_sub (P := P) (s := b) ez ?_ (fun hz => ?_))
      | apply bump_kept | apply pushRec_kept | apply setFld_kept | apply snapshot_kept | apply recNotice_kept | split
      | apply h1

theorem createWith_kept (x1 : State → Bool → State) (x2 : State) (x3 : Record) (h1 : ∀ y0 y1, Kept P b y0 → Kept P b (x1 y0 y1)) (h2 : Kept P b x2) (hP : allows 513 P = true) :
    Kept P b (State.createWith x1 x2 x3) := by
  unfold State.createWith
  repeat' first
    | with_reducible first
      | assumption | intro _ | apply trigAct_kept | apply pushRec_kept | apply kept_foldl

theorem freezeMark_kept (x1 : State) (x2 : Nat) (h1 : Kept P b x1) (hP : allows 805308417 P = true) :
    Kept P b (State.freezeMark x1 x2) := by
  unfold State.freezeMark
  have k0 := allows_bit hP 0 (by decide)
  have k1 := allows_bit hP 11 (by decide)
  have k2 := allows_bit hP 28 (by decide)
  have k3 := allows_bit hP 29 (by decide)
  have h2 : Kept P b (((x1.setFld F.FRZ_STATUS_STATE 1).setFld F.FRZ_STATUS_SOURCE x2).bump F.FRZ_CNT_FREEZES_COUNT) :=
    bump_kept (setFld_kept (setFld_kept h1 _ _ (allows_trans (by decide) hP)) _ _ (allows_trans (by decide) hP)) _
      (allows_trans (by decide) hP)
  refine h2.other (fun p hp => ?_) rfl rfl rfl rfl rfl rfl
  cases p <;> simp_all [State.same, Part.bit]

theorem freezeSnap_kept (x1 : State) (h1 : Kept P b x1) (hP : allows 513 P = true) :
    Kept P b (State.freezeSnap x1) := by
  unfold State.freezeSnap
  repeat' first
    | with_reducible first
      | assumption | apply snapshot_kept | split

theorem sendFrz_kept (x1 : State) (x2 : Nat) (h1 : Kept P b x1) (hP : allows 67108993 P = true) :
    Kept P b (State.sendFrz x1 x2) := by
  unfold State.sendFrz
  repeat' first
    | with_reducible first
      | assumption | exact allows_trans (by decide) hP
      | (extract_lets +onlyGivenNames x; have : State := x; clear this; clear_value (ex : x = _); revert x; intro z ez; refine kept_sub (P := P) (s := b) ez ?_ (fun hz => ?_))
      | (extract_lets +onlyGivenNames x; revert x; intro y) | apply sendOn_kept | apply setFld_kept | apply Kept.set_ewb

theorem freezeVia_kept (x1 : State → Record → State) (x2 : Nat) (x3 : State) (x4 : Bool) (h1 : ∀ y0 y1, Kept P b y0 → Kept P b (x1 y0 y1)) (h3 : Kept P b x3) (hP : allows 872417921 P = true) :
    Kept P b (State.freezeVia x1 x2 x3 x4) := by
  unfold State.freezeVia
  repeat' first
    | with_reducible first
      | assumption | exact allows_trans (by decide) hP
      | (extract_lets +onlyGivenNames x; have : State := x; clear this; clear_value (ex : x = _); revert x; intro z ez; refine kept_sub (P := P) (s := b) ez ?_ (fun hz => ?_))
      | apply freezeMark_kept | apply freezeSnap_kept | apply sendFrz_kept | split | apply h1

theorem freezeAgain_kept (x1 : State) (x2 : Bool) (h1 : Kept P b x1) (hP : allows 67108993 P = true) :
    Kept P b (State.freezeAgain x1 x2) := by
  unfold State.freezeAgain
  repeat' first
    | with_reducible first
      | assumption | apply sendFrz_kept | split

theorem freezeReq_kept (x1 : State) (x2 : Nat) (x3 : Bool) (h1 : Kept P b x1) (hP : allows 872417921 P = true) :
    Kept P b (State.freezeReq x1 x2 x3) := by
  unfold State.freezeReq
  repeat' first
    | with_reducible first
      | assumption | intro _ | exact allows_trans (by decide) hP | apply freezeVia_kept | apply createWith_kept
      | apply freezeAgain_kept

theorem record_kept (x1 : State) (x2 : Record) (h1 : Kept P b x1) (hP : allows 872417921 P = true) :
    Kept P b (State.record x1 x2) := by
  unfold State.record
  repeat' first
    | with_reducible first
      | assumption | intro _ | exact allows_trans (by decide) hP | apply createWith_kept | apply freezeReq_kept

theorem log_kept (x1 : State) (x2 : Nat) (x3 : Nat) (x4 : Nat) (x5 : Nat) (x6 : Nat) (x7 : Nat) (h1 : Kept P b x1) (hP : allows 872417921 P = true) :
    Kept P b (State.log x1 x2 x3 x4 x5 x6 x7) := by
  unfold State.log
  repeat' first
    | with_reducible first
      | assumption | apply record_kept

theorem logInjected_kept (x1 : State) (x2 : Nat) (x3 : Nat) (x4 : Nat) (x5 : Nat) (x6 : Nat) (x7 : Nat) (h1 : Kept P b x1) (hP : allows 872417921 P = true) :
    Kept P b (State.logInjected x1 x2 x3 x4 x5 x6 x7) := by
  unfold State.logInjected
  repeat' first
    | with_reducible first
      | assumption | apply record_kept

end Sys2Proof.Machine
end

