-- ==== Sys2Proof/Laws/KeptExchange.lean ====
section
/-! SUPPORT. What each operation of Machine/Exchange.lean keeps: see `Kept`. -/

namespace Sys2Proof.Machine

variable {P : Nat} {b : State}

theorem eccUe_kept (x1 : State) (x2 : Nat) (h1 : Kept P b x1) (hP : allows 872417921 P = true) :
    Kept P b (State.eccUe x1 x2) := by
  unfold State.eccUe
  repeat' first
    | with_reducible first
      | assumption | exact allows_trans (by decide) hP | apply log_kept | apply setFld_kept | apply bump_kept

theorem clearVfExchange_kept (x1 : State) (x2 : Nat) (h1 : Kept P b x1) (hP : allows 1073741888 P = true) :
    Kept P b (State.clearVfExchange x1 x2) := by
  unfold State.clearVfExchange
  repeat' first
    | with_reducible first
      | assumption | intro _ | exact allows_trans (by decide) hP
      | (extract_lets +onlyGivenNames x; have : State := x; clear this; clear_value (ex : x = _); revert x; intro z ez; refine kept_sub (P := P) (s := b) ez ?_ (fun hz => ?_))
      | (extract_lets +onlyGivenNames x; revert x; intro y) | apply exmZero_kept | apply kept_foldl | split
      | apply Kept.set_exm | (dsimp only)

theorem trigReject_kept (x1 : State) (h1 : Kept P b x1) (hP : allows 1 P = true) :
    Kept P b (State.trigReject x1) := by
  unfold State.trigReject
  repeat' first
    | with_reducible first
      | assumption | apply bump_kept

theorem trigTake_kept (x1 : State) (x2 : Nat) (x3 : Nat) (h1 : Kept P b x1) (hP : allows 1073741825 P = true) :
    Kept P b (State.trigTake x1 x2 x3) := by
  unfold State.trigTake
  repeat' first
    | with_reducible first
      | assumption | exact allows_trans (by decide) hP | apply setTrigger_kept | apply trigReject_kept | split

theorem notifyDone_kept (x1 : State) (x2 : Nat) (h1 : Kept P b x1) (hP : allows 1140850753 P = true) :
    Kept P b (State.notifyDone x1 x2) := by
  unfold State.notifyDone
  repeat' first
    | with_reducible first
      | assumption | exact allows_trans (by decide) hP | apply pendPf_kept | apply pendVf_kept | apply setTrigger_kept
      | split

theorem trigDone_kept (x1 : State) (x2 : Nat) (x3 : Nat) (x4 : Nat) (h1 : Kept P b x1) (hP : allows 1140850753 P = true) :
    Kept P b (State.trigDone x1 x2 x3 x4) := by
  unfold State.trigDone
  repeat' first
    | with_reducible first
      | assumption | exact allows_trans (by decide) hP | apply notifyDone_kept | apply setTrigger_kept
      | apply trigReject_kept | split

theorem eccCe_kept (x1 : State) (h1 : Kept P b x1) (hP : allows 1 P = true) :
    Kept P b (State.eccCe x1) := by
  unfold State.eccCe
  repeat' first
    | with_reducible first
      | assumption | apply bump_kept

theorem upset_kept (x1 : State) (x2 : Upsets) (h1 : Kept P b x1) (hP : allows 65 P = true) :
    Kept P b (State.upset x1 x2) := by
  unfold State.upset
  repeat' first
    | with_reducible first
      | assumption | intro _ | exact allows_trans (by decide) hP | (extract_lets +onlyGivenNames x; revert x; intro y)
      | apply eccCe_kept | apply kept_foldl | split | apply Kept.set_exm | (dsimp only)

theorem denied_kept (x1 : State) (x2 : Req) (x3 : Nat) (h1 : Kept P b x1) (hP : allows 1 P = true) :
    Kept P b (State.denied x1 x2 x3) := by
  unfold State.denied
  repeat' first
    | with_reducible first
      | assumption
      | (extract_lets +onlyGivenNames x; have : State := x; clear this; clear_value (ex : x = _); revert x; intro z ez; refine kept_sub (P := P) (s := b) ez ?_ (fun hz => ?_))
      | apply setFld_kept | apply bump_kept

theorem semaTake_kept (x1 : State) (x2 : Nat) (x3 : Nat) (h1 : Kept P b x1) (hP : allows 1073741888 P = true) :
    Kept P b (State.semaTake x1 x2 x3) := by
  unfold State.semaTake
  repeat' first
    | with_reducible first
      | assumption | exact allows_trans (by decide) hP
      | (extract_lets +onlyGivenNames x; have : State := x; clear this; clear_value (ex : x = _); revert x; intro z ez; refine kept_sub (P := P) (s := b) ez ?_ (fun hz => ?_))
      | (extract_lets +onlyGivenNames x; revert x; intro y) | apply exmPut_kept | apply Kept.set_exm | (dsimp only)

theorem semaRead_kept (x1 : State) (x2 : Req) (x3 : Nat) (h1 : Kept P b x1) (hP : allows 1073741888 P = true) :
    KeptF P b (State.semaRead x1 x2 x3) := by
  unfold State.semaRead
  repeat' first
    | with_reducible first
      | assumption | (extract_lets +onlyGivenNames x; revert x; intro y) | apply KeptF.pair | apply semaTake_kept | split

theorem readPart_kept (x1 : State) (x2 : Req) (x3 : Nat) (x4 : Nat) (h1 : Kept P b x1) (hP : allows 905972353 P = true) :
    KeptF P b (State.readPart x1 x2 x3 x4) := by
  unfold State.readPart
  repeat' first
    | with_reducible first
      | assumption | exact allows_trans (by decide) hP | apply KeptF.pair | apply drawnN_kept | apply eccUe_kept | apply denied_kept | split

theorem readParts_kept (x1 : Req) (x2 : List (Nat × Nat)) (x3 : State) (h3 : Kept P b x3) (hP : allows 905972353 P = true) :
    KeptF P b (readParts x1 x2 x3) := by
  induction x2 generalizing x1 x3 with
  | nil =>
    rw [readParts]
    repeat' first
      | with_reducible first
        | assumption | apply KeptF.pair
  | cons a l ih =>
    rw [readParts]
    repeat' first
      | with_reducible first
        | assumption | apply KeptF.pair | (apply KeptF.fst; apply readPart_kept) | (apply KeptF.fst; apply ih)

theorem exmRead_kept (x1 : State) (x2 : Req) (x3 : Nat) (x4 : Nat) (h1 : Kept P b x1) (hP : allows 1979714241 P = true) :
    Kept P b (State.exmRead x1 x2 x3 x4) := by
  unfold State.exmRead
  repeat' first
    | with_reducible first
      | assumption | exact allows_trans (by decide) hP
      | (extract_lets +onlyGivenNames x; have : State := x; clear this; clear_value (ex : x = _); revert x; intro z ez; refine kept_sub (P := P) (s := b) ez ?_ (fun hz => ?_))
      | (extract_lets +onlyGivenNames x; have : State × _ := x; clear this; clear_value (ex : x = _); revert x; intro z ez; refine kept_subG (KeptF P b) ez ?_ (fun hz => ?_))
      | apply KeptF.pair | (apply KeptF.fst; apply semaRead_kept) | (apply KeptF.fst; apply readParts_kept)
      | apply emit_kept | apply denied_kept | apply bump_kept | split | (apply KeptF.fst; assumption)

theorem semaFree_kept (x1 : State) (x2 : Nat) (h1 : Kept P b x1) (hP : allows 1073741888 P = true) :
    Kept P b (State.semaFree x1 x2) := by
  unfold State.semaFree
  repeat' first
    | with_reducible first
      | assumption | apply exmZero_kept

theorem semaWrite_kept (x1 : State) (x2 : Req) (x3 : Nat) (x4 : Nat) (h1 : Kept P b x1) (hP : allows 1073741889 P = true) :
    Kept P b (State.semaWrite x1 x2 x3 x4) := by
  unfold State.semaWrite
  repeat' first
    | with_reducible first
      | assumption | exact allows_trans (by decide) hP | apply semaFree_kept | apply bump_kept | split

theorem trigIdle_kept (x1 : State) (x2 : Nat) (x3 : Nat) (h1 : Kept P b x1) (hP : allows 1073741825 P = true) :
    Kept P b (State.trigIdle x1 x2 x3) := by
  unfold State.trigIdle
  repeat' first
    | with_reducible first
      | assumption | exact allows_trans (by decide) hP | apply setTrigger_kept | apply trigReject_kept | split

theorem notifyPosted_kept (x1 : State) (x2 : Nat) (x3 : Nat) (h1 : Kept P b x1) (hP : allows 67108929 P = true) :
    Kept P b (State.notifyPosted x1 x2 x3) := by
  unfold State.notifyPosted
  repeat' first
    | with_reducible first
      | assumption | exact allows_trans (by decide) hP | apply pendVf_kept | apply pendPf_kept | split

theorem trigPost_kept (x1 : State) (x2 : Nat) (x3 : Nat) (x4 : Nat) (h1 : Kept P b x1) (hP : allows 1140850753 P = true) :
    Kept P b (State.trigPost x1 x2 x3 x4) := by
  unfold State.trigPost
  repeat' first
    | with_reducible first
      | assumption | exact allows_trans (by decide) hP | apply notifyPosted_kept | apply setTrigger_kept
      | apply trigReject_kept | split

theorem trigWrite_kept (x1 : State) (x2 : Nat) (x3 : Nat) (x4 : Nat) (h1 : Kept P b x1) (hP : allows 1140850753 P = true) :
    Kept P b (State.trigWrite x1 x2 x3 x4) := by
  unfold State.trigWrite
  repeat' first
    | with_reducible first
      | assumption | exact allows_trans (by decide) hP | apply trigReject_kept | apply trigIdle_kept | apply trigPost_kept
      | apply trigTake_kept | apply trigDone_kept | split

theorem writePart_kept (x1 : State) (x2 : Req) (x3 : Nat) (x4 : List Byte) (x5 : Bool) (h1 : Kept P b x1) (hP : allows 1946159809 P = true) :
    Kept P b (State.writePart x1 x2 x3 x4 x5) := by
  unfold State.writePart
  repeat' first
    | with_reducible first
      | assumption | exact allows_trans (by decide) hP | apply denied_kept | apply semaWrite_kept | apply bump_kept
      | apply trigWrite_kept | apply trigReject_kept | apply exmPut_kept | apply exmZero_kept | apply eccUe_kept | split

theorem exmWrite_kept (x1 : State) (x2 : Req) (x3 : Nat) (x4 : List Byte) (h1 : Kept P b x1) (hP : allows 1946159809 P = true) :
    Kept P b (State.exmWrite x1 x2 x3 x4) := by
  unfold State.exmWrite
  repeat' first
    | with_reducible first
      | assumption | intro _ | apply writePart_kept | apply kept_foldl

theorem forceRelease_kept (x1 : State) (x2 : Nat) (x3 : Nat) (x4 : Nat) (h1 : Kept P b x1) (hP : allows 1946159809 P = true) :
    Kept P b (State.forceRelease x1 x2 x3 x4) := by
  unfold State.forceRelease
  repeat' first
    | with_reducible first
      | assumption | exact allows_trans (by decide) hP
      | (extract_lets +onlyGivenNames x; have : State := x; clear this; clear_value (ex : x = _); revert x; intro z ez; refine kept_sub (P := P) (s := b) ez ?_ (fun hz => ?_))
      | (extract_lets +onlyGivenNames x; revert x; intro y) | apply setFld_kept | apply bump_kept | apply semaFree_kept
      | apply log_kept | apply pendVf_kept | apply notify_kept | split

theorem sweepWord_kept (x1 : State) (x2 : Nat) (x3 : Nat) (h1 : Kept P b x1) (hP : allows 1946159809 P = true) :
    Kept P b (State.sweepWord x1 x2 x3) := by
  unfold State.sweepWord
  repeat' first
    | with_reducible first
      | assumption | (extract_lets +onlyGivenNames x; revert x; intro y) | apply forceRelease_kept | split

theorem execExchangeRead_kept (x1 : Req) (x2 : Nat) (x3 : Nat) (x4 : Upsets) (x5 : Bool) (x6 : State) (h6 : Kept P b x6) (hP : allows 1979714241 P = true) :
    KeptR P b (execExchangeRead x1 x2 x3 x4 x5 x6) := by
  unfold execExchangeRead
  repeat' first
    | with_reducible first
      | assumption | exact allows_trans (by decide) hP
      | (extract_lets +onlyGivenNames x; have : State := x; clear this; clear_value (ex : x = _); revert x; intro z ez; refine kept_sub (P := P) (s := b) ez ?_ (fun hz => ?_))
      | apply keptR_next | apply upset_kept | apply bump_kept | apply exmRead_kept | apply emit_kept | split

theorem execExchangeWrite_kept (x1 : Req) (x2 : Nat) (x3 : List Byte) (x4 : Upsets) (x5 : Bool) (x6 : State) (h6 : Kept P b x6) (hP : allows 1946159809 P = true) :
    KeptR P b (execExchangeWrite x1 x2 x3 x4 x5 x6) := by
  unfold execExchangeWrite
  repeat' first
    | with_reducible first
      | assumption | exact allows_trans (by decide) hP
      | (extract_lets +onlyGivenNames x; have : State := x; clear this; clear_value (ex : x = _); revert x; intro z ez; refine kept_sub (P := P) (s := b) ez ?_ (fun hz => ?_))
      | (extract_lets +onlyGivenNames x; revert x; intro y) | apply keptR_next | apply upset_kept | apply bump_kept
      | apply exmWrite_kept | split | apply Kept.set_exm | (dsimp only)

theorem execSemaReadAcquire_kept (x1 : Req) (x2 : Nat) (x3 : Option Req) (x4 : State) (h4 : Kept P b x4) (hP : allows 1979714241 P = true) :
    KeptR P b (execSemaReadAcquire x1 x2 x3 x4) := by
  unfold execSemaReadAcquire
  repeat' first
    | with_reducible first
      | assumption | exact allows_trans (by decide) hP
      | (extract_lets +onlyGivenNames x; have : State := x; clear this; clear_value (ex : x = _); revert x; intro z ez; refine kept_sub (P := P) (s := b) ez ?_ (fun hz => ?_))
      | (extract_lets +onlyGivenNames x; revert x; intro y) | apply keptR_next | apply exmRead_kept | apply bump_kept
      | apply setFld_kept | split

theorem execSemaReleaseWrite_kept (x1 : Req) (x2 : Nat) (x3 : DWord) (x4 : State) (h4 : Kept P b x4) (hP : allows 1946159809 P = true) :
    KeptR P b (execSemaReleaseWrite x1 x2 x3 x4) := by
  unfold execSemaReleaseWrite
  repeat' first
    | with_reducible first
      | assumption | apply keptR_next | apply exmWrite_kept | split

theorem execSweeperVisit_kept (x1 : State) (h1 : Kept P b x1) (hP : allows 1946159809 P = true) :
    KeptR P b (execSweeperVisit x1) := by
  unfold execSweeperVisit
  repeat' first
    | with_reducible first
      | assumption | intro _ | apply keptR_next | apply sweepWord_kept | apply kept_foldl | split

theorem execSlotPost_kept (x1 : Req) (x2 : Nat) (x3 : DWord) (x4 : State) (h4 : Kept P b x4) (hP : allows 1140850753 P = true) :
    KeptR P b (execSlotPost x1 x2 x3 x4) := by
  unfold execSlotPost
  repeat' first
    | with_reducible first
      | assumption | apply keptR_next | apply trigWrite_kept

theorem execSlotWithdraw_kept (x1 : Req) (x2 : Nat) (x3 : State) (h3 : Kept P b x3) (hP : allows 1140850753 P = true) :
    KeptR P b (execSlotWithdraw x1 x2 x3) := by
  unfold execSlotWithdraw
  repeat' first
    | with_reducible first
      | assumption | exact allows_trans (by decide) hP | apply keptR_next | apply trigWrite_kept | apply trigReject_kept
      | split

theorem execSlotTake_kept (x1 : Req) (x2 : Nat) (x3 : State) (h3 : Kept P b x3) (hP : allows 1140850753 P = true) :
    KeptR P b (execSlotTake x1 x2 x3) := by
  unfold execSlotTake
  repeat' first
    | with_reducible first
      | assumption | apply keptR_next | apply trigWrite_kept

theorem execSlotDone_kept (x1 : Req) (x2 : Nat) (x3 : DWord) (x4 : State) (h4 : Kept P b x4) (hP : allows 1140850753 P = true) :
    KeptR P b (execSlotDone x1 x2 x3 x4) := by
  unfold execSlotDone
  repeat' first
    | with_reducible first
      | assumption | apply keptR_next | apply trigWrite_kept

theorem execSlotReturnIdle_kept (x1 : Req) (x2 : Nat) (x3 : State) (h3 : Kept P b x3) (hP : allows 1140850753 P = true) :
    KeptR P b (execSlotReturnIdle x1 x2 x3) := by
  unfold execSlotReturnIdle
  repeat' first
    | with_reducible first
      | assumption | exact allows_trans (by decide) hP | apply keptR_next | apply trigWrite_kept | apply trigReject_kept
      | split

theorem execMsixHoldoffEnd_kept (x1 : Nat) (x2 : Nat) (x3 : State) (h3 : Kept P b x3) (hP : allows 67108928 P = true) :
    KeptR P b (execMsixHoldoffEnd x1 x2 x3) := by
  unfold execMsixHoldoffEnd
  repeat' first
    | with_reducible first
      | assumption | exact allows_trans (by decide) hP | (extract_lets +onlyGivenNames x; revert x; intro y)
      | apply keptR_next | apply emit_kept | split | apply Kept.set_exm | (dsimp only)

theorem execClrCounters_kept (x1 : Word) (x2 : State) (h2 : Kept P b x2) (hP : allows 1 P = true) :
    KeptR P b (execClrCounters x1 x2) := by
  unfold execClrCounters
  repeat' first
    | with_reducible first
      | assumption | apply keptR_next | apply resetRegs_kept | split

end Sys2Proof.Machine
end

