-- ==== Sys2Proof/Laws/KeptCommand.lean ====
section
/-! SUPPORT. What each operation of Machine/Command.lean keeps: see `Kept`. -/

namespace Sys2Proof.Machine

variable {P : Nat} {b : State}

theorem vfEvent_kept (x1 : State) (x2 : Nat) (x3 : Nat) (h1 : Kept P b x1) (hP : allows 67108929 P = true) :
    Kept P b (State.vfEvent x1 x2 x3) := by
  unfold State.vfEvent
  repeat' first
    | with_reducible first
      | assumption | exact allows_trans (by decide) hP | (extract_lets +onlyGivenNames x; revert x; intro y)
      | apply notify_kept | apply setFld_kept | split

theorem modJob_kept (x1 : State) (x2 : Nat) (x3 : Job → Job) (h1 : Kept P b x1) (hP : allows 4096 P = true) :
    Kept P b (State.modJob x1 x2 x3) := by
  unfold State.modJob
  repeat' first
    | with_reducible first
      | assumption | (extract_lets +onlyGivenNames x; revert x; intro y) | apply Kept.set_eng

theorem endJob_kept (x1 : State) (x2 : Nat) (x3 : Nat) (x4 : Nat) (h1 : Kept P b x1) (hP : allows 100667457 P = true) :
    Kept P b (State.endJob x1 x2 x3 x4) := by
  unfold State.endJob
  repeat' first
    | with_reducible first
      | assumption | exact allows_trans (by decide) hP
      | (extract_lets +onlyGivenNames x; have : State := x; clear this; clear_value (ex : x = _); revert x; intro z ez; refine kept_sub (P := P) (s := b) ez ?_ (fun hz => ?_))
      | (extract_lets +onlyGivenNames x; revert x; intro y) | apply modJob_kept | apply drawn_kept | apply notify_kept
      | apply setFld_kept | apply vfEvent_kept | split | apply Kept.set_eng

theorem no_kept (x1 : State) (x2 : Nat) (x3 : Nat) (h1 : Kept P b x1) (hP : allows 0 P = true) :
    KeptReply P b (State.no x1 x2 x3) := by
  unfold State.no
  repeat' first
    | with_reducible first
      | assumption | apply KeptReply.made

theorem dataError_kept (x1 : State) (x2 : Nat) (x3 : Nat) (x4 : Nat) (h1 : Kept P b x1) (hP : allows 872417921 P = true) :
    KeptReply P b (State.dataError x1 x2 x3 x4) := by
  unfold State.dataError
  repeat' first
    | with_reducible first
      | assumption | intro _ | exact allows_trans (by decide) hP
      | (extract_lets +onlyGivenNames x; have : State := x; clear this; clear_value (ex : x = _); revert x; intro z ez; refine kept_sub (P := P) (s := b) ez ?_ (fun hz => ?_))
      | apply KeptReply.made | (apply KeptReply.st; apply no_kept) | apply eccUe_kept | apply log_kept | apply setFld_kept
      | apply kept_foldl

theorem answer_kept (x1 : State) (x2 : Nat) (x3 : Call → State → Reply) (h1 : Kept P b x1) (h3 : ∀ y0 y1, Kept P b y1 → KeptReply P b (x3 y0 y1)) (hP : allows 872417921 P = true) :
    KeptReply P b (State.answer x1 x2 x3) := by
  unfold State.answer
  repeat' first
    | with_reducible first
      | assumption | exact allows_trans (by decide) hP | (extract_lets +onlyGivenNames x; revert x; intro y)
      | apply KeptReply.made | (apply KeptReply.st; apply no_kept) | (apply KeptReply.st; apply dataError_kept) | split
      | (apply KeptReply.st; apply h3)

theorem bufferPut_kept (x1 : State) (x2 : Nat) (x3 : List Byte) (h1 : Kept P b x1) (hP : allows 1073741888 P = true) :
    Kept P b (State.bufferPut x1 x2 x3) := by
  unfold State.bufferPut
  repeat' first
    | with_reducible first
      | assumption | exact allows_trans (by decide) hP
      | (extract_lets +onlyGivenNames x; have : State := x; clear this; clear_value (ex : x = _); revert x; intro z ez; refine kept_sub (P := P) (s := b) ez ?_ (fun hz => ?_))
      | (extract_lets +onlyGivenNames x; revert x; intro y) | apply exmPut_kept | apply Kept.set_exm | (dsimp only)

theorem finish_kept (x1 : Nat) (x2 : List Byte) (x3 : Reply) (h3 : Kept P b x3.st) (hP : allows 1140854849 P = true) :
    Kept P b (State.finish x1 x2 x3) := by
  unfold State.finish
  repeat' first
    | with_reducible first
      | assumption | exact allows_trans (by decide) hP
      | (extract_lets +onlyGivenNames x; have : State := x; clear this; clear_value (ex : x = _); revert x; intro z ez; refine kept_sub (P := P) (s := b) ez ?_ (fun hz => ?_))
      | (extract_lets +onlyGivenNames x; revert x; intro y) | apply bump_kept | apply setFld_kept | apply exmPut_kept
      | apply trigDone_kept | split | apply Kept.set_eng

theorem serve_kept (x1 : State) (x2 : Nat) (x3 : Call → State → Reply) (h1 : Kept P b x1) (h3 : ∀ y0 y1, Kept P b y1 → KeptReply P b (x3 y0 y1)) (hP : allows 1946163905 P = true) :
    Kept P b (State.serve x1 x2 x3) := by
  unfold State.serve
  repeat' first
    | with_reducible first
      | assumption | exact allows_trans (by decide) hP
      | (extract_lets +onlyGivenNames x; have : State := x; clear this; clear_value (ex : x = _); revert x; intro z ez; refine kept_sub (P := P) (s := b) ez ?_ (fun hz => ?_))
      | (extract_lets +onlyGivenNames x; revert x; intro y) | (apply KeptReply.st; apply answer_kept) | apply bump_kept
      | apply trigTake_kept | apply finish_kept

theorem command_kept (x1 : State) (x2 : Nat) (x3 : Upsets) (x4 : Call → State → Reply) (h1 : Kept P b x1) (h4 : ∀ y0 y1, Kept P b y1 → KeptReply P b (x4 y0 y1)) (hP : allows 1946163905 P = true) :
    KeptR P b (State.command x1 x2 x3 x4) := by
  unfold State.command
  repeat' first
    | with_reducible first
      | assumption | exact allows_trans (by decide) hP | apply keptR_next | apply serve_kept | apply upset_kept | split

theorem ok_kept (x1 : State) (x2 : List Byte) (h1 : Kept P b x1) (hP : allows 0 P = true) :
    KeptReply P b (State.ok x1 x2) := by
  unfold State.ok
  repeat' first
    | with_reducible first
      | assumption | apply KeptReply.made

theorem startJob_kept (x1 : State) (x2 : Call) (x3 : Nat) (x4 : Nat) (x5 : Nat) (x6 : Nat) (h1 : Kept P b x1) (hP : allows 4096 P = true) :
    KeptReply P b (State.startJob x1 x2 x3 x4 x5 x6) := by
  unfold State.startJob
  repeat' first
    | with_reducible first
      | assumption | exact allows_trans (by decide) hP
      | (extract_lets +onlyGivenNames x; have : State := x; clear this; clear_value (ex : x = _); revert x; intro z ez; refine kept_sub (P := P) (s := b) ez ?_ (fun hz => ?_))
      | (extract_lets +onlyGivenNames x; revert x; intro y) | apply KeptReply.made | (apply KeptReply.st; apply no_kept)
      | apply modJob_kept | split | apply Kept.set_eng

theorem execUnknownOpcode_kept (x1 : Upsets) (x2 : State) (h2 : Kept P b x2) (hP : allows 1946163905 P = true) :
    KeptR P b (execUnknownOpcode x1 x2) := by
  unfold execUnknownOpcode
  repeat' first
    | with_reducible first
      | assumption | intro _ | exact allows_trans (by decide) hP | apply keptR_next | apply KeptReply.made
      | (apply KeptReply.st; apply no_kept) | apply serve_kept | apply upset_kept | split

theorem execNop_kept (x1 : Upsets) (x2 : State) (h2 : Kept P b x2) (hP : allows 1946163905 P = true) :
    KeptR P b (execNop x1 x2) := by
  unfold execNop
  repeat' first
    | with_reducible first
      | assumption | intro _ | exact allows_trans (by decide) hP | apply KeptReply.made
      | (apply KeptReply.st; apply ok_kept) | apply command_kept

theorem execIdentify_kept (x1 : Upsets) (x2 : State) (h2 : Kept P b x2) (hP : allows 1946163905 P = true) :
    KeptR P b (execIdentify x1 x2) := by
  unfold execIdentify
  repeat' first
    | with_reducible first
      | assumption | intro _ | exact allows_trans (by decide) hP | apply KeptReply.made
      | (apply KeptReply.st; apply ok_kept) | apply command_kept

theorem execJobStatus_kept (x1 : Upsets) (x2 : State) (h2 : Kept P b x2) (hP : allows 1979718337 P = true) :
    KeptR P b (execJobStatus x1 x2) := by
  unfold execJobStatus
  repeat' first
    | with_reducible first
      | assumption | intro _ | exact allows_trans (by decide) hP | (extract_lets +onlyGivenNames x; revert x; intro y)
      | apply KeptReply.made | (apply KeptReply.st; apply no_kept) | (apply KeptReply.st; apply ok_kept)
      | apply command_kept | apply drawn_kept | split

end Sys2Proof.Machine
end

