-- ==== Sys2Proof/Laws/KeptAccounts.lean ====
section
/-! SUPPORT. What each operation of Machine/Accounts.lean keeps: see `Kept`. -/

namespace Sys2Proof.Machine

variable {P : Nat} {b : State}

theorem modAcct_kept (x1 : State) (x2 : Nat) (x3 : Account → Account) (h1 : Kept P b x1) (hP : allows 131072 P = true) :
    Kept P b (State.modAcct x1 x2 x3) := by
  unfold State.modAcct
  repeat' first
    | with_reducible first
      | assumption | (extract_lets +onlyGivenNames x; revert x; intro y) | apply Kept.set_sch

theorem acctSnapshots_kept (x1 : State) (h1 : Kept P b x1) (hP : allows 513 P = true) :
    Kept P b (State.acctSnapshots x1) := by
  unfold State.acctSnapshots
  repeat' first
    | with_reducible first
      | assumption | intro _ | (extract_lets +onlyGivenNames x; revert x; intro y) | apply snapshot_kept | apply kept_foldl

theorem execAcctRead_kept (x1 : Upsets) (x2 : State) (h2 : Kept P b x2) (hP : allows 1946163905 P = true) :
    KeptR P b (execAcctRead x1 x2) := by
  unfold execAcctRead
  repeat' first
    | with_reducible first
      | assumption | intro _ | exact allows_trans (by decide) hP | (extract_lets +onlyGivenNames x; revert x; intro y)
      | apply KeptReply.made | (apply KeptReply.st; apply no_kept) | (apply KeptReply.st; apply ok_kept)
      | apply command_kept | apply bufferPut_kept | split

end Sys2Proof.Machine
end

