-- ==== Sys2Proof/Laws/KeptFaultOps.lean ====
section
/-! SUPPORT. What each operation of Machine/FaultOps.lean keeps: see `Kept`. -/

namespace Sys2Proof.Machine

variable {P : Nat} {b : State}

theorem contained_kept (x1 : State) (x2 : Nat) (x3 : Nat) (x4 : Nat) (x5 : Nat) (x6 : Nat) (h1 : Kept P b x1) (hP : allows 872418177 P = true) :
    Kept P b (State.contained x1 x2 x3 x4 x5 x6) := by
  unfold State.contained
  repeat' first
    | with_reducible first
      | assumption | exact allows_trans (by decide) hP
      | (extract_lets +onlyGivenNames x; have : State := x; clear this; clear_value (ex : x = _); revert x; intro z ez; refine kept_sub (P := P) (s := b) ez ?_ (fun hz => ?_))
      | (extract_lets +onlyGivenNames x; revert x; intro y) | apply bump_kept | apply log_kept | apply Kept.set_flt

theorem ceSeen_kept (x1 : State) (x2 : Nat) (h1 : Kept P b x1) (hP : allows 872418177 P = true) :
    Kept P b (State.ceSeen x1 x2) := by
  unfold State.ceSeen
  repeat' first
    | with_reducible first
      | assumption | exact allows_trans (by decide) hP
      | (extract_lets +onlyGivenNames x; have : State := x; clear this; clear_value (ex : x = _); revert x; intro z ez; refine kept_sub (P := P) (s := b) ez ?_ (fun hz => ?_))
      | (extract_lets +onlyGivenNames x; revert x; intro y) | apply bump_kept | apply log_kept | split | apply Kept.set_flt

theorem execFaultNoticePost_kept (x1 : State) (h1 : Kept P b x1) (hP : allows 1140851009 P = true) :
    KeptR P b (execFaultNoticePost x1) := by
  unfold execFaultNoticePost
  repeat' first
    | with_reducible first
      | assumption | exact allows_trans (by decide) hP | (extract_lets +onlyGivenNames x; revert x; intro y)
      | apply keptR_next | apply postNotice_kept | split | apply Kept.set_flt

end Sys2Proof.Machine
end

