-- ==== Sys2Proof/Laws/KeptUnits.lean ====
section
/-! SUPPORT. What each operation of Machine/Units.lean keeps: see `Kept`. -/

namespace Sys2Proof.Machine

variable {P : Nat} {b : State}

theorem modSlice_kept (x1 : State) (x2 : Nat) (x3 : Slice → Slice) (h1 : Kept P b x1) (hP : allows 16384 P = true) :
    Kept P b (State.modSlice x1 x2 x3) := by
  unfold State.modSlice
  repeat' first
    | with_reducible first
      | assumption | apply Kept.set_slices

end Sys2Proof.Machine
end

