-- ==== Sys2Proof/Laws/KeptMemory.lean ====
section
/-! SUPPORT. What each operation of Machine/Memory.lean keeps: see `Kept`. -/

namespace Sys2Proof.Machine

variable {P : Nat} {b : State}

theorem dpaPut_kept (x1 : State) (x2 : Nat) (x3 : Byte) (h1 : Kept P b x1) (hP : allows 6442450944 P = true) :
    Kept P b (State.dpaPut x1 x2 x3) := by
  unfold State.dpaPut
  split
  · exact h1.memBytes _ _ hP (fwf_fset _ _ _ _) id
  · exact h1.memBytes _ _ hP id (fwf_fset _ _ _ _)

theorem setPoison_kept (x1 : State) (x2 : Nat) (x3 : Nat) (h1 : Kept P b x1) (hP : allows 65536 P = true) :
    Kept P b (State.setPoison x1 x2 x3) := by
  unfold State.setPoison
  repeat' first
    | with_reducible first
      | assumption | (extract_lets +onlyGivenNames x; revert x; intro y) | apply Kept.set_mem | (dsimp only)

theorem loadTc_kept (x1 : State) (x2 : List Nat) (x3 : Nat) (x4 : Nat) (h1 : Kept P b x1) (hP : allows 65536 P = true) :
    Kept P b (State.loadTc x1 x2 x3 x4) := by
  unfold State.loadTc
  repeat' first
    | with_reducible first
      | assumption | (extract_lets +onlyGivenNames x; revert x; intro y) | apply Kept.set_mem | (dsimp only)

theorem loadPinned_kept (x1 : State) (x2 : Nat) (x3 : Nat) (h1 : Kept P b x1) (hP : allows 65536 P = true) :
    Kept P b (State.loadPinned x1 x2 x3) := by
  unfold State.loadPinned
  repeat' first
    | with_reducible first
      | assumption | apply loadTc_kept | split

theorem setFrame_kept (x1 : State) (x2 : Nat) (x3 : Nat) (h1 : Kept P b x1) (hP : allows 65536 P = true) :
    Kept P b (State.setFrame x1 x2 x3) := by
  unfold State.setFrame
  repeat' first
    | with_reducible first
      | assumption | (extract_lets +onlyGivenNames x; revert x; intro y) | apply Kept.set_mem | (dsimp only)

theorem takeFrame_kept (x1 : State) (x2 : Nat) (x3 : Nat) (h1 : Kept P b x1) (hP : allows 65536 P = true) :
    Kept P b (State.takeFrame x1 x2 x3) := by
  unfold State.takeFrame
  repeat' first
    | with_reducible first
      | assumption
      | (extract_lets +onlyGivenNames x; have : State := x; clear this; clear_value (ex : x = _); revert x; intro z ez; refine kept_sub (P := P) (s := b) ez ?_ (fun hz => ?_))
      | (extract_lets +onlyGivenNames x; revert x; intro y) | apply setFrame_kept | apply Kept.set_mem | (dsimp only)

theorem mapApply_kept (x1 : State) (x2 : Nat) (x3 : Nat) (x4 : Nat) (h1 : Kept P b x1) (hP : allows 81920 P = true) :
    Kept P b (State.mapApply x1 x2 x3 x4) := by
  unfold State.mapApply
  repeat' first
    | with_reducible first
      | assumption | exact allows_trans (by decide) hP | (extract_lets +onlyGivenNames x; revert x; intro y)
      | apply loadPinned_kept | apply modSlice_kept | apply takeFrame_kept | apply setFrame_kept | split

theorem mapReject_kept (x1 : State) (x2 : Nat) (x3 : Nat) (h1 : Kept P b x1) (hP : allows 16385 P = true) :
    Kept P b (State.mapReject x1 x2 x3) := by
  unfold State.mapReject
  repeat' first
    | with_reducible first
      | assumption | exact allows_trans (by decide) hP | apply bump_kept | apply modSlice_kept

theorem mapStore_kept (x1 : State) (x2 : Nat) (x3 : Nat) (x4 : Nat) (h1 : Kept P b x1) (hP : allows 81921 P = true) :
    Kept P b (State.mapStore x1 x2 x3 x4) := by
  unfold State.mapStore
  repeat' first
    | with_reducible first
      | assumption | exact allows_trans (by decide) hP | (extract_lets +onlyGivenNames x; revert x; intro y)
      | apply mapApply_kept | apply mapReject_kept | split

theorem invStart_kept (x1 : State) (x2 : Nat) (x3 : Nat) (h1 : Kept P b x1) (hP : allows 16384 P = true) :
    Kept P b (State.invStart x1 x2 x3) := by
  unfold State.invStart
  repeat' first
    | with_reducible first
      | assumption | (extract_lets +onlyGivenNames x; revert x; intro y) | apply modSlice_kept | split

theorem mapMisuse_kept (x1 : State) (x2 : Nat) (h1 : Kept P b x1) (hP : allows 16384 P = true) :
    Kept P b (State.mapMisuse x1 x2) := by
  unfold State.mapMisuse
  repeat' first
    | with_reducible first
      | assumption | apply modSlice_kept

theorem ctrlStore_kept (x1 : State) (x2 : Nat) (x3 : Nat) (x4 : List Byte) (h1 : Kept P b x1) (hP : allows 81921 P = true) :
    Kept P b (State.ctrlStore x1 x2 x3 x4) := by
  unfold State.ctrlStore
  repeat' first
    | with_reducible first
      | assumption | exact allows_trans (by decide) hP | apply mapStore_kept | apply modSlice_kept | apply invStart_kept
      | apply mapMisuse_kept | split

theorem memPut_kept (x1 : State) (x2 : Nat) (x3 : Nat) (x4 : Nat) (x5 : List Byte) (h1 : Kept P b x1) (hP : allows 6442532865 P = true) :
    Kept P b (State.memPut x1 x2 x3 x4 x5) := by
  unfold State.memPut
  repeat' first
    | with_reducible first
      | assumption | intro _ | exact allows_trans (by decide) hP | (extract_lets +onlyGivenNames x; revert x; intro y)
      | apply ctrlStore_kept | apply setPoison_kept | apply dpaPut_kept | apply kept_foldl | split

theorem zeroFrame_kept (x1 : State) (x2 : Nat) (h1 : Kept P b x1) (hP : allows 6442516480 P = true) :
    Kept P b (State.zeroFrame x1 x2) := by
  exact h1.memMem _ hP id (fun hw => by dsimp only; exact fwf_fclear _ _ _ _ hw)

theorem finishSliceMem_kept (x1 : State) (x2 : Nat) (h1 : Kept P b x1) (hP : allows 6442516480 P = true) :
    Kept P b (State.finishSliceMem x1 x2) := by
  unfold State.finishSliceMem
  repeat' first
    | with_reducible first
      | assumption | intro _ | exact allows_trans (by decide) hP | (extract_lets +onlyGivenNames x; revert x; intro y)
      | apply setFrame_kept | apply zeroFrame_kept | apply kept_foldl

theorem dropModel_kept (x1 : State) (h1 : Kept P b x1) (hP : allows 65536 P = true) :
    Kept P b (State.dropModel x1) := by
  unfold State.dropModel
  repeat' first
    | with_reducible first
      | assumption | intro _
      | (extract_lets +onlyGivenNames x; have : State := x; clear this; clear_value (ex : x = _); revert x; intro z ez; refine kept_sub (P := P) (s := b) ez ?_ (fun hz => ?_))
      | (extract_lets +onlyGivenNames x; revert x; intro y) | apply setFrame_kept | apply kept_foldl | apply Kept.set_mem
      | (dsimp only)

theorem clearSliceMem_kept (x1 : State) (x2 : Nat) (h1 : Kept P b x1) (hP : allows 6442532864 P = true) :
    Kept P b (State.clearSliceMem x1 x2) := by
  unfold State.clearSliceMem
  exact modSlice_kept _ _ _ (h1.memMem _ (allows_trans (by decide) hP) (fun hw => by dsimp only; exact fwf_fclear _ _ _ _ hw) id) (allows_trans (by decide) hP)

theorem touch_kept (x1 : State) (x2 : Nat) (x3 : Nat) (x4 : Nat) (x5 : Nat) (h1 : Kept P b x1) (hP : allows 33619969 P = true) :
    Kept P b (State.touch x1 x2 x3 x4 x5) := by
  unfold State.touch
  repeat' first
    | with_reducible first
      | assumption | intro _ | exact allows_trans (by decide) hP
      | (extract_lets +onlyGivenNames x; have : State := x; clear this; clear_value (ex : x = _); revert x; intro z ez; refine kept_sub (P := P) (s := b) ez ?_ (fun hz => ?_))
      | (extract_lets +onlyGivenNames x; revert x; intro y) | apply drawn_kept | apply loadTc_kept | apply bump_kept
      | apply kept_foldl | split

theorem invRun_kept (x1 : State) (x2 : Nat) (x3 : Nat) (x4 : Nat) (h1 : Kept P b x1) (hP : allows 81920 P = true) :
    Kept P b (State.invRun x1 x2 x3 x4) := by
  unfold State.invRun
  repeat' first
    | with_reducible first
      | assumption | intro _ | exact allows_trans (by decide) hP
      | (extract_lets +onlyGivenNames x; have : State := x; clear this; clear_value (ex : x = _); revert x; intro z ez; refine kept_sub (P := P) (s := b) ez ?_ (fun hz => ?_))
      | (extract_lets +onlyGivenNames x; revert x; intro y) | apply setFrame_kept | apply modSlice_kept
      | apply loadPinned_kept | apply kept_foldl | apply Kept.set_mem | (dsimp only)

theorem memCe_kept (x1 : State) (x2 : Nat) (h1 : Kept P b x1) (hP : allows 872418177 P = true) :
    Kept P b (State.memCe x1 x2) := by
  unfold State.memCe
  repeat' first
    | with_reducible first
      | assumption | exact allows_trans (by decide) hP | (extract_lets +onlyGivenNames x; revert x; intro y)
      | apply ceSeen_kept | apply bump_kept | split

theorem memUe_kept (x1 : State) (x2 : Nat) (x3 : Nat) (h1 : Kept P b x1) (hP : allows 872483457 P = true) :
    Kept P b (State.memUe x1 x2 x3) := by
  unfold State.memUe
  repeat' first
    | with_reducible first
      | assumption | exact allows_trans (by decide) hP | (extract_lets +onlyGivenNames x; revert x; intro y)
      | apply log_kept | apply bump_kept | apply setPoison_kept | split

theorem execMapViewStore_kept (x1 : Nat) (x2 : Nat) (x3 : DWord) (x4 : Bool) (x5 : State) (h5 : Kept P b x5) (hP : allows 81921 P = true) :
    KeptR P b (execMapViewStore x1 x2 x3 x4 x5) := by
  unfold execMapViewStore
  repeat' first
    | with_reducible first
      | assumption | exact allows_trans (by decide) hP | apply keptR_next | apply mapStore_kept | apply mapMisuse_kept
      | split

theorem execInvCountStore_kept (x1 : Nat) (x2 : DWord) (x3 : State) (h3 : Kept P b x3) (hP : allows 16384 P = true) :
    KeptR P b (execInvCountStore x1 x2 x3) := by
  unfold execInvCountStore
  repeat' first
    | with_reducible first
      | assumption | apply keptR_next | apply invStart_kept | split

theorem execInvalidationComplete_kept (x1 : Nat) (x2 : State) (h2 : Kept P b x2) (hP : allows 81921 P = true) :
    KeptR P b (execInvalidationComplete x1 x2) := by
  unfold execInvalidationComplete
  repeat' first
    | with_reducible first
      | assumption | exact allows_trans (by decide) hP | apply keptR_next | apply bump_kept | apply modSlice_kept
      | apply invRun_kept | split

theorem execFrameZeroComplete_kept (x1 : Nat) (x2 : State) (h2 : Kept P b x2) (hP : allows 6442516480 P = true) :
    KeptR P b (execFrameZeroComplete x1 x2) := by
  unfold execFrameZeroComplete
  repeat' first
    | with_reducible first
      | assumption | exact allows_trans (by decide) hP | apply keptR_next | apply setFrame_kept | apply zeroFrame_kept
      | split

theorem execPatrol_kept (x1 : Upsets) (x2 : Nat) (x3 : State) (h3 : Kept P b x3) (hP : allows 872483713 P = true) :
    KeptR P b (execPatrol x1 x2 x3) := by
  unfold execPatrol
  repeat' first
    | with_reducible first
      | assumption | intro _ | exact allows_trans (by decide) hP
      | (extract_lets +onlyGivenNames x; have : State := x; clear this; clear_value (ex : x = _); revert x; intro z ez; refine kept_sub (P := P) (s := b) ez ?_ (fun hz => ?_))
      | apply keptR_next | apply memUe_kept | apply memCe_kept | apply setFld_kept | apply kept_foldl | split

theorem execHbmRefresh_kept (x1 : Nat) (x2 : State) (h2 : Kept P b x2) (hP : allows 1 P = true) :
    KeptR P b (execHbmRefresh x1 x2) := by
  unfold execHbmRefresh
  repeat' first
    | with_reducible first
      | assumption | apply keptR_next | apply setFld_kept | split

end Sys2Proof.Machine
end

