-- ==== Sys2Proof/Laws/KeptClusters.lean ====
section
/-! SUPPORT. What each operation of Machine/Clusters.lean keeps: see `Kept`. -/

namespace Sys2Proof.Machine

variable {P : Nat} {b : State}

theorem count_kept (x1 : State) (x2 : Nat) (x3 : Nat) (h1 : Kept P b x1) (hP : allows 1 P = true) :
    Kept P b (State.count x1 x2 x3) := by
  unfold State.count
  repeat' first
    | with_reducible first
      | assumption | apply addFld_kept | split

theorem setCtx_kept (x1 : State) (x2 : Nat) (x3 : Option Ctx) (h1 : Kept P b x1) (hP : allows 262144 P = true) :
    Kept P b (State.setCtx x1 x2 x3) := by
  unfold State.setCtx
  repeat' first
    | with_reducible first
      | assumption | (extract_lets +onlyGivenNames x; revert x; intro y) | apply Kept.set_yar

theorem modCtx_kept (x1 : State) (x2 : Nat) (x3 : Ctx → Ctx) (h1 : Kept P b x1) (hP : allows 262144 P = true) :
    Kept P b (State.modCtx x1 x2 x3) := by
  unfold State.modCtx
  repeat' first
    | with_reducible first
      | assumption | apply setCtx_kept | split

theorem modGroup_kept (x1 : State) (x2 : Nat) (x3 : Nat) (x4 : Group → Group) (h1 : Kept P b x1) (hP : allows 262144 P = true) :
    Kept P b (State.modGroup x1 x2 x3 x4) := by
  unfold State.modGroup
  repeat' first
    | with_reducible first
      | assumption | apply modCtx_kept

theorem modCluster_kept (x1 : State) (x2 : Nat) (x3 : Cluster → Cluster) (h1 : Kept P b x1) (hP : allows 262144 P = true) :
    Kept P b (State.modCluster x1 x2 x3) := by
  unfold State.modCluster
  repeat' first
    | with_reducible first
      | assumption | (extract_lets +onlyGivenNames x; revert x; intro y) | apply Kept.set_yar

theorem writeThrough_kept (x1 : State) (x2 : Nat) (x3 : Nat) (x4 : Byte) (h1 : Kept P b x1) (hP : allows 6442713088 P = true) :
    Kept P b (State.writeThrough x1 x2 x3 x4) := by
  unfold State.writeThrough
  repeat' first
    | with_reducible first
      | assumption | exact allows_trans (by decide) hP | apply modCluster_kept | apply dpaPut_kept

theorem sbWrite_kept (x1 : State) (x2 : SbEntry) (h1 : Kept P b x1) (hP : allows 6442795009 P = true) :
    Kept P b (State.sbWrite x1 x2) := by
  unfold State.sbWrite
  repeat' first
    | with_reducible first
      | assumption | intro _ | exact allows_trans (by decide) hP
      | (extract_lets +onlyGivenNames x; have : State := x; clear this; clear_value (ex : x = _); revert x; intro z ez; refine kept_sub (P := P) (s := b) ez ?_ (fun hz => ?_))
      | (extract_lets +onlyGivenNames x; revert x; intro y) | apply writeThrough_kept | apply setPoison_kept
      | apply modCtx_kept | apply ctrlStore_kept | apply mapMisuse_kept | apply kept_foldl | split

theorem setSbuf_kept (x1 : State) (x2 : Nat) (x3 : Nat) (x4 : List SbEntry) (h1 : Kept P b x1) (hP : allows 262144 P = true) :
    Kept P b (State.setSbuf x1 x2 x3 x4) := by
  unfold State.setSbuf
  repeat' first
    | with_reducible first
      | assumption | apply modCluster_kept

theorem sbPop_kept (x1 : State) (x2 : Nat) (x3 : Nat) (h1 : Kept P b x1) (hP : allows 6442795009 P = true) :
    Kept P b (State.sbPop x1 x2 x3) := by
  unfold State.sbPop
  repeat' first
    | with_reducible first
      | assumption | exact allows_trans (by decide) hP | apply sbWrite_kept | apply setSbuf_kept | split

theorem sbDrain_kept (x1 : State) (x2 : Nat) (x3 : Nat) (x4 : Nat) (h1 : Kept P b x1) (hP : allows 6442795009 P = true) :
    Kept P b (State.sbDrain x1 x2 x3 x4) := by
  unfold State.sbDrain
  repeat' first
    | with_reducible first
      | assumption | intro _ | apply sbPop_kept | apply kept_foldl

theorem sbDrainTo_kept (x1 : State) (x2 : Nat) (x3 : Nat) (x4 : SbEntry → Bool) (h1 : Kept P b x1) (hP : allows 6442795009 P = true) :
    Kept P b (State.sbDrainTo x1 x2 x3 x4) := by
  unfold State.sbDrainTo
  repeat' first
    | with_reducible first
      | assumption | apply sbDrain_kept

theorem sbDrainCtx_kept (x1 : State) (x2 : Nat) (h1 : Kept P b x1) (hP : allows 6442795009 P = true) :
    Kept P b (State.sbDrainCtx x1 x2) := by
  unfold State.sbDrainCtx
  repeat' first
    | with_reducible first
      | assumption | intro _ | apply sbDrainTo_kept | apply kept_foldl

theorem modUnit_kept (x1 : State) (x2 : Nat) (x3 : MUnit → MUnit) (h1 : Kept P b x1) (hP : allows 262144 P = true) :
    Kept P b (State.modUnit x1 x2 x3) := by
  unfold State.modUnit
  repeat' first
    | with_reducible first
      | assumption | (extract_lets +onlyGivenNames x; revert x; intro y) | apply Kept.set_yar

theorem dropMatrix_kept (x1 : State) (x2 : Nat) (h1 : Kept P b x1) (hP : allows 262144 P = true) :
    Kept P b (State.dropMatrix x1 x2) := by
  unfold State.dropMatrix
  repeat' first
    | with_reducible first
      | assumption | intro _ | (extract_lets +onlyGivenNames x; revert x; intro y) | apply modUnit_kept | apply kept_foldl

theorem modLaunch_kept (x1 : State) (x2 : Nat) (x3 : Launch → Launch) (h1 : Kept P b x1) (hP : allows 262144 P = true) :
    Kept P b (State.modLaunch x1 x2 x3) := by
  unfold State.modLaunch
  repeat' first
    | with_reducible first
      | assumption | (extract_lets +onlyGivenNames x; revert x; intro y) | apply Kept.set_yar

theorem freeCtx_kept (x1 : State) (x2 : Nat) (h1 : Kept P b x1) (hP : allows 262144 P = true) :
    Kept P b (State.freeCtx x1 x2) := by
  unfold State.freeCtx
  repeat' first
    | with_reducible first
      | assumption
      | (extract_lets +onlyGivenNames x; have : State := x; clear this; clear_value (ex : x = _); revert x; intro z ez; refine kept_sub (P := P) (s := b) ez ?_ (fun hz => ?_))
      | apply setCtx_kept | apply dropMatrix_kept | apply modLaunch_kept | split

theorem discardCtx_kept (x1 : State) (x2 : Nat) (h1 : Kept P b x1) (hP : allows 6476349441 P = true) :
    Kept P b (State.discardCtx x1 x2) := by
  unfold State.discardCtx
  repeat' first
    | with_reducible first
      | assumption | intro _ | exact allows_trans (by decide) hP
      | (extract_lets +onlyGivenNames x; have : State := x; clear this; clear_value (ex : x = _); revert x; intro z ez; refine kept_sub (P := P) (s := b) ez ?_ (fun hz => ?_))
      | apply sbDrainCtx_kept | apply setSbuf_kept | apply drawn_kept | apply freeCtx_kept | apply kept_foldl | split

theorem stopLaunch_kept (x1 : State) (x2 : Nat) (h1 : Kept P b x1) (hP : allows 6476349441 P = true) :
    Kept P b (State.stopLaunch x1 x2) := by
  unfold State.stopLaunch
  repeat' first
    | with_reducible first
      | assumption | intro _ | exact allows_trans (by decide) hP
      | (extract_lets +onlyGivenNames x; have : State := x; clear this; clear_value (ex : x = _); revert x; intro z ez; refine kept_sub (P := P) (s := b) ez ?_ (fun hz => ?_))
      | (extract_lets +onlyGivenNames x; revert x; intro y) | apply discardCtx_kept | apply kept_foldl | apply Kept.set_yar

theorem stopLaunches_kept (x1 : State) (x2 : Nat) (x3 : Launch → Bool) (h1 : Kept P b x1) (hP : allows 6476349441 P = true) :
    Kept P b (State.stopLaunches x1 x2 x3) := by
  unfold State.stopLaunches
  repeat' first
    | with_reducible first
      | assumption | intro _ | apply stopLaunch_kept | apply kept_foldl

theorem dropCache_kept (x1 : State) (x2 : Nat) (h1 : Kept P b x1) (hP : allows 262144 P = true) :
    Kept P b (State.dropCache x1 x2) := by
  unfold State.dropCache
  repeat' first
    | with_reducible first
      | assumption | apply modCluster_kept

theorem placeOn_kept (x1 : State) (x2 : Launch) (x3 : Kernel) (x4 : Nat) (h1 : Kept P b x1) (hP : allows 262144 P = true) :
    Kept P b (State.placeOn x1 x2 x3 x4) := by
  unfold State.placeOn
  repeat' first
    | with_reducible first
      | assumption
      | (extract_lets +onlyGivenNames x; have : State := x; clear this; clear_value (ex : x = _); revert x; intro z ez; refine kept_sub (P := P) (s := b) ez ?_ (fun hz => ?_))
      | (extract_lets +onlyGivenNames x; revert x; intro y) | apply dropCache_kept | apply modCluster_kept
      | apply modLaunch_kept | apply setCtx_kept | split

theorem placeNext_kept (x1 : State) (x2 : Nat) (h1 : Kept P b x1) (hP : allows 262144 P = true) :
    Kept P b (State.placeNext x1 x2) := by
  unfold State.placeNext
  repeat' first
    | with_reducible first
      | assumption | apply placeOn_kept | split

theorem placeAll_kept (x1 : State) (x2 : Nat) (h1 : Kept P b x1) (hP : allows 262144 P = true) :
    Kept P b (State.placeAll x1 x2) := by
  unfold State.placeAll
  repeat' first
    | with_reducible first
      | assumption | intro _ | apply placeNext_kept | apply kept_foldl

theorem stopOnClusters_kept (x1 : State) (x2 : Nat) (x3 : Nat) (h1 : Kept P b x1) (hP : allows 6476349441 P = true) :
    Kept P b (State.stopOnClusters x1 x2 x3) := by
  unfold State.stopOnClusters
  repeat' first
    | with_reducible first
      | assumption | exact allows_trans (by decide) hP
      | (extract_lets +onlyGivenNames x; have : State := x; clear this; clear_value (ex : x = _); revert x; intro z ez; refine kept_sub (P := P) (s := b) ez ?_ (fun hz => ?_))
      | (extract_lets +onlyGivenNames x; revert x; intro y) | apply stopLaunches_kept | apply placeAll_kept
      | apply Kept.set_yar

theorem stopClusters_kept (x1 : State) (x2 : Nat) (h1 : Kept P b x1) (hP : allows 6476349441 P = true) :
    Kept P b (State.stopClusters x1 x2) := by
  unfold State.stopClusters
  repeat' first
    | with_reducible first
      | assumption | exact allows_trans (by decide) hP
      | (extract_lets +onlyGivenNames x; have : State := x; clear this; clear_value (ex : x = _); revert x; intro z ez; refine kept_sub (P := P) (s := b) ez ?_ (fun hz => ?_))
      | (extract_lets +onlyGivenNames x; revert x; intro y) | apply stopLaunches_kept | apply Kept.set_yar

theorem stopYarrow_kept (x1 : State) (h1 : Kept P b x1) (hP : allows 6476349441 P = true) :
    Kept P b (State.stopYarrow x1) := by
  unfold State.stopYarrow
  repeat' first
    | with_reducible first
      | assumption | intro _ | apply stopClusters_kept | apply kept_foldl

end Sys2Proof.Machine
end

