-- ==== Sys2Proof/Laws/KeptTeaselArea.lean ====
section
/-! SUPPORT. What each operation of Machine/TeaselArea.lean keeps: see `Kept`. -/

namespace Sys2Proof.Machine

variable {P : Nat} {b : State}

theorem modSeq_kept (x1 : State) (x2 : Nat) (x3 : Seq → Seq) (h1 : Kept P b x1) (hP : allows 1048576 P = true) :
    Kept P b (State.modSeq x1 x2 x3) := by
  unfold State.modSeq
  repeat' first
    | with_reducible first
      | assumption | (extract_lets +onlyGivenNames x; revert x; intro y) | apply Kept.set_tsl

theorem areaPut_kept (x1 : State) (x2 : Nat) (x3 : Nat) (x4 : Nat) (x5 : List Byte) (h1 : Kept P b x1) (hP : allows 6442532865 P = true) :
    Kept P b (State.areaPut x1 x2 x3 x4 x5) := by
  unfold State.areaPut
  repeat' first
    | with_reducible first
      | assumption | apply memPut_kept

theorem setPage_kept (x1 : State) (x2 : Nat) (x3 : Nat) (x4 : Bool) (h1 : Kept P b x1) (hP : allows 6442532865 P = true) :
    Kept P b (State.setPage x1 x2 x3 x4) := by
  unfold State.setPage
  repeat' first
    | with_reducible first
      | assumption | apply areaPut_kept

theorem returnPages_kept (x1 : State) (x2 : Seq) (h1 : Kept P b x1) (hP : allows 6442532865 P = true) :
    Kept P b (State.returnPages x1 x2) := by
  unfold State.returnPages
  repeat' first
    | with_reducible first
      | assumption | intro _ | apply setPage_kept | apply kept_foldl | split

theorem freeSeq_kept (x1 : State) (x2 : Nat) (h1 : Kept P b x1) (hP : allows 6443581441 P = true) :
    Kept P b (State.freeSeq x1 x2) := by
  unfold State.freeSeq
  repeat' first
    | with_reducible first
      | assumption | exact allows_trans (by decide) hP
      | (extract_lets +onlyGivenNames x; have : State := x; clear this; clear_value (ex : x = _); revert x; intro z ez; refine kept_sub (P := P) (s := b) ez ?_ (fun hz => ?_))
      | (extract_lets +onlyGivenNames x; revert x; intro y) | apply modSeq_kept | apply returnPages_kept | split
      | apply Kept.set_tsl

theorem stopTeasel_kept (x1 : State) (x2 : Nat) (h1 : Kept P b x1) (hP : allows 1048576 P = true) :
    Kept P b (State.stopTeasel x1 x2) := by
  unfold State.stopTeasel
  repeat' first
    | with_reducible first
      | assumption | (extract_lets +onlyGivenNames x; revert x; intro y) | apply Kept.set_tsl

end Sys2Proof.Machine
end

