-- ==== Sys2Proof/Laws/KeptStop.lean ====
section
/-! SUPPORT. What each operation of Machine/Stop.lean keeps: see `Kept`. -/

namespace Sys2Proof.Machine

variable {P : Nat} {b : State}

theorem stopSeq_kept (x1 : State) (x2 : Nat) (x3 : Nat) (h1 : Kept P b x1) (hP : allows 6443581441 P = true) :
    Kept P b (State.stopSeq x1 x2 x3) := by
  unfold State.stopSeq
  repeat' first
    | with_reducible first
      | assumption | intro _ | exact allows_trans (by decide) hP
      | (extract_lets +onlyGivenNames x; have : State := x; clear this; clear_value (ex : x = _); revert x; intro z ez; refine kept_sub (P := P) (s := b) ez ?_ (fun hz => ?_))
      | (extract_lets +onlyGivenNames x; revert x; intro y) | apply freeSeq_kept | apply kept_foldl | apply Kept.set_tsl

theorem modInst_kept (x1 : State) (x2 : Nat) (x3 : Inst → Inst) (h1 : Kept P b x1) (hP : allows 524288 P = true) :
    Kept P b (State.modInst x1 x2 x3) := by
  unfold State.modInst
  repeat' first
    | with_reducible first
      | assumption | (extract_lets +onlyGivenNames x; revert x; intro y) | apply Kept.set_ffe

theorem abortNotices_kept (x1 : State) (x2 : List Block) (h1 : Kept P b x1) (hP : allows 67108864 P = true) :
    Kept P b (State.abortNotices x1 x2) := by
  unfold State.abortNotices
  repeat' first
    | with_reducible first
      | assumption | apply emitAll_kept

theorem dropBlocks_kept (x1 : State) (x2 : Nat) (x3 : Block → Bool) (h1 : Kept P b x1) (hP : allows 67633152 P = true) :
    Kept P b (State.dropBlocks x1 x2 x3) := by
  unfold State.dropBlocks
  repeat' first
    | with_reducible first
      | assumption | intro _ | exact allows_trans (by decide) hP | (extract_lets +onlyGivenNames x; revert x; intro y)
      | apply modInst_kept | apply abortNotices_kept | apply kept_foldl | split

theorem stopCmd_kept (x1 : State) (x2 : Nat) (x3 : Nat) (h1 : Kept P b x1) (hP : allows 6545031169 P = true) :
    Kept P b (State.stopCmd x1 x2 x3) := by
  unfold State.stopCmd
  repeat' first
    | with_reducible first
      | assumption | exact allows_trans (by decide) hP | apply stopSeq_kept | apply dropBlocks_kept
      | apply stopOnClusters_kept

theorem zeroCamp_kept (x1 : State) (x2 : Nat) (h1 : Kept P b x1) (hP : allows 2097152 P = true) :
    Kept P b (State.zeroCamp x1 x2) := by
  unfold State.zeroCamp
  repeat' first
    | with_reducible first
      | assumption | (extract_lets +onlyGivenNames x; revert x; intro y) | apply Kept.set_cmp

theorem zeroSns_kept (x1 : State) (x2 : Nat) (h1 : Kept P b x1) (hP : allows 4194305 P = true) :
    Kept P b (State.zeroSns x1 x2) := by
  unfold State.zeroSns
  repeat' first
    | with_reducible first
      | assumption | intro _ | exact allows_trans (by decide) hP
      | (extract_lets +onlyGivenNames x; have : State := x; clear this; clear_value (ex : x = _); revert x; intro z ez; refine kept_sub (P := P) (s := b) ez ?_ (fun hz => ?_))
      | (extract_lets +onlyGivenNames x; revert x; intro y) | apply setFld_kept | apply kept_foldl | apply Kept.set_sns

theorem stopDies_kept (x1 : State) (x2 : Nat) (x3 : Bool) (h1 : Kept P b x1) (hP : allows 6291457 P = true) :
    Kept P b (State.stopDies x1 x2 x3) := by
  unfold State.stopDies
  repeat' first
    | with_reducible first
      | assumption | intro _ | exact allows_trans (by decide) hP
      | (extract_lets +onlyGivenNames x; have : State := x; clear this; clear_value (ex : x = _); revert x; intro z ez; refine kept_sub (P := P) (s := b) ez ?_ (fun hz => ?_))
      | apply zeroCamp_kept | apply setFld_kept | apply setReg_kept | apply zeroSns_kept | apply kept_foldl | split

theorem stopEngines_kept (x1 : State) (x2 : Nat) (h1 : Kept P b x1) (hP : allows 67633152 P = true) :
    Kept P b (State.stopEngines x1 x2) := by
  unfold State.stopEngines
  repeat' first
    | with_reducible first
      | assumption | intro _ | exact allows_trans (by decide) hP
      | (extract_lets +onlyGivenNames x; have : State := x; clear this; clear_value (ex : x = _); revert x; intro z ez; refine kept_sub (P := P) (s := b) ez ?_ (fun hz => ?_))
      | (extract_lets +onlyGivenNames x; revert x; intro y) | apply dropBlocks_kept | apply modInst_kept | apply kept_foldl
      | split | apply Kept.set_ffe

theorem stopSlice_kept (x1 : State) (x2 : Nat) (h1 : Kept P b x1) (hP : allows 6551322625 P = true) :
    Kept P b (State.stopSlice x1 x2) := by
  unfold State.stopSlice
  repeat' first
    | with_reducible first
      | assumption | exact allows_trans (by decide) hP | apply stopDies_kept | apply stopTeasel_kept
      | apply stopEngines_kept | apply stopClusters_kept

theorem campShow_kept (x1 : State) (x2 : Nat) (x3 : Nat) (x4 : Nat) (h1 : Kept P b x1) (hP : allows 6442532865 P = true) :
    Kept P b (State.campShow x1 x2 x3 x4) := by
  unfold State.campShow
  repeat' first
    | with_reducible first
      | assumption | (extract_lets +onlyGivenNames x; revert x; intro y) | apply memPut_kept | split

theorem setCamp_kept (x1 : State) (x2 : Nat) (x3 : Nat) (x4 : Nat) (h1 : Kept P b x1) (hP : allows 6442532865 P = true) :
    Kept P b (State.setCamp x1 x2 x3 x4) := by
  unfold State.setCamp
  repeat' first
    | with_reducible first
      | assumption | exact allows_trans (by decide) hP | apply campShow_kept | apply setFld_kept

theorem zeroSlice_kept (x1 : State) (x2 : Nat) (h1 : Kept P b x1) (hP : allows 6442532864 P = true) :
    Kept P b (State.zeroSlice x1 x2) := by
  unfold State.zeroSlice
  repeat' first
    | with_reducible first
      | assumption | exact allows_trans (by decide) hP | apply finishSliceMem_kept | apply clearSliceMem_kept

theorem stopAll_kept (x1 : State) (h1 : Kept P b x1) (hP : allows 6551322625 P = true) :
    Kept P b (State.stopAll x1) := by
  unfold State.stopAll
  repeat' first
    | with_reducible first
      | assumption | intro _ | exact allows_trans (by decide) hP
      | (extract_lets +onlyGivenNames x; have : State := x; clear this; clear_value (ex : x = _); revert x; intro z ez; refine kept_sub (P := P) (s := b) ez ?_ (fun hz => ?_))
      | (extract_lets +onlyGivenNames x; revert x; intro y) | apply stopSlice_kept | apply kept_foldl
      | apply Kept.set_yar_ffe_tsl

end Sys2Proof.Machine
end

