-- ==== Sys2Proof/Laws/KeptQueue.lean ====
section
/-! SUPPORT. What each operation of Machine/Queue.lean keeps: see `Kept`. -/

namespace Sys2Proof.Machine

variable {P : Nat} {b : State}

theorem modQueue_kept (x1 : State) (x2 : Nat) (x3 : Nat) (x4 : Queue → Queue) (h1 : Kept P b x1) (hP : allows 8192 P = true) :
    Kept P b (State.modQueue x1 x2 x3 x4) := by
  unfold State.modQueue
  repeat' first
    | with_reducible first
      | assumption | apply Kept.set_qs

theorem modCmd_kept (x1 : State) (x2 : Nat) (x3 : Nat) (x4 : Nat) (x5 : QCmd → QCmd) (h1 : Kept P b x1) (hP : allows 8192 P = true) :
    Kept P b (State.modCmd x1 x2 x3 x4 x5) := by
  unfold State.modCmd
  repeat' first
    | with_reducible first
      | assumption | apply modQueue_kept

theorem endCmd_kept (x1 : State) (x2 : Nat) (x3 : Nat) (x4 : Nat) (x5 : Nat) (x6 : Nat) (x7 : Nat) (h1 : Kept P b x1) (hP : allows 67117121 P = true) :
    Kept P b (State.endCmd x1 x2 x3 x4 x5 x6 x7) := by
  unfold State.endCmd
  repeat' first
    | with_reducible first
      | assumption | exact allows_trans (by decide) hP
      | (extract_lets +onlyGivenNames x; have : State := x; clear this; clear_value (ex : x = _); revert x; intro z ez; refine kept_sub (P := P) (s := b) ez ?_ (fun hz => ?_))
      | apply modCmd_kept | apply vfEvent_kept | apply setFld_kept | split

theorem faultCmd_kept (x1 : State) (x2 : Nat) (x3 : Nat) (x4 : Nat) (x5 : Nat) (x6 : Nat) (x7 : Nat) (x8 : Nat) (x9 : Nat) (h1 : Kept P b x1) (hP : allows 872426433 P = true) :
    Kept P b (State.faultCmd x1 x2 x3 x4 x5 x6 x7 x8 x9) := by
  unfold State.faultCmd
  repeat' first
    | with_reducible first
      | assumption | exact allows_trans (by decide) hP
      | (extract_lets +onlyGivenNames x; have : State := x; clear this; clear_value (ex : x = _); revert x; intro z ez; refine kept_sub (P := P) (s := b) ez ?_ (fun hz => ?_))
      | apply contained_kept | apply endCmd_kept | split

theorem stepResult_kept (x1 : State) (x2 : Nat) (x3 : Nat) (x4 : Nat) (h1 : Kept P b x1) (hP : allows 1048576 P = true) :
    Kept P b (State.stepResult x1 x2 x3 x4) := by
  unfold State.stepResult
  repeat' first
    | with_reducible first
      | assumption | (extract_lets +onlyGivenNames x; revert x; intro y) | apply Kept.set_tsl

theorem faultUid_kept (x1 : State) (x2 : Nat) (x3 : Nat) (x4 : Nat) (x5 : Nat) (x6 : Nat) (x7 : Nat) (x8 : Nat) (h1 : Kept P b x1) (hP : allows 873475009 P = true) :
    Kept P b (State.faultUid x1 x2 x3 x4 x5 x6 x7 x8) := by
  unfold State.faultUid
  repeat' first
    | with_reducible first
      | assumption | exact allows_trans (by decide) hP | apply faultCmd_kept | apply contained_kept | apply stepResult_kept
      | split

theorem abortCmds_kept (x1 : State) (x2 : Nat) (x3 : Nat) (x4 : Nat) (x5 : Bool) (h1 : Kept P b x1) (hP : allows 6545039425 P = true) :
    Kept P b (State.abortCmds x1 x2 x3 x4 x5) := by
  unfold State.abortCmds
  repeat' first
    | with_reducible first
      | assumption | intro _ | exact allows_trans (by decide) hP
      | (extract_lets +onlyGivenNames x; have : State := x; clear this; clear_value (ex : x = _); revert x; intro z ez; refine kept_sub (P := P) (s := b) ez ?_ (fun hz => ?_))
      | (extract_lets +onlyGivenNames x; revert x; intro y) | apply stopCmd_kept | apply endCmd_kept | apply kept_foldl

theorem endUid_kept (x1 : State) (x2 : Nat) (x3 : Nat) (x4 : Nat) (x5 : Nat) (x6 : Nat) (h1 : Kept P b x1) (hP : allows 68165697 P = true) :
    Kept P b (State.endUid x1 x2 x3 x4 x5 x6) := by
  unfold State.endUid
  repeat' first
    | with_reducible first
      | assumption | exact allows_trans (by decide) hP | apply endCmd_kept | apply stepResult_kept | split

theorem queueStop_kept (x1 : State) (x2 : Nat) (x3 : Nat) (h1 : Kept P b x1) (hP : allows 6545039425 P = true) :
    Kept P b (State.queueStop x1 x2 x3) := by
  unfold State.queueStop
  repeat' first
    | with_reducible first
      | assumption | exact allows_trans (by decide) hP
      | (extract_lets +onlyGivenNames x; have : State := x; clear this; clear_value (ex : x = _); revert x; intro z ez; refine kept_sub (P := P) (s := b) ez ?_ (fun hz => ?_))
      | apply modQueue_kept | apply setFld_kept | apply abortCmds_kept | split

theorem queuesStop_kept (x1 : State) (x2 : Nat) (h1 : Kept P b x1) (hP : allows 6545039425 P = true) :
    Kept P b (State.queuesStop x1 x2) := by
  unfold State.queuesStop
  repeat' first
    | with_reducible first
      | assumption | intro _ | apply queueStop_kept | apply kept_foldl

theorem queueError_kept (x1 : State) (x2 : Nat) (x3 : Nat) (x4 : Nat) (h1 : Kept P b x1) (hP : allows 6545039425 P = true) :
    Kept P b (State.queueError x1 x2 x3 x4) := by
  unfold State.queueError
  repeat' first
    | with_reducible first
      | assumption | exact allows_trans (by decide) hP
      | (extract_lets +onlyGivenNames x; have : State := x; clear this; clear_value (ex : x = _); revert x; intro z ez; refine kept_sub (P := P) (s := b) ez ?_ (fun hz => ?_))
      | apply vfEvent_kept | apply bump_kept | apply setFld_kept | apply abortCmds_kept | apply modQueue_kept

theorem queuesTdi_kept (x1 : State) (x2 : Nat) (h1 : Kept P b x1) (hP : allows 6545039425 P = true) :
    Kept P b (State.queuesTdi x1 x2) := by
  unfold State.queuesTdi
  repeat' first
    | with_reducible first
      | assumption | intro _ | exact allows_trans (by decide) hP
      | (extract_lets +onlyGivenNames x; have : State := x; clear this; clear_value (ex : x = _); revert x; intro z ez; refine kept_sub (P := P) (s := b) ez ?_ (fun hz => ?_))
      | apply stopCmd_kept | apply modQueue_kept | apply queueError_kept | apply kept_foldl | split

theorem copyFail_kept (x1 : State) (x2 : Nat) (x3 : Nat) (x4 : Nat) (x5 : Nat) (x6 : Nat) (x7 : Nat) (x8 : Nat) (x9 : Nat) (h1 : Kept P b x1) (hP : allows 872426433 P = true) :
    Kept P b (State.copyFail x1 x2 x3 x4 x5 x6 x7 x8 x9) := by
  unfold State.copyFail
  repeat' first
    | with_reducible first
      | assumption | exact allows_trans (by decide) hP | (extract_lets +onlyGivenNames x; revert x; intro y)
      | apply endCmd_kept | apply eccUe_kept | apply faultCmd_kept | split

theorem copyWrite_kept (x1 : State) (x2 : Nat) (x3 : Nat) (x4 : Nat) (x5 : List Byte) (h1 : Kept P b x1) (hP : allows 7583383553 P = true) :
    Kept P b (State.copyWrite x1 x2 x3 x4 x5) := by
  unfold State.copyWrite
  repeat' first
    | with_reducible first
      | assumption | intro _ | exact allows_trans (by decide) hP | apply memPut_kept | apply emit_kept | apply exmPut_kept
      | apply kept_foldl | split

theorem queuesLost_kept (x1 : State) (x2 : Nat) (h1 : Kept P b x1) (hP : allows 6545039425 P = true) :
    Kept P b (State.queuesLost x1 x2) := by
  unfold State.queuesLost
  repeat' first
    | with_reducible first
      | assumption | intro _ | exact allows_trans (by decide) hP
      | (extract_lets +onlyGivenNames x; have : State := x; clear this; clear_value (ex : x = _); revert x; intro z ez; refine kept_sub (P := P) (s := b) ez ?_ (fun hz => ?_))
      | apply abortCmds_kept | apply queueError_kept | apply vfEvent_kept | apply setFld_kept | apply kept_foldl | split

theorem markSlots_kept (x1 : State) (h1 : Kept P b x1) (hP : allows 131072 P = true) :
    Kept P b (State.markSlots x1) := by
  unfold State.markSlots
  repeat' first
    | with_reducible first
      | assumption | intro _ | (extract_lets +onlyGivenNames x; revert x; intro y) | apply kept_foldl | split
      | apply Kept.set_sch

theorem markWaits_kept (x1 : State) (x2 : Nat) (h1 : Kept P b x1) (hP : allows 8192 P = true) :
    Kept P b (State.markWaits x1 x2) := by
  unfold State.markWaits
  repeat' first
    | with_reducible first
      | assumption | intro _ | apply modCmd_kept | apply kept_foldl | split

theorem message_kept (x1 : State) (x2 : Nat) (x3 : Nat) (h1 : Kept P b x1) (hP : allows 67108928 P = true) :
    Kept P b (State.message x1 x2 x3) := by
  unfold State.message
  repeat' first
    | with_reducible first
      | assumption | exact allows_trans (by decide) hP | (extract_lets +onlyGivenNames x; revert x; intro y)
      | apply emit_kept | split | apply Kept.set_exm | (dsimp only)

theorem modFence_kept (x1 : State) (x2 : Nat) (x3 : Nat) (x4 : Fence → Fence) (h1 : Kept P b x1) (hP : allows 16384 P = true) :
    Kept P b (State.modFence x1 x2 x3 x4) := by
  unfold State.modFence
  repeat' first
    | with_reducible first
      | assumption | apply modSlice_kept

theorem queueIrq_kept (x1 : State) (x2 : Nat) (x3 : Nat) (h1 : Kept P b x1) (hP : allows 67117120 P = true) :
    Kept P b (State.queueIrq x1 x2 x3) := by
  unfold State.queueIrq
  repeat' first
    | with_reducible first
      | assumption | exact allows_trans (by decide) hP | (extract_lets +onlyGivenNames x; revert x; intro y)
      | apply modQueue_kept | apply message_kept | split

theorem queuesFlr_kept (x1 : State) (x2 : Nat) (h1 : Kept P b x1) (hP : allows 6545039361 P = true) :
    Kept P b (State.queuesFlr x1 x2) := by
  unfold State.queuesFlr
  repeat' first
    | with_reducible first
      | assumption | intro _ | exact allows_trans (by decide) hP
      | (extract_lets +onlyGivenNames x; have : State := x; clear this; clear_value (ex : x = _); revert x; intro z ez; refine kept_sub (P := P) (s := b) ez ?_ (fun hz => ?_))
      | apply stopCmd_kept | apply resetRegs_kept | apply kept_foldl | split | apply Kept.set_qs

theorem signalDone_kept (x1 : State) (x2 : Nat) (x3 : QCmd) (h1 : Kept P b x1) (hP : allows 16384 P = true) :
    Kept P b (State.signalDone x1 x2 x3) := by
  unfold State.signalDone
  repeat' first
    | with_reducible first
      | assumption | apply modFence_kept | split

theorem startNext_kept (x1 : State) (x2 : Nat) (x3 : Nat) (x4 : Nat) (x5 : QCmd → State → State) (h1 : Kept P b x1) (h5 : ∀ y0 y1, Kept P b y1 → Kept P b (x5 y0 y1)) (hP : allows 67133505 P = true) :
    KeptR P b (State.startNext x1 x2 x3 x4 x5) := by
  unfold State.startNext
  repeat' first
    | with_reducible first
      | assumption | exact allows_trans (by decide) hP
      | (extract_lets +onlyGivenNames x; have : State := x; clear this; clear_value (ex : x = _); revert x; intro z ez; refine kept_sub (P := P) (s := b) ez ?_ (fun hz => ?_))
      | apply keptR_next | apply endCmd_kept | apply modCmd_kept | apply modFence_kept | split | apply h5

theorem takeChain_kept (x1 : State) (x2 : Nat) (x3 : Nat) (x4 : ChainRead) (h1 : Kept P b x1) (hP : allows 67248193 P = true) :
    Kept P b (State.takeChain x1 x2 x3 x4) := by
  unfold State.takeChain
  repeat' first
    | with_reducible first
      | assumption | exact allows_trans (by decide) hP
      | (extract_lets +onlyGivenNames x; have : State := x; clear this; clear_value (ex : x = _); revert x; intro z ez; refine kept_sub (P := P) (s := b) ez ?_ (fun hz => ?_))
      | (extract_lets +onlyGivenNames x; revert x; intro y) | apply modQueue_kept | apply endCmd_kept | split
      | apply Kept.set_sch

theorem execQueueEnable_kept (x1 : Nat) (x2 : Nat) (x3 : Word) (x4 : State) (h4 : Kept P b x4) (hP : allows 67117057 P = true) :
    KeptR P b (execQueueEnable x1 x2 x3 x4) := by
  unfold execQueueEnable
  repeat' first
    | with_reducible first
      | assumption | exact allows_trans (by decide) hP
      | (extract_lets +onlyGivenNames x; have : State := x; clear this; clear_value (ex : x = _); revert x; intro z ez; refine kept_sub (P := P) (s := b) ez ?_ (fun hz => ?_))
      | apply keptR_next | apply setFld_kept | apply emit_kept | apply modQueue_kept | split

theorem execQueueDisable_kept (x1 : Nat) (x2 : Nat) (x3 : Word) (x4 : State) (h4 : Kept P b x4) (hP : allows 6545039425 P = true) :
    KeptR P b (execQueueDisable x1 x2 x3 x4) := by
  unfold execQueueDisable
  repeat' first
    | with_reducible first
      | assumption | exact allows_trans (by decide) hP | apply keptR_next | apply queueStop_kept | apply setFld_kept | split

theorem execQuiesceComplete_kept (x1 : Nat) (x2 : Nat) (x3 : State) (h3 : Kept P b x3) (hP : allows 1 P = true) :
    KeptR P b (execQuiesceComplete x1 x2 x3) := by
  unfold execQuiesceComplete
  repeat' first
    | with_reducible first
      | assumption
      | (extract_lets +onlyGivenNames x; have : State := x; clear this; clear_value (ex : x = _); revert x; intro z ez; refine kept_sub (P := P) (s := b) ez ?_ (fun hz => ?_))
      | apply keptR_next | apply setFld_kept | split

theorem execDoorbellWrite_kept (x1 : Nat) (x2 : Nat) (x3 : Word) (x4 : State) (h4 : Kept P b x4) (hP : allows 8192 P = true) :
    KeptR P b (execDoorbellWrite x1 x2 x3 x4) := by
  unfold execDoorbellWrite
  repeat' first
    | with_reducible first
      | assumption | apply keptR_next | apply modQueue_kept | split

theorem execChainFetch_kept (x1 : Nat) (x2 : Nat) (x3 : ChainRead) (x4 : State) (h4 : Kept P b x4) (hP : allows 6545170497 P = true) :
    KeptR P b (execChainFetch x1 x2 x3 x4) := by
  unfold execChainFetch
  repeat' first
    | with_reducible first
      | assumption | exact allows_trans (by decide) hP | (extract_lets +onlyGivenNames x; revert x; intro y)
      | apply keptR_next | apply queueError_kept | apply modQueue_kept | apply takeChain_kept | split

theorem execCommandComplete_kept (x1 : Nat) (x2 : Nat) (x3 : Nat) (x4 : Bool) (x5 : Suppress) (x6 : State) (h6 : Kept P b x6) (hP : allows 6545039425 P = true) :
    KeptR P b (execCommandComplete x1 x2 x3 x4 x5 x6) := by
  unfold execCommandComplete
  repeat' first
    | with_reducible first
      | assumption | exact allows_trans (by decide) hP
      | (extract_lets +onlyGivenNames x; have : State := x; clear this; clear_value (ex : x = _); revert x; intro z ez; refine kept_sub (P := P) (s := b) ez ?_ (fun hz => ?_))
      | (extract_lets +onlyGivenNames x; revert x; intro y) | apply keptR_next | apply modQueue_kept | apply queueError_kept
      | apply signalDone_kept | apply emitAll_kept | apply setReg_kept | apply queueIrq_kept | split

theorem execQueueIrqHoldoffEnd_kept (x1 : Nat) (x2 : Nat) (x3 : State) (h3 : Kept P b x3) (hP : allows 67117120 P = true) :
    KeptR P b (execQueueIrqHoldoffEnd x1 x2 x3) := by
  unfold execQueueIrqHoldoffEnd
  repeat' first
    | with_reducible first
      | assumption | exact allows_trans (by decide) hP | (extract_lets +onlyGivenNames x; revert x; intro y)
      | apply keptR_next | apply message_kept | apply modQueue_kept | split

theorem execFenceStall_kept (x1 : Nat) (x2 : Nat) (x3 : State) (h3 : Kept P b x3) (hP : allows 872426433 P = true) :
    KeptR P b (execFenceStall x1 x2 x3) := by
  unfold execFenceStall
  repeat' first
    | with_reducible first
      | assumption | (extract_lets +onlyGivenNames x; revert x; intro y) | apply keptR_next | apply faultCmd_kept | split

theorem execQueueNop_kept (x1 : Nat) (x2 : Nat) (x3 : State) (h3 : Kept P b x3) (hP : allows 67133505 P = true) :
    KeptR P b (execQueueNop x1 x2 x3) := by
  unfold execQueueNop
  repeat' first
    | with_reducible first
      | assumption | intro _ | exact allows_trans (by decide) hP | apply startNext_kept | apply endCmd_kept

theorem execCopy_kept (x1 : Nat) (x2 : Nat) (x3 : Option (List Byte)) (x4 : Nat) (x5 : State) (h5 : Kept P b x5) (hP : allows 8388701121 P = true) :
    KeptR P b (execCopy x1 x2 x3 x4 x5) := by
  unfold execCopy
  repeat' first
    | with_reducible first
      | assumption | intro _ | exact allows_trans (by decide) hP | (extract_lets +onlyGivenNames x; revert x; intro y)
      | apply startNext_kept | apply copyFail_kept | apply faultCmd_kept | apply endCmd_kept | apply copyWrite_kept | split

theorem execFenceRead_kept (x1 : Nat) (x2 : Nat) (x3 : State) (h3 : Kept P b x3) (hP : allows 67133505 P = true) :
    KeptR P b (execFenceRead x1 x2 x3) := by
  unfold execFenceRead
  repeat' first
    | with_reducible first
      | assumption | intro _ | exact allows_trans (by decide) hP | (extract_lets +onlyGivenNames x; revert x; intro y)
      | apply startNext_kept | apply endCmd_kept

theorem execFenceReset_kept (x1 : Nat) (x2 : Nat) (x3 : State) (h3 : Kept P b x3) (hP : allows 67133505 P = true) :
    KeptR P b (execFenceReset x1 x2 x3) := by
  unfold execFenceReset
  repeat' first
    | with_reducible first
      | assumption | intro _ | exact allows_trans (by decide) hP | apply startNext_kept | apply endCmd_kept
      | apply modFence_kept

theorem execAtsInvalidate_kept (x1 : Nat) (x2 : Nat) (x3 : State) (h3 : Kept P b x3) (hP : allows 67108864 P = true) :
    KeptR P b (execAtsInvalidate x1 x2 x3) := by
  unfold execAtsInvalidate
  repeat' first
    | with_reducible first
      | assumption | apply keptR_next | apply emit_kept

end Sys2Proof.Machine
end

