-- ==== Sys2Proof/Laws/KeptIssue.lean ====
section
/-! SUPPORT. What each operation of Machine/Issue.lean keeps: see `Kept`. -/

namespace Sys2Proof.Machine

variable {P : Nat} {b : State}

theorem Iss_count_kept (x1 : Iss) (x2 : State) (x3 : Bool) (h2 : Kept P b x2) (hP : allows 262145 P = true) :
    Kept P b (Iss.count x1 x2 x3) := by
  unfold Iss.count
  repeat' first
    | with_reducible first
      | assumption | intro _ | exact allows_trans (by decide) hP
      | (extract_lets +onlyGivenNames x; have : State := x; clear this; clear_value (ex : x = _); revert x; intro z ez; refine kept_sub (P := P) (s := b) ez ?_ (fun hz => ?_))
      | (extract_lets +onlyGivenNames x; revert x; intro y) | apply count_kept | apply modGroup_kept | apply kept_foldl
      | split

theorem Iss_put_kept (x1 : Iss) (x2 : State) (x3 : Group) (h2 : Kept P b x2) (hP : allows 262144 P = true) :
    Kept P b (Iss.put x1 x2 x3) := by
  unfold Iss.put
  repeat' first
    | with_reducible first
      | assumption | apply modCtx_kept

theorem failLaunch_kept (x1 : State) (x2 : Nat) (x3 : Nat) (x4 : Nat) (x5 : Nat) (x6 : Nat) (x7 : Nat) (h1 : Kept P b x1) (hP : allows 7350348737 P = true) :
    Kept P b (State.failLaunch x1 x2 x3 x4 x5 x6 x7) := by
  unfold State.failLaunch
  repeat' first
    | with_reducible first
      | assumption | exact allows_trans (by decide) hP | apply faultUid_kept | apply stopLaunch_kept | apply stopCmd_kept
      | split

theorem Iss_exc_kept (x1 : Iss) (x2 : State) (x3 : Nat) (x4 : Nat) (h2 : Kept P b x2) (hP : allows 7350348737 P = true) :
    Kept P b (Iss.exc x1 x2 x3 x4) := by
  unfold Iss.exc
  repeat' first
    | with_reducible first
      | assumption | apply failLaunch_kept

theorem Iss_firstExc_kept (x1 : Iss) (x2 : State) (x3 : List (Bool × Nat)) (x4 : Unit → State) (h2 : Kept P b x2) (h4 : ∀ y0, Kept P b (x4 y0)) (hP : allows 7350348737 P = true) :
    Kept P b (Iss.firstExc x1 x2 x3 x4) := by
  unfold Iss.firstExc
  repeat' first
    | with_reducible first
      | assumption | apply Iss_exc_kept | split | apply h4

theorem rtFirst_kept (x1 : State) (x2 : Nat) (h1 : Kept P b x1) (hP : allows 131073 P = true) :
    Kept P b (State.rtFirst x1 x2) := by
  unfold State.rtFirst
  repeat' first
    | with_reducible first
      | assumption | exact allows_trans (by decide) hP
      | (extract_lets +onlyGivenNames x; have : State := x; clear this; clear_value (ex : x = _); revert x; intro z ez; refine kept_sub (P := P) (s := b) ez ?_ (fun hz => ?_))
      | (extract_lets +onlyGivenNames x; revert x; intro y) | apply setFld_kept | split | apply Kept.set_sch

theorem issue_kept (x1 : State) (x2 : Nat) (x3 : Nat) (x4 : Nat) (x5 : Bool) (x6 : List Nat) (x7 : Iss → Decoded) (x8 : Iss → State → State) (x9 : Iss → State → Bool) (x10 : Iss → Bool) (h1 : Kept P b x1) (h8 : ∀ y0 y1, Kept P b y1 → Kept P b (x8 y0 y1)) (hP : allows 7350479809 P = true) :
    KeptR P b (State.issue x1 x2 x3 x4 x5 x6 x7 x8 x9 x10) := by
  unfold State.issue
  repeat' first
    | with_reducible first
      | assumption | exact allows_trans (by decide) hP
      | (extract_lets +onlyGivenNames x; have : State := x; clear this; clear_value (ex : x = _); revert x; intro z ez; refine kept_sub (P := P) (s := b) ez ?_ (fun hz => ?_))
      | (extract_lets +onlyGivenNames x; revert x; intro y) | apply keptR_next | apply failLaunch_kept | apply rtFirst_kept
      | apply Iss_count_kept | apply Iss_exc_kept | split | apply h8

theorem execKernelException_kept (x1 : Nat) (x2 : Nat) (x3 : Nat) (x4 : Bool) (x5 : State) (h5 : Kept P b x5) (hP : allows 7350348737 P = true) :
    KeptR P b (execKernelException x1 x2 x3 x4 x5) := by
  unfold execKernelException
  repeat' first
    | with_reducible first
      | assumption | apply keptR_next | apply Iss_exc_kept | split

end Sys2Proof.Machine
end

