-- ==== Sys2Proof/Laws/KeptAlu.lean ====
section
/-! SUPPORT. What each operation of Machine/Alu.lean keeps: see `Kept`. -/

namespace Sys2Proof.Machine

variable {P : Nat} {b : State}

theorem alu_kept (x1 : State) (x2 : Nat) (x3 : Nat) (x4 : Nat) (x5 : Bool) (x6 : List Nat) (x7 : Nat) (x8 : Nat) (x9 : Nat → Nat → Nat → Nat → Nat → Nat) (h1 : Kept P b x1) (hP : allows 7350479809 P = true) :
    KeptR P b (State.alu x1 x2 x3 x4 x5 x6 x7 x8 x9) := by
  unfold State.alu
  repeat' first
    | with_reducible first
      | assumption | intro _ | exact allows_trans (by decide) hP | (extract_lets +onlyGivenNames x; revert x; intro y)
      | apply issue_kept | apply drawnN_kept | apply Iss_put_kept

theorem compare_kept (x1 : State) (x2 : Nat) (x3 : Nat) (x4 : Nat) (x5 : Bool) (x6 : List Nat) (x7 : Bool → Nat → Nat → Nat → Bool) (h1 : Kept P b x1) (hP : allows 7350479809 P = true) :
    KeptR P b (State.compare x1 x2 x3 x4 x5 x6 x7) := by
  unfold State.compare
  repeat' first
    | with_reducible first
      | assumption | intro _ | exact allows_trans (by decide) hP | apply issue_kept | apply Iss_put_kept

theorem execIadd_kept (x1 : Nat) (x2 : Nat) (x3 : Nat) (x4 : Bool) (x5 : State) (h5 : Kept P b x5) (hP : allows 7350479809 P = true) :
    KeptR P b (execIadd x1 x2 x3 x4 x5) := by
  unfold execIadd
  repeat' first
    | with_reducible first
      | assumption | apply alu_kept

theorem execIsub_kept (x1 : Nat) (x2 : Nat) (x3 : Nat) (x4 : Bool) (x5 : State) (h5 : Kept P b x5) (hP : allows 7350479809 P = true) :
    KeptR P b (execIsub x1 x2 x3 x4 x5) := by
  unfold execIsub
  repeat' first
    | with_reducible first
      | assumption | apply alu_kept

theorem execImul_kept (x1 : Nat) (x2 : Nat) (x3 : Nat) (x4 : Bool) (x5 : State) (h5 : Kept P b x5) (hP : allows 7350479809 P = true) :
    KeptR P b (execImul x1 x2 x3 x4 x5) := by
  unfold execImul
  repeat' first
    | with_reducible first
      | assumption | apply alu_kept

theorem execImulhi_kept (x1 : Nat) (x2 : Nat) (x3 : Nat) (x4 : Bool) (x5 : State) (h5 : Kept P b x5) (hP : allows 7350479809 P = true) :
    KeptR P b (execImulhi x1 x2 x3 x4 x5) := by
  unfold execImulhi
  repeat' first
    | with_reducible first
      | assumption | apply alu_kept

theorem execImac_kept (x1 : Nat) (x2 : Nat) (x3 : Nat) (x4 : Bool) (x5 : State) (h5 : Kept P b x5) (hP : allows 7350479809 P = true) :
    KeptR P b (execImac x1 x2 x3 x4 x5) := by
  unfold execImac
  repeat' first
    | with_reducible first
      | assumption | apply alu_kept

theorem execImin_kept (x1 : Nat) (x2 : Nat) (x3 : Nat) (x4 : Bool) (x5 : State) (h5 : Kept P b x5) (hP : allows 7350479809 P = true) :
    KeptR P b (execImin x1 x2 x3 x4 x5) := by
  unfold execImin
  repeat' first
    | with_reducible first
      | assumption | apply alu_kept

theorem execImax_kept (x1 : Nat) (x2 : Nat) (x3 : Nat) (x4 : Bool) (x5 : State) (h5 : Kept P b x5) (hP : allows 7350479809 P = true) :
    KeptR P b (execImax x1 x2 x3 x4 x5) := by
  unfold execImax
  repeat' first
    | with_reducible first
      | assumption | apply alu_kept

theorem execAnd_kept (x1 : Nat) (x2 : Nat) (x3 : Nat) (x4 : Bool) (x5 : State) (h5 : Kept P b x5) (hP : allows 7350479809 P = true) :
    KeptR P b (execAnd x1 x2 x3 x4 x5) := by
  unfold execAnd
  repeat' first
    | with_reducible first
      | assumption | apply alu_kept

theorem execOr_kept (x1 : Nat) (x2 : Nat) (x3 : Nat) (x4 : Bool) (x5 : State) (h5 : Kept P b x5) (hP : allows 7350479809 P = true) :
    KeptR P b (execOr x1 x2 x3 x4 x5) := by
  unfold execOr
  repeat' first
    | with_reducible first
      | assumption | apply alu_kept

theorem execXor_kept (x1 : Nat) (x2 : Nat) (x3 : Nat) (x4 : Bool) (x5 : State) (h5 : Kept P b x5) (hP : allows 7350479809 P = true) :
    KeptR P b (execXor x1 x2 x3 x4 x5) := by
  unfold execXor
  repeat' first
    | with_reducible first
      | assumption | apply alu_kept

theorem execShl_kept (x1 : Nat) (x2 : Nat) (x3 : Nat) (x4 : Bool) (x5 : State) (h5 : Kept P b x5) (hP : allows 7350479809 P = true) :
    KeptR P b (execShl x1 x2 x3 x4 x5) := by
  unfold execShl
  repeat' first
    | with_reducible first
      | assumption | apply alu_kept

theorem execShr_kept (x1 : Nat) (x2 : Nat) (x3 : Nat) (x4 : Bool) (x5 : State) (h5 : Kept P b x5) (hP : allows 7350479809 P = true) :
    KeptR P b (execShr x1 x2 x3 x4 x5) := by
  unfold execShr
  repeat' first
    | with_reducible first
      | assumption | apply alu_kept

theorem execPopc_kept (x1 : Nat) (x2 : Nat) (x3 : Nat) (x4 : Bool) (x5 : State) (h5 : Kept P b x5) (hP : allows 7350479809 P = true) :
    KeptR P b (execPopc x1 x2 x3 x4 x5) := by
  unfold execPopc
  repeat' first
    | with_reducible first
      | assumption | apply alu_kept

theorem execClz_kept (x1 : Nat) (x2 : Nat) (x3 : Nat) (x4 : Bool) (x5 : State) (h5 : Kept P b x5) (hP : allows 7350479809 P = true) :
    KeptR P b (execClz x1 x2 x3 x4 x5) := by
  unfold execClz
  repeat' first
    | with_reducible first
      | assumption | apply alu_kept

theorem execIabs_kept (x1 : Nat) (x2 : Nat) (x3 : Nat) (x4 : Bool) (x5 : State) (h5 : Kept P b x5) (hP : allows 7350479809 P = true) :
    KeptR P b (execIabs x1 x2 x3 x4 x5) := by
  unfold execIabs
  repeat' first
    | with_reducible first
      | assumption | apply alu_kept

theorem execBfe_kept (x1 : Nat) (x2 : Nat) (x3 : Nat) (x4 : Bool) (x5 : State) (h5 : Kept P b x5) (hP : allows 7350479809 P = true) :
    KeptR P b (execBfe x1 x2 x3 x4 x5) := by
  unfold execBfe
  repeat' first
    | with_reducible first
      | assumption | apply alu_kept

theorem execFadd_kept (x1 : Nat) (x2 : Nat) (x3 : Nat) (x4 : Bool) (x5 : State) (h5 : Kept P b x5) (hP : allows 7350479809 P = true) :
    KeptR P b (execFadd x1 x2 x3 x4 x5) := by
  unfold execFadd
  repeat' first
    | with_reducible first
      | assumption | apply alu_kept

theorem execFsub_kept (x1 : Nat) (x2 : Nat) (x3 : Nat) (x4 : Bool) (x5 : State) (h5 : Kept P b x5) (hP : allows 7350479809 P = true) :
    KeptR P b (execFsub x1 x2 x3 x4 x5) := by
  unfold execFsub
  repeat' first
    | with_reducible first
      | assumption | apply alu_kept

theorem execFmul_kept (x1 : Nat) (x2 : Nat) (x3 : Nat) (x4 : Bool) (x5 : State) (h5 : Kept P b x5) (hP : allows 7350479809 P = true) :
    KeptR P b (execFmul x1 x2 x3 x4 x5) := by
  unfold execFmul
  repeat' first
    | with_reducible first
      | assumption | apply alu_kept

theorem execFmac_kept (x1 : Nat) (x2 : Nat) (x3 : Nat) (x4 : Bool) (x5 : State) (h5 : Kept P b x5) (hP : allows 7350479809 P = true) :
    KeptR P b (execFmac x1 x2 x3 x4 x5) := by
  unfold execFmac
  repeat' first
    | with_reducible first
      | assumption | apply alu_kept

theorem execFmin_kept (x1 : Nat) (x2 : Nat) (x3 : Nat) (x4 : Bool) (x5 : State) (h5 : Kept P b x5) (hP : allows 7350479809 P = true) :
    KeptR P b (execFmin x1 x2 x3 x4 x5) := by
  unfold execFmin
  repeat' first
    | with_reducible first
      | assumption | apply alu_kept

theorem execFmax_kept (x1 : Nat) (x2 : Nat) (x3 : Nat) (x4 : Bool) (x5 : State) (h5 : Kept P b x5) (hP : allows 7350479809 P = true) :
    KeptR P b (execFmax x1 x2 x3 x4 x5) := by
  unfold execFmax
  repeat' first
    | with_reducible first
      | assumption | apply alu_kept

theorem execFrcp_kept (x1 : Nat) (x2 : Nat) (x3 : Nat) (x4 : Bool) (x5 : State) (h5 : Kept P b x5) (hP : allows 7350479809 P = true) :
    KeptR P b (execFrcp x1 x2 x3 x4 x5) := by
  unfold execFrcp
  repeat' first
    | with_reducible first
      | assumption | apply alu_kept

theorem execFrsq_kept (x1 : Nat) (x2 : Nat) (x3 : Nat) (x4 : Bool) (x5 : State) (h5 : Kept P b x5) (hP : allows 7350479809 P = true) :
    KeptR P b (execFrsq x1 x2 x3 x4 x5) := by
  unfold execFrsq
  repeat' first
    | with_reducible first
      | assumption | apply alu_kept

theorem execFexp2_kept (x1 : Nat) (x2 : Nat) (x3 : Nat) (x4 : Bool) (x5 : State) (h5 : Kept P b x5) (hP : allows 7350479809 P = true) :
    KeptR P b (execFexp2 x1 x2 x3 x4 x5) := by
  unfold execFexp2
  repeat' first
    | with_reducible first
      | assumption | apply alu_kept

theorem execFlog2_kept (x1 : Nat) (x2 : Nat) (x3 : Nat) (x4 : Bool) (x5 : State) (h5 : Kept P b x5) (hP : allows 7350479809 P = true) :
    KeptR P b (execFlog2 x1 x2 x3 x4 x5) := by
  unfold execFlog2
  repeat' first
    | with_reducible first
      | assumption | apply alu_kept

theorem execFsin_kept (x1 : Nat) (x2 : Nat) (x3 : Nat) (x4 : Bool) (x5 : State) (h5 : Kept P b x5) (hP : allows 7350479809 P = true) :
    KeptR P b (execFsin x1 x2 x3 x4 x5) := by
  unfold execFsin
  repeat' first
    | with_reducible first
      | assumption | apply alu_kept

theorem execFcos_kept (x1 : Nat) (x2 : Nat) (x3 : Nat) (x4 : Bool) (x5 : State) (h5 : Kept P b x5) (hP : allows 7350479809 P = true) :
    KeptR P b (execFcos x1 x2 x3 x4 x5) := by
  unfold execFcos
  repeat' first
    | with_reducible first
      | assumption | apply alu_kept

theorem execFtanh_kept (x1 : Nat) (x2 : Nat) (x3 : Nat) (x4 : Bool) (x5 : State) (h5 : Kept P b x5) (hP : allows 7350479809 P = true) :
    KeptR P b (execFtanh x1 x2 x3 x4 x5) := by
  unfold execFtanh
  repeat' first
    | with_reducible first
      | assumption | apply alu_kept

theorem execPadd_kept (x1 : Nat) (x2 : Nat) (x3 : Nat) (x4 : Bool) (x5 : State) (h5 : Kept P b x5) (hP : allows 7350479809 P = true) :
    KeptR P b (execPadd x1 x2 x3 x4 x5) := by
  unfold execPadd
  repeat' first
    | with_reducible first
      | assumption | apply alu_kept

theorem execPmul_kept (x1 : Nat) (x2 : Nat) (x3 : Nat) (x4 : Bool) (x5 : State) (h5 : Kept P b x5) (hP : allows 7350479809 P = true) :
    KeptR P b (execPmul x1 x2 x3 x4 x5) := by
  unfold execPmul
  repeat' first
    | with_reducible first
      | assumption | apply alu_kept

theorem execPmac_kept (x1 : Nat) (x2 : Nat) (x3 : Nat) (x4 : Bool) (x5 : State) (h5 : Kept P b x5) (hP : allows 7350479809 P = true) :
    KeptR P b (execPmac x1 x2 x3 x4 x5) := by
  unfold execPmac
  repeat' first
    | with_reducible first
      | assumption | apply alu_kept

theorem execIcmp_kept (x1 : Nat) (x2 : Nat) (x3 : Nat) (x4 : Bool) (x5 : State) (h5 : Kept P b x5) (hP : allows 7350479809 P = true) :
    KeptR P b (execIcmp x1 x2 x3 x4 x5) := by
  unfold execIcmp
  repeat' first
    | with_reducible first
      | assumption | apply compare_kept

theorem execFcmp_kept (x1 : Nat) (x2 : Nat) (x3 : Nat) (x4 : Bool) (x5 : State) (h5 : Kept P b x5) (hP : allows 7350479809 P = true) :
    KeptR P b (execFcmp x1 x2 x3 x4 x5) := by
  unfold execFcmp
  repeat' first
    | with_reducible first
      | assumption | apply compare_kept

theorem execPcomb_kept (x1 : Nat) (x2 : Nat) (x3 : Nat) (x4 : Bool) (x5 : State) (h5 : Kept P b x5) (hP : allows 7350479809 P = true) :
    KeptR P b (execPcomb x1 x2 x3 x4 x5) := by
  unfold execPcomb
  repeat' first
    | with_reducible first
      | assumption | intro _ | exact allows_trans (by decide) hP | apply issue_kept | apply Iss_put_kept

theorem execSel_kept (x1 : Nat) (x2 : Nat) (x3 : Nat) (x4 : Bool) (x5 : State) (h5 : Kept P b x5) (hP : allows 7350479809 P = true) :
    KeptR P b (execSel x1 x2 x3 x4 x5) := by
  unfold execSel
  repeat' first
    | with_reducible first
      | assumption | intro _ | exact allows_trans (by decide) hP | apply issue_kept | apply Iss_put_kept

theorem execMov_kept (x1 : Nat) (x2 : Nat) (x3 : Nat) (x4 : Bool) (x5 : State) (h5 : Kept P b x5) (hP : allows 7350479809 P = true) :
    KeptR P b (execMov x1 x2 x3 x4 x5) := by
  unfold execMov
  repeat' first
    | with_reducible first
      | assumption | intro _ | exact allows_trans (by decide) hP | apply issue_kept | apply Iss_put_kept

theorem execMovi_kept (x1 : Nat) (x2 : Nat) (x3 : Nat) (x4 : Bool) (x5 : State) (h5 : Kept P b x5) (hP : allows 7350479809 P = true) :
    KeptR P b (execMovi x1 x2 x3 x4 x5) := by
  unfold execMovi
  repeat' first
    | with_reducible first
      | assumption | intro _ | exact allows_trans (by decide) hP | apply issue_kept | apply Iss_put_kept

theorem execCvt_kept (x1 : Nat) (x2 : Nat) (x3 : Nat) (x4 : Bool) (x5 : State) (h5 : Kept P b x5) (hP : allows 7350479809 P = true) :
    KeptR P b (execCvt x1 x2 x3 x4 x5) := by
  unfold execCvt
  repeat' first
    | with_reducible first
      | assumption | intro _ | exact allows_trans (by decide) hP | (extract_lets +onlyGivenNames x; revert x; intro y)
      | apply issue_kept | apply drawnN_kept | apply Iss_put_kept

theorem execRdlane_kept (x1 : Nat) (x2 : Nat) (x3 : Nat) (x4 : Bool) (x5 : State) (h5 : Kept P b x5) (hP : allows 7350479809 P = true) :
    KeptR P b (execRdlane x1 x2 x3 x4 x5) := by
  unfold execRdlane
  repeat' first
    | with_reducible first
      | assumption | intro _ | exact allows_trans (by decide) hP | apply issue_kept | apply Iss_put_kept

theorem execXlane_kept (x1 : Nat) (x2 : Nat) (x3 : Nat) (x4 : Bool) (x5 : State) (h5 : Kept P b x5) (hP : allows 7350479809 P = true) :
    KeptR P b (execXlane x1 x2 x3 x4 x5) := by
  unfold execXlane
  repeat' first
    | with_reducible first
      | assumption | intro _ | exact allows_trans (by decide) hP | apply issue_kept | apply Iss_put_kept

theorem execVote_kept (x1 : Nat) (x2 : Nat) (x3 : Nat) (x4 : Bool) (x5 : State) (h5 : Kept P b x5) (hP : allows 7350479809 P = true) :
    KeptR P b (execVote x1 x2 x3 x4 x5) := by
  unfold execVote
  repeat' first
    | with_reducible first
      | assumption | intro _ | exact allows_trans (by decide) hP | (extract_lets +onlyGivenNames x; revert x; intro y)
      | apply issue_kept | apply Iss_put_kept

theorem execYarrowNop_kept (x1 : Nat) (x2 : Nat) (x3 : Nat) (x4 : Bool) (x5 : State) (h5 : Kept P b x5) (hP : allows 7350479809 P = true) :
    KeptR P b (execYarrowNop x1 x2 x3 x4 x5) := by
  unfold execYarrowNop
  repeat' first
    | with_reducible first
      | assumption | intro _ | exact allows_trans (by decide) hP | apply issue_kept | apply Iss_put_kept

theorem execRdsys_kept (x1 : Nat) (x2 : Nat) (x3 : Nat) (x4 : Bool) (x5 : State) (h5 : Kept P b x5) (hP : allows 7350479809 P = true) :
    KeptR P b (execRdsys x1 x2 x3 x4 x5) := by
  unfold execRdsys
  repeat' first
    | with_reducible first
      | assumption | intro _ | exact allows_trans (by decide) hP | apply issue_kept | apply Iss_put_kept

end Sys2Proof.Machine
end

