-- ==== Sys2Proof/Laws/KeptAttest.lean ====
section
/-! SUPPORT. What each operation of Machine/Attest.lean keeps: see `Kept`. -/

namespace Sys2Proof.Machine

variable {P : Nat} {b : State}

theorem execAttest_kept (x1 : Upsets) (x2 : State) (h2 : Kept P b x2) (hP : allows 1946163905 P = true) :
    KeptR P b (execAttest x1 x2) := by
  unfold execAttest
  repeat' first
    | with_reducible first
      | assumption | intro _ | exact allows_trans (by decide) hP | (extract_lets +onlyGivenNames x; revert x; intro y)
      | apply KeptReply.made | (apply KeptReply.st; apply no_kept) | (apply KeptReply.st; apply ok_kept)
      | apply command_kept | apply bufferPut_kept | split

end Sys2Proof.Machine
end

