-- ==== Sys2Proof/Laws/KeptFenceList.lean ====
section
/-! SUPPORT. What each operation of Machine/FenceList.lean keeps: see `Kept`. -/

namespace Sys2Proof.Machine

variable {P : Nat} {b : State}

theorem fenceCount_kept (x1 : State) (h1 : Kept P b x1) (hP : allows 1 P = true) :
    Kept P b (State.fenceCount x1) := by
  unfold State.fenceCount
  repeat' first
    | with_reducible first
      | assumption | apply setFld_kept

theorem compact_kept (x1 : State) (x2 : Nat) (h1 : Kept P b x1) (hP : allows 1024 P = true) :
    Kept P b (State.compact x1 x2) := by
  unfold State.compact
  repeat' first
    | with_reducible first
      | assumption | intro _
      | (extract_lets +onlyGivenNames x; have : State := x; clear this; clear_value (ex : x = _); revert x; intro z ez; refine kept_sub (P := P) (s := b) ez ?_ (fun hz => ?_))
      | (extract_lets +onlyGivenNames x; revert x; intro y) | apply norErase_kept | apply norProgram_kept | apply kept_foldl

theorem putFence_kept (x1 : State) (x2 : Nat) (x3 : Nat) (x4 : Nat) (x5 : Nat) (x6 : Nat) (x7 : Nat) (h1 : Kept P b x1) (hP : allows 1024 P = true) :
    Kept P b (State.putFence x1 x2 x3 x4 x5 x6 x7) := by
  unfold State.putFence
  repeat' first
    | with_reducible first
      | assumption
      | (extract_lets +onlyGivenNames x; have : State := x; clear this; clear_value (ex : x = _); revert x; intro z ez; refine kept_sub (P := P) (s := b) ez ?_ (fun hz => ?_))
      | (extract_lets +onlyGivenNames x; revert x; intro y) | apply norProgram_kept | apply norErase_kept
      | apply compact_kept | split

theorem appendFence_kept (x1 : State) (x2 : Nat) (x3 : Nat) (x4 : Nat) (x5 : Nat) (x6 : Nat) (x7 : Nat) (h1 : Kept P b x1) (hP : allows 1025 P = true) :
    Kept P b (State.appendFence x1 x2 x3 x4 x5 x6 x7) := by
  unfold State.appendFence
  repeat' first
    | with_reducible first
      | assumption | exact allows_trans (by decide) hP | apply fenceCount_kept | apply putFence_kept

theorem refreshUsable_kept (x1 : State) (h1 : Kept P b x1) (hP : allows 1 P = true) :
    Kept P b (State.refreshUsable x1) := by
  unfold State.refreshUsable
  repeat' first
    | with_reducible first
      | assumption
      | (extract_lets +onlyGivenNames x; have : State := x; clear this; clear_value (ex : x = _); revert x; intro z ez; refine kept_sub (P := P) (s := b) ez ?_ (fun hz => ?_))
      | apply setFld_kept | apply setPair_kept | apply setReg_kept | apply setBit_kept

theorem fenceUnit_kept (x1 : State) (x2 : Nat) (x3 : Nat) (h1 : Kept P b x1) (hP : allows 1281 P = true) :
    Kept P b (State.fenceUnit x1 x2 x3) := by
  unfold State.fenceUnit
  repeat' first
    | with_reducible first
      | assumption | exact allows_trans (by decide) hP
      | (extract_lets +onlyGivenNames x; have : State := x; clear this; clear_value (ex : x = _); revert x; intro z ez; refine kept_sub (P := P) (s := b) ez ?_ (fun hz => ?_))
      | (extract_lets +onlyGivenNames x; revert x; intro y) | apply bump_kept | apply appendFence_kept
      | apply refreshUsable_kept | apply Kept.set_flt

theorem execFenceUnit_kept (x1 : Upsets) (x2 : State) (h2 : Kept P b x2) (hP : allows 1946165185 P = true) :
    KeptR P b (execFenceUnit x1 x2) := by
  unfold execFenceUnit
  repeat' first
    | with_reducible first
      | assumption | intro _ | exact allows_trans (by decide) hP | apply KeptReply.made
      | (apply KeptReply.st; apply no_kept) | (apply KeptReply.st; apply ok_kept) | apply command_kept
      | apply fenceUnit_kept | apply log_kept | split

theorem execUnfenceUnit_kept (x1 : Upsets) (x2 : State) (h2 : Kept P b x2) (hP : allows 1946164929 P = true) :
    KeptR P b (execUnfenceUnit x1 x2) := by
  unfold execUnfenceUnit
  repeat' first
    | with_reducible first
      | assumption | intro _ | exact allows_trans (by decide) hP | apply KeptReply.made
      | (apply KeptReply.st; apply no_kept) | (apply KeptReply.st; apply ok_kept) | apply command_kept
      | apply appendFence_kept | split

end Sys2Proof.Machine
end

