-- ==== Sys2Proof/Laws/KeptBootHist.lean ====
section
/-! SUPPORT. What each operation of Machine/BootHist.lean keeps: see `Kept`. -/

namespace Sys2Proof.Machine

variable {P : Nat} {b : State}

theorem appendDue_kept (x1 : State) (x2 : Known) (h1 : Kept P b x1) (hP : allows 872418945 P = true) :
    Kept P b (State.appendDue x1 x2) := by
  unfold State.appendDue
  repeat' first
    | with_reducible first
      | assumption | intro _ | exact allows_trans (by decide) hP | apply log_kept | apply appendFence_kept
      | apply kept_foldl | split

theorem beginStep_kept (x1 : State) (x2 : Nat) (h1 : Kept P b x1) (hP : allows 536871953 P = true) :
    Kept P b (State.beginStep x1 x2) := by
  unfold State.beginStep
  repeat' first
    | with_reducible first
      | assumption | exact allows_trans (by decide) hP
      | (extract_lets +onlyGivenNames x; have : State := x; clear this; clear_value (ex : x = _); revert x; intro z ez; refine kept_sub (P := P) (s := b) ez ?_ (fun hz => ?_))
      | (extract_lets +onlyGivenNames x; revert x; intro y) | apply setFld_kept | apply norProgram_kept | split
      | apply Kept.set_boot

theorem placeEntry_kept (x1 : Nat) (x2 : Nat) (x3 : State) (h3 : Kept P b x3) (hP : allows 1024 P = true) :
    KeptF P b (State.placeEntry x1 x2 x3) := by
  induction x1 generalizing x2 x3 with
  | zero =>
    rw [State.placeEntry]
    repeat' first
      | with_reducible first
        | assumption | apply KeptF.pair
  | succ n ih =>
    rw [State.placeEntry]
    repeat' first
      | with_reducible first
        | assumption | apply KeptF.pair | apply norErase_kept | split | (apply KeptF.fst; apply ih)

theorem programEntry_kept (x1 : State) (x2 : Nat) (x3 : List Byte) (x4 : List Byte) (h1 : Kept P b x1) (hP : allows 1024 P = true) :
    Kept P b (State.programEntry x1 x2 x3 x4) := by
  unfold State.programEntry
  repeat' first
    | with_reducible first
      | assumption | apply norProgram_kept

theorem bootStart_kept (x1 : State) (x2 : Nat) (x3 : Nat) (h1 : Kept P b x1) (hP : allows 872418961 P = true) :
    Kept P b (State.bootStart x1 x2 x3) := by
  unfold State.bootStart
  repeat' first
    | with_reducible first
      | assumption | exact allows_trans (by decide) hP
      | (extract_lets +onlyGivenNames x; have : State := x; clear this; clear_value (ex : x = _); revert x; intro z ez; refine kept_sub (P := P) (s := b) ez ?_ (fun hz => ?_))
      | (extract_lets +onlyGivenNames x; have : State × _ := x; clear this; clear_value (ex : x = _); revert x; intro z ez; refine kept_subG (KeptF P b) ez ?_ (fun hz => ?_))
      | (extract_lets +onlyGivenNames x; revert x; intro y) | apply KeptF.pair | (apply KeptF.fst; apply placeEntry_kept)
      | apply setBit_kept | apply setFld_kept | apply setReg_kept | apply programEntry_kept | apply beginStep_kept
      | apply appendDue_kept | apply fenceCount_kept | split | (apply KeptF.fst; assumption) | apply Kept.set_boot

end Sys2Proof.Machine
end

