-- ==== Sys2Proof/Laws/KeptRecorder.lean ====
section
/-! SUPPORT. What each operation of Machine/Recorder.lean keeps: see `Kept`. -/

namespace Sys2Proof.Machine

variable {P : Nat} {b : State}

theorem markBad_kept (x1 : State) (x2 : Nat) (x3 : Nat) (x4 : Bool) (h1 : Kept P b x1) (hP : allows 872418945 P = true) :
    Kept P b (State.markBad x1 x2 x3 x4) := by
  unfold State.markBad
  repeat' first
    | with_reducible first
      | assumption | exact allows_trans (by decide) hP
      | (extract_lets +onlyGivenNames x; have : State := x; clear this; clear_value (ex : x = _); revert x; intro z ez; refine kept_sub (P := P) (s := b) ez ?_ (fun hz => ?_))
      | (extract_lets +onlyGivenNames x; revert x; intro y) | apply norProgram_kept | apply log_kept | apply bump_kept

theorem slotAfter_kept (x1 : Nat) (x2 : Nat) (x3 : Nat) (x4 : State) (h4 : Kept P b x4) (hP : allows 872418945 P = true) :
    KeptF P b (slotAfter x1 x2 x3 x4) := by
  induction x2 generalizing x1 x3 x4 with
  | zero =>
    rw [slotAfter]
    repeat' first
      | with_reducible first
        | assumption | apply KeptF.pair
  | succ n ih =>
    rw [slotAfter]
    repeat' first
      | with_reducible first
        | assumption | (extract_lets +onlyGivenNames x; revert x; intro y) | apply KeptF.pair | apply markBad_kept | split
        | (apply KeptF.fst; apply ih)

theorem setLogPos_kept (x1 : State) (x2 : Nat) (x3 : Nat) (h1 : Kept P b x1) (hP : allows 513 P = true) :
    Kept P b (State.setLogPos x1 x2 x3) := by
  unfold State.setLogPos
  repeat' first
    | with_reducible first
      | assumption | exact allows_trans (by decide) hP | (extract_lets +onlyGivenNames x; revert x; intro y)
      | apply setFld_kept | split | apply Kept.set_evr | (dsimp only)

theorem putHeader_kept (x1 : State) (x2 : Nat) (x3 : Nat) (h1 : Kept P b x1) (hP : allows 1537 P = true) :
    Kept P b (State.putHeader x1 x2 x3) := by
  unfold State.putHeader
  repeat' first
    | with_reducible first
      | assumption | exact allows_trans (by decide) hP
      | (extract_lets +onlyGivenNames x; have : State := x; clear this; clear_value (ex : x = _); revert x; intro z ez; refine kept_sub (P := P) (s := b) ez ?_ (fun hz => ?_))
      | (extract_lets +onlyGivenNames x; revert x; intro y) | apply bump_kept | apply takeSeq_kept | apply norProgram_kept
      | split | apply Kept.set_evr | (dsimp only)

theorem putUnit_kept (x1 : State) (x2 : Nat) (x3 : List Byte) (h1 : Kept P b x1) (hP : allows 872418945 P = true) :
    KeptF P b (State.putUnit x1 x2 x3) := by
  unfold State.putUnit
  repeat' first
    | with_reducible first
      | assumption | exact allows_trans (by decide) hP
      | (extract_lets +onlyGivenNames x; have : State := x; clear this; clear_value (ex : x = _); revert x; intro z ez; refine kept_sub (P := P) (s := b) ez ?_ (fun hz => ?_))
      | apply KeptF.pair | (apply KeptF.fst; apply slotAfter_kept) | apply setLogPos_kept | apply putHeader_kept
      | apply norProgram_kept | split | refine KeptF.of (by assumption) ?_

theorem ffFull_kept (x1 : State) (h1 : Kept P b x1) (hP : allows 872417921 P = true) :
    Kept P b (State.ffFull x1) := by
  unfold State.ffFull
  repeat' first
    | with_reducible first
      | assumption | exact allows_trans (by decide) hP
      | (extract_lets +onlyGivenNames x; have : State := x; clear this; clear_value (ex : x = _); revert x; intro z ez; refine kept_sub (P := P) (s := b) ez ?_ (fun hz => ?_))
      | (extract_lets +onlyGivenNames x; revert x; intro y) | apply setFld_kept | apply recNotice_kept | apply log_kept
      | apply addFld_kept | apply Kept.set_evr | (dsimp only)

theorem putRunEnd_kept (x1 : State) (x2 : Nat) (x3 : Nat) (x4 : Nat) (h1 : Kept P b x1) (hP : allows 1537 P = true) :
    Kept P b (State.putRunEnd x1 x2 x3 x4) := by
  unfold State.putRunEnd
  repeat' first
    | with_reducible first
      | assumption | exact allows_trans (by decide) hP
      | (extract_lets +onlyGivenNames x; have : State := x; clear this; clear_value (ex : x = _); revert x; intro z ez; refine kept_sub (P := P) (s := b) ez ?_ (fun hz => ?_))
      | (extract_lets +onlyGivenNames x; revert x; intro y) | apply norProgram_kept | apply bump_kept | apply takeSeq_kept
      | apply norErase_kept | split | apply Kept.set_evr | (dsimp only)

theorem drainUnits_kept (x1 : Nat) (x2 : Bool) (x3 : Nat) (x4 : State) (h4 : Kept P b x4) (hP : allows 872418945 P = true) :
    Kept P b (drainUnits x1 x2 x3 x4) := by
  induction x3 generalizing x1 x2 x4 with
  | zero =>
    rw [drainUnits]
    repeat' first
      | with_reducible first
        | assumption
  | succ n ih =>
    rw [drainUnits]
    repeat' first
      | with_reducible first
        | assumption | exact allows_trans (by decide) hP
        | (extract_lets +onlyGivenNames x; have : State := x; clear this; clear_value (ex : x = _); revert x; intro z ez; refine kept_sub (P := P) (s := b) ez ?_ (fun hz => ?_))
        | (extract_lets +onlyGivenNames x; revert x; intro y) | apply KeptF.pair | (apply KeptF.fst; apply putUnit_kept)
        | apply ffFull_kept | split | refine KeptF.of (by assumption) ?_ | apply ih | apply Kept.set_evr | (dsimp only)

theorem flushRing_kept (x1 : Nat) (x2 : State) (x3 : Nat) (h2 : Kept P b x2) (hP : allows 872418945 P = true) :
    KeptF P b (flushRing x1 x2 x3) := by
  induction x1 generalizing x2 x3 with
  | zero =>
    rw [flushRing]
    repeat' first
      | with_reducible first
        | assumption | apply KeptF.pair
  | succ n ih =>
    rw [flushRing]
    repeat' first
      | with_reducible first
        | assumption | apply KeptF.pair | apply drainUnits_kept | split | (apply KeptF.fst; apply ih)

theorem flushFf_kept (x1 : Nat) (x2 : State) (x3 : Nat) (h2 : Kept P b x2) (hP : allows 872418945 P = true) :
    Kept P b (flushFf x1 x2 x3) := by
  induction x1 generalizing x2 x3 with
  | zero =>
    rw [flushFf]
    repeat' first
      | with_reducible first
        | assumption
  | succ n ih =>
    rw [flushFf]
    repeat' first
      | with_reducible first
        | assumption | apply drainUnits_kept | split | apply ih

theorem flush_kept (x1 : State) (x2 : Nat) (x3 : Nat) (h1 : Kept P b x1) (hP : allows 872418945 P = true) :
    Kept P b (State.flush x1 x2 x3) := by
  have key : ∀ (z : State) (n : Nat), Kept P b z → Kept P b { z with evr := { z.evr with ffSkipped := n, buf := [] } } := by
    intro z n hz
    exact hz.set_evr _ (allows_trans (by decide) hP) rfl rfl
  have key2 : ∀ z : State, Kept P b z → Kept P b { z with evr := { z.evr with buf := [] } } := by
    intro z hz
    exact hz.set_evr _ (allows_trans (by decide) hP) rfl rfl
  unfold State.flush
  split
  · exact h1
  split
  · exact key2 _ (putRunEnd_kept _ _ _ _ (putRunEnd_kept _ _ _ _ h1 (allows_trans (by decide) hP)) (allows_trans (by decide) hP))
  · have k1 : Kept P b (x1.putRunEnd 10 x2 0) := putRunEnd_kept _ _ _ _ h1 (allows_trans (by decide) hP)
    have k2 : KeptF P b (flushRing 256 (x1.putRunEnd 10 x2 0) 0) := flushRing_kept _ _ _ k1 (allows_trans (by decide) hP)
    exact key _ _ (putRunEnd_kept _ _ _ _ (putUnit_kept _ _ _ (bump_kept (takeSeq_kept _ (flushFf_kept _ _ _ k2.fst
      (allows_trans (by decide) hP)) (allows_trans (by decide) hP)) _
        (allows_trans (by decide) hP)) (allows_trans (by decide) hP)).fst (allows_trans (by decide) hP))

theorem findHeader_kept (x1 : Nat) (x2 : Nat) (x3 : Nat) (x4 : Nat) (x5 : State) (h5 : Kept P b x5) (hP : allows 872418945 P = true) :
    KeptF P b (findHeader x1 x2 x3 x4 x5) := by
  induction x3 generalizing x1 x2 x4 x5 with
  | zero =>
    rw [findHeader]
    repeat' first
      | with_reducible first
        | assumption | apply KeptF.pair
  | succ n ih =>
    rw [findHeader]
    repeat' first
      | with_reducible first
        | assumption | apply KeptF.pair | apply markBad_kept | split | (apply KeptF.fst; apply ih)

theorem scanSectors_kept (x1 : Nat) (x2 : List Nat) (x3 : State) (x4 : MountScan) (h3 : Kept P b x3) (hP : allows 872418945 P = true) :
    KeptF P b (scanSectors x1 x2 x3 x4) := by
  induction x2 generalizing x1 x3 x4 with
  | nil =>
    rw [scanSectors]
    repeat' first
      | with_reducible first
        | assumption | apply KeptF.pair
  | cons a l ih =>
    rw [scanSectors]
    repeat' first
      | with_reducible first
        | assumption | (extract_lets +onlyGivenNames x; revert x; intro y) | apply KeptF.pair
        | (apply KeptF.fst; apply findHeader_kept) | split | refine KeptF.of (by assumption) ?_
        | (apply KeptF.fst; apply ih)

theorem mountCold_kept (x1 : State) (h1 : Kept P b x1) (hP : allows 905973377 P = true) :
    Kept P b (State.mountCold x1) := by
  unfold State.mountCold
  repeat' first
    | with_reducible first
      | assumption | exact allows_trans (by decide) hP
      | (extract_lets +onlyGivenNames x; have : State := x; clear this; clear_value (ex : x = _); revert x; intro z ez; refine kept_sub (P := P) (s := b) ez ?_ (fun hz => ?_))
      | (extract_lets +onlyGivenNames x; have : State × _ := x; clear this; clear_value (ex : x = _); revert x; intro z ez; refine kept_subG (KeptF P b) ez ?_ (fun hz => ?_))
      | (extract_lets +onlyGivenNames x; revert x; intro y) | apply KeptF.pair | (apply KeptF.fst; apply scanSectors_kept)
      | apply setFld_kept | apply setReg_kept | apply drawn_kept | apply log_kept | split | (apply KeptF.fst; assumption)
      | apply Kept.set_evr | (dsimp only)

theorem mount_kept (x1 : State) (h1 : Kept P b x1) (hP : allows 905973377 P = true) :
    Kept P b (State.mount x1) := by
  unfold State.mount
  repeat' first
    | with_reducible first
      | assumption | exact allows_trans (by decide) hP | apply log_kept | apply mountCold_kept | split

theorem norFailed_kept (x1 : State) (h1 : Kept P b x1) (hP : allows 872417921 P = true) :
    Kept P b (State.norFailed x1) := by
  unfold State.norFailed
  repeat' first
    | with_reducible first
      | assumption | exact allows_trans (by decide) hP
      | (extract_lets +onlyGivenNames x; have : State := x; clear this; clear_value (ex : x = _); revert x; intro z ez; refine kept_sub (P := P) (s := b) ez ?_ (fun hz => ?_))
      | (extract_lets +onlyGivenNames x; revert x; intro y) | apply recNotice_kept | apply log_kept | apply setFld_kept
      | split | apply Kept.set_evr | (dsimp only)

theorem norOk_kept (x1 : State) (h1 : Kept P b x1) (hP : allows 512 P = true) :
    Kept P b (State.norOk x1) := by
  unfold State.norOk
  repeat' first
    | with_reducible first
      | assumption | (extract_lets +onlyGivenNames x; revert x; intro y) | apply Kept.set_evr | (dsimp only)

theorem powerFailFlush_kept (x1 : State) (x2 : Nat) (x3 : Nat) (h1 : Kept P b x1) (hP : allows 872418945 P = true) :
    Kept P b (State.powerFailFlush x1 x2 x3) := by
  unfold State.powerFailFlush
  repeat' first
    | with_reducible first
      | assumption | exact allows_trans (by decide) hP | apply flush_kept | apply pushRec_kept

theorem tidy_kept (x1 : State) (h1 : Kept P b x1) (hP : allows 872417921 P = true) :
    Kept P b (State.tidy x1) := by
  unfold State.tidy
  repeat' first
    | with_reducible first
      | assumption | exact allows_trans (by decide) hP
      | (extract_lets +onlyGivenNames x; have : State := x; clear this; clear_value (ex : x = _); revert x; intro z ez; refine kept_sub (P := P) (s := b) ez ?_ (fun hz => ?_))
      | (extract_lets +onlyGivenNames x; revert x; intro y) | apply log_kept | split | apply Kept.set_evr | (dsimp only)

theorem execRecordCreate_kept (x1 : Nat) (x2 : Nat) (x3 : Nat) (x4 : Nat) (x5 : Nat) (x6 : Nat) (x7 : State) (h7 : Kept P b x7) (hP : allows 872417921 P = true) :
    KeptR P b (execRecordCreate x1 x2 x3 x4 x5 x6 x7) := by
  unfold execRecordCreate
  repeat' first
    | with_reducible first
      | assumption | apply keptR_next | apply log_kept

theorem execDrainPageProgram_kept (x1 : Nat) (x2 : Bool) (x3 : State) (h3 : Kept P b x3) (hP : allows 872418945 P = true) :
    KeptR P b (execDrainPageProgram x1 x2 x3) := by
  unfold execDrainPageProgram
  repeat' first
    | with_reducible first
      | assumption | intro _ | exact allows_trans (by decide) hP
      | (extract_lets +onlyGivenNames x; have : State := x; clear this; clear_value (ex : x = _); revert x; intro z ez; refine kept_sub (P := P) (s := b) ez ?_ (fun hz => ?_))
      | (extract_lets +onlyGivenNames x; revert x; intro y) | apply keptR_next | apply tidy_kept | apply drainUnits_kept
      | apply norOk_kept | apply norSpoil_kept | apply markBad_kept | apply norFailed_kept | apply setLogPos_kept
      | apply kept_foldl | split

theorem execEraseAheadComplete_kept (x1 : Nat) (x2 : Bool) (x3 : State) (h3 : Kept P b x3) (hP : allows 872418945 P = true) :
    KeptR P b (execEraseAheadComplete x1 x2 x3) := by
  unfold execEraseAheadComplete
  repeat' first
    | with_reducible first
      | assumption | intro _ | exact allows_trans (by decide) hP
      | (extract_lets +onlyGivenNames x; have : State := x; clear this; clear_value (ex : x = _); revert x; intro z ez; refine kept_sub (P := P) (s := b) ez ?_ (fun hz => ?_))
      | (extract_lets +onlyGivenNames x; revert x; intro y) | apply keptR_next | apply norErase_kept | apply norOk_kept
      | apply setFld_kept | apply norSpoil_kept | apply norFailed_kept | apply markBad_kept | apply kept_foldl | split
      | apply Kept.set_evr | (dsimp only)

theorem execRecorderNoticePost_kept (x1 : State) (h1 : Kept P b x1) (hP : allows 1140851265 P = true) :
    KeptR P b (execRecorderNoticePost x1) := by
  unfold execRecorderNoticePost
  repeat' first
    | with_reducible first
      | assumption | exact allows_trans (by decide) hP
      | (extract_lets +onlyGivenNames x; have : State := x; clear this; clear_value (ex : x = _); revert x; intro z ez; refine kept_sub (P := P) (s := b) ez ?_ (fun hz => ?_))
      | (extract_lets +onlyGivenNames x; revert x; intro y) | apply keptR_next | apply postNotice_kept | split
      | apply Kept.set_evr | (dsimp only)

end Sys2Proof.Machine
end

