-- ==== Sys2Proof/Laws/KeptTenancy.lean ====
section
/-! SUPPORT. What each operation of Machine/Tenancy.lean keeps: see `Kept`. -/

namespace Sys2Proof.Machine

variable {P : Nat} {b : State}

theorem setModel_kept (x1 : State) (x2 : Nat) (h1 : Kept P b x1) (hP : allows 67108929 P = true) :
    Kept P b (State.setModel x1 x2) := by
  unfold State.setModel
  repeat' first
    | with_reducible first
      | assumption | intro _ | exact allows_trans (by decide) hP | apply vfEvent_kept | apply setFld_kept | apply kept_foldl
      | split

theorem setSlice_kept (x1 : State) (x2 : Nat) (x3 : Nat) (h1 : Kept P b x1) (hP : allows 67108929 P = true) :
    Kept P b (State.setSlice x1 x2 x3) := by
  unfold State.setSlice
  repeat' first
    | with_reducible first
      | assumption | exact allows_trans (by decide) hP | apply vfEvent_kept | apply setFld_kept | split

theorem clearBegin_kept (x1 : State) (x2 : Nat) (x3 : Nat) (h1 : Kept P b x1) (hP : allows 6551322689 P = true) :
    Kept P b (State.clearBegin x1 x2 x3) := by
  unfold State.clearBegin
  repeat' first
    | with_reducible first
      | assumption | exact allows_trans (by decide) hP
      | (extract_lets +onlyGivenNames x; have : State := x; clear this; clear_value (ex : x = _); revert x; intro z ez; refine kept_sub (P := P) (s := b) ez ?_ (fun hz => ?_))
      | (extract_lets +onlyGivenNames x; revert x; intro y) | apply stopSlice_kept | apply modSlice_kept
      | apply setSlice_kept | split

theorem setTdi_kept (x1 : State) (x2 : Nat) (x3 : Nat) (h1 : Kept P b x1) (hP : allows 6551363649 P = true) :
    Kept P b (State.setTdi x1 x2 x3) := by
  unfold State.setTdi
  repeat' first
    | with_reducible first
      | assumption | exact allows_trans (by decide) hP
      | (extract_lets +onlyGivenNames x; have : State := x; clear this; clear_value (ex : x = _); revert x; intro z ez; refine kept_sub (P := P) (s := b) ez ?_ (fun hz => ?_))
      | (extract_lets +onlyGivenNames x; revert x; intro y) | apply setFld_kept | apply queuesTdi_kept
      | apply clearBegin_kept | split | apply Kept.set_sec

theorem tdiError_kept (x1 : State) (x2 : Nat) (h1 : Kept P b x1) (hP : allows 6551363649 P = true) :
    Kept P b (State.tdiError x1 x2) := by
  unfold State.tdiError
  repeat' first
    | with_reducible first
      | assumption | apply setTdi_kept | split

theorem cancelChange_kept (x1 : State) (x2 : Bool) (x3 : Change) (h1 : Kept P b x1) (hP : allows 872434369 P = true) :
    Kept P b (State.cancelChange x1 x2 x3) := by
  unfold State.cancelChange
  repeat' first
    | with_reducible first
      | assumption | exact allows_trans (by decide) hP
      | (extract_lets +onlyGivenNames x; have : State := x; clear this; clear_value (ex : x = _); revert x; intro z ez; refine kept_sub (P := P) (s := b) ez ?_ (fun hz => ?_))
      | apply setPair_kept | apply setFld_kept | apply setSlice_kept | apply modSlice_kept | apply log_kept | split

theorem clearData_kept (x1 : State) (x2 : Nat) (h1 : Kept P b x1) (hP : allows 7516274752 P = true) :
    Kept P b (State.clearData x1 x2) := by
  unfold State.clearData
  repeat' first
    | with_reducible first
      | assumption | exact allows_trans (by decide) hP
      | (extract_lets +onlyGivenNames x; have : State := x; clear this; clear_value (ex : x = _); revert x; intro z ez; refine kept_sub (P := P) (s := b) ez ?_ (fun hz => ?_))
      | apply clearVfExchange_kept | apply zeroSlice_kept | apply modSlice_kept

theorem clearEnd_kept (x1 : State) (x2 : Nat) (x3 : Nat) (h1 : Kept P b x1) (hP : allows 7583383617 P = true) :
    Kept P b (State.clearEnd x1 x2 x3) := by
  unfold State.clearEnd
  repeat' first
    | with_reducible first
      | assumption | exact allows_trans (by decide) hP
      | (extract_lets +onlyGivenNames x; have : State := x; clear this; clear_value (ex : x = _); revert x; intro z ez; refine kept_sub (P := P) (s := b) ez ?_ (fun hz => ?_))
      | apply modSlice_kept | apply clearData_kept | apply setSlice_kept | split

theorem clearModelRegs_kept (x1 : State) (h1 : Kept P b x1) (hP : allows 1081345 P = true) :
    Kept P b (State.clearModelRegs x1) := by
  unfold State.clearModelRegs
  repeat' first
    | with_reducible first
      | assumption | exact allows_trans (by decide) hP
      | (extract_lets +onlyGivenNames x; have : State := x; clear this; clear_value (ex : x = _); revert x; intro z ez; refine kept_sub (P := P) (s := b) ez ?_ (fun hz => ?_))
      | (extract_lets +onlyGivenNames x; revert x; intro y) | apply resetRegs_kept | apply setFld_kept
      | apply Kept.set_sec_tsl

theorem tdiErrorAll_kept (x1 : State) (h1 : Kept P b x1) (hP : allows 6551363649 P = true) :
    Kept P b (State.tdiErrorAll x1) := by
  unfold State.tdiErrorAll
  repeat' first
    | with_reducible first
      | assumption | intro _ | apply tdiError_kept | apply kept_foldl

theorem dropChanges_kept (x1 : State) (x2 : Bool) (h1 : Kept P b x1) (hP : allows 872438465 P = true) :
    Kept P b (State.dropChanges x1 x2) := by
  unfold State.dropChanges
  repeat' first
    | with_reducible first
      | assumption | intro _ | exact allows_trans (by decide) hP
      | (extract_lets +onlyGivenNames x; have : State := x; clear this; clear_value (ex : x = _); revert x; intro z ez; refine kept_sub (P := P) (s := b) ez ?_ (fun hz => ?_))
      | (extract_lets +onlyGivenNames x; revert x; intro y) | apply cancelChange_kept | apply kept_foldl
      | apply Kept.set_eng

theorem dropTickChanges_kept (x1 : State) (x2 : Bool) (h1 : Kept P b x1) (hP : allows 872417953 P = true) :
    Kept P b (State.dropTickChanges x1 x2) := by
  unfold State.dropTickChanges
  repeat' first
    | with_reducible first
      | assumption | exact allows_trans (by decide) hP
      | (extract_lets +onlyGivenNames x; have : State := x; clear this; clear_value (ex : x = _); revert x; intro z ez; refine kept_sub (P := P) (s := b) ez ?_ (fun hz => ?_))
      | (extract_lets +onlyGivenNames x; revert x; intro y) | apply noPendingPeriod_kept | apply log_kept | split
      | apply Kept.set_tick

theorem releaseBegin_kept (x1 : State) (h1 : Kept P b x1) (hP : allows 7356676833 P = true) :
    Kept P b (State.releaseBegin x1) := by
  unfold State.releaseBegin
  repeat' first
    | with_reducible first
      | assumption | intro _ | exact allows_trans (by decide) hP
      | (extract_lets +onlyGivenNames x; have : State := x; clear this; clear_value (ex : x = _); revert x; intro z ez; refine kept_sub (P := P) (s := b) ez ?_ (fun hz => ?_))
      | apply dropTickChanges_kept | apply dropChanges_kept | apply endJob_kept | apply tdiErrorAll_kept | apply setFld_kept
      | apply queuesStop_kept | apply stopDies_kept | apply stopSlice_kept | apply kept_foldl

theorem ownRelease_kept (x1 : State) (h1 : Kept P b x1) (hP : allows 7356676833 P = true) :
    Kept P b (State.ownRelease x1) := by
  unfold State.ownRelease
  repeat' first
    | with_reducible first
      | assumption | exact allows_trans (by decide) hP
      | (extract_lets +onlyGivenNames x; have : State := x; clear this; clear_value (ex : x = _); revert x; intro z ez; refine kept_sub (P := P) (s := b) ez ?_ (fun hz => ?_))
      | (extract_lets +onlyGivenNames x; revert x; intro y) | apply releaseBegin_kept | apply modJob_kept | apply log_kept
      | apply setFld_kept | split | apply Kept.set_eng

theorem releaseSlices_kept (x1 : State) (h1 : Kept P b x1) (hP : allows 67256385 P = true) :
    Kept P b (State.releaseSlices x1) := by
  unfold State.releaseSlices
  repeat' first
    | with_reducible first
      | assumption | intro _ | exact allows_trans (by decide) hP
      | (extract_lets +onlyGivenNames x; have : State := x; clear this; clear_value (ex : x = _); revert x; intro z ez; refine kept_sub (P := P) (s := b) ez ?_ (fun hz => ?_))
      | (extract_lets +onlyGivenNames x; revert x; intro y) | apply setSlice_kept | apply resetRegs_kept | apply kept_foldl
      | apply Kept.set_slices_sch

theorem releaseZero_kept (x1 : State) (h1 : Kept P b x1) (hP : allows 7625195585 P = true) :
    Kept P b (State.releaseZero x1) := by
  unfold State.releaseZero
  repeat' first
    | with_reducible first
      | assumption | intro _ | exact allows_trans (by decide) hP
      | (extract_lets +onlyGivenNames x; have : State := x; clear this; clear_value (ex : x = _); revert x; intro z ez; refine kept_sub (P := P) (s := b) ez ?_ (fun hz => ?_))
      | (extract_lets +onlyGivenNames x; revert x; intro y) | apply stopAll_kept | apply clearVfExchange_kept
      | apply exmZero_kept | apply kept_foldl | apply Kept.set_regs_mem_sch | (dsimp only)
    | exact fwf_filter _ _ _ (by assumption)
    | rfl

theorem releaseEnd_kept (x1 : State) (x2 : Bool) (x3 : Nat) (h1 : Kept P b x1) (hP : allows 8430541505 P = true) :
    Kept P b (State.releaseEnd x1 x2 x3) := by
  unfold State.releaseEnd
  repeat' first
    | with_reducible first
      | assumption | exact allows_trans (by decide) hP
      | (extract_lets +onlyGivenNames x; have : State := x; clear this; clear_value (ex : x = _); revert x; intro z ez; refine kept_sub (P := P) (s := b) ez ?_ (fun hz => ?_))
      | (extract_lets +onlyGivenNames x; revert x; intro y) | apply releaseSlices_kept | apply acctSnapshots_kept
      | apply releaseZero_kept | apply setFld_kept | apply clearModelRegs_kept | apply setModel_kept | apply log_kept
      | split | apply Kept.set_eng_sec

theorem execSliceClearComplete_kept (x1 : Nat) (x2 : State) (h2 : Kept P b x2) (hP : allows 7583383617 P = true) :
    KeptR P b (execSliceClearComplete x1 x2) := by
  unfold execSliceClearComplete
  repeat' first
    | with_reducible first
      | assumption | intro _ | exact allows_trans (by decide) hP
      | (extract_lets +onlyGivenNames x; have : State := x; clear this; clear_value (ex : x = _); revert x; intro z ez; refine kept_sub (P := P) (s := b) ez ?_ (fun hz => ?_))
      | (extract_lets +onlyGivenNames x; revert x; intro y) | apply keptR_next | apply clearEnd_kept
      | apply finishSliceMem_kept | apply setFld_kept | apply modSlice_kept | apply kept_foldl | split

theorem execTenancyAdmit_kept (x1 : Upsets) (x2 : State) (h2 : Kept P b x2) (hP : allows 8388713153 P = true) :
    KeptR P b (execTenancyAdmit x1 x2) := by
  unfold execTenancyAdmit
  repeat' first
    | with_reducible first
      | assumption | intro _ | exact allows_trans (by decide) hP
      | (extract_lets +onlyGivenNames x; have : State := x; clear this; clear_value (ex : x = _); revert x; intro z ez; refine kept_sub (P := P) (s := b) ez ?_ (fun hz => ?_))
      | (extract_lets +onlyGivenNames x; revert x; intro y) | apply KeptReply.made | (apply KeptReply.st; apply no_kept)
      | (apply KeptReply.st; apply ok_kept) | apply command_kept | apply setFld_kept | split | apply Kept.set_sec_memMem
      | (dsimp only)
    | rfl

theorem execTenancyClaim_kept (x1 : Upsets) (x2 : State) (h2 : Kept P b x2) (hP : allows 1946196673 P = true) :
    KeptR P b (execTenancyClaim x1 x2) := by
  unfold execTenancyClaim
  repeat' first
    | with_reducible first
      | assumption | intro _ | exact allows_trans (by decide) hP
      | (extract_lets +onlyGivenNames x; have : State := x; clear this; clear_value (ex : x = _); revert x; intro z ez; refine kept_sub (P := P) (s := b) ez ?_ (fun hz => ?_))
      | (extract_lets +onlyGivenNames x; revert x; intro y) | apply KeptReply.made | (apply KeptReply.st; apply no_kept)
      | (apply KeptReply.st; apply ok_kept) | apply command_kept | apply setFld_kept | split | apply Kept.set_sec

theorem execTenancyRelease_kept (x1 : Upsets) (x2 : State) (h2 : Kept P b x2) (hP : allows 8430418657 P = true) :
    KeptR P b (execTenancyRelease x1 x2) := by
  unfold execTenancyRelease
  repeat' first
    | with_reducible first
      | assumption | intro _ | exact allows_trans (by decide) hP | apply KeptReply.made
      | (apply KeptReply.st; apply no_kept) | (apply KeptReply.st; apply startJob_kept) | apply command_kept
      | apply releaseBegin_kept | split

theorem execTenancyStatus_kept (x1 : Upsets) (x2 : State) (h2 : Kept P b x2) (hP : allows 1946163905 P = true) :
    KeptR P b (execTenancyStatus x1 x2) := by
  unfold execTenancyStatus
  repeat' first
    | with_reducible first
      | assumption | intro _ | exact allows_trans (by decide) hP | apply KeptReply.made
      | (apply KeptReply.st; apply ok_kept) | apply command_kept

theorem execDebugConsentSet_kept (x1 : Upsets) (x2 : State) (h2 : Kept P b x2) (hP : allows 1946163905 P = true) :
    KeptR P b (execDebugConsentSet x1 x2) := by
  unfold execDebugConsentSet
  repeat' first
    | with_reducible first
      | assumption | intro _ | exact allows_trans (by decide) hP | apply KeptReply.made
      | (apply KeptReply.st; apply no_kept) | (apply KeptReply.st; apply ok_kept) | apply command_kept | apply setFld_kept
      | split

theorem execReleaseJobEnd_kept (x1 : State) (h1 : Kept P b x1) (hP : allows 8430541505 P = true) :
    KeptR P b (execReleaseJobEnd x1) := by
  unfold execReleaseJobEnd
  repeat' first
    | with_reducible first
      | assumption | intro _ | exact allows_trans (by decide) hP
      | (extract_lets +onlyGivenNames x; have : State := x; clear this; clear_value (ex : x = _); revert x; intro z ez; refine kept_sub (P := P) (s := b) ez ?_ (fun hz => ?_))
      | (extract_lets +onlyGivenNames x; revert x; intro y) | apply keptR_next | apply releaseEnd_kept | apply endJob_kept
      | apply kept_foldl | split

theorem execForcedRelease_kept (x1 : State) (h1 : Kept P b x1) (hP : allows 7356676833 P = true) :
    KeptR P b (execForcedRelease x1) := by
  unfold execForcedRelease
  repeat' first
    | with_reducible first
      | assumption | apply keptR_next | apply ownRelease_kept | split

theorem execClaimTimeout_kept (x1 : State) (h1 : Kept P b x1) (hP : allows 7356676833 P = true) :
    KeptR P b (execClaimTimeout x1) := by
  unfold execClaimTimeout
  repeat' first
    | with_reducible first
      | assumption | apply keptR_next | apply ownRelease_kept | split

end Sys2Proof.Machine
end

