-- ==== Sys2Proof/Laws/KeptTick.lean ====
section
/-! SUPPORT. What each operation of Machine/Tick.lean keeps: see `Kept`. -/

namespace Sys2Proof.Machine

variable {P : Nat} {b : State}

theorem tickStart_kept (x1 : State) (x2 : Nat) (x3 : Nat) (x4 : Nat) (h1 : Kept P b x1) (hP : allows 33 P = true) :
    Kept P b (State.tickStart x1 x2 x3 x4) := by
  unfold State.tickStart
  repeat' first
    | with_reducible first
      | assumption | exact allows_trans (by decide) hP
      | (extract_lets +onlyGivenNames x; have : State := x; clear this; clear_value (ex : x = _); revert x; intro z ez; refine kept_sub (P := P) (s := b) ez ?_ (fun hz => ?_))
      | (extract_lets +onlyGivenNames x; revert x; intro y) | apply setFld_kept | apply setPair_kept | apply Kept.set_tick

theorem acquireFollow_kept (x1 : State) (x2 : Nat) (x3 : Nat) (x4 : MarkerMsg) (h1 : Kept P b x1) (hP : allows 33 P = true) :
    Kept P b (State.acquireFollow x1 x2 x3 x4) := by
  unfold State.acquireFollow
  repeat' first
    | with_reducible first
      | assumption | exact allows_trans (by decide) hP
      | (extract_lets +onlyGivenNames x; have : State := x; clear this; clear_value (ex : x = _); revert x; intro z ez; refine kept_sub (P := P) (s := b) ez ?_ (fun hz => ?_))
      | (extract_lets +onlyGivenNames x; revert x; intro y) | apply setReg_kept | apply setFld_kept | apply tickStart_kept
      | apply setBit_kept

theorem acquireMaster_kept (x1 : State) (x2 : Nat) (x3 : Nat) (x4 : Nat) (h1 : Kept P b x1) (hP : allows 33 P = true) :
    Kept P b (State.acquireMaster x1 x2 x3 x4) := by
  unfold State.acquireMaster
  repeat' first
    | with_reducible first
      | assumption | exact allows_trans (by decide) hP
      | (extract_lets +onlyGivenNames x; have : State := x; clear this; clear_value (ex : x = _); revert x; intro z ez; refine kept_sub (P := P) (s := b) ez ?_ (fun hz => ?_))
      | apply setFld_kept | apply setReg_kept | apply tickStart_kept | split

theorem acquireStart_kept (x1 : State) (h1 : Kept P b x1) (hP : allows 33 P = true) :
    Kept P b (State.acquireStart x1) := by
  unfold State.acquireStart
  repeat' first
    | with_reducible first
      | assumption | exact allows_trans (by decide) hP
      | (extract_lets +onlyGivenNames x; have : State := x; clear this; clear_value (ex : x = _); revert x; intro z ez; refine kept_sub (P := P) (s := b) ez ?_ (fun hz => ?_))
      | (extract_lets +onlyGivenNames x; revert x; intro y) | apply setFld_kept | apply Kept.set_tick

theorem calRecheck_kept (x1 : State) (h1 : Kept P b x1) (hP : allows 32 P = true) :
    Kept P b (State.calRecheck x1) := by
  unfold State.calRecheck
  repeat' first
    | with_reducible first
      | assumption | (extract_lets +onlyGivenNames x; revert x; intro y) | split | apply Kept.set_tick

theorem setRef_kept (x1 : State) (x2 : Nat) (x3 : RefState) (h1 : Kept P b x1) (hP : allows 32 P = true) :
    Kept P b (State.setRef x1 x2 x3) := by
  unfold State.setRef
  repeat' first
    | with_reducible first
      | assumption | (extract_lets +onlyGivenNames x; revert x; intro y) | split | apply Kept.set_tick

theorem refEdge_kept (x1 : State) (x2 : Nat) (x3 : Nat) (x4 : Nat) (h1 : Kept P b x1) (hP : allows 33 P = true) :
    Kept P b (State.refEdge x1 x2 x3 x4) := by
  unfold State.refEdge
  repeat' first
    | with_reducible first
      | assumption | exact allows_trans (by decide) hP | (extract_lets +onlyGivenNames x; revert x; intro y)
      | apply setFld_kept | apply setRef_kept | split

theorem takeMarker_kept (x1 : State) (x2 : MarkerMsg) (h1 : Kept P b x1) (hP : allows 872417921 P = true) :
    Kept P b (State.takeMarker x1 x2) := by
  unfold State.takeMarker
  repeat' first
    | with_reducible first
      | assumption | exact allows_trans (by decide) hP
      | (extract_lets +onlyGivenNames x; have : State := x; clear this; clear_value (ex : x = _); revert x; intro z ez; refine kept_sub (P := P) (s := b) ez ?_ (fun hz => ?_))
      | (extract_lets +onlyGivenNames x; revert x; intro y) | apply setPair_kept | apply log_kept | apply setFld_kept
      | split

theorem followMarker_kept (x1 : State) (x2 : Nat) (x3 : MarkerMsg) (h1 : Kept P b x1) (hP : allows 872417953 P = true) :
    Kept P b (State.followMarker x1 x2 x3) := by
  unfold State.followMarker
  repeat' first
    | with_reducible first
      | assumption | exact allows_trans (by decide) hP | (extract_lets +onlyGivenNames x; revert x; intro y)
      | apply refEdge_kept | apply setRef_kept | apply takeMarker_kept | split | (dsimp +zetaDelta -proj only)

theorem tickNotice_kept (x1 : State) (x2 : Nat) (x3 : Nat) (x4 : Nat) (h1 : Kept P b x1) (hP : allows 32 P = true) :
    Kept P b (State.tickNotice x1 x2 x3 x4) := by
  unfold State.tickNotice
  repeat' first
    | with_reducible first
      | assumption | (extract_lets +onlyGivenNames x; revert x; intro y) | apply Kept.set_tick

theorem listenEnd_kept (x1 : State) (h1 : Kept P b x1) (hP : allows 872417953 P = true) :
    Kept P b (State.listenEnd x1) := by
  unfold State.listenEnd
  repeat' first
    | with_reducible first
      | assumption | exact allows_trans (by decide) hP
      | (extract_lets +onlyGivenNames x; have : State := x; clear this; clear_value (ex : x = _); revert x; intro z ez; refine kept_sub (P := P) (s := b) ez ?_ (fun hz => ?_))
      | (extract_lets +onlyGivenNames x; revert x; intro y) | apply acquireFollow_kept | apply acquireMaster_kept
      | apply tickNotice_kept | apply log_kept | apply setFld_kept | split | (dsimp +zetaDelta -proj only)

theorem refLose_kept (x1 : State) (x2 : Nat) (h1 : Kept P b x1) (hP : allows 33 P = true) :
    Kept P b (State.refLose x1 x2) := by
  unfold State.refLose
  repeat' first
    | with_reducible first
      | assumption | exact allows_trans (by decide) hP
      | (extract_lets +onlyGivenNames x; have : State := x; clear this; clear_value (ex : x = _); revert x; intro z ez; refine kept_sub (P := P) (s := b) ez ?_ (fun hz => ?_))
      | (extract_lets +onlyGivenNames x; revert x; intro y) | apply bump_kept | apply setFld_kept | apply setRef_kept

theorem resync_kept (x1 : State) (x2 : Int) (h1 : Kept P b x1) (hP : allows 872417953 P = true) :
    Kept P b (State.resync x1 x2) := by
  unfold State.resync
  repeat' first
    | with_reducible first
      | assumption | exact allows_trans (by decide) hP | (extract_lets +onlyGivenNames x; revert x; intro y)
      | apply tickNotice_kept | apply log_kept | apply setFld_kept | split

theorem sourcesApply_kept (x1 : State) (h1 : Kept P b x1) (hP : allows 33 P = true) :
    Kept P b (State.sourcesApply x1) := by
  unfold State.sourcesApply
  repeat' first
    | with_reducible first
      | assumption | exact allows_trans (by decide) hP
      | (extract_lets +onlyGivenNames x; have : State := x; clear this; clear_value (ex : x = _); revert x; intro z ez; refine kept_sub (P := P) (s := b) ez ?_ (fun hz => ?_))
      | (extract_lets +onlyGivenNames x; revert x; intro y) | apply setReg_kept | apply setFld_kept | apply addFld_kept
      | split | apply Kept.set_tick

theorem tickState_kept (x1 : State) (x2 : Nat) (h1 : Kept P b x1) (hP : allows 872417953 P = true) :
    Kept P b (State.tickState x1 x2) := by
  unfold State.tickState
  repeat' first
    | with_reducible first
      | assumption | exact allows_trans (by decide) hP
      | (extract_lets +onlyGivenNames x; have : State := x; clear this; clear_value (ex : x = _); revert x; intro z ez; refine kept_sub (P := P) (s := b) ez ?_ (fun hz => ?_))
      | (extract_lets +onlyGivenNames x; revert x; intro y) | apply setFld_kept | apply bump_kept | apply tickNotice_kept
      | apply log_kept | split

theorem switchTo_kept (x1 : State) (x2 : Nat) (h1 : Kept P b x1) (hP : allows 872417953 P = true) :
    Kept P b (State.switchTo x1 x2) := by
  unfold State.switchTo
  repeat' first
    | with_reducible first
      | assumption | exact allows_trans (by decide) hP
      | (extract_lets +onlyGivenNames x; have : State := x; clear this; clear_value (ex : x = _); revert x; intro z ez; refine kept_sub (P := P) (s := b) ez ?_ (fun hz => ?_))
      | (extract_lets +onlyGivenNames x; revert x; intro y) | apply setFld_kept | apply tickState_kept | apply Kept.set_tick

theorem tickAfter_kept (x1 : State) (x2 : Int) (x3 : Int) (h1 : Kept P b x1) (hP : allows 33 P = true) :
    Kept P b (State.tickAfter x1 x2 x3) := by
  unfold State.tickAfter
  repeat' first
    | with_reducible first
      | assumption | exact allows_trans (by decide) hP
      | (extract_lets +onlyGivenNames x; have : State := x; clear this; clear_value (ex : x = _); revert x; intro z ez; refine kept_sub (P := P) (s := b) ez ?_ (fun hz => ?_))
      | (extract_lets +onlyGivenNames x; revert x; intro y) | apply setBit_kept | apply setFld_kept | apply Kept.set_tick

theorem tickRow_kept (x1 : State) (x2 : Int) (x3 : Int) (h1 : Kept P b x1) (hP : allows 872417953 P = true) :
    Kept P b (State.tickRow x1 x2 x3) := by
  unfold State.tickRow
  repeat' first
    | with_reducible first
      | assumption | exact allows_trans (by decide) hP | (extract_lets +onlyGivenNames x; revert x; intro y)
      | apply tickState_kept | apply switchTo_kept | apply resync_kept | split | apply Kept.set_tick

theorem tickTransition_kept (x1 : State) (x2 : Int) (x3 : Int) (h1 : Kept P b x1) (hP : allows 872417953 P = true) :
    Kept P b (State.tickTransition x1 x2 x3) := by
  unfold State.tickTransition
  repeat' first
    | with_reducible first
      | assumption | exact allows_trans (by decide) hP | (extract_lets +onlyGivenNames x; revert x; intro y)
      | apply tickAfter_kept | apply tickRow_kept

theorem tickAdvance_kept (x1 : State) (x2 : Int) (x3 : Int) (h1 : Kept P b x1) (hP : allows 872417953 P = true) :
    Kept P b (State.tickAdvance x1 x2 x3) := by
  unfold State.tickAdvance
  repeat' first
    | with_reducible first
      | assumption | exact allows_trans (by decide) hP
      | (extract_lets +onlyGivenNames x; have : State := x; clear this; clear_value (ex : x = _); revert x; intro z ez; refine kept_sub (P := P) (s := b) ez ?_ (fun hz => ?_))
      | (extract_lets +onlyGivenNames x; revert x; intro y) | apply setPair_kept | apply tickTransition_kept
      | apply emit_kept | apply Kept.set_tick

theorem execTickInEdge_kept (x1 : Nat) (x2 : State) (h2 : Kept P b x2) (hP : allows 33 P = true) :
    KeptR P b (execTickInEdge x1 x2) := by
  unfold execTickInEdge
  repeat' first
    | with_reducible first
      | assumption | exact allows_trans (by decide) hP
      | (extract_lets +onlyGivenNames x; have : State := x; clear this; clear_value (ex : x = _); revert x; intro z ez; refine kept_sub (P := P) (s := b) ez ?_ (fun hz => ?_))
      | (extract_lets +onlyGivenNames x; revert x; intro y) | apply keptR_next | apply refEdge_kept | split
      | apply Kept.set_tick

theorem execMarker_kept (x1 : Nat) (x2 : MarkerMsg) (x3 : State) (h3 : Kept P b x3) (hP : allows 872417953 P = true) :
    KeptR P b (execMarker x1 x2 x3) := by
  unfold execMarker
  repeat' first
    | with_reducible first
      | assumption | exact allows_trans (by decide) hP
      | (extract_lets +onlyGivenNames x; have : State := x; clear this; clear_value (ex : x = _); revert x; intro z ez; refine kept_sub (P := P) (s := b) ez ?_ (fun hz => ?_))
      | (extract_lets +onlyGivenNames x; revert x; intro y) | apply keptR_next | apply tickNotice_kept | apply log_kept
      | apply setFld_kept | apply followMarker_kept | split | apply Kept.set_tick

theorem execRefLoss_kept (x1 : Nat) (x2 : State) (h2 : Kept P b x2) (hP : allows 33 P = true) :
    KeptR P b (execRefLoss x1 x2) := by
  unfold execRefLoss
  repeat' first
    | with_reducible first
      | assumption | apply keptR_next | apply refLose_kept | split

theorem execRefQualified_kept (x1 : Nat) (x2 : State) (h2 : Kept P b x2) (hP : allows 1 P = true) :
    KeptR P b (execRefQualified x1 x2) := by
  unfold execRefQualified
  repeat' first
    | with_reducible first
      | assumption | apply keptR_next | apply setFld_kept | split

theorem execPendingPeriodApply_kept (x1 : State) (h1 : Kept P b x1) (hP : allows 1 P = true) :
    KeptR P b (execPendingPeriodApply x1) := by
  unfold execPendingPeriodApply
  repeat' first
    | with_reducible first
      | assumption | apply keptR_next | apply noPendingPeriod_kept | apply setFld_kept | split

theorem execPendingTimeApply_kept (x1 : State) (h1 : Kept P b x1) (hP : allows 872417953 P = true) :
    KeptR P b (execPendingTimeApply x1) := by
  unfold execPendingTimeApply
  repeat' first
    | with_reducible first
      | assumption | exact allows_trans (by decide) hP
      | (extract_lets +onlyGivenNames x; have : State := x; clear this; clear_value (ex : x = _); revert x; intro z ez; refine kept_sub (P := P) (s := b) ez ?_ (fun hz => ?_))
      | (extract_lets +onlyGivenNames x; revert x; intro y) | apply keptR_next | apply setFld_kept | apply setPair_kept
      | apply calRecheck_kept | apply log_kept | split | apply Kept.set_tick

theorem execUtcOffsetApply_kept (x1 : State) (h1 : Kept P b x1) (hP : allows 872417953 P = true) :
    KeptR P b (execUtcOffsetApply x1) := by
  unfold execUtcOffsetApply
  repeat' first
    | with_reducible first
      | assumption | exact allows_trans (by decide) hP
      | (extract_lets +onlyGivenNames x; have : State := x; clear this; clear_value (ex : x = _); revert x; intro z ez; refine kept_sub (P := P) (s := b) ez ?_ (fun hz => ?_))
      | (extract_lets +onlyGivenNames x; revert x; intro y) | apply keptR_next | apply setFld_kept | apply calRecheck_kept
      | apply tickNotice_kept | apply log_kept | split

theorem execCalOutOfRangePass_kept (x1 : State) (h1 : Kept P b x1) (hP : allows 872417953 P = true) :
    KeptR P b (execCalOutOfRangePass x1) := by
  unfold execCalOutOfRangePass
  repeat' first
    | with_reducible first
      | assumption | exact allows_trans (by decide) hP
      | (extract_lets +onlyGivenNames x; have : State := x; clear this; clear_value (ex : x = _); revert x; intro z ez; refine kept_sub (P := P) (s := b) ez ?_ (fun hz => ?_))
      | (extract_lets +onlyGivenNames x; revert x; intro y) | apply keptR_next | apply tickNotice_kept | apply log_kept
      | split | apply Kept.set_tick

theorem execTickNoticePost_kept (x1 : State) (h1 : Kept P b x1) (hP : allows 1140850785 P = true) :
    KeptR P b (execTickNoticePost x1) := by
  unfold execTickNoticePost
  repeat' first
    | with_reducible first
      | assumption | exact allows_trans (by decide) hP | (extract_lets +onlyGivenNames x; revert x; intro y)
      | apply keptR_next | apply postNotice_kept | split | apply Kept.set_tick

end Sys2Proof.Machine
end

