-- ==== Sys2Proof/Laws/KeptEngineCmds.lean ====
section
/-! SUPPORT. What each operation of Machine/EngineCmds.lean keeps: see `Kept`. -/

namespace Sys2Proof.Machine

variable {P : Nat} {b : State}

theorem clearLog_kept (x1 : State) (x2 : Nat) (h1 : Kept P b x1) (hP : allows 872418945 P = true) :
    Kept P b (State.clearLog x1 x2) := by
  unfold State.clearLog
  repeat' first
    | with_reducible first
      | assumption | exact allows_trans (by decide) hP
      | (extract_lets +onlyGivenNames x; have : State := x; clear this; clear_value (ex : x = _); revert x; intro z ez; refine kept_sub (P := P) (s := b) ez ?_ (fun hz => ?_))
      | (extract_lets +onlyGivenNames x; revert x; intro y) | (apply KeptF.fst; apply putUnit_kept) | apply setFld_kept
      | apply norErase_kept | apply record_kept | apply log_kept | split | apply Kept.set_evr | (dsimp only)

theorem reacquired_kept (x1 : State) (h1 : Kept P b x1) (hP : allows 100667457 P = true) :
    Kept P b (State.reacquired x1) := by
  unfold State.reacquired
  repeat' first
    | with_reducible first
      | assumption | apply endJob_kept | split

theorem tickConfigApply_kept (x1 : State) (x2 : Call) (h1 : Kept P b x1) (hP : allows 33 P = true) :
    Kept P b (State.tickConfigApply x1 x2) := by
  unfold State.tickConfigApply
  repeat' first
    | with_reducible first
      | assumption | exact allows_trans (by decide) hP
      | (extract_lets +onlyGivenNames x; have : State := x; clear this; clear_value (ex : x = _); revert x; intro z ez; refine kept_sub (P := P) (s := b) ez ?_ (fun hz => ?_))
      | (extract_lets +onlyGivenNames x; revert x; intro y) | apply setFld_kept | apply setPair_kept | apply setReg_kept
      | split | apply Kept.set_tick

theorem execTickConfig_kept (x1 : Upsets) (x2 : State) (h2 : Kept P b x2) (hP : allows 1946163937 P = true) :
    KeptR P b (execTickConfig x1 x2) := by
  unfold execTickConfig
  repeat' first
    | with_reducible first
      | assumption | intro _ | exact allows_trans (by decide) hP | apply KeptReply.made
      | (apply KeptReply.st; apply no_kept) | (apply KeptReply.st; apply ok_kept) | apply command_kept
      | apply tickConfigApply_kept | split

theorem execTickReacquire_kept (x1 : Upsets) (x2 : State) (h2 : Kept P b x2) (hP : allows 1946180321 P = true) :
    KeptR P b (execTickReacquire x1 x2) := by
  unfold execTickReacquire
  repeat' first
    | with_reducible first
      | assumption | intro _ | exact allows_trans (by decide) hP
      | (extract_lets +onlyGivenNames x; have : State := x; clear this; clear_value (ex : x = _); revert x; intro z ez; refine kept_sub (P := P) (s := b) ez ?_ (fun hz => ?_))
      | apply KeptReply.made | (apply KeptReply.st; apply no_kept) | (apply KeptReply.st; apply startJob_kept)
      | apply command_kept | apply dropTickChanges_kept | apply dropChanges_kept | apply acquireStart_kept
      | apply setFld_kept | split

theorem execTimeSet_kept (x1 : Upsets) (x2 : State) (h2 : Kept P b x2) (hP : allows 1946163937 P = true) :
    KeptR P b (execTimeSet x1 x2) := by
  unfold execTimeSet
  repeat' first
    | with_reducible first
      | assumption | intro _ | exact allows_trans (by decide) hP | (extract_lets +onlyGivenNames x; revert x; intro y)
      | apply KeptReply.made | (apply KeptReply.st; apply no_kept) | (apply KeptReply.st; apply ok_kept)
      | apply command_kept | split | apply Kept.set_tick

theorem execCalSet_kept (x1 : Upsets) (x2 : State) (h2 : Kept P b x2) (hP : allows 1946163937 P = true) :
    KeptR P b (execCalSet x1 x2) := by
  unfold execCalSet
  repeat' first
    | with_reducible first
      | assumption | intro _ | exact allows_trans (by decide) hP
      | (extract_lets +onlyGivenNames x; have : State := x; clear this; clear_value (ex : x = _); revert x; intro z ez; refine kept_sub (P := P) (s := b) ez ?_ (fun hz => ?_))
      | (extract_lets +onlyGivenNames x; revert x; intro y) | apply KeptReply.made | (apply KeptReply.st; apply no_kept)
      | (apply KeptReply.st; apply ok_kept) | apply command_kept | apply bump_kept | apply setFld_kept | apply log_kept
      | split | apply Kept.set_tick

theorem execUtcOffsetSet_kept (x1 : Upsets) (x2 : State) (h2 : Kept P b x2) (hP : allows 1946163937 P = true) :
    KeptR P b (execUtcOffsetSet x1 x2) := by
  unfold execUtcOffsetSet
  repeat' first
    | with_reducible first
      | assumption | intro _ | exact allows_trans (by decide) hP
      | (extract_lets +onlyGivenNames x; have : State := x; clear this; clear_value (ex : x = _); revert x; intro z ez; refine kept_sub (P := P) (s := b) ez ?_ (fun hz => ?_))
      | (extract_lets +onlyGivenNames x; revert x; intro y) | apply KeptReply.made | (apply KeptReply.st; apply no_kept)
      | (apply KeptReply.st; apply ok_kept) | apply command_kept | apply setFld_kept | apply calRecheck_kept
      | apply setPair_kept | split

theorem execLogRead_kept (x1 : Bool) (x2 : Upsets) (x3 : State) (h3 : Kept P b x3) (hP : allows 1946163905 P = true) :
    KeptR P b (execLogRead x1 x2 x3) := by
  unfold execLogRead
  repeat' first
    | with_reducible first
      | assumption | intro _ | exact allows_trans (by decide) hP | (extract_lets +onlyGivenNames x; revert x; intro y)
      | apply KeptReply.made | (apply KeptReply.st; apply no_kept) | (apply KeptReply.st; apply ok_kept)
      | apply command_kept | apply bufferPut_kept | split

theorem execLogClear_kept (x1 : Upsets) (x2 : State) (h2 : Kept P b x2) (hP : allows 1946163905 P = true) :
    KeptR P b (execLogClear x1 x2) := by
  unfold execLogClear
  repeat' first
    | with_reducible first
      | assumption | intro _ | exact allows_trans (by decide) hP | (extract_lets +onlyGivenNames x; revert x; intro y)
      | apply KeptReply.made | (apply KeptReply.st; apply no_kept) | (apply KeptReply.st; apply startJob_kept)
      | apply command_kept | split | apply Kept.set_evr | (dsimp only)

theorem execNvmRead_kept (x1 : Bool) (x2 : Upsets) (x3 : State) (h3 : Kept P b x3) (hP : allows 1979718337 P = true) :
    KeptR P b (execNvmRead x1 x2 x3) := by
  unfold execNvmRead
  repeat' first
    | with_reducible first
      | assumption | intro _ | exact allows_trans (by decide) hP | (extract_lets +onlyGivenNames x; revert x; intro y)
      | apply KeptReply.made | (apply KeptReply.st; apply no_kept) | (apply KeptReply.st; apply ok_kept)
      | apply command_kept | apply drawnN_kept | apply bufferPut_kept | split

theorem execNvmWrite_kept (x1 : Bool) (x2 : Upsets) (x3 : State) (h3 : Kept P b x3) (hP : allows 1946164929 P = true) :
    KeptR P b (execNvmWrite x1 x2 x3) := by
  unfold execNvmWrite
  repeat' first
    | with_reducible first
      | assumption | intro _ | exact allows_trans (by decide) hP
      | (extract_lets +onlyGivenNames x; have : State := x; clear this; clear_value (ex : x = _); revert x; intro z ez; refine kept_sub (P := P) (s := b) ez ?_ (fun hz => ?_))
      | (extract_lets +onlyGivenNames x; revert x; intro y) | apply KeptReply.made | (apply KeptReply.st; apply no_kept)
      | (apply KeptReply.st; apply dataError_kept) | (apply KeptReply.st; apply ok_kept) | apply command_kept
      | apply norProgram_kept | apply norSpoil_kept | apply log_kept | split

theorem execNvmErase_kept (x1 : Upsets) (x2 : State) (h2 : Kept P b x2) (hP : allows 1946163905 P = true) :
    KeptR P b (execNvmErase x1 x2) := by
  unfold execNvmErase
  repeat' first
    | with_reducible first
      | assumption | intro _ | exact allows_trans (by decide) hP | (extract_lets +onlyGivenNames x; revert x; intro y)
      | apply KeptReply.made | (apply KeptReply.st; apply no_kept) | (apply KeptReply.st; apply startJob_kept)
      | apply command_kept | split

theorem execPowerState_kept (x1 : Upsets) (x2 : State) (h2 : Kept P b x2) (hP : allows 1946163913 P = true) :
    KeptR P b (execPowerState x1 x2) := by
  unfold execPowerState
  repeat' first
    | with_reducible first
      | assumption | intro _ | exact allows_trans (by decide) hP | (extract_lets +onlyGivenNames x; revert x; intro y)
      | apply KeptReply.made | (apply KeptReply.st; apply no_kept) | (apply KeptReply.st; apply ok_kept)
      | apply command_kept | split | apply Kept.set_pwr

theorem execPowerCapSet_kept (x1 : Upsets) (x2 : State) (h2 : Kept P b x2) (hP : allows 1946163905 P = true) :
    KeptR P b (execPowerCapSet x1 x2) := by
  unfold execPowerCapSet
  repeat' first
    | with_reducible first
      | assumption | intro _ | exact allows_trans (by decide) hP | (extract_lets +onlyGivenNames x; revert x; intro y)
      | apply KeptReply.made | (apply KeptReply.st; apply no_kept) | (apply KeptReply.st; apply ok_kept)
      | apply command_kept | split | apply Kept.set_frz

theorem execLogClearJobEnd_kept (x1 : State) (h1 : Kept P b x1) (hP : allows 905977537 P = true) :
    KeptR P b (execLogClearJobEnd x1) := by
  unfold execLogClearJobEnd
  repeat' first
    | with_reducible first
      | assumption | exact allows_trans (by decide) hP | apply keptR_next | apply endJob_kept | apply clearLog_kept | split

theorem execNvmEraseJobEnd_kept (x1 : Nat) (x2 : State) (h2 : Kept P b x2) (hP : allows 905977537 P = true) :
    KeptR P b (execNvmEraseJobEnd x1 x2) := by
  unfold execNvmEraseJobEnd
  repeat' first
    | with_reducible first
      | assumption | exact allows_trans (by decide) hP
      | (extract_lets +onlyGivenNames x; have : State := x; clear this; clear_value (ex : x = _); revert x; intro z ez; refine kept_sub (P := P) (s := b) ez ?_ (fun hz => ?_))
      | (extract_lets +onlyGivenNames x; revert x; intro y) | apply keptR_next | apply norErase_kept | apply norSpoil_kept
      | apply log_kept | apply modJob_kept | apply endJob_kept | split

end Sys2Proof.Machine
end

