-- ==== Sys2Proof/Laws/KeptFreezeOps.lean ====
section
/-! SUPPORT. What each operation of Machine/FreezeOps.lean keeps: see `Kept`. -/

namespace Sys2Proof.Machine

variable {P : Nat} {b : State}

theorem clockDown_kept (x1 : State) (x2 : Nat) (h1 : Kept P b x1) (hP : allows 1 P = true) :
    Kept P b (State.clockDown x1 x2) := by
  unfold State.clockDown
  repeat' first
    | with_reducible first
      | assumption
      | (extract_lets +onlyGivenNames x; have : State := x; clear this; clear_value (ex : x = _); revert x; intro z ez; refine kept_sub (P := P) (s := b) ez ?_ (fun hz => ?_))
      | apply bump_kept | apply setFld_kept | split

theorem clockUp_kept (x1 : State) (h1 : Kept P b x1) (hP : allows 2049 P = true) :
    Kept P b (State.clockUp x1) := by
  unfold State.clockUp
  repeat' first
    | with_reducible first
      | assumption | exact allows_trans (by decide) hP
      | (extract_lets +onlyGivenNames x; have : State := x; clear this; clear_value (ex : x = _); revert x; intro z ez; refine kept_sub (P := P) (s := b) ez ?_ (fun hz => ?_))
      | (extract_lets +onlyGivenNames x; revert x; intro y) | apply setFld_kept | split | apply Kept.set_frz

theorem holdBoundary_kept (x1 : State) (h1 : Kept P b x1) (hP : allows 2049 P = true) :
    Kept P b (State.holdBoundary x1) := by
  unfold State.holdBoundary
  repeat' first
    | with_reducible first
      | assumption | exact allows_trans (by decide) hP | (extract_lets +onlyGivenNames x; revert x; intro y)
      | apply setFld_kept | split | apply Kept.set_frz

theorem imposeHold_kept (x1 : State) (h1 : Kept P b x1) (hP : allows 2049 P = true) :
    Kept P b (State.imposeHold x1) := by
  unfold State.imposeHold
  repeat' first
    | with_reducible first
      | assumption | exact allows_trans (by decide) hP
      | (extract_lets +onlyGivenNames x; have : State := x; clear this; clear_value (ex : x = _); revert x; intro z ez; refine kept_sub (P := P) (s := b) ez ?_ (fun hz => ?_))
      | (extract_lets +onlyGivenNames x; revert x; intro y) | apply setFld_kept | apply bump_kept | split
      | apply Kept.set_frz

theorem tapSet_kept (x1 : State) (x2 : Nat) (x3 : Nat) (h1 : Kept P b x1) (hP : allows 2048 P = true) :
    Kept P b (State.tapSet x1 x2 x3) := by
  unfold State.tapSet
  repeat' first
    | with_reducible first
      | assumption | (extract_lets +onlyGivenNames x; revert x; intro y) | apply Kept.set_frz

theorem tapBypass_kept (x1 : State) (x2 : Nat) (h1 : Kept P b x1) (hP : allows 67110912 P = true) :
    Kept P b (State.tapBypass x1 x2) := by
  unfold State.tapBypass
  repeat' first
    | with_reducible first
      | assumption | exact allows_trans (by decide) hP | apply emit_kept | apply tapSet_kept

theorem tapScan_kept (x1 : State) (x2 : Nat) (x3 : Nat) (h1 : Kept P b x1) (hP : allows 100665344 P = true) :
    Kept P b (State.tapScan x1 x2 x3) := by
  unfold State.tapScan
  repeat' first
    | with_reducible first
      | assumption | exact allows_trans (by decide) hP | (extract_lets +onlyGivenNames x; revert x; intro y)
      | apply emit_kept | apply drawn_kept | apply Kept.set_frz

theorem thawStart_kept (x1 : State) (x2 : Nat) (h1 : Kept P b x1) (hP : allows 872417929 P = true) :
    Kept P b (State.thawStart x1 x2) := by
  unfold State.thawStart
  repeat' first
    | with_reducible first
      | assumption | exact allows_trans (by decide) hP
      | (extract_lets +onlyGivenNames x; have : State := x; clear this; clear_value (ex : x = _); revert x; intro z ez; refine kept_sub (P := P) (s := b) ez ?_ (fun hz => ?_))
      | (extract_lets +onlyGivenNames x; revert x; intro y) | apply setFld_kept | apply log_kept | apply Kept.set_pwr_frz

theorem thawReq_kept (x1 : State) (x2 : Nat) (h1 : Kept P b x1) (hP : allows 872417929 P = true) :
    Kept P b (State.thawReq x1 x2) := by
  unfold State.thawReq
  repeat' first
    | with_reducible first
      | assumption | exact allows_trans (by decide) hP | (extract_lets +onlyGivenNames x; revert x; intro y)
      | apply thawStart_kept | split | apply Kept.set_frz

theorem execFreezeNLow_kept (x1 : State) (h1 : Kept P b x1) (hP : allows 872417929 P = true) :
    KeptR P b (execFreezeNLow x1) := by
  unfold execFreezeNLow
  repeat' first
    | with_reducible first
      | assumption | exact allows_trans (by decide) hP
      | (extract_lets +onlyGivenNames x; have : State := x; clear this; clear_value (ex : x = _); revert x; intro z ez; refine kept_sub (P := P) (s := b) ez ?_ (fun hz => ?_))
      | (extract_lets +onlyGivenNames x; revert x; intro y) | apply keptR_next | apply freezeReq_kept | split
      | apply Kept.set_pwr

theorem execFreezeRequest_kept (x1 : Nat) (x2 : Bool) (x3 : State) (h3 : Kept P b x3) (hP : allows 872417921 P = true) :
    KeptR P b (execFreezeRequest x1 x2 x3) := by
  unfold execFreezeRequest
  repeat' first
    | with_reducible first
      | assumption | apply keptR_next | apply freezeReq_kept

theorem execFreezeStatic_kept (x1 : State) (h1 : Kept P b x1) (hP : allows 872417929 P = true) :
    KeptR P b (execFreezeStatic x1) := by
  unfold execFreezeStatic
  repeat' first
    | with_reducible first
      | assumption | exact allows_trans (by decide) hP
      | (extract_lets +onlyGivenNames x; have : State := x; clear this; clear_value (ex : x = _); revert x; intro z ez; refine kept_sub (P := P) (s := b) ez ?_ (fun hz => ?_))
      | apply keptR_next | apply setFld_kept | apply thawStart_kept | split

theorem execBlankingEnd_kept (x1 : Bool) (x2 : State) (h2 : Kept P b x2) (hP : allows 872417929 P = true) :
    KeptR P b (execBlankingEnd x1 x2) := by
  unfold execBlankingEnd
  repeat' first
    | with_reducible first
      | assumption | exact allows_trans (by decide) hP
      | (extract_lets +onlyGivenNames x; have : State := x; clear this; clear_value (ex : x = _); revert x; intro z ez; refine kept_sub (P := P) (s := b) ez ?_ (fun hz => ?_))
      | (extract_lets +onlyGivenNames x; revert x; intro y) | apply keptR_next | apply setFld_kept | apply freezeReq_kept
      | apply bump_kept | split | apply Kept.set_pwr

theorem execExtest_kept (x1 : Nat) (x2 : Nat) (x3 : State) (h3 : Kept P b x3) (hP : allows 100665344 P = true) :
    KeptR P b (execExtest x1 x2 x3) := by
  unfold execExtest
  repeat' first
    | with_reducible first
      | assumption | exact allows_trans (by decide) hP | apply keptR_next | apply tapScan_kept | apply tapSet_kept
      | apply tapBypass_kept | split

theorem execIdcode_kept (x1 : State) (h1 : Kept P b x1) (hP : allows 67110912 P = true) :
    KeptR P b (execIdcode x1) := by
  unfold execIdcode
  repeat' first
    | with_reducible first
      | assumption | exact allows_trans (by decide) hP | apply keptR_next | apply emit_kept | apply tapSet_kept

theorem execSamplePreload_kept (x1 : Nat) (x2 : Nat) (x3 : State) (h3 : Kept P b x3) (hP : allows 100665344 P = true) :
    KeptR P b (execSamplePreload x1 x2 x3) := by
  unfold execSamplePreload
  repeat' first
    | with_reducible first
      | assumption | exact allows_trans (by decide) hP | apply keptR_next | apply tapScan_kept | apply tapSet_kept

theorem execClamp_kept (x1 : State) (h1 : Kept P b x1) (hP : allows 67110912 P = true) :
    KeptR P b (execClamp x1) := by
  unfold execClamp
  repeat' first
    | with_reducible first
      | assumption | exact allows_trans (by decide) hP | apply keptR_next | apply emit_kept | apply tapSet_kept
      | apply tapBypass_kept | split

theorem execHighz_kept (x1 : State) (h1 : Kept P b x1) (hP : allows 67110912 P = true) :
    KeptR P b (execHighz x1) := by
  unfold execHighz
  repeat' first
    | with_reducible first
      | assumption | exact allows_trans (by decide) hP | apply keptR_next | apply emit_kept | apply tapSet_kept
      | apply tapBypass_kept | split

theorem execObsAddr_kept (x1 : DWord) (x2 : State) (h2 : Kept P b x2) (hP : allows 2048 P = true) :
    KeptR P b (execObsAddr x1 x2) := by
  unfold execObsAddr
  repeat' first
    | with_reducible first
      | assumption
      | (extract_lets +onlyGivenNames x; have : State := x; clear this; clear_value (ex : x = _); revert x; intro z ez; refine kept_sub (P := P) (s := b) ez ?_ (fun hz => ?_))
      | (extract_lets +onlyGivenNames x; revert x; intro y) | apply keptR_next | apply tapSet_kept | apply Kept.set_frz

theorem execObsStatus_kept (x1 : State) (h1 : Kept P b x1) (hP : allows 67110912 P = true) :
    KeptR P b (execObsStatus x1) := by
  unfold execObsStatus
  repeat' first
    | with_reducible first
      | assumption | exact allows_trans (by decide) hP | (extract_lets +onlyGivenNames x; revert x; intro y)
      | apply keptR_next | apply emit_kept | apply tapSet_kept

theorem execBypass_kept (x1 : Nat) (x2 : State) (h2 : Kept P b x2) (hP : allows 67110912 P = true) :
    KeptR P b (execBypass x1 x2) := by
  unfold execBypass
  repeat' first
    | with_reducible first
      | assumption | apply keptR_next | apply tapBypass_kept | split

theorem execPowerSample_kept (x1 : Nat) (x2 : State) (h2 : Kept P b x2) (hP : allows 2049 P = true) :
    KeptR P b (execPowerSample x1 x2) := by
  unfold execPowerSample
  repeat' first
    | with_reducible first
      | assumption | exact allows_trans (by decide) hP
      | (extract_lets +onlyGivenNames x; have : State := x; clear this; clear_value (ex : x = _); revert x; intro z ez; refine kept_sub (P := P) (s := b) ez ?_ (fun hz => ?_))
      | (extract_lets +onlyGivenNames x; revert x; intro y) | apply keptR_next | apply imposeHold_kept
      | apply clockDown_kept | apply clockUp_kept | split | apply Kept.set_frz

theorem execThermalStep_kept (x1 : Int) (x2 : State) (h2 : Kept P b x2) (hP : allows 2049 P = true) :
    KeptR P b (execThermalStep x1 x2) := by
  unfold execThermalStep
  repeat' first
    | with_reducible first
      | assumption | exact allows_trans (by decide) hP
      | (extract_lets +onlyGivenNames x; have : State := x; clear this; clear_value (ex : x = _); revert x; intro z ez; refine kept_sub (P := P) (s := b) ez ?_ (fun hz => ?_))
      | (extract_lets +onlyGivenNames x; revert x; intro y) | apply keptR_next | apply imposeHold_kept
      | apply clockDown_kept | split | apply Kept.set_frz

theorem execTelemetryUpdate_kept (x1 : Nat) (x2 : Nat) (x3 : Nat) (x4 : List (Bool × Int)) (x5 : State) (h5 : Kept P b x5) (hP : allows 1 P = true) :
    KeptR P b (execTelemetryUpdate x1 x2 x3 x4 x5) := by
  unfold execTelemetryUpdate
  repeat' first
    | with_reducible first
      | assumption | intro _
      | (extract_lets +onlyGivenNames x; have : State := x; clear this; clear_value (ex : x = _); revert x; intro z ez; refine kept_sub (P := P) (s := b) ez ?_ (fun hz => ?_))
      | (extract_lets +onlyGivenNames x; revert x; intro y) | apply keptR_next | apply setFld_kept | apply setPair_kept
      | apply kept_foldl

end Sys2Proof.Machine
end

