-- ==== Sys2Proof/Laws/KeptEwebin.lean ====
section
/-! SUPPORT. What each operation of Machine/Ewebin.lean keeps: see `Kept`. -/

namespace Sys2Proof.Machine

variable {P : Nat} {b : State}

theorem announceOn_kept (x1 : State) (x2 : Nat) (x3 : Nat) (h1 : Kept P b x1) (hP : allows 67108864 P = true) :
    Kept P b (State.announceOn x1 x2 x3) := by
  unfold State.announceOn
  repeat' first
    | with_reducible first
      | assumption | apply sendOn_kept

theorem announceBoundary_kept (x1 : State) (h1 : Kept P b x1) (hP : allows 67108864 P = true) :
    Kept P b (State.announceBoundary x1) := by
  unfold State.announceBoundary
  repeat' first
    | with_reducible first
      | assumption | intro _ | (extract_lets +onlyGivenNames x; revert x; intro y) | apply announceOn_kept
      | apply kept_foldl | split

theorem setPort_kept (x1 : State) (x2 : Nat) (x3 : Port) (h1 : Kept P b x1) (hP : allows 128 P = true) :
    Kept P b (State.setPort x1 x2 x3) := by
  unfold State.setPort
  repeat' first
    | with_reducible first
      | assumption | (extract_lets +onlyGivenNames x; revert x; intro y) | apply Kept.set_ewb

theorem drainCheck_kept (x1 : State) (x2 : Nat) (h1 : Kept P b x1) (hP : allows 67108992 P = true) :
    Kept P b (State.drainCheck x1 x2) := by
  unfold State.drainCheck
  repeat' first
    | with_reducible first
      | assumption | exact allows_trans (by decide) hP | (extract_lets +onlyGivenNames x; revert x; intro y)
      | apply sendOn_kept | apply setPort_kept | split

theorem enterCheck_kept (x1 : State) (h1 : Kept P b x1) (hP : allows 1 P = true) :
    Kept P b (State.enterCheck x1) := by
  unfold State.enterCheck
  repeat' first
    | with_reducible first
      | assumption | apply setFld_kept | split

theorem enterRing_kept (x1 : State) (h1 : Kept P b x1) (hP : allows 129 P = true) :
    Kept P b (State.enterRing x1) := by
  unfold State.enterRing
  repeat' first
    | with_reducible first
      | assumption | intro _ | exact allows_trans (by decide) hP
      | (extract_lets +onlyGivenNames x; have : State := x; clear this; clear_value (ex : x = _); revert x; intro z ez; refine kept_sub (P := P) (s := b) ez ?_ (fun hz => ?_))
      | (extract_lets +onlyGivenNames x; revert x; intro y) | apply setFld_kept | apply setPort_kept | apply kept_foldl

theorem leaveRing_kept (x1 : State) (h1 : Kept P b x1) (hP : allows 1 P = true) :
    Kept P b (State.leaveRing x1) := by
  unfold State.leaveRing
  repeat' first
    | with_reducible first
      | assumption | apply setPair_kept | apply setFld_kept

theorem entryFail_kept (x1 : State) (h1 : Kept P b x1) (hP : allows 872417921 P = true) :
    Kept P b (State.entryFail x1) := by
  unfold State.entryFail
  repeat' first
    | with_reducible first
      | assumption | exact allows_trans (by decide) hP | apply log_kept | apply leaveRing_kept

theorem failNotice_kept (x1 : State) (x2 : Nat) (x3 : List Nat) (x4 : Nat) (x5 : Nat) (h1 : Kept P b x1) (hP : allows 67108993 P = true) :
    Kept P b (State.failNotice x1 x2 x3 x4 x5) := by
  unfold State.failNotice
  repeat' first
    | with_reducible first
      | assumption | exact allows_trans (by decide) hP
      | (extract_lets +onlyGivenNames x; have : State := x; clear this; clear_value (ex : x = _); revert x; intro z ez; refine kept_sub (P := P) (s := b) ez ?_ (fun hz => ?_))
      | (extract_lets +onlyGivenNames x; revert x; intro y) | apply bump_kept | apply sendOn_kept | apply Kept.set_ewb

theorem forwardFrz_kept (x1 : State) (x2 : Nat) (x3 : Nat) (x4 : List Byte) (h1 : Kept P b x1) (hP : allows 67108993 P = true) :
    KeptF P b (State.forwardFrz x1 x2 x3 x4) := by
  unfold State.forwardFrz
  repeat' first
    | with_reducible first
      | assumption | exact allows_trans (by decide) hP
      | (extract_lets +onlyGivenNames x; have : State := x; clear this; clear_value (ex : x = _); revert x; intro z ez; refine kept_sub (P := P) (s := b) ez ?_ (fun hz => ?_))
      | (extract_lets +onlyGivenNames x; revert x; intro y) | apply KeptF.pair | apply sendOn_kept | apply setFld_kept
      | split | apply Kept.set_ewb

theorem forwardNotice_kept (x1 : State) (x2 : Nat) (x3 : List Byte) (h1 : Kept P b x1) (hP : allows 67108993 P = true) :
    KeptF P b (State.forwardNotice x1 x2 x3) := by
  unfold State.forwardNotice
  repeat' first
    | with_reducible first
      | assumption | exact allows_trans (by decide) hP
      | (extract_lets +onlyGivenNames x; have : State := x; clear this; clear_value (ex : x = _); revert x; intro z ez; refine kept_sub (P := P) (s := b) ez ?_ (fun hz => ?_))
      | (extract_lets +onlyGivenNames x; revert x; intro y) | apply KeptF.pair | apply bump_kept | apply sendOn_kept | split
      | apply Kept.set_ewb

theorem freeEntry_kept (x1 : State) (x2 : Nat) (x3 : Nat) (h1 : Kept P b x1) (hP : allows 67108992 P = true) :
    Kept P b (State.freeEntry x1 x2 x3) := by
  unfold State.freeEntry
  repeat' first
    | with_reducible first
      | assumption | exact allows_trans (by decide) hP | (extract_lets +onlyGivenNames x; revert x; intro y)
      | apply sendOn_kept | apply setPort_kept | split

theorem goPort_kept (x1 : State) (x2 : Nat) (x3 : Nat) (h1 : Kept P b x1) (hP : allows 1 P = true) :
    Kept P b (State.goPort x1 x2 x3) := by
  unfold State.goPort
  repeat' first
    | with_reducible first
      | assumption | apply setFld_kept

theorem heardOn_kept (x1 : State) (x2 : Nat) (h1 : Kept P b x1) (hP : allows 128 P = true) :
    Kept P b (State.heardOn x1 x2) := by
  unfold State.heardOn
  repeat' first
    | with_reducible first
      | assumption | (extract_lets +onlyGivenNames x; revert x; intro y) | apply setPort_kept | split

theorem holdWindow_kept (x1 : State) (x2 : Nat) (x3 : Nat) (x4 : Nat) (x5 : Nat) (x6 : Bool) (x7 : Bool) (h1 : Kept P b x1) (hP : allows 129 P = true) :
    Kept P b (State.holdWindow x1 x2 x3 x4 x5 x6 x7) := by
  unfold State.holdWindow
  repeat' first
    | with_reducible first
      | assumption | exact allows_trans (by decide) hP
      | (extract_lets +onlyGivenNames x; have : State := x; clear this; clear_value (ex : x = _); revert x; intro z ez; refine kept_sub (P := P) (s := b) ez ?_ (fun hz => ?_))
      | (extract_lets +onlyGivenNames x; revert x; intro y) | apply setPair_kept | apply Kept.set_ewb

theorem linkUp_kept (x1 : State) (x2 : Nat) (x3 : Nat) (x4 : List Nat) (x5 : LinkResult) (x6 : Bool) (h1 : Kept P b x1) (hP : allows 129 P = true) :
    Kept P b (State.linkUp x1 x2 x3 x4 x5 x6) := by
  unfold State.linkUp
  repeat' first
    | with_reducible first
      | assumption | intro _ | exact allows_trans (by decide) hP
      | (extract_lets +onlyGivenNames x; have : State := x; clear this; clear_value (ex : x = _); revert x; intro z ez; refine kept_sub (P := P) (s := b) ez ?_ (fun hz => ?_))
      | (extract_lets +onlyGivenNames x; revert x; intro y) | apply setFld_kept | apply goPort_kept | apply setBit_kept
      | apply setReg_kept | apply setPort_kept | apply kept_foldl

theorem markersSend_kept (x1 : State) (h1 : Kept P b x1) (hP : allows 100663296 P = true) :
    Kept P b (State.markersSend x1) := by
  unfold State.markersSend
  repeat' first
    | with_reducible first
      | assumption | intro _ | exact allows_trans (by decide) hP
      | (extract_lets +onlyGivenNames x; have : State := x; clear this; clear_value (ex : x = _); revert x; intro z ez; refine kept_sub (P := P) (s := b) ez ?_ (fun hz => ?_))
      | (extract_lets +onlyGivenNames x; revert x; intro y) | apply sendOn_kept | apply drawn_kept | apply kept_foldl
      | split

theorem symBad_kept (x1 : State) (x2 : Nat) (h1 : Kept P b x1) (hP : allows 1 P = true) :
    Kept P b (State.symBad x1 x2) := by
  unfold State.symBad
  repeat' first
    | with_reducible first
      | assumption | apply bump_kept

theorem onSymbol_kept (x1 : State) (x2 : Nat) (x3 : Nat) (x4 : List Byte) (x5 : State → State) (h1 : Kept P b x1) (h5 : ∀ y0, Kept P b y0 → Kept P b (x5 y0)) (hP : allows 129 P = true) :
    Kept P b (State.onSymbol x1 x2 x3 x4 x5) := by
  unfold State.onSymbol
  repeat' first
    | with_reducible first
      | assumption | exact allows_trans (by decide) hP | apply heardOn_kept | apply symBad_kept | split | apply h5

theorem pausePort_kept (x1 : State) (x2 : Nat) (h1 : Kept P b x1) (hP : allows 67108993 P = true) :
    Kept P b (State.pausePort x1 x2) := by
  unfold State.pausePort
  repeat' first
    | with_reducible first
      | assumption | exact allows_trans (by decide) hP
      | (extract_lets +onlyGivenNames x; have : State := x; clear this; clear_value (ex : x = _); revert x; intro z ez; refine kept_sub (P := P) (s := b) ez ?_ (fun hz => ?_))
      | (extract_lets +onlyGivenNames x; revert x; intro y) | apply setPort_kept | apply goPort_kept | apply drainCheck_kept
      | apply sendOn_kept

theorem portDisable_kept (x1 : State) (x2 : Nat) (h1 : Kept P b x1) (hP : allows 129 P = true) :
    Kept P b (State.portDisable x1 x2) := by
  unfold State.portDisable
  repeat' first
    | with_reducible first
      | assumption | exact allows_trans (by decide) hP | (extract_lets +onlyGivenNames x; revert x; intro y)
      | apply setPort_kept | apply goPort_kept

theorem portFail_kept (x1 : State) (x2 : Nat) (h1 : Kept P b x1) (hP : allows 872417921 P = true) :
    Kept P b (State.portFail x1 x2) := by
  unfold State.portFail
  repeat' first
    | with_reducible first
      | assumption | exact allows_trans (by decide) hP
      | (extract_lets +onlyGivenNames x; have : State := x; clear this; clear_value (ex : x = _); revert x; intro z ez; refine kept_sub (P := P) (s := b) ez ?_ (fun hz => ?_))
      | (extract_lets +onlyGivenNames x; revert x; intro y) | apply bump_kept | apply goPort_kept | apply setPort_kept
      | apply log_kept | apply failNotice_kept

theorem sendFlit_kept (x1 : State) (x2 : Nat) (x3 : Flit) (h1 : Kept P b x1) (hP : allows 67108992 P = true) :
    Kept P b (State.sendFlit x1 x2 x3) := by
  unfold State.sendFlit
  repeat' first
    | with_reducible first
      | assumption | exact allows_trans (by decide) hP | (extract_lets +onlyGivenNames x; revert x; intro y)
      | apply emit_kept | apply setPort_kept

theorem drainTxq_kept (x1 : Nat) (x2 : Nat) (x3 : State) (h3 : Kept P b x3) (hP : allows 67108992 P = true) :
    Kept P b (drainTxq x1 x2 x3) := by
  induction x2 generalizing x1 x3 with
  | zero =>
    rw [drainTxq]
    repeat' first
      | with_reducible first
        | assumption
  | succ n ih =>
    rw [drainTxq]
    repeat' first
      | with_reducible first
        | assumption | exact allows_trans (by decide) hP | (extract_lets +onlyGivenNames x; revert x; intro y)
        | apply freeEntry_kept | apply sendFlit_kept | apply setPort_kept | split | apply ih

theorem queueFlit_kept (x1 : State) (x2 : Nat) (x3 : Nat) (x4 : Flit) (h1 : Kept P b x1) (hP : allows 67108992 P = true) :
    Kept P b (State.queueFlit x1 x2 x3 x4) := by
  unfold State.queueFlit
  repeat' first
    | with_reducible first
      | assumption | exact allows_trans (by decide) hP
      | (extract_lets +onlyGivenNames x; have : State := x; clear this; clear_value (ex : x = _); revert x; intro z ez; refine kept_sub (P := P) (s := b) ez ?_ (fun hz => ?_))
      | (extract_lets +onlyGivenNames x; revert x; intro y) | apply setPort_kept | apply drainTxq_kept

theorem routeFlit_kept (x1 : State) (x2 : Nat) (x3 : Flit) (h1 : Kept P b x1) (hP : allows 67108993 P = true) :
    Kept P b (State.routeFlit x1 x2 x3) := by
  unfold State.routeFlit
  repeat' first
    | with_reducible first
      | assumption | exact allows_trans (by decide) hP | (extract_lets +onlyGivenNames x; revert x; intro y)
      | apply freeEntry_kept | apply bump_kept | apply queueFlit_kept | split | apply Kept.set_ewb

theorem sendNak_kept (x1 : State) (x2 : Nat) (h1 : Kept P b x1) (hP : allows 67108864 P = true) :
    Kept P b (State.sendNak x1 x2) := by
  unfold State.sendNak
  repeat' first
    | with_reducible first
      | assumption | apply sendOn_kept

theorem execDelayMeasure_kept (x1 : State) (h1 : Kept P b x1) (hP : allows 67108992 P = true) :
    KeptR P b (execDelayMeasure x1) := by
  unfold execDelayMeasure
  repeat' first
    | with_reducible first
      | assumption | intro _ | exact allows_trans (by decide) hP
      | (extract_lets +onlyGivenNames x; have : State := x; clear this; clear_value (ex : x = _); revert x; intro z ez; refine kept_sub (P := P) (s := b) ez ?_ (fun hz => ?_))
      | (extract_lets +onlyGivenNames x; revert x; intro y) | apply keptR_next | apply setPort_kept | apply sendOn_kept
      | apply kept_foldl | split

theorem execFlitReceive_kept (x1 : Nat) (x2 : Flit) (x3 : Bool) (x4 : Nat) (x5 : Nat) (x6 : State) (h6 : Kept P b x6) (hP : allows 67108993 P = true) :
    KeptR P b (execFlitReceive x1 x2 x3 x4 x5 x6) := by
  unfold execFlitReceive
  repeat' first
    | with_reducible first
      | assumption | exact allows_trans (by decide) hP
      | (extract_lets +onlyGivenNames x; have : State := x; clear this; clear_value (ex : x = _); revert x; intro z ez; refine kept_sub (P := P) (s := b) ez ?_ (fun hz => ?_))
      | (extract_lets +onlyGivenNames x; revert x; intro y) | apply keptR_next | apply addFld_kept | apply sendNak_kept
      | apply bump_kept | apply setPort_kept | apply routeFlit_kept | apply sendOn_kept | split

theorem execCredit_kept (x1 : Nat) (x2 : List Byte) (x3 : State) (h3 : Kept P b x3) (hP : allows 67108993 P = true) :
    KeptR P b (execCredit x1 x2 x3) := by
  unfold execCredit
  repeat' first
    | with_reducible first
      | assumption | intro _ | exact allows_trans (by decide) hP
      | (extract_lets +onlyGivenNames x; have : State := x; clear this; clear_value (ex : x = _); revert x; intro z ez; refine kept_sub (P := P) (s := b) ez ?_ (fun hz => ?_))
      | (extract_lets +onlyGivenNames x; revert x; intro y) | apply keptR_next | apply onSymbol_kept | apply setPort_kept
      | apply drainTxq_kept

theorem execAck_kept (x1 : Nat) (x2 : List Byte) (x3 : State) (h3 : Kept P b x3) (hP : allows 67108993 P = true) :
    KeptR P b (execAck x1 x2 x3) := by
  unfold execAck
  repeat' first
    | with_reducible first
      | assumption | intro _ | exact allows_trans (by decide) hP
      | (extract_lets +onlyGivenNames x; have : State := x; clear this; clear_value (ex : x = _); revert x; intro z ez; refine kept_sub (P := P) (s := b) ez ?_ (fun hz => ?_))
      | (extract_lets +onlyGivenNames x; revert x; intro y) | apply keptR_next | apply onSymbol_kept | apply setPort_kept
      | apply drainCheck_kept | apply drainTxq_kept

theorem execNak_kept (x1 : Nat) (x2 : List Byte) (x3 : State) (h3 : Kept P b x3) (hP : allows 872417921 P = true) :
    KeptR P b (execNak x1 x2 x3) := by
  unfold execNak
  repeat' first
    | with_reducible first
      | assumption | intro _ | exact allows_trans (by decide) hP
      | (extract_lets +onlyGivenNames x; have : State := x; clear this; clear_value (ex : x = _); revert x; intro z ez; refine kept_sub (P := P) (s := b) ez ?_ (fun hz => ?_))
      | (extract_lets +onlyGivenNames x; revert x; intro y) | apply keptR_next | apply onSymbol_kept | apply addFld_kept
      | apply setPort_kept | apply portFail_kept | apply emitAll_kept | split

theorem execDelayReq_kept (x1 : Nat) (x2 : List Byte) (x3 : Nat) (x4 : State) (h4 : Kept P b x4) (hP : allows 67108993 P = true) :
    KeptR P b (execDelayReq x1 x2 x3 x4) := by
  unfold execDelayReq
  repeat' first
    | with_reducible first
      | assumption | intro _ | exact allows_trans (by decide) hP | apply keptR_next | apply onSymbol_kept
      | apply sendOn_kept

theorem execDelayResp_kept (x1 : Nat) (x2 : List Byte) (x3 : Nat) (x4 : State) (h4 : Kept P b x4) (hP : allows 129 P = true) :
    KeptR P b (execDelayResp x1 x2 x3 x4) := by
  unfold execDelayResp
  repeat' first
    | with_reducible first
      | assumption | intro _ | exact allows_trans (by decide) hP
      | (extract_lets +onlyGivenNames x; have : State := x; clear this; clear_value (ex : x = _); revert x; intro z ez; refine kept_sub (P := P) (s := b) ez ?_ (fun hz => ?_))
      | (extract_lets +onlyGivenNames x; revert x; intro y) | apply keptR_next | apply onSymbol_kept | apply setPort_kept
      | apply setFld_kept | split

theorem execFreezeSymbol_kept (x1 : Nat) (x2 : List Byte) (x3 : State) (h3 : Kept P b x3) (hP : allows 872417921 P = true) :
    KeptR P b (execFreezeSymbol x1 x2 x3) := by
  unfold execFreezeSymbol
  repeat' first
    | with_reducible first
      | assumption | intro _ | exact allows_trans (by decide) hP
      | (extract_lets +onlyGivenNames x; have : State × _ := x; clear this; clear_value (ex : x = _); revert x; intro z ez; refine kept_subG (KeptF P b) ez ?_ (fun hz => ?_))
      | apply keptR_next | apply KeptF.pair | (apply KeptF.fst; apply forwardFrz_kept) | apply onSymbol_kept
      | apply bump_kept | apply freezeReq_kept | split | (apply KeptF.fst; assumption)

theorem execThawSymbol_kept (x1 : Nat) (x2 : List Byte) (x3 : State) (h3 : Kept P b x3) (hP : allows 872417929 P = true) :
    KeptR P b (execThawSymbol x1 x2 x3) := by
  unfold execThawSymbol
  repeat' first
    | with_reducible first
      | assumption | intro _ | exact allows_trans (by decide) hP
      | (extract_lets +onlyGivenNames x; have : State × _ := x; clear this; clear_value (ex : x = _); revert x; intro z ez; refine kept_subG (KeptF P b) ez ?_ (fun hz => ?_))
      | apply keptR_next | apply KeptF.pair | (apply KeptF.fst; apply forwardFrz_kept) | apply onSymbol_kept
      | apply thawReq_kept | split | (apply KeptF.fst; assumption)

theorem execAnnounce_kept (x1 : Nat) (x2 : List Byte) (x3 : State) (h3 : Kept P b x3) (hP : allows 129 P = true) :
    KeptR P b (execAnnounce x1 x2 x3) := by
  unfold execAnnounce
  repeat' first
    | with_reducible first
      | assumption | intro _ | exact allows_trans (by decide) hP | (extract_lets +onlyGivenNames x; revert x; intro y)
      | apply keptR_next | apply onSymbol_kept | apply setFld_kept | apply holdWindow_kept | split

theorem execPause_kept (x1 : Nat) (x2 : List Byte) (x3 : State) (h3 : Kept P b x3) (hP : allows 67108993 P = true) :
    KeptR P b (execPause x1 x2 x3) := by
  unfold execPause
  repeat' first
    | with_reducible first
      | assumption | intro _ | exact allows_trans (by decide) hP | (extract_lets +onlyGivenNames x; revert x; intro y)
      | apply keptR_next | apply onSymbol_kept | apply drainCheck_kept | apply setPort_kept | split

theorem execDrained_kept (x1 : Nat) (x2 : List Byte) (x3 : State) (h3 : Kept P b x3) (hP : allows 129 P = true) :
    KeptR P b (execDrained x1 x2 x3) := by
  unfold execDrained
  repeat' first
    | with_reducible first
      | assumption | intro _ | exact allows_trans (by decide) hP
      | (extract_lets +onlyGivenNames x; have : State := x; clear this; clear_value (ex : x = _); revert x; intro z ez; refine kept_sub (P := P) (s := b) ez ?_ (fun hz => ?_))
      | (extract_lets +onlyGivenNames x; revert x; intro y) | apply keptR_next | apply onSymbol_kept | apply setPort_kept
      | apply enterRing_kept | apply leaveRing_kept | split

theorem execTrainHello_kept (x1 : Nat) (x2 : List Byte) (x3 : Nat) (x4 : State) (h4 : Kept P b x4) (hP : allows 67108993 P = true) :
    KeptR P b (execTrainHello x1 x2 x3 x4) := by
  unfold execTrainHello
  repeat' first
    | with_reducible first
      | assumption | intro _ | exact allows_trans (by decide) hP | (extract_lets +onlyGivenNames x; revert x; intro y)
      | apply keptR_next | apply onSymbol_kept | apply sendOn_kept | apply setPort_kept | split

theorem execTrainKey_kept (x1 : Nat) (x2 : List Byte) (x3 : State) (h3 : Kept P b x3) (hP : allows 100663425 P = true) :
    KeptR P b (execTrainKey x1 x2 x3) := by
  unfold execTrainKey
  repeat' first
    | with_reducible first
      | assumption | intro _ | exact allows_trans (by decide) hP
      | (extract_lets +onlyGivenNames x; have : State := x; clear this; clear_value (ex : x = _); revert x; intro z ez; refine kept_sub (P := P) (s := b) ez ?_ (fun hz => ?_))
      | (extract_lets +onlyGivenNames x; revert x; intro y) | apply keptR_next | apply symBad_kept | apply onSymbol_kept
      | apply setPort_kept | apply sendOn_kept | apply drawnN_kept | split

theorem execLegTrainEnd_kept (x1 : Nat) (x2 : Bool) (x3 : State) (h3 : Kept P b x3) (hP : allows 129 P = true) :
    KeptR P b (execLegTrainEnd x1 x2 x3) := by
  unfold execLegTrainEnd
  repeat' first
    | with_reducible first
      | assumption | exact allows_trans (by decide) hP
      | (extract_lets +onlyGivenNames x; have : State := x; clear this; clear_value (ex : x = _); revert x; intro z ez; refine kept_sub (P := P) (s := b) ez ?_ (fun hz => ?_))
      | (extract_lets +onlyGivenNames x; revert x; intro y) | apply keptR_next | apply goPort_kept | apply setPort_kept
      | apply setFld_kept | split

theorem execLinkTrainEnd_kept (x1 : Nat) (x2 : LinkResult) (x3 : State) (h3 : Kept P b x3) (hP : allows 872417921 P = true) :
    KeptR P b (execLinkTrainEnd x1 x2 x3) := by
  unfold execLinkTrainEnd
  repeat' first
    | with_reducible first
      | assumption | exact allows_trans (by decide) hP
      | (extract_lets +onlyGivenNames x; have : State := x; clear this; clear_value (ex : x = _); revert x; intro z ez; refine kept_sub (P := P) (s := b) ez ?_ (fun hz => ?_))
      | (extract_lets +onlyGivenNames x; revert x; intro y) | apply keptR_next | apply goPort_kept | apply enterCheck_kept
      | apply linkUp_kept | apply setFld_kept | apply entryFail_kept | split | apply Kept.set_ewb

theorem execPortFailed_kept (x1 : Nat) (x2 : State) (h2 : Kept P b x2) (hP : allows 872417921 P = true) :
    KeptR P b (execPortFailed x1 x2) := by
  unfold execPortFailed
  repeat' first
    | with_reducible first
      | assumption | exact allows_trans (by decide) hP | apply keptR_next | apply goPort_kept | apply portFail_kept | split

theorem execPortRetryTimer_kept (x1 : Nat) (x2 : Bool) (x3 : State) (h3 : Kept P b x3) (hP : allows 129 P = true) :
    KeptR P b (execPortRetryTimer x1 x2 x3) := by
  unfold execPortRetryTimer
  repeat' first
    | with_reducible first
      | assumption | exact allows_trans (by decide) hP | (extract_lets +onlyGivenNames x; revert x; intro y)
      | apply keptR_next | apply goPort_kept | apply setPort_kept | split

theorem execElementStateChange_kept (x1 : Nat) (x2 : Bool) (x3 : State) (h3 : Kept P b x3) (hP : allows 129 P = true) :
    KeptR P b (execElementStateChange x1 x2 x3) := by
  unfold execElementStateChange
  repeat' first
    | with_reducible first
      | assumption | exact allows_trans (by decide) hP
      | (extract_lets +onlyGivenNames x; have : State := x; clear this; clear_value (ex : x = _); revert x; intro z ez; refine kept_sub (P := P) (s := b) ez ?_ (fun hz => ?_))
      | (extract_lets +onlyGivenNames x; revert x; intro y) | apply keptR_next | apply setPort_kept | apply enterCheck_kept
      | apply goPort_kept | apply setFld_kept | split

theorem execPeerStreamAppear_kept (x1 : Nat) (x2 : State) (h2 : Kept P b x2) (hP : allows 129 P = true) :
    KeptR P b (execPeerStreamAppear x1 x2) := by
  unfold execPeerStreamAppear
  repeat' first
    | with_reducible first
      | assumption | exact allows_trans (by decide) hP | apply keptR_next | apply goPort_kept | apply heardOn_kept | split

theorem execPortCtrlWrite_kept (x1 : Nat) (x2 : Word) (x3 : State) (h3 : Kept P b x3) (hP : allows 129 P = true) :
    KeptR P b (execPortCtrlWrite x1 x2 x3) := by
  unfold execPortCtrlWrite
  repeat' first
    | with_reducible first
      | assumption | exact allows_trans (by decide) hP
      | (extract_lets +onlyGivenNames x; have : State := x; clear this; clear_value (ex : x = _); revert x; intro z ez; refine kept_sub (P := P) (s := b) ez ?_ (fun hz => ?_))
      | (extract_lets +onlyGivenNames x; revert x; intro y) | apply keptR_next | apply setReg_kept | apply portDisable_kept
      | apply goPort_kept | split

theorem execEwbAdmit_kept (x1 : Word) (x2 : State) (h2 : Kept P b x2) (hP : allows 129 P = true) :
    KeptR P b (execEwbAdmit x1 x2) := by
  unfold execEwbAdmit
  repeat' first
    | with_reducible first
      | assumption | exact allows_trans (by decide) hP | (extract_lets +onlyGivenNames x; revert x; intro y)
      | apply keptR_next | apply setFld_kept | apply holdWindow_kept | split

theorem execEwbRemove_kept (x1 : Word) (x2 : State) (h2 : Kept P b x2) (hP : allows 129 P = true) :
    KeptR P b (execEwbRemove x1 x2) := by
  unfold execEwbRemove
  repeat' first
    | with_reducible first
      | assumption | exact allows_trans (by decide) hP | apply keptR_next | apply setFld_kept | apply holdWindow_kept
      | split

theorem execInsertionWindow_kept (x1 : State) (h1 : Kept P b x1) (hP : allows 67108993 P = true) :
    KeptR P b (execInsertionWindow x1) := by
  unfold execInsertionWindow
  repeat' first
    | with_reducible first
      | assumption | intro _ | exact allows_trans (by decide) hP
      | (extract_lets +onlyGivenNames x; have : State := x; clear this; clear_value (ex : x = _); revert x; intro z ez; refine kept_sub (P := P) (s := b) ez ?_ (fun hz => ?_))
      | apply keptR_next | apply setPair_kept | apply pausePort_kept | apply failNotice_kept | apply kept_foldl | split

theorem execTapSilentEntry_kept (x1 : State) (h1 : Kept P b x1) (hP : allows 129 P = true) :
    KeptR P b (execTapSilentEntry x1) := by
  unfold execTapSilentEntry
  repeat' first
    | with_reducible first
      | assumption | intro _ | exact allows_trans (by decide) hP | (extract_lets +onlyGivenNames x; revert x; intro y)
      | apply keptR_next | apply enterRing_kept | apply setPort_kept | apply kept_foldl | split

theorem execEntryTimeout_kept (x1 : State) (h1 : Kept P b x1) (hP : allows 872417921 P = true) :
    KeptR P b (execEntryTimeout x1) := by
  unfold execEntryTimeout
  repeat' first
    | with_reducible first
      | assumption | apply keptR_next | apply entryFail_kept | split

theorem execWindowAbandon_kept (x1 : State) (h1 : Kept P b x1) (hP : allows 872417921 P = true) :
    KeptR P b (execWindowAbandon x1) := by
  unfold execWindowAbandon
  repeat' first
    | with_reducible first
      | assumption | intro _ | exact allows_trans (by decide) hP
      | (extract_lets +onlyGivenNames x; have : State := x; clear this; clear_value (ex : x = _); revert x; intro z ez; refine kept_sub (P := P) (s := b) ez ?_ (fun hz => ?_))
      | (extract_lets +onlyGivenNames x; revert x; intro y) | apply keptR_next | apply setFld_kept | apply setPort_kept
      | apply goPort_kept | apply log_kept | apply kept_foldl | split

end Sys2Proof.Machine
end

