-- ==== Sys2Proof/Laws/KeptBoot.lean ====
section
/-! SUPPORT. What each operation of Machine/Boot.lean keeps: see `Kept`. -/

namespace Sys2Proof.Machine

variable {P : Nat} {b : State}

theorem bootEnd_kept (x1 : State) (h1 : Kept P b x1) (hP : allows 1025 P = true) :
    Kept P b (State.bootEnd x1) := by
  unfold State.bootEnd
  repeat' first
    | with_reducible first
      | assumption | exact allows_trans (by decide) hP
      | (extract_lets +onlyGivenNames x; have : State := x; clear this; clear_value (ex : x = _); revert x; intro z ez; refine kept_sub (P := P) (s := b) ez ?_ (fun hz => ?_))
      | (extract_lets +onlyGivenNames x; revert x; intro y) | apply setFld_kept | apply norProgram_kept
      | apply norErase_kept | split

theorem configReadyNow_kept (x1 : State) (h1 : Kept P b x1) (hP : allows 603979793 P = true) :
    Kept P b (State.configReadyNow x1) := by
  unfold State.configReadyNow
  repeat' first
    | with_reducible first
      | assumption | exact allows_trans (by decide) hP
      | (extract_lets +onlyGivenNames x; have : State := x; clear this; clear_value (ex : x = _); revert x; intro z ez; refine kept_sub (P := P) (s := b) ez ?_ (fun hz => ?_))
      | (extract_lets +onlyGivenNames x; revert x; intro y) | apply refreshUsable_kept | apply setBit_kept
      | apply setFld_kept | apply emit_kept | apply Kept.set_boot

theorem failRegs_kept (x1 : State) (h1 : Kept P b x1) (hP : allows 1 P = true) :
    Kept P b (State.failRegs x1) := by
  unfold State.failRegs
  repeat' first
    | with_reducible first
      | assumption
      | (extract_lets +onlyGivenNames x; have : State := x; clear this; clear_value (ex : x = _); revert x; intro z ez; refine kept_sub (P := P) (s := b) ez ?_ (fun hz => ?_))
      | (extract_lets +onlyGivenNames x; revert x; intro y) | apply setFld_kept

theorem failUnit_kept (x1 : Nat) (x2 : Nat) (x3 : State) (x4 : Nat) (h3 : Kept P b x3) (hP : allows 872418961 P = true) :
    Kept P b (State.failUnit x1 x2 x3 x4) := by
  unfold State.failUnit
  repeat' first
    | with_reducible first
      | assumption | exact allows_trans (by decide) hP
      | (extract_lets +onlyGivenNames x; have : State := x; clear this; clear_value (ex : x = _); revert x; intro z ez; refine kept_sub (P := P) (s := b) ez ?_ (fun hz => ?_))
      | (extract_lets +onlyGivenNames x; revert x; intro y) | apply log_kept | apply appendFence_kept | split
      | apply Kept.set_boot

theorem keepParams_kept (x1 : State) (x2 : Nat) (x3 : Nat) (h1 : Kept P b x1) (hP : allows 536870928 P = true) :
    Kept P b (State.keepParams x1 x2 x3) := by
  unfold State.keepParams
  repeat' first
    | with_reducible first
      | assumption | (extract_lets +onlyGivenNames x; revert x; intro y) | split | apply Kept.set_boot

theorem setWords_kept (x1 : State) (x2 : Nat → Nat) (x3 : Nat) (x4 : List Byte) (h1 : Kept P b x1) (hP : allows 1 P = true) :
    Kept P b (State.setWords x1 x2 x3 x4) := by
  unfold State.setWords
  repeat' first
    | with_reducible first
      | assumption | intro _ | apply setReg_kept | apply kept_foldl

theorem keysLoad_kept (x1 : State) (x2 : Bool) (h1 : Kept P b x1) (hP : allows 1 P = true) :
    Kept P b (State.keysLoad x1 x2) := by
  unfold State.keysLoad
  repeat' first
    | with_reducible first
      | assumption
      | (extract_lets +onlyGivenNames x; have : State := x; clear this; clear_value (ex : x = _); revert x; intro z ez; refine kept_sub (P := P) (s := b) ez ?_ (fun hz => ?_))
      | apply setFld_kept | apply setBit_kept | apply setWords_kept

theorem mountStep_kept (x1 : State) (x2 : Bool) (h1 : Kept P b x1) (hP : allows 905973377 P = true) :
    Kept P b (State.mountStep x1 x2) := by
  unfold State.mountStep
  repeat' first
    | with_reducible first
      | assumption | exact allows_trans (by decide) hP
      | (extract_lets +onlyGivenNames x; have : State := x; clear this; clear_value (ex : x = _); revert x; intro z ez; refine kept_sub (P := P) (s := b) ez ?_ (fun hz => ?_))
      | (extract_lets +onlyGivenNames x; revert x; intro y) | apply mount_kept | apply setFld_kept | split
      | apply Kept.set_evr | (dsimp only)

theorem portsTrain_kept (x1 : State) (h1 : Kept P b x1) (hP : allows 1 P = true) :
    Kept P b (State.portsTrain x1) := by
  unfold State.portsTrain
  repeat' first
    | with_reducible first
      | assumption | intro _ | apply goPort_kept | apply kept_foldl

theorem nextStep_kept (x1 : State) (x2 : Nat) (h1 : Kept P b x1) (hP : allows 536871985 P = true) :
    Kept P b (State.nextStep x1 x2) := by
  unfold State.nextStep
  repeat' first
    | with_reducible first
      | assumption | exact allows_trans (by decide) hP | (extract_lets +onlyGivenNames x; revert x; intro y)
      | apply beginStep_kept | apply portsTrain_kept | apply acquireStart_kept | split | apply Kept.set_boot

theorem programStep_kept (x1 : State) (x2 : Nat) (x3 : Nat) (h1 : Kept P b x1) (hP : allows 1024 P = true) :
    Kept P b (State.programStep x1 x2 x3) := by
  unfold State.programStep
  repeat' first
    | with_reducible first
      | assumption | (extract_lets +onlyGivenNames x; revert x; intro y) | apply norProgram_kept | split

theorem setOutcome_kept (x1 : State) (x2 : Nat) (x3 : Nat) (h1 : Kept P b x1) (hP : allows 1 P = true) :
    Kept P b (State.setOutcome x1 x2 x3) := by
  unfold State.setOutcome
  repeat' first
    | with_reducible first
      | assumption | apply setFld_kept | apply setReg_kept | split

theorem recordStep_kept (x1 : State) (x2 : Nat) (x3 : Nat) (x4 : Nat) (h1 : Kept P b x1) (hP : allows 872418961 P = true) :
    Kept P b (State.recordStep x1 x2 x3 x4) := by
  unfold State.recordStep
  repeat' first
    | with_reducible first
      | assumption | intro _ | exact allows_trans (by decide) hP
      | (extract_lets +onlyGivenNames x; have : State := x; clear this; clear_value (ex : x = _); revert x; intro z ez; refine kept_sub (P := P) (s := b) ez ?_ (fun hz => ?_))
      | (extract_lets +onlyGivenNames x; revert x; intro y) | apply keepParams_kept | apply setOutcome_kept
      | apply programStep_kept | apply failRegs_kept | apply failUnit_kept | apply kept_foldl

theorem zeroAll_kept (x1 : State) (h1 : Kept P b x1) (hP : allows 7516520512 P = true) :
    Kept P b (State.zeroAll x1) := by
  have kk : ∀ i, (P.testBit i = false) → Nat.testBit 7516520512 i = false := fun i hi => testBit_of_land (allows_iff.mp hP) hi
  refine h1.trans ⟨fun p hp => ?_, fun c => ?_, [], rfl⟩
  · have := kk p.bit hp
    cases p <;> first | (exact absurd this (by decide)) | (simp [State.same, State.zeroAll])
  · have := canonical_iff.mp c
    exact canonical_iff.mpr ⟨this.1, rfl, this.2.2.1, rfl, this.2.2.2.2⟩

theorem stepEffect_kept (x1 : State) (x2 : Nat) (x3 : Bool) (h1 : Kept P b x1) (hP : allows 8422493905 P = true) :
    Kept P b (State.stepEffect x1 x2 x3) := by
  unfold State.stepEffect
  repeat' first
    | with_reducible first
      | assumption | exact allows_trans (by decide) hP | apply keysLoad_kept | apply setFld_kept | apply zeroAll_kept
      | apply configReadyNow_kept | apply mountStep_kept | apply bootEnd_kept | split

theorem execBootStepEnd_kept (x1 : Nat) (x2 : Nat) (x3 : State) (h3 : Kept P b x3) (hP : allows 8422493937 P = true) :
    KeptR P b (execBootStepEnd x1 x2 x3) := by
  unfold execBootStepEnd
  repeat' first
    | with_reducible first
      | assumption | exact allows_trans (by decide) hP | (extract_lets +onlyGivenNames x; revert x; intro y)
      | apply keptR_next | apply nextStep_kept | apply stepEffect_kept | apply recordStep_kept | split

theorem execTickAcquireListenEnd_kept (x1 : State) (h1 : Kept P b x1) (hP : allows 905976545 P = true) :
    KeptR P b (execTickAcquireListenEnd x1) := by
  unfold execTickAcquireListenEnd
  repeat' first
    | with_reducible first
      | assumption | exact allows_trans (by decide) hP | apply keptR_next | apply reacquired_kept | apply listenEnd_kept

theorem execPerstNRelease_kept (x1 : State) (h1 : Kept P b x1) (hP : allows 805309465 P = true) :
    KeptR P b (execPerstNRelease x1) := by
  unfold execPerstNRelease
  repeat' first
    | with_reducible first
      | assumption | exact allows_trans (by decide) hP
      | (extract_lets +onlyGivenNames x; have : State := x; clear this; clear_value (ex : x = _); revert x; intro z ez; refine kept_sub (P := P) (s := b) ez ?_ (fun hz => ?_))
      | (extract_lets +onlyGivenNames x; revert x; intro y) | apply keptR_next | apply beginStep_kept | split
      | apply Kept.set_pwr_frz

end Sys2Proof.Machine
end

