-- ==== Sys2Proof/Laws/KeptEngines.lean ====
section
/-! SUPPORT. What each operation of Machine/Engines.lean keeps: see `Kept`. -/

namespace Sys2Proof.Machine

variable {P : Nat} {b : State}

theorem ffeFault_kept (x1 : State) (x2 : Nat) (x3 : Nat) (x4 : Nat) (x5 : Nat) (h1 : Kept P b x1) (hP : allows 1 P = true) :
    Kept P b (State.ffeFault x1 x2 x3 x4 x5) := by
  unfold State.ffeFault
  repeat' first
    | with_reducible first
      | assumption | apply setReg_kept

theorem blockFault_kept (x1 : State) (x2 : Nat) (x3 : Block) (x4 : Nat) (x5 : Nat) (x6 : Nat) (h1 : Kept P b x1) (hP : allows 7350348737 P = true) :
    Kept P b (State.blockFault x1 x2 x3 x4 x5 x6) := by
  unfold State.blockFault
  repeat' first
    | with_reducible first
      | assumption | exact allows_trans (by decide) hP
      | (extract_lets +onlyGivenNames x; have : State := x; clear this; clear_value (ex : x = _); revert x; intro z ez; refine kept_sub (P := P) (s := b) ez ?_ (fun hz => ?_))
      | apply ffeFault_kept | apply dropBlocks_kept | apply stopCmd_kept | apply contained_kept | apply faultUid_kept
      | split

theorem collAbort_kept (x1 : State) (x2 : Nat) (x3 : Block) (h1 : Kept P b x1) (hP : allows 7350348737 P = true) :
    Kept P b (State.collAbort x1 x2 x3) := by
  unfold State.collAbort
  repeat' first
    | with_reducible first
      | assumption | exact allows_trans (by decide) hP | apply count_kept | apply blockFault_kept

theorem withRanges_kept (x1 : State) (x2 : Nat) (x3 : Nat) (x4 : List (Nat × Nat)) (x5 : List (Nat × Nat)) (x6 : Unit → State) (h1 : Kept P b x1) (h6 : ∀ y0, Kept P b (x6 y0)) (hP : allows 33619969 P = true) :
    KeptS P b (State.withRanges x1 x2 x3 x4 x5 x6) := by
  unfold State.withRanges
  repeat' first
    | with_reducible first
      | assumption | intro _ | apply KeptS.ok | apply KeptS.bad | apply touch_kept | apply kept_foldl | split | apply h6

theorem collective_kept (x1 : State) (x2 : Nat) (x3 : Block) (x4 : List (List Byte)) (x5 : Bool) (x6 : List (List Byte) → List Byte) (h1 : Kept P b x1) (hP : allows 7350348737 P = true) :
    KeptR P b (State.collective x1 x2 x3 x4 x5 x6) := by
  unfold State.collective
  repeat' first
    | with_reducible first
      | assumption | intro _ | exact allows_trans (by decide) hP | (extract_lets +onlyGivenNames x; revert x; intro y)
      | apply keptR_next | apply collAbort_kept | apply log_kept | apply withRanges_kept | apply memPut_kept
      | apply modInst_kept | apply blockFault_kept | split | refine KeptS.of (by assumption) ?_

theorem efProgress_kept (x1 : State) (x2 : Nat) (x3 : Nat) (h1 : Kept P b x1) (hP : allows 524288 P = true) :
    Kept P b (State.efProgress x1 x2 x3) := by
  unfold State.efProgress
  repeat' first
    | with_reducible first
      | assumption | (extract_lets +onlyGivenNames x; revert x; intro y) | apply Kept.set_ffe

theorem dispatch_kept (x1 : State) (x2 : Nat) (x3 : Nat) (h1 : Kept P b x1) (hP : allows 524288 P = true) :
    Kept P b (State.dispatch x1 x2 x3) := by
  unfold State.dispatch
  repeat' first
    | with_reducible first
      | assumption
      | (extract_lets +onlyGivenNames x; have : State := x; clear this; clear_value (ex : x = _); revert x; intro z ez; refine kept_sub (P := P) (s := b) ez ?_ (fun hz => ?_))
      | apply modInst_kept | apply efProgress_kept | split

theorem drrTake_kept (x1 : State) (x2 : Nat) (h1 : Kept P b x1) (hP : allows 524288 P = true) :
    KeptO P b (State.drrTake x1 x2) := by
  unfold State.drrTake
  repeat' first
    | with_reducible first
      | assumption | (extract_lets +onlyGivenNames x; revert x; intro y) | apply KeptO.some | apply KeptO.none
      | apply dispatch_kept | apply modInst_kept | split

theorem drrVisit_kept (x1 : State) (x2 : Nat) (h1 : Kept P b x1) (hP : allows 524288 P = true) :
    KeptO P b (State.drrVisit x1 x2) := by
  unfold State.drrVisit
  repeat' first
    | with_reducible first
      | assumption | intro _ | (extract_lets +onlyGivenNames x; revert x; intro y) | apply KeptO.map | apply modInst_kept

theorem drr_kept (x1 : State) (x2 : Nat) (x3 : Nat) (h1 : Kept P b x1) (hP : allows 524288 P = true) :
    Kept P b (State.drr x1 x2 x3) := by
  induction x3 generalizing x1 x2 with
  | zero =>
    rw [State.drr]
    repeat' first
      | with_reducible first
        | assumption
  | succ n ih =>
    rw [State.drr]
    repeat' first
      | with_reducible first
        | assumption | apply drrTake_kept | apply drrVisit_kept | split | refine KeptO.of (by assumption) ?_ | apply ih

theorem efSignal_kept (x1 : State) (x2 : Block) (h1 : Kept P b x1) (hP : allows 524288 P = true) :
    Kept P b (State.efSignal x1 x2) := by
  unfold State.efSignal
  repeat' first
    | with_reducible first
      | assumption | (extract_lets +onlyGivenNames x; revert x; intro y) | apply efProgress_kept | split
      | apply Kept.set_ffe

theorem engineStep_kept (x1 : State) (x2 : Nat) (x3 : Nat) (x4 : Nat) (x5 : Block → StepRes) (h1 : Kept P b x1) (h5 : ∀ y0, KeptS P b (x5 y0)) (hP : allows 7350348737 P = true) :
    KeptR P b (State.engineStep x1 x2 x3 x4 x5) := by
  unfold State.engineStep
  repeat' first
    | with_reducible first
      | assumption | exact allows_trans (by decide) hP | apply keptR_next | apply modInst_kept | apply blockFault_kept
      | split | refine KeptS.of (by assumption) ?_ | apply h5

theorem enqueue_kept (x1 : State) (x2 : List Byte) (x3 : Nat) (h1 : Kept P b x1) (hP : allows 524288 P = true) :
    Kept P b (State.enqueue x1 x2 x3) := by
  unfold State.enqueue
  repeat' first
    | with_reducible first
      | assumption | (extract_lets +onlyGivenNames x; revert x; intro y) | apply modInst_kept | split

theorem gatherStep_kept (x1 : State) (x2 : Nat) (x3 : Block) (x4 : Bool) (h1 : Kept P b x1) (hP : allows 6476087297 P = true) :
    KeptS P b (State.gatherStep x1 x2 x3 x4) := by
  unfold State.gatherStep
  repeat' first
    | with_reducible first
      | assumption | intro _ | exact allows_trans (by decide) hP | (extract_lets +onlyGivenNames x; revert x; intro y)
      | apply KeptS.bad | apply withRanges_kept | apply count_kept | apply memPut_kept | split

theorem markBlocks_kept (x1 : State) (x2 : Nat) (h1 : Kept P b x1) (hP : allows 524288 P = true) :
    Kept P b (State.markBlocks x1 x2) := by
  unfold State.markBlocks
  repeat' first
    | with_reducible first
      | assumption | intro _
      | (extract_lets +onlyGivenNames x; have : State := x; clear this; clear_value (ex : x = _); revert x; intro z ez; refine kept_sub (P := P) (s := b) ez ?_ (fun hz => ?_))
      | (extract_lets +onlyGivenNames x; revert x; intro y) | apply modInst_kept | apply kept_foldl | split
      | apply Kept.set_ffe

theorem rowStep_kept (x1 : State) (x2 : Nat) (x3 : Block) (x4 : Nat) (x5 : Nat) (x6 : Nat) (x7 : List (Nat × Nat)) (x8 : Nat → List Val → List Val) (h1 : Kept P b x1) (hP : allows 6476087297 P = true) :
    KeptS P b (State.rowStep x1 x2 x3 x4 x5 x6 x7 x8) := by
  unfold State.rowStep
  repeat' first
    | with_reducible first
      | assumption | intro _ | exact allows_trans (by decide) hP | (extract_lets +onlyGivenNames x; revert x; intro y)
      | apply withRanges_kept | apply drawnN_kept | apply memPut_kept

theorem runsWrite_kept (x1 : State) (x2 : Block) (x3 : List (Nat × Nat)) (x4 : List Byte) (h1 : Kept P b x1) (hP : allows 7583383553 P = true) :
    Kept P b (State.runsWrite x1 x2 x3 x4) := by
  induction x3 generalizing x1 x2 x4 with
  | nil =>
    rw [State.runsWrite]
    repeat' first
      | with_reducible first
        | assumption
  | cons a l ih =>
    rw [State.runsWrite]
    repeat' first
      | with_reducible first
        | assumption | apply copyWrite_kept | apply ih

theorem saveSource_kept (x1 : State) (x2 : Nat) (x3 : Block) (x4 : List Byte) (h1 : Kept P b x1) (hP : allows 524288 P = true) :
    Kept P b (State.saveSource x1 x2 x3 x4) := by
  unfold State.saveSource
  repeat' first
    | with_reducible first
      | assumption | (extract_lets +onlyGivenNames x; revert x; intro y) | apply modInst_kept

theorem stepDone_kept (x1 : State) (x2 : Nat) (h1 : Kept P b x1) (hP : allows 524289 P = true) :
    KeptF P b (State.stepDone x1 x2) := by
  unfold State.stepDone
  repeat' first
    | with_reducible first
      | assumption | exact allows_trans (by decide) hP
      | (extract_lets +onlyGivenNames x; have : State := x; clear this; clear_value (ex : x = _); revert x; intro z ez; refine kept_sub (P := P) (s := b) ez ?_ (fun hz => ?_))
      | (extract_lets +onlyGivenNames x; revert x; intro y) | apply KeptF.pair | apply count_kept | apply modInst_kept
      | apply efSignal_kept | split

theorem execBlockEnqueue_kept (x1 : List Byte) (x2 : State) (h2 : Kept P b x2) (hP : allows 524288 P = true) :
    KeptR P b (execBlockEnqueue x1 x2) := by
  unfold execBlockEnqueue
  repeat' first
    | with_reducible first
      | assumption | (extract_lets +onlyGivenNames x; revert x; intro y) | apply keptR_next | apply enqueue_kept | split

theorem execEngineStepDispatch_kept (x1 : Nat) (x2 : State) (h2 : Kept P b x2) (hP : allows 524288 P = true) :
    KeptR P b (execEngineStepDispatch x1 x2) := by
  unfold execEngineStepDispatch
  repeat' first
    | with_reducible first
      | assumption | (extract_lets +onlyGivenNames x; revert x; intro y) | apply keptR_next | apply dispatch_kept
      | apply drr_kept | split

theorem execMove_kept (x1 : Nat) (x2 : Option (List Byte)) (x3 : Bool) (x4 : State) (h4 : Kept P b x4) (hP : allows 8424090561 P = true) :
    KeptR P b (execMove x1 x2 x3 x4) := by
  unfold execMove
  repeat' first
    | with_reducible first
      | assumption | intro _ | exact allows_trans (by decide) hP | (extract_lets +onlyGivenNames x; revert x; intro y)
      | apply KeptS.ok | apply KeptS.bad | apply engineStep_kept | apply runsWrite_kept | apply saveSource_kept | split

theorem execFill_kept (x1 : Nat) (x2 : Bool) (x3 : State) (h3 : Kept P b x3) (hP : allows 8424090561 P = true) :
    KeptR P b (execFill x1 x2 x3) := by
  unfold execFill
  repeat' first
    | with_reducible first
      | assumption | intro _ | exact allows_trans (by decide) hP | (extract_lets +onlyGivenNames x; revert x; intro y)
      | apply KeptS.ok | apply KeptS.bad | apply engineStep_kept | apply runsWrite_kept | split

theorem execGather_kept (x1 : Nat) (x2 : State) (h2 : Kept P b x2) (hP : allows 7350348737 P = true) :
    KeptR P b (execGather x1 x2) := by
  unfold execGather
  repeat' first
    | with_reducible first
      | assumption | intro _ | exact allows_trans (by decide) hP | apply engineStep_kept | apply gatherStep_kept

theorem execGatherPages_kept (x1 : Nat) (x2 : State) (h2 : Kept P b x2) (hP : allows 7350348737 P = true) :
    KeptR P b (execGatherPages x1 x2) := by
  unfold execGatherPages
  repeat' first
    | with_reducible first
      | assumption | intro _ | exact allows_trans (by decide) hP | apply engineStep_kept | apply gatherStep_kept

theorem execElementwise_kept (x1 : Nat) (x2 : State) (h2 : Kept P b x2) (hP : allows 7350348737 P = true) :
    KeptR P b (execElementwise x1 x2) := by
  unfold execElementwise
  repeat' first
    | with_reducible first
      | assumption | intro _ | exact allows_trans (by decide) hP | (extract_lets +onlyGivenNames x; revert x; intro y)
      | apply engineStep_kept | apply rowStep_kept

theorem execReduce_kept (x1 : Nat) (x2 : State) (h2 : Kept P b x2) (hP : allows 7350348737 P = true) :
    KeptR P b (execReduce x1 x2) := by
  unfold execReduce
  repeat' first
    | with_reducible first
      | assumption | intro _ | exact allows_trans (by decide) hP | apply engineStep_kept | apply rowStep_kept

theorem execNormalise_kept (x1 : Nat) (x2 : State) (h2 : Kept P b x2) (hP : allows 7350348737 P = true) :
    KeptR P b (execNormalise x1 x2) := by
  unfold execNormalise
  repeat' first
    | with_reducible first
      | assumption | intro _ | exact allows_trans (by decide) hP | (extract_lets +onlyGivenNames x; revert x; intro y)
      | apply engineStep_kept | apply rowStep_kept

theorem execSoftmax_kept (x1 : Nat) (x2 : State) (h2 : Kept P b x2) (hP : allows 7350348737 P = true) :
    KeptR P b (execSoftmax x1 x2) := by
  unfold execSoftmax
  repeat' first
    | with_reducible first
      | assumption | intro _ | exact allows_trans (by decide) hP | apply engineStep_kept | apply rowStep_kept

theorem execTopk_kept (x1 : Nat) (x2 : State) (h2 : Kept P b x2) (hP : allows 7350348737 P = true) :
    KeptR P b (execTopk x1 x2) := by
  unfold execTopk
  repeat' first
    | with_reducible first
      | assumption | intro _ | exact allows_trans (by decide) hP | (extract_lets +onlyGivenNames x; revert x; intro y)
      | apply engineStep_kept | apply withRanges_kept | apply memPut_kept | apply kept_foldl

theorem execAllReduce_kept (x1 : Nat) (x2 : List (List Byte)) (x3 : Bool) (x4 : State) (h4 : Kept P b x4) (hP : allows 7350348737 P = true) :
    KeptR P b (execAllReduce x1 x2 x3 x4) := by
  unfold execAllReduce
  repeat' first
    | with_reducible first
      | assumption | (extract_lets +onlyGivenNames x; revert x; intro y) | apply keptR_next | apply collective_kept | split

theorem execAllGather_kept (x1 : Nat) (x2 : List (List Byte)) (x3 : Bool) (x4 : State) (h4 : Kept P b x4) (hP : allows 7350348737 P = true) :
    KeptR P b (execAllGather x1 x2 x3 x4) := by
  unfold execAllGather
  repeat' first
    | with_reducible first
      | assumption | apply keptR_next | apply collective_kept | split

theorem execEngineFenceStall_kept (x1 : Nat) (x2 : Nat) (x3 : State) (h3 : Kept P b x3) (hP : allows 7350348737 P = true) :
    KeptR P b (execEngineFenceStall x1 x2 x3) := by
  unfold execEngineFenceStall
  repeat' first
    | with_reducible first
      | assumption | exact allows_trans (by decide) hP | (extract_lets +onlyGivenNames x; revert x; intro y)
      | apply keptR_next | apply count_kept | apply blockFault_kept | split

theorem execCollectiveTimeout_kept (x1 : Nat) (x2 : State) (h2 : Kept P b x2) (hP : allows 7350348737 P = true) :
    KeptR P b (execCollectiveTimeout x1 x2) := by
  unfold execCollectiveTimeout
  repeat' first
    | with_reducible first
      | assumption | (extract_lets +onlyGivenNames x; revert x; intro y) | apply keptR_next | apply collAbort_kept | split

end Sys2Proof.Machine
end

