-- ==== Sys2Proof/Laws/KeptGraph.lean ====
section
/-! SUPPORT. What each operation of Machine/Graph.lean keeps: see `Kept`. -/

namespace Sys2Proof.Machine

variable {P : Nat} {b : State}

theorem startLaunch_kept (x1 : State) (x2 : Launch) (h1 : Kept P b x1) (hP : allows 393216 P = true) :
    Kept P b (State.startLaunch x1 x2) := by
  unfold State.startLaunch
  repeat' first
    | with_reducible first
      | assumption | exact allows_trans (by decide) hP
      | (extract_lets +onlyGivenNames x; have : State := x; clear this; clear_value (ex : x = _); revert x; intro z ez; refine kept_sub (P := P) (s := b) ez ?_ (fun hz => ?_))
      | (extract_lets +onlyGivenNames x; revert x; intro y) | apply placeAll_kept | apply Kept.set_sch_yar

theorem tPut_kept (x1 : State) (x2 : Nat) (x3 : List Byte) (x4 : List Nat) (x5 : Nat) (h1 : Kept P b x1) (hP : allows 6442532865 P = true) :
    Kept P b (State.tPut x1 x2 x3 x4 x5) := by
  unfold State.tPut
  repeat' first
    | with_reducible first
      | assumption | (extract_lets +onlyGivenNames x; revert x; intro y) | apply memPut_kept

theorem tFill_kept (x1 : State) (x2 : Nat) (x3 : List Byte) (x4 : List Nat → Nat) (h1 : Kept P b x1) (hP : allows 6442532865 P = true) :
    Kept P b (State.tFill x1 x2 x3 x4) := by
  unfold State.tFill
  repeat' first
    | with_reducible first
      | assumption | intro _ | apply tPut_kept | apply kept_foldl

theorem runNode_kept (x1 : State) (x2 : Nat) (x3 : List (List Byte)) (x4 : List Byte) (h1 : Kept P b x1) (hP : allows 6476087297 P = true) :
    KeptI P b (State.runNode x1 x2 x3 x4) := by
  unfold State.runNode
  repeat' first
    | with_reducible first
      | assumption | exact allows_trans (by decide) hP | (extract_lets +onlyGivenNames x; revert x; intro y)
      | apply KeptI.inr | apply KeptI.inl | apply drawnN_kept | apply tFill_kept | apply count_kept | split
      | (dsimp +zetaDelta -proj only)

theorem graphGo_kept (x1 : State) (x2 : GraphRun) (x3 : Nat) (h1 : Kept P b x1) (hP : allows 7350479809 P = true) :
    Kept P b (State.graphGo x1 x2 x3) := by
  induction x3 generalizing x1 x2 with
  | zero =>
    rw [State.graphGo]
    repeat' first
      | with_reducible first
        | assumption
  | succ n ih =>
    rw [State.graphGo]
    repeat' first
      | with_reducible first
        | assumption | exact allows_trans (by decide) hP | (extract_lets +onlyGivenNames x; revert x; intro y)
        | apply endUid_kept | apply startLaunch_kept | apply enqueue_kept | apply runNode_kept | apply faultUid_kept | split
        | refine KeptI.of (by assumption) ?_ | apply ih | apply Kept.set_yar

theorem graphNext_kept (x1 : State) (x2 : Nat) (x3 : Nat) (x4 : Nat) (h1 : Kept P b x1) (hP : allows 7350479809 P = true) :
    Kept P b (State.graphNext x1 x2 x3 x4) := by
  unfold State.graphNext
  repeat' first
    | with_reducible first
      | assumption | exact allows_trans (by decide) hP | (extract_lets +onlyGivenNames x; revert x; intro y)
      | apply endUid_kept | apply graphGo_kept | split | apply Kept.set_yar

theorem launchEnd_kept (x1 : State) (x2 : Nat) (h1 : Kept P b x1) (hP : allows 7350479809 P = true) :
    Kept P b (State.launchEnd x1 x2) := by
  unfold State.launchEnd
  repeat' first
    | with_reducible first
      | assumption | exact allows_trans (by decide) hP
      | (extract_lets +onlyGivenNames x; have : State := x; clear this; clear_value (ex : x = _); revert x; intro z ez; refine kept_sub (P := P) (s := b) ez ?_ (fun hz => ?_))
      | (extract_lets +onlyGivenNames x; revert x; intro y) | apply graphNext_kept | split | apply Kept.set_yar

theorem execTensorGraph_kept (x1 : Nat) (x2 : Nat) (x3 : State) (h3 : Kept P b x3) (hP : allows 7350479809 P = true) :
    KeptR P b (execTensorGraph x1 x2 x3) := by
  unfold execTensorGraph
  repeat' first
    | with_reducible first
      | assumption | intro _ | exact allows_trans (by decide) hP | (extract_lets +onlyGivenNames x; revert x; intro y)
      | apply startNext_kept | apply faultCmd_kept | apply graphGo_kept | split

theorem execKernelRegister_kept (x1 : Nat) (x2 : Nat) (x3 : State) (h3 : Kept P b x3) (hP : allows 872442817 P = true) :
    KeptR P b (execKernelRegister x1 x2 x3) := by
  unfold execKernelRegister
  repeat' first
    | with_reducible first
      | assumption | intro _ | exact allows_trans (by decide) hP
      | (extract_lets +onlyGivenNames x; have : State := x; clear this; clear_value (ex : x = _); revert x; intro z ez; refine kept_sub (P := P) (s := b) ez ?_ (fun hz => ?_))
      | (extract_lets +onlyGivenNames x; revert x; intro y) | apply startNext_kept | apply faultCmd_kept | apply endCmd_kept
      | apply modSlice_kept | split

theorem execKernelRelease_kept (x1 : Nat) (x2 : Nat) (x3 : State) (h3 : Kept P b x3) (hP : allows 67133505 P = true) :
    KeptR P b (execKernelRelease x1 x2 x3) := by
  unfold execKernelRelease
  repeat' first
    | with_reducible first
      | assumption | intro _ | exact allows_trans (by decide) hP | (extract_lets +onlyGivenNames x; revert x; intro y)
      | apply startNext_kept | apply endCmd_kept | apply modSlice_kept | split

theorem execKernelLaunch_kept (x1 : Nat) (x2 : Nat) (x3 : State) (h3 : Kept P b x3) (hP : allows 872836033 P = true) :
    KeptR P b (execKernelLaunch x1 x2 x3) := by
  unfold execKernelLaunch
  repeat' first
    | with_reducible first
      | assumption | intro _ | exact allows_trans (by decide) hP | (extract_lets +onlyGivenNames x; revert x; intro y)
      | apply startNext_kept | apply endCmd_kept | apply faultCmd_kept | apply startLaunch_kept | split

theorem execContextEnd_kept (x1 : Nat) (x2 : Nat) (x3 : State) (h3 : Kept P b x3) (hP : allows 7350479809 P = true) :
    KeptR P b (execContextEnd x1 x2 x3) := by
  unfold execContextEnd
  repeat' first
    | with_reducible first
      | assumption | exact allows_trans (by decide) hP | (extract_lets +onlyGivenNames x; revert x; intro y)
      | apply keptR_next | apply launchEnd_kept | apply placeAll_kept | apply freeCtx_kept | apply sbDrainCtx_kept | split

theorem execEngineStepComplete_kept (x1 : Nat) (x2 : State) (h2 : Kept P b x2) (hP : allows 7350479809 P = true) :
    KeptR P b (execEngineStepComplete x1 x2) := by
  unfold execEngineStepComplete
  repeat' first
    | with_reducible first
      | assumption | exact allows_trans (by decide) hP | apply keptR_next | apply KeptF.pair
      | (apply KeptF.fst; apply stepDone_kept) | apply graphNext_kept | split | refine KeptF.of (by assumption) ?_

end Sys2Proof.Machine
end

