-- ==== Sys2Proof/Laws/KeptTeasel.lean ====
section
/-! SUPPORT. What each operation of Machine/Teasel.lean keeps: see `Kept`. -/

namespace Sys2Proof.Machine

variable {P : Nat} {b : State}

theorem activate_kept (x1 : State) (x2 : Nat) (h1 : Kept P b x1) (hP : allows 6443581441 P = true) :
    KeptO P b (State.activate x1 x2) := by
  unfold State.activate
  repeat' first
    | with_reducible first
      | assumption | exact allows_trans (by decide) hP
      | (extract_lets +onlyGivenNames x; have : State := x; clear this; clear_value (ex : x = _); revert x; intro z ez; refine kept_sub (P := P) (s := b) ez ?_ (fun hz => ?_))
      | (extract_lets +onlyGivenNames x; revert x; intro y) | apply KeptO.some | apply KeptO.none | apply areaPut_kept
      | apply setReg_kept | split | apply Kept.set_tsl

theorem admitSeq_kept (x1 : State) (x2 : Nat) (x3 : Nat) (x4 : QCmd) (h1 : Kept P b x1) (hP : allows 6510698561 P = true) :
    Kept P b (State.admitSeq x1 x2 x3 x4) := by
  unfold State.admitSeq
  repeat' first
    | with_reducible first
      | assumption | exact allows_trans (by decide) hP
      | (extract_lets +onlyGivenNames x; have : State := x; clear this; clear_value (ex : x = _); revert x; intro z ez; refine kept_sub (P := P) (s := b) ez ?_ (fun hz => ?_))
      | (extract_lets +onlyGivenNames x; revert x; intro y) | apply KeptO.some | apply endCmd_kept | apply bump_kept
      | apply activate_kept | apply modSeq_kept | split | refine KeptO.of (by assumption) ?_ | apply Kept.set_tsl

theorem applyAppend_kept (x1 : State) (x2 : Append) (h1 : Kept P b x1) (hP : allows 7316007873 P = true) :
    Kept P b (State.applyAppend x1 x2) := by
  unfold State.applyAppend
  repeat' first
    | with_reducible first
      | assumption | exact allows_trans (by decide) hP
      | (extract_lets +onlyGivenNames x; have : State := x; clear this; clear_value (ex : x = _); revert x; intro z ez; refine kept_sub (P := P) (s := b) ez ?_ (fun hz => ?_))
      | (extract_lets +onlyGivenNames x; revert x; intro y) | apply faultUid_kept | apply memPut_kept | apply modSeq_kept
      | apply endUid_kept | split | apply Kept.set_tsl

theorem dropAppends_kept (x1 : State) (x2 : Nat) (x3 : Nat) (h1 : Kept P b x1) (hP : allows 68165697 P = true) :
    Kept P b (State.dropAppends x1 x2 x3) := by
  unfold State.dropAppends
  repeat' first
    | with_reducible first
      | assumption | intro _ | exact allows_trans (by decide) hP
      | (extract_lets +onlyGivenNames x; have : State := x; clear this; clear_value (ex : x = _); revert x; intro z ez; refine kept_sub (P := P) (s := b) ez ?_ (fun hz => ?_))
      | (extract_lets +onlyGivenNames x; revert x; intro y) | apply endUid_kept | apply kept_foldl | apply Kept.set_tsl

theorem retire_kept (x1 : State) (x2 : Nat) (x3 : Nat) (x4 : Nat) (x5 : Bool) (h1 : Kept P b x1) (hP : allows 7316007873 P = true) :
    Kept P b (State.retire x1 x2 x3 x4 x5) := by
  unfold State.retire
  repeat' first
    | with_reducible first
      | assumption | exact allows_trans (by decide) hP
      | (extract_lets +onlyGivenNames x; have : State := x; clear this; clear_value (ex : x = _); revert x; intro z ez; refine kept_sub (P := P) (s := b) ez ?_ (fun hz => ?_))
      | (extract_lets +onlyGivenNames x; revert x; intro y) | apply dropAppends_kept | apply bump_kept | apply freeSeq_kept
      | apply endUid_kept | apply contained_kept | split

theorem commitRow_kept (x1 : State) (x2 : Nat) (x3 : Nat × Nat × Nat) (h1 : Kept P b x1) (hP : allows 7316007873 P = true) :
    KeptF P b (State.commitRow x1 x2 x3) := by
  unfold State.commitRow
  repeat' first
    | with_reducible first
      | assumption | exact allows_trans (by decide) hP
      | (extract_lets +onlyGivenNames x; have : State := x; clear this; clear_value (ex : x = _); revert x; intro z ez; refine kept_sub (P := P) (s := b) ez ?_ (fun hz => ?_))
      | (extract_lets +onlyGivenNames x; revert x; intro y) | apply KeptF.pair | apply modSeq_kept | apply retire_kept
      | apply memPut_kept | split

theorem commitRows_kept (x1 : List ((Nat × Nat × Nat) × Nat)) (x2 : State) (h2 : Kept P b x2) (hP : allows 7316007873 P = true) :
    KeptF P b (State.commitRows x1 x2) := by
  induction x1 generalizing x2 with
  | nil =>
    rw [State.commitRows]
    repeat' first
      | with_reducible first
        | assumption | apply KeptF.pair
  | cons a l ih =>
    rw [State.commitRows]
    repeat' first
      | with_reducible first
        | assumption | apply KeptF.pair | (apply KeptF.fst; apply commitRow_kept) | split
        | refine KeptF.of (by assumption) ?_ | (apply KeptF.fst; apply ih)

theorem evict_kept (x1 : State) (x2 : Nat) (h1 : Kept P b x1) (hP : allows 6443581441 P = true) :
    Kept P b (State.evict x1 x2) := by
  unfold State.evict
  repeat' first
    | with_reducible first
      | assumption | exact allows_trans (by decide) hP | apply bump_kept | apply modSeq_kept | apply returnPages_kept

theorem evictUntil_kept (x1 : Nat) (x2 : Nat) (x3 : List Nat) (x4 : State) (h4 : Kept P b x4) (hP : allows 6443581441 P = true) :
    Kept P b (State.evictUntil x1 x2 x3 x4) := by
  induction x3 generalizing x1 x2 x4 with
  | nil =>
    rw [State.evictUntil]
    repeat' first
      | with_reducible first
        | assumption
  | cons a l ih =>
    rw [State.evictUntil]
    repeat' first
      | with_reducible first
        | assumption | apply evict_kept | split | apply ih

theorem failRows_kept (x1 : State) (x2 : List (Nat × Nat × Nat)) (x3 : Nat) (x4 : Nat) (h1 : Kept P b x1) (hP : allows 7316007873 P = true) :
    Kept P b (State.failRows x1 x2 x3 x4) := by
  unfold State.failRows
  repeat' first
    | with_reducible first
      | assumption | intro _ | exact allows_trans (by decide) hP | (extract_lets +onlyGivenNames x; revert x; intro y)
      | apply bump_kept | apply retire_kept | apply kept_foldl | split

theorem handOver_kept (x1 : State) (x2 : Nat) (x3 : TStep) (x4 : Nat) (h1 : Kept P b x1) (hP : allows 7350479809 P = true) :
    Kept P b (State.handOver x1 x2 x3 x4) := by
  unfold State.handOver
  repeat' first
    | with_reducible first
      | assumption | intro _ | exact allows_trans (by decide) hP
      | (extract_lets +onlyGivenNames x; have : State := x; clear this; clear_value (ex : x = _); revert x; intro z ez; refine kept_sub (P := P) (s := b) ez ?_ (fun hz => ?_))
      | (extract_lets +onlyGivenNames x; revert x; intro y) | apply bump_kept | apply modSeq_kept | apply faultUid_kept
      | apply graphGo_kept | apply kept_foldl | split | apply Kept.set_tsl

theorem takePages_kept (x1 : State) (x2 : Nat) (x3 : Nat) (x4 : Build) (h1 : Kept P b x1) (h4 : Kept P b x4.st) (hP : allows 6443581441 P = true) :
    KeptO P b (State.takePages x1 x2 x3 x4) := by
  unfold State.takePages
  repeat' first
    | with_reducible first
      | assumption | intro _ | exact allows_trans (by decide) hP
      | (extract_lets +onlyGivenNames x; have : State := x; clear this; clear_value (ex : x = _); revert x; intro z ez; refine kept_sub (P := P) (s := b) ez ?_ (fun hz => ?_))
      | (extract_lets +onlyGivenNames x; revert x; intro y) | apply KeptO.some | apply KeptO.none | apply evictUntil_kept
      | apply areaPut_kept | apply setPage_kept | apply modSeq_kept | apply kept_foldl | split

theorem offer_kept (x1 : Nat) (x2 : Nat) (x3 : Build) (x4 : Nat) (h3 : Kept P b x3.st) (hP : allows 7316007873 P = true) :
    KeptBuild P b (State.offer x1 x2 x3 x4) := by
  unfold State.offer
  repeat' first
    | with_reducible first
      | assumption | exact allows_trans (by decide) hP
      | (extract_lets +onlyGivenNames x; have : State := x; clear this; clear_value (ex : x = _); revert x; intro z ez; refine kept_sub (P := P) (s := b) ez ?_ (fun hz => ?_))
      | (extract_lets +onlyGivenNames x; revert x; intro y) | apply KeptBuild.made | apply retire_kept | apply bump_kept
      | apply takePages_kept | apply modSeq_kept | split | refine KeptO.of (by assumption) ?_

theorem readManifest_kept (x1 : State) (x2 : Nat) (h1 : Kept P b x1) (hP : allows 1048577 P = true) :
    Kept P b (State.readManifest x1 x2) := by
  unfold State.readManifest
  repeat' first
    | with_reducible first
      | assumption | exact allows_trans (by decide) hP
      | (extract_lets +onlyGivenNames x; have : State := x; clear this; clear_value (ex : x = _); revert x; intro z ez; refine kept_sub (P := P) (s := b) ez ?_ (fun hz => ?_))
      | (extract_lets +onlyGivenNames x; revert x; intro y) | apply setFld_kept | split | apply Kept.set_tsl

theorem unloadTeasel_kept (x1 : State) (h1 : Kept P b x1) (hP : allows 7350348737 P = true) :
    Kept P b (State.unloadTeasel x1) := by
  unfold State.unloadTeasel
  repeat' first
    | with_reducible first
      | assumption | intro _ | exact allows_trans (by decide) hP
      | (extract_lets +onlyGivenNames x; have : State := x; clear this; clear_value (ex : x = _); revert x; intro z ez; refine kept_sub (P := P) (s := b) ez ?_ (fun hz => ?_))
      | (extract_lets +onlyGivenNames x; revert x; intro y) | apply dropBlocks_kept | apply stopOnClusters_kept
      | apply retire_kept | apply kept_foldl | apply Kept.set_tsl

theorem writeRows_kept (x1 : State) (x2 : Nat) (x3 : List (Nat × Nat × Nat)) (h1 : Kept P b x1) (hP : allows 6442532865 P = true) :
    KeptI P b (State.writeRows x1 x2 x3) := by
  unfold State.writeRows
  repeat' first
    | with_reducible first
      | assumption | intro _
      | (extract_lets +onlyGivenNames x; have : State := x; clear this; clear_value (ex : x = _); revert x; intro z ez; refine kept_sub (P := P) (s := b) ez ?_ (fun hz => ?_))
      | (extract_lets +onlyGivenNames x; revert x; intro y) | apply KeptI.inr | apply KeptI.inl | apply areaPut_kept
      | apply kept_foldl | split

theorem execSeqAdmit_kept (x1 : Nat) (x2 : Nat) (x3 : State) (h3 : Kept P b x3) (hP : allows 6510698561 P = true) :
    KeptR P b (execSeqAdmit x1 x2 x3) := by
  unfold execSeqAdmit
  repeat' first
    | with_reducible first
      | assumption | intro _ | exact allows_trans (by decide) hP
      | (extract_lets +onlyGivenNames x; have : State := x; clear this; clear_value (ex : x = _); revert x; intro z ez; refine kept_sub (P := P) (s := b) ez ?_ (fun hz => ?_))
      | apply keptR_next | apply startNext_kept | apply readManifest_kept | apply endCmd_kept | apply admitSeq_kept | split

theorem execSeqAppend_kept (x1 : Nat) (x2 : Nat) (x3 : State) (h3 : Kept P b x3) (hP : allows 68182081 P = true) :
    KeptR P b (execSeqAppend x1 x2 x3) := by
  unfold execSeqAppend
  repeat' first
    | with_reducible first
      | assumption | intro _ | exact allows_trans (by decide) hP | (extract_lets +onlyGivenNames x; revert x; intro y)
      | apply keptR_next | apply startNext_kept | apply endCmd_kept | split | apply Kept.set_tsl

theorem execSeqAppendApply_kept (x1 : Nat) (x2 : State) (h2 : Kept P b x2) (hP : allows 7316007873 P = true) :
    KeptR P b (execSeqAppendApply x1 x2) := by
  unfold execSeqAppendApply
  repeat' first
    | with_reducible first
      | assumption | apply keptR_next | apply applyAppend_kept | split

theorem execSeqCancel_kept (x1 : Nat) (x2 : Nat) (x3 : State) (h3 : Kept P b x3) (hP : allows 7316007873 P = true) :
    KeptR P b (execSeqCancel x1 x2 x3) := by
  unfold execSeqCancel
  repeat' first
    | with_reducible first
      | assumption | intro _ | exact allows_trans (by decide) hP
      | (extract_lets +onlyGivenNames x; have : State := x; clear this; clear_value (ex : x = _); revert x; intro z ez; refine kept_sub (P := P) (s := b) ez ?_ (fun hz => ?_))
      | apply keptR_next | apply startNext_kept | apply endCmd_kept | apply modSeq_kept | apply applyAppend_kept
      | apply retire_kept | apply kept_foldl | split

theorem execStepBuild_kept (x1 : Nat) (x2 : Nat) (x3 : State) (h3 : Kept P b x3) (hP : allows 7350479809 P = true) :
    KeptR P b (execStepBuild x1 x2 x3) := by
  unfold execStepBuild
  split
  · exact keptR_next h3
  have k : KeptBuild P b ((x3.candidates x1).foldl (State.offer x1 x2) ⟨x3, [], 0, 0⟩) := by
    generalize x3.candidates x1 = l
    have g : KeptBuild P b ⟨x3, [], 0, 0⟩ := ⟨h3⟩
    generalize (⟨x3, [], 0, 0⟩ : Build) = y at g ⊢
    induction l generalizing y with
    | nil => exact g
    | cons a l ih => exact ih _ (offer_kept _ _ _ _ g.st (allows_trans (by decide) hP))
  generalize (x3.candidates x1).foldl (State.offer x1 x2) ⟨x3, [], 0, 0⟩ = y at k ⊢
  have kk := k.st
  dsimp only
  split
  · exact keptR_next kk
  generalize hw : State.writeRows _ _ _ = w
  have kw : KeptI P b w := by
    subst hw
    refine writeRows_kept _ _ _ ?_ (allows_trans (by decide) hP)
    with_reducible apply Kept.set_sch_tsl
    · exact kk
    · exact allows_trans (by decide) hP
  cases w with
  | inl st =>
    refine keptR_next (faultUid_kept _ _ _ _ _ _ _ _ (kept_foldl (fun u r hu => modSeq_kept _ _ _ hu (allows_trans (by decide) hP)) ?_)
      (allows_trans (by decide) hP))
    with_reducible apply Kept.set_sch_tsl
    · exact kk
    · exact allows_trans (by decide) hP
  | inr s2 =>
    exact keptR_next (handOver_kept _ _ _ _ (areaPut_kept _ _ _ _ _ (KeptI.of rfl kw) (allows_trans (by decide) hP))
      (allows_trans (by decide) hP))

theorem execStepEnd_kept (x1 : Nat) (x2 : Nat) (x3 : State) (h3 : Kept P b x3) (hP : allows 7316007873 P = true) :
    KeptR P b (execStepEnd x1 x2 x3) := by
  unfold execStepEnd
  repeat' first
    | with_reducible first
      | assumption | exact allows_trans (by decide) hP
      | (extract_lets +onlyGivenNames x; have : State := x; clear this; clear_value (ex : x = _); revert x; intro z ez; refine kept_sub (P := P) (s := b) ez ?_ (fun hz => ?_))
      | (extract_lets +onlyGivenNames x; revert x; intro y) | apply keptR_next | apply KeptF.pair
      | (apply KeptF.fst; apply commitRows_kept) | apply setFld_kept | apply failRows_kept | apply contained_kept | split
      | refine KeptF.of (by assumption) ?_ | apply Kept.set_tsl

end Sys2Proof.Machine
end

