-- ==== Sys2Proof/Laws/KeptTrust.lean ====
section
/-! SUPPORT. What each operation of Machine/Trust.lean keeps: see `Kept`. -/

namespace Sys2Proof.Machine

variable {P : Nat} {b : State}

theorem cryptoReject_kept (x1 : State) (x2 : Nat) (x3 : Nat) (x4 : Nat) (h1 : Kept P b x1) (hP : allows 872417921 P = true) :
    Kept P b (State.cryptoReject x1 x2 x3 x4) := by
  unfold State.cryptoReject
  repeat' first
    | with_reducible first
      | assumption | exact allows_trans (by decide) hP
      | (extract_lets +onlyGivenNames x; have : State := x; clear this; clear_value (ex : x = _); revert x; intro z ez; refine kept_sub (P := P) (s := b) ez ?_ (fun hz => ?_))
      | apply setReg_kept | apply log_kept | apply bump_kept

theorem sealReject_kept (x1 : State) (x2 : Nat) (x3 : Nat) (h1 : Kept P b x1) (hP : allows 872417921 P = true) :
    Kept P b (State.sealReject x1 x2 x3) := by
  unfold State.sealReject
  repeat' first
    | with_reducible first
      | assumption | exact allows_trans (by decide) hP
      | (extract_lets +onlyGivenNames x; have : State := x; clear this; clear_value (ex : x = _); revert x; intro z ez; refine kept_sub (P := P) (s := b) ez ?_ (fun hz => ?_))
      | apply bump_kept | apply cryptoReject_kept | split

theorem modStream_kept (x1 : State) (x2 : Nat) (x3 : Stream → Stream) (h1 : Kept P b x1) (hP : allows 32768 P = true) :
    Kept P b (State.modStream x1 x2 x3) := by
  unfold State.modStream
  repeat' first
    | with_reducible first
      | assumption | (extract_lets +onlyGivenNames x; revert x; intro y) | apply Kept.set_sec

theorem modTdi_kept (x1 : State) (x2 : Nat) (x3 : Tdi → Tdi) (h1 : Kept P b x1) (hP : allows 32768 P = true) :
    Kept P b (State.modTdi x1 x2 x3) := by
  unfold State.modTdi
  repeat' first
    | with_reducible first
      | assumption | (extract_lets +onlyGivenNames x; revert x; intro y) | apply Kept.set_sec

theorem setSessions_kept (x1 : State) (x2 : List Session) (h1 : Kept P b x1) (hP : allows 32769 P = true) :
    Kept P b (State.setSessions x1 x2) := by
  unfold State.setSessions
  repeat' first
    | with_reducible first
      | assumption | exact allows_trans (by decide) hP
      | (extract_lets +onlyGivenNames x; have : State := x; clear this; clear_value (ex : x = _); revert x; intro z ez; refine kept_sub (P := P) (s := b) ez ?_ (fun hz => ?_))
      | (extract_lets +onlyGivenNames x; revert x; intro y) | apply setFld_kept | apply Kept.set_sec

theorem spdmError_kept (x1 : State) (x2 : Nat) (x3 : Nat) (h1 : Kept P b x1) (hP : allows 67108864 P = true) :
    Kept P b (State.spdmError x1 x2 x3) := by
  unfold State.spdmError
  repeat' first
    | with_reducible first
      | assumption | apply emit_kept

theorem streamFail_kept (x1 : State) (x2 : Nat) (h1 : Kept P b x1) (hP : allows 7356672705 P = true) :
    Kept P b (State.streamFail x1 x2) := by
  unfold State.streamFail
  repeat' first
    | with_reducible first
      | assumption | intro _ | exact allows_trans (by decide) hP
      | (extract_lets +onlyGivenNames x; have : State := x; clear this; clear_value (ex : x = _); revert x; intro z ez; refine kept_sub (P := P) (s := b) ez ?_ (fun hz => ?_))
      | apply modStream_kept | apply tdiError_kept | apply log_kept | apply bump_kept | apply kept_foldl

theorem vendorIn_kept (x1 : State) (x2 : Nat) (x3 : State → State) (h1 : Kept P b x1) (h3 : ∀ y0, Kept P b y0 → Kept P b (x3 y0)) (hP : allows 67108864 P = true) :
    KeptR P b (State.vendorIn x1 x2 x3) := by
  unfold State.vendorIn
  repeat' first
    | with_reducible first
      | assumption | apply keptR_next | apply spdmError_kept | split | apply h3

theorem tdisp_kept (x1 : State) (x2 : Nat) (x3 : Nat) (x4 : List Byte) (h1 : Kept P b x1) (hP : allows 67108864 P = true) :
    Kept P b (State.tdisp x1 x2 x3 x4) := by
  unfold State.tdisp
  repeat' first
    | with_reducible first
      | assumption | apply emit_kept

theorem tdispError_kept (x1 : State) (x2 : Nat) (x3 : Nat) (h1 : Kept P b x1) (hP : allows 67108864 P = true) :
    Kept P b (State.tdispError x1 x2 x3) := by
  unfold State.tdispError
  repeat' first
    | with_reducible first
      | assumption | apply tdisp_kept

theorem tdiIn_kept (x1 : State) (x2 : Nat) (x3 : Nat) (x4 : State → State) (h1 : Kept P b x1) (h4 : ∀ y0, Kept P b y0 → Kept P b (x4 y0)) (hP : allows 67108864 P = true) :
    KeptR P b (State.tdiIn x1 x2 x3 x4) := by
  unfold State.tdiIn
  repeat' first
    | with_reducible first
      | assumption | intro _ | apply vendorIn_kept | apply tdispError_kept | split | apply h4

theorem execVendorDefinedRequest_kept (x1 : Nat) (x2 : Nat) (x3 : Nat) (x4 : State) (h4 : Kept P b x4) (hP : allows 67108864 P = true) :
    KeptR P b (execVendorDefinedRequest x1 x2 x3 x4) := by
  unfold execVendorDefinedRequest
  repeat' first
    | with_reducible first
      | assumption | intro _ | apply vendorIn_kept | apply tdispError_kept | apply spdmError_kept | split

theorem execQuery_kept (x1 : Nat) (x2 : State) (h2 : Kept P b x2) (hP : allows 67108864 P = true) :
    KeptR P b (execQuery x1 x2) := by
  unfold execQuery
  repeat' first
    | with_reducible first
      | assumption | intro _ | apply vendorIn_kept | apply emit_kept

theorem execKeyProg_kept (x1 : Nat) (x2 : Nat) (x3 : Nat) (x4 : Nat) (x5 : Nat) (x6 : State) (h6 : Kept P b x6) (hP : allows 67141632 P = true) :
    KeptR P b (execKeyProg x1 x2 x3 x4 x5 x6) := by
  unfold execKeyProg
  repeat' first
    | with_reducible first
      | assumption | intro _ | exact allows_trans (by decide) hP | apply vendorIn_kept | apply emit_kept
      | apply modStream_kept | split

theorem execKSetGo_kept (x1 : Nat) (x2 : Nat) (x3 : Nat) (x4 : Nat) (x5 : Nat) (x6 : State) (h6 : Kept P b x6) (hP : allows 67141632 P = true) :
    KeptR P b (execKSetGo x1 x2 x3 x4 x5 x6) := by
  unfold execKSetGo
  repeat' first
    | with_reducible first
      | assumption | intro _ | exact allows_trans (by decide) hP
      | (extract_lets +onlyGivenNames x; have : State := x; clear this; clear_value (ex : x = _); revert x; intro z ez; refine kept_sub (P := P) (s := b) ez ?_ (fun hz => ?_))
      | (extract_lets +onlyGivenNames x; revert x; intro y) | apply vendorIn_kept | apply modStream_kept | apply emit_kept
      | split

theorem execKSetStop_kept (x1 : Nat) (x2 : Nat) (x3 : Nat) (x4 : Nat) (x5 : Nat) (x6 : State) (h6 : Kept P b x6) (hP : allows 7356672705 P = true) :
    KeptR P b (execKSetStop x1 x2 x3 x4 x5 x6) := by
  unfold execKSetStop
  repeat' first
    | with_reducible first
      | assumption | intro _ | exact allows_trans (by decide) hP
      | (extract_lets +onlyGivenNames x; have : State := x; clear this; clear_value (ex : x = _); revert x; intro z ez; refine kept_sub (P := P) (s := b) ez ?_ (fun hz => ?_))
      | (extract_lets +onlyGivenNames x; revert x; intro y) | apply vendorIn_kept | apply streamFail_kept
      | apply modStream_kept | apply emit_kept | split

theorem execGetTdispVersion_kept (x1 : Nat) (x2 : Nat) (x3 : State) (h3 : Kept P b x3) (hP : allows 67108864 P = true) :
    KeptR P b (execGetTdispVersion x1 x2 x3) := by
  unfold execGetTdispVersion
  repeat' first
    | with_reducible first
      | assumption | intro _ | apply tdiIn_kept | apply tdisp_kept

theorem execGetTdispCapabilities_kept (x1 : Nat) (x2 : Nat) (x3 : State) (h3 : Kept P b x3) (hP : allows 67108864 P = true) :
    KeptR P b (execGetTdispCapabilities x1 x2 x3) := by
  unfold execGetTdispCapabilities
  repeat' first
    | with_reducible first
      | assumption | intro _ | apply tdiIn_kept | apply tdisp_kept

theorem execLockInterfaceRequest_kept (x1 : Nat) (x2 : Nat) (x3 : Nat) (x4 : Bool) (x5 : Bool) (x6 : Bool) (x7 : Bool) (x8 : State) (h8 : Kept P b x8) (hP : allows 6551363649 P = true) :
    KeptR P b (execLockInterfaceRequest x1 x2 x3 x4 x5 x6 x7 x8) := by
  unfold execLockInterfaceRequest
  repeat' first
    | with_reducible first
      | assumption | intro _ | exact allows_trans (by decide) hP
      | (extract_lets +onlyGivenNames x; have : State := x; clear this; clear_value (ex : x = _); revert x; intro z ez; refine kept_sub (P := P) (s := b) ez ?_ (fun hz => ?_))
      | (extract_lets +onlyGivenNames x; revert x; intro y) | apply tdiIn_kept | apply setFld_kept | apply setTdi_kept
      | apply drawnN_kept | apply tdisp_kept | apply modTdi_kept | apply tdispError_kept | split

theorem execGetDeviceInterfaceReport_kept (x1 : Nat) (x2 : Nat) (x3 : Nat) (x4 : Nat) (x5 : State) (h5 : Kept P b x5) (hP : allows 67108864 P = true) :
    KeptR P b (execGetDeviceInterfaceReport x1 x2 x3 x4 x5) := by
  unfold execGetDeviceInterfaceReport
  repeat' first
    | with_reducible first
      | assumption | intro _ | (extract_lets +onlyGivenNames x; revert x; intro y) | apply tdiIn_kept
      | apply tdispError_kept | apply tdisp_kept | split

theorem execGetDeviceInterfaceState_kept (x1 : Nat) (x2 : Nat) (x3 : State) (h3 : Kept P b x3) (hP : allows 67108864 P = true) :
    KeptR P b (execGetDeviceInterfaceState x1 x2 x3) := by
  unfold execGetDeviceInterfaceState
  repeat' first
    | with_reducible first
      | assumption | intro _ | apply tdiIn_kept | apply tdisp_kept

theorem execStartInterfaceRequest_kept (x1 : Nat) (x2 : Nat) (x3 : List Byte) (x4 : State) (h4 : Kept P b x4) (hP : allows 6551363649 P = true) :
    KeptR P b (execStartInterfaceRequest x1 x2 x3 x4) := by
  unfold execStartInterfaceRequest
  repeat' first
    | with_reducible first
      | assumption | intro _ | exact allows_trans (by decide) hP | apply tdiIn_kept | apply tdispError_kept
      | apply tdisp_kept | apply setTdi_kept | split

theorem execStopInterfaceRequest_kept (x1 : Nat) (x2 : Nat) (x3 : State) (h3 : Kept P b x3) (hP : allows 6551363649 P = true) :
    KeptR P b (execStopInterfaceRequest x1 x2 x3) := by
  unfold execStopInterfaceRequest
  repeat' first
    | with_reducible first
      | assumption | intro _ | exact allows_trans (by decide) hP | apply tdiIn_kept | apply tdisp_kept | apply modTdi_kept
      | apply setTdi_kept

theorem execIdeCheckFail_kept (x1 : Nat) (x2 : State) (h2 : Kept P b x2) (hP : allows 7356672705 P = true) :
    KeptR P b (execIdeCheckFail x1 x2) := by
  unfold execIdeCheckFail
  repeat' first
    | with_reducible first
      | assumption | apply keptR_next | apply streamFail_kept | split

theorem execTdiTlpDrop_kept (x1 : Nat) (x2 : Bool) (x3 : State) (h3 : Kept P b x3) (hP : allows 67108865 P = true) :
    KeptR P b (execTdiTlpDrop x1 x2 x3) := by
  unfold execTdiTlpDrop
  repeat' first
    | with_reducible first
      | assumption | exact allows_trans (by decide) hP
      | (extract_lets +onlyGivenNames x; have : State := x; clear this; clear_value (ex : x = _); revert x; intro z ez; refine kept_sub (P := P) (s := b) ez ?_ (fun hz => ?_))
      | apply keptR_next | apply bump_kept | apply emit_kept | split

theorem execRngHealthFail_kept (x1 : State) (h1 : Kept P b x1) (hP : allows 905972353 P = true) :
    KeptR P b (execRngHealthFail x1) := by
  unfold execRngHealthFail
  repeat' first
    | with_reducible first
      | assumption | exact allows_trans (by decide) hP | apply keptR_next | apply log_kept | apply setFld_kept
      | apply drawn_kept

theorem execEcOperationEnd_kept (x1 : EcInput) (x2 : State) (h2 : Kept P b x2) (hP : allows 872417921 P = true) :
    KeptR P b (execEcOperationEnd x1 x2) := by
  unfold execEcOperationEnd
  repeat' first
    | with_reducible first
      | assumption | exact allows_trans (by decide) hP
      | (extract_lets +onlyGivenNames x; have : State := x; clear this; clear_value (ex : x = _); revert x; intro z ez; refine kept_sub (P := P) (s := b) ez ?_ (fun hz => ?_))
      | (extract_lets +onlyGivenNames x; revert x; intro y) | apply keptR_next | apply bump_kept | apply cryptoReject_kept
      | split

end Sys2Proof.Machine
end

