-- ==== Sys2Proof/Laws/KeptModelLoad.lean ====
section
/-! SUPPORT. What each operation of Machine/ModelLoad.lean keeps: see `Kept`. -/

namespace Sys2Proof.Machine

variable {P : Nat} {b : State}

theorem loadFailed_kept (x1 : State) (x2 : Nat) (x3 : LoadFail) (h1 : Kept P b x1) (hP : allows 7349017281 P = true) :
    Kept P b (State.loadFailed x1 x2 x3) := by
  unfold State.loadFailed
  repeat' first
    | with_reducible first
      | assumption | exact allows_trans (by decide) hP
      | (extract_lets +onlyGivenNames x; have : State := x; clear this; clear_value (ex : x = _); revert x; intro z ez; refine kept_sub (P := P) (s := b) ez ?_ (fun hz => ?_))
      | apply sealReject_kept | apply setFld_kept | apply finishSliceMem_kept | apply dropModel_kept | apply dropBlocks_kept
      | apply endJob_kept | apply setModel_kept | split

theorem growModel_kept (x1 : State) (x2 : Nat) (x3 : Nat) (h1 : Kept P b x1) (hP : allows 65536 P = true) :
    Kept P b (State.growModel x1 x2 x3) := by
  induction x3 generalizing x1 x2 with
  | zero =>
    rw [State.growModel]
    repeat' first
      | with_reducible first
        | assumption
  | succ n ih =>
    rw [State.growModel]
    repeat' first
      | with_reducible first
        | assumption
        | (extract_lets +onlyGivenNames x; have : State := x; clear this; clear_value (ex : x = _); revert x; intro z ez; refine kept_sub (P := P) (s := b) ez ?_ (fun hz => ?_))
        | (extract_lets +onlyGivenNames x; revert x; intro y) | apply takeFrame_kept | split | apply ih | apply Kept.set_mem
        | (dsimp only)

theorem putRegs_kept (x1 : State) (x2 : Nat) (x3 : Nat) (x4 : List Byte) (h1 : Kept P b x1) (hP : allows 1 P = true) :
    Kept P b (State.putRegs x1 x2 x3 x4) := by
  unfold State.putRegs
  repeat' first
    | with_reducible first
      | assumption | intro _ | apply setReg_kept | apply kept_foldl

theorem loadDone_kept (x1 : State) (x2 : Nat) (x3 : List Byte) (h1 : Kept P b x1) (hP : allows 100765761 P = true) :
    Kept P b (State.loadDone x1 x2 x3) := by
  unfold State.loadDone
  repeat' first
    | with_reducible first
      | assumption | exact allows_trans (by decide) hP
      | (extract_lets +onlyGivenNames x; have : State := x; clear this; clear_value (ex : x = _); revert x; intro z ez; refine kept_sub (P := P) (s := b) ez ?_ (fun hz => ?_))
      | (extract_lets +onlyGivenNames x; revert x; intro y) | apply putRegs_kept | apply endJob_kept | apply setModel_kept
      | apply setFld_kept | split | apply Kept.set_sec_mem | (dsimp only)

theorem modelPut_kept (x1 : State) (x2 : Nat) (x3 : List Byte) (h1 : Kept P b x1) (hP : allows 6442516480 P = true) :
    Kept P b (State.modelPut x1 x2 x3) := by
  unfold State.modelPut
  repeat' first
    | with_reducible first
      | assumption | intro _ | exact allows_trans (by decide) hP
      | (extract_lets +onlyGivenNames x; have : State := x; clear this; clear_value (ex : x = _); revert x; intro z ez; refine kept_sub (P := P) (s := b) ez ?_ (fun hz => ?_))
      | apply growModel_kept | apply dpaPut_kept | apply kept_foldl

theorem execModelLoad_kept (x1 : Upsets) (x2 : State) (h2 : Kept P b x2) (hP : allows 1946196673 P = true) :
    KeptR P b (execModelLoad x1 x2) := by
  unfold execModelLoad
  repeat' first
    | with_reducible first
      | assumption | intro _ | exact allows_trans (by decide) hP
      | (extract_lets +onlyGivenNames x; have : State := x; clear this; clear_value (ex : x = _); revert x; intro z ez; refine kept_sub (P := P) (s := b) ez ?_ (fun hz => ?_))
      | (extract_lets +onlyGivenNames x; revert x; intro y) | apply KeptReply.made | (apply KeptReply.st; apply no_kept)
      | (apply KeptReply.st; apply startJob_kept) | apply command_kept | apply setFld_kept | apply setModel_kept | split
      | apply Kept.set_sec

theorem execModelUnload_kept (x1 : Upsets) (x2 : State) (h2 : Kept P b x2) (hP : allows 8424127425 P = true) :
    KeptR P b (execModelUnload x1 x2) := by
  unfold execModelUnload
  repeat' first
    | with_reducible first
      | assumption | intro _ | exact allows_trans (by decide) hP
      | (extract_lets +onlyGivenNames x; have : State := x; clear this; clear_value (ex : x = _); revert x; intro z ez; refine kept_sub (P := P) (s := b) ez ?_ (fun hz => ?_))
      | apply KeptReply.made | (apply KeptReply.st; apply no_kept) | (apply KeptReply.st; apply startJob_kept)
      | apply command_kept | apply dropModel_kept | apply clearModelRegs_kept | apply setModel_kept
      | apply unloadTeasel_kept | apply setFld_kept | split

theorem execModelLoadJobEnd_kept (x1 : PkgRead) (x2 : State) (h2 : Kept P b x2) (hP : allows 7349050049 P = true) :
    KeptR P b (execModelLoadJobEnd x1 x2) := by
  unfold execModelLoadJobEnd
  repeat' first
    | with_reducible first
      | assumption | exact allows_trans (by decide) hP | (extract_lets +onlyGivenNames x; revert x; intro y)
      | apply keptR_next | apply loadFailed_kept | apply loadDone_kept | split

theorem execModelUnloadJobEnd_kept (x1 : State) (h1 : Kept P b x1) (hP : allows 6543183937 P = true) :
    KeptR P b (execModelUnloadJobEnd x1) := by
  unfold execModelUnloadJobEnd
  repeat' first
    | with_reducible first
      | assumption | exact allows_trans (by decide) hP | apply keptR_next | apply endJob_kept | apply setModel_kept
      | apply setFld_kept | apply finishSliceMem_kept | split

theorem execDecode_kept (x1 : Nat) (x2 : List Byte) (x3 : State) (h3 : Kept P b x3) (hP : allows 7350381505 P = true) :
    KeptR P b (execDecode x1 x2 x3) := by
  unfold execDecode
  repeat' first
    | with_reducible first
      | assumption | intro _ | exact allows_trans (by decide) hP
      | (extract_lets +onlyGivenNames x; have : State := x; clear this; clear_value (ex : x = _); revert x; intro z ez; refine kept_sub (P := P) (s := b) ez ?_ (fun hz => ?_))
      | (extract_lets +onlyGivenNames x; revert x; intro y) | apply KeptS.ok | apply engineStep_kept | apply count_kept
      | apply ffeFault_kept | apply modelPut_kept | apply saveSource_kept | split | apply Kept.set_sec_mem | (dsimp only)
      | (dsimp +zetaDelta -proj only)

end Sys2Proof.Machine
end

