-- ==== Sys2Proof/Laws/KeptFaults.lean ====
section
/-! SUPPORT. What each operation of Machine/Faults.lean keeps: see `Kept`. -/

namespace Sys2Proof.Machine

variable {P : Nat} {b : State}

theorem abortVfJobs_kept (x1 : State) (h1 : Kept P b x1) (hP : allows 7349017281 P = true) :
    Kept P b (State.abortVfJobs x1) := by
  unfold State.abortVfJobs
  repeat' first
    | with_reducible first
      | assumption | intro _ | exact allows_trans (by decide) hP | apply loadFailed_kept | apply endJob_kept
      | apply setModel_kept | apply setFld_kept | apply finishSliceMem_kept | apply kept_foldl | split

theorem applyFence_kept (x1 : State) (x2 : Nat × Nat × Nat) (h1 : Kept P b x1) (hP : allows 872419201 P = true) :
    Kept P b (State.applyFence x1 x2) := by
  unfold State.applyFence
  repeat' first
    | with_reducible first
      | assumption | exact allows_trans (by decide) hP
      | (extract_lets +onlyGivenNames x; have : State := x; clear this; clear_value (ex : x = _); revert x; intro z ez; refine kept_sub (P := P) (s := b) ez ?_ (fun hz => ?_))
      | (extract_lets +onlyGivenNames x; revert x; intro y) | apply refreshUsable_kept | apply fenceUnit_kept
      | apply log_kept | split | apply Kept.set_flt

theorem clearLost_kept (x1 : State) (h1 : Kept P b x1) (hP : allows 6551322625 P = true) :
    Kept P b (State.clearLost x1) := by
  unfold State.clearLost
  repeat' first
    | with_reducible first
      | assumption | intro _ | exact allows_trans (by decide) hP | apply modSlice_kept | apply zeroSlice_kept
      | apply stopSlice_kept | apply kept_foldl | split

theorem endRecovery_kept (x1 : State) (x2 : Bool) (h1 : Kept P b x1) (hP : allows 872418177 P = true) :
    Kept P b (State.endRecovery x1 x2) := by
  unfold State.endRecovery
  repeat' first
    | with_reducible first
      | assumption | exact allows_trans (by decide) hP
      | (extract_lets +onlyGivenNames x; have : State := x; clear this; clear_value (ex : x = _); revert x; intro z ez; refine kept_sub (P := P) (s := b) ez ?_ (fun hz => ?_))
      | (extract_lets +onlyGivenNames x; revert x; intro y) | apply setReg_kept | apply setFld_kept | apply log_kept | split
      | apply Kept.set_flt

theorem faultSeen_kept (x1 : State) (x2 : Nat) (x3 : Nat) (x4 : Nat) (x5 : Bool) (h1 : Kept P b x1) (hP : allows 872418177 P = true) :
    Kept P b (State.faultSeen x1 x2 x3 x4 x5) := by
  unfold State.faultSeen
  repeat' first
    | with_reducible first
      | assumption | exact allows_trans (by decide) hP
      | (extract_lets +onlyGivenNames x; have : State := x; clear this; clear_value (ex : x = _); revert x; intro z ez; refine kept_sub (P := P) (s := b) ez ?_ (fun hz => ?_))
      | (extract_lets +onlyGivenNames x; revert x; intro y) | apply bump_kept | apply setPair_kept | apply setReg_kept
      | apply logInjected_kept | apply log_kept | apply snapshot_kept | apply ffeFault_kept | apply failNotice_kept | split
      | apply Kept.set_flt

theorem loseSlices_kept (x1 : State) (h1 : Kept P b x1) (hP : allows 872438465 P = true) :
    Kept P b (State.loseSlices x1) := by
  unfold State.loseSlices
  repeat' first
    | with_reducible first
      | assumption | intro _ | exact allows_trans (by decide) hP
      | (extract_lets +onlyGivenNames x; have : State := x; clear this; clear_value (ex : x = _); revert x; intro z ez; refine kept_sub (P := P) (s := b) ez ?_ (fun hz => ?_))
      | (extract_lets +onlyGivenNames x; revert x; intro y) | apply cancelChange_kept | apply setSlice_kept
      | apply kept_foldl | apply Kept.set_eng

theorem giveUp_kept (x1 : State) (h1 : Kept P b x1) (hP : allows 7356807873 P = true) :
    Kept P b (State.giveUp x1) := by
  unfold State.giveUp
  repeat' first
    | with_reducible first
      | assumption | intro _ | exact allows_trans (by decide) hP
      | (extract_lets +onlyGivenNames x; have : State := x; clear this; clear_value (ex : x = _); revert x; intro z ez; refine kept_sub (P := P) (s := b) ez ?_ (fun hz => ?_))
      | (extract_lets +onlyGivenNames x; revert x; intro y) | apply loseSlices_kept | apply stopSlice_kept
      | apply queuesLost_kept | apply abortVfJobs_kept | apply tdiErrorAll_kept | apply kept_foldl | apply Kept.set_sch

theorem keepModel_kept (x1 : State) (h1 : Kept P b x1) (hP : allows 7316015809 P = true) :
    Kept P b (State.keepModel x1) := by
  unfold State.keepModel
  repeat' first
    | with_reducible first
      | assumption | exact allows_trans (by decide) hP | apply log_kept | apply setModel_kept | apply clearModelRegs_kept
      | apply finishSliceMem_kept | apply dropModel_kept | split

theorem rebuild_kept (x1 : State) (h1 : Kept P b x1) (hP : allows 6444236801 P = true) :
    Kept P b (State.rebuild x1) := by
  have key : ∀ z : State, Kept P b z → Kept P b { z with
      sch := { z.sch with table := [], was := [], ready := [], rdBase := 0, rdIdx := 32, ahead := false, running := [],
                          lag := [], held := [], excl := none, exclIdle := false }
      ffe := {}
      mem := { z.mem with tc := [] }
      tsl := { z.tsl with seqs := [], active := [], order := [], after := [], stepNo := [], steps := [], appends := [] } } := by
    intro z hz
    with_reducible apply Kept.set_mem_sch_ffe_tsl
    · exact hz
    · exact allows_trans (by decide) hP
    · rfl
    · rfl
  unfold State.rebuild
  dsimp only
  refine key _ (kept_foldl (fun u n hu => ?_) ?_)
  · split
    · exact hu
    · exact clearSliceMem_kept _ _ hu (allows_trans (by decide) hP)
  · exact setFld_kept (setFld_kept (setFld_kept (setFld_kept h1 _ _ (allows_trans (by decide) hP)) _ _
      (allows_trans (by decide) hP)) _ _ (allows_trans (by decide) hP)) _ _ (allows_trans (by decide) hP)

theorem uncontained_kept (x1 : State) (x2 : Nat) (x3 : Nat) (x4 : Nat) (x5 : Bool) (x6 : Bool) (h1 : Kept P b x1) (hP : allows 7356808129 P = true) :
    Kept P b (State.uncontained x1 x2 x3 x4 x5 x6) := by
  unfold State.uncontained
  repeat' first
    | with_reducible first
      | assumption | exact allows_trans (by decide) hP
      | (extract_lets +onlyGivenNames x; have : State := x; clear this; clear_value (ex : x = _); revert x; intro z ez; refine kept_sub (P := P) (s := b) ez ?_ (fun hz => ?_))
      | (extract_lets +onlyGivenNames x; revert x; intro y) | apply faultSeen_kept | apply bump_kept
      | apply endRecovery_kept | apply giveUp_kept | apply setFld_kept | split | apply Kept.set_flt

theorem execMatrixUnitHang_kept (x1 : Nat) (x2 : State) (h2 : Kept P b x2) (hP : allows 7356808129 P = true) :
    KeptR P b (execMatrixUnitHang x1 x2) := by
  unfold execMatrixUnitHang
  repeat' first
    | with_reducible first
      | assumption | apply keptR_next | apply uncontained_kept | split

theorem execEngineHang_kept (x1 : Nat) (x2 : State) (h2 : Kept P b x2) (hP : allows 7356808129 P = true) :
    KeptR P b (execEngineHang x1 x2) := by
  unfold execEngineHang
  repeat' first
    | with_reducible first
      | assumption | apply keptR_next | apply uncontained_kept | split

theorem execCampionHang_kept (x1 : Nat) (x2 : State) (h2 : Kept P b x2) (hP : allows 7356808129 P = true) :
    KeptR P b (execCampionHang x1 x2) := by
  unfold execCampionHang
  repeat' first
    | with_reducible first
      | assumption | apply keptR_next | apply uncontained_kept | split

theorem execFailNotice_kept (x1 : Nat) (x2 : List Byte) (x3 : State) (h3 : Kept P b x3) (hP : allows 7350348737 P = true) :
    KeptR P b (execFailNotice x1 x2 x3) := by
  unfold execFailNotice
  repeat' first
    | with_reducible first
      | assumption | intro _ | exact allows_trans (by decide) hP
      | (extract_lets +onlyGivenNames x; have : State × _ := x; clear this; clear_value (ex : x = _); revert x; intro z ez; refine kept_subG (KeptF P b) ez ?_ (fun hz => ?_))
      | apply keptR_next | apply KeptF.pair | (apply KeptF.fst; apply forwardNotice_kept) | apply onSymbol_kept
      | apply collAbort_kept | apply kept_foldl | split | (apply KeptF.fst; assumption)

theorem execUncontainedFault_kept (x1 : Nat) (x2 : Nat) (x3 : Nat) (x4 : Bool) (x5 : State) (h5 : Kept P b x5) (hP : allows 7356808129 P = true) :
    KeptR P b (execUncontainedFault x1 x2 x3 x4 x5) := by
  unfold execUncontainedFault
  repeat' first
    | with_reducible first
      | assumption | apply keptR_next | apply uncontained_kept | split

theorem execContainedFault_kept (x1 : Nat) (x2 : Nat) (x3 : Nat) (x4 : Nat) (x5 : Nat) (x6 : State) (h6 : Kept P b x6) (hP : allows 872418241 P = true) :
    KeptR P b (execContainedFault x1 x2 x3 x4 x5 x6) := by
  unfold execContainedFault
  repeat' first
    | with_reducible first
      | assumption | exact allows_trans (by decide) hP
      | (extract_lets +onlyGivenNames x; have : State := x; clear this; clear_value (ex : x = _); revert x; intro z ez; refine kept_sub (P := P) (s := b) ez ?_ (fun hz => ?_))
      | apply keptR_next | apply contained_kept | apply vfEvent_kept | split

theorem execRecoveryEnd_kept (x1 : State) (h1 : Kept P b x1) (hP : allows 7356796865 P = true) :
    KeptR P b (execRecoveryEnd x1) := by
  unfold execRecoveryEnd
  repeat' first
    | with_reducible first
      | assumption | intro _ | exact allows_trans (by decide) hP
      | (extract_lets +onlyGivenNames x; have : State := x; clear this; clear_value (ex : x = _); revert x; intro z ez; refine kept_sub (P := P) (s := b) ez ?_ (fun hz => ?_))
      | apply keptR_next | apply rebuild_kept | apply clearLost_kept | apply keepModel_kept | apply refreshUsable_kept
      | apply applyFence_kept | apply endRecovery_kept | apply kept_foldl | split

theorem execFltInject_kept (x1 : Word) (x2 : State) (h2 : Kept P b x2) (hP : allows 7356808129 P = true) :
    KeptR P b (execFltInject x1 x2) := by
  unfold execFltInject
  repeat' first
    | with_reducible first
      | assumption | exact allows_trans (by decide) hP | (extract_lets +onlyGivenNames x; revert x; intro y)
      | apply keptR_next | apply uncontained_kept | split | apply Kept.set_flt

theorem execRecoveryTimeout_kept (x1 : State) (h1 : Kept P b x1) (hP : allows 872418177 P = true) :
    KeptR P b (execRecoveryTimeout x1) := by
  unfold execRecoveryTimeout
  repeat' first
    | with_reducible first
      | assumption | apply keptR_next | apply endRecovery_kept | split

end Sys2Proof.Machine
end

