-- ==== Sys2Proof/Laws/KeptCampion.lean ====
section
/-! SUPPORT. What each operation of Machine/Campion.lean keeps: see `Kept`. -/

namespace Sys2Proof.Machine

variable {P : Nat} {b : State}

theorem modCore_kept (x1 : State) (x2 : Nat) (x3 : Core → Core) (h1 : Kept P b x1) (hP : allows 2097152 P = true) :
    Kept P b (State.modCore x1 x2 x3) := by
  unfold State.modCore
  repeat' first
    | with_reducible first
      | assumption | (extract_lets +onlyGivenNames x; revert x; intro y) | apply Kept.set_cmp

theorem campFault_kept (x1 : State) (x2 : Nat) (x3 : Nat) (h1 : Kept P b x1) (hP : allows 7314951105 P = true) :
    Kept P b (State.campFault x1 x2 x3) := by
  unfold State.campFault
  repeat' first
    | with_reducible first
      | assumption | exact allows_trans (by decide) hP
      | (extract_lets +onlyGivenNames x; have : State := x; clear this; clear_value (ex : x = _); revert x; intro z ez; refine kept_sub (P := P) (s := b) ez ?_ (fun hz => ?_))
      | (extract_lets +onlyGivenNames x; revert x; intro y) | apply setReg_kept | apply setCamp_kept | apply vfEvent_kept
      | apply contained_kept | apply log_kept | split

theorem campPut_kept (x1 : State) (x2 : Nat) (x3 : Nat) (x4 : List Byte) (h1 : Kept P b x1) (hP : allows 6442532865 P = true) :
    Kept P b (State.campPut x1 x2 x3 x4) := by
  unfold State.campPut
  repeat' first
    | with_reducible first
      | assumption | apply memPut_kept

theorem modDie_kept (x1 : State) (x2 : Nat) (x3 : CampDie → CampDie) (h1 : Kept P b x1) (hP : allows 2097152 P = true) :
    Kept P b (State.modDie x1 x2 x3) := by
  unfold State.modDie
  repeat' first
    | with_reducible first
      | assumption | (extract_lets +onlyGivenNames x; revert x; intro y) | apply Kept.set_cmp

theorem arrive_kept (x1 : State) (x2 : Nat) (x3 : Tok) (h1 : Kept P b x1) (hP : allows 7317048257 P = true) :
    Kept P b (State.arrive x1 x2 x3) := by
  unfold State.arrive
  repeat' first
    | with_reducible first
      | assumption | exact allows_trans (by decide) hP
      | (extract_lets +onlyGivenNames x; have : State := x; clear this; clear_value (ex : x = _); revert x; intro z ez; refine kept_sub (P := P) (s := b) ez ?_ (fun hz => ?_))
      | (extract_lets +onlyGivenNames x; revert x; intro y) | apply modCore_kept | apply campFault_kept | apply campPut_kept
      | apply count_kept | apply modDie_kept | split

theorem badDest_kept (x1 : State) (x2 : Nat) (x3 : Nat) (h1 : Kept P b x1) (hP : allows 2097153 P = true) :
    Kept P b (State.badDest x1 x2 x3) := by
  unfold State.badDest
  repeat' first
    | with_reducible first
      | assumption | exact allows_trans (by decide) hP | apply count_kept | apply modDie_kept

theorem campDone_kept (x1 : State) (x2 : Nat) (x3 : Nat) (x4 : Nat) (h1 : Kept P b x1) (hP : allows 6444630017 P = true) :
    Kept P b (State.campDone x1 x2 x3 x4) := by
  unfold State.campDone
  repeat' first
    | with_reducible first
      | assumption | exact allows_trans (by decide) hP
      | (extract_lets +onlyGivenNames x; have : State := x; clear this; clear_value (ex : x = _); revert x; intro z ez; refine kept_sub (P := P) (s := b) ez ?_ (fun hz => ?_))
      | apply modDie_kept | apply campPut_kept | split

theorem campCmd_kept (x1 : State) (x2 : Nat) (x3 : Nat) (x4 : List Nat) (x5 : Bool) (x6 : List Byte → State → State) (h1 : Kept P b x1) (h6 : ∀ y0 y1, Kept P b y1 → Kept P b (x6 y0 y1)) (hP : allows 6444630017 P = true) :
    KeptR P b (State.campCmd x1 x2 x3 x4 x5 x6) := by
  unfold State.campCmd
  repeat' first
    | with_reducible first
      | assumption | apply keptR_next | apply campDone_kept | split | apply h6

theorem intoMesh_kept (x1 : State) (x2 : Nat) (x3 : Tok) (h1 : Kept P b x1) (hP : allows 2097153 P = true) :
    Kept P b (State.intoMesh x1 x2 x3) := by
  unfold State.intoMesh
  repeat' first
    | with_reducible first
      | assumption | exact allows_trans (by decide) hP | (extract_lets +onlyGivenNames x; revert x; intro y)
      | apply modDie_kept | apply badDest_kept | split

theorem sendEntry_kept (x1 : State) (x2 : Nat) (x3 : Nat) (h1 : Kept P b x1) (hP : allows 2097153 P = true) :
    Kept P b (State.sendEntry x1 x2 x3) := by
  unfold State.sendEntry
  repeat' first
    | with_reducible first
      | assumption | apply intoMesh_kept | apply badDest_kept | split

theorem campTick_kept (x1 : State) (x2 : Nat) (h1 : Kept P b x1) (hP : allows 7317048257 P = true) :
    Kept P b (State.campTick x1 x2) := by
  unfold State.campTick
  repeat' first
    | with_reducible first
      | assumption | intro _ | exact allows_trans (by decide) hP
      | (extract_lets +onlyGivenNames x; have : State := x; clear this; clear_value (ex : x = _); revert x; intro z ez; refine kept_sub (P := P) (s := b) ez ?_ (fun hz => ?_))
      | (extract_lets +onlyGivenNames x; revert x; intro y) | apply campFault_kept | apply campPut_kept | apply modDie_kept
      | apply sendEntry_kept | apply kept_foldl | split

theorem clearTokens_kept (x1 : State) (x2 : Nat) (h1 : Kept P b x1) (hP : allows 2097152 P = true) :
    Kept P b (State.clearTokens x1 x2) := by
  unfold State.clearTokens
  repeat' first
    | with_reducible first
      | assumption
      | (extract_lets +onlyGivenNames x; have : State := x; clear this; clear_value (ex : x = _); revert x; intro z ez; refine kept_sub (P := P) (s := b) ez ?_ (fun hz => ?_))
      | (extract_lets +onlyGivenNames x; revert x; intro y) | apply modDie_kept | apply Kept.set_cmp

theorem ioPut_kept (x1 : State) (x2 : Nat) (x3 : Nat) (x4 : List Byte) (h1 : Kept P b x1) (hP : allows 6442532865 P = true) :
    Kept P b (State.ioPut x1 x2 x3 x4) := by
  unfold State.ioPut
  repeat' first
    | with_reducible first
      | assumption | apply memPut_kept

theorem modConv_kept (x1 : State) (x2 : Nat) (x3 : Nat) (x4 : Conv → Conv) (h1 : Kept P b x1) (hP : allows 4194304 P = true) :
    Kept P b (State.modConv x1 x2 x3 x4) := by
  unfold State.modConv
  repeat' first
    | with_reducible first
      | assumption | (extract_lets +onlyGivenNames x; revert x; intro y) | apply Kept.set_sns

theorem ioCount_kept (x1 : State) (x2 : Nat) (x3 : Nat) (x4 : Nat) (h1 : Kept P b x1) (hP : allows 6442532865 P = true) :
    Kept P b (State.ioCount x1 x2 x3 x4) := by
  unfold State.ioCount
  repeat' first
    | with_reducible first
      | assumption | exact allows_trans (by decide) hP | apply bump_kept | apply ioPut_kept | split

theorem ingress_kept (x1 : State) (x2 : Nat) (x3 : Nat) (x4 : Tok) (h1 : Kept P b x1) (hP : allows 2097153 P = true) :
    Kept P b (State.ingress x1 x2 x3 x4) := by
  unfold State.ingress
  repeat' first
    | with_reducible first
      | assumption | exact allows_trans (by decide) hP
      | (extract_lets +onlyGivenNames x; have : State := x; clear this; clear_value (ex : x = _); revert x; intro z ez; refine kept_sub (P := P) (s := b) ez ?_ (fun hz => ?_))
      | (extract_lets +onlyGivenNames x; revert x; intro y) | apply modDie_kept | apply bump_kept | split

theorem feed_kept (x1 : State) (x2 : Nat) (x3 : Nat) (x4 : Tok) (h1 : Kept P b x1) (hP : allows 2097153 P = true) :
    Kept P b (State.feed x1 x2 x3 x4) := by
  unfold State.feed
  repeat' first
    | with_reducible first
      | assumption | exact allows_trans (by decide) hP
      | (extract_lets +onlyGivenNames x; have : State := x; clear this; clear_value (ex : x = _); revert x; intro z ez; refine kept_sub (P := P) (s := b) ez ?_ (fun hz => ?_))
      | apply ingress_kept | apply bump_kept | apply modDie_kept | split

theorem observe_kept (x1 : State) (x2 : Nat) (x3 : Nat) (x4 : Nat) (x5 : Nat) (x6 : List Byte) (h1 : Kept P b x1) (hP : allows 6446727169 P = true) :
    Kept P b (State.observe x1 x2 x3 x4 x5 x6) := by
  unfold State.observe
  repeat' first
    | with_reducible first
      | assumption | exact allows_trans (by decide) hP
      | (extract_lets +onlyGivenNames x; have : State := x; clear this; clear_value (ex : x = _); revert x; intro z ez; refine kept_sub (P := P) (s := b) ez ?_ (fun hz => ?_))
      | (extract_lets +onlyGivenNames x; revert x; intro y) | apply modConv_kept | apply ioCount_kept | apply bump_kept
      | apply ioPut_kept | split

theorem emitSpike_kept (x1 : State) (x2 : Nat) (x3 : Nat) (x4 : Nat) (h1 : Kept P b x1) (hP : allows 7321242561 P = true) :
    Kept P b (State.emitSpike x1 x2 x3 x4) := by
  unfold State.emitSpike
  repeat' first
    | with_reducible first
      | assumption | intro _ | exact allows_trans (by decide) hP
      | (extract_lets +onlyGivenNames x; have : State := x; clear this; clear_value (ex : x = _); revert x; intro z ez; refine kept_sub (P := P) (s := b) ez ?_ (fun hz => ?_))
      | (extract_lets +onlyGivenNames x; revert x; intro y) | apply observe_kept | apply campFault_kept | apply count_kept
      | apply modDie_kept | apply campPut_kept | apply kept_foldl | split

theorem runNeuron_kept (x1 : State) (x2 : Nat) (x3 : Nat) (x4 : Bool) (x5 : Nat) (x6 : Nat) (h1 : Kept P b x1) (hP : allows 7321242561 P = true) :
    Kept P b (State.runNeuron x1 x2 x3 x4 x5 x6) := by
  unfold State.runNeuron
  repeat' first
    | with_reducible first
      | assumption | exact allows_trans (by decide) hP
      | (extract_lets +onlyGivenNames x; have : State := x; clear this; clear_value (ex : x = _); revert x; intro z ez; refine kept_sub (P := P) (s := b) ez ?_ (fun hz => ?_))
      | (extract_lets +onlyGivenNames x; revert x; intro y) | apply count_kept | apply modCore_kept | apply emitSpike_kept
      | split

theorem unspill_kept (x1 : State) (x2 : Nat) (h1 : Kept P b x1) (hP : allows 7317048257 P = true) :
    Kept P b (State.unspill x1 x2) := by
  unfold State.unspill
  repeat' first
    | with_reducible first
      | assumption | exact allows_trans (by decide) hP | (extract_lets +onlyGivenNames x; revert x; intro y)
      | apply campFault_kept | apply modCore_kept | apply modDie_kept | split

theorem execCmpGrantWrite_kept (x1 : Nat) (x2 : Word) (x3 : State) (h3 : Kept P b x3) (hP : allows 7317047937 P = true) :
    KeptR P b (execCmpGrantWrite x1 x2 x3) := by
  unfold execCmpGrantWrite
  repeat' first
    | with_reducible first
      | assumption | exact allows_trans (by decide) hP
      | (extract_lets +onlyGivenNames x; have : State := x; clear this; clear_value (ex : x = _); revert x; intro z ez; refine kept_sub (P := P) (s := b) ez ?_ (fun hz => ?_))
      | (extract_lets +onlyGivenNames x; revert x; intro y) | apply keptR_next | apply setFld_kept | apply setReg_kept
      | apply zeroCamp_kept | apply log_kept | apply setCamp_kept | split

theorem execCampionCommandPoll_kept (x1 : Nat) (x2 : State) (h2 : Kept P b x2) (hP : allows 6444630017 P = true) :
    KeptR P b (execCampionCommandPoll x1 x2) := by
  unfold execCampionCommandPoll
  repeat' first
    | with_reducible first
      | assumption | exact allows_trans (by decide) hP
      | (extract_lets +onlyGivenNames x; have : State := x; clear this; clear_value (ex : x = _); revert x; intro z ez; refine kept_sub (P := P) (s := b) ez ?_ (fun hz => ?_))
      | (extract_lets +onlyGivenNames x; revert x; intro y) | apply keptR_next | apply modDie_kept | apply campDone_kept
      | split

theorem execLoadPrograms_kept (x1 : Nat) (x2 : State) (h2 : Kept P b x2) (hP : allows 6444662785 P = true) :
    KeptR P b (execLoadPrograms x1 x2) := by
  unfold execLoadPrograms
  repeat' first
    | with_reducible first
      | assumption | intro _ | exact allows_trans (by decide) hP
      | (extract_lets +onlyGivenNames x; have : State := x; clear this; clear_value (ex : x = _); revert x; intro z ez; refine kept_sub (P := P) (s := b) ez ?_ (fun hz => ?_))
      | (extract_lets +onlyGivenNames x; revert x; intro y) | apply campCmd_kept | apply campDone_kept | apply modCore_kept
      | apply kept_foldl | split | apply Kept.set_sec

theorem execLoadNeurons_kept (x1 : Nat) (x2 : State) (h2 : Kept P b x2) (hP : allows 6444630017 P = true) :
    KeptR P b (execLoadNeurons x1 x2) := by
  unfold execLoadNeurons
  repeat' first
    | with_reducible first
      | assumption | intro _ | exact allows_trans (by decide) hP | (extract_lets +onlyGivenNames x; revert x; intro y)
      | apply campCmd_kept | apply campDone_kept | apply modCore_kept | apply kept_foldl | split

theorem execSaveNeurons_kept (x1 : Nat) (x2 : State) (h2 : Kept P b x2) (hP : allows 6444630017 P = true) :
    KeptR P b (execSaveNeurons x1 x2) := by
  unfold execSaveNeurons
  repeat' first
    | with_reducible first
      | assumption | intro _ | exact allows_trans (by decide) hP | (extract_lets +onlyGivenNames x; revert x; intro y)
      | apply campCmd_kept | apply campDone_kept | apply campPut_kept | apply kept_foldl | split

theorem execRun_kept (x1 : Nat) (x2 : State) (h2 : Kept P b x2) (hP : allows 6444630017 P = true) :
    KeptR P b (execRun x1 x2) := by
  unfold execRun
  repeat' first
    | with_reducible first
      | assumption | intro _ | exact allows_trans (by decide) hP | (extract_lets +onlyGivenNames x; revert x; intro y)
      | apply campCmd_kept | apply campDone_kept | apply setCamp_kept | apply modDie_kept | split

theorem execHalt_kept (x1 : Nat) (x2 : State) (h2 : Kept P b x2) (hP : allows 6444630017 P = true) :
    KeptR P b (execHalt x1 x2) := by
  unfold execHalt
  repeat' first
    | with_reducible first
      | assumption | intro _ | exact allows_trans (by decide) hP | apply campCmd_kept | apply campDone_kept
      | apply setCamp_kept

theorem execClear_kept (x1 : Nat) (x2 : State) (h2 : Kept P b x2) (hP : allows 6444630017 P = true) :
    KeptR P b (execClear x1 x2) := by
  unfold execClear
  repeat' first
    | with_reducible first
      | assumption | intro _ | exact allows_trans (by decide) hP | apply campCmd_kept | apply campDone_kept
      | apply setCamp_kept | apply clearTokens_kept

theorem execEtimeAdvance_kept (x1 : Nat) (x2 : State) (h2 : Kept P b x2) (hP : allows 2097152 P = true) :
    KeptR P b (execEtimeAdvance x1 x2) := by
  unfold execEtimeAdvance
  repeat' first
    | with_reducible first
      | assumption | apply keptR_next | apply modDie_kept | split

theorem execEventRun_kept (x1 : Nat) (x2 : State) (h2 : Kept P b x2) (hP : allows 7321242561 P = true) :
    KeptR P b (execEventRun x1 x2) := by
  unfold execEventRun
  repeat' first
    | with_reducible first
      | assumption | exact allows_trans (by decide) hP
      | (extract_lets +onlyGivenNames x; have : State := x; clear this; clear_value (ex : x = _); revert x; intro z ez; refine kept_sub (P := P) (s := b) ez ?_ (fun hz => ?_))
      | (extract_lets +onlyGivenNames x; revert x; intro y) | apply keptR_next | apply modCore_kept | apply badDest_kept
      | apply runNeuron_kept | split

theorem execSweepVisit_kept (x1 : Nat) (x2 : State) (h2 : Kept P b x2) (hP : allows 7321242561 P = true) :
    KeptR P b (execSweepVisit x1 x2) := by
  unfold execSweepVisit
  repeat' first
    | with_reducible first
      | assumption | exact allows_trans (by decide) hP
      | (extract_lets +onlyGivenNames x; have : State := x; clear this; clear_value (ex : x = _); revert x; intro z ez; refine kept_sub (P := P) (s := b) ez ?_ (fun hz => ?_))
      | (extract_lets +onlyGivenNames x; revert x; intro y) | apply keptR_next | apply modCore_kept | apply runNeuron_kept
      | split

theorem execFanOut_kept (x1 : Nat) (x2 : State) (h2 : Kept P b x2) (hP : allows 7317048257 P = true) :
    KeptR P b (execFanOut x1 x2) := by
  unfold execFanOut
  repeat' first
    | with_reducible first
      | assumption | intro _ | exact allows_trans (by decide) hP
      | (extract_lets +onlyGivenNames x; have : State := x; clear this; clear_value (ex : x = _); revert x; intro z ez; refine kept_sub (P := P) (s := b) ez ?_ (fun hz => ?_))
      | (extract_lets +onlyGivenNames x; revert x; intro y) | apply keptR_next | apply modCore_kept | apply campFault_kept
      | apply sendEntry_kept | apply badDest_kept | apply kept_foldl | split

theorem execTokenArrive_kept (x1 : Nat) (x2 : Nat) (x3 : Nat) (x4 : State) (h4 : Kept P b x4) (hP : allows 7317048257 P = true) :
    KeptR P b (execTokenArrive x1 x2 x3 x4) := by
  unfold execTokenArrive
  repeat' first
    | with_reducible first
      | assumption | exact allows_trans (by decide) hP
      | (extract_lets +onlyGivenNames x; have : State := x; clear this; clear_value (ex : x = _); revert x; intro z ez; refine kept_sub (P := P) (s := b) ez ?_ (fun hz => ?_))
      | apply keptR_next | apply arrive_kept | apply modDie_kept | apply badDest_kept | split

theorem execTokenDue_kept (x1 : Nat) (x2 : State) (h2 : Kept P b x2) (hP : allows 7317048257 P = true) :
    KeptR P b (execTokenDue x1 x2) := by
  unfold execTokenDue
  repeat' first
    | with_reducible first
      | assumption | exact allows_trans (by decide) hP
      | (extract_lets +onlyGivenNames x; have : State := x; clear this; clear_value (ex : x = _); revert x; intro z ez; refine kept_sub (P := P) (s := b) ez ?_ (fun hz => ?_))
      | (extract_lets +onlyGivenNames x; revert x; intro y) | apply keptR_next | apply unspill_kept | apply modCore_kept
      | apply count_kept | apply modDie_kept | split

theorem execIngressToken_kept (x1 : Nat) (x2 : Nat) (x3 : Nat) (x4 : Nat) (x5 : Nat) (x6 : Nat) (x7 : State) (h7 : Kept P b x7) (hP : allows 2097153 P = true) :
    KeptR P b (execIngressToken x1 x2 x3 x4 x5 x6 x7) := by
  unfold execIngressToken
  repeat' first
    | with_reducible first
      | assumption | apply keptR_next | apply feed_kept | split

theorem execInjectionRead_kept (x1 : Nat) (x2 : State) (h2 : Kept P b x2) (hP : allows 7317048257 P = true) :
    KeptR P b (execInjectionRead x1 x2) := by
  unfold execInjectionRead
  repeat' first
    | with_reducible first
      | assumption | exact allows_trans (by decide) hP | (extract_lets +onlyGivenNames x; revert x; intro y)
      | apply keptR_next | apply campFault_kept | apply campPut_kept | apply sendEntry_kept | split

theorem execCampionFault_kept (x1 : Nat) (x2 : Nat) (x3 : State) (h3 : Kept P b x3) (hP : allows 7314951105 P = true) :
    KeptR P b (execCampionFault x1 x2 x3) := by
  unfold execCampionFault
  repeat' first
    | with_reducible first
      | assumption | apply keptR_next | apply campFault_kept | split

end Sys2Proof.Machine
end

