-- ==== Sys2Proof/Laws/KeptSensors.lean ====
section
/-! SUPPORT. What each operation of Machine/Sensors.lean keeps: see `Kept`. -/

namespace Sys2Proof.Machine

variable {P : Nat} {b : State}

theorem modPort18_kept (x1 : State) (x2 : Nat) (x3 : Nat) (x4 : SnsPort → SnsPort) (h1 : Kept P b x1) (hP : allows 4194304 P = true) :
    Kept P b (State.modPort18 x1 x2 x3 x4) := by
  unfold State.modPort18
  repeat' first
    | with_reducible first
      | assumption | (extract_lets +onlyGivenNames x; revert x; intro y) | apply Kept.set_sns

theorem convStatus_kept (x1 : State) (x2 : Nat) (x3 : Nat) (x4 : Nat) (h1 : Kept P b x1) (hP : allows 6442532865 P = true) :
    Kept P b (State.convStatus x1 x2 x3 x4) := by
  unfold State.convStatus
  repeat' first
    | with_reducible first
      | assumption | exact allows_trans (by decide) hP | (extract_lets +onlyGivenNames x; revert x; intro y)
      | apply bump_kept | apply ioPut_kept | split

theorem convRead_kept (x1 : State) (x2 : Nat) (x3 : Nat) (h1 : Kept P b x1) (hP : allows 6446727169 P = true) :
    KeptF P b (State.convRead x1 x2 x3) := by
  unfold State.convRead
  repeat' first
    | with_reducible first
      | assumption | exact allows_trans (by decide) hP
      | (extract_lets +onlyGivenNames x; have : State := x; clear this; clear_value (ex : x = _); revert x; intro z ez; refine kept_sub (P := P) (s := b) ez ?_ (fun hz => ?_))
      | (extract_lets +onlyGivenNames x; revert x; intro y) | apply KeptF.pair | apply bump_kept | apply modConv_kept
      | apply convStatus_kept | split

theorem convDrop_kept (x1 : State) (x2 : Nat) (x3 : Nat) (h1 : Kept P b x1) (hP : allows 6442532865 P = true) :
    Kept P b (State.convDrop x1 x2 x3) := by
  unfold State.convDrop
  repeat' first
    | with_reducible first
      | assumption | apply ioCount_kept

theorem feedAt_kept (x1 : State) (x2 : Nat) (x3 : Nat) (x4 : Nat) (x5 : Nat) (x6 : Nat) (x7 : Nat) (h1 : Kept P b x1) (hP : allows 35651585 P = true) :
    Kept P b (State.feedAt x1 x2 x3 x4 x5 x6 x7) := by
  unfold State.feedAt
  repeat' first
    | with_reducible first
      | assumption | exact allows_trans (by decide) hP | apply feed_kept | apply drawn_kept | split

theorem eventPixel_kept (x1 : State) (x2 : Nat) (x3 : Nat) (x4 : List Byte) (x5 : List Byte) (x6 : Nat → Nat) (x7 : Nat) (h1 : Kept P b x1) (hP : allows 6478184449 P = true) :
    Kept P b (State.eventPixel x1 x2 x3 x4 x5 x6 x7) := by
  unfold State.eventPixel
  repeat' first
    | with_reducible first
      | assumption | exact allows_trans (by decide) hP | (extract_lets +onlyGivenNames x; revert x; intro y)
      | apply feedAt_kept | apply ioPut_kept | split

theorem eventIn_kept (x1 : State) (x2 : Nat) (x3 : Nat) (x4 : Nat) (x5 : Nat) (x6 : Nat) (h1 : Kept P b x1) (hP : allows 6482378753 P = true) :
    Kept P b (State.eventIn x1 x2 x3 x4 x5 x6) := by
  unfold State.eventIn
  repeat' first
    | with_reducible first
      | assumption | intro _ | exact allows_trans (by decide) hP | (extract_lets +onlyGivenNames x; revert x; intro y)
      | apply KeptF.pair | (apply KeptF.fst; apply convRead_kept) | apply convDrop_kept | apply convStatus_kept
      | apply bump_kept | apply eventPixel_kept | apply modConv_kept | apply ioPut_kept | apply kept_foldl | split
      | refine KeptF.of (by assumption) ?_

theorem closeFrame_kept (x1 : State) (x2 : Nat) (x3 : Nat) (x4 : Bool) (h1 : Kept P b x1) (hP : allows 6482378753 P = true) :
    Kept P b (State.closeFrame x1 x2 x3 x4) := by
  unfold State.closeFrame
  repeat' first
    | with_reducible first
      | assumption | exact allows_trans (by decide) hP
      | (extract_lets +onlyGivenNames x; have : State := x; clear this; clear_value (ex : x = _); revert x; intro z ez; refine kept_sub (P := P) (s := b) ez ?_ (fun hz => ?_))
      | (extract_lets +onlyGivenNames x; revert x; intro y) | apply setFld_kept | apply modPort18_kept | apply bump_kept
      | apply ioPut_kept | apply eventIn_kept | split

theorem outConv_kept (x1 : State) (x2 : Nat) (x3 : Nat) (x4 : List Byte) (x5 : Nat) (h1 : Kept P b x1) (hP : allows 6446727169 P = true) :
    Kept P b (State.outConv x1 x2 x3 x4 x5) := by
  unfold State.outConv
  repeat' first
    | with_reducible first
      | assumption | exact allows_trans (by decide) hP
      | (extract_lets +onlyGivenNames x; have : State := x; clear this; clear_value (ex : x = _); revert x; intro z ez; refine kept_sub (P := P) (s := b) ez ?_ (fun hz => ?_))
      | (extract_lets +onlyGivenNames x; revert x; intro y) | apply modConv_kept | apply convDrop_kept
      | apply convStatus_kept | apply bump_kept | apply ioPut_kept | split

theorem rateIn_kept (x1 : State) (x2 : Nat) (x3 : Nat) (x4 : List Byte) (x5 : Nat) (x6 : Nat) (h1 : Kept P b x1) (hP : allows 39845889 P = true) :
    Kept P b (State.rateIn x1 x2 x3 x4 x5 x6) := by
  unfold State.rateIn
  repeat' first
    | with_reducible first
      | assumption | intro _ | exact allows_trans (by decide) hP
      | (extract_lets +onlyGivenNames x; have : State := x; clear this; clear_value (ex : x = _); revert x; intro z ez; refine kept_sub (P := P) (s := b) ez ?_ (fun hz => ?_))
      | (extract_lets +onlyGivenNames x; revert x; intro y) | apply modConv_kept | apply feedAt_kept | apply kept_foldl

theorem convTick_kept (x1 : State) (x2 : Nat) (x3 : Nat) (x4 : Nat) (h1 : Kept P b x1) (hP : allows 6482378753 P = true) :
    Kept P b (State.convTick x1 x2 x3 x4) := by
  unfold State.convTick
  repeat' first
    | with_reducible first
      | assumption | intro _ | exact allows_trans (by decide) hP | (extract_lets +onlyGivenNames x; revert x; intro y)
      | apply KeptF.pair | (apply KeptF.fst; apply convRead_kept) | apply convDrop_kept | apply outConv_kept
      | apply convStatus_kept | apply bump_kept | apply rateIn_kept | apply feedAt_kept | apply kept_foldl | split
      | refine KeptF.of (by assumption) ?_

theorem diesTick_kept (x1 : State) (h1 : Kept P b x1) (hP : allows 7354796993 P = true) :
    Kept P b (State.diesTick x1) := by
  unfold State.diesTick
  repeat' first
    | with_reducible first
      | assumption | intro _ | exact allows_trans (by decide) hP | (extract_lets +onlyGivenNames x; revert x; intro y)
      | apply convTick_kept | apply campTick_kept | apply kept_foldl | split

theorem eventWord_kept (x1 : State) (x2 : Nat) (x3 : Nat) (x4 : List Byte) (x5 : Nat) (h1 : Kept P b x1) (hP : allows 35651585 P = true) :
    KeptF P b (State.eventWord x1 x2 x3 x4 x5) := by
  unfold State.eventWord
  repeat' first
    | with_reducible first
      | assumption | (extract_lets +onlyGivenNames x; revert x; intro y) | apply KeptF.pair | apply feedAt_kept | split

theorem packet_kept (x1 : State) (x2 : Nat) (x3 : Nat) (h1 : Kept P b x1) (hP : allows 4194305 P = true) :
    KeptF P b (State.packet x1 x2 x3) := by
  unfold State.packet
  repeat' first
    | with_reducible first
      | assumption | exact allows_trans (by decide) hP
      | (extract_lets +onlyGivenNames x; have : State := x; clear this; clear_value (ex : x = _); revert x; intro z ez; refine kept_sub (P := P) (s := b) ez ?_ (fun hz => ?_))
      | apply KeptF.pair | apply modPort18_kept | apply setFld_kept | apply bump_kept | split

theorem portCtrl_kept (x1 : State) (x2 : Nat) (x3 : Nat) (x4 : Word) (h1 : Kept P b x1) (hP : allows 6482378753 P = true) :
    Kept P b (State.portCtrl x1 x2 x3 x4) := by
  unfold State.portCtrl
  repeat' first
    | with_reducible first
      | assumption | exact allows_trans (by decide) hP
      | (extract_lets +onlyGivenNames x; have : State := x; clear this; clear_value (ex : x = _); revert x; intro z ez; refine kept_sub (P := P) (s := b) ez ?_ (fun hz => ?_))
      | apply setReg_kept | apply setFld_kept | apply closeFrame_kept | split

theorem execSensorPortOvercurrent_kept (x1 : Nat) (x2 : Nat) (x3 : State) (h3 : Kept P b x3) (hP : allows 7354796673 P = true) :
    KeptR P b (execSensorPortOvercurrent x1 x2 x3) := by
  unfold execSensorPortOvercurrent
  repeat' first
    | with_reducible first
      | assumption | exact allows_trans (by decide) hP
      | (extract_lets +onlyGivenNames x; have : State := x; clear this; clear_value (ex : x = _); revert x; intro z ez; refine kept_sub (P := P) (s := b) ez ?_ (fun hz => ?_))
      | apply keptR_next | apply setFld_kept | apply log_kept | apply closeFrame_kept | split

theorem execSnsGrantWrite_kept (x1 : Nat) (x2 : Word) (x3 : State) (h3 : Kept P b x3) (hP : allows 876612225 P = true) :
    KeptR P b (execSnsGrantWrite x1 x2 x3) := by
  unfold execSnsGrantWrite
  repeat' first
    | with_reducible first
      | assumption | exact allows_trans (by decide) hP | (extract_lets +onlyGivenNames x; revert x; intro y)
      | apply keptR_next | apply setFld_kept | apply log_kept | apply setReg_kept | apply zeroSns_kept | split

theorem execFrameStart_kept (x1 : Nat) (x2 : Nat) (x3 : Nat) (x4 : Nat) (x5 : State) (h5 : Kept P b x5) (hP : allows 6482378753 P = true) :
    KeptR P b (execFrameStart x1 x2 x3 x4 x5) := by
  unfold execFrameStart
  repeat' first
    | with_reducible first
      | assumption | exact allows_trans (by decide) hP
      | (extract_lets +onlyGivenNames x; have : State := x; clear this; clear_value (ex : x = _); revert x; intro z ez; refine kept_sub (P := P) (s := b) ez ?_ (fun hz => ?_))
      | (extract_lets +onlyGivenNames x; revert x; intro y) | apply keptR_next | apply KeptF.pair
      | (apply KeptF.fst; apply packet_kept) | apply bump_kept | apply closeFrame_kept | apply ioCount_kept
      | apply setFld_kept | apply modPort18_kept | split | refine KeptF.of (by assumption) ?_

theorem execRawLinePacket_kept (x1 : Nat) (x2 : Nat) (x3 : Nat) (x4 : Nat) (x5 : List Byte) (x6 : Bool) (x7 : State) (h7 : Kept P b x7) (hP : allows 6446727169 P = true) :
    KeptR P b (execRawLinePacket x1 x2 x3 x4 x5 x6 x7) := by
  unfold execRawLinePacket
  repeat' first
    | with_reducible first
      | assumption | exact allows_trans (by decide) hP
      | (extract_lets +onlyGivenNames x; have : State := x; clear this; clear_value (ex : x = _); revert x; intro z ez; refine kept_sub (P := P) (s := b) ez ?_ (fun hz => ?_))
      | (extract_lets +onlyGivenNames x; revert x; intro y) | apply keptR_next | apply KeptF.pair
      | (apply KeptF.fst; apply packet_kept) | apply bump_kept | apply modPort18_kept | apply ioPut_kept | split
      | refine KeptF.of (by assumption) ?_ | (dsimp +zetaDelta -proj only)

theorem execFrameEnd_kept (x1 : Nat) (x2 : Nat) (x3 : Nat) (x4 : State) (h4 : Kept P b x4) (hP : allows 6482378753 P = true) :
    KeptR P b (execFrameEnd x1 x2 x3 x4) := by
  unfold execFrameEnd
  repeat' first
    | with_reducible first
      | assumption | exact allows_trans (by decide) hP | apply keptR_next | apply KeptF.pair
      | (apply KeptF.fst; apply packet_kept) | apply closeFrame_kept | split | refine KeptF.of (by assumption) ?_

theorem execFrameTimeout_kept (x1 : Nat) (x2 : Nat) (x3 : State) (h3 : Kept P b x3) (hP : allows 6482378753 P = true) :
    KeptR P b (execFrameTimeout x1 x2 x3) := by
  unfold execFrameTimeout
  repeat' first
    | with_reducible first
      | assumption | apply keptR_next | apply closeFrame_kept | split

theorem execEventPacket_kept (x1 : Nat) (x2 : Nat) (x3 : Nat) (x4 : Nat) (x5 : List Byte) (x6 : Bool) (x7 : State) (h7 : Kept P b x7) (hP : allows 6482378753 P = true) :
    KeptR P b (execEventPacket x1 x2 x3 x4 x5 x6 x7) := by
  unfold execEventPacket
  repeat' first
    | with_reducible first
      | assumption | intro _ | exact allows_trans (by decide) hP
      | (extract_lets +onlyGivenNames x; have : State × _ := x; clear this; clear_value (ex : x = _); revert x; intro z ez; refine kept_subG (KeptF P b) ez ?_ (fun hz => ?_))
      | (extract_lets +onlyGivenNames x; revert x; intro y) | apply keptR_next | apply KeptF.pair
      | (apply KeptF.fst; apply packet_kept) | (apply KeptF.fst; apply eventWord_kept) | apply bump_kept
      | apply ioCount_kept | (apply KeptF.fst; apply kept_foldl_F) | split | refine KeptF.of (by assumption) ?_
      | (apply KeptF.fst; assumption)

theorem execOtherPacket_kept (x1 : Nat) (x2 : Nat) (x3 : Nat) (x4 : Nat) (x5 : Bool) (x6 : State) (h6 : Kept P b x6) (hP : allows 4194305 P = true) :
    KeptR P b (execOtherPacket x1 x2 x3 x4 x5 x6) := by
  unfold execOtherPacket
  repeat' first
    | with_reducible first
      | assumption | exact allows_trans (by decide) hP | (extract_lets +onlyGivenNames x; revert x; intro y)
      | apply keptR_next | apply KeptF.pair | (apply KeptF.fst; apply packet_kept) | apply bump_kept | split
      | refine KeptF.of (by assumption) ?_

theorem execAerWord_kept (x1 : Nat) (x2 : Nat) (x3 : State) (h3 : Kept P b x3) (hP : allows 6478184449 P = true) :
    KeptR P b (execAerWord x1 x2 x3) := by
  unfold execAerWord
  repeat' first
    | with_reducible first
      | assumption | exact allows_trans (by decide) hP
      | (extract_lets +onlyGivenNames x; have : State := x; clear this; clear_value (ex : x = _); revert x; intro z ez; refine kept_sub (P := P) (s := b) ez ?_ (fun hz => ?_))
      | (extract_lets +onlyGivenNames x; revert x; intro y) | apply keptR_next | apply bump_kept | apply ioCount_kept
      | apply feedAt_kept | split

theorem execTriggerPulse_kept (x1 : Nat) (x2 : Nat) (x3 : Nat) (x4 : State) (h4 : Kept P b x4) (hP : allows 67108865 P = true) :
    KeptR P b (execTriggerPulse x1 x2 x3 x4) := by
  unfold execTriggerPulse
  repeat' first
    | with_reducible first
      | assumption | exact allows_trans (by decide) hP
      | (extract_lets +onlyGivenNames x; have : State := x; clear this; clear_value (ex : x = _); revert x; intro z ez; refine kept_sub (P := P) (s := b) ez ?_ (fun hz => ?_))
      | (extract_lets +onlyGivenNames x; revert x; intro y) | apply keptR_next | apply bump_kept | apply setFld_kept
      | apply emit_kept | split

theorem execClockLaneInactive_kept (x1 : Nat) (x2 : Nat) (x3 : State) (h3 : Kept P b x3) (hP : allows 1 P = true) :
    KeptR P b (execClockLaneInactive x1 x2 x3) := by
  unfold execClockLaneInactive
  repeat' first
    | with_reducible first
      | assumption | apply keptR_next | apply setFld_kept | split

end Sys2Proof.Machine
end

