-- ==== Sys2Proof/Laws/KeptPower.lean ====
section
/-! SUPPORT. What each operation of Machine/Power.lean keeps: see `Kept`. -/

namespace Sys2Proof.Machine

variable {P : Nat} {b : State}

theorem busMasterWrite_kept (x1 : State) (x2 : Nat) (x3 : Bool) (h1 : Kept P b x1) (hP : allows 6559752257 P = true) :
    Kept P b (State.busMasterWrite x1 x2 x3) := by
  unfold State.busMasterWrite
  repeat' first
    | with_reducible first
      | assumption | exact allows_trans (by decide) hP
      | (extract_lets +onlyGivenNames x; have : State := x; clear this; clear_value (ex : x = _); revert x; intro z ez; refine kept_sub (P := P) (s := b) ez ?_ (fun hz => ?_))
      | (extract_lets +onlyGivenNames x; revert x; intro y) | apply tdiError_kept | split | apply Kept.set_pci

theorem powered_kept (x1 : State) (h1 : Kept P b x1) (hP : allows 8338275323 P = true) :
    Kept P b (State.powered x1) := by
  unfold State.powered
  have kk : ∀ i, (P.testBit i = false) → Nat.testBit 8338275323 i = false := fun i hi => testBit_of_land (allows_iff.mp hP) hi
  refine h1.trans ⟨fun p hp => ?_, fun c => ?_, [], rfl⟩
  · have := kk p.bit hp
    cases p <;> first | (exact absurd this (by decide)) | (simp [State.same])
  · have := canonical_iff.mp c
    exact canonical_iff.mpr ⟨rfl, rfl, this.2.2.1, rfl, rfl⟩

theorem coldStart_kept (x1 : State) (x2 : Nat) (x3 : Nat) (h1 : Kept P b x1) (hP : allows 8405385211 P = true) :
    Kept P b (State.coldStart x1 x2 x3) := by
  unfold State.coldStart
  repeat' first
    | with_reducible first
      | assumption | exact allows_trans (by decide) hP | apply bootStart_kept | apply setReg_kept | apply powered_kept

theorem sriovWrite_kept (x1 : State) (x2 : ConfigItem) (x3 : Nat) (h1 : Kept P b x1) (hP : allows 6559752257 P = true) :
    Kept P b (State.sriovWrite x1 x2 x3) := by
  unfold State.sriovWrite
  repeat' first
    | with_reducible first
      | assumption | exact allows_trans (by decide) hP | (extract_lets +onlyGivenNames x; revert x; intro y)
      | apply tdiErrorAll_kept | split | apply Kept.set_pci

theorem msixRelease_kept (x1 : State) (x2 : Nat) (h1 : Kept P b x1) (hP : allows 67108928 P = true) :
    Kept P b (State.msixRelease x1 x2) := by
  unfold State.msixRelease
  repeat' first
    | with_reducible first
      | assumption | intro _ | exact allows_trans (by decide) hP | (extract_lets +onlyGivenNames x; revert x; intro y)
      | apply notify_kept | apply kept_foldl | split | apply Kept.set_exm | (dsimp only)

theorem configWrite_kept (x1 : State) (x2 : Nat) (x3 : ConfigItem) (x4 : Nat) (h1 : Kept P b x1) (hP : allows 6559752257 P = true) :
    Kept P b (State.configWrite x1 x2 x3 x4) := by
  unfold State.configWrite
  repeat' first
    | with_reducible first
      | assumption | exact allows_trans (by decide) hP | (extract_lets +onlyGivenNames x; revert x; intro y)
      | apply sriovWrite_kept | apply busMasterWrite_kept | apply msixRelease_kept | split | apply Kept.set_pci

theorem cutErases_kept (x1 : State) (h1 : Kept P b x1) (hP : allows 1024 P = true) :
    Kept P b (State.cutErases x1) := by
  unfold State.cutErases
  repeat' first
    | with_reducible first
      | assumption | (extract_lets +onlyGivenNames x; revert x; intro y) | apply norSpoil_kept | split
      | (dsimp +zetaDelta -proj only)

theorem fnReset_kept (x1 : State) (x2 : Nat) (h1 : Kept P b x1) (hP : allows 8388672 P = true) :
    Kept P b (State.fnReset x1 x2) := by
  unfold State.fnReset
  repeat' first
    | with_reducible first
      | assumption | (extract_lets +onlyGivenNames x; revert x; intro y) | apply Kept.set_exm_pci | (dsimp only)

theorem pf0D0_kept (x1 : State) (h1 : Kept P b x1) (hP : allows 268435464 P = true) :
    Kept P b (State.pf0D0 x1) := by
  unfold State.pf0D0
  repeat' first
    | with_reducible first
      | assumption | (extract_lets +onlyGivenNames x; revert x; intro y) | split | apply Kept.set_pwr

theorem shed_kept (x1 : State) (x2 : PowerMode) (h1 : Kept P b x1) (hP : allows 268436489 P = true) :
    Kept P b (State.shed x1 x2) := by
  unfold State.shed
  repeat' first
    | with_reducible first
      | assumption | exact allows_trans (by decide) hP
      | (extract_lets +onlyGivenNames x; have : State := x; clear this; clear_value (ex : x = _); revert x; intro z ez; refine kept_sub (P := P) (s := b) ez ?_ (fun hz => ?_))
      | (extract_lets +onlyGivenNames x; revert x; intro y) | apply cutErases_kept | apply leaveRing_kept
      | apply Kept.set_pwr

theorem thawClears_kept (x1 : State) (h1 : Kept P b x1) (hP : allows 6551322625 P = true) :
    Kept P b (State.thawClears x1) := by
  unfold State.thawClears
  repeat' first
    | with_reducible first
      | assumption | intro _ | exact allows_trans (by decide) hP | apply modSlice_kept | apply stopSlice_kept
      | apply kept_foldl | split

theorem vfD0_kept (x1 : State) (x2 : Nat) (h1 : Kept P b x1) (hP : allows 268435464 P = true) :
    Kept P b (State.vfD0 x1 x2) := by
  unfold State.vfD0
  repeat' first
    | with_reducible first
      | assumption | (extract_lets +onlyGivenNames x; revert x; intro y) | split | apply Kept.set_pwr

theorem warmed_kept (x1 : State) (h1 : Kept P b x1) (hP : allows 8338275323 P = true) :
    Kept P b (State.warmed x1) := by
  unfold State.warmed
  refine setFld_kept ?_ _ _ (allows_trans (by decide) hP)
  have kk : ∀ i, (P.testBit i = false) → Nat.testBit 8338275323 i = false := fun i hi => testBit_of_land (allows_iff.mp hP) hi
  refine h1.trans ⟨fun p hp => ?_, fun c => ?_, [], by simp [State.powered]⟩
  · have := kk p.bit hp
    cases p <;> first | (exact absurd this (by decide)) | (simp [State.same, State.powered])
  · have := canonical_iff.mp c
    exact canonical_iff.mpr ⟨fwf_filter _ _ _ this.1, rfl, this.2.2.1, rfl, rfl⟩

theorem warmReset_kept (x1 : State) (x2 : Nat) (x3 : Nat) (x4 : Nat) (h1 : Kept P b x1) (hP : allows 8405385211 P = true) :
    Kept P b (State.warmReset x1 x2 x3 x4) := by
  unfold State.warmReset
  repeat' first
    | with_reducible first
      | assumption | exact allows_trans (by decide) hP
      | (extract_lets +onlyGivenNames x; have : State := x; clear this; clear_value (ex : x = _); revert x; intro z ez; refine kept_sub (P := P) (s := b) ez ?_ (fun hz => ?_))
      | (extract_lets +onlyGivenNames x; revert x; intro y) | apply dropChanges_kept | apply log_kept | apply bootStart_kept
      | apply warmed_kept | apply flush_kept | apply cutErases_kept | split

theorem execColdPowerOn_kept (x1 : Nat) (x2 : Nat) (x3 : State) (h3 : Kept P b x3) (hP : allows 8405385211 P = true) :
    KeptR P b (execColdPowerOn x1 x2 x3) := by
  unfold execColdPowerOn
  repeat' first
    | with_reducible first
      | assumption | apply keptR_next | apply coldStart_kept

theorem execWarmResetPerst_kept (x1 : Nat) (x2 : State) (h2 : Kept P b x2) (hP : allows 8405385211 P = true) :
    KeptR P b (execWarmResetPerst x1 x2) := by
  unfold execWarmResetPerst
  repeat' first
    | with_reducible first
      | assumption | exact allows_trans (by decide) hP | (extract_lets +onlyGivenNames x; revert x; intro y)
      | apply keptR_next | apply warmReset_kept | split | apply Kept.set_pwr

theorem execWarmResetHot_kept (x1 : Nat) (x2 : State) (h2 : Kept P b x2) (hP : allows 8405385211 P = true) :
    KeptR P b (execWarmResetHot x1 x2) := by
  unfold execWarmResetHot
  repeat' first
    | with_reducible first
      | assumption | exact allows_trans (by decide) hP | (extract_lets +onlyGivenNames x; revert x; intro y)
      | apply keptR_next | apply warmReset_kept | split | apply Kept.set_pwr

theorem execPowerFailDetect_kept (x1 : Nat) (x2 : Nat) (x3 : State) (h3 : Kept P b x3) (hP : allows 872418953 P = true) :
    KeptR P b (execPowerFailDetect x1 x2 x3) := by
  unfold execPowerFailDetect
  repeat' first
    | with_reducible first
      | assumption | exact allows_trans (by decide) hP | apply keptR_next | apply powerFailFlush_kept | apply shed_kept
      | apply failNotice_kept | split

theorem execOvervoltageShutdown_kept (x1 : State) (h1 : Kept P b x1) (hP : allows 872418953 P = true) :
    KeptR P b (execOvervoltageShutdown x1) := by
  unfold execOvervoltageShutdown
  repeat' first
    | with_reducible first
      | assumption | exact allows_trans (by decide) hP | apply keptR_next | apply flush_kept | apply shed_kept
      | apply log_kept | split

theorem execRailOvercurrent_kept (x1 : Nat) (x2 : State) (h2 : Kept P b x2) (hP : allows 872418953 P = true) :
    KeptR P b (execRailOvercurrent x1 x2) := by
  unfold execRailOvercurrent
  repeat' first
    | with_reducible first
      | assumption | exact allows_trans (by decide) hP | apply keptR_next | apply flush_kept | apply shed_kept
      | apply log_kept | split

theorem execPowerReturnRestart_kept (x1 : Nat) (x2 : Nat) (x3 : State) (h3 : Kept P b x3) (hP : allows 8405385211 P = true) :
    KeptR P b (execPowerReturnRestart x1 x2 x3) := by
  unfold execPowerReturnRestart
  repeat' first
    | with_reducible first
      | assumption | apply keptR_next | apply coldStart_kept | split

theorem execConfigRequest_kept (x1 : Nat) (x2 : ConfigItem) (x3 : Option Nat) (x4 : State) (h4 : Kept P b x4) (hP : allows 6559752257 P = true) :
    KeptR P b (execConfigRequest x1 x2 x3 x4) := by
  unfold execConfigRequest
  repeat' first
    | with_reducible first
      | assumption | exact allows_trans (by decide) hP | apply keptR_next | apply emit_kept | apply drawn_kept
      | apply configWrite_kept | split

theorem execVfFlr_kept (x1 : Nat) (x2 : State) (h2 : Kept P b x2) (hP : allows 7901929545 P = true) :
    KeptR P b (execVfFlr x1 x2) := by
  unfold execVfFlr
  repeat' first
    | with_reducible first
      | assumption | exact allows_trans (by decide) hP
      | (extract_lets +onlyGivenNames x; have : State := x; clear this; clear_value (ex : x = _); revert x; intro z ez; refine kept_sub (P := P) (s := b) ez ?_ (fun hz => ?_))
      | apply keptR_next | apply clearVfExchange_kept | apply queuesFlr_kept | apply tdiError_kept | apply vfD0_kept
      | apply fnReset_kept | apply modSlice_kept | apply clearBegin_kept | apply setFld_kept | split

theorem execPf0Flr_kept (x1 : State) (h1 : Kept P b x1) (hP : allows 1350565960 P = true) :
    KeptR P b (execPf0Flr x1) := by
  unfold execPf0Flr
  repeat' first
    | with_reducible first
      | assumption | exact allows_trans (by decide) hP
      | (extract_lets +onlyGivenNames x; have : State := x; clear this; clear_value (ex : x = _); revert x; intro z ez; refine kept_sub (P := P) (s := b) ez ?_ (fun hz => ?_))
      | (extract_lets +onlyGivenNames x; revert x; intro y) | apply keptR_next | apply pf0D0_kept | apply fnReset_kept
      | apply exmZero_kept | split | apply Kept.set_pci

theorem execIdleClockGate_kept (x1 : Nat) (x2 : State) (h2 : Kept P b x2) (hP : allows 268435464 P = true) :
    KeptR P b (execIdleClockGate x1 x2) := by
  unfold execIdleClockGate
  repeat' first
    | with_reducible first
      | assumption | (extract_lets +onlyGivenNames x; revert x; intro y) | apply keptR_next | split | apply Kept.set_pwr

theorem execDozeEnter_kept (x1 : State) (h1 : Kept P b x1) (hP : allows 268435464 P = true) :
    KeptR P b (execDozeEnter x1) := by
  unfold execDozeEnter
  repeat' first
    | with_reducible first
      | assumption | (extract_lets +onlyGivenNames x; revert x; intro y) | apply keptR_next | split | apply Kept.set_pwr

theorem execDozeExitResume_kept (x1 : State) (h1 : Kept P b x1) (hP : allows 268435464 P = true) :
    KeptR P b (execDozeExitResume x1) := by
  unfold execDozeExitResume
  repeat' first
    | with_reducible first
      | assumption | (extract_lets +onlyGivenNames x; revert x; intro y) | apply keptR_next | split | apply Kept.set_pwr

theorem execPf0D3hotEnter_kept (x1 : State) (h1 : Kept P b x1) (hP : allows 268435464 P = true) :
    KeptR P b (execPf0D3hotEnter x1) := by
  unfold execPf0D3hotEnter
  repeat' first
    | with_reducible first
      | assumption | (extract_lets +onlyGivenNames x; revert x; intro y) | apply keptR_next | split | apply Kept.set_pwr

theorem execPf0D0Return_kept (x1 : State) (h1 : Kept P b x1) (hP : allows 268435464 P = true) :
    KeptR P b (execPf0D0Return x1) := by
  unfold execPf0D0Return
  repeat' first
    | with_reducible first
      | assumption | apply keptR_next | apply pf0D0_kept

theorem execVfD3hotEnter_kept (x1 : Nat) (x2 : State) (h2 : Kept P b x2) (hP : allows 268435464 P = true) :
    KeptR P b (execVfD3hotEnter x1 x2) := by
  unfold execVfD3hotEnter
  repeat' first
    | with_reducible first
      | assumption | (extract_lets +onlyGivenNames x; revert x; intro y) | apply keptR_next | split | apply Kept.set_pwr

theorem execVfD0Return_kept (x1 : Nat) (x2 : State) (h2 : Kept P b x2) (hP : allows 268435464 P = true) :
    KeptR P b (execVfD0Return x1 x2) := by
  unfold execVfD0Return
  repeat' first
    | with_reducible first
      | assumption | apply keptR_next | apply vfD0_kept | split

theorem execSriovConfigWrite_kept (x1 : Nat) (x2 : Bool) (x3 : Bool) (x4 : Nat) (x5 : Nat) (x6 : State) (h6 : Kept P b x6) (hP : allows 6559752257 P = true) :
    KeptR P b (execSriovConfigWrite x1 x2 x3 x4 x5 x6) := by
  unfold execSriovConfigWrite
  repeat' first
    | with_reducible first
      | assumption | exact allows_trans (by decide) hP | (extract_lets +onlyGivenNames x; revert x; intro y)
      | apply keptR_next | apply tdiErrorAll_kept | split | apply Kept.set_pci

theorem execBusMasterClear_kept (x1 : Nat) (x2 : State) (h2 : Kept P b x2) (hP : allows 6559752257 P = true) :
    KeptR P b (execBusMasterClear x1 x2) := by
  unfold execBusMasterClear
  repeat' first
    | with_reducible first
      | assumption | exact allows_trans (by decide) hP | (extract_lets +onlyGivenNames x; revert x; intro y)
      | apply keptR_next | apply tdiError_kept | split | apply Kept.set_pci

theorem execThawResume_kept (x1 : State) (h1 : Kept P b x1) (hP : allows 7356809169 P = true) :
    KeptR P b (execThawResume x1) := by
  unfold execThawResume
  repeat' first
    | with_reducible first
      | assumption | intro _ | exact allows_trans (by decide) hP
      | (extract_lets +onlyGivenNames x; have : State := x; clear this; clear_value (ex : x = _); revert x; intro z ez; refine kept_sub (P := P) (s := b) ez ?_ (fun hz => ?_))
      | (extract_lets +onlyGivenNames x; revert x; intro y) | apply keptR_next | apply setFld_kept | apply thawClears_kept
      | apply closeFrame_kept | apply beginStep_kept | apply uncontained_kept | apply kept_foldl | split
      | apply Kept.set_flt

end Sys2Proof.Machine
end

