-- ==== Sys2Proof/Laws/KeptSched.lean ====
section
/-! SUPPORT. What each operation of Machine/Sched.lean keeps: see `Kept`. -/

namespace Sys2Proof.Machine

variable {P : Nat} {b : State}

theorem cutSlot_kept (x1 : State) (x2 : Nat) (h1 : Kept P b x1) (hP : allows 905972353 P = true) :
    Kept P b (State.cutSlot x1 x2) := by
  unfold State.cutSlot
  repeat' first
    | with_reducible first
      | assumption | exact allows_trans (by decide) hP | apply bump_kept | apply drawn_kept | apply log_kept

theorem dispatchSlot_kept (x1 : State) (x2 : Slot) (h1 : Kept P b x1) (hP : allows 872548993 P = true) :
    Kept P b (State.dispatchSlot x1 x2) := by
  unfold State.dispatchSlot
  repeat' first
    | with_reducible first
      | assumption | exact allows_trans (by decide) hP
      | (extract_lets +onlyGivenNames x; have : State := x; clear this; clear_value (ex : x = _); revert x; intro z ez; refine kept_sub (P := P) (s := b) ez ?_ (fun hz => ?_))
      | (extract_lets +onlyGivenNames x; revert x; intro y) | apply log_kept | apply modAcct_kept | split
      | apply Kept.set_sch

theorem skipEntry_kept (x1 : State) (x2 : Nat) (x3 : Nat) (h1 : Kept P b x1) (hP : allows 872417921 P = true) :
    Kept P b (State.skipEntry x1 x2 x3) := by
  unfold State.skipEntry
  repeat' first
    | with_reducible first
      | assumption | exact allows_trans (by decide) hP | apply setReg_kept | apply bump_kept | apply log_kept

theorem readGroup_kept (x1 : Option (Nat × Nat)) (x2 : Nat) (x3 : State) (h3 : Kept P b x3) (hP : allows 872548993 P = true) :
    Kept P b (readGroup x1 x2 x3) := by
  induction x2 generalizing x1 x3 with
  | zero =>
    rw [readGroup]
    repeat' first
      | with_reducible first
        | assumption
  | succ n ih =>
    rw [readGroup]
    repeat' first
      | with_reducible first
        | assumption | exact allows_trans (by decide) hP | apply skipEntry_kept | split | apply ih | apply Kept.set_sch

theorem readFrom_kept (x1 : State) (x2 : Nat) (x3 : Bool) (h1 : Kept P b x1) (hP : allows 131072 P = true) :
    Kept P b (State.readFrom x1 x2 x3) := by
  unfold State.readFrom
  repeat' first
    | with_reducible first
      | assumption | (extract_lets +onlyGivenNames x; revert x; intro y) | apply Kept.set_sch

theorem groupRead_kept (x1 : State) (x2 : Option (Nat × Nat)) (h1 : Kept P b x1) (hP : allows 872548993 P = true) :
    Kept P b (State.groupRead x1 x2) := by
  unfold State.groupRead
  repeat' first
    | with_reducible first
      | assumption | exact allows_trans (by decide) hP
      | (extract_lets +onlyGivenNames x; have : State := x; clear this; clear_value (ex : x = _); revert x; intro z ez; refine kept_sub (P := P) (s := b) ez ?_ (fun hz => ?_))
      | apply readGroup_kept | apply readFrom_kept | split

theorem lagClear_kept (x1 : State) (x2 : Nat) (h1 : Kept P b x1) (hP : allows 131072 P = true) :
    Kept P b (State.lagClear x1 x2) := by
  unfold State.lagClear
  repeat' first
    | with_reducible first
      | assumption | (extract_lets +onlyGivenNames x; revert x; intro y) | apply Kept.set_sch

theorem lagEnd_kept (x1 : State) (x2 : Slot) (x3 : Nat) (h1 : Kept P b x1) (hP : allows 131072 P = true) :
    Kept P b (State.lagEnd x1 x2 x3) := by
  unfold State.lagEnd
  repeat' first
    | with_reducible first
      | assumption | intro _ | apply lagClear_kept | apply kept_foldl | split

theorem putEntries_kept (x1 : State) (x2 : Nat) (x3 : List Entry) (h1 : Kept P b x1) (hP : allows 131072 P = true) :
    Kept P b (State.putEntries x1 x2 x3) := by
  unfold State.putEntries
  repeat' first
    | with_reducible first
      | assumption | intro _ | (extract_lets +onlyGivenNames x; revert x; intro y) | apply kept_foldl | apply Kept.set_sch

theorem rtMiss_kept (x1 : State) (x2 : Slot) (x3 : Nat) (x4 : Nat) (h1 : Kept P b x1) (hP : allows 7350479553 P = true) :
    Kept P b (State.rtMiss x1 x2 x3 x4) := by
  unfold State.rtMiss
  repeat' first
    | with_reducible first
      | assumption | exact allows_trans (by decide) hP
      | (extract_lets +onlyGivenNames x; have : State := x; clear this; clear_value (ex : x = _); revert x; intro z ez; refine kept_sub (P := P) (s := b) ez ?_ (fun hz => ?_))
      | apply log_kept | apply modAcct_kept | apply bump_kept | apply endCmd_kept | apply stopCmd_kept | split

theorem slotEnd_kept (x1 : State) (x2 : Slot) (h1 : Kept P b x1) (hP : allows 7350479553 P = true) :
    Kept P b (State.slotEnd x1 x2) := by
  unfold State.slotEnd
  repeat' first
    | with_reducible first
      | assumption | intro _ | exact allows_trans (by decide) hP
      | (extract_lets +onlyGivenNames x; have : State := x; clear this; clear_value (ex : x = _); revert x; intro z ez; refine kept_sub (P := P) (s := b) ez ?_ (fun hz => ?_))
      | (extract_lets +onlyGivenNames x; revert x; intro y) | apply rtMiss_kept | apply kept_foldl | split
      | apply Kept.set_sch

theorem schedBoundary_kept (x1 : State) (x2 : Nat) (x3 : Nat) (h1 : Kept P b x1) (hP : allows 7350479553 P = true) :
    Kept P b (State.schedBoundary x1 x2 x3) := by
  unfold State.schedBoundary
  repeat' first
    | with_reducible first
      | assumption | intro _ | exact allows_trans (by decide) hP
      | (extract_lets +onlyGivenNames x; have : State := x; clear this; clear_value (ex : x = _); revert x; intro z ez; refine kept_sub (P := P) (s := b) ez ?_ (fun hz => ?_))
      | (extract_lets +onlyGivenNames x; revert x; intro y) | apply cutSlot_kept | apply readGroup_kept
      | apply readFrom_kept | apply slotEnd_kept | apply lagEnd_kept | apply setFld_kept | apply kept_foldl | split
      | apply Kept.set_sch

theorem execSchedWrite_kept (x1 : Upsets) (x2 : State) (h2 : Kept P b x2) (hP : allows 1946294977 P = true) :
    KeptR P b (execSchedWrite x1 x2) := by
  unfold execSchedWrite
  repeat' first
    | with_reducible first
      | assumption | intro _ | exact allows_trans (by decide) hP | (extract_lets +onlyGivenNames x; revert x; intro y)
      | apply KeptReply.made | (apply KeptReply.st; apply no_kept) | (apply KeptReply.st; apply dataError_kept)
      | (apply KeptReply.st; apply ok_kept) | apply command_kept | apply putEntries_kept | split

theorem execSchedRead_kept (x1 : Upsets) (x2 : State) (h2 : Kept P b x2) (hP : allows 1946163905 P = true) :
    KeptR P b (execSchedRead x1 x2) := by
  unfold execSchedRead
  repeat' first
    | with_reducible first
      | assumption | intro _ | exact allows_trans (by decide) hP | (extract_lets +onlyGivenNames x; revert x; intro y)
      | apply KeptReply.made | (apply KeptReply.st; apply no_kept) | (apply KeptReply.st; apply ok_kept)
      | apply command_kept | apply bufferPut_kept | split

theorem execSchedSwap_kept (x1 : Upsets) (x2 : State) (h2 : Kept P b x2) (hP : allows 1946163905 P = true) :
    KeptR P b (execSchedSwap x1 x2) := by
  unfold execSchedSwap
  repeat' first
    | with_reducible first
      | assumption | intro _ | exact allows_trans (by decide) hP
      | (extract_lets +onlyGivenNames x; have : State := x; clear this; clear_value (ex : x = _); revert x; intro z ez; refine kept_sub (P := P) (s := b) ez ?_ (fun hz => ?_))
      | (extract_lets +onlyGivenNames x; revert x; intro y) | apply KeptReply.made | (apply KeptReply.st; apply no_kept)
      | (apply KeptReply.st; apply ok_kept) | apply command_kept | apply setPair_kept | apply setFld_kept | split
      | apply Kept.set_eng

theorem execSchedSwapApply_kept (x1 : State) (h1 : Kept P b x1) (hP : allows 872553089 P = true) :
    KeptR P b (execSchedSwapApply x1) := by
  unfold execSchedSwapApply
  repeat' first
    | with_reducible first
      | assumption | exact allows_trans (by decide) hP
      | (extract_lets +onlyGivenNames x; have : State := x; clear this; clear_value (ex : x = _); revert x; intro z ez; refine kept_sub (P := P) (s := b) ez ?_ (fun hz => ?_))
      | (extract_lets +onlyGivenNames x; revert x; intro y) | apply keptR_next | apply log_kept | apply setFld_kept
      | apply setPair_kept | apply readGroup_kept | apply readFrom_kept | split | apply Kept.set_sch | apply Kept.set_eng

theorem execScheduleGroupRead_kept (x1 : Option (Nat × Nat)) (x2 : State) (h2 : Kept P b x2) (hP : allows 872548993 P = true) :
    KeptR P b (execScheduleGroupRead x1 x2) := by
  unfold execScheduleGroupRead
  repeat' first
    | with_reducible first
      | assumption | apply keptR_next | apply groupRead_kept | split

theorem execSlotStart_kept (x1 : State) (h1 : Kept P b x1) (hP : allows 872548993 P = true) :
    KeptR P b (execSlotStart x1) := by
  unfold execSlotStart
  repeat' first
    | with_reducible first
      | assumption | intro _ | exact allows_trans (by decide) hP
      | (extract_lets +onlyGivenNames x; have : State := x; clear this; clear_value (ex : x = _); revert x; intro z ez; refine kept_sub (P := P) (s := b) ez ?_ (fun hz => ?_))
      | (extract_lets +onlyGivenNames x; revert x; intro y) | apply keptR_next | apply groupRead_kept
      | apply dispatchSlot_kept | apply kept_foldl | split | apply Kept.set_sch

theorem execSlotEnd_kept (x1 : Nat) (x2 : State) (h2 : Kept P b x2) (hP : allows 7350479553 P = true) :
    KeptR P b (execSlotEnd x1 x2) := by
  unfold execSlotEnd
  repeat' first
    | with_reducible first
      | assumption | exact allows_trans (by decide) hP | apply keptR_next | apply lagEnd_kept | apply slotEnd_kept | split

theorem execLagQuantum_kept (x1 : Nat) (x2 : List (Nat × Nat)) (x3 : State) (h3 : Kept P b x3) (hP : allows 131072 P = true) :
    KeptR P b (execLagQuantum x1 x2 x3) := by
  unfold execLagQuantum
  repeat' first
    | with_reducible first
      | assumption
      | (extract_lets +onlyGivenNames x; have : State := x; clear this; clear_value (ex : x = _); revert x; intro z ez; refine kept_sub (P := P) (s := b) ez ?_ (fun hz => ?_))
      | (extract_lets +onlyGivenNames x; revert x; intro y) | apply keptR_next | split | apply Kept.set_sch

theorem execExclusiveJobStart_kept (x1 : State) (h1 : Kept P b x1) (hP : allows 131072 P = true) :
    KeptR P b (execExclusiveJobStart x1) := by
  unfold execExclusiveJobStart
  repeat' first
    | with_reducible first
      | assumption | (extract_lets +onlyGivenNames x; revert x; intro y) | apply keptR_next | split | apply Kept.set_sch

theorem execExclLimit_kept (x1 : State) (h1 : Kept P b x1) (hP : allows 7350479553 P = true) :
    KeptR P b (execExclLimit x1) := by
  unfold execExclLimit
  repeat' first
    | with_reducible first
      | assumption | exact allows_trans (by decide) hP
      | (extract_lets +onlyGivenNames x; have : State := x; clear this; clear_value (ex : x = _); revert x; intro z ez; refine kept_sub (P := P) (s := b) ez ?_ (fun hz => ?_))
      | (extract_lets +onlyGivenNames x; revert x; intro y) | apply keptR_next | apply log_kept | apply endUid_kept
      | apply stopCmd_kept | split | apply Kept.set_sch

end Sys2Proof.Machine
end

