-- ==== Sys2Proof/Laws/KeptLayout.lean ====
section
/-! SUPPORT. What each operation of Machine/Layout.lean keeps: see `Kept`. -/

namespace Sys2Proof.Machine

variable {P : Nat} {b : State}

theorem accept_kept (x1 : State) (x2 : Change) (h1 : Kept P b x1) (hP : allows 4097 P = true) :
    Kept P b (State.accept x1 x2) := by
  unfold State.accept
  repeat' first
    | with_reducible first
      | assumption | exact allows_trans (by decide) hP
      | (extract_lets +onlyGivenNames x; have : State := x; clear this; clear_value (ex : x = _); revert x; intro z ez; refine kept_sub (P := P) (s := b) ez ?_ (fun hz => ?_))
      | (extract_lets +onlyGivenNames x; revert x; intro y) | apply setPair_kept | apply Kept.set_eng

theorem setRegion_kept (x1 : State) (x2 : Nat) (x3 : Call) (h1 : Kept P b x1) (hP : allows 1 P = true) :
    Kept P b (State.setRegion x1 x2 x3) := by
  unfold State.setRegion
  repeat' first
    | with_reducible first
      | assumption
      | (extract_lets +onlyGivenNames x; have : State := x; clear this; clear_value (ex : x = _); revert x; intro z ez; refine kept_sub (P := P) (s := b) ez ?_ (fun hz => ?_))
      | apply setFld_kept

theorem slowdownSet_kept (x1 : State) (x2 : Call) (x3 : Nat) (h1 : Kept P b x1) (hP : allows 131073 P = true) :
    Kept P b (State.slowdownSet x1 x2 x3) := by
  unfold State.slowdownSet
  repeat' first
    | with_reducible first
      | assumption | exact allows_trans (by decide) hP
      | (extract_lets +onlyGivenNames x; have : State := x; clear this; clear_value (ex : x = _); revert x; intro z ez; refine kept_sub (P := P) (s := b) ez ?_ (fun hz => ?_))
      | (extract_lets +onlyGivenNames x; revert x; intro y) | apply setFld_kept | split | apply Kept.set_sch

theorem zeroLeaving_kept (x1 : State) (x2 : Region) (x3 : List Region) (h1 : Kept P b x1) (hP : allows 1073741888 P = true) :
    Kept P b (State.zeroLeaving x1 x2 x3) := by
  unfold State.zeroLeaving
  repeat' first
    | with_reducible first
      | assumption | intro _ | apply exmZero_kept | apply kept_foldl | split

theorem execSliceCreate_kept (x1 : Upsets) (x2 : State) (h2 : Kept P b x2) (hP : allows 1946163905 P = true) :
    KeptR P b (execSliceCreate x1 x2) := by
  unfold execSliceCreate
  repeat' first
    | with_reducible first
      | assumption | intro _ | exact allows_trans (by decide) hP | (extract_lets +onlyGivenNames x; revert x; intro y)
      | apply KeptReply.made | (apply KeptReply.st; apply no_kept) | (apply KeptReply.st; apply ok_kept)
      | apply command_kept | apply accept_kept | apply setSlice_kept | split

theorem execSliceResize_kept (x1 : Upsets) (x2 : State) (h2 : Kept P b x2) (hP : allows 1946163905 P = true) :
    KeptR P b (execSliceResize x1 x2) := by
  unfold execSliceResize
  repeat' first
    | with_reducible first
      | assumption | intro _ | exact allows_trans (by decide) hP | (extract_lets +onlyGivenNames x; revert x; intro y)
      | apply KeptReply.made | (apply KeptReply.st; apply no_kept) | (apply KeptReply.st; apply ok_kept)
      | apply command_kept | apply accept_kept | apply setSlice_kept | split

theorem execSliceDestroy_kept (x1 : Upsets) (x2 : State) (h2 : Kept P b x2) (hP : allows 1946180289 P = true) :
    KeptR P b (execSliceDestroy x1 x2) := by
  unfold execSliceDestroy
  repeat' first
    | with_reducible first
      | assumption | intro _ | exact allows_trans (by decide) hP
      | (extract_lets +onlyGivenNames x; have : State := x; clear this; clear_value (ex : x = _); revert x; intro z ez; refine kept_sub (P := P) (s := b) ez ?_ (fun hz => ?_))
      | (extract_lets +onlyGivenNames x; revert x; intro y) | apply KeptReply.made | (apply KeptReply.st; apply no_kept)
      | (apply KeptReply.st; apply ok_kept) | apply command_kept | apply setSlice_kept | apply modSlice_kept
      | apply accept_kept | split

theorem execSliceReset_kept (x1 : Upsets) (x2 : State) (h2 : Kept P b x2) (hP : allows 8430385857 P = true) :
    KeptR P b (execSliceReset x1 x2) := by
  unfold execSliceReset
  repeat' first
    | with_reducible first
      | assumption | intro _ | exact allows_trans (by decide) hP
      | (extract_lets +onlyGivenNames x; have : State := x; clear this; clear_value (ex : x = _); revert x; intro z ez; refine kept_sub (P := P) (s := b) ez ?_ (fun hz => ?_))
      | (extract_lets +onlyGivenNames x; revert x; intro y) | apply KeptReply.made | (apply KeptReply.st; apply no_kept)
      | (apply KeptReply.st; apply startJob_kept) | apply command_kept | apply queuesStop_kept | apply clearBegin_kept
      | apply setFld_kept | split

theorem execSliceBoundsSet_kept (x1 : Upsets) (x2 : State) (h2 : Kept P b x2) (hP : allows 1946180289 P = true) :
    KeptR P b (execSliceBoundsSet x1 x2) := by
  unfold execSliceBoundsSet
  repeat' first
    | with_reducible first
      | assumption | intro _ | exact allows_trans (by decide) hP
      | (extract_lets +onlyGivenNames x; have : State := x; clear this; clear_value (ex : x = _); revert x; intro z ez; refine kept_sub (P := P) (s := b) ez ?_ (fun hz => ?_))
      | (extract_lets +onlyGivenNames x; revert x; intro y) | apply KeptReply.made | (apply KeptReply.st; apply no_kept)
      | (apply KeptReply.st; apply ok_kept) | apply command_kept | apply setFld_kept | apply setReg_kept
      | apply modSlice_kept | split

theorem execSliceStatus_kept (x1 : Upsets) (x2 : State) (h2 : Kept P b x2) (hP : allows 1946163905 P = true) :
    KeptR P b (execSliceStatus x1 x2) := by
  unfold execSliceStatus
  repeat' first
    | with_reducible first
      | assumption | intro _ | exact allows_trans (by decide) hP | (extract_lets +onlyGivenNames x; revert x; intro y)
      | apply KeptReply.made | (apply KeptReply.st; apply no_kept) | (apply KeptReply.st; apply ok_kept)
      | apply command_kept | split

theorem execSlowdownSet_kept (x1 : Upsets) (x2 : State) (h2 : Kept P b x2) (hP : allows 1946294977 P = true) :
    KeptR P b (execSlowdownSet x1 x2) := by
  unfold execSlowdownSet
  repeat' first
    | with_reducible first
      | assumption | intro _ | exact allows_trans (by decide) hP | (extract_lets +onlyGivenNames x; revert x; intro y)
      | apply KeptReply.made | (apply KeptReply.st; apply no_kept) | (apply KeptReply.st; apply ok_kept)
      | apply command_kept | apply slowdownSet_kept | apply kept_foldl | split

theorem execExchangeRegionSet_kept (x1 : Upsets) (x2 : State) (h2 : Kept P b x2) (hP : allows 1946163905 P = true) :
    KeptR P b (execExchangeRegionSet x1 x2) := by
  unfold execExchangeRegionSet
  repeat' first
    | with_reducible first
      | assumption | intro _ | exact allows_trans (by decide) hP | (extract_lets +onlyGivenNames x; revert x; intro y)
      | apply KeptReply.made | (apply KeptReply.st; apply no_kept) | (apply KeptReply.st; apply ok_kept)
      | apply command_kept | apply log_kept | apply setRegion_kept | apply zeroLeaving_kept | split

theorem execExchangeWindowSet_kept (x1 : Upsets) (x2 : State) (h2 : Kept P b x2) (hP : allows 1946163905 P = true) :
    KeptR P b (execExchangeWindowSet x1 x2) := by
  unfold execExchangeWindowSet
  repeat' first
    | with_reducible first
      | assumption | intro _ | exact allows_trans (by decide) hP | (extract_lets +onlyGivenNames x; revert x; intro y)
      | apply KeptReply.made | (apply KeptReply.st; apply no_kept) | (apply KeptReply.st; apply ok_kept)
      | apply command_kept | apply log_kept | apply setFld_kept | split

theorem execSliceResetJobEnd_kept (x1 : State) (h1 : Kept P b x1) (hP : allows 7616942145 P = true) :
    KeptR P b (execSliceResetJobEnd x1) := by
  unfold execSliceResetJobEnd
  repeat' first
    | with_reducible first
      | assumption | exact allows_trans (by decide) hP | apply keptR_next | apply endJob_kept | apply setFld_kept
      | apply clearEnd_kept | split

end Sys2Proof.Machine
end

