-- ==== Sys2Proof/Laws/KeptYarrowMem.lean ====
section
/-! SUPPORT. What each operation of Machine/YarrowMem.lean keeps: see `Kept`. -/

namespace Sys2Proof.Machine

variable {P : Nat} {b : State}

theorem Iss_drain_kept (x1 : Iss) (x2 : State) (h2 : Kept P b x2) (hP : allows 6442795009 P = true) :
    Kept P b (Iss.drain x1 x2) := by
  unfold Iss.drain
  repeat' first
    | with_reducible first
      | assumption | apply sbDrainTo_kept

theorem poisonEnd_kept (x1 : State) (x2 : Nat) (x3 : Nat) (h1 : Kept P b x1) (hP : allows 7350348737 P = true) :
    Kept P b (State.poisonEnd x1 x2 x3) := by
  unfold State.poisonEnd
  repeat' first
    | with_reducible first
      | assumption | apply failLaunch_kept | split

theorem raiseCtr_kept (x1 : State) (x2 : Nat) (x3 : Nat) (h1 : Kept P b x1) (hP : allows 262144 P = true) :
    Kept P b (State.raiseCtr x1 x2 x3) := by
  unfold State.raiseCtr
  repeat' first
    | with_reducible first
      | assumption | apply modCtx_kept

theorem atomOne_kept (x1 : State) (x2 : Nat) (x3 : Loc) (x4 : Nat) (x5 : Nat) (h1 : Kept P b x1) (hP : allows 6442713088 P = true) :
    Kept P b (State.atomOne x1 x2 x3 x4 x5) := by
  unfold State.atomOne
  repeat' first
    | with_reducible first
      | assumption | intro _ | exact allows_trans (by decide) hP | (extract_lets +onlyGivenNames x; revert x; intro y)
      | apply modCtx_kept | apply writeThrough_kept | apply kept_foldl | split

theorem withAccess_kept (x1 : State) (x2 : Iss) (x3 : Bool) (x4 : Bool) (x5 : List (Nat × Loc) → State) (h1 : Kept P b x1) (h5 : ∀ y0, Kept P b (x5 y0)) (hP : allows 7350348737 P = true) :
    Kept P b (State.withAccess x1 x2 x3 x4 x5) := by
  unfold State.withAccess
  repeat' first
    | with_reducible first
      | assumption | intro _ | (extract_lets +onlyGivenNames x; revert x; intro y) | apply Iss_firstExc_kept | apply h5

theorem memIssue_kept (x1 : State) (x2 : Iss) (x3 : List (Nat × Loc)) (h1 : Kept P b x1) (hP : allows 33619969 P = true) :
    Kept P b (State.memIssue x1 x2 x3) := by
  unfold State.memIssue
  repeat' first
    | with_reducible first
      | assumption | intro _ | exact allows_trans (by decide) hP
      | (extract_lets +onlyGivenNames x; have : State := x; clear this; clear_value (ex : x = _); revert x; intro z ez; refine kept_sub (P := P) (s := b) ez ?_ (fun hz => ?_))
      | apply count_kept | apply touch_kept | apply kept_foldl | split

theorem cacheRead_kept (x1 : State) (x2 : Nat) (x3 : Nat) (x4 : Nat) (h1 : Kept P b x1) (hP : allows 33816576 P = true) :
    KeptL P b (State.cacheRead x1 x2 x3 x4) := by
  unfold State.cacheRead
  repeat' first
    | with_reducible first
      | assumption | exact allows_trans (by decide) hP | (extract_lets +onlyGivenNames x; revert x; intro y)
      | apply KeptL.pair | apply drawn_kept | apply modCluster_kept | split

theorem readLoc_kept (x1 : State) (x2 : Nat) (x3 : Loc) (x4 : Nat) (h1 : Kept P b x1) (hP : allows 33816576 P = true) :
    KeptL P b (State.readLoc x1 x2 x3 x4) := by
  unfold State.readLoc
  repeat' first
    | with_reducible first
      | assumption | apply KeptL.pair | (apply KeptL.snd; apply cacheRead_kept) | split

theorem capture_kept (x1 : State) (x2 : Nat) (x3 : PendLoad) (h1 : Kept P b x1) (hP : allows 33816576 P = true) :
    KeptN P b (State.capture x1 x2 x3) := by
  unfold State.capture
  repeat' first
    | with_reducible first
      | assumption | intro _ | (extract_lets +onlyGivenNames x; revert x; intro y) | apply KeptL.pair | apply KeptN.pair
      | (apply KeptL.snd; apply readLoc_kept) | (apply KeptN.snd; apply kept_foldl_N) | split
      | refine KeptL.of (by assumption) ?_ | (apply KeptN.snd; assumption)

theorem orderLoads_kept (x1 : State) (x2 : Iss) (x3 : List (Nat × Loc)) (h1 : Kept P b x1) (hP : allows 33816576 P = true) :
    Kept P b (State.orderLoads x1 x2 x3) := by
  unfold State.orderLoads
  repeat' first
    | with_reducible first
      | assumption | intro _ | exact allows_trans (by decide) hP
      | (extract_lets +onlyGivenNames x; have : _ × State := x; clear this; clear_value (ex : x = _); revert x; intro z ez; refine kept_subG (KeptL P b) ez ?_ (fun hz => ?_))
      | (extract_lets +onlyGivenNames x; have : _ × _ × State := x; clear this; clear_value (ex : x = _); revert x; intro z ez; refine kept_subG (KeptN P b) ez ?_ (fun hz => ?_))
      | (extract_lets +onlyGivenNames x; revert x; intro y) | apply KeptL.pair | apply KeptN.pair
      | (apply KeptN.snd; apply capture_kept) | apply modGroup_kept | (apply KeptL.snd; apply kept_foldl_L) | split
      | (apply KeptL.snd; assumption) | (apply KeptN.snd; assumption) | (dsimp only)

theorem atomic_kept (x1 : State) (x2 : Nat) (x3 : Nat) (x4 : Nat) (x5 : Bool) (x6 : Nat) (x7 : Bool) (x8 : Bool) (x9 : Nat → Nat → Nat → Nat → Nat) (h1 : Kept P b x1) (hP : allows 7350479809 P = true) :
    KeptR P b (State.atomic x1 x2 x3 x4 x5 x6 x7 x8 x9) := by
  unfold State.atomic
  repeat' first
    | with_reducible first
      | assumption | intro _ | exact allows_trans (by decide) hP
      | (extract_lets +onlyGivenNames x; have : State := x; clear this; clear_value (ex : x = _); revert x; intro z ez; refine kept_sub (P := P) (s := b) ez ?_ (fun hz => ?_))
      | (extract_lets +onlyGivenNames x; have : _ × State := x; clear this; clear_value (ex : x = _); revert x; intro z ez; refine kept_subG (KeptL P b) ez ?_ (fun hz => ?_))
      | (extract_lets +onlyGivenNames x; revert x; intro y) | apply KeptL.pair | apply issue_kept | apply withAccess_kept
      | apply poisonEnd_kept | apply memIssue_kept | apply orderLoads_kept | apply sbDrainTo_kept | apply count_kept
      | apply atomOne_kept | apply Iss_put_kept | (apply KeptL.snd; apply kept_foldl_L) | split
      | (apply KeptL.snd; assumption)

theorem copyMove_kept (x1 : State) (x2 : Nat) (x3 : Ctx) (x4 : Copy) (x5 : Nat) (h1 : Kept P b x1) (hP : allows 6442713088 P = true) :
    Kept P b (State.copyMove x1 x2 x3 x4 x5) := by
  unfold State.copyMove
  repeat' first
    | with_reducible first
      | assumption | intro _ | exact allows_trans (by decide) hP | apply writeThrough_kept | apply modCtx_kept
      | apply kept_foldl | split

theorem startLoad_kept (x1 : State) (x2 : Iss) (x3 : Bool) (x4 : List (Nat × Loc)) (h1 : Kept P b x1) (hP : allows 6476349441 P = true) :
    Kept P b (State.startLoad x1 x2 x3 x4) := by
  unfold State.startLoad
  repeat' first
    | with_reducible first
      | assumption | exact allows_trans (by decide) hP
      | (extract_lets +onlyGivenNames x; have : State := x; clear this; clear_value (ex : x = _); revert x; intro z ez; refine kept_sub (P := P) (s := b) ez ?_ (fun hz => ?_))
      | (extract_lets +onlyGivenNames x; revert x; intro y) | apply memIssue_kept | apply orderLoads_kept | apply count_kept
      | apply sbDrainTo_kept | apply Iss_put_kept | split

theorem loadInstr_kept (x1 : State) (x2 : Nat) (x3 : Nat) (x4 : Nat) (x5 : Bool) (x6 : Nat) (x7 : Bool) (h1 : Kept P b x1) (hP : allows 7350479809 P = true) :
    KeptR P b (State.loadInstr x1 x2 x3 x4 x5 x6 x7) := by
  unfold State.loadInstr
  repeat' first
    | with_reducible first
      | assumption | intro _ | exact allows_trans (by decide) hP | apply issue_kept | apply withAccess_kept
      | apply startLoad_kept

theorem sbPush_kept (x1 : State) (x2 : Nat) (x3 : Nat) (x4 : List SbEntry) (h1 : Kept P b x1) (hP : allows 6476349441 P = true) :
    Kept P b (State.sbPush x1 x2 x3 x4) := by
  unfold State.sbPush
  repeat' first
    | with_reducible first
      | assumption | exact allows_trans (by decide) hP
      | (extract_lets +onlyGivenNames x; have : State := x; clear this; clear_value (ex : x = _); revert x; intro z ez; refine kept_sub (P := P) (s := b) ez ?_ (fun hz => ?_))
      | (extract_lets +onlyGivenNames x; revert x; intro y) | apply drawn_kept | apply count_kept | apply sbDrain_kept
      | apply setSbuf_kept | split

theorem execStoreEntryRetire_kept (x1 : Nat) (x2 : Nat) (x3 : State) (h3 : Kept P b x3) (hP : allows 6442795009 P = true) :
    KeptR P b (execStoreEntryRetire x1 x2 x3) := by
  unfold execStoreEntryRetire
  repeat' first
    | with_reducible first
      | assumption | apply keptR_next | apply sbPop_kept | split

theorem execLoadDataReturn_kept (x1 : Nat) (x2 : Nat) (x3 : Nat) (x4 : Nat) (x5 : State) (h5 : Kept P b x5) (hP : allows 7350348737 P = true) :
    KeptR P b (execLoadDataReturn x1 x2 x3 x4 x5) := by
  unfold execLoadDataReturn
  repeat' first
    | with_reducible first
      | assumption | exact allows_trans (by decide) hP
      | (extract_lets +onlyGivenNames x; have : _ × _ × State := x; clear this; clear_value (ex : x = _); revert x; intro z ez; refine kept_subG (KeptN P b) ez ?_ (fun hz => ?_))
      | (extract_lets +onlyGivenNames x; revert x; intro y) | apply keptR_next | apply KeptN.pair
      | (apply KeptN.snd; apply capture_kept) | apply modGroup_kept | apply poisonEnd_kept | split
      | (apply KeptN.snd; assumption)

theorem execAcopyComplete_kept (x1 : Nat) (x2 : Nat) (x3 : Nat) (x4 : State) (h4 : Kept P b x4) (hP : allows 7350348737 P = true) :
    KeptR P b (execAcopyComplete x1 x2 x3 x4) := by
  unfold execAcopyComplete
  repeat' first
    | with_reducible first
      | assumption | exact allows_trans (by decide) hP
      | (extract_lets +onlyGivenNames x; have : State := x; clear this; clear_value (ex : x = _); revert x; intro z ez; refine kept_sub (P := P) (s := b) ez ?_ (fun hz => ?_))
      | (extract_lets +onlyGivenNames x; revert x; intro y) | apply keptR_next | apply poisonEnd_kept | apply copyMove_kept
      | apply touch_kept | apply raiseCtr_kept | apply modCtx_kept | split

theorem execAsyncAddress_kept (x1 : Nat) (x2 : Nat) (x3 : Nat) (x4 : State) (h4 : Kept P b x4) (hP : allows 7350348737 P = true) :
    KeptR P b (execAsyncAddress x1 x2 x3 x4) := by
  unfold execAsyncAddress
  repeat' first
    | with_reducible first
      | assumption | exact allows_trans (by decide) hP | (extract_lets +onlyGivenNames x; revert x; intro y)
      | apply keptR_next | apply failLaunch_kept | apply copyMove_kept | split

theorem execLd_kept (x1 : Nat) (x2 : Nat) (x3 : Nat) (x4 : Bool) (x5 : State) (h5 : Kept P b x5) (hP : allows 7350479809 P = true) :
    KeptR P b (execLd x1 x2 x3 x4 x5) := by
  unfold execLd
  repeat' first
    | with_reducible first
      | assumption | apply loadInstr_kept

theorem execLds_kept (x1 : Nat) (x2 : Nat) (x3 : Nat) (x4 : Bool) (x5 : State) (h5 : Kept P b x5) (hP : allows 7350479809 P = true) :
    KeptR P b (execLds x1 x2 x3 x4 x5) := by
  unfold execLds
  repeat' first
    | with_reducible first
      | assumption | apply loadInstr_kept

theorem execSt_kept (x1 : Nat) (x2 : Nat) (x3 : Nat) (x4 : Bool) (x5 : State) (h5 : Kept P b x5) (hP : allows 7350479809 P = true) :
    KeptR P b (execSt x1 x2 x3 x4 x5) := by
  unfold execSt
  repeat' first
    | with_reducible first
      | assumption | intro _ | exact allows_trans (by decide) hP
      | (extract_lets +onlyGivenNames x; have : State := x; clear this; clear_value (ex : x = _); revert x; intro z ez; refine kept_sub (P := P) (s := b) ez ?_ (fun hz => ?_))
      | (extract_lets +onlyGivenNames x; revert x; intro y) | apply issue_kept | apply withAccess_kept
      | apply poisonEnd_kept | apply memIssue_kept | apply orderLoads_kept | apply Iss_put_kept | apply sbPush_kept
      | apply drawn_kept | split

theorem execLdc_kept (x1 : Nat) (x2 : Nat) (x3 : Nat) (x4 : Bool) (x5 : State) (h5 : Kept P b x5) (hP : allows 7350479809 P = true) :
    KeptR P b (execLdc x1 x2 x3 x4 x5) := by
  unfold execLdc
  repeat' first
    | with_reducible first
      | assumption | intro _ | exact allows_trans (by decide) hP | (extract_lets +onlyGivenNames x; revert x; intro y)
      | apply issue_kept | apply Iss_firstExc_kept | apply Iss_put_kept

theorem execAtomAdd_kept (x1 : Nat) (x2 : Nat) (x3 : Nat) (x4 : Bool) (x5 : State) (h5 : Kept P b x5) (hP : allows 7350479809 P = true) :
    KeptR P b (execAtomAdd x1 x2 x3 x4 x5) := by
  unfold execAtomAdd
  repeat' first
    | with_reducible first
      | assumption | apply atomic_kept

theorem execAtomSmin_kept (x1 : Nat) (x2 : Nat) (x3 : Nat) (x4 : Bool) (x5 : State) (h5 : Kept P b x5) (hP : allows 7350479809 P = true) :
    KeptR P b (execAtomSmin x1 x2 x3 x4 x5) := by
  unfold execAtomSmin
  repeat' first
    | with_reducible first
      | assumption | apply atomic_kept

theorem execAtomSmax_kept (x1 : Nat) (x2 : Nat) (x3 : Nat) (x4 : Bool) (x5 : State) (h5 : Kept P b x5) (hP : allows 7350479809 P = true) :
    KeptR P b (execAtomSmax x1 x2 x3 x4 x5) := by
  unfold execAtomSmax
  repeat' first
    | with_reducible first
      | assumption | apply atomic_kept

theorem execAtomUmin_kept (x1 : Nat) (x2 : Nat) (x3 : Nat) (x4 : Bool) (x5 : State) (h5 : Kept P b x5) (hP : allows 7350479809 P = true) :
    KeptR P b (execAtomUmin x1 x2 x3 x4 x5) := by
  unfold execAtomUmin
  repeat' first
    | with_reducible first
      | assumption | apply atomic_kept

theorem execAtomUmax_kept (x1 : Nat) (x2 : Nat) (x3 : Nat) (x4 : Bool) (x5 : State) (h5 : Kept P b x5) (hP : allows 7350479809 P = true) :
    KeptR P b (execAtomUmax x1 x2 x3 x4 x5) := by
  unfold execAtomUmax
  repeat' first
    | with_reducible first
      | assumption | apply atomic_kept

theorem execAtomAnd_kept (x1 : Nat) (x2 : Nat) (x3 : Nat) (x4 : Bool) (x5 : State) (h5 : Kept P b x5) (hP : allows 7350479809 P = true) :
    KeptR P b (execAtomAnd x1 x2 x3 x4 x5) := by
  unfold execAtomAnd
  repeat' first
    | with_reducible first
      | assumption | apply atomic_kept

theorem execAtomOr_kept (x1 : Nat) (x2 : Nat) (x3 : Nat) (x4 : Bool) (x5 : State) (h5 : Kept P b x5) (hP : allows 7350479809 P = true) :
    KeptR P b (execAtomOr x1 x2 x3 x4 x5) := by
  unfold execAtomOr
  repeat' first
    | with_reducible first
      | assumption | apply atomic_kept

theorem execAtomXor_kept (x1 : Nat) (x2 : Nat) (x3 : Nat) (x4 : Bool) (x5 : State) (h5 : Kept P b x5) (hP : allows 7350479809 P = true) :
    KeptR P b (execAtomXor x1 x2 x3 x4 x5) := by
  unfold execAtomXor
  repeat' first
    | with_reducible first
      | assumption | apply atomic_kept

theorem execAtomExch_kept (x1 : Nat) (x2 : Nat) (x3 : Nat) (x4 : Bool) (x5 : State) (h5 : Kept P b x5) (hP : allows 7350479809 P = true) :
    KeptR P b (execAtomExch x1 x2 x3 x4 x5) := by
  unfold execAtomExch
  repeat' first
    | with_reducible first
      | assumption | apply atomic_kept

theorem execAtomCas_kept (x1 : Nat) (x2 : Nat) (x3 : Nat) (x4 : Bool) (x5 : State) (h5 : Kept P b x5) (hP : allows 7350479809 P = true) :
    KeptR P b (execAtomCas x1 x2 x3 x4 x5) := by
  unfold execAtomCas
  repeat' first
    | with_reducible first
      | assumption | apply atomic_kept

theorem execAtomFadd_kept (x1 : Nat) (x2 : Nat) (x3 : Nat) (x4 : Bool) (x5 : State) (h5 : Kept P b x5) (hP : allows 7350479809 P = true) :
    KeptR P b (execAtomFadd x1 x2 x3 x4 x5) := by
  unfold execAtomFadd
  repeat' first
    | with_reducible first
      | assumption | apply atomic_kept

theorem execAcopy_kept (x1 : Nat) (x2 : Nat) (x3 : Nat) (x4 : Bool) (x5 : State) (h5 : Kept P b x5) (hP : allows 7350479809 P = true) :
    KeptR P b (execAcopy x1 x2 x3 x4 x5) := by
  unfold execAcopy
  repeat' first
    | with_reducible first
      | assumption | intro _ | exact allows_trans (by decide) hP | (extract_lets +onlyGivenNames x; revert x; intro y)
      | apply issue_kept | apply Iss_put_kept | apply Iss_firstExc_kept | apply modCtx_kept | split

theorem execArrive_kept (x1 : Nat) (x2 : Nat) (x3 : Nat) (x4 : Bool) (x5 : State) (h5 : Kept P b x5) (hP : allows 7350479809 P = true) :
    KeptR P b (execArrive x1 x2 x3 x4 x5) := by
  unfold execArrive
  repeat' first
    | with_reducible first
      | assumption | intro _ | exact allows_trans (by decide) hP | apply issue_kept | apply raiseCtr_kept
      | apply Iss_drain_kept | apply Iss_put_kept | split

theorem execWait_kept (x1 : Nat) (x2 : Nat) (x3 : Nat) (x4 : Bool) (x5 : State) (h5 : Kept P b x5) (hP : allows 7350479809 P = true) :
    KeptR P b (execWait x1 x2 x3 x4 x5) := by
  unfold execWait
  repeat' first
    | with_reducible first
      | assumption | intro _ | exact allows_trans (by decide) hP | apply issue_kept | apply Iss_put_kept

theorem execWaitu_kept (x1 : Nat) (x2 : Nat) (x3 : Nat) (x4 : Bool) (x5 : State) (h5 : Kept P b x5) (hP : allows 7350479809 P = true) :
    KeptR P b (execWaitu x1 x2 x3 x4 x5) := by
  unfold execWaitu
  repeat' first
    | with_reducible first
      | assumption | intro _ | exact allows_trans (by decide) hP | apply issue_kept | apply Iss_put_kept

theorem execCtrread_kept (x1 : Nat) (x2 : Nat) (x3 : Nat) (x4 : Bool) (x5 : State) (h5 : Kept P b x5) (hP : allows 7350479809 P = true) :
    KeptR P b (execCtrread x1 x2 x3 x4 x5) := by
  unfold execCtrread
  repeat' first
    | with_reducible first
      | assumption | intro _ | exact allows_trans (by decide) hP | apply issue_kept | apply Iss_put_kept

theorem execFence_kept (x1 : Nat) (x2 : Nat) (x3 : Nat) (x4 : Bool) (x5 : State) (h5 : Kept P b x5) (hP : allows 7350479809 P = true) :
    KeptR P b (execFence x1 x2 x3 x4 x5) := by
  unfold execFence
  repeat' first
    | with_reducible first
      | assumption | intro _ | exact allows_trans (by decide) hP
      | (extract_lets +onlyGivenNames x; have : State := x; clear this; clear_value (ex : x = _); revert x; intro z ez; refine kept_sub (P := P) (s := b) ez ?_ (fun hz => ?_))
      | apply issue_kept | apply Iss_put_kept | apply Iss_drain_kept | apply dropCache_kept | split

end Sys2Proof.Machine
end

