-- ==== Sys2Proof/Laws/KeptMatrix.lean ====
section
/-! SUPPORT. What each operation of Machine/Matrix.lean keeps: see `Kept`. -/

namespace Sys2Proof.Machine

variable {P : Nat} {b : State}

theorem moveCtx_kept (x1 : State) (x2 : Nat) (x3 : Nat) (h1 : Kept P b x1) (hP : allows 262144 P = true) :
    Kept P b (State.moveCtx x1 x2 x3) := by
  unfold State.moveCtx
  repeat' first
    | with_reducible first
      | assumption | (extract_lets +onlyGivenNames x; revert x; intro y) | apply setCtx_kept | split

theorem setPtile_kept (x1 : State) (x2 : Nat) (x3 : Nat) (x4 : Option PTile) (h1 : Kept P b x1) (hP : allows 262144 P = true) :
    Kept P b (State.setPtile x1 x2 x3 x4) := by
  unfold State.setPtile
  repeat' first
    | with_reducible first
      | assumption | apply modUnit_kept

theorem parkTile_kept (x1 : State) (x2 : Nat) (x3 : Nat) (h1 : Kept P b x1) (hP : allows 262145 P = true) :
    Kept P b (State.parkTile x1 x2 x3) := by
  unfold State.parkTile
  repeat' first
    | with_reducible first
      | assumption | exact allows_trans (by decide) hP
      | (extract_lets +onlyGivenNames x; have : State := x; clear this; clear_value (ex : x = _); revert x; intro z ez; refine kept_sub (P := P) (s := b) ez ?_ (fun hz => ?_))
      | (extract_lets +onlyGivenNames x; revert x; intro y) | apply setCtx_kept | apply count_kept | apply setPtile_kept
      | split

theorem switchOut_kept (x1 : State) (x2 : Nat) (h1 : Kept P b x1) (hP : allows 6442795009 P = true) :
    Kept P b (State.switchOut x1 x2) := by
  unfold State.switchOut
  repeat' first
    | with_reducible first
      | assumption | intro _ | exact allows_trans (by decide) hP
      | (extract_lets +onlyGivenNames x; have : State := x; clear this; clear_value (ex : x = _); revert x; intro z ez; refine kept_sub (P := P) (s := b) ez ?_ (fun hz => ?_))
      | (extract_lets +onlyGivenNames x; revert x; intro y) | apply sbDrainCtx_kept | apply modUnit_kept
      | apply parkTile_kept | apply modCtx_kept | apply kept_foldl

theorem setLtile_kept (x1 : State) (x2 : Nat) (x3 : Nat) (x4 : LTile) (h1 : Kept P b x1) (hP : allows 262144 P = true) :
    Kept P b (State.setLtile x1 x2 x3 x4) := by
  unfold State.setLtile
  repeat' first
    | with_reducible first
      | assumption | apply modCtx_kept

theorem freeTile_kept (x1 : State) (x2 : Nat) (h1 : Kept P b x1) (hP : allows 262145 P = true) :
    KeptP P b (State.freeTile x1 x2) := by
  unfold State.freeTile
  repeat' first
    | with_reducible first
      | assumption | intro _ | apply KeptL.pair | apply KeptP.map | apply KeptP.some | apply parkTile_kept | split

theorem bind_kept (x1 : State) (x2 : Nat) (x3 : MatOp) (x4 : Bool) (h1 : Kept P b x1) (hP : allows 33816577 P = true) :
    KeptB P b (State.bind x1 x2 x3 x4) := by
  unfold State.bind
  repeat' first
    | with_reducible first
      | assumption | exact allows_trans (by decide) hP | (extract_lets +onlyGivenNames x; revert x; intro y)
      | apply KeptB.ok | apply KeptB.wait | apply KeptB.bad | apply setLtile_kept | apply setPtile_kept
      | apply freeTile_kept | apply count_kept | apply drawn_kept | split | refine KeptP.of (by assumption) ?_

theorem ran_kept (x1 : State) (x2 : Nat) (x3 : MatOp) (x4 : Nat) (h1 : Kept P b x1) (hP : allows 262144 P = true) :
    Kept P b (State.ran x1 x2 x3 x4) := by
  unfold State.ran
  repeat' first
    | with_reducible first
      | assumption | apply modUnit_kept

theorem execMmaOperation_kept (x1 : Nat) (x2 : State) (h2 : Kept P b x2) (hP : allows 7350348737 P = true) :
    KeptR P b (execMmaOperation x1 x2) := by
  unfold execMmaOperation
  repeat' first
    | with_reducible first
      | assumption | exact allows_trans (by decide) hP | (extract_lets +onlyGivenNames x; revert x; intro y)
      | apply keptR_next | apply bind_kept | apply poisonEnd_kept | apply ran_kept | apply setPtile_kept | split
      | refine KeptB.of (by assumption) ?_

theorem execLoad_kept (x1 : Nat) (x2 : State) (h2 : Kept P b x2) (hP : allows 7350348737 P = true) :
    KeptR P b (execLoad x1 x2) := by
  unfold execLoad
  repeat' first
    | with_reducible first
      | assumption | exact allows_trans (by decide) hP | apply keptR_next | apply bind_kept | apply poisonEnd_kept
      | apply ran_kept | apply setPtile_kept | split | refine KeptB.of (by assumption) ?_

theorem storeRow_kept (x1 : State) (x2 : MatOp) (x3 : Nat) (x4 : Nat) (x5 : List Byte) (h1 : Kept P b x1) (hP : allows 6442778624 P = true) :
    Kept P b (State.storeRow x1 x2 x3 x4 x5) := by
  unfold State.storeRow
  repeat' first
    | with_reducible first
      | assumption | intro _ | exact allows_trans (by decide) hP | apply modCtx_kept | apply setPoison_kept
      | apply writeThrough_kept | apply kept_foldl | split

theorem execStore_kept (x1 : Nat) (x2 : State) (h2 : Kept P b x2) (hP : allows 7350348737 P = true) :
    KeptR P b (execStore x1 x2) := by
  unfold execStore
  repeat' first
    | with_reducible first
      | assumption | intro _ | exact allows_trans (by decide) hP | (extract_lets +onlyGivenNames x; revert x; intro y)
      | apply keptR_next | apply ran_kept | apply storeRow_kept | apply bind_kept | apply poisonEnd_kept | apply kept_foldl
      | split | refine KeptB.of (by assumption) ?_

theorem killTile_kept (x1 : State) (x2 : Nat) (x3 : Nat) (x4 : Nat) (h1 : Kept P b x1) (hP : allows 262144 P = true) :
    Kept P b (State.killTile x1 x2 x3 x4) := by
  unfold State.killTile
  repeat' first
    | with_reducible first
      | assumption | intro _
      | (extract_lets +onlyGivenNames x; have : State := x; clear this; clear_value (ex : x = _); revert x; intro z ez; refine kept_sub (P := P) (s := b) ez ?_ (fun hz => ?_))
      | apply setPtile_kept | apply setLtile_kept | apply kept_foldl | split

theorem execRelease_kept (x1 : Nat) (x2 : State) (h2 : Kept P b x2) (hP : allows 262144 P = true) :
    KeptR P b (execRelease x1 x2) := by
  unfold execRelease
  repeat' first
    | with_reducible first
      | assumption | apply keptR_next | apply ran_kept | apply killTile_kept | split

theorem execMatrixOpComplete_kept (x1 : Nat) (x2 : State) (h2 : Kept P b x2) (hP : allows 262145 P = true) :
    KeptR P b (execMatrixOpComplete x1 x2) := by
  unfold execMatrixOpComplete
  repeat' first
    | with_reducible first
      | assumption | exact allows_trans (by decide) hP
      | (extract_lets +onlyGivenNames x; have : State := x; clear this; clear_value (ex : x = _); revert x; intro z ez; refine kept_sub (P := P) (s := b) ez ?_ (fun hz => ?_))
      | (extract_lets +onlyGivenNames x; revert x; intro y) | apply keptR_next | apply modUnit_kept | apply killTile_kept
      | apply count_kept | apply modGroup_kept | apply raiseCtr_kept | split

theorem moveParked_kept (x1 : State) (x2 : Nat) (h1 : Kept P b x1) (hP : allows 262144 P = true) :
    Kept P b (State.moveParked x1 x2) := by
  unfold State.moveParked
  repeat' first
    | with_reducible first
      | assumption | intro _ | apply moveCtx_kept | apply kept_foldl | split

theorem switchIn_kept (x1 : State) (x2 : Nat) (h1 : Kept P b x1) (hP : allows 262145 P = true) :
    Kept P b (State.switchIn x1 x2) := by
  unfold State.switchIn
  repeat' first
    | with_reducible first
      | assumption | intro _ | exact allows_trans (by decide) hP
      | (extract_lets +onlyGivenNames x; have : State := x; clear this; clear_value (ex : x = _); revert x; intro z ez; refine kept_sub (P := P) (s := b) ez ?_ (fun hz => ?_))
      | (extract_lets +onlyGivenNames x; revert x; intro y) | apply freeTile_kept | apply count_kept | apply setLtile_kept
      | apply setPtile_kept | apply modUnit_kept | apply modCtx_kept | apply kept_foldl | split
      | refine KeptP.of (by assumption) ?_ | (dsimp +zetaDelta -proj only)

theorem switched_kept (x1 : State) (x2 : List Nat) (x3 : Nat) (h1 : Kept P b x1) (hP : allows 131073 P = true) :
    Kept P b (State.switched x1 x2 x3) := by
  unfold State.switched
  repeat' first
    | with_reducible first
      | assumption | intro _ | exact allows_trans (by decide) hP
      | (extract_lets +onlyGivenNames x; have : State := x; clear this; clear_value (ex : x = _); revert x; intro z ez; refine kept_sub (P := P) (s := b) ez ?_ (fun hz => ?_))
      | (extract_lets +onlyGivenNames x; revert x; intro y) | apply setFld_kept | apply bump_kept | apply modAcct_kept
      | apply kept_foldl | split

theorem execContextSwitch_kept (x1 : Nat) (x2 : Nat) (x3 : Nat) (x4 : State) (h4 : Kept P b x4) (hP : allows 6442926081 P = true) :
    KeptR P b (execContextSwitch x1 x2 x3 x4) := by
  unfold execContextSwitch
  repeat' first
    | with_reducible first
      | assumption | intro _ | exact allows_trans (by decide) hP
      | (extract_lets +onlyGivenNames x; have : State := x; clear this; clear_value (ex : x = _); revert x; intro z ez; refine kept_sub (P := P) (s := b) ez ?_ (fun hz => ?_))
      | apply keptR_next | apply modCluster_kept | apply setFld_kept | apply moveParked_kept | apply switchOut_kept
      | apply switched_kept | apply switchIn_kept | apply kept_foldl | split

theorem execMma_kept (x1 : Nat) (x2 : Nat) (x3 : Nat) (x4 : Bool) (x5 : State) (h5 : Kept P b x5) (hP : allows 7350479809 P = true) :
    KeptR P b (execMma x1 x2 x3 x4 x5) := by
  unfold execMma
  repeat' first
    | with_reducible first
      | assumption | intro _ | exact allows_trans (by decide) hP
      | (extract_lets +onlyGivenNames x; have : State := x; clear this; clear_value (ex : x = _); revert x; intro z ez; refine kept_sub (P := P) (s := b) ez ?_ (fun hz => ?_))
      | (extract_lets +onlyGivenNames x; revert x; intro y) | apply issue_kept | apply Iss_put_kept
      | apply Iss_firstExc_kept | apply modUnit_kept | split | apply Kept.set_yar

theorem execOperationStage_kept (x1 : Nat) (x2 : State) (h2 : Kept P b x2) (hP : allows 7350348737 P = true) :
    KeptR P b (execOperationStage x1 x2) := by
  unfold execOperationStage
  repeat' first
    | with_reducible first
      | assumption | exact allows_trans (by decide) hP
      | (extract_lets +onlyGivenNames x; have : State := x; clear this; clear_value (ex : x = _); revert x; intro z ez; refine kept_sub (P := P) (s := b) ez ?_ (fun hz => ?_))
      | (extract_lets +onlyGivenNames x; revert x; intro y) | apply keptR_next | apply setReg_kept | apply failLaunch_kept
      | apply poisonEnd_kept | apply modUnit_kept | split

end Sys2Proof.Machine
end

