-- ==== Sys2Proof/Laws/KeptReshape.lean ====
section
/-! SUPPORT. What each operation of Machine/Reshape.lean keeps: see `Kept`. -/

namespace Sys2Proof.Machine

variable {P : Nat} {b : State}

theorem reshaped_kept (x1 : State) (x2 : Nat) (h1 : Kept P b x1) (hP : allows 1 P = true) :
    Kept P b (State.reshaped x1 x2) := by
  unfold State.reshaped
  repeat' first
    | with_reducible first
      | assumption | apply bump_kept | apply setPair_kept

theorem setLayout_kept (x1 : State) (x2 : Nat) (x3 : Layout) (h1 : Kept P b x1) (hP : allows 1 P = true) :
    Kept P b (State.setLayout x1 x2 x3) := by
  unfold State.setLayout
  repeat' first
    | with_reducible first
      | assumption
      | (extract_lets +onlyGivenNames x; have : State := x; clear this; clear_value (ex : x = _); revert x; intro z ez; refine kept_sub (P := P) (s := b) ez ?_ (fun hz => ?_))
      | apply setPair_kept | apply setFld_kept

theorem applyCreate_kept (x1 : State) (x2 : Nat) (x3 : Layout) (x4 : Nat) (h1 : Kept P b x1) (hP : allows 67125313 P = true) :
    Kept P b (State.applyCreate x1 x2 x3 x4) := by
  unfold State.applyCreate
  repeat' first
    | with_reducible first
      | assumption | exact allows_trans (by decide) hP
      | (extract_lets +onlyGivenNames x; have : State := x; clear this; clear_value (ex : x = _); revert x; intro z ez; refine kept_sub (P := P) (s := b) ez ?_ (fun hz => ?_))
      | (extract_lets +onlyGivenNames x; revert x; intro y) | apply modSlice_kept | apply setSlice_kept
      | apply reshaped_kept | apply setReg_kept | apply setLayout_kept

theorem depart_kept (x1 : State) (x2 : Nat) (x3 : Nat) (h1 : Kept P b x1) (hP : allows 6442795009 P = true) :
    Kept P b (State.depart x1 x2 x3) := by
  unfold State.depart
  repeat' first
    | with_reducible first
      | assumption | exact allows_trans (by decide) hP | apply modCluster_kept | apply modCtx_kept | apply moveCtx_kept
      | apply switchOut_kept | split

theorem after_kept (r : Res) (s : State) (hs : Kept P b s) (hr : KeptR P b r) : Kept P b (after r s) := by
  obtain ⟨t, rfl, ht⟩ := hr
  exact ht

theorem finishUnit_kept (x1 : State) (x2 : Nat) (h1 : Kept P b x1) (hP : allows 7350348737 P = true) :
    Kept P b (State.finishUnit x1 x2) := by
  unfold State.finishUnit
  simp only [List.foldl_cons, List.foldl_nil]
  repeat' first
    | with_reducible first
      | assumption | exact allows_trans (by decide) hP | apply after_kept | apply execMmaOperation_kept
      | apply execLoad_kept | apply execStore_kept | apply execRelease_kept | apply execMatrixOpComplete_kept

theorem finishOps_kept (x1 : State) (x2 : Nat) (x3 : Nat) (h1 : Kept P b x1) (hP : allows 7350348737 P = true) :
    Kept P b (State.finishOps x1 x2 x3) := by
  unfold State.finishOps
  repeat' first
    | with_reducible first
      | assumption | intro _ | apply finishUnit_kept | apply kept_foldl | split

theorem migrate_kept (x1 : State) (x2 : Nat) (x3 : Nat) (x4 : List Nat) (h1 : Kept P b x1) (hP : allows 7350348737 P = true) :
    KeptF P b (State.migrate x1 x2 x3 x4) := by
  unfold State.migrate
  repeat' first
    | with_reducible first
      | assumption | intro _ | exact allows_trans (by decide) hP | apply KeptF.pair | apply depart_kept
      | apply finishOps_kept | (apply KeptF.fst; apply kept_foldl_F) | split | (apply KeptF.fst; assumption)

theorem setDrain_kept (x1 : State) (x2 : Nat) (x3 : Nat) (h1 : Kept P b x1) (hP : allows 1 P = true) :
    Kept P b (State.setDrain x1 x2 x3) := by
  unfold State.setDrain
  repeat' first
    | with_reducible first
      | assumption | apply setPair_kept

theorem reshape_kept (x1 : State) (x2 : Nat) (x3 : Layout) (x4 : Nat) (x5 : Nat) (h1 : Kept P b x1) (hP : allows 7350348737 P = true) :
    Kept P b (State.reshape x1 x2 x3 x4 x5) := by
  unfold State.reshape
  repeat' first
    | with_reducible first
      | assumption | intro _ | exact allows_trans (by decide) hP
      | (extract_lets +onlyGivenNames x; have : State × _ := x; clear this; clear_value (ex : x = _); revert x; intro z ez; refine kept_subG (KeptF P b) ez ?_ (fun hz => ?_))
      | (extract_lets +onlyGivenNames x; revert x; intro y) | apply KeptF.pair | (apply KeptF.fst; apply migrate_kept)
      | apply setDrain_kept | apply setLayout_kept | apply reshaped_kept | apply modSlice_kept | apply setFld_kept
      | apply placeAll_kept | apply vfEvent_kept | (apply KeptF.fst; apply kept_foldl_F) | split
      | (apply KeptF.fst; assumption) | apply Kept.memMem | (dsimp only) | (dsimp +zetaDelta -proj only)
    | (exact fwf_fclear _ _ _ _ (by assumption))

theorem applyResize_kept (x1 : State) (x2 : Change) (x3 : Nat) (h1 : Kept P b x1) (hP : allows 7350348737 P = true) :
    Kept P b (State.applyResize x1 x2 x3) := by
  unfold State.applyResize
  repeat' first
    | with_reducible first
      | assumption | exact allows_trans (by decide) hP
      | (extract_lets +onlyGivenNames x; have : State := x; clear this; clear_value (ex : x = _); revert x; intro z ez; refine kept_sub (P := P) (s := b) ez ?_ (fun hz => ?_))
      | apply reshape_kept | apply setSlice_kept | apply modSlice_kept | split

theorem applyDestroy_kept (x1 : State) (x2 : Nat) (h1 : Kept P b x1) (hP : allows 7625203777 P = true) :
    Kept P b (State.applyDestroy x1 x2) := by
  unfold State.applyDestroy
  repeat' first
    | with_reducible first
      | assumption | intro _ | exact allows_trans (by decide) hP
      | (extract_lets +onlyGivenNames x; have : State := x; clear this; clear_value (ex : x = _); revert x; intro z ez; refine kept_sub (P := P) (s := b) ez ?_ (fun hz => ?_))
      | (extract_lets +onlyGivenNames x; revert x; intro y) | apply queuesStop_kept | apply stopDies_kept
      | apply stopSlice_kept | apply setFld_kept | apply clearVfExchange_kept | apply clearSliceMem_kept
      | apply resetRegs_kept | apply setSlice_kept | apply modSlice_kept | apply kept_foldl | split | apply Kept.set_sch

theorem applyChange_kept (x1 : State) (x2 : Nat) (x3 : Change) (h1 : Kept P b x1) (hP : allows 8430513089 P = true) :
    Kept P b (State.applyChange x1 x2 x3) := by
  unfold State.applyChange
  repeat' first
    | with_reducible first
      | assumption | exact allows_trans (by decide) hP | apply applyCreate_kept | apply applyResize_kept
      | apply applyDestroy_kept | split

theorem execPendingLayoutApply_kept (x1 : Nat) (x2 : State) (h2 : Kept P b x2) (hP : allows 8430517185 P = true) :
    KeptR P b (execPendingLayoutApply x1 x2) := by
  unfold execPendingLayoutApply
  repeat' first
    | with_reducible first
      | assumption | intro _ | exact allows_trans (by decide) hP
      | (extract_lets +onlyGivenNames x; have : State := x; clear this; clear_value (ex : x = _); revert x; intro z ez; refine kept_sub (P := P) (s := b) ez ?_ (fun hz => ?_))
      | (extract_lets +onlyGivenNames x; revert x; intro y) | apply keptR_next | apply applyChange_kept | apply kept_foldl
      | split | apply Kept.set_eng

theorem execDrainClusterPass_kept (x1 : State) (h1 : Kept P b x1) (hP : allows 67371073 P = true) :
    KeptR P b (execDrainClusterPass x1) := by
  unfold execDrainClusterPass
  repeat' first
    | with_reducible first
      | assumption | intro _ | exact allows_trans (by decide) hP
      | (extract_lets +onlyGivenNames x; have : State := x; clear this; clear_value (ex : x = _); revert x; intro z ez; refine kept_sub (P := P) (s := b) ez ?_ (fun hz => ?_))
      | (extract_lets +onlyGivenNames x; revert x; intro y) | apply keptR_next | apply vfEvent_kept | apply setDrain_kept
      | apply placeAll_kept | apply kept_foldl | split

end Sys2Proof.Machine
end

