-- ==== Sys2Proof/Laws/KeptSlowdown.lean ====
section
/-! SUPPORT. What each operation of Machine/Slowdown.lean keeps: see `Kept`. -/

namespace Sys2Proof.Machine

variable {P : Nat} {b : State}

theorem acceptReslice_kept (x1 : State) (x2 : Nat) (x3 : Layout) (x4 : Nat) (h1 : Kept P b x1) (hP : allows 67113025 P = true) :
    Kept P b (State.acceptReslice x1 x2 x3 x4) := by
  unfold State.acceptReslice
  repeat' first
    | with_reducible first
      | assumption | exact allows_trans (by decide) hP | apply accept_kept | apply setSlice_kept

theorem charge1_kept (x1 : State) (x2 : Nat) (x3 : Nat) (x4 : SliceUse) (h1 : Kept P b x1) (hP : allows 131072 P = true) :
    Kept P b (State.charge1 x1 x2 x3 x4) := by
  unfold State.charge1
  repeat' first
    | with_reducible first
      | assumption | apply modAcct_kept

theorem chargeTick_kept (x1 : State) (x2 : List SliceUse) (x3 : Nat) (x4 : Nat) (x5 : Nat) (h1 : Kept P b x1) (hP : allows 131072 P = true) :
    Kept P b (State.chargeTick x1 x2 x3 x4 x5) := by
  unfold State.chargeTick
  repeat' first
    | with_reducible first
      | assumption | intro _
      | (extract_lets +onlyGivenNames x; have : State := x; clear this; clear_value (ex : x = _); revert x; intro z ez; refine kept_sub (P := P) (s := b) ez ?_ (fun hz => ?_))
      | (extract_lets +onlyGivenNames x; revert x; intro y) | apply charge1_kept | apply modAcct_kept | apply kept_foldl

theorem acctSample_kept (x1 : State) (h1 : Kept P b x1) (hP : allows 131072 P = true) :
    Kept P b (State.acctSample x1) := by
  unfold State.acctSample
  repeat' first
    | with_reducible first
      | assumption | (extract_lets +onlyGivenNames x; revert x; intro y) | split | apply Kept.set_sch

theorem autoReslice_kept (x1 : State) (x2 : Nat) (h1 : Kept P b x1) (hP : allows 67113025 P = true) :
    KeptF P b (State.autoReslice x1 x2) := by
  unfold State.autoReslice
  repeat' first
    | with_reducible first
      | assumption | exact allows_trans (by decide) hP
      | (extract_lets +onlyGivenNames x; have : State := x; clear this; clear_value (ex : x = _); revert x; intro z ez; refine kept_sub (P := P) (s := b) ez ?_ (fun hz => ?_))
      | (extract_lets +onlyGivenNames x; revert x; intro y) | apply KeptF.pair | apply acceptReslice_kept | apply bump_kept
      | split

theorem slowdownEvent_kept (x1 : State) (x2 : Nat) (h1 : Kept P b x1) (hP : allows 67244097 P = true) :
    Kept P b (State.slowdownEvent x1 x2) := by
  unfold State.slowdownEvent
  repeat' first
    | with_reducible first
      | assumption | exact allows_trans (by decide) hP | (extract_lets +onlyGivenNames x; revert x; intro y)
      | apply KeptF.pair | (apply KeptF.fst; apply autoReslice_kept) | split | refine KeptF.of (by assumption) ?_
      | apply Kept.set_sch

theorem slowdown1_kept (x1 : State) (x2 : Nat) (x3 : SliceUse) (h1 : Kept P b x1) (hP : allows 67244097 P = true) :
    Kept P b (State.slowdown1 x1 x2 x3) := by
  unfold State.slowdown1
  repeat' first
    | with_reducible first
      | assumption | exact allows_trans (by decide) hP
      | (extract_lets +onlyGivenNames x; have : State := x; clear this; clear_value (ex : x = _); revert x; intro z ez; refine kept_sub (P := P) (s := b) ez ?_ (fun hz => ?_))
      | (extract_lets +onlyGivenNames x; revert x; intro y) | apply setFld_kept | apply modAcct_kept
      | apply slowdownEvent_kept | split | apply Kept.set_sch

theorem accountTick_kept (x1 : State) (x2 : List SliceUse) (x3 : Nat) (x4 : Nat) (x5 : Nat) (h1 : Kept P b x1) (hP : allows 67244097 P = true) :
    Kept P b (State.accountTick x1 x2 x3 x4 x5) := by
  unfold State.accountTick
  repeat' first
    | with_reducible first
      | assumption | intro _ | exact allows_trans (by decide) hP
      | (extract_lets +onlyGivenNames x; have : State := x; clear this; clear_value (ex : x = _); revert x; intro z ez; refine kept_sub (P := P) (s := b) ez ?_ (fun hz => ?_))
      | apply chargeTick_kept | apply acctSample_kept | apply slowdown1_kept | apply kept_foldl

theorem execSlowdownNoticePost_kept (x1 : State) (h1 : Kept P b x1) (hP : allows 1140981825 P = true) :
    KeptR P b (execSlowdownNoticePost x1) := by
  unfold execSlowdownNoticePost
  repeat' first
    | with_reducible first
      | assumption | exact allows_trans (by decide) hP | (extract_lets +onlyGivenNames x; revert x; intro y)
      | apply keptR_next | apply postNotice_kept | split | apply Kept.set_sch

theorem execBoundsEnforce_kept (x1 : Nat) (x2 : Nat) (x3 : State) (h3 : Kept P b x3) (hP : allows 7350348737 P = true) :
    KeptR P b (execBoundsEnforce x1 x2 x3) := by
  unfold execBoundsEnforce
  repeat' first
    | with_reducible first
      | assumption | intro _ | exact allows_trans (by decide) hP
      | (extract_lets +onlyGivenNames x; have : State := x; clear this; clear_value (ex : x = _); revert x; intro z ez; refine kept_sub (P := P) (s := b) ez ?_ (fun hz => ?_))
      | (extract_lets +onlyGivenNames x; revert x; intro y) | apply keptR_next | apply reshape_kept | apply bump_kept
      | apply modSlice_kept | apply log_kept | apply kept_foldl | split

end Sys2Proof.Machine
end

