-- ==== Sys2Proof/Laws/KeptBoundary.lean ====
section
/-! SUPPORT. What each operation of Machine/Boundary.lean keeps: see `Kept`. -/

namespace Sys2Proof.Machine

variable {P : Nat} {b : State}

theorem d3Boundary_kept (x1 : State) (h1 : Kept P b x1) (hP : allows 268566536 P = true) :
    Kept P b (State.d3Boundary x1) := by
  unfold State.d3Boundary
  repeat' first
    | with_reducible first
      | assumption | exact allows_trans (by decide) hP
      | (extract_lets +onlyGivenNames x; have : State := x; clear this; clear_value (ex : x = _); revert x; intro z ez; refine kept_sub (P := P) (s := b) ez ?_ (fun hz => ?_))
      | (extract_lets +onlyGivenNames x; revert x; intro y) | split | apply Kept.set_pwr | apply Kept.set_sch

theorem msixWrite_kept (x1 : State) (x2 : Nat) (x3 : Nat) (x4 : Nat) (x5 : Word) (h1 : Kept P b x1) (hP : allows 67108929 P = true) :
    Kept P b (State.msixWrite x1 x2 x3 x4 x5) := by
  unfold State.msixWrite
  repeat' first
    | with_reducible first
      | assumption | exact allows_trans (by decide) hP | (extract_lets +onlyGivenNames x; revert x; intro y)
      | apply setReg_kept | apply msixRelease_kept | split | apply Kept.set_exm | (dsimp only)

theorem execTickBoundary_kept (x1 : Int) (x2 : Int) (x3 : List SliceUse) (x4 : Nat) (x5 : Nat) (x6 : State) (h6 : Kept P b x6) (hP : allows 7356775401 P = true) :
    KeptR P b (execTickBoundary x1 x2 x3 x4 x5 x6) := by
  unfold execTickBoundary
  repeat' first
    | with_reducible first
      | assumption | exact allows_trans (by decide) hP
      | (extract_lets +onlyGivenNames x; have : State := x; clear this; clear_value (ex : x = _); revert x; intro z ez; refine kept_sub (P := P) (s := b) ez ?_ (fun hz => ?_))
      | (extract_lets +onlyGivenNames x; revert x; intro y) | apply keptR_next | apply tickAdvance_kept
      | apply sourcesApply_kept | apply markBlocks_kept | apply markWaits_kept | apply markSlots_kept
      | apply accountTick_kept | apply schedBoundary_kept | apply d3Boundary_kept | apply holdBoundary_kept
      | apply announceBoundary_kept | apply markersSend_kept | apply diesTick_kept | split | apply Kept.set_pwr

theorem execRegisterWrite_kept (x1 : Nat) (x2 : Nat) (x3 : Word) (x4 : State) (h4 : Kept P b x4) (hP : allows 6549487681 P = true) :
    KeptR P b (execRegisterWrite x1 x2 x3 x4) := by
  unfold execRegisterWrite
  repeat' first
    | with_reducible first
      | assumption | exact allows_trans (by decide) hP | apply keptR_next | apply msixWrite_kept | apply portCtrl_kept
      | apply setReg_kept | split

end Sys2Proof.Machine
end

