-- ==== Sys2Proof/Laws/KeptMctp.lean ====
section
/-! SUPPORT. What each operation of Machine/Mctp.lean keeps: see `Kept`. -/

namespace Sys2Proof.Machine

variable {P : Nat} {b : State}

theorem control_kept (x1 : State) (x2 : Nat) (x3 : Nat) (x4 : Nat) (x5 : List Byte) (h1 : Kept P b x1) (hP : allows 67108864 P = true) :
    Kept P b (State.control x1 x2 x3 x4 x5) := by
  unfold State.control
  repeat' first
    | with_reducible first
      | assumption | apply emit_kept

theorem mctpDo_kept (x1 : State) (x2 : Nat) (x3 : State → State) (h1 : Kept P b x1) (h3 : ∀ y0, Kept P b y0 → Kept P b (x3 y0)) (hP : allows 0 P = true) :
    KeptR P b (State.mctpDo x1 x2 x3) := by
  unfold State.mctpDo
  repeat' first
    | with_reducible first
      | assumption | apply keptR_next | split | apply h3

theorem pldm_kept (x1 : State) (x2 : Nat) (x3 : Nat) (x4 : Nat) (x5 : Nat) (x6 : List Byte) (h1 : Kept P b x1) (hP : allows 67108864 P = true) :
    Kept P b (State.pldm x1 x2 x3 x4 x5 x6) := by
  unfold State.pldm
  repeat' first
    | with_reducible first
      | assumption | apply emit_kept

theorem execSetEndpointId_kept (x1 : Nat) (x2 : Nat) (x3 : Nat) (x4 : State) (h4 : Kept P b x4) (hP : allows 67112960 P = true) :
    KeptR P b (execSetEndpointId x1 x2 x3 x4) := by
  unfold execSetEndpointId
  repeat' first
    | with_reducible first
      | assumption | intro _ | exact allows_trans (by decide) hP | (extract_lets +onlyGivenNames x; revert x; intro y)
      | apply mctpDo_kept | apply control_kept | split | apply Kept.set_eng

theorem execGetEndpointId_kept (x1 : Nat) (x2 : State) (h2 : Kept P b x2) (hP : allows 67108864 P = true) :
    KeptR P b (execGetEndpointId x1 x2) := by
  unfold execGetEndpointId
  repeat' first
    | with_reducible first
      | assumption | intro _ | exact allows_trans (by decide) hP | apply mctpDo_kept | apply control_kept

theorem execGetEndpointUuid_kept (x1 : Nat) (x2 : State) (h2 : Kept P b x2) (hP : allows 67108864 P = true) :
    KeptR P b (execGetEndpointUuid x1 x2) := by
  unfold execGetEndpointUuid
  repeat' first
    | with_reducible first
      | assumption | intro _ | exact allows_trans (by decide) hP | apply mctpDo_kept | apply control_kept

theorem execGetMctpVersionSupport_kept (x1 : Nat) (x2 : Nat) (x3 : State) (h3 : Kept P b x3) (hP : allows 67108864 P = true) :
    KeptR P b (execGetMctpVersionSupport x1 x2 x3) := by
  unfold execGetMctpVersionSupport
  repeat' first
    | with_reducible first
      | assumption | intro _ | exact allows_trans (by decide) hP | apply mctpDo_kept | apply control_kept | split

theorem execGetMessageTypeSupport_kept (x1 : Nat) (x2 : State) (h2 : Kept P b x2) (hP : allows 67108864 P = true) :
    KeptR P b (execGetMessageTypeSupport x1 x2) := by
  unfold execGetMessageTypeSupport
  repeat' first
    | with_reducible first
      | assumption | intro _ | exact allows_trans (by decide) hP | apply mctpDo_kept | apply control_kept

theorem execSettid_kept (x1 : Nat) (x2 : Nat) (x3 : State) (h3 : Kept P b x3) (hP : allows 67112960 P = true) :
    KeptR P b (execSettid x1 x2 x3) := by
  unfold execSettid
  repeat' first
    | with_reducible first
      | assumption | intro _ | exact allows_trans (by decide) hP | (extract_lets +onlyGivenNames x; revert x; intro y)
      | apply mctpDo_kept | apply pldm_kept | split | apply Kept.set_eng

theorem execGettid_kept (x1 : Nat) (x2 : State) (h2 : Kept P b x2) (hP : allows 67108864 P = true) :
    KeptR P b (execGettid x1 x2) := by
  unfold execGettid
  repeat' first
    | with_reducible first
      | assumption | intro _ | exact allows_trans (by decide) hP | apply mctpDo_kept | apply pldm_kept

theorem execGetpldmversion_kept (x1 : Nat) (x2 : Nat) (x3 : State) (h3 : Kept P b x3) (hP : allows 67108864 P = true) :
    KeptR P b (execGetpldmversion x1 x2 x3) := by
  unfold execGetpldmversion
  repeat' first
    | with_reducible first
      | assumption | intro _ | exact allows_trans (by decide) hP | apply mctpDo_kept | apply pldm_kept | split

theorem execGetpldmtypes_kept (x1 : Nat) (x2 : State) (h2 : Kept P b x2) (hP : allows 67108864 P = true) :
    KeptR P b (execGetpldmtypes x1 x2) := by
  unfold execGetpldmtypes
  repeat' first
    | with_reducible first
      | assumption | intro _ | exact allows_trans (by decide) hP | apply mctpDo_kept | apply pldm_kept

theorem execGetpldmcommands_kept (x1 : Nat) (x2 : Nat) (x3 : State) (h3 : Kept P b x3) (hP : allows 67108864 P = true) :
    KeptR P b (execGetpldmcommands x1 x2 x3) := by
  unfold execGetpldmcommands
  repeat' first
    | with_reducible first
      | assumption | intro _ | exact allows_trans (by decide) hP | apply mctpDo_kept | apply pldm_kept | split

theorem execGetsensorreading_kept (x1 : Nat) (x2 : Nat) (x3 : State) (h3 : Kept P b x3) (hP : allows 67108864 P = true) :
    KeptR P b (execGetsensorreading x1 x2 x3) := by
  unfold execGetsensorreading
  repeat' first
    | with_reducible first
      | assumption | intro _ | exact allows_trans (by decide) hP | apply mctpDo_kept | apply pldm_kept | split

theorem execGetstatesensorreadings_kept (x1 : Nat) (x2 : Nat) (x3 : State) (h3 : Kept P b x3) (hP : allows 100663296 P = true) :
    KeptR P b (execGetstatesensorreadings x1 x2 x3) := by
  unfold execGetstatesensorreadings
  repeat' first
    | with_reducible first
      | assumption | intro _ | exact allows_trans (by decide) hP | apply mctpDo_kept | apply pldm_kept | apply drawn_kept
      | split

theorem execGetpdrrepositoryinfo_kept (x1 : Nat) (x2 : State) (h2 : Kept P b x2) (hP : allows 67108864 P = true) :
    KeptR P b (execGetpdrrepositoryinfo x1 x2) := by
  unfold execGetpdrrepositoryinfo
  repeat' first
    | with_reducible first
      | assumption | intro _ | exact allows_trans (by decide) hP | apply mctpDo_kept | apply pldm_kept

theorem execGetpdr_kept (x1 : Nat) (x2 : Nat) (x3 : State) (h3 : Kept P b x3) (hP : allows 67108864 P = true) :
    KeptR P b (execGetpdr x1 x2 x3) := by
  unfold execGetpdr
  repeat' first
    | with_reducible first
      | assumption | intro _ | exact allows_trans (by decide) hP | (extract_lets +onlyGivenNames x; revert x; intro y)
      | apply mctpDo_kept | apply pldm_kept | split

theorem execGetfrurecordtablemetadata_kept (x1 : Nat) (x2 : State) (h2 : Kept P b x2) (hP : allows 67108864 P = true) :
    KeptR P b (execGetfrurecordtablemetadata x1 x2) := by
  unfold execGetfrurecordtablemetadata
  repeat' first
    | with_reducible first
      | assumption | intro _ | exact allows_trans (by decide) hP | apply mctpDo_kept | apply pldm_kept

theorem execGetfrurecordtable_kept (x1 : Nat) (x2 : State) (h2 : Kept P b x2) (hP : allows 67108864 P = true) :
    KeptR P b (execGetfrurecordtable x1 x2) := by
  unfold execGetfrurecordtable
  repeat' first
    | with_reducible first
      | assumption | intro _ | exact allows_trans (by decide) hP | apply mctpDo_kept | apply pldm_kept

theorem execMctpOtherMessage_kept (x1 : Nat) (x2 : Nat) (x3 : Nat) (x4 : Nat) (x5 : Bool) (x6 : State) (h6 : Kept P b x6) (hP : allows 67108865 P = true) :
    KeptR P b (execMctpOtherMessage x1 x2 x3 x4 x5 x6) := by
  unfold execMctpOtherMessage
  repeat' first
    | with_reducible first
      | assumption | intro _ | exact allows_trans (by decide) hP | apply mctpDo_kept | apply bump_kept | apply pldm_kept
      | split

end Sys2Proof.Machine
end

