-- ==== Sys2Proof/Laws/KeptObserve.lean ====
section
/-! SUPPORT. What each operation of Machine/Observe.lean keeps: see `Kept`. -/

namespace Sys2Proof.Machine

variable {P : Nat} {b : State}

theorem obsBytes_kept (x1 : State) (x2 : Nat) (x3 : Nat) (x4 : Nat) (x5 : Nat) (h1 : Kept P b x1) (hP : allows 33554433 P = true) :
    KeptF P b (State.obsBytes x1 x2 x3 x4 x5) := by
  unfold State.obsBytes
  repeat' first
    | with_reducible first
      | assumption | exact allows_trans (by decide) hP | (extract_lets +onlyGivenNames x; revert x; intro y)
      | apply KeptF.pair | apply drawnN_kept | apply setFld_kept | split

theorem execFreeze_kept (x1 : Nat) (x2 : Upsets) (x3 : State) (h3 : Kept P b x3) (hP : allows 1946163913 P = true) :
    KeptR P b (execFreeze x1 x2 x3) := by
  unfold execFreeze
  repeat' first
    | with_reducible first
      | assumption | intro _ | exact allows_trans (by decide) hP
      | (extract_lets +onlyGivenNames x; have : State := x; clear this; clear_value (ex : x = _); revert x; intro z ez; refine kept_sub (P := P) (s := b) ez ?_ (fun hz => ?_))
      | apply KeptReply.made | (apply KeptReply.st; apply no_kept) | (apply KeptReply.st; apply ok_kept)
      | apply command_kept | apply freezeReq_kept | apply setFld_kept | apply thawStart_kept | split

theorem execThaw_kept (x1 : Upsets) (x2 : State) (h2 : Kept P b x2) (hP : allows 1946163913 P = true) :
    KeptR P b (execThaw x1 x2) := by
  unfold execThaw
  repeat' first
    | with_reducible first
      | assumption | intro _ | exact allows_trans (by decide) hP
      | (extract_lets +onlyGivenNames x; have : State := x; clear this; clear_value (ex : x = _); revert x; intro z ez; refine kept_sub (P := P) (s := b) ez ?_ (fun hz => ?_))
      | apply KeptReply.made | (apply KeptReply.st; apply no_kept) | (apply KeptReply.st; apply ok_kept)
      | apply command_kept | apply thawReq_kept | apply sendFrz_kept | split

theorem execObserveRead_kept (x1 : Upsets) (x2 : State) (h2 : Kept P b x2) (hP : allows 1979718337 P = true) :
    KeptR P b (execObserveRead x1 x2) := by
  unfold execObserveRead
  repeat' first
    | with_reducible first
      | assumption | intro _ | exact allows_trans (by decide) hP
      | (extract_lets +onlyGivenNames x; have : State × _ := x; clear this; clear_value (ex : x = _); revert x; intro z ez; refine kept_subG (KeptF P b) ez ?_ (fun hz => ?_))
      | (extract_lets +onlyGivenNames x; revert x; intro y) | apply KeptF.pair | apply KeptReply.made
      | (apply KeptReply.st; apply no_kept) | (apply KeptF.fst; apply obsBytes_kept) | (apply KeptReply.st; apply ok_kept)
      | apply command_kept | apply bufferPut_kept | split | (apply KeptF.fst; assumption)

theorem execObsData_kept (x1 : State) (h1 : Kept P b x1) (hP : allows 100665345 P = true) :
    KeptR P b (execObsData x1) := by
  unfold execObsData
  repeat' first
    | with_reducible first
      | assumption | exact allows_trans (by decide) hP
      | (extract_lets +onlyGivenNames x; have : State := x; clear this; clear_value (ex : x = _); revert x; intro z ez; refine kept_sub (P := P) (s := b) ez ?_ (fun hz => ?_))
      | (extract_lets +onlyGivenNames x; have : State × _ := x; clear this; clear_value (ex : x = _); revert x; intro z ez; refine kept_subG (KeptF P b) ez ?_ (fun hz => ?_))
      | (extract_lets +onlyGivenNames x; revert x; intro y) | apply keptR_next | apply KeptF.pair
      | (apply KeptF.fst; apply obsBytes_kept) | apply tapSet_kept | apply emit_kept | split | (apply KeptF.fst; assumption)
      | apply Kept.set_frz

end Sys2Proof.Machine
end

