-- ==== Sys2Proof/Laws/KeptReads.lean ====
section
/-! SUPPORT. What each operation of Machine/Reads.lean keeps: see `Kept`. -/

namespace Sys2Proof.Machine

variable {P : Nat} {b : State}

theorem latchReg_kept (x1 : State) (x2 : Nat) (x3 : Nat) (h1 : Kept P b x1) (hP : allows 2 P = true) :
    Kept P b (State.latchReg x1 x2 x3) := by
  unfold State.latchReg
  repeat' first
    | with_reducible first
      | assumption | apply Kept.set_latch

theorem latchFor_kept (x1 : State) (x2 : Nat) (x3 : Nat) (h1 : Kept P b x1) (hP : allows 2 P = true) :
    Kept P b (State.latchFor x1 x2 x3) := by
  unfold State.latchFor
  repeat' first
    | with_reducible first
      | assumption | apply latchReg_kept | split

theorem readOne_kept (x1 : State) (x2 : Nat) (x3 : Nat) (h1 : Kept P b x1) (hP : allows 33554434 P = true) :
    KeptL P b (State.readOne x1 x2 x3) := by
  unfold State.readOne
  repeat' first
    | with_reducible first
      | assumption | exact allows_trans (by decide) hP | apply KeptL.pair | apply drawn_kept | apply latchFor_kept | split

theorem execLoRegisterRead_kept (x1 : Nat) (x2 : Nat) (x3 : State) (h3 : Kept P b x3) (hP : allows 100663298 P = true) :
    KeptR P b (execLoRegisterRead x1 x2 x3) := by
  unfold execLoRegisterRead
  repeat' first
    | with_reducible first
      | assumption | exact allows_trans (by decide) hP
      | (extract_lets +onlyGivenNames x; have : _ × State := x; clear this; clear_value (ex : x = _); revert x; intro z ez; refine kept_subG (KeptL P b) ez ?_ (fun hz => ?_))
      | (extract_lets +onlyGivenNames x; revert x; intro y) | apply keptR_next | apply KeptL.pair
      | (apply KeptL.snd; apply readOne_kept) | apply emit_kept | split | (apply KeptL.snd; assumption)

end Sys2Proof.Machine
end

