-- ==== Sys2Proof/Laws/KeptSpdm.lean ====
section
/-! SUPPORT. What each operation of Machine/Spdm.lean keeps: see `Kept`. -/

namespace Sys2Proof.Machine

variable {P : Nat} {b : State}

theorem modSession_kept (x1 : State) (x2 : Nat) (x3 : Session → Session) (h1 : Kept P b x1) (hP : allows 32768 P = true) :
    Kept P b (State.modSession x1 x2 x3) := by
  unfold State.modSession
  repeat' first
    | with_reducible first
      | assumption | (extract_lets +onlyGivenNames x; revert x; intro y) | apply Kept.set_sec

theorem spdmDo_kept (x1 : State) (x2 : State → State) (h1 : Kept P b x1) (h2 : ∀ y0, Kept P b y0 → Kept P b (x2 y0)) (hP : allows 0 P = true) :
    KeptR P b (State.spdmDo x1 x2) := by
  unfold State.spdmDo
  repeat' first
    | with_reducible first
      | assumption | apply keptR_next | split | apply h2

theorem spdmSend_kept (x1 : State) (x2 : Nat) (x3 : List Byte) (h1 : Kept P b x1) (hP : allows 67141632 P = true) :
    Kept P b (State.spdmSend x1 x2 x3) := by
  unfold State.spdmSend
  repeat' first
    | with_reducible first
      | assumption | exact allows_trans (by decide) hP | (extract_lets +onlyGivenNames x; revert x; intro y)
      | apply spdmError_kept | apply emit_kept | split | apply Kept.set_sec

theorem spdmSigned_kept (x1 : State) (x2 : List Byte) (x3 : Nat) (x4 : List Byte) (h1 : Kept P b x1) (hP : allows 67141632 P = true) :
    Kept P b (State.spdmSigned x1 x2 x3 x4) := by
  unfold State.spdmSigned
  repeat' first
    | with_reducible first
      | assumption | exact allows_trans (by decide) hP | apply spdmError_kept | apply spdmSend_kept | split

theorem execGetVersion_kept (x1 : State) (h1 : Kept P b x1) (hP : allows 67141633 P = true) :
    KeptR P b (execGetVersion x1) := by
  unfold execGetVersion
  repeat' first
    | with_reducible first
      | assumption | intro _ | exact allows_trans (by decide) hP
      | (extract_lets +onlyGivenNames x; have : State := x; clear this; clear_value (ex : x = _); revert x; intro z ez; refine kept_sub (P := P) (s := b) ez ?_ (fun hz => ?_))
      | (extract_lets +onlyGivenNames x; revert x; intro y) | apply spdmDo_kept | apply spdmSend_kept | apply setFld_kept
      | apply Kept.set_sec

theorem execGetCapabilities_kept (x1 : Nat) (x2 : Nat) (x3 : State) (h3 : Kept P b x3) (hP : allows 67141633 P = true) :
    KeptR P b (execGetCapabilities x1 x2 x3) := by
  unfold execGetCapabilities
  repeat' first
    | with_reducible first
      | assumption | intro _ | exact allows_trans (by decide) hP
      | (extract_lets +onlyGivenNames x; have : State := x; clear this; clear_value (ex : x = _); revert x; intro z ez; refine kept_sub (P := P) (s := b) ez ?_ (fun hz => ?_))
      | (extract_lets +onlyGivenNames x; revert x; intro y) | apply spdmDo_kept | apply spdmError_kept | apply spdmSend_kept
      | apply setFld_kept | split | apply Kept.set_sec

theorem execNegotiateAlgorithms_kept (x1 : Nat) (x2 : Nat) (x3 : Nat) (x4 : Nat) (x5 : Nat) (x6 : State) (h6 : Kept P b x6) (hP : allows 67141632 P = true) :
    KeptR P b (execNegotiateAlgorithms x1 x2 x3 x4 x5 x6) := by
  unfold execNegotiateAlgorithms
  repeat' first
    | with_reducible first
      | assumption | intro _ | exact allows_trans (by decide) hP | (extract_lets +onlyGivenNames x; revert x; intro y)
      | apply spdmDo_kept | apply spdmError_kept | apply spdmSend_kept | split | apply Kept.set_sec

theorem execChallenge_kept (x1 : Bool) (x2 : List Byte) (x3 : State) (h3 : Kept P b x3) (hP : allows 100696064 P = true) :
    KeptR P b (execChallenge x1 x2 x3) := by
  unfold execChallenge
  repeat' first
    | with_reducible first
      | assumption | intro _ | exact allows_trans (by decide) hP | (extract_lets +onlyGivenNames x; revert x; intro y)
      | apply spdmDo_kept | apply spdmError_kept | apply spdmSigned_kept | apply drawnN_kept | split

theorem execGetMeasurements_kept (x1 : Nat) (x2 : Bool) (x3 : List Byte) (x4 : State) (h4 : Kept P b x4) (hP : allows 100696064 P = true) :
    KeptR P b (execGetMeasurements x1 x2 x3 x4) := by
  unfold execGetMeasurements
  repeat' first
    | with_reducible first
      | assumption | intro _ | exact allows_trans (by decide) hP | (extract_lets +onlyGivenNames x; revert x; intro y)
      | apply spdmDo_kept | apply spdmError_kept | apply spdmSigned_kept | apply drawnN_kept | apply spdmSend_kept | split

theorem execKeyExchange_kept (x1 : Nat) (x2 : Bool) (x3 : List Byte) (x4 : State) (h4 : Kept P b x4) (hP : allows 100696065 P = true) :
    KeptR P b (execKeyExchange x1 x2 x3 x4) := by
  unfold execKeyExchange
  repeat' first
    | with_reducible first
      | assumption | intro _ | exact allows_trans (by decide) hP
      | (extract_lets +onlyGivenNames x; have : State := x; clear this; clear_value (ex : x = _); revert x; intro z ez; refine kept_sub (P := P) (s := b) ez ?_ (fun hz => ?_))
      | (extract_lets +onlyGivenNames x; revert x; intro y) | apply spdmDo_kept | apply spdmError_kept | apply drawn_kept
      | apply drawnN_kept | apply spdmSend_kept | apply setSessions_kept | split

theorem execFinish_kept (x1 : Nat) (x2 : Bool) (x3 : State) (h3 : Kept P b x3) (hP : allows 67141632 P = true) :
    KeptR P b (execFinish x1 x2 x3) := by
  unfold execFinish
  repeat' first
    | with_reducible first
      | assumption | intro _ | exact allows_trans (by decide) hP | apply spdmDo_kept | apply spdmError_kept
      | apply spdmSend_kept | apply modSession_kept | split

theorem execHeartbeat_kept (x1 : Nat) (x2 : State) (h2 : Kept P b x2) (hP : allows 67141632 P = true) :
    KeptR P b (execHeartbeat x1 x2) := by
  unfold execHeartbeat
  repeat' first
    | with_reducible first
      | assumption | intro _ | exact allows_trans (by decide) hP | apply spdmDo_kept | apply spdmSend_kept
      | apply spdmError_kept | split

theorem execKeyUpdate_kept (x1 : Nat) (x2 : Nat) (x3 : Nat) (x4 : State) (h4 : Kept P b x4) (hP : allows 67141632 P = true) :
    KeptR P b (execKeyUpdate x1 x2 x3 x4) := by
  unfold execKeyUpdate
  repeat' first
    | with_reducible first
      | assumption | intro _ | exact allows_trans (by decide) hP | apply spdmDo_kept | apply spdmError_kept
      | apply spdmSend_kept | apply modSession_kept | split

theorem execEndSession_kept (x1 : Nat) (x2 : State) (h2 : Kept P b x2) (hP : allows 67141633 P = true) :
    KeptR P b (execEndSession x1 x2) := by
  unfold execEndSession
  repeat' first
    | with_reducible first
      | assumption | intro _ | exact allows_trans (by decide) hP | apply spdmDo_kept | apply spdmError_kept
      | apply spdmSend_kept | apply setSessions_kept | split

theorem execChunkSend_kept (x1 : Nat) (x2 : Nat) (x3 : Bool) (x4 : List Byte) (x5 : State) (h5 : Kept P b x5) (hP : allows 67141632 P = true) :
    KeptR P b (execChunkSend x1 x2 x3 x4 x5) := by
  unfold execChunkSend
  repeat' first
    | with_reducible first
      | assumption | intro _ | exact allows_trans (by decide) hP | (extract_lets +onlyGivenNames x; revert x; intro y)
      | apply spdmDo_kept | apply spdmError_kept | apply emit_kept | split | apply Kept.set_sec

theorem execChunkGet_kept (x1 : Nat) (x2 : Nat) (x3 : State) (h3 : Kept P b x3) (hP : allows 67141632 P = true) :
    KeptR P b (execChunkGet x1 x2 x3) := by
  unfold execChunkGet
  repeat' first
    | with_reducible first
      | assumption | intro _ | exact allows_trans (by decide) hP | (extract_lets +onlyGivenNames x; revert x; intro y)
      | apply spdmDo_kept | apply spdmError_kept | apply emit_kept | split | apply Kept.set_sec

theorem execSpdmUnsupportedRequest_kept (x1 : Nat) (x2 : State) (h2 : Kept P b x2) (hP : allows 67108864 P = true) :
    KeptR P b (execSpdmUnsupportedRequest x1 x2) := by
  unfold execSpdmUnsupportedRequest
  repeat' first
    | with_reducible first
      | assumption | intro _ | exact allows_trans (by decide) hP | apply spdmDo_kept | apply spdmError_kept

theorem execDoeAbort_kept (x1 : State) (h1 : Kept P b x1) (hP : allows 32768 P = true) :
    KeptR P b (execDoeAbort x1) := by
  unfold execDoeAbort
  repeat' first
    | with_reducible first
      | assumption | (extract_lets +onlyGivenNames x; revert x; intro y) | apply keptR_next | apply Kept.set_sec

end Sys2Proof.Machine
end

