-- ==== Sys2Proof/Laws/KeptYarrowFlow.lean ====
section
/-! SUPPORT. What each operation of Machine/YarrowFlow.lean keeps: see `Kept`. -/

namespace Sys2Proof.Machine

variable {P : Nat} {b : State}

theorem Iss_enterTrap_kept (x1 : Iss) (x2 : State) (x3 : Nat) (h2 : Kept P b x2) (hP : allows 262145 P = true) :
    Kept P b (Iss.enterTrap x1 x2 x3) := by
  unfold Iss.enterTrap
  repeat' first
    | with_reducible first
      | assumption | exact allows_trans (by decide) hP
      | (extract_lets +onlyGivenNames x; have : State := x; clear this; clear_value (ex : x = _); revert x; intro z ez; refine kept_sub (P := P) (s := b) ez ?_ (fun hz => ?_))
      | (extract_lets +onlyGivenNames x; revert x; intro y) | apply count_kept | apply Iss_put_kept
      | split

theorem windowInstr_kept (x1 : State) (x2 : Nat) (x3 : Nat) (x4 : Nat) (x5 : Bool) (x6 : Nat) (x7 : Nat) (x8 : Iss → State → State) (x9 : Iss → Bool) (h1 : Kept P b x1) (h8 : ∀ y0 y1, Kept P b y1 → Kept P b (x8 y0 y1)) (hP : allows 7350479809 P = true) :
    KeptR P b (State.windowInstr x1 x2 x3 x4 x5 x6 x7 x8 x9) := by
  unfold State.windowInstr
  repeat' first
    | with_reducible first
      | assumption | intro _ | exact allows_trans (by decide) hP | apply issue_kept | apply Iss_put_kept | split | apply h8

theorem execBra_kept (x1 : Nat) (x2 : Nat) (x3 : Nat) (x4 : Bool) (x5 : State) (h5 : Kept P b x5) (hP : allows 7350479809 P = true) :
    KeptR P b (execBra x1 x2 x3 x4 x5) := by
  unfold execBra
  repeat' first
    | with_reducible first
      | assumption | intro _ | exact allows_trans (by decide) hP | (extract_lets +onlyGivenNames x; revert x; intro y)
      | apply issue_kept | apply Iss_put_kept | apply Iss_exc_kept | apply count_kept | split

theorem execJmpu_kept (x1 : Nat) (x2 : Nat) (x3 : Nat) (x4 : Bool) (x5 : State) (h5 : Kept P b x5) (hP : allows 7350479809 P = true) :
    KeptR P b (execJmpu x1 x2 x3 x4 x5) := by
  unfold execJmpu
  repeat' first
    | with_reducible first
      | assumption | intro _ | exact allows_trans (by decide) hP | apply issue_kept | apply Iss_exc_kept
      | apply Iss_put_kept | split

theorem execJoin_kept (x1 : Nat) (x2 : Nat) (x3 : Nat) (x4 : Bool) (x5 : State) (h5 : Kept P b x5) (hP : allows 7350479809 P = true) :
    KeptR P b (execJoin x1 x2 x3 x4 x5) := by
  unfold execJoin
  repeat' first
    | with_reducible first
      | assumption | intro _ | exact allows_trans (by decide) hP
      | (extract_lets +onlyGivenNames x; have : State := x; clear this; clear_value (ex : x = _); revert x; intro z ez; refine kept_sub (P := P) (s := b) ez ?_ (fun hz => ?_))
      | (extract_lets +onlyGivenNames x; revert x; intro y) | apply issue_kept | apply Iss_put_kept | split

theorem execCall_kept (x1 : Nat) (x2 : Nat) (x3 : Nat) (x4 : Bool) (x5 : State) (h5 : Kept P b x5) (hP : allows 7350479809 P = true) :
    KeptR P b (execCall x1 x2 x3 x4 x5) := by
  unfold execCall
  repeat' first
    | with_reducible first
      | assumption | intro _ | exact allows_trans (by decide) hP | apply issue_kept | apply Iss_exc_kept
      | apply Iss_put_kept | split

theorem execExit_kept (x1 : Nat) (x2 : Nat) (x3 : Nat) (x4 : Bool) (x5 : State) (h5 : Kept P b x5) (hP : allows 7350479809 P = true) :
    KeptR P b (execExit x1 x2 x3 x4 x5) := by
  unfold execExit
  repeat' first
    | with_reducible first
      | assumption | intro _ | exact allows_trans (by decide) hP | (extract_lets +onlyGivenNames x; revert x; intro y)
      | apply issue_kept | apply Iss_put_kept | split

theorem execYield_kept (x1 : Nat) (x2 : Nat) (x3 : Nat) (x4 : Bool) (x5 : State) (h5 : Kept P b x5) (hP : allows 7350479809 P = true) :
    KeptR P b (execYield x1 x2 x3 x4 x5) := by
  unfold execYield
  repeat' first
    | with_reducible first
      | assumption | intro _ | exact allows_trans (by decide) hP | (extract_lets +onlyGivenNames x; revert x; intro y)
      | apply issue_kept | apply Iss_put_kept | split

theorem execTrap_kept (x1 : Nat) (x2 : Nat) (x3 : Nat) (x4 : Bool) (x5 : State) (h5 : Kept P b x5) (hP : allows 7350479809 P = true) :
    KeptR P b (execTrap x1 x2 x3 x4 x5) := by
  unfold execTrap
  repeat' first
    | with_reducible first
      | assumption | intro _ | exact allows_trans (by decide) hP | apply issue_kept | apply Iss_exc_kept
      | apply Iss_put_kept | split

theorem execWsave_kept (x1 : Nat) (x2 : Nat) (x3 : Nat) (x4 : Bool) (x5 : State) (h5 : Kept P b x5) (hP : allows 7350479809 P = true) :
    KeptR P b (execWsave x1 x2 x3 x4 x5) := by
  unfold execWsave
  repeat' first
    | with_reducible first
      | assumption | intro _ | exact allows_trans (by decide) hP | (extract_lets +onlyGivenNames x; revert x; intro y)
      | apply windowInstr_kept | apply Iss_put_kept | apply Iss_exc_kept | apply Iss_enterTrap_kept | split

theorem execWrestore_kept (x1 : Nat) (x2 : Nat) (x3 : Nat) (x4 : Bool) (x5 : State) (h5 : Kept P b x5) (hP : allows 7350479809 P = true) :
    KeptR P b (execWrestore x1 x2 x3 x4 x5) := by
  unfold execWrestore
  repeat' first
    | with_reducible first
      | assumption | intro _ | exact allows_trans (by decide) hP | (extract_lets +onlyGivenNames x; revert x; intro y)
      | apply windowInstr_kept | apply Iss_put_kept | apply Iss_exc_kept | apply Iss_enterTrap_kept | split

theorem execWspill_kept (x1 : Nat) (x2 : Nat) (x3 : Nat) (x4 : Bool) (x5 : State) (h5 : Kept P b x5) (hP : allows 7350479809 P = true) :
    KeptR P b (execWspill x1 x2 x3 x4 x5) := by
  unfold execWspill
  repeat' first
    | with_reducible first
      | assumption | intro _ | exact allows_trans (by decide) hP
      | (extract_lets +onlyGivenNames x; have : State := x; clear this; clear_value (ex : x = _); revert x; intro z ez; refine kept_sub (P := P) (s := b) ez ?_ (fun hz => ?_))
      | (extract_lets +onlyGivenNames x; revert x; intro y) | apply windowInstr_kept | apply Iss_exc_kept
      | apply sbPush_kept | apply Iss_put_kept | apply count_kept | apply kept_foldl | split

theorem execWfill_kept (x1 : Nat) (x2 : Nat) (x3 : Nat) (x4 : Bool) (x5 : State) (h5 : Kept P b x5) (hP : allows 7350479809 P = true) :
    KeptR P b (execWfill x1 x2 x3 x4 x5) := by
  unfold execWfill
  repeat' first
    | with_reducible first
      | assumption | intro _ | exact allows_trans (by decide) hP
      | (extract_lets +onlyGivenNames x; have : State := x; clear this; clear_value (ex : x = _); revert x; intro z ez; refine kept_sub (P := P) (s := b) ez ?_ (fun hz => ?_))
      | (extract_lets +onlyGivenNames x; have : _ × _ × State := x; clear this; clear_value (ex : x = _); revert x; intro z ez; refine kept_subG (KeptN P b) ez ?_ (fun hz => ?_))
      | (extract_lets +onlyGivenNames x; revert x; intro y) | apply KeptL.pair | apply KeptN.pair
      | (apply KeptL.snd; apply readLoc_kept) | apply windowInstr_kept | apply Iss_exc_kept | apply sbDrainTo_kept
      | apply Iss_put_kept | apply count_kept | apply poisonEnd_kept | (apply KeptN.snd; apply kept_foldl_N) | split
      | refine KeptL.of (by assumption) ?_ | (apply KeptN.snd; assumption)

theorem execWresume_kept (x1 : Nat) (x2 : Nat) (x3 : Nat) (x4 : Bool) (x5 : State) (h5 : Kept P b x5) (hP : allows 7350479809 P = true) :
    KeptR P b (execWresume x1 x2 x3 x4 x5) := by
  unfold execWresume
  repeat' first
    | with_reducible first
      | assumption | intro _ | exact allows_trans (by decide) hP | (extract_lets +onlyGivenNames x; revert x; intro y)
      | apply windowInstr_kept | apply Iss_put_kept | apply Iss_exc_kept | split

theorem execWrdstate_kept (x1 : Nat) (x2 : Nat) (x3 : Nat) (x4 : Bool) (x5 : State) (h5 : Kept P b x5) (hP : allows 7350479809 P = true) :
    KeptR P b (execWrdstate x1 x2 x3 x4 x5) := by
  unfold execWrdstate
  repeat' first
    | with_reducible first
      | assumption | intro _ | exact allows_trans (by decide) hP | apply issue_kept | apply Iss_put_kept

end Sys2Proof.Machine
end

