-- ==== Sys2Proof/Laws/KeptDispatch.lean ====
section
/-! SUPPORT. What every command keeps: see `Kept`. -/

namespace Sys2Proof.Machine

variable {P : Nat} {b : State}

theorem exec_kept (x1 : Instr) (x2 : State) (h2 : Kept P b x2) (hP : allows 8438939643 P = true) :
    KeptR P b (exec x1 x2) := by
  cases x1 with
  | coldPowerOn straps nor => exact execColdPowerOn_kept straps nor x2 h2 (allows_trans (by decide) hP)
  | warmResetPerst nor => exact execWarmResetPerst_kept nor x2 h2 (allows_trans (by decide) hP)
  | warmResetHot nor => exact execWarmResetHot_kept nor x2 h2 (allows_trans (by decide) hP)
  | powerFailDetect source mv => exact execPowerFailDetect_kept source mv x2 h2 (allows_trans (by decide) hP)
  | overvoltageShutdown => exact execOvervoltageShutdown_kept x2 h2 (allows_trans (by decide) hP)
  | railOvercurrent group => exact execRailOvercurrent_kept group x2 h2 (allows_trans (by decide) hP)
  | powerReturnRestart straps nor => exact execPowerReturnRestart_kept straps nor x2 h2 (allows_trans (by decide) hP)
  | freezeNLow => exact execFreezeNLow_kept x2 h2 (allows_trans (by decide) hP)
  | sensorPortOvercurrent d j => exact execSensorPortOvercurrent_kept d j x2 h2 (allows_trans (by decide) hP)
  | configRequest fn item write => exact execConfigRequest_kept fn item write x2 h2 (allows_trans (by decide) hP)
  | bootStepEnd fails crypto => exact execBootStepEnd_kept fails crypto x2 h2 (allows_trans (by decide) hP)
  | tickAcquireListenEnd => exact execTickAcquireListenEnd_kept x2 h2 (allows_trans (by decide) hP)
  | tickBoundary pe se uses idle input => exact execTickBoundary_kept pe se uses idle input x2 h2 (allows_trans (by decide) hP)
  | tickInEdge width => exact execTickInEdge_kept width x2 h2 (allows_trans (by decide) hP)
  | marker p m => exact execMarker_kept p m x2 h2 (allows_trans (by decide) hP)
  | refLoss w => exact execRefLoss_kept w x2 h2 (allows_trans (by decide) hP)
  | refQualified w => exact execRefQualified_kept w x2 h2 (allows_trans (by decide) hP)
  | pendingPeriodApply => exact execPendingPeriodApply_kept x2 h2 (allows_trans (by decide) hP)
  | pendingTimeApply => exact execPendingTimeApply_kept x2 h2 (allows_trans (by decide) hP)
  | utcOffsetApply => exact execUtcOffsetApply_kept x2 h2 (allows_trans (by decide) hP)
  | calOutOfRangePass => exact execCalOutOfRangePass_kept x2 h2 (allows_trans (by decide) hP)
  | tickNoticePost => exact execTickNoticePost_kept x2 h2 (allows_trans (by decide) hP)
  | delayMeasure => exact execDelayMeasure_kept x2 h2 (allows_trans (by decide) hP)
  | vfFlr n => exact execVfFlr_kept n x2 h2 (allows_trans (by decide) hP)
  | pf0Flr => exact execPf0Flr_kept x2 h2 (allows_trans (by decide) hP)
  | sliceClearComplete n => exact execSliceClearComplete_kept n x2 h2 (allows_trans (by decide) hP)
  | idleClockGate u => exact execIdleClockGate_kept u x2 h2 (allows_trans (by decide) hP)
  | dozeEnter => exact execDozeEnter_kept x2 h2 (allows_trans (by decide) hP)
  | dozeExitResume => exact execDozeExitResume_kept x2 h2 (allows_trans (by decide) hP)
  | pf0D3hotEnter => exact execPf0D3hotEnter_kept x2 h2 (allows_trans (by decide) hP)
  | pf0D0Return => exact execPf0D0Return_kept x2 h2 (allows_trans (by decide) hP)
  | vfD3hotEnter n => exact execVfD3hotEnter_kept n x2 h2 (allows_trans (by decide) hP)
  | vfD0Return n => exact execVfD0Return_kept n x2 h2 (allows_trans (by decide) hP)
  | exchangeRead r addr len ups collide => exact execExchangeRead_kept r addr len ups collide x2 h2 (allows_trans (by decide) hP)
  | exchangeWrite r addr data ups collide => exact execExchangeWrite_kept r addr data ups collide x2 h2 (allows_trans (by decide) hP)
  | semaReadAcquire r addr other => exact execSemaReadAcquire_kept r addr other x2 h2 (allows_trans (by decide) hP)
  | semaReleaseWrite r addr value => exact execSemaReleaseWrite_kept r addr value x2 h2 (allows_trans (by decide) hP)
  | sweeperVisit => exact execSweeperVisit_kept x2 h2 (allows_trans (by decide) hP)
  | slotPost r k w => exact execSlotPost_kept r k w x2 h2 (allows_trans (by decide) hP)
  | slotWithdraw r k => exact execSlotWithdraw_kept r k x2 h2 (allows_trans (by decide) hP)
  | slotTake r k => exact execSlotTake_kept r k x2 h2 (allows_trans (by decide) hP)
  | slotDone r k w => exact execSlotDone_kept r k w x2 h2 (allows_trans (by decide) hP)
  | slotReturnIdle r k => exact execSlotReturnIdle_kept r k x2 h2 (allows_trans (by decide) hP)
  | msixHoldoffEnd fn vec => exact execMsixHoldoffEnd_kept fn vec x2 h2 (allows_trans (by decide) hP)
  | clrCounters value => exact execClrCounters_kept value x2 h2 (allows_trans (by decide) hP)
  | registerWrite fn a v => exact execRegisterWrite_kept fn a v x2 h2 (allows_trans (by decide) hP)
  | unknownOpcode ups => exact execUnknownOpcode_kept ups x2 h2 (allows_trans (by decide) hP)
  | nop ups => exact execNop_kept ups x2 h2 (allows_trans (by decide) hP)
  | identify ups => exact execIdentify_kept ups x2 h2 (allows_trans (by decide) hP)
  | jobStatus ups => exact execJobStatus_kept ups x2 h2 (allows_trans (by decide) hP)
  | tenancyAdmit ups => exact execTenancyAdmit_kept ups x2 h2 (allows_trans (by decide) hP)
  | tenancyClaim ups => exact execTenancyClaim_kept ups x2 h2 (allows_trans (by decide) hP)
  | tenancyRelease ups => exact execTenancyRelease_kept ups x2 h2 (allows_trans (by decide) hP)
  | tenancyStatus ups => exact execTenancyStatus_kept ups x2 h2 (allows_trans (by decide) hP)
  | debugConsentSet ups => exact execDebugConsentSet_kept ups x2 h2 (allows_trans (by decide) hP)
  | sliceCreate ups => exact execSliceCreate_kept ups x2 h2 (allows_trans (by decide) hP)
  | sliceResize ups => exact execSliceResize_kept ups x2 h2 (allows_trans (by decide) hP)
  | sliceDestroy ups => exact execSliceDestroy_kept ups x2 h2 (allows_trans (by decide) hP)
  | sliceReset ups => exact execSliceReset_kept ups x2 h2 (allows_trans (by decide) hP)
  | sliceBoundsSet ups => exact execSliceBoundsSet_kept ups x2 h2 (allows_trans (by decide) hP)
  | sliceStatus ups => exact execSliceStatus_kept ups x2 h2 (allows_trans (by decide) hP)
  | slowdownSet ups => exact execSlowdownSet_kept ups x2 h2 (allows_trans (by decide) hP)
  | exchangeRegionSet ups => exact execExchangeRegionSet_kept ups x2 h2 (allows_trans (by decide) hP)
  | exchangeWindowSet ups => exact execExchangeWindowSet_kept ups x2 h2 (allows_trans (by decide) hP)
  | modelLoad ups => exact execModelLoad_kept ups x2 h2 (allows_trans (by decide) hP)
  | modelUnload ups => exact execModelUnload_kept ups x2 h2 (allows_trans (by decide) hP)
  | schedWrite ups => exact execSchedWrite_kept ups x2 h2 (allows_trans (by decide) hP)
  | schedRead ups => exact execSchedRead_kept ups x2 h2 (allows_trans (by decide) hP)
  | schedSwap ups => exact execSchedSwap_kept ups x2 h2 (allows_trans (by decide) hP)
  | tickConfig ups => exact execTickConfig_kept ups x2 h2 (allows_trans (by decide) hP)
  | tickReacquire ups => exact execTickReacquire_kept ups x2 h2 (allows_trans (by decide) hP)
  | timeSet ups => exact execTimeSet_kept ups x2 h2 (allows_trans (by decide) hP)
  | calSet ups => exact execCalSet_kept ups x2 h2 (allows_trans (by decide) hP)
  | utcOffsetSet ups => exact execUtcOffsetSet_kept ups x2 h2 (allows_trans (by decide) hP)
  | logRead norOk ups => exact execLogRead_kept norOk ups x2 h2 (allows_trans (by decide) hP)
  | logClear ups => exact execLogClear_kept ups x2 h2 (allows_trans (by decide) hP)
  | nvmRead norOk ups => exact execNvmRead_kept norOk ups x2 h2 (allows_trans (by decide) hP)
  | nvmWrite norOk ups => exact execNvmWrite_kept norOk ups x2 h2 (allows_trans (by decide) hP)
  | nvmErase ups => exact execNvmErase_kept ups x2 h2 (allows_trans (by decide) hP)
  | freeze ns ups => exact execFreeze_kept ns ups x2 h2 (allows_trans (by decide) hP)
  | thaw ups => exact execThaw_kept ups x2 h2 (allows_trans (by decide) hP)
  | observeRead ups => exact execObserveRead_kept ups x2 h2 (allows_trans (by decide) hP)
  | attest ups => exact execAttest_kept ups x2 h2 (allows_trans (by decide) hP)
  | acctRead ups => exact execAcctRead_kept ups x2 h2 (allows_trans (by decide) hP)
  | fenceUnit ups => exact execFenceUnit_kept ups x2 h2 (allows_trans (by decide) hP)
  | unfenceUnit ups => exact execUnfenceUnit_kept ups x2 h2 (allows_trans (by decide) hP)
  | powerState ups => exact execPowerState_kept ups x2 h2 (allows_trans (by decide) hP)
  | powerCapSet ups => exact execPowerCapSet_kept ups x2 h2 (allows_trans (by decide) hP)
  | releaseJobEnd => exact execReleaseJobEnd_kept x2 h2 (allows_trans (by decide) hP)
  | sliceResetJobEnd => exact execSliceResetJobEnd_kept x2 h2 (allows_trans (by decide) hP)
  | modelLoadJobEnd r => exact execModelLoadJobEnd_kept r x2 h2 (allows_trans (by decide) hP)
  | modelUnloadJobEnd => exact execModelUnloadJobEnd_kept x2 h2 (allows_trans (by decide) hP)
  | logClearJobEnd => exact execLogClearJobEnd_kept x2 h2 (allows_trans (by decide) hP)
  | nvmEraseJobEnd done => exact execNvmEraseJobEnd_kept done x2 h2 (allows_trans (by decide) hP)
  | pendingLayoutApply cycles => exact execPendingLayoutApply_kept cycles x2 h2 (allows_trans (by decide) hP)
  | schedSwapApply => exact execSchedSwapApply_kept x2 h2 (allows_trans (by decide) hP)
  | drainClusterPass => exact execDrainClusterPass_kept x2 h2 (allows_trans (by decide) hP)
  | setEndpointId m op eid => exact execSetEndpointId_kept m op eid x2 h2 (allows_trans (by decide) hP)
  | getEndpointId m => exact execGetEndpointId_kept m x2 h2 (allows_trans (by decide) hP)
  | getEndpointUuid m => exact execGetEndpointUuid_kept m x2 h2 (allows_trans (by decide) hP)
  | getMctpVersionSupport m ty => exact execGetMctpVersionSupport_kept m ty x2 h2 (allows_trans (by decide) hP)
  | getMessageTypeSupport m => exact execGetMessageTypeSupport_kept m x2 h2 (allows_trans (by decide) hP)
  | settid m tid => exact execSettid_kept m tid x2 h2 (allows_trans (by decide) hP)
  | gettid m => exact execGettid_kept m x2 h2 (allows_trans (by decide) hP)
  | getpldmversion m ty => exact execGetpldmversion_kept m ty x2 h2 (allows_trans (by decide) hP)
  | getpldmtypes m => exact execGetpldmtypes_kept m x2 h2 (allows_trans (by decide) hP)
  | getpldmcommands m ty => exact execGetpldmcommands_kept m ty x2 h2 (allows_trans (by decide) hP)
  | getsensorreading m id => exact execGetsensorreading_kept m id x2 h2 (allows_trans (by decide) hP)
  | getstatesensorreadings m id => exact execGetstatesensorreadings_kept m id x2 h2 (allows_trans (by decide) hP)
  | getpdrrepositoryinfo m => exact execGetpdrrepositoryinfo_kept m x2 h2 (allows_trans (by decide) hP)
  | getpdr m h => exact execGetpdr_kept m h x2 h2 (allows_trans (by decide) hP)
  | getfrurecordtablemetadata m => exact execGetfrurecordtablemetadata_kept m x2 h2 (allows_trans (by decide) hP)
  | getfrurecordtable m => exact execGetfrurecordtable_kept m x2 h2 (allows_trans (by decide) hP)
  | mctpOtherMessage m type ty cmd busy => exact execMctpOtherMessage_kept m type ty cmd busy x2 h2 (allows_trans (by decide) hP)
  | queueEnable n q value => exact execQueueEnable_kept n q value x2 h2 (allows_trans (by decide) hP)
  | queueDisable n q value => exact execQueueDisable_kept n q value x2 h2 (allows_trans (by decide) hP)
  | quiesceComplete n q => exact execQuiesceComplete_kept n q x2 h2 (allows_trans (by decide) hP)
  | doorbellWrite n q value => exact execDoorbellWrite_kept n q value x2 h2 (allows_trans (by decide) hP)
  | chainFetch n q r => exact execChainFetch_kept n q r x2 h2 (allows_trans (by decide) hP)
  | commandComplete n q ix ok sup => exact execCommandComplete_kept n q ix ok sup x2 h2 (allows_trans (by decide) hP)
  | queueIrqHoldoffEnd n q => exact execQueueIrqHoldoffEnd_kept n q x2 h2 (allows_trans (by decide) hP)
  | fenceStall n q => exact execFenceStall_kept n q x2 h2 (allows_trans (by decide) hP)
  | queueNop n q => exact execQueueNop_kept n q x2 h2 (allows_trans (by decide) hP)
  | copy n q host sent => exact execCopy_kept n q host sent x2 h2 (allows_trans (by decide) hP)
  | tensorGraph n q => exact execTensorGraph_kept n q x2 h2 (allows_trans (by decide) hP)
  | kernelRegister n q => exact execKernelRegister_kept n q x2 h2 (allows_trans (by decide) hP)
  | kernelRelease n q => exact execKernelRelease_kept n q x2 h2 (allows_trans (by decide) hP)
  | kernelLaunch n q => exact execKernelLaunch_kept n q x2 h2 (allows_trans (by decide) hP)
  | seqAdmit n q => exact execSeqAdmit_kept n q x2 h2 (allows_trans (by decide) hP)
  | seqAppend n q => exact execSeqAppend_kept n q x2 h2 (allows_trans (by decide) hP)
  | seqAppendApply n => exact execSeqAppendApply_kept n x2 h2 (allows_trans (by decide) hP)
  | seqCancel n q => exact execSeqCancel_kept n q x2 h2 (allows_trans (by decide) hP)
  | fenceRead n q => exact execFenceRead_kept n q x2 h2 (allows_trans (by decide) hP)
  | fenceReset n q => exact execFenceReset_kept n q x2 h2 (allows_trans (by decide) hP)
  | atsInvalidate vf tag => exact execAtsInvalidate_kept vf tag x2 h2 (allows_trans (by decide) hP)
  | forcedRelease => exact execForcedRelease_kept x2 h2 (allows_trans (by decide) hP)
  | claimTimeout => exact execClaimTimeout_kept x2 h2 (allows_trans (by decide) hP)
  | getVersion => exact execGetVersion_kept x2 h2 (allows_trans (by decide) hP)
  | getCapabilities ver xfer => exact execGetCapabilities_kept ver xfer x2 h2 (allows_trans (by decide) hP)
  | negotiateAlgorithms asym hash dhe aead sched => exact execNegotiateAlgorithms_kept asym hash dhe aead sched x2 h2 (allows_trans (by decide) hP)
  | challenge sum tr => exact execChallenge_kept sum tr x2 h2 (allows_trans (by decide) hP)
  | getMeasurements k sign tr => exact execGetMeasurements_kept k sign tr x2 h2 (allows_trans (by decide) hP)
  | keyExchange reqSid sum tr => exact execKeyExchange_kept reqSid sum tr x2 h2 (allows_trans (by decide) hP)
  | finish sid good => exact execFinish_kept sid good x2 h2 (allows_trans (by decide) hP)
  | heartbeat sid => exact execHeartbeat_kept sid x2 h2 (allows_trans (by decide) hP)
  | keyUpdate sid op tag => exact execKeyUpdate_kept sid op tag x2 h2 (allows_trans (by decide) hP)
  | endSession sid => exact execEndSession_kept sid x2 h2 (allows_trans (by decide) hP)
  | chunkSend handle num last bytes => exact execChunkSend_kept handle num last bytes x2 h2 (allows_trans (by decide) hP)
  | chunkGet handle num => exact execChunkGet_kept handle num x2 h2 (allows_trans (by decide) hP)
  | vendorDefinedRequest sid proto code => exact execVendorDefinedRequest_kept sid proto code x2 h2 (allows_trans (by decide) hP)
  | spdmUnsupportedRequest code => exact execSpdmUnsupportedRequest_kept code x2 h2 (allows_trans (by decide) hP)
  | doeAbort => exact execDoeAbort_kept x2 h2 (allows_trans (by decide) hP)
  | query sid => exact execQuery_kept sid x2 h2 (allows_trans (by decide) hP)
  | keyProg sid k set sub dir => exact execKeyProg_kept sid k set sub dir x2 h2 (allows_trans (by decide) hP)
  | kSetGo sid k set sub dir => exact execKSetGo_kept sid k set sub dir x2 h2 (allows_trans (by decide) hP)
  | kSetStop sid k set sub dir => exact execKSetStop_kept sid k set sub dir x2 h2 (allows_trans (by decide) hP)
  | getTdispVersion sid n => exact execGetTdispVersion_kept sid n x2 h2 (allows_trans (by decide) hP)
  | getTdispCapabilities sid n => exact execGetTdispCapabilities_kept sid n x2 h2 (allows_trans (by decide) hP)
  | lockInterfaceRequest sid n stream noFw lockMsix p2p redirect => exact execLockInterfaceRequest_kept sid n stream noFw lockMsix p2p redirect x2 h2 (allows_trans (by decide) hP)
  | getDeviceInterfaceReport sid n off len => exact execGetDeviceInterfaceReport_kept sid n off len x2 h2 (allows_trans (by decide) hP)
  | getDeviceInterfaceState sid n => exact execGetDeviceInterfaceState_kept sid n x2 h2 (allows_trans (by decide) hP)
  | startInterfaceRequest sid n nonce => exact execStartInterfaceRequest_kept sid n nonce x2 h2 (allows_trans (by decide) hP)
  | stopInterfaceRequest sid n => exact execStopInterfaceRequest_kept sid n x2 h2 (allows_trans (by decide) hP)
  | ideCheckFail k => exact execIdeCheckFail_kept k x2 h2 (allows_trans (by decide) hP)
  | sriovConfigWrite numVfs vfEnable vfMse vfBar0 vfBar2 => exact execSriovConfigWrite_kept numVfs vfEnable vfMse vfBar0 vfBar2 x2 h2 (allows_trans (by decide) hP)
  | busMasterClear n => exact execBusMasterClear_kept n x2 h2 (allows_trans (by decide) hP)
  | tdiTlpDrop n posted => exact execTdiTlpDrop_kept n posted x2 h2 (allows_trans (by decide) hP)
  | rngHealthFail => exact execRngHealthFail_kept x2 h2 (allows_trans (by decide) hP)
  | ecOperationEnd x => exact execEcOperationEnd_kept x x2 h2 (allows_trans (by decide) hP)
  | mapViewStore vf g value whole => exact execMapViewStore_kept vf g value whole x2 h2 (allows_trans (by decide) hP)
  | invCountStore vf count => exact execInvCountStore_kept vf count x2 h2 (allows_trans (by decide) hP)
  | invalidationComplete vf => exact execInvalidationComplete_kept vf x2 h2 (allows_trans (by decide) hP)
  | frameZeroComplete f => exact execFrameZeroComplete_kept f x2 h2 (allows_trans (by decide) hP)
  | patrol errs permille => exact execPatrol_kept errs permille x2 h2 (allows_trans (by decide) hP)
  | hbmRefresh ns => exact execHbmRefresh_kept ns x2 h2 (allows_trans (by decide) hP)
  | contextEnd c j => exact execContextEnd_kept c j x2 h2 (allows_trans (by decide) hP)
  | contextSwitch c cycles took => exact execContextSwitch_kept c cycles took x2 h2 (allows_trans (by decide) hP)
  | storeEntryRetire c ix => exact execStoreEntryRetire_kept c ix x2 h2 (allows_trans (by decide) hP)
  | loadDataReturn c j g n => exact execLoadDataReturn_kept c j g n x2 h2 (allows_trans (by decide) hP)
  | acopyComplete c j n => exact execAcopyComplete_kept c j n x2 h2 (allows_trans (by decide) hP)
  | asyncAddress c j n => exact execAsyncAddress_kept c j n x2 h2 (allows_trans (by decide) hP)
  | iadd c j g hi => exact execIadd_kept c j g hi x2 h2 (allows_trans (by decide) hP)
  | isub c j g hi => exact execIsub_kept c j g hi x2 h2 (allows_trans (by decide) hP)
  | imul c j g hi => exact execImul_kept c j g hi x2 h2 (allows_trans (by decide) hP)
  | imulhi c j g hi => exact execImulhi_kept c j g hi x2 h2 (allows_trans (by decide) hP)
  | imac c j g hi => exact execImac_kept c j g hi x2 h2 (allows_trans (by decide) hP)
  | imin c j g hi => exact execImin_kept c j g hi x2 h2 (allows_trans (by decide) hP)
  | imax c j g hi => exact execImax_kept c j g hi x2 h2 (allows_trans (by decide) hP)
  | and c j g hi => exact execAnd_kept c j g hi x2 h2 (allows_trans (by decide) hP)
  | or c j g hi => exact execOr_kept c j g hi x2 h2 (allows_trans (by decide) hP)
  | xor c j g hi => exact execXor_kept c j g hi x2 h2 (allows_trans (by decide) hP)
  | shl c j g hi => exact execShl_kept c j g hi x2 h2 (allows_trans (by decide) hP)
  | shr c j g hi => exact execShr_kept c j g hi x2 h2 (allows_trans (by decide) hP)
  | popc c j g hi => exact execPopc_kept c j g hi x2 h2 (allows_trans (by decide) hP)
  | clz c j g hi => exact execClz_kept c j g hi x2 h2 (allows_trans (by decide) hP)
  | iabs c j g hi => exact execIabs_kept c j g hi x2 h2 (allows_trans (by decide) hP)
  | bfe c j g hi => exact execBfe_kept c j g hi x2 h2 (allows_trans (by decide) hP)
  | fadd c j g hi => exact execFadd_kept c j g hi x2 h2 (allows_trans (by decide) hP)
  | fsub c j g hi => exact execFsub_kept c j g hi x2 h2 (allows_trans (by decide) hP)
  | fmul c j g hi => exact execFmul_kept c j g hi x2 h2 (allows_trans (by decide) hP)
  | fmac c j g hi => exact execFmac_kept c j g hi x2 h2 (allows_trans (by decide) hP)
  | fmin c j g hi => exact execFmin_kept c j g hi x2 h2 (allows_trans (by decide) hP)
  | fmax c j g hi => exact execFmax_kept c j g hi x2 h2 (allows_trans (by decide) hP)
  | frcp c j g hi => exact execFrcp_kept c j g hi x2 h2 (allows_trans (by decide) hP)
  | frsq c j g hi => exact execFrsq_kept c j g hi x2 h2 (allows_trans (by decide) hP)
  | fexp2 c j g hi => exact execFexp2_kept c j g hi x2 h2 (allows_trans (by decide) hP)
  | flog2 c j g hi => exact execFlog2_kept c j g hi x2 h2 (allows_trans (by decide) hP)
  | fsin c j g hi => exact execFsin_kept c j g hi x2 h2 (allows_trans (by decide) hP)
  | fcos c j g hi => exact execFcos_kept c j g hi x2 h2 (allows_trans (by decide) hP)
  | ftanh c j g hi => exact execFtanh_kept c j g hi x2 h2 (allows_trans (by decide) hP)
  | padd c j g hi => exact execPadd_kept c j g hi x2 h2 (allows_trans (by decide) hP)
  | pmul c j g hi => exact execPmul_kept c j g hi x2 h2 (allows_trans (by decide) hP)
  | pmac c j g hi => exact execPmac_kept c j g hi x2 h2 (allows_trans (by decide) hP)
  | icmp c j g hi => exact execIcmp_kept c j g hi x2 h2 (allows_trans (by decide) hP)
  | fcmp c j g hi => exact execFcmp_kept c j g hi x2 h2 (allows_trans (by decide) hP)
  | pcomb c j g hi => exact execPcomb_kept c j g hi x2 h2 (allows_trans (by decide) hP)
  | sel c j g hi => exact execSel_kept c j g hi x2 h2 (allows_trans (by decide) hP)
  | mov c j g hi => exact execMov_kept c j g hi x2 h2 (allows_trans (by decide) hP)
  | movi c j g hi => exact execMovi_kept c j g hi x2 h2 (allows_trans (by decide) hP)
  | cvt c j g hi => exact execCvt_kept c j g hi x2 h2 (allows_trans (by decide) hP)
  | rdlane c j g hi => exact execRdlane_kept c j g hi x2 h2 (allows_trans (by decide) hP)
  | ld c j g hi => exact execLd_kept c j g hi x2 h2 (allows_trans (by decide) hP)
  | lds c j g hi => exact execLds_kept c j g hi x2 h2 (allows_trans (by decide) hP)
  | st c j g hi => exact execSt_kept c j g hi x2 h2 (allows_trans (by decide) hP)
  | ldc c j g hi => exact execLdc_kept c j g hi x2 h2 (allows_trans (by decide) hP)
  | atomAdd c j g hi => exact execAtomAdd_kept c j g hi x2 h2 (allows_trans (by decide) hP)
  | atomSmin c j g hi => exact execAtomSmin_kept c j g hi x2 h2 (allows_trans (by decide) hP)
  | atomSmax c j g hi => exact execAtomSmax_kept c j g hi x2 h2 (allows_trans (by decide) hP)
  | atomUmin c j g hi => exact execAtomUmin_kept c j g hi x2 h2 (allows_trans (by decide) hP)
  | atomUmax c j g hi => exact execAtomUmax_kept c j g hi x2 h2 (allows_trans (by decide) hP)
  | atomAnd c j g hi => exact execAtomAnd_kept c j g hi x2 h2 (allows_trans (by decide) hP)
  | atomOr c j g hi => exact execAtomOr_kept c j g hi x2 h2 (allows_trans (by decide) hP)
  | atomXor c j g hi => exact execAtomXor_kept c j g hi x2 h2 (allows_trans (by decide) hP)
  | atomExch c j g hi => exact execAtomExch_kept c j g hi x2 h2 (allows_trans (by decide) hP)
  | atomCas c j g hi => exact execAtomCas_kept c j g hi x2 h2 (allows_trans (by decide) hP)
  | atomFadd c j g hi => exact execAtomFadd_kept c j g hi x2 h2 (allows_trans (by decide) hP)
  | acopy c j g hi => exact execAcopy_kept c j g hi x2 h2 (allows_trans (by decide) hP)
  | arrive c j g hi => exact execArrive_kept c j g hi x2 h2 (allows_trans (by decide) hP)
  | wait c j g hi => exact execWait_kept c j g hi x2 h2 (allows_trans (by decide) hP)
  | waitu c j g hi => exact execWaitu_kept c j g hi x2 h2 (allows_trans (by decide) hP)
  | ctrread c j g hi => exact execCtrread_kept c j g hi x2 h2 (allows_trans (by decide) hP)
  | xlane c j g hi => exact execXlane_kept c j g hi x2 h2 (allows_trans (by decide) hP)
  | vote c j g hi => exact execVote_kept c j g hi x2 h2 (allows_trans (by decide) hP)
  | bra c j g hi => exact execBra_kept c j g hi x2 h2 (allows_trans (by decide) hP)
  | jmpu c j g hi => exact execJmpu_kept c j g hi x2 h2 (allows_trans (by decide) hP)
  | join c j g hi => exact execJoin_kept c j g hi x2 h2 (allows_trans (by decide) hP)
  | call c j g hi => exact execCall_kept c j g hi x2 h2 (allows_trans (by decide) hP)
  | exit c j g hi => exact execExit_kept c j g hi x2 h2 (allows_trans (by decide) hP)
  | yield c j g hi => exact execYield_kept c j g hi x2 h2 (allows_trans (by decide) hP)
  | trap c j g hi => exact execTrap_kept c j g hi x2 h2 (allows_trans (by decide) hP)
  | yarrowNop c j g hi => exact execYarrowNop_kept c j g hi x2 h2 (allows_trans (by decide) hP)
  | mma c j g hi => exact execMma_kept c j g hi x2 h2 (allows_trans (by decide) hP)
  | fence c j g hi => exact execFence_kept c j g hi x2 h2 (allows_trans (by decide) hP)
  | rdsys c j g hi => exact execRdsys_kept c j g hi x2 h2 (allows_trans (by decide) hP)
  | wsave c j g hi => exact execWsave_kept c j g hi x2 h2 (allows_trans (by decide) hP)
  | wrestore c j g hi => exact execWrestore_kept c j g hi x2 h2 (allows_trans (by decide) hP)
  | wspill c j g hi => exact execWspill_kept c j g hi x2 h2 (allows_trans (by decide) hP)
  | wfill c j g hi => exact execWfill_kept c j g hi x2 h2 (allows_trans (by decide) hP)
  | wresume c j g hi => exact execWresume_kept c j g hi x2 h2 (allows_trans (by decide) hP)
  | wrdstate c j g hi => exact execWrdstate_kept c j g hi x2 h2 (allows_trans (by decide) hP)
  | kernelException c j g hi => exact execKernelException_kept c j g hi x2 h2 (allows_trans (by decide) hP)
  | operationStage u => exact execOperationStage_kept u x2 h2 (allows_trans (by decide) hP)
  | mmaOperation u => exact execMmaOperation_kept u x2 h2 (allows_trans (by decide) hP)
  | load u => exact execLoad_kept u x2 h2 (allows_trans (by decide) hP)
  | store u => exact execStore_kept u x2 h2 (allows_trans (by decide) hP)
  | release u => exact execRelease_kept u x2 h2 (allows_trans (by decide) hP)
  | matrixOpComplete u => exact execMatrixOpComplete_kept u x2 h2 (allows_trans (by decide) hP)
  | matrixUnitHang u => exact execMatrixUnitHang_kept u x2 h2 (allows_trans (by decide) hP)
  | blockEnqueue block => exact execBlockEnqueue_kept block x2 h2 (allows_trans (by decide) hP)
  | engineStepDispatch ix => exact execEngineStepDispatch_kept ix x2 h2 (allows_trans (by decide) hP)
  | engineStepComplete ix => exact execEngineStepComplete_kept ix x2 h2 (allows_trans (by decide) hP)
  | move ix host sent => exact execMove_kept ix host sent x2 h2 (allows_trans (by decide) hP)
  | fill ix sent => exact execFill_kept ix sent x2 h2 (allows_trans (by decide) hP)
  | gather ix => exact execGather_kept ix x2 h2 (allows_trans (by decide) hP)
  | gatherPages ix => exact execGatherPages_kept ix x2 h2 (allows_trans (by decide) hP)
  | elementwise ix => exact execElementwise_kept ix x2 h2 (allows_trans (by decide) hP)
  | reduce ix => exact execReduce_kept ix x2 h2 (allows_trans (by decide) hP)
  | normalise ix => exact execNormalise_kept ix x2 h2 (allows_trans (by decide) hP)
  | softmax ix => exact execSoftmax_kept ix x2 h2 (allows_trans (by decide) hP)
  | topk ix => exact execTopk_kept ix x2 h2 (allows_trans (by decide) hP)
  | decode ix plain => exact execDecode_kept ix plain x2 h2 (allows_trans (by decide) hP)
  | allReduce ix peers same => exact execAllReduce_kept ix peers same x2 h2 (allows_trans (by decide) hP)
  | allGather ix peers same => exact execAllGather_kept ix peers same x2 h2 (allows_trans (by decide) hP)
  | engineFenceStall ix n => exact execEngineFenceStall_kept ix n x2 h2 (allows_trans (by decide) hP)
  | engineHang ix => exact execEngineHang_kept ix x2 h2 (allows_trans (by decide) hP)
  | collectiveTimeout ix => exact execCollectiveTimeout_kept ix x2 h2 (allows_trans (by decide) hP)
  | scheduleGroupRead mid => exact execScheduleGroupRead_kept mid x2 h2 (allows_trans (by decide) hP)
  | slotStart => exact execSlotStart_kept x2 h2 (allows_trans (by decide) hP)
  | slotEnd ix => exact execSlotEnd_kept ix x2 h2 (allows_trans (by decide) hP)
  | lagQuantum c used => exact execLagQuantum_kept c used x2 h2 (allows_trans (by decide) hP)
  | exclusiveJobStart => exact execExclusiveJobStart_kept x2 h2 (allows_trans (by decide) hP)
  | exclLimit => exact execExclLimit_kept x2 h2 (allows_trans (by decide) hP)
  | slowdownNoticePost => exact execSlowdownNoticePost_kept x2 h2 (allows_trans (by decide) hP)
  | boundsEnforce n cycles => exact execBoundsEnforce_kept n cycles x2 h2 (allows_trans (by decide) hP)
  | stepBuild n r => exact execStepBuild_kept n r x2 h2 (allows_trans (by decide) hP)
  | stepEnd n actual => exact execStepEnd_kept n actual x2 h2 (allows_trans (by decide) hP)
  | cmpGrantWrite d value => exact execCmpGrantWrite_kept d value x2 h2 (allows_trans (by decide) hP)
  | campionCommandPoll d => exact execCampionCommandPoll_kept d x2 h2 (allows_trans (by decide) hP)
  | loadPrograms d => exact execLoadPrograms_kept d x2 h2 (allows_trans (by decide) hP)
  | loadNeurons d => exact execLoadNeurons_kept d x2 h2 (allows_trans (by decide) hP)
  | saveNeurons d => exact execSaveNeurons_kept d x2 h2 (allows_trans (by decide) hP)
  | run d => exact execRun_kept d x2 h2 (allows_trans (by decide) hP)
  | halt d => exact execHalt_kept d x2 h2 (allows_trans (by decide) hP)
  | clear d => exact execClear_kept d x2 h2 (allows_trans (by decide) hP)
  | etimeAdvance d => exact execEtimeAdvance_kept d x2 h2 (allows_trans (by decide) hP)
  | eventRun k => exact execEventRun_kept k x2 h2 (allows_trans (by decide) hP)
  | sweepVisit k => exact execSweepVisit_kept k x2 h2 (allows_trans (by decide) hP)
  | fanOut k => exact execFanOut_kept k x2 h2 (allows_trans (by decide) hP)
  | tokenArrive d port ix => exact execTokenArrive_kept d port ix x2 h2 (allows_trans (by decide) hP)
  | tokenDue k => exact execTokenDue_kept k x2 h2 (allows_trans (by decide) hP)
  | ingressToken d p dest var delay weight => exact execIngressToken_kept d p dest var delay weight x2 h2 (allows_trans (by decide) hP)
  | injectionRead d => exact execInjectionRead_kept d x2 h2 (allows_trans (by decide) hP)
  | campionFault d code => exact execCampionFault_kept d code x2 h2 (allows_trans (by decide) hP)
  | campionHang d => exact execCampionHang_kept d x2 h2 (allows_trans (by decide) hP)
  | snsGrantWrite d value => exact execSnsGrantWrite_kept d value x2 h2 (allows_trans (by decide) hP)
  | frameStart d j vc num => exact execFrameStart_kept d j vc num x2 h2 (allows_trans (by decide) hP)
  | rawLinePacket d j vc dt payload crcOk => exact execRawLinePacket_kept d j vc dt payload crcOk x2 h2 (allows_trans (by decide) hP)
  | frameEnd d j vc => exact execFrameEnd_kept d j vc x2 h2 (allows_trans (by decide) hP)
  | frameTimeout d j => exact execFrameTimeout_kept d j x2 h2 (allows_trans (by decide) hP)
  | eventPacket d j vc dt payload crcOk => exact execEventPacket_kept d j vc dt payload crcOk x2 h2 (allows_trans (by decide) hP)
  | otherPacket d j vc dt eccOk => exact execOtherPacket_kept d j vc dt eccOk x2 h2 (allows_trans (by decide) hP)
  | aerWord d word => exact execAerWord_kept d word x2 h2 (allows_trans (by decide) hP)
  | triggerPulse d t len => exact execTriggerPulse_kept d t len x2 h2 (allows_trans (by decide) hP)
  | flitReceive p f ok corr unc => exact execFlitReceive_kept p f ok corr unc x2 h2 (allows_trans (by decide) hP)
  | credit p b => exact execCredit_kept p b x2 h2 (allows_trans (by decide) hP)
  | ack p b => exact execAck_kept p b x2 h2 (allows_trans (by decide) hP)
  | nak p b => exact execNak_kept p b x2 h2 (allows_trans (by decide) hP)
  | delayReq p b turn => exact execDelayReq_kept p b turn x2 h2 (allows_trans (by decide) hP)
  | delayResp p b t4 => exact execDelayResp_kept p b t4 x2 h2 (allows_trans (by decide) hP)
  | freezeSymbol p b => exact execFreezeSymbol_kept p b x2 h2 (allows_trans (by decide) hP)
  | thawSymbol p b => exact execThawSymbol_kept p b x2 h2 (allows_trans (by decide) hP)
  | failNotice p b => exact execFailNotice_kept p b x2 h2 (allows_trans (by decide) hP)
  | announce p b => exact execAnnounce_kept p b x2 h2 (allows_trans (by decide) hP)
  | pause p b => exact execPause_kept p b x2 h2 (allows_trans (by decide) hP)
  | drained p b => exact execDrained_kept p b x2 h2 (allows_trans (by decide) hP)
  | trainHello p b lanes => exact execTrainHello_kept p b lanes x2 h2 (allows_trans (by decide) hP)
  | trainKey p b => exact execTrainKey_kept p b x2 h2 (allows_trans (by decide) hP)
  | legTrainEnd p ok => exact execLegTrainEnd_kept p ok x2 h2 (allows_trans (by decide) hP)
  | linkTrainEnd p r => exact execLinkTrainEnd_kept p r x2 h2 (allows_trans (by decide) hP)
  | portFailed p => exact execPortFailed_kept p x2 h2 (allows_trans (by decide) hP)
  | portRetryTimer p legLost => exact execPortRetryTimer_kept p legLost x2 h2 (allows_trans (by decide) hP)
  | elementStateChange p opened => exact execElementStateChange_kept p opened x2 h2 (allows_trans (by decide) hP)
  | peerStreamAppear p => exact execPeerStreamAppear_kept p x2 h2 (allows_trans (by decide) hP)
  | portCtrlWrite p v => exact execPortCtrlWrite_kept p v x2 h2 (allows_trans (by decide) hP)
  | ewbAdmit v => exact execEwbAdmit_kept v x2 h2 (allows_trans (by decide) hP)
  | ewbRemove v => exact execEwbRemove_kept v x2 h2 (allows_trans (by decide) hP)
  | insertionWindow => exact execInsertionWindow_kept x2 h2 (allows_trans (by decide) hP)
  | tapSilentEntry => exact execTapSilentEntry_kept x2 h2 (allows_trans (by decide) hP)
  | entryTimeout => exact execEntryTimeout_kept x2 h2 (allows_trans (by decide) hP)
  | windowAbandon => exact execWindowAbandon_kept x2 h2 (allows_trans (by decide) hP)
  | uncontainedFault code unit inst modelMap => exact execUncontainedFault_kept code unit inst modelMap x2 h2 (allows_trans (by decide) hP)
  | containedFault vf code exc arg pc => exact execContainedFault_kept vf code exc arg pc x2 h2 (allows_trans (by decide) hP)
  | recoveryEnd => exact execRecoveryEnd_kept x2 h2 (allows_trans (by decide) hP)
  | faultNoticePost => exact execFaultNoticePost_kept x2 h2 (allows_trans (by decide) hP)
  | fltInject v => exact execFltInject_kept v x2 h2 (allows_trans (by decide) hP)
  | recordCreate code sev vf unit arg16 arg => exact execRecordCreate_kept code sev vf unit arg16 arg x2 h2 (allows_trans (by decide) hP)
  | drainPageProgram log ok => exact execDrainPageProgram_kept log ok x2 h2 (allows_trans (by decide) hP)
  | eraseAheadComplete sectors ok => exact execEraseAheadComplete_kept sectors ok x2 h2 (allows_trans (by decide) hP)
  | recorderNoticePost => exact execRecorderNoticePost_kept x2 h2 (allows_trans (by decide) hP)
  | freezeRequest src domain => exact execFreezeRequest_kept src domain x2 h2 (allows_trans (by decide) hP)
  | freezeStatic => exact execFreezeStatic_kept x2 h2 (allows_trans (by decide) hP)
  | thawResume => exact execThawResume_kept x2 h2 (allows_trans (by decide) hP)
  | blankingEnd low => exact execBlankingEnd_kept low x2 h2 (allows_trans (by decide) hP)
  | extest bits value => exact execExtest_kept bits value x2 h2 (allows_trans (by decide) hP)
  | idcode => exact execIdcode_kept x2 h2 (allows_trans (by decide) hP)
  | samplePreload bits value => exact execSamplePreload_kept bits value x2 h2 (allows_trans (by decide) hP)
  | clamp => exact execClamp_kept x2 h2 (allows_trans (by decide) hP)
  | highz => exact execHighz_kept x2 h2 (allows_trans (by decide) hP)
  | obsAddr v => exact execObsAddr_kept v x2 h2 (allows_trans (by decide) hP)
  | obsData => exact execObsData_kept x2 h2 (allows_trans (by decide) hP)
  | obsStatus => exact execObsStatus_kept x2 h2 (allows_trans (by decide) hP)
  | bypass ir => exact execBypass_kept ir x2 h2 (allows_trans (by decide) hP)
  | powerSample avgMw => exact execPowerSample_kept avgMw x2 h2 (allows_trans (by decide) hP)
  | thermalStep hottest => exact execThermalStep_kept hottest x2 h2 (allows_trans (by decide) hP)
  | telemetryUpdate volt power energyMj temps => exact execTelemetryUpdate_kept volt power energyMj temps x2 h2 (allows_trans (by decide) hP)
  | perstNRelease => exact execPerstNRelease_kept x2 h2 (allows_trans (by decide) hP)
  | loRegisterRead fn a => exact execLoRegisterRead_kept fn a x2 h2 (allows_trans (by decide) hP)
  | recoveryTimeout => exact execRecoveryTimeout_kept x2 h2 (allows_trans (by decide) hP)
  | clockLaneInactive d j => exact execClockLaneInactive_kept d j x2 h2 (allows_trans (by decide) hP)

end Sys2Proof.Machine
end

