-- ==== Sys2Proof/Laws/KeptStep.lean ====
section
/-! SUPPORT. What each operation of Machine/Step.lean keeps: see `Kept`. -/

namespace Sys2Proof.Machine

variable {P : Nat} {b : State}

theorem idle_kept (x1 : State) (h1 : Kept P b x1) (hP : allows 16777216 P = true) :
    Kept P b (State.idle x1) := by
  unfold State.idle
  repeat' first
    | with_reducible first
      | assumption | split | apply Kept.set_clk_runClk

--skip

theorem step_kept (s : State) : KeptR 8589934587 s (step s) := by
  unfold step
  split
  · exact keptR_next ((Kept.refl s).set_clk_runClk _ _ (by decide))
  · exact exec_kept _ _ ((Kept.refl s).other (fun p hp => by cases p <;> first | (exact absurd hp (by decide)) | rfl) rfl rfl rfl rfl rfl rfl)
      (by decide)

end Sys2Proof.Machine
end

