-- ==== Sys2Proof/Tests/States.lean ====
section
/-! SUPPORT. Small concrete states for the tests and for the witnesses of the statements' hypotheses. -/

namespace Sys2Proof.Tests

set_option Elab.async false

open Sys2Proof.Machine

/-- A part with two link dies (sites 0 and 1) and two sensor dies (sites 2 and 3), stepping B0. -/
def part : Fused :=
  { stepping := 0xB0, stackFitted := 0xFF, ioType := [1, 1, 2, 2], moduleRev := 1, serial := 5, maxPower := 1000,
    ikPub := [], bkPub := [] }

/-- The part right after reset. -/
def base : State := { State.reset with fused := part }

/-- `s` with these register fields set. -/
def withFlds (s : State) (l : List (Fld × Nat)) : State := l.foldl (fun s p => s.setFld p.1 p.2) s

/-- `s` with these registers set. -/
def withRegs (s : State) (l : List (Nat × Nat)) : State := l.foldl (fun s p => s.setReg p.1 (BitVec.ofNat 32 p.2)) s

/-- The part with its boot sequence done: PERST_N released, configuration requests answered, every step passed. -/
def booted : State :=
  withRegs { base with pwr := { base.pwr with perst := false }, boot := { base.boot with configReady := true } }
    [(R.BOOT_STATUS, 0x1A), (R.BOOT_OUTCOME_LO, 0x11111111), (R.BOOT_OUTCOME_HI, 1), (R.ID_CLUSTER_USABLE_LO, 0xFFFFFFFF),
     (R.ID_CLUSTER_USABLE_HI, 0xFFFF), (R.ID_SITES, 0xFF0000)]

/-- The part without power. -/
def dead : State := { base with pwr := { base.pwr with mode := .failed } }

/-- The state a command ends in. -/
def next : Res → State
  | .next t => t
  | _ => base

/-- A control symbol with its CRC-8. -/
def sym (type : Nat) (body : List Byte) : List Byte := symbolOf type body

end Sys2Proof.Tests
end

