-- ==== Sys2Proof/Tests/WitnessA.lean ====
section
/-! SUPPORT. Concrete states and operands that meet the hypotheses of the statements: power, boot, tick, freeze, function
resets, exchange memory, registers and the command engine. -/

namespace Sys2Proof.Tests

set_option Elab.async false

open Sys2Proof.Machine

/-! ### The machine as a whole -/

theorem witness_StepRunsFront : ({ base with pending := [.idcode] } : State).pending = .idcode :: [] := rfl

theorem witness_EmptyQueueIdles : base.pending = [] := rfl

theorem witness_QueueUntouched : exec (.tickInEdge 1) base = .next base := rfl

theorem witness_FusesNeverChange : step base = .next base.idle ∧ 3 < 4 := ⟨rfl, by decide⟩

theorem witness_StoresStayCanonical : base.canonical = true ∧ step base = .next base.idle := ⟨by decide +kernel, rfl⟩

/-! ### Power and boot -/

theorem witness_PowerOnStartsSequencer :
    ({ base with pwr := { base.pwr with restartDue := true } } : State).pwr.restartDue = true ∧ base.pwr.restartDue = false := by
  decide +kernel

theorem witness_WarmResetsKeepTheTick : base.pwr.mode = .on ∧ dead.pwr.mode ≠ .on := by decide +kernel

theorem witness_PowerLossShedsPower : base.pwr.mode = .on ∧ dead.pwr.mode ≠ .on ∧
    0 ∈ (base.setFld (F.EWB_P_STATUS_STATE 0) 4).trainedPorts := by decide +kernel

/-- In the order of the clauses: no PCIe yet, a link up before step 8, and the finished boot. -/
theorem witness_ConfigRequestsAnswer : base.pcieUp = false ∧
    (let s : State := { booted with boot := { booted.boot with configReady := false } }
     s.pcieUp = true ∧ s.boot.configReady = false) ∧
    (booted.pcieUp = true ∧ booted.boot.configReady = true ∧ booted.pfOnly = false) ∧ 63 < 64 := by decide +kernel

theorem witness_BootStepsFollowEachOther :
    (let s := base.setFld F.BOOT_STATUS_STEP 2
     s.fld F.BOOT_STATUS_STEP = 2 ∧ s.frozen = false ∧ s.boot.waitPerst = false ∧ s.pwr.mode = .on) ∧
    (let s := base.setFld F.BOOT_STATUS_STEP 9
     s.fld F.BOOT_STATUS_STEP = 9 ∧ s.frozen = false ∧ s.boot.waitPerst = false ∧ s.pwr.mode = .on) ∧
    booted.fld F.BOOT_STATUS_STEP = 10 ∧ base.pwr.perst = true ∧ booted.pwr.perst = false := by decide +kernel

/-! ### Tick -/

/-- A part that listens for its tick. -/
def listening : State := { base with tick := { base.tick with listening := true } }

/-- A marker of module 3, count 7, period 1 ms. -/
def marker3 : MarkerMsg :=
  { master := 3, hops := 1, holdover := false, timeValid := false, count := 7, tai := 0, period := 100000, next := none,
    offset := 0 }

/-- A part whose tick runs. -/
def ticking : State := { base with tick := { base.tick with running := true } }

theorem witness_TickAcquireChooses :
    (let s : State := { listening with tick := { listening.tick with heard := [(0, 5, marker3)] } }
     s.tick.listening = true ∧ s.frozen = false ∧ s.jobOf 0x0602 = none ∧
     s.tick.heard.find? (fun h => h.1 == 0) = some (0, 5, marker3) ∧ marker3.period < 2 ^ 27) ∧
    (listening.tick.listening = true ∧ listening.frozen = false ∧ listening.jobOf 0x0602 = none ∧
     listening.tick.heard = [] ∧ listening.tick.acqEdges = []) := by decide +kernel

theorem witness_TickBoundaryCounts : ticking.tick.running = true ∧ ticking.frozen = false ∧ ticking.pwr.mode = .on ∧
    base.tick.running = false := by decide +kernel

theorem witness_ReferencesAreWatched :
    (100 ≤ 100 ∧ base.frozen = false ∧ (99 : Nat) < 100) ∧
    (let s := base.setFld F.TCK_PRI_SRC_KIND 1
     s.fld F.TCK_PRI_SRC_KIND = 1 ∧ s.tick.pri.pred = false ∧ s.frozen = false) ∧
    (let s := ticking.setFld F.TCK_CONFIG_ROLE 1
     s.frozen = false ∧ s.tick.listening = false ∧ s.tick.running = true ∧ s.bit F.TCK_CONFIG_ROLE = true ∧
     marker3.master ≠ s.address ∧ s.bit F.TCK_STATUS_DUAL_MASTER = false) ∧
    (let s := ticking.setFld F.TCK_CONFIG_ROLE 0
     s.bit F.TCK_CONFIG_ROLE = false ∧ marker3.master ≠ (s.reg R.TCK_MASTER_ID).toNat % 512) ∧
    (let s := withFlds base [(refValid 1, 1), (refKind 1, 2)]
     s.bit (refValid 1) = true ∧ s.fld (refKind 1) ≠ 3 ∧ s.fld (refKind 1) ≠ 0 ∧ s.frozen = false) ∧
    (let s : State := { base.setFld (refValid 0) 1 with runClk := 10000000000 }
     s.bit (refValid 0) = true ∧ 1000000 * s.fld F.TCK_HOLDOFF_HOLDOFF_MS ≤ s.runClk - (s.refOf 0).since) := by decide +kernel

theorem witness_PendingTickChangesApply :
    (let s := base.setFld F.TCK_STATUS_PERIOD_PENDING 1
     s.bit F.TCK_STATUS_PERIOD_PENDING = true ∧ s.pair R.TCK_NEXT_AT_LO R.TCK_NEXT_AT_HI ≤ s.tickCount ∧ s.frozen = false) ∧
    (let s : State := { base with tick := { base.tick with pendTime := some (0, 5, 0x0603) } }
     s.tick.pendTime = some (0, 5, 0x0603) ∧ 0 ≤ s.tickCount ∧ s.frozen = false) ∧
    (let s := withFlds base [(F.CAL_STATUS_UTC_PENDING, 1), (F.TCK_STATUS_TIME_VALID, 1)]
     s.bit F.CAL_STATUS_UTC_PENDING = true ∧ s.timeValid = true ∧
     s.pair R.CAL_UTC_NEXT_AT_LO R.CAL_UTC_NEXT_AT_HI ≤ s.tai ∧ s.frozen = false) ∧
    (let s := (base.setPair R.TCK_TICK_TIME_LO R.TCK_TICK_TIME_HI (2 ^ 64 - 1)).setFld F.TCK_STATUS_TIME_VALID 1
     s.calOut = true ∧ s.tick.wasOut = false ∧ s.frozen = false) ∧
    (base.setFld F.FRZ_STATUS_STATE 2).frozen = true := by decide +kernel

/-- A pending tick notice. -/
def notice0 : TickNotice :=
  { cause := 1, state := 1, prev := 4, causes := 1, count := 1, tick := 9, tai := 0, phase := 0, status := 0, other := 0,
    offset := 0 }

theorem witness_TickNoticeAndDelays :
    (let s : State := { base with tick := { base.tick with notice := some notice0 } }
     s.tick.notice = some notice0 ∧ s.slotState 1012 = 0) ∧
    base.tick.notice = none ∧ base.tickCount % 1024 = 0 ∧ (base.setReg R.TCK_COUNT_LO 1).tickCount % 1024 ≠ 0 ∧
    0 ∈ (base.setFld (F.EWB_P_STATUS_STATE 0) 4).livePorts := by decide +kernel

/-! ### Freeze, TAP and limiter -/

/-- A frozen part. -/
def frozen2 : State := base.setFld F.FRZ_STATUS_STATE 2

theorem witness_FreezeRequestsFreeze :
    (base.frozen = false ∧ base.bit F.FRZ_STATUS_BLANKING = false) ∧
    (base.setFld F.FRZ_STATUS_BLANKING 1).bit F.FRZ_STATUS_BLANKING = true ∧ (15 : Nat) < 16 ∧ frozen2.frozen = true ∧
    (symOk 0x09 (sym 0x09 [0, 3, 0, 7]) = true ∧ base.portState 0 ≠ 2 ∧
     base.ewb.seenFreeze.contains (0x09, leAt (sym 0x09 [0, 3, 0, 7]) 2 2 % 512, leAt (sym 0x09 [0, 3, 0, 7]) 4 1) = false) := by
  decide +kernel

theorem witness_ThawsRelease :
    (let s := base.setFld F.FRZ_STATUS_STATE 1
     s.fld F.FRZ_STATUS_STATE = 1 ∧ s.frz.thawPending = 0) ∧
    (let s : State := { base.setFld F.FRZ_STATUS_STATE 1 with frz := { base.frz with thawPending := 2 } }
     s.fld F.FRZ_STATUS_STATE = 1 ∧ s.frz.thawPending ≠ 0) ∧
    (symOk 0x0A (sym 0x0A [0, 3, 0, 7]) = true ∧ frozen2.portState 15 ≠ 2 ∧ frozen2.fld F.FRZ_STATUS_STATE = 2) ∧
    base.fld F.FRZ_STATUS_STATE ≠ 1 ∧ base.fld F.FRZ_STATUS_STATE ≠ 3 ∧ base.bit F.FRZ_STATUS_BLANKING = false ∧
    (base.setFld F.FRZ_STATUS_BLANKING 1).bit F.FRZ_STATUS_BLANKING = true := by decide +kernel

theorem witness_ThawsRelease_resume :
    (base.setFld F.FRZ_STATUS_STATE 3).fld F.FRZ_STATUS_STATE = 3 ∧ base.flt.injectDue = false ∧ base.boot.waitPerst = false ∧
    (∀ n, tst (((base.setFld F.FRZ_STATUS_STATE 3).slice n).clearing) 4 = false) :=
  ⟨by decide +kernel, rfl, rfl, fun n => by
    rw [show (base.setFld F.FRZ_STATUS_STATE 3).slice n = {} from rfl]; decide⟩

theorem witness_TapReadsAndDrives : base.pwr.perst = true ∧ booted.pwr.perst = false ∧ 0x22 < 0x3F := by decide +kernel

theorem witness_LimiterAndTelemetry :
    (base.capMw < 1000001 ∧ 1 ≤ base.fld F.PWR_STATUS_STEP) ∧
    (let s := base.setFld F.PWR_STATUS_STEP 0
     s.capMw < 1000001 ∧ s.fld F.PWR_STATUS_STEP = 0 ∧ s.frz.hold = false) ∧
    (let s : State := { base.setFld F.PWR_STATUS_STEP 5 with frz := { base.frz with lowUs := 9990 } }
     10 * 899999 < 9 * s.capMw ∧ 9990 ≤ s.frz.lowUs ∧ s.frz.hottest < 90 ∧ s.fld F.PWR_STATUS_STEP < 6) ∧
    ((95 : Int) ≤ 95 ∧ (105 : Int) ≤ 105) := by decide +kernel

/-! ### Function resets and power states -/

/-- A part whose VF 1 has an active slice. -/
def sliced : State := booted.setFld (F.SLC_S_STATE_STATE 1) 2

theorem witness_FunctionResets :
    (booted.boot.configReady = true ∧ booted.pwr.mode = .on ∧ (booted.slice 63).flrBusy = false) ∧
    (sliced.sliceState 1 ≠ 0 ∧ (sliced.slice 1).flrBusy = false) ∧
    ((sliced.modSlice 1 (fun x => { x with flrBusy := true })).slice 1).flrBusy = true ∧
    (let s := sliced.modSlice 1 (fun x => { x with clearing := 2 })
     (s.slice 1).clearing / 2 % 8 ≠ 0 ∧ s.fld F.SLC_TEN_STATUS_STATE ≠ 3 ∧ s.frozen = false) ∧
    (booted.slice 1).clearing / 2 % 8 = 0 := by decide +kernel

theorem witness_ControlWritesPutTdisInError : booted.boot.configReady = true ∧ booted.pwr.mode = .on ∧
    (booted.setFld (F.SEC_TDI_STATE 63) 1).tdi 63 = 1 := by decide +kernel

theorem witness_DozeAndDStates :
    (booted.unitIdle 172 = true ∧
     (let s : State := { booted with ffe := { booted.ffe with inst := [(0, { sub := [(1, [⟨[], 0, 0, false, none, none⟩])] })] } }
      s.unitIdle 144 = false)) ∧
    (let s : State := { ticking with pwr := { ticking.pwr with dozeAsked := true } }
     s.frozen = false ∧ s.tick.running = true ∧ s.pwr.doze = false ∧ s.pwr.dozeAsked = true ∧ s.dozeReady = true) ∧
    (let s : State := { ticking with pwr := { ticking.pwr with pf0D3 := true, dispatchOff := true } }
     s.pwr.pf0D3 = true ∧ s.pwr.dispatchOff = true ∧ s.noContext = true) ∧
    (let s : State := { booted with pwr := { booted.pwr with resumeFrom := 1 }, runClk := 200000 }
     s.frozen = false ∧ s.pwr.resumeFrom ≠ 0 ∧ s.pwr.resumeFrom + 200000 ≤ s.runClk + 1) ∧
    (let s : State := { booted with pwr := { booted.pwr with resumeFrom := 1 }, runClk := 199999 }
     s.frozen = false ∧ s.runClk + 1 < s.pwr.resumeFrom + 200000) ∧
    booted.boot.configReady = true ∧ booted.pwr.mode = .on ∧ tst 2 1 = true := by decide +kernel

/-! ### Exchange memory -/

/-- PF0 on port H, and the DMA of port D that may touch what PF0 may. -/
def pf : Req := ⟨0, 0, 0⟩

/-- A part whose region 0 covers the first 64 KiB for PF0: with semaphores where `sema`, and a lease of `us`. -/
def region0 (sema us : Nat) : State :=
  withFlds booted [(F.EXM_RGN_SIZE_SIZE 0, 1024), (F.EXM_RGN_ATTR_SEMA 0, sema), (F.EXM_RGN_LEASE_LEASE_US 0, us)]

theorem witness_ExchangeReadsAndWrites :
    (booted.target pf 0x100 = .exm 0x100 ∧ (wordsOf 0x100 16).any booted.inSema = false ∧
     ((List.range 16).all (fun i => booted.mayAccess pf (0x100 + i) false)) = true ∧
     ((List.range 16).all (fun i => booted.mayAccess pf (0x100 + i) true)) = true ∧
     (wordsOf 0x100 16).any booted.hasUe = false) ∧
    (booted.target ⟨0, 1, 1⟩ 0 = .exm 0 ∧ (wordsOf 0 8).any booted.inSema = false ∧ 0 % 8 + 8 ≤ 8 ∧
     booted.mayAccess ⟨0, 1, 1⟩ 0 false = false ∧ booted.mayAccess ⟨0, 1, 1⟩ 0 true = false) ∧
    ((region0 1 0).target pf 0x100 = .exm 0x100 ∧ (wordsOf 0x100 4).any (region0 1 0).inSema = true) ∧
    booted.target ⟨0, 1, 1⟩ 0x3F408 = .nothing := by decide +kernel

theorem witness_SemaphoreReadAcquires :
    (let s := region0 1 0
     s.target pf 0x100 = .exm 0x100 ∧ s.inSema 0x100 = true ∧ s.mayAccess pf 0x100 false = true ∧ s.exmLe 0x100 8 = 0) ∧
    (let s := (region0 1 0).exmPut 0x100 (leBytes 8 0x8001)
     s.inSema 0x100 = true ∧ s.mayAccess pf 0x100 false = true ∧ s.exmLe 0x100 8 ≠ 0) := by decide +kernel

theorem witness_SemaphoresRelease :
    (let s := (region0 1 0).exmPut 0x100 (leBytes 8 (token pf))
     s.target pf 0x100 = .exm 0x100 ∧ s.inSema 0x100 = true ∧ s.mayAccess pf 0x100 true = true ∧ s.exmLe 0x100 8 = token pf) ∧
    (region0 1 0).exmLe 0x100 8 ≠ token pf ∧
    (let s : State := { region0 1 5 with exm := { booted.exm with acq := [(0x100, 1)] }, runClk := 5000 }
     s.frozen = false ∧ (0x100, 1) ∈ s.exm.acq ∧ s.regionAt 0x100 = some (0, s.region 0) ∧ (s.region 0).sema = true ∧
     (s.region 0).lease ≠ 0 ∧ (s.region 0).lease * 1000 ≤ s.runClk + 1 - 1) ∧
    frozen2.frozen = true ∧
    (let s := region0 1 0
     s.inSema 0x100 = true ∧ s.exmLe 0x100 8 = 0 ∧ s.mayAccess pf 0x100 false = true ∧ s.mayAccess ⟨1, 1, 0⟩ 0x100 false = true ∧
     bitOf (s.reg R.EXM_TOKEN_PHASE).toNat (0x100 / 0x80000) = 0) := by decide +kernel

theorem witness_SlotsFollowTheirStates :
    (booted.slotState 0 = 0 ∧ mayProduce 0 (token pf) = true ∧ bitsOf 0x0001380000000001 47 40 = 56) ∧
    (let s := booted.setTrigger 0 0x0000380080000001
     s.slotState 0 = 1 ∧ s.isConsumer 0 (token ⟨1, 1, 0⟩) = true ∧ s.poster 0 = token pf ∧
     (slotParties 0).contains (token pf) = true) ∧
    (let s := booted.setTrigger 1012 0x00013800C0060001
     s.slotState 1012 = 1 ∧ s.isConsumer 1012 (token pf) = true) ∧
    (booted.setTrigger 0 0x0000380080000003).slotState 0 = 3 ∧ (slotParties 0).contains (token ⟨0, 1, 1⟩) = false ∧
    mayProduce 0 (token ⟨0, 1, 1⟩) = false := by decide +kernel

theorem witness_MessagesArePacedAndCountersCleared :
    (fget (fun _ => ({} : MsixPace)) booted.exm.msix 33).busy = false ∧
    (let p : MsixPace := { busy := true, merged := true, masked := false }
     let s : State := { booted with exm := { booted.exm with msix := [(0, p)] }, pci := { booted.pci with msixEnable := 1 } }
     p = fget (fun _ => ({} : MsixPace)) s.exm.msix (32 * 0 + 0) ∧ p.busy = true ∧ p.merged = true ∧ s.msixHeld 0 0 = false) ∧
    (let p : MsixPace := { busy := true, merged := true }
     let s : State := { booted with exm := { booted.exm with msix := [(0, p)] } }
     p = fget (fun _ => ({} : MsixPace)) s.exm.msix (32 * 0 + 0) ∧ s.msixHeld 0 0 = true) ∧
    tst (1 : Word).toNat 0 = true ∧ tst (0 : Word).toNat 0 = false := by decide +kernel

/-! ### Registers -/

theorem witness_LoReadsLatch :
    (R.TCK_COUNT_LO / 0x100000000 = 0 ∧ R.TCK_COUNT_LO % 4 = 0 ∧ booted.pwr.mode = .on ∧ isLo R.TCK_COUNT_LO = true ∧
     isHi R.TCK_COUNT_LO = false ∧ isHi R.TCK_COUNT_HI = true) ∧
    (fget (fun _ => 0) ({ booted with latch := [(latchKey 0 R.TCK_COUNT_HI, 6)] } : State).latch (latchKey 0 R.TCK_COUNT_HI) =
      (5 : Word).toNat + 1) ∧
    ({ base with pwr := { base.pwr with restartDue := true } } : State).pwr.restartDue = true := by decide +kernel

theorem witness_RegisterWritesFollowAccess :
    (R.FLT_CTRL / 0x100000000 = 0 ∧ R.FLT_CTRL % 4 = 0 ∧ booted.pwr.mode = .on ∧ booted.unfitted R.FLT_CTRL = false ∧
     ownRow R.FLT_CTRL = false ∧ booted.queueLocked R.FLT_CTRL = false ∧ msixTable R.FLT_CTRL = none ∧
     (regRowAt R.FLT_CTRL).isSome = true) ∧ (∀ w, settingOf R.FLT_CTRL w = w) ∧
    (msixTable 0x7FFFF0 = none ∧ regRowAt 0x7FFFF0 = none) :=
  ⟨by decide +kernel, fun _ => rfl, by decide +kernel⟩

/-! ### The command engine -/

/-- PF0's request with these payload bytes is posted in slot 0. -/
def asks (s : State) (p : List Byte) : State := (s.exmPut (slotAddr 0) (fitTo 56 p)).setTrigger 0 0x0000380080000001

theorem witness_EngineChecksInOrder :
    ((0x0001, Instr.nop []) ∈ engineCommands [] true 0 ∧ booted.nextSlot = none) ∧
    (let s := asks booted [1, 0]
     s.nextSlot = some 0 ∧ s.exmLe (slotAddr 0) 2 = 1 ∧ s.exmLe (slotAddr 0) 2 ≠ 2 ∧ (cmdRow 1).isSome = true ∧
     bitsOf (s.trigger 0) 47 40 = 56 ∧ (wordsOf (slotAddr 0) 56).any s.hasUe = false) ∧
    (let s := asks booted [1, 0, 5]
     (cmdRow 1).all (fun r => s.permitted r ⟨0, s.exmBytes (slotAddr 0) 56⟩ && !s.diagOnly && !s.frozen &&
       reservedOffsets r (s.exmBytes (slotAddr 0) 56) == [2]) = true) ∧
    (let s := asks (booted.setFld F.FLT_STATUS_STATE 3) [1, 0]
     (cmdRow 1).all (fun r => s.permitted r ⟨0, s.exmBytes (slotAddr 0) 56⟩ && s.diagOnly && !r.diag) = true) ∧
    (let s := asks frozen2 [1, 1]
     (cmdRow 0x0101).all (fun r => s.permitted r ⟨0, s.exmBytes (slotAddr 0) 56⟩ && s.frozen && !r.frz) = true) ∧
    (cmdRow 0x0101).any (fun r => !booted.permitted r ⟨1, []⟩) = true := by decide +kernel

theorem witness_EngineEndsRequests :
    ((booted.setTrigger 0 0x0000380080000002).slotState 0 = 2 ∧
     (booted.setTrigger 0 0x0000380080000002).isConsumer 0 engineToken = true ∧ (fitTo 56 ([] : List Byte)).length = 56) ∧
    (let s := asks booted [0xFF, 0xFF]
     s.nextSlot = some 0 ∧ cmdRow (s.exmLe (slotAddr 0) 2) = none ∧ bitsOf (s.trigger 0) 47 40 = 56 ∧
     s.eng.lastWasPf = false ∧ s.slotState 0 = 1 ∧ s.pwr.mode = .on) ∧
    bitsOf ((booted.setTrigger 0 0x0000370080000001).trigger 0) 47 40 ≠ 56 ∧
    (let s : State := { asks booted [1, 0] with eng := { booted.eng with lastWasPf := true } }
     s.eng.lastWasPf = true ∧ s.nextSlot = some 0) := by decide +kernel

end Sys2Proof.Tests
end

