-- ==== Sys2Proof/Tests/WitnessB.lean ====
section
/-! SUPPORT. Concrete states and operands that meet the hypotheses of the statements: the command engine's commands, the
management endpoint and the security engine. -/

namespace Sys2Proof.Tests

set_option Elab.async false

open Sys2Proof.Machine

/-- The request with these payload bytes is posted in slot `k` by its function. -/
def asksAt (s : State) (k : Nat) (p : List Byte) : State :=
  (s.exmPut (slotAddr k) (fitTo 56 p)).setTrigger k (0x0000380000000001 + (0x8000 + k) * 2 ^ 16)

/-- The state a command's body finds once the request in slot `k` is taken. -/
def takenAt (s : State) (k : Nat) : State := ((s.upset []).trigTake engineToken k).bump F.CMD_CNT_TAKEN_COUNT

/-- The request in slot `k`. -/
def callAt (s : State) (k : Nat) : Call := ⟨k, (takenAt s k).exmBytes (slotAddr k) 56⟩

/-- The engine takes the request in slot `k` next, it has opcode `op`, and no check of R163 ends it. -/
def asked (s : State) (op k : Nat) : Bool :=
  s.nextSlot == some k && s.exmLe (slotAddr k) 2 == op && bitsOf ((takenAt s k).trigger k) 47 40 == 56 &&
    !(wordsOf (slotAddr k) 56).any (takenAt s k).hasUe &&
    (match cmdRow ((callAt s k).arg 0 2) with | some r => (takenAt s k).preCheck r (callAt s k) == none | none => false)

/-- What `asked` decides is the premise of the statements. -/
theorem asked_of (s : State) (op k : Nat) (h : asked s op k = true) : Asked s op [] k (takenAt s k) (callAt s k) := by
  simp only [asked, Bool.and_eq_true, beq_iff_eq, Bool.not_eq_true'] at h
  obtain ⟨⟨⟨⟨h1, h2⟩, h3⟩, h4⟩, h5⟩ := h
  refine ⟨h1, h2, rfl, rfl, h3, h4, ?_⟩
  split at h5
  · exact ⟨_, by assumption, by simpa using h5⟩
  · cases h5

/-- A little-endian number at offset `o` of a payload. -/
def putAt (p : List Byte) (o n v : Nat) : List Byte := fitTo o p ++ leBytes n v ++ p.drop (o + n)

/-- A payload: opcode and arguments (offset, bytes, value), in rising order of offset. -/
def payload (op : Nat) (args : List (Nat × Nat × Nat)) : List Byte :=
  args.foldl (fun p a => putAt p a.1 a.2.1 a.2.2) (leBytes 2 op)

/-- A claimed part of VF 1, whose TDI runs. -/
def claimed : State := withFlds booted [(F.SLC_TEN_STATUS_STATE, 2), (F.SLC_TEN_STATUS_CLAIM_VF, 1), (F.SEC_TDI_STATE 1, 2)]

/-- The part with PF0's region 0 over the first 64 KiB, where the buffers lie. -/
def roomy : State := region0 0 0

/-- A job unit that runs a job with this opcode. -/
def running (s : State) (op fn a b : Nat) : State :=
  { s with eng := { s.eng with units := [(0, { state := 1, num := 1, fn := fn, op := op, total := 4, a := a, b := b })] } }

theorem witness_StatusCommandsReport :
    asked (asksAt booted 0 (payload 1 [])) 1 0 = true ∧ asked (asksAt booted 1 (payload 2 [])) 2 1 = true ∧
    (let s := asksAt (running booted 0x0705 0 0 1) 0 (payload 3 [(8, 2, 1)])
     asked s 3 0 = true ∧
     ((takenAt s 0).jobsOf 0).find? (fun j => ((takenAt s 0).job j).num == (callAt s 0).arg 8 2) = some 0) ∧
    asked (asksAt booted 0 (payload 0x0104 [])) 0x0104 0 = true ∧
    (let s := asksAt sliced 0 (payload 0x0206 [(8, 1, 1)])
     asked s 0x0206 0 = true ∧ (callAt s 0).arg 8 1 = 1) ∧
    (let s := asksAt roomy 0 (payload 0x0502 [(8, 1, 1), (10, 2, 2046), (12, 2, 2), (16, 4, 0x100)])
     asked s 0x0502 0 = true ∧ (callAt s 0).schedRange = none ∧
     (takenAt s 0).bufferOk 0 ((callAt s 0).arg 16 4) (32 * (callAt s 0).arg 12 2) = true) ∧
    (let s := asksAt roomy 0 (payload 0x0701 [(8, 1, 2), (12, 4, 1023), (16, 4, 1), (20, 4, 0x100)])
     asked s 0x0701 0 = true ∧ (callAt s 0).arg 8 1 = 2 ∧ (callAt s 0).arg 12 4 < 1024 ∧ 1 ≤ (callAt s 0).arg 16 4 ∧
     (takenAt s 0).bufferOk 0 ((callAt s 0).arg 20 4) (32 * (callAt s 0).arg 16 4) = true ∧ (takenAt s 0).norJob = false) ∧
    (let s := asksAt roomy 0 (payload 0x0703 [(8, 4, 0x1FFFFFF), (12, 4, 1), (16, 4, 0x100)])
     asked s 0x0703 0 = true ∧ (callAt s 0).arg 12 4 = 1 ∧ (callAt s 0).arg 8 4 + 1 ≤ 0x2000000 ∧
     (takenAt s 0).bufferOk 0 ((callAt s 0).arg 16 4) 1 = true ∧ (takenAt s 0).norJob = false ∧
     (takenAt s 0).evr.norDead = false) := by decide +kernel

theorem witness_StatusCommandsReport_reads :
    (let s := asksAt (roomy.setFld F.FRZ_STATUS_STATE 2) 0 (payload 0x0803 [(8, 2, 1), (0x10, 4, 8), (0x14, 4, 0x100)])
     asked s 0x0803 0 = true ∧
     (takenAt s 0).obsBad ((callAt s 0).arg 8 2) ((callAt s 0).arg 0xA 2) ((callAt s 0).arg 0xC 4) 8 = none ∧
     (takenAt s 0).bufferOk 0 ((callAt s 0).arg 0x14 4) 8 = true ∧ (takenAt s 0).fld F.FRZ_STATUS_STATE = 2) ∧
    (let s := asksAt roomy 0 (payload 0x0A01 [(12, 4, 0x100)])
     asked s 0x0A01 0 = true ∧ (callAt s 0).arg 8 1 = 0 ∧ (takenAt s 0).bufferOk 0 ((callAt s 0).arg 12 4) 256 = true) ∧
    (let s := asksAt (roomy.setFld (F.SLC_S_STATE_STATE 1) 2) 0 (payload 0x0A01 [(8, 1, 1), (12, 4, 0x100)])
     asked s 0x0A01 0 = true ∧ (takenAt s 0).sliceState ((callAt s 0).arg 8 1) ≠ 0) := by decide +kernel

theorem witness_TenancyFollowsItsStates :
    (let s := asksAt booted 0 (payload 0x0101 [(8, 2, 7)])
     asked s 0x0101 0 = true ∧ (takenAt s 0).tenancy = 0 ∧ (takenAt s 0).fld F.BOOT_STATUS_STEP = 0xA ∧
     (takenAt s 0).bit F.SEC_STATUS_RNG_FAIL = false ∧ (takenAt s 0).recovering = false) ∧
    (let s := asksAt (claimed.setFld F.SLC_TEN_STATUS_STATE 1) 1 (payload 0x0102 [(8, 2, 7)])
     asked s 0x0102 1 = true ∧ (takenAt s 1).tenancy = 1) ∧
    (let s := asksAt claimed 0 (payload 0x0103 [])
     asked s 0x0103 0 = true ∧ (takenAt s 0).tenancy = 2 ∧ (takenAt s 0).jobLimit 0 = false ∧
     (takenAt s 0).freeUnit.isSome = true) ∧
    (let s := asksAt claimed 1 (payload 0x0105 [(8, 1, 1)])
     asked s 0x0105 1 = true ∧ (callAt s 1).arg 8 1 ≤ 1 ∧ (takenAt s 1).tenancy = 2) ∧
    (let s := asksAt claimed 0 (payload 0x0101 [])
     asked s 0x0101 0 = true ∧ (takenAt s 0).tenancy ≠ 0) ∧
    (let s := asksAt claimed 1 (payload 0x0102 [])
     asked s 0x0102 1 = true ∧ (takenAt s 1).tenancy ≠ 1) ∧
    (let s := asksAt booted 0 (payload 0x0103 [])
     asked s 0x0103 0 = true ∧ (takenAt s 0).tenancy ≠ 1 ∧ (takenAt s 0).tenancy ≠ 2) ∧
    (let s := asksAt (claimed.setFld F.SLC_TEN_STATUS_STATE 1) 1 (payload 0x0105 [])
     asked s 0x0105 1 = true ∧ (takenAt s 1).tenancy ≠ 2) := by decide +kernel

theorem witness_TenancyFollowsItsStates_jobs :
    ((running booted 0x0103 0xFF 0 0).jobOf 0x0103 = some 0 ∧ (running booted 0x0103 0xFF 0 0).frozen = false) ∧
    booted.jobOf 0x0103 = none ∧
    (let s : State := { claimed.setFld (F.SEC_TDI_STATE 1) 3 with runClk := 100000000000 }
     s.tenancy = 2 ∧ s.gracePassed = true ∧ s.tenancyVfs = [1] ∧ s.tdi 1 ≠ 2 ∧ s.freeUnit.isSome = true) ∧
    (let s : State := { claimed.setFld F.SLC_TEN_STATUS_STATE 1 with runClk := 100000000000 }
     s.tenancy = 1 ∧ s.gracePassed = true ∧ s.freeUnit.isSome = true) ∧
    claimed.gracePassed = false := by decide +kernel

/-- SLICE_CREATE of VF 7 with clusters 0 to 7, 1 commons unit and 16 HBM units. -/
def create7 : List Byte :=
  payload 0x0201 [(8, 1, 7), (9, 1, 0), (10, 2, 1), (12, 8, 0xFF), (20, 4, 1), (24, 4, 16), (28, 2, 1)]

/-- VF 7's active slice as that command makes it. -/
def slice7 : State :=
  withRegs (withFlds claimed [(F.SLC_S_STATE_STATE 7, 2), (F.SLC_S_COMMONS_UNITS 7, 1), (F.SLC_S_HBM_UNITS 7, 16)])
    [(R.SLC_S_CLUSTERS_LO 7, 0xFF)]

theorem witness_SliceCommandsAreAccepted :
    (let s := asksAt claimed 0 create7
     asked s 0x0201 0 = true ∧ (callAt s 0).arg 8 1 = 7 ∧ (callAt s 0).layoutRange (takenAt s 0) = none ∧
     (takenAt s 0).tenancy = 2 ∧ (takenAt s 0).sliceState 7 = 0 ∧ (takenAt s 0).recovering = false ∧
     ((takenAt s 0).resourceCheck 7 (callAt s 0).layout false).isRight = true) ∧
    (let s := asksAt slice7 0 (payload 0x0202 [(8, 1, 7), (9, 1, 0), (10, 2, 1), (12, 8, 0xF), (20, 4, 1), (24, 4, 8), (28, 2, 1)])
     asked s 0x0202 0 = true ∧ (callAt s 0).layoutRange (takenAt s 0) = none ∧ (takenAt s 0).tenancy = 2 ∧
     (takenAt s 0).sliceState 7 = 2 ∧ (takenAt s 0).rtNamed 7 = false ∧ (takenAt s 0).recovering = false ∧
     ((takenAt s 0).resourceCheck 7 (callAt s 0).layout true).isRight = true) ∧
    (let s := asksAt slice7 0 (payload 0x0203 [(8, 1, 7)])
     asked s 0x0203 0 = true ∧ (callAt s 0).arg 8 1 = 7 ∧ (takenAt s 0).atTick ((callAt s 0).arg 32 8) = .inr 2 ∧
     (takenAt s 0).sliceState 7 = 2 ∧ (takenAt s 0).pendingOf 7 = none) ∧
    (let s := asksAt slice7 0 (payload 0x0204 [(8, 1, 7)])
     asked s 0x0204 0 = true ∧ (takenAt s 0).sliceState 7 = 2 ∧ (takenAt s 0).jobLimit 0 = false ∧
     (takenAt s 0).freeUnit.isSome = true) ∧
    (let s := asksAt booted 0 (payload 0x0205 [(8, 1, 63), (9, 1, 1), (10, 1, 48), (11, 1, 48)])
     asked s 0x0205 0 = true ∧ (callAt s 0).arg 8 1 = 63 ∧ (callAt s 0).arg 9 1 = 1 ∧ (callAt s 0).arg 10 1 = 48 ∧
     (callAt s 0).arg 11 1 = 48) ∧
    (let s := running slice7 0x0204 0 7 0
     s.jobOf 0x0204 = some 0 ∧ s.frozen = false ∧ s.tenancy ≠ 3) ∧ booted.jobOf 0x0204 = none := by decide +kernel

theorem witness_LayoutsChangeAtTheBoundary :
    (let s : State := { claimed with eng := { claimed.eng with changes := [⟨1, 7, 0, ⟨0, 1, 0xFF, 1, 16, 1⟩, 0, 0⟩] } }
     s.frozen = false ∧ 0 ≤ s.tickCount ∧ s.eng.changes = [⟨1, 7, 0, ⟨0, 1, 0xFF, 1, 16, 1⟩, 0, 0⟩]) ∧
    (let s : State := { slice7 with eng := { slice7.eng with changes := [⟨3, 7, 0, {}, 0, 0⟩] } }
     s.frozen = false ∧ s.eng.changes = [⟨3, 7, 0, {}, 0, 0⟩]) ∧
    slice7.noContext = true ∧ frozen2.frozen = true := by decide +kernel

theorem witness_ExchangeAndScheduleCommands :
    (let s := asksAt claimed 0 (payload 0x0301 [(8, 1, 127), (12, 4, 0x1FBC0), (16, 4, 1)])
     asked s 0x0301 0 = true ∧ (callAt s 0).arg 8 1 = 127 ∧ (callAt s 0).region.kind = 0 ∧ (callAt s 0).region.vf = 0 ∧
     (callAt s 0).arg 11 1 ≤ 1 ∧ (callAt s 0).arg 12 4 < 2 ^ 17 ∧ (callAt s 0).arg 16 4 < 2 ^ 17 ∧
     (callAt s 0).region.lease ≤ 1000000 ∧
     (takenAt s 0).regionConflict ((takenAt s 0).regionsWith 127 (callAt s 0).region) = false) ∧
    (let s := asksAt claimed 0 (payload 0x0302 [(8, 1, 63), (12, 4, 1969)])
     asked s 0x0302 0 = true ∧ (callAt s 0).arg 8 1 = 63 ∧ (callAt s 0).arg 12 4 = 1969 ∧
     (List.range 128).all (fun r => ((takenAt s 0).region r).size == 0) = true) ∧
    (let s := asksAt claimed 0 (payload 0x0207 [(8, 1, 0), (9, 1, 1), (10, 2, 257), (12, 2, 1)])
     asked s 0x0207 0 = true ∧ (callAt s 0).arg 9 1 ≤ 1 ∧ 256 < (callAt s 0).arg 10 2 ∧ (callAt s 0).arg 12 2 ≠ 0) ∧
    (let s := asksAt claimed 0 (payload 0x0501 [(8, 1, 0), (10, 2, 0), (12, 2, 1), (16, 4, 0x100)])
     let es := [stamp ((takenAt s 0).exmLe 0x100 32) ((takenAt s 0).entryAt 0)]
     let get := fun i => if 0 ≤ i && i < 0 + 1 then es.getD (i - 0) 0 else (takenAt s 0).entryAt (2048 * 0 + i)
     asked s 0x0501 0 = true ∧ (callAt s 0).schedRange = none ∧ (callAt s 0).arg 12 2 = 1 ∧
     (takenAt s 0).bufferOk 0 ((callAt s 0).arg 16 4) 32 = true ∧ (takenAt s 0).bufferUe ((callAt s 0).arg 16 4) 32 = false ∧
     (takenAt s 0).checkEntries (takenAt s 0).layNow (takenAt s 0).period10 get [0] = none ∧
     ((takenAt s 0).hyperOf 0).bind (fun h => exclWithRt get h [0]) = none ∧ (takenAt s 0).recovering = false) ∧
    (let s : State := { booted with eng := { booted.eng with changes := [⟨4, 0, 0, {}, 64, 0⟩] } }
     s.swapPending = some (0, 64) ∧ 0 ≤ s.tickCount ∧ s.frozen = false) ∧ booted.swapPending = none := by decide +kernel

theorem witness_ExchangeAndScheduleCommands_swap :
    (let s := asksAt claimed 0 (payload 0x0503 [(8, 1, 1)])
     asked s 0x0503 0 = true ∧ (callAt s 0).arg 8 1 = 1 ∧ (takenAt s 0).atTick ((callAt s 0).arg 16 8) = .inr 2 ∧
     (takenAt s 0).checkEntries (takenAt s 0).layNext ((takenAt s 0).periodNext 2)
       (fun i => (takenAt s 0).entryAt (2048 * (1 - (takenAt s 0).bank) + i)) (List.range 32) = none ∧
     exclWithRt (fun i => (takenAt s 0).entryAt (2048 * (1 - (takenAt s 0).bank) + i)) 1 [] = none ∧
     (takenAt s 0).swapPending = none ∧ (takenAt s 0).recovering = false) := by decide +kernel

/-- A master whose tick runs and whose TAI time is set. -/
def master : State :=
  withFlds { booted with tick := { booted.tick with running := true } } [(F.TCK_CONFIG_ROLE, 1), (F.TCK_STATUS_TIME_VALID, 1)]

theorem witness_TickAndTimeCommands :
    (let s := asksAt master 0 (payload 0x0601 [(8, 4, 0x10), (32, 4, 1000000)])
     asked s 0x0601 0 = true ∧ (takenAt s 0).tickConfigCheck (callAt s 0) = none ∧ tst ((callAt s 0).arg 8 4) 4 = true) ∧
    (let s := asksAt master 0 (payload 0x0601 [(8, 4, 0x10), (32, 4, 99)])
     asked s 0x0601 0 = true ∧ (takenAt s 0).tickConfigCheck (callAt s 0) = some (0x11, 32)) ∧
    (let s := asksAt master 0 (payload 0x0602 [])
     asked s 0x0602 0 = true ∧ (takenAt s 0).tenancy = 0 ∧ (takenAt s 0).acquiring = false ∧
     (takenAt s 0).jobLimit 0 = false ∧ (takenAt s 0).freeUnit.isSome = true) ∧
    (let s := asksAt master 0 (payload 0x0603 [(8, 8, 1000000000)])
     asked s 0x0603 0 = true ∧ (takenAt s 0).atTick ((callAt s 0).arg 16 8) = .inr 2 ∧ (takenAt s 0).timeCheck = none) ∧
    (let s := asksAt master 0 (payload 0x0604 [(8, 2, 2100), (10, 1, 3), (11, 1, 1)])
     asked s 0x0604 0 = true ∧ dateOk ((callAt s 0).arg 8 2) ((callAt s 0).arg 10 1) ((callAt s 0).arg 11 1)
       ((callAt s 0).arg 12 1) ((callAt s 0).arg 13 1) ((callAt s 0).arg 14 1) = true ∧
     (takenAt s 0).atTick ((callAt s 0).arg 16 8) = .inr 2 ∧ (takenAt s 0).timeCheck = none) ∧
    (let s := asksAt master 0 (payload 0x0604 [(8, 2, 2100), (10, 1, 2), (11, 1, 29)])
     asked s 0x0604 0 = true ∧ dateOk ((callAt s 0).arg 8 2) ((callAt s 0).arg 10 1) ((callAt s 0).arg 11 1)
       ((callAt s 0).arg 12 1) ((callAt s 0).arg 13 1) ((callAt s 0).arg 14 1) = false) ∧
    (let s := asksAt master 0 (payload 0x0605 [(8, 2, 37)])
     asked s 0x0605 0 = true ∧ (callAt s 0).arg 10 1 = 0) ∧
    (let s := asksAt master 0 (payload 0x0605 [(8, 2, 38), (10, 1, 1), (16, 8, 2000000000)])
     asked s 0x0605 0 = true ∧ (callAt s 0).arg 10 1 = 1 ∧ (takenAt s 0).timeValid = true ∧
     (takenAt s 0).tai < (callAt s 0).arg 16 8) := by decide +kernel

theorem witness_RecorderAndNvmCommands :
    (let s := asksAt booted 0 (payload 0x0702 [(8, 1, 1), (12, 4, 0x4C4F4743)])
     asked s 0x0702 0 = true ∧ (callAt s 0).arg 8 1 = 1 ∧ (callAt s 0).arg 12 4 = 0x4C4F4743 ∧
     (takenAt s 0).jobLimit 0 = false ∧ (takenAt s 0).norJob = false ∧ (takenAt s 0).freeUnit.isSome = true) ∧
    (let s := asksAt roomy 0 (payload 0x0704 [(8, 4, 0x1C00000), (12, 4, 256), (16, 4, 0x100)])
     asked s 0x0704 0 = true ∧ (callAt s 0).arg 8 4 / 256 = ((callAt s 0).arg 8 4 + 256 - 1) / 256 ∧
     nvmProtected ((callAt s 0).arg 8 4) 256 = true) ∧
    (let s := asksAt roomy 0 (payload 0x0704 [(8, 4, 0x1FFFF00), (12, 4, 256), (16, 4, 0x100)])
     asked s 0x0704 0 = true ∧ (callAt s 0).arg 8 4 + 256 ≤ 0x2000000 ∧ nvmProtected ((callAt s 0).arg 8 4) 256 = false ∧
     (takenAt s 0).bufferOk 0 ((callAt s 0).arg 16 4) 256 = true ∧ (takenAt s 0).bufferUe ((callAt s 0).arg 16 4) 256 = false ∧
     (takenAt s 0).tenancy = 0 ∧ (takenAt s 0).norJob = false ∧
     (takenAt s 0).norBytes ((callAt s 0).arg 8 4) 256 = List.replicate 256 0xFF) ∧
    (let s := asksAt booted 0 (payload 0x0705 [(8, 4, 0x1FFF000), (12, 4, 1)])
     asked s 0x0705 0 = true ∧ (callAt s 0).arg 8 4 % 4096 = 0 ∧ (callAt s 0).arg 8 4 + 4096 ≤ 0x2000000 ∧
     nvmProtected ((callAt s 0).arg 8 4) 4096 = false ∧ (takenAt s 0).tenancy = 0 ∧ (takenAt s 0).jobLimit 0 = false ∧
     (takenAt s 0).norJob = false ∧ (takenAt s 0).freeUnit.isSome = true) ∧
    nvmProtected 0x1C1F000 4096 = true ∧
    ((running booted 0x0705 0 0x1FFF000 1).jobOf 0x0705 = some 0 ∧ (running booted 0x0702 0 0 0).jobOf 0x0702 = some 0) ∧
    booted.jobOf 0x0702 = none ∧ booted.jobOf 0x0705 = none := by decide +kernel

theorem witness_FreezeFenceAndPowerCommands :
    (let s := asksAt booted 0 (payload 0x0801 [(8, 1, 1)])
     asked s 0x0801 0 = true ∧ (callAt s 0).arg 8 1 ≤ 1 ∧ (takenAt s 0).frozen = false) ∧
    (let s := asksAt (booted.setFld F.FRZ_STATUS_STATE 2) 0 (payload 0x0802 [])
     asked s 0x0802 0 = true ∧ (takenAt s 0).fld F.FRZ_STATUS_STATE = 2) ∧
    asked (asksAt booted 0 (payload 0x0802 [])) 0x0802 0 = true ∧
    (let s := asksAt booted 0 (payload 0x0B01 [(8, 2, 0x092F)])
     asked s 0x0B01 0 = true ∧ unitOf ((callAt s 0).arg 8 2) = some 83 ∧ (takenAt s 0).fitted 83 = true ∧
     (takenAt s 0).fencedNow 83 = false ∧ (takenAt s 0).unitHeld 83 = false ∧ [2, 5, 8, 12].contains (classOf 83) = false) ∧
    (let s := asksAt slice7 0 (payload 0x0B01 [(8, 2, 0x0900)])
     asked s 0x0B01 0 = true ∧ unitOf ((callAt s 0).arg 8 2) = some 36 ∧ (takenAt s 0).fencedNow 36 = false ∧
     (takenAt s 0).unitHeld 36 = true) ∧
    (let s := asksAt { booted with flt := { booted.flt with rtMask := 2 ^ 83 } } 0 (payload 0x0B01 [(8, 2, 0x092F)])
     asked s 0x0B01 0 = true ∧ (takenAt s 0).fencedNow 83 = true) ∧
    (let s := asksAt booted 0 (payload 0x0B02 [(8, 2, 0x092F)])
     asked s 0x0B02 0 = true ∧ unitOf ((callAt s 0).arg 8 2) = some 83) ∧
    (let s := asksAt booted 0 (payload 0x0C01 [(8, 1, 1)])
     asked s 0x0C01 0 = true ∧ (callAt s 0).arg 8 1 = 1 ∧ (takenAt s 0).activeRt = false) ∧
    (let s := asksAt { booted with sch := { booted.sch with table := [(0, 0x0101)] } } 0 (payload 0x0C01 [(8, 1, 1)])
     asked s 0x0C01 0 = true ∧ (takenAt s 0).activeRt = true) ∧
    (let s := asksAt { booted with pwr := { booted.pwr with doze := true } } 0 (payload 0x0C01 [])
     asked s 0x0C01 0 = true ∧ (callAt s 0).arg 8 1 = 0 ∧ (takenAt s 0).pwr.doze = true) ∧
    (let s := asksAt booted 0 (payload 0x0C02 [(8, 2, 1000)])
     asked s 0x0C02 0 = true ∧ 200 ≤ (callAt s 0).arg 8 2 ∧ (callAt s 0).arg 8 2 ≤ (takenAt s 0).fused.maxPower) := by
  decide +kernel

theorem witness_ModelsAndReports :
    (let s := asksAt claimed 1 (payload 0x0401 [(8, 8, 0x40), (16, 8, 2 ^ 40)])
     asked s 0x0401 1 = true ∧ (callAt s 1).arg 8 8 % 64 = 0 ∧ (callAt s 1).arg 16 8 = 2 ^ 40 ∧ (takenAt s 1).tenancy = 2 ∧
     (takenAt s 1).model = 0 ∧ (takenAt s 1).jobLimit 1 = false ∧ (takenAt s 1).freeUnit.isSome = true) ∧
    (let s := asksAt (claimed.setFld F.SLC_TEN_STATUS_MODEL 2) 1 (payload 0x0402 [])
     asked s 0x0402 1 = true ∧ (takenAt s 1).model = 2 ∧ (takenAt s 1).jobLimit 1 = false ∧
     (takenAt s 1).freeUnit.isSome = true) ∧
    (let s := running claimed 0x0401 1 0 512
     s.jobOf 0x0401 = some 0 ∧ s.frozen = false ∧ s.loadCheck (s.job 0).b ⟨none, none, []⟩ = .inl ⟨1, 0, 0x2C⟩) ∧
    (running claimed 0x0402 1 0 0).jobOf 0x0402 = some 0 ∧
    (let s := asksAt roomy 0 (payload 0x0901 [(0x28, 4, 0x100), (0x2C, 4, 0x3A0)])
     asked s 0x0901 0 = true ∧ (takenAt s 0).sliced = [] ∧ (callAt s 0).arg 0x2C 4 = 0x340 + 96 ∧
     (takenAt s 0).bufferOk 0 ((callAt s 0).arg 0x28 4) 0x3A0 = true) := by decide +kernel

/-! ### Management endpoint and security engine -/

theorem witness_ManagementEndpointAnswers : (1 : Nat) ≤ 1 ∧ base.pwr.mode = .on ∧ (1 ≤ 1 ∧ 8 ≤ 254 ∧ 254 ≤ 254) ∧ 1 < 2 ∧
    (3 ≤ 13 ∧ 13 < 14) ∧ (pldmCommands 2).contains 0x77 = false ∧ (0 : Nat) ≠ 1 := by decide +kernel

/-- A part with SPDM algorithms agreed and one session up. -/
def spdm3 : State := { booted with sec := { booted.sec with spdm := 3, sessions := [⟨1, true, 0⟩] } }

theorem witness_SpdmConnectionAndSessions :
    (booted.doeUp = true ∧ booted.sec.spdm = 0 ∧ booted.sec.spdm < 3 ∧ booted.session 1 = none ∧
     booted.inSession 1 = false) ∧
    (spdm3.doeUp = true ∧ 3 ≤ spdm3.sec.spdm ∧ spdm3.sec.sessions.length < 4 ∧ spdm3.bit F.SEC_STATUS_RNG_FAIL = false ∧
     spdm3.sec.xfer = 0 ∧ spdm3.session 1 = some ⟨1, true, 0⟩ ∧ spdm3.inSession 1 = true) ∧
    (let s := spdm3.setFld F.SEC_STATUS_RNG_FAIL 1
     s.bit F.SEC_STATUS_RNG_FAIL = true ∧ s.sec.sessions.length < 4) ∧
    (let s : State := { spdm3 with sec := { spdm3.sec with sessions := [⟨1, true, 0⟩, ⟨2, true, 0⟩, ⟨3, true, 0⟩, ⟨4, true, 0⟩] } }
     4 ≤ s.sec.sessions.length) ∧
    (let s : State := { spdm3 with sec := { spdm3.sec with chunkOut := [1] } }
     s.sec.chunkOut ≠ []) ∧
    (List.length (α := Byte) []) + 16384 ≤ 16384 ∧ base.doeUp = false := by decide +kernel

theorem witness_StreamsAndTdis :
    (booted.doeUp = true ∧ booted.inSession 1 = false) ∧
    (spdm3.doeUp = true ∧ spdm3.inSession 1 = true ∧ ideNamed 63 1 2 1 = true ∧ spdm3.boundTo 63 = []) ∧
    (let s : State := { spdm3 with sec := { spdm3.sec with streams := [(63, { keys := 0xFFF, running := 63 })] } }
     tst (s.stream 63).keys (keyBit 1 2 1) = true ∧ (s.stream 63).secure = true ∧ s.tdi 63 = 0 ∧
     (s.setFld F.SLC_TEN_STATUS_STATE 1).tenancy = 1) ∧
    (let s := spdm3.setFld (F.SEC_TDI_STATE 63) 1
     s.tdi 63 = 1 ∧ s.inSession 1 = true) ∧
    (spdm3.stream 0).secure = false ∧ spdm3.tdi 63 ≠ 1 ∧ (0x80 < 0x81 ∧ 0x87 < 0x88) := by decide +kernel

theorem witness_StreamsAndTdis_report : 0 < ((spdm3.setFld (F.SEC_TDI_STATE 63) 1).interfaceReport 63).length := by
  simp only [State.interfaceReport, List.length_append]
  have : 0 < (leBytes 2 0).length := by decide
  omega

/-- An ECDH whose point is not on the curve, and one with no input at all. -/
theorem witness_CryptoEventsAreRecorded :
    (ecStatus ⟨3, 0, [], [], none, []⟩ = 0) ∧ ecStatus ⟨3, 0, [(0, 0)], [], none, []⟩ ≠ 0 ∧
    (0, 0) ∈ (⟨3, 0, [(0, 0)], [], none, []⟩ : EcInput).points ∧ booted.boundTo 63 = [] := by decide +kernel

end Sys2Proof.Tests
end

