-- ==== Sys2Proof/Tests/WitnessC.lean ====
section
/-! SUPPORT. Concrete states and operands that meet the hypotheses of the statements: the queues and the memory system. -/

namespace Sys2Proof.Tests

set_option Elab.async false

open Sys2Proof.Machine

/-! ### Queues -/

/-- VF 7 runs: its slice is there, its TDI is in RUN, and a best-effort slot runs it. -/
def runs7 : State :=
  let s := withFlds slice7 [(F.SEC_TDI_STATE 7, 2), (F.QIF_Q_SIZE_SIZE 7 15, 4096)]
  { s with sch := { s.sch with running := [⟨0, 0, 2, 7, 0, false, 0, 64, 0xFF, []⟩] } }

/-- VF 7's queue 15 is enabled. -/
def queue15 : State := runs7.setFld (F.QIF_Q_CTRL_ENABLE 7 15) 1

/-- A fetched command with these bytes. -/
def cmdOf (bytes : List Byte) : QCmd :=
  { uid := 9, id := 1, descs := 1, outs := [(0x1000, 32)], bytes := bytes, phase := 0, status := 0, detail := 0, result := 0,
    waitTick := none }

/-- Queue 15 of VF 7 holds this command. -/
def holding (c : QCmd) : State := queue15.modQueue 7 15 (fun x => { x with cmds := [c] })

/-- The state in which a command that carries no SIGNAL finds the machine when it starts. -/
def begun (c : QCmd) : State := (holding c).modCmd 7 15 c.uid (fun c => { c with phase := 1, waitTick := none })

/-- The command is next in its queue and starts. -/
def begins (s : State) (op : Nat) (c : QCmd) : Bool :=
  s.nextCmd 7 15 == some c && c.op == op && s.vfLive 7 && s.qError 7 15 == 0 && !c.wait && !c.signal &&
    s.slotFor 7 (s.fld (F.QIF_Q_CTRL_CLASS 7 15)) && s.waitMet 7 c && !s.barred 7 15 c

/-- What `begins` decides is the premise of the statements. -/
theorem starts_of (s : State) (op : Nat) (c : QCmd) (h : begins s op c = true) : Starts s 7 15 op c
    (s.modCmd 7 15 c.uid (fun c => { c with phase := 1, waitTick := none })) := by
  simp only [begins, Bool.and_eq_true, beq_iff_eq, Bool.not_eq_true'] at h
  obtain ⟨⟨⟨⟨⟨⟨⟨⟨h1, h2⟩, h3⟩, h4⟩, h5⟩, h6⟩, h7⟩, h8⟩, h9⟩ := h
  exact ⟨h1, h2, h3, h4, fun w => by simp [h5] at w, .inr h7, h8, h9, by simp [h6]⟩

/-- A command's bytes: header and body fields (offset, bytes, value), in rising order of offset. -/
def cmdBytes (op bodyLen : Nat) (args : List (Nat × Nat × Nat)) : List Byte :=
  fitTo (48 + bodyLen) (args.foldl (fun p a => putAt p a.1 a.2.1 a.2.2) (leBytes 2 op ++ [0, 0] ++ leBytes 4 bodyLen))

theorem witness_QueuesAreSetUpAndStopped :
    (tst (0x103 : Word).toNat 0 = true ∧ runs7.qEnabled 7 15 = false ∧ runs7.bit (F.QIF_Q_STATUS_QUIESCED 7 15) = true ∧
     runs7.sliceState 7 ∈ [2, 3, 4, 5] ∧ runs7.tdi 7 = 2 ∧ runs7.fltState ≠ 3 ∧ runs7.fld (F.QIF_Q_SIZE_SIZE 7 15) = 2 ^ 12 ∧
     runs7.pair (R.QIF_Q_DESC_LO 7 15) (R.QIF_Q_DESC_HI 7 15) % 16 = 0 ∧
     runs7.pair (R.QIF_Q_DRV_LO 7 15) (R.QIF_Q_DRV_HI 7 15) % 4 = 0 ∧
     runs7.pair (R.QIF_Q_DEV_LO 7 15) (R.QIF_Q_DEV_HI 7 15) % 4 = 0 ∧ bitsOf (0x103 : Word).toNat 11 8 ≠ 0) ∧
    (bitsOf (3 : Word).toNat 11 8 = 0 ∧ (runs7.setFld F.FLT_STATUS_STATE 3).fltState = 3) ∧
    (queue15.qEnabled 7 15 = true ∧ tst (0 : Word).toNat 0 = false ∧ (queue15.queue 7 15).cmds = []) ∧
    (let s := queue15.setFld (F.QIF_Q_STATUS_QUIESCED 7 15) 0
     let t := s.setFld (F.QIF_Q_CTRL_ENABLE 7 15) 0
     t.qEnabled 7 15 = false ∧ t.bit (F.QIF_Q_STATUS_QUIESCED 7 15) = false ∧ (t.queue 7 15).cmds = []) ∧
    ((holding (cmdOf [])).queue 7 15).cmds ≠ [] ∧ (0xFFFF : Word).toNat < 0x10000 := by decide +kernel

/-- A chain of one ring descriptor with a 32-byte writable buffer, shown available in the first pass. -/
def chain1 (flags : Nat) : ChainRead := { ok := true, ring := [⟨0x1000, 32, 1, flags⟩], table := [], bytes := some [] }

/-- Queue 15 with a doorbell for position 1. -/
def belled : State := queue15.modQueue 7 15 (fun x => { x with bell := some (1 + 0x8000) })

theorem witness_ChainsAreFetched :
    (belled.mayFetch 7 15 = true ∧ (belled.queue 7 15).bell = some (1 + 0x8000) ∧ belled.bellDist 7 15 (1 + 0x8000) = 1 ∧
     (1 + 0x8000) % 2 ^ 15 < belled.fld (F.QIF_Q_SIZE_SIZE 7 15) ∧ (chain1 0x82).ok = true ∧ (chain1 0x82).ring.length ≤ 1 ∧
     belled.showsAvail 7 15 0 ⟨0x1000, 32, 1, 0x82⟩ = true ∧ chainBad (chain1 0x82) = false ∧
     ((chainBufs (chain1 0x82)).filter (fun d => tst d.flags 1)).foldl (fun k d => k + d.len) 0 = 32 ∧
     (belled.queue 7 15).cmds = []) ∧
    belled.bellDist 7 15 0x8000 = 0 ∧ belled.fld (F.QIF_Q_SIZE_SIZE 7 15) ≤ 4096 % 2 ^ 15 ∧ belled.bellDist 7 15 0 ≠ 0 ∧
    (let r : ChainRead := { chain1 0x82 with ring := [⟨0x1000, 0, 1, 0x82⟩] }
     belled.showsAvail 7 15 0 ⟨0x1000, 0, 1, 0x82⟩ = true ∧ chainBad r = true) ∧
    (let r : ChainRead := { chain1 0x82 with ring := [⟨0x1000, 31, 1, 0x82⟩] }
     chainBad r = false ∧ ((chainBufs r).filter (fun d => tst d.flags 1)).foldl (fun k d => k + d.len) 0 < 32) ∧
    (((holding (cmdOf [])).queue 7 15).cmds.any (fun c => some c.id == (chain1 0x82).ring.getLast?.map Desc.id)) = true ∧
    base.mayFetch 7 15 = false := by decide +kernel

theorem witness_CommandsComplete :
    (let c := { cmdOf (cmdBytes 1 0 [(2, 2, 2), (0x20, 8, 5)]) with phase := 2 }
     let s := holding c
     s.frozen = false ∧ (s.queue 7 15).cmds[0]? = some c ∧ c.phase = 2 ∧ c.signal = true ∧ 48 ≤ c.bytes.length ∧ c.status = 0) ∧
    (let c := { cmdOf (cmdBytes 1 0 [(2, 2, 2)]) with phase := 2, status := 2 }
     c.signal = true ∧ c.status ≠ 0) ∧ frozen2.frozen = true ∧
    ((queue15.modQueue 7 15 (fun x => { x with irqBusy := true })).queue 7 15).irqBusy = true ∧
    (let s := queue15.modQueue 7 15 (fun x => { x with irqBusy := true, irqMerged := true })
     let u : State := { s with exm := { s.exm with msix := [(241, { masked := false })] } }
     let t : State := { u with pci := { u.pci with msixEnable := 2 ^ 7, msixMask := 0 } }
     (t.queue 7 15).irqBusy = true ∧ (t.queue 7 15).irqMerged = true ∧ t.msixHeld 7 17 = false) := by decide +kernel

/-- A COPY of 8 bytes from the commons at 0 to the commons at 8. -/
def copy8 : QCmd := cmdOf (cmdBytes 0x10 32 [(0x30, 8, 0x10000000000), (0x38, 8, 0x10000000008), (0x40, 8, 8)])

/-- A COPY of 8 bytes from the commons at 0 to host memory. -/
def copyHost : QCmd := cmdOf (cmdBytes 0x10 32 [(0x30, 8, 0x10000000000), (0x38, 8, 0x4000), (0x40, 8, 8), (0x49, 1, 1)])

theorem witness_QueueCommandsEndAsTheirTablesSay :
    begins (holding (cmdOf (cmdBytes 0x01 0 []))) 0x01 (cmdOf (cmdBytes 0x01 0 [])) = true ∧
    begins (holding (cmdOf (cmdBytes 0x50 8 [(48, 2, 255)]))) 0x50 (cmdOf (cmdBytes 0x50 8 [(48, 2, 255)])) = true ∧
    begins (holding (cmdOf (cmdBytes 0x51 16 [(48, 2, 255)]))) 0x51 (cmdOf (cmdBytes 0x51 16 [(48, 2, 255)])) = true ∧
    (begins (holding copy8) 0x10 copy8 = true ∧ copy8.body 0x19 1 = 0 ∧
     (begun copy8).copyCheck 7 0 0x10000000000 8 false false = none ∧
     (begun copy8).copyCheck 7 0 0x10000000008 8 true true = none ∧ ctrlOffset 0x10000000008 = none ∧
     (begun copy8).reach freshAgent 7 0x10000000008 8 true = [8, 9, 10, 11, 12, 13, 14, 15]) ∧
    (begins (holding copyHost) 0x10 copyHost = true ∧ copyHost.body 0x19 1 = 1 ∧
     (begun copyHost).copyCheck 7 0 0x10000000000 8 false false = none) ∧
    (let c := cmdOf (cmdBytes 0x30 16 [(48, 8, 0x10000000000), (56, 4, 128)])
     begins (holding c) 0x30 c = true ∧ memFault ((begun c).memCheck freshAgent 7 0x10000000000 128 false true) = none ∧
     (imageFault 128 ((begun c).memBytes freshAgent 7 0x10000000000 128)).isSome = true) ∧
    (let c := cmdOf (cmdBytes 0x31 8 [(48, 4, 256)])
     begins (holding c) 0x31 c = true ∧ (∀ l ∈ (holding c).yar.launches, l.vf ≠ 7) ∧ (holding c).yar.graphs = []) ∧
    (let c := cmdOf (cmdBytes 0x32 32 [(48, 4, 1), (52, 2, 1), (54, 2, 1)])
     begins (holding c) 0x32 c = true ∧ (begun c).kernel 7 1 = none) := by decide +kernel

/-- These bytes lie at commons offset `o`. -/
def commonsPut (s : State) (o : Nat) (bs : List Byte) : State := (bs.zipIdx).foldl (fun s p => s.dpaPut (o + p.2) p.1) s

/-- A kernel of the core instruction set without arguments, allowed in RT slots. -/
def kernel2 : Kernel :=
  { flags := 1, isa := 2, entry := 0, regs := 8, uniforms := 0, localBytes := 0, argBytes := 0, split := 0, handler := 0,
    code := [], consts := [] }

/-- VF 7's slice has that kernel as handle 256. -/
def kernelled (s : State) : State := s.modSlice 7 (fun x => { x with kernels := [(256, some kernel2)] })

/-- A launch of it. -/
def launch7 : Launch :=
  { id := 3, vf := 7, uid := 9, owner := 0, handle := 256, contexts := 1, groups := 1, args := 0, argBytes := [], spill := 0,
    next := 0, live := 0, fault := 0 }

/-- A tensor of one INT8 element at this slice address. -/
def tensor1 (a : Nat) : List Byte :=
  payload (a % 65536) [(2, 6, a / 65536), (8, 1, 11), (9, 1, 1), (0x10, 4, 1), (0x14, 4, 1), (0x18, 4, 1), (0x1C, 4, 1), (0x20, 4, 1)] ++
    List.replicate 28 0

/-- A graph of two tensors and one node, which permutes the first into the second. -/
def graph1 : List Byte :=
  fitTo 64 (payload 0x5247 [(2, 2, 0x4850), (4, 2, 1), (8, 2, 2), (10, 2, 1), (0x10, 8, 64), (0x18, 8, 192)]) ++
    tensor1 0x10000001000 ++ tensor1 0x10000001001 ++
    fitTo 64 (payload 9 [(2, 1, 1), (3, 1, 1), (4, 2, 0), (0x10, 2, 1), (0x18, 1, 0), (0x19, 1, 1), (0x1A, 1, 2), (0x1B, 1, 3), (0x1C, 1, 4)])

/-- The command that runs it. -/
def graphCmd : QCmd := cmdOf (cmdBytes 0x20 32 [(48, 8, 0x10000000000), (56, 4, 256), (64, 8, 0x10000000000)])

theorem witness_QueueCommandsEndAsTheirTablesSay_kernels :
    (let c := cmdOf (cmdBytes 0x31 8 [(48, 4, 256)])
     let s := kernelled (holding c)
     let t : State := { s with yar := { s.yar with launches := [launch7] } }
     launch7 ∈ t.yar.launches ∧ begins t 0x31 c = true ∧ launch7.vf = 7 ∧ launch7.handle = c.body 0 4 ∧
     (t.kernel 7 launch7.handle).isSome = true) ∧
    (let c := cmdOf (cmdBytes 0x32 32 [(48, 4, 256), (52, 2, 384), (54, 2, 64)])
     let s := kernelled (holding c)
     let v := kernelled (begun c)
     begins s 0x32 c = true ∧ v.kernel 7 (c.body 0 4) = some kernel2 ∧ tst kernel2.flags 0 = true ∧
     v.spillOk 7 kernel2 (c.body 0x10 8) (c.body 4 2 * c.body 6 2 * 32768) = true ∧ fits [] (kernel2.need (c.body 6 2)) = true ∧
     kernel2.argBytes = 0) ∧
    (let c := { cmdOf (cmdBytes 0x01 0 [(2, 2, 1), (0x10, 2, 4)]) with waitTick := some 0 }
     let s := (holding c).modSlice 7 (fun x => { x with fences := [(4, { err := true })] })
     s.nextCmd 7 15 = some c ∧ c.op = 1 ∧ s.vfLive 7 = true ∧ s.qError 7 15 = 0 ∧ c.wait = true ∧
     (s.fence 7 c.waitFence).err = true) ∧
    (let c := { cmdOf (cmdBytes 0x01 0 [(2, 2, 1), (0x10, 2, 4), (0x18, 8, 1)]) with waitTick := some 0 }
     let s := (holding c).setReg R.TCK_COUNT_LO 2
     let t : State := { s with sch := { s.sch with slotTick := [(14, 3)] } }
     t.nextCmd 7 15 = some c ∧ c.wait = true ∧ 0 + 2 ≤ t.tickCount ∧ t.waitMet 7 c = false ∧
     (t.fence 7 c.waitFence).tick + 2 ≤ t.tickCount ∧ t.signallerRuns 7 c.waitFence = false ∧
     t.heldSlot 7 (t.fld (F.QIF_Q_CTRL_CLASS 7 15)) = true ∧ t.frozen = false ∧ t.recovering = false) := by decide +kernel

theorem witness_QueueCommandsEndAsTheirTablesSay_graph :
    (begins (commonsPut (holding graphCmd) 0 graph1) 0x20 graphCmd = true ∧ graphCmd.body 0x18 2 = 0 ∧
     ((commonsPut (begun graphCmd) 0 graph1).findCmd 7 graphCmd.uid).map Prod.fst = some 15 ∧
     (match (commonsPut (begun graphCmd) 0 graph1).readGraph 7 0 true id 0x10000000000 256 0x10000000000 0 with
      | .inr (ts, [b]) => nOp b != 12 && !ringNode b && ((commonsPut (begun graphCmd) 0 graph1).runNode 7 ts b).isRight
      | _ => false) = true) ∧
    (begins (holding graphCmd) 0x20 graphCmd = true ∧ (holding graphCmd).recovering = false ∧
     (begun graphCmd).readGraph 7 0 true id 0x10000000000 256 0x10000000000 0 = .inl (0xC, 0) ∧ faultCode 0xC = none) := by
  decide +kernel

/-! ### The memory system -/

/-- VF 7's granule 0 is mapped to frame 5 with this entry, and granule 1 waits in quarantine with frame 6. -/
def mapped7 : State :=
  let s := slice7.modSlice 7 (fun x => { x with map := [(0, 1)], frame := [(0, 6)], quar := [(1, 6)], invs := [(0, 262144)] })
  { s with mem := { s.mem with frames := [(5, 199), (6, 263)] } }

theorem witness_MapViewStoresFollowTheTable :
    (slice7.sliceState 7 ≠ 0 ∧ slice7.frozen = false ∧ slice7.mapCheck 7 262143 (1 : DWord).toNat = 0 ∧
     entryValid (slice7.entry 7 262143) = false ∧ entryValid (1 : DWord).toNat = true) ∧
    (mapped7.mapCheck 7 0 (0 : DWord).toNat = 0 ∧ entryValid (mapped7.entry 7 0) = true ∧
     entryValid (0 : DWord).toNat = false) ∧
    (mapped7.mapCheck 7 0 (5 : DWord).toNat = 0 ∧ entryValid (5 : DWord).toNat = true) ∧
    slice7.mapCheck 7 0 (16 : DWord).toNat ≠ 0 ∧
    (bitsOf 3 31 4 = 0 ∧ tst 3 1 = true ∧ entryValid (slice7.entry 7 0) = false ∧ entryValid 3 = true ∧
     (slice7.setFld (F.SLC_S_HBM_UNITS 7) 0).mapLimit 7 ≤ (slice7.setFld (F.SLC_S_HBM_UNITS 7) 0).charge 7) ∧
    (let s := slice7.modSlice 7 (fun x => { x with invBase := 0x200000 })
     (s.slice 7).invBase = 0x200000 ∧ 0x200000 % 0x200000 = 0 ∧ 0x200000 / 0x200000 + (262143 : DWord).toNat ≤ 262144 ∧
     262144 < 0x200000 / 0x200000 + (262144 : DWord).toNat) ∧
    (mapped7.frozen = false ∧ (mapped7.slice 7).invs = [(0, 262144)] ∧ 0 + 262144 ≤ 262144) ∧
    (let s : State := { slice7 with mem := { slice7.mem with frames := [(0, 71)] } }
     fget (fun _ => 0) s.mem.frames 0 / 64 = 1 ∧ s.frozen = false) ∧
    (let s := slice7.setFld F.SEC_STATUS_TENANCY_KEY 1
     s.bit F.SEC_STATUS_TENANCY_KEY = true ∧ s.frozen = false ∧ s.pwr.doze = false) ∧
    slice7.bit F.SEC_STATUS_TENANCY_KEY = false ∧ fget (fun _ => 0) slice7.mem.frames 0 / 64 ≠ 1 := by decide +kernel

end Sys2Proof.Tests
end

