-- ==== Sys2Proof/Tests/WitnessH.lean ====
section
/-! SUPPORT. Concrete states and operands that meet the hypotheses of the statements: Campion and the sensor dies. -/

namespace Sys2Proof.Tests

set_option Elab.async false

open Sys2Proof.Machine

/-! ### Campion -/

/-- VF 7 is granted both dies' Campion and sensor dies, all usable; die 0 is in RUN_STATE `st`. -/
def granted (st : Nat) : State :=
  withFlds slice7 [(F.CMP_STATUS_USABLE0, 1), (F.CMP_STATUS_USABLE1, 1), (F.CMP_STATUS_STATE0, st), (F.CMP_GRANT_VF 0, 7),
    (F.CMP_GRANT_VF 1, 7), (F.SNS_STATUS_USABLE0, 1), (F.SNS_STATUS_USABLE1, 1), (F.SNS_GRANT_VF 0, 7), (F.SNS_GRANT_VF 1, 7)]

/-- `s` with die 0 and core 0 as given. -/
def withDie (s : State) (y : CampDie) (x : Core) : State := { s with cmp := { dies := [(0, y)], cores := [(0, x)] } }

/-- A Campion command for one core: SEQ 1, CMD_OP, core 0, and the offset 0x1000. -/
def campW (op : Nat) : List Byte := fitTo 16 (payload 1 [(4, 1, op), (8, 2, 1), (0xC, 4, 0x1000)])

/-- Die 0 in RUN_STATE `st` with this command in progress. -/
def commanded (st : Nat) (w : List Byte) : State := withDie (granted st) { cmd := some w } {}

/-- A program of one micro-operation of opcode 0 and one variable. -/
def prog1 : List Byte := fitTo 176 (payload 0x4143 [(2, 2, 0x504D), (4, 1, 1), (7, 1, 1)])

/-- A control block with four regions of one entry each, behind one another from 0x100 on. -/
def regions4 : List Byte :=
  fitTo 128 (putAt [] 0x30 4 0x100 ++ leBytes 4 1) |> fun b => (putAt (putAt (putAt (putAt (putAt (putAt (putAt b 0x40 4 0x140) 0x44 4 1)
    0x50 4 0x180) 0x54 4 1) 0x58 4 0x1C0) 0x5C 4 8) 0x66 2 10)

theorem witness_CampionAndSensorsWork_commands :
    ((granted 1).tenancy = 2 ∧ (granted 1).campUsable 0 = true ∧ (granted 1).snsUsable 0 = true ∧ bitsOf (0 : Word).toNat 5 0 = 0 ∧
     (granted 1).cmpVf 0 ≠ 0 ∧ (granted 1).fld (F.SNS_GRANT_VF 0) ≠ 0) ∧
    (booted.tenancy ≠ 2 ∧ (granted 1).sliceState 6 = 0 ∧ bitsOf (6 : Word).toNat 5 0 = 6) ∧
    (∀ p ∈ [(1, 1), (2, 1), (3, 3), (4, 1), (5, 2), (6, 3)],
      let w := campW p.1
      let s := commanded p.2 w
      s.campLive = true ∧ (s.die 0).cmd = some w ∧ leAt w 4 1 = p.1 ∧ w.length = 16 ∧ leAt w 5 1 = 0 ∧ leAt w 0xA 2 = 0 ∧
      s.campState 0 = p.2 ∧ cmdCount w = 1 ∧ cmdFirst w = 0 ∧ cmdSrc w % 64 = 0 ∧ 64 ≤ cmdSrc w) ∧
    (leAt (putAt (campW 1) 5 1 1) 5 1 ≠ 0 ∧ (commanded 0 (campW 1)).campState 0 ∉ [1, 3] ∧ cmdCount (putAt (campW 1) 8 2 0) = 0) ∧
    (let s := commonsPut (commanded 1 (campW 1)) 0x1000 (leBytes 4 1 ++ prog1)
     s.campLe 0 0x1000 4 = 1 ∧ s.campCheck 0 0x1000 180 false = none ∧ s.campBytes 0 0x1004 176 = prog1 ∧ progFault prog1 = none) ∧
    (let s := commonsPut (commanded 1 (campW 1)) 0x1000 (leBytes 4 1)
     s.campLe 0 0x1000 4 = 1 ∧ progFault (s.campBytes 0 0x1004 176) = some 0xFF) ∧
    (let s := commonsPut (commanded 1 (campW 4)) 0 regions4
     let r : CampRun := ⟨10, 0x100, 1, 0x140, 1, 0x180, 1, 0x1C0, 8, 0, 0⟩
     s.campCheck 0 0 256 false = none ∧ s.campLe 0 0x66 2 = 10 ∧ s.campLe 0 0x30 4 = 0x100 ∧ s.campLe 0 0x34 4 = 1 ∧
     s.campLe 0 0x40 4 = 0x140 ∧ s.campLe 0 0x44 4 = 1 ∧ s.campLe 0 0x50 4 = 0x180 ∧ s.campLe 0 0x54 4 = 1 ∧
     s.campLe 0 0x58 4 = 0x1C0 ∧ s.campLe 0 0x5C 4 = 8 ∧ s.campLe 0 0x60 4 = 0 ∧ s.campLe 0 0x64 2 = 0 ∧
     r.regions.all (fun p => p.1 % 64 == 0 && p.2 != 0 && s.campCheck 0 p.1 p.2 false == none && decide (256 ≤ p.1)) = true ∧
     r.regions.Pairwise (fun p q => p.1 + p.2 ≤ q.1 ∨ q.1 + q.2 ≤ p.1)) := by decide +kernel

/-- Every byte of a commons reservation without errors can be read. -/
theorem commons_readable (s : State) (n x len u : Nat) (hu : s.fld (F.SLC_S_COMMONS_UNITS n) = u) (h : x + len ≤ 0x10000 * u)
    (hm : u ≤ 4096) (hp : s.mem.poison = []) : s.memCheck freshAgent n (0x10000000000 + x) len false false = none := by
  have hx : ∀ k, k < len → s.xlate freshAgent n (0x10000000000 + x + k) false = some ((s.slice n).base + (x + k)) := by
    intro k hk
    have c1 : ¬ (0x10000000000 + x + k < 0x8000000000) := by omega
    have c2 : 0x10000000000 ≤ 0x10000000000 + x + k ∧ 0x10000000000 + x + k < 0x10010000000 := by omega
    have c3 : 0x10000000000 + x + k - 0x10000000000 < 0x10000 * u := by omega
    have c4 : 0x10000000000 + x + k - 0x10000000000 = x + k := by omega
    unfold State.xlate
    simp only [if_neg c1, hu, c4, c2.1, c2.2, decide_true, Bool.and_self, if_true, if_pos (c4 ▸ c3)]
  have hq : ∀ d, s.poisoned d = false := by
    intro d; simp [State.poisoned, hp, fget]
  unfold State.memCheck
  have h1 : (addrs (0x10000000000 + x) len).find? (fun a => !s.validAt freshAgent n false false a) = none := by
    rw [List.find?_eq_none]
    intro a ha
    obtain ⟨k, hk, rfl⟩ := List.mem_map.mp ha
    have := hx k (List.mem_range.mp hk)
    simp [State.validAt, this]
  rw [h1]
  simp only [Option.map_eq_none_iff, List.find?_eq_none]
  intro a _
  split <;> simp [hq]

theorem witness_CampionAndSensorsWork_neurons :
    let s := withDie (granted 1) { cmd := some (campW 2) } { progs := [prog1] }
    s.campCheck 0 0x1000 32768 false = none ∧ recordOk (s.core 0) (List.replicate 32 0) = true ∧ s.mem.cmn = [] ∧
    recordOk ({} : Core) (List.replicate 32 0) = false :=
  have h := commons_readable (withDie (granted 1) { cmd := some (campW 2) } { progs := [prog1] }) 7 0x1000 32768 1
    (by decide +kernel) (by decide) (by decide) (by decide +kernel)
  have ha : (withDie (granted 1) { cmd := some (campW 2) } { progs := [prog1] }).campAddr 0 0x1000 = 0x10000000000 + 0x1000 := by
    decide +kernel
  have hv : (withDie (granted 1) { cmd := some (campW 2) } { progs := [prog1] }).cmpVf 0 = 7 := by decide +kernel
  ⟨by simp only [State.campCheck, ha, hv]; exact h, by decide +kernel, by decide +kernel, by decide +kernel⟩

/-- A token to neuron 0 of core 0. -/
def tok0 : Tok := ⟨0, 0, 0, 0⟩

/-- Die 0 running with these. -/
def campOn (y : CampDie) (x : Core) : State := withDie (granted 2) y x

theorem witness_CampionAndSensorsWork_events :
    ((campOn {} {}).campRuns 0 = true ∧ (granted 1).campRuns 0 = false) ∧
    (let s := commonsPut (campOn {} {}) 0 (campW 6)
     (s.die 0).cmd = none ∧ s.campCheck 0 0 0x14 false = none ∧ s.campLe 0 0 4 ≠ s.campLe 0 0x10 4 ∧ leAt (s.campBytes 0 0 16) 4 1 = 6) ∧
    (let s := commonsPut (campOn {} {}) 0 (campW 7)
     s.campLe 0 0 4 ≠ s.campLe 0 0x10 4 ∧ 6 < leAt (s.campBytes 0 0 16) 4 1 ∧ (campOn {} {}).campLe 0 0 4 = (campOn {} {}).campLe 0 0x10 4) ∧
    ((granted 2).campState 0 ≠ 0 ∧ (granted 2).cmpVf 0 ≠ 0) ∧
    (let s := commonsPut (campOn { run := { injBase := 0x100, injSize := 1 } } {}) 0x38 [1]
     s.campCheck 0 0x38 8 true = none ∧ s.campLe 0 0x3C 4 = 0 ∧ s.campLe 0 0x38 4 ≠ 0 ∧ s.campCheck 0 0x100 8 false = none ∧
     tokClean (s.campLe 0 0x100 8) = true ∧ s.cmpVf (tokOf (s.campLe 0 0x100 8)).dieOf = s.cmpVf 0) ∧
    (let x : Core := { progs := [prog1], input := some tok0 }
     (campOn {} x).core 0 = x ∧ x.spikes.length < 256 ∧ x.progs.getD (x.neuron 0).prog [] = prog1 ∧ prog1 ≠ [] ∧ 0 < leAt prog1 7 1) ∧
    (let y : CampDie := { etime := 65536 }
     let x : Core := { progs := [prog1] }
     (campOn y x).die 0 = y ∧ (65536 % 2 ^ 20 + 2 ^ 20 - (x.neuron 0).lt) % 2 ^ 20 = 2 ^ 16) ∧
    (let x : Core := { progs := [prog1], spikes := [0] }
     let s := campOn {} x
     (s.core 0).spikes = [0] ∧ (x.neuron 0).destIdx + (x.neuron 0).destCount ≤ (s.die 0).run.destSize / 8 ∧ (x.neuron 0).destCount = 0) ∧
    (let x : Core := { delay := [(5, tok0)] }
     firstDue x.delay = some (5, tok0) ∧ ((campOn { etime := 5 } x).die 0).etime = 5 ∧ x.input = none ∧ (5 : Nat) ≤ 5 ∧ (4 : Nat) < 5) ∧
    (let s := campOn { mesh := [tok0] } {}
     (s.die 0).mesh[0]? = some tok0 ∧ (s.core tok0.coreOf).delay.length < 4096) ∧
    (let s := campOn { ingress := [(7, [tok0])] } {}
     tok0.dieOf = 0 ∧ s.cmpVf 0 = s.cmpVf 0 ∧ fget (fun _ => []) (s.die 0).ingress (8 - 1) = [tok0]) ∧
    (let s := campOn { mesh := [tok0], run := { ovfBase := 0x100, ovfSize := 1 } } { delay := List.replicate 4096 (0, tok0) }
     4096 ≤ (s.core tok0.coreOf).delay.length ∧ (s.die 0).ovf.length < (s.die 0).run.ovfSize ∧
     s.campCheck 0 (0x100 + 16 * (0 % max 1 1)) 16 true = none) ∧
    ((campOn {} {}).snsFeeds 0 = true ∧ (campOn {} {}).campLive = true ∧ (granted 1).snsFeeds 0 = false) := by decide +kernel

/-! ### Sensor dies -/

/-- Die 0's port 7 is on and enabled, and its descriptor is this. -/
def sensing (b : List Byte) : State :=
  commonsPut (withFlds (campOn {} {}) [(F.SNS_PORT_CTRL_ENABLE 0 7, 1), (F.SNS_PORT_STATUS_PWR_ON 0 7, 1)]) (64 * 7) b

/-- A descriptor of RAW8 frames of 2 by 2 pixels, one slot at 0x800; and one of events on data type 0x30. -/
def frames22 : List Byte :=
  fitTo 64 (payload 0x2A01 [(4, 2, 2), (6, 2, 2), (8, 4, 0x800), (0xC, 4, 128), (0x10, 2, 1)])
def events22 : List Byte := fitTo 64 (payload 2 [(2, 1, 0x30), (4, 2, 2), (6, 2, 2)])

/-- A frame in progress under the first. -/
def frameY : Frame :=
  { vc := 0, at_ := 0x800, width := 2, height := 2, dt := 0x2A, head := 0, tick := 0, tai := 0, num := 1, startClk := 0, lines := 1,
    status := 0 }

theorem witness_CampionAndSensorsWork_sensors :
    ((granted 2).bit (F.SNS_PORT_CTRL_ENABLE 0 7) = false) ∧
    (let s := sensing frames22
     let v := (s.packet 0 7).1
     (s.packet 0 7).2 = true ∧ v.fld (F.SNS_GRANT_VF 0) ≠ 0 ∧ v.portDesc 0 7 = frames22 ∧ leAt frames22 3 1 = 0 ∧
     tst (leAt frames22 0 1) 0 = true ∧ (v.snsPort 0 7).frame = none ∧ v.pwr.doze = false ∧
     (leAt frames22 0x20 4 + 2 ^ 32 - leAt frames22 0x24 4) % 2 ^ 32 < leAt frames22 0x10 2) ∧
    (let b := putAt frames22 0x20 4 1
     let v := ((sensing b).packet 0 7).1
     v.portDesc 0 7 = b ∧ leAt b 0x10 2 ≤ (leAt b 0x20 4 + 2 ^ 32 - leAt b 0x24 4) % 2 ^ 32 ∧ v.ioBad 0 (64 * 7 + 0x28) 4 true = false) ∧
    (let s := sensing events22
     let v := (s.packet 0 7).1
     let ev := 2 ^ 30 + 2 ^ 15 + 1
     v.portDesc 0 7 = events22 ∧ tst (leAt events22 0 1) 1 = true ∧ leAt events22 2 1 = 0x30 ∧ bitsOf ev 31 30 ≤ 1 ∧
     bitsOf ev 14 0 < leAt events22 4 2 ∧ bitsOf ev 29 15 < leAt events22 6 2 ∧ eventIdx events22 1 1 1 < 2 ^ 19 ∧
     v.snsFeeds 0 = true ∧ v.campLive = true ∧ (fget (fun _ => []) (v.die 0).ingress 7).length + 1 ≤ 4096) ∧
    (let s := (sensing frames22).modPort18 0 7 (fun p => { p with frame := some frameY })
     let v := (s.packet 0 7).1
     (s.packet 0 7).2 = true ∧ (v.snsPort 0 7).frame = some frameY ∧ frameY.lines < frameY.height ∧
     (rawPixels 0x2A [1, 2]).length = frameY.width ∧ tst frameY.status 6 = false ∧
     v.ioBad 0 (frameY.at_ + 64 + 2 * frameY.lines) 2 true = false ∧ s.frozen = false ∧ (s.snsPort 0 7).frame = some frameY) ∧
    ((sensing frames22).bit (F.SNS_PORT_STATUS_PWR_ON 0 7) = true ∧ ((sensing frames22).snsPort 0 7).frame = none) := by decide +kernel

theorem witness_CampionAndSensorsWork_aer_and_triggers :
    (let b := fitTo 64 (payload 1 [])
     let s := commonsPut ((campOn {} {}).setFld (F.SNS_AER_CTRL_ENABLE 0) 1) 0x400 b
     s.frozen = false ∧ s.pwr.mode = .on ∧ s.snsUsable 0 = true ∧ s.bit (F.SNS_AER_CTRL_ENABLE 0) = true ∧
     s.fld (F.SNS_GRANT_VF 0) ≠ 0 ∧ s.ioBad 0 0x400 64 true = false ∧ s.ioBytes 0 0x400 64 = b ∧ aerOk b = true ∧
     bitsOf (2 ^ 19 - 1) 23 22 = 0 ∧ leAt b 4 4 + bitsOf (2 ^ 19 - 1) 18 0 < 2 ^ 19 ∧ s.snsFeeds 0 = true ∧ s.campLive = true ∧
     fget (fun _ => []) (s.die 0).ingress 8 = [] ∧ bitsOf (2 ^ 23) 23 22 ≠ 0 ∧ s.ioBad 0 0x410 4 true = false) ∧
    (let g := (granted 2).setFld (F.SNS_TRIG_CFG_ENABLE 1 7) 1
     let s : State := { g with tick := { g.tick with running := true } }
     s.snsUsable 1 = true ∧ s.tick.running = true ∧ s.frozen = false ∧ s.bit (F.SNS_TRIG_CFG_ENABLE 1 7) = true ∧
     10 * s.fld (F.SNS_TRIG_OFFSET_OFFSET 1 7) < 1 ∧ (0 : Nat) ≤ 10 * s.fld (F.SNS_TRIG_OFFSET_OFFSET 1 7) ∧
     s.tickCount % max 1 (s.fld (F.SNS_TRIG_CFG_DIV 1 7)) = s.fld (F.SNS_TRIG_PHASE_PHASE 1 7) ∧
     (s.setFld (F.SNS_TRIG_PHASE_PHASE 1 7) 1).tickCount % max 1 (s.fld (F.SNS_TRIG_CFG_DIV 1 7)) ≠
       (s.setFld (F.SNS_TRIG_PHASE_PHASE 1 7) 1).fld (F.SNS_TRIG_PHASE_PHASE 1 7)) := by decide +kernel

/-- A Campion die with a token in its mesh that makes no progress. -/
theorem witness_FaultsRecoverAndTheRecorderKeeps_campion :
    (let s := campOn { mesh := [tok0] } {}
     s.detects = true ∧ s.pwr.doze = false ∧ s.campInFlight 0 = true ∧ s.campState 0 ≠ 1 ∧ s.faultApplies 0x87 0x0A00 0 = true) := by
  decide +kernel

end Sys2Proof.Tests
end

