-- ==== Sys2Proof/Tests/WitnessD.lean ====
section
/-! SUPPORT. Concrete states and operands that meet the hypotheses of the statements: Teasel and the scheduler. -/

namespace Sys2Proof.Tests

set_option Elab.async false

open Sys2Proof.Machine

/-! ### Sequences -/

/-- A manifest: steps of at most 16 tokens, 1 sequence and 1 page of a pool of 1, 4 tokens a page, vocabulary 100. -/
def manifest16 : List Byte :=
  fitTo 128 (payload 0x4554 [(2, 2, 0x4C53), (4, 2, 1), (0x10, 4, 16), (0x14, 2, 1), (0x16, 2, 1), (0x18, 4, 1), (0x1C, 2, 4),
    (0x1E, 2, 1), (0x20, 4, 100), (0x24, 4, 0xFFFFFFFF), (0x28, 4, 0xFFFFFFFF), (0x2C, 4, 0xFFFFFFFF), (0x30, 4, 0xFFFFFFFF)])

/-- `s` with a resident model, that manifest, and VF 7's slice activated for one sequence. -/
def teaselOn (s : State) : State :=
  let t := withFlds s [(F.SLC_TEN_STATUS_MODEL, 2), (F.SEQ_STATUS_MANIFEST, 1), (F.SEQ_S_LIMIT_LIMIT 7, 1)]
  { t with tsl := { t.tsl with manifest := manifest16, active := [(7, 2)] } }

/-- A sequence of VF 7 with a prompt of one token at commons offset 0x1000 and its output at 0x2000. -/
def seq7 : Seq :=
  { st := 1, vf := 7, userSeq := 6, prompt := 0x10000001000, out := 0x10000002000, promptTokens := 1, maxNew := 2, kvLimit := 1,
    uid := 9 }

/-- `s` with this sequence in entry 0. -/
def withSeq (s : State) (q : Seq) : State := { s with tsl := { s.tsl with seqs := [(0, q)] } }

/-- A SEQ_ADMIT of USER_SEQ 5 with a prompt of 4 tokens. -/
def admit4 : QCmd :=
  cmdOf (cmdBytes 0x40 48 [(48, 8, 5), (56, 8, 0x10000001000), (64, 4, 4), (68, 4, 1), (72, 8, 0x10000002000)])

/-- A SEQ_APPEND of one token to USER_SEQ 6, and a SEQ_CANCEL of it. -/
def append1 : QCmd := cmdOf (cmdBytes 0x41 24 [(48, 8, 6), (56, 8, 0x10000003000), (64, 4, 1)])
def cancel6 : QCmd := cmdOf (cmdBytes 0x42 8 [(48, 8, 6)])

theorem witness_SequencesAreBatched :
    (begins (holding admit4) 0x40 admit4 = true ∧ (holding admit4).fld F.SLC_TEN_STATUS_MODEL ≠ 2) ∧
    (let s := teaselOn (holding admit4)
     let v := teaselOn (begun admit4)
     begins s 0x40 admit4 = true ∧ s.fld F.SLC_TEN_STATUS_MODEL = 2 ∧ s.fld F.SEQ_STATUS_MANIFEST = 1 ∧
     v.admitFault 7 admit4 = none ∧ v.activated 7 = true ∧ v.freeSeqEntry = some 0 ∧ v.freeRow 7 = some 0 ∧
     (v.liveSeqs 7).length < min (v.limitActive 7) (v.seqLimit 7)) ∧
    (let v := withSeq (teaselOn (begun admit4)) seq7
     v.admitFault 7 admit4 = none ∧ min (v.limitActive 7) (v.seqLimit 7) ≤ (v.liveSeqs 7).length) ∧
    (withSeq (teaselOn (begun admit4)) { seq7 with userSeq := 5 }).admitFault 7 admit4 = some 0x30 ∧
    (begins (teaselOn (holding append1)) 0x41 append1 = true ∧
     (teaselOn (holding append1)).seqNamed 7 (append1.body 0 8) = none) ∧
    (let s := withSeq (teaselOn (holding append1)) seq7
     begins s 0x41 append1 = true ∧ s.seqNamed 7 (append1.body 0 8) = some 0 ∧ (s.seq 0) = seq7 ∧
     seq7.outLen + append1.body 0x10 4 ≤ seq7.maxNew ∧ seq7.hist + append1.body 0x10 4 ≤ seq7.kvLimit * s.pageTokens) ∧
    (let s := withSeq (teaselOn (holding append1)) { seq7 with outLen := 2 }
     (s.seq 0).maxNew < (s.seq 0).outLen + append1.body 0x10 4) ∧
    (let s := withSeq (teaselOn (holding cancel6)) { seq7 with inStep := true }
     begins s 0x42 cancel6 = true ∧ s.seqNamed 7 (cancel6.body 0 8) = some 0 ∧ (s.seq 0).inStep = true) ∧
    (let s := withSeq (teaselOn (holding cancel6)) seq7
     begins s 0x42 cancel6 = true ∧ s.seqNamed 7 (cancel6.body 0 8) = some 0 ∧ (s.seq 0).inStep = false ∧ (s.seq 0).vf = 7 ∧
     s.tsl.appends = [] ∧ cancel6.uid ≠ 0 ∧
     ((withSeq (teaselOn (begun cancel6)) seq7).findCmd 7 cancel6.uid).map Prod.fst = some 15) := by decide +kernel

/-- An elastic slot with TEASEL on cluster 0. -/
def elastic0 (s : State) : State := { s with sch := { s.sch with running := [⟨0, 0, 3, 0, 0, true, 0, 64, 1, []⟩] } }

/-- A step of VF 7 that ended with this result, whose one row is sequence 0. -/
def stepped (q : Seq) (r : Nat × Nat) : State :=
  let s := withSeq (teaselOn runs7) q
  { s with tsl := { s.tsl with steps := [⟨3, 7, [(0, 0, 1)], 1000, some r⟩] } }

theorem witness_SequencesAreBatched_steps :
    (let s := withSeq (teaselOn runs7) seq7
     let t : State := { s with tsl := { s.tsl with appends := [⟨0, 9, 0x10000003000, 1⟩] } }
     t.frozen = false ∧ t.tsl.appends.find? (fun a => (t.seq a.idx).vf == 7 && !(t.seq a.idx).inStep) = some ⟨0, 9, 0x10000003000, 1⟩ ∧
     t.memCheck freshAgent 7 0x10000003000 4 false false = none ∧ t.memCheck freshAgent 7 0x10000002000 4 true false = none ∧
     (t.reach freshAgent 7 0x10000002000 4 true).length = 4) ∧
    (let s := elastic0 (withSeq (teaselOn runs7) seq7)
     let t := s.setPage 7 0 true
     t.frozen = false ∧ t.activated 7 = true ∧ t.tsl.steps = [] ∧ t.teaselSlot 7 = true ∧ t.mf 0x34 4 ≤ 0 ∧
     ((t.candidates 7).foldl (State.offer 7 0) ⟨t, [], 0, 0⟩).rows = [(0, 0, 1)]) ∧
    (let q := { seq7 with inStep := true, promptTokens := 2 }
     let s := stepped q (0, 0)
     s.tsl.steps.find? (fun x => x.vf == 7 && x.result.isSome) = some ⟨3, 7, [(0, 0, 1)], 1000, some (0, 0)⟩ ∧ s.seq 0 = q ∧
     q.inStep = true ∧ q.st = 1 ∧ q.done + 1 ≠ q.hist) ∧
    (let q := { seq7 with inStep := true }
     let s := stepped q (0, 0)
     s.seq 0 = q ∧ q.done + 1 = q.hist ∧ s.areaLe 7 7 0 4 = 0 ∧ 0 < s.mf 0x20 4 ∧
     s.memCheck freshAgent 7 (q.out + 4 * q.outLen) 4 true false = none ∧
     ((List.range 4).all (fun j => s.mf (0x24 + 4 * j) 4 != 0)) = true ∧ q.outLen + 1 < q.maxNew) ∧
    (let s := stepped { seq7 with inStep := true } (4, 0)
     s.frozen = false ∧ (s.tsl.steps.find? (fun x => x.vf == 7 && x.result.isSome)).isSome = true) := by decide +kernel

/-! ### The schedule -/

/-- A best-effort slot of VF 7 on clusters 0 to 7: START 0, LENGTH 100. -/
def entry7 : Entry := stamp (2 + 256 * 7 + 100 * 2 ^ 128 + 0xFF * 2 ^ 192) 0

/-- A machine whose tick runs, with the group at this entry of the position being read. -/
def reading (es : List (Nat × Nat)) (idx : Nat) : State :=
  let s : State := { runs7 with tick := { runs7.tick with running := true } }
  { s with sch := { s.sch with table := es, rdIdx := idx } }

/-- A slot of this kind that runs VF 7. -/
def slotK (kind overrun : Nat) : Slot := ⟨0, 0, kind, 7, overrun, false, 0, 64, 0xFF, []⟩

/-- VF 7 with such a slot. -/
def inSlot (s : State) (kind overrun : Nat) : State := { s with sch := { s.sch with running := [slotK kind overrun] } }

/-- Queue 15 with a CLASS 1 command that has started. -/
def rtBegun : State :=
  (queue15.setFld (F.QIF_Q_CTRL_CLASS 7 15) 1).modQueue 7 15 (fun x => { x with cmds := [{ cmdOf [] with phase := 1 }] })

theorem witness_SlotsFollowTheSchedule :
    (let s := reading [(0, entry7)] 0
     s.frozen = false ∧ s.tick.running = true ∧ s.sch.ahead = false ∧ s.sch.ready = [] ∧ s.sch.rdBase + s.sch.rdIdx = 0 ∧
     s.sch.rdIdx < 31 ∧ entryBad (s.entryAt 0) = 0 ∧ eKind (s.entryAt 0) ≠ 0 ∧ entryBad (s.entryAt 1) = 0 ∧ eKind (s.entryAt 1) = 0) ∧
    (let s := reading [(30, entry7 + 2 ^ 32), (31, entry7)] 30
     s.sch.rdIdx = 30 ∧ entryBad (s.entryAt 30) ≠ 0 ∧ entryBad (s.entryAt 31) = 0 ∧ eKind (s.entryAt 31) ≠ 0) ∧
    runs7.tick.running = false ∧
    (let s := reading [(0, entry7)] 1
     let t : State := { s with sch := { s.sch with ready := [slotOf entry7 0] } }
     t.frozen = false ∧ t.tick.running = true ∧ t.sch.ready ≠ [] ∧ t.sch.ahead = false ∧ t.sch.rdBase / 2048 = t.bank ∧
     t.dispatchStopped = false) ∧
    (runs7.sch.running.find? (fun x => x.key == 0) = some (slotK 2 0) ∧ runs7.frozen = false) ∧
    (let s := inSlot rtBegun 1 0
     s.sch.running.find? (fun x => x.key == 0) = some (slotK 1 0) ∧ s.slotRuns 7 (slotK 1 0) = true ∧
     s.rtCommands 7 = [(15, 9)] ∧ (slotK 1 1).overrun = 1) ∧
    ((elastic0 runs7).sch.running.any (fun x => x.key == 0 && x.kind == 3)) = true := by decide +kernel

theorem witness_SlotsFollowTheSchedule_others :
    (let s := withRegs (withFlds (elastic0 runs7) [(F.SLC_S_STATE_STATE 6, 2), (F.SEC_TDI_STATE 6, 2)]) [(R.SLC_S_CLUSTERS_LO 6, 1)]
     s.frozen = false ∧ 2 ≤ (s.elasticOf 0).length ∧ [(7, 3), (6, 1)].filter (fun p => (s.elasticOf 0).contains p.1) = [(7, 3), (6, 1)]) ∧
    (let s := inSlot runs7 4 0
     s.sch.running.find? (fun x => x.kind == 4) = some (slotK 4 0) ∧ s.frozen = false ∧ s.sch.excl = none ∧
     s.sch.exclIdle = false ∧ s.vfIdle 7 = false) ∧
    (let s := (holding (cmdOf [])).setFld F.SCH_EXCL_LIMIT_MS 1
     let t : State := { s with sch := { s.sch with excl := some (7, 9, 0) } }
     t.exclJob = some (7, 9, 0) ∧ t.frozen = false ∧ t.fld F.SCH_EXCL_LIMIT_MS = 1 ∧ (t.findCmd 7 9).map Prod.fst = some 15 ∧
     t.runClk < 0 + 1 * 1000000 ∧ 0 + 1 * 1000000 ≤ ({ t with runClk := 1000000 } : State).runClk) ∧
    (let s : State := { runs7 with sch := { runs7.sch with sdPend := [(7, 1)] } }
     vfs.find? (fun n => fget (fun _ => 0) s.sch.sdPend n == 1) = some 7 ∧ s.slotState 1009 = 0 ∧ s.frozen = false) ∧
    (let s := (withRegs (withFlds runs7 [(F.SLC_S_BOUNDS_MIN_CLUSTERS 7, 1), (F.SLC_S_BOUNDS_MAX_CLUSTERS 7, 8)])
       [(R.SLC_B_MAX_COMMONS 7, 1), (R.SLC_B_MAX_HBM 7, 16), (R.TCK_COUNT_LO, 2)]).modSlice 7 (fun x => { x with boundsAt := 2 })
     s.frozen = false ∧ (s.slice 7).boundsAt ≠ 0 ∧ (s.slice 7).boundsAt ≤ s.tickCount ∧ s.sliceState 7 = 2 ∧
     s.pendingOf 7 = none ∧ s.tenancy = 2 ∧ s.boundLayouts 7 = (s.projected, true)) ∧
    (let s := withRegs (withFlds runs7 [(F.SLC_S_BOUNDS_MIN_CLUSTERS 7, 1), (F.SLC_S_BOUNDS_MAX_CLUSTERS 7, 4)])
       [(R.SLC_B_MAX_COMMONS 7, 1), (R.SLC_B_MAX_HBM 7, 16)]
     (s.boundLayouts 7).2 = true ∧
     ((s.boundLayouts 7).1.filter (fun h => !s.projected.contains h)).map Held.vf = [7]) ∧
    (let s := withRegs (withFlds runs7 [(F.SLC_S_BOUNDS_MIN_CLUSTERS 7, 9), (F.SLC_S_BOUNDS_MAX_CLUSTERS 7, 9),
        (F.SLC_S_COMMONS_UNITS 7, 0), (F.SLC_S_HBM_UNITS 7, 0)]) [(R.ID_CLUSTER_USABLE_LO, 0xFF), (R.ID_CLUSTER_USABLE_HI, 0)]
     s.boundLayouts 7 = (s.projected, false) ∧ (s.slice 7).boundsLogged = false) := by decide +kernel

end Sys2Proof.Tests
end

