-- ==== Sys2Proof/Tests/WitnessE.lean ====
section
/-! SUPPORT. Concrete states and operands that meet the hypotheses of the statements: the Yarrow instructions. -/

namespace Sys2Proof.Tests

set_option Elab.async false

open Sys2Proof.Machine

/-! ### A group that issues -/

/-- An instruction word: opcode, guard, the fields D, A and B of Table 11-1, and its other bits. -/
def insG (op guard d a b rest : Nat) : Nat := op * 2 ^ 56 + guard * 2 ^ 52 + d * 2 ^ 43 + a * 2 ^ 35 + b * 2 ^ 27 + rest

/-- One whose guard always holds. -/
def ins (op d a b rest : Nat) : Nat := insG op 15 d a b rest

/-- A context of VF 7 with this one group, from an image that is windowed or not. -/
def ctxOf (windowed : Bool) (y : Group) : Ctx :=
  { vf := 7, launch := 3, index := 0, handle := 256, groups := 1, laneRegs := if windowed then 192 else 32, share := 1024,
    split := 0, predOnly := false, windowed := windowed, mtx := false, parked := false, moveTo := 0, kept := [], parkedBy := [],
    store := [], ctrs := [], copies := [], nextCopy := 0, tiles := [], grp := [(0, y)] }

/-- The launch its context belongs to. -/
def launchY : Launch := { launch7 with next := 1, live := 1, spill := 0x10000000000 }

/-- VF 7 with a kernel of this one word, launched, and this context in slot 0 of cluster 0. -/
def coded (w : Nat) (x : Ctx) : State :=
  let s := runs7.modSlice 7 (fun z => { z with kernels := [(256, some { kernel2 with code := leBytes 8 w, consts := [1, 2, 3, 4] })] })
  { s with yar := { s.yar with ctxs := [(0, some x)], launches := [launchY] } }

/-- The instruction that the group, or its high half, issues meets `Issues` and `p`. -/
def issues (s : State) (hi : Bool) (ops : List Nat) (regs : Iss → List (Nat × Nat)) (p : Iss → Bool) : Bool :=
  match s.fetch 0 0 0 hi with
  | none => false
  | some i => i.inCode && ops.contains i.op && s.ready i &&
      (match s.launchOf i.x.launch with | some l => l.fault == 0 | none => true) && !(waitsAt i.x i.y i.w && i.groupOn) &&
      !i.guardBad && (!i.y.inTrap || decide (i.y.handlerCount < 256)) && (fieldsOf (regs i)).all (fun r => !i.outOfRange r) &&
      !i.hazard (regs i) && decide (i.act < 2 ^ 32) && p i

/-- What `issues` decides is the premise of the statements. -/
theorem issues_of (s : State) (hi : Bool) (ops : List Nat) (regs : Iss → List (Nat × Nat)) (p : Iss → Bool)
    (h : issues s hi ops regs p = true) : ∃ i, Issues s 0 0 0 hi ops i (regs i) ∧ p i = true := by
  unfold issues at h
  cases hf : s.fetch 0 0 0 hi with
  | none => rw [hf] at h; cases h
  | some i =>
    rw [hf] at h
    simp only [Bool.and_eq_true, Bool.not_eq_true', List.contains_iff_mem, decide_eq_true_eq, List.all_eq_true,
      Bool.or_eq_true] at h
    obtain ⟨⟨⟨⟨⟨⟨⟨⟨⟨⟨h1, h2⟩, h3⟩, h4⟩, h5⟩, h6⟩, h7⟩, h8⟩, h9⟩, _⟩, hp⟩ := h
    refine ⟨i, ⟨hf, by decide, h1, h2, h3, ?_, ?_, h6, ?_, h8, h9⟩, hp⟩
    · intro l hl; rw [hl] at h4; simpa using h4
    · intro hw; rw [hw] at h5; simpa using h5
    · intro ht; rcases h7 with h7 | h7
      · rw [ht] at h7; cases h7
      · exact h7

/-- The plain context: every lane active, nothing written. -/
def whole : Ctx := ctxOf false {}

/-! ### Arithmetic -/

/-- Opcode, sources and permitted MOD bits of the integer and float classes. -/
def classes : List (Nat × Nat × Nat) :=
  [(0x00, 2, 3), (0x01, 2, 3), (0x02, 2, 3), (0x03, 2, 3), (0x04, 2, 0), (0x05, 2, 0), (0x06, 2, 1), (0x07, 2, 1), (0x08, 3, 0),
   (0x0A, 2, 1), (0x0B, 2, 1), (0x0C, 2, 1), (0x0D, 2, 1), (0x0E, 2, 0), (0x0F, 2, 0), (0x10, 2, 0), (0x11, 2, 0), (0x12, 2, 0),
   (0x13, 2, 0), (0x14, 2, 0), (0x15, 2, 0), (0x16, 2, 1), (0x17, 2, 1), (0x18, 1, 0), (0x1A, 1, 0), (0x1C, 1, 2), (0x1E, 2, 1),
   (0x1F, 2, 1)] ++
  [(0x20, 2, 247), (0x21, 2, 247), (0x22, 2, 247), (0x23, 2, 247), (0x24, 2, 247), (0x25, 2, 247), (0x26, 3, 247),
   (0x28, 2, 244), (0x29, 2, 244), (0x2A, 2, 244), (0x2B, 2, 244), (0x2C, 1, 244), (0x2E, 1, 244), (0x30, 1, 244), (0x32, 1, 244),
   (0x34, 1, 244), (0x36, 1, 244), (0x38, 1, 244), (0x3A, 2, 255), (0x3C, 2, 255), (0x3E, 3, 255)]

theorem witness_ArithmeticWritesItsResult : ∀ p ∈ classes,
    issues (coded (ins p.1 31 2 (if p.2.1 = 1 then 0 else 3) (if p.2.1 = 3 then 4 * 2 ^ 16 else 0)) whole) false [p.1]
      (fun i => i.vecRegs p.2.1) (fun i => !i.formBad p.2.1 && Nat.land i.mods (255 - p.2.2) == 0) = true := by
  decide +kernel

theorem witness_ArithmeticWritesItsResult_others :
    (∀ op ∈ [0x40, 0x41, 0x42, 0x43], issues (coded (ins op (14 + 16 * 5) 2 3 0) whole) false [op]
      (fun i => (if i.ua then [] else [(i.a, 1)]) ++ (if i.isI || i.ub then [] else [(i.b, 1)]))
      (fun i => !i.ud && decide (bitsOf i.w 49 47 < 6) && bitsOf i.w 46 43 != 15 && (!i.isI || !tst i.w 0)) = true) ∧
    issues (coded (ins 0x44 14 15 15 0) whole) false [0x44] (fun _ => [])
      (fun i => decide (i.a ≤ 15) && decide (i.b ≤ 15) && i.d % 16 != 15) = true ∧
    issues (coded (ins 0x46 1 2 3 0) whole) false [0x46] (fun i => i.vecRegs 2) (fun i => !i.formBad 2) = true ∧
    issues (coded (ins 0x50 1 2 0 0) whole) false [0x50] (fun i => i.vecRegs 1) (fun i => !i.formBad 1 && i.srcC == 0) = true ∧
    issues (coded (ins 0x51 1 0 0 0) whole) false [0x51] (fun i => if i.ud then [] else [(i.d, 1)])
      (fun i => i.a == 0 && !i.ud && !tst i.w 0) = true ∧
    issues (coded (ins 0x52 1 2 0 0xD1) whole) false [0x52] (fun i => i.vecRegs 1)
      (fun i => !i.formBad 1 && cvtKnown (i.mod % 16) && cvtKnown (i.mod / 16)) = true ∧
    issues (coded (ins 0x54 63 2 63 (2 ^ 25)) whole) false [0x54] (fun i => [(i.a, 1)])
      (fun i => i.ub && decide (i.b ≤ 63) && decide (i.d ≤ 63) && !i.ud) = true ∧
    issues (coded (ins 0x78 1 2 3 0) whole) false [0x78]
      (fun i => [(i.d, 1), (i.a, 1)] ++ (if tst i.mod 2 || i.ub then [] else [(i.b, 1)])) (fun i => !i.ud && !tst i.mod 2) = true ∧
    (∀ m ∈ [0, 1, 2, 4, 5], issues (coded (ins 0x7A 14 15 0 m) whole) false [0x7A] (fun _ => [])
      (fun i => i.groupOn && decide (i.a ≤ 15) && i.mod % 8 == m && decide (i.d ≤ 14)) = true) ∧
    (∀ m ∈ [0, 2], issues (coded (ins 0x99 1 7 0 m) whole) false [0x99] (fun i => if tst i.w 1 then [] else [(i.d, 1)])
      (fun i => decide (i.a ≤ 7) && decide (i.d ≤ 63) && tst i.w 1 == (m == 2)) = true) ∧
    issues (coded (ins 0x87 0 0 0 0) whole) false [0x87] (fun _ => []) (fun i => bitsOf i.w 50 0 == 0) = true := by
  decide +kernel

/-! ### Memory -/

/-- The context with one active lane. -/
def lane0 : Ctx := ctxOf false { act0 := 1 }

/-- Format M bits: SPACE local store, a size code. -/
def locally (size : Nat) : Nat := 2 ^ 24 + size * 2 ^ 21

theorem witness_LoadsStoresAndAtomicsAct :
    (∀ p ∈ [(0x64, false, false), (0x65, false, false), (0x66, false, false), (0x67, false, false), (0x68, false, false),
        (0x69, false, false), (0x6A, false, false), (0x6B, false, false), (0x6C, false, false), (0x6D, true, false),
        (0x6E, false, true)],
      let s := coded (ins p.1 4 2 8 (locally 2)) lane0
      issues s false [p.1] (fun i => (i.d, i.words) :: i.addrRegs ++ (if i.mub then [] else [(i.b, (if p.2.1 then 2 * i.words else i.words))]))
        (fun i => !i.y.inTrap && !i.memBad true && i.sizeCode == 2 && i.d % i.words == 0 && i.b % (if p.2.1 then 2 * i.words else i.words) == 0 &&
          i.on == [0] && s.access i true true 0 == .inr ⟨1, 0⟩ && i.y.loads == [] && s.sbuf i.c i.sched == []) = true) ∧
    (∀ p ∈ [(0x60, 4), (0x61, 1)],
      let s := coded (ins p.1 4 2 0 (locally p.2)) lane0
      issues s false [p.1] (fun i => (i.d, i.words) :: i.addrRegs) (fun i => !i.y.inTrap && !i.memBad false && i.d % i.words == 0 &&
        i.on == [0] && s.access i false false 0 == .inr ⟨1, 0⟩ && (p.1 == 0x60 || decide (i.sizeCode ≤ 1)) &&
        s.sbuf i.c i.sched == []) = true) ∧
    issues (coded (ins 0x63 4 2 0 (2 * 2 ^ 21)) lane0) false [0x63] (fun i => (i.d, i.words) :: (if i.ua then [] else [(i.a, 1)]))
      (fun i => i.space == 0 && decide (i.sizeCode ≤ 4) && !i.ua && !i.mub && i.b == 0 && i.d % i.words == 0 && i.on == [0] &&
        i.addr false 0 % i.size == 0 && decide (i.addr false 0 + i.size ≤ i.kn.consts.length)) = true ∧
    (let s := coded (ins 0x62 0 2 8 (locally 2)) lane0
     issues s false [0x62] (fun i => i.addrRegs ++ (if i.mub then [] else [(i.b, i.words)])) (fun i => !i.y.inTrap && !i.memBad true &&
       i.d == 0 && i.b % i.words == 0 && i.on == [0] && s.access i true false 0 == .inr ⟨1, 0⟩ && !s.storePoison ⟨1, 0⟩ i.size &&
       i.y.loads == [] && decide ((s.sbuf i.c i.sched).length + (storeEntries i.k [(⟨1, 0⟩, leBytes i.size (i.wide i.b 0))]).length ≤ 32))
       = true) := by
  decide +kernel

theorem witness_LoadsStoresAndAtomicsAct_order :
    issues (coded (ins 0x70 1 2 4 (2 ^ 10)) whole) false [0x70] (fun _ => []) (fun i => i.groupOn && !i.y.inTrap && !i.gBad &&
      i.a % 2 == 0 && decide (i.a ≤ 62) && decide (i.b ≤ 63) && bitsOf i.w 9 0 == 0 && bitsOf i.w 25 10 == 1 &&
      decide (i.x.copies.length < 64) && (i.y.u i.a + 2 ^ 32 * i.y.u (i.a + 1)) % 16 == 0 && i.y.u i.b % 16 == 0 &&
      decide (i.y.u i.b + 16 * bitsOf i.w 25 10 ≤ i.x.share)) = true ∧
    issues (coded (ins 0x71 15 0 0 0) whole) false [0x71] (fun _ => []) (fun i => i.groupOn && !i.y.inTrap && !i.gBad &&
      bitsOf i.w 42 0 == 0) = true ∧
    issues (coded (ins 0x72 15 0 0 0) whole) false [0x72] (fun _ => []) (fun i => !i.y.inTrap && !i.gBad && bitsOf i.w 2 0 == 0) = true ∧
    issues (coded (ins 0x73 15 63 0 0) whole) false [0x73] (fun _ => []) (fun i => !i.y.inTrap && !i.gBad && decide (i.a ≤ 63)) = true ∧
    ((coded (ins 0x72 1 0 0 8) whole).fetch 0 0 0 false).any (fun i => i.groupOn && i.op == 0x72 &&
      !reached (i.x.ctr i.ctrOf) (bitsOf i.w 34 3)) = true ∧
    ((coded (ins 0x73 1 5 0 0) (ctxOf false { unif := [(5, 1)] })).fetch 0 0 0 false).any (fun i => i.groupOn && i.op == 0x73 &&
      !reached (i.x.ctr i.ctrOf) (i.y.u i.a)) = true ∧
    issues (coded (ins 0x74 63 0 15 (2 ^ 15)) whole) false [0x74] (fun _ => []) (fun i => i.ud && decide (i.d ≤ 63)) = true ∧
    (∀ m ∈ [0, 1, 2, 6], issues (coded (ins 0x98 0 0 0 m) whole) false [0x98] (fun _ => []) (fun i => !i.y.inTrap && !i.gBad &&
      decide (bitsOf i.w 1 0 ≤ 2)) = true) := by
  decide +kernel

theorem witness_LoadsStoresAndAtomicsAct_completions :
    (let x := ctxOf false { loads := [⟨4, 4, false, [(31, ⟨1, 0⟩)], [(31, [1, 2, 3, 4])]⟩, ⟨5, 1, false, [(0, ⟨1, 0⟩)], []⟩] }
     let s := coded 0 x
     s.ctx (8 * 0 + 0) = some x ∧ s.frozen = false ∧
     (x.group 0).loads[0]? = some ⟨4, 4, false, [(31, ⟨1, 0⟩)], [(31, [1, 2, 3, 4])]⟩ ∧
     (x.group 0).loads[1]? = some ⟨5, 1, false, [(0, ⟨1, 0⟩)], []⟩) ∧
    (let s := coded 0 whole
     let e0 : SbEntry := ⟨0, 0, 4, [(0, 6)]⟩
     let e1 : SbEntry := ⟨0, 1, 4, [(31, 6)]⟩
     ((s.setSbuf 0 0 [e0]).sbuf 0 0 = [e0] ∧ (e0.bytes.map Prod.fst).Nodup ∧ e0.space = 0) ∧
     ((s.setSbuf 0 3 [e1]).sbuf 0 3 = [e1] ∧ (s.setSbuf 0 3 [e1]).ctx e1.ctx = some whole ∧ e1.space = 1)) ∧
    (let p : Copy := ⟨1, 2, false, 0x10000000000, 0, 16⟩
     let x := { whole with copies := [p, { p with toSlice := true }] }
     let s := coded 0 x
     s.ctx 0 = some x ∧ x.copies[0]? = some p ∧ s.copyStop 0 x p = none ∧ s.copyPoison 0 x p = false ∧
     s.copyStop 0 x { p with toSlice := true } = none ∧ s.copyPoison 0 x { p with toSlice := true } = false ∧
     ((s.touch 0 7 0x10000000000 16).reach 0 7 0x10000000000 16 true) = List.range 16) ∧
    (let p : Copy := ⟨1, 2, false, 0, 0, 16⟩
     let x := { whole with copies := [p] }
     (coded 0 x).copyStop 0 x p = some 0 ∧ (coded 0 x).launchOf x.launch = some launchY) := by decide +kernel

end Sys2Proof.Tests
end

