-- ==== Sys2Proof/Tests/WitnessF.lean ====
section
/-! SUPPORT. Concrete states and operands that meet the hypotheses of the statements: branches, windows, contexts, matrix units
and engines. -/

namespace Sys2Proof.Tests

set_option Elab.async false

open Sys2Proof.Machine

/-! ### Branches -/

/-- A group whose predicate 0 holds in these lanes. -/
def inLanes (m : Nat) : Group := { preds := [(0, m)] }

/-- A BRA to the next but one instruction, with guard p0 and this rejoin offset. -/
def bra (recon : Nat) : Nat := insG 0x80 0 0 0 0 (2 + recon * 2 ^ 27)

/-- A mask stack entry of every lane with its rejoin point at index 0. -/
def entry0 (kind : Nat) : MaskEntry := ⟨kind, 0, 0, 0, 0xFFFFFFFF⟩

theorem witness_BranchesWindowsAndContextsAct_branches :
    issues (coded (ins 0x80 0 0 0 2) whole) false [0x80] (fun _ => []) (fun i => i.d == 0 && i.on == i.lanes) = true ∧
    issues (coded (bra 0) whole) false [0x80] (fun _ => []) (fun i => i.on == [] && i.lanes != []) = true ∧
    issues (coded (bra 0) (ctxOf false (inLanes 1))) false [0x80] (fun _ => []) (fun i => i.on != [] && i.on != i.lanes &&
      sgn 16 (bitsOf i.w 42 27) == 0) = true ∧
    issues (coded (bra 4) (ctxOf false { inLanes 1 with stack := List.replicate 32 (entry0 0) })) false [0x80] (fun _ => [])
      (fun i => i.on != [] && i.on != i.lanes && !i.predMode && sgn 16 (bitsOf i.w 42 27) != 0 && decide (32 ≤ i.y.stack.length))
      = true ∧
    (∀ low ∈ [true, false],
      issues (coded (bra 4) (ctxOf false { inLanes (if low then 0xFFFF else 0xFFFF0000) with stack := List.replicate 31 (entry0 0) }))
        false [0x80] (fun _ => []) (fun i => !i.predMode && sgn 16 (bitsOf i.w 42 27) != 0 && decide (i.y.stack.length < 32) &&
          !i.y.split && i.lanes.all (fun l => i.on.contains l == (decide (l < 16) == low))) = true) ∧
    issues (coded (bra 4) (ctxOf false (inLanes 1))) false [0x80] (fun _ => []) (fun i => !i.predMode && i.on.contains 0 &&
      i.lanes.contains 1 && !i.on.contains 1) = true := by decide +kernel

/-- A split group, one half of which waits at its JOIN. -/
def halves (n : Nat) : Ctx := ctxOf false { split := true, act0 := 0xFFFF, act1 := 0xFFFF0000, atJoin := n, stack := [entry0 2] }

theorem witness_BranchesWindowsAndContextsAct_flow :
    (∀ y ∈ [({} : Group), { stack := [entry0 0] }, { stack := [entry0 1] }, { stack := [{ entry0 0 with rpc := 7 }] }],
      issues (coded (ins 0x82 0 0 0 0) (ctxOf false y)) false [0x82] (fun _ => []) (fun i => !i.neg && bitsOf i.w 50 0 == 0 &&
        !i.predMode && i.groupOn && (i.joinEntry == none || i.joinEntry == some 0)) = true) ∧
    (∀ n ∈ [0, 2], issues (coded (ins 0x82 0 0 0 0) (halves n)) false [0x82] (fun _ => []) (fun i => !i.neg && !i.predMode && i.groupOn && i.joinEntry == some 0 &&
        alive i.y (halfLanes (entry0 2) true) != 0) = true) ∧
    issues (coded (ins 0x81 0 63 0 0) whole) false [0x81] (fun _ => []) (fun i => i.d == 0 && decide (i.a ≤ 63) &&
      bitsOf i.w 34 0 == 0 && i.on == i.lanes && i.lanes != []) = true ∧
    issues (coded (insG 0x81 0 0 0 0 0) (ctxOf false (inLanes 1))) false [0x81] (fun _ => []) (fun i => i.on != [] &&
      i.on != i.lanes) = true ∧
    issues (coded (ins 0x83 63 0 0 1) whole) false [0x83] (fun _ => []) (fun i => decide (i.d ≤ 63) && bitsOf i.w 42 27 == 0 &&
      !i.y.inTrap && i.on == i.lanes && i.lanes != []) = true ∧
    issues (coded (insG 0x83 0 0 0 0 0) (ctxOf false (inLanes 2))) false [0x83] (fun _ => []) (fun i => i.on != [] &&
      i.on != i.lanes) = true ∧
    issues (coded (ins 0x84 0 0 0 0) whole) false [0x84] (fun _ => []) (fun i => bitsOf i.w 50 0 == 0 && !i.y.inTrap &&
      !i.y.split) = true ∧
    issues (coded (ins 0x84 0 0 0 0) (halves 2))
      false [0x84] (fun _ => []) (fun i => i.y.split && i.y.stack.findIdx? (fun e => e.kind == 2) == some 0 && i.on == i.lanes &&
        (List.range 32).all (fun l => !tst (halfLanes (entry0 2) false) l || i.lanes.contains l) && i.y.atJoin == 2) = true ∧
    (∀ m ∈ [0, 1], issues (coded (ins 0x85 0 0 0 m) whole) false [0x85] (fun _ => []) (fun i => bitsOf i.w 50 1 == 0 &&
      !i.y.inTrap && i.groupOn && tst i.w 0 == (m == 1) && decide (i.x.groups ≤ 64)) = true) ∧
    issues (coded (ins 0x86 0 0 0 0xFFFF) whole) false [0x86] (fun _ => []) (fun i => !i.gBad && bitsOf i.w 46 16 == 0 &&
      i.groupOn) = true ∧
    (∀ op ∈ [0x85, 0x86], issues (coded (insG op 0 0 0 0 0) whole) false [op] (fun _ => []) (fun i => !i.groupOn) = true) ∧
    ((coded 0 whole).launchOf 3).isSome = true := by decide +kernel

/-! ### Windows -/

/-- A windowed group with this many resident and spilled windows, in the trap window or not. -/
def window (resident spilled : Nat) (trap : Bool) : Ctx :=
  ctxOf true { resident := resident, spilled := spilled, inTrap := trap }

theorem witness_BranchesWindowsAndContextsAct_windows :
    (∀ p ∈ [(0xA0, 6, 0), (0xA0, 7, 0), (0xA1, 2, 0), (0xA1, 1, 1), (0xA1, 1, 0)],
      issues (coded (ins p.1 0 0 0 0) (window p.2.1 p.2.2 false)) false [p.1] (fun _ => []) (fun i => i.x.windowed &&
        bitsOf i.w 50 0 == 0 && i.groupOn && !i.y.inTrap && !i.was && !i.trapBusy) = true) ∧
    issues (coded (ins 0xA0 0 0 0 0) (ctxOf true { resident := 7, resumed := true })) false [0xA0] (fun _ => [])
      (fun i => i.groupOn && !i.y.inTrap && i.was) = true ∧
    issues (coded (ins 0xA0 0 0 0 0) { window 7 0 false with groups := 2, grp := [(0, { resident := 7 }), (1, { inTrap := true })] })
      false [0xA0] (fun _ => []) (fun i => i.groupOn && !i.y.inTrap && !i.was && i.trapBusy) = true ∧
    issues (coded (ins 0xA1 0 0 0 0) (window 7 0 true)) false [0xA1] (fun _ => []) (fun i => i.groupOn && i.y.inTrap) = true ∧
    issues (coded (insG 0xA0 0 0 0 0 0) (window 7 0 false)) false [0xA0] (fun _ => []) (fun i => !i.groupOn) = true ∧
    (let s := coded (ins 0xA2 0 0 0 0) (window 2 15 true)
     issues s false [0xA2] (fun _ => []) (fun i => i.x.windowed && bitsOf i.w 50 0 == 0 && i.groupOn && i.y.inTrap &&
       decide (2 ≤ i.y.resident) && decide (i.y.spilled < 16) && s.sbuf i.c i.sched == []) = true) ∧
    issues (coded (ins 0xA2 0 0 0 0) (window 2 16 true)) false [0xA2] (fun _ => []) (fun i => i.groupOn && decide (16 ≤ i.y.spilled)) = true ∧
    (let s := coded (ins 0xA3 0 0 0 0) (window 6 1 true)
     issues s false [0xA3] (fun _ => []) (fun i => i.x.windowed && bitsOf i.w 50 0 == 0 && i.groupOn && i.y.inTrap &&
       decide (i.y.resident ≤ 6) && decide (1 ≤ i.y.spilled) && (s.cluster i.c).sb == [] && (s.cluster i.c).cache == [] &&
       (List.range 16).all (fun r => (List.range 32).all (fun l =>
         s.xlate i.c i.x.vf (s.frameAddr i (i.y.spilled - 1) r + 4 * l) false == some (128 * r + 4 * l)))) = true ∧ s.mem.poison = []) ∧
    issues (coded (ins 0xA3 0 0 0 0) (window 7 1 true)) false [0xA3] (fun _ => []) (fun i => i.groupOn && decide (6 < i.y.resident)) = true ∧
    (∀ t ∈ [true, false], issues (coded (ins 0xA4 0 0 0 0) (window 1 0 t)) false [0xA4] (fun _ => []) (fun i => i.x.windowed &&
      bitsOf i.w 50 0 == 0 && i.groupOn && i.y.inTrap == t) = true) ∧
    issues (coded (ins 0xA5 63 0 0 0) (window 1 0 false)) false [0xA5] (fun _ => []) (fun i => i.x.windowed && decide (i.d ≤ 63) &&
      bitsOf i.w 42 0 == 0) = true := by decide +kernel

/-! ### Contexts -/

theorem witness_BranchesWindowsAndContextsAct_contexts :
    (let s := coded 0 (ctxOf false { pc0 := 1 })
     (s.fetch 0 0 0 false).any (fun i => s.ready i && !i.inCode) = true) ∧
    (let s := coded (ins 0x09 0 0 0 0) whole
     (s.fetch 0 0 0 false).any (fun i => s.ready i && i.inCode && !knownOps.contains i.op && !i.x.windowed) = true) ∧
    (let x := ctxOf false { exited := 0xFFFFFFFF, act0 := 0 }
     let s := coded 0 x
     let t : State := { s with yar := { s.yar with launches := [{ launchY with contexts := 2, next := 2, live := 2 }] } }
     let u := s.modQueue 7 15 (fun q => { q with cmds := [{ cmdOf [] with phase := 1 }] })
     (s.ctx 0 = some x ∧ s.frozen = false ∧ s.ctxDone 0 x = true ∧ (s.cluster 0).sb = [] ∧ s.yar.graphs = []) ∧
     (t.launchOf 3).any (fun l => decide (l.contexts ≤ l.next) && l.live == 2) = true ∧
     (u.launchOf 3).any (fun l => decide (l.contexts ≤ l.next) && l.live == 1) = true ∧ (u.findCmd 7 9).map Prod.fst = some 15) ∧
    (coded 0 whole).ctxDone 0 whole = false ∧
    (let s := inSlot (coded 0 (window 7 0 true)) 1 0
     s.frozen = false ∧ s.deferring 0 = true) ∧
    (let s := coded 0 whole
     s.deferring 0 = false ∧ (s.cluster 0).sb = [] ∧ whole.moveTo = 0) := by decide +kernel

end Sys2Proof.Tests
end

