-- ==== Sys2Proof/Tests/WitnessG.lean ====
section
/-! SUPPORT. Concrete states and operands that meet the hypotheses of the statements: matrix units and engines. -/

namespace Sys2Proof.Tests

set_option Elab.async false

open Sys2Proof.Machine

/-! ### Matrix units -/

/-- A descriptor with these fields (offset, bytes, value). -/
def descOf (op : Nat) (args : List (Nat × Nat × Nat)) : List Byte := fitTo 64 (payload op args)

/-- INT8 MMA of K = 2 into tile 1, LOAD, STORE of FP32 and RELEASE, all in local store. -/
def mmaDesc : List Byte := descOf 0x101 [(2, 2, 0x200), (4, 2, 0x0B0B), (8, 8, 64), (0x10, 8, 128), (0x18, 4, 16), (0x1C, 4, 64)]
def loadDesc : List Byte := descOf 0x102 [(8, 8, 64), (0x18, 4, 256)]
def storeDesc : List Byte := descOf 0x103 [(4, 1, 1), (8, 8, 64), (0x18, 4, 256)]
def releaseDesc : List Byte := descOf 0x104 []

/-- An operation of the context in slot 0 with this descriptor. -/
def opOf (desc : List Byte) : MatOp :=
  { seq := 1, ctx := 0, unit := 0, group := 0, lane := 0, space := 0, addr := 0, ctr := some 2, desc := desc, aRows := [], bRows := [],
    aScale := [], bScale := [] }

/-- A context whose local store holds this descriptor at 0. -/
def holdsDesc (desc : List Byte) : Ctx :=
  { whole with share := 8192, store := ((desc.zipIdx).filter (fun p => p.1 != 0)).map (fun p => (p.2, p.1)) }

/-- Unit 0 as given, beside that context. -/
def unit0 (x : Ctx) (u : MUnit) : State := (coded 0 x).modUnit 0 (fun _ => u)

theorem witness_MatrixUnitsAndEnginesWork_matrix :
    (let s := coded (ins 0x90 15 2 0 (2 ^ 25)) whole
     issues s false [0x90] (fun i => [(i.a, if tst i.w 26 then 2 else 1)]) (fun i => !i.gBad && bitsOf i.w 24 23 != 3 &&
       i.groupOn && i.mmaAddr % 64 == 0 && !i.y.inTrap && !tst i.w 26 && decide (i.mmaAddr + 64 ≤ i.x.share) && i.mmaUnit s == some 0 &&
       decide (fget (fun _ => 0) i.y.inFlight i.first < 8)) = true) ∧
    (let s := coded (ins 0x90 0 2 0 0) (ctxOf false { inFlight := [(0, 8)] })
     issues s false [0x90] (fun i => [(i.a, 1)]) (fun i => i.groupOn && i.mmaAddr % 64 == 0 &&
       decide (8 ≤ fget (fun _ => 0) i.y.inFlight i.first)) = true) ∧
    issues (coded (ins 0x90 0 2 0 0) (ctxOf false { regs := [(64, 1)] })) false [0x90] (fun i => [(i.a, 1)])
      (fun i => i.groupOn && i.mmaAddr % 64 != 0) = true ∧
    issues (coded (insG 0x90 0 0 2 0 0) whole) false [0x90] (fun i => [(i.a, 1)]) (fun i => !i.groupOn) = true ∧
    (∀ d ∈ [mmaDesc, loadDesc, storeDesc, releaseDesc],
      let s := unit0 (holdsDesc d) { queue := [opOf []] }
      (s.munit 0).queue = [opOf []] ∧ (s.munit 0).staged = none ∧ s.ctx 0 = some (holdsDesc d) ∧ s.frozen = false ∧
      s.operand (opOf []) (holdsDesc d) 0 0 64 = d ∧ s.tileBusy 0 (opOf d) = false ∧ s.descCheck 0 (opOf d) (holdsDesc d) = 0 ∧
      (opOf d).ranges.all (fun r => r.1 == 0) = true) ∧
    (let d := descOf 9 []
     (unit0 (holdsDesc d) { queue := [opOf []] }).descCheck 0 (opOf d) (holdsDesc d) ≠ 0) ∧
    (∀ p ∈ [(1, mmaDesc), (2, loadDesc), (3, storeDesc), (4, releaseDesc)],
      let s := unit0 whole { staged := some (opOf p.2) }
      s.toRun 0 p.1 = some (opOf p.2) ∧ s.ctx 0 = some whole ∧ (opOf p.2).tile = 1 ∧ s.boundOn 0 0 1 = none ∧ s.boundOn 1 0 1 = none ∧
      s.ptile 0 0 = none ∧ (fget (fun _ => ({} : LTile)) whole.tiles 1).st = 0 ∧ s.tileBusy 0 (opOf p.2) = false) ∧
    ((opOf storeDesc).sp 0 = 0 ∧ (opOf storeDesc).outBytes ≤ (opOf storeDesc).f 0x18 4) ∧
    (let d := descOf 0x103 [(4, 1, 4), (6, 1, 1), (8, 8, 0x10000000000), (0x18, 4, 64)]
     let m := opOf d
     let s := unit0 whole { staged := some m }
     s.toRun 0 3 = some m ∧ m.sp 0 = 1 ∧ m.outBytes = 64 ∧
     (List.range 16).all (fun r => (List.range 64).all (fun k =>
       s.xlate 0 7 (m.f 8 8 + r * m.f 0x18 4 + k) true == some (64 * r + k))) = true) ∧
    (let s := unit0 whole { running := some (opOf mmaDesc), done := true }
     (s.munit 0).running = some (opOf mmaDesc) ∧ (s.munit 0).done = true ∧ s.frozen = false ∧ s.ctx 0 = some whole) ∧
    (coded 0 whole).toRun 0 1 = none := by decide +kernel

/-! ### Engines -/

/-- A block of VF 7 with these fields, from commons offset 0 to 0x1000 where it has addresses. -/
def blkOf (cls op : Nat) (args : List (Nat × Nat × Nat)) : Block :=
  ⟨fitTo 64 (args.foldl (fun p a => putAt p a.1 a.2.1 a.2.2)
    (putAt (putAt (leBytes 1 cls ++ leBytes 1 op ++ leBytes 1 7) 0x10 8 0x10000000000) 0x18 8 0x10000001000)), 9, 0, true, none, none⟩

/-- Instance `i` with this block at the head of VF 7's sub-queue: waiting, in a step, or with its step's work done. -/
def engine (i : Nat) (b : Block) (busy : Nat) (worked : Bool) : State :=
  let s := rtBegun.setFld (F.SLC_S_ENGINE_SHARE_WEIGHT 7) 256
  { s with ffe := { s.ffe with inst := [(i, { sub := [(7, [b])], busy := busy, worked := worked })] } }

/-- The step's premise. -/
def steps (i cls op : Nat) (b : Block) : Bool :=
  (engine i b 7 false).stepping i == some b && b.cls == cls && b.op == op && decide (i < 29)

/-- These `n` slice addresses can be written, apart. -/
def writable (s : State) (i n : Nat) (adr : Nat → Nat) : Bool :=
  (List.range n).all (fun o => s.xlate (instAgent i) 7 (adr o) true == some (adr o - 0x10000000000) &&
    !s.poisoned (adr o - 0x10000000000) && decide (0x10000000000 ≤ adr o)) &&
  (List.range n).all (fun o => (List.range n).all (fun p => adr o != adr p || o == p))

/-- A row block of one row of two FP32 elements. -/
def rowBlk (cls op func : Nat) : Block :=
  blkOf cls op [(0x20, 8, 0x10000002000), (0x28, 4, 1), (0x2C, 4, 2), (0x30, 1, func), (0x31, 1, 1), (0x32, 1, 1), (0x33, 1, 1)]

theorem witness_MatrixUnitsAndEnginesWork_queues :
    (let b : Block := { blkOf 1 2 [(0x20, 4, 8), (0x24, 2, 1), (0x26, 2, 1)] with uid := 0, started := false }
     let s := rtBegun.setReg R.FFE_STATUS 0x1FFFFFFF
     s.frozen = false ∧ b.vf = 7 ∧ s.sliceState b.vf ≠ 0 ∧ s.instFor b.cls b.vf = some 0 ∧ (s.inst 0).queueOf 7 = [] ∧
     fitTo 64 b.bytes = b.bytes) ∧
    (let b := blkOf 1 2 [(3, 1, 4), (0x20, 4, 8), (0x24, 2, 1), (0x26, 2, 1)]
     let s := inSlot (engine 0 b 0 false) 1 0
     s.frozen = false ∧ (s.inst 0).busy = 0 ∧ s.headFor 0 7 = some b ∧ b.flag 2 = true) ∧
    (let b := blkOf 1 2 [(0x20, 4, 8), (0x24, 2, 1), (0x26, 2, 1)]
     let s := inSlot (engine 0 b 0 false) 1 0
     s.headFor 0 7 = some b ∧ b.flag 2 = false ∧ (s.inst 0).last = 0 ∧ fget (fun _ => 0) (s.inst 0).deficit 7 < b.cost ∧
     b.cost ≤ fget (fun _ => 0) (s.inst 0).deficit 7 + 16 * s.fld (F.SLC_S_ENGINE_SHARE_WEIGHT 7)) ∧
    (let b := blkOf 1 2 [(0x20, 4, 8), (0x24, 2, 1), (0x26, 2, 1)]
     let s := inSlot (engine 0 b 0 false) 1 0
     let t := s.modInst 0 (fun x => { x with last := 7, deficit := [(7, b.cost)] })
     t.headFor 0 7 = some b ∧ (t.inst 0).last = 7 ∧ b.cost ≤ fget (fun _ => 0) (t.inst 0).deficit 7) ∧
    (let b := blkOf 1 2 [(0x20, 4, 65537), (0x24, 2, 1), (0x26, 2, 1)]
     let s := engine 0 b 7 true
     (s.inst 0).busy = 7 ∧ (s.inst 0).worked = true ∧ s.frozen = false ∧ (s.inst 0).queueOf 7 = [b] ∧ b.vf = 7 ∧ b.steps + 1 < b.stepCount) ∧
    (let b := blkOf 1 2 [(3, 1, 2), (0x20, 4, 65536), (0x24, 2, 1), (0x26, 2, 1)]
     b.stepCount ≤ b.steps + 1 ∧ b.flag 3 = false ∧ b.flag 1 = true) ∧
    (let b := blkOf 1 2 [(3, 1, 8), (0x20, 4, 65536), (0x24, 2, 1), (0x26, 2, 1)]
     let s := engine 0 b 7 true
     b.stepCount ≤ b.steps + 1 ∧ b.flag 3 = true ∧ b.uid ≠ 0 ∧ s.yar.graphs = [] ∧ (s.findCmd 7 b.uid).map Prod.fst = some 15) := by
  decide +kernel

theorem witness_MatrixUnitsAndEnginesWork_steps :
    (let b := blkOf 1 1 [(0x20, 4, 8), (0x24, 2, 1), (0x26, 2, 1)]
     let s := engine 0 b 7 false
     steps 0 1 1 b = true ∧ b.saved = none ∧ 1 ≤ b.field 0x20 4 ∧ b.srcSpace = 0 ∧ b.dstSpace = 0 ∧ b.overlaps = false ∧
     s.runsCheck b false false b.stepRuns = none ∧ s.runsCheck b true true b.stepRuns = none ∧
     writable s 0 b.stepBytes (fun o => b.moveAddr true (65536 * b.steps + o)) = true) ∧
    (let b := blkOf 1 1 [(0x10, 8, 0), (0x20, 4, 8), (0x24, 2, 1), (0x26, 2, 1)]
     ((engine 0 b 7 false).runsCheck b false false b.stepRuns).isSome = true) ∧
    (let b := blkOf 1 2 [(0x20, 4, 8), (0x24, 2, 1), (0x26, 2, 1)]
     let s := engine 15 b 7 false
     steps 15 1 2 b = true ∧ b.dstSpace = 0 ∧ s.runsCheck b true true b.stepRuns = none ∧
     writable s 15 b.stepBytes (fun o => b.moveAddr true (65536 * b.steps + o)) = true) ∧
    (let b := blkOf 1 2 [(0x18, 8, 0), (0x20, 4, 8), (0x24, 2, 1), (0x26, 2, 1)]
     ((engine 15 b 7 false).runsCheck b true true b.stepRuns).isSome = true) ∧
    (let b := blkOf 2 1 [(0x20, 8, 0x10000002000), (0x28, 4, 2), (0x2C, 4, 2), (0x30, 4, 1), (0x34, 4, 2)]
     let s := engine 16 b 7 false
     steps 16 2 1 b = true ∧ b.rowBytes = 2 ∧ b.stepBytes = 4 ∧ s.memCheck (instAgent 16) 7 0x10000002000 8 false false = none ∧
     s.memCheck (instAgent 16) 7 0x10000000000 2 false false = none ∧
     writable s 16 b.stepBytes (fun o => b.dst + 65536 * b.steps + o) = true) ∧
    (let b := blkOf 2 2 [(0x20, 8, 0x10000002000), (0x2C, 4, 1)]
     steps 19 2 2 b = true ∧ b.rowBytes = 65536 ∧ b.stepBytes = 65536) ∧
    (∀ p ∈ [(1, 0), (1, 5), (2, 0), (3, 0), (4, 0)],
      let b := rowBlk 3 p.1 p.2
      let s := engine 20 b 7 false
      steps 20 3 p.1 b = true ∧ b.func = p.2 ∧ b.stepRows = 1 ∧ s.memCheck (instAgent 20) 7 0x10000002000 8 false false = none ∧
      s.memCheck (instAgent 20) 7 b.src 8 false false = none ∧ writable s 20 8 (fun o => b.dst + o) = true) ∧
    (let b := blkOf 4 1 [(0x20, 8, 0x10000002000), (0x28, 4, 1), (0x2C, 4, 2), (0x30, 2, 2), (0x32, 1, 1), (0x33, 1, 1)]
     let s := engine 25 b 7 false
     steps 25 4 1 b = true ∧ b.field 0x30 2 ≤ b.rowLen ∧ b.stepRows = 1 ∧ s.memCheck (instAgent 25) 7 b.src 8 false false = none ∧
     writable s 25 16 (fun o => if o < 8 then b.dst + o else b.field 0x20 8 + (o - 8)) = true) ∧
    (∀ op ∈ [1, 2],
      let b := blkOf 6 op [(0x28, 8, 8), (0x31, 1, 1)]
      let s := engine 26 b 7 false
      steps 26 6 op b = true ∧ bitsOf (b.field 0x20 4) 31 30 = 0 ∧ s.memberOf (b.field 0x20 4) = 0 ∧ dtBytes (b.field 0x31 1) = 4 ∧
      s.memCheck (instAgent 26) 7 b.src 8 false false = none ∧ writable s 26 8 (fun o => b.dst + o) = true) ∧
    (let b := blkOf 5 1 [(0x18, 8, 0), (0x20, 8, 3)]
     let s := engine 28 b 7 false
     let t : State := { s with mem := { s.mem with model := [0] } }
     t.stepping 28 = some b ∧ b.cls = 5 ∧ b.op = 1 ∧ decompress (b.field 0x28 1) [1, 2, 3] = some [1, 2, 3] ∧ 3 ≤ b.field 0x20 8 ∧
     b.dst + 65536 * b.steps + 3 ≤ 0x200000 * t.mem.model.length ∧ t.mem.model.Nodup) ∧
    (let b := blkOf 5 1 [(0x28, 1, 5)]
     steps 28 5 1 b = true ∧ b.saved = none ∧ decompress (b.field 0x28 1) [] = none) := by decide +kernel

theorem witness_MatrixUnitsAndEnginesWork_stops :
    (let b := blkOf 6 1 [(0x28, 8, 8)]
     let s := engine 26 b 7 false
     let t : State := { s with ffe := { s.ffe with collTicks := [(26, 64)] } }
     t.stepping 26 = some b ∧ t.fld F.FFE_COLL_TIMEOUT_TICKS = 64 ∧ b.cls = 6 ∧ 64 ≤ fget (fun _ => 0) t.ffe.collTicks 26) ∧
    (let b := { blkOf 1 2 [(3, 1, 1), (4, 1, 5), (8, 4, 1)] with waitTick := some 0 }
     let s := (engine 0 b 0 false).setReg R.TCK_COUNT_LO 2
     let t : State := { s with sch := { s.sch with slotTick := [(14, 3)] } }
     (t.inst 0).queueOf 7 = [b] ∧ b.field 4 1 % 64 = 5 ∧ b.vf = 7 ∧ t.frozen = false ∧ t.heldSlot 7 0 = true ∧ 0 + 2 ≤ t.tickCount ∧
     b.waitOk t = false ∧ fget (fun _ => 0) t.ffe.fenceTick (64 * 7 + 5) + 1 ≤ t.tickCount) := by decide +kernel

end Sys2Proof.Tests
end

