-- ==== Sys2Proof/Tests/WitnessI.lean ====
section
/-! SUPPORT. Concrete states and operands that meet the hypotheses of the statements: Ewebin ports, flits, symbols and insertion
windows. -/

namespace Sys2Proof.Tests

set_option Elab.async false

open Sys2Proof.Machine

/-- The booted part with port `p` in this port state and as given, and the module in this insertion state. -/
def portIn (p st : Nat) (x : Port) (ins : Nat) : State :=
  let s := withFlds booted [(F.EWB_P_STATUS_STATE p, st), (F.EWB_STATUS_INSERT, ins)]
  { s with ewb := { s.ewb with ports := [(p, x)] } }

/-- `s` with window `w` pending and held. -/
def windowed (s : State) (w : Nat) : State :=
  let t := s.setPair R.EWB_PENDING_W_LO R.EWB_PENDING_W_HI w
  { t with ewb := { t.ewb with winAt := w, winKind := 1 } }

/-- A flit of KIND 2 on ring X for this position, with this SEQ. -/
def flitOf (dst sq : Nat) : Flit :=
  { vc := 0, kind := 2, ring := 0, dst := dst, src := 1, seq := sq, peerVf := 7, cid := 3, payload := [] }

theorem witness_LinksTrainCarryAndWindow_flit :
    symOk 0x01 [] = false ∧ base.portState 4 ≠ 4 ∧ base.portState 4 ≠ 5 ∧
    (let s := portIn 4 4 {} 4
     s.frozen = false ∧ s.portState 4 = 4 ∧ (flitOf 0 9).kind ≠ 0 ∧ (flitOf 0 9).seq ≠ (s.port 4).rxSeq ∧
     (flitOf 0 0).seq = (s.port 4).rxSeq ∧ (flitOf 0 0).dst = posOf s.address (portRing 4) ∧
     (flitOf 7 0).dst ≠ posOf s.address (portRing 4) ∧ s.portState (opposite 4) ≠ 4 ∧
     strictlyBetween (s.ringSize (portRing 4)) (posOf (s.peer 4) (portRing 4)) (posOf s.address (portRing 4)) 7 false = false) ∧
    (let s := portIn 4 4 { txq := [(16, flitOf 0 0)] } 4
     (s.port 4).txq = [(16, flitOf 0 0)] ∧ s.portState 4 = 4 ∧ s.frozen = false ∧
     ({ s.port 4 with creditRx := [leAt (sym 1 []) 2 2, leAt (sym 1 []) 4 2, leAt (sym 1 []) 6 2, leAt (sym 1 []) 8 2] } : Port).maySend
       0 = true) ∧
    symOk 0x01 (sym 1 []) = true ∧ (portIn 4 4 {} 4).portState 4 ≠ 5 ∧ ((portIn 4 4 {} 4).port 4).txq = [] := by decide +kernel

theorem witness_LinksTrainCarryAndWindow_symbols :
    (∀ ty ∈ [0x01, 0x02, 0x03, 0x07, 0x08, 0x0B, 0x0C, 0x0D, 0x0E, 0x10, 0x11, 0x18], symOk ty (sym ty []) = true) ∧
    (let s := portIn 4 4 { nakSeq := 0, nakRun := 7 } 4
     (if (s.port 4).nakSeq = leAt (sym 3 []) 2 2 % 4096 then (s.port 4).nakRun + 1 else 1) = 8 ∧
     ((portIn 4 4 {} 4).port 4).nakRun + 1 < 8 ∧ s.portState 4 = 4 ∧ s.frozen = false) ∧
    ((portIn 4 4 {} 4).port 4).awaiting = 0 ∧ ((portIn 4 4 { awaiting := 1 } 4).port 4).awaiting ≠ 0 ∧
    (let s := portIn 4 4 {} 4
     4 ∈ s.trainedPorts ∧ (0, 0) ∉ s.ewb.seenNotice ∧ s.stepping 26 = none ∧ s.stepping 27 = none ∧
     leAt (sym 11 []) 2 2 % 512 = 0 ∧ leAt (sym 11 []) 4 1 = 0 ∧
     (0, 0) ∈ ({ s with ewb := { s.ewb with seenNotice := [(0, 0)] } } : State).ewb.seenNotice) ∧
    (let b := sym 11 [3, 5, 0, 9, 0]
     let k := blkOf 6 1 [(0x20, 4, 0x40000000)]
     let s := (engine 26 k 7 false).setFld (F.EWB_P_STATUS_STATE 4) 4
     symOk 0x0B b = true ∧ 4 ∈ s.trainedPorts ∧ (5, 9) ∉ s.ewb.seenNotice ∧ s.stepping 26 = some k ∧ s.stepping 27 = none ∧
     k.cls = 6 ∧ s.noticeEnds b k.bytes = true) := by decide +kernel

theorem witness_LinksTrainCarryAndWindow_announce :
    (let s := portIn 4 2 {} 1
     let b := sym 12 [9, 0, 0, 1, 0, 7, 0, 100]
     symOk 0x0C b = true ∧ bitsOf (leAt b 1 1) 1 0 = 1 ∧ s.portState 4 = 2 ∧ s.insertion = 1 ∧ s.announceFits 4 b = true ∧
     s.announceFits 4 (sym 12 [1]) = false) ∧
    (let s := portIn 4 4 {} 4
     let b := sym 12 [9, 0, 0, 1, 0, 7, 0, 100]
     s.portState 4 = 4 ∧ s.pendingW = 0 ∧ s.expandW (leAt b 8 4) = 100 ∧ 100 < (windowed s 200).pendingW ∧
     (windowed s 50).pendingW ≠ 0 ∧ (windowed s 50).pendingW ≤ 100 ∧ (windowed s 50).portState 4 = 4) := by decide +kernel

theorem witness_LinksTrainCarryAndWindow_pause :
    (let s := windowed (portIn 4 5 { pauseTx := true } 4) 100
     let b := sym 13 [0, 100]
     symOk 0x0D b = true ∧ leAt b 2 4 = s.ewb.winAt % 2 ^ 32 ∧ s.portState 4 = 5 ∧ (s.port 4).pauseTx = true ∧
     (s.port 4).replay = [] ∧ (s.port 4).drainTx = false) ∧
    (windowed (portIn 4 4 {} 4) 100).portState 4 = 4 ∧
    (let b := sym 14 [0, 100]
     symOk 0x0E b = true ∧ leAt b 2 4 = 100 ∧
     (let s := windowed (portIn 4 2 { stream := true } 2) 100
      s.insertion = 2 ∧ s.ewb.winAt = 100 ∧ ∀ q, q < 16 → q ≠ 4 → s.portState q = 2 → (s.port q).stream = true → (s.port q).drainRx ≠ 0) ∧
     (let s := windowed (portIn 4 5 {} 5) 100
      s.insertion = 5 ∧ s.ewb.winAt = 100 ∧ ∀ q, q < 16 → q ≠ 4 → s.portState q = 5 → (s.port q).drainRx ≠ 0) ∧
     (windowed (portIn 4 5 {} 4) 100).insertion = 4) := by decide +kernel

/-- The peer's TRAIN HELLO: address 3, port 4's site, role X−, this domain, Y_SIZE 64, all lanes. -/
def hello3 : List Nat := [3, 1, 1, 0, 64, 0, 0, 0xFF]

/-- A link training that completed on all lanes. -/
def linked : LinkResult := { complete := true, lanes := 0xFF, peerDigest := List.replicate 48 1, keyOk := true, samples := [] }

theorem witness_LinksTrainCarryAndWindow_training :
    (let s := portIn 4 3 { hello := some hello3 } 0
     s.portState 4 = 3 ∧ s.refusal 4 hello3 linked false = 0 ∧ s.refusal 4 [3, 1, 1, 7, 64, 0, 0, 0xFF] linked false = 1 ∧
     s.refusal 4 [0, 1, 1, 0, 64, 0, 0, 0xFF] linked false = 3 ∧ s.insertion ≠ 3 ∧ s.rackEdge 4 3 = false ∧
     s.bit (F.EWB_P_CTRL_FORCE_CRYPT 4) = false ∧
     s.readReg (R.SEC_IK_DIGEST 0) ≠ BitVec.ofNat 32 (leAt linked.peerDigest 0 4) ∧
     ∀ i, i < 12 → s.readReg (R.SEC_IK_DIGEST i) = BitVec.ofNat 32 (leAt ({ linked with peerDigest := [] } : LinkResult).peerDigest (4 * i) 4)) ∧
    (portIn 4 1 {} 0).portState 4 = 1 ∧ (portIn 4 6 { leg := true } 0).portState 4 = 6 ∧ (portIn 4 8 {} 0).portState 4 = 8 ∧
    (portIn 4 2 {} 0).portState 4 = 2 ∧ (portIn 4 7 {} 0).portState 4 = 7 ∧
    ((portIn 4 5 { drainTx := true, drainRx := 1 } 0).port 4).drainTx = true ∧
    booted.fused.ioType.getD (portSite 4) 0 = 1 ∧ booted.portUsable 4 = true ∧ booted.portState 4 = 0 ∧
    booted.fused.ioType.getD (portSite 8) 0 ≠ 1 ∧ tst (1 : Word).toNat 0 = true ∧ tst (0 : Word).toNat 0 = false := by decide +kernel

theorem witness_LinksTrainCarryAndWindow_windows :
    (let s := portIn 4 4 {} 4
     tst (0x80000000 : Word).toNat 31 = true ∧ tst (1 : Word).toNat 31 = false ∧ s.insertion = 4 ∧ s.gapPorts 0 0 ≠ [] ∧
     s.pendingW = 0 ∧ s.gapPorts 1 0 = [] ∧ booted.insertion ≠ 4 ∧ (windowed s 9).pendingW ≠ 0) ∧
    (let s := windowed ((portIn 4 4 {} 4).setReg R.TCK_COUNT_LO 100) 100
     s.pendingW ≠ 0 ∧ s.pendingW ≤ s.tickCount ∧ s.frozen = false ∧ s.ewb.winEnter = false ∧
     ({ s with ewb := { s.ewb with winEnter := true } } : State).ewb.winEnter = true ∧ 4 ∈ s.gapPorts s.ewb.winRing s.ewb.winDir) ∧
    (portIn 4 2 {} 1).insertion = 1 ∧ (portIn 4 2 {} 1).frozen = false ∧
    (let s := portIn 4 3 { needUp := true } 3
     s.insertion = 3 ∧ (s.port 4).needUp = true ∧ s.portState 4 ≠ 4) ∧
    (portIn 4 2 {} 2).insertion = 2 ∧ (portIn 4 5 {} 4).insertion ≠ 2 ∧ (portIn 4 5 {} 4).portState 4 = 5 ∧
    (∀ p, p < 16 → (portIn 4 4 {} 4).portState p ≠ 5) := by decide +kernel

end Sys2Proof.Tests
end

