-- ==== Sys2Proof/Tests/WitnessJ.lean ====
section
/-! SUPPORT. Concrete states and operands that meet the hypotheses of the statements: faults, recovery and the event recorder. -/

namespace Sys2Proof.Tests

set_option Elab.async false

open Sys2Proof.Machine

/-- The booted part with the fault handling in this state. -/
def faulty (st : Nat) : State := booted.setFld F.FLT_STATUS_STATE st

/-- The booted part with injection enabled. -/
def injectable : State := booted.setFld F.FLT_CTRL_INJECT_EN 1

/-- A uncontained fault of the host interface is reported in each state of the fault handling. -/
theorem witness_FaultsRecoverAndTheRecorderKeeps_plain (st : Nat) (h : st ∈ [0, 1, 2, 3]) :
    Reports (faulty st) (.uncontainedFault 0x8C 0 0 false) 0x8C 0xFFFF 0xFF ∧ (faulty st).fltState = st := by
  have h1 : ∀ st ∈ [0, 1, 2, 3], (faulty st).detects = true ∧ (faulty st).faultApplies 0x8C 0 0 = true ∧
    faultClass 0x8C = 0 ∧ (faulty st).fltState = st := by decide +kernel
  exact ⟨.plain (h1 st h).1 (h1 st h).2.1 (h1 st h).2.2.1 (by decide), (h1 st h).2.2.2⟩

theorem witness_FaultsRecoverAndTheRecorderKeeps_inject : Reports injectable (.fltInject 0x8000008F) 0x8F 0xFFFF 0xFF :=
  .inject (by decide) (by decide) (by decide +kernel) (by decide +kernel)

theorem witness_FaultsRecoverAndTheRecorderKeeps_unit :
    (booted.detects = true ∧ booted.faultApplies 0x8A 0x0800 0 = true ∧ faultClass 0x8A ≠ 0) ∧
    (let s := rtBegun.setReg R.FFE_STATUS 0x1FFFFFFF
     s.detects = true ∧ s.pwr.doze = false ∧
     (let e := (engine 26 (blkOf 6 1 []) 7 false).setReg R.FFE_STATUS 0x1FFFFFFF
      (e.inst 26).busy ≠ 0 ∧ e.detects = true ∧ e.pwr.doze = false ∧ e.faultApplies 0x85 0 26 = true) ∧
     (s.munit 0).running = none ∧ (s.inst 3).busy = 0 ∧ s.campInFlight 0 = false) ∧
    tst (0 : Word).toNat 31 = false := by decide +kernel

theorem witness_FaultsRecoverAndTheRecorderKeeps_hangs :
    (let s : State := booted.modUnit 0 (fun _ => { running := some (opOf mmaDesc) })
     s.detects = true ∧ s.pwr.doze = false ∧ (s.munit 0).running.isSome = true ∧ s.faultApplies 0x86 0x0900 0 = true) := by decide +kernel

theorem witness_FaultsRecoverAndTheRecorderKeeps_recovery :
    (let s := booted.setFld (F.SLC_S_STATE_STATE 7) 4
     s.detects = true ∧ s.sliceState 7 ≠ 0 ∧ s.sliceState 8 = 0) ∧
    (let s := faulty 1
     s.detects = true ∧ s.fltState = 1 ∧ s.runClk < s.flt.beganClk + 2 * s.recoveryNs ∧ s.fld F.FLT_STATUS_RESTARTS = 0 ∧
     (s.setFld F.FLT_STATUS_RESTARTS 1).fld F.FLT_STATUS_RESTARTS = 1) ∧
    (let s : State := { faulty 1 with runClk := 10 ^ 10 }
     s.flt.beganClk + 2 * s.recoveryNs ≤ s.runClk) ∧ booted.fltState ≠ 1 := by decide +kernel

/-- A fault notice. -/
def fault1 : FaultNotice := { kind := 0x8C, unit := 0xFFFF, inst := 0xFF, count := 1, tick := 1, tai := 0, fenced := false, us := 0 }

theorem witness_FaultsRecoverAndTheRecorderKeeps_notices :
    booted.slotState 1010 = 0 ∧ booted.slotState 1011 = 0 ∧
    ({ booted with flt := { booted.flt with nUnc := some fault1 } } : State).flt.nUnc = some fault1 ∧
    (let s : State := { booted with flt := { booted.flt with nRec := some fault1 } }
     s.flt.nUnc = none ∧ s.flt.nRec = some fault1) ∧
    (let s : State := { booted.setFld F.FLT_CTRL_NOTIFY_CE 1 with flt := { booted.flt with nCe := some fault1 } }
     s.flt.nUnc = none ∧ s.flt.nRec = none ∧ s.flt.nCe = some fault1 ∧ s.bit F.FLT_CTRL_NOTIFY_CE = true) ∧
    (let s : State := { booted.setFld F.FLT_CTRL_NOTIFY_CONTAINED 1 with flt := { booted.flt with nCon := [(7, some fault1)] } }
     s.flt.nUnc = none ∧ s.flt.nRec = none ∧ s.flt.nCe = none ∧
     s.flt.nCon.find? (fun e => e.2.isSome) = some (7, some fault1) ∧ s.bit F.FLT_CTRL_NOTIFY_CONTAINED = true) ∧
    (let s : State := { booted with evr := { booted.evr with notices := [(2, some ⟨0, 1, 5, 9⟩)] } }
     s.evr.notices = (2, some ⟨0, 1, 5, 9⟩) :: [] ∧ s.slotState 1011 = 0) ∧
    booted.evr.notices = [] ∧ (booted.setTrigger 1010 1).slotState 1010 ≠ 0 ∧
    (booted.setTrigger 1011 1).slotState 1011 ≠ 0 := by decide +kernel

/-- A buffered record that both logs, or the ring alone, still want. -/
def waitingRec (ff : Bool) : BufRec := ⟨base.mkRecord 0x0101 1 0 0xFFFF 0 0 false, [], 0, ff, 0⟩

/-- The recorder mounted, with this buffer and margin, and the ring's sector header written. -/
def recording (buf : List BufRec) (m : Nat) : State :=
  let s := withFlds booted [(F.EVR_STATUS_MOUNTED, 1), (F.EVR_RING_NEXT_SLOT, 1), (F.EVR_FF_NEXT_SLOT, 1)]
  { s with evr := { s.evr with buf := buf, margin := m } }

theorem witness_FaultsRecoverAndTheRecorderKeeps_recorder :
    (∀ k, k < 4 → booted.trigMatches k (booted.mkRecord 0x0101 1 0 0xFFFF 0 0 false) = false) ∧ booted.bufUsed + 1 ≤ 1023 ∧
    booted.canDrain = false ∧ (recording [] 9000).waiting 1 = none ∧ (recording [] 4096).evr.margin ≤ 4096 ∧
    (let s := recording [waitingRec false] 9000
     s.canDrain = true ∧ s.waiting 1 ≠ none ∧ 4096 < s.evr.margin ∧ s.evr.buf = [waitingRec false] ∧ (waitingRec false).hdr.units = 1 ∧
     (waitingRec false).left 1 = 1 ∧ (waitingRec false).left 0 = 0 ∧ s.evr.lostCount = 0 ∧ s.logPos 1 < logSlots 1 ∧
     s.slotUsable 1 (s.logPos 1) = true ∧ s.norBlank (logBase 1 + 32 * s.logPos 1) 32 = true ∧ s.isHeaderSlot 1 (s.logPos 1) = false ∧
     ∀ k, k < 32 → fget (fun _ => 0) s.evr.norOpen (logBase 1 + 32 * s.logPos 1 + k) = 0) ∧
    (let b : BufRec := ⟨(waitingRec true).hdr, [], 1, true, 0⟩
     let s := recording [b] 9000
     s.waiting 0 ≠ none ∧ s.evr.clearing ≠ 1 ∧ b.left 0 = 1 ∧ b.left 1 = 0 ∧ s.slotUsable 0 (s.logPos 0) = true ∧
     s.norBlank (logBase 0 + 32 * s.logPos 0) 32 = true ∧ s.isHeaderSlot 0 (s.logPos 0) = false) ∧
    (let s := recording [] 4095
     s.canDrain = true ∧ s.frozen = false ∧ s.evr.margin + 128 * 16 < 786432) ∧
    786432 ≤ (recording [] 786400).evr.margin + 128 * 16 := by decide +kernel

end Sys2Proof.Tests
end

