-- ==== Sys2Proof/Tests/Slice0.lean ====
section
/-! SUPPORT. Tests of the model: an ill-formed command for each check of WellFormed, and the spec's worked examples, each with the
numbers that its section prints. -/

namespace Sys2Proof.Tests

set_option Elab.async false

open Sys2Proof.Machine

/-! ### Well-formed commands: each check refuses a command that names nothing -/

theorem test_isVf_refuses : (Instr.vfFlr 0).wellFormed = false ∧ (Instr.vfFlr 64).wellFormed = false ∧
    (Instr.vfFlr 63).wellFormed = true := by decide

theorem test_isFn_refuses : (Instr.configRequest 64 .vendorId none).wellFormed = false ∧
    (Instr.configRequest 0 .vendorId none).wellFormed = true := by decide

theorem test_isQueue_refuses : (Instr.queueEnable 1 16 0).wellFormed = false ∧ (Instr.queueEnable 1 15 0).wellFormed = true := by
  decide

theorem test_isPort_refuses : (Instr.marker 16 marker3).wellFormed = false ∧ (Instr.marker 15 marker3).wellFormed = true := by decide

theorem test_isCluster_and_isPlace_refuse : (Instr.contextEnd 48 0).wellFormed = false ∧ (Instr.contextEnd 0 8).wellFormed = false ∧
    (Instr.contextEnd 47 7).wellFormed = true := by decide

theorem test_isGroup_refuses : (Instr.loadDataReturn 0 0 64 0).wellFormed = false ∧
    (Instr.loadDataReturn 0 0 63 0).wellFormed = true := by decide

theorem test_isGranule_refuses : (Instr.mapViewStore 1 262144 0 true).wellFormed = false ∧
    (Instr.mapViewStore 1 262143 0 true).wellFormed = true := by decide

theorem test_isDie_refuses : (Instr.cmpGrantWrite 2 0).wellFormed = false ∧ (Instr.cmpGrantWrite 1 0).wellFormed = true := by decide

theorem test_isSymbol_refuses : (Instr.ack 0 []).wellFormed = false ∧ (Instr.ack 0 (sym 2 [])).wellFormed = true := by decide

theorem test_isInstance_refuses : (Instr.engineStepDispatch 29).wellFormed = false ∧
    (Instr.engineStepDispatch 28).wellFormed = true := by decide

theorem test_isScheduler_refuses : (Instr.storeEntryRetire 0 4).wellFormed = false ∧
    (Instr.storeEntryRetire 0 3).wellFormed = true := by decide

theorem test_isMatrixUnit_refuses : (Instr.operationStage 96).wellFormed = false ∧
    (Instr.operationStage 95).wellFormed = true := by decide

theorem test_isMedium_refuses : (Instr.getEndpointId 2).wellFormed = false ∧ (Instr.getEndpointId 1).wellFormed = true := by decide

theorem test_isReference_refuses : (Instr.refLoss 2).wellFormed = false ∧ (Instr.refLoss 1).wellFormed = true := by decide

theorem test_isSlot_refuses : (Instr.slotWithdraw ⟨0, 0, 0⟩ 1024).wellFormed = false ∧
    (Instr.slotWithdraw ⟨0, 0, 0⟩ 1023).wellFormed = true := by decide

theorem test_isLog_refuses : (Instr.drainPageProgram 2 true).wellFormed = false ∧
    (Instr.drainPageProgram 1 true).wellFormed = true := by decide

theorem test_isBlock_refuses : (Instr.blockEnqueue []).wellFormed = false ∧
    (Instr.blockEnqueue (List.replicate 64 0)).wellFormed = true := by decide

theorem test_isReq_refuses : (Instr.exchangeRead ⟨2, 0, 0⟩ 0 8 [] false).wellFormed = false ∧
    (Instr.exchangeRead ⟨1, 1, 0⟩ 0 8 [] false).wellFormed = true := by decide

/-! ### The block's queue -/

theorem test_no_word_spells_a_command : decodeTableWord 32 0 = none ∧ base.withFetchWord 32 0 = base := ⟨rfl, rfl⟩

/-- The front of the queue runs first and leaves the rest. -/
theorem test_step_takes_front : (next (step { base with pending := [.tickInEdge 1, .idcode] })).pending = [.idcode] := by decide

/-! ### Calendar (chapter 02) -/

theorem test_2100_02_29_is_no_date : dateOk 2100 2 29 0 0 0 = false ∧ dateOk 2100 3 1 0 0 0 = true := by decide +kernel

theorem test_2100_03_01 : civilSecs 2100 3 1 0 0 0 = 4107542400 ∧ (civilOf 4107542400).dow = 1 ∧
    (civilOf 4107542400).month = 3 ∧ (civilOf 4107542400).day = 1 ∧ (civilOf 4107542400).year = 2100 := by decide +kernel

/-! ### Registers (chapter 23) -/

theorem test_register_addresses : R.SLC_S_HBM 7 = 0x1811DC ∧ R.EWB_P_STATUS 6 = 0x801604 ∧ R.WIN_STATUS 30 = 0x61E200 ∧
    R.MXU_STATUS 95 = 0x6817C0 := by decide

/-! ### Exchange memory (chapter 04): VF 7's post of 40 bytes with COOKIE 0x0102 -/

theorem test_slot_154_address : slotAddr 154 = 0x7F2680 := by decide

/-- PF0 takes VF 7's slot and ends it; only DONE shows what the spec prints. -/
theorem test_slot_done_trigger :
    (let s := base.setTrigger 154 0x0102280080070002
     (next (exec (.slotDone ⟨0, 0, 0⟩ 154 3) s)).trigger 154) = 0x0102000080070003 := by decide +kernel

/-! ### SLICE_CREATE (chapter 05) -/

/-- An owned part at tick 5,000,000. -/
def owned5M : State := claimed.setPair R.TCK_COUNT_LO R.TCK_COUNT_HI 5000000

/-- The request of the worked example, TAG 0x11 and COOKIE 0x0011, in slot 0. -/
def asks3 : State :=
  (owned5M.exmPut (slotAddr 0) (leBytes 8 0x0000001100000201 ++ leBytes 8 0x000000FF00010003 ++ leBytes 8 0x0000010000000000 ++
    leBytes 8 0x0000006400001000)).setTrigger 0 0x0011380080000001

/-- It is accepted for tick 5,000,002. -/
theorem test_slice_create_answers :
    (let t := next (execSliceCreate [] asks3)
     t.exmLe (slotAddr 0) 8 = 0x0000001100000201 ∧ t.exmLe (slotAddr 0 + 8) 8 = 0x004C4B4200000000 ∧
     t.trigger 0 = 0x0011380080000003 ∧ t.pair (R.SLC_S_PENDING_LO 3) (R.SLC_S_PENDING_HI 3) = 5000002) := by decide +kernel

/-- With cluster 6 in VF 5's PARTITION slice it ends with NO_RESOURCE, DETAIL 0x0C. -/
theorem test_slice_create_no_resource :
    (let s := withRegs (withFlds asks3 [(F.SLC_S_STATE_STATE 5, 2)]) [(R.SLC_S_CLUSTERS_LO 5, 0x40)]
     let t := next (execSliceCreate [] s)
     t.exmLe (slotAddr 0) 8 = 0x0000001100190201 ∧ t.exmLe (slotAddr 0 + 8) 4 = 0xC) := by decide +kernel

/-! ### Yarrow (chapters 10 and 11) -/

/-- 2 contexts of REGS 80 fit a cluster, and 3 of REGS 56; not one more. -/
theorem test_occupancy :
    (let k := fun r => { kernel2 with regs := r, localBytes := 40960, argBytes := 200, split := 2, code := leBytes 8 (0x90 * 2 ^ 56) }
     let x := fun r => { whole with groups := 12, laneRegs := r, share := 73984, split := 2, grp := [] }
     (k 80).share = 73984 ∧ fits [x 80] ((k 80).need 12) = true ∧ fits [x 80, x 80] ((k 80).need 12) = false ∧
     fits [x 56, x 56] ((k 56).need 12) = true ∧ fits [x 56, x 56, x 56] ((k 56).need 12) = false) := by decide +kernel

/-- `coded`, with the word at index `i` of 160 and the group there. -/
def codedAt (i w : Nat) (y : Group) : State :=
  let code := List.replicate (8 * i) 0 ++ leBytes 8 w ++ List.replicate (8 * (159 - i)) 0
  let s := coded 0 (ctxOf false { y with pc0 := i })
  s.modSlice 7 (fun z => { z with kernels := [(256, some { kernel2 with code := code, consts := [] })] })

/-- The group after this command. -/
def groupAfter (r : Res) : Group := match (next r).ctx 0 with | some x => x.group 0 | none => {}

/-- BRA at 100 diverges to 120 and defers the lanes where p2 is false. -/
theorem test_bra_diverges :
    (let y := groupAfter (execBra 0 0 0 false (codedAt 100 0x80200000F0000014 { preds := [(2, 0x00F000FF)] }))
     y.pc0 = 120 ∧ y.act0 = 0x00F000FF ∧ y.stack.length = 1 ∧ y.stack.map MaskEntry.rpc = [130] ∧ y.stack.map MaskEntry.pc = [101] ∧
     y.stack.map MaskEntry.mask = [0xFF0FFF00]) := by decide +kernel

/-- The split on exactly the lower half: both halves run, and the entry holds every lane. -/
theorem test_bra_splits :
    (let y := groupAfter (execBra 0 0 0 false (codedAt 100 0x80200000F0000014 { preds := [(2, 0xFFFF)] }))
     y.split = true ∧ y.stack.map MaskEntry.mask = [0xFFFFFFFF]) := by decide +kernel

/-- JOIN at 130 first runs the deferred path, then restores every lane. -/
theorem test_join_restores :
    (let y := groupAfter (execJoin 0 0 0 false (codedAt 130 0x82F0000000000000 { act0 := 0x00F000FF, stack := [⟨0, 0, 130, 101, 0xFF0FFF00⟩] }))
     y.pc0 = 101 ∧ y.act0 = 0xFF0FFF00 ∧ y.stack.map MaskEntry.mask = [0xFFFFFFFF]) ∧
    (let y := groupAfter (execJoin 0 0 0 false (codedAt 130 0x82F0000000000000 { act0 := 0xFF0FFF00, stack := [⟨1, 0, 130, 0, 0xFFFFFFFF⟩] }))
     y.pc0 = 131 ∧ y.act0 = 0xFFFFFFFF ∧ y.stack = []) := by decide +kernel

/-- FMAC v8 = v2 × v3 + v8 where p1 holds: 2 × 3 + 1 = 7 in lane 0, and lane 1 keeps its 1. -/
theorem test_fmac :
    (let y := groupAfter (execFmac 0 0 0 false (codedAt 125 0x2610401018080000
      { preds := [(1, 1)], regs := [(64, 0x40000000), (96, 0x40400000), (256, 0x3F800000), (257, 0x3F800000)] }))
     y.v 8 0 = 0x40E00000 ∧ y.v 8 1 = 0x3F800000 ∧ y.pc0 = 126) := by decide +kernel

/-! ### Matrix descriptor (chapter 12) -/

/-- OP MMA, TILE 0, ACC_ZERO, K 32, FP8 E4M3 by FP8 E4M3. -/
theorem test_mma_descriptor :
    (let m := opOf (fitTo 64 (leBytes 8 0x0000040420010001))
     m.f 0 1 = 1 ∧ m.f 1 1 = 0 ∧ m.f 2 1 = 1 ∧ m.f 3 1 = 32 ∧ m.f 4 1 = 4 ∧ m.f 5 1 = 4) := by decide +kernel

/-! ### Teasel (chapter 16) -/

/-- The manifest of the worked example. -/
def manifest2048 : List Byte :=
  fitTo 128 (payload 0 [(0x10, 4, 2048), (0x14, 2, 256), (0x16, 2, 512), (0x18, 4, 16384), (0x1C, 2, 32), (0x34, 4, 40000),
    (0x38, 4, 30000), (0x3C, 4, 200000), (0x40, 4, 50000)])

theorem test_teasel_step_estimate :
    (let s := base.setFld (F.SEQ_S_SCALE_SCALE 4) 256
     let t : State := { s with tsl := { s.tsl with manifest := manifest2048 } }
     t.areaSize 1024 = 0x28A040 ∧ t.stepEst 4 3 3 87 = 45040 ∧ t.stepEst 4 1420 4 132 = 90000 ∧ t.pagesFor 701 = 22) := by
  decide +kernel

theorem test_teasel_scale : newScale 256 84000 90000 = 253 := by decide

/-! ### Campion (chapter 17) -/

theorem test_token_words : (⟨5200, 0, 0, 3000⟩ : Tok).word = 0x00000BB800001450 ∧ tokOf 0x00000BB800001450 = ⟨5200, 0, 0, 3000⟩ := by
  decide

theorem test_decay_over_2 : decayFactor 2 63520 20 65536 = 61566 ∧ 12000 * decayFactor 2 63520 20 65536 / 65536 = 11273 := by
  decide +kernel

/-- Table 17-11's program. -/
def leaky : List Byte :=
  fitTo 0x10 (leBytes 8 0x01070009504D4143) ++ fitTo 0x20 (leBytes 2 63520 ++ leBytes 2 14000) ++
    [0x04000000, 0x0C000000, 0x2C040000, 0x44080000, 0x4C000000, 0x50000000, 0, 0x04000000, 0].flatMap (leBytes 4)

/-- A token of weight 3,000 two units after the last run: 11,273 + 3,000 reaches the threshold, so it spikes and is reset. -/
theorem test_leaky_neuron_spikes :
    runOps leaky 2 1000 3000 0 64 0 ⟨[12000, 0, 0, 0], false, false, false⟩ = ⟨[0, 0, 0, 0], true, true, true⟩ := by decide +kernel

/-! ### Shares (chapter 15) -/

/-- VF 7 (SHARE 3) and VF 8 (SHARE 1) use 8,192 slots each in quanta 1 and 2, and VF 7 uses all in quantum 3. -/
theorem test_lags_of_three_quanta :
    (let s := withFlds base [(F.SLC_S_SHARE_SHARE 7, 3), (F.SLC_S_SHARE_SHARE 8, 1)]
     let lag : Int → Int → State := fun a b => { s with sch := { s.sch with lag := [(64 * 8 + 7, a), (64 * 8 + 8, b)] } }
     let r := [(7, 8192), (8, 8192)]
     let r3 := [(7, 16384), (8, 0)]
     (s.lagNew 8 r 7 = 4096 ∧ s.lagNew 8 r 8 = -4096) ∧
     ((lag 4096 (-4096)).lagNew 8 r 7 = 8192 ∧ (lag 4096 (-4096)).lagNew 8 r 8 = -8192) ∧
     ((lag 8192 (-8192)).lagNew 8 r3 7 = 4096 ∧ (lag 8192 (-8192)).lagNew 8 r3 8 = -4096)) := by decide +kernel

/-! ### Faults (chapter 20) -/

/-- A hang of engine 17 with VFs 2, 3 and 5 lost, of 64 GiB in total, on 6 stacks. -/
theorem test_engine_17_hangs :
    (let s := withFlds { base with fused := { part with stackFitted := 0x3F } }
       [(F.SLC_S_STATE_STATE 2, 6), (F.SLC_S_STATE_STATE 3, 6), (F.SLC_S_STATE_STATE 5, 6), (F.SLC_S_HBM_UNITS 2, 32768)]
     s.lostMask = 0x2C ∧
     leAt (s.faultPayload 1 0 ⟨0x85, 0xFFFF, 17, 1, 0, 0, false, 0⟩) 0 8 = 0x00011100FFFF0185) := by decide +kernel

/-! ### TAP (chapter 22) and command slots (chapter 04) -/

theorem test_idcode_of_B0 : (next (exec .idcode { base with fused := { part with stepping := 0xB0 } })).out = [.tap 32 0xB4A100FF] := by
  decide +kernel

/-- VF 7 posts 40 bytes with COOKIE 0x0102: the part sets POSTER to its token. -/
theorem test_slot_post_trigger :
    (next (exec (.slotPost ⟨0, 7, 7⟩ 154 0x0102280000000001) booted)).trigger 154 = 0x0102280080070001 := by decide +kernel

/-! ### Control symbols (chapter 19) -/

theorem test_symbol_check_byte : symOk 2 (symbolOf 2 [0, 5, 0]) = true ∧ symOk 3 (symbolOf 2 [0, 5, 0]) = false := by decide +kernel

end Sys2Proof.Tests
end

section
/-! SUPPORT. What a REGISTER_WRITE does to the fields of its register: the map's fields lie apart, so each keeps or takes
what its own access code says (Table 00-3), whatever the others do. -/

namespace Sys2Proof.Machine

/-! ### Masks as lists of parts -/

/-- What is kept outside a mask is `OnlyIn` any list that names every part of the mask. -/
theorem Kept.onlyIn {P : Nat} {s t : State} {T : List Part} (h : Kept P s t)
    (hT : ∀ p : Part, P.testBit p.bit = true → p ∈ T) : OnlyIn T s t := fun p hp =>
  h.parts p (Bool.eq_false_iff.mpr fun hbit => hp (hT p hbit))

theorem setReg_onlyIn (s : State) (a : Nat) (v : Word) : OnlyIn [.regs] s (s.setReg a v) :=
  (setReg_kept (P := 1) (Kept.refl s) a v (by decide)).onlyIn (fun p => by cases p <;> decide)

/-! ### One field -/

/-- What a field (hi, lo, access code) of a register that holds `old` reads as once `v` is written (Table 00-3). -/
def fieldAfter (old v : Nat) (f : Nat × Nat × Acc) : Nat :=
  match f.2.2 with
  | .rw => bitsOf v f.1 f.2.1
  | .w1c => Nat.land (bitsOf old f.1 f.2.1) (2 ^ (f.1 + 1 - f.2.1) - 1 - bitsOf v f.1 f.2.1)
  | _ => bitsOf old f.1 f.2.1

/-- One step of `writeFields`: the word `w` once field `f` has been written too. -/
def writeField (old v w : Nat) (f : Nat × Nat × Acc) : Nat :=
  match f.2.2 with
  | .rw | .w1c => setBits w f.1 f.2.1 (fieldAfter old v f)
  | _ => w

theorem bitsOf_lt (w hi lo : Nat) : bitsOf w hi lo < 2 ^ (hi + 1 - lo) := Nat.mod_lt _ (Nat.two_pow_pos _)

/-- A written value fits its field: a W1C field only loses bits. -/
theorem fieldAfter_lt (old v : Nat) (f : Nat × Nat × Acc) : fieldAfter old v f < 2 ^ (f.1 + 1 - f.2.1) := by
  obtain ⟨hi, lo, acc⟩ := f
  cases acc
  case w1c => exact Nat.lt_of_le_of_lt Nat.and_le_left (bitsOf_lt old hi lo)
  all_goals exact bitsOf_lt _ hi lo

/-- Writing a field replaces its bits or, where it is not writable, nothing. -/
theorem writeField_cases (old v w : Nat) (f : Nat × Nat × Acc) :
    writeField old v w f = setBits w f.1 f.2.1 (fieldAfter old v f) ∨
      (writeField old v w f = w ∧ fieldAfter old v f = bitsOf old f.1 f.2.1) := by
  obtain ⟨hi, lo, acc⟩ := f
  cases acc
  case rw | w1c => exact .inl rfl
  all_goals exact .inr ⟨rfl, rfl⟩

theorem bitsOf_writeField_self {old v w : Nat} {f : Nat × Nat × Acc} (hf : f.2.1 ≤ f.1)
    (hw : bitsOf w f.1 f.2.1 = bitsOf old f.1 f.2.1) :
    bitsOf (writeField old v w f) f.1 f.2.1 = fieldAfter old v f := by
  obtain h | ⟨h, hkeep⟩ := writeField_cases old v w f
  · rw [h, bitsOf_setBits_self _ _ _ _ hf, Nat.mod_eq_of_lt (fieldAfter_lt old v f)]
  · rw [h, hkeep, hw]

theorem bitsOf_writeField_apart {old v w hi lo : Nat} {f : Nat × Nat × Acc} (hf : f.2.1 ≤ f.1)
    (hd : hi < f.2.1 ∨ f.1 < lo) : bitsOf (writeField old v w f) hi lo = bitsOf w hi lo := by
  obtain h | ⟨h, -⟩ := writeField_cases old v w f
  · rw [h, bitsOf_setBits_disjoint _ _ _ _ _ _ hf hd]
  · rw [h]

theorem writeField_lt {old v w : Nat} {f : Nat × Nat × Acc} (hf : f.2.1 ≤ f.1) (h32 : f.1 < 32) (hw : w < 2 ^ 32) :
    writeField old v w f < 2 ^ 32 := by
  obtain h | ⟨h, -⟩ := writeField_cases old v w f
  · rw [h]; exact setBits_lt _ _ _ _ 32 hf h32 hw
  · rw [h]; exact hw

/-! ### The fields of a register -/

/-- The fields lie within a 32-bit register, and no two of them share a bit. -/
structure FieldsApart (flds : List (Nat × Nat × Acc)) : Prop where
  fit : ∀ f ∈ flds, f.2.1 ≤ f.1 ∧ f.1 < 32
  apart : flds.Pairwise (fun f g => f.1 < g.2.1 ∨ g.1 < f.2.1)

theorem FieldsApart.tail {f : Nat × Nat × Acc} {flds : List (Nat × Nat × Acc)} (h : FieldsApart (f :: flds)) :
    FieldsApart flds :=
  ⟨fun g hg => h.fit g (List.mem_cons_of_mem _ hg), h.apart.of_cons⟩

/-- Every row of the map (chapter 23) has its fields apart. -/
theorem regRows_fieldsApart {r : RegRow} (hr : r ∈ regRows) : FieldsApart r.flds := by
  have table : ∀ r ∈ regRows, (∀ f ∈ r.flds, f.2.1 ≤ f.1 ∧ f.1 < 32) ∧
      r.flds.Pairwise (fun f g => f.1 < g.2.1 ∨ g.1 < f.2.1) := by decide +kernel
  exact ⟨(table r hr).1, (table r hr).2⟩

theorem regRowAt_fieldsApart {a : Nat} {r : RegRow} (h : regRowAt a = some r) : FieldsApart r.flds :=
  regRows_fieldsApart (List.mem_of_find?_eq_some h)

theorem writeFields_eq_foldl (flds : List (Nat × Nat × Acc)) (old v : Nat) :
    writeFields flds old v = flds.foldl (writeField old v) old := by
  unfold writeFields
  congr 1
  funext w f
  obtain ⟨hi, lo, acc⟩ := f
  cases acc <;> rfl

theorem foldl_writeField_lt {flds : List (Nat × Nat × Acc)} (h : FieldsApart flds) (old v : Nat) {w : Nat}
    (hw : w < 2 ^ 32) : flds.foldl (writeField old v) w < 2 ^ 32 := by
  induction flds generalizing w with
  | nil => exact hw
  | cons f flds ih =>
    obtain ⟨hf, h32⟩ := h.fit f (List.mem_cons_self ..)
    exact ih h.tail (writeField_lt hf h32 hw)

theorem bitsOf_foldl_writeField_apart {flds : List (Nat × Nat × Acc)} (h : FieldsApart flds) (old v : Nat) {w hi lo : Nat}
    (hd : ∀ f ∈ flds, hi < f.2.1 ∨ f.1 < lo) : bitsOf (flds.foldl (writeField old v) w) hi lo = bitsOf w hi lo := by
  induction flds generalizing w with
  | nil => rfl
  | cons f flds ih =>
    calc bitsOf (flds.foldl (writeField old v) (writeField old v w f)) hi lo
        = bitsOf (writeField old v w f) hi lo := ih h.tail (fun g hg => hd g (List.mem_cons_of_mem _ hg))
      _ = bitsOf w hi lo := bitsOf_writeField_apart (h.fit f (List.mem_cons_self ..)).1 (hd f (List.mem_cons_self ..))

/-- The field is untouched up to its own turn, written then, and untouched after. -/
theorem bitsOf_foldl_writeField_mem {flds : List (Nat × Nat × Acc)} (h : FieldsApart flds) (old v : Nat) {w : Nat}
    {f : Nat × Nat × Acc} (hf : f ∈ flds) (hw : bitsOf w f.1 f.2.1 = bitsOf old f.1 f.2.1) :
    bitsOf (flds.foldl (writeField old v) w) f.1 f.2.1 = fieldAfter old v f := by
  induction flds generalizing w with
  | nil => cases hf
  | cons g flds ih =>
    have hg := (h.fit g (List.mem_cons_self ..)).1
    have hrest := (List.pairwise_cons.mp h.apart).1
    rcases List.mem_cons.mp hf with rfl | hf
    · exact (bitsOf_foldl_writeField_apart h.tail old v hrest).trans (bitsOf_writeField_self hg hw)
    · exact ih h.tail hf ((bitsOf_writeField_apart hg (hrest f hf).symm).trans hw)

theorem writeFields_lt {flds : List (Nat × Nat × Acc)} (h : FieldsApart flds) {old : Nat} (v : Nat)
    (hold : old < 2 ^ 32) : writeFields flds old v < 2 ^ 32 :=
  writeFields_eq_foldl flds old v ▸ foldl_writeField_lt h old v hold

theorem bitsOf_writeFields {flds : List (Nat × Nat × Acc)} (h : FieldsApart flds) (old v : Nat) {f : Nat × Nat × Acc}
    (hf : f ∈ flds) : bitsOf (writeFields flds old v) f.1 f.2.1 = fieldAfter old v f :=
  writeFields_eq_foldl flds old v ▸ bitsOf_foldl_writeField_mem h old v hf rfl

/-! ### REGISTER_WRITE -/

theorem exec_registerWrite (fn a : Nat) (v : Word) (s : State) :
    exec (.registerWrite fn a v) s = execRegisterWrite fn a v s := rfl

/-- A write that the map, the unit and the queue let through, outside the sensor ports, stores what `writeFields` makes of
the register. -/
theorem execRegisterWrite_stores {fn a : Nat} {v : Word} {s : State} {r : RegRow} (hfn : a / 0x100000000 = fn)
    (hal : a % 4 = 0) (hon : s.pwr.mode = .on) (hfit : s.unfitted a = false) (hown : ownRow a = false)
    (hq : s.queueLocked a = false) (hmsix : msixTable a = none) (hrow : regRowAt a = some r)
    (hport : a < 0x780100 ∨ 0x780300 ≤ a) : execRegisterWrite fn a v s =
      .next (s.setReg a (BitVec.ofNat 32 (settingOf a (writeFields r.flds (s.reg a).toNat v.toNat)))) := by
  have hnoport : ¬ ((0x780100 ≤ a ∧ a < 0x780300) ∧ a % 16 = 0) := by omega
  simp [execRegisterWrite, hfn, hal, hon, hfit, hown, hq, hmsix, hrow, hnoport]

/-- A write of another function's address, of none that the map assigns, or of a unit that is not fitted is ignored
(R768). -/
theorem execRegisterWrite_ignored {fn a : Nat} (v : Word) {s : State}
    (h : a / 0x100000000 ≠ fn ∨ a % 4 ≠ 0 ∨ s.unfitted a = true ∨ (msixTable a = none ∧ regRowAt a = none)) :
    execRegisterWrite fn a v s = .next s := by
  rcases h with h | h | h | ⟨hmsix, hrow⟩
  · simp [execRegisterWrite, h]
  · simp [execRegisterWrite, h]
  · simp [execRegisterWrite, h]
  · simp [execRegisterWrite, hmsix, hrow]

/-- Settles O31: the map's fields lie apart, so each reads after the write as its own access code says. -/
theorem registerWritesFollowAccess : Obligations.RegisterWritesFollowAccess := by
  refine ⟨fun fn a v s r hfn hal hon hfit hown hq hmsix hrow hport hset => ?_, fun fn a v s h => ?_⟩
  · have hapart := regRowAt_fieldsApart hrow
    refine ⟨_, (exec_registerWrite fn a v s).trans (execRegisterWrite_stores hfn hal hon hfit hown hq hmsix hrow hport),
      fun hi lo acc hmem => ?_, fun b hb => reg_setReg_ne s a b _ hb, setReg_onlyIn s a _⟩
    rw [reg_setReg_self, hset, BitVec.toNat_ofNat, Nat.mod_eq_of_lt (writeFields_lt hapart _ (s.reg a).isLt),
      bitsOf_writeFields hapart _ _ hmem]
    cases acc <;> rfl
  · exact (exec_registerWrite fn a v s).trans (execRegisterWrite_ignored v h)

/-! ### A step -/

theorem step_of_pending_cons {s : State} {c : Instr} {rest : List Instr} (h : s.pending = c :: rest) :
    step s = exec c { s with pending := rest } := by
  simp only [step, h]

/-- Settles O1: on a queue with a front, `step` is `exec` of it by definition. -/
theorem stepRunsFront : Obligations.StepRunsFront := fun _ _ _ => step_of_pending_cons

end Sys2Proof.Machine
end

section
/-! SUPPORT. The fused figures: no command may touch them, and ID_SITES shows them (R18). -/

namespace Sys2Proof.Machine

/-! ### The step -/

/-- An answer known to be `t` is kept as any answer is. -/
theorem KeptR.kept {P : Nat} {s t : State} {r : Res} (h : KeptR P s r) (hr : r = .next t) : Kept P s t := by
  obtain ⟨u, rfl, hu⟩ := h
  injection hr with hut
  exact hut ▸ hu

theorem step_fused {s t : State} (h : step s = .next t) : t.fused = s.fused :=
  ((step_kept s).kept h).parts .fused (by decide)

/-! ### ID_SITES -/

/-- ID_SITES as a read shows it (chapter 01): the stored word with the fitted stacks and the types of the I/O dies in their
fields. -/
def State.sitesWord (s : State) : Nat :=
  setBits (setBits (setBits (setBits (setBits (s.reg R.ID_SITES).toNat 15 8 s.fused.stackFitted)
    7 6 (s.fused.ioType.getD 3 0)) 5 4 (s.fused.ioType.getD 2 0)) 3 2 (s.fused.ioType.getD 1 0)) 1 0 (s.fused.ioType.getD 0 0)

theorem viewHost_ID_SITES (s : State) : s.viewHost R.ID_SITES = some s.sitesWord := rfl

/-- A read of a host register shows what the host view computes, if it computes the register at all and the register
belongs to no unit and is no gated counter. -/
theorem readReg_of_viewHost {s : State} {a v : Nat} (hlow : a < 0x20000) (hfit : s.unfitted a = false)
    (hgate : gatedCounter a = false) (hview : s.viewHost a = some v) : s.readReg a = BitVec.ofNat 32 v := by
  have hpf : ¬ 0x100000000 ≤ a := by omega
  have hhost : a < 0x100000 ∧ (a < 0x20000 ∨ 0x30000 ≤ a) ∨ 0x800000 ≤ a := by omega
  simp [State.readReg, hfit, hgate, hpf, hhost, hview]

theorem sitesWord_lt (s : State) : s.sitesWord < 2 ^ 32 := by
  have hreg := (s.reg R.ID_SITES).isLt
  have hstack := setBits_lt _ 15 8 s.fused.stackFitted 32 (by decide) (by decide) hreg
  have hio3 := setBits_lt _ 7 6 (s.fused.ioType.getD 3 0) 32 (by decide) (by decide) hstack
  have hio2 := setBits_lt _ 5 4 (s.fused.ioType.getD 2 0) 32 (by decide) (by decide) hio3
  have hio1 := setBits_lt _ 3 2 (s.fused.ioType.getD 1 0) 32 (by decide) (by decide) hio2
  exact setBits_lt _ 1 0 _ 32 (by decide) (by decide) hio1

theorem viewReg_ID_SITES (s : State) : (s.viewReg R.ID_SITES).toNat = s.sitesWord := by
  have hread : s.viewReg R.ID_SITES = BitVec.ofNat 32 s.sitesWord :=
    readReg_of_viewHost (by decide) rfl (by decide) (viewHost_ID_SITES s)
  rw [hread, BitVec.toNat_ofNat, Nat.mod_eq_of_lt (sitesWord_lt s)]

theorem bitsOf_sitesWord_stackFitted (s : State) : bitsOf s.sitesWord 15 8 = s.fused.stackFitted % 2 ^ 8 := by
  simp [State.sitesWord, bitsOf_setBits_disjoint, bitsOf_setBits_self]

theorem bitsOf_sitesWord_ioType (s : State) {n : Nat} (hn : n < 4) :
    bitsOf s.sitesWord (2 * n + 1) (2 * n) = s.fused.ioType.getD n 0 % 4 := by
  obtain rfl | rfl | rfl | rfl : n = 0 ∨ n = 1 ∨ n = 2 ∨ n = 3 := by omega
  all_goals simp [State.sitesWord, bitsOf_setBits_disjoint, bitsOf_setBits_self]

/-- Settles O5: the mask of what a step may touch leaves the fuses out, and the host view of ID_SITES writes them over
whatever the register stores. -/
theorem fusesNeverChange : Obligations.FusesNeverChange :=
  ⟨fun _ _ h => step_fused h,
   fun s => (viewReg_ID_SITES s).symm ▸ bitsOf_sitesWord_stackFitted s,
   fun s _ hn => (viewReg_ID_SITES s).symm ▸ bitsOf_sitesWord_ioType s hn⟩

end Sys2Proof.Machine
end

section
/-! SUPPORT. Loss of power (R21 to R29): the notices that a power failure sends, the power mode that shedding leaves, and
what the flush after it keeps. -/

namespace Sys2Proof.Machine

variable {P : Nat} {s t : State}

/-! ### Outputs -/

theorem Kept.mem_out (h : Kept P s t) {o : Output} (ho : o ∈ s.out) : o ∈ t.out := by
  obtain ⟨l, hl⟩ := h.outs
  exact hl ▸ List.mem_append_right l ho

theorem mem_emitAll_out {o : Output} {l : List Output} (s : State) (ho : o ∈ l) : o ∈ (s.emitAll l).out := by
  induction l generalizing s with
  | nil => cases ho
  | cons a l ih =>
    rcases List.mem_cons.mp ho with rfl | ho
    · exact (emitAll_kept (P := 0x4000000) (Kept.refl (s.emit o)) l (by decide)).mem_out (List.mem_cons_self ..)
    · exact ih (s.emit a) ho

theorem symbolOf_head (type : Nat) (body : List Byte) : (symbolOf type body)[0]? = some (BitVec.ofNat 8 type) := rfl

/-- Each port that a failure notice is sent on puts out a symbol of its type (Table 19-4). -/
theorem failNotice_sends {ps : List Nat} {p : Nat} (s : State) (cause ring port : Nat) (hp : p ∈ ps) :
    ∃ sym, Output.symbol p sym ∈ (s.failNotice cause ps ring port).out ∧ sym[0]? = some 0x0B := by
  simp only [State.failNotice, State.sendOn, bump_out]
  exact ⟨_, mem_emitAll_out _ (List.mem_map_of_mem hp), symbolOf_head ..⟩

/-! ### Power -/

@[simp] theorem shed_mode (s : State) (m : PowerMode) : (s.shed m).pwr.mode = m := rfl
@[simp] theorem shed_restartDue (s : State) (m : PowerMode) : (s.shed m).pwr.restartDue = (m == .failed) := rfl

theorem Kept.mode (h : Kept P s t) (hP : P.testBit Part.pwr.bit = false) : t.pwr.mode = s.pwr.mode :=
  (congrArg Power.mode (h.parts .pwr hP) :)

theorem Kept.restartDue (h : Kept P s t) (hP : P.testBit Part.pwr.bit = false) : t.pwr.restartDue = s.pwr.restartDue :=
  (congrArg Power.restartDue (h.parts .pwr hP) :)

theorem flush_keeps (s : State) (c k : Nat) : Kept 872418945 s (s.flush c k) := flush_kept s c k (Kept.refl s) (by decide)

theorem powerFailFlush_keeps (s : State) (source mv : Nat) : Kept 872418945 s (s.powerFailFlush source mv) :=
  powerFailFlush_kept s source mv (Kept.refl s) (by decide)

/-- A flush after power is shed leaves the mode and the restart as shedding set them. -/
theorem mode_restartDue_of_shed {m : PowerMode} (h : Kept 872418945 (s.shed m) t) :
    t.pwr.mode = m ∧ t.pwr.restartDue = (m == .failed) :=
  ⟨h.mode (by decide), h.restartDue (by decide)⟩

theorem Kept.onlyIn_powerLoss (h : Kept 872418953 s t) : OnlyIn (.pwr :: .nor :: logParts) s t :=
  h.onlyIn (fun p => by cases p <;> decide)

/-! ### The three commands, on a module that is on and on one that is not -/

theorem exec_powerFailDetect_on (source mv : Nat) (hon : s.pwr.mode = .on) : exec (.powerFailDetect source mv) s =
    .next (((s.failNotice 1 s.trainedPorts 0 0).shed .failed).powerFailFlush source mv) :=
  congrArg Host.Outcome.next (if_neg (by simp [hon]))

theorem exec_overvoltageShutdown_on (hon : s.pwr.mode = .on) :
    exec .overvoltageShutdown s = .next (((s.log 0x0102 4 0 0xFFFF 0 0).shed .failed).flush 3 3) :=
  congrArg Host.Outcome.next (if_neg (by simp [hon]))

theorem exec_railOvercurrent_on (group : Nat) (hon : s.pwr.mode = .on) :
    exec (.railOvercurrent group) s = .next (((s.log 0x0101 4 0 0xFFFF group 0).shed .tripped).flush 4 4) :=
  congrArg Host.Outcome.next (if_neg (by simp [hon]))

theorem exec_powerLoss_off (source mv group : Nat) (hoff : s.pwr.mode ≠ .on) :
    exec (.powerFailDetect source mv) s = .next s ∧ exec .overvoltageShutdown s = .next s ∧
      exec (.railOvercurrent group) s = .next s := by
  have hskip : (s.pwr.mode != .on) = true := by simp [hoff]
  refine ⟨?_, ?_, ?_⟩ <;> exact congrArg Host.Outcome.next (if_pos hskip)

theorem powerFailDetect_ends (source mv : Nat) (hon : s.pwr.mode = .on) : Ends (.powerFailDetect source mv) s (fun t =>
    t.pwr.mode = .failed ∧ t.pwr.restartDue = true ∧
    (∀ p, p ∈ s.trainedPorts → ∃ sym, Output.symbol p sym ∈ t.out ∧ sym[0]? = some 0x0B) ∧
    OnlyIn (.pwr :: .nor :: logParts) s t) := by
  have hexec := exec_powerFailDetect_on source mv hon
  have honly := ((execPowerFailDetect_kept source mv s (Kept.refl s) (by decide)).kept hexec).onlyIn_powerLoss
  have hshed := shed_kept (P := 268436489) _ .failed (Kept.refl (s.failNotice 1 s.trainedPorts 0 0)) (by decide)
  have hflush := powerFailFlush_keeps ((s.failNotice 1 s.trainedPorts 0 0).shed .failed) source mv
  obtain ⟨hmode, hdue⟩ := mode_restartDue_of_shed hflush
  refine ⟨_, hexec, hmode, hdue, fun p hp => ?_, honly⟩
  obtain ⟨sym, hsent, htype⟩ := failNotice_sends s 1 0 0 hp
  exact ⟨sym, hflush.mem_out (hshed.mem_out hsent), htype⟩

theorem overvoltageShutdown_ends (hon : s.pwr.mode = .on) : Ends .overvoltageShutdown s (fun t =>
    t.pwr.mode = .failed ∧ t.pwr.restartDue = true ∧ OnlyIn (.pwr :: .nor :: logParts) s t) := by
  have hexec := exec_overvoltageShutdown_on hon
  have honly := ((execOvervoltageShutdown_kept s (Kept.refl s) (by decide)).kept hexec).onlyIn_powerLoss
  obtain ⟨hmode, hdue⟩ := mode_restartDue_of_shed (flush_keeps _ 3 3)
  exact ⟨_, hexec, hmode, hdue, honly⟩

theorem railOvercurrent_ends (group : Nat) (hon : s.pwr.mode = .on) : Ends (.railOvercurrent group) s (fun t =>
    t.pwr.mode = .tripped ∧ t.pwr.restartDue = false ∧ OnlyIn (.pwr :: .nor :: logParts) s t) := by
  have hexec := exec_railOvercurrent_on group hon
  have honly := ((execRailOvercurrent_kept group s (Kept.refl s) (by decide)).kept hexec).onlyIn_powerLoss
  obtain ⟨hmode, hdue⟩ := mode_restartDue_of_shed (flush_keeps _ 4 4)
  exact ⟨_, hexec, hmode, hdue, honly⟩

/-- Settles O10: shedding sets the mode and the restart, the flush after it keeps both, and notices once sent stay. -/
theorem powerLossShedsPower : Obligations.PowerLossShedsPower :=
  ⟨fun source mv _ hon => powerFailDetect_ends source mv hon, fun _ hon => overvoltageShutdown_ends hon,
   fun group _ hon => railOvercurrent_ends group hon, fun source mv group _ hoff => exec_powerLoss_off source mv group hoff⟩

end Sys2Proof.Machine
end

section
/-! SUPPORT. The pending changes of the tick unit and the calendar (R68, R73, R74, R82, R85): what each leaves in the
state once it is due. -/

namespace Sys2Proof.Machine

variable {s t : State}

/-! ### The notice and the range check leave the registers -/

@[simp] theorem tickNotice_fld (s : State) (cause prev other : Nat) (f : Fld) :
    (s.tickNotice cause prev other).fld f = s.fld f := rfl
@[simp] theorem tickNotice_wasOut (s : State) (cause prev other : Nat) :
    (s.tickNotice cause prev other).tick.wasOut = s.tick.wasOut := rfl
@[simp] theorem tickNotice_isSome (s : State) (cause prev other : Nat) :
    (s.tickNotice cause prev other).tick.notice.isSome = true := rfl

@[simp] theorem calRecheck_reg (s : State) (a : Nat) : s.calRecheck.reg a = s.reg a := by
  unfold State.calRecheck; split <;> rfl
@[simp] theorem calRecheck_fld (s : State) (f : Fld) : s.calRecheck.fld f = s.fld f := by
  unfold State.calRecheck; split <;> rfl
@[simp] theorem calRecheck_notice (s : State) : s.calRecheck.tick.notice = s.tick.notice := by
  unfold State.calRecheck; split <;> rfl
@[simp] theorem calRecheck_pendTime (s : State) : s.calRecheck.tick.pendTime = s.tick.pendTime := by
  unfold State.calRecheck; split <;> rfl

theorem tickTime_congr (hlo : t.reg R.TCK_TICK_TIME_LO = s.reg R.TCK_TICK_TIME_LO)
    (hhi : t.reg R.TCK_TICK_TIME_HI = s.reg R.TCK_TICK_TIME_HI) : t.tickTime = s.tickTime := by
  unfold State.tickTime State.pair; rw [hlo, hhi]

/-! ### The period (R68) -/

/-- A field written with the value of one as wide reads as that one did. -/
theorem fld_setFld_of_width (s : State) {f g : Fld} (hf : f.lo ≤ f.hi) (h32 : f.hi < 32)
    (hw : g.hi + 1 - g.lo = f.hi + 1 - f.lo) : (s.setFld f (s.fld g)).fld f = s.fld g := by
  rw [fld_setFld_self s f _ hf h32, Nat.mod_eq_of_lt (hw ▸ fld_lt s g)]

theorem fld_setFld_zero (s : State) {f : Fld} (hf : f.lo ≤ f.hi) (h32 : f.hi < 32) : (s.setFld f 0).fld f = 0 := by
  rw [fld_setFld_self s f 0 hf h32, Nat.zero_mod]

theorem noPendingPeriod_fld_pending (s : State) : s.noPendingPeriod.fld F.TCK_STATUS_PERIOD_PENDING = 0 := by
  unfold State.noPendingPeriod
  rw [fld_setPair_ne _ _ _ _ _ (by decide) (by decide), fld_setFld_ne (h := by decide),
    fld_setFld_zero _ (by decide) (by decide)]

theorem noPendingPeriod_fld_period (s : State) : s.noPendingPeriod.fld F.TCK_PERIOD_PERIOD = s.fld F.TCK_PERIOD_PERIOD := by
  unfold State.noPendingPeriod
  rw [fld_setPair_ne _ _ _ _ _ (by decide) (by decide), fld_setFld_ne (h := by decide),
    fld_setFld_ne (h := by decide)]

theorem exec_pendingPeriodApply_due (hpend : s.bit F.TCK_STATUS_PERIOD_PENDING = true)
    (hat : s.pair R.TCK_NEXT_AT_LO R.TCK_NEXT_AT_HI ≤ s.tickCount) (hrun : s.frozen = false) :
    exec .pendingPeriodApply s =
      .next (s.setFld F.TCK_PERIOD_PERIOD (s.fld F.TCK_NEXT_PERIOD_PERIOD)).noPendingPeriod :=
  congrArg Host.Outcome.next (if_pos ⟨hpend, hat, by simp [hrun]⟩)

theorem pendingPeriodApply_ends (hpend : s.bit F.TCK_STATUS_PERIOD_PENDING = true)
    (hat : s.pair R.TCK_NEXT_AT_LO R.TCK_NEXT_AT_HI ≤ s.tickCount) (hrun : s.frozen = false) :
    Ends .pendingPeriodApply s (fun t => t.fld F.TCK_PERIOD_PERIOD = s.fld F.TCK_NEXT_PERIOD_PERIOD ∧
      t.fld F.TCK_STATUS_PERIOD_PENDING = 0 ∧ OnlyIn [.regs] s t) := by
  have hexec := exec_pendingPeriodApply_due hpend hat hrun
  have hkept : Kept 1 s _ := (execPendingPeriodApply_kept s (Kept.refl s) (by decide)).kept hexec
  exact ⟨_, hexec,
    (noPendingPeriod_fld_period _).trans (fld_setFld_of_width s (by decide) (by decide) rfl),
    noPendingPeriod_fld_pending _, hkept.onlyIn (fun p => by cases p <;> decide)⟩

/-! ### The time (R73, R74) -/

theorem Kept.onlyIn_tickLog (h : Kept 872417953 s t) : OnlyIn (.tick :: logParts) s t :=
  h.onlyIn (fun p => by cases p <;> decide)

/-- The written time in place: TICK_TIME set, TIME_VALID, and no time pending. -/
def State.timeTaken (s : State) (tm : Nat) : State :=
  (State.setPair { s with tick := { s.tick with pendTime := none } } R.TCK_TICK_TIME_LO R.TCK_TICK_TIME_HI tm).setFld
    F.TCK_STATUS_TIME_VALID 1

theorem timeTaken_tickTime (s : State) (tm : Nat) : (s.timeTaken tm).tickTime = tm % 2 ^ 64 :=
  (tickTime_congr (reg_setFld_ne _ _ _ _ (by decide)) (reg_setFld_ne _ _ _ _ (by decide))).trans
    (pair_setPair_self _ _ _ _ (by decide))

theorem timeTaken_fld_valid (s : State) (tm : Nat) : (s.timeTaken tm).fld F.TCK_STATUS_TIME_VALID = 1 :=
  fld_setFld_self _ _ _ (by decide) (by decide)

theorem exec_pendingTimeApply_due {at_ tm op : Nat} (hpend : s.tick.pendTime = some (at_, tm, op))
    (hat : at_ ≤ s.tickCount) (hrun : s.frozen = false) :
    exec .pendingTimeApply s = .next ((s.timeTaken tm).log 0x0203 1 0 0xFFFF 0 s.tickTime).calRecheck := by
  show execPendingTimeApply s = _
  simp only [execPendingTimeApply, hpend]
  exact congrArg Host.Outcome.next (if_pos ⟨hat, by simp [hrun]⟩)

theorem pendingTimeApply_ends {at_ tm op : Nat} (hpend : s.tick.pendTime = some (at_, tm, op))
    (hat : at_ ≤ s.tickCount) (hrun : s.frozen = false) :
    Ends .pendingTimeApply s (fun t => t.tickTime = tm % 2 ^ 64 ∧ t.fld F.TCK_STATUS_TIME_VALID = 1 ∧
      t.tick.pendTime = none ∧ OnlyIn (.tick :: logParts) s t) := by
  have hexec := exec_pendingTimeApply_due hpend hat hrun
  have honly := ((execPendingTimeApply_kept s (Kept.refl s) (by decide)).kept hexec).onlyIn_tickLog
  refine ⟨_, hexec, ?time, ?valid, ?pend, honly⟩
  case time =>
    rw [tickTime_congr (calRecheck_reg ..) (calRecheck_reg ..),
      tickTime_congr (log_reg (h := by decide) ..) (log_reg (h := by decide) ..), timeTaken_tickTime]
  case valid => rw [calRecheck_fld, log_fld (h := by decide), timeTaken_fld_valid]
  case pend => rw [calRecheck_pendTime, log_tick]; rfl

/-! ### The UTC offset (R82) -/

/-- The pending offset in place: the offset in force, none pending, and UTC_SET. -/
def State.offsetTaken (s : State) : State :=
  ((s.setFld F.CAL_UTC_OFFSET_OFFSET (s.fld F.CAL_UTC_NEXT_NEXT_OFFSET)).setFld F.CAL_STATUS_UTC_PENDING 0).setFld
    F.CAL_STATUS_UTC_SET 1

theorem offsetTaken_fld_offset (s : State) :
    s.offsetTaken.fld F.CAL_UTC_OFFSET_OFFSET = s.fld F.CAL_UTC_NEXT_NEXT_OFFSET := by
  unfold State.offsetTaken
  rw [fld_setFld_ne (h := by decide), fld_setFld_ne (h := by decide)]
  exact fld_setFld_of_width s (by decide) (by decide) rfl

theorem offsetTaken_fld_pending (s : State) : s.offsetTaken.fld F.CAL_STATUS_UTC_PENDING = 0 := by
  unfold State.offsetTaken
  rw [fld_setFld_disjoint _ F.CAL_STATUS_UTC_SET F.CAL_STATUS_UTC_PENDING _ rfl (by decide) (by decide) (by decide),
    fld_setFld_zero _ (by decide) (by decide)]

theorem offsetTaken_fld_set (s : State) : s.offsetTaken.fld F.CAL_STATUS_UTC_SET = 1 :=
  fld_setFld_self _ _ _ (by decide) (by decide)

theorem exec_utcOffsetApply_due (hpend : s.bit F.CAL_STATUS_UTC_PENDING = true) (hvalid : s.timeValid = true)
    (hat : s.pair R.CAL_UTC_NEXT_AT_LO R.CAL_UTC_NEXT_AT_HI ≤ s.tai) (hrun : s.frozen = false) :
    exec .utcOffsetApply s =
      .next ((s.offsetTaken.log 0x0205 1 0 0xFFFF (s.fld F.CAL_UTC_NEXT_NEXT_OFFSET) 0).tickNotice 5
        (s.offsetTaken.fld F.TCK_STATUS_STATE) 0).calRecheck :=
  congrArg Host.Outcome.next (if_pos ⟨hpend, hvalid, hat, by simp [hrun]⟩)

theorem utcOffsetApply_ends (hpend : s.bit F.CAL_STATUS_UTC_PENDING = true) (hvalid : s.timeValid = true)
    (hat : s.pair R.CAL_UTC_NEXT_AT_LO R.CAL_UTC_NEXT_AT_HI ≤ s.tai) (hrun : s.frozen = false) :
    Ends .utcOffsetApply s (fun t => t.fld F.CAL_UTC_OFFSET_OFFSET = s.fld F.CAL_UTC_NEXT_NEXT_OFFSET ∧
      t.fld F.CAL_STATUS_UTC_PENDING = 0 ∧ t.fld F.CAL_STATUS_UTC_SET = 1 ∧ t.tick.notice.isSome = true ∧
      OnlyIn (.tick :: logParts) s t) := by
  have hexec := exec_utcOffsetApply_due hpend hvalid hat hrun
  have honly := ((execUtcOffsetApply_kept s (Kept.refl s) (by decide)).kept hexec).onlyIn_tickLog
  refine ⟨_, hexec, ?offset, ?pending, ?set, ?notice, honly⟩
  case offset => rw [calRecheck_fld, tickNotice_fld, log_fld (h := by decide), offsetTaken_fld_offset]
  case pending => rw [calRecheck_fld, tickNotice_fld, log_fld (h := by decide), offsetTaken_fld_pending]
  case set => rw [calRecheck_fld, tickNotice_fld, log_fld (h := by decide), offsetTaken_fld_set]
  case notice => rw [calRecheck_notice, tickNotice_isSome]

/-! ### The calendar's range (R85) -/

/-- The passing noted, so that it is logged once. -/
def State.outNoted (s : State) : State := { s with tick := { s.tick with wasOut := true } }

theorem exec_calOutOfRangePass_due (hout : s.calOut = true) (hwas : s.tick.wasOut = false) (hrun : s.frozen = false) :
    exec .calOutOfRangePass s =
      .next ((s.outNoted.log 0x0206 2 0 0xFFFF 0 0).tickNotice 4 (s.outNoted.fld F.TCK_STATUS_STATE) 0) :=
  congrArg Host.Outcome.next (if_pos ⟨hout, by simp [hwas], by simp [hrun]⟩)

theorem calOutOfRangePass_ends (hout : s.calOut = true) (hwas : s.tick.wasOut = false) (hrun : s.frozen = false) :
    Ends .calOutOfRangePass s (fun t => t.tick.wasOut = true ∧ t.tick.notice.isSome = true ∧
      OnlyIn (.tick :: logParts) s t) := by
  have hexec := exec_calOutOfRangePass_due hout hwas hrun
  have honly := ((execCalOutOfRangePass_kept s (Kept.refl s) (by decide)).kept hexec).onlyIn_tickLog
  refine ⟨_, hexec, ?noted, tickNotice_isSome .., honly⟩
  rw [tickNotice_wasOut, log_tick]; rfl

/-! ### In a freeze -/

theorem execPendingTimeApply_frozen (hfrozen : s.frozen = true) : execPendingTimeApply s = .next s := by
  unfold execPendingTimeApply
  cases s.tick.pendTime with
  | none => rfl
  | some p => exact congrArg Host.Outcome.next (if_neg (by simp [hfrozen]))

theorem exec_pendingChanges_frozen (hfrozen : s.frozen = true) :
    exec .pendingPeriodApply s = .next s ∧ exec .pendingTimeApply s = .next s ∧ exec .utcOffsetApply s = .next s ∧
      exec .calOutOfRangePass s = .next s :=
  ⟨congrArg Host.Outcome.next (if_neg (by simp [hfrozen])), execPendingTimeApply_frozen hfrozen,
   congrArg Host.Outcome.next (if_neg (by simp [hfrozen])), congrArg Host.Outcome.next (if_neg (by simp [hfrozen]))⟩

/-- Settles O16: each change is written before the event is logged, and the log and the range check leave the tick and
calendar registers; each guard asks for a part that is not frozen. -/
theorem pendingTickChangesApply : Obligations.PendingTickChangesApply :=
  ⟨fun _ hpend hat hrun => pendingPeriodApply_ends hpend hat hrun,
   fun _ _ _ _ hpend hat hrun => pendingTimeApply_ends hpend hat hrun,
   fun _ hpend hvalid hat hrun => utcOffsetApply_ends hpend hvalid hat hrun,
   fun _ hout hwas hrun => calOutOfRangePass_ends hout hwas hrun,
   fun _ hfrozen => exec_pendingChanges_frozen hfrozen⟩

end Sys2Proof.Machine
end

section
/-! SUPPORT. Clock gating, doze and the D-states (R120 to R126): each writes the power state and nothing else. -/

namespace Sys2Proof.Machine

variable {s : State} {n u : Nat}

/-! ### Bits of a mask -/

theorem tst_eq_testBit (w k : Nat) : tst w k = w.testBit k := by
  rw [Nat.testBit_eq_decide_div_mod_eq]; rfl

theorem tst_putBit (w n k : Nat) (v : Bool) : tst (putBit w n v) k = if k = n then v else tst w k := by
  rw [tst_eq_testBit, tst_eq_testBit, putBit, testBit_setBits _ _ _ _ _ (Nat.le_refl n)]
  by_cases hk : k = n
  · subst hk; cases v <;> simp
  · have hout : ¬ (n ≤ k ∧ k ≤ n) := by omega
    rw [if_neg hout, if_neg hk]

/-! ### Updates of the power state -/

/-- An update of the power state that leaves the FREEZE_N drive. -/
theorem onlyIn_pwr (s : State) (p : Power) (hdrive : p.freezeDrive = s.pwr.freezeDrive) :
    OnlyIn [.pwr] s { s with pwr := p } := fun q hq => by
  have hkept := Kept.set_pwr (P := 268435464) (Kept.refl s) p (by decide)
  cases q
  case pwr => exact absurd (List.mem_singleton_self _) hq
  case drive => exact hdrive
  all_goals exact hkept.parts _ rfl

theorem vfD0_of_d3 (hd3 : tst s.pwr.vfD3 n = true) : s.vfD0 n =
    { s with pwr := { s.pwr with vfD3 := putBit s.pwr.vfD3 n false, vfResume := putBit s.pwr.vfResume n true } } :=
  if_pos hd3

theorem vfD0_onlyIn (s : State) (n : Nat) : OnlyIn [.pwr] s (s.vfD0 n) := by
  unfold State.vfD0
  split
  · exact onlyIn_pwr s _ rfl
  · exact OnlyIn.refl s

/-- Once back in D0 a VF is out of D3hot, whether it was in it or not. -/
theorem vfD0_tst_vfD3 (s : State) (n : Nat) : tst (s.vfD0 n).pwr.vfD3 n = false := by
  unfold State.vfD0
  split
  next => simp [tst_putBit]
  next hd0 => simpa using hd0

theorem pf0D0_of_d3 (hd3 : s.pwr.pf0D3 = true) : s.pf0D0 =
    { s with pwr := { s.pwr with
        pf0D3 := false, dozeAsked := false
        resumeFrom := if s.pwr.doze || s.pwr.dispatchOff then s.runClk + 1 else s.pwr.resumeFrom } } :=
  if_pos hd3

theorem pf0D0_onlyIn (s : State) : OnlyIn [.pwr] s s.pf0D0 := by
  unfold State.pf0D0
  split
  · exact onlyIn_pwr s _ rfl
  · exact OnlyIn.refl s

theorem pf0D0_pf0D3 (s : State) : s.pf0D0.pwr.pf0D3 = false := by
  unfold State.pf0D0
  split
  next => rfl
  next hd0 => simpa using hd0

/-! ### Clock gating (R120) -/

theorem clockGated_setPwr (s : State) (p : Power) (u : Nat) :
    State.clockGated { s with pwr := p } u = (fget (fun _ => 0) p.gated u == 1 && s.unitIdle u) := rfl

theorem idleClockGate_ends (hu : u < 173) (hidle : s.unitIdle u = true) :
    Ends (.idleClockGate u) s (fun t => t.clockGated u = true ∧ OnlyIn [.pwr] s t) := by
  refine ⟨_, congrArg Host.Outcome.next (if_neg (by simp [hidle]; omega)), ?_, onlyIn_pwr s _ rfl⟩
  rw [clockGated_setPwr, fget_fset_self, hidle]; rfl

theorem exec_idleClockGate_busy (hbusy : s.unitIdle u = false) : exec (.idleClockGate u) s = .next s :=
  congrArg Host.Outcome.next (if_pos (by simp [hbusy]))

/-! ### Doze (R121 to R125) -/

theorem dozeEnter_ends (hrun : s.frozen = false) (htick : s.tick.running = true) (hawake : s.pwr.doze = false)
    (hwhy : (s.pwr.dozeAsked = true ∧ s.dozeReady = true) ∨
      (s.pwr.pf0D3 = true ∧ s.pwr.dispatchOff = true ∧ s.noContext = true)) :
    Ends .dozeEnter s (fun t => t.pwr.doze = true ∧ t.pwr.dozeAsked = false ∧ OnlyIn [.pwr] s t) := by
  have hdue : ((s.pwr.dozeAsked && s.dozeReady) || (s.pwr.pf0D3 && s.pwr.dispatchOff && s.noContext)) = true := by
    simpa [and_assoc] using hwhy
  have hexec : exec .dozeEnter s = .next { s with pwr := { s.pwr with doze := true, dozeAsked := false } } :=
    congrArg Host.Outcome.next ((if_neg (by simp [hrun, htick, hawake])).trans (if_pos hdue))
  exact ⟨_, hexec, rfl, rfl, onlyIn_pwr s _ rfl⟩

theorem dozeExitResume_ends (hrun : s.frozen = false) (hfrom : s.pwr.resumeFrom ≠ 0)
    (hlate : s.pwr.resumeFrom + 200000 ≤ s.runClk + 1) :
    Ends .dozeExitResume s (fun t => t.pwr.doze = false ∧ t.pwr.resumeFrom = 0 ∧
      (s.pwr.pf0D3 = false → t.pwr.dispatchOff = false) ∧ OnlyIn [.pwr] s t) := by
  refine ⟨_, congrArg Host.Outcome.next (if_neg (by simp [hrun, hfrom]; omega)), rfl, rfl, fun hd0 => ?_,
    onlyIn_pwr s _ rfl⟩
  show (s.pwr.pf0D3 && s.pwr.dispatchOff) = false
  rw [hd0]; rfl

theorem exec_dozeExitResume_early (hearly : s.runClk + 1 < s.pwr.resumeFrom + 200000) :
    exec .dozeExitResume s = .next s :=
  congrArg Host.Outcome.next (if_pos (by simp [hearly]))

/-! ### D-states (R125, R126) -/

theorem pf0D3hotEnter_ends (hready : s.boot.configReady = true) (hon : s.pwr.mode = .on) :
    Ends .pf0D3hotEnter s (fun t => t.pwr.pf0D3 = true ∧ OnlyIn [.pwr] s t) :=
  ⟨_, congrArg Host.Outcome.next (if_pos (by simp [hready, hon])), rfl, onlyIn_pwr s _ rfl⟩

theorem pf0D0Return_ends (hd3 : s.pwr.pf0D3 = true) :
    Ends .pf0D0Return s (fun t => t.pwr.pf0D3 = false ∧ t.pwr.dozeAsked = false ∧
      (s.pwr.doze = true → t.pwr.resumeFrom = s.runClk + 1) ∧ OnlyIn [.pwr] s t) :=
  ⟨_, congrArg Host.Outcome.next (pf0D0_of_d3 hd3), rfl, rfl, fun hdoze => if_pos (by simp [hdoze]), onlyIn_pwr s _ rfl⟩

theorem vfD3hotEnter_ends (h1 : 1 ≤ n) (h63 : n ≤ 63) (hready : s.boot.configReady = true) (hon : s.pwr.mode = .on) :
    Ends (.vfD3hotEnter n) s (fun t =>
      (∀ k, tst t.pwr.vfD3 k = (if k = n then true else tst s.pwr.vfD3 k)) ∧ OnlyIn [.pwr] s t) := by
  have hgo : ¬ (n = 0 || 63 < n || !s.boot.configReady || s.pwr.mode != .on) = true := by
    simp [hready, hon]; omega
  exact ⟨_, congrArg Host.Outcome.next (if_neg hgo), fun k => tst_putBit _ n k true, onlyIn_pwr s _ rfl⟩

theorem vfD0Return_ends (h1 : 1 ≤ n) (h63 : n ≤ 63) (hd3 : tst s.pwr.vfD3 n = true) :
    Ends (.vfD0Return n) s (fun t => (∀ k, tst t.pwr.vfD3 k = (if k = n then false else tst s.pwr.vfD3 k)) ∧
      tst t.pwr.vfResume n = true ∧ OnlyIn [.pwr] s t) := by
  have hgo : ¬ (n = 0 || 63 < n) = true := by simp; omega
  have hexec : exec (.vfD0Return n) s = .next (s.vfD0 n) := congrArg Host.Outcome.next (if_neg hgo)
  rw [vfD0_of_d3 hd3] at hexec
  exact ⟨_, hexec, fun k => tst_putBit _ n k false, (tst_putBit _ n n true).trans (if_pos rfl), onlyIn_pwr s _ rfl⟩

/-- Settles O24: each command, where it applies, is one update of the power state, which leaves the FREEZE_N drive. -/
theorem dozeAndDStates : Obligations.DozeAndDStates :=
  ⟨fun _ _ hu hidle => idleClockGate_ends hu hidle, fun _ _ hbusy => exec_idleClockGate_busy hbusy,
   fun _ hrun htick hawake hwhy => dozeEnter_ends hrun htick hawake hwhy,
   fun _ hrun hfrom hlate => dozeExitResume_ends hrun hfrom hlate,
   fun _ _ hearly => exec_dozeExitResume_early hearly,
   fun _ hready hon => pf0D3hotEnter_ends hready hon, fun _ hd3 => pf0D0Return_ends hd3,
   fun _ _ h1 h63 hready hon => vfD3hotEnter_ends h1 h63 hready hon,
   fun _ _ h1 h63 hd3 => vfD0Return_ends h1 h63 hd3⟩

end Sys2Proof.Machine
end

section
/-! SUPPORT. Function-level resets (R118, R119, R157, R159, R244, R277, R753): what each step of a VF's reset leaves, the
slot that PF0's returns, and the clearings of a slice that end. -/

namespace Sys2Proof.Machine

variable {P : Nat} {s t : State} {n : Nat}

/-! ### Whole parts that an operation keeps -/

theorem Kept.pci (h : Kept P s t) (hP : P.testBit Part.pci.bit = false) : t.pci = s.pci := h.parts .pci hP
theorem Kept.qs (h : Kept P s t) (hP : P.testBit Part.qs.bit = false) : t.qs = s.qs := h.parts .qs hP
theorem Kept.slices (h : Kept P s t) (hP : P.testBit Part.slices.bit = false) : t.slices = s.slices := h.parts .slices hP

theorem Kept.pwr (h : Kept P s t) (hP : P.testBit Part.pwr.bit = false) (hD : P.testBit Part.drive.bit = false) :
    t.pwr = s.pwr := pwr_of_same (h.parts .pwr hP) (h.parts .drive hD)

/-! ### Queues and slices -/

theorem queue_congr (h : t.qs = s.qs) (n q : Nat) : t.queue n q = s.queue n q := by unfold State.queue; rw [h]

theorem slice_congr (h : t.slices = s.slices) (n : Nat) : t.slice n = s.slice n := by unfold State.slice; rw [h]

theorem setFld_slice (s : State) (f : Fld) (v n : Nat) : (s.setFld f v).slice n = s.slice n :=
  slice_congr (setFld_slices s f v) n

@[simp] theorem slice_modSlice_self (s : State) (n : Nat) (f : Slice → Slice) : (s.modSlice n f).slice n = f (s.slice n) :=
  fget_fset_self _ _ _ _

/-- After an FLR every queue of the VF is at its reset value (R244). -/
theorem queuesFlr_queue (s : State) {q : Nat} (hq : q < 16) : (s.queuesFlr n).queue n q = {} := by
  have hin : 16 * n ≤ 16 * n + q ∧ 16 * n + q < 16 * n + 16 := by omega
  exact (fget_fclear _ _ _ _ _).trans (if_pos hin)

/-! ### The reset of a VF (R118, R157, R244) -/

/-- VF `n` with its TDI in ERROR, its queues reset and its exchange window clear. -/
def State.vfQuiet (s : State) (n : Nat) : State := ((s.tdiError n).queuesFlr n).clearVfExchange n

/-- VF `n` reset and back in D0, before the clearing of its slice begins. -/
def State.vfReset (s : State) (n : Nat) : State := ((s.vfQuiet n).fnReset n).vfD0 n

/-- SLC_SCRUB shows a clearing of VF `n`'s slice alone. -/
def State.scrubOf (s : State) (n : Nat) : State :=
  ((s.setFld F.SLC_SCRUB_ACTIVE 1).setFld F.SLC_SCRUB_KIND 2).setFld F.SLC_SCRUB_VF n

/-- The clearing of VF `n`'s slice begins for an FLR (R118, R277). -/
def State.flrClear (s : State) (n : Nat) : State :=
  ((s.clearBegin n 1).modSlice n (fun x => { x with flrBusy := true })).scrubOf n

theorem exec_vfFlr (h1 : 1 ≤ n) (h63 : n ≤ 63) (hready : s.boot.configReady = true) (hon : s.pwr.mode = .on)
    (hidle : (s.slice n).flrBusy = false) : exec (.vfFlr n) s =
      .next (if (s.vfReset n).sliceState n = 0 then s.vfReset n else (s.vfReset n).flrClear n) := by
  have hgo : ¬ (n = 0 || 63 < n || !s.boot.configReady || s.pwr.mode != .on || (s.slice n).flrBusy) = true := by
    simp [hready, hon, hidle]; omega
  exact congrArg Host.Outcome.next (if_neg hgo)

theorem exec_vfFlr_busy (hbusy : (s.slice n).flrBusy = true) : exec (.vfFlr n) s = .next s :=
  congrArg Host.Outcome.next (if_pos (by simp [hbusy]))

theorem vfQuiet_kept (s : State) (n : Nat) : Kept 7625105473 s (s.vfQuiet n) :=
  clearVfExchange_kept _ n (queuesFlr_kept _ n (tdiError_kept s n (Kept.refl s) (by decide)) (by decide)) (by decide)

theorem vfQuiet_queue (s : State) {q : Nat} (hq : q < 16) : (s.vfQuiet n).queue n q = {} :=
  (queue_congr ((clearVfExchange_kept (P := 1073741888) _ n (Kept.refl _) (by decide)).qs (by decide)) n q).trans
    (queuesFlr_queue _ hq)

theorem fnReset_keeps (s : State) (n : Nat) : Kept 8388672 s (s.fnReset n) := fnReset_kept s n (Kept.refl s) (by decide)

theorem flrClear_keeps (s : State) (n : Nat) : Kept 6551322689 s (s.flrClear n) :=
  setFld_kept (setFld_kept (setFld_kept (modSlice_kept _ n _ (clearBegin_kept s n 1 (Kept.refl s) (by decide)) (by decide))
    _ _ (by decide)) _ _ (by decide)) _ _ (by decide)

@[simp] theorem vfD0_pci (s : State) (n : Nat) : (s.vfD0 n).pci = s.pci := by unfold State.vfD0; split <;> rfl
@[simp] theorem vfD0_qs (s : State) (n : Nat) : (s.vfD0 n).qs = s.qs := by unfold State.vfD0; split <;> rfl

theorem vfReset_pci (s : State) (n : Nat) : (s.vfReset n).pci = { s.pci with
    busMaster := putBit s.pci.busMaster n false, memEnable := putBit s.pci.memEnable n false
    msixEnable := putBit s.pci.msixEnable n false, msixMask := putBit s.pci.msixMask n false } := by
  rw [← (vfQuiet_kept s n).pci (by decide)]
  exact vfD0_pci _ n

theorem vfReset_queue (s : State) {q : Nat} (hq : q < 16) : (s.vfReset n).queue n q = {} :=
  (queue_congr ((vfD0_qs _ n).trans ((fnReset_keeps _ n).qs (by decide))) n q).trans (vfQuiet_queue s hq)

/-- The parts that a VF FLR may touch. -/
def flrParts : List Part := [.regs, .pwr, .exm, .exmMem, .qs, .slices, .sec, .mem, .cmn, .hbm, .yar, .ffe, .tsl, .cmp, .sns,
  .pci, .free, .out]

theorem vfReset_onlyIn (s : State) (n : Nat) : OnlyIn flrParts s (s.vfReset n) :=
  ((vfQuiet_kept s n).onlyIn (fun p => by cases p <;> decide)).trans
    (((fnReset_keeps _ n).onlyIn (fun p => by cases p <;> decide)).trans ((vfD0_onlyIn _ n).mono (by decide)))

theorem flrClear_onlyIn (s : State) (n : Nat) : OnlyIn flrParts s (s.flrClear n) :=
  (flrClear_keeps s n).onlyIn (fun p => by cases p <;> decide)

/-! ### SLC_SCRUB -/

theorem scrubOf_active (s : State) (n : Nat) : (s.scrubOf n).fld F.SLC_SCRUB_ACTIVE = 1 := by
  unfold State.scrubOf
  rw [fld_setFld_disjoint _ F.SLC_SCRUB_VF F.SLC_SCRUB_ACTIVE _ rfl (by decide) (by decide) (by decide),
    fld_setFld_disjoint _ F.SLC_SCRUB_KIND F.SLC_SCRUB_ACTIVE _ rfl (by decide) (by decide) (by decide),
    fld_setFld_self _ _ _ (by decide) (by decide)]; rfl

theorem scrubOf_kind (s : State) (n : Nat) : (s.scrubOf n).fld F.SLC_SCRUB_KIND = 2 := by
  unfold State.scrubOf
  rw [fld_setFld_disjoint _ F.SLC_SCRUB_VF F.SLC_SCRUB_KIND _ rfl (by decide) (by decide) (by decide),
    fld_setFld_self _ _ _ (by decide) (by decide)]; rfl

theorem scrubOf_vf (s : State) (h63 : n ≤ 63) : (s.scrubOf n).fld F.SLC_SCRUB_VF = n :=
  (fld_setFld_self _ _ _ (by decide) (by decide)).trans (Nat.mod_eq_of_lt (Nat.lt_succ_of_le h63))

theorem scrubOf_slice (s : State) (n m : Nat) : (s.scrubOf n).slice m = s.slice m := by
  unfold State.scrubOf
  rw [setFld_slice, setFld_slice, setFld_slice]

theorem flrClear_flrBusy (s : State) (n : Nat) : ((s.flrClear n).slice n).flrBusy = true := by
  unfold State.flrClear
  rw [scrubOf_slice, slice_modSlice_self]

/-! ### VF_FLR -/

/-- What a VF FLR leaves, whether or not the clearing of a slice follows. -/
structure VfFlrDone (n : Nat) (s t : State) : Prop where
  busMaster : ∀ k, tst t.pci.busMaster k = (if k = n then false else tst s.pci.busMaster k)
  memEnable : ∀ k, tst t.pci.memEnable k = (if k = n then false else tst s.pci.memEnable k)
  msixEnable : ∀ k, tst t.pci.msixEnable k = (if k = n then false else tst s.pci.msixEnable k)
  vfD3 : tst t.pwr.vfD3 n = false
  cmds : ∀ q, q < 16 → (t.queue n q).cmds = []
  parts : OnlyIn flrParts s t

theorem vfReset_done (s : State) (n : Nat) : VfFlrDone n s (s.vfReset n) where
  busMaster k := by rw [vfReset_pci]; exact tst_putBit _ n k false
  memEnable k := by rw [vfReset_pci]; exact tst_putBit _ n k false
  msixEnable k := by rw [vfReset_pci]; exact tst_putBit _ n k false
  vfD3 := vfD0_tst_vfD3 _ n
  cmds q hq := by rw [vfReset_queue s hq]
  parts := vfReset_onlyIn s n

/-- The clearing of the slice leaves what the reset of the function has done. -/
theorem VfFlrDone.flrClear (h : VfFlrDone n s t) : VfFlrDone n s (t.flrClear n) := by
  have hkept := flrClear_keeps t n
  have hpci := hkept.pci (by decide)
  exact {
    busMaster := by rw [hpci]; exact h.busMaster
    memEnable := by rw [hpci]; exact h.memEnable
    msixEnable := by rw [hpci]; exact h.msixEnable
    vfD3 := by rw [hkept.pwr (by decide) (by decide)]; exact h.vfD3
    cmds := fun q hq => by rw [queue_congr (hkept.qs (by decide))]; exact h.cmds q hq
    parts := h.parts.trans (flrClear_onlyIn t n) }

theorem vfFlr_ends (h1 : 1 ≤ n) (h63 : n ≤ 63) (hready : s.boot.configReady = true) (hon : s.pwr.mode = .on)
    (hidle : (s.slice n).flrBusy = false) : Ends (.vfFlr n) s (fun t => VfFlrDone n s t ∧
      (t.sliceState n ≠ 0 → (t.slice n).flrBusy = true ∧ t.fld F.SLC_SCRUB_ACTIVE = 1 ∧ t.fld F.SLC_SCRUB_KIND = 2 ∧
        t.fld F.SLC_SCRUB_VF = n)) := by
  refine ⟨_, exec_vfFlr h1 h63 hready hon hidle, ?_⟩
  by_cases hslice : (s.vfReset n).sliceState n = 0
  · rw [if_pos hslice]
    exact ⟨vfReset_done s n, fun hsome => absurd hslice hsome⟩
  · rw [if_neg hslice]
    exact ⟨(vfReset_done s n).flrClear,
      fun _ => ⟨flrClear_flrBusy _ n, scrubOf_active _ n, scrubOf_kind _ n, scrubOf_vf _ h63⟩⟩

/-! ### PF0_FLR (R119, R159) -/

/-- Bytes of a cleared range read 0. -/
theorem exmBytes_of_cleared {a len b m : Nat} (hmem : t.exm.mem = fclear s.exm.mem a (a + len)) (hlo : a ≤ b)
    (hhi : b + m ≤ a + len) : t.exmBytes b m = List.replicate m 0 := by
  refine List.eq_replicate_iff.mpr ⟨by simp [State.exmBytes], fun x hx => ?_⟩
  obtain ⟨i, hi, rfl⟩ := List.mem_map.mp hx
  have hin : a ≤ b + i ∧ b + i < a + len := by have := List.mem_range.mp hi; omega
  rw [hmem, fget_fclear, if_pos hin]

/-- A slot of zeros is IDLE (Table 04-9). -/
theorem slotState_of_zero {k : Nat} (hzero : t.exmBytes (slotAddr k + 56) 8 = List.replicate 8 0) : t.slotState k = 0 := by
  unfold State.slotState State.trigger State.exmLe
  rw [hzero]; rfl

@[simp] theorem pf0D0_exm (s : State) : s.pf0D0.exm = s.exm := by unfold State.pf0D0; split <;> rfl
@[simp] theorem pf0D0_pci (s : State) : s.pf0D0.pci = s.pci := by unfold State.pf0D0; split <;> rfl

/-- PF0 reset and back in D0, slot 0 zeroed. -/
def State.pf0Reset (s : State) : State := ((s.exmZero (slotAddr 0) 64).fnReset 0).pf0D0

/-- The SR-IOV controls and PF0's BARs at their reset values. -/
def State.sriovReset (s : State) : State :=
  { s with pci := { s.pci with
      numVfs := 0, vfEnable := false, vfMse := false, vfBar0 := 0, vfBar2 := 0, bar0 := 0, bar2 := 0 } }

theorem exec_pf0Flr (hready : s.boot.configReady = true) (hon : s.pwr.mode = .on) :
    exec .pf0Flr s = .next s.pf0Reset.sriovReset :=
  congrArg Host.Outcome.next (if_neg (by simp [hready, hon]))

theorem pf0Reset_mem (s : State) : s.pf0Reset.exm.mem = fclear s.exm.mem (slotAddr 0) (slotAddr 0 + 64) :=
  congrArg Exchange.mem (pf0D0_exm _)

theorem pf0Reset_busMaster (s : State) : s.pf0Reset.pci.busMaster = putBit s.pci.busMaster 0 false :=
  congrArg Pcie.busMaster (pf0D0_pci _)

theorem pf0Flr_onlyIn (s : State) : OnlyIn [.pwr, .exm, .exmMem, .pci] s s.pf0Reset.sriovReset := by
  have hzero := exmZero_kept (P := 1073741888) (Kept.refl s) (slotAddr 0) 64 (by decide)
  have hsriov : Kept 8388608 s.pf0Reset s.pf0Reset.sriovReset := Kept.set_pci (Kept.refl _) _ (by decide)
  exact (hzero.onlyIn (fun p => by cases p <;> decide)).trans
    (((fnReset_keeps _ 0).onlyIn (fun p => by cases p <;> decide)).trans
      (((pf0D0_onlyIn _).mono (by decide)).trans (hsriov.onlyIn (fun p => by cases p <;> decide))))

theorem pf0Flr_ends (hready : s.boot.configReady = true) (hon : s.pwr.mode = .on) : Ends .pf0Flr s (fun t =>
    t.slotState 0 = 0 ∧ t.exmBytes (slotAddr 0) 64 = List.replicate 64 0 ∧ t.pwr.pf0D3 = false ∧
    (∀ k, tst t.pci.busMaster k = (if k = 0 then false else tst s.pci.busMaster k)) ∧
    t.pci.numVfs = 0 ∧ t.pci.vfEnable = false ∧ OnlyIn [.pwr, .exm, .exmMem, .pci] s t) := by
  have hmem : s.pf0Reset.sriovReset.exm.mem = _ := pf0Reset_mem s
  refine ⟨_, exec_pf0Flr hready hon, slotState_of_zero (exmBytes_of_cleared hmem (by omega) (by omega)),
    exmBytes_of_cleared hmem (Nat.le_refl _) (Nat.le_refl _), pf0D0_pf0D3 _, fun k => ?_, rfl, rfl, pf0Flr_onlyIn s⟩
  show tst s.pf0Reset.pci.busMaster k = _
  rw [pf0Reset_busMaster, tst_putBit]

/-! ### The end of a clearing (R276 to R278) -/

theorem setSlice_slice (s : State) (n m st : Nat) : (s.setSlice m st).slice n = s.slice n :=
  slice_congr ((setSlice_kept (P := 67108929) s m st (Kept.refl s) (by decide)).slices (by decide)) n

theorem finishSliceMem_slice (s : State) (n m : Nat) : (s.finishSliceMem m).slice n = s.slice n :=
  slice_congr ((finishSliceMem_kept (P := 6442516480) s m (Kept.refl s) (by decide)).slices (by decide)) n

theorem clearVfExchange_slice (s : State) (n m : Nat) : (s.clearVfExchange m).slice n = s.slice n :=
  slice_congr ((clearVfExchange_kept (P := 1073741888) s m (Kept.refl s) (by decide)).slices (by decide)) n

theorem clearSliceMem_clearing (s : State) (n : Nat) : ((s.clearSliceMem n).slice n).clearing = (s.slice n).clearing := by
  unfold State.clearSliceMem
  dsimp only
  rw [slice_modSlice_self]; rfl

theorem clearData_clearing (s : State) (n : Nat) : ((s.clearData n).slice n).clearing = (s.slice n).clearing := by
  unfold State.clearData State.zeroSlice
  rw [slice_modSlice_self, clearVfExchange_slice, finishSliceMem_slice, clearSliceMem_clearing]

/-- The end of a clearing takes its bit from the slice's clearings and leaves the others. -/
theorem clearEnd_clearing (s : State) (n b : Nat) :
    ((s.clearEnd n b).slice n).clearing = putBit (s.slice n).clearing b false := by
  have hdone : (((s.clearData n).modSlice n (fun x => { x with clearing := putBit x.clearing b false })).slice n).clearing =
      putBit (s.slice n).clearing b false := by rw [slice_modSlice_self, clearData_clearing]
  unfold State.clearEnd
  dsimp only
  split
  · rw [setSlice_slice, hdone]
  · exact hdone

/-- One clearing of the slice ends, if it is among those of `c`. -/
def State.clearEndIf (n c : Nat) (s : State) (b : Nat) : State := if tst c b then s.clearEnd n b else s

/-- The clearings of VF `n`'s slice, all but a reset job's, end. -/
def State.clearingsEnd (s : State) (n : Nat) : State :=
  let c := (s.slice n).clearing
  let s1 := [1, 2].foldl (State.clearEndIf n c) s
  if tst c 3 then s1.finishSliceMem n else s1

/-- The slice when its FLR and its destruction are over and the clearing bit of the latter is clear. -/
def Slice.cleared (x : Slice) : Slice := { x with flrBusy := false, gone := none, clearing := putBit x.clearing 3 false }

theorem exec_sliceClearComplete (h1 : 1 ≤ n) (h63 : n ≤ 63) (hclear : (s.slice n).clearing / 2 % 8 ≠ 0)
    (hten : s.fld F.SLC_TEN_STATUS_STATE ≠ 3) (hrun : s.frozen = false) : exec (.sliceClearComplete n) s =
      .next (((s.clearingsEnd n).modSlice n Slice.cleared).setFld F.SLC_SCRUB_ACTIVE 0) := by
  have hgo : ¬ (n = 0 || 63 < n || (s.slice n).clearing / 2 % 8 = 0 || s.tenancy = 3 || s.frozen) = true := by
    simp [State.tenancy, hclear, hten, hrun]; omega
  exact if_neg hgo

theorem exec_sliceClearComplete_none (hnone : (s.slice n).clearing / 2 % 8 = 0) :
    exec (.sliceClearComplete n) s = .next s := if_pos (by simp [hnone])

theorem clearEndIf_clearing (s : State) (n c b k : Nat) : tst ((State.clearEndIf n c s b).slice n).clearing k =
    if k = b ∧ tst c b = true then false else tst (s.slice n).clearing k := by
  unfold State.clearEndIf
  by_cases hb : tst c b = true
  · simp [hb, clearEnd_clearing, tst_putBit]
  · simp [hb]

/-- Neither an FLR's clearing (bit 1) nor a TDI's (bit 2) runs any more. -/
theorem clearingsEnd_clearing (s : State) (n : Nat) : tst ((s.clearingsEnd n).slice n).clearing 1 = false ∧
    tst ((s.clearingsEnd n).slice n).clearing 2 = false := by
  have hslice : (s.clearingsEnd n).slice n =
      (State.clearEndIf n (s.slice n).clearing (State.clearEndIf n (s.slice n).clearing s 1) 2).slice n := by
    unfold State.clearingsEnd
    dsimp only
    split
    · exact finishSliceMem_slice _ n n
    · rfl
  simp [hslice, clearEndIf_clearing]

/-- The clearings that SLICE_CLEAR_COMPLETE ends are bits 1 to 3. -/
theorem clearings_none {c : Nat} (h1 : tst c 1 = false) (h2 : tst c 2 = false) (h3 : tst c 3 = false) : c / 2 % 8 = 0 := by
  simp only [tst, bitOf, beq_eq_false_iff_ne] at h1 h2 h3
  omega

theorem sliceClearComplete_ends (h1 : 1 ≤ n) (h63 : n ≤ 63) (hclear : (s.slice n).clearing / 2 % 8 ≠ 0)
    (hten : s.fld F.SLC_TEN_STATUS_STATE ≠ 3) (hrun : s.frozen = false) : Ends (.sliceClearComplete n) s (fun t =>
      (t.slice n).clearing / 2 % 8 = 0 ∧ (t.slice n).flrBusy = false ∧ (t.slice n).gone = none ∧
      t.fld F.SLC_SCRUB_ACTIVE = 0 ∧ OnlyIn [.regs, .exm, .exmMem, .slices, .mem, .cmn, .hbm, .out] s t) := by
  have hexec := exec_sliceClearComplete h1 h63 hclear hten hrun
  have hkept : Kept 7583383617 s _ := (execSliceClearComplete_kept n s (Kept.refl s) (by decide)).kept hexec
  have hslice : ((((s.clearingsEnd n).modSlice n Slice.cleared).setFld F.SLC_SCRUB_ACTIVE 0)).slice n =
      ((s.clearingsEnd n).slice n).cleared := (setFld_slice ..).trans (slice_modSlice_self _ n _)
  obtain ⟨hflr, htdi⟩ := clearingsEnd_clearing s n
  refine ⟨_, hexec, ?_, ?_, ?_, fld_setFld_zero _ (by decide) (by decide), hkept.onlyIn (fun p => by cases p <;> decide)⟩
  · rw [hslice]
    exact clearings_none (by simp [Slice.cleared, tst_putBit, hflr]) (by simp [Slice.cleared, tst_putBit, htdi])
      (by simp [Slice.cleared, tst_putBit])
  · rw [hslice]; rfl
  · rw [hslice]; rfl

/-- Settles O22: a VF's reset writes its PCIe state and queues before the clearing, which leaves both; PF0's zeroes slot 0;
and the end of the clearings takes their three bits. -/
theorem functionResets : Obligations.FunctionResets := by
  refine ⟨fun n s h1 h63 hready hon hidle => ?_, fun _ _ hbusy => exec_vfFlr_busy hbusy,
    fun _ hready hon => pf0Flr_ends hready hon,
    fun _ _ h1 h63 hclear hten hrun => sliceClearComplete_ends h1 h63 hclear hten hrun,
    fun _ _ hnone => exec_sliceClearComplete_none hnone⟩
  obtain ⟨t, hexec, hdone, hscrub⟩ := vfFlr_ends h1 h63 hready hon hidle
  exact ⟨t, hexec, hdone.busMaster, hdone.memEnable, hdone.msixEnable, hdone.vfD3, hdone.cmds, hscrub, hdone.parts⟩

end Sys2Proof.Machine
end

section
/-! SUPPORT. Which registers an operation leaves: the rules, and the recorder (chapter 21), whose logs, flush and mount
write no register outside its own block and the freeze controller's. -/

namespace Sys2Proof.Machine

variable {P : Nat} {A : Nat → Prop} {s t u : State}

/-! ### Registers kept -/

/-- Every register with an address in `A` reads in `t` what it reads in `s`. -/
def KeepsRegs (A : Nat → Prop) (s t : State) : Prop := ∀ a, A a → t.reg a = s.reg a

/-- The addresses outside the recorder's block and the freeze controller's. -/
abbrev OffRecorder (a : Nat) : Prop := a < 0x980000 ∨ 0xA10000 ≤ a

theorem KeepsRegs.refl (s : State) : KeepsRegs A s s := fun _ _ => rfl

theorem KeepsRegs.trans (h : KeepsRegs A s t) (k : KeepsRegs A t u) : KeepsRegs A s u :=
  fun a ha => (k a ha).trans (h a ha)

theorem KeepsRegs.mono {B : Nat → Prop} (h : KeepsRegs A s t) (hBA : ∀ a, B a → A a) : KeepsRegs B s t :=
  fun a ha => h a (hBA a ha)

theorem KeepsRegs.fld (h : KeepsRegs A s t) {f : Fld} (hf : A f.addr) : t.fld f = s.fld f := by
  unfold State.fld; rw [h _ hf]

theorem KeepsRegs.of_regs (h : KeepsRegs A s t) (hu : u.regs = t.regs) : KeepsRegs A s u :=
  fun a ha => (show u.reg a = t.reg a by unfold State.reg; rw [hu]).trans (h a ha)

theorem Kept.regs_eq (h : Kept P s t) (hP : P.testBit Part.regs.bit = false) : t.regs = s.regs := h.parts .regs hP

theorem KeepsRegs.setReg (h : KeepsRegs A s t) {a : Nat} (ha : ¬ A a) (v : Word) : KeepsRegs A s (t.setReg a v) :=
  h.trans fun b hb => reg_setReg_ne t a b v (fun hba => ha (hba ▸ hb))

theorem KeepsRegs.setFld (h : KeepsRegs A s t) {f : Fld} (hf : ¬ A f.addr) (v : Nat) : KeepsRegs A s (t.setFld f v) :=
  h.setReg hf _

theorem KeepsRegs.setBit (h : KeepsRegs A s t) {f : Fld} (hf : ¬ A f.addr) (v : Bool) : KeepsRegs A s (t.setBit f v) :=
  h.setReg hf _

theorem KeepsRegs.addFld (h : KeepsRegs A s t) {f : Fld} (hf : ¬ A f.addr) (n : Nat) : KeepsRegs A s (t.addFld f n) :=
  h.setReg hf _

theorem KeepsRegs.bump (h : KeepsRegs A s t) {f : Fld} (hf : ¬ A f.addr) : KeepsRegs A s (t.bump f) := h.setReg hf _

theorem KeepsRegs.setPair (h : KeepsRegs A s t) {lo hi : Nat} (hlo : ¬ A lo) (hhi : ¬ A hi) (v : Nat) :
    KeepsRegs A s (t.setPair lo hi v) := (h.setReg hlo _).setReg hhi _

theorem KeepsRegs.set_evr (h : KeepsRegs A s t) (x : Recorder) : KeepsRegs A s { t with evr := x } := h
theorem KeepsRegs.set_boot (h : KeepsRegs A s t) (x : Boot) : KeepsRegs A s { t with boot := x } := h
theorem KeepsRegs.set_tick (h : KeepsRegs A s t) (x : Tick) : KeepsRegs A s { t with tick := x } := h

theorem KeepsRegs.emit (h : KeepsRegs A s t) (o : Output) : KeepsRegs A s (t.emit o) := h
theorem KeepsRegs.drawn (h : KeepsRegs A s t) : KeepsRegs A s t.drawn := h

theorem KeepsRegs.norProgram (h : KeepsRegs A s t) (a : Nat) (bs : List Byte) : KeepsRegs A s (t.norProgram a bs) :=
  h.of_regs rfl

theorem KeepsRegs.log (h : KeepsRegs A s t) (hA : ∀ a, A a → OffRecorder a) (c v f w a x : Nat) :
    KeepsRegs A s (t.log c v f w a x) := h.trans fun b hb => log_reg t c v f w a x b (hA b hb)

theorem keepsRegs_ite {c : Prop} [Decidable c] {a b : State} (ha : KeepsRegs A s a) (hb : KeepsRegs A s b) :
    KeepsRegs A s (if c then a else b) := by split <;> assumption

theorem keepsRegs_foldl {β : Type} {g : State → β → State} (hg : ∀ u b, KeepsRegs A u (g u b)) (l : List β)
    (s : State) : KeepsRegs A s (l.foldl g s) := by
  induction l generalizing s with
  | nil => exact KeepsRegs.refl s
  | cons b l ih => exact (hg s b).trans (ih _)

/-- The same field written in both leaves them equal where they were. -/
theorem KeepsRegs.setFld_both (h : KeepsRegs A s t) (f : Fld) (v : Nat) : KeepsRegs A (s.setFld f v) (t.setFld f v) := by
  intro a ha
  by_cases haf : a = f.addr
  · subst haf
    unfold State.setFld
    rw [reg_setReg_self, reg_setReg_self, h _ ha]
  · rw [reg_setFld_ne t f v a haf, reg_setFld_ne s f v a haf, h a ha]

/-! ### The logs (R712 to R714, R722 to R725) -/

theorem takeSeq_keepsRegs (s : State) : KeepsRegs OffRecorder s s.takeSeq := (KeepsRegs.refl s).setReg (by decide) _

theorem markBad_keepsRegs (s : State) (log i : Nat) (erase : Bool) : KeepsRegs OffRecorder s (s.markBad log i erase) := by
  unfold State.markBad
  exact (((KeepsRegs.refl s).norProgram _ _).bump (by decide)).log (fun _ h => h) _ _ _ _ _ _

theorem slotAfter_keepsRegs (log n i : Nat) (s : State) : KeepsRegs OffRecorder s (slotAfter log n i s).1 := by
  induction n generalizing i s with
  | zero => exact KeepsRegs.refl s
  | succ n ih =>
    rw [slotAfter]
    dsimp only
    split
    · exact KeepsRegs.refl s
    · split
      · split
        · exact KeepsRegs.refl s
        · exact (markBad_keepsRegs s log _ false).trans (ih _ _)
      · exact ih _ _

theorem setLogPos_keepsRegs (s : State) (log i : Nat) : KeepsRegs OffRecorder s (s.setLogPos log i) := by
  unfold State.setLogPos
  split
  · exact (KeepsRegs.refl s).setFld (by decide) _
  · exact ((KeepsRegs.refl s).set_evr _).setFld (by decide) _

theorem putHeader_keepsRegs (s : State) (log i : Nat) : KeepsRegs OffRecorder s (s.putHeader log i) := by
  unfold State.putHeader
  exact (((takeSeq_keepsRegs s).bump (by decide)).norProgram _ _).set_evr _

theorem putUnit_keepsRegs (s : State) (log : Nat) (bytes : List Byte) : KeepsRegs OffRecorder s (s.putUnit log bytes).1 := by
  have hfound := slotAfter_keepsRegs log 512 (s.logPos log) s
  unfold State.putUnit
  split
  next s1 heq => rw [heq] at hfound; exact hfound
  next s1 i heq =>
    rw [heq] at hfound
    dsimp only
    split
    · have hhead := (hfound.trans (putHeader_keepsRegs s1 log i)).trans (setLogPos_keepsRegs _ log (i + 1))
      have hnext := hhead.trans (slotAfter_keepsRegs log 512 (i + 1) _)
      split
      next s3 heq3 => rw [heq3] at hnext; exact hnext
      next s3 k heq3 =>
        rw [heq3] at hnext
        exact (hnext.norProgram _ _).trans (setLogPos_keepsRegs _ log (k + 1))
    · exact (hfound.norProgram _ _).trans (setLogPos_keepsRegs _ log (i + 1))

theorem ffFull_keepsRegs (s : State) : KeepsRegs OffRecorder s s.ffFull := by
  unfold State.ffFull State.recNotice
  exact (((((KeepsRegs.refl s).set_evr _).setFld (by decide) _).setFld (by decide) _).addFld (by decide) _).log
    (fun _ h => h) _ _ _ _ _ _ |>.set_evr _

theorem drainUnits_keepsRegs (log : Nat) (flush : Bool) (n : Nat) (s : State) :
    KeepsRegs OffRecorder s (drainUnits log flush n s) := by
  induction n generalizing s with
  | zero => exact KeepsRegs.refl s
  | succ n ih =>
    rw [drainUnits]
    split
    next => exact KeepsRegs.refl s
    next b _ =>
      split
      · exact KeepsRegs.refl s
      · have hput := putUnit_keepsRegs s log (b.unit log)
        split
        next s1 heq =>
          rw [heq] at hput
          split
          · exact hput.trans (ffFull_keepsRegs s1)
          · exact hput
        next s1 heq =>
          rw [heq] at hput
          exact keepsRegs_ite (hput.set_evr _) ((hput.set_evr _).trans (ih _))

/-! ### The flush (R730 to R734) -/

theorem putRunEnd_keepsRegs (s : State) (code cause lost : Nat) : KeepsRegs OffRecorder s (s.putRunEnd code cause lost) := by
  have hmade : KeepsRegs OffRecorder s (s.takeSeq.bump F.EVR_CNT_RECORDS_COUNT) :=
    (takeSeq_keepsRegs s).bump (by decide)
  unfold State.putRunEnd
  dsimp only
  refine KeepsRegs.set_evr ?_ _
  split
  · exact hmade.of_regs rfl
  · exact hmade.of_regs rfl

theorem flushRing_keepsRegs (n : Nat) (s : State) (p : Nat) : KeepsRegs OffRecorder s (flushRing n s p).1 := by
  induction n generalizing s p with
  | zero => exact KeepsRegs.refl s
  | succ n ih =>
    rw [flushRing]
    split
    · exact KeepsRegs.refl s
    · exact (drainUnits_keepsRegs 1 true 8 s).trans (ih _ _)

theorem flushFf_keepsRegs (n : Nat) (s : State) (p : Nat) : KeepsRegs OffRecorder s (flushFf n s p) := by
  induction n generalizing s p with
  | zero => exact KeepsRegs.refl s
  | succ n ih =>
    rw [flushFf]
    split
    · exact KeepsRegs.refl s
    · exact (drainUnits_keepsRegs 0 true 8 s).trans (ih _ _)

theorem flush_keepsRegs (s : State) (begin done : Nat) : KeepsRegs OffRecorder s (s.flush begin done) := by
  have hbegin := putRunEnd_keepsRegs s 0x000A begin 0
  unfold State.flush
  split
  · exact KeepsRegs.refl s
  · split
    · exact (hbegin.trans (putRunEnd_keepsRegs _ 0x000B done _)).set_evr _
    · have hring := hbegin.trans (flushRing_keepsRegs 256 _ 0)
      have hff := hring.trans (flushFf_keepsRegs 256 _ (flushRing 256 (s.putRunEnd 0x000A begin 0) 0).2)
      have hcount := (hff.trans (takeSeq_keepsRegs _)).bump (f := F.EVR_CNT_RECORDS_COUNT) (by decide)
      exact ((hcount.trans (putUnit_keepsRegs _ 1 _)).trans (putRunEnd_keepsRegs _ 0x000B done 0)).set_evr _

/-! ### The mount (R727 to R729) -/

theorem findHeader_keepsRegs (log sec n k : Nat) (s : State) : KeepsRegs OffRecorder s (findHeader log sec n k s).1 := by
  induction n generalizing k s with
  | zero => exact KeepsRegs.refl s
  | succ n ih =>
    rw [findHeader]
    split
    · exact ih _ _
    · split
      · exact KeepsRegs.refl s
      · split
        · exact KeepsRegs.refl s
        · exact (markBad_keepsRegs s log _ false).trans (ih _ _)

theorem scanSectors_keepsRegs (log : Nat) (secs : List Nat) (s : State) (m : MountScan) :
    KeepsRegs OffRecorder s (scanSectors log secs s m).1 := by
  induction secs generalizing s m with
  | nil => exact KeepsRegs.refl s
  | cons c secs ih =>
    have hfound := findHeader_keepsRegs log c 128 0 s
    rw [scanSectors]
    split
    next s1 heq => rw [heq] at hfound; exact hfound.trans (ih _ _)
    next s1 b heq => rw [heq] at hfound; exact hfound.trans (ih _ _)

theorem mountCold_keepsRegs (s : State) : KeepsRegs OffRecorder s s.mountCold := by
  have hff := scanSectors_keepsRegs 0 (s.usedSectors 0) s ⟨none, none⟩
  have hring := hff.trans (scanSectors_keepsRegs 1
    ((scanSectors 0 (s.usedSectors 0) s ⟨none, none⟩).1.usedSectors 1) _ ⟨none, none⟩)
  unfold State.mountCold
  extract_lets +onlyGivenNames f r s1 ffPos rgPos sec margin top next recorder s2 s3 s4 cause s5
  have hfound : KeepsRegs OffRecorder s s2 := KeepsRegs.set_evr (t := s1) hring _
  have hpos : KeepsRegs OffRecorder s s3 := ((hfound.setReg (by decide) _).setFld (by decide) _).setFld (by decide) _
  have hflush : KeepsRegs OffRecorder s s5 :=
    (((hpos.setFld (by decide) _).setFld (by decide) _).setFld (by decide) _).drawn
  exact (hflush.setFld (by decide) _).log (fun _ h => h) _ _ _ _ _ _

theorem mount_keepsRegs (s : State) : KeepsRegs OffRecorder s s.mount := by
  unfold State.mount
  split
  · exact (KeepsRegs.refl s).log (fun _ h => h) _ _ _ _ _ _
  · exact mountCold_keepsRegs s

end Sys2Proof.Machine
end

section
/-! SUPPORT. The start of the boot sequencer (R88, R97, R107): the registers it marks, and that the fence entries and the
boot entry it writes leave every other. -/

namespace Sys2Proof.Machine

variable {A : Nat → Prop} {s t : State}

/-! ### The fence list and the begin of a step -/

theorem putFence_regs (s : State) (kind source unit step count event : Nat) :
    (s.putFence kind source unit step count event).regs = s.regs :=
  (putFence_kept (P := 1024) s kind source unit step count event (Kept.refl s) (by decide)).regs_eq (by decide)

theorem KeepsRegs.appendFence (h : KeepsRegs A s t) (hA : ¬ A R.BOOT_FENCE_COUNT)
    (kind source unit step count event : Nat) : KeepsRegs A s (t.appendFence kind source unit step count event) := by
  unfold State.appendFence State.fenceCount
  exact (h.of_regs (putFence_regs t kind source unit step count event)).setFld hA _

theorem beginStep_regs (s : State) (n : Nat) : (s.beginStep n).regs = (s.setFld F.BOOT_STATUS_STEP n).regs := by
  unfold State.beginStep
  dsimp only
  split <;> rfl

/-! ### The start of the boot sequencer (R88, R97) -/

/-- The addresses outside the recorder, the freeze controller and BOOT_FENCE_COUNT. -/
abbrev OffFence (a : Nat) : Prop := OffRecorder a ∧ a ≠ R.BOOT_FENCE_COUNT

theorem appendDue_keepsRegs (s : State) (k : Known) : KeepsRegs OffFence s (s.appendDue k) := by
  unfold State.appendDue
  split
  · exact KeepsRegs.refl s
  · exact keepsRegs_foldl (fun u _ =>
      ((KeepsRegs.refl u).appendFence (by decide) _ _ _ _ _ _).log (fun _ h => h.1) _ _ _ _ _ _) _ _

/-- BOOT_STATUS and BOOT_SEQ as the start writes them, before any entry of it is programmed. -/
def State.startMarked (s : State) (kind nor : Nat) : State :=
  let k := s.known nor
  let seq := match k.entry with | some x => (leAt x.2 4 4 + 1) % 2 ^ 32 | none => 0
  let blind := k.entry.isNone && (!k.listRead || s.activeHalf.isNone)
  let unread := !k.listRead && k.entry.isSome
  ((((s.setFld F.BOOT_STATUS_START_KIND kind).setFld F.BOOT_STATUS_LAST_CAUSE k.cause).setBit
    F.BOOT_STATUS_NO_HISTORY blind).setBit F.BOOT_STATUS_FENCE_UNREAD unread).setReg R.BOOT_SEQ (BitVec.ofNat 32 seq)

theorem startMarked_keepsRegs (hstatus : ¬ A R.BOOT_STATUS) (hseq : ¬ A R.BOOT_SEQ) (s : State) (kind nor : Nat) :
    KeepsRegs A s (s.startMarked kind nor) :=
  ((((((KeepsRegs.refl s).setFld hstatus _).setFld hstatus _).setBit hstatus _).setBit hstatus _).setReg hseq _)

theorem startMarked_kind (s : State) (kind nor : Nat) :
    (s.startMarked kind nor).fld F.BOOT_STATUS_START_KIND = kind % 4 := by
  unfold State.startMarked State.setBit
  dsimp only
  rw [fld_setReg_ne _ _ _ _ (by decide),
    fld_setFld_disjoint _ F.BOOT_STATUS_FENCE_UNREAD F.BOOT_STATUS_START_KIND _ rfl (by decide) (by decide) (by decide),
    fld_setFld_disjoint _ F.BOOT_STATUS_NO_HISTORY F.BOOT_STATUS_START_KIND _ rfl (by decide) (by decide) (by decide),
    fld_setFld_disjoint _ F.BOOT_STATUS_LAST_CAUSE F.BOOT_STATUS_START_KIND _ rfl (by decide) (by decide) (by decide),
    fld_setFld_self _ _ _ (by decide) (by decide)]; rfl

theorem placeEntry_regs (n i : Nat) (s : State) : (State.placeEntry n i s).1.regs = s.regs :=
  (placeEntry_kept (P := 1024) n i s (Kept.refl s) (by decide)).fst.regs_eq (by decide)

theorem programEntry_regs (s : State) (at_ : Nat) (hdr ctrs : List Byte) : (s.programEntry at_ hdr ctrs).regs = s.regs :=
  (programEntry_kept (P := 1024) s at_ hdr ctrs (Kept.refl s) (by decide)).regs_eq (by decide)

/-- Outside `OffFence`'s exceptions the registers that a start leaves are those marked, with STEP 1. -/
theorem bootStart_keepsRegs (s : State) (kind nor : Nat) :
    KeepsRegs OffFence ((s.startMarked kind nor).setFld F.BOOT_STATUS_STEP 1) (s.bootStart kind nor) := by
  unfold State.bootStart
  extract_lets +onlyGivenNames k seq blind unread ctrs s1 s2 r at_ s3 boot s4 s5
  have hslot : r.1.regs = s2.regs := by
    by_cases hnor : tst nor 0 = true
    · simp [r, hnor]
    · simp [r, hnor, placeEntry_regs]
  have hentry : s3.regs = s2.regs := by
    by_cases hnor : tst nor 0 = true
    · simp [s3, hnor, hslot]
    · simp [s3, hnor, programEntry_regs, hslot]
  have hplaced : KeepsRegs OffFence (s.startMarked kind nor) s3 := (KeepsRegs.refl (s.startMarked kind nor)).of_regs hentry
  have hdue := (hplaced.set_boot (t := s3) _).trans (appendDue_keepsRegs s4 k)
  have hbegun : KeepsRegs OffFence ((s.startMarked kind nor).setFld F.BOOT_STATUS_STEP 1) s5 :=
    (hdue.setFld_both F.BOOT_STATUS_STEP 1).of_regs (beginStep_regs _ 1)
  exact keepsRegs_ite (hbegun.setFld (by decide) _) hbegun

theorem bootStart_kind (s : State) (kind nor : Nat) : (s.bootStart kind nor).fld F.BOOT_STATUS_START_KIND = kind % 4 := by
  rw [(bootStart_keepsRegs s kind nor).fld (by decide),
    fld_setFld_disjoint _ F.BOOT_STATUS_STEP F.BOOT_STATUS_START_KIND _ rfl (by decide) (by decide) (by decide),
    startMarked_kind]

theorem bootStart_step (s : State) (kind nor : Nat) : (s.bootStart kind nor).fld F.BOOT_STATUS_STEP = 1 :=
  ((bootStart_keepsRegs s kind nor).fld (by decide)).trans (fld_setFld_self _ _ _ (by decide) (by decide))

/-- A start leaves every register but its own and the recorder's. -/
theorem bootStart_reg (s : State) (kind nor : Nat) {a : Nat} (ha : OffFence a) (hstatus : a ≠ R.BOOT_STATUS)
    (hseq : a ≠ R.BOOT_SEQ) : (s.bootStart kind nor).reg a = s.reg a := by
  rw [bootStart_keepsRegs s kind nor a ha, reg_setFld_ne _ _ _ _ hstatus]
  exact startMarked_keepsRegs (A := (· = a)) (Ne.symm hstatus) (Ne.symm hseq) s kind nor a rfl

theorem bootStart_keeps (s : State) (kind nor : Nat) : Kept 872418961 s (s.bootStart kind nor) :=
  bootStart_kept s kind nor (Kept.refl s) (by decide)

end Sys2Proof.Machine
end

section
/-! SUPPORT. Warm resets (R95, R114, R115): what the registers and the power state hold from the reset to the begin of
step 1. -/

namespace Sys2Proof.Machine

variable {P : Nat} {s t : State}

/-! ### From the reset to the start -/

/-- The registers of the tick unit and the calendar, and ID_POSITION (R37, R95). -/
abbrev TickKept (a : Nat) : Prop := a = R.ID_POSITION ∨ (0x40000 ≤ a ∧ a < 0x60000)

theorem tickKept_offRecorder {a : Nat} (h : TickKept a) : OffRecorder a := by
  rcases h with rfl | h
  · decide
  · exact .inl (by omega)

theorem notify_regs (s : State) (fn vec : Nat) : (s.notify fn vec).regs = s.regs :=
  (notify_kept (P := 67108928) s fn vec (Kept.refl s) (by decide)).regs_eq (by decide)

theorem vfEvent_keepsTick (s : State) (n b : Nat) : KeepsRegs TickKept s (s.vfEvent n b) := by
  have haddr : ¬ TickKept (R.QIF_VF_EVENT n) := by simp only [TickKept, R.QIF_VF_EVENT, R.ID_POSITION]; omega
  unfold State.vfEvent
  exact keepsRegs_ite (KeepsRegs.refl s)
    (((KeepsRegs.refl s).setFld (f := ⟨R.QIF_VF_EVENT n, b, b⟩) haddr 1).of_regs (notify_regs _ n 1))

theorem setSlice_keepsTick (s : State) (n st : Nat) : KeepsRegs TickKept s (s.setSlice n st) := by
  have haddr : ¬ TickKept (R.SLC_S_STATE n) := by simp only [TickKept, R.SLC_S_STATE, R.ID_POSITION]; omega
  unfold State.setSlice
  exact keepsRegs_ite (KeepsRegs.refl s)
    (((KeepsRegs.refl s).setFld (f := F.SLC_S_STATE_STATE n) haddr st).trans (vfEvent_keepsTick _ n 1))

theorem cancelChange_keepsTick (s : State) (log : Bool) (c : Change) : KeepsRegs TickKept s (s.cancelChange log c) := by
  have hlo : ¬ TickKept (R.SLC_S_PENDING_LO c.vf) := by
    simp only [TickKept, R.SLC_S_PENDING_LO, R.ID_POSITION]; omega
  have hhi : ¬ TickKept (R.SLC_S_PENDING_HI c.vf) := by
    simp only [TickKept, R.SLC_S_PENDING_HI, R.ID_POSITION]; omega
  have hpend := (KeepsRegs.refl s).setPair hlo hhi 0
  unfold State.cancelChange
  extract_lets +onlyGivenNames s3 s2
  have hdropped : KeepsRegs TickKept s s2 := by
    refine keepsRegs_ite (((KeepsRegs.refl s).setFld (by decide) _).setPair (by decide) (by decide) _) ?_
    exact keepsRegs_ite (hpend.trans (setSlice_keepsTick _ _ _)) (keepsRegs_ite (hpend.trans (setSlice_keepsTick _ _ _))
      (keepsRegs_ite (hpend.trans (setSlice_keepsTick _ _ _)) (hpend.of_regs rfl)))
  exact keepsRegs_ite (hdropped.log (fun _ => tickKept_offRecorder) _ _ _ _ _ _) hdropped

theorem dropChanges_keepsTick (s : State) (log : Bool) : KeepsRegs TickKept s (s.dropChanges log) := by
  unfold State.dropChanges
  exact (keepsRegs_foldl (fun u c => cancelChange_keepsTick u log c) _ s).of_regs rfl

/-- The part as a warm reset finds it: changes cancelled, an ended tenancy and an ended freeze logged, erases cut short,
the recorder flushed (R115, R116, R178, R729). -/
def State.runEnded (s : State) (cause : Nat) : State :=
  let id := s.fld F.SLC_TEN_ID_TENANCY_ID
  let s1 := s.dropChanges true
  let s2 := if s1.tenancy = 0 then s1 else s1.log 0x0303 3 0 0xFFFF 0 id
  let s3 := if s.frozen then s2.log 0x0304 3 0 0xFFFF 0 id else s2
  s3.cutErases.flush cause cause

theorem warmReset_eq (s : State) (kind cause nor : Nat) :
    s.warmReset kind cause nor = (s.runEnded cause).warmed.bootStart kind nor := rfl

theorem cutErases_regs (s : State) : s.cutErases.regs = s.regs :=
  (cutErases_kept (P := 1024) s (Kept.refl s) (by decide)).regs_eq (by decide)

theorem runEnded_keepsTick (s : State) (cause : Nat) : KeepsRegs TickKept s (s.runEnded cause) := by
  unfold State.runEnded
  extract_lets id s1 s2 s3
  have hdropped : KeepsRegs TickKept s s1 := dropChanges_keepsTick s true
  have htenancy : KeepsRegs TickKept s s2 :=
    keepsRegs_ite hdropped (hdropped.log (fun _ => tickKept_offRecorder) _ _ _ _ _ _)
  have hfreeze : KeepsRegs TickKept s s3 :=
    keepsRegs_ite (htenancy.log (fun _ => tickKept_offRecorder) _ _ _ _ _ _) htenancy
  exact (hfreeze.of_regs (cutErases_regs s3)).trans
    ((flush_keepsRegs _ cause cause).mono (fun _ => tickKept_offRecorder))

theorem runEnded_keeps (s : State) (cause : Nat) : Kept 872439489 s (s.runEnded cause) := by
  unfold State.runEnded
  extract_lets id s1 s2 s3
  have hdropped : Kept 872439489 s s1 := dropChanges_kept s true (Kept.refl s) (by decide)
  have htenancy : Kept 872439489 s s2 := kept_ite hdropped (log_kept _ _ _ _ _ _ _ hdropped (by decide))
  have hfreeze : Kept 872439489 s s3 := kept_ite (log_kept _ _ _ _ _ _ _ htenancy (by decide)) htenancy
  exact flush_kept _ cause cause (cutErases_kept s3 hfreeze (by decide)) (by decide)

/-! ### What the reset keeps (Table 03-6) -/

theorem fget_filter_key {α : Type} (d : Nat → α) (p : Nat → Bool) (m : FMap α) (k : Nat) :
    fget d (m.filter (fun e => p e.1)) k = if p k then fget d m k else d k := by
  induction m with
  | nil => simp [fget]
  | cons e m ih =>
    obtain ⟨j, v⟩ := e
    by_cases hjk : j = k
    · subst hjk
      by_cases hp : p j = true <;> simp [fget, hp, ih]
    · by_cases hp : p j = true <;> simp [fget, hp, hjk, ih]

theorem warmed_reg (s : State) {a : Nat} (ha : a ≠ R.EVR_STATUS) :
    s.warmed.reg a = if keptWarm a then s.reg a else regReset a :=
  (reg_setFld_ne _ _ _ _ ha).trans (fget_filter_key regReset keptWarm s.regs a)

theorem tickKept_keptWarm {a : Nat} (h : TickKept a) : keptWarm a = true := by
  unfold keptWarm
  rcases h with rfl | h
  · rfl
  · simp [h]

theorem warmed_reg_tickKept (s : State) {a : Nat} (ha : TickKept a) : s.warmed.reg a = s.reg a := by
  have hne : a ≠ R.EVR_STATUS := by simp only [R.EVR_STATUS, TickKept, R.ID_POSITION] at ha ⊢; omega
  rw [warmed_reg s hne, if_pos (tickKept_keptWarm ha)]

theorem warmed_tenancy (s : State) : s.warmed.fld F.SLC_TEN_STATUS_STATE = 0 := by
  unfold State.fld
  rw [warmed_reg s (by decide), if_neg (by decide)]
  decide

@[simp] theorem warmed_perst (s : State) : s.warmed.pwr.perst = s.pwr.perst := rfl
@[simp] theorem warmed_slices (s : State) : s.warmed.slices = [] := rfl

theorem warmReset_keepsTick (s : State) (kind cause nor : Nat) : KeepsRegs TickKept s (s.warmReset kind cause nor) := by
  intro a ha
  have hoff : OffFence a ∧ a ≠ R.BOOT_STATUS ∧ a ≠ R.BOOT_SEQ := by
    simp only [OffFence, R.BOOT_FENCE_COUNT, R.BOOT_STATUS, R.BOOT_SEQ, TickKept, R.ID_POSITION] at ha ⊢; omega
  obtain ⟨hfence, hstatus, hseq⟩ := hoff
  calc (s.warmReset kind cause nor).reg a
      = (s.runEnded cause).warmed.reg a := bootStart_reg _ kind nor hfence hstatus hseq
    _ = (s.runEnded cause).reg a := warmed_reg_tickKept _ ha
    _ = s.reg a := runEnded_keepsTick s cause a ha

theorem Kept.perst (h : Kept P s t) (hP : P.testBit Part.pwr.bit = false) : t.pwr.perst = s.pwr.perst :=
  (congrArg Power.perst (h.parts .pwr hP) :)

theorem tickCount_congr (h : KeepsRegs TickKept s t) : t.tickCount = s.tickCount := by
  unfold State.tickCount State.pair
  rw [h R.TCK_COUNT_LO (by decide), h R.TCK_COUNT_HI (by decide)]

/-- What a warm reset of `s` with START_KIND `kind` leaves. -/
structure WarmStarted (kind : Nat) (s t : State) : Prop where
  perst : t.pwr.perst = s.pwr.perst
  kind : t.fld F.BOOT_STATUS_START_KIND = kind
  step : t.fld F.BOOT_STATUS_STEP = 1
  tenancy : t.fld F.SLC_TEN_STATUS_STATE = 0
  slices : t.slices = []
  position : t.reg R.ID_POSITION = s.reg R.ID_POSITION
  count : t.tickCount = s.tickCount
  tick : t.fld F.TCK_STATUS_STATE = s.fld F.TCK_STATUS_STATE
  fused : t.fused = s.fused

theorem warmReset_started (s : State) {kind : Nat} (hkind : kind < 4) (cause nor : Nat) :
    WarmStarted kind s (s.warmReset kind cause nor) where
  perst := ((bootStart_keeps _ kind nor).perst (by decide)).trans ((runEnded_keeps s cause).perst (by decide))
  kind := (bootStart_kind _ kind nor).trans (Nat.mod_eq_of_lt hkind)
  step := bootStart_step _ kind nor
  tenancy := by
    unfold State.fld
    rw [warmReset_eq, bootStart_reg _ kind nor (by decide) (by decide) (by decide)]
    exact warmed_tenancy _
  slices := (bootStart_keeps _ kind nor).slices (by decide)
  position := warmReset_keepsTick s kind cause nor _ (by decide)
  count := tickCount_congr (warmReset_keepsTick s kind cause nor)
  tick := (warmReset_keepsTick s kind cause nor).fld (by decide)
  fused := (warmReset_kept (P := 8405385211) s kind cause nor (Kept.refl s) (by decide)).parts .fused (by decide)

/-! ### The two commands (R114) -/

theorem exec_warmResetPerst_on (nor : Nat) (hon : s.pwr.mode = .on) : exec (.warmResetPerst nor) s =
    .next (({ s with pwr := { s.pwr with perst := true } } : State).warmReset 2 5 nor) :=
  congrArg Host.Outcome.next (if_neg (by simp [hon]))

theorem exec_warmResetHot_on (nor : Nat) (hon : s.pwr.mode = .on) : exec (.warmResetHot nor) s =
    .next (({ s with pwr := { s.pwr with releaseClk := s.clk } } : State).warmReset 3 6 nor) :=
  congrArg Host.Outcome.next (if_neg (by simp [hon]))

theorem exec_warmReset_off (nor : Nat) (hoff : s.pwr.mode ≠ .on) :
    exec (.warmResetPerst nor) s = .next s ∧ exec (.warmResetHot nor) s = .next s :=
  ⟨congrArg Host.Outcome.next (if_pos (by simp [hoff])), congrArg Host.Outcome.next (if_pos (by simp [hoff]))⟩

/-- Settles O9: from the reset to the begin of step 1 nothing writes the tick unit's registers, which the reset keeps. -/
theorem warmResetsKeepTheTick : Obligations.WarmResetsKeepTheTick := by
  refine ⟨fun nor s hon => ?_, fun nor s hon => ?_, fun nor _ hoff => exec_warmReset_off nor hoff⟩
  · have h := warmReset_started { s with pwr := { s.pwr with perst := true } } (kind := 2) (by decide) 5 nor
    exact ⟨_, exec_warmResetPerst_on nor hon, h.perst, h.kind, h.step, h.tenancy, h.slices, h.position, h.count, h.tick,
      h.fused⟩
  · have h := warmReset_started { s with pwr := { s.pwr with releaseClk := s.clk } } (kind := 3) (by decide) 6 nor
    exact ⟨_, exec_warmResetHot_on nor hon, h.perst, h.kind, h.step, h.tenancy, h.slices, h.position, h.count, h.tick,
      h.fused⟩

end Sys2Proof.Machine
end

section
/-! SUPPORT. The end of a boot step (R89, R90, R94, R107, R108): what it records stays in BOOT_OUTCOME, and STEP is the next
step's. -/

namespace Sys2Proof.Machine

variable {P : Nat} {A : Nat → Prop} {s t : State} {n : Nat}

/-! ### The outcome of a step -/

/-- BOOT_OUTCOME_LO and BOOT_OUTCOME_HI. -/
abbrev OutcomeReg (a : Nat) : Prop := a = R.BOOT_OUTCOME_LO ∨ a = R.BOOT_OUTCOME_HI

/-- The outcome registers and BOOT_STATUS. -/
abbrev StepReg (a : Nat) : Prop := a = R.BOOT_STATUS ∨ OutcomeReg a

theorem outcomeReg_congr (h : KeepsRegs OutcomeReg s t) (n : Nat) : t.outcomeReg n = s.outcomeReg n := by
  unfold State.outcomeReg
  rw [h.fld (f := F.BOOT_OUTCOME_HI_STEP9) (by decide), h R.BOOT_OUTCOME_LO (by decide)]

theorem outcomeOf_lt (s : State) (n fails : Nat) : s.outcomeOf n fails < 16 := by
  unfold State.outcomeOf
  extract_lets tried failed
  split
  · split <;> decide
  · split
    · decide
    · split
      · decide
      · split <;> decide

theorem setOutcome_outcomeReg (s : State) (h1 : 1 ≤ n) (h9 : n ≤ 9) {o : Nat} (ho : o < 16) :
    (s.setOutcome n o).outcomeReg n = o := by
  unfold State.outcomeReg State.setOutcome
  by_cases hlast : n = 9
  · rw [if_pos hlast, if_pos hlast, fld_setFld_self _ _ _ (by decide) (by decide)]
    exact Nat.mod_eq_of_lt ho
  · have hwidth : 4 * n - 1 + 1 - (4 * n - 4) = 4 := by omega
    have hfit := setBits_lt (s.reg R.BOOT_OUTCOME_LO).toNat (4 * n - 1) (4 * n - 4) o 32 (by omega) (by omega)
      (BitVec.isLt _)
    rw [if_neg hlast, if_neg hlast, reg_setReg_self, BitVec.toNat_ofNat, Nat.mod_eq_of_lt hfit,
      bitsOf_setBits_self _ _ _ _ (by omega), hwidth]
    exact Nat.mod_eq_of_lt ho

theorem setOutcome_keepsStatus (s : State) (n o : Nat) : KeepsRegs (· = R.BOOT_STATUS) s (s.setOutcome n o) := by
  unfold State.setOutcome
  exact keepsRegs_ite ((KeepsRegs.refl s).setFld (by decide) _) ((KeepsRegs.refl s).setReg (by decide) _)

theorem setOutcome_regs_congr (h : t.regs = s.regs) (n o : Nat) : (t.setOutcome n o).regs = (s.setOutcome n o).regs := by
  unfold State.setOutcome
  by_cases hlast : n = 9 <;> simp [hlast, State.setFld, State.setReg, State.reg, h]

/-! ### What every step leaves (R90, R101 to R103, R107) -/

theorem failUnit_keepsRegs (n crypto : Nat) (s : State) (u : Nat) : KeepsRegs StepReg s (State.failUnit n crypto s u) := by
  have hoff : ∀ a, StepReg a → OffRecorder a := by rintro a (rfl | rfl | rfl) <;> decide
  unfold State.failUnit
  extract_lets +onlyGivenNames s1 s2 c boot s3 fencedBoot s4
  have hlogged : KeepsRegs StepReg s s1 := (KeepsRegs.refl s).log hoff _ _ _ _ _ _
  have hcrypto : KeepsRegs StepReg s s2 := keepsRegs_ite (hlogged.log hoff _ _ _ _ _ _) hlogged
  have hdown : KeepsRegs StepReg s s3 := hcrypto.set_boot (t := s2) _
  have hfenced : KeepsRegs StepReg s s4 := hdown.set_boot (t := s3) _
  exact keepsRegs_ite hdown ((hfenced.appendFence (by decide) _ _ _ _ _ _).log hoff _ _ _ _ _ _)

theorem failRegs_keepsRegs (s : State) : KeepsRegs StepReg s s.failRegs := by
  unfold State.failRegs
  extract_lets +onlyGivenNames failed fenced skipped ports stks links camp cmn cl s1 s2
  have hA : KeepsRegs StepReg s s1 :=
    (((KeepsRegs.refl s).setFld (by decide) _).setFld (by decide) _).setFld (by decide) _
  have hB : KeepsRegs StepReg s s2 := (hA.setFld (by decide) _).setFld (by decide) _
  exact (hB.setFld (by decide) _).setFld (by decide) _

theorem programStep_regs (s : State) (n fails : Nat) : (s.programStep n fails).regs = s.regs :=
  (programStep_kept (P := 1024) s n fails (Kept.refl s) (by decide)).regs_eq (by decide)

theorem keepParams_regs (s : State) (n fails : Nat) : (s.keepParams n fails).regs = s.regs :=
  (keepParams_kept (P := 536870928) s n fails (Kept.refl s) (by decide)).regs_eq (by decide)

/-- Once the outcome is shown, the record of the step leaves it, and BOOT_STATUS with it. -/
theorem recordStep_keepsRegs (s : State) (n fails crypto : Nat) :
    KeepsRegs StepReg (s.setOutcome n (s.outcomeOf n fails)) (s.recordStep n fails crypto) := by
  unfold State.recordStep
  extract_lets f s1
  have hshown : KeepsRegs StepReg (s.setOutcome n (s.outcomeOf n fails)) s1 :=
    (KeepsRegs.refl _).of_regs ((keepParams_regs _ n fails).trans (setOutcome_regs_congr (programStep_regs s n fails) n _))
  exact (hshown.trans (keepsRegs_foldl (failUnit_keepsRegs n crypto) f s1)).trans (failRegs_keepsRegs _)

theorem recordStep_outcome (s : State) (h1 : 1 ≤ n) (h9 : n ≤ 9) (fails crypto : Nat) :
    (s.recordStep n fails crypto).outcomeReg n = s.outcomeOf n fails :=
  (outcomeReg_congr ((recordStep_keepsRegs s n fails crypto).mono (fun _ h => .inr h)) n).trans
    (setOutcome_outcomeReg s h1 h9 (outcomeOf_lt s n fails))

theorem recordStep_step (s : State) (n fails crypto : Nat) :
    (s.recordStep n fails crypto).fld F.BOOT_STATUS_STEP = s.fld F.BOOT_STATUS_STEP :=
  ((recordStep_keepsRegs s n fails crypto).fld (by decide)).trans ((setOutcome_keepsStatus s n _).fld rfl)

/-! ### What each step does -/

theorem setWords_keepsRegs (s : State) {r : Nat → Nat} (hr : ∀ i, ¬ A (r i)) (n : Nat) (b : List Byte) :
    KeepsRegs A s (s.setWords r n b) :=
  keepsRegs_foldl (fun u i => (KeepsRegs.refl u).setReg (hr i) _) _ s

/-- The key registers of step 2 are the security engine's. -/
theorem keysLoad_keepsRegs (s : State) (alt : Bool) : KeepsRegs StepReg s (s.keysLoad alt) := by
  have hkeys (a : Nat) (ha : 0x200000 ≤ a) (i : Nat) : ¬ StepReg (a + 0x4 * i) := by
    simp only [StepReg, OutcomeReg, R.BOOT_STATUS, R.BOOT_OUTCOME_LO, R.BOOT_OUTCOME_HI]; omega
  unfold State.keysLoad
  extract_lets s1 s2
  have hstatus : KeepsRegs StepReg s s1 :=
    (((KeepsRegs.refl s).setFld (by decide) _).setBit (by decide) _).setFld (by decide) _
  have hpub : KeepsRegs StepReg s s2 := (hstatus.trans (setWords_keepsRegs s1 (hkeys 0x200100 (by decide)) _ _)).trans
    (setWords_keepsRegs _ (hkeys 0x200200 (by decide)) _ _)
  exact (hpub.trans (setWords_keepsRegs s2 (hkeys 0x200300 (by decide)) _ _)).trans
    (setWords_keepsRegs _ (hkeys 0x200340 (by decide)) _ _)

theorem zeroAll_regs (s : State) : s.zeroAll.regs = s.regs := rfl

theorem mountStep_keepsRegs (s : State) (up : Bool) : KeepsRegs OffRecorder s (s.mountStep up) := by
  unfold State.mountStep
  extract_lets +onlyGivenNames evr s1
  have hdevice : KeepsRegs OffRecorder s s1 := (KeepsRegs.refl s).set_evr evr
  exact keepsRegs_ite (hdevice.trans (mount_keepsRegs s1)) (hdevice.setFld (by decide) _)

theorem refreshUsable_keepsRegs (s : State) : KeepsRegs OutcomeReg s s.refreshUsable := by
  unfold State.refreshUsable
  extract_lets s1 s2 s3 s4 s5 s6
  have hid : KeepsRegs OutcomeReg s s3 :=
    (((KeepsRegs.refl s).setFld (by decide) _).setFld (by decide) _).setPair (by decide) (by decide) _
  have hmem : KeepsRegs OutcomeReg s s5 :=
    (((hid.setFld (by decide) _).setFld (by decide) _).setFld (by decide) _).setReg (by decide) _
  exact (((hmem.setBit (by decide) _).setBit (by decide) _).setBit (by decide) _).setBit (by decide) _

theorem configReadyNow_keepsRegs (s : State) : KeepsRegs OutcomeReg s s.configReadyNow := by
  unfold State.configReadyNow
  extract_lets +onlyGivenNames s1 s2 s3
  have hready : KeepsRegs OutcomeReg s s3 := ((refreshUsable_keepsRegs s).setBit (by decide) _).setFld (by decide) _
  exact (hready.set_boot (t := s3) _).emit .readiness

/-- STEP 0xA and, on a failure, DIAG_ONLY; what follows programs and erases NOR alone. -/
theorem bootEnd_regs (s : State) : s.bootEnd.regs =
    ((if s.stepPassed 9 then s else s.setFld F.BOOT_STATUS_DIAG_ONLY 1).setFld F.BOOT_STATUS_STEP 0xA).regs := by
  unfold State.bootEnd
  extract_lets s1 s2 next
  split
  · rfl
  · split <;> rfl

theorem bootEnd_keepsRegs (s : State) : KeepsRegs OutcomeReg s s.bootEnd :=
  ((keepsRegs_ite (KeepsRegs.refl s) ((KeepsRegs.refl s).setFld (by decide) _)).setFld (by decide) _).of_regs
    (bootEnd_regs s)

theorem fld_of_regs (h : t.regs = s.regs) (f : Fld) : t.fld f = s.fld f := by unfold State.fld State.reg; rw [h]

theorem bootEnd_step (s : State) : s.bootEnd.fld F.BOOT_STATUS_STEP = 0xA :=
  (fld_of_regs (bootEnd_regs s) _).trans (fld_setFld_self _ _ _ (by decide) (by decide))

theorem stepEffect_keepsRegs (s : State) (n : Nat) (up : Bool) : KeepsRegs OutcomeReg s (s.stepEffect n up) := by
  unfold State.stepEffect
  split
  next => exact keepsRegs_ite ((keysLoad_keepsRegs s _).mono (fun _ h => .inr h)) (KeepsRegs.refl s)
  next => exact keepsRegs_ite ((KeepsRegs.refl s).setFld (by decide) _) (KeepsRegs.refl s)
  next => exact (KeepsRegs.refl s).of_regs (zeroAll_regs s)
  next =>
    exact ((mountStep_keepsRegs s up).mono (by rintro a (rfl | rfl) <;> decide)).trans (configReadyNow_keepsRegs _)
  next => exact bootEnd_keepsRegs s
  next => exact KeepsRegs.refl s

theorem stepEffect_nine (s : State) (up : Bool) : s.stepEffect 9 up = s.bootEnd := by
  unfold State.stepEffect; rfl

theorem stepEffect_two_step (s : State) (up : Bool) :
    (s.stepEffect 2 up).fld F.BOOT_STATUS_STEP = s.fld F.BOOT_STATUS_STEP :=
  (keepsRegs_ite (keysLoad_keepsRegs s _) (KeepsRegs.refl s)).fld (.inl rfl)

/-! ### The next step begins (R89, R94) -/

theorem beginStep_step (s : State) (hn : n < 16) : (s.beginStep n).fld F.BOOT_STATUS_STEP = n :=
  (fld_of_regs (beginStep_regs s n) _).trans ((fld_setFld_self _ _ _ (by decide) (by decide)).trans (Nat.mod_eq_of_lt hn))

theorem beginStep_keepsRegs (s : State) (n : Nat) : KeepsRegs OutcomeReg s (s.beginStep n) :=
  ((KeepsRegs.refl s).setFld (f := F.BOOT_STATUS_STEP) (by decide) n).of_regs (beginStep_regs s n)

theorem portsTrain_keepsRegs (s : State) : KeepsRegs StepReg s s.portsTrain := by
  have hport : ∀ p, ¬ StepReg (R.EWB_P_STATUS p) := fun p => by
    simp only [StepReg, OutcomeReg, R.EWB_P_STATUS, R.BOOT_STATUS, R.BOOT_OUTCOME_LO, R.BOOT_OUTCOME_HI]; omega
  exact keepsRegs_foldl (fun u p => (KeepsRegs.refl u).setFld (f := F.EWB_P_STATUS_STATE p) (hport p) 1) _ s

theorem acquireStart_keepsRegs (s : State) : KeepsRegs StepReg s s.acquireStart := by
  unfold State.acquireStart
  extract_lets +onlyGivenNames s1 s2 s3
  have hstate : KeepsRegs StepReg s s1 := ((KeepsRegs.refl s).setFld (by decide) _).setFld (by decide) _
  have hrefs : KeepsRegs StepReg s s2 :=
    (((hstate.setFld (by decide) _).setFld (by decide) _).setFld (by decide) _).setFld (by decide) _
  have hsec : KeepsRegs StepReg s s3 := hrefs.setFld (by decide) _
  exact hsec.set_tick (t := s3) _

/-- STEP is the next step's, unless the start ends or waits for PERST_N. -/
theorem nextStep_step (s : State) (h9 : n < 9) (hperst : ¬ (n = 2 ∧ s.pwr.perst = true)) :
    (s.nextStep n).fld F.BOOT_STATUS_STEP = n + 1 := by
  unfold State.nextStep
  split
  next => omega
  next => rw [if_neg (by simpa using hperst)]; exact beginStep_step s (by decide)
  next => exact ((portsTrain_keepsRegs _).fld (.inl rfl)).trans (beginStep_step s (by decide))
  next =>
    split
    · exact beginStep_step s (by decide)
    · exact ((acquireStart_keepsRegs _).fld (.inl rfl)).trans (beginStep_step s (by decide))
  next => exact beginStep_step s (by omega)

theorem nextStep_nine (s : State) : s.nextStep 9 = s := rfl

theorem nextStep_two_held (s : State) (hperst : s.pwr.perst = true) (f : Fld) : (s.nextStep 2).fld f = s.fld f := by
  unfold State.nextStep
  rw [if_pos hperst]; rfl

theorem nextStep_keepsRegs (s : State) (n : Nat) : KeepsRegs OutcomeReg s (s.nextStep n) := by
  unfold State.nextStep
  split
  next => exact KeepsRegs.refl s
  next => exact keepsRegs_ite ((KeepsRegs.refl s).of_regs rfl) (beginStep_keepsRegs s 3)
  next => exact (beginStep_keepsRegs s 6).trans ((portsTrain_keepsRegs _).mono (fun _ h => .inr h))
  next =>
    exact keepsRegs_ite (beginStep_keepsRegs s 9)
      ((beginStep_keepsRegs s 9).trans ((acquireStart_keepsRegs _).mono (fun _ h => .inr h)))
  next => exact beginStep_keepsRegs s (n + 1)

/-! ### BOOT_STEP_END -/

/-- The step's single unit, if it has one, was tried and passed. -/
def State.stepUp (s : State) (n fails : Nat) : Bool := !(s.triedIn n).isEmpty && (s.failedNow n fails).isEmpty

/-- The part once step `n` has been recorded and has had its effect. -/
def State.bootStepDone (s : State) (n fails crypto : Nat) : State :=
  (s.recordStep n fails crypto).stepEffect n (s.stepUp n fails)

theorem exec_bootStepEnd (fails crypto : Nat) (hstep : s.fld F.BOOT_STATUS_STEP = n) (h1 : 1 ≤ n) (h9 : n ≤ 9)
    (hrun : s.frozen = false) (hwait : s.boot.waitPerst = false) (hon : s.pwr.mode = .on) :
    exec (.bootStepEnd fails crypto) s = .next ((s.bootStepDone n fails crypto).nextStep n) := by
  subst hstep
  exact congrArg Host.Outcome.next (if_neg (by simp [hrun, hwait, hon]; omega))

theorem exec_bootStepEnd_none (fails crypto : Nat) (hnone : s.frozen = true ∨ s.fld F.BOOT_STATUS_STEP = 0 ∨
    9 < s.fld F.BOOT_STATUS_STEP ∨ s.boot.waitPerst = true ∨ s.pwr.mode ≠ .on) :
    exec (.bootStepEnd fails crypto) s = .next s := by
  refine congrArg Host.Outcome.next (if_pos ?_)
  rcases hnone with h | h | h | h | h <;> simp [h]

theorem bootStepDone_perst (s : State) (n fails crypto : Nat) : (s.bootStepDone n fails crypto).pwr.perst = s.pwr.perst := by
  have hrecorded : Kept 8422493905 s (s.recordStep n fails crypto) :=
    recordStep_kept s n fails crypto (Kept.refl s) (by decide)
  exact (stepEffect_kept _ n (s.stepUp n fails) hrecorded (by decide)).perst (by decide)

theorem bootStepEnd_outcome (s : State) (h1 : 1 ≤ n) (h9 : n ≤ 9) (fails crypto : Nat) :
    ((s.bootStepDone n fails crypto).nextStep n).outcomeReg n = s.outcomeOf n fails :=
  (outcomeReg_congr ((stepEffect_keepsRegs _ n _).trans (nextStep_keepsRegs _ n)) n).trans
    (recordStep_outcome s h1 h9 fails crypto)

theorem bootStepEnd_step (hstep : s.fld F.BOOT_STATUS_STEP = n) (h9 : n ≤ 9) (fails crypto : Nat) :
    ((s.bootStepDone n fails crypto).nextStep n).fld F.BOOT_STATUS_STEP =
      if n = 9 then 0xA else if n = 2 ∧ s.pwr.perst = true then 2 else n + 1 := by
  by_cases hlast : n = 9
  · subst hlast
    rw [if_pos rfl, nextStep_nine, State.bootStepDone, stepEffect_nine, bootEnd_step]
  · rw [if_neg hlast]
    by_cases hheld : n = 2 ∧ s.pwr.perst = true
    · obtain ⟨rfl, hperst⟩ := hheld
      rw [if_pos ⟨rfl, hperst⟩, nextStep_two_held _ ((bootStepDone_perst s 2 fails crypto).trans hperst)]
      exact ((stepEffect_two_step _ _).trans (recordStep_step s 2 fails crypto)).trans hstep
    · rw [if_neg hheld]
      exact nextStep_step _ (by omega) (by rw [bootStepDone_perst]; exact hheld)

/-! ### PERST_N_RELEASE (R89) -/

/-- PERST_N released, before a step that waited for it begins. -/
def State.perstReleased (s : State) : State :=
  { s with pwr := { s.pwr with perst := false, releaseClk := s.clk }, frz := { s.frz with pinMode := 0 } }

theorem exec_perstNRelease (hheld : s.pwr.perst = true) : exec .perstNRelease s =
    .next (if s.boot.waitPerst && !s.frozen then s.perstReleased.beginStep 3 else s.perstReleased) :=
  congrArg Host.Outcome.next (if_neg (by simp [hheld]))

theorem exec_perstNRelease_none (hfree : s.pwr.perst = false) : exec .perstNRelease s = .next s :=
  congrArg Host.Outcome.next (if_pos (by simp [hfree]))

theorem perstReleased_onlyIn (s : State) : OnlyIn [.regs, .pwr, .boot, .stepFrozen, .nor, .frz] s s.perstReleased :=
  fun q hq => by
    have hkept : Kept 268437512 s s.perstReleased := Kept.set_pwr_frz (Kept.refl s) _ _ (by decide)
    by_cases hdrive : q = .drive
    · subst hdrive; rfl
    · exact hkept.onlyIn (T := [.pwr, .drive, .frz]) (fun p => by cases p <;> decide) q (by
        revert hq hdrive; cases q <;> decide)

theorem beginStep_keeps (s : State) (n : Nat) : Kept 536871953 s (s.beginStep n) :=
  beginStep_kept s n (Kept.refl s) (by decide)

theorem beginStep_pwr (s : State) (n : Nat) : (s.beginStep n).pwr = s.pwr :=
  (beginStep_keeps s n).pwr (by decide) (by decide)

theorem perstNRelease_ends (hheld : s.pwr.perst = true) : Ends .perstNRelease s (fun t =>
    t.pwr.perst = false ∧ t.pwr.releaseClk = s.clk ∧
    t.fld F.BOOT_STATUS_STEP = (if s.boot.waitPerst = true ∧ s.frozen = false then 3 else s.fld F.BOOT_STATUS_STEP) ∧
    OnlyIn [.regs, .pwr, .boot, .stepFrozen, .nor, .frz] s t) := by
  refine ⟨_, exec_perstNRelease hheld, ?_⟩
  by_cases hwaits : s.boot.waitPerst = true ∧ s.frozen = false
  · have hpwr := beginStep_pwr s.perstReleased 3
    rw [if_pos hwaits, if_pos (by simp [hwaits])]
    exact ⟨congrArg Power.perst hpwr, congrArg Power.releaseClk hpwr, beginStep_step _ (by decide),
      (perstReleased_onlyIn s).trans ((beginStep_keeps _ 3).onlyIn (fun p => by cases p <;> decide))⟩
  · rw [if_neg hwaits, if_neg (by simpa using hwaits)]
    exact ⟨rfl, rfl, rfl, perstReleased_onlyIn s⟩

/-- Settles O12: nothing after the record of a step writes its outcome, and STEP is written last. -/
theorem bootStepsFollowEachOther : Obligations.BootStepsFollowEachOther := by
  refine ⟨fun fails crypto n s hstep h1 h9 hrun hwait hon => ?_,
    fun fails crypto _ hnone => exec_bootStepEnd_none fails crypto hnone,
    fun _ hheld => perstNRelease_ends hheld, fun _ hfree => exec_perstNRelease_none hfree⟩
  exact ⟨_, exec_bootStepEnd fails crypto hstep h1 h9 hrun hwait hon, bootStepEnd_outcome s h1 h9 fails crypto,
    bootStepEnd_step hstep h9 fails crypto⟩

end Sys2Proof.Machine
end

section
/-! SUPPORT. The canonical form of the stores: every write of a byte or a register goes through the sparse maps, which keep
it (`Kept`), so every step does. -/

namespace Sys2Proof.Machine

theorem step_canonical {s t : State} (h : step s = .next t) (hs : s.canonical = true) : t.canonical = true :=
  ((step_kept s).kept h).canon hs

/-- Settles O6: what every command keeps holds the canonical form beside the parts it leaves. -/
theorem storesStayCanonical : Obligations.StoresStayCanonical := fun _ _ hs h => step_canonical h hs

end Sys2Proof.Machine
end

section
/-! SUPPORT. The bytes of the exchange memory (R4, R128): what a write leaves at each address, and what who may read or write
there depends on. -/

namespace Sys2Proof.Machine

variable {s t u : State} {a n : Nat}

/-! ### Bytes -/

/-- The exchange byte at `a`. -/
abbrev State.exmByte (s : State) (a : Nat) : Byte := fget (fun _ => (0 : Byte)) s.exm.mem a

theorem getD_of_lt {α : Type} {l : List α} {i : Nat} (h : i < l.length) (x : α) : l.getD i x = l[i] := by
  rw [List.getD_eq_getElem?_getD, List.getElem?_eq_getElem h, Option.getD_some]

/-- Values written at the addresses from `a + k` on are read there, and no other key is touched. -/
theorem fget_foldl_zipIdx {α : Type} [DecidableEq α] (d : Nat → α) (x : α) (l : List α) (a k : Nat) (m : FMap α)
    (b : Nat) : fget d ((l.zipIdx k).foldl (fun m p => fset d m (a + p.2) p.1) m) b =
      if a + k ≤ b ∧ b < a + k + l.length then l.getD (b - (a + k)) x else fget d m b := by
  induction l generalizing k m with
  | nil => exact (if_neg (by rw [List.length_nil]; omega)).symm
  | cons y l ih =>
    rw [List.zipIdx_cons, List.foldl_cons, ih, fget_fset]
    by_cases hb : b = a + k
    · rw [if_neg (by omega), if_pos hb, if_pos (by rw [List.length_cons]; omega), hb, Nat.sub_self, List.getD_cons_zero]
    · by_cases hin : a + k ≤ b ∧ b < a + k + (y :: l).length
      · have htail : a + (k + 1) ≤ b ∧ b < a + (k + 1) + l.length := by simp only [List.length_cons] at hin; omega
        have hidx : b - (a + k) = b - (a + (k + 1)) + 1 := by omega
        rw [if_pos hin, if_pos htail, hidx, List.getD_cons_succ]
      · have htail : ¬ (a + (k + 1) ≤ b ∧ b < a + (k + 1) + l.length) := by simp only [List.length_cons] at hin; omega
        rw [if_neg hin, if_neg htail, if_neg hb]

theorem exmPut_exmByte (s : State) (a : Nat) (d : List Byte) (b : Nat) :
    (s.exmPut a d).exmByte b = if a ≤ b ∧ b < a + d.length then d.getD (b - a) 0 else s.exmByte b :=
  fget_foldl_zipIdx _ 0 d a 0 s.exm.mem b

theorem exmZero_exmByte (s : State) (a n b : Nat) :
    (s.exmZero a n).exmByte b = if a ≤ b ∧ b < a + n then 0 else s.exmByte b :=
  fget_fclear _ _ _ _ _

theorem exmBytes_append (s : State) (a m n : Nat) : s.exmBytes a (m + n) = s.exmBytes a m ++ s.exmBytes (a + m) n := by
  simp [State.exmBytes, List.range_add, Nat.add_assoc]

theorem exmBytes_eq_of_getD {d : List Byte} (h : ∀ i, i < d.length → s.exmByte (a + i) = d.getD i 0) :
    s.exmBytes a d.length = d := by
  refine List.ext_getElem (by simp [State.exmBytes]) fun i _ hi => ?_
  simp only [State.exmBytes, List.getElem_map, List.getElem_range]
  exact (h i hi).trans (getD_of_lt hi 0)

theorem exmBytes_congr (h : ∀ b, a ≤ b → b < a + n → t.exmByte b = s.exmByte b) : t.exmBytes a n = s.exmBytes a n :=
  List.map_congr_left fun i hi => h (a + i) (Nat.le_add_right a i) (Nat.add_lt_add_left (List.mem_range.mp hi) a)

/-! ### Access (R141, R145, R152) -/

theorem region_congr (h : t.regs = s.regs) (r : Nat) : t.region r = s.region r := by
  simp [State.region, State.bit, fld_of_regs h]

theorem regionAt_congr (h : t.regs = s.regs) (a : Nat) : t.regionAt a = s.regionAt a := by
  simp [State.regionAt, region_congr h]

theorem inSema_congr (h : t.regs = s.regs) (a : Nat) : t.inSema a = s.inSema a := by
  simp [State.inSema, regionAt_congr h]

/-- Who may reach a byte hangs on the regions and on the trigger words alone. -/
theorem mayAccess_congr (hregs : t.regs = s.regs) (htrig : ∀ k, t.trigger k = s.trigger k) (r : Req) (a : Nat)
    (write : Bool) : t.mayAccess r a write = s.mayAccess r a write := by
  simp [State.mayAccess, State.payloadOpen, State.slotState, State.isConsumer, State.poster, regionAt_congr hregs, htrig]

/-- A byte of a slot's trigger word. -/
abbrev TriggerByte (b : Nat) : Prop := 0x7F0000 ≤ b ∧ 56 ≤ b % 64

theorem trigger_congr (h : ∀ b, TriggerByte b → t.exmByte b = s.exmByte b) (k : Nat) : t.trigger k = s.trigger k :=
  congrArg ofLe (exmBytes_congr fun b hlo hhi => h b (by unfold slotAddr at hlo hhi; omega))

/-! ### Words and their parts -/

theorem mem_wordsOf {b : Nat} (hlo : a ≤ b) (hhi : b < a + n) : b - b % 8 ∈ wordsOf a n :=
  List.mem_map.mpr ⟨(b - (a - a % 8)) / 8, List.mem_range.mpr (by omega), by omega⟩

theorem wordsOf_one (hn : 0 < n) (h8 : a % 8 + n ≤ 8) : wordsOf a n = [a - a % 8] := by
  have hcount : (a % 8 + n + 7) / 8 = 1 := by omega
  simp [wordsOf, hcount]

theorem partsOf_one (hn : 0 < n) (h8 : a % 8 + n ≤ 8) : partsOf a n = [(a, n)] := by
  have hhi : min (a + n) (a - a % 8 + 8) - a = n := by omega
  simp [partsOf, wordsOf_one hn h8, hhi]

/-- The parts, in order, cover `[a, a + n)` and lie within one word each. -/
def Tiles : Nat → Nat → List (Nat × Nat) → Prop
  | _, n, [] => n = 0
  | a, n, p :: l => p.1 = a ∧ 0 < p.2 ∧ p.2 ≤ n ∧ a % 8 + p.2 ≤ 8 ∧ Tiles (a + p.2) (n - p.2) l

/-- The first byte of `[a, a + n)` past its first `i` words. -/
def cutOf (a n i : Nat) : Nat := max a (min (a + n) (a - a % 8 + 8 * i))

theorem partsOf_tiles (a n : Nat) (hn : 0 < n) : Tiles a n (partsOf a n) := by
  have key : ∀ k j, j + k = (a % 8 + n + 7) / 8 → Tiles (cutOf a n j) (a + n - cutOf a n j) ((List.range' j k).map
      (fun i => (max a (a - a % 8 + 8 * i), min (a + n) (a - a % 8 + 8 * i + 8) - max a (a - a % 8 + 8 * i)))) := by
    intro k
    induction k with
    | zero => intro j hj; simp only [List.range'_zero, List.map_nil, Tiles, cutOf]; omega
    | succ k ih =>
      intro j hj
      have hnext := ih (j + 1) (by omega)
      have hstart : max a (a - a % 8 + 8 * j) = cutOf a n j := by unfold cutOf; omega
      have hlen : min (a + n) (a - a % 8 + 8 * j + 8) = cutOf a n (j + 1) := by unfold cutOf; omega
      have hgrow : cutOf a n j < cutOf a n (j + 1) ∧ cutOf a n (j + 1) ≤ a + n ∧
          cutOf a n j % 8 + (cutOf a n (j + 1) - cutOf a n j) ≤ 8 := by unfold cutOf; omega
      simp only [List.range'_succ, List.map_cons, Tiles, hstart, hlen]
      have hon : cutOf a n j + (cutOf a n (j + 1) - cutOf a n j) = cutOf a n (j + 1) := by omega
      have hleft : a + n - cutOf a n j - (cutOf a n (j + 1) - cutOf a n j) = a + n - cutOf a n (j + 1) := by omega
      rw [hon, hleft]
      exact ⟨trivial, by omega, by omega, hgrow.2.2, hnext⟩
  have hall := key _ 0 (Nat.zero_add _)
  have hcut : cutOf a n 0 = a := by unfold cutOf; omega
  rw [hcut, Nat.add_sub_cancel_left, ← List.range_eq_range'] at hall
  simpa only [partsOf, wordsOf, List.map_map, Function.comp_def] using hall

/-! ### Reads (R133, R141) -/

theorem exec_exchangeRead_exm (r : Req) {addr : Nat} (len : Nat) (ups : Upsets) (s : State)
    (ht : (s.upset ups).target r addr = .exm a) :
    exec (.exchangeRead r addr len ups false) s = .next ((s.upset ups).exmRead r a len) := by
  change execExchangeRead r addr len ups false s = _
  simp [execExchangeRead, ht]

theorem readPart_granted {r : Req} (hmay : s.mayAccess r a false = true) (hue : s.hasUe (a - a % 8) = false) :
    s.readPart r a n = (s, s.exmBytes a n, false) := by
  simp [State.readPart, hmay, hue]

theorem readPart_denied {r : Req} (hmay : s.mayAccess r a false = false) :
    s.readPart r a n = (s.denied r a, List.replicate n 0, false) := by
  simp [State.readPart, hmay]

/-- Parts that may be read and hold no error give their bytes, in order. -/
theorem readParts_granted {r : Req} {l : List (Nat × Nat)} (hl : Tiles a n l)
    (hmay : ∀ b, a ≤ b → b < a + n → s.mayAccess r b false = true)
    (hue : ∀ b, a ≤ b → b < a + n → s.hasUe (b - b % 8) = false) : readParts r l s = (s, s.exmBytes a n, false) := by
  induction l generalizing a n with
  | nil => cases (show n = 0 from hl); rfl
  | cons p l ih =>
    obtain ⟨rfl, hpos, hfit, -, htail⟩ := hl
    have hrest := ih htail (fun b hlo hhi => hmay b (by omega) (by omega)) (fun b hlo hhi => hue b (by omega) (by omega))
    rw [readParts, readPart_granted (hmay _ (Nat.le_refl _) (by omega)) (hue _ (Nat.le_refl _) (by omega)), hrest,
      ← exmBytes_append, Nat.add_sub_cancel' hfit]
    rfl

theorem exmRead_plain {r : Req} (hsema : (wordsOf a n).any s.inSema = false) : s.exmRead r a n =
    (readParts r (partsOf a n) s).1.emit (.readData r.port r.id (readParts r (partsOf a n) s).2.1
      (readParts r (partsOf a n) s).2.2) := by
  simp [State.exmRead, hsema]

theorem hasUe_of_any (hclean : (wordsOf a n).any s.hasUe = false) (b : Nat) (hlo : a ≤ b) (hhi : b < a + n) :
    s.hasUe (b - b % 8) = false :=
  Bool.eq_false_iff.mpr (List.any_eq_false.mp hclean _ (mem_wordsOf hlo hhi))

theorem exmRead_granted {r : Req} (hn : 0 < n) (hsema : (wordsOf a n).any s.inSema = false)
    (hmay : ∀ b, a ≤ b → b < a + n → s.mayAccess r b false = true) (hclean : (wordsOf a n).any s.hasUe = false) :
    s.exmRead r a n = s.emit (.readData r.port r.id (s.exmBytes a n) false) := by
  rw [exmRead_plain hsema, readParts_granted (partsOf_tiles a n hn) hmay (hasUe_of_any hclean)]

theorem exmRead_denied {r : Req} (hn : 0 < n) (h8 : a % 8 + n ≤ 8) (hsema : (wordsOf a n).any s.inSema = false)
    (hmay : s.mayAccess r a false = false) :
    s.exmRead r a n = (s.denied r a).emit (.readData r.port r.id (List.replicate n 0) false) := by
  rw [exmRead_plain hsema, partsOf_one hn h8]
  simp [readParts, readPart_denied hmay]

theorem exmRead_misuse {r : Req} (hsema : (wordsOf a n).any s.inSema = true) (hpart : a % 8 ≠ 0 ∨ n ≠ 8) :
    s.exmRead r a n =
      (s.bump F.EXM_CNT_SEMA_MISUSE_COUNT).emit (.readData r.port r.id (List.replicate n 0xFF) false) := by
  have hnot : ¬ (a % 8 = 0 ∧ n = 8) := by omega
  simp [State.exmRead, hsema, hnot]

/-! ### Denials (R141) -/

@[simp] theorem emit_out (s : State) (o : Output) : (s.emit o).out = o :: s.out := rfl

@[simp] theorem denied_exm (s : State) (r : Req) (a : Nat) : (s.denied r a).exm = s.exm := by simp [State.denied]

@[simp] theorem denied_out (s : State) (r : Req) (a : Nat) : (s.denied r a).out = s.out := by simp [State.denied]

theorem denied_fld_seen (s : State) (r : Req) (a : Nat) : (s.denied r a).fld F.EXM_STATUS_DENIED_SEEN = 1 := by
  unfold State.denied
  rw [fld_setFld_ne _ _ _ _ (by decide), fld_setFld_ne _ _ _ _ (by decide), fld_setFld_ne _ _ _ _ (by decide),
    fld_setFld_self _ _ _ (by decide) (by decide)]
  rfl

theorem denied_fld_addr (s : State) (r : Req) (a : Nat) :
    (s.denied r a).fld F.EXM_LAST_DENIED_ADDR = a % 2 ^ 23 :=
  fld_setFld_self _ _ _ (by decide) (by decide)

theorem denied_onlyIn (s : State) (r : Req) (a : Nat) : OnlyIn [.regs] s (s.denied r a) :=
  (denied_kept (P := 1) s r a (Kept.refl s) (by decide)).onlyIn (fun p => by cases p <;> decide)

theorem misuse_onlyIn (s : State) (o : Output) : OnlyIn [.regs, .out] s ((s.bump F.EXM_CNT_SEMA_MISUSE_COUNT).emit o) :=
  (emit_kept (P := 67108865) (bump_kept (Kept.refl s) F.EXM_CNT_SEMA_MISUSE_COUNT (by decide)) o (by decide)).onlyIn
    (fun p => by cases p <;> decide)

/-! ### Writes (R128, R135) -/

theorem exec_exchangeWrite_exm (r : Req) {addr : Nat} (d : List Byte) (ups : Upsets) (s : State)
    (ht : (s.upset ups).target r addr = .exm a) :
    exec (.exchangeWrite r addr d ups false) s = .next ((s.upset ups).exmWrite r a d) := by
  change execExchangeWrite r addr d ups false s = _
  simp [execExchangeWrite, ht]

/-- `t` is `s` with the bytes `d` at `a`: every other exchange byte is as it was, and no word has gained an error. -/
structure BytesWritten (s t : State) (a : Nat) (d : List Byte) : Prop where
  bytes : ∀ b, t.exmByte b = if a ≤ b ∧ b < a + d.length then d.getD (b - a) 0 else s.exmByte b
  ue : ∀ w, s.hasUe w = false → t.hasUe w = false
  parts : OnlyIn [.exm, .exmMem] s t

namespace BytesWritten

variable {d e : List Byte}

theorem nil (s : State) (a : Nat) : BytesWritten s s a [] :=
  ⟨fun b => by rw [if_neg (by simp)], fun _ => id, OnlyIn.refl s⟩

theorem append (h : BytesWritten s t a d) (k : BytesWritten t u (a + d.length) e) : BytesWritten s u a (d ++ e) := by
  refine ⟨fun b => ?_, fun w hw => k.ue w (h.ue w hw), h.parts.trans k.parts⟩
  rw [k.bytes, h.bytes, List.length_append]
  by_cases hfirst : a ≤ b ∧ b < a + d.length
  · rw [if_neg (by omega), if_pos hfirst, if_pos (by omega), List.getD_eq_getElem?_getD,
      List.getD_eq_getElem?_getD, List.getElem?_append_left (by omega)]
  · by_cases hsecond : a + d.length ≤ b ∧ b < a + d.length + e.length
    · rw [if_pos hsecond, if_pos (by omega), List.getD_eq_getElem?_getD, List.getD_eq_getElem?_getD,
        List.getElem?_append_right (by omega), Nat.sub_sub]
    · rw [if_neg hsecond, if_neg hfirst, if_neg (by omega)]

theorem regs (h : BytesWritten s t a d) : t.regs = s.regs := h.parts .regs (by decide)

theorem outside (h : BytesWritten s t a d) {b : Nat} (hb : b < a ∨ a + d.length ≤ b) : t.exmByte b = s.exmByte b := by
  rw [h.bytes, if_neg (by omega)]

theorem exmBytes (h : BytesWritten s t a d) : t.exmBytes a d.length = d :=
  exmBytes_eq_of_getD fun i hi => by rw [h.bytes, if_pos (by omega), Nat.add_sub_cancel_left]

/-- Bytes written beside the trigger words change no one's access. -/
theorem mayAccess (h : BytesWritten s t a d) (htrig : ∀ b, a ≤ b → b < a + d.length → ¬ TriggerByte b) (r : Req)
    (b : Nat) (write : Bool) : t.mayAccess r b write = s.mayAccess r b write :=
  mayAccess_congr h.regs (trigger_congr fun c hc => h.outside ((Nat.lt_or_ge c a).imp_right fun hlo =>
    Nat.le_of_not_lt fun hhi => htrig c hlo hhi hc)) r b write

end BytesWritten

theorem exmPut_written (s : State) (a : Nat) (d : List Byte) : BytesWritten s (s.exmPut a d) a d where
  bytes := exmPut_exmByte s a d
  ue _ := id
  parts := (exmPut_kept (P := 1073741824) (Kept.refl s) a d (by decide)).onlyIn (fun p => by cases p <;> decide)

/-- A whole word is zeroed with its error and written (R128). -/
theorem exmZero_exmPut_written (s : State) (a : Nat) (d : List Byte) (h8 : d.length = 8) :
    BytesWritten s ((s.exmZero a 8).exmPut a d) a d where
  bytes b := by
    rw [exmPut_exmByte, exmZero_exmByte, h8]
    by_cases hb : a ≤ b ∧ b < a + 8
    · rw [if_pos hb, if_pos hb]
    · rw [if_neg hb, if_neg hb, if_neg hb]
  ue w hw := by
    have hcleared := fget_fclear (fun _ => (0 : Nat)) s.exm.ue a (a + 8) w
    simp only [State.hasUe, State.exmPut, State.exmZero, hcleared] at hw ⊢
    split
    · rfl
    · exact hw
  parts := (exmPut_kept (P := 1073741888) (exmZero_kept (Kept.refl s) a 8 (by decide)) a d (by decide)).onlyIn
    (fun p => by cases p <;> decide)

theorem writePart_granted {r : Req} {d : List Byte} (whole : Bool) (hsema : s.inSema a = false) (htrig : ¬ TriggerByte a)
    (hmay : s.mayAccess r a true = true) (hue : s.hasUe (a - a % 8) = false) :
    BytesWritten s (s.writePart r a d whole) a d := by
  have hplain : ¬ (0x7F0000 ≤ a ∧ a < 0x800000 ∧ 56 ≤ a % 64) := fun h => htrig ⟨h.1, h.2.2⟩
  by_cases h8 : d.length = 8
  · have hword : s.writePart r a d whole = (s.exmZero a 8).exmPut a d := by
      simp [State.writePart, hsema, hplain, hmay, h8]
    exact hword ▸ exmZero_exmPut_written s a d h8
  · have hpart : s.writePart r a d whole = s.exmPut a d := by
      simp [State.writePart, hsema, hplain, hmay, h8, hue]
    exact hpart ▸ exmPut_written s a d

theorem writePart_denied {r : Req} {d : List Byte} (whole : Bool) (hsema : s.inSema a = false) (htrig : ¬ TriggerByte a)
    (hmay : s.mayAccess r a true = false) : s.writePart r a d whole = s.denied r a := by
  have hplain : ¬ (0x7F0000 ≤ a ∧ a < 0x800000 ∧ 56 ≤ a % 64) := fun h => htrig ⟨h.1, h.2.2⟩
  simp [State.writePart, hsema, hplain, hmay]

@[simp] theorem length_sliceOf (d : List Byte) (i k : Nat) : (sliceOf d i k).length = k := by simp [sliceOf]

theorem take_append_sliceOf (d : List Byte) {i k : Nat} (h : i + k ≤ d.length) :
    d.take i ++ sliceOf d i k = d.take (i + k) := by
  have hslice : sliceOf d i k = (d.drop i).take k := by
    refine List.ext_getElem (by simp; omega) fun j hj _ => ?_
    have hlt : i + j < d.length := by rw [length_sliceOf] at hj; omega
    simp [sliceOf, hlt]
  rw [hslice, List.take_add]

/-- `r` may write every byte of `[a, a + n)`: none lies in a semaphore or trigger word or in a word with an error. -/
structure Writable (s : State) (r : Req) (a n : Nat) : Prop where
  sema : ∀ b, a ≤ b → b < a + n → s.inSema b = false
  trig : ∀ b, a ≤ b → b < a + n → ¬ TriggerByte b
  may : ∀ b, a ≤ b → b < a + n → s.mayAccess r b true = true
  ue : ∀ b, a ≤ b → b < a + n → s.hasUe (b - b % 8) = false

/-- With the first `i` bytes written, the parts that cover the rest write the rest. -/
theorem foldl_writePart_granted {r : Req} {d : List Byte} {l : List (Nat × Nat)} {i : Nat} (whole : Bool)
    (hw : Writable s r a d.length) (hi : i ≤ d.length) (ht : BytesWritten s t a (d.take i))
    (hl : Tiles (a + i) (d.length - i) l) :
    BytesWritten s (l.foldl (fun u p => u.writePart r p.1 (sliceOf d (p.1 - a) p.2) whole) t) a d := by
  induction l generalizing i t with
  | nil =>
    have hall : d.take i = d := List.take_of_length_le (by have : d.length - i = 0 := hl; omega)
    exact hall ▸ ht
  | cons p l ih =>
    obtain ⟨hp, hpos, hfit, -, htail⟩ := hl
    have hlen : (d.take i).length = i := List.length_take_of_le hi
    have hlo : a ≤ p.1 := by omega
    have hhi : p.1 < a + d.length := by omega
    have hmay : t.mayAccess r p.1 true = true :=
      (ht.mayAccess (fun b hb hb' => hw.trig b hb (by omega)) r p.1 true).trans (hw.may p.1 hlo hhi)
    have hsema : t.inSema p.1 = false := (inSema_congr ht.regs p.1).trans (hw.sema p.1 hlo hhi)
    have hstep := writePart_granted (d := sliceOf d (p.1 - a) p.2) whole hsema (hw.trig p.1 hlo hhi) hmay
      (ht.ue _ (hw.ue p.1 hlo hhi))
    have hoff : p.1 - a = i := by omega
    have hto : BytesWritten s (t.writePart r p.1 (sliceOf d (p.1 - a) p.2) whole) a (d.take (i + p.2)) := by
      rw [← take_append_sliceOf d (by omega), ← hoff]
      refine BytesWritten.append (hoff.symm ▸ ht) ?_
      rwa [hoff, hlen, ← hp, ← hoff]
    exact ih (by omega) hto (by rwa [← Nat.add_assoc, ← Nat.sub_sub])

theorem exmWrite_granted {r : Req} {d : List Byte} (hd : d ≠ []) (hw : Writable s r a d.length) :
    BytesWritten s (s.exmWrite r a d) a d :=
  foldl_writePart_granted _ hw (Nat.zero_le _) (BytesWritten.nil s a)
    (partsOf_tiles a d.length (List.length_pos_iff.mpr hd))

theorem exmWrite_denied {r : Req} {d : List Byte} (hd : d ≠ []) (h8 : a % 8 + d.length ≤ 8) (hsema : s.inSema a = false)
    (htrig : ¬ TriggerByte a) (hmay : s.mayAccess r a true = false) : s.exmWrite r a d = s.denied r a := by
  simp [State.exmWrite, partsOf_one (List.length_pos_iff.mpr hd) h8, writePart_denied _ hsema htrig hmay]

theorem upset_exmByte (s : State) (ups : Upsets) (b : Nat) : (s.upset ups).exmByte b = s.exmByte b :=
  congrArg (fget (fun _ => (0 : Byte)) · b) ((upset_kept (P := 65) s ups (Kept.refl s) (by decide)).parts .exmMem (by decide))

/-! ### The commands -/

theorem exchangeRead_denied_ends {r : Req} {addr : Nat} {ups : Upsets} {v : State} (hv : v = s.upset ups)
    (ht : v.target r addr = .exm a) (hn : 0 < n) (hsema : (wordsOf a n).any v.inSema = false) (h8 : a % 8 + n ≤ 8)
    (hmay : v.mayAccess r a false = false) : Ends (.exchangeRead r addr n ups false) s (fun t =>
      t.out = .readData r.port r.id (List.replicate n 0) false :: v.out ∧ t.fld F.EXM_STATUS_DENIED_SEEN = 1 ∧
      t.fld F.EXM_LAST_DENIED_ADDR = a % 2 ^ 23 ∧ t.exm = v.exm) := by
  subst hv
  exact ⟨_, (exec_exchangeRead_exm r n ups s ht).trans (congrArg _ (exmRead_denied hn h8 hsema hmay)), by simp,
    (emit_fld ..).trans (denied_fld_seen _ r a), (emit_fld ..).trans (denied_fld_addr _ r a), by simp⟩

theorem exchangeRead_misuse_ends {r : Req} {addr : Nat} {ups : Upsets} {v : State} (hv : v = s.upset ups)
    (ht : v.target r addr = .exm a) (hsema : (wordsOf a n).any v.inSema = true) (hpart : a % 8 ≠ 0 ∨ n ≠ 8) :
    Ends (.exchangeRead r addr n ups false) s (fun t =>
      t.out = .readData r.port r.id (List.replicate n 0xFF) false :: v.out ∧ t.exm = v.exm ∧
      t.fld F.EXM_CNT_SEMA_MISUSE_COUNT = min (v.fld F.EXM_CNT_SEMA_MISUSE_COUNT + 1) (2 ^ 32 - 1) ∧
        OnlyIn [.regs, .out] v t) := by
  subst hv
  exact ⟨_, (exec_exchangeRead_exm r n ups s ht).trans (congrArg _ (exmRead_misuse hsema hpart)), by simp, by simp,
    (emit_fld ..).trans (fld_bump_self _ _ (by decide) (by decide)), misuse_onlyIn _ _⟩

theorem exchangeWrite_granted_ends {r : Req} {addr : Nat} {d : List Byte} {ups : Upsets} {v : State} (hv : v = s.upset ups)
    (ht : v.target r addr = .exm a) (hd : d ≠ []) (hw : Writable v r a d.length) :
    Ends (.exchangeWrite r addr d ups false) s (fun t => t.exmBytes a d.length = d ∧
      (∀ b, b < a ∨ a + d.length ≤ b → t.exmByte b = s.exmByte b) ∧ OnlyIn [.exm, .exmMem] v t) := by
  subst hv
  have hdone := exmWrite_granted hd hw
  exact ⟨_, exec_exchangeWrite_exm r d ups s ht, hdone.exmBytes,
    fun b hb => (hdone.outside hb).trans (upset_exmByte s ups b), hdone.parts⟩

theorem exchangeWrite_denied_ends {r : Req} {addr : Nat} {d : List Byte} {ups : Upsets} {v : State} (hv : v = s.upset ups)
    (ht : v.target r addr = .exm a) (hd : d ≠ []) (h8 : a % 8 + d.length ≤ 8) (hsema : v.inSema a = false)
    (htrig : ¬ TriggerByte a) (hmay : v.mayAccess r a true = false) :
    Ends (.exchangeWrite r addr d ups false) s (fun t =>
      t.exm = v.exm ∧ t.fld F.EXM_STATUS_DENIED_SEEN = 1 ∧ OnlyIn [.regs] v t) := by
  subst hv
  exact ⟨_, (exec_exchangeWrite_exm r d ups s ht).trans (congrArg _ (exmWrite_denied hd h8 hsema htrig hmay)),
    denied_exm _ r a,
    denied_fld_seen _ r a, denied_onlyIn _ r a⟩

/-- An access of a VF at no place of its window (R142, Table 04-6). -/
theorem exec_exchange_nothing {r : Req} {addr : Nat} (len : Nat) (d : List Byte) (ht : s.target r addr = .nothing) :
    exec (.exchangeRead r addr len [] false) s = .next (s.emit (.readData r.port r.id (List.replicate len 0) false)) ∧
    exec (.exchangeWrite r addr d [] false) s = .next s := by
  change execExchangeRead r addr len [] false s = _ ∧ execExchangeWrite r addr d [] false s = _
  simp [execExchangeRead, execExchangeWrite, State.upset, ht]

/-- Settles O25: the parts of an access tile it, each part reads or writes its own bytes, and bytes written beside the trigger
words leave the access to the next part as it was. -/
theorem exchangeReadsAndWrites : Obligations.ExchangeReadsAndWrites := by
  refine ⟨fun r addr len a ups s v hv ht hn hsema => ⟨fun hmay hclean => ?_, exchangeRead_denied_ends hv ht hn hsema⟩,
    fun r addr len a ups s v hv ht hsema hpart => exchangeRead_misuse_ends hv ht hsema hpart,
    fun r addr a d ups s v hv ht hd hplain => ⟨fun hmay hclean => ?_, fun h8 hmay => ?_⟩,
    fun r addr len d s ht => exec_exchange_nothing len d ht⟩
  · subst hv
    rw [exec_exchangeRead_exm r len ups s ht, exmRead_granted hn hsema hmay hclean]
  · exact exchangeWrite_granted_ends hv ht hd ⟨fun b hlo hhi => (hplain b hlo hhi).1, fun b hlo hhi => (hplain b hlo hhi).2,
      hmay, hasUe_of_any hclean⟩
  · obtain ⟨hsema, htrig⟩ := hplain a (Nat.le_refl a) (Nat.lt_add_of_pos_right (List.length_pos_iff.mpr hd))
    exact exchangeWrite_denied_ends hv ht hd h8 hsema htrig hmay

/-! ### Semaphores (R145) -/

theorem exec_semaReadAcquire_alone {r : Req} {addr : Nat} (ht : s.target r addr = .exm a) :
    exec (.semaReadAcquire r addr none) s = .next (s.exmRead r a 8) := by
  change execSemaReadAcquire r addr none s = _
  simp only [execSemaReadAcquire, ht, ite_self]

theorem semaTake_written (s : State) (a tok : Nat) : BytesWritten s (s.semaTake a tok) a (leBytes 8 tok) where
  bytes := exmPut_exmByte s a _
  ue _ := id
  parts := (semaTake_kept (P := 1073741888) s a tok (Kept.refl s) (by decide)).onlyIn (fun p => by cases p <;> decide)

theorem exmRead_sema {r : Req} (hsema : s.inSema a = true) (hal : a % 8 = 0) (hmay : s.mayAccess r a false = true) :
    s.exmRead r a 8 = (s.semaRead r a).1.emit (.readData r.port r.id (leBytes 8 (s.semaRead r a).2) false) := by
  have hword : wordsOf a 8 = [a] := by rw [wordsOf_one (by decide) (by omega), hal, Nat.sub_zero]
  simp [State.exmRead, hword, hsema, hal, hmay]

theorem semaRead_free (r : Req) (hfree : s.exmLe a 8 = 0) : s.semaRead r a = (s.semaTake a (token r), 0) := by
  simp [State.semaRead, hfree]

theorem semaRead_held (r : Req) (hheld : s.exmLe a 8 ≠ 0) : s.semaRead r a = (s, s.exmLe a 8) := by
  simp [State.semaRead, hheld]

/-- Settles O26: both commands are the read of one semaphore word, which takes a free word and leaves a held one. -/
theorem semaphoreReadAcquires : Obligations.SemaphoreReadAcquires := by
  intro r addr a s cmd ht hsema hal hmay hcmd
  have hread : exec cmd s = .next ((s.semaRead r a).1.emit (.readData r.port r.id (leBytes 8 (s.semaRead r a).2) false)) := by
    rw [← exmRead_sema hsema hal hmay]
    rcases hcmd with rfl | rfl
    · exact exec_exchangeRead_exm r 8 [] s ht
    · exact exec_semaReadAcquire_alone ht
  refine ⟨fun hfree => ?_, fun hheld => by rw [hread, semaRead_held r hheld]⟩
  rw [semaRead_free r hfree] at hread
  have htaken := semaTake_written s a (token r)
  exact ⟨_, hread, rfl, htaken.exmBytes, fun b hb => htaken.outside hb,
    (htaken.parts.mono (by decide)).trans ((emit_kept (P := 0x4000000) (Kept.refl _) _ (by decide)).onlyIn
      (fun p => by cases p <;> decide))⟩

end Sys2Proof.Machine
end

section
/-! SUPPORT. The pacing of the MSI-X messages (R156) and the clearing of the exchange counters (R160). -/

namespace Sys2Proof.Machine

variable {s : State} {fn vec : Nat} {p : MsixPace}

/-! ### MSIX_HOLDOFF_END -/

/-- The pacing state of vector `vec` of function `fn`. -/
def State.pace (s : State) (fn vec : Nat) : MsixPace := fget (fun _ => ({} : MsixPace)) s.exm.msix (32 * fn + vec)

/-- The vector's pacing state becomes `p`. -/
def State.setPace (s : State) (fn vec : Nat) (p : MsixPace) : State :=
  { s with exm := { s.exm with msix := fset (fun _ => {}) s.exm.msix (32 * fn + vec) p } }

@[simp] theorem setPace_pace (s : State) (fn vec : Nat) (p : MsixPace) : (s.setPace fn vec p).pace fn vec = p :=
  fget_fset_self _ _ _ _

theorem setPace_onlyIn (s : State) (fn vec : Nat) (p : MsixPace) : OnlyIn [.exm] s (s.setPace fn vec p) := by
  have hkept : Kept 64 s (s.setPace fn vec p) := (Kept.refl s).set_exm _ (by decide) rfl
  exact hkept.onlyIn (fun p => by cases p <;> decide)

theorem exec_msixHoldoffEnd_idle (hbusy : (s.pace fn vec).busy = false) : exec (.msixHoldoffEnd fn vec) s = .next s := by
  have hget : (fget (fun _ => ({} : MsixPace)) s.exm.msix (32 * fn + vec)).busy = false := hbusy
  change execMsixHoldoffEnd fn vec s = _
  simp [execMsixHoldoffEnd, hget]

theorem exec_msixHoldoffEnd_busy (hbusy : (s.pace fn vec).busy = true) : exec (.msixHoldoffEnd fn vec) s = .next (
    if (s.pace fn vec).merged then
      if s.msixHeld fn vec then s.setPace fn vec { s.pace fn vec with busy := false, merged := false, pba := true }
      else (s.setPace fn vec { s.pace fn vec with merged := false }).emit (.msix fn vec)
    else s.setPace fn vec { s.pace fn vec with busy := false }) := by
  have hget : (fget (fun _ => ({} : MsixPace)) s.exm.msix (32 * fn + vec)).busy = true := hbusy
  change execMsixHoldoffEnd fn vec s = _
  simp [execMsixHoldoffEnd, hget, State.pace, State.setPace]

theorem msixHoldoffEnd_sends (hp : s.pace fn vec = p) (hbusy : p.busy = true) (hmerged : p.merged = true)
    (hfree : s.msixHeld fn vec = false) : Ends (.msixHoldoffEnd fn vec) s (fun t =>
      t.out = .msix fn vec :: s.out ∧ t.pace fn vec = { p with merged := false } ∧ OnlyIn [.exm, .out] s t) := by
  subst hp
  have hexec := exec_msixHoldoffEnd_busy hbusy
  rw [hmerged, hfree] at hexec
  exact ⟨_, hexec, rfl, setPace_pace s fn vec _, ((setPace_onlyIn s fn vec _).mono (by decide)).trans
    ((emit_kept (P := 0x4000000) (Kept.refl _) _ (by decide)).onlyIn (fun p => by cases p <;> decide))⟩

theorem msixHoldoffEnd_holds (hp : s.pace fn vec = p) (hbusy : p.busy = true) (hmerged : p.merged = true)
    (hheld : s.msixHeld fn vec = true) : Ends (.msixHoldoffEnd fn vec) s (fun t =>
      t.pace fn vec = { p with busy := false, merged := false, pba := true } ∧ OnlyIn [.exm] s t) := by
  subst hp
  have hexec := exec_msixHoldoffEnd_busy hbusy
  rw [hmerged, hheld] at hexec
  exact ⟨_, hexec, setPace_pace s fn vec _, setPace_onlyIn s fn vec _⟩

theorem msixHoldoffEnd_expires (hp : s.pace fn vec = p) (hbusy : p.busy = true) (hmerged : p.merged = false) :
    Ends (.msixHoldoffEnd fn vec) s (fun t => t.pace fn vec = { p with busy := false } ∧ OnlyIn [.exm] s t) := by
  subst hp
  have hexec := exec_msixHoldoffEnd_busy hbusy
  rw [hmerged] at hexec
  exact ⟨_, hexec, setPace_pace s fn vec _, setPace_onlyIn s fn vec _⟩

/-! ### CLR_COUNTERS -/

theorem fld_resetRegs_zero (s : State) {f : Fld} {lo hi : Nat} (hlo : lo ≤ f.addr) (hhi : f.addr < hi)
    (hreset : regReset f.addr = 0) : (s.resetRegs lo hi).fld f = 0 := by
  unfold State.fld
  rw [reg_resetRegs, if_pos ⟨hlo, hhi⟩, hreset]
  simp [bitsOf]

theorem resetRegs_onlyIn (s : State) (lo hi : Nat) : OnlyIn [.regs] s (s.resetRegs lo hi) :=
  (resetRegs_kept (P := 1) (Kept.refl s) lo hi (by decide)).onlyIn (fun p => by cases p <;> decide)

theorem exec_clrCounters (v : Word) (s : State) : exec (.clrCounters v) s = .next (
    if tst v.toNat 0 then s.resetRegs R.EXM_CNT_COLLIDE_WW (R.EXM_CNT_ECC_UE + 4) else s) := rfl

/-- Settles O29: a busy vector's interval ends in one of three ways, and the ten counters fill the block that is put back to
reset, where each reads 0. -/
theorem messagesArePacedAndCountersCleared : Obligations.MessagesArePacedAndCountersCleared := by
  refine ⟨fun fn vec s p hp => ?_, fun v s hclr => ?_, fun v s hno =>
    (exec_clrCounters v s).trans (congrArg _ (if_neg (by simp [hno])))⟩
  · have hpace : s.pace fn vec = p := hp.symm
    exact ⟨fun hidle => exec_msixHoldoffEnd_idle (hpace ▸ hidle), msixHoldoffEnd_sends hpace, msixHoldoffEnd_holds hpace,
      msixHoldoffEnd_expires hpace⟩
  · refine ⟨_, (exec_clrCounters v s).trans (congrArg _ (if_pos hclr)), ?_, ?_, ?_, ?_, ?_, ?_, ?_, ?_, ?_, ?_,
      resetRegs_onlyIn s _ _, fun a ha => ?_⟩
    case refine_11 =>
      have hout : ¬ (R.EXM_CNT_COLLIDE_WW ≤ a ∧ a < R.EXM_CNT_ECC_UE + 4) := by omega
      rw [reg_resetRegs, if_neg hout]
    all_goals exact fld_resetRegs_zero s (by decide) (by decide) (by decide)

end Sys2Proof.Machine
end

section
/-! SUPPORT. How the command engine answers a request that passes its checks (R161 to R163). -/

namespace Sys2Proof.Machine

variable {s t v : State} {ups : Upsets} {op k : Nat} {c : Call}

theorem answer_of_asked (h : Asked s op ups k v c) (body : Call → State → Reply) : v.answer k body = body c v := by
  obtain ⟨-, -, -, hcall, hlen, hsound, r, hrow, hpass⟩ := h
  rw [hcall] at hrow hpass
  simp [State.answer, hlen, hsound, hrow, hpass, hcall]

theorem command_of_asked (h : Asked s op ups k v c) (body : Call → State → Reply) :
    s.command op ups body = .next (State.finish k ((s.upset ups).exmBytes (slotAddr k) 56) (body c v)) := by
  rw [← answer_of_asked h body, h.taken]
  simp only [State.command, State.serve, h.next, h.opcode, if_true]

/-- A command whose body ends from `u` with this STATUS, DETAIL and RESULT is answered so. -/
theorem answered_of_body {cmd : Instr} {body : Call → State → Reply} {u : State} {st d : Nat} {res : List Byte}
    (h : Asked s op ups k v c) (hexec : exec cmd s = s.command op ups body) (hbody : body c v = ⟨u, st, d, res⟩) :
    Answered cmd s ups k u st d res :=
  hexec.trans ((command_of_asked h body).trans (by rw [hbody]))

theorem ofLe_lt (l : List Byte) : ofLe l < 256 ^ l.length := by
  induction l with
  | nil => simp [ofLe]
  | cons b l ih =>
    have hb := b.isLt
    rw [ofLe, List.length_cons, Nat.pow_succ]
    omega

theorem arg_lt (c : Call) (o n : Nat) : c.arg o n < 256 ^ n := by
  have h := ofLe_lt (sliceOf c.p o n)
  rwa [length_sliceOf] at h

/-- A field that the value fits reads as the value just written. -/
theorem fld_setFld_fits (s : State) {f : Fld} {x : Nat} (hf : f.lo ≤ f.hi) (h32 : f.hi < 32)
    (hx : x < 2 ^ (f.hi + 1 - f.lo)) : (s.setFld f x).fld f = x := by
  rw [fld_setFld_self s f x hf h32, Nat.mod_eq_of_lt hx]

end Sys2Proof.Machine
end

section
/-! SUPPORT. The commands of the exchange layout, the slowdown settings and the schedule (R138 to R140, R193, R195, R536, R539,
R564): what the state holds where their checks pass. -/

namespace Sys2Proof.Machine

variable {s t v : State} {ups : Upsets} {k : Nat} {c : Call}

/-! ### EXCHANGE_REGION_SET (R138 to R140) -/

/-- The arguments fit the fields of a region descriptor (Table 04-11). -/
structure Call.RegionFits (c : Call) : Prop where
  base : c.arg 12 4 < 2 ^ 17
  size : c.arg 16 4 < 2 ^ 17
  kind : c.arg 9 1 < 2 ^ 2
  vf : c.arg 10 1 < 2 ^ 6
  sema : c.arg 11 1 < 2
  lease : c.arg 20 4 < 2 ^ 20

/-- The addresses outside descriptor `r`. -/
abbrev OffRegion (r a : Nat) : Prop := a < 0x81000 + 0x10 * r ∨ 0x81010 + 0x10 * r ≤ a

theorem setRegion_keepsRegs (s : State) (r : Nat) (c : Call) : KeepsRegs (OffRegion r) s (s.setRegion r c) := by
  unfold State.setRegion
  have h1 : KeepsRegs (OffRegion r) s (((s.setFld (F.EXM_RGN_BASE_BASE r) (c.arg 12 4)).setFld (F.EXM_RGN_SIZE_SIZE r)
      (c.arg 16 4)).setFld (F.EXM_RGN_ATTR_KIND r) (c.arg 9 1)) :=
    (((KeepsRegs.refl s).setFld (by simp) _).setFld (by simp) _).setFld (by simp) _
  exact ((h1.setFld (by simp) _).setFld (by simp) _).setFld (by simp) _

theorem KeepsRegs.region {A : Nat → Prop} {q : Nat} (h : KeepsRegs A s t) (hA : ∀ a, ¬ OffRegion q a → A a) :
    t.region q = s.region q := by
  have hin : ∀ f : Fld, f.addr ∈ [R.EXM_RGN_BASE q, R.EXM_RGN_SIZE q, R.EXM_RGN_ATTR q, R.EXM_RGN_LEASE q] →
      t.fld f = s.fld f := fun f hf => h.fld (hA _ (by
    simp [R.EXM_RGN_BASE, R.EXM_RGN_SIZE, R.EXM_RGN_ATTR, R.EXM_RGN_LEASE] at hf
    omega))
  simp [State.region, State.bit, hin]

theorem setRegion_region (s : State) (r : Nat) (hfits : c.RegionFits) : (s.setRegion r c).region r = c.region := by
  have hbase := fun u : State => fld_setFld_fits u (f := F.EXM_RGN_BASE_BASE r) (by simp) (by simp) hfits.base
  have hsize := fun u : State => fld_setFld_fits u (f := F.EXM_RGN_SIZE_SIZE r) (by simp) (by simp) hfits.size
  have hkind := fun u : State => fld_setFld_fits u (f := F.EXM_RGN_ATTR_KIND r) (by simp) (by simp) hfits.kind
  have hvf := fun u : State => fld_setFld_fits u (f := F.EXM_RGN_ATTR_VF r) (by simp) (by simp) hfits.vf
  have hsema := fun u : State => fld_setFld_fits u (f := F.EXM_RGN_ATTR_SEMA r) (by simp) (by simp) hfits.sema
  have hlease := fun u : State => fld_setFld_fits u (f := F.EXM_RGN_LEASE_LEASE_US r) (by simp) (by simp) hfits.lease
  simp [State.region, State.setRegion, State.bit, Call.region, fld_setFld_ne, fld_setFld_disjoint, hbase, hsize, hkind, hvf,
    hsema, hlease]

/-- The state in which descriptor `r` is what the request describes: where that is a change, the bytes that leave the region
it replaces are zeroed, and it is logged (R139, R140). -/
def State.regionSet (v : State) (r : Nat) (c : Call) : State :=
  if v.region r = c.region then v
  else ((v.zeroLeaving (v.region r) (v.regionsWith r c.region)).setRegion r c).log 0x0403 1 0 0xFFFF r 0

theorem zeroLeaving_regs (v : State) (g : Region) (l : List Region) : (v.zeroLeaving g l).regs = v.regs :=
  (zeroLeaving_kept (P := 1073741888) v g l (Kept.refl v) (by decide)).regs_eq (by decide)

theorem log_region (s : State) (code vf sev unit a x : Nat) {q : Nat} (hq : q ≤ 127) :
    (s.log code vf sev unit a x).region q = s.region q :=
  KeepsRegs.region (A := OffRecorder) (fun b hb => log_reg s code vf sev unit a x b hb) fun a ha => by omega

theorem regionSet_region_self {r : Nat} (hr : r ≤ 127) (hfits : c.RegionFits) : (v.regionSet r c).region r = c.region := by
  unfold State.regionSet
  split
  · assumption
  · rw [log_region _ _ _ _ _ _ _ hr, setRegion_region _ r hfits]

theorem regionSet_region_ne {r q : Nat} (hq : q ≠ r) (hq127 : q ≤ 127) : (v.regionSet r c).region q = v.region q := by
  unfold State.regionSet
  split
  · rfl
  · rw [log_region _ _ _ _ _ _ _ hq127, (setRegion_keepsRegs _ r c).region (fun a ha => by omega),
      region_congr (zeroLeaving_regs v _ _)]

theorem regionSet_onlyIn (v : State) (r : Nat) (c : Call) : OnlyIn (.exm :: .exmMem :: logParts) v (v.regionSet r c) := by
  have hkept : Kept 1946159809 v (v.regionSet r c) := kept_ite (Kept.refl v) (log_kept _ _ _ _ _ _ _
    (setRegion_kept _ _ _ (zeroLeaving_kept _ _ _ (Kept.refl v) (by decide)) (by decide)) (by decide))
  exact hkept.onlyIn (fun p => by cases p <;> decide)

theorem exchangeRegionSet_answered {r : Nat} (h : Asked s 0x0301 ups k v c) (hr : r = c.arg 8 1) (h127 : r ≤ 127)
    (hkind : c.region.kind ≤ 2) (hvf : c.region.vf ≤ 63) (hboth : c.region.kind = 0 ↔ c.region.vf = 0)
    (hsema : c.arg 11 1 ≤ 1) (hbase : c.arg 12 4 < 2 ^ 17) (hsize : c.arg 16 4 < 2 ^ 17) (hlease : c.region.lease ≤ 1000000)
    (hfree : v.regionConflict (v.regionsWith r c.region) = false) :
    ∃ u, Answered (.exchangeRegionSet ups) s ups k u 0 0 [] ∧ u.region r = c.region ∧
      (∀ q, q ≠ r → q ≤ 127 → u.region q = v.region q) ∧ OnlyIn (.exm :: .exmMem :: logParts) v u := by
  subst hr
  have hfits : c.RegionFits := ⟨hbase, hsize, Nat.lt_of_le_of_lt hkind (by decide), Nat.lt_of_le_of_lt hvf (by decide),
    Nat.lt_of_le_of_lt hsema (by decide), Nat.lt_of_le_of_lt hlease (by decide)⟩
  have hsides : (c.region.kind == 0) = (c.region.vf == 0) :=
    Bool.eq_iff_iff.mpr (beq_iff_eq.trans (hboth.trans beq_iff_eq.symm))
  have hmatch : ((c.region.kind == 0) != (c.region.vf == 0)) = false := by rw [hsides, bne_self_eq_false]
  have hbase' : ¬ 131072 ≤ c.arg 12 4 := Nat.not_le.mpr hbase
  have hsize' : ¬ 131072 ≤ c.arg 16 4 := Nat.not_le.mpr hsize
  refine ⟨v.regionSet (c.arg 8 1) c, answered_of_body h rfl ?_, regionSet_region_self h127 hfits,
    fun q hq hq127 => regionSet_region_ne hq hq127, regionSet_onlyIn v _ c⟩
  by_cases hsame : v.region (c.arg 8 1) = c.region
  all_goals simp [Nat.not_lt.mpr, h127, hkind, hvf, hmatch, hsema, hbase', hsize', hlease, hfree, hsame, State.ok,
    State.regionSet]

/-! ### EXCHANGE_WINDOW_SET (R140) -/

/-- The state in which the window of VF `n` begins at 4 KiB unit `b`; a change is logged. -/
def State.windowSet (v : State) (n b : Nat) : State :=
  if v.fld (F.EXM_VF_WIN_BASE n) = b then v else (v.setFld (F.EXM_VF_WIN_BASE n) b).log 0x0403 1 n 0xFFFF (0x100 + n) 0

theorem windowSet_fld {n b : Nat} (h63 : n ≤ 63) (hb : b ≤ 1969) : (v.windowSet n b).fld (F.EXM_VF_WIN_BASE n) = b := by
  unfold State.windowSet
  split
  · assumption
  · rw [log_fld _ _ _ _ _ _ _ _ (.inl (by simp only [R.EXM_VF_WIN]; omega))]
    exact fld_setFld_fits v (by simp) (by simp) (by simp; omega)

theorem windowSet_onlyIn (v : State) (n b : Nat) : OnlyIn logParts v (v.windowSet n b) := by
  have hkept : Kept 872417921 v (v.windowSet n b) :=
    kept_ite (Kept.refl v) (log_kept _ _ _ _ _ _ _ (setFld_kept (Kept.refl v) _ _ (by decide)) (by decide))
  exact hkept.onlyIn (fun p => by cases p <;> decide)

theorem exchangeWindowSet_answered {n : Nat} (h : Asked s 0x0302 ups k v c) (hn : n = c.arg 8 1) (h1 : 1 ≤ n) (h63 : n ≤ 63)
    (hbase : c.arg 12 4 ≤ 1969)
    (hin : ∀ r, r < 128 → (v.region r).size = 0 ∨ (v.region r).kind = 0 ∨ (v.region r).vf ≠ n ∨
      inWindow (v.region r) (4096 * c.arg 12 4) = true) :
    ∃ u, Answered (.exchangeWindowSet ups) s ups k u 0 0 [] ∧ u.fld (F.EXM_VF_WIN_BASE n) = c.arg 12 4 ∧
      OnlyIn logParts v u := by
  subst hn
  have hany : (List.range 128).any (fun r => (v.region r).size != 0 && (v.region r).kind != 0 && (v.region r).vf == c.arg 8 1 &&
      !inWindow (v.region r) (4096 * c.arg 12 4)) = false := by
    refine List.any_eq_false.mpr fun r hr => ?_
    rcases hin r (List.mem_range.mp hr) with h | h | h | h <;> simp [h]
  have hpos : c.arg 8 1 ≠ 0 := by omega
  refine ⟨v.windowSet (c.arg 8 1) (c.arg 12 4), answered_of_body h rfl ?_, windowSet_fld h63 hbase, windowSet_onlyIn v _ _⟩
  by_cases hsame : v.fld (F.EXM_VF_WIN_BASE (c.arg 8 1)) = c.arg 12 4
  all_goals simp [Nat.not_lt.mpr, hpos, h63, hbase, hany, hsame, State.ok, State.windowSet]

/-! ### SLOWDOWN_SET (R564) -/

/-- The slowdown settings of VF `m` are those of the request. -/
structure SlowdownHolds (t : State) (c : Call) (m : Nat) : Prop where
  threshold : t.fld (F.SCH_SD_CFG_THRESHOLD m) = c.arg 10 2
  persist : t.fld (F.SCH_SD_CFG_PERSIST m) = c.arg 12 2
  action : t.fld (F.SCH_SD_STATE_ACTION m) = c.arg 9 1

theorem slowdownSet_regs (s : State) (c : Call) (n : Nat) : (s.slowdownSet c n).regs =
    (((s.setFld (F.SCH_SD_CFG_THRESHOLD n) (c.arg 10 2)).setFld (F.SCH_SD_CFG_PERSIST n) (c.arg 12 2)).setFld
      (F.SCH_SD_STATE_ACTION n) (c.arg 9 1)).regs := by
  unfold State.slowdownSet
  dsimp only
  split <;> rfl

theorem slowdownSet_holds_self (s : State) (m : Nat) (haction : c.arg 9 1 ≤ 1) : SlowdownHolds (s.slowdownSet c m) c m := by
  have hthreshold := fun u : State => fld_setFld_fits u (f := F.SCH_SD_CFG_THRESHOLD m) (by simp) (by simp) (arg_lt c 10 2)
  have hpersist := fun u : State => fld_setFld_fits u (f := F.SCH_SD_CFG_PERSIST m) (by simp) (by simp) (arg_lt c 12 2)
  have hact := fun u : State => fld_setFld_fits u (f := F.SCH_SD_STATE_ACTION m) (x := c.arg 9 1) (by simp) (by simp)
    (Nat.lt_of_le_of_lt haction (by simp))
  constructor
  all_goals rw [fld_of_regs (slowdownSet_regs s c m)]
  all_goals simp [fld_setFld_ne, fld_setFld_disjoint, hthreshold, hpersist, hact]

theorem slowdownSet_keepsRegs (s : State) (c : Call) (n : Nat) :
    KeepsRegs (fun a => a < 0x401000 + 0x8 * n ∨ 0x401008 + 0x8 * n ≤ a) s (s.slowdownSet c n) := by
  refine KeepsRegs.of_regs ?_ (slowdownSet_regs s c n)
  exact (((KeepsRegs.refl s).setFld (by simp) _).setFld (by simp) _).setFld (by simp) _

theorem SlowdownHolds.slowdownSet {m : Nat} (h : SlowdownHolds s c m) (haction : c.arg 9 1 ≤ 1) (n : Nat) :
    SlowdownHolds (s.slowdownSet c n) c m := by
  by_cases hn : n = m
  · exact hn ▸ slowdownSet_holds_self s n haction
  · have hkeep := slowdownSet_keepsRegs s c n
    exact ⟨(hkeep.fld (by simp only [R.SCH_SD_CFG]; omega)).trans h.threshold,
      (hkeep.fld (by simp only [R.SCH_SD_CFG]; omega)).trans h.persist,
      (hkeep.fld (by simp only [R.SCH_SD_STATE]; omega)).trans h.action⟩

theorem foldl_slowdownSet_holds {l : List Nat} {m : Nat} (haction : c.arg 9 1 ≤ 1) (h : m ∈ l ∨ SlowdownHolds s c m) :
    SlowdownHolds (l.foldl (fun s n => s.slowdownSet c n) s) c m := by
  induction l generalizing s with
  | nil => exact h.resolve_left List.not_mem_nil
  | cons n l ih =>
    refine ih ?_
    rcases h with hmem | hholds
    · rcases List.mem_cons.mp hmem with rfl | hmem
      · exact .inr (slowdownSet_holds_self s m haction)
      · exact .inl hmem
    · exact .inr (hholds.slowdownSet haction n)

theorem foldl_slowdownSet_onlyIn (v : State) (c : Call) (l : List Nat) :
    OnlyIn [.regs, .sch] v (l.foldl (fun s n => s.slowdownSet c n) v) := by
  have hkept : Kept 131073 v (l.foldl (fun s n => s.slowdownSet c n) v) :=
    kept_foldl (fun _ _ hu => slowdownSet_kept _ _ _ hu (by decide)) (Kept.refl v)
  exact hkept.onlyIn (fun p => by cases p <;> decide)

theorem mem_vfs {m : Nat} (h1 : 1 ≤ m) (h63 : m ≤ 63) : m ∈ vfs :=
  List.mem_map.mpr ⟨m - 1, List.mem_range.mpr (by omega), by omega⟩

theorem slowdownSet_answered {n : Nat} (h : Asked s 0x0207 ups k v c) (hn : n = c.arg 8 1) (h63 : n ≤ 63)
    (haction : c.arg 9 1 ≤ 1) (hth : c.arg 10 2 = 0 ∨ (256 < c.arg 10 2 ∧ c.arg 12 2 ≠ 0)) :
    ∃ u, Answered (.slowdownSet ups) s ups k u 0 0 [] ∧
      (∀ m, 1 ≤ m → m ≤ 63 → n = 0 ∨ m = n → u.fld (F.SCH_SD_CFG_THRESHOLD m) = c.arg 10 2 ∧
        u.fld (F.SCH_SD_CFG_PERSIST m) = c.arg 12 2 ∧ u.fld (F.SCH_SD_STATE_ACTION m) = c.arg 9 1) ∧
      OnlyIn [.regs, .sch] v u := by
  subst hn
  have hrange : ¬ (1 ≤ c.arg 10 2 ∧ c.arg 10 2 ≤ 256) := by omega
  have hcount : ¬ (c.arg 10 2 ≠ 0 ∧ c.arg 12 2 = 0) := by omega
  refine ⟨(if c.arg 8 1 = 0 then vfs else [c.arg 8 1]).foldl (fun s n => s.slowdownSet c n) v, answered_of_body h rfl ?_,
    fun m h1 hm63 hm => ?_, foldl_slowdownSet_onlyIn v c _⟩
  · simp only [Bool.and_eq_true, decide_eq_true_eq, Nat.not_lt.mpr h63, Nat.not_lt.mpr haction, hrange, hcount, if_false,
      State.ok]
  · have hmem : m ∈ (if c.arg 8 1 = 0 then vfs else [c.arg 8 1]) := by
      split
      · exact mem_vfs h1 hm63
      · exact List.mem_singleton.mpr (hm.resolve_left ‹_›)
    obtain ⟨hthreshold, hpersist, hact⟩ := foldl_slowdownSet_holds haction (.inl hmem) (s := v)
    exact ⟨hthreshold, hpersist, hact⟩

/-! ### SCHED_WRITE (R193, R539) -/

theorem putEntries_table (s : State) (base : Nat) (es : List Entry) : (s.putEntries base es).sch.table =
    es.zipIdx.foldl (fun m p => fset (fun _ => 0) m (base + p.2) p.1) s.sch.table := by
  unfold State.putEntries
  exact (List.foldl_hom (fun u : State => u.sch.table) (fun _ _ => rfl)).symm

theorem putEntries_entryAt (s : State) (base : Nat) (es : List Entry) (i : Nat) : (s.putEntries base es).entryAt i =
    if base ≤ i ∧ i < base + es.length then es.getD (i - base) 0 else s.entryAt i := by
  unfold State.entryAt
  rw [putEntries_table]
  exact fget_foldl_zipIdx _ 0 es base 0 s.sch.table i

theorem putEntries_onlyIn (s : State) (base : Nat) (es : List Entry) : OnlyIn [.sch] s (s.putEntries base es) :=
  (putEntries_kept (P := 131072) s base es (Kept.refl s) (by decide)).onlyIn (fun p => by cases p <;> decide)

theorem schedWrite_answered {bank first n : Nat} {es : List Entry} {get : Nat → Entry} (h : Asked s 0x0501 ups k v c)
    (hrange : c.schedRange = none) (hbank : bank = c.arg 8 1) (hfirst : first = c.arg 10 2) (hn : n = c.arg 12 2)
    (hbuf : v.bufferOk k (c.arg 16 4) (32 * n) = true) (hue : v.bufferUe (c.arg 16 4) (32 * n) = false)
    (hes : es = (List.range n).map (fun i =>
      stamp (v.exmLe (c.arg 16 4 + 32 * i) 32) (v.entryAt (2048 * bank + (first + i)))))
    (hget : get = fun i => if first ≤ i && i < first + n then es.getD (i - first) 0 else v.entryAt (2048 * bank + i))
    (hcheck : v.checkEntries v.layNow v.period10 get ((List.range n).map (first + ·)) = none)
    (hexcl : (v.hyperOf bank).bind (fun h => exclWithRt get h ((List.range n).map (first + ·))) = none)
    (hrun : v.recovering = false) :
    ∃ u, Answered (.schedWrite ups) s ups k u 0 0 [] ∧
      (∀ i, i < n → some (u.entryAt (2048 * bank + first + i)) = es[i]?) ∧
      (∀ i, i < 2048 * bank + first ∨ 2048 * bank + first + n ≤ i → u.entryAt i = v.entryAt i) ∧ OnlyIn [.sch] v u := by
  have hlen : es.length = n := by rw [hes, List.length_map, List.length_range]
  have hfn : c.fn = k := by rw [h.call]
  refine ⟨v.putEntries (2048 * bank + first) es, answered_of_body h rfl ?_, fun i hi => ?_, fun i hi => ?_,
    putEntries_onlyIn v _ es⟩
  · subst hbank hfirst hn hes hget
    simp only [hrange, hfn, hbuf, hue, hcheck, hexcl, hrun, Bool.not_true, Bool.false_eq_true, if_false, State.ok]
  · rw [putEntries_entryAt, if_pos (by omega), Nat.add_sub_cancel_left, getD_of_lt (by omega),
      List.getElem?_eq_getElem]
  · rw [putEntries_entryAt, if_neg (by omega)]

/-! ### SCHED_SWAP (R195) -/

theorem swapPending_eq_none : s.swapPending = none ↔ s.eng.changes.find? (fun c => c.kind == 4) = none :=
  Option.map_eq_none_iff

/-- A swap to `h` positions at boundary `t` is pending and shown (R177). -/
def State.swapAsked (v : State) (t h : Nat) : State :=
  (State.setFld { v with eng := { v.eng with changes := v.eng.changes ++ [⟨4, 0, t, {}, h, 0⟩] } }
    F.SCH_STATUS_SWAP_PENDING 1).setPair R.SCH_SWAP_AT_LO R.SCH_SWAP_AT_HI t

theorem swapAsked_swapPending {t h : Nat} (hnone : v.swapPending = none) : (v.swapAsked t h).swapPending = some (t, h) := by
  have hfind := swapPending_eq_none.mp hnone
  have heng : (v.swapAsked t h).eng.changes = v.eng.changes ++ [⟨4, 0, t, {}, h, 0⟩] := rfl
  simp [State.swapPending, heng, List.find?_append, hfind]

theorem swapAsked_fld_pending (v : State) (t h : Nat) : (v.swapAsked t h).fld F.SCH_STATUS_SWAP_PENDING = 1 := by
  unfold State.swapAsked
  rw [fld_setPair_ne _ _ _ _ _ (by decide) (by decide), fld_setFld_fits _ (by decide) (by decide) (by decide)]

theorem swapAsked_bank (v : State) (t h : Nat) : (v.swapAsked t h).bank = v.bank := by
  unfold State.swapAsked State.bank
  rw [fld_setPair_ne _ _ _ _ _ (by decide) (by decide),
    fld_setFld_disjoint _ _ _ _ (by decide) (by decide) (by decide) (by decide)]
  exact fld_of_regs rfl _

theorem swapAsked_onlyIn (v : State) (t h : Nat) : OnlyIn [.regs, .eng] v (v.swapAsked t h) := by
  have hkept : Kept 4097 v (v.swapAsked t h) :=
    setPair_kept (setFld_kept ((Kept.refl v).set_eng _ (by decide)) _ _ (by decide)) _ _ _ (by decide)
  exact hkept.onlyIn (fun p => by cases p <;> decide)

theorem schedSwap_answered {h t : Nat} (ha : Asked s 0x0503 ups k v c) (hh : h = c.arg 8 1) (h1 : 1 ≤ h) (h64 : h ≤ 64)
    (ht : v.atTick (c.arg 16 8) = .inr t)
    (hcheck : v.checkEntries v.layNext (v.periodNext t) (fun i => v.entryAt (2048 * (1 - v.bank) + i)) (List.range (32 * h)) =
      none)
    (hexcl : exclWithRt (fun i => v.entryAt (2048 * (1 - v.bank) + i)) h [] = none) (hnone : v.swapPending = none)
    (hrun : v.recovering = false) :
    ∃ u, Answered (.schedSwap ups) s ups k u 0 0 (leBytes 8 t) ∧ u.swapPending = some (t, h) ∧
      u.fld F.SCH_STATUS_SWAP_PENDING = 1 ∧ u.bank = v.bank ∧ OnlyIn [.regs, .eng] v u := by
  subst hh
  have hpos : c.arg 8 1 ≠ 0 := by omega
  refine ⟨v.swapAsked t (c.arg 8 1), answered_of_body ha rfl ?_, swapAsked_swapPending hnone, swapAsked_fld_pending v t _,
    swapAsked_bank v t _, swapAsked_onlyIn v t _⟩
  simp [hpos, Nat.not_lt.mpr h64, ht, hcheck, hexcl, hnone, hrun, State.ok, State.swapAsked]

/-! ### SCHED_SWAP_APPLY (R195, R536, R555) -/

/-- The registers that reading a group leaves: it may log and count a skipped entry (R541). -/
abbrev OffSkip (a : Nat) : Prop := OffRecorder a ∧ a ≠ R.SCH_CNT_SKIP ∧ a ≠ R.SCH_LAST_SKIP

theorem skipEntry_keepsRegs (s : State) (i reason : Nat) : KeepsRegs OffSkip s (s.skipEntry i reason) := by
  have hlog : KeepsRegs OffSkip s (s.log 0x0801 2 0 0xFFFF i reason) := fun a ha => log_reg _ _ _ _ _ _ _ _ ha.1
  exact (hlog.bump (by simp)).setReg (by simp) _

theorem KeepsRegs.set_sch {A : Nat → Prop} (h : KeepsRegs A s t) (x : Sched) : KeepsRegs A s { t with sch := x } := h

theorem readGroup_keepsRegs (mid : Option (Nat × Nat)) (fuel : Nat) (s : State) :
    KeepsRegs OffSkip s (readGroup mid fuel s) := by
  induction fuel generalizing s with
  | zero => exact KeepsRegs.refl s
  | succ fuel ih =>
    rw [readGroup]
    refine keepsRegs_ite (KeepsRegs.refl s) (keepsRegs_ite ?_ (keepsRegs_ite ?_ (keepsRegs_ite ?_ ?_)))
    · exact ((skipEntry_keepsRegs s _ _).set_sch _).trans (ih _)
    · exact (KeepsRegs.refl s).set_sch _
    · exact KeepsRegs.refl s
    · exact ((KeepsRegs.refl s).set_sch _).trans (ih _)

theorem readGroup_eng (mid : Option (Nat × Nat)) (fuel : Nat) (s : State) : (readGroup mid fuel s).eng = s.eng :=
  (readGroup_kept (P := 872548993) mid fuel s (Kept.refl s) (by decide)).parts .eng (by decide)

/-- Bank `nb` becomes active at position 0 with `h` positions, and no swap is pending. -/
def State.swapTo (s : State) (nb h : Nat) : State :=
  ((((State.setFld { s with eng := { s.eng with changes := s.eng.changes.filter (fun d => d.kind != 4) } }
    F.SCH_STATUS_ACTIVE_BANK nb).setFld F.SCH_STATUS_HYPER h).setFld F.SCH_POS_POSITION 0).setFld
    F.SCH_STATUS_SWAP_PENDING 0).setPair R.SCH_SWAP_AT_LO R.SCH_SWAP_AT_HI 0

/-- The first group of bank `nb` stands read. -/
def State.groupFrom (s : State) (nb : Nat) : State :=
  if s.sch.rdBase = 2048 * nb && !s.sch.ahead then s else readGroup none 32 (s.readFrom (2048 * nb) false)

/-- From `s`, or from what pre-empting an exclusive job leaves of it (R555), the command goes to the other bank. -/
theorem exec_schedSwapApply {ch : Change} (hfind : s.eng.changes.find? (fun c => c.kind == 4) = some ch)
    (hrun : s.frozen = false) (hdue : ch.tick ≤ s.tickCount) :
    ∃ u : State, exec .schedSwapApply s = .next ((u.swapTo (1 - s.bank) ch.hyper).groupFrom (1 - s.bank)) := by
  change ∃ u : State, execSchedSwapApply s = .next ((u.swapTo (1 - s.bank) ch.hyper).groupFrom (1 - s.bank))
  unfold State.swapTo State.groupFrom
  simp only [execSchedSwapApply, hfind, hrun, Nat.not_lt.mpr hdue, Bool.false_or, decide_false, Bool.false_eq_true, if_false]
  exact ⟨_, rfl⟩

theorem groupFrom_keepsRegs (s : State) (nb : Nat) : KeepsRegs OffSkip s (s.groupFrom nb) :=
  keepsRegs_ite (KeepsRegs.refl s) (((KeepsRegs.refl s).set_sch _).trans (readGroup_keepsRegs none 32 _))

theorem groupFrom_eng (s : State) (nb : Nat) : (s.groupFrom nb).eng = s.eng := by
  unfold State.groupFrom
  split
  · rfl
  · exact readGroup_eng none 32 _

theorem swapTo_swapPending (s : State) (nb h : Nat) : (s.swapTo nb h).swapPending = none := by
  have heng : (s.swapTo nb h).eng.changes = s.eng.changes.filter (fun d => d.kind != 4) := rfl
  rw [swapPending_eq_none, heng, List.find?_filter, List.find?_eq_none]
  simp

theorem swapTo_bank (s : State) {nb : Nat} (h : Nat) (hnb : nb < 2) : (s.swapTo nb h).bank = nb := by
  unfold State.swapTo State.bank
  rw [fld_setPair_ne _ _ _ _ _ (by decide) (by decide),
    fld_setFld_disjoint _ _ _ _ (by decide) (by decide) (by decide) (by decide), fld_setFld_ne _ _ _ _ (by decide),
    fld_setFld_disjoint _ _ _ _ (by decide) (by decide) (by decide) (by decide), fld_setFld_fits _ (by decide) (by decide) hnb]

theorem swapTo_hyper (s : State) (nb : Nat) {h : Nat} (hh : h < 2 ^ 7) : (s.swapTo nb h).hyper = h := by
  unfold State.swapTo State.hyper
  rw [fld_setPair_ne _ _ _ _ _ (by decide) (by decide),
    fld_setFld_disjoint _ _ _ _ (by decide) (by decide) (by decide) (by decide), fld_setFld_ne _ _ _ _ (by decide),
    fld_setFld_fits _ (by decide) (by decide) hh]

theorem swapTo_position (s : State) (nb h : Nat) : (s.swapTo nb h).position = 0 := by
  unfold State.swapTo State.position
  rw [fld_setPair_ne _ _ _ _ _ (by decide) (by decide), fld_setFld_ne _ _ _ _ (by decide),
    fld_setFld_zero _ (by decide) (by decide)]

theorem swapTo_fld_pending (s : State) (nb h : Nat) : (s.swapTo nb h).fld F.SCH_STATUS_SWAP_PENDING = 0 := by
  unfold State.swapTo
  rw [fld_setPair_ne _ _ _ _ _ (by decide) (by decide), fld_setFld_zero _ (by decide) (by decide)]

theorem schedSwapApply_ends {t h : Nat} (hpend : s.swapPending = some (t, h)) (hdue : t ≤ s.tickCount)
    (hrun : s.frozen = false) (h64 : h ≤ 64) : Ends .schedSwapApply s (fun u =>
      u.bank = 1 - s.bank ∧ u.hyper = h ∧ u.position = 0 ∧ u.fld F.SCH_STATUS_SWAP_PENDING = 0 ∧ u.swapPending = none ∧
      OnlyIn (.eng :: .sch :: logParts) s u) := by
  obtain ⟨ch, hfind, hch⟩ := Option.map_eq_some_iff.mp hpend
  obtain ⟨rfl, rfl⟩ := Prod.mk.inj hch
  obtain ⟨u, hexec⟩ := exec_schedSwapApply hfind hrun hdue
  have hgroup := groupFrom_keepsRegs (u.swapTo (1 - s.bank) ch.hyper) (1 - s.bank)
  have hkept := (execSchedSwapApply_kept (P := 872553089) s (Kept.refl s) (by decide)).kept hexec
  refine ⟨_, hexec, ?_, ?_, ?_, ?_, ?_, hkept.onlyIn (fun p => by cases p <;> decide)⟩
  · exact (hgroup.fld (by decide)).trans (swapTo_bank u _ (by omega))
  · exact (hgroup.fld (by decide)).trans (swapTo_hyper u _ (by omega))
  · exact (hgroup.fld (by decide)).trans (swapTo_position u _ _)
  · exact (hgroup.fld (by decide)).trans (swapTo_fld_pending u _ _)
  · rw [swapPending_eq_none, groupFrom_eng]
    exact swapPending_eq_none.mp (swapTo_swapPending u _ _)

theorem exec_schedSwapApply_none (h : s.swapPending = none ∨ s.frozen = true) : exec .schedSwapApply s = .next s := by
  change execSchedSwapApply s = _
  cases hfind : s.eng.changes.find? (fun c => c.kind == 4) with
  | none => simp [execSchedSwapApply, hfind]
  | some ch =>
    have hfrozen : s.frozen = true := h.resolve_left fun hnone => by simp [swapPending_eq_none, hfind] at hnone
    simp [execSchedSwapApply, hfind, hfrozen]

/-- Settles O38: each body, with its checks passed, is one write of registers, table or pending changes; what the log, the
zeroing and the group read touch besides lies elsewhere. -/
theorem exchangeAndScheduleCommands : Obligations.ExchangeAndScheduleCommands :=
  ⟨fun _ _ _ _ _ _ h hr h127 hkind hvf hboth hsema hbase hsize hlease hfree =>
      exchangeRegionSet_answered h hr h127 hkind hvf hboth hsema hbase hsize hlease hfree,
    fun _ _ _ _ _ _ h hn h1 h63 hbase hin => exchangeWindowSet_answered h hn h1 h63 hbase hin,
    fun _ _ _ _ _ _ h hn h63 haction hth => slowdownSet_answered h hn h63 haction hth,
    fun _ _ _ _ _ _ _ _ _ _ h hrange hbank hfirst hn hbuf hue hes hget hcheck hexcl hrun =>
      schedWrite_answered h hrange hbank hfirst hn hbuf hue hes hget hcheck hexcl hrun,
    fun _ _ _ _ _ _ _ ha hh h1 h64 ht hcheck hexcl hnone hrun => schedSwap_answered ha hh h1 h64 ht hcheck hexcl hnone hrun,
    fun _ _ _ hpend hdue hrun h64 => schedSwapApply_ends hpend hdue hrun h64, fun _ h => exec_schedSwapApply_none h⟩

end Sys2Proof.Machine
end

section
/-! SUPPORT. The fetch of a chain (R213, R224 to R228, R233, R242): what a queue holds once it is changed, once it enters the
error state and once a chain has joined it, and which of these CHAIN_FETCH does. -/

namespace Sys2Proof.Machine

variable {s : State} {n q b : Nat} {r : ChainRead}

/-! ### One queue and its commands -/

@[simp] theorem queue_modQueue_self (s : State) (n q : Nat) (f : Queue → Queue) :
    (s.modQueue n q f).queue n q = f (s.queue n q) := fget_fset_self _ _ _ _

theorem modQueue_onlyIn (s : State) (n q : Nat) (f : Queue → Queue) : OnlyIn [.qs] s (s.modQueue n q f) :=
  (modQueue_kept (P := 8192) s n q f (Kept.refl s) (by decide)).onlyIn (fun p => by cases p <;> decide)

/-- A command once it has ended with this status, DETAIL and RESULT. -/
def QCmd.ended (c : QCmd) (status detail result : Nat) : QCmd :=
  { c with phase := 2, status := status, detail := detail, result := result, waitTick := none }

/-- A command's end with a status that is no contained fault (Table 06-6) is recorded in the command alone. -/
theorem endCmd_of_noFault {status : Nat} (h : faultCode status = none) (s : State) (n q uid detail result : Nat) :
    s.endCmd n q uid status detail result = s.modCmd n q uid (fun c => c.ended status detail result) := by
  simp [State.endCmd, h, QCmd.ended]

theorem queue_modCmd (s : State) (n q uid : Nat) (f : QCmd → QCmd) : (s.modCmd n q uid f).queue n q =
    { s.queue n q with cmds := (s.queue n q).cmds.map (fun c => if c.uid = uid then f c else c) } :=
  queue_modQueue_self s n q _

/-- A change of the last command, when no other has its name. -/
theorem map_modify_last {l : List QCmd} {c : QCmd} (f : QCmd → QCmd) (h : ∀ d ∈ l, d.uid ≠ c.uid) :
    (l ++ [c]).map (fun d => if d.uid = c.uid then f d else d) = l ++ [f c] := by
  have hl : l.map (fun d => if d.uid = c.uid then f d else d) = l :=
    (List.map_congr_left fun d hd => if_neg (h d hd)).trans l.map_id'
  simp [hl]

/-! ### The error state (R242) -/

/-- These commands of the queue are ABORTED. -/
def State.abortEach (s : State) (n q : Nat) (l : List QCmd) : State := l.foldl (fun s c => s.endCmd n q c.uid 0x30 0 0) s

theorem abortCmds_unstarted (s : State) (n q : Nat) :
    s.abortCmds n q 0x30 false = s.abortEach n q ((s.queue n q).cmds.filter (fun c => c.phase == 0)) := by
  have hstarted : (s.queue n q).cmds.filter (fun c => false && c.phase == 1) = [] :=
    List.filter_eq_nil_iff.mpr fun _ _ => Bool.false_ne_true
  have hends : (fun c : QCmd => c.phase == 0 || (false && c.phase == 1)) = (fun c => c.phase == 0) :=
    funext fun c => Bool.or_false (c.phase == 0)
  simp only [State.abortCmds, State.abortEach, hstarted, hends, List.foldl_nil]

theorem abortEach_kept (s : State) (n q : Nat) (l : List QCmd) : Kept 8192 s (s.abortEach n q l) :=
  kept_foldl (fun u c hu => by
    rw [endCmd_of_noFault rfl]
    exact modCmd_kept u n q c.uid _ hu (by decide)) (Kept.refl s)

theorem abortEach_bell (s : State) (n q : Nat) (l : List QCmd) :
    ((s.abortEach n q l).queue n q).bell = (s.queue n q).bell := by
  induction l generalizing s with
  | nil => rfl
  | cons c l ih =>
    calc _ = ((s.endCmd n q c.uid 0x30 0 0).queue n q).bell := ih _
      _ = (s.queue n q).bell := by rw [endCmd_of_noFault rfl, queue_modCmd]

/-- A command that is still to start after these were aborted stood in the queue before and is none of them. -/
theorem unstarted_of_mem_abortEach {l : List QCmd} {d : QCmd} (hd : d ∈ ((s.abortEach n q l).queue n q).cmds)
    (h0 : d.phase = 0) : d ∈ (s.queue n q).cmds ∧ ∀ c ∈ l, d.uid ≠ c.uid := by
  induction l generalizing s with
  | nil => exact ⟨hd, fun _ hc => absurd hc List.not_mem_nil⟩
  | cons c l ih =>
    obtain ⟨hmem, hrest⟩ := ih (s := s.endCmd n q c.uid 0x30 0 0) hd
    rw [endCmd_of_noFault rfl, queue_modCmd] at hmem
    obtain ⟨e, he, hed⟩ := List.mem_map.mp hmem
    by_cases heq : e.uid = c.uid
    · rw [if_pos heq] at hed
      subst hed
      cases h0
    · rw [if_neg heq] at hed
      subst hed
      exact ⟨he, List.forall_mem_cons.mpr ⟨heq, hrest⟩⟩

theorem abortCmds_unstarted_phase {d : QCmd} (hd : d ∈ ((s.abortCmds n q 0x30 false).queue n q).cmds) : d.phase ≠ 0 := by
  intro h0
  rw [abortCmds_unstarted] at hd
  obtain ⟨hmem, hnot⟩ := unstarted_of_mem_abortEach hd h0
  exact hnot d (List.mem_filter.mpr ⟨hmem, by simp [h0]⟩) rfl

theorem vfEvent_keepsRegs (s : State) (n b : Nat) : KeepsRegs (· ≠ R.QIF_VF_EVENT n) s (s.vfEvent n b) := by
  unfold State.vfEvent
  exact keepsRegs_ite (KeepsRegs.refl s)
    (((KeepsRegs.refl s).setFld (f := ⟨R.QIF_VF_EVENT n, b, b⟩) (fun h => h rfl) 1).of_regs (notify_regs _ n 1))

/-- The queue shows this error, and the error is counted and signalled; its commands are as they were. -/
def State.errorShown (s : State) (n q code : Nat) : State :=
  ((s.setFld (F.QIF_Q_STATUS_ERROR n q) code).bump F.QIF_CNT_QERR_COUNT).vfEvent n 3

theorem errorShown_kept (s : State) (n q code : Nat) : Kept 67108929 s (s.errorShown n q code) :=
  vfEvent_kept _ n 3 (bump_kept (setFld_kept (Kept.refl s) _ _ (by decide)) _ (by decide)) (by decide)

theorem errorShown_qError (s : State) {code : Nat} (hcode : code < 256) :
    (s.errorShown n q code).qError n q = code := by
  have hevent : R.QIF_Q_STATUS n q ≠ R.QIF_VF_EVENT n := by simp only [R.QIF_Q_STATUS, R.QIF_VF_EVENT]; omega
  have hcount : R.QIF_Q_STATUS n q ≠ R.QIF_CNT_QERR := by simp only [R.QIF_Q_STATUS, R.QIF_CNT_QERR]; omega
  calc (s.errorShown n q code).qError n q
      = ((s.setFld (F.QIF_Q_STATUS_ERROR n q) code).bump F.QIF_CNT_QERR_COUNT).fld (F.QIF_Q_STATUS_ERROR n q) :=
        (vfEvent_keepsRegs _ n 3).fld hevent
    _ = (s.setFld (F.QIF_Q_STATUS_ERROR n q) code).fld (F.QIF_Q_STATUS_ERROR n q) := fld_bump_ne _ _ _ hcount
    _ = code := fld_setFld_fits s (by decide : (8 : Nat) ≤ 15) (by decide : (15 : Nat) < 32) hcode

/-- Once the error is shown, entering the state drops the doorbell and aborts what has not started: no register changes. -/
theorem queueError_keeps_shown (s : State) (n q code : Nat) : Kept 8192 (s.errorShown n q code) (s.queueError n q code) := by
  unfold State.queueError
  rw [abortCmds_unstarted]
  exact (modQueue_kept _ n q _ (Kept.refl (s.errorShown n q code)) (by decide)).trans (abortEach_kept _ n q _)

theorem queueError_bell (s : State) (n q code : Nat) : ((s.queueError n q code).queue n q).bell = none := by
  unfold State.queueError
  rw [abortCmds_unstarted, abortEach_bell, queue_modQueue_self]

theorem queueError_qError (s : State) {code : Nat} (hcode : code < 256) : (s.queueError n q code).qError n q = code := by
  have hregs := (queueError_keeps_shown s n q code).regs_eq (by decide)
  have hkeeps : KeepsRegs (fun _ => True) (s.errorShown n q code) (s.queueError n q code) :=
    (KeepsRegs.refl _).of_regs hregs
  exact (hkeeps.fld trivial).trans (errorShown_qError s hcode)

theorem queueError_onlyIn (s : State) (n q code : Nat) : OnlyIn [.regs, .exm, .qs, .out] s (s.queueError n q code) :=
  have hshown : Kept 67117121 s (s.errorShown n q code) := (errorShown_kept s n q code).mono (by decide)
  (hshown.trans ((queueError_keeps_shown s n q code).mono (by decide))).onlyIn (fun p => by cases p <;> decide)

/-! ### A chain that joins its queue (R228, R233) -/

/-- The command that a chain makes, before the checks of R233. -/
def chainCmd (uid : Nat) (r : ChainRead) : QCmd :=
  { uid := uid, id := (r.ring.getLast?.map Desc.id).getD 0, descs := r.ring.length,
    outs := ((chainBufs r).filter (fun d => tst d.flags 1)).map (fun d => (d.addr, d.len)), bytes := r.bytes.getD [],
    phase := 0, status := 0, detail := 0, result := 0, waitTick := none }

/-- The chain is the last command of its queue, and the available position is past it. -/
def State.chainJoined (s : State) (n q : Nat) (r : ChainRead) : State :=
  ({ s with sch := { s.sch with nextUid := s.sch.nextUid + 1 } } : State).modQueue n q (fun x =>
    { x with cmds := x.cmds ++ [chainCmd s.sch.nextUid r],
             availPos := (x.availPos + r.ring.length) % s.fld (F.QIF_Q_SIZE_SIZE n q),
             availWrap := if x.availPos + r.ring.length < s.fld (F.QIF_Q_SIZE_SIZE n q) then x.availWrap else !x.availWrap })

/-- How the command of a chain ends at once: its bytes could not be read, or a check of R233 fails. -/
def chainEnd (uid : Nat) (r : ChainRead) : Option (Nat × Nat) :=
  if r.bytes.isNone then some (5, 0) else (chainCmd uid r).check

theorem takeChain_eq (s : State) (n q : Nat) (r : ChainRead) : s.takeChain n q r =
    (match chainEnd s.sch.nextUid r with
     | some (st, d) => (s.chainJoined n q r).endCmd n q s.sch.nextUid st d 0
     | none => s.chainJoined n q r) := by
  unfold chainEnd
  by_cases hb : r.bytes.isNone
  · rw [if_pos hb]; exact if_pos hb
  · rw [if_neg hb]; exact if_neg hb

/-- Checks 1 to 4 of R233 end a command with BAD_OPCODE, BAD_HEADER or BAD_ARG, none a contained fault (Table 06-6). -/
theorem faultCode_of_check {c : QCmd} {st d : Nat} (h : c.check = some (st, d)) : faultCode st = none := by
  have hst : st = 1 ∨ st = 2 ∨ st = 3 := by
    unfold QCmd.check at h
    repeat' split at h
    all_goals simp_all
  rcases hst with rfl | rfl | rfl <;> rfl

theorem faultCode_of_chainEnd {uid st d : Nat} (h : chainEnd uid r = some (st, d)) : faultCode st = none := by
  unfold chainEnd at h
  split at h
  · cases h; rfl
  · exact faultCode_of_check h

/-- The command of a chain as the queue holds it after the fetch. -/
def fetchedCmd (uid : Nat) (r : ChainRead) : QCmd :=
  match chainEnd uid r with
  | some (st, d) => (chainCmd uid r).ended st d 0
  | none => chainCmd uid r

theorem chainJoined_kept (s : State) (n q : Nat) (r : ChainRead) : Kept 139264 s (s.chainJoined n q r) :=
  modQueue_kept _ n q _ ((Kept.refl s).set_sch _ (by decide)) (by decide)

theorem takeChain_kept_joined (s : State) (n q : Nat) (r : ChainRead) :
    Kept 8192 (s.chainJoined n q r) (s.takeChain n q r) := by
  rw [takeChain_eq]
  split
  next st d hend =>
    rw [endCmd_of_noFault (faultCode_of_chainEnd hend)]
    exact modCmd_kept _ n q _ _ (Kept.refl _) (by decide)
  next => exact Kept.refl _

theorem queue_chainJoined (s : State) (n q : Nat) (r : ChainRead) : (s.chainJoined n q r).queue n q =
    { s.queue n q with
      cmds := (s.queue n q).cmds ++ [chainCmd s.sch.nextUid r]
      availPos := ((s.queue n q).availPos + r.ring.length) % s.fld (F.QIF_Q_SIZE_SIZE n q)
      availWrap := if (s.queue n q).availPos + r.ring.length < s.fld (F.QIF_Q_SIZE_SIZE n q) then (s.queue n q).availWrap
        else !(s.queue n q).availWrap } :=
  queue_modQueue_self _ n q _

/-- Only the command that joined can end with the fetch: no other has its name. -/
theorem queue_takeChain (hfresh : ∀ c ∈ (s.queue n q).cmds, c.uid ≠ s.sch.nextUid) : (s.takeChain n q r).queue n q =
    { (s.chainJoined n q r).queue n q with cmds := (s.queue n q).cmds ++ [fetchedCmd s.sch.nextUid r] } := by
  rw [takeChain_eq]
  unfold fetchedCmd
  split
  next st d hend =>
    have hjoined : ((s.chainJoined n q r).queue n q).cmds = (s.queue n q).cmds ++ [chainCmd s.sch.nextUid r] :=
      congrArg Queue.cmds (queue_chainJoined s n q r)
    rw [endCmd_of_noFault (faultCode_of_chainEnd hend), queue_modCmd, hjoined]
    have hlast := map_modify_last (c := chainCmd s.sch.nextUid r) (fun c => c.ended st d 0) hfresh
    exact congrArg (fun l => { (s.chainJoined n q r).queue n q with cmds := l }) hlast
  next => rw [queue_chainJoined]

theorem takeChain_onlyIn (s : State) (n q : Nat) (r : ChainRead) : OnlyIn [.qs, .sch] s (s.takeChain n q r) :=
  ((chainJoined_kept s n q r).trans ((takeChain_kept_joined s n q r).mono (by decide))).onlyIn
    (fun p => by cases p <;> decide)

theorem takeChain_nextUid (s : State) (n q : Nat) (r : ChainRead) :
    (s.takeChain n q r).sch.nextUid = s.sch.nextUid + 1 := by
  have hsch : (s.takeChain n q r).sch = (s.chainJoined n q r).sch := (takeChain_kept_joined s n q r).parts .sch (by decide)
  rw [hsch]
  rfl

/-- Whether it has ended or not, the command is the chain's in all but how it ended. -/
theorem fetchedCmd_eq (uid : Nat) (r : ChainRead) : ∃ phase status detail, fetchedCmd uid r =
    { chainCmd uid r with phase := phase, status := status, detail := detail } := by
  unfold fetchedCmd
  split
  · exact ⟨2, _, _, rfl⟩
  · exact ⟨0, 0, 0, rfl⟩

/-- The command has the chain's buffer ID, descriptors, bytes and writable buffers, and a name of its own. -/
theorem fetchedCmd_ofChain (uid : Nat) (hring : r.ring ≠ []) : (fetchedCmd uid r).uid = uid ∧
    some (fetchedCmd uid r).id = r.ring.getLast?.map Desc.id ∧ (fetchedCmd uid r).descs = r.ring.length ∧
    (fetchedCmd uid r).bytes = r.bytes.getD [] ∧
    (fetchedCmd uid r).outs = ((chainBufs r).filter (fun d => tst d.flags 1)).map (fun d => (d.addr, d.len)) := by
  obtain ⟨p, st, d, h⟩ := fetchedCmd_eq uid r
  rw [h]
  exact ⟨rfl, by simp [chainCmd, List.getLast?_eq_some_getLast hring], rfl, rfl, rfl⟩

theorem fetchedCmd_check (uid : Nat) (r : ChainRead) : (fetchedCmd uid r).check = (chainCmd uid r).check := by
  obtain ⟨p, st, d, h⟩ := fetchedCmd_eq uid r
  rw [h]; rfl

theorem fetchedCmd_passes {uid : Nat} (hread : r.bytes.isSome = true) (hcheck : (fetchedCmd uid r).check = none) :
    (fetchedCmd uid r).phase = 0 := by
  rw [fetchedCmd_check] at hcheck
  have hend : chainEnd uid r = none := by simpa [chainEnd, Option.isSome_iff_ne_none.mp hread] using hcheck
  simp [fetchedCmd, hend, chainCmd]

theorem fetchedCmd_fails {uid st d : Nat} (hread : r.bytes.isSome = true) (hcheck : (fetchedCmd uid r).check = some (st, d)) :
    (fetchedCmd uid r).phase = 2 ∧ (fetchedCmd uid r).status = st ∧ (fetchedCmd uid r).detail = d := by
  rw [fetchedCmd_check] at hcheck
  have hend : chainEnd uid r = some (st, d) := by simpa [chainEnd, Option.isSome_iff_ne_none.mp hread] using hcheck
  simp [fetchedCmd, hend, QCmd.ended]

theorem fetchedCmd_unread {uid : Nat} (hread : r.bytes = none) :
    (fetchedCmd uid r).phase = 2 ∧ (fetchedCmd uid r).status = 5 := by
  simp [fetchedCmd, chainEnd, hread, QCmd.ended]

/-! ### CHAIN_FETCH and ATS_INVALIDATE -/

theorem exec_chainFetch_idle (r : ChainRead) (h : s.mayFetch n q = false ∨ (s.queue n q).bell = none) :
    exec (.chainFetch n q r) s = .next s := by
  change execChainFetch n q r s = _
  cases hbell : (s.queue n q).bell with
  | none => simp [execChainFetch, hbell]
  | some b =>
    have hmay : s.mayFetch n q = false := h.resolve_right (by simp [hbell])
    simp [execChainFetch, hbell, hmay]

/-- The sum of the lengths of a chain's writable buffers. -/
def writableLen (r : ChainRead) : Nat := ((chainBufs r).filter (fun d => tst d.flags 1)).foldl (fun k d => k + d.len) 0

section Belled

variable (hmay : s.mayFetch n q = true) (hbell : (s.queue n q).bell = some b)
include hmay hbell

theorem exec_chainFetch_outside (hout : s.fld (F.QIF_Q_SIZE_SIZE n q) ≤ b % 2 ^ 15) :
    exec (.chainFetch n q r) s = .next (s.queueError n q 7) := by
  change execChainFetch n q r s = _
  simp only [execChainFetch, hbell, hmay, hout, Bool.not_true, Bool.false_eq_true, if_false, if_true]

variable (hin : b % 2 ^ 15 < s.fld (F.QIF_Q_SIZE_SIZE n q))
include hin

theorem exec_chainFetch_inside : exec (.chainFetch n q r) s =
    if s.bellDist n q b = 0 then .next (s.modQueue n q (fun x => { x with bell := none }))
    else if !r.ok then .next (s.queueError n q 6)
    else if r.ring.isEmpty then .next s
    else if decide (s.bellDist n q b < r.ring.length) || (r.ring.zipIdx).any (fun p => !s.showsAvail n q p.2 p.1) then
      .next (s.queueError n q 3)
    else if chainBad r then .next (s.queueError n q 2)
    else if writableLen r < 32 then .next (s.queueError n q 4)
    else if (s.queue n q).cmds.any (fun c => some c.id == r.ring.getLast?.map Desc.id) then .next (s.queueError n q 5)
    else .next (s.takeChain n q r) := by
  change execChainFetch n q r s = _
  simp only [execChainFetch, hbell, hmay, Nat.not_le.mpr hin, Bool.not_true, Bool.false_eq_true, if_false]
  rfl

theorem exec_chainFetch_atBell (hdist : s.bellDist n q b = 0) :
    exec (.chainFetch n q r) s = .next (s.modQueue n q (fun x => { x with bell := none })) := by
  rw [exec_chainFetch_inside hmay hbell hin, if_pos hdist]

theorem exec_chainFetch_unread (hdist : s.bellDist n q b ≠ 0) (hok : r.ok = false) :
    exec (.chainFetch n q r) s = .next (s.queueError n q 6) := by
  rw [exec_chainFetch_inside hmay hbell hin, if_neg hdist, if_pos (by simp [hok])]

theorem exec_chainFetch_beyond (hdist : s.bellDist n q b ≠ 0) (hok : r.ok = true)
    (hlen : s.bellDist n q b < r.ring.length) : exec (.chainFetch n q r) s = .next (s.queueError n q 3) := by
  have hring : r.ring ≠ [] := List.ne_nil_of_length_pos (by omega)
  rw [exec_chainFetch_inside hmay hbell hin, if_neg hdist, if_neg (by simp [hok]), if_neg (by simpa using hring),
    if_pos (by simp [hlen])]

end Belled

/-- A chain of one descriptor or more has been read, lies before the doorbell and shows available. -/
structure ChainShown (s : State) (n q b : Nat) (r : ChainRead) : Prop where
  may : s.mayFetch n q = true
  bell : (s.queue n q).bell = some b
  inside : b % 2 ^ 15 < s.fld (F.QIF_Q_SIZE_SIZE n q)
  ok : r.ok = true
  nonempty : r.ring ≠ []
  before : r.ring.length ≤ s.bellDist n q b
  avail : ∀ i d, r.ring[i]? = some d → s.showsAvail n q i d = true

/-- R226, R227 and the open buffer IDs decide what becomes of such a chain. -/
theorem exec_chainFetch_shown (h : ChainShown s n q b r) : exec (.chainFetch n q r) s =
    if chainBad r then .next (s.queueError n q 2)
    else if writableLen r < 32 then .next (s.queueError n q 4)
    else if (s.queue n q).cmds.any (fun c => some c.id == r.ring.getLast?.map Desc.id) then .next (s.queueError n q 5)
    else .next (s.takeChain n q r) := by
  obtain ⟨hmay, hbell, hin, hok, hring, hlen, havail⟩ := h
  have hdist : s.bellDist n q b ≠ 0 := by have := List.length_pos_iff.mpr hring; omega
  have hshown : (r.ring.zipIdx).any (fun p => !s.showsAvail n q p.2 p.1) = false :=
    List.any_eq_false.mpr fun p hp => by simp [havail p.2 p.1 (List.mem_zipIdx_iff_getElem?.mp hp)]
  rw [exec_chainFetch_inside hmay hbell hin, if_neg hdist, if_neg (by simp [hok]), if_neg (by simpa using hring),
    if_neg (by simp [hshown, hlen])]

theorem exec_chainFetch_joins (h : ChainShown s n q b r) (hgood : chainBad r = false) (hlong : 32 ≤ writableLen r)
    (hfree : ∀ c ∈ (s.queue n q).cmds, some c.id ≠ r.ring.getLast?.map Desc.id) :
    exec (.chainFetch n q r) s = .next (s.takeChain n q r) := by
  have hany : (s.queue n q).cmds.any (fun c => some c.id == r.ring.getLast?.map Desc.id) = false :=
    List.any_eq_false.mpr fun c hc => by simpa using hfree c hc
  rw [exec_chainFetch_shown h, if_neg (by simp [hgood]), if_neg (Nat.not_lt.mpr hlong), if_neg (by simp [hany])]

theorem exec_chainFetch_bad (h : ChainShown s n q b r) (hbad : chainBad r = true) :
    exec (.chainFetch n q r) s = .next (s.queueError n q 2) := by
  rw [exec_chainFetch_shown h, if_pos hbad]

theorem exec_chainFetch_short (h : ChainShown s n q b r) (hgood : chainBad r = false) (hshort : writableLen r < 32) :
    exec (.chainFetch n q r) s = .next (s.queueError n q 4) := by
  rw [exec_chainFetch_shown h, if_neg (by simp [hgood]), if_pos hshort]

theorem exec_chainFetch_idOpen (h : ChainShown s n q b r) (hgood : chainBad r = false) (hlong : 32 ≤ writableLen r)
    (hopen : ∃ c ∈ (s.queue n q).cmds, some c.id = r.ring.getLast?.map Desc.id) :
    exec (.chainFetch n q r) s = .next (s.queueError n q 5) := by
  have hany : (s.queue n q).cmds.any (fun c => some c.id == r.ring.getLast?.map Desc.id) = true := by simpa using hopen
  rw [exec_chainFetch_shown h, if_neg (by simp [hgood]), if_neg (Nat.not_lt.mpr hlong), if_pos hany]

theorem ends_of_queueError {c : Instr} {code : Nat} (hexec : exec c s = .next (s.queueError n q code)) (hcode : code < 256) :
    Ends c s (fun t => t.qError n q = code ∧ (t.queue n q).bell = none ∧ (∀ c ∈ (t.queue n q).cmds, c.phase ≠ 0) ∧
      OnlyIn [.regs, .exm, .qs, .out] s t) :=
  ⟨_, hexec, queueError_qError s hcode, queueError_bell s n q code, fun _ hc => abortCmds_unstarted_phase hc,
    queueError_onlyIn s n q code⟩

theorem atsInvalidate_ends (vf tag : Nat) (s : State) : Ends (.atsInvalidate vf tag) s (fun t =>
    t.out = .atsDone vf tag :: s.out ∧ OnlyIn [.out] s t) :=
  ⟨s.emit (.atsDone vf tag), rfl, emit_out s _,
    (emit_kept (P := 0x4000000) (Kept.refl s) _ (by decide)).onlyIn (fun p => by cases p <;> decide)⟩

/-- Settles O48: a chain before the doorbell that passes is one command more on the queue, which its own check alone can end;
every error is `queueError`, which aborts what has not started and stops nothing. -/
theorem chainsAreFetched : Obligations.ChainsAreFetched := by
  refine ⟨fun n q b dist r s _ _ _ hmay hbell hdist => ?_, fun _ _ r _ h => exec_chainFetch_idle r h, atsInvalidate_ends⟩
  subst hdist
  refine ⟨fun h0 hin => ?_, fun _ hin hok hring hlen havail hgood hlong hopen => ?_, fun code hcode => ?_,
    fun code hin hok hring hlen havail hcode => ?_⟩
  · exact ⟨_, exec_chainFetch_atBell hmay hbell hin h0, queue_modQueue_self _ _ _ _, modQueue_onlyIn s n q _⟩
  · have hexec := exec_chainFetch_joins ⟨hmay, hbell, hin, hok, hring, hlen, havail⟩ hgood hlong (fun c hc => (hopen c hc).1)
    have hqueue := queue_takeChain (r := r) (fun c hc => (hopen c hc).2)
    obtain ⟨huid, hid, hdescs, hbytes, houts⟩ := fetchedCmd_ofChain s.sch.nextUid hring
    exact ⟨_, hexec, fetchedCmd s.sch.nextUid r, by rw [hqueue], huid, hid, hdescs, hbytes, houts, fetchedCmd_passes,
      fun _ _ => fetchedCmd_fails, fetchedCmd_unread, by rw [hqueue, queue_chainJoined], by rw [hqueue, queue_chainJoined],
      takeChain_nextUid s n q r, takeChain_onlyIn s n q r⟩
  · simp only [List.mem_cons, Prod.mk.injEq, List.not_mem_nil, or_false] at hcode
    rcases hcode with ⟨rfl, h⟩ | ⟨rfl, h⟩ | ⟨rfl, h⟩
    · exact ends_of_queueError (exec_chainFetch_outside hmay hbell (of_decide_eq_true h.symm)) (by decide)
    · obtain ⟨hin, hdist, hok⟩ := of_decide_eq_true h.symm
      exact ends_of_queueError (exec_chainFetch_unread hmay hbell hin hdist hok) (by decide)
    · obtain ⟨hin, hdist, hok, hlen⟩ := of_decide_eq_true h.symm
      exact ends_of_queueError (exec_chainFetch_beyond hmay hbell hin hdist hok hlen) (by decide)
  · have hshown : ChainShown s n q b r := ⟨hmay, hbell, hin, hok, hring, hlen, havail⟩
    rcases hcode with ⟨rfl, hbad⟩ | ⟨rfl, hgood, hshort⟩ | ⟨rfl, hgood, hlong, hopen⟩
    · exact ends_of_queueError (exec_chainFetch_bad hshown hbad) (by decide)
    · exact ends_of_queueError (exec_chainFetch_short hshown hgood hshort) (by decide)
    · exact ends_of_queueError (exec_chainFetch_idOpen hshown hgood hlong hopen) (by decide)

end Sys2Proof.Machine
end

section
/-! SUPPORT. IDE streams and TDIs (R301 to R308, Table 08-6): what a vendor-defined request comes to inside a session and
outside one, and what each leaves of the streams and of SEC_TDI. -/

namespace Sys2Proof.Machine

variable {s : State} {sid n k : Nat}

/-! ### The commands -/

section Commands

variable {set sub dir stream off len proto code : Nat} {noFw lockMsix p2p redirect posted : Bool} {nonce : List Byte}

theorem exec_query : exec (.query sid) s = execQuery sid s := rfl
theorem exec_keyProg : exec (.keyProg sid k set sub dir) s = execKeyProg sid k set sub dir s := rfl
theorem exec_kSetGo : exec (.kSetGo sid k set sub dir) s = execKSetGo sid k set sub dir s := rfl
theorem exec_kSetStop : exec (.kSetStop sid k set sub dir) s = execKSetStop sid k set sub dir s := rfl
theorem exec_getTdispVersion : exec (.getTdispVersion sid n) s = execGetTdispVersion sid n s := rfl
theorem exec_getTdispCapabilities : exec (.getTdispCapabilities sid n) s = execGetTdispCapabilities sid n s := rfl
theorem exec_lockInterfaceRequest : exec (.lockInterfaceRequest sid n stream noFw lockMsix p2p redirect) s =
    execLockInterfaceRequest sid n stream noFw lockMsix p2p redirect s := rfl
theorem exec_getDeviceInterfaceReport :
    exec (.getDeviceInterfaceReport sid n off len) s = execGetDeviceInterfaceReport sid n off len s := rfl
theorem exec_getDeviceInterfaceState :
    exec (.getDeviceInterfaceState sid n) s = execGetDeviceInterfaceState sid n s := rfl
theorem exec_startInterfaceRequest :
    exec (.startInterfaceRequest sid n nonce) s = execStartInterfaceRequest sid n nonce s := rfl
theorem exec_stopInterfaceRequest : exec (.stopInterfaceRequest sid n) s = execStopInterfaceRequest sid n s := rfl
theorem exec_vendorDefinedRequest :
    exec (.vendorDefinedRequest sid proto code) s = execVendorDefinedRequest sid proto code s := rfl
theorem exec_tdiTlpDrop : exec (.tdiTlpDrop n posted) s = execTdiTlpDrop n posted s := rfl

end Commands

/-! ### Sessions (R296) -/

theorem vendorIn_outside (hup : s.doeUp = true) (hout : s.inSession sid = false) (f : State → State) :
    s.vendorIn sid f = .next (s.emit (.spdm 0x7F [7, 0xFE])) := by
  simp [State.vendorIn, hup, hout, State.spdmError, leBytes]

theorem vendorIn_inside (hup : s.doeUp = true) (hin : s.inSession sid = true) (f : State → State) :
    s.vendorIn sid f = .next (f s) := by
  simp [State.vendorIn, hup, hin]

theorem tdiIn_outside (hup : s.doeUp = true) (hout : s.inSession sid = false) (n : Nat) (f : State → State) :
    s.tdiIn sid n f = .next (s.emit (.spdm 0x7F [7, 0xFE])) := vendorIn_outside hup hout _

theorem tdiIn_inside (hup : s.doeUp = true) (hin : s.inSession sid = true) (h1 : 1 ≤ n) (h63 : n ≤ 63)
    (f : State → State) : s.tdiIn sid n f = .next (f s) := by
  have hvf : (n = 0 || 63 < n) = false := by simp; omega
  rw [State.tdiIn, vendorIn_inside hup hin, hvf]
  rfl

/-! ### Answers -/

theorem emit_onlyIn (s : State) (o : Output) : OnlyIn [.out] s (s.emit o) :=
  (emit_kept (P := 67108864) (Kept.refl s) o (by decide)).onlyIn (fun p => by cases p <;> decide)

/-- A command that only answers. -/
theorem ends_of_emit {c : Instr} {o : Output} (hexec : exec c s = .next (s.emit o)) :
    Ends c s (fun t => t.out = o :: s.out ∧ OnlyIn [.out] s t) := ⟨_, hexec, emit_out s o, emit_onlyIn s o⟩

/-- A refusal is one answer more. -/
theorem refused_of_emit {c : Instr} {o : Output} (hexec : exec c s = .next (s.emit o)) :
    Ends c s (fun t => OnlyIn [.out] s t ∧ t.out.length = s.out.length + 1) :=
  ⟨_, hexec, emit_onlyIn s o, by rw [emit_out, List.length_cons]⟩

/-! ### IDE streams (R301) -/

@[simp] theorem stream_modStream_self (s : State) (k : Nat) (f : Stream → Stream) :
    (s.modStream k f).stream k = f (s.stream k) := fget_fset_self _ _ _ _

theorem stream_modStream_ne (s : State) {j : Nat} (f : Stream → Stream) (hj : j ≠ k) :
    (s.modStream k f).stream j = s.stream j := fget_fset_ne _ _ _ _ _ hj

@[simp] theorem emit_stream (s : State) (o : Output) (k : Nat) : (s.emit o).stream k = s.stream k := rfl

/-- A change of one stream that is answered leaves the other streams and all else. -/
theorem modStream_emit_frame (s : State) (k : Nat) (f : Stream → Stream) (o : Output) :
    (∀ j, j ≠ k → ((s.modStream k f).emit o).stream j = s.stream j) ∧
      OnlyIn [.sec, .out] s ((s.modStream k f).emit o) :=
  ⟨fun _ hj => stream_modStream_ne s f hj,
    (emit_kept (P := 67141632) (modStream_kept s k f (Kept.refl s) (by decide)) o (by decide)).onlyIn
      (fun p => by cases p <;> decide)⟩

section Session

variable (hup : s.doeUp = true) (hin : s.inSession sid = true)
include hup hin

theorem query_ends : Ends (.query sid) s (fun t => (∃ d, t.out = .vendor 1 d :: s.out ∧ d.length = 67) ∧
    OnlyIn [.out] s t) := by
  obtain ⟨t, hexec, hout, honly⟩ := ends_of_emit (c := .query sid) (exec_query.trans (vendorIn_inside hup hin _))
  exact ⟨t, hexec, ⟨_, hout, by simp [leBytes]⟩, honly⟩

theorem keyProg_ends {set sub dir : Nat} (hnamed : ideNamed k set sub dir = true) :
    Ends (.keyProg sid k set sub dir) s (fun t => tst (t.stream k).keys (keyBit set sub dir) = true ∧
      (t.stream k).running = (s.stream k).running ∧ (∀ j, j ≠ k → t.stream j = s.stream j) ∧
      OnlyIn [.sec, .out] s t) :=
  ⟨_, exec_keyProg.trans ((vendorIn_inside hup hin _).trans (congrArg _ (if_pos hnamed))), by simp [tst_putBit], by simp,
    modStream_emit_frame s k _ _⟩

theorem kSetGo_ends {set sub dir : Nat} (hnamed : ideNamed k set sub dir = true)
    (hkey : tst (s.stream k).keys (keyBit set sub dir) = true) :
    Ends (.kSetGo sid k set sub dir) s (fun t => tst (t.stream k).running (keyBit set sub dir) = true ∧
      (∀ j, j ≠ k → t.stream j = s.stream j) ∧ OnlyIn [.sec, .out] s t) := by
  have hexec : exec (.kSetGo sid k set sub dir) s = .next ((s.modStream k (fun x =>
      { x with running := putBit x.running (keyBit set sub dir) true })).emit
        (.vendor 6 (ideObject 6 k 0 set sub dir))) :=
    exec_kSetGo.trans ((vendorIn_inside hup hin _).trans (by simp [hnamed, hkey]))
  exact ⟨_, hexec, by simp [tst_putBit], modStream_emit_frame s k _ _⟩

theorem kSetStop_ends {set sub dir : Nat} (hnamed : ideNamed k set sub dir = true) (hfree : s.boundTo k = []) :
    Ends (.kSetStop sid k set sub dir) s (fun t => tst (t.stream k).running (keyBit set sub dir) = false ∧
      tst (t.stream k).keys (keyBit set sub dir) = false ∧ (∀ j, j ≠ k → t.stream j = s.stream j) ∧
      OnlyIn [.sec, .out] s t) := by
  have hexec : exec (.kSetStop sid k set sub dir) s = .next ((s.modStream k (fun x =>
      { x with keys := putBit x.keys (keyBit set sub dir) false
               running := putBit x.running (keyBit set sub dir) false })).emit
        (.vendor 6 (ideObject 6 k 0 set sub dir))) :=
    exec_kSetStop.trans ((vendorIn_inside hup hin _).trans (by simp [hnamed, hfree]))
  exact ⟨_, hexec, by simp [tst_putBit], by simp [tst_putBit], modStream_emit_frame s k _ _⟩

theorem vendorDefinedRequest_tdisp_ends {code : Nat} (hcode : code < 0x81 ∨ 0x87 < code) :
    Ends (.vendorDefinedRequest sid 1 code) s (fun t => (∃ d, t.out = .vendor 0x7F d :: s.out) ∧ OnlyIn [.out] s t) := by
  have hother : ¬ (1 = 1 && 0x81 ≤ code && code ≤ 0x87) := by simp; omega
  have hexec : exec (.vendorDefinedRequest sid 1 code) s = .next (s.tdispError 0 0x0007) :=
    exec_vendorDefinedRequest.trans ((vendorIn_inside hup hin _).trans
      (congrArg _ ((if_neg (by simp)).trans ((if_neg hother).trans (if_pos rfl)))))
  obtain ⟨t, hexec, hout, honly⟩ := ends_of_emit hexec
  exact ⟨t, hexec, ⟨_, hout⟩, honly⟩

end Session

/-! ### SEC_TDI -/

theorem SEC_TDI_injective {m : Nat} (hm : m ≠ n) : R.SEC_TDI m ≠ R.SEC_TDI n := by
  simp only [R.SEC_TDI]; omega

theorem tdi_setFld_state_self (s : State) (n : Nat) {st : Nat} (hst : st < 8) :
    (s.setFld (F.SEC_TDI_STATE n) st).tdi n = st := fld_setFld_fits s (by simp) (by simp) hst

theorem tdi_setFld_state_ne (s : State) {m : Nat} (st : Nat) (hm : m ≠ n) :
    (s.setFld (F.SEC_TDI_STATE n) st).tdi m = s.tdi m := fld_setFld_ne s _ _ _ (SEC_TDI_injective hm)

/-- The stream of a TDI stands beside its state. -/
@[simp] theorem tdi_setFld_stream (s : State) (n v m : Nat) : (s.setFld (F.SEC_TDI_STREAM_ID n) v).tdi m = s.tdi m := by
  by_cases hm : m = n
  · subst hm
    exact fld_setFld_disjoint s _ _ _ rfl (by simp) (by simp) (.inl (by simp))
  · exact fld_setFld_ne s _ _ _ (SEC_TDI_injective hm)

theorem stream_setFld_state (s : State) (n st : Nat) :
    (s.setFld (F.SEC_TDI_STATE n) st).fld (F.SEC_TDI_STREAM_ID n) = s.fld (F.SEC_TDI_STREAM_ID n) :=
  fld_setFld_disjoint s _ _ _ rfl (by simp) (by simp) (.inr (by simp))

/-- A TDI that does not run, locked or started, takes the state and nothing else changes. -/
theorem setTdi_of_lock_or_start {st : Nat} (hrun : s.tdi n ≠ 2) (hst : st = 1 ∨ st = 2) :
    s.setTdi n st = s.setFld (F.SEC_TDI_STATE n) st := by
  rcases hst with rfl | rfl <;> simp [State.setTdi, hrun]

/-- A TDI that does not run, unlocked, loses its stream. -/
theorem setTdi_unlocked (hrun : s.tdi n ≠ 2) :
    s.setTdi n 0 = (s.setFld (F.SEC_TDI_STATE n) 0).setFld (F.SEC_TDI_STREAM_ID n) 0 := by
  simp [State.setTdi, hrun]

@[simp] theorem tdiRec_modTdi_self (s : State) (n : Nat) (f : Tdi → Tdi) : (s.modTdi n f).tdiRec n = f (s.tdiRec n) :=
  fget_fset_self _ _ _ _

@[simp] theorem modTdi_tdi (s : State) (n m : Nat) (f : Tdi → Tdi) : (s.modTdi n f).tdi m = s.tdi m := rfl
@[simp] theorem tdisp_tdi (s : State) (code n m : Nat) (body : List Byte) : (s.tdisp code n body).tdi m = s.tdi m := rfl
@[simp] theorem tdisp_tdiRec (s : State) (code n m : Nat) (body : List Byte) :
    (s.tdisp code n body).tdiRec m = s.tdiRec m := rfl

/-! ### Locking (R304) -/

theorem lockOk_iff {stream : Nat} {p2p redirect : Bool} : s.lockOk n stream p2p redirect = true ↔
    s.tdi n = 0 ∧ (s.tenancy = 1 ∨ s.tenancy = 2) ∧ stream < 64 ∧ (s.stream stream).secure = true ∧
      p2p = false ∧ redirect = false := by
  simp [State.lockOk, and_assoc]

/-- TDI `n` locked onto `stream` with the next 32 free bytes as its nonce. -/
def State.tdiLocked (s : State) (n stream : Nat) (lockMsix : Bool) : State :=
  (((s.drawnN 32).setFld (F.SEC_TDI_STATE n) 1).setFld (F.SEC_TDI_STREAM_ID n) stream).modTdi n
    (fun _ => { nonce := s.freeBytes 32, lockMsix := lockMsix })

theorem tdiLocked_tdi_self (s : State) (n stream : Nat) (lockMsix : Bool) : (s.tdiLocked n stream lockMsix).tdi n = 1 := by
  rw [State.tdiLocked, modTdi_tdi, tdi_setFld_stream]
  exact tdi_setFld_state_self _ n (by decide)

theorem tdiLocked_tdi_ne (s : State) (stream : Nat) (lockMsix : Bool) {m : Nat} (hm : m ≠ n) :
    (s.tdiLocked n stream lockMsix).tdi m = s.tdi m := by
  rw [State.tdiLocked, modTdi_tdi, tdi_setFld_stream]
  exact tdi_setFld_state_ne (s.drawnN 32) 1 hm

theorem tdiLocked_stream (s : State) (n : Nat) {stream : Nat} (lockMsix : Bool) (hstream : stream < 64) :
    (s.tdiLocked n stream lockMsix).fld (F.SEC_TDI_STREAM_ID n) = stream :=
  fld_setFld_fits _ (by simp) (by simp) (Nat.lt_trans hstream (by simp))

theorem tdiLocked_tdiRec (s : State) (n stream : Nat) (lockMsix : Bool) :
    (s.tdiLocked n stream lockMsix).tdiRec n = { nonce := s.freeBytes 32, lockMsix := lockMsix } := tdiRec_modTdi_self _ _ _

theorem tdiLocked_onlyIn (s : State) (n stream : Nat) (lockMsix : Bool) (code : Nat) (body : List Byte) :
    OnlyIn [.regs, .sec, .free, .out] s ((s.tdiLocked n stream lockMsix).tdisp code n body) := by
  have hdrawn : Kept 100696065 s (s.drawnN 32) := drawnN_kept (Kept.refl s) 32 (by decide)
  have hregs := setFld_kept (setFld_kept hdrawn (F.SEC_TDI_STATE n) 1 (by decide)) (F.SEC_TDI_STREAM_ID n) stream (by decide)
  exact (tdisp_kept _ code n body (modTdi_kept _ n _ hregs (by decide)) (by decide)).onlyIn
    (fun p => by cases p <;> decide)

/-! ### TDISP requests on a VF's TDI (Table 08-6) -/

section Tdi

variable (hup : s.doeUp = true) (hin : s.inSession sid = true) (h1 : 1 ≤ n) (h63 : n ≤ 63)
include hup hin h1 h63

theorem getTdispVersion_ends : Ends (.getTdispVersion sid n) s (fun t =>
    t.out = .vendor 1 ([0x10, 1] ++ leBytes 1 n ++ [1, 0x10]) :: s.out ∧ OnlyIn [.out] s t) :=
  ends_of_emit (exec_getTdispVersion.trans (tdiIn_inside hup hin h1 h63 _))

theorem getTdispCapabilities_ends : Ends (.getTdispCapabilities sid n) s (fun t =>
    (∃ d, t.out = .vendor 2 d :: s.out) ∧ OnlyIn [.out] s t) := by
  obtain ⟨t, hexec, hout, honly⟩ := ends_of_emit (c := .getTdispCapabilities sid n)
    (exec_getTdispCapabilities.trans (tdiIn_inside hup hin h1 h63 _))
  exact ⟨t, hexec, ⟨_, hout⟩, honly⟩

theorem getDeviceInterfaceState_ends : Ends (.getDeviceInterfaceState sid n) s (fun t =>
    t.out = .vendor 5 ([0x10, 5] ++ leBytes 1 n ++ leBytes 1 (s.tdi n)) :: s.out ∧ OnlyIn [.out] s t) :=
  ends_of_emit (exec_getDeviceInterfaceState.trans (tdiIn_inside hup hin h1 h63 _))

theorem lockInterfaceRequest_accepted {stream : Nat} (noFw lockMsix : Bool) (hunlocked : s.tdi n = 0)
    (hten : s.tenancy = 1 ∨ s.tenancy = 2) (hstream : stream < 64) (hsecure : (s.stream stream).secure = true) :
    Ends (.lockInterfaceRequest sid n stream noFw lockMsix false false) s (fun t =>
      t.tdi n = 1 ∧ t.fld (F.SEC_TDI_STREAM_ID n) = stream ∧ (t.tdiRec n).nonce = s.freeBytes 32 ∧
      (t.tdiRec n).lockMsix = lockMsix ∧ (∀ m, m ≠ n → m ≤ 63 → t.tdi m = s.tdi m) ∧
      OnlyIn [.regs, .sec, .free, .out] s t) := by
  have hok : s.lockOk n stream false false = true := lockOk_iff.mpr ⟨hunlocked, hten, hstream, hsecure, rfl, rfl⟩
  have hlock : (s.drawnN 32).setTdi n 1 = (s.drawnN 32).setFld (F.SEC_TDI_STATE n) 1 :=
    setTdi_of_lock_or_start (show s.tdi n ≠ 2 by omega) (.inl rfl)
  have hexec : exec (.lockInterfaceRequest sid n stream noFw lockMsix false false) s =
      .next ((s.tdiLocked n stream lockMsix).tdisp 0x03 n (s.freeBytes 32)) :=
    exec_lockInterfaceRequest.trans ((tdiIn_inside hup hin h1 h63 _).trans
      (by simp only [hok, if_true, hlock, State.tdiLocked]))
  exact ⟨_, hexec, tdiLocked_tdi_self s n stream lockMsix, tdiLocked_stream s n lockMsix hstream,
    by simp [tdiLocked_tdiRec], by simp [tdiLocked_tdiRec], fun _ hm _ => tdiLocked_tdi_ne s stream lockMsix hm,
    tdiLocked_onlyIn s n stream lockMsix _ _⟩

theorem lockInterfaceRequest_refused {stream : Nat} (noFw lockMsix : Bool) {p2p redirect : Bool}
    (hbad : s.tdi n ≠ 0 ∨ 64 ≤ stream ∨ (s.stream stream).secure = false ∨ p2p = true ∨ redirect = true) :
    Ends (.lockInterfaceRequest sid n stream noFw lockMsix p2p redirect) s (fun t => OnlyIn [.out] s t ∧
      t.out.length = s.out.length + 1) := by
  have hnot : ¬ s.lockOk n stream p2p redirect = true := fun hok => by
    obtain ⟨htdi, -, hstream, hsecure, hp2p, hredirect⟩ := lockOk_iff.mp hok
    simp [htdi, Nat.not_le.mpr hstream, hsecure, hp2p, hredirect] at hbad
  exact refused_of_emit (exec_lockInterfaceRequest.trans ((tdiIn_inside hup hin h1 h63 _).trans (congrArg _ (if_neg hnot))))

/-! ### The report (R305) -/

theorem getDeviceInterfaceReport_ends {off : Nat} (len : Nat) (hbound : s.tdi n = 1 ∨ s.tdi n = 2)
    (hoff : off < (s.interfaceReport n).length) :
    Ends (.getDeviceInterfaceReport sid n off len) s (fun t => (∃ d, t.out = .vendor 4 d :: s.out ∧
      d.drop 7 = sliceOf (s.interfaceReport n) off (min len ((s.interfaceReport n).length - off))) ∧
      OnlyIn [.out] s t) := by
  have hstate : ¬ (s.tdi n ≠ 1 && s.tdi n != 2) := by simpa [Decidable.or_iff_not_imp_left] using hbound
  obtain ⟨t, hexec, hout, honly⟩ := ends_of_emit (c := .getDeviceInterfaceReport sid n off len)
    (exec_getDeviceInterfaceReport.trans ((tdiIn_inside hup hin h1 h63 _).trans
      (congrArg _ ((if_neg hstate).trans (if_neg (Nat.not_le.mpr hoff))))))
  exact ⟨t, hexec, ⟨_, hout, rfl⟩, honly⟩

/-! ### Starting and stopping (R307, R308) -/

theorem startInterfaceRequest_accepted (hlocked : s.tdi n = 1) :
    Ends (.startInterfaceRequest sid n (s.tdiRec n).nonce) s (fun t => t.tdi n = 2 ∧
      t.fld (F.SEC_TDI_STREAM_ID n) = s.fld (F.SEC_TDI_STREAM_ID n) ∧ OnlyIn [.regs, .out] s t) := by
  have hrun : s.setTdi n 2 = s.setFld (F.SEC_TDI_STATE n) 2 := setTdi_of_lock_or_start (by omega) (.inr rfl)
  have hexec : exec (.startInterfaceRequest sid n (s.tdiRec n).nonce) s =
      .next ((s.setFld (F.SEC_TDI_STATE n) 2).tdisp 0x06 n []) :=
    exec_startInterfaceRequest.trans ((tdiIn_inside hup hin h1 h63 _).trans (by simp [hlocked, hrun]))
  have hkept := tdisp_kept (P := 67108865) _ 0x06 n []
    (setFld_kept (Kept.refl s) (F.SEC_TDI_STATE n) 2 (by decide)) (by decide)
  exact ⟨_, hexec, tdi_setFld_state_self s n (by decide), stream_setFld_state s n 2,
    hkept.onlyIn (fun p => by cases p <;> decide)⟩

theorem startInterfaceRequest_refused {nonce : List Byte} (hbad : s.tdi n ≠ 1 ∨ nonce ≠ (s.tdiRec n).nonce) :
    Ends (.startInterfaceRequest sid n nonce) s (fun t => OnlyIn [.out] s t ∧ t.out.length = s.out.length + 1) := by
  by_cases hlocked : s.tdi n = 1
  · have hnonce : nonce ≠ (s.tdiRec n).nonce := hbad.resolve_left (not_not_intro hlocked)
    exact refused_of_emit (exec_startInterfaceRequest.trans ((tdiIn_inside hup hin h1 h63 _).trans
      (congrArg _ ((if_neg (not_not_intro hlocked)).trans (if_pos hnonce)))))
  · exact refused_of_emit (exec_startInterfaceRequest.trans ((tdiIn_inside hup hin h1 h63 _).trans
      (congrArg _ (if_pos hlocked))))

theorem stopInterfaceRequest_ends : Ends (.stopInterfaceRequest sid n) s (fun t => (t.tdiRec n).nonce = [] ∧
    (s.tdi n ≠ 2 → t.tdi n = 0 ∧ OnlyIn [.regs, .sec, .out] s t)) := by
  refine ⟨_, exec_stopInterfaceRequest.trans (tdiIn_inside hup hin h1 h63 _), by simp, fun hrun => ?_⟩
  rw [setTdi_unlocked hrun]
  have hregs : Kept 67141633 s ((s.setFld (F.SEC_TDI_STATE n) 0).setFld (F.SEC_TDI_STREAM_ID n) 0) :=
    setFld_kept (setFld_kept (Kept.refl s) _ 0 (by decide)) _ 0 (by decide)
  refine ⟨?_, (tdisp_kept _ _ n _ (modTdi_kept _ n _ hregs (by decide)) (by decide)).onlyIn
    (fun p => by cases p <;> decide)⟩
  rw [tdisp_tdi, modTdi_tdi, tdi_setFld_stream]
  exact tdi_setFld_state_self s n (by decide)

end Tdi

/-! ### TLPs off the stream (R306) -/

theorem exec_tdiTlpDrop_posted (hbound : s.tdi n = 1 ∨ s.tdi n = 2) :
    exec (.tdiTlpDrop n true) s = .next (s.bump F.SEC_CNT_TDI_DROP_COUNT) :=
  exec_tdiTlpDrop.trans (if_pos (by simpa using hbound))

theorem exec_tdiTlpDrop_nonPosted (hbound : s.tdi n = 1 ∨ s.tdi n = 2) :
    exec (.tdiTlpDrop n false) s = .next ((s.bump F.SEC_CNT_TDI_DROP_COUNT).emit (.unsupported n)) :=
  exec_tdiTlpDrop.trans (if_pos (by simpa using hbound))

theorem tdiTlpDrop_ends (hbound : s.tdi n = 1 ∨ s.tdi n = 2) :
    Ends (.tdiTlpDrop n false) s (fun t => t.out = .unsupported n :: s.out ∧ OnlyIn [.regs, .out] s t) ∧
    Ends (.tdiTlpDrop n true) s (fun t => OnlyIn [.regs] s t ∧
      t.fld F.SEC_CNT_TDI_DROP_COUNT = min (s.fld F.SEC_CNT_TDI_DROP_COUNT + 1) (2 ^ 32 - 1)) := by
  have hbump : Kept 67108865 s (s.bump F.SEC_CNT_TDI_DROP_COUNT) := bump_kept (Kept.refl s) _ (by decide)
  refine ⟨⟨_, exec_tdiTlpDrop_nonPosted hbound, by simp, ?_⟩,
    _, exec_tdiTlpDrop_posted hbound, setReg_onlyIn s _ _, fld_bump_self s _ (by decide) (by decide)⟩
  exact (emit_kept hbump (.unsupported n) (by decide)).onlyIn (fun p => by cases p <;> decide)

/-- Settles O45: outside a session `vendorIn` refuses every request; inside one each writes at most one stream, or
SEC_TDI and the record of one TDI, and what leaving RUN carries further the statement leaves open. -/
theorem streamsAndTdis : Obligations.StreamsAndTdis := by
  refine ⟨fun sid n k b d l nf lm pp rd nonce s hup hout c hc => ?_, fun sid s hup hin => ?_,
    fun n s hbound => tdiTlpDrop_ends hbound⟩
  · refine ends_of_emit ?_
    rcases hc with rfl | rfl | rfl | rfl | rfl | rfl | rfl | rfl | rfl | rfl | rfl | rfl
    · exact exec_query.trans (vendorIn_outside hup hout _)
    · exact exec_keyProg.trans (vendorIn_outside hup hout _)
    · exact exec_kSetGo.trans (vendorIn_outside hup hout _)
    · exact exec_kSetStop.trans (vendorIn_outside hup hout _)
    · exact exec_getTdispVersion.trans (tdiIn_outside hup hout n _)
    · exact exec_getTdispCapabilities.trans (tdiIn_outside hup hout n _)
    · exact exec_lockInterfaceRequest.trans (tdiIn_outside hup hout n _)
    · exact exec_getDeviceInterfaceReport.trans (tdiIn_outside hup hout n _)
    · exact exec_getDeviceInterfaceState.trans (tdiIn_outside hup hout n _)
    · exact exec_startInterfaceRequest.trans (tdiIn_outside hup hout n _)
    · exact exec_stopInterfaceRequest.trans (tdiIn_outside hup hout n _)
    · exact exec_vendorDefinedRequest.trans (vendorIn_outside hup hout _)
  · refine ⟨query_ends hup hin, fun k set sub dir hnamed => ?_, fun n h1 h63 => ?_,
      fun code hcode => vendorDefinedRequest_tdisp_ends hup hin hcode⟩
    · exact ⟨keyProg_ends hup hin hnamed, kSetGo_ends hup hin hnamed, kSetStop_ends hup hin hnamed⟩
    · exact ⟨getTdispVersion_ends hup hin h1 h63, getTdispCapabilities_ends hup hin h1 h63,
        getDeviceInterfaceState_ends hup hin h1 h63,
        fun _ nf lm => lockInterfaceRequest_accepted hup hin h1 h63 nf lm,
        fun _ nf lm _ _ => lockInterfaceRequest_refused hup hin h1 h63 nf lm,
        fun _ len => getDeviceInterfaceReport_ends hup hin h1 h63 len,
        startInterfaceRequest_accepted hup hin h1 h63,
        fun _ => startInterfaceRequest_refused hup hin h1 h63,
        stopInterfaceRequest_ends hup hin h1 h63⟩

end Sys2Proof.Machine
end

section
/-! SUPPORT. What the crypto engine, the random source and a failed stream record (R289, R302, R327 to R330). -/

namespace Sys2Proof.Machine

variable {s : State} {k : Nat}

/-! ### The commands -/

theorem exec_ecOperationEnd {x : EcInput} : exec (.ecOperationEnd x) s = execEcOperationEnd x s := rfl
theorem exec_rngHealthFail : exec .rngHealthFail s = execRngHealthFail s := rfl
theorem exec_ideCheckFail : exec (.ideCheckFail k) s = execIdeCheckFail k s := rfl

/-! ### EC operations (R327 to R330) -/

/-- The counter of an EC operation of kind `op`. -/
def ecCounter (op : Nat) : Fld :=
  if op = 1 then F.SEC_CNT_SIGN_COUNT else if op = 2 then F.SEC_CNT_VERIFY_COUNT else F.SEC_CNT_ECDH_COUNT

theorem ecCounter_eq {op : Nat} (h1 : 1 ≤ op) (h3 : op ≤ 3) : ecCounter op = ⟨0x20000C + 4 * op, 31, 0⟩ := by
  obtain rfl | rfl | rfl : op = 1 ∨ op = 2 ∨ op = 3 := by omega
  all_goals rfl

/-- Each kind has a register of its own, apart from the record and the count of rejections. -/
theorem ecCounter_addr_ne (op : Nat) : R.SEC_CRYPTO_LAST ≠ (ecCounter op).addr ∧
    R.SEC_CNT_REJECT ≠ (ecCounter op).addr := by
  unfold ecCounter
  split
  · decide
  · split <;> decide

theorem fld_bump_ecCounter (s : State) {op j : Nat} (h1 : 1 ≤ op) (h3 : op ≤ 3) (hj1 : 1 ≤ j) (hj3 : j ≤ 3) :
    (s.bump (ecCounter op)).fld (ecCounter j) =
      if op = j then min (s.fld (ecCounter j) + 1) (2 ^ 32 - 1) else s.fld (ecCounter j) := by
  rw [ecCounter_eq h1 h3, ecCounter_eq hj1 hj3]
  split
  next hop => subst hop; exact fld_bump_self s _ (by simp) (by simp)
  next hop => exact fld_bump_ne s _ _ (show 0x20000C + 4 * j ≠ 0x20000C + 4 * op by omega)

theorem exec_ecOperationEnd_passes {x : EcInput} (hpass : ecStatus x = 0) :
    exec (.ecOperationEnd x) s = .next (s.bump (ecCounter x.op)) :=
  exec_ecOperationEnd.trans (congrArg _ (if_pos hpass))

theorem exec_ecOperationEnd_fails {x : EcInput} (hfail : ecStatus x ≠ 0) : exec (.ecOperationEnd x) s =
    .next ((s.bump (ecCounter x.op)).cryptoReject x.op (ecStatus x) x.requester) :=
  exec_ecOperationEnd.trans (congrArg _ (if_neg hfail))

theorem cryptoReject_last (s : State) (op status requester : Nat) :
    (s.cryptoReject op status requester).reg R.SEC_CRYPTO_LAST =
      BitVec.ofNat 32 (op * 2 ^ 24 + status * 2 ^ 16 + requester * 2 ^ 8) := by
  unfold State.cryptoReject
  rw [log_reg _ _ _ _ _ _ _ _ (.inl (by decide)), reg_bump_ne _ _ _ (by decide), reg_setReg_self]

theorem cryptoReject_count (s : State) (op status requester : Nat) :
    (s.cryptoReject op status requester).fld F.SEC_CNT_REJECT_COUNT =
      min (s.fld F.SEC_CNT_REJECT_COUNT + 1) (2 ^ 32 - 1) := by
  unfold State.cryptoReject
  rw [log_fld _ _ _ _ _ _ _ _ (.inl (by decide))]
  exact (fld_bump_self _ _ (by decide) (by decide)).trans
    (congrArg (fun c => min (c + 1) (2 ^ 32 - 1)) (fld_setReg_ne s _ _ _ (by decide)))

theorem ecOperationEnd_passes {x : EcInput} (h1 : 1 ≤ x.op) (h3 : x.op ≤ 3) (hpass : ecStatus x = 0) :
    Ends (.ecOperationEnd x) s (fun t => t.reg R.SEC_CRYPTO_LAST = s.reg R.SEC_CRYPTO_LAST ∧
      (∀ k f, (k, f) ∈ [(1, F.SEC_CNT_SIGN_COUNT), (2, F.SEC_CNT_VERIFY_COUNT), (3, F.SEC_CNT_ECDH_COUNT)] →
        t.fld f = if x.op = k then min (s.fld f + 1) (2 ^ 32 - 1) else s.fld f) ∧ OnlyIn [.regs] s t) := by
  refine ⟨_, exec_ecOperationEnd_passes hpass, reg_bump_ne s _ _ (ecCounter_addr_ne x.op).1, fun k f hkf => ?_,
    setReg_onlyIn s _ _⟩
  simp only [List.mem_cons, Prod.mk.injEq, List.not_mem_nil, or_false] at hkf
  rcases hkf with ⟨rfl, rfl⟩ | ⟨rfl, rfl⟩ | ⟨rfl, rfl⟩
  · exact fld_bump_ecCounter s (j := 1) h1 h3 (by decide) (by decide)
  · exact fld_bump_ecCounter s (j := 2) h1 h3 (by decide) (by decide)
  · exact fld_bump_ecCounter s (j := 3) h1 h3 (by decide) (by decide)

theorem ecOperationEnd_fails {x : EcInput} (hfail : ecStatus x ≠ 0) : Ends (.ecOperationEnd x) s (fun t =>
    (t.reg R.SEC_CRYPTO_LAST).toNat = (x.op * 2 ^ 24 + ecStatus x * 2 ^ 16 + x.requester * 2 ^ 8) % 2 ^ 32 ∧
    t.fld F.SEC_CNT_REJECT_COUNT = min (s.fld F.SEC_CNT_REJECT_COUNT + 1) (2 ^ 32 - 1) ∧ OnlyIn logParts s t) := by
  have hexec := exec_ecOperationEnd_fails (s := s) hfail
  have hkept : Kept 872417921 s _ := (execEcOperationEnd_kept x s (Kept.refl s) (by decide)).kept hexec
  refine ⟨_, hexec, ?_, ?_, hkept.onlyIn (fun p => by cases p <;> decide)⟩
  · rw [cryptoReject_last, BitVec.toNat_ofNat]
  · rw [cryptoReject_count, fld_bump_ne s _ _ (ecCounter_addr_ne x.op).2]

/-- The point at infinity is the first check of R328, whatever else is wrong. -/
theorem ecStatus_of_infinity {x : EcInput} (hinf : (0, 0) ∈ x.points) : ecStatus x = 6 := by
  have hany : x.points.any (fun q => q.1 == 0 && q.2 == 0) = true := List.any_eq_true.mpr ⟨(0, 0), hinf, rfl⟩
  have hinputs : ecInputs x.points x.scalars x.sig = 6 := if_pos hany
  simp [ecStatus, hinputs]

/-! ### The random source and failed streams (R289, R302) -/

theorem rngHealthFail_ends (s : State) : Ends .rngHealthFail s (fun t => t.fld F.SEC_STATUS_RNG_FAIL = 1 ∧
    OnlyIn (.free :: logParts) s t) := by
  have hexec := exec_rngHealthFail (s := s)
  have hkept : Kept 905972353 s _ := (execRngHealthFail_kept s (Kept.refl s) (by decide)).kept hexec
  refine ⟨_, hexec, ?_, hkept.onlyIn (fun p => by cases p <;> decide)⟩
  rw [log_fld _ _ _ _ _ _ _ _ (.inl (by decide))]
  exact fld_setFld_fits _ (by decide) (by decide) (by decide)

/-- A stream that no TDI is bound to fails alone. -/
theorem streamFail_of_unbound (hfree : s.boundTo k = []) : s.streamFail k =
    ((s.modStream k (fun _ => {})).bump F.SEC_CNT_IDE_FAIL_COUNT).log 0x0604 3 0 0xFFFF k 0 := by
  simp only [State.streamFail, hfree, List.foldl_nil]

theorem stream_streamFail_of_unbound (hfree : s.boundTo k = []) (j : Nat) :
    (s.streamFail k).stream j = (s.modStream k (fun _ => {})).stream j := by
  rw [streamFail_of_unbound hfree]
  simp only [State.stream, log_sec, bump_sec]

theorem ideCheckFail_ends (h64 : k < 64) (hfree : s.boundTo k = []) : Ends (.ideCheckFail k) s (fun t =>
    (t.stream k).secure = false ∧ (t.stream k).keys = 0 ∧ (∀ j, j ≠ k → t.stream j = s.stream j) ∧
    t.fld F.SEC_CNT_IDE_FAIL_COUNT = min (s.fld F.SEC_CNT_IDE_FAIL_COUNT + 1) (2 ^ 32 - 1) ∧
    OnlyIn (.sec :: logParts) s t) := by
  have hexec : exec (.ideCheckFail k) s = .next (s.streamFail k) :=
    exec_ideCheckFail.trans (congrArg _ (if_pos h64))
  have hempty : (s.streamFail k).stream k = {} := by
    rw [stream_streamFail_of_unbound hfree, stream_modStream_self]
  have hkept : Kept 872450689 s (s.streamFail k) := by
    rw [streamFail_of_unbound hfree]
    exact log_kept _ _ _ _ _ _ _ (bump_kept (modStream_kept s k _ (Kept.refl s) (by decide)) _ (by decide)) (by decide)
  refine ⟨_, hexec, by rw [hempty]; rfl, by rw [hempty], fun j hj => ?_, ?_,
    hkept.onlyIn (fun p => by cases p <;> decide)⟩
  · rw [stream_streamFail_of_unbound hfree, stream_modStream_ne s _ hj]
  · rw [streamFail_of_unbound hfree, log_fld _ _ _ _ _ _ _ _ (.inl (by decide))]
    exact fld_bump_self _ _ (by decide) (by decide)

/-- Settles O46: a rejection is recorded after the operation is counted, in registers of their own, and logging leaves both;
a stream that no TDI is bound to fails alone. -/
theorem cryptoEventsAreRecorded : Obligations.CryptoEventsAreRecorded :=
  ⟨fun _ _ h1 h3 => ecOperationEnd_passes h1 h3, fun _ _ => ecOperationEnd_fails, fun _ => ecStatus_of_infinity,
    rngHealthFail_ends, fun _ _ => ideCheckFail_ends⟩

end Sys2Proof.Machine
end

section
/-! SUPPORT. The map view and the translation caches (R348 to R358): what a store that is applied leaves in the slice and its
frames, what a rejected one records, and what an invalidation drops, reloads and releases. -/

namespace Sys2Proof.Machine

variable {s t u : State} {n g v f : Nat}

/-! ### Slices, entries and frames -/

theorem slice_modSlice_ne (s : State) {m : Nat} (x : Slice → Slice) (hm : m ≠ n) : (s.modSlice n x).slice m = s.slice m :=
  fget_fset_ne _ _ _ _ _ hm

@[simp] theorem modSlice_mem (s : State) (n : Nat) (x : Slice → Slice) : (s.modSlice n x).mem = s.mem := (rfl)

theorem modSlice_onlyIn (s : State) (n : Nat) (x : Slice → Slice) : OnlyIn [.slices] s (s.modSlice n x) :=
  (modSlice_kept (P := 16384) s n x (Kept.refl s) (by decide)).onlyIn (fun p => by cases p <;> decide)

theorem entry_congr (h : t.slices = s.slices) (n g : Nat) : t.entry n g = s.entry n g := by
  unfold State.entry; rw [slice_congr h]

@[simp] theorem loadPinned_slices (s : State) (n g : Nat) : (s.loadPinned n g).slices = s.slices := by
  unfold State.loadPinned; split <;> rfl

@[simp] theorem loadPinned_frames (s : State) (n g : Nat) : (s.loadPinned n g).mem.frames = s.mem.frames := by
  unfold State.loadPinned; split <;> rfl

theorem loadPinned_slice (s : State) (n g m : Nat) : (s.loadPinned n g).slice m = s.slice m :=
  slice_congr (loadPinned_slices s n g) m

theorem setFrame_frames (s : State) (f c h : Nat) : fget (fun _ => 0) (s.setFrame f c).mem.frames h =
    if h = f then c else fget (fun _ => 0) s.mem.frames h := fget_fset (fun _ => 0) s.mem.frames f h c

theorem setFrame_frames_self (s : State) (f c : Nat) : fget (fun _ => 0) (s.setFrame f c).mem.frames f = c :=
  (setFrame_frames s f c f).trans (if_pos rfl)

theorem setFrame_frames_ne (s : State) {h : Nat} (c : Nat) (hh : h ≠ f) :
    fget (fun _ => 0) (s.setFrame f c).mem.frames h = fget (fun _ => 0) s.mem.frames h :=
  (setFrame_frames s f c h).trans (if_neg hh)

/-! ### What the checks of a store find (Table 09-6) -/

theorem mapCheck_of_reserved (h : bitsOf v 31 4 ≠ 0) : s.mapCheck n g v = 2 := by simp [State.mapCheck, h]

theorem mapCheck_of_quota (hres : bitsOf v 31 4 = 0) (hpages : tst v 1 = true) (hold : entryValid (s.entry n g) = false)
    (hnew : entryValid v = true) (hquota : s.mapLimit n ≤ s.charge n) : s.mapCheck n g v = 3 := by
  simp [State.mapCheck, hres, hpages, hold, hnew, hquota]

/-- A store that makes a granule valid passes only while a zeroed frame is free (R352). -/
theorem nextFrame_of_mapCheck (hcheck : s.mapCheck n g v = 0) (hold : entryValid (s.entry n g) = false)
    (hnew : entryValid v = true) : ∃ f, s.nextFrame = some f := by
  refine Option.ne_none_iff_exists'.mp fun hnone => ?_
  revert hcheck
  simp only [State.mapCheck, hold, hnew, hnone, Option.isNone_none, Bool.not_false, Bool.and_true, if_true]
  repeat' split
  all_goals simp

/-! ### A store that is applied (R349, R350, R356) -/

/-- The slice with granule `g` valid under entry `v` and backed by frame `f`. -/
def Slice.mapped (x : Slice) (g v f : Nat) : Slice :=
  { x with map := fset (fun _ => 0) x.map g v, frame := fset (fun _ => 0) x.frame g (f + 1) }

/-- The slice with granule `g` invalid and the frame `f` that backed it in quarantine. -/
def Slice.unmapped (x : Slice) (g v f : Nat) : Slice :=
  { x with map := fset (fun _ => 0) x.map g v, frame := fset (fun _ => 0) x.frame g 0, quar := x.quar ++ [(g, f)] }

/-- The slice with entry `g` replaced, its validity the same. -/
def Slice.remapped (x : Slice) (g v : Nat) : Slice := { x with map := fset (fun _ => 0) x.map g v }

theorem Slice.mapped_frame (x : Slice) (g v f : Nat) : fget (fun _ => 0) (x.mapped g v f).frame g = f + 1 :=
  fget_fset_self (fun _ => 0) x.frame g (f + 1)

theorem Slice.unmapped_frame (x : Slice) (g v f : Nat) : fget (fun _ => 0) (x.unmapped g v f).frame g = 0 :=
  fget_fset_self (fun _ => 0) x.frame g 0

theorem mapApply_valid (hold : entryValid (s.entry n g) = false) (hnew : entryValid v = true)
    (hf : s.nextFrame = some f) : s.mapApply n g v =
      ((s.takeFrame f (64 * 3 + n)).modSlice n (fun x => x.mapped g v f)).loadPinned n g := by
  simp [State.mapApply, Slice.mapped, hold, hnew, hf]

theorem mapApply_invalid (hold : entryValid (s.entry n g) = true) (hnew : entryValid v = false)
    (hf : f = fget (fun _ => 0) (s.slice n).frame g - 1) : s.mapApply n g v =
      (s.setFrame f (64 * 4 + n)).modSlice n (fun x => x.unmapped g v f) := by
  simp [State.mapApply, Slice.unmapped, hold, hnew, hf]

theorem mapApply_same (h : entryValid (s.entry n g) = entryValid v) : s.mapApply n g v =
    (s.modSlice n (fun x => x.remapped g v)).loadPinned n g := by
  cases hv : entryValid v <;> simp [State.mapApply, Slice.remapped, h, hv]

/-- Entry `g` of VF `n`'s map view becomes `v`; the slice's error count and every other slice stay. -/
structure EntryStored (n g v : Nat) (s t : State) : Prop where
  map : (t.slice n).map = fset (fun _ => 0) (s.slice n).map g v
  errors : (t.slice n).mapErrors = (s.slice n).mapErrors
  others : ∀ m, m ≠ n → t.slice m = s.slice m

theorem EntryStored.entry_self (h : EntryStored n g v s t) : t.entry n g = v := by
  unfold State.entry; rw [h.map, fget_fset_self]

theorem EntryStored.entry_ne (h : EntryStored n g v s t) {k : Nat} (hk : k ≠ g) : t.entry n k = s.entry n k := by
  unfold State.entry; rw [h.map, fget_fset_ne _ _ _ _ _ hk]

theorem EntryStored.entry_other (h : EntryStored n g v s t) {m : Nat} (hm : m ≠ n) (k : Nat) :
    t.entry m k = s.entry m k := by
  unfold State.entry; rw [h.others m hm]

theorem EntryStored.of_modSlice {x : Slice → Slice} (hu : u.slices = s.slices)
    (hmap : (x (s.slice n)).map = fset (fun _ => 0) (s.slice n).map g v)
    (herr : (x (s.slice n)).mapErrors = (s.slice n).mapErrors) : EntryStored n g v s (u.modSlice n x) where
  map := by rw [slice_modSlice_self, slice_congr hu, hmap]
  errors := by rw [slice_modSlice_self, slice_congr hu, herr]
  others m hm := by rw [slice_modSlice_ne u x hm, slice_congr hu]

theorem EntryStored.loadPinned (h : EntryStored n g v s t) (m k : Nat) : EntryStored n g v s (t.loadPinned m k) where
  map := by rw [loadPinned_slice, h.map]
  errors := by rw [loadPinned_slice, h.errors]
  others i hi := by rw [loadPinned_slice, h.others i hi]

theorem mapApply_entryStored (hcheck : s.mapCheck n g v = 0) : EntryStored n g v s (s.mapApply n g v) := by
  by_cases hsame : entryValid (s.entry n g) = entryValid v
  · rw [mapApply_same hsame]
    exact (EntryStored.of_modSlice (x := fun x => x.remapped g v) rfl rfl rfl).loadPinned n g
  · cases hnew : entryValid v
    · have hold : entryValid (s.entry n g) = true := by simpa [hnew] using hsame
      rw [mapApply_invalid hold hnew rfl]
      exact EntryStored.of_modSlice (s := s) (x := fun x => x.unmapped g v _) rfl rfl rfl
    · have hold : entryValid (s.entry n g) = false := by simpa [hnew] using hsame
      obtain ⟨f, hf⟩ := nextFrame_of_mapCheck hcheck hold hnew
      rw [mapApply_valid hold hnew hf]
      have htaken : (s.takeFrame f (64 * 3 + n)).slices = s.slices := rfl
      exact (EntryStored.of_modSlice (x := fun x => x.mapped g v f) htaken rfl rfl).loadPinned n g

/-- A granule that becomes valid takes the next free frame. -/
theorem mapApply_takesFrame (hcheck : s.mapCheck n g v = 0) (hold : entryValid (s.entry n g) = false)
    (hnew : entryValid v = true) : ∃ f, s.nextFrame = some f ∧
      fget (fun _ => 0) ((s.mapApply n g v).slice n).frame g = f + 1 ∧
      fget (fun _ => 0) (s.mapApply n g v).mem.frames f = 64 * 3 + n ∧
      ((s.mapApply n g v).slice n).quar = (s.slice n).quar := by
  obtain ⟨f, hf⟩ := nextFrame_of_mapCheck hcheck hold hnew
  rw [mapApply_valid hold hnew hf, loadPinned_slice, loadPinned_frames, slice_modSlice_self]
  exact ⟨f, hf, Slice.mapped_frame _ g v f, setFrame_frames_self s f _, rfl⟩

/-- A granule that becomes invalid leaves its frame in quarantine. -/
theorem mapApply_quarantines (hold : entryValid (s.entry n g) = true) (hnew : entryValid v = false) : ∃ f,
    f = fget (fun _ => 0) (s.slice n).frame g - 1 ∧
      ((s.mapApply n g v).slice n).quar = (s.slice n).quar ++ [(g, f)] ∧
      fget (fun _ => 0) (s.mapApply n g v).mem.frames f = 64 * 4 + n ∧
      fget (fun _ => 0) ((s.mapApply n g v).slice n).frame g = 0 := by
  rw [mapApply_invalid hold hnew rfl, slice_modSlice_self]
  exact ⟨_, rfl, rfl, setFrame_frames_self s _ _, Slice.unmapped_frame _ g v _⟩

theorem mapApply_keepsFrames (h : entryValid (s.entry n g) = entryValid v) :
    ((s.mapApply n g v).slice n).frame = (s.slice n).frame ∧ ((s.mapApply n g v).slice n).quar = (s.slice n).quar ∧
      (s.mapApply n g v).mem.frames = s.mem.frames := by
  rw [mapApply_same h, loadPinned_slice, loadPinned_frames, slice_modSlice_self]
  exact ⟨rfl, rfl, rfl⟩

/-! ### MAP_VIEW_STORE (R348, R349) -/

theorem exec_mapViewStore (whole : Bool) (value : DWord) (hslice : s.sliceState n ≠ 0) (hg : g < 262144)
    (hrun : s.frozen = false) : exec (.mapViewStore n g value whole) s =
      .next (if whole then s.mapStore n g value.toNat else s.mapMisuse n) := by
  have hgo : ¬ (s.sliceState n = 0 || 262144 ≤ g || s.frozen) = true := by simp [hslice, Nat.not_le_of_lt hg, hrun]
  change execMapViewStore n g value whole s = _
  unfold execMapViewStore
  rw [if_neg hgo]
  cases whole
  · rw [if_neg Bool.false_ne_true, if_neg Bool.false_ne_true]
  · rw [if_pos rfl, if_pos rfl]

theorem mapStore_of_passed (h : s.mapCheck n g v = 0) : s.mapStore n g v = s.mapApply n g v := if_pos h

theorem mapStore_of_failed (h : s.mapCheck n g v ≠ 0) : s.mapStore n g v = s.mapReject n (s.mapCheck n g v) := if_neg h

theorem mapReject_slice (s : State) (n err : Nat) : (s.mapReject n err).slice n =
    { s.slice n with mapErrors := (s.slice n).mapErrors + 1, lastError := err } := by
  unfold State.mapReject
  rw [slice_congr (bump_slices _ _), slice_modSlice_self]

theorem mapMisuse_slice (s : State) (n : Nat) : (s.mapMisuse n).slice n =
    { s.slice n with mapErrors := (s.slice n).mapErrors + 1, lastError := 1 } := slice_modSlice_self s n _

theorem exec_mapViewStore_ignored (g : Nat) (value : DWord) (whole : Bool) (h : s.frozen = true ∨ s.sliceState n = 0) :
    exec (.mapViewStore n g value whole) s = .next s :=
  if_pos (by rcases h with h | h <;> simp [h])

theorem mapViewStore_applied (value : DWord) (hslice : s.sliceState n ≠ 0) (hg : g < 262144) (hrun : s.frozen = false)
    (hcheck : s.mapCheck n g value.toNat = 0) : Ends (.mapViewStore n g value true) s (fun t =>
      t.entry n g = value.toNat ∧ (∀ h, h ≠ g → t.entry n h = s.entry n h) ∧
      (∀ m h, m ≠ n → t.entry m h = s.entry m h) ∧ (t.slice n).mapErrors = (s.slice n).mapErrors ∧
      (entryValid (s.entry n g) = false → entryValid value.toNat = true → ∃ f, s.nextFrame = some f ∧
        fget (fun _ => 0) (t.slice n).frame g = f + 1 ∧ fget (fun _ => 0) t.mem.frames f = 64 * 3 + n ∧
        (t.slice n).quar = (s.slice n).quar) ∧
      (entryValid (s.entry n g) = true → entryValid value.toNat = false → ∃ f,
        f = fget (fun _ => 0) (s.slice n).frame g - 1 ∧ (t.slice n).quar = (s.slice n).quar ++ [(g, f)] ∧
        fget (fun _ => 0) t.mem.frames f = 64 * 4 + n ∧ fget (fun _ => 0) (t.slice n).frame g = 0) ∧
      (entryValid (s.entry n g) = entryValid value.toNat → (t.slice n).frame = (s.slice n).frame ∧
        (t.slice n).quar = (s.slice n).quar ∧ t.mem.frames = s.mem.frames) ∧ OnlyIn [.slices, .mem] s t) := by
  have hstored := mapApply_entryStored hcheck
  have hkept : Kept 81920 s (s.mapApply n g value.toNat) := mapApply_kept s n g _ (Kept.refl s) (by decide)
  have hexec := exec_mapViewStore true value hslice hg hrun
  rw [if_pos rfl, mapStore_of_passed hcheck] at hexec
  exact ⟨_, hexec, hstored.entry_self,
    fun _ => hstored.entry_ne, fun _ k hm => hstored.entry_other hm k, hstored.errors, mapApply_takesFrame hcheck,
    mapApply_quarantines, mapApply_keepsFrames, hkept.onlyIn (fun p => by cases p <;> decide)⟩

theorem mapViewStore_rejected (value : DWord) (hslice : s.sliceState n ≠ 0) (hg : g < 262144) (hrun : s.frozen = false)
    (hcheck : s.mapCheck n g value.toNat ≠ 0) : Ends (.mapViewStore n g value true) s (fun t =>
      (t.slice n).map = (s.slice n).map ∧ (t.slice n).lastError = s.mapCheck n g value.toNat ∧
      (t.slice n).mapErrors = (s.slice n).mapErrors + 1 ∧
      t.fld F.MEM_CNT_MAP_REJECT_COUNT = min (s.fld F.MEM_CNT_MAP_REJECT_COUNT + 1) (2 ^ 32 - 1) ∧
      OnlyIn [.regs, .slices] s t) := by
  have hexec := exec_mapViewStore true value hslice hg hrun
  rw [if_pos rfl, mapStore_of_failed hcheck] at hexec
  have hkept : Kept 16385 s (s.mapReject n (s.mapCheck n g value.toNat)) := mapReject_kept s n _ (Kept.refl s) (by decide)
  refine ⟨_, hexec, ?_, ?_, ?_, fld_bump_self _ _ (by decide) (by decide),
    hkept.onlyIn (fun p => by cases p <;> decide)⟩
  all_goals rw [mapReject_slice]

theorem mapViewStore_misuse (value : DWord) (hslice : s.sliceState n ≠ 0) (hg : g < 262144) (hrun : s.frozen = false) :
    Ends (.mapViewStore n g value false) s (fun t => (t.slice n).map = (s.slice n).map ∧ (t.slice n).lastError = 1 ∧
      (t.slice n).mapErrors = (s.slice n).mapErrors + 1 ∧ OnlyIn [.slices] s t) := by
  refine ⟨s.mapMisuse n, exec_mapViewStore false value hslice hg hrun, ?_, ?_, ?_, modSlice_onlyIn s n _⟩
  all_goals rw [mapMisuse_slice]

/-! ### INV_COUNT_STORE (R357) -/

theorem exec_invCountStore (count : DWord) (hslice : s.sliceState n ≠ 0) (hrun : s.frozen = false) :
    exec (.invCountStore n count) s = .next (s.invStart n count.toNat) :=
  if_neg (by simp [hslice, hrun])

theorem exec_invCountStore_ignored (count : DWord) (h : s.frozen = true ∨ s.sliceState n = 0) :
    exec (.invCountStore n count) s = .next s :=
  if_pos (by rcases h with h | h <;> simp [h])

/-- The whole general area is invalidated. -/
theorem invStart_whole (s : State) (n : Nat) :
    s.invStart n 0 = s.modSlice n (fun x => { x with invs := x.invs ++ [(0, 262144)] }) := rfl

theorem invStart_range {b c : Nat} (hb : b = (s.slice n).invBase) (halign : b % 0x200000 = 0)
    (hfit : b / 0x200000 + c ≤ 262144) (hc : c ≠ 0) :
    s.invStart n c = s.modSlice n (fun x => { x with invs := x.invs ++ [(b / 0x200000, c)] }) := by
  subst hb
  simp [State.invStart, hc, halign, Nat.not_lt.mpr hfit]

theorem invStart_outside {b c : Nat} (hb : b = (s.slice n).invBase) (hc : c ≠ 0)
    (hbad : b % 0x200000 ≠ 0 ∨ 262144 < b / 0x200000 + c) :
    s.invStart n c = s.modSlice n (fun x => { x with mapErrors := x.mapErrors + 1, lastError := 9 }) := by
  subst hb
  have hif : (decide ((s.slice n).invBase % 0x200000 ≠ 0) || decide (262144 < (s.slice n).invBase / 0x200000 + c)) = true := by
    simpa using hbad
  exact (if_neg hc).trans (if_pos hif)

/-! ### What an invalidation does (R357) -/

theorem fget_fsetAll_of_notMem {α : Type} [DecidableEq α] (d : Nat → α) {ks : List Nat} {k : Nat} (hk : k ∉ ks)
    (m : FMap α) (x : α) : fget d (fsetAll d m ks x) k = fget d m k := by
  unfold fsetAll
  induction ks generalizing m with
  | nil => rfl
  | cons j ks ih =>
    obtain ⟨hj, hks⟩ := not_or.mp (mt List.mem_cons.mpr hk)
    exact (ih hks _).trans (fget_fset_ne d m j k x hj)

theorem tcKey_mod (a n : Nat) {k : Nat} (hk : k < 262144) : tcKey a n k % 2 ^ 18 = k := by unfold tcKey; omega

/-- A key of VF `n` and a granule of the range is one that the range's invalidation drops. -/
theorem tcOf_tcKey {a k c : Nat} (hn : n ≤ 63) (hk : k < 262144) (hlo : g ≤ k) (hhi : k < g + c) :
    tcOf n g c (tcKey a n k) = true := by
  have hvf : tcKey a n k / 2 ^ 18 % 64 = n := by unfold tcKey; omega
  unfold tcOf
  rw [hvf, tcKey_mod a n hk]
  simp [hlo, hhi]

/-- Loading pinned entries leaves the copies of a granule whose entry is not pinned. -/
theorem loadPinned_tc {a e k : Nat} (he : e < 262144) (hk : k < 262144) (hpin : entryPinned (s.entry n k) = false) :
    fget (fun _ => 0) (s.loadPinned n e).mem.tc (tcKey a n k) = fget (fun _ => 0) s.mem.tc (tcKey a n k) := by
  unfold State.loadPinned
  split
  next hload =>
    have hek : e ≠ k := fun h => by rw [h, hpin] at hload; cases hload
    refine fget_fsetAll_of_notMem _ (fun hmem => ?_) _ _
    obtain ⟨b, -, hb⟩ := List.mem_map.mp hmem
    have hmod := congrArg (· % 2 ^ 18) hb
    simp only [tcKey_mod _ n he, tcKey_mod _ n hk] at hmod
    exact hek hmod
  next => rfl

/-- The reload of the entries of a list, as an invalidation ends. -/
def State.reload (s : State) (n : Nat) (l : FMap Nat) : State := l.foldl (fun s e => s.loadPinned n e.1) s

theorem reload_slices (s : State) (n : Nat) (l : FMap Nat) : (s.reload n l).slices = s.slices := by
  unfold State.reload
  induction l generalizing s with
  | nil => rfl
  | cons e l ih => exact (ih _).trans (loadPinned_slices s n e.1)

theorem reload_frames (s : State) (n : Nat) (l : FMap Nat) : (s.reload n l).mem.frames = s.mem.frames := by
  unfold State.reload
  induction l generalizing s with
  | nil => rfl
  | cons e l ih => exact (ih _).trans (loadPinned_frames s n e.1)

theorem reload_tc {a k : Nat} {l : FMap Nat} (hl : ∀ e ∈ l, e.1 < 262144) (hk : k < 262144)
    (hpin : entryPinned (s.entry n k) = false) :
    fget (fun _ => 0) (s.reload n l).mem.tc (tcKey a n k) = fget (fun _ => 0) s.mem.tc (tcKey a n k) := by
  unfold State.reload
  induction l generalizing s with
  | nil => rfl
  | cons e l ih =>
    have hpin' : entryPinned ((s.loadPinned n e.1).entry n k) = false := by
      rw [entry_congr (loadPinned_slices s n e.1), hpin]
    exact (ih (fun d hd => hl d (List.mem_cons_of_mem _ hd)) hpin').trans
      (loadPinned_tc (hl e (List.mem_cons_self ..)) hk hpin)

/-- Quarantined frames start zeroing. -/
def State.zeroQuar (s : State) (n : Nat) (l : List (Nat × Nat)) : State := l.foldl (fun s q => s.setFrame q.2 (64 + n)) s

theorem zeroQuar_slices (s : State) (n : Nat) (l : List (Nat × Nat)) : (s.zeroQuar n l).slices = s.slices := by
  unfold State.zeroQuar
  induction l generalizing s with
  | nil => rfl
  | cons q l ih => exact ih _

theorem zeroQuar_tc (s : State) (n : Nat) (l : List (Nat × Nat)) : (s.zeroQuar n l).mem.tc = s.mem.tc := by
  unfold State.zeroQuar
  induction l generalizing s with
  | nil => rfl
  | cons q l ih => exact ih _

theorem zeroQuar_frames (s : State) (n : Nat) (l : List (Nat × Nat)) (f : Nat) :
    fget (fun _ => 0) (s.zeroQuar n l).mem.frames f =
      if f ∈ l.map Prod.snd then 64 + n else fget (fun _ => 0) s.mem.frames f := by
  unfold State.zeroQuar
  induction l generalizing s with
  | nil => rfl
  | cons q l ih =>
    refine (ih _).trans ?_
    rw [setFrame_frames]
    by_cases hq : f = q.2
    · simp [hq]
    · simp only [List.map_cons, List.mem_cons, hq, if_false, false_or]

/-- Whether granule `k` lies in the range of an invalidation of `c` granules from `g`. -/
def inRange (g c k : Nat) : Bool := decide (g ≤ k ∧ k < g + c)

/-- The state in which an invalidation has dropped the cached copies of its range and released the range's frames. -/
def State.invReleased (s : State) (n g c : Nat) : State :=
  (({ s with mem := { s.mem with tc := s.mem.tc.filter (fun e => !tcOf n g c e.1) } } : State).zeroQuar n
    ((s.slice n).quar.filter (fun q => inRange g c q.1))).modSlice n
      (fun x => { x with quar := x.quar.filter (fun q => !inRange g c q.1) })

theorem invRun_eq (s : State) (n g c : Nat) : s.invRun n g c =
    (s.invReleased n g c).reload n ((s.slice n).map.filter (fun e => inRange g c e.1)) := rfl

theorem invReleased_slice (s : State) (n g c : Nat) : (s.invReleased n g c).slice n =
    { s.slice n with quar := (s.slice n).quar.filter (fun q => !inRange g c q.1) } := by
  unfold State.invReleased
  rw [slice_modSlice_self, slice_congr (zeroQuar_slices _ n _)]
  rfl

theorem invReleased_tc {a k c : Nat} (hn : n ≤ 63) (hk : k < 262144) (hlo : g ≤ k) (hhi : k < g + c) :
    fget (fun _ => 0) (s.invReleased n g c).mem.tc (tcKey a n k) = 0 := by
  have htc : (s.invReleased n g c).mem.tc = s.mem.tc.filter (fun e => !tcOf n g c e.1) := zeroQuar_tc _ n _
  rw [htc, fget_filter_key (fun _ => 0) (fun j => !tcOf n g c j), tcOf_tcKey hn hk hlo hhi]
  rfl

theorem invRun_slice (s : State) (n g c : Nat) : (s.invRun n g c).slice n =
    { s.slice n with quar := (s.slice n).quar.filter (fun q => !inRange g c q.1) } := by
  rw [invRun_eq, slice_congr (reload_slices _ n _), invReleased_slice]

/-- The quarantined frames of the range start zeroing. -/
theorem invRun_frames {c : Nat} {q : Nat × Nat} (hq : q ∈ (s.slice n).quar) (hlo : g ≤ q.1) (hhi : q.1 < g + c) :
    fget (fun _ => 0) (s.invRun n g c).mem.frames q.2 = 64 + n := by
  have hin : inRange g c q.1 = true := by simp [inRange, hlo, hhi]
  rw [invRun_eq, reload_frames]
  exact (zeroQuar_frames _ n _ q.2).trans
    (if_pos (List.mem_map.mpr ⟨q, List.mem_filter.mpr ⟨hq, hin⟩, rfl⟩))

/-- Every copy of the range is dropped, and only pinned entries are loaded again. -/
theorem invRun_tc {a k c : Nat} (hn : n ≤ 63) (hfit : g + c ≤ 262144) (hlo : g ≤ k) (hhi : k < g + c)
    (hpin : entryPinned (s.entry n k) = false) : fget (fun _ => 0) (s.invRun n g c).mem.tc (tcKey a n k) = 0 := by
  have hk : k < 262144 := Nat.lt_of_lt_of_le hhi hfit
  have hpin' : entryPinned ((s.invReleased n g c).entry n k) = false := by
    unfold State.entry; rw [invReleased_slice]; exact hpin
  have hmap : ∀ e ∈ (s.slice n).map.filter (fun e => inRange g c e.1), e.1 < 262144 := fun e he => by
    have hin := (List.mem_filter.mp he).2
    simp only [inRange, decide_eq_true_eq] at hin
    omega
  rw [invRun_eq, reload_tc hmap hk hpin', invReleased_tc hn hk hlo hhi]

theorem invRun_keeps (s : State) (n g c : Nat) : Kept 81920 s (s.invRun n g c) := invRun_kept s n g c (Kept.refl s) (by decide)

/-! ### INVALIDATION_COMPLETE (R356 to R358) -/

/-- The state in which the invalidation of `c` granules from `g` has completed and `l` wait. -/
def State.invEnded (s : State) (n g c : Nat) (l : List (Nat × Nat)) : State :=
  ((s.invRun n g c).modSlice n (fun x => { x with invs := l, invDone := x.invDone + 1 })).bump F.MEM_CNT_INV_COUNT

theorem invEnded_slice (s : State) (n g c : Nat) (l : List (Nat × Nat)) : (s.invEnded n g c l).slice n = { s.slice n with
    quar := (s.slice n).quar.filter (fun q => !inRange g c q.1), invs := l, invDone := (s.slice n).invDone + 1 } := by
  unfold State.invEnded
  rw [slice_congr (bump_slices _ _), slice_modSlice_self, invRun_slice]

theorem invEnded_mem (s : State) (n g c : Nat) (l : List (Nat × Nat)) : (s.invEnded n g c l).mem = (s.invRun n g c).mem := by
  unfold State.invEnded
  rw [bump_mem, modSlice_mem]

theorem invEnded_count (s : State) (n g c : Nat) (l : List (Nat × Nat)) : (s.invEnded n g c l).fld F.MEM_CNT_INV_COUNT =
    min (s.fld F.MEM_CNT_INV_COUNT + 1) (2 ^ 32 - 1) :=
  (fld_bump_self _ _ (by decide) (by decide)).trans
    (congrArg (fun k => min (k + 1) (2 ^ 32 - 1)) (fld_of_regs ((invRun_keeps s n g c).regs_eq (by decide)) _))

theorem exec_invalidationComplete {c : Nat} {l : List (Nat × Nat)} (hrun : s.frozen = false)
    (hinvs : (s.slice n).invs = (g, c) :: l) : exec (.invalidationComplete n) s = .next (s.invEnded n g c l) := by
  change execInvalidationComplete n s = _
  simp [execInvalidationComplete, State.invEnded, hinvs, hrun]

theorem invalidationComplete_ends {c : Nat} {l : List (Nat × Nat)} (hn : n ≤ 63) (hrun : s.frozen = false)
    (hinvs : (s.slice n).invs = (g, c) :: l) (hfit : g + c ≤ 262144) : Ends (.invalidationComplete n) s (fun t =>
      (t.slice n).invs = l ∧ (t.slice n).invDone = (s.slice n).invDone + 1 ∧ (t.slice n).map = (s.slice n).map ∧
      (t.slice n).quar = (s.slice n).quar.filter (fun q => !decide (g ≤ q.1 ∧ q.1 < g + c)) ∧
      (∀ q ∈ (s.slice n).quar, g ≤ q.1 → q.1 < g + c → fget (fun _ => 0) t.mem.frames q.2 = 64 + n) ∧
      (∀ a h, g ≤ h → h < g + c → entryPinned (s.entry n h) = false → fget (fun _ => 0) t.mem.tc (tcKey a n h) = 0) ∧
      t.fld F.MEM_CNT_INV_COUNT = min (s.fld F.MEM_CNT_INV_COUNT + 1) (2 ^ 32 - 1) ∧
      OnlyIn [.regs, .slices, .mem] s t) := by
  have hexec := exec_invalidationComplete hrun hinvs
  have hkept : Kept 81921 s _ := (execInvalidationComplete_kept n s (Kept.refl s) (by decide)).kept hexec
  refine ⟨_, hexec, ?_, ?_, ?_, ?_, fun q hq hlo hhi => ?_, fun a k hlo hhi hpin => ?_, invEnded_count s n g c l,
    hkept.onlyIn (fun p => by cases p <;> decide)⟩
  · rw [invEnded_slice]
  · rw [invEnded_slice]
  · rw [invEnded_slice]
  · rw [invEnded_slice]; rfl
  · rw [invEnded_mem]; exact invRun_frames hq hlo hhi
  · rw [invEnded_mem]; exact invRun_tc hn hfit hlo hhi hpin

end Sys2Proof.Machine
end

section
/-! SUPPORT. The frames of HBM (R340 to R344): the zeroing of a frame, the patrol and the refresh wait. -/

namespace Sys2Proof.Machine

variable {s t : State} {f d : Nat}

/-! ### The bytes and error units of a frame -/

theorem frameOf_eq_iff (hd : 0x10000000000 ≤ d) : frameOf d = f ↔ frameDpa f ≤ d ∧ d < frameDpa (f + 1) := by
  unfold frameOf frameDpa; omega

/-- A line of HBM lies in one frame. -/
theorem eccUnit_inFrame (hlo : frameDpa f ≤ d) (hhi : d < frameDpa (f + 1)) :
    frameDpa f ≤ (eccUnit d).1 ∧ (eccUnit d).1 < frameDpa (f + 1) := by
  unfold frameDpa at hlo hhi ⊢
  rw [show eccUnit d = (d - d % 64, 64) from if_neg (by omega)]
  dsimp only
  omega

theorem dpaByte_of_erased (hd : 0x10000000000 ≤ d) (hbyte : fget (fun _ => 0) s.mem.hbm d = 0)
    (hclean : fget (fun _ => 0) s.mem.clean (frameOf d) = 1) : s.dpaByte d = 0 := by
  have hhbm : ¬ d < 0x10000000 := by omega
  simp [State.dpaByte, hhbm, hbyte, hclean]

theorem dpaByte_congr (hsec : t.sec = s.sec) (hcmn : t.mem.cmn = s.mem.cmn)
    (hbyte : fget (fun _ => 0) t.mem.hbm d = fget (fun _ => 0) s.mem.hbm d)
    (hclean : d < 0x10000000 ∨ fget (fun _ => 0) t.mem.clean (frameOf d) = fget (fun _ => 0) s.mem.clean (frameOf d)) :
    t.dpaByte d = s.dpaByte d := by
  rcases hclean with hd | hclean
  · simp [State.dpaByte, hd, hcmn]
  · simp [State.dpaByte, hsec, hcmn, hbyte, hclean]

/-! ### FRAME_ZERO_COMPLETE (R344, R356) -/

theorem zeroFrame_reads_zero (s : State) (hlo : frameDpa f ≤ d) (hhi : d < frameDpa (f + 1)) :
    (s.zeroFrame f).dpaByte d = 0 := by
  have hd : 0x10000000000 ≤ d := by unfold frameDpa at hlo; omega
  refine dpaByte_of_erased hd ((fget_fclear _ _ _ _ _).trans (if_pos ⟨hlo, hhi⟩)) ?_
  rw [(frameOf_eq_iff hd).mpr ⟨hlo, hhi⟩]
  exact fget_fset_self (fun _ => 0) s.mem.clean f 1

theorem zeroFrame_not_poisoned (s : State) (hlo : frameDpa f ≤ d) (hhi : d < frameDpa (f + 1)) :
    (s.zeroFrame f).poisoned d = false := by
  have hget : fget (fun _ => 0) (s.zeroFrame f).mem.poison (eccUnit d).1 = 0 :=
    (fget_fclear _ _ _ _ _).trans (if_pos (eccUnit_inFrame hlo hhi))
  unfold State.poisoned
  rw [hget]
  rfl

/-- Zeroing a frame leaves the commons and every other frame. -/
theorem zeroFrame_elsewhere (s : State)
    (hd : d < 0x10000000 ∨ (0x10000000000 ≤ d ∧ d < frameDpa f) ∨ frameDpa (f + 1) ≤ d) :
    (s.zeroFrame f).dpaByte d = s.dpaByte d := by
  have hout : ¬ (frameDpa f ≤ d ∧ d < frameDpa (f + 1)) := by unfold frameDpa at hd ⊢; omega
  refine dpaByte_congr rfl rfl ((fget_fclear _ _ _ _ _).trans (if_neg hout)) ?_
  rcases Nat.lt_or_ge d 0x10000000 with hcmn | hhbm
  · exact .inl hcmn
  · have hbase : 0x10000000000 ≤ d := by unfold frameDpa at hd; omega
    exact .inr (fget_fset_ne (fun _ => 0) s.mem.clean f _ 1 (fun h => hout ((frameOf_eq_iff hbase).mp h)))

theorem exec_frameZeroComplete (hzeroing : fget (fun _ => 0) s.mem.frames f / 64 = 1) (hrun : s.frozen = false) :
    exec (.frameZeroComplete f) s = .next ((s.zeroFrame f).setFrame f 0) :=
  if_pos (by simp [hzeroing, hrun])

theorem exec_frameZeroComplete_ignored (h : fget (fun _ => 0) s.mem.frames f / 64 ≠ 1 ∨ s.frozen = true) :
    exec (.frameZeroComplete f) s = .next s :=
  if_neg (by rcases h with h | h <;> simp [h])

theorem frameZeroComplete_ends (hzeroing : fget (fun _ => 0) s.mem.frames f / 64 = 1) (hrun : s.frozen = false) :
    Ends (.frameZeroComplete f) s (fun t => fget (fun _ => 0) t.mem.frames f = 0 ∧
      (∀ h, h ≠ f → fget (fun _ => 0) t.mem.frames h = fget (fun _ => 0) s.mem.frames h) ∧
      (∀ d, frameDpa f ≤ d → d < frameDpa (f + 1) → t.dpaByte d = 0 ∧ t.poisoned d = false) ∧
      (∀ d, d < 0x10000000 ∨ (0x10000000000 ≤ d ∧ d < frameDpa f) ∨ frameDpa (f + 1) ≤ d → t.dpaByte d = s.dpaByte d) ∧
      OnlyIn [.mem, .cmn, .hbm] s t) := by
  have hexec := exec_frameZeroComplete hzeroing hrun
  have hkept : Kept 6442516480 s _ := (execFrameZeroComplete_kept f s (Kept.refl s) (by decide)).kept hexec
  exact ⟨_, hexec, setFrame_frames_self _ f 0, fun h hh => setFrame_frames_ne (s.zeroFrame f) 0 hh,
    fun d hlo hhi => ⟨zeroFrame_reads_zero s hlo hhi, zeroFrame_not_poisoned s hlo hhi⟩,
    fun d hd => zeroFrame_elsewhere s hd, hkept.onlyIn (fun p => by cases p <;> decide)⟩

/-! ### PATROL (R341, R343) -/

theorem patrolOn_iff : s.patrolOn = true ↔
    s.bit F.SEC_STATUS_TENANCY_KEY = true ∧ s.frozen = false ∧ s.pwr.doze = false := by
  simp [State.patrolOn, and_assoc]

theorem exec_patrol_off (errs : Upsets) (permille : Nat)
    (h : s.bit F.SEC_STATUS_TENANCY_KEY = false ∨ s.frozen = true ∨ s.pwr.doze = true) :
    exec (.patrol errs permille) s = .next s :=
  if_neg fun hon => by
    obtain ⟨hkey, hrun, hdoze⟩ := patrolOn_iff.mp hon
    simp [hkey, hrun, hdoze] at h

theorem exec_patrol_clean (permille : Nat) (hon : s.patrolOn = true) : exec (.patrol [] permille) s =
    .next (s.setFld F.MEM_PATROL_PROGRESS_PERMILLE (min permille 1000)) := if_pos hon

theorem exec_patrol_ue (permille : Nat) (hon : s.patrolOn = true) (hd : 0x10000000000 ≤ d) :
    exec (.patrol [(d, true)] permille) s =
      .next ((s.memUe (s.ownerOf d) d).setFld F.MEM_PATROL_PROGRESS_PERMILLE (min permille 1000)) := by
  change execPatrol [(d, true)] permille s = _
  simp [execPatrol, hon, Nat.not_lt.mpr hd]

theorem fld_progress (s : State) (permille : Nat) : (s.setFld F.MEM_PATROL_PROGRESS_PERMILLE (min permille 1000)).fld
    F.MEM_PATROL_PROGRESS_PERMILLE = min permille 1000 :=
  fld_setFld_fits s (by decide) (by decide) (Nat.lt_of_le_of_lt (Nat.min_le_right ..) (by decide))

/-- The line with the uncorrectable error is poisoned. -/
theorem memUe_poisoned (s : State) (vf : Nat) (hd : 0x10000000000 ≤ d) : (s.memUe vf d).poisoned d = true := by
  have hpoison : (s.memUe vf d).mem = (s.setPoison d 1).mem := by
    unfold State.memUe
    rw [if_neg (by omega)]
    exact log_mem ..
  unfold State.poisoned
  rw [hpoison, State.setPoison, fget_fset_self]
  rfl

theorem patrol_clean_ends (permille : Nat) (hon : s.patrolOn = true) : Ends (.patrol [] permille) s (fun t =>
    t.fld F.MEM_PATROL_PROGRESS_PERMILLE = min permille 1000 ∧ OnlyIn [.regs] s t) :=
  ⟨_, exec_patrol_clean permille hon, fld_progress s permille, setReg_onlyIn s _ _⟩

theorem patrol_ue_ends (permille : Nat) (hon : s.patrolOn = true) (hd : 0x10000000000 ≤ d) :
    Ends (.patrol [(d, true)] permille) s (fun t => t.poisoned d = true ∧
      t.fld F.MEM_PATROL_PROGRESS_PERMILLE = min permille 1000 ∧ OnlyIn (.mem :: logParts) s t) := by
  have hkept : Kept 872483457 s (s.memUe (s.ownerOf d) d) := memUe_kept s _ d (Kept.refl s) (by decide)
  exact ⟨_, exec_patrol_ue permille hon hd, memUe_poisoned s _ hd, fld_progress _ permille,
    (setFld_kept hkept _ _ (by decide)).onlyIn (fun p => by cases p <;> decide)⟩

/-! ### HBM_REFRESH (R342) -/

theorem exec_hbmRefresh (ns : Nat) (hrun : s.frozen = false) (hdoze : s.pwr.doze = false) : exec (.hbmRefresh ns) s =
    .next (s.setFld F.MEM_REFRESH_WAIT_MAX_NS (max (s.fld F.MEM_REFRESH_WAIT_MAX_NS) (min ns 350))) :=
  if_neg (by simp [hrun, hdoze])

theorem hbmRefresh_ends (ns : Nat) (hrun : s.frozen = false) (hdoze : s.pwr.doze = false) :
    Ends (.hbmRefresh ns) s (fun t =>
      t.fld F.MEM_REFRESH_WAIT_MAX_NS = max (s.fld F.MEM_REFRESH_WAIT_MAX_NS) (min ns 350) ∧ OnlyIn [.regs] s t) := by
  have hold : s.fld F.MEM_REFRESH_WAIT_MAX_NS < 2 ^ 16 := fld_lt s _
  exact ⟨_, exec_hbmRefresh ns hrun hdoze, fld_setFld_fits s (by decide) (by decide) (show _ < 2 ^ 16 by omega),
    setReg_onlyIn s _ _⟩

/-- Settles O51: a store that passes is one write of the entry with its frame taken, released or left; an invalidation drops
its range's copies and reloads pinned entries alone; a zeroed frame is cleared whole. -/
theorem mapViewStoresFollowTheTable : Obligations.MapViewStoresFollowTheTable := by
  refine ⟨fun n g value s _ _ hslice hg hrun => ⟨mapViewStore_applied value hslice hg hrun,
      mapViewStore_rejected value hslice hg hrun, mapViewStore_misuse value hslice hg hrun,
      fun _ => mapCheck_of_reserved, fun _ => mapCheck_of_quota⟩,
    fun n count b s _ _ hslice hrun hb => ?_, fun n g c l s _ hn hrun => invalidationComplete_ends hn hrun,
    fun n g value whole s h => ⟨exec_mapViewStore_ignored g value whole h, exec_invCountStore_ignored value h⟩,
    fun _ _ => frameZeroComplete_ends, fun _ _ => exec_frameZeroComplete_ignored,
    fun permille s hkey hrun hdoze => ?_, fun errs permille _ => exec_patrol_off errs permille,
    fun ns _ => hbmRefresh_ends ns⟩
  · have hexec := exec_invCountStore count hslice hrun
    refine ⟨fun halign hfit hc => ?_, fun hc => ?_, fun hc hbad => ?_⟩
    · rw [invStart_range hb halign hfit hc] at hexec
      exact ⟨_, hexec, slice_modSlice_self s n _, modSlice_onlyIn s n _⟩
    · rw [hc, invStart_whole] at hexec
      exact ⟨_, hexec, slice_modSlice_self s n _, modSlice_onlyIn s n _⟩
    · rw [invStart_outside hb hc hbad] at hexec
      refine ⟨_, hexec, ?_, ?_, ?_, modSlice_onlyIn s n _⟩
      all_goals rw [slice_modSlice_self]
  · have hon : s.patrolOn = true := patrolOn_iff.mpr ⟨hkey, hrun, hdoze⟩
    exact ⟨patrol_clean_ends permille hon, fun d => patrol_ue_ends permille hon⟩

end Sys2Proof.Machine
end

section
/-! SUPPORT. A gather of no rows (R516): it reads and writes no byte, yet where its DST lies in the control window the store
of nothing is recorded there as a MISUSE of the slice (R348), so that the step does not leave the slices alone. -/

namespace Sys2Proof.Machine

variable {s : State} {b : Block} {i n a o agent : Nat}

/-! ### A store of no bytes to the control window -/

theorem memPut_nil_of_ctrl (h : ctrlOffset a = some o) : s.memPut agent n a [] = s.mapMisuse n := by
  simp [State.memPut, h, State.ctrlStore]

theorem mapMisuse_slices_ne (s : State) (n : Nat) : (s.mapMisuse n).slices ≠ s.slices := fun h => by
  have herrors := congrArg Slice.mapErrors ((mapMisuse_slice s n).symm.trans (slice_congr h n))
  exact Nat.succ_ne_self _ herrors

/-! ### A step that moves no byte -/

theorem engineStep_ok {cls op : Nat} {f : Block → StepRes} {t : State} (hstep : StepOf s i cls op b) (hf : f b = .ok t) :
    s.engineStep i cls op f = .next (t.modInst i (fun x => { x with worked := true })) := by
  simp [State.engineStep, hstep.stepping, hstep.cls, hstep.op, hf]

/-- What a gather step of no bytes leaves: the store of nothing at its destination, and no zeroed row counted. -/
theorem gatherStep_noBytes (hzero : b.stepBytes = 0) (pages : Bool) : s.gatherStep i b pages =
    .ok (((s.memPut (instAgent i) b.vf (b.dst + 65536 * b.steps) []).count R.FFE_CNT_INDEX_ZERO 0).touch
      (instAgent i) b.vf (b.dst + 65536 * b.steps) 0) := by
  simp [State.gatherStep, hzero, runsOf, State.withRanges, State.rangesBad, State.memCheck, addrs]

theorem exec_gather_noBytes (hstep : StepOf s i 2 1 b) (hzero : b.stepBytes = 0)
    (hctrl : ctrlOffset (b.dst + 65536 * b.steps) = some o) :
    exec (.gather i) s = .next ((((s.mapMisuse b.vf).count R.FFE_CNT_INDEX_ZERO 0).touch (instAgent i) b.vf
      (b.dst + 65536 * b.steps) 0).modInst i (fun x => { x with worked := true })) :=
  engineStep_ok hstep (by rw [gatherStep_noBytes hzero, memPut_nil_of_ctrl hctrl])

/-- From any state, the gather of no rows to the control window changes a slice. -/
theorem gather_noBytes_changes_slices (hstep : StepOf s i 2 1 b) (hzero : b.stepBytes = 0)
    (hctrl : ctrlOffset (b.dst + 65536 * b.steps) = some o) : ¬ Ends (.gather i) s (fun t => t.slices = s.slices) := by
  rintro ⟨t, hexec, hsame⟩
  rw [exec_gather_noBytes hstep hzero hctrl] at hexec
  injection hexec with ht
  have hkept : Kept 34144257 (s.mapMisuse b.vf) t := ht ▸
    modInst_kept _ i _ (touch_kept _ _ _ _ _ (count_kept _ _ _ (Kept.refl _) (by decide)) (by decide)) (by decide)
  exact mapMisuse_slices_ne s b.vf ((hkept.slices (by decide)).symm.trans hsame)

/-! ### The counterexample -/

/-- A GATHER block of VF 7: COUNT 0, ROW_BYTES 64, and DST at the start of the control window. -/
def gatherOfNothing : Block :=
  { bytes := [2, 1, 7] ++ List.replicate 21 0 ++ leBytes 8 0xFF0000000000 ++ List.replicate 8 0 ++ leBytes 24 64
    uid := 0, steps := 0, started := true, waitTick := none, saved := none }

/-- The part after reset, with that block's step in progress on gather instance 16. -/
def gatheringNothing : State :=
  { State.reset with ffe := { inst := [(16, { sub := [(7, [gatherOfNothing])], busy := 7 })] } }

theorem gatheringNothing_stepOf : StepOf gatheringNothing 16 2 1 gatherOfNothing :=
  ⟨by decide, by decide, by decide, by decide⟩

theorem gatherOfNothing_stepBytes : gatherOfNothing.stepBytes = 0 := by decide

theorem gatherOfNothing_ctrl : ctrlOffset (gatherOfNothing.dst + 65536 * gatherOfNothing.steps) = some 0 := by decide

/-- Refutes O57, in its clause on GATHER: a block with COUNT 0 meets every premise, as its step has no byte to read or write,
but with DST in the control window it counts a MISUSE of its slice, and the clause lets no slice change. The model's
`State.memPut` stores the empty list there; the clause would need DST outside that window, or at least one byte. -/
theorem not_matrixUnitsAndEnginesWork : ¬ Obligations.MatrixUnitsAndEnginesWork := by
  unfold Obligations.MatrixUnitsAndEnginesWork
  rintro ⟨-, -, -, -, -, -, -, hsteps⟩
  obtain ⟨-, -, hgather, -⟩ := hsteps 16 gatherOfNothing gatheringNothing (by decide)
  have hnone : ∀ k, ¬ k < gatherOfNothing.stepBytes := fun k => by simp [gatherOfNothing_stepBytes]
  obtain ⟨t, hexec, -, -, -, honly⟩ := hgather 1 (.gather 16) _ _ _ (.head _) gatheringNothing_stepOf (by decide)
    rfl rfl rfl (fun k hk => absurd hk (hnone k)) id (fun k hk => absurd hk (hnone k)) (fun k _ hk => absurd hk (hnone k))
  exact gather_noBytes_changes_slices gatheringNothing_stepOf gatherOfNothing_stepBytes gatherOfNothing_ctrl
    ⟨t, hexec, honly .slices (by decide)⟩

end Sys2Proof.Machine
end

section
/-! SUPPORT. The reading and the dispatch of a group of schedule entries (R540 to R543): what each entry read does to the group,
and what dispatching the group leaves. -/

namespace Sys2Proof.Machine

variable {mid : Option (Nat × Nat)} {s t u : State} {e f : Entry} {i fuel : Nat}

/-! ### The entries of a group (R540, R541) -/

theorem setSch_onlyIn (s : State) (c : Sched) : OnlyIn [.sch] s { s with sch := c } :=
  (Kept.set_sch (P := 131072) (Kept.refl s) c (by decide)).onlyIn (fun p => by cases p <;> decide)

/-- `s` with entry `k` of the position the next to read, and the slots `r` read. -/
def State.readTo (s : State) (k : Nat) (r : List Slot) : State := { s with sch := { s.sch with rdIdx := k, ready := r } }

@[simp] theorem readTo_rdIdx (s : State) (k : Nat) (r : List Slot) : (s.readTo k r).sch.rdIdx = k := rfl
@[simp] theorem readTo_ready (s : State) (k : Nat) (r : List Slot) : (s.readTo k r).sch.ready = r := rfl

theorem readTo_onlyIn (s : State) (k : Nat) (r : List Slot) : OnlyIn [.sch] s (s.readTo k r) := setSch_onlyIn s _

theorem entryBad_le (e : Entry) : entryBad e ≤ 2 := by
  unfold entryBad
  split
  · split
    · decide
    · split <;> decide
  · decide

theorem readGroup_full (mid : Option (Nat × Nat)) (fuel : Nat) (hfull : 32 ≤ s.sch.rdIdx) : readGroup mid fuel s = s := by
  cases fuel with
  | zero => rfl
  | succ fuel => rw [readGroup]; exact if_pos hfull

section OneEntry
variable (hleft : s.sch.rdIdx < 32) (he : s.entryRead mid (s.sch.rdBase + s.sch.rdIdx) = e)
include hleft he

theorem readGroup_skips (hbad : entryBad e ≠ 0) : readGroup mid (fuel + 1) s = readGroup mid fuel
    ((s.skipEntry (s.sch.rdBase + s.sch.rdIdx) (entryBad e)).readTo (s.sch.rdIdx + 1) s.sch.ready) := by
  rw [readGroup, if_neg (Nat.not_le.mpr hleft), he, if_pos hbad]
  rfl

/-- A NONE entry ends the position's groups, and an entry of another START this one. -/
theorem readGroup_closes (hgood : entryBad e = 0)
    (hother : eKind e = 0 ∨ s.sch.ready.any (fun x => x.start != eStart e) = true) :
    readGroup mid (fuel + 1) s = s.readTo (if eKind e = 0 then 32 else s.sch.rdIdx) s.sch.ready := by
  rw [readGroup, if_neg (Nat.not_le.mpr hleft), he, if_neg (fun hbad => hbad hgood)]
  by_cases hnone : eKind e = 0
  · rw [if_pos hnone, if_pos hnone]
    rfl
  · rw [if_neg hnone, if_pos (hother.resolve_left hnone), if_neg hnone]
    rfl

theorem readGroup_joins (hgood : entryBad e = 0) (hslot : eKind e ≠ 0)
    (hsame : s.sch.ready.any (fun x => x.start != eStart e) = false) : readGroup mid (fuel + 1) s =
      readGroup mid fuel (s.readTo (s.sch.rdIdx + 1) (s.sch.ready ++ [slotOf e (s.sch.rdBase + s.sch.rdIdx)])) := by
  rw [readGroup, if_neg (Nat.not_le.mpr hleft), he, if_neg (fun hbad => hbad hgood), if_neg hslot,
    if_neg (Bool.eq_false_iff.mp hsame)]
  rfl

end OneEntry

/-! ### A skipped entry (R541) -/

@[simp] theorem skipEntry_sch (s : State) (i reason : Nat) : (s.skipEntry i reason).sch = s.sch := by
  simp [State.skipEntry, State.bump, State.addFld]

theorem skipEntry_onlyIn (s : State) (i reason : Nat) : OnlyIn logParts s (s.skipEntry i reason) :=
  (skipEntry_kept (P := 872417921) s i reason (Kept.refl s) (by decide)).onlyIn (fun p => by cases p <;> decide)

theorem skipEntry_lastSkip (s : State) {reason : Nat} (hreason : reason ≤ 2) (hi : i < 4096) :
    ((s.skipEntry i reason).reg R.SCH_LAST_SKIP).toNat = reason * 2 ^ 12 + i := by
  rw [State.skipEntry, reg_setReg_self, BitVec.toNat_ofNat, Nat.mod_eq_of_lt (by omega)]

theorem skipEntry_count (s : State) (i reason : Nat) : (s.skipEntry i reason).fld F.SCH_CNT_SKIP_COUNT =
    min (s.fld F.SCH_CNT_SKIP_COUNT + 1) (2 ^ 32 - 1) := by
  rw [State.skipEntry, fld_setReg_ne _ _ _ _ (by decide), fld_bump_self _ _ (by decide) (by decide),
    log_fld _ _ _ _ _ _ _ _ (by decide)]
  rfl

/-! ### SCHEDULE_GROUP_READ (R540) -/

theorem groupRead_of_ready (mid : Option (Nat × Nat)) (hready : s.sch.ready ≠ []) : s.groupRead mid = s := by
  simp [State.groupRead, hready]

/-- While the current position has a further group, that is the one read. -/
theorem groupRead_current (hahead : s.sch.ahead = false) (hempty : s.sch.ready = [])
    (hread : readGroup mid 32 s = t) (hfound : t.sch.ready ≠ []) : s.groupRead mid = t := by
  simp [State.groupRead, hahead, hempty, hread, hfound]

theorem exec_scheduleGroupRead (mid : Option (Nat × Nat)) (hrun : s.frozen = false) (htick : s.tick.running = true) :
    exec (.scheduleGroupRead mid) s = .next (s.groupRead mid) := by
  change execScheduleGroupRead mid s = _
  simp [execScheduleGroupRead, hrun, htick]

theorem exec_scheduleGroupRead_idle (mid : Option (Nat × Nat))
    (hidle : s.frozen = true ∨ s.tick.running = false ∨ s.sch.ready ≠ []) :
    exec (.scheduleGroupRead mid) s = .next s := by
  change execScheduleGroupRead mid s = _
  unfold execScheduleGroupRead
  rcases hidle with h | h | h
  · simp [h]
  · simp [h]
  · rw [groupRead_of_ready mid h, ite_self]

section Group
variable (hrun : s.frozen = false) (htick : s.tick.running = true) (hahead : s.sch.ahead = false) (hempty : s.sch.ready = [])
  (hi : i = s.sch.rdBase + s.sch.rdIdx) (he : e = s.entryAt i) (hf : f = s.entryAt (i + 1))
include hrun htick hahead hempty hi he hf

/-- A good entry, and a NONE entry or one of another START after it: a group of one. -/
theorem scheduleGroupRead_one (hleft : s.sch.rdIdx < 31) (hgood : entryBad e = 0) (hslot : eKind e ≠ 0)
    (hgood' : entryBad f = 0) (hnext : eKind f = 0 ∨ eStart f ≠ eStart e) :
    Ends (.scheduleGroupRead none) s (fun t => t.sch.ready = [slotOf e i] ∧ t.sch.rdBase = s.sch.rdBase ∧
      t.sch.rdIdx = (if eKind f = 0 then 32 else s.sch.rdIdx + 1) ∧ OnlyIn [.sch] s t) := by
  subst hi
  have hfirst := readGroup_joins (mid := none) (fuel := 31) (s := s) (by omega) he.symm hgood hslot (by simp [hempty])
  rw [hempty, List.nil_append] at hfirst
  have hread := hfirst.trans (readGroup_closes (s := s.readTo (s.sch.rdIdx + 1) [slotOf e (s.sch.rdBase + s.sch.rdIdx)])
    (Nat.succ_lt_succ hleft) hf.symm hgood' (hnext.imp_right fun h => by simp [slotOf, h.symm]))
  refine ⟨_, exec_scheduleGroupRead none hrun htick, ?_⟩
  rw [groupRead_current hahead hempty hread (List.cons_ne_nil _ _)]
  exact ⟨rfl, rfl, rfl, readTo_onlyIn s _ _⟩

/-- A bad entry before the last of the position: it is skipped and recorded, and the last one is the group. -/
theorem scheduleGroupRead_skips (hfit : i < 4096) (hbad : entryBad e ≠ 0) (hgood : entryBad f = 0) (hslot : eKind f ≠ 0)
    (hlast : s.sch.rdIdx = 30) : Ends (.scheduleGroupRead none) s (fun t =>
      t.sch.ready = [slotOf f (i + 1)] ∧ (t.reg R.SCH_LAST_SKIP).toNat = entryBad e * 2 ^ 12 + i ∧
      t.fld F.SCH_CNT_SKIP_COUNT = min (s.fld F.SCH_CNT_SKIP_COUNT + 1) (2 ^ 32 - 1) ∧ OnlyIn (.sch :: logParts) s t) := by
  have hskip := readGroup_skips (mid := none) (fuel := 31) (s := s) (by omega) (e := e) (by rw [he, hi]; rfl) hbad
  rw [← hi, hempty, hlast] at hskip
  have hbase : s.sch.rdBase + (30 + 1) = i + 1 := by omega
  have hread : readGroup none 32 s = ((s.skipEntry i (entryBad e)).readTo 31 []).readTo 32 [slotOf f (i + 1)] := by
    rw [hskip, readGroup_joins (e := f) (by simp) ?_ hgood hslot rfl, readGroup_full _ _ (by simp)]
    · simp [State.readTo, hbase]
    · simp [State.readTo, State.entryRead, State.entryAt, hf, hbase]
  refine ⟨_, exec_scheduleGroupRead none hrun htick, ?_⟩
  rw [groupRead_current hahead hempty hread (List.cons_ne_nil _ _)]
  exact ⟨rfl, skipEntry_lastSkip s (entryBad_le e) hfit, skipEntry_count s i _,
    ((skipEntry_onlyIn s i _).mono (by decide)).trans
      (((readTo_onlyIn _ _ _).trans (readTo_onlyIn _ _ _)).mono (by decide))⟩

end Group

/-! ### SLOT_START (R543) -/

/-- While slots dispatch, one that starts joins those that run, and may be counted in its slice's account. -/
theorem dispatchSlot_of_live (hlive : s.dispatchStopped = false) (x : Slot) : ∃ w a, s.dispatchSlot x =
    { s with sch := { s.sch with running := s.sch.running ++ [{ x with waiting := w }], acct := a } } := by
  unfold State.dispatchSlot
  rw [if_neg (by simp [hlive])]
  extract_lets w s1
  split
  · exact ⟨w, _, rfl⟩
  · exact ⟨w, s.sch.acct, rfl⟩

/-- `t` is `s` after the slots `l` have been dispatched. -/
structure Dispatched (l : List Slot) (s t : State) : Prop where
  keys : t.sch.running.map Slot.key = s.sch.running.map Slot.key ++ l.map Slot.key
  ready : t.sch.ready = s.sch.ready
  parts : OnlyIn [.sch] s t

theorem foldl_dispatchSlot (l : List Slot) (hlive : s.dispatchStopped = false) :
    Dispatched l s (l.foldl State.dispatchSlot s) := by
  induction l generalizing s with
  | nil => exact ⟨by simp, rfl, OnlyIn.refl s⟩
  | cons x l ih =>
    obtain ⟨w, a, hx⟩ := dispatchSlot_of_live hlive x
    rw [List.foldl_cons, hx]
    obtain ⟨hkeys, hready, hparts⟩ := ih (s := { s with sch := { s.sch with
      running := s.sch.running ++ [{ x with waiting := w }], acct := a } }) hlive
    exact ⟨by rw [hkeys]; simp [Slot.key], hready, (setSch_onlyIn s _).trans hparts⟩

theorem exec_slotStart (hrun : s.frozen = false) (htick : s.tick.running = true) (hready : s.sch.ready ≠ [])
    (hahead : s.sch.ahead = false) (hbank : s.sch.rdBase / 2048 = s.bank) :
    exec .slotStart s = .next (s.sch.ready.foldl State.dispatchSlot (s.readTo s.sch.rdIdx [])) := by
  change execSlotStart s = _
  simp [execSlotStart, State.readTo, hrun, htick, hready, hahead, hbank]

theorem exec_slotStart_idle (hidle : s.frozen = true ∨ s.tick.running = false) : exec .slotStart s = .next s := by
  change execSlotStart s = _
  rcases hidle with h | h <;> simp [execSlotStart, h]

theorem slotStart_ends (hrun : s.frozen = false) (htick : s.tick.running = true) (hready : s.sch.ready ≠ [])
    (hahead : s.sch.ahead = false) (hbank : s.sch.rdBase / 2048 = s.bank) (hlive : s.dispatchStopped = false) :
    Ends .slotStart s (fun t => t.sch.ready = [] ∧
      t.sch.running.map Slot.key = s.sch.running.map Slot.key ++ s.sch.ready.map Slot.key ∧ OnlyIn [.sch] s t) := by
  have hdone := foldl_dispatchSlot (s := s.readTo s.sch.rdIdx []) s.sch.ready hlive
  exact ⟨_, exec_slotStart hrun htick hready hahead hbank, hdone.ready, hdone.keys, (readTo_onlyIn s _ _).trans hdone.parts⟩

end Sys2Proof.Machine
end

section
/-! SUPPORT. The end of a slot (R545, R547, R549) and of an exclusive job (R552, R554): what ends with it, a command among them,
and what stays. -/

namespace Sys2Proof.Machine

variable {s t u : State} {x : Slot} {i c d n q uid status detail result : Nat}

/-! ### The end of a command -/

theorem CmdEnded.congr (h : CmdEnded t n q uid status detail result) (hqs : u.qs = t.qs) :
    CmdEnded u n q uid status detail result := by
  unfold CmdEnded; rw [queue_congr hqs]; exact h

/-- A command of the queue, whatever its phase, ends with the status given to it. -/
theorem endCmd_cmdEnded (hstatus : faultCode status = none) (detail result : Nat)
    (hin : ∃ c ∈ (s.queue n q).cmds, c.uid = uid) :
    CmdEnded (s.endCmd n q uid status detail result) n q uid status detail result := by
  have hsome : ((s.queue n q).cmds.find? (fun c => c.uid == uid)).isSome = true := by simpa using hin
  obtain ⟨c, hc⟩ := Option.isSome_iff_exists.mp hsome
  have huid : c.uid = uid := by simpa using List.find?_some hc
  have hname : ((fun c : QCmd => c.uid == uid) ∘ fun c => if c.uid = uid then c.ended status detail result else c) =
      fun c => c.uid == uid := by
    funext d
    by_cases hd : d.uid = uid <;> simp [hd, QCmd.ended]
  unfold CmdEnded
  rw [endCmd_of_noFault hstatus, queue_modCmd]
  refine ⟨c.ended status detail result, ?_, rfl, rfl, rfl, rfl⟩
  rw [List.find?_map, hname, hc, Option.map_some, if_pos huid]

theorem stopCmd_qs (s : State) (n uid : Nat) : (s.stopCmd n uid).qs = s.qs :=
  (stopCmd_kept (P := 6545031169) s n uid (Kept.refl s) (by decide)).qs (by decide)

theorem findCmd_congr (h : t.qs = s.qs) (n uid : Nat) : t.findCmd n uid = s.findCmd n uid := by
  simp only [State.findCmd, queue_congr h]

theorem mem_of_findCmd {e : QCmd} (h : s.findCmd n uid = some (q, e)) : ∃ c ∈ (s.queue n q).cmds, c.uid = uid := by
  obtain ⟨r, -, hr⟩ := List.exists_of_findSome?_eq_some h
  obtain ⟨c, hc, hpair⟩ := Option.map_eq_some_iff.mp hr
  obtain ⟨rfl, rfl⟩ := Prod.mk.inj hpair
  exact ⟨c, List.mem_of_find?_eq_some hc, by simpa using List.find?_some hc⟩

theorem mem_of_rtCommands (h : (q, uid) ∈ s.rtCommands n) : ∃ c ∈ (s.queue n q).cmds, c.uid = uid := by
  obtain ⟨r, -, hr⟩ := List.mem_flatMap.mp h
  obtain ⟨c, hc, hpair⟩ := List.mem_map.mp hr
  obtain ⟨rfl, rfl⟩ := Prod.mk.inj hpair
  exact ⟨c, (List.mem_filter.mp hc).1, rfl⟩

/-! ### The lags at the end of ELASTIC time (R545) -/

theorem lagOf_lagClear (s : State) (c d : Nat) (hn : n ≤ 63) :
    (s.lagClear c).lagOf d n = if d = c then 0 else s.lagOf d n := by
  refine (fget_fclear _ s.sch.lag (64 * c) (64 * c + 64) (64 * d + n)).trans ?_
  by_cases hd : d = c
  · rw [if_pos hd, if_pos (by omega)]
  · rw [if_neg hd, if_neg (by omega)]
    rfl

theorem lagOf_foldl_lagClear (s : State) (l : List Nat) (d : Nat) (hn : n ≤ 63) :
    (l.foldl State.lagClear s).lagOf d n = if d ∈ l then 0 else s.lagOf d n := by
  induction l generalizing s with
  | nil => rfl
  | cons c l ih =>
    rw [List.foldl_cons, ih, lagOf_lagClear s c d hn]
    by_cases hd : d = c <;> simp [hd]

theorem foldl_lagClear_running (s : State) (l : List Nat) : (l.foldl State.lagClear s).sch.running = s.sch.running := by
  induction l generalizing s with
  | nil => rfl
  | cons c l ih => exact ih (s.lagClear c)

@[simp] theorem lagEnd_running (s : State) (x : Slot) (k : Nat) : (s.lagEnd x k).sch.running = s.sch.running := by
  unfold State.lagEnd
  split
  · exact foldl_lagClear_running s _
  · rfl

theorem lagEnd_onlyIn (s : State) (x : Slot) (k : Nat) : OnlyIn [.sch] s (s.lagEnd x k) :=
  (lagEnd_kept (P := 131072) s x k (Kept.refl s) (by decide)).onlyIn (fun p => by cases p <;> decide)

theorem lagEnd_of_notElastic (s : State) {x : Slot} (hkind : x.kind ≠ 3) (k : Nat) : s.lagEnd x k = s := if_neg hkind

theorem lagEnd_lagOf {k : Nat} (hkind : x.kind = 3) (hc : c < 48) (hon : tst x.clusters c = true)
    (hoff : s.elasticOn c k = false) (hn : n ≤ 63) : (s.lagEnd x k).lagOf c n = 0 := by
  unfold State.lagEnd
  rw [if_pos hkind, lagOf_foldl_lagClear s _ c hn, if_pos (by simp [bitList, hc, hon, hoff])]

theorem elasticOn_eq_false {k : Nat} (hrunning : ∀ y ∈ s.sch.running, y.kind = 3 → tst y.clusters c = false)
    (hready : ∀ y ∈ s.sch.ready, s.sch.ahead = true ∨ y.kind ≠ 3 ∨ tst y.clusters c = false ∨ y.start ≠ k) :
    s.elasticOn c k = false := by
  have h1 : s.sch.running.any (fun y => y.kind == 3 && tst y.clusters c) = false :=
    List.any_eq_false.mpr fun y hy => by simpa using hrunning y hy
  have h2 : (!s.sch.ahead && s.sch.ready.any (fun y => y.kind == 3 && tst y.clusters c && y.start == k)) = false := by
    cases hahead : s.sch.ahead with
    | true => rfl
    | false =>
      refine List.any_eq_false.mpr fun y hy => ?_
      have hy' := hready y hy
      simp only [hahead, Bool.false_eq_true, false_or] at hy'
      rcases hy' with h | h | h <;> simp [h]
  rw [State.elasticOn, h1, h2]
  rfl

/-! ### The slot and its RT misses (R547, R549) -/

/-- `s` without the slot of the entry of `x`. -/
def State.slotOff (s : State) (x : Slot) : State :=
  { s with sch := { s.sch with running := s.sch.running.filter (fun y => y.key != x.key) } }

theorem slotOff_onlyIn (s : State) (x : Slot) : OnlyIn [.sch] s (s.slotOff x) := setSch_onlyIn s _

theorem modAcct_running (s : State) (n : Nat) (f : Account → Account) : (s.modAcct n f).sch.running = s.sch.running := rfl

theorem modAcct_fld (s : State) (n : Nat) (f : Account → Account) (g : Fld) : (s.modAcct n f).fld g = s.fld g := rfl

/-- An RT miss is counted and logged. -/
def State.missCounted (s : State) (x : Slot) (q : Nat) : State :=
  ((s.bump F.SCH_CNT_RT_MISS_COUNT).modAcct x.vf (fun a => { a with rtMisses := a.rtMisses + 1 })).log
    0x0803 3 x.vf 0xFFFF q x.index

theorem missCounted_kept (s : State) (x : Slot) (q : Nat) : Kept 872548993 s (s.missCounted x q) :=
  log_kept _ _ _ _ _ _ _ (modAcct_kept _ _ _ (bump_kept (Kept.refl s) _ (by decide)) (by decide)) (by decide)

theorem missCounted_qs (s : State) (x : Slot) (q : Nat) : (s.missCounted x q).qs = s.qs :=
  (missCounted_kept s x q).qs (by decide)

theorem missCounted_running (s : State) (x : Slot) (q : Nat) : (s.missCounted x q).sch.running = s.sch.running := by
  rw [State.missCounted, log_sch, modAcct_running, State.bump, State.addFld, setFld_sch]

theorem missCounted_count (s : State) (x : Slot) (q : Nat) : (s.missCounted x q).fld F.SCH_CNT_RT_MISS_COUNT =
    min (s.fld F.SCH_CNT_RT_MISS_COUNT + 1) (2 ^ 32 - 1) := by
  rw [State.missCounted, log_fld _ _ _ _ _ _ _ _ (by decide), modAcct_fld,
    fld_bump_self _ _ (by decide) (by decide)]
  rfl

theorem rtMiss_of_kept (hoverrun : x.overrun ≠ 1) : s.rtMiss x q uid = s.missCounted x q := if_neg hoverrun

theorem rtMiss_of_abort (hoverrun : x.overrun = 1) :
    s.rtMiss x q uid = ((s.missCounted x q).stopCmd x.vf uid).endCmd x.vf q uid 0x30 0 0 := if_pos hoverrun

theorem rtMiss_running (s : State) (x : Slot) (q uid : Nat) : (s.rtMiss x q uid).sch.running = s.sch.running := by
  by_cases hoverrun : x.overrun = 1
  · have hstop := stopCmd_kept (P := 6545039425) (s.missCounted x q) x.vf uid (Kept.refl _) (by decide)
    have hend := endCmd_kept _ x.vf q uid 0x30 0 0 hstop (by decide)
    rw [rtMiss_of_abort hoverrun]
    exact (congrArg Sched.running (hend.parts .sch (by decide))).trans (missCounted_running s x q)
  · rw [rtMiss_of_kept hoverrun, missCounted_running]

theorem rtMiss_abort_cmdEnded (hoverrun : x.overrun = 1) (hin : ∃ c ∈ (s.queue x.vf q).cmds, c.uid = uid) :
    CmdEnded (s.rtMiss x q uid) x.vf q uid 0x30 0 0 := by
  rw [rtMiss_of_abort hoverrun]
  refine endCmd_cmdEnded rfl 0 0 ?_
  rwa [queue_congr ((stopCmd_qs _ _ _).trans (missCounted_qs s x q))]

theorem slotEnd_of_noMiss (hnone : x.kind ≠ 1 ∨ s.slotRuns x.vf x = false) : s.slotEnd x = s.slotOff x := by
  rcases hnone with h | h <;> simp [State.slotEnd, State.slotOff, h]

theorem slotEnd_of_rt (hkind : x.kind = 1) (hruns : s.slotRuns x.vf x = true) :
    s.slotEnd x = (s.rtCommands x.vf).foldl (fun s p => s.rtMiss x p.1 p.2) (s.slotOff x) := by
  simp only [State.slotEnd, hkind, hruns]
  rfl

theorem foldl_rtMiss_running (s : State) (x : Slot) (l : List (Nat × Nat)) :
    (l.foldl (fun s p => s.rtMiss x p.1 p.2) s).sch.running = s.sch.running := by
  induction l generalizing s with
  | nil => rfl
  | cons p l ih => exact (ih _).trans (rtMiss_running s x p.1 p.2)

theorem slotEnd_running (s : State) (x : Slot) :
    (s.slotEnd x).sch.running = s.sch.running.filter (fun y => y.key != x.key) := by
  by_cases hkind : x.kind = 1
  · cases hruns : s.slotRuns x.vf x with
    | true => exact (congrArg (·.sch.running) (slotEnd_of_rt hkind hruns)).trans (foldl_rtMiss_running _ x _)
    | false => exact congrArg (·.sch.running) (slotEnd_of_noMiss (.inr hruns))
  · exact congrArg (·.sch.running) (slotEnd_of_noMiss (.inl hkind))

/-! ### SLOT_END -/

theorem exec_slotEnd (hfind : s.sch.running.find? (fun x => x.key == i) = some x) (hrun : s.frozen = false)
    (hkind : x.kind ≠ 4) : exec (.slotEnd i) s = .next ((s.slotEnd x).lagEnd x (x.start + x.len)) := by
  change execSlotEnd i s = _
  simp [execSlotEnd, hfind, hrun, hkind]

section SlotEnd
variable (hfind : s.sch.running.find? (fun x => x.key == i) = some x) (hrun : s.frozen = false)
include hfind hrun

theorem slotEnd_ends (hkind : x.kind ≠ 4) :
    Ends (.slotEnd i) s (fun t => t.sch.running = s.sch.running.filter (fun y => y.key != i)) := by
  have hkey : x.key = i := by simpa using List.find?_some hfind
  have hleft : (s.slotEnd x).sch.running = s.sch.running.filter (fun y => y.key != i) := by rw [slotEnd_running, hkey]
  exact ⟨_, exec_slotEnd hfind hrun hkind, (lagEnd_running _ x _).trans hleft⟩

theorem slotEnd_bestEffort (hkind : x.kind = 2) : Ends (.slotEnd i) s (OnlyIn [.sch] s) := by
  have hexec := exec_slotEnd hfind hrun (by omega)
  rw [slotEnd_of_noMiss (.inl (by omega)), lagEnd_of_notElastic _ (by omega)] at hexec
  exact ⟨_, hexec, slotOff_onlyIn s x⟩

theorem slotEnd_elastic (hkind : x.kind = 3) : Ends (.slotEnd i) s (fun t => OnlyIn [.sch] s t ∧
    ∀ c, c < 48 → tst x.clusters c = true → (∀ y ∈ t.sch.running, y.kind = 3 → tst y.clusters c = false) →
      (∀ y ∈ s.sch.ready, s.sch.ahead = true ∨ y.kind ≠ 3 ∨ tst y.clusters c = false ∨ y.start ≠ x.start + x.len) →
      ∀ n, n ≤ 63 → t.lagOf c n = 0) := by
  have hexec := exec_slotEnd hfind hrun (by omega)
  rw [slotEnd_of_noMiss (.inl (by omega))] at hexec
  refine ⟨_, hexec, (slotOff_onlyIn s x).trans (lagEnd_onlyIn _ _ _), fun c hc hon hrunning hready n hn => ?_⟩
  rw [lagEnd_running] at hrunning
  exact lagEnd_lagOf hkind hc hon (elasticOn_eq_false hrunning hready) hn

theorem exec_slotEnd_oneMiss (hkind : x.kind = 1) (hruns : s.slotRuns x.vf x = true)
    (hone : s.rtCommands x.vf = [(q, uid)]) : exec (.slotEnd i) s = .next ((s.slotOff x).rtMiss x q uid) := by
  rw [exec_slotEnd hfind hrun (by omega), slotEnd_of_rt hkind hruns, hone, lagEnd_of_notElastic _ (by omega)]
  rfl

theorem slotEnd_missed (hkind : x.kind = 1) (hruns : s.slotRuns x.vf x = true) (hone : s.rtCommands x.vf = [(q, uid)])
    (hoverrun : x.overrun ≠ 1) : Ends (.slotEnd i) s (fun t => t.queue x.vf q = s.queue x.vf q ∧
      t.fld F.SCH_CNT_RT_MISS_COUNT = min (s.fld F.SCH_CNT_RT_MISS_COUNT + 1) (2 ^ 32 - 1) ∧
      OnlyIn (.sch :: logParts) s t) := by
  have hexec := exec_slotEnd_oneMiss hfind hrun hkind hruns hone
  rw [rtMiss_of_kept hoverrun] at hexec
  exact ⟨_, hexec, queue_congr (missCounted_qs _ x q) _ _, missCounted_count _ x q,
    ((slotOff_onlyIn s x).mono (by decide)).trans
      ((missCounted_kept _ x q).onlyIn (fun p => by cases p <;> decide))⟩

theorem slotEnd_aborted (hkind : x.kind = 1) (hruns : s.slotRuns x.vf x = true) (hone : s.rtCommands x.vf = [(q, uid)])
    (hoverrun : x.overrun = 1) : Ends (.slotEnd i) s (fun t => CmdEnded t x.vf q uid 0x30 0 0) :=
  ⟨_, exec_slotEnd_oneMiss hfind hrun hkind hruns hone,
    rtMiss_abort_cmdEnded (s := s.slotOff x) hoverrun (mem_of_rtCommands (hone ▸ List.mem_cons_self))⟩

end SlotEnd

/-! ### EXCLUSIVE_JOB_START and EXCL_LIMIT (R552, R554) -/

theorem exclusiveJobStart_ends (hfind : s.sch.running.find? (fun x => x.kind == 4) = some x) (hrun : s.frozen = false)
    (hnone : s.sch.excl = none) (hidle : s.sch.exclIdle = false) (hlive : s.vfIdle x.vf = false) :
    Ends .exclusiveJobStart s (fun t =>
      t.sch = { s.sch with excl := (s.exclPick x.vf).map (fun u => (x.vf, u, s.runClk)),
                           exclIdle := (s.exclPick x.vf).isNone } ∧ OnlyIn [.sch] s t) := by
  have hexec : exec .exclusiveJobStart s = .next { s with sch := { s.sch with
      excl := (s.exclPick x.vf).map (fun u => (x.vf, u, s.runClk)), exclIdle := (s.exclPick x.vf).isNone } } := by
    change execExclusiveJobStart s = _
    simp [execExclusiveJobStart, hfind, hrun, hnone, hidle, hlive]
  exact ⟨_, hexec, rfl, setSch_onlyIn s _⟩

/-- The exclusive job is stopped and completes with ABORTED, which is logged. -/
def State.exclAborted (s : State) (n uid : Nat) : State := ((s.stopCmd n uid).endUid n uid 0x30 0 0).log 0x0804 2 n 0xFFFF 0 0

theorem exclAborted_cmdEnded (hq : (s.findCmd n uid).map Prod.fst = some q) :
    CmdEnded (s.exclAborted n uid) n q uid 0x30 0 0 := by
  obtain ⟨⟨r, e⟩, hfound, rfl⟩ := Option.map_eq_some_iff.mp hq
  have hstop := stopCmd_qs s n uid
  have hfound' := (findCmd_congr hstop n uid).trans hfound
  have hended : CmdEnded ((s.stopCmd n uid).endUid n uid 0x30 0 0) n r uid 0x30 0 0 := by
    rw [State.endUid, hfound']
    exact endCmd_cmdEnded rfl 0 0 (mem_of_findCmd hfound')
  exact hended.congr (log_qs ..)

section ExclLimit
variable {began : Nat} (hjob : s.exclJob = some (n, uid, began)) (hrun : s.frozen = false)
include hjob hrun

theorem exec_exclLimit_due (hms : s.fld F.SCH_EXCL_LIMIT_MS ≠ 0)
    (hdue : began + s.fld F.SCH_EXCL_LIMIT_MS * 1000000 ≤ s.runClk) : exec .exclLimit s = .next
      { s.exclAborted n uid with sch := { (s.exclAborted n uid).sch with exclIdle := true } } := by
  change execExclLimit s = _
  simp [execExclLimit, hjob, hrun, hms, Nat.not_lt.mpr hdue, State.exclAborted]

theorem exec_exclLimit_early (hearly : s.runClk < began + s.fld F.SCH_EXCL_LIMIT_MS * 1000000) :
    exec .exclLimit s = .next s := by
  change execExclLimit s = _
  simp [execExclLimit, hjob, hrun, hearly]

theorem exclLimit_ends (hms : s.fld F.SCH_EXCL_LIMIT_MS ≠ 0) (hq : (s.findCmd n uid).map Prod.fst = some q)
    (hdue : began + s.fld F.SCH_EXCL_LIMIT_MS * 1000000 ≤ s.runClk) :
    Ends .exclLimit s (fun t => CmdEnded t n q uid 0x30 0 0 ∧ t.sch.exclIdle = true) :=
  ⟨_, exec_exclLimit_due hjob hrun hms hdue, (exclAborted_cmdEnded hq).congr rfl, rfl⟩

end ExclLimit

end Sys2Proof.Machine
end

section
/-! SUPPORT. The lag rule (R545): what LAG_QUANTUM writes for each ELASTIC slice of a cluster. -/

namespace Sys2Proof.Machine

variable {s : State} {c d n : Nat} {used r : List (Nat × Nat)}

/-! ### Writes at a list of keys -/

section Writes
variable {α β : Type} [DecidableEq α] (z : Nat → α) (key : β → Nat) (val : β → α) (m : FMap α)

/-- A key that none of the writes names reads as before. -/
theorem fget_foldl_fset_ne {l : List β} {k : Nat} (hk : ∀ b ∈ l, key b ≠ k) :
    fget z (l.foldl (fun m b => fset z m (key b) (val b)) m) k = fget z m k := by
  induction l generalizing m with
  | nil => rfl
  | cons b l ih =>
    rw [List.foldl_cons, ih _ (fun a ha => hk a (List.mem_cons_of_mem _ ha)),
      fget_fset_ne _ _ _ _ _ (hk b List.mem_cons_self).symm]

/-- Where the writes of one key agree, it reads as what they wrote. -/
theorem fget_foldl_fset_mem {l : List β} {b : β} (hb : b ∈ l) (hkey : ∀ a ∈ l, key a = key b → val a = val b) :
    fget z (l.foldl (fun m b => fset z m (key b) (val b)) m) (key b) = val b := by
  induction l generalizing m b with
  | nil => exact absurd hb List.not_mem_nil
  | cons a l ih =>
    rw [List.foldl_cons]
    by_cases hlater : ∃ x ∈ l, key x = key b
    · obtain ⟨x, hx, hxb⟩ := hlater
      rw [← hxb, ih _ hx fun y hy hyx => (hkey y (List.mem_cons_of_mem _ hy) (hyx.trans hxb)).trans
        (hkey x (List.mem_cons_of_mem _ hx) hxb).symm, hkey x (List.mem_cons_of_mem _ hx) hxb]
    · have hba : b = a := (List.mem_cons.mp hb).resolve_right fun hbl => hlater ⟨b, hbl, rfl⟩
      rw [fget_foldl_fset_ne z key val _ fun x hx hxb => hlater ⟨x, hx, hxb⟩, hba, fget_fset_self]

end Writes

/-! ### LAG_QUANTUM -/

/-- A slice of `r` has a lag of at least 0 by the rule. -/
def State.lagAhead (s : State) (c : Nat) (r : List (Nat × Nat)) : Bool :=
  r.any (fun p => (s.elasticOf c).any (fun n => n == p.1 && decide (0 ≤ s.lagNew c r n)))

/-- `s` with the new lag of each ELASTIC slice of cluster `c`, and those held that the rule holds. -/
def State.lagged (s : State) (c : Nat) (r : List (Nat × Nat)) : State :=
  { s with sch := { s.sch with
      lag := (s.elasticOf c).foldl (fun m n => fset (fun _ => (0 : Int)) m (64 * c + n) (s.lagNew c r n)) s.sch.lag
      held := (s.elasticOf c).foldl (fun m n => fset (fun _ => 0) m (64 * c + n)
        (b2n (decide (s.lagNew c r n < -4096) && s.lagAhead c r))) s.sch.held } }

theorem exec_lagQuantum (hrun : s.frozen = false) (hc : c < 48) (htwo : 2 ≤ (s.elasticOf c).length)
    (hr : r = used.filter (fun p => (s.elasticOf c).contains p.1)) : exec (.lagQuantum c used) s = .next (s.lagged c r) := by
  subst hr
  change execLagQuantum c used s = _
  simp only [execLagQuantum, hrun, Nat.not_le.mpr hc, Nat.not_lt.mpr htwo, List.foldl_map, List.any_map, Bool.false_or,
    decide_false, Bool.false_eq_true, if_false]
  rfl

theorem lagged_onlyIn (s : State) (c : Nat) (r : List (Nat × Nat)) : OnlyIn [.sch] s (s.lagged c r) :=
  setSch_onlyIn s _

theorem lagNew_bounds (s : State) (c : Nat) (r : List (Nat × Nat)) (n : Nat) :
    -65536 ≤ s.lagNew c r n ∧ s.lagNew c r n ≤ 65536 := by
  unfold State.lagNew
  split
  · decide
  · dsimp only
    omega

theorem mem_elasticOf_le (h : n ∈ s.elasticOf c) : n ≤ 63 := by
  have hvf : n ∈ vfs := (List.mem_filter.mp (List.mem_filter.mp h).1).1
  obtain ⟨k, hk, rfl⟩ := List.mem_map.mp hvf
  exact List.mem_range.mp hk

theorem lagged_lagOf (h : n ∈ s.elasticOf c) (r : List (Nat × Nat)) : (s.lagged c r).lagOf c n = s.lagNew c r n :=
  fget_foldl_fset_mem _ (fun n => 64 * c + n) _ _ h fun a _ ha => by rw [Nat.add_left_cancel ha]

theorem lagged_lagOf_other (hn : n ≤ 63) (h : d ≠ c ∨ n ∉ s.elasticOf c) (r : List (Nat × Nat)) :
    (s.lagged c r).lagOf d n = s.lagOf d n := by
  refine fget_foldl_fset_ne _ (fun n => 64 * c + n) _ _ fun b hb hkey => ?_
  have hb63 := mem_elasticOf_le hb
  have heq : d = c ∧ b = n := by omega
  exact h.elim (fun hd => hd heq.1) (fun hnot => hnot (heq.2 ▸ hb))

theorem lagAhead_iff (hr : ∀ p ∈ r, p.1 ∈ s.elasticOf c) :
    s.lagAhead c r = true ↔ ∃ p ∈ r, 0 ≤ (s.lagged c r).lagOf c p.1 := by
  simp only [State.lagAhead, List.any_eq_true, Bool.and_eq_true, beq_iff_eq, decide_eq_true_eq]
  constructor
  · rintro ⟨p, hp, n, hn, rfl, hahead⟩
    exact ⟨p, hp, by rwa [lagged_lagOf hn]⟩
  · rintro ⟨p, hp, hahead⟩
    rw [lagged_lagOf (hr p hp)] at hahead
    exact ⟨p, hp, p.1, hr p hp, rfl, hahead⟩

theorem lagged_held (h : n ∈ s.elasticOf c) (r : List (Nat × Nat)) :
    fget (fun _ => 0) (s.lagged c r).sch.held (64 * c + n) =
      b2n (decide (s.lagNew c r n < -4096) && s.lagAhead c r) :=
  fget_foldl_fset_mem _ (fun n => 64 * c + n) _ _ h fun a _ ha => by rw [Nat.add_left_cancel ha]

theorem lagQuantum_ends (hrun : s.frozen = false) (hc : c < 48) (htwo : 2 ≤ (s.elasticOf c).length)
    (hr : r = used.filter (fun p => (s.elasticOf c).contains p.1)) : Ends (.lagQuantum c used) s (fun t =>
      (∀ n ∈ s.elasticOf c, t.lagOf c n = s.lagNew c r n ∧ -65536 ≤ t.lagOf c n ∧ t.lagOf c n ≤ 65536) ∧
      (∀ d n, n ≤ 63 → d ≠ c ∨ n ∉ s.elasticOf c → t.lagOf d n = s.lagOf d n) ∧
      (∀ n ∈ s.elasticOf c, fget (fun _ => 0) t.sch.held (64 * c + n) = 1 ↔
        t.lagOf c n < -4096 ∧ ∃ p ∈ r, 0 ≤ t.lagOf c p.1) ∧ OnlyIn [.sch] s t) := by
  have hmem : ∀ p ∈ r, p.1 ∈ s.elasticOf c := fun p hp => by
    rw [hr] at hp
    simpa using (List.mem_filter.mp hp).2
  refine ⟨_, exec_lagQuantum hrun hc htwo hr, fun n hn => ?_, fun d n hn h => lagged_lagOf_other hn h r, fun n hn => ?_,
    lagged_onlyIn s c r⟩
  · rw [lagged_lagOf hn]
    exact ⟨rfl, lagNew_bounds s c r n⟩
  · rw [lagged_held hn, ← lagAhead_iff hmem, lagged_lagOf hn]
    simp [b2n]

end Sys2Proof.Machine
end

section
/-! SUPPORT. A notice that an internal agent posts (R155), and the slowdown notice (R564, Table 15-8). -/

namespace Sys2Proof.Machine

variable {s t : State} {n k a : Nat} {p x y z : List Byte}

/-! ### Little-endian bytes (R4) -/

@[simp] theorem length_leBytes (n v : Nat) : (leBytes n v).length = n := by
  induction n generalizing v with
  | zero => rfl
  | succ n ih => rw [leBytes, List.length_cons, ih]

theorem ofLe_leBytes (n v : Nat) : ofLe (leBytes n v) = v % 256 ^ n := by
  induction n generalizing v with
  | zero => exact (Nat.mod_one v).symm
  | succ n ih =>
    rw [leBytes, ofLe, ih, BitVec.toNat_ofNat]
    exact (Nat.mod_mul (x := v) (a := 256)).symm.trans (congrArg (v % ·) (Nat.pow_succ' (n := n)).symm)

theorem fitTo_append {m : Nat} (hx : x.length ≤ m) (y : List Byte) : fitTo m (x ++ y) = x ++ fitTo (m - x.length) y := by
  unfold fitTo
  rw [List.append_assoc, List.take_append, List.take_of_length_le hx, List.length_append, Nat.sub_add_eq]

@[simp] theorem length_fitTo (m : Nat) (l : List Byte) : (fitTo m l).length = m := by
  simp [fitTo]; omega

/-- The bytes in the middle of a stretch that is known. -/
theorem exmBytes_middle (h : t.exmBytes a (x.length + (y.length + z.length)) = x ++ (y ++ z)) :
    t.exmBytes (a + x.length) y.length = y := by
  have hlen : ∀ b m, (t.exmBytes b m).length = m := fun b m => by simp [State.exmBytes]
  rw [exmBytes_append, exmBytes_append] at h
  exact (List.append_inj (List.append_inj h (hlen _ _)).2 (hlen _ _)).1

/-! ### The slot of a notice -/

/-- The trigger word of a notice that agent `agent` posts (Table 04-5). -/
def noticeTrigger (agent cookie : Nat) : Nat := 1 + (0xC000 + agent) * 2 ^ 16 + 56 * 2 ^ 40 + cookie % 65536 * 2 ^ 48

/-- All 64 bytes of the slot are the notice's: its payload, then its trigger word. -/
theorem postNotice_exmBytes (s : State) (k agent cookie : Nat) (p : List Byte) :
    (s.postNotice k agent cookie p).exmBytes (slotAddr k) 64 = fitTo 56 p ++ leBytes 8 (noticeTrigger agent cookie) := by
  have hput := exmPut_written s (slotAddr k) (fitTo 56 p)
  have hword := exmPut_written (s.exmPut (slotAddr k) (fitTo 56 p)) (slotAddr k + 56) (leBytes 8 (noticeTrigger agent cookie))
  have hboth := (hput.append (by rwa [length_fitTo])).exmBytes
  rw [List.length_append, length_fitTo, length_leBytes] at hboth
  rw [← hboth]
  refine exmBytes_congr fun b _ _ => congrArg (fget (fun _ => (0 : Byte)) · b) ?_
  exact (pendPf_kept (P := 67108929) _ k 1 (Kept.refl _) (by decide)).parts .exmMem (by decide)

/-- A slot that holds a notice is POSTED (Table 04-9). -/
theorem slotState_of_notice {agent cookie : Nat}
    (h : t.exmBytes (slotAddr k) 64 = fitTo 56 p ++ leBytes 8 (noticeTrigger agent cookie)) : t.slotState k = 1 := by
  have hword := exmBytes_middle (t := t) (a := slotAddr k) (x := fitTo 56 p) (y := leBytes 8 (noticeTrigger agent cookie))
    (z := []) (by rw [List.append_nil, ← h]; simp)
  rw [length_fitTo, length_leBytes] at hword
  rw [State.slotState, State.trigger, State.exmLe, hword, ofLe_leBytes, noticeTrigger, bitsOf]
  omega

/-- A number in the payload of a notice. -/
theorem exmLe_of_notice {m v o : Nat} {w : List Byte} (h : t.exmBytes (slotAddr k) 64 = fitTo 56 (x ++ (leBytes m v ++ z)) ++ w)
    (hw : w.length = 8) (ho : x.length = o) (hfit : o + m ≤ 56) : t.exmLe (slotAddr k + o) m = v % 256 ^ m := by
  rw [fitTo_append (by omega), fitTo_append (by rw [length_leBytes]; omega), List.append_assoc, List.append_assoc] at h
  have hmid := exmBytes_middle (t := t) (a := slotAddr k) (x := x) (y := leBytes m v)
    (z := fitTo (56 - x.length - (leBytes m v).length) z ++ w) (by
      rw [← h, List.length_append, length_fitTo, length_leBytes, hw]; congr 1; omega)
  rw [length_leBytes, ho] at hmid
  rw [State.exmLe, hmid, ofLe_leBytes]

/-! ### SLOWDOWN_NOTICE_POST -/

/-- No slowdown notice of VF `n` is pending. -/
def State.sdTaken (s : State) (n : Nat) : State :=
  { s with sch := { s.sch with sdPend := fset (fun _ => 0) s.sch.sdPend n 0 } }

/-- The payload begins with the VF, ACTION and SLOWDOWN (Table 15-8). -/
theorem exec_slowdownNoticePost (hfind : vfs.find? (fun n => fget (fun _ => 0) s.sch.sdPend n == 1) = some n)
    (hidle : s.slotState 1009 = 0) (hrun : s.frozen = false) : ∃ action rest, exec .slowdownNoticePost s = .next
      ((s.sdTaken n).postNotice 1009 2 n
        (leBytes 1 n ++ (leBytes 1 action ++ (leBytes 2 (s.fld (F.SCH_SD_STATE_SLOWDOWN n)) ++ rest)))) := by
  change ∃ action rest, execSlowdownNoticePost s = _
  have hgo : ¬ (s.slotState 1009 ≠ 0 || s.frozen) = true := by simp [hidle, hrun]
  simp only [execSlowdownNoticePost, hfind, if_neg hgo, List.append_assoc]
  exact ⟨_, _, rfl⟩

theorem slowdownNoticePost_ends (hfind : vfs.find? (fun n => fget (fun _ => 0) s.sch.sdPend n == 1) = some n)
    (hidle : s.slotState 1009 = 0) (hrun : s.frozen = false) : Ends .slowdownNoticePost s (fun t =>
      t.slotState 1009 = 1 ∧ fget (fun _ => 0) t.sch.sdPend n = 0 ∧ t.exmLe (slotAddr 1009) 1 = n ∧
      t.exmLe (slotAddr 1009 + 2) 2 = s.fld (F.SCH_SD_STATE_SLOWDOWN n) ∧
      OnlyIn [.regs, .exm, .exmMem, .sch, .out] s t) := by
  obtain ⟨action, rest, hexec⟩ := exec_slowdownNoticePost hfind hidle hrun
  have hslot := postNotice_exmBytes (s.sdTaken n) 1009 2 n
    (leBytes 1 n ++ (leBytes 1 action ++ (leBytes 2 (s.fld (F.SCH_SD_STATE_SLOWDOWN n)) ++ rest)))
  have hkept := fun p => postNotice_kept (P := 1140850753) (s.sdTaken n) 1009 2 n p (Kept.refl _) (by decide)
  have hn : n < 256 ^ 1 := by
    obtain ⟨k, hk, rfl⟩ := List.mem_map.mp (List.mem_of_find?_eq_some hfind)
    have := List.mem_range.mp hk
    omega
  have hsd : s.fld (F.SCH_SD_STATE_SLOWDOWN n) < 256 ^ 2 := fld_lt s _
  have hslot' := hslot
  rw [← List.append_assoc (leBytes 1 n)] at hslot'
  have htaken : OnlyIn [.sch] s (s.sdTaken n) := setSch_onlyIn s _
  refine ⟨_, hexec, slotState_of_notice hslot, ?_, ?_, ?_, (htaken.mono (by decide)).trans
    ((hkept _).onlyIn (fun p => by cases p <;> decide))⟩
  · exact (congrArg (fun c : Sched => fget (fun _ => 0) c.sdPend n) ((hkept _).parts .sch (by decide))).trans
      (fget_fset_self _ s.sch.sdPend n 0)
  · exact (exmLe_of_notice (x := []) hslot (length_leBytes 8 _) rfl (by decide)).trans (Nat.mod_eq_of_lt hn)
  · exact (exmLe_of_notice hslot' (length_leBytes 8 _) (by simp) (by decide)).trans (Nat.mod_eq_of_lt hsd)

end Sys2Proof.Machine
end

section
/-! SUPPORT. Operator bounds (R192, R566): what a change of layout leaves in a slice's registers, and which change BOUNDS_ENFORCE
makes. -/

namespace Sys2Proof.Machine

variable {s t u : State} {n : Nat} {l : Layout}

/-! ### The clusters of a slice -/

/-- The two registers that hold the clusters of VF `n`'s slice. -/
abbrev ClusterReg (n a : Nat) : Prop := a = R.SLC_S_CLUSTERS_LO n ∨ a = R.SLC_S_CLUSTERS_HI n

theorem clustersOf_congr (h : KeepsRegs (ClusterReg n) s t) : t.clustersOf n = s.clustersOf n := by
  unfold State.clustersOf State.pair
  rw [h _ (.inl rfl), h _ (.inr rfl)]

theorem setLayout_clustersOf (s : State) (n : Nat) (l : Layout) :
    (s.setLayout n l).clustersOf n = l.clusters % 2 ^ 48 := by
  have hkeep : ∀ u : State, KeepsRegs (ClusterReg n) u (((u.setFld (F.SLC_S_COMMONS_UNITS n) l.commons).setFld
      (F.SLC_S_HBM_UNITS n) l.hbm).setFld (F.SLC_S_ENGINE_SHARE_WEIGHT n) l.engShare) := fun u =>
    (((KeepsRegs.refl u).setFld (by simp) _).setFld (by simp) _).setFld (by simp) _
  rw [State.setLayout, clustersOf_congr (hkeep _), State.clustersOf, pair_setPair_self _ _ _ _ (by simp)]
  exact Nat.mod_mod_of_dvd _ (by decide)

/-! ### A change of layout (R268 to R275) -/

/-- A change of VF `n`'s layout is counted, with the contexts that moved. -/
def State.layoutCounted (s : State) (n moved cycles : Nat) : State :=
  ((s.reshaped n).setFld (F.SLC_S_MIGRATION_CONTEXTS n) moved).setFld (F.SLC_S_MIGRATION_CYCLES n) cycles

theorem layoutCounted_keepsRegs (s : State) (n moved cycles : Nat) :
    KeepsRegs (ClusterReg n) s (s.layoutCounted n moved cycles) :=
  ((((KeepsRegs.refl s).setPair (by simp) (by simp) _).bump (by simp)).setFld (by simp) _).setFld (by simp) _

theorem layoutCounted_slices (s : State) (n moved cycles : Nat) : (s.layoutCounted n moved cycles).slices = s.slices :=
  (setFld_kept (setFld_kept (reshaped_kept (P := 1) s n (Kept.refl s) (by decide)) _ _ (by decide)) _ _ (by decide)).slices
    (by decide)

/-- VF `n`'s slice has layout `l` at `base`, the clusters `drain` drain out of it, and `mem` is what is left of the memory
system. -/
def State.relaid (s : State) (n : Nat) (l : Layout) (base drain : Nat) (mem : Memory) : State :=
  State.modSlice { (s.setLayout n l).setDrain n drain with mem := mem } n (fun x => { x with base := base })

theorem relaid_clustersOf (s : State) (n : Nat) (l : Layout) (base drain : Nat) (mem : Memory) :
    (s.relaid n l base drain mem).clustersOf n = l.clusters % 2 ^ 48 := by
  have hdrain : KeepsRegs (ClusterReg n) (s.setLayout n l) ((s.setLayout n l).setDrain n drain) :=
    (KeepsRegs.refl _).setPair (by simp) (by simp) _
  rw [← setLayout_clustersOf s n l]
  exact clustersOf_congr (hdrain.of_regs rfl)

theorem relaid_base (s : State) (n : Nat) (l : Layout) (base drain : Nat) (mem : Memory) :
    ((s.relaid n l base drain mem).slice n).base = base := by
  rw [State.relaid, slice_modSlice_self]

/-- Once its contexts have left, a slice takes its new layout, its VF is told, and waiting contexts are placed. -/
theorem reshape_eq (s : State) (n : Nat) (l : Layout) (base cycles : Nat) : ∃ u drain moved mem,
    s.reshape n l base cycles =
      (((State.relaid u n l base drain mem).layoutCounted n moved (min cycles 0xFFFF)).vfEvent n 5).placeAll n := by
  unfold State.reshape
  extract_lets old ob gone kept
  generalize List.foldl _ (s, 0) gone = p
  obtain ⟨u, moved⟩ := p
  exact ⟨u, _, moved, _, rfl⟩

theorem placeAll_regs (s : State) (n : Nat) : (s.placeAll n).regs = s.regs :=
  (placeAll_kept (P := 262144) s n (Kept.refl s) (by decide)).regs_eq (by decide)

theorem event_ne_clusterReg {a : Nat} (ha : ClusterReg n a) : a ≠ R.QIF_VF_EVENT n := by
  unfold ClusterReg R.SLC_S_CLUSTERS_LO R.SLC_S_CLUSTERS_HI at ha
  unfold R.QIF_VF_EVENT
  omega

theorem reshape_clustersOf (s : State) (n : Nat) (l : Layout) (base cycles : Nat) :
    (s.reshape n l base cycles).clustersOf n = l.clusters % 2 ^ 48 := by
  obtain ⟨u, drain, moved, mem, h⟩ := reshape_eq s n l base cycles
  rw [h, ← relaid_clustersOf u n l base drain mem]
  exact clustersOf_congr (((layoutCounted_keepsRegs _ n _ _).trans
    ((vfEvent_keepsRegs _ n 5).mono fun _ => event_ne_clusterReg)).of_regs (placeAll_regs _ n))

theorem reshape_base (s : State) (n : Nat) (l : Layout) (base cycles : Nat) :
    ((s.reshape n l base cycles).slice n).base = base := by
  obtain ⟨u, drain, moved, mem, h⟩ := reshape_eq s n l base cycles
  have hkept := fun v : State => placeAll_kept (P := 67371073) _ n (vfEvent_kept v n 5 (Kept.refl v) (by decide)) (by decide)
  rw [h, slice_congr ((hkept _).slices (by decide)), slice_congr (layoutCounted_slices _ n _ _), relaid_base]

/-! ### BOUNDS_ENFORCE (R566) -/

/-- The layouts of `held` that differ from those that are to be. -/
def State.changed (s : State) (held : List Held) : List Held := held.filter (fun h => !s.projected.contains h)

theorem changed_projected (s : State) : s.changed s.projected = [] :=
  List.filter_eq_nil_iff.mpr fun h hh => by simp [hh]

/-- The slices of `ch` take these layouts. -/
def State.reshapeAll (s : State) (ch : List Held) (cycles : Nat) : State :=
  ch.foldl (fun s h => s.reshape h.vf h.lay h.base cycles) s

/-- The same, with a re-slice counted if there is one. -/
def State.resliced (s : State) (ch : List Held) (cycles : Nat) : State :=
  if ch.isEmpty then s.reshapeAll ch cycles else (s.reshapeAll ch cycles).bump F.SCH_CNT_RESLICE_COUNT

theorem resliced_one (s : State) (h : Held) (cycles : Nat) : s.resliced [h] cycles =
    (s.reshape h.vf h.lay h.base cycles).bump F.SCH_CNT_RESLICE_COUNT := by
  rw [State.resliced, if_neg (by simp), State.reshapeAll, List.foldl_cons, List.foldl_nil]

theorem resliced_nil (s : State) (cycles : Nat) : s.resliced [] cycles = s := rfl

/-- A re-slice is counted, and VF `n`'s bounds have been enforced. -/
def State.boundsMet (s : State) (n : Nat) : State :=
  (s.bump F.SCH_CNT_RESLICE_COUNT).modSlice n (fun x => { x with boundsAt := 0 })

theorem boundsMet_clustersOf (s : State) (n : Nat) : (s.boundsMet n).clustersOf n = s.clustersOf n := by
  have hbump : KeepsRegs (ClusterReg n) s (s.bump F.SCH_CNT_RESLICE_COUNT) := by
    refine (KeepsRegs.refl s).bump fun ha => ?_
    unfold ClusterReg F.SCH_CNT_RESLICE_COUNT R.SLC_S_CLUSTERS_LO R.SLC_S_CLUSTERS_HI R.SCH_CNT_RESLICE at ha
    dsimp only at ha
    omega
  exact clustersOf_congr (hbump.of_regs rfl)

theorem boundsMet_base (s : State) (n : Nat) : ((s.boundsMet n).slice n).base = (s.slice n).base := by
  rw [State.boundsMet, slice_modSlice_self, slice_congr (bump_slices s _)]

theorem boundsMet_boundsAt (s : State) (n : Nat) : ((s.boundsMet n).slice n).boundsAt = 0 := by
  rw [State.boundsMet, slice_modSlice_self]

section Due
variable {cycles : Nat} {held : List Held} (h1 : 1 ≤ n) (h63 : n ≤ 63) (hrun : s.frozen = false)
  (hset : (s.slice n).boundsAt ≠ 0) (hdue : (s.slice n).boundsAt ≤ s.tickCount) (hactive : s.sliceState n = 2)
  (hnone : s.pendingOf n = none) (hten : s.tenancy = 2)
include h1 h63 hrun hset hdue hactive hnone hten

theorem exec_boundsEnforce_done (hheld : s.boundLayouts n = (held, true)) : exec (.boundsEnforce n cycles) s =
    .next ((s.resliced (s.changed held) cycles).modSlice n (fun x => { x with boundsAt := 0 })) := by
  change execBoundsEnforce n cycles s = _
  have hn0 : n ≠ 0 := by omega
  simp [execBoundsEnforce, hn0, Nat.not_lt.mpr h63, hrun, hset, Nat.not_lt.mpr hdue, hactive, hnone, hten, hheld,
    State.resliced, State.reshapeAll, State.changed]

theorem exec_boundsEnforce_stuck (hheld : s.boundLayouts n = (s.projected, false)) (hfirst : (s.slice n).boundsLogged = false) :
    exec (.boundsEnforce n cycles) s =
      .next ((s.log 0x0806 2 n 0xFFFF 0 0).modSlice n (fun x => { x with boundsLogged := true })) := by
  change execBoundsEnforce n cycles s = _
  have hn0 : n ≠ 0 := by omega
  have hsame : s.projected.filter (fun h => !s.projected.contains h) = [] := changed_projected s
  simp only [execBoundsEnforce, hheld, hsame]
  simp [hn0, Nat.not_lt.mpr h63, hrun, hset, Nat.not_lt.mpr hdue, hactive, hnone, hten, hfirst]

theorem boundsEnforce_inside (hheld : s.boundLayouts n = (s.projected, true)) : Ends (.boundsEnforce n cycles) s (fun t =>
    t.slice n = { s.slice n with boundsAt := 0 } ∧ OnlyIn [.slices] s t) := by
  have hexec := exec_boundsEnforce_done (cycles := cycles) h1 h63 hrun hset hdue hactive hnone hten hheld
  rw [changed_projected, resliced_nil] at hexec
  exact ⟨_, hexec, slice_modSlice_self s n _, modSlice_onlyIn s n _⟩

theorem exec_boundsEnforce_one {h : Held} (hheld : s.boundLayouts n = (held, true))
    (hone : held.filter (fun h => !s.projected.contains h) = [h]) (hvf : h.vf = n) :
    exec (.boundsEnforce n cycles) s = .next ((s.reshape n h.lay h.base cycles).boundsMet n) := by
  rw [exec_boundsEnforce_done (cycles := cycles) h1 h63 hrun hset hdue hactive hnone hten hheld, State.changed, hone,
    resliced_one, hvf, State.boundsMet]

theorem boundsEnforce_outside {h : Held} (hheld : s.boundLayouts n = (held, true))
    (hone : held.filter (fun h => !s.projected.contains h) = [h]) (hvf : h.vf = n) :
    Ends (.boundsEnforce n cycles) s (fun t => t.clustersOf n = h.lay.clusters % 2 ^ 48 ∧ (t.slice n).base = h.base ∧
      (t.slice n).boundsAt = 0) :=
  ⟨_, exec_boundsEnforce_one h1 h63 hrun hset hdue hactive hnone hten hheld hone hvf,
    (boundsMet_clustersOf _ n).trans (reshape_clustersOf s n h.lay h.base cycles),
    (boundsMet_base _ n).trans (reshape_base s n h.lay h.base cycles), boundsMet_boundsAt _ n⟩

theorem boundsEnforce_stuck (hheld : s.boundLayouts n = (held, false)) (hsame : held = s.projected)
    (hfirst : (s.slice n).boundsLogged = false) : Ends (.boundsEnforce n cycles) s (fun t =>
      t.slice n = { s.slice n with boundsLogged := true } ∧ OnlyIn (.slices :: logParts) s t) := by
  subst hsame
  refine ⟨_, exec_boundsEnforce_stuck h1 h63 hrun hset hdue hactive hnone hten hheld hfirst, ?_,
    ((log_logged s _ _ _ _ _ _).parts.mono (by decide)).trans ((modSlice_onlyIn _ n _).mono (by decide))⟩
  rw [slice_modSlice_self, slice_congr (log_slices ..)]

end Due

/-! ### The statement -/

/-- Settles O53, in the order of its clauses: the group read, its dispatch, the end of a slot, the lags, the exclusive job's start
and limit, the slowdown notice, and the operator bounds. -/
theorem slotsFollowTheSchedule : Obligations.SlotsFollowTheSchedule := by
  refine ⟨fun i e f s hrun htick hahead hempty hi hleft hfit he hf => ⟨?_, ?_⟩,
    fun mid s => exec_scheduleGroupRead_idle mid,
    fun s => slotStart_ends,
    fun s => exec_slotStart_idle,
    fun i x s hfind hrun => ⟨slotEnd_ends hfind hrun, slotEnd_bestEffort hfind hrun,
      fun q uid hkind _ _ _ hruns hone => ⟨?_, ?_⟩, slotEnd_elastic hfind hrun⟩,
    fun c used r s => lagQuantum_ends,
    fun x s => exclusiveJobStart_ends,
    fun n u began q s hjob hrun hms hq => ⟨exclLimit_ends hjob hrun hms hq, exec_exclLimit_early hjob hrun⟩,
    fun n s => slowdownNoticePost_ends,
    fun n cycles s h1 h63 hrun hset hdue hactive hnone hten => ⟨?_, fun held h => ?_, fun held => ?_⟩⟩
  · exact scheduleGroupRead_one hrun htick hahead hempty hi he hf hleft
  · exact scheduleGroupRead_skips hrun htick hahead hempty hi he hf hfit
  · exact slotEnd_missed hfind hrun hkind hruns hone
  · exact slotEnd_aborted hfind hrun hkind hruns hone
  · exact boundsEnforce_inside h1 h63 hrun hset hdue hactive hnone hten
  · exact boundsEnforce_outside h1 h63 hrun hset hdue hactive hnone hten
  · exact boundsEnforce_stuck h1 h63 hrun hset hdue hactive hnone hten

end Sys2Proof.Machine
end

section
/-! SUPPORT. The queue of commands, and the limiter and telemetry of chapter 22: one lemma per operation of the limiter, then
the commands that use them. -/

namespace Sys2Proof.Machine

variable (s : State)

/-! ### The queue of waiting commands -/

/-- Settles O2: an empty queue makes a step the model's idling, which advances the clocks and keeps every other part. -/
theorem emptyQueueIdles : Obligations.EmptyQueueIdles := by
  intro s hempty
  have hstep : step s = .next s.idle := by rw [step, hempty]
  have hkept : Kept 16777216 s s.idle := (Kept.refl s).set_clk_runClk _ _ (by decide)
  exact ⟨_, hstep, rfl, rfl, hkept.onlyIn (fun p => by cases p <;> decide)⟩

/-- Settles O4: the mask of the parts that commands may touch lacks the queue. -/
theorem queueUntouched : Obligations.QueueUntouched := by
  intro c s t hexec
  have hkept : Kept 8438939643 s t := (exec_kept c s (Kept.refl s) (by decide)).kept hexec
  exact hkept.parts .pending (by decide)

/-! ### Fields of one register -/

/-- Writing a field leaves another field of its register, with all that is asked of the two fields in one decidable fact. -/
theorem fld_setFld_beside (f g : Fld) (v : Nat)
    (h : g.addr = f.addr ∧ f.lo ≤ f.hi ∧ f.hi < 32 ∧ (g.hi < f.lo ∨ f.hi < g.lo)) : (s.setFld f v).fld g = s.fld g :=
  fld_setFld_disjoint s f g v h.1 h.2.1 h.2.2.1 h.2.2.2

/-! ### The limiter's operations (R763 to R765) -/

theorem clockDown_fld_step (limit : Nat) (h : 1 ≤ s.fld F.PWR_STATUS_STEP) :
    (s.clockDown limit).fld F.PWR_STATUS_STEP = s.fld F.PWR_STATUS_STEP - 1 := by
  have hlt : s.fld F.PWR_STATUS_STEP < 2 ^ 5 := fld_lt s _
  have hlow : (s.setFld F.PWR_STATUS_STEP (s.fld F.PWR_STATUS_STEP - 1)).fld F.PWR_STATUS_STEP =
      s.fld F.PWR_STATUS_STEP - 1 := fld_setFld_fits s (by decide) (by decide) (by change _ < 2 ^ 5; omega)
  rw [State.clockDown, if_neg (by omega)]
  dsimp only
  split
  · rw [fld_bump_ne (h := by decide), hlow]
  · rw [fld_setFld_beside (h := by decide), fld_bump_ne (h := by decide),
      hlow]

theorem clockDown_frz (limit : Nat) : (s.clockDown limit).frz = s.frz := by
  unfold State.clockDown
  dsimp only
  split
  · rfl
  · split <;> simp

theorem clockUp_fld_step (h : s.fld F.PWR_STATUS_STEP < 6) :
    s.clockUp.fld F.PWR_STATUS_STEP = s.fld F.PWR_STATUS_STEP + 1 := by
  have hup : (s.setFld F.PWR_STATUS_STEP (s.fld F.PWR_STATUS_STEP + 1)).fld F.PWR_STATUS_STEP =
      s.fld F.PWR_STATUS_STEP + 1 := fld_setFld_fits s (by decide) (by decide) (by change _ < 2 ^ 5; omega)
  rw [State.clockUp, if_neg (by omega)]
  dsimp only
  split
  · rw [fld_setFld_beside (h := by decide)]; exact hup
  · exact hup

theorem clockUp_lowUs (h : s.fld F.PWR_STATUS_STEP < 6) : s.clockUp.frz.lowUs = 0 := by
  rw [State.clockUp, if_neg (by omega)]
  dsimp only
  split <;> simp

theorem imposeHold_hold : s.imposeHold.frz.hold = true := by
  unfold State.imposeHold
  split
  · assumption
  · simp

theorem imposeHold_hottest : s.imposeHold.frz.hottest = s.frz.hottest := by
  unfold State.imposeHold
  split <;> simp

theorem imposeHold_fld_step : s.imposeHold.fld F.PWR_STATUS_STEP = s.fld F.PWR_STATUS_STEP := by
  unfold State.imposeHold
  split
  · rfl
  · dsimp only
    rw [fld_setFld_beside (h := by decide)]
    exact fld_bump_ne _ _ _ (by decide)

theorem imposeHold_fld_limit (h : s.frz.hold = false) : s.imposeHold.fld F.PWR_STATUS_LIMIT = 3 := by
  rw [State.imposeHold, if_neg (by simp [h])]
  exact fld_setFld_self _ _ _ (by decide) (by decide)

/-! ### The limiter's commands -/

/-- The state with the measured low time in it. -/
def State.lowFor (mw : Nat) : State :=
  { s with frz := { s.frz with lowUs := if 10 * mw < 9 * s.capMw then s.frz.lowUs + 10 else 0 } }

theorem execPowerSample_eq (mw : Nat) : exec (.powerSample mw) s = .next (
    if s.capMw < mw then
      (if s.fld F.PWR_STATUS_STEP = 0 then (s.lowFor mw).imposeHold else (s.lowFor mw).clockDown 1)
    else if 10000 ≤ (s.lowFor mw).frz.lowUs ∧ s.frz.hottest < 90 then (s.lowFor mw).clockUp
    else s.lowFor mw) := by
  change execPowerSample mw s = _
  simp only [execPowerSample, State.lowFor, decide_eq_true_eq]
  rfl

theorem execPowerSample_onlyIn {mw : Nat} {t : State} (h : exec (.powerSample mw) s = .next t) : OnlyIn [.regs, .frz] s t :=
  ((execPowerSample_kept mw s (Kept.refl s) (by decide)).kept (P := 2049) h).onlyIn (fun p => by cases p <;> decide)

theorem execThermalStep_onlyIn {hot : Int} {t : State} (h : exec (.thermalStep hot) s = .next t) :
    OnlyIn [.regs, .frz] s t :=
  ((execThermalStep_kept hot s (Kept.refl s) (by decide)).kept (P := 2049) h).onlyIn (fun p => by cases p <;> decide)

variable {s}

theorem powerSample_down {mw : Nat} (hcap : s.capMw < mw) (hstep : 1 ≤ s.fld F.PWR_STATUS_STEP) :
    Ends (.powerSample mw) s (fun t =>
      t.fld F.PWR_STATUS_STEP = s.fld F.PWR_STATUS_STEP - 1 ∧ OnlyIn [.regs, .frz] s t) := by
  have hexec : exec (.powerSample mw) s = .next ((s.lowFor mw).clockDown 1) := by
    rw [execPowerSample_eq, if_pos hcap, if_neg (by omega)]
  exact ⟨_, hexec, clockDown_fld_step (s.lowFor mw) 1 hstep, execPowerSample_onlyIn s hexec⟩

theorem powerSample_hold {mw : Nat} (hcap : s.capMw < mw) (hstep : s.fld F.PWR_STATUS_STEP = 0) :
    Ends (.powerSample mw) s (fun t => t.frz.hold = true ∧ t.fld F.PWR_STATUS_STEP = 0 ∧
      (s.frz.hold = false → t.fld F.PWR_STATUS_LIMIT = 3) ∧ OnlyIn [.regs, .frz] s t) := by
  have hexec : exec (.powerSample mw) s = .next (s.lowFor mw).imposeHold := by
    rw [execPowerSample_eq, if_pos hcap, if_pos hstep]
  exact ⟨_, hexec, imposeHold_hold _, (imposeHold_fld_step _).trans hstep, imposeHold_fld_limit (s.lowFor mw),
    execPowerSample_onlyIn s hexec⟩

theorem powerSample_up {mw : Nat} (hcap : 10 * mw < 9 * s.capMw) (hlow : 9990 ≤ s.frz.lowUs) (hcool : s.frz.hottest < 90)
    (hstep : s.fld F.PWR_STATUS_STEP < 6) : Ends (.powerSample mw) s (fun t =>
      t.fld F.PWR_STATUS_STEP = s.fld F.PWR_STATUS_STEP + 1 ∧ t.frz.lowUs = 0 ∧ OnlyIn [.regs, .frz] s t) := by
  have hlong : 10000 ≤ (s.lowFor mw).frz.lowUs := by
    simp only [State.lowFor, if_pos hcap]; omega
  have hexec : exec (.powerSample mw) s = .next (s.lowFor mw).clockUp := by
    rw [execPowerSample_eq, if_neg (by omega), if_pos ⟨hlong, hcool⟩]
  exact ⟨_, hexec, clockUp_fld_step (s.lowFor mw) hstep, clockUp_lowUs (s.lowFor mw) hstep, execPowerSample_onlyIn s hexec⟩

theorem thermalStep_down {hot : Int} (hhot : 95 ≤ hot) (hstep : 1 ≤ s.fld F.PWR_STATUS_STEP) :
    Ends (.thermalStep hot) s (fun t => t.fld F.PWR_STATUS_STEP = s.fld F.PWR_STATUS_STEP - 1 ∧ t.frz.hottest = hot ∧
      OnlyIn [.regs, .frz] s t) := by
  have hcool : ¬ (s.fld F.PWR_STATUS_STEP = 0 ∧ 105 ≤ hot) := by omega
  have hexec : exec (.thermalStep hot) s =
      .next (State.clockDown { s with frz := { s.frz with hottest := hot } } 2) :=
    congrArg Host.Outcome.next ((if_neg hcool).trans (if_pos hhot))
  exact ⟨_, hexec, clockDown_fld_step { s with frz := { s.frz with hottest := hot } } 2 hstep,
    congrArg Freeze.hottest (clockDown_frz _ 2), execThermalStep_onlyIn s hexec⟩

theorem thermalStep_hold {hot : Int} (hhot : 105 ≤ hot) (hstep : s.fld F.PWR_STATUS_STEP = 0) :
    Ends (.thermalStep hot) s (fun t => t.frz.hold = true ∧ t.frz.hottest = hot ∧ OnlyIn [.regs, .frz] s t) := by
  have hexec : exec (.thermalStep hot) s =
      .next (State.imposeHold { s with frz := { s.frz with hottest := hot } }) :=
    congrArg Host.Outcome.next (if_pos ⟨hstep, hhot⟩)
  exact ⟨_, hexec, imposeHold_hold _, imposeHold_hottest _, execThermalStep_onlyIn s hexec⟩

/-! ### Telemetry (R762) -/

/-- The readings of one sensor. -/
def State.putTemp (s : State) (temps : List (Bool × Int)) (i : Nat) : State :=
  (s.setFld (F.PWR_TEMP_VALID i) (b2n (temps.getD i (false, 0)).1)).setFld (F.PWR_TEMP_DEG_C i)
    (unsgn 8 (temps.getD i (false, 0)).2)

/-- The readings that TELEMETRY_UPDATE takes over apart from the temperatures. -/
def State.putInput (s : State) (volt power mj : Nat) : State :=
  ((s.setFld F.PWR_INPUT_VOLT_10MV volt).setFld F.PWR_INPUT_POWER_100MW power).setPair R.PWR_ENERGY_LO R.PWR_ENERGY_HI
    (s.pair R.PWR_ENERGY_LO R.PWR_ENERGY_HI + mj)

/-- The registers of the input readings and the energy. -/
def InputReg (a : Nat) : Prop := a = R.PWR_INPUT ∨ a = R.PWR_ENERGY_LO ∨ a = R.PWR_ENERGY_HI

theorem not_inputReg_temp (i : Nat) : ¬ InputReg (F.PWR_TEMP_VALID i).addr := by
  simp only [InputReg, R.PWR_TEMP, R.PWR_INPUT, R.PWR_ENERGY_LO, R.PWR_ENERGY_HI]
  omega

theorem putTemp_keepsRegs (s : State) (temps : List (Bool × Int)) (i : Nat) : KeepsRegs InputReg s (s.putTemp temps i) := by
  unfold State.putTemp
  exact ((KeepsRegs.refl s).setFld (f := F.PWR_TEMP_VALID i) (not_inputReg_temp i) _).setFld
    (f := F.PWR_TEMP_DEG_C i) (not_inputReg_temp i) _

theorem putTemps_keepsRegs (temps : List (Bool × Int)) (l : List Nat) (s : State) :
    KeepsRegs InputReg s (l.foldl (fun s i => s.putTemp temps i) s) :=
  keepsRegs_foldl (fun u i => putTemp_keepsRegs u temps i) l s

theorem pair_setFld_ne (s : State) (lo hi : Nat) (f : Fld) (v : Nat) (hlo : lo ≠ f.addr) (hhi : hi ≠ f.addr) :
    (s.setFld f v).pair lo hi = s.pair lo hi := by
  rw [State.pair, reg_setFld_ne _ _ _ _ hlo, reg_setFld_ne _ _ _ _ hhi, State.pair]

theorem exec_telemetryUpdate (volt power mj : Nat) (temps : List (Bool × Int)) (s : State) :
    exec (.telemetryUpdate volt power mj temps) s =
      .next ((List.range 11).foldl (fun s i => s.putTemp temps i) (s.putInput volt power mj)) := by
  have hpair : ((s.setFld F.PWR_INPUT_VOLT_10MV volt).setFld F.PWR_INPUT_POWER_100MW power).pair R.PWR_ENERGY_LO
      R.PWR_ENERGY_HI = s.pair R.PWR_ENERGY_LO R.PWR_ENERGY_HI := by
    rw [pair_setFld_ne _ _ _ _ _ (by decide) (by decide), pair_setFld_ne _ _ _ _ _ (by decide) (by decide)]
  change execTelemetryUpdate volt power mj temps s = _
  simp only [execTelemetryUpdate, hpair]
  rfl

theorem putInput_fld_volt (s : State) (volt power mj : Nat) :
    (s.putInput volt power mj).fld F.PWR_INPUT_VOLT_10MV = volt % 2 ^ 16 := by
  rw [State.putInput, fld_setPair_ne _ _ _ _ _ (by decide) (by decide),
    fld_setFld_beside (h := by decide)]
  exact fld_setFld_self _ _ _ (by decide) (by decide)

theorem putInput_fld_power (s : State) (volt power mj : Nat) :
    (s.putInput volt power mj).fld F.PWR_INPUT_POWER_100MW = power % 2 ^ 16 := by
  rw [State.putInput, fld_setPair_ne _ _ _ _ _ (by decide) (by decide)]
  exact fld_setFld_self _ _ _ (by decide) (by decide)

theorem telemetryUpdate_ends (volt power mj : Nat) (temps : List (Bool × Int)) (s : State) :
    Ends (.telemetryUpdate volt power mj temps) s (fun t => t.fld F.PWR_INPUT_VOLT_10MV = volt % 2 ^ 16 ∧
      t.fld F.PWR_INPUT_POWER_100MW = power % 2 ^ 16 ∧
      t.pair R.PWR_ENERGY_LO R.PWR_ENERGY_HI = (s.pair R.PWR_ENERGY_LO R.PWR_ENERGY_HI + mj) % 2 ^ 64 ∧
      OnlyIn [.regs] s t) := by
  have hexec := exec_telemetryUpdate volt power mj temps s
  have hregs := putTemps_keepsRegs temps (List.range 11) (s.putInput volt power mj)
  have hkept : Kept 1 s _ := (execTelemetryUpdate_kept volt power mj temps s (Kept.refl s) (by decide)).kept hexec
  refine ⟨_, hexec, (hregs.fld (.inl rfl)).trans (putInput_fld_volt s _ _ _),
    (hregs.fld (.inl rfl)).trans (putInput_fld_power s _ _ _), ?energy, hkept.onlyIn (fun p => by cases p <;> decide)⟩
  case energy =>
    rw [State.pair, hregs _ (.inr (.inl rfl)), hregs _ (.inr (.inr rfl))]
    exact pair_setPair_self _ _ _ _ (by decide)

/-- Settles O21: the limiter's two commands by what they find, then the telemetry. -/
theorem limiterAndTelemetry : Obligations.LimiterAndTelemetry :=
  ⟨fun _ _ => powerSample_down, fun _ _ => powerSample_hold, fun _ _ => powerSample_up, fun _ _ => thermalStep_down,
    fun _ _ => thermalStep_hold, telemetryUpdate_ends⟩

end Sys2Proof.Machine
end

section
/-! SUPPORT. What logging keeps of the freeze controller and of Ewebin, then the freeze requests of Table 22-1. -/

namespace Sys2Proof.Machine

/-! ### Relations that the recorder's work stays within -/

/-- The recorder's own registers. -/
abbrev RecorderReg (a : Nat) : Prop := 0x980000 ≤ a ∧ a < 0xA00000

/-- A relation between states that allows what creating records does by itself: work on the recorder and its registers. -/
structure RecorderClosed (Q : State → State → Prop) : Prop where
  refl : ∀ s, Q s s
  trans : ∀ {s t u}, Q s t → Q t u → Q s u
  evr : ∀ s x, Q s { s with evr := x }
  reg : ∀ s a v, RecorderReg a → Q s (s.setReg a v)

namespace RecorderClosed

variable {Q : State → State → Prop} (hQ : RecorderClosed Q)
include hQ

theorem setFld (s : State) (f : Fld) (v : Nat) (hf : RecorderReg f.addr) : Q s (s.setFld f v) := hQ.reg s _ _ hf

theorem bump (s : State) (f : Fld) (hf : RecorderReg f.addr) : Q s (s.bump f) := hQ.reg s _ _ hf

theorem recNotice (s : State) (cls trig seq : Nat) : Q s (s.recNotice cls trig seq) := hQ.evr s _

omit hQ in
theorem ite {c : Prop} [Decidable c] {s t u : State} (ht : Q s t) (hu : Q s u) : Q s (if c then t else u) := by
  split <;> assumption

theorem pushRec (s : State) (r : Record) (body : List (List Byte)) (kept : Bool) : Q s (s.pushRec r body kept) := by
  have hcount : Q s (s.takeSeq.bump F.EVR_CNT_RECORDS_COUNT) :=
    hQ.trans (hQ.reg s R.EVR_SEQ _ (by decide)) (hQ.bump _ _ (by decide))
  unfold State.pushRec
  dsimp only
  split
  · refine hQ.trans ?_ (hQ.evr _ _)
    split
    · exact hQ.trans hcount (hQ.bump _ _ (by decide))
    · exact hcount
  · have hlost := hQ.trans hcount (hQ.bump _ F.EVR_CNT_LOST_COUNT (by decide))
    have hnote : ∀ u, Q s u → Q s (if u.bit F.EVR_CTRL_NOTIFY_LOST then u.recNotice 3 0xFF r.seq else u) := fun u hu =>
      RecorderClosed.ite (hQ.trans hu (hQ.recNotice _ _ _ _)) hu
    exact hnote _ (hQ.trans hlost (hQ.evr _ _))

theorem snapshot (s : State) (code sev vf : Nat) (body : List (List Byte)) : Q s (s.snapshot code sev vf body) :=
  hQ.trans (hQ.bump s F.EVR_CNT_SNAPSHOTS_COUNT (by decide)) (hQ.pushRec _ _ _ _)

theorem freezeSnap (s : State) : Q s s.freezeSnap := by
  unfold State.freezeSnap
  split
  · exact hQ.snapshot _ _ _ _ _
  · exact hQ.refl s

theorem trigAct {fr : State → Bool → State} (hfr : ∀ t d, Q t (fr t d)) (r : Record) (s : State) {k : Nat} (hk : k < 4) :
    Q s (State.trigAct fr r s k) := by
  have hhits : RecorderReg (R.EVR_TRIG_HITS k) := by unfold RecorderReg R.EVR_TRIG_HITS; omega
  have hctrl : RecorderReg (R.EVR_TRIG_CTRL k) := by unfold RecorderReg R.EVR_TRIG_CTRL; omega
  unfold State.trigAct
  refine RecorderClosed.ite ?_ (hQ.refl s)
  dsimp only
  have hcount := hQ.trans (hQ.trans (hQ.bump s (F.EVR_TRIG_HITS_COUNT k) hhits)
    (hQ.bump _ F.EVR_CNT_TRIGGERS_COUNT (by decide)))
    (hQ.pushRec _ (((s.bump (F.EVR_TRIG_HITS_COUNT k)).bump F.EVR_CNT_TRIGGERS_COUNT).mkRecord 0x0009 1 0 0xFFFF k r.seq false)
      [] false)
  generalize ((s.bump (F.EVR_TRIG_HITS_COUNT k)).bump F.EVR_CNT_TRIGGERS_COUNT).pushRec _ _ _ = u at hcount ⊢
  have honce := hQ.trans hcount (RecorderClosed.ite (c := u.bit (F.EVR_TRIG_CTRL_ONESHOT k))
    (hQ.setFld u (F.EVR_TRIG_CTRL_ENABLE k) 0 hctrl) (hQ.refl u))
  generalize (if u.bit (F.EVR_TRIG_CTRL_ONESHOT k) then u.setFld (F.EVR_TRIG_CTRL_ENABLE k) 0 else u) = v at honce ⊢
  have hsnap := hQ.trans honce (RecorderClosed.ite (c := s.bit (F.EVR_TRIG_CTRL_SNAPSHOT k))
    (hQ.snapshot v 0x0082 1 0 v.snapBody) (hQ.refl v))
  generalize (if s.bit (F.EVR_TRIG_CTRL_SNAPSHOT k) then v.snapshot 0x0082 1 0 v.snapBody else v) = w at hsnap ⊢
  have hfreeze := hQ.trans hsnap (RecorderClosed.ite (c := s.bit (F.EVR_TRIG_CTRL_FREEZE_DOMAIN k)) (hfr w true)
    (RecorderClosed.ite (c := s.bit (F.EVR_TRIG_CTRL_FREEZE_LOCAL k)) (hfr w false) (hQ.refl w)))
  exact RecorderClosed.ite (hQ.trans hfreeze (hQ.recNotice _ _ _ _)) hfreeze

theorem createWith {fr : State → Bool → State} (hfr : ∀ t d, Q t (fr t d)) (s : State) (r : Record) :
    Q s (State.createWith fr s r) := by
  have hfold : ∀ (l : List Nat), (∀ k ∈ l, k < 4) → ∀ t, Q t (l.foldl (State.trigAct fr r) t) := by
    intro l
    induction l with
    | nil => exact fun _ t => hQ.refl t
    | cons k l ih =>
      exact fun hl t => hQ.trans (hQ.trigAct hfr r t (hl k List.mem_cons_self))
        (ih (fun j hj => hl j (List.mem_cons_of_mem _ hj)) _)
  exact hQ.trans (hQ.pushRec s r [] false) (hfold _ (fun k hk => List.mem_range.mp hk) _)

variable (hsend : ∀ s type, Q s (s.sendFrz type))
include hsend

theorem freezeAgain (s : State) (domain : Bool) : Q s (s.freezeAgain domain) := RecorderClosed.ite (hsend s _) (hQ.refl s)

/-- What follows the marking of a freeze stays within `Q`. -/
theorem freezeVia {lg : State → Record → State} (hlg : ∀ t r, Q t (lg t r)) (src : Nat) (s : State) (domain : Bool)
    (hmark : s.fld F.FRZ_STATUS_STATE = 0 → Q s (s.freezeMark src)) : Q s (State.freezeVia lg src s domain) := by
  have hbegin : Q s (if s.fld F.FRZ_STATUS_STATE = 0 then
      (lg (s.freezeMark src) ((s.freezeMark src).mkRecord 0x0D01 2 0 0xFFFF src 0 false)).freezeSnap else s) := by
    split
    next hrun => exact hQ.trans (hQ.trans (hmark hrun) (hlg _ _)) (hQ.freezeSnap _)
    next => exact hQ.refl s
  exact RecorderClosed.ite (hQ.trans hbegin (hsend _ _)) hbegin

theorem freezeReq (hmark : ∀ s src, Q s (s.freezeMark src)) (src : Nat) (s : State) (domain : Bool) :
    Q s (s.freezeReq src domain) :=
  hQ.freezeVia hsend (hQ.createWith (hQ.freezeAgain hsend)) src s domain (fun _ => hmark s src)

theorem log (hmark : ∀ s src, Q s (s.freezeMark src)) (s : State) (code sev vf unit arg16 arg : Nat) :
    Q s (s.log code sev vf unit arg16 arg) :=
  hQ.createWith (fun t d => hQ.freezeReq hsend hmark 4 t d) s _

end RecorderClosed

/-! ### Symbols sent -/

/-- Outputs join what was put out, the last in front. -/
theorem emitAll_eq (s : State) (l : List Output) : s.emitAll l = { s with out := l.reverse ++ s.out } := by
  induction l generalizing s with
  | nil => rfl
  | cons o l ih =>
    rw [State.emitAll, List.foldl_cons, ← State.emitAll, ih, List.reverse_cons, List.append_assoc]
    rfl

theorem sendOn_eq (s : State) (ps : List Nat) (sym : List Byte) :
    s.sendOn ps sym = { s with out := (ps.map (fun p => Output.symbol p sym)).reverse ++ s.out } := emitAll_eq s _

/-! ### Ewebin under logging -/

/-- Of Ewebin's own state only the list of FREEZE symbols seen differs. -/
def LinksKept (s t : State) : Prop := t.ewb = { s.ewb with seenFreeze := t.ewb.seenFreeze }

theorem LinksKept.of_ewb {s t : State} (h : t.ewb = s.ewb) : LinksKept s t := by rw [LinksKept, h]

theorem linksKept_closed : RecorderClosed LinksKept where
  refl s := rfl
  trans h k := by rw [LinksKept, k, h]
  evr s x := rfl
  reg s a v _ := .of_ewb (setReg_ewb s a v)

theorem sendFrz_links (s : State) (type : Nat) : LinksKept s (s.sendFrz type) := by
  rw [State.sendFrz, LinksKept, setFld_ewb, sendOn_eq]

theorem freezeMark_ewb (s : State) (src : Nat) : (s.freezeMark src).ewb = s.ewb := by
  simp only [State.freezeMark, bump_ewb, setFld_ewb]

theorem log_links (s : State) (code sev vf unit arg16 arg : Nat) : LinksKept s (s.log code sev vf unit arg16 arg) :=
  linksKept_closed.log sendFrz_links (fun s src => .of_ewb (freezeMark_ewb s src)) s ..

/-! ### The freeze controller under logging, while no freeze begins -/

/-- The freeze controller's registers but NEXT_FID. -/
abbrev FreezeReg (a : Nat) : Prop := 0xA00000 ≤ a ∧ a < 0xA10000 ∧ a ≠ R.FRZ_NEXT_FID

/-- The part's freeze, its pins and its boot sequencer are as before, and what was put out still is. -/
structure FreezeHeld (s t : State) : Prop where
  regs : KeepsRegs FreezeReg s t
  frz : t.frz = s.frz
  pwr : t.pwr = s.pwr
  outs : ∀ o ∈ s.out, o ∈ t.out

theorem freezeHeld_closed : RecorderClosed FreezeHeld where
  refl s := ⟨.refl s, rfl, rfl, fun _ h => h⟩
  trans h k := ⟨h.regs.trans k.regs, k.frz.trans h.frz, k.pwr.trans h.pwr, fun o ho => k.outs o (h.outs o ho)⟩
  evr s x := ⟨.refl s, rfl, rfl, fun _ h => h⟩
  reg s a v ha := ⟨(KeepsRegs.refl s).setReg (fun hf => by unfold RecorderReg at ha; unfold FreezeReg at hf; omega) v,
    setReg_frz s a v, setReg_pwr s a v, fun o ho => by rwa [setReg_out]⟩

theorem sendFrz_held (s : State) (type : Nat) : FreezeHeld s (s.sendFrz type) := by
  rw [State.sendFrz, sendOn_eq]
  exact ⟨((KeepsRegs.refl s).of_regs rfl).setFld (by decide) _, setFld_frz .., setFld_pwr .., fun o ho => by
    rw [setFld_out]; exact List.mem_append_right _ ho⟩

/-- Creating a record while the part is not running begins no freeze. -/
theorem freezeReq_held {s : State} (hfrozen : s.fld F.FRZ_STATUS_STATE ≠ 0) (src : Nat) (domain : Bool) :
    FreezeHeld s (s.freezeReq src domain) :=
  freezeHeld_closed.freezeVia sendFrz_held (freezeHeld_closed.createWith (freezeHeld_closed.freezeAgain sendFrz_held)) src s
    domain (fun h => absurd h hfrozen)

theorem FreezeHeld.fld {s t : State} (h : FreezeHeld s t) {f : Fld} (hf : FreezeReg f.addr) : t.fld f = s.fld f := h.regs.fld hf

/-- On a part that is not running, `FreezeHeld` is a relation that holds through all of logging. -/
theorem freezeHeld_closed_of_frozen :
    RecorderClosed (fun s t => s.fld F.FRZ_STATUS_STATE ≠ 0 → FreezeHeld s t) where
  refl s _ := freezeHeld_closed.refl s
  trans h k hs := freezeHeld_closed.trans (h hs) (k (by rwa [(h hs).fld (by decide)]))
  evr s x _ := freezeHeld_closed.evr s x
  reg s a v ha _ := freezeHeld_closed.reg s a v ha

theorem log_held {s : State} (hfrozen : s.fld F.FRZ_STATUS_STATE ≠ 0) (code sev vf unit arg16 arg : Nat) :
    FreezeHeld s (s.log code sev vf unit arg16 arg) :=
  freezeHeld_closed_of_frozen.createWith (fun _ d ht => freezeReq_held ht 4 d) s _ hfrozen


/-! ### A freeze begins (R742, R743) -/

theorem freezeReq_begins {s : State} (hrun : s.fld F.FRZ_STATUS_STATE = 0) (src : Nat) (domain : Bool) :
    FreezeHeld (s.freezeMark src) (s.freezeReq src domain) := by
  have hrecord := freezeHeld_closed.createWith (freezeHeld_closed.freezeAgain sendFrz_held) (s.freezeMark src)
    ((s.freezeMark src).mkRecord 0x0D01 2 0 0xFFFF src 0 false)
  have hsnap := freezeHeld_closed.trans hrecord (freezeHeld_closed.freezeSnap _)
  rw [State.freezeReq, State.freezeVia]
  simp only [if_pos hrun]
  exact RecorderClosed.ite (freezeHeld_closed.trans hsnap (sendFrz_held _ _)) hsnap

theorem freezeMark_fld (s : State) (src : Nat) (f : Fld) : (s.freezeMark src).fld f =
    (((s.setFld F.FRZ_STATUS_STATE 1).setFld F.FRZ_STATUS_SOURCE src).bump F.FRZ_CNT_FREEZES_COUNT).fld f :=
  fld_of_regs (freezeMark_regs s src) f

theorem freezeMark_fld_state (s : State) (src : Nat) : (s.freezeMark src).fld F.FRZ_STATUS_STATE = 1 := by
  rw [freezeMark_fld, fld_bump_ne (h := by decide), fld_setFld_beside (h := by decide)]
  exact fld_setFld_self _ _ _ (by decide) (by decide)

theorem freezeMark_fld_source (s : State) {src : Nat} (h : src < 16) : (s.freezeMark src).fld F.FRZ_STATUS_SOURCE = src := by
  rw [freezeMark_fld, fld_bump_ne (h := by decide)]
  exact fld_setFld_fits _ (by decide) (by decide) h

/-- The marking of a freeze leaves the other fields of FRZ_STATUS. -/
theorem freezeMark_fld_beside (s : State) (src : Nat) {f : Fld}
    (hf : f.addr = R.FRZ_STATUS ∧ 1 < f.lo ∧ (f.hi < 8 ∨ 11 < f.lo)) : (s.freezeMark src).fld f = s.fld f := by
  obtain ⟨ha, hstate, hsource⟩ := hf
  rw [freezeMark_fld, fld_bump_ne (h := by rw [ha]; decide), fld_setFld_beside (h := ⟨ha, by decide, by decide, hsource⟩),
    fld_setFld_beside (h := ⟨ha, by decide, by decide, .inr hstate⟩)]

theorem freezeMark_fld_ne (s : State) (src : Nat) {f : Fld} (hs : f.addr ≠ R.FRZ_STATUS) (hc : f.addr ≠ R.FRZ_CNT_FREEZES) :
    (s.freezeMark src).fld f = s.fld f := by
  rw [freezeMark_fld, fld_bump_ne _ _ _ hc, fld_setFld_ne _ _ _ _ hs, fld_setFld_ne _ _ _ _ hs]

theorem freezeMark_out (s : State) (src : Nat) : (s.freezeMark src).out = s.out := by
  simp only [State.freezeMark, bump_out, setFld_out]

/-- What every freeze that begins shows (R743). -/
structure FreezeBegun (src : Nat) (s t : State) : Prop where
  state : t.fld F.FRZ_STATUS_STATE = 1
  source : t.fld F.FRZ_STATUS_SOURCE = src
  drive : t.pwr.freezeDrive = true
  clk : t.frz.reqClk = s.clk
  pwr : t.pwr = { s.pwr with freezeDrive := true }

theorem freezeReq_begun {s : State} {src : Nat} (hsrc : src < 16) (hrun : s.frozen = false) (domain : Bool) :
    FreezeBegun src s (s.freezeReq src domain) := by
  have hstate : s.fld F.FRZ_STATUS_STATE = 0 := by simpa [State.frozen] using hrun
  have hheld := freezeReq_begins hstate src domain
  have hpwr : (s.freezeReq src domain).pwr = { s.pwr with freezeDrive := true } := hheld.pwr
  exact ⟨(hheld.fld (by decide)).trans (freezeMark_fld_state s src),
    (hheld.fld (by decide)).trans (freezeMark_fld_source s hsrc), by rw [hpwr], congrArg Freeze.reqClk hheld.frz, hpwr⟩

/-! ### The requests -/

theorem Kept.onlyIn_logParts {s t : State} (h : Kept 872417921 s t) : OnlyIn logParts s t :=
  h.onlyIn (fun p => by cases p <;> decide)

theorem Kept.onlyIn_pwrLogParts {s t : State} (h : Kept 872417929 s t) : OnlyIn (.pwr :: logParts) s t :=
  h.onlyIn (fun p => by cases p <;> decide)

/-- The state in which FREEZE_N is low. -/
def State.pinLow (s : State) : State := { s with pwr := { s.pwr with freezeIn := true } }

theorem freezeNLow_begins {s : State} (hrun : s.frozen = false) (hblank : s.bit F.FRZ_STATUS_BLANKING = false) :
    Ends .freezeNLow s (fun t => t.fld F.FRZ_STATUS_STATE = 1 ∧ t.fld F.FRZ_STATUS_SOURCE = 1 ∧ t.pwr.freezeDrive = true ∧
      t.pwr.freezeIn = true ∧ t.frz.reqClk = s.clk ∧ OnlyIn (.pwr :: logParts) s t) := by
  have hexec : exec .freezeNLow s = .next (s.pinLow.freezeReq 1 false) :=
    congrArg Host.Outcome.next (if_neg (ne_true_of_eq_false (show s.pinLow.bit F.FRZ_STATUS_BLANKING = false from hblank)))
  have hbegun : FreezeBegun 1 s.pinLow (s.pinLow.freezeReq 1 false) :=
    freezeReq_begun (s := s.pinLow) (src := 1) (by decide) hrun false
  refine ⟨_, hexec, hbegun.state, hbegun.source, hbegun.drive, ?_, hbegun.clk,
    ((execFreezeNLow_kept s (Kept.refl s) (by decide)).kept hexec).onlyIn_pwrLogParts⟩
  rw [hbegun.pwr]; rfl

theorem exec_freezeRequest (src : Nat) (domain : Bool) (s : State) :
    exec (.freezeRequest src domain) s = .next (s.freezeReq src (domain && (src == 2 || src == 4))) := rfl

theorem freezeRequest_begins {src : Nat} {s : State} (domain : Bool) (hsrc : src < 16) (hrun : s.frozen = false) :
    Ends (.freezeRequest src domain) s (fun t => t.fld F.FRZ_STATUS_STATE = 1 ∧ t.fld F.FRZ_STATUS_SOURCE = src ∧
      t.pwr.freezeDrive = true ∧ t.frz.reqClk = s.clk ∧ OnlyIn logParts s t) := by
  have hbegun := freezeReq_begun hsrc hrun (domain && (src == 2 || src == 4))
  exact ⟨_, rfl, hbegun.state, hbegun.source, hbegun.drive, hbegun.clk, (freezeReq_logged (Logged.refl s) _ _).parts⟩

theorem freezeReq_frozen {s : State} (hfrozen : s.frozen = true) (src : Nat) (domain : Bool) :
    s.freezeReq src domain = s.freezeAgain domain := by
  have hstate : s.fld F.FRZ_STATUS_STATE ≠ 0 := by simpa [State.frozen] using hfrozen
  rw [State.freezeReq, State.freezeVia, if_neg hstate, State.freezeAgain]

/-- Each live port gets the symbol, whose TYPE leads it (Table 19-4). -/
theorem sendFrz_sends (s : State) (type : Nat) {p : Nat} (hp : p ∈ s.livePorts) :
    ∃ sym, Output.symbol p sym ∈ (s.sendFrz type).out ∧ sym[0]? = some (BitVec.ofNat 8 type) := by
  refine ⟨symbolOf type (0 :: leBytes 2 s.address ++ leBytes 1 (s.fld F.FRZ_NEXT_FID_FID)), ?_, symbolOf_head type _⟩
  rw [State.sendFrz, setFld_out, sendOn_eq]
  exact List.mem_append_left _ (List.mem_reverse.mpr (List.mem_map_of_mem hp))

theorem freezeRequest_domain {src : Nat} {s : State} (hsrc : src = 2 ∨ src = 4) (hfrozen : s.frozen = true) :
    Ends (.freezeRequest src true) s (fun t => t.fld F.FRZ_STATUS_STATE = s.fld F.FRZ_STATUS_STATE ∧ t.pwr = s.pwr ∧
      ∀ p, p ∈ s.livePorts → ∃ sym, Output.symbol p sym ∈ t.out ∧ sym[0]? = some 9) := by
  have hdomain : (true && (src == 2 || src == 4)) = true := by rcases hsrc with rfl | rfl <;> rfl
  have hexec : exec (.freezeRequest src true) s = .next (s.sendFrz 0x09) := by
    rw [exec_freezeRequest, hdomain, freezeReq_frozen hfrozen]; rfl
  have hheld := sendFrz_held s 0x09
  exact ⟨_, hexec, hheld.fld (by decide), hheld.pwr, fun p hp => sendFrz_sends s 0x09 hp⟩

/-! ### FREEZE and THAW symbols (R681) -/

theorem livePorts_congr {s t : State} (h : ∀ p, t.portState p = s.portState p) : t.livePorts = s.livePorts :=
  List.filter_congr fun p _ => by rw [h p]

/-- Counting in a register below the ports' own leaves the ports' states. -/
theorem livePorts_bump_domain (s : State) (f : Fld) (h : f.addr < 0x801000) : (s.bump f).livePorts = s.livePorts :=
  livePorts_congr fun p => fld_bump_ne s f _ (by simp only [R.EWB_P_STATUS]; omega)

theorem heardOn_of_not_tap {s : State} {p : Nat} (h : s.portState p ≠ 2) : s.heardOn p = s := if_neg h

theorem onSymbol_ok {type : Nat} {b : List Byte} (h : symOk type b = true) (s : State) (p : Nat) (act : State → State) :
    s.onSymbol p type b act = act (s.heardOn p) := if_pos h

/-- The state once a FREEZE or THAW symbol that is new here has been noted, forwarded and shown. -/
def State.frzForwarded (s : State) (p type : Nat) (b : List Byte) : State :=
  (((State.sendOn { s with ewb := { s.ewb with
        seenFreeze := ((type, leAt b 2 2 % 512, leAt b 4 1) :: s.ewb.seenFreeze).take 128 } }
      (s.livePorts.filter (· != p)) b).setFld F.FRZ_STATUS_ORIGIN (leAt b 2 2 % 512)).setFld F.FRZ_STATUS_FID (leAt b 4 1))

theorem forwardFrz_new {s : State} {type : Nat} {b : List Byte}
    (h : s.ewb.seenFreeze.contains (type, leAt b 2 2 % 512, leAt b 4 1) = false) (p : Nat) :
    s.forwardFrz p type b = (s.frzForwarded p type b, true) := by
  rw [State.forwardFrz, if_neg (by rw [h]; decide)]
  rfl

theorem frzForwarded_fld_low (s : State) (p type : Nat) (b : List Byte) {f : Fld} (ha : f.addr = R.FRZ_STATUS) (hhi : f.hi < 12) :
    (s.frzForwarded p type b).fld f = s.fld f := by
  rw [State.frzForwarded, fld_setFld_beside (h := ⟨ha, by decide, by decide, .inl hhi⟩),
    fld_setFld_beside (h := ⟨ha, by decide, by decide, .inl (Nat.lt_trans hhi (by decide))⟩), sendOn_eq]
  rfl

theorem frzForwarded_fld_origin (s : State) (p type : Nat) (b : List Byte) :
    (s.frzForwarded p type b).fld F.FRZ_STATUS_ORIGIN = leAt b 2 2 % 512 := by
  rw [State.frzForwarded, fld_setFld_beside (h := by decide)]
  exact fld_setFld_fits _ (by decide) (by decide) (Nat.mod_lt _ (by decide))

theorem leAt_lt (b : List Byte) (o n : Nat) : leAt b o n < 256 ^ n := by
  have h := ofLe_lt (sliceOf b o n)
  rwa [sliceOf, List.length_map, List.length_range] at h

theorem frzForwarded_fld_fid (s : State) (p type : Nat) (b : List Byte) :
    (s.frzForwarded p type b).fld F.FRZ_STATUS_FID = leAt b 4 1 :=
  fld_setFld_fits _ (by decide) (by decide) (leAt_lt b 4 1)

theorem frzForwarded_out (s : State) (p type : Nat) (b : List Byte) : (s.frzForwarded p type b).out =
    ((s.livePorts.filter (· != p)).map (fun q => Output.symbol q b)).reverse ++ s.out := by
  rw [State.frzForwarded, setFld_out, setFld_out, sendOn_eq]

theorem frzForwarded_sends (s : State) {p : Nat} (type : Nat) (b : List Byte) {q : Nat} (hq : q ∈ s.livePorts) (hne : q ≠ p) :
    Output.symbol q b ∈ (s.frzForwarded p type b).out := by
  rw [frzForwarded_out]
  exact List.mem_append_left _ (List.mem_reverse.mpr (List.mem_map_of_mem (List.mem_filter.mpr ⟨hq, by simpa using hne⟩)))

theorem frzForwarded_pwr (s : State) (p type : Nat) (b : List Byte) : (s.frzForwarded p type b).pwr = s.pwr := by
  rw [State.frzForwarded, setFld_pwr, setFld_pwr, sendOn_eq]

theorem frzForwarded_frz (s : State) (p type : Nat) (b : List Byte) : (s.frzForwarded p type b).frz = s.frz := by
  rw [State.frzForwarded, setFld_frz, setFld_frz, sendOn_eq]

theorem frzForwarded_logged (s : State) (p type : Nat) (b : List Byte) : Logged s (s.frzForwarded p type b) := by
  unfold State.frzForwarded State.sendOn
  refine Logged.setFld (Logged.setFld (emitAll_logged ?_ _) _ _ (by decide)) _ _ (by decide)
  exact ⟨fun p hp => by cases p <;> simp [logParts, State.same] at hp ⊢, fun _ _ => rfl, rfl, rfl⟩

section FreezeSymbol
variable {p : Nat} {b : List Byte} {s : State} (hok : symOk 0x09 b = true) (htap : s.portState p ≠ 2)
  (hnew : s.ewb.seenFreeze.contains (0x09, leAt b 2 2 % 512, leAt b 4 1) = false)
include hok htap hnew

theorem exec_freezeSymbol_new : exec (.freezeSymbol p b) s =
    .next (((s.bump F.EWB_CNT_FREEZE_RX_COUNT).frzForwarded p 0x09 b).freezeReq 3 false) := by
  have hnew' : (s.bump F.EWB_CNT_FREEZE_RX_COUNT).ewb.seenFreeze.contains (0x09, leAt b 2 2 % 512, leAt b 4 1) = false := by
    rwa [bump_ewb]
  change execFreezeSymbol p b s = _
  simp only [execFreezeSymbol, onSymbol_ok hok, heardOn_of_not_tap htap, if_neg htap, forwardFrz_new hnew', if_true]

theorem freezeSymbol_begins (hrun : s.frozen = false) : Ends (.freezeSymbol p b) s (fun t =>
    t.fld F.FRZ_STATUS_STATE = 1 ∧ t.fld F.FRZ_STATUS_SOURCE = 3 ∧ t.pwr.freezeDrive = true ∧
    t.fld F.FRZ_STATUS_ORIGIN = leAt b 2 2 % 512 ∧ t.fld F.FRZ_STATUS_FID = leAt b 4 1 ∧
    (∀ q, q ∈ s.livePorts → q ≠ p → Output.symbol q b ∈ t.out) ∧ OnlyIn logParts s t) := by
  have hexec := exec_freezeSymbol_new hok htap hnew
  have hkept : Kept 872417921 s _ := (execFreezeSymbol_kept p b s (Kept.refl s) (by decide)).kept hexec
  have hfrozen : ((s.bump F.EWB_CNT_FREEZE_RX_COUNT).frzForwarded p 0x09 b).frozen = false := by
    rw [State.frozen, frzForwarded_fld_low _ _ _ _ rfl (by decide), fld_bump_ne (h := by decide)]
    exact hrun
  have hbegun := freezeReq_begun (src := 3) (by decide) hfrozen false
  have hheld := freezeReq_begins (by simpa [State.frozen] using hfrozen) 3 false
  generalize hu : (s.bump F.EWB_CNT_FREEZE_RX_COUNT).frzForwarded p 0x09 b = u at *
  refine ⟨_, hexec, hbegun.state, hbegun.source, hbegun.drive, ?origin, ?fid, ?sent, hkept.onlyIn_logParts⟩
  case origin =>
    rw [hheld.fld (by decide), freezeMark_fld_beside _ _ (by decide), ← hu, frzForwarded_fld_origin]
  case fid =>
    rw [hheld.fld (by decide), freezeMark_fld_beside _ _ (by decide), ← hu, frzForwarded_fld_fid]
  case sent =>
    intro q hq hne
    refine hheld.outs _ ?_
    have hlive : q ∈ (s.bump F.EWB_CNT_FREEZE_RX_COUNT).livePorts := by rwa [livePorts_bump_domain _ _ (by decide)]
    rw [freezeMark_out, ← hu]
    exact frzForwarded_sends _ 0x09 b hlive hne

end FreezeSymbol

/-- Settles O18: each kind of request on a running part marks the freeze, and what follows the mark keeps it. -/
theorem freezeRequestsFreeze : Obligations.FreezeRequestsFreeze := by
  refine ⟨fun s => freezeNLow_begins, fun s hblank => ?blanking, fun src domain s => freezeRequest_begins domain,
    fun src s hfrozen => ?ignored, fun src s => freezeRequest_domain,
    fun p b s _ hok htap hrun hnew => freezeSymbol_begins hok htap hnew hrun⟩
  case blanking =>
    exact congrArg Host.Outcome.next (if_pos (show s.pinLow.bit F.FRZ_STATUS_BLANKING = true from hblank))
  case ignored =>
    rw [exec_freezeRequest, Bool.false_and, freezeReq_frozen hfrozen]
    rfl

end Sys2Proof.Machine
end

section
/-! SUPPORT. Thaws: how a freeze becomes static, what a thaw releases, and that the frames a thaw closes leave the freeze
controller's registers and the waiting clearings alone. -/

namespace Sys2Proof.Machine

/-! ### The thaw starts (R748, R749) -/

/-- The state in which a thaw has begun, before it is logged. -/
def State.thawing (s : State) : State :=
  { (s.setFld F.FRZ_STATUS_STATE 3).setFld F.FRZ_STATUS_BLANKING 1 with
    pwr := { s.pwr with freezeDrive := false }, frz := { s.frz with thawPending := 0 } }

theorem thawStart_eq (s : State) (src : Nat) : s.thawStart src = s.thawing.log 0x0D02 2 0 0xFFFF src 0 := rfl

theorem thawing_fld (s : State) (f : Fld) :
    s.thawing.fld f = ((s.setFld F.FRZ_STATUS_STATE 3).setFld F.FRZ_STATUS_BLANKING 1).fld f := rfl

theorem thawing_fld_state (s : State) : s.thawing.fld F.FRZ_STATUS_STATE = 3 := by
  rw [thawing_fld, fld_setFld_beside (h := by decide)]
  exact fld_setFld_self _ _ _ (by decide) (by decide)

theorem thawing_fld_blanking (s : State) : s.thawing.fld F.FRZ_STATUS_BLANKING = 1 :=
  fld_setFld_self _ _ _ (by decide) (by decide)

theorem thawing_logged (s : State) : Logged s s.thawing := by
  have hregs := ((Logged.refl s).setFld F.FRZ_STATUS_STATE 3 (by decide)).setFld F.FRZ_STATUS_BLANKING 1 (by decide)
  refine hregs.trans ⟨fun p hp => ?_, fun _ _ => rfl, ?_, rfl⟩
  · cases p <;> simp [logParts, State.same, State.thawing] at hp ⊢
  · simp [State.thawing]

/-- What every thaw that begins shows. -/
structure ThawBegun (s t : State) : Prop where
  state : t.fld F.FRZ_STATUS_STATE = 3
  blanking : t.fld F.FRZ_STATUS_BLANKING = 1
  drive : t.pwr.freezeDrive = false
  pending : t.frz.thawPending = 0
  parts : OnlyIn logParts s t

theorem thawStart_begun (s : State) (src : Nat) : ThawBegun s (s.thawStart src) := by
  have hheld : FreezeHeld s.thawing (s.thawStart src) := log_held (by rw [thawing_fld_state]; decide) ..
  exact ⟨(hheld.fld (by decide)).trans (thawing_fld_state s), (hheld.fld (by decide)).trans (thawing_fld_blanking s),
    by rw [hheld.pwr]; rfl, by rw [hheld.frz]; rfl, ((thawing_logged s).trans (log_logged ..)).parts⟩

theorem ThawBegun.of_logged {s u t : State} (h : ThawBegun u t) (hu : Logged s u) : ThawBegun s t :=
  ⟨h.state, h.blanking, h.drive, h.pending, hu.parts.trans h.parts⟩

/-! ### FREEZE_STATIC (R743, R751) -/

/-- The state in which the freeze has become static. -/
def State.frozenStatic (s : State) : State :=
  (s.setFld F.FRZ_STATUS_STATE 2).setFld F.FRZ_LAST_LOCAL_NS (min (s.clk - s.frz.reqClk) 2047)

theorem frozenStatic_frz (s : State) : s.frozenStatic.frz = s.frz := by rw [State.frozenStatic, setFld_frz, setFld_frz]

theorem exec_freezeStatic {s : State} (h : s.fld F.FRZ_STATUS_STATE = 1) : exec .freezeStatic s = .next
    (if s.frz.thawPending = 0 then s.frozenStatic else s.frozenStatic.thawStart s.frz.thawPending) := by
  have hcond : ¬ s.fld F.FRZ_STATUS_STATE ≠ 1 := not_not_intro h
  rw [← frozenStatic_frz s]
  exact congrArg Host.Outcome.next (if_neg hcond)

theorem freezeStatic_stays {s : State} (h : s.fld F.FRZ_STATUS_STATE = 1) (hnone : s.frz.thawPending = 0) :
    Ends .freezeStatic s (fun t => t.fld F.FRZ_STATUS_STATE = 2 ∧
      t.fld F.FRZ_LAST_LOCAL_NS = min (s.clk - s.frz.reqClk) 2047 ∧ OnlyIn [.regs] s t) := by
  have hfit : min (s.clk - s.frz.reqClk) 2047 < 2 ^ 11 := Nat.lt_of_le_of_lt (Nat.min_le_right ..) (by decide)
  refine ⟨s.frozenStatic, by rw [exec_freezeStatic h, if_pos hnone], ?_, fld_setFld_fits _ (by decide) (by decide) hfit, ?_⟩
  · rw [State.frozenStatic, fld_setFld_ne (h := by decide)]
    exact fld_setFld_self _ _ _ (by decide) (by decide)
  · exact (setReg_onlyIn s _ _).trans (setReg_onlyIn _ _ _)

theorem freezeStatic_thaws {s : State} (h : s.fld F.FRZ_STATUS_STATE = 1) (hwait : s.frz.thawPending ≠ 0) :
    Ends .freezeStatic s (fun t => t.fld F.FRZ_STATUS_STATE = 3 ∧ t.fld F.FRZ_STATUS_BLANKING = 1 ∧
      t.pwr.freezeDrive = false ∧ t.frz.thawPending = 0 ∧ OnlyIn logParts s t) := by
  have hstatic : Logged s s.frozenStatic :=
    ((Logged.refl s).setFld F.FRZ_STATUS_STATE _ (by decide)).setFld F.FRZ_LAST_LOCAL_NS _ (by decide)
  have hthaw := (thawStart_begun s.frozenStatic s.frz.thawPending).of_logged hstatic
  exact ⟨_, (exec_freezeStatic h).trans (congrArg _ (if_neg hwait)), hthaw.state, hthaw.blanking, hthaw.drive, hthaw.pending,
    hthaw.parts⟩

/-! ### THAW_SYMBOL (R681, R748) -/

theorem thawReq_waits {s : State} (h : s.fld F.FRZ_STATUS_STATE = 1) (src : Nat) :
    (s.thawReq src).frz.thawPending = src ∧ (s.thawReq src).fld F.FRZ_STATUS_STATE = 1 ∧ (s.thawReq src).pwr = s.pwr := by
  rw [State.thawReq, if_neg (by rw [h]; decide), if_pos h]
  exact ⟨rfl, h, rfl⟩

section ThawSymbol
variable {p : Nat} {b : List Byte} {s : State} (hok : symOk 0x0A b = true) (htap : s.portState p ≠ 2)
  (hnew : s.ewb.seenFreeze.contains (0x0A, leAt b 2 2 % 512, leAt b 4 1) = false)
include hok htap hnew

theorem exec_thawSymbol_new : exec (.thawSymbol p b) s = .next ((s.frzForwarded p 0x0A b).thawReq 3) := by
  change execThawSymbol p b s = _
  simp only [execThawSymbol, onSymbol_ok hok, heardOn_of_not_tap htap, if_neg htap, forwardFrz_new hnew, if_true]

theorem thawSymbol_frozen (hstate : s.fld F.FRZ_STATUS_STATE = 2) : Ends (.thawSymbol p b) s (fun t =>
    t.fld F.FRZ_STATUS_STATE = 3 ∧ t.fld F.FRZ_STATUS_BLANKING = 1 ∧ t.pwr.freezeDrive = false ∧ OnlyIn logParts s t) := by
  have hstate' : (s.frzForwarded p 0x0A b).fld F.FRZ_STATUS_STATE = 2 :=
    (frzForwarded_fld_low s p _ b rfl (by decide)).trans hstate
  have hthaw := (thawStart_begun (s.frzForwarded p 0x0A b) 3).of_logged (frzForwarded_logged s p _ b)
  refine ⟨_, (exec_thawSymbol_new hok htap hnew).trans (congrArg _ (if_pos hstate')), hthaw.state, hthaw.blanking,
    hthaw.drive, hthaw.parts⟩

theorem thawSymbol_waits (hstate : s.fld F.FRZ_STATUS_STATE = 1) : Ends (.thawSymbol p b) s (fun t =>
    t.frz.thawPending = 3 ∧ t.fld F.FRZ_STATUS_STATE = 1 ∧ t.pwr = s.pwr) := by
  have hstate' : (s.frzForwarded p 0x0A b).fld F.FRZ_STATUS_STATE = 1 :=
    (frzForwarded_fld_low s p _ b rfl (by decide)).trans hstate
  obtain ⟨hpending, hstays, hpwr⟩ := thawReq_waits hstate' 3
  exact ⟨_, exec_thawSymbol_new hok htap hnew, hpending, hstays, hpwr.trans (frzForwarded_pwr s p _ b)⟩

end ThawSymbol

/-! ### BLANKING_END (R749) -/

/-- The state in which the blanking is over and the level of FREEZE_N is noted. -/
def State.unblanked (s : State) (low : Bool) : State :=
  { s.setFld F.FRZ_STATUS_BLANKING 0 with pwr := { s.pwr with freezeIn := low } }

theorem unblanked_fld (s : State) (low : Bool) (f : Fld) :
    (s.unblanked low).fld f = (s.setFld F.FRZ_STATUS_BLANKING 0).fld f := rfl

theorem unblanked_fld_blanking (s : State) (low : Bool) : (s.unblanked low).fld F.FRZ_STATUS_BLANKING = 0 :=
  fld_setFld_zero s (by decide) (by decide)

theorem unblanked_fld_state (s : State) (low : Bool) :
    (s.unblanked low).fld F.FRZ_STATUS_STATE = s.fld F.FRZ_STATUS_STATE := by
  rw [unblanked_fld, fld_setFld_beside (h := by decide)]

theorem exec_blankingEnd {low : Bool} {s : State} (h : s.bit F.FRZ_STATUS_BLANKING = true) :
    exec (.blankingEnd low) s = .next (if low ∧ s.fld F.FRZ_STATUS_STATE = 0 then
      ((s.unblanked low).bump F.FRZ_CNT_REFREEZE_COUNT).freezeReq 1 false else s.unblanked low) := by
  rw [← unblanked_fld_state s low]
  exact congrArg Host.Outcome.next (if_neg (by rw [h]; decide))

/-- The new freeze at the end of the blanking. -/
theorem refreeze_begun {s : State} (hrun : s.frozen = false) (low : Bool) :
    FreezeBegun 1 (s.unblanked low) (((s.unblanked low).bump F.FRZ_CNT_REFREEZE_COUNT).freezeReq 1 false) := by
  have hrun' : ((s.unblanked low).bump F.FRZ_CNT_REFREEZE_COUNT).frozen = false := by
    rw [State.frozen, fld_bump_ne (h := by decide), unblanked_fld_state]
    exact hrun
  have hbegun := freezeReq_begun (src := 1) (by decide) hrun' false
  exact ⟨hbegun.state, hbegun.source, hbegun.drive, by rw [hbegun.clk, bump_clk], by rw [hbegun.pwr, bump_pwr]⟩

theorem refreeze_fld {s : State} (hrun : s.frozen = false) (low : Bool) :
    (((s.unblanked low).bump F.FRZ_CNT_REFREEZE_COUNT).freezeReq 1 false).fld F.FRZ_STATUS_BLANKING = 0 ∧
    (((s.unblanked low).bump F.FRZ_CNT_REFREEZE_COUNT).freezeReq 1 false).fld F.FRZ_CNT_REFREEZE_COUNT =
      min (s.fld F.FRZ_CNT_REFREEZE_COUNT + 1) (2 ^ 32 - 1) := by
  have hstate : ((s.unblanked low).bump F.FRZ_CNT_REFREEZE_COUNT).fld F.FRZ_STATUS_STATE = 0 := by
    rw [fld_bump_ne (h := by decide), unblanked_fld_state]
    simpa [State.frozen] using hrun
  have hheld := freezeReq_begins hstate 1 false
  constructor
  · rw [hheld.fld (by decide), freezeMark_fld_beside (hf := by decide), fld_bump_ne (h := by decide),
      unblanked_fld_blanking]
  · rw [hheld.fld (by decide), freezeMark_fld_ne (hs := by decide) (hc := by decide),
      fld_bump_self (h := by decide) (h32 := by decide), unblanked_fld, fld_setFld_ne (h := by decide)]
    rfl

theorem blankingEnd_ends {low : Bool} {s : State} (h : s.bit F.FRZ_STATUS_BLANKING = true) :
    Ends (.blankingEnd low) s (fun t => t.fld F.FRZ_STATUS_BLANKING = 0 ∧ t.pwr.freezeIn = low ∧
      (low = true → s.frozen = false → t.fld F.FRZ_STATUS_STATE = 1 ∧ t.fld F.FRZ_STATUS_SOURCE = 1 ∧
        t.pwr.freezeDrive = true ∧ t.fld F.FRZ_CNT_REFREEZE_COUNT = min (s.fld F.FRZ_CNT_REFREEZE_COUNT + 1) (2 ^ 32 - 1)) ∧
      (low = false → OnlyIn [.regs, .pwr] s t)) := by
  refine ⟨_, exec_blankingEnd h, ?_⟩
  by_cases hagain : low = true ∧ s.fld F.FRZ_STATUS_STATE = 0
  · have hrun : s.frozen = false := by rw [State.frozen, hagain.2]; rfl
    have hbegun := refreeze_begun hrun low
    obtain ⟨hblank, hcount⟩ := refreeze_fld hrun low
    rw [if_pos hagain]
    exact ⟨hblank, by rw [hbegun.pwr]; rfl, fun _ _ => ⟨hbegun.state, hbegun.source, hbegun.drive, hcount⟩,
      fun hlow => absurd hlow (by rw [hagain.1]; decide)⟩
  · rw [if_neg hagain]
    refine ⟨unblanked_fld_blanking s low, rfl, fun hlow hrun => absurd ⟨hlow, by simpa [State.frozen] using hrun⟩ hagain,
      fun _ => ?_⟩
    intro p hp
    cases p <;> simp [State.same, State.unblanked] at hp ⊢

/-! ### What closing the frames of a thaw leaves alone (R633) -/

/-- The freeze controller's registers and every slice's clearing are as before. -/
structure Steady (s t : State) : Prop where
  regs : KeepsRegs FreezeReg s t
  clearing : ∀ n, (t.slice n).clearing = (s.slice n).clearing

namespace Steady

theorem refl (s : State) : Steady s s := ⟨.refl s, fun _ => rfl⟩

theorem trans {s t u : State} (h : Steady s t) (k : Steady t u) : Steady s u :=
  ⟨h.regs.trans k.regs, fun n => (k.clearing n).trans (h.clearing n)⟩

theorem of_eq {s t : State} (hregs : t.regs = s.regs) (hslices : t.slices = s.slices) : Steady s t :=
  ⟨(KeepsRegs.refl s).of_regs hregs, fun n => by rw [State.slice, hslices, State.slice]⟩

theorem of_kept {s t : State} {P : Nat} (h : Kept P s t) (hregs : P.testBit Part.regs.bit = false)
    (hslices : P.testBit Part.slices.bit = false) : Steady s t := of_eq (h.regs_eq hregs) (h.slices hslices)

theorem setFld (s : State) {f : Fld} (hf : ¬ FreezeReg f.addr) (v : Nat) : Steady s (s.setFld f v) :=
  ⟨(KeepsRegs.refl s).setFld hf v, fun n => by rw [State.slice, setFld_slices, State.slice]⟩

theorem bump (s : State) {f : Fld} (hf : ¬ FreezeReg f.addr) : Steady s (s.bump f) := setFld s hf _

theorem modSlice (s : State) (n : Nat) {f : Slice → Slice} (hf : ∀ x, (f x).clearing = x.clearing) :
    Steady s (s.modSlice n f) := by
  refine ⟨(KeepsRegs.refl s).of_regs rfl, fun m => ?_⟩
  by_cases hm : m = n
  · subst hm; rw [slice_modSlice_self, hf]
  · rw [slice_modSlice_ne _ _ hm]

theorem ite {c : Prop} [Decidable c] {s t u : State} (ht : Steady s t) (hu : Steady s u) :
    Steady s (if c then t else u) := by
  split <;> assumption

theorem foldl {β : Type} {l : List β} {g : State → β → State} (hg : ∀ u, ∀ b ∈ l, Steady u (g u b)) (s : State) :
    Steady s (l.foldl g s) := by
  induction l generalizing s with
  | nil => exact refl s
  | cons b l ih =>
    exact (hg s b List.mem_cons_self).trans (ih (fun u c hc => hg u c (List.mem_cons_of_mem _ hc)) _)

end Steady

theorem loadPinned_steady (s : State) (n g : Nat) : Steady s (s.loadPinned n g) :=
  .of_kept (loadPinned_kept (P := 65536) s n g (Kept.refl s) (by decide)) (by decide) (by decide)

theorem mapApply_steady (s : State) (n g v : Nat) : Steady s (s.mapApply n g v) := by
  unfold State.mapApply
  dsimp only
  split
  · split
    next f _ =>
      refine Steady.trans ?_ (loadPinned_steady _ n g)
      refine Steady.trans ?_ (Steady.modSlice _ n (fun _ => rfl))
      exact .of_kept (takeFrame_kept (P := 65536) s f _ (Kept.refl s) (by decide)) (by decide) (by decide)
    next => exact .refl s
  · split
    · refine Steady.trans ?_ (Steady.modSlice _ n (fun _ => rfl))
      exact .of_kept (setFrame_kept (P := 65536) s _ _ (Kept.refl s) (by decide)) (by decide) (by decide)
    · refine Steady.trans ?_ (loadPinned_steady _ n g)
      exact Steady.modSlice s n (fun _ => rfl)

theorem mapStore_steady (s : State) (n g v : Nat) : Steady s (s.mapStore n g v) := by
  unfold State.mapStore
  refine Steady.ite (mapApply_steady s n g v) ?_
  refine Steady.trans ?_ (Steady.bump (f := F.MEM_CNT_MAP_REJECT_COUNT) _ (by decide))
  exact Steady.modSlice s n (fun _ => rfl)

theorem invStart_steady (s : State) (n cnt : Nat) : Steady s (s.invStart n cnt) := by
  unfold State.invStart
  exact Steady.ite (Steady.modSlice s n (fun _ => rfl))
    (Steady.ite (Steady.modSlice s n (fun _ => rfl)) (Steady.modSlice s n (fun _ => rfl)))

theorem ctrlStore_steady (s : State) (n o : Nat) (bs : List Byte) : Steady s (s.ctrlStore n o bs) := by
  have hmisuse : Steady s (s.mapMisuse n) := Steady.modSlice s n (fun _ => rfl)
  unfold State.ctrlStore
  exact Steady.ite (Steady.ite (mapStore_steady s n _ _) (Steady.ite (Steady.modSlice s n (fun _ => rfl))
    (Steady.ite (invStart_steady s n _) hmisuse))) hmisuse

theorem memPut_steady (s : State) (agent n a : Nat) (bs : List Byte) : Steady s (s.memPut agent n a bs) := by
  unfold State.memPut
  split
  next o _ => exact ctrlStore_steady s n o bs
  next =>
    refine Steady.foldl (fun u b _ => ?_) s
    have hkept : Kept 6442516480 u ((u.dpaPut b.1 b.2).setPoison b.1 0) :=
      setPoison_kept _ _ _ (dpaPut_kept _ _ _ (Kept.refl u) (by decide)) (by decide)
    exact .of_kept hkept (by decide) (by decide)

theorem ioPut_steady (s : State) (d x : Nat) (bs : List Byte) : Steady s (s.ioPut d x bs) := memPut_steady s _ _ _ bs

theorem ioCount_steady (s : State) (d x k : Nat) : Steady s (s.ioCount d x k) :=
  Steady.ite (Steady.bump s (by decide)) (ioPut_steady s d x _)

theorem convStatus_steady (s : State) (d c bits : Nat) : Steady s (s.convStatus d c bits) :=
  Steady.ite (Steady.bump s (by decide)) (ioPut_steady s d _ _)

theorem modConv_steady (s : State) (d c : Nat) (f : Conv → Conv) : Steady s (s.modConv d c f) := .of_eq rfl rfl

theorem convRead_steady (s : State) (d c : Nat) : Steady s (s.convRead d c).1 := by
  unfold State.convRead
  split
  · exact .refl s
  split
  · exact Steady.bump s (by decide)
  dsimp only
  generalize hu : (if (s.conv d c).kind = _ then s else _) = u
  have hmod : Steady s u := hu ▸ Steady.ite (.refl s) (modConv_steady s d c _)
  split
  · exact hmod
  · exact Steady.ite hmod (hmod.trans (convStatus_steady u d c 2))

theorem modDie_steady (s : State) (d : Nat) (f : CampDie → CampDie) : Steady s (s.modDie d f) := .of_eq rfl rfl

theorem modPort18_steady (s : State) (d j : Nat) (f : SnsPort → SnsPort) : Steady s (s.modPort18 d j f) := .of_eq rfl rfl

section Tokens
variable {d p : Nat} (hd : d < 2) (hp : p < 32)
include hd hp

theorem not_freezeReg_drop : ¬ FreezeReg (F.CMP_DROP_COUNT d p).addr := by
  simp only [FreezeReg, R.CMP_DROP]; omega

theorem dropped_steady (s : State) : Steady s (if s.cmpVf d = 0 then s.bump (F.CMP_DROP_COUNT d p)
    else (s.bump (F.CMP_DROP_COUNT d p)).modDie d (fun y => { y with drops := sat32 (y.drops + 1) })) := by
  have hbump : Steady s (s.bump (F.CMP_DROP_COUNT d p)) := Steady.bump s (not_freezeReg_drop hd hp)
  exact Steady.ite hbump (hbump.trans (modDie_steady _ _ _))

theorem ingress_steady (s : State) (t : Tok) : Steady s (s.ingress d p t) := by
  unfold State.ingress
  exact Steady.ite (modDie_steady _ _ _) (dropped_steady hd hp s)

theorem feed_steady (s : State) (t : Tok) : Steady s (s.feed d p t) :=
  Steady.ite (ingress_steady hd hp s t) (dropped_steady hd hp s)

theorem feedAt_steady (s : State) (addr var delay weight : Nat) : Steady s (s.feedAt d p addr var delay weight) := by
  have hdrawn : Steady s s.drawn := .of_eq rfl rfl
  exact Steady.ite (feed_steady hd hp s _) (hdrawn.trans (feed_steady hd hp _ _))

end Tokens

theorem eventPixel_steady {d c : Nat} (hd : d < 2) (hc : c < 8) (s : State) (b pd : List Byte) (px : Nat → Nat) (i : Nat) :
    Steady s (s.eventPixel d c b pd px i) := by
  have hput : ∀ pol weight, Steady s ((s.ioPut d (leAt b 0x24 4 + 2 * i) (leBytes 2 (px i))).feedAt d (16 + c)
      (eventIdx pd (i % leAt pd 4 2) (i / leAt pd 4 2) pol) (leAt b 1 1) (leAt b 2 1) weight) := fun pol weight =>
    (ioPut_steady s d _ _).trans (feedAt_steady hd (by omega) _ _ _ _ _)
  unfold State.eventPixel
  exact Steady.ite (hput 1 _) (Steady.ite (hput 0 _) (.refl s))

/-- One EVENT_IN converter's run. -/
theorem eventConv_steady {d c : Nat} (hd : d < 2) (hc : c < 8) (s : State) (j status base size : Nat) (b pd : List Byte) :
    Steady s (if leAt b 0 1 ≠ 3 || leAt b 0x22 1 != j || !tst (leAt pd 0 1) 0 then s
    else if !s.snsFeeds d || tst status 4 || tst status 5 then s.convDrop d c
    else if s.ioBad d base (leAt pd 4 2 * leAt pd 6 2 * size) false || s.ioBad d (leAt b 0x24 4)
        (2 * (leAt pd 4 2 * leAt pd 6 2)) true then (s.bump F.SNS_CNT_ADDR_COUNT).convStatus d c 1
    else if (s.conv d c).ref then
      (List.range (leAt pd 4 2 * leAt pd 6 2)).foldl
        (fun u i => u.eventPixel d c b pd (fun i => s.ioLe d (base + size * i) size) i) s
    else ((List.range (leAt pd 4 2 * leAt pd 6 2)).foldl (fun u i => u.ioPut d (leAt b 0x24 4 + 2 * i)
        (leBytes 2 (s.ioLe d (base + size * i) size))) s).modConv d c (fun x => { x with ref := true })) := by
  refine Steady.ite (.refl s) (Steady.ite (ioCount_steady s d _ _) (Steady.ite ?_ (Steady.ite ?_ ?_)))
  · exact (Steady.bump s (by decide)).trans (convStatus_steady _ d c 1)
  · exact Steady.foldl (fun u i _ => eventPixel_steady hd hc u b pd _ i) s
  · exact (Steady.foldl (fun u i _ => ioPut_steady u d _ _) s).trans (modConv_steady _ d c _)

theorem eventIn_steady {d : Nat} (hd : d < 2) (s : State) (j status base size : Nat) :
    Steady s (s.eventIn d j status base size) :=
  Steady.foldl (fun u c hc => (convRead_steady u d c).trans
    (eventConv_steady hd (List.mem_range.mp hc) (u.convRead d c).1 j status base size (u.convRead d c).2 (s.portDesc d j))) s

theorem closeFrame_steady {d j : Nat} (hd : d < 2) (hj : j < 8) (s : State) (truncated : Bool) :
    Steady s (s.closeFrame d j truncated) := by
  have hport : ∀ u : State, Steady u ((u.modPort18 d j (fun p => { p with frame := none })).setFld
      (F.SNS_PORT_STATUS_IN_FRAME d j) 0) := fun u =>
    (modPort18_steady u d j _).trans (Steady.setFld (f := F.SNS_PORT_STATUS_IN_FRAME d j) _ (by
      simp only [FreezeReg, R.SNS_PORT_STATUS]; omega) 0)
  unfold State.closeFrame
  split
  · exact .refl s
  next f hf =>
    dsimp only
    generalize hu : (s.modPort18 d j (fun p => { p with frame := none })).setFld (F.SNS_PORT_STATUS_IN_FRAME d j) 0 = u
    have hopen : Steady s u := hu ▸ hport s
    have hfill : ∀ (bad whole : Bool) (a : Nat) (bs : List Byte), Steady s (if bad then u.bump F.SNS_CNT_ADDR_COUNT
        else if whole then u else u.ioPut d a bs) := fun bad whole a bs =>
      hopen.trans (Steady.ite (Steady.bump u (by decide)) (Steady.ite (.refl u) (ioPut_steady u d a bs)))
    have hhead : ∀ (bad whole : Bool) (a : Nat) (bs hdr head : List Byte), Steady s (State.ioPut (State.ioPut
        (if bad then u.bump F.SNS_CNT_ADDR_COUNT else if whole then u else u.ioPut d a bs) d f.at_ hdr) d (64 * j + 0x20) head) :=
      fun bad whole a bs hdr head =>
        ((hfill bad whole a bs).trans (ioPut_steady _ d _ hdr)).trans (ioPut_steady _ d _ head)
    refine Steady.ite ((hfill _ _ _ _).trans (Steady.bump _ (by decide))) (Steady.ite (hhead _ _ _ _ _ _) ?_)
    exact (hhead _ _ _ _ _ _).trans (eventIn_steady hd _ _ _ _ _)

/-! ### THAW_RESUME (R748, R750) -/

/-- The state in which issue resumes, before the frames are closed. -/
def State.resumed (s : State) : State :=
  (s.setFld F.FRZ_STATUS_STATE 0).setFld F.FRZ_LAST_US_US ((s.clk - s.frz.reqClk) / 1000)

/-- The frames in progress at the resumption are closed as truncated. -/
def State.framesClosed (s : State) : State :=
  (List.range 16).foldl (fun s i => s.closeFrame (i / 8) (i % 8) true) s.resumed

theorem framesClosed_steady (s : State) : Steady s.resumed s.framesClosed :=
  Steady.foldl (fun u i hi => closeFrame_steady (by have := List.mem_range.mp hi; omega) (by omega) u true) s.resumed

theorem framesClosed_kept (s : State) : Kept 6482378753 s s.framesClosed := by
  have hresumed : Kept 6482378753 s s.resumed := setFld_kept (setFld_kept (Kept.refl s) _ _ (by decide)) _ _ (by decide)
  have hfold : ∀ (l : List Nat) (u : State), Kept 6482378753 s u →
      Kept 6482378753 s (l.foldl (fun s i => s.closeFrame (i / 8) (i % 8) true) u) := by
    intro l
    induction l with
    | nil => exact fun u hu => hu
    | cons i l ih => exact fun u hu => ih _ (closeFrame_kept u _ _ _ hu (by decide))
  exact hfold _ _ hresumed

theorem thawClears_of_none {s : State} (h : ∀ n, tst (s.slice n).clearing 4 = false) : s.thawClears = s := by
  have hfold : ∀ l : List Nat, l.foldl (fun s n =>
      if tst (s.slice n).clearing 4 then
        (s.stopSlice n).modSlice n (fun x => { x with clearing := putBit x.clearing 4 false })
      else s) s = s := by
    intro l
    induction l with
    | nil => rfl
    | cons n l ih => rw [List.foldl_cons, if_neg (by rw [h n]; decide), ih]
  exact hfold vfs

theorem Kept.waitPerst {P : Nat} {s t : State} (h : Kept P s t) (hP : P.testBit Part.boot.bit = false) :
    t.boot.waitPerst = s.boot.waitPerst := by
  have hsame : ({ t.boot with stepFrozen := false } : Boot) = { s.boot with stepFrozen := false } := h.parts .boot hP
  have hwait := congrArg Boot.waitPerst hsame
  exact hwait

section Resume
variable {s : State} (hstate : s.fld F.FRZ_STATUS_STATE = 3) (hinject : s.flt.injectDue = false)
  (hwait : s.boot.waitPerst = false) (hclear : ∀ n, tst (s.slice n).clearing 4 = false)
include hstate hinject hwait hclear

theorem exec_thawResume : exec .thawResume s = .next s.framesClosed := by
  have hkept := framesClosed_kept s
  have hflt : s.framesClosed.flt = s.flt := hkept.parts .flt (by decide)
  have hboot : s.framesClosed.boot.waitPerst = s.boot.waitPerst := hkept.waitPerst (by decide)
  have hslices : s.resumed.slices = s.slices := by rw [State.resumed, setFld_slices, setFld_slices]
  have hnone : s.framesClosed.thawClears = s.framesClosed := thawClears_of_none fun n => by
    rw [(framesClosed_steady s).clearing, State.slice, hslices]
    exact hclear n
  have hnot : ¬ s.fld F.FRZ_STATUS_STATE ≠ 3 := not_not_intro hstate
  have hexec : exec .thawResume s = .next (
      let u := s.framesClosed.thawClears
      let v := if u.boot.waitPerst && !u.pwr.perst then u.beginStep 3 else u
      if v.flt.injectDue then
        ({ v with flt := { v.flt with injectDue := false } } : State).uncontained 0x8F 0xFFFF 0xFF true false
      else v) := congrArg Host.Outcome.next (if_neg hnot)
  rw [hexec, hnone]
  simp [hboot, hwait, hflt, hinject]

theorem thawResume_ends : Ends .thawResume s (fun t => t.fld F.FRZ_STATUS_STATE = 0 ∧
    t.fld F.FRZ_LAST_US_US = (s.clk - s.frz.reqClk) / 1000 % 2 ^ 32) := by
  have hsteady := framesClosed_steady s
  refine ⟨_, exec_thawResume hstate hinject hwait hclear, (hsteady.regs.fld (by decide)).trans ?_,
    (hsteady.regs.fld (by decide)).trans ?_⟩
  · rw [State.resumed, fld_setFld_ne (h := by decide), fld_setFld_zero _ (by decide) (by decide)]
  · exact fld_setFld_self _ F.FRZ_LAST_US_US _ (by decide) (by decide)

end Resume

/-- Settles O19: FREEZE_STATIC and the thaw's start, its resumption, and the end of its blanking. -/
theorem thawsRelease : Obligations.ThawsRelease :=
  ⟨fun _ => freezeStatic_stays, fun _ => freezeStatic_thaws, fun _ h => congrArg Host.Outcome.next (if_pos h),
    fun _ _ _ _ hok htap hnew => ⟨thawSymbol_frozen hok htap hnew, thawSymbol_waits hok htap hnew⟩,
    fun _ => thawResume_ends, fun _ h => congrArg Host.Outcome.next (if_pos h), fun _ _ => blankingEnd_ends,
    fun _ _ h => congrArg Host.Outcome.next (if_pos (by rw [h]; rfl))⟩

end Sys2Proof.Machine
end

section
/-! SUPPORT. A RAW line of no pixels (R633): it stores no byte, yet where its row lies in the control window the store of nothing
is recorded there as a MISUSE of the slice (R348), so that the line does not leave the slices alone. -/

namespace Sys2Proof.Machine

variable {s v : State} {d j o : Nat} {f : Frame}

/-- The rows of the frame in progress are RAW8 and hold no byte; the next of them lies in the control window of the VF that the
die is granted to. -/
structure EmptyRow (v : State) (d : Nat) (f : Frame) (o : Nat) : Prop where
  raw8 : f.dt = 0x2A
  width : f.width = 0
  missing : f.lines < f.height
  clean : f.status = 0
  granted : v.fld (F.SNS_GRANT_VF d) ≠ 0
  ctrl : ctrlOffset (v.ioAddr d (f.at_ + 64)) = some o

theorem EmptyRow.ioBad (h : EmptyRow v d f o) (a : Nat) : v.ioBad d a 0 true = false := by
  simp [State.ioBad, h.granted, State.memCheck, addrs]

/-- The line is counted in its frame, and the store of its row, which has no byte, counts a MISUSE. -/
theorem exec_rawLinePacket_empty (hgo : s.packet d j = (v, true)) (hframe : (v.snsPort d j).frame = some f)
    (hrow : EmptyRow v d f o) : exec (.rawLinePacket d j f.vc 0x2A [] true) s =
      .next ((v.modPort18 d j (fun p => { p with frame := some { f with lines := f.lines + 1 } })).mapMisuse
        (v.fld (F.SNS_GRANT_VF d))) := by
  have hstore : ∀ g, (v.modPort18 d j g).ioPut d (f.at_ + 64) [] =
      (v.modPort18 d j g).mapMisuse (v.fld (F.SNS_GRANT_VF d)) := fun g => memPut_nil_of_ctrl hrow.ctrl
  change execRawLinePacket d j f.vc 0x2A [] true s = _
  have hwhole : tst 0 6 = false := by decide
  have hmissing : ¬ f.height ≤ f.lines := Nat.not_le.mpr hrow.missing
  simp [execRawLinePacket, hgo, hframe, hrow.raw8, hrow.width, hrow.clean, rawPixels, hmissing, hrow.ioBad, hstore, hwhole]

/-! ### The counterexample -/

/-- A RAW8 frame of virtual channel 0, one row high and no pixel wide, whose slot ends where the control window begins. -/
def frameOfNothing : Frame :=
  { vc := 0, at_ := 0xFF0000000000 - 0x10000000000 - 64, width := 0, height := 1, dt := 0x2A, head := 0, tick := 0, tai := 0,
    num := 0, startClk := 0, lines := 0, status := 0 }

/-- A running part whose sensor die 0 is usable and granted to VF 7, with that frame in progress on its enabled port 0. -/
def receivingNothing : State :=
  { ((((State.reset.setFld F.SNS_STATUS_USABLE0 1).setFld (F.SNS_GRANT_VF 0) 7).setFld (F.SNS_PORT_CTRL_ENABLE 0 0) 1).setFld
      (F.SNS_PORT_STATUS_PWR_ON 0 0) 1) with
    pwr := { State.reset.pwr with mode := .on }, sns := { ports := [(0, { frame := some frameOfNothing })] } }

/-- That part, once the packet has been noted on its port. -/
def receivingNoted : State := (receivingNothing.packet 0 0).1

theorem receivingNothing_packet : receivingNothing.packet 0 0 = (receivingNoted, true) :=
  Prod.ext rfl (by decide)

theorem receivingNoted_frame : (receivingNoted.snsPort 0 0).frame = some frameOfNothing := by decide

theorem receivingNoted_emptyRow : EmptyRow receivingNoted 0 frameOfNothing 0 :=
  ⟨rfl, rfl, by decide, rfl, by decide, by decide⟩

theorem receivingNoted_slices : receivingNoted.slices = receivingNothing.slices := rfl

/-- Refutes O58, in its clause on RAW_LINE_PACKET: a frame of width 0 meets every premise, as its row has no byte that could not
be written, but with its slot at the control window the line counts a MISUSE of the slice, and the clause lets no slice
change. The model's `State.memPut` stores the empty list there; the clause would need a width of at least 1, as Table 18-3
has it. -/
theorem not_campionAndSensorsWork : ¬ Obligations.CampionAndSensorsWork := by
  unfold Obligations.CampionAndSensorsWork
  rintro ⟨-, -, -, -, -, -, hports, -⟩
  obtain ⟨-, -, hlines, -⟩ := hports 0 0 0 0 0x2A [] [] true receivingNothing receivingNoted (by decide) (by decide)
  obtain ⟨hline, -⟩ := hlines frameOfNothing _ 0 receivingNothing_packet receivingNoted_frame rfl rfl rfl
  obtain ⟨t, hexec, -, -, honly⟩ := hline rfl (by decide) rfl rfl rfl (receivingNoted_emptyRow.ioBad _)
  have hmisuse := exec_rawLinePacket_empty receivingNothing_packet receivingNoted_frame receivingNoted_emptyRow
  injection hmisuse.symm.trans hexec with ht
  have hsame : t.slices = receivingNothing.slices := honly .slices (by decide)
  exact mapMisuse_slices_ne _ _ (ht ▸ hsame)

end Sys2Proof.Machine
end

section
/-! SUPPORT. Rules for the state of Ewebin's ports: what a port reads after it or another is set, which registers the ports'
states and the window stand in, and what logging, sending and the tap's note leave of them. -/

namespace Sys2Proof.Machine

variable (s : State) {p q : Nat}

/-! ### A port's own state -/

@[simp] theorem port_setPort_self (p : Nat) (x : Port) : (s.setPort p x).port p = x := fget_fset_self _ _ _ _

theorem port_setPort_ne (x : Port) (h : q ≠ p) : (s.setPort p x).port q = s.port q := fget_fset_ne _ _ _ _ _ h

theorem setPort_regs (p : Nat) (x : Port) : (s.setPort p x).regs = s.regs := rfl

theorem port_congr {s t : State} (h : t.ewb.ports = s.ewb.ports) (p : Nat) : t.port p = s.port p := by
  rw [State.port, h, State.port]

@[simp] theorem port_setFld (f : Fld) (v p : Nat) : (s.setFld f v).port p = s.port p := port_congr (by rw [setFld_ewb]) p

@[simp] theorem port_goPort (p st q : Nat) : (s.goPort p st).port q = s.port q := port_setFld s _ _ _

@[simp] theorem port_bump (f : Fld) (p : Nat) : (s.bump f).port p = s.port p := port_setFld s _ _ _

@[simp] theorem port_addFld (f : Fld) (n p : Nat) : (s.addFld f n).port p = s.port p := port_setFld s _ _ _

theorem port_sendOn (ps : List Nat) (sym : List Byte) (p : Nat) : (s.sendOn ps sym).port p = s.port p := by
  rw [sendOn_eq]; rfl

theorem port_log (code sev vf unit arg16 arg p : Nat) : (s.log code sev vf unit arg16 arg).port p = s.port p := by
  have hlinks : LinksKept s (s.log code sev vf unit arg16 arg) := log_links ..
  exact port_congr (by rw [hlinks]) p

theorem setFld_frozen_ne {f : Fld} (h : F.FRZ_STATUS_STATE.addr ≠ f.addr) (v : Nat) : (s.setFld f v).frozen = s.frozen := by
  rw [State.frozen, fld_setFld_ne _ _ _ _ h, State.frozen]

/-! ### A port's STATE -/

theorem portState_of_regs {s t : State} (h : t.regs = s.regs) (p : Nat) : t.portState p = s.portState p := fld_of_regs h _

theorem portState_goPort_self {st : Nat} (h : st < 16) : (s.goPort p st).portState p = st :=
  fld_setFld_fits s (by simp) (by simp) h

theorem portState_setFld_ne (f : Fld) (v : Nat) (h : f.addr ≠ R.EWB_P_STATUS p) :
    (s.setFld f v).portState p = s.portState p := fld_setFld_ne s f _ v (Ne.symm h)

theorem portState_setFld_beside (f : Fld) (v : Nat)
    (h : f.addr = R.EWB_P_STATUS p ∧ 3 < f.lo ∧ f.lo ≤ f.hi ∧ f.hi < 32) : (s.setFld f v).portState p = s.portState p :=
  fld_setFld_beside s f _ v ⟨h.1.symm, h.2.2.1, h.2.2.2, .inl h.2.1⟩

theorem portState_goPort_ne {st : Nat} (h : q ≠ p) : (s.goPort p st).portState q = s.portState q :=
  portState_setFld_ne s _ _ (by simp only [R.EWB_P_STATUS]; omega)

/-- The registers of the domain, which come before the ports' own: EWB_STATUS, the pending window, and the counts. -/
abbrev DomainReg (a : Nat) : Prop := 0x800000 ≤ a ∧ a < 0x801000

theorem portState_setFld_domain (f : Fld) (v p : Nat) (h : DomainReg f.addr) :
    (s.setFld f v).portState p = s.portState p :=
  portState_setFld_ne s f v (by simp only [R.EWB_P_STATUS]; omega)

theorem portState_bump_domain (f : Fld) (p : Nat) (h : DomainReg f.addr) : (s.bump f).portState p = s.portState p :=
  portState_setFld_domain s f _ p h

theorem portState_setPair_domain (lo hi v p : Nat) (hlo : DomainReg lo) (hhi : DomainReg hi) :
    (s.setPair lo hi v).portState p = s.portState p := by
  refine fld_setPair_ne s lo hi v _ ?_ ?_ <;> simp only [R.EWB_P_STATUS] <;> omega

theorem portState_log (hp : p < 16) (code sev vf unit arg16 arg : Nat) :
    (s.log code sev vf unit arg16 arg).portState p = s.portState p :=
  log_fld s code sev vf unit arg16 arg _ (by simp only [R.EWB_P_STATUS]; omega)

/-! ### The insertion and the pending window -/

theorem KeepsRegs.insertion {s t : State} (h : KeepsRegs DomainReg s t) : t.insertion = s.insertion := h.fld (by decide)

theorem KeepsRegs.bypReady {s t : State} (h : KeepsRegs DomainReg s t) : t.bypReady = s.bypReady := by
  rw [State.bypReady, State.bit, h.fld (by decide)]; rfl

theorem KeepsRegs.pendingW {s t : State} (h : KeepsRegs DomainReg s t) : t.pendingW = s.pendingW := by
  rw [State.pendingW, State.pair, h _ (by decide), h _ (by decide)]; rfl

theorem not_domainReg_port {a : Nat} (h : 0x801000 ≤ a) : ¬ DomainReg a := fun hd => Nat.not_lt.mpr h hd.2

theorem goPort_domain (p st : Nat) : KeepsRegs DomainReg s (s.goPort p st) :=
  (KeepsRegs.refl s).setFld (not_domainReg_port (by simp only [R.EWB_P_STATUS]; omega)) _

theorem log_domain (code sev vf unit arg16 arg : Nat) : KeepsRegs DomainReg s (s.log code sev vf unit arg16 arg) :=
  (KeepsRegs.refl s).log (fun a ha => by unfold OffRecorder; omega) _ _ _ _ _ _

/-! ### What a command touches -/

theorem Kept.only_regs {s t : State} (h : Kept 1 s t) : OnlyIn [.regs] s t := h.onlyIn (fun p => by cases p <;> decide)
theorem Kept.only_ewb {s t : State} (h : Kept 128 s t) : OnlyIn [.ewb] s t := h.onlyIn (fun p => by cases p <;> decide)
theorem Kept.only_regsEwb {s t : State} (h : Kept 129 s t) : OnlyIn [.regs, .ewb] s t :=
  h.onlyIn (fun p => by cases p <;> decide)
theorem Kept.only_regsOut {s t : State} (h : Kept 67108865 s t) : OnlyIn [.regs, .out] s t :=
  h.onlyIn (fun p => by cases p <;> decide)
theorem Kept.only_ewbOut {s t : State} (h : Kept 67108992 s t) : OnlyIn [.ewb, .out] s t :=
  h.onlyIn (fun p => by cases p <;> decide)
theorem Kept.only_regsEwbOut {s t : State} (h : Kept 67108993 s t) : OnlyIn [.regs, .ewb, .out] s t :=
  h.onlyIn (fun p => by cases p <;> decide)

/-! ### A symbol heard on a tap (R672) -/

theorem heardOn_regs (p : Nat) : (s.heardOn p).regs = s.regs := by
  unfold State.heardOn; split <;> rfl

theorem heardOn_port (p : Nat) :
    (s.heardOn p).port p = { s.port p with stream := s.portState p == 2 || (s.port p).stream } := by
  unfold State.heardOn
  split
  next h => rw [port_setPort_self, h]; rfl
  next h => rw [show (s.portState p == 2) = false from beq_eq_false_iff_ne.mpr h, Bool.false_or]

theorem heardOn_winAt (p : Nat) : (s.heardOn p).ewb.winAt = s.ewb.winAt := by
  unfold State.heardOn; split <;> rfl

theorem heardOn_out (p : Nat) : (s.heardOn p).out = s.out := by
  unfold State.heardOn; split <;> rfl

theorem heardOn_portState (p q : Nat) : (s.heardOn p).portState q = s.portState q :=
  portState_of_regs (heardOn_regs s p) q

/-! ### Bad symbols (R655) -/

theorem onSymbol_bad {type : Nat} {b : List Byte} (h : symOk type b = false) (act : State → State) :
    s.onSymbol p type b act = s.symBad p := if_neg (by rw [h]; decide)

theorem symBad_counts {cmd : Instr} (h : exec cmd s = .next (s.symBad p)) : Ends cmd s (fun t => OnlyIn [.regs] s t ∧
    t.fld (F.EWB_P_CNT_SYM_BAD_COUNT p) = min (s.fld (F.EWB_P_CNT_SYM_BAD_COUNT p) + 1) (2 ^ 32 - 1) ∧
    t.fld F.EWB_CNT_SYM_BAD_COUNT = min (s.fld F.EWB_CNT_SYM_BAD_COUNT + 1) (2 ^ 32 - 1)) := by
  have happart : (F.EWB_P_CNT_SYM_BAD_COUNT p).addr ≠ F.EWB_CNT_SYM_BAD_COUNT.addr := by
    simp only [R.EWB_P_CNT_SYM_BAD, R.EWB_CNT_SYM_BAD]; omega
  refine ⟨_, h, (symBad_kept s p (Kept.refl s) (by decide)).only_regs, ?_, ?_⟩
  · rw [State.symBad, fld_bump_ne _ _ _ happart]
    exact fld_bump_self s _ (by simp) (by simp)
  · rw [State.symBad, fld_bump_self _ _ (by decide) (by decide), fld_bump_ne _ _ _ happart.symm]
    rfl

/-- Every command that takes a symbol discards one that is not well formed. -/
theorem badSymbol_counts {type : Nat} {b : List Byte} {cmd : Instr} (hbad : symOk type b = false)
    (hcmd : (type, cmd) ∈ [(0x01, Instr.credit p b), (0x02, .ack p b), (0x03, .nak p b), (0x07, .delayReq p b 0),
      (0x08, .delayResp p b 0), (0x0C, .announce p b), (0x0D, .pause p b), (0x0E, .drained p b), (0x10, .trainHello p b 0)]) :
    Ends cmd s (fun t => OnlyIn [.regs] s t ∧
      t.fld (F.EWB_P_CNT_SYM_BAD_COUNT p) = min (s.fld (F.EWB_P_CNT_SYM_BAD_COUNT p) + 1) (2 ^ 32 - 1) ∧
      t.fld F.EWB_CNT_SYM_BAD_COUNT = min (s.fld F.EWB_CNT_SYM_BAD_COUNT + 1) (2 ^ 32 - 1)) := by
  refine symBad_counts s ?_
  simp only [List.mem_cons, Prod.mk.injEq, List.not_mem_nil, or_false] at hcmd
  rcases hcmd with ⟨rfl, rfl⟩ | ⟨rfl, rfl⟩ | ⟨rfl, rfl⟩ | ⟨rfl, rfl⟩ | ⟨rfl, rfl⟩ | ⟨rfl, rfl⟩ | ⟨rfl, rfl⟩ | ⟨rfl, rfl⟩ |
    ⟨rfl, rfl⟩ <;> exact congrArg Host.Outcome.next (onSymbol_bad s hbad _)

end Sys2Proof.Machine
end

section
/-! SUPPORT. Flits, credits, replay and the delay measurement of an Ewebin port (R654 to R663, R670). -/

namespace Sys2Proof.Machine

variable {s : State} {p : Nat} {b : List Byte}

theorem sendOn_one_out (s : State) (p : Nat) (sym : List Byte) : (s.sendOn [p] sym).out = .symbol p sym :: s.out := by
  rw [sendOn_eq]; rfl

/-! ### FLIT_RECEIVE (R654, R658, R661, R662) -/

theorem exec_flitReceive_idle (f : Flit) (ok : Bool) (corr unc : Nat)
    (h : s.frozen = true ∨ (s.portState p ≠ 4 ∧ s.portState p ≠ 5)) : exec (.flitReceive p f ok corr unc) s = .next s :=
  congrArg Host.Outcome.next (if_pos (.inr h))

/-- The state with the FEC counts of a flit taken. -/
def State.fecCounted (s : State) (p corr unc : Nat) : State :=
  (s.addFld (F.EWB_P_CNT_FEC_CORR_COUNT p) corr).addFld (F.EWB_P_CNT_FEC_UNCORR_COUNT p) unc

theorem fecCounted_port (p corr unc q : Nat) : (s.fecCounted p corr unc).port q = s.port q := by
  rw [State.fecCounted, port_addFld, port_addFld]

theorem fecCounted_out (p corr unc : Nat) : (s.fecCounted p corr unc).out = s.out := by
  rw [State.fecCounted, addFld_out, addFld_out]

theorem fecCounted_kept (p corr unc : Nat) : Kept 1 s (s.fecCounted p corr unc) :=
  addFld_kept (addFld_kept (Kept.refl s) _ _ (by decide)) _ _ (by decide)

/-- The registers that a flit's path depends on: the ports' STATUS and the module's own position. -/
def RouteReg (a : Nat) : Prop := a < 0x801000 ∨ ∃ q, a = R.EWB_P_STATUS q

theorem fecCounted_route (p corr unc : Nat) : KeepsRegs RouteReg s (s.fecCounted p corr unc) := by
  refine ((KeepsRegs.refl s).addFld ?_ corr).addFld ?_ unc
  · rintro (h | ⟨q, h⟩)
    · simp only [R.EWB_P_CNT_FEC_CORR] at h; omega
    · simp only [R.EWB_P_CNT_FEC_CORR, R.EWB_P_STATUS] at h; omega
  · rintro (h | ⟨q, h⟩)
    · simp only [R.EWB_P_CNT_FEC_UNCORR] at h; omega
    · simp only [R.EWB_P_CNT_FEC_UNCORR, R.EWB_P_STATUS] at h; omega

theorem sendNak_ends {cmd : Instr} {u : State} (hkept : Kept 1 s u) (hsame : u.port p = s.port p) (hout : u.out = s.out)
    (hexec : exec cmd s = .next (u.sendNak p)) : Ends cmd s (fun t =>
      t.out = .symbol p (symbolOf 0x03 (0 :: leBytes 2 (s.port p).rxSeq)) :: s.out ∧ OnlyIn [.regs, .out] s t) := by
  have honly := (sendNak_kept u p (hkept.mono (by decide)) (by decide)).only_regsOut
  refine ⟨_, hexec, ?_, honly⟩
  rw [State.sendNak, sendOn_one_out, hsame, hout]

theorem setPort_out (s : State) (p : Nat) (x : Port) : (s.setPort p x).out = s.out := rfl

theorem setPort_inbox (s : State) (p : Nat) (x : Port) : (s.setPort p x).ewb.inbox = s.ewb.inbox := rfl

theorem sendOn_inbox (s : State) (ps : List Nat) (sym : List Byte) : (s.sendOn ps sym).ewb.inbox = s.ewb.inbox := by
  rw [sendOn_eq]

theorem sendOn_regs (s : State) (ps : List Nat) (sym : List Byte) : (s.sendOn ps sym).regs = s.regs := by
  rw [sendOn_eq]

/-- The state in which a flit in order has been accepted and acknowledged. -/
def State.flitAccepted (s : State) (p : Nat) (f : Flit) (corr unc : Nat) : State :=
  ((s.fecCounted p corr unc).setPort p { (s.fecCounted p corr unc).port p with rxSeq := (f.seq + 1) % 4096 }).sendOn [p]
    (symbolOf 0x02 (0 :: leBytes 2 f.seq))

theorem flitAccepted_kept (p : Nat) (f : Flit) (corr unc : Nat) : Kept 67108993 s (s.flitAccepted p f corr unc) :=
  sendOn_kept _ _ _ (setPort_kept _ _ _ ((fecCounted_kept p corr unc).mono (by decide)) (by decide)) (by decide)

theorem flitAccepted_out (p : Nat) (f : Flit) (corr unc : Nat) :
    (s.flitAccepted p f corr unc).out = .symbol p (symbolOf 0x02 (0 :: leBytes 2 f.seq)) :: s.out := by
  rw [State.flitAccepted, sendOn_one_out, setPort_out, fecCounted_out]

theorem flitAccepted_rxSeq (p : Nat) (f : Flit) (corr unc : Nat) :
    ((s.flitAccepted p f corr unc).port p).rxSeq = (f.seq + 1) % 4096 := by
  rw [State.flitAccepted, port_sendOn, port_setPort_self]

theorem flitAccepted_port_ne {q : Nat} (f : Flit) (corr unc : Nat) (h : q ≠ p) :
    (s.flitAccepted p f corr unc).port q = s.port q := by
  rw [State.flitAccepted, port_sendOn, port_setPort_ne _ _ h, fecCounted_port]

theorem flitAccepted_inbox (p : Nat) (f : Flit) (corr unc : Nat) :
    (s.flitAccepted p f corr unc).ewb.inbox = s.ewb.inbox := by
  have hewb : (s.fecCounted p corr unc).ewb = s.ewb := (fecCounted_kept p corr unc).parts .ewb (by decide)
  rw [State.flitAccepted, sendOn_inbox, setPort_inbox, hewb]

theorem flitAccepted_route (p : Nat) (f : Flit) (corr unc : Nat) : KeepsRegs RouteReg s (s.flitAccepted p f corr unc) :=
  (fecCounted_route p corr unc).of_regs (by rw [State.flitAccepted, sendOn_regs, setPort_regs])

/-! ### Where an accepted flit goes -/

/-- A flit passed on takes the next VC of its class where the hop crosses the dateline (R662). -/
def State.hopped (s : State) (p : Nat) (f : Flit) : Flit :=
  let crossing := crosses (posOf s.address (portRing p)) (posOf (s.peer (opposite p)) (portRing p)) (p % 2 == 1)
  { f with vc := if f.vc % 2 = 0 ∧ crossing = true then f.vc + 1 else f.vc }

theorem KeepsRegs.address {t : State} (h : KeepsRegs RouteReg s t) : t.address = s.address := by
  rw [State.address, h _ (.inl (by decide)), State.address]

theorem KeepsRegs.peer {t : State} (h : KeepsRegs RouteReg s t) (q : Nat) : t.peer q = s.peer q := h.fld (.inr ⟨q, rfl⟩)

theorem KeepsRegs.portState {t : State} (h : KeepsRegs RouteReg s t) (q : Nat) : t.portState q = s.portState q :=
  h.fld (.inr ⟨q, rfl⟩)

theorem KeepsRegs.ringSize {t : State} (h : KeepsRegs RouteReg s t) (ring : Nat) : t.ringSize ring = s.ringSize ring := by
  simp only [State.ringSize, State.ySize, h.fld (f := F.EWB_DOMAIN_Y_SIZE) (.inl (by decide))]

theorem KeepsRegs.hopped {t : State} (h : KeepsRegs RouteReg s t) (p : Nat) (f : Flit) : t.hopped p f = s.hopped p f := by
  simp only [State.hopped, h.address, h.peer]

/-- The flit has been delivered here. -/
def State.delivered (s : State) (p : Nat) (f : Flit) : State :=
  { s with ewb := { s.ewb with inbox := s.ewb.inbox ++ [(p, f)] } }

theorem delivered_inbox (s : State) (p : Nat) (f : Flit) : (s.delivered p f).ewb.inbox = s.ewb.inbox ++ [(p, f)] := rfl
theorem delivered_port (s : State) (p : Nat) (f : Flit) (q : Nat) : (s.delivered p f).port q = s.port q := rfl
theorem delivered_out (s : State) (p : Nat) (f : Flit) : (s.delivered p f).out = s.out := rfl

theorem delivered_kept {P : Nat} {t : State} {f : Flit} (h : Kept P s t) (hP : allows 128 P = true) :
    Kept P s (t.delivered p f) := by
  rw [State.delivered]
  exact h.set_ewb _ hP

theorem routeFlit_own {f : Flit} (h : f.dst = posOf s.address (portRing p)) :
    s.routeFlit p f = (s.delivered p f).freeEntry p f.vc := if_pos h

theorem routeFlit_onward {f : Flit} (hown : f.dst ≠ posOf s.address (portRing p))
    (hbetween : strictlyBetween (s.ringSize (portRing p)) (posOf (s.peer p) (portRing p)) (posOf s.address (portRing p)) f.dst
      (p % 2 == 1) = false) :
    s.routeFlit p f = s.queueFlit (opposite p) p (s.hopped p f) := by
  have hpassed : ¬ strictlyBetween (s.ringSize (portRing p)) (posOf (s.peer p) (portRing p)) (posOf s.address (portRing p))
      f.dst (p % 2 == 1) = true := by rw [hbetween]; decide
  exact (if_neg hown).trans (if_neg hpassed)

theorem opposite_ne (p : Nat) : opposite p ≠ p := by
  unfold opposite; split <;> omega

theorem drainTxq_closed (h : s.portState p ≠ 4) (n : Nat) : drainTxq p n s = s := by
  cases n
  case zero => rfl
  case succ n =>
    unfold drainTxq
    split
    · rfl
    · exact if_neg (fun hopen => h hopen.1)

theorem queueFlit_closed (p q : Nat) (f : Flit) (h : s.portState p ≠ 4) :
    s.queueFlit p q f = s.setPort p { s.port p with txq := (s.port p).txq ++ [(q, f)] } := by
  have hclosed : (s.setPort p { s.port p with txq := (s.port p).txq ++ [(q, f)] }).portState p ≠ 4 := h
  exact drainTxq_closed hclosed _

theorem freeEntry_rxSeq (s : State) (p vc : Nat) : ((s.freeEntry p vc).port p).rxSeq = (s.port p).rxSeq := by
  unfold State.freeEntry
  split
  · rfl
  · rw [port_sendOn, port_setPort_self]

theorem freeEntry_port_ne {q : Nat} (vc : Nat) (h : q ≠ p) : (s.freeEntry p vc).port q = s.port q := by
  unfold State.freeEntry
  split
  · rfl
  · rw [port_sendOn, port_setPort_ne _ _ h]

theorem freeEntry_inbox (s : State) (p vc : Nat) : (s.freeEntry p vc).ewb.inbox = s.ewb.inbox := by
  unfold State.freeEntry
  split
  · rfl
  · rw [sendOn_eq]; rfl

theorem freeEntry_out_mem {o : Output} (vc : Nat) (h : o ∈ s.out) : o ∈ (s.freeEntry p vc).out :=
  (freeEntry_kept (P := 67108992) s p vc (Kept.refl s) (by decide)).mem_out h

section Received
variable {f : Flit} {corr unc : Nat} (hport : p < 16) (hrun : s.frozen = false) (hup : s.portState p = 4 ∨ s.portState p = 5)
include hport hrun hup

theorem exec_flitReceive (ok : Bool) : exec (.flitReceive p f ok corr unc) s = .next (
    let u := s.fecCounted p corr unc
    if !ok then (if u.bit (F.EWB_P_STATUS_ENCRYPTED p) then u.bump (F.EWB_P_CNT_TAG_FAIL_COUNT p) else u).sendNak p
    else if f.kind = 0 then u
    else if f.seq ≠ (u.port p).rxSeq then u.sendNak p
    else ((u.setPort p { u.port p with rxSeq := (f.seq + 1) % 4096 }).sendOn [p]
      (symbolOf 0x02 (0 :: leBytes 2 f.seq))).routeFlit p f) := by
  have hlive : ¬ (16 ≤ p ∨ s.frozen = true ∨ (s.portState p ≠ 4 ∧ s.portState p ≠ 5)) := by
    rw [hrun]; simp; omega
  exact congrArg Host.Outcome.next (if_neg hlive)

theorem flitReceive_nak {ok : Bool} (hbad : ok = false ∨ (f.kind ≠ 0 ∧ f.seq ≠ (s.port p).rxSeq)) :
    Ends (.flitReceive p f ok corr unc) s (fun t =>
      t.out = .symbol p (symbolOf 0x03 (0 :: leBytes 2 (s.port p).rxSeq)) :: s.out ∧ OnlyIn [.regs, .out] s t) := by
  have hcounted : (s.fecCounted p corr unc).port p = s.port p := fecCounted_port p corr unc p
  have hexec := exec_flitReceive (f := f) (corr := corr) (unc := unc) hport hrun hup ok
  cases ok
  case false =>
    have hkept : ∀ c : Bool, Kept 1 s (if c then (s.fecCounted p corr unc).bump (F.EWB_P_CNT_TAG_FAIL_COUNT p)
        else s.fecCounted p corr unc) := fun c => by
      cases c
      · exact fecCounted_kept p corr unc
      · exact bump_kept (fecCounted_kept p corr unc) _ (by decide)
    refine sendNak_ends (hkept _) ?_ ?_ hexec
    · split
      · rw [port_bump, hcounted]
      · exact hcounted
    · split
      · rw [bump_out, fecCounted_out]
      · exact fecCounted_out p corr unc
  case true =>
    obtain ⟨hkind, hseq⟩ := hbad.resolve_left (by decide)
    rw [← hcounted] at hseq
    simp only [Bool.not_true, Bool.false_eq_true, if_false, if_neg hkind, if_pos hseq] at hexec
    exact sendNak_ends (fecCounted_kept p corr unc) hcounted (fecCounted_out p corr unc) hexec

theorem exec_flitReceive_accepted (hkind : f.kind ≠ 0) (hseq : f.seq = (s.port p).rxSeq) :
    exec (.flitReceive p f true corr unc) s = .next ((s.flitAccepted p f corr unc).routeFlit p f) := by
  have hexec := exec_flitReceive (f := f) (corr := corr) (unc := unc) hport hrun hup true
  have hseq' : ¬ f.seq ≠ ((s.fecCounted p corr unc).port p).rxSeq := by rw [fecCounted_port]; exact not_not_intro hseq
  simp only [Bool.not_true, Bool.false_eq_true, if_false, if_neg hkind, if_neg hseq'] at hexec
  rw [State.flitAccepted]
  exact hexec

theorem flitReceive_delivers (hkind : f.kind ≠ 0) (hseq : f.seq = (s.port p).rxSeq)
    (hown : f.dst = posOf s.address (portRing p)) : Ends (.flitReceive p f true corr unc) s (fun t =>
      t.ewb.inbox = s.ewb.inbox ++ [(p, f)] ∧ (t.port p).rxSeq = (f.seq + 1) % 4096 ∧
      .symbol p (symbolOf 0x02 (0 :: leBytes 2 f.seq)) ∈ t.out ∧ (∀ q, q ≠ p → t.port q = s.port q) ∧
      OnlyIn [.regs, .ewb, .out] s t) := by
  have hroute : (s.flitAccepted p f corr unc).routeFlit p f = State.freeEntry (State.delivered
      (s.flitAccepted p f corr unc) p f) p f.vc :=
    routeFlit_own (hown.trans (by rw [(flitAccepted_route p f corr unc).address]))
  have hkept : Kept 67108993 s ((s.flitAccepted p f corr unc).delivered p f) :=
    delivered_kept (flitAccepted_kept p f corr unc) (by decide)
  refine ⟨_, (exec_flitReceive_accepted hport hrun hup hkind hseq).trans (congrArg _ hroute), ?_, ?_, ?_, ?_,
    (freeEntry_kept _ p f.vc hkept (by decide)).only_regsEwbOut⟩
  · rw [freeEntry_inbox, delivered_inbox, flitAccepted_inbox]
  · rw [freeEntry_rxSeq, delivered_port, flitAccepted_rxSeq]
  · exact freeEntry_out_mem _ (by rw [delivered_out, flitAccepted_out]; exact List.mem_cons_self)
  · intro q hq
    rw [freeEntry_port_ne _ hq, delivered_port, flitAccepted_port_ne f corr unc hq]

theorem flitReceive_forwards {g : Flit} (hkind : f.kind ≠ 0) (hseq : f.seq = (s.port p).rxSeq)
    (hown : f.dst ≠ posOf s.address (portRing p))
    (hbetween : strictlyBetween (s.ringSize (portRing p)) (posOf (s.peer p) (portRing p)) (posOf s.address (portRing p)) f.dst
      (p % 2 == 1) = false) (hclosed : s.portState (opposite p) ≠ 4)
    (hg : g = s.hopped p f) :
    Ends (.flitReceive p f true corr unc) s (fun t =>
      (t.port (opposite p)).txq = (s.port (opposite p)).txq ++ [(p, g)] ∧ (t.port p).rxSeq = (f.seq + 1) % 4096 ∧
      t.out = .symbol p (symbolOf 0x02 (0 :: leBytes 2 f.seq)) :: s.out ∧ OnlyIn [.regs, .ewb, .out] s t) := by
  subst hg
  have hroute := flitAccepted_route (s := s) p f corr unc
  have hqueued := routeFlit_onward (s := s.flitAccepted p f corr unc) (p := p) (f := f) (by rwa [hroute.address])
    (by rwa [hroute.ringSize, hroute.peer, hroute.address])
  rw [queueFlit_closed _ _ _ (by rwa [hroute.portState]), hroute.hopped] at hqueued
  refine ⟨_, (exec_flitReceive_accepted hport hrun hup hkind hseq).trans (congrArg _ hqueued), ?_, ?_, ?_,
    (setPort_kept _ _ _ (flitAccepted_kept p f corr unc) (by decide)).only_regsEwbOut⟩
  · rw [port_setPort_self, flitAccepted_port_ne f corr unc (opposite_ne p)]
  · rw [port_setPort_ne _ _ (opposite_ne p).symm, flitAccepted_rxSeq]
  · rw [setPort_out, flitAccepted_out]

end Received

end Sys2Proof.Machine
end

section
/-! SUPPORT. The symbols that a port answers or acts on alone: CREDIT, ACK, NAK, DELAY_REQ, DELAY_RESP, PAUSE, TRAIN HELLO and
TRAIN KEY (Table 19-4). -/

namespace Sys2Proof.Machine

variable {s : State} {p : Nat} {b : List Byte}

theorem emitAll_out (s : State) (os : List Output) : (s.emitAll os).out = os.reverse ++ s.out := by rw [emitAll_eq]

theorem port_emitAll (s : State) (os : List Output) (q : Nat) : (s.emitAll os).port q = s.port q := by
  rw [emitAll_eq]; rfl

/-! ### CREDIT (R657) -/

/-- The counts that a CREDIT carries. -/
def creditOf (b : List Byte) : List Nat := [leAt b 2 2, leAt b 4 2, leAt b 6 2, leAt b 8 2]

/-- The state in which the counts of a CREDIT have been taken. -/
def State.credited (s : State) (p : Nat) (b : List Byte) : State :=
  s.setPort p { s.port p with creditRx := creditOf b }

theorem exec_credit (h : symOk 0x01 b = true) : exec (.credit p b) s =
    .next (drainTxq p (((s.heardOn p).credited p b).port p).txq.length ((s.heardOn p).credited p b)) :=
  congrArg Host.Outcome.next (onSymbol_ok h s p _)

theorem credit_idle (h : symOk 0x01 b = true) (hempty : (s.port p).txq = []) : Ends (.credit p b) s (fun t =>
    OnlyIn [.ewb] s t ∧ t.port p = { (s.heardOn p).port p with creditRx := creditOf b }) := by
  have hnone : (((s.heardOn p).credited p b).port p).txq = [] := by
    rw [State.credited, port_setPort_self, heardOn_port, hempty]
  refine ⟨_, exec_credit h, ?_, ?_⟩
  · rw [hnone]
    exact (setPort_kept _ _ _ (heardOn_kept s p (Kept.refl s) (by decide)) (by decide)).only_ewb
  · rw [hnone]
    exact port_setPort_self _ _ _

theorem freeEntry_own (s : State) (vc : Nat) : s.freeEntry 16 vc = s := if_pos (Nat.le_refl 16)

theorem sendFlit_port (s : State) (p : Nat) (f : Flit) : (s.sendFlit p f).port p = { s.port p with
    txSeq := ((s.port p).txSeq + 1) % 4096, replay := (s.port p).replay ++ [{ f with seq := (s.port p).txSeq }]
    sentVc := (s.port p).sentVc.set f.vc (((s.port p).sentVc.getD f.vc 0 + 1) % 65536) } :=
  port_setPort_self _ _ _

theorem sendFlit_out (s : State) (p : Nat) (f : Flit) :
    (s.sendFlit p f).out = .flit p { f with seq := (s.port p).txSeq } :: s.out := rfl

/-- The one flit that waits is sent when the port is UP and holds a credit for it. -/
theorem drainTxq_one {f : Flit} (hwait : (s.port p).txq = [(16, f)]) (hup : s.portState p = 4)
    (hmay : (s.port p).maySend f.vc = true) (hrun : s.frozen = false) :
    drainTxq p 1 s = (s.setPort p { s.port p with txq := [] }).sendFlit p f := by
  have hgo : s.portState p = 4 ∧ (s.port p).maySend f.vc = true ∧ ¬ s.frozen = true := ⟨hup, hmay, by rw [hrun]; decide⟩
  rw [drainTxq]
  simp only [hwait, if_pos hgo, drainTxq, freeEntry_own]

theorem credit_sends {f : Flit} {x : Port} (h : symOk 0x01 b = true) (hwait : (s.port p).txq = [(16, f)])
    (hup : s.portState p = 4) (hrun : s.frozen = false) (hx : x = { s.port p with creditRx := creditOf b })
    (hmay : x.maySend f.vc = true) : Ends (.credit p b) s (fun t =>
      t.out = .flit p { f with seq := x.txSeq } :: s.out ∧ (t.port p).txq = [] ∧
      (t.port p).replay = x.replay ++ [{ f with seq := x.txSeq }] ∧ (t.port p).txSeq = (x.txSeq + 1) % 4096 ∧
      OnlyIn [.ewb, .out] s t) := by
  have hport : (s.credited p b).port p = x := by rw [State.credited, port_setPort_self, hx]
  have hwait' : ((s.credited p b).port p).txq = [(16, f)] := by rw [hport, hx]; exact hwait
  have hexec := exec_credit (s := s) (p := p) h
  rw [heardOn_of_not_tap (by rw [hup]; decide), hwait', List.length_singleton,
    drainTxq_one hwait' hup (by rw [hport]; exact hmay) hrun, hport] at hexec
  have hkept : Kept 67108992 s ((s.credited p b).setPort p { x with txq := [] }) :=
    setPort_kept _ _ _ (setPort_kept s p _ (Kept.refl s) (by decide)) (by decide)
  refine ⟨_, hexec, ?_, ?_, ?_, ?_, (sendFlit_kept _ _ _ hkept (by decide)).only_ewbOut⟩
  · rw [sendFlit_out, port_setPort_self]; rfl
  · rw [sendFlit_port, port_setPort_self]
  · rw [sendFlit_port, port_setPort_self]
  · rw [sendFlit_port, port_setPort_self]

/-! ### ACK and NAK (R658, R660) -/

theorem drainCheck_of_not_pausing (h : s.portState p ≠ 5) : s.drainCheck p = s := if_neg (fun hall => h hall.1)

/-- The state in which the flits up to the SEQ that an ACK names have left the replay buffer. -/
def State.acked (s : State) (p : Nat) (b : List Byte) : State :=
  s.setPort p { s.port p with
    replay := (s.port p).replay.filter (fun f => decide (2048 ≤ (leAt b 2 2 % 4096 + 4096 - f.seq) % 4096)), nakRun := 0 }

theorem exec_ack (h : symOk 0x02 b = true) : exec (.ack p b) s = .next ((drainTxq p
    (((s.heardOn p).acked p b).port p).txq.length ((s.heardOn p).acked p b)).drainCheck p) :=
  congrArg Host.Outcome.next (onSymbol_ok h s p _)

theorem ack_ends (h : symOk 0x02 b = true) (hempty : (s.port p).txq = []) (hstate : s.portState p ≠ 5) :
    Ends (.ack p b) s (fun t => OnlyIn [.ewb] s t ∧ t.port p = { (s.heardOn p).port p with
      nakRun := 0
      replay := (s.port p).replay.filter (fun f => decide (2048 ≤ (leAt b 2 2 % 4096 + 4096 - f.seq) % 4096)) }) := by
  have hnone : (((s.heardOn p).acked p b).port p).txq = [] := by
    rw [State.acked, port_setPort_self, heardOn_port]; exact hempty
  have hstate' : ((s.heardOn p).acked p b).portState p ≠ 5 := by
    rw [State.acked, portState_of_regs (setPort_regs _ _ _), heardOn_portState]; exact hstate
  have hexec := exec_ack (s := s) (p := p) h
  rw [hnone, List.length_nil, drainTxq, drainCheck_of_not_pausing hstate'] at hexec
  refine ⟨_, hexec, (setPort_kept _ _ _ (heardOn_kept s p (Kept.refl s) (by decide)) (by decide)).only_ewb, ?_⟩
  rw [State.acked, port_setPort_self, heardOn_port]

/-- How often the SEQ that a NAK names has been NAKed in succession. -/
def Port.nakRunFor (x : Port) (q : Nat) : Nat := if x.nakSeq = q then x.nakRun + 1 else 1

/-- The flits that a NAK asks for again. -/
def Port.resend (x : Port) (q : Nat) : List Flit := x.replay.filter (fun f => decide ((f.seq + 4096 - q) % 4096 < 2048))

/-- The state in which a NAK of SEQ `q` has been noted and the flits to resend counted. -/
def State.naked (s : State) (p q : Nat) : State :=
  (s.setPort p { s.port p with nakSeq := q, nakRun := (s.port p).nakRunFor q }).addFld (F.EWB_P_CNT_REPLAY_COUNT p)
    ((s.port p).resend q).length

theorem naked_port (s : State) (p q : Nat) :
    (s.naked p q).port p = { s.port p with nakSeq := q, nakRun := (s.port p).nakRunFor q } := by
  rw [State.naked, port_addFld, port_setPort_self]

theorem naked_out (s : State) (p q : Nat) : (s.naked p q).out = s.out := by
  rw [State.naked, addFld_out, setPort_out]

theorem naked_kept (s : State) (p q : Nat) : Kept 129 s (s.naked p q) :=
  addFld_kept (setPort_kept s p _ (Kept.refl s) (by decide)) _ _ (by decide)

theorem naked_portState (s : State) (p q : Nat) : (s.naked p q).portState p = s.portState p :=
  portState_setFld_ne _ _ _ (by simp only [R.EWB_P_CNT_REPLAY, R.EWB_P_STATUS]; omega)

theorem naked_frozen (hp : p < 16) (s : State) (q : Nat) : (s.naked p q).frozen = s.frozen :=
  setFld_frozen_ne _ (by simp only [R.EWB_P_CNT_REPLAY, R.FRZ_STATUS]; omega) _

theorem exec_nak (h : symOk 0x03 b = true) : exec (.nak p b) s = .next (
    let u := s.heardOn p
    let q := leAt b 2 2 % 4096
    if 8 ≤ (u.port p).nakRunFor q ∧ ((u.naked p q).portState p = 4 ∨ (u.naked p q).portState p = 5) then (u.naked p q).portFail p
    else if (u.naked p q).frozen then u.naked p q
    else (u.naked p q).emitAll (((u.port p).resend q).map (fun f => .flit p f))) :=
  congrArg Host.Outcome.next (onSymbol_ok h s p _)

theorem heardOn_nakRunFor (s : State) (p q : Nat) : ((s.heardOn p).port p).nakRunFor q = (s.port p).nakRunFor q := by
  rw [heardOn_port]; rfl

theorem heardOn_resend (s : State) (p q : Nat) : ((s.heardOn p).port p).resend q = (s.port p).resend q := by
  rw [heardOn_port]; rfl

theorem heardOn_frozen (s : State) (p : Nat) : (s.heardOn p).frozen = s.frozen := by
  rw [State.frozen, fld_of_regs (heardOn_regs s p), State.frozen]

theorem nak_resends (hp : p < 16) (h : symOk 0x03 b = true) (hrun : (s.port p).nakRunFor (leAt b 2 2 % 4096) < 8)
    (hlive : s.frozen = false) : Ends (.nak p b) s (fun t =>
      t.out = (((s.port p).resend (leAt b 2 2 % 4096)).map (fun f => Output.flit p f)).reverse ++ s.out ∧
      t.port p = { (s.heardOn p).port p with
        nakSeq := leAt b 2 2 % 4096, nakRun := (s.port p).nakRunFor (leAt b 2 2 % 4096) } ∧
      OnlyIn [.regs, .ewb, .out] s t) := by
  have hexec := exec_nak (s := s) (p := p) h
  simp only [heardOn_nakRunFor, heardOn_resend, naked_frozen hp, heardOn_frozen, hlive,
    if_neg (fun hall => Nat.not_le.mpr hrun (And.left hall)), Bool.false_eq_true, if_false] at hexec
  have hkept : Kept 67108993 s ((s.heardOn p).naked p (leAt b 2 2 % 4096)) :=
    (heardOn_kept s p (Kept.refl s) (by decide)).trans ((naked_kept _ p _).mono (by decide))
  refine ⟨_, hexec, ?_, ?_, (emitAll_kept hkept _ (by decide)).only_regsEwbOut⟩
  · rw [emitAll_out, naked_out, heardOn_out]
  · rw [port_emitAll, naked_port, heardOn_nakRunFor]

/-! ### A port that fails (R660, R679) -/

theorem failNotice_eq (s : State) (cause : Nat) (ps : List Nat) (ring port : Nat) : s.failNotice cause ps ring port =
    (({ s with ewb := { s.ewb with
        nextNid := (s.ewb.nextNid + 1) % 256
        seenNotice := ((s.address, s.ewb.nextNid) :: s.ewb.seenNotice).take 256 } } : State).sendOn ps
      (symbolOf 0x0B (leBytes 1 cause ++ leBytes 2 s.address ++ leBytes 1 s.ewb.nextNid ++ leBytes 1 ring ++
        leBytes 1 port))).bump F.EWB_CNT_NOTICE_TX_COUNT := rfl

theorem failNotice_port (s : State) (cause : Nat) (ps : List Nat) (ring port q : Nat) :
    (s.failNotice cause ps ring port).port q = s.port q := by
  rw [failNotice_eq, port_bump, port_sendOn]
  exact port_congr (by rfl) q

theorem failNotice_fld (s : State) (cause : Nat) (ps : List Nat) (ring port : Nat) {f : Fld}
    (h : f.addr ≠ R.EWB_CNT_NOTICE_TX) : (s.failNotice cause ps ring port).fld f = s.fld f := by
  rw [failNotice_eq, fld_bump_ne _ _ _ h]
  exact fld_of_regs (sendOn_regs _ _ _) f

/-- The state in which a port has gone DOWN and its buffers are discarded. -/
def State.portDown (s : State) (p : Nat) : State :=
  ((s.goPort p 6).bump (F.EWB_P_CNT_DOWN_COUNT p)).setPort p { s.port p with replay := [], txq := [], nakRun := 0 }

/-- The ports of the failed port's ring that face the other way. -/
def State.noticePorts (s : State) (p : Nat) : List Nat :=
  s.trainedPorts.filter (fun q => portRing q == portRing p && q % 2 != p % 2)

theorem portFail_eq (s : State) (p : Nat) : s.portFail p =
    ((s.portDown p).log 0x0B01 3 0 (0x0700 + p) 0 0).failNotice 3
      (((s.portDown p).log 0x0B01 3 0 (0x0700 + p) 0 0).noticePorts p) (portRing p) p := by
  have hport : ((s.goPort p 6).bump (F.EWB_P_CNT_DOWN_COUNT p)).port p = s.port p := by rw [port_bump, port_goPort]
  rw [State.portDown, ← hport]
  rfl

theorem portFail_port (s : State) (p : Nat) :
    (s.portFail p).port p = { s.port p with replay := [], txq := [], nakRun := 0 } := by
  rw [portFail_eq, failNotice_port, port_log, State.portDown, port_setPort_self]

/-- Of the ports' own registers a failing port leaves all but its STATE and its count of failures. -/
theorem portFail_fld (s : State) (p : Nat) {f : Fld} (h : 0x801000 ≤ f.addr ∧ f.addr < 0x980000) :
    (s.portFail p).fld f = ((s.goPort p 6).bump (F.EWB_P_CNT_DOWN_COUNT p)).fld f := by
  have hnotice : f.addr ≠ R.EWB_CNT_NOTICE_TX := by simp only [R.EWB_CNT_NOTICE_TX]; omega
  rw [portFail_eq, failNotice_fld _ _ _ _ _ hnotice, log_fld _ _ _ _ _ _ _ _ (.inl h.2), State.portDown]
  exact fld_of_regs (setPort_regs _ _ _) f

theorem portFail_portState (hp : p < 16) (s : State) : (s.portFail p).portState p = 6 := by
  rw [State.portState, portFail_fld s p (by simp only [R.EWB_P_STATUS]; omega),
    fld_bump_ne _ _ _ (by simp only [R.EWB_P_STATUS, R.EWB_P_CNT_DOWN]; omega)]
  exact portState_goPort_self s (by decide)

theorem portFail_downCount (hp : p < 16) (s : State) : (s.portFail p).fld (F.EWB_P_CNT_DOWN_COUNT p) =
    min (s.fld (F.EWB_P_CNT_DOWN_COUNT p) + 1) (2 ^ 32 - 1) := by
  rw [portFail_fld s p (by simp only [R.EWB_P_CNT_DOWN]; omega), fld_bump_self _ _ (by simp) (by simp), State.goPort,
    fld_setFld_ne _ _ _ _ (by simp only [R.EWB_P_STATUS, R.EWB_P_CNT_DOWN]; omega)]
  rfl

theorem portFail_ends {cmd : Instr} {u : State} (hp : p < 16) (hkept : Kept 129 s u) (hexec : exec cmd s = .next (u.portFail p)) :
    Ends cmd s (fun t => t.portState p = 6 ∧ (t.port p).replay = [] ∧ (t.port p).txq = [] ∧ OnlyIn logParts s t) := by
  refine ⟨_, hexec, portFail_portState hp u, ?_, ?_,
    (portFail_kept (P := 872417921) u p (hkept.mono (by decide)) (by decide)).onlyIn (fun q => by cases q <;> decide)⟩
  · rw [portFail_port]
  · rw [portFail_port]

/-- The eighth NAK of one SEQ fails the port. -/
theorem nak_fails (hp : p < 16) (h : symOk 0x03 b = true) (hrun : 8 ≤ (s.port p).nakRunFor (leAt b 2 2 % 4096))
    (hup : s.portState p = 4 ∨ s.portState p = 5) : Ends (.nak p b) s (fun t =>
      t.portState p = 6 ∧ (t.port p).replay = [] ∧ (t.port p).txq = [] ∧ OnlyIn logParts s t) := by
  have hexec := exec_nak (s := s) (p := p) h
  simp only [heardOn_nakRunFor, naked_portState, heardOn_portState, if_pos (And.intro hrun hup)] at hexec
  exact portFail_ends hp ((heardOn_kept s p (Kept.refl s) (by decide)).trans ((naked_kept _ p _).mono (by decide))) hexec

/-! ### DELAY_REQ and DELAY_RESP (R670) -/

theorem exec_delayReq (turn : Nat) (h : symOk 0x07 b = true) : exec (.delayReq p b turn) s =
    .next ((s.heardOn p).sendOn [p] (symbolOf 0x08 (leBytes 1 (leAt b 1 1) ++ leBytes 8 (leAt b 2 8) ++ leBytes 4 turn))) :=
  congrArg Host.Outcome.next (onSymbol_ok h s p _)

theorem delayReq_answers (turn : Nat) (h : symOk 0x07 b = true) : Ends (.delayReq p b turn) s (fun t =>
    OnlyIn [.ewb, .out] s t ∧ t.port p = (s.heardOn p).port p ∧
    t.out = .symbol p (symbolOf 0x08 (leBytes 1 (leAt b 1 1) ++ leBytes 8 (leAt b 2 8) ++ leBytes 4 turn)) :: s.out) := by
  refine ⟨_, exec_delayReq turn h, ?_, port_sendOn _ _ _ p, ?_⟩
  · exact (sendOn_kept _ _ _ (heardOn_kept s p (Kept.refl s) (by decide)) (by decide)).only_ewbOut
  · rw [sendOn_one_out, heardOn_out]

/-- The samples with the one that a DELAY_RESP gives. -/
def Port.sampled (x : Port) (b : List Byte) (t4 : Nat) : List Nat := (t4 - leAt b 2 8 - leAt b 10 4) / 2 :: x.samples

/-- The state in which a delay sample has been taken. -/
def State.sampled (s : State) (p : Nat) (b : List Byte) (t4 : Nat) : State :=
  s.setPort p { s.port p with samples := (s.port p).sampled b t4, awaiting := (s.port p).awaiting - 1 }

theorem exec_delayResp (t4 : Nat) (h : symOk 0x08 b = true) : exec (.delayResp p b t4) s = .next (
    let u := s.heardOn p
    if (u.port p).awaiting = 0 then u
    else if (u.port p).awaiting = 1 then
      (u.sampled p b t4).setFld (F.EWB_P_DELAY_PS p) (mean ((u.port p).sampled b t4))
    else u.sampled p b t4) := congrArg Host.Outcome.next (onSymbol_ok h s p _)

theorem heardOn_awaiting (s : State) (p : Nat) : ((s.heardOn p).port p).awaiting = (s.port p).awaiting := by
  rw [heardOn_port]

theorem heardOn_sampled (s : State) (p : Nat) (b : List Byte) (t4 : Nat) :
    ((s.heardOn p).port p).sampled b t4 = (s.port p).sampled b t4 := by
  rw [heardOn_port]; rfl

theorem delayResp_unasked (t4 : Nat) (h : symOk 0x08 b = true) (hnone : (s.port p).awaiting = 0) :
    Ends (.delayResp p b t4) s (fun t => t = s.heardOn p) :=
  ⟨_, (exec_delayResp t4 h).trans (congrArg _ (if_pos ((heardOn_awaiting s p).trans hnone))), rfl⟩

theorem delayResp_samples (t4 : Nat) (h : symOk 0x08 b = true) (hsome : (s.port p).awaiting ≠ 0) :
    Ends (.delayResp p b t4) s (fun t => (t.port p).samples = (s.port p).sampled b t4 ∧
      (t.port p).awaiting = (s.port p).awaiting - 1 ∧ t.fld (F.EWB_P_DELAY_PS p) =
        (if (s.port p).awaiting = 1 then mean ((s.port p).sampled b t4) % 2 ^ 32 else s.fld (F.EWB_P_DELAY_PS p)) ∧
      OnlyIn [.regs, .ewb] s t) := by
  have hexec := exec_delayResp (s := s) (p := p) t4 h
  have hkept : Kept 129 s ((s.heardOn p).sampled p b t4) :=
    setPort_kept _ _ _ (heardOn_kept s p (Kept.refl s) (by decide)) (by decide)
  simp only [heardOn_awaiting, heardOn_sampled, if_neg hsome] at hexec
  by_cases hlast : (s.port p).awaiting = 1
  case pos =>
    rw [if_pos hlast] at hexec
    refine ⟨_, hexec, ?_, ?_, ?_, (setFld_kept hkept _ _ (by decide)).only_regsEwb⟩
    · rw [port_setFld, State.sampled, port_setPort_self, heardOn_sampled]
    · rw [port_setFld, State.sampled, port_setPort_self, heardOn_awaiting]
    · rw [if_pos hlast, fld_setFld_self _ _ _ (by simp) (by simp)]
      rfl
  case neg =>
    rw [if_neg hlast] at hexec
    refine ⟨_, hexec, ?_, ?_, ?_, hkept.only_regsEwb⟩
    · rw [State.sampled, port_setPort_self, heardOn_sampled]
    · rw [State.sampled, port_setPort_self, heardOn_awaiting]
    · rw [if_neg hlast, State.sampled, fld_of_regs (setPort_regs _ _ _), fld_of_regs (heardOn_regs s p)]

/-! ### TRAIN HELLO and TRAIN KEY (R666, R683) -/

/-- What a port keeps of the peer's TRAIN HELLO. -/
def helloOf (b : List Byte) : List Nat :=
  [leAt b 1 2 % 512, leAt b 3 1, leAt b 4 1, leAt b 5 2, leAt b 7 1, leAt b 8 1, leAt b 9 1 % 2, leAt b 10 1]

/-- The TRAIN HELLO that this end answers with. -/
def State.ownHello (s : State) (p lanes : Nat) : List Byte :=
  symbolOf 0x10 (leBytes 2 s.address ++ leBytes 1 (portSite p) ++ leBytes 1 (portRole p) ++
    leBytes 2 (s.fld F.EWB_DOMAIN_DOMAIN_ID) ++ leBytes 1 s.ySize ++ leBytes 1 (s.fld F.EWB_RACK_RACK_TRAYS) ++
    leBytes 1 (s.fld (F.EWB_P_CTRL_FORCE_CRYPT p)) ++ leBytes 1 lanes)

theorem exec_trainHello (lanes : Nat) (h : symOk 0x10 b = true) : exec (.trainHello p b lanes) s = .next (
    let u := s.heardOn p
    if u.portState p ≠ 3 then u
    else (u.setPort p { u.port p with hello := some (helloOf b) }).sendOn [p] (u.ownHello p lanes)) :=
  congrArg Host.Outcome.next (onSymbol_ok h s p _)

theorem trainHello_answers (lanes : Nat) (h : symOk 0x10 b = true) (htrain : s.portState p = 3) :
    Ends (.trainHello p b lanes) s (fun t => (t.port p).hello = some (helloOf b) ∧
      t.out = .symbol p (s.ownHello p lanes) :: s.out ∧ OnlyIn [.ewb, .out] s t) := by
  have hexec := exec_trainHello (s := s) (p := p) lanes h
  rw [heardOn_of_not_tap (by rw [htrain]; decide)] at hexec
  simp only [htrain, not_true_eq_false, ne_eq, if_false] at hexec
  refine ⟨_, hexec, ?_, ?_, (sendOn_kept _ _ _ (setPort_kept s p _ (Kept.refl s) (by decide)) (by decide)).only_ewbOut⟩
  · rw [port_sendOn, port_setPort_self]
  · rw [sendOn_one_out, setPort_out]

theorem trainHello_elsewhere (lanes : Nat) (h : symOk 0x10 b = true) (hstate : s.portState p ≠ 3) :
    Ends (.trainHello p b lanes) s (fun t => t = s.heardOn p) :=
  ⟨_, (exec_trainHello lanes h).trans (congrArg _ (if_pos (by rwa [heardOn_portState]))), rfl⟩

theorem crc8Bit_lt (c : Nat) : crc8Bit c < 256 := by
  unfold crc8Bit
  split
  · exact Nat.xor_lt_two_pow (n := 8) (Nat.mod_lt _ (by decide)) (by decide)
  · exact Nat.mod_lt _ (by decide)

theorem crc8_lt (l : List Byte) : crc8 l < 256 :=
  List.foldlRecOn l _ (motive := fun c => c < 256) (by decide) (fun _ _ _ _ => crc8Bit_lt _)

theorem leAt_one (l : List Byte) (o : Nat) : leAt l o 1 = (l.getD o 0).toNat := rfl

/-- A symbol that a port makes is well formed. -/
theorem symOk_symbolOf {type : Nat} (htype : type < 256) (body : List Byte) : symOk type (symbolOf type body) = true := by
  have hlen : (BitVec.ofNat 8 type :: fitTo 14 body).length = 15 := by rw [List.length_cons, length_fitTo]
  have htake : (symbolOf type body).take 15 = BitVec.ofNat 8 type :: fitTo 14 body := List.take_left' hlen
  have hlast : (symbolOf type body).getD 15 0 = BitVec.ofNat 8 (crc8 (BitVec.ofNat 8 type :: fitTo 14 body)) := by
    rw [symbolOf, List.getD_append_right _ _ _ _ (Nat.le_of_eq hlen), hlen]
    rfl
  have hcrc : leAt (symbolOf type body) 15 1 = crc8 (BitVec.ofNat 8 type :: fitTo 14 body) := by
    rw [leAt_one, hlast, BitVec.toNat_ofNat, Nat.mod_eq_of_lt (crc8_lt _)]
  have htyp : leAt (symbolOf type body) 0 1 = type := by
    rw [leAt_one]
    exact (BitVec.toNat_ofNat ..).trans (Nat.mod_eq_of_lt htype)
  have hsize : (symbolOf type body).length = 16 := by
    rw [symbolOf, List.length_append, hlen]
    rfl
  rw [symOk, htake, hcrc, htyp, hsize]
  simp

theorem exec_trainKey (hlo : 0x11 ≤ leAt b 0 1) (hhi : leAt b 0 1 ≤ 0x18) (h : symOk (leAt b 0 1) b = true)
    (htrain : s.portState p = 3) : exec (.trainKey p b) s = .next (
      ((s.setPort p { s.port p with
        keyChunks := (leAt b 0 1 - 0x11, sliceOf b 1 14) :: (s.port p).keyChunks }).drawnN 8).sendOn [p]
        (symbolOf (0x11 + (leAt b 0 1 - 0x11))
          (sliceOf (fitTo 96 s.fused.ikPub ++ s.freeBytes 8) (14 * (leAt b 0 1 - 0x11)) 14))) := by
  have hrange : ¬ (leAt b 0 1 < 0x11 ∨ 0x18 < leAt b 0 1) := by omega
  have hheard : s.heardOn p = s := heardOn_of_not_tap (by rw [htrain]; decide)
  refine congrArg Host.Outcome.next ((if_neg hrange).trans ((onSymbol_ok h s p _).trans ?_))
  rw [hheard]
  exact if_neg (not_not_intro htrain)

theorem trainKey_answers (hlo : 0x11 ≤ leAt b 0 1) (hhi : leAt b 0 1 ≤ 0x18) (h : symOk (leAt b 0 1) b = true)
    (htrain : s.portState p = 3) : Ends (.trainKey p b) s (fun t =>
      (t.port p).keyChunks = (leAt b 0 1 - 0x11, sliceOf b 1 14) :: (s.port p).keyChunks ∧
      (∃ sym, t.out = .symbol p sym :: s.out ∧ symOk (leAt b 0 1) sym = true) ∧ OnlyIn [.ewb, .free, .out] s t) := by
  refine ⟨_, exec_trainKey hlo hhi h htrain, ?_, ⟨_, sendOn_one_out _ _ _, ?_⟩, ?_⟩
  · rw [port_sendOn]
    exact congrArg Port.keyChunks (port_setPort_self s p _)
  · rw [show 0x11 + (leAt b 0 1 - 0x11) = leAt b 0 1 by omega]
    exact symOk_symbolOf (by omega) _
  · exact (sendOn_kept (P := 100663424) _ _ _ (drawnN_kept (setPort_kept s p _ (Kept.refl s) (by decide)) 8 (by decide))
      (by decide)).onlyIn (fun q => by cases q <;> decide)

end Sys2Proof.Machine
end

section
/-! SUPPORT. How the states of an Ewebin port follow one another: failures, retries, leg and link training, the element, a
peer's stream and a control write (Table 19-1). -/

namespace Sys2Proof.Machine

variable {s : State} {p : Nat}

/-! ### PORT_FAILED and PORT_RETRY_TIMER -/

theorem portFailed_fails (hp : p < 16)
    (h : s.portState p = 4 ∨ (s.portState p = 5 ∧ ((s.port p).drainTx = false ∨ (s.port p).drainRx = 0))) :
    Ends (.portFailed p) s (fun t => t.portState p = 6 ∧ (t.port p).replay = [] ∧ (t.port p).txq = [] ∧
      t.fld (F.EWB_P_CNT_DOWN_COUNT p) = min (s.fld (F.EWB_P_CNT_DOWN_COUNT p) + 1) (2 ^ 32 - 1) ∧ OnlyIn logParts s t) := by
  have hstays : ¬ (s.portState p = 5 ∧ (s.port p).drainTx = true ∧ (s.port p).drainRx ≠ 0) := by
    rintro ⟨h5, htx, hrx⟩
    rcases h with h | ⟨-, h | h⟩
    · omega
    · rw [htx] at h; cases h
    · exact hrx h
  have hexec : exec (.portFailed p) s = .next (s.portFail p) :=
    congrArg Host.Outcome.next ((if_neg hstays).trans (if_pos (h.imp_right And.left)))
  obtain ⟨t, ht, hstate, hreplay, htxq, honly⟩ := portFail_ends hp (Kept.refl s) hexec
  have htail : t = s.portFail p := Host.Outcome.next.inj (ht.symm.trans hexec)
  exact ⟨t, ht, hstate, hreplay, htxq, by rw [htail, portFail_downCount hp], honly⟩

theorem goPort_ends {cmd : Instr} {st : Nat} (hst : st < 16) (hexec : exec cmd s = .next (s.goPort p st)) :
    Ends cmd s (fun t => t.portState p = st ∧ OnlyIn [.regs] s t) :=
  ⟨_, hexec, portState_goPort_self s hst, (goPort_kept s p st (Kept.refl s) (by decide)).only_regs⟩

theorem portFailed_retrains (h : s.portState p = 5) (htx : (s.port p).drainTx = true) (hrx : (s.port p).drainRx ≠ 0) :
    Ends (.portFailed p) s (fun t => t.portState p = 3 ∧ OnlyIn [.regs] s t) :=
  goPort_ends (by decide) (congrArg Host.Outcome.next (if_pos ⟨h, htx, hrx⟩))

theorem portFailed_elsewhere (h4 : s.portState p ≠ 4) (h5 : s.portState p ≠ 5) : exec (.portFailed p) s = .next s :=
  congrArg Host.Outcome.next ((if_neg (fun h => h5 h.1)).trans (if_neg (fun h => h.elim h4 h5)))

theorem exec_portRetryTimer (lost : Bool) : exec (.portRetryTimer p lost) s = .next (
    if s.portState p = 6 then
      if lost = true ∨ ¬ (s.port p).leg = true then (s.setPort p { s.port p with leg := false }).goPort p 1 else s.goPort p 3
    else if s.portState p = 8 then s.goPort p 3
    else s) := rfl

theorem portRetryTimer_legs {lost : Bool} (h : s.portState p = 6) (hleg : lost = true ∨ (s.port p).leg = false) :
    Ends (.portRetryTimer p lost) s (fun t => t.portState p = 1 ∧ (t.port p).leg = false ∧ OnlyIn [.regs, .ewb] s t) := by
  have hlost : lost = true ∨ ¬ (s.port p).leg = true := hleg.imp_right (by simp)
  refine ⟨_, (exec_portRetryTimer lost).trans (congrArg _ ((if_pos h).trans (if_pos hlost))),
    portState_goPort_self _ (by decide), ?_, ?_⟩
  · rw [port_goPort, port_setPort_self]
  · exact (goPort_kept _ p 1 (setPort_kept s p _ (Kept.refl s) (by decide)) (by decide)).only_regsEwb

theorem portRetryTimer_link {lost : Bool} (h : (s.portState p = 6 ∧ lost = false ∧ (s.port p).leg = true) ∨ s.portState p = 8) :
    Ends (.portRetryTimer p lost) s (fun t => t.portState p = 3 ∧ OnlyIn [.regs] s t) := by
  refine goPort_ends (by decide) ((exec_portRetryTimer lost).trans (congrArg _ ?_))
  rcases h with ⟨h6, rfl, hleg⟩ | h8
  · rw [if_pos h6, if_neg (by simp [hleg])]
  · rw [if_neg (by omega), if_pos h8]

theorem portRetryTimer_elsewhere {lost : Bool} (h6 : s.portState p ≠ 6) (h8 : s.portState p ≠ 8) :
    exec (.portRetryTimer p lost) s = .next s := (exec_portRetryTimer lost).trans (by rw [if_neg h6, if_neg h8])

/-! ### LEG_TRAIN_END -/

/-- The state in which a port's legs are trained. -/
def State.legged (s : State) (p : Nat) : State :=
  (s.setPort p { s.port p with leg := true }).goPort p (if s.bypReady then 3 else 2)

theorem exec_legTrainEnd (h : s.portState p = 1) : exec (.legTrainEnd p true) s = .next (
    if (s.legged p).insertion = 0 then (s.legged p).setFld F.EWB_STATUS_INSERT 1 else s.legged p) :=
  congrArg Host.Outcome.next (if_neg (not_not_intro h))

theorem legged_portState (s : State) (p : Nat) : (s.legged p).portState p = (if s.bypReady then 3 else 2) :=
  portState_goPort_self _ (by split <;> decide)

theorem legged_port (s : State) (p : Nat) : (s.legged p).port p = { s.port p with leg := true } := by
  rw [State.legged, port_goPort, port_setPort_self]

theorem legged_insertion (s : State) (p : Nat) : (s.legged p).insertion = s.insertion :=
  (goPort_domain _ p _).insertion.trans (fld_of_regs (setPort_regs _ _ _) _)

theorem legged_kept (s : State) (p : Nat) : Kept 129 s (s.legged p) :=
  goPort_kept _ p _ (setPort_kept s p _ (Kept.refl s) (by decide)) (by decide)

/-- The commands that set the insertion state set it alone. -/
theorem setInsert_insertion (s : State) {v : Nat} (h : v < 8) : (s.setFld F.EWB_STATUS_INSERT v).insertion = v :=
  fld_setFld_fits s (by decide) (by decide) h

theorem setInsert_portState (s : State) (v p : Nat) : (s.setFld F.EWB_STATUS_INSERT v).portState p = s.portState p :=
  portState_setFld_domain s _ v p (by decide)

theorem legTrainEnd_trained (h : s.portState p = 1) : Ends (.legTrainEnd p true) s (fun t =>
    t.portState p = (if s.bypReady then 3 else 2) ∧ (t.port p).leg = true ∧
    t.insertion = (if s.insertion = 0 then 1 else s.insertion) ∧ OnlyIn [.regs, .ewb] s t) := by
  have hexec := exec_legTrainEnd h
  rw [legged_insertion] at hexec
  refine ⟨_, hexec, ?_⟩
  split
  · refine ⟨?_, ?_, setInsert_insertion _ (by decide), (setFld_kept (legged_kept s p) _ _ (by decide)).only_regsEwb⟩
    · rw [setInsert_portState, legged_portState]
    · rw [port_setFld, legged_port]
  · exact ⟨legged_portState s p, by rw [legged_port], legged_insertion s p, (legged_kept s p).only_regsEwb⟩

theorem legTrainEnd_fails (h : s.portState p = 1) :
    Ends (.legTrainEnd p false) s (fun t => t.portState p = 6 ∧ OnlyIn [.regs] s t) :=
  goPort_ends (by decide) (congrArg Host.Outcome.next (if_neg (not_not_intro h)))

theorem legTrainEnd_elsewhere (h : s.portState p ≠ 1) (ok : Bool) : exec (.legTrainEnd p ok) s = .next s :=
  congrArg Host.Outcome.next (if_pos h)

/-! ### LINK_TRAIN_END -/

theorem enterCheck_cases (s : State) : s.enterCheck = s ∨ s.enterCheck = s.setFld F.EWB_STATUS_INSERT 4 :=
  (em _).elim (fun h => .inr (if_pos h)) (fun h => .inl (if_neg h))

theorem enterCheck_port (s : State) (p : Nat) : s.enterCheck.port p = s.port p := by
  rcases enterCheck_cases s with h | h <;> rw [h]
  exact port_setFld s _ _ _

theorem enterCheck_fld (s : State) {f : Fld} (h : 0x801000 ≤ f.addr) : s.enterCheck.fld f = s.fld f := by
  rcases enterCheck_cases s with hc | hc <;> rw [hc]
  exact fld_setFld_ne _ _ _ _ (by simp only [R.EWB_STATUS]; omega)

/-- The width that both ends hold. -/
def linkWidth (h : List Nat) (r : LinkResult) : Nat :=
  match widthOf r.lanes, widthOf (h.getD 7 0) with | some a, some c => max a c | _, _ => 2

/-- STATUS of a port whose link has come up. -/
def State.linkStatus (s : State) (p st : Nat) (h : List Nat) (r : LinkResult) (crypt : Bool) : State :=
  (((((s.goPort p st).setFld (F.EWB_P_STATUS_PEER p) (h.getD 0 0)).setFld (F.EWB_P_STATUS_WIDTH p) (linkWidth h r)).setFld
    (F.EWB_P_STATUS_REFUSE p) 0).setBit (F.EWB_P_STATUS_ENCRYPTED p) crypt).setBit (F.EWB_P_STATUS_RACK_EDGE p)
      (s.rackEdge p (h.getD 0 0))

/-- Its delay and the peer's digest taken. -/
def State.linkDigest (s : State) (p st : Nat) (h : List Nat) (r : LinkResult) (crypt : Bool) : State :=
  (List.range 12).foldl (fun s i => s.setReg (R.EWB_P_PEER_DIGEST p i) (BitVec.ofNat 32 (leAt r.peerDigest (4 * i) 4)))
    ((s.linkStatus p st h r crypt).setFld (F.EWB_P_DELAY_PS p) (mean r.samples))

/-- A port's own state with fresh credits and SEQs. -/
def Port.fresh (x : Port) (crypt : Bool) : Port :=
  { x with
    creditRx := [0, 0, 0, 0], sentVc := [0, 0, 0, 0], freedVc := [0, 0, 0, 0], txSeq := 0, rxSeq := 0, replay := []
    nakRun := 0, keyed := crypt, pauseRx := false, pauseTx := false, drainTx := false, drainRx := 0 }

theorem linkUp_eq (s : State) (p st : Nat) (h : List Nat) (r : LinkResult) (crypt : Bool) : s.linkUp p st h r crypt =
    (s.linkDigest p st h r crypt).setPort p (((s.linkDigest p st h r crypt).port p).fresh crypt) := rfl

theorem linkDigest_fld (s : State) (p st : Nat) (h : List Nat) (r : LinkResult) (crypt : Bool) {f : Fld}
    (hf : f.addr = R.EWB_P_STATUS p) : (s.linkDigest p st h r crypt).fld f = (s.linkStatus p st h r crypt).fld f := by
  refine List.foldlRecOn (List.range 12) _ (motive := fun t : State => t.fld f = (s.linkStatus p st h r crypt).fld f) ?_ ?_
  · exact fld_setFld_ne _ _ _ _ (by rw [hf]; simp only [R.EWB_P_STATUS, R.EWB_P_DELAY]; omega)
  · intro t ih i _
    rw [fld_setReg_ne _ _ _ _ (by rw [hf]; simp only [R.EWB_P_STATUS, R.EWB_P_PEER_DIGEST]; omega), ih]

theorem linkUp_fld (s : State) (p st : Nat) (h : List Nat) (r : LinkResult) (crypt : Bool) {f : Fld}
    (hf : f.addr = R.EWB_P_STATUS p) : (s.linkUp p st h r crypt).fld f = (s.linkStatus p st h r crypt).fld f := by
  rw [linkUp_eq, fld_of_regs (setPort_regs _ _ _), linkDigest_fld s p st h r crypt hf]

theorem linkUp_port (s : State) (p st : Nat) (h : List Nat) (r : LinkResult) (crypt : Bool) :
    (s.linkUp p st h r crypt).port p = ((s.linkDigest p st h r crypt).port p).fresh crypt := by
  rw [linkUp_eq, port_setPort_self]

theorem linkStatus_portState (s : State) {st : Nat} (hst : st < 16) (p : Nat) (h : List Nat) (r : LinkResult) (crypt : Bool) :
    (s.linkStatus p st h r crypt).portState p = st := by
  simp only [State.linkStatus, State.setBit]
  rw [portState_setFld_beside _ _ _ (by simp), portState_setFld_beside _ _ _ (by simp), portState_setFld_beside _ _ _ (by simp),
    portState_setFld_beside _ _ _ (by simp), portState_setFld_beside _ _ _ (by simp), portState_goPort_self s hst]

theorem linkStatus_peer (s : State) (p st : Nat) (h : List Nat) (r : LinkResult) (crypt : Bool) :
    (s.linkStatus p st h r crypt).peer p = h.getD 0 0 % 512 := by
  simp only [State.peer, State.linkStatus, State.setBit]
  rw [fld_setFld_beside (h := by simp), fld_setFld_beside (h := by simp), fld_setFld_beside (h := by simp),
    fld_setFld_beside (h := by simp), fld_setFld_self _ _ _ (by simp) (by simp)]
  rfl

theorem linkStatus_refuse (s : State) (p st : Nat) (h : List Nat) (r : LinkResult) (crypt : Bool) :
    (s.linkStatus p st h r crypt).fld (F.EWB_P_STATUS_REFUSE p) = 0 := by
  simp only [State.linkStatus, State.setBit]
  rw [fld_setFld_beside (h := by simp), fld_setFld_beside (h := by simp), fld_setFld_zero _ (by simp) (by simp)]

theorem linkStatus_encrypted (s : State) (p st : Nat) (h : List Nat) (r : LinkResult) (crypt : Bool) :
    (s.linkStatus p st h r crypt).bit (F.EWB_P_STATUS_ENCRYPTED p) = crypt := by
  simp only [State.bit, State.linkStatus, State.setBit]
  rw [fld_setFld_beside (h := by simp), fld_setFld_self _ _ _ (by simp) (by simp)]
  cases crypt <;> rfl

/-- What a link that has come up shows of its port. -/
structure LinkIsUp (t : State) (p st : Nat) (h : List Nat) (crypt : Bool) : Prop where
  state : t.portState p = st
  peer : t.peer p = h.getD 0 0 % 512
  refuse : t.fld (F.EWB_P_STATUS_REFUSE p) = 0
  encrypted : t.bit (F.EWB_P_STATUS_ENCRYPTED p) = crypt
  txSeq : (t.port p).txSeq = 0
  rxSeq : (t.port p).rxSeq = 0
  replay : (t.port p).replay = []
  sentVc : (t.port p).sentVc = [0, 0, 0, 0]

theorem LinkIsUp.congr {t u : State} {st : Nat} {h : List Nat} {crypt : Bool} (hup : LinkIsUp t p st h crypt)
    (hregs : ∀ f : Fld, f.addr = R.EWB_P_STATUS p → u.fld f = t.fld f) (hport : u.port p = t.port p) : LinkIsUp u p st h crypt where
  state := (hregs _ rfl).trans hup.state
  peer := (hregs _ rfl).trans hup.peer
  refuse := (hregs _ rfl).trans hup.refuse
  encrypted := by rw [State.bit, hregs _ rfl]; exact hup.encrypted
  txSeq := by rw [hport]; exact hup.txSeq
  rxSeq := by rw [hport]; exact hup.rxSeq
  replay := by rw [hport]; exact hup.replay
  sentVc := by rw [hport]; exact hup.sentVc

theorem linkUp_isUp (s : State) {st : Nat} (hst : st < 16) (p : Nat) (h : List Nat) (r : LinkResult) (crypt : Bool) :
    LinkIsUp (s.linkUp p st h r crypt) p st h crypt where
  state := (linkUp_fld s p st h r crypt rfl).trans (linkStatus_portState s hst p h r crypt)
  peer := (linkUp_fld s p st h r crypt rfl).trans (linkStatus_peer s p st h r crypt)
  refuse := (linkUp_fld s p st h r crypt rfl).trans (linkStatus_refuse s p st h r crypt)
  encrypted := by rw [State.bit, linkUp_fld s p st h r crypt rfl]; exact linkStatus_encrypted s p st h r crypt
  txSeq := by rw [linkUp_port]; rfl
  rxSeq := by rw [linkUp_port]; rfl
  replay := by rw [linkUp_port]; rfl
  sentVc := by rw [linkUp_port]; rfl

theorem enterCheck_isUp {t : State} {st : Nat} {h : List Nat} {crypt : Bool} (hup : LinkIsUp t p st h crypt) :
    LinkIsUp t.enterCheck p st h crypt :=
  hup.congr (fun f hf => enterCheck_fld t (by rw [hf]; simp only [R.EWB_P_STATUS]; omega)) (enterCheck_port t p)

/-- A rack-edge or crypto-forced link keeps the peer's digest in the key cache. -/
def State.zCached (s : State) (r : LinkResult) (crypt : Bool) : State :=
  if crypt then
    { s with ewb := { s.ewb with zCache := (r.peerDigest :: s.ewb.zCache.filter (· != r.peerDigest)).take 8 } }
  else s

theorem zCached_regs (s : State) (r : LinkResult) (crypt : Bool) : (s.zCached r crypt).regs = s.regs := by
  cases crypt <;> rfl

theorem zCached_port (s : State) (r : LinkResult) (crypt : Bool) (p : Nat) : (s.zCached r crypt).port p = s.port p := by
  cases crypt <;> rfl

theorem zCached_kept {t : State} (r : LinkResult) (crypt : Bool) (h : Kept 129 s t) : Kept 129 s (t.zCached r crypt) := by
  cases crypt
  · exact h
  · exact h.set_ewb _ (by decide)

/-- This module's own digest, and the one that the peer showed. -/
def State.ownDigest (s : State) : List Word := (List.range 12).map (fun i => s.readReg (R.SEC_IK_DIGEST i))

/-- The digest that the peer showed. -/
def shownDigest (r : LinkResult) : List Word := (List.range 12).map (fun i => BitVec.ofNat 32 (leAt r.peerDigest (4 * i) 4))

theorem ownDigest_eq_iff (s : State) (r : LinkResult) : s.ownDigest = shownDigest r ↔
    ∀ i, i < 12 → s.readReg (R.SEC_IK_DIGEST i) = BitVec.ofNat 32 (leAt r.peerDigest (4 * i) 4) := by
  rw [State.ownDigest, shownDigest, List.map_inj_left]
  simp only [List.mem_range]

/-- What a refusal notes beside the port: the domain's flags and the requester of a crypto failure. -/
def State.refusalNoted (s : State) (c : Nat) : State :=
  let s1 := s.setFld F.EWB_STATUS_REFUSED_SEEN 1
  let s2 := if c = 3 then s1.setFld F.EWB_STATUS_DUP_SEEN 1 else s1
  if c = 6 then s2.setFld F.SEC_CRYPTO_LAST_REQUESTER 4 else s2

/-- The port's link is refused with code `c`. -/
def State.refusedWith (s : State) (p c : Nat) : State :=
  ((s.goPort p 8).setFld (F.EWB_P_STATUS_REFUSE p) c).refusalNoted c

theorem exec_linkTrainEnd {r : LinkResult} (h : s.portState p = 3) (hdone : r.complete = true) :
    exec (.linkTrainEnd p r) s = .next (
      let h := (s.port p).hello.getD []
      let crypt := s.rackEdge p (h.getD 0 0) || s.bit (F.EWB_P_CTRL_FORCE_CRYPT p) || h.getD 6 0 == 1
      if s.ownDigest = shownDigest r then (s.linkUp p 7 h r false).enterCheck
      else match s.refusal p h r crypt with
      | 0 => ((s.linkUp p 4 h r crypt).zCached r crypt).enterCheck
      | c => if (s.refusedWith p c).insertion = 3 ∧ ((s.refusedWith p c).port p).needUp = true then (s.refusedWith p c).entryFail
        else s.refusedWith p c) :=
  congrArg Host.Outcome.next ((if_neg (not_not_intro h)).trans (if_neg (by rw [hdone]; decide)))

theorem linkTrainEnd_elsewhere (h : s.portState p ≠ 3) (r : LinkResult) : exec (.linkTrainEnd p r) s = .next s :=
  congrArg Host.Outcome.next (if_pos h)

theorem linkTrainEnd_timeout {r : LinkResult} (h : s.portState p = 3) (hdone : r.complete = false) :
    Ends (.linkTrainEnd p r) s (fun t => t.portState p = 6 ∧ OnlyIn [.regs] s t) :=
  goPort_ends (by decide)
    (congrArg Host.Outcome.next ((if_neg (not_not_intro h)).trans (if_pos (by rw [hdone]; decide))))

section Ended
variable {r : LinkResult} {h : List Nat} {crypt same : Bool} (hh : h = (s.port p).hello.getD [])
  (hcrypt : crypt = (s.rackEdge p (h.getD 0 0) || s.bit (F.EWB_P_CTRL_FORCE_CRYPT p) || h.getD 6 0 == 1))
  (hsame : same = true ↔ ∀ i, i < 12 → s.readReg (R.SEC_IK_DIGEST i) = BitVec.ofNat 32 (leAt r.peerDigest (4 * i) 4))
  (htrain : s.portState p = 3) (hdone : r.complete = true)
include hh hcrypt hsame htrain hdone

theorem linkTrainEnd_up (hok : same = true ∨ s.refusal p h r crypt = 0) : Ends (.linkTrainEnd p r) s (fun t =>
    t.portState p = (if same then 7 else 4) ∧ t.peer p = h.getD 0 0 % 512 ∧ t.fld (F.EWB_P_STATUS_REFUSE p) = 0 ∧
    t.bit (F.EWB_P_STATUS_ENCRYPTED p) = (!same && crypt) ∧ (t.port p).txSeq = 0 ∧ (t.port p).rxSeq = 0 ∧
    (t.port p).replay = [] ∧ (t.port p).sentVc = [0, 0, 0, 0] ∧ OnlyIn [.regs, .ewb] s t) := by
  have hexec := exec_linkTrainEnd htrain hdone
  simp only [← hh, ← hcrypt] at hexec
  rw [← ownDigest_eq_iff] at hsame
  suffices hup : ∃ t, exec (.linkTrainEnd p r) s = .next t ∧ LinkIsUp t p (if same then 7 else 4) h (!same && crypt) ∧
      Kept 129 s t by
    obtain ⟨t, ht, hup, hkept⟩ := hup
    exact ⟨t, ht, hup.state, hup.peer, hup.refuse, hup.encrypted, hup.txSeq, hup.rxSeq, hup.replay, hup.sentVc, hkept.only_regsEwb⟩
  cases same
  case true =>
    rw [if_pos (hsame.mp rfl)] at hexec
    exact ⟨_, hexec, enterCheck_isUp (linkUp_isUp s (by decide) p h r false),
      enterCheck_kept _ (linkUp_kept s p 7 h r false (Kept.refl s) (by decide)) (by decide)⟩
  case false =>
    rw [if_neg (fun heq => Bool.false_ne_true (hsame.mpr heq)), hok.resolve_left (by decide)] at hexec
    have hup := linkUp_isUp s (st := 4) (by decide) p h r crypt
    exact ⟨_, hexec, enterCheck_isUp (hup.congr (fun f _ => fld_of_regs (zCached_regs _ r crypt) f) (zCached_port _ r crypt p)),
      enterCheck_kept _ (zCached_kept r crypt (linkUp_kept s p 4 h r crypt (Kept.refl s) (by decide))) (by decide)⟩

theorem exec_linkTrainEnd_refused {c : Nat} (hother : same = false) (href : s.refusal p h r crypt = c) (hc : c ≠ 0) :
    exec (.linkTrainEnd p r) s = .next (
      if (s.refusedWith p c).insertion = 3 ∧ ((s.refusedWith p c).port p).needUp = true then (s.refusedWith p c).entryFail
      else s.refusedWith p c) := by
  have hexec := exec_linkTrainEnd htrain hdone
  simp only [← hh, ← hcrypt, href] at hexec
  rw [← ownDigest_eq_iff] at hsame
  rw [if_neg (fun heq => Bool.false_ne_true (hother.symm.trans (hsame.mpr heq)))] at hexec
  obtain ⟨k, rfl⟩ := Nat.exists_eq_succ_of_ne_zero hc
  exact hexec

end Ended

theorem refusal_le (s : State) (p : Nat) (h : List Nat) (r : LinkResult) (crypt : Bool) : s.refusal p h r crypt ≤ 8 := by
  unfold State.refusal
  dsimp only
  repeat' split
  all_goals omega

/-- A duplicate is flagged, a crypto failure names its requester, and every other refusal sets REFUSED_SEEN alone. -/
theorem refusalNoted_cases (s : State) (c : Nat) :
    (c = 3 ∧ s.refusalNoted c = (s.setFld F.EWB_STATUS_REFUSED_SEEN 1).setFld F.EWB_STATUS_DUP_SEEN 1) ∨
    (c ≠ 3 ∧ s.refusalNoted c = (s.setFld F.EWB_STATUS_REFUSED_SEEN 1).setFld F.SEC_CRYPTO_LAST_REQUESTER 4) ∨
    (c ≠ 3 ∧ s.refusalNoted c = s.setFld F.EWB_STATUS_REFUSED_SEEN 1) := by
  unfold State.refusalNoted
  by_cases h3 : c = 3
  · subst h3
    exact .inl ⟨rfl, rfl⟩
  · by_cases h6 : c = 6
    · exact .inr (.inl ⟨h3, by simp only [if_neg h3, if_pos h6]⟩)
    · exact .inr (.inr ⟨h3, by simp only [if_neg h3, if_neg h6]⟩)

theorem refusalNoted_fld_port (s : State) (c : Nat) {f : Fld} (h : 0x801000 ≤ f.addr) :
    (s.refusalNoted c).fld f = s.fld f := by
  have hdomain : f.addr ≠ R.EWB_STATUS := by simp only [R.EWB_STATUS]; omega
  have hsec : f.addr ≠ R.SEC_CRYPTO_LAST := by simp only [R.SEC_CRYPTO_LAST]; omega
  rcases refusalNoted_cases s c with ⟨-, hn⟩ | ⟨-, hn⟩ | ⟨-, hn⟩ <;> rw [hn]
  · rw [fld_setFld_ne _ _ _ _ hdomain, fld_setFld_ne _ _ _ _ hdomain]
  · rw [fld_setFld_ne _ _ _ _ hsec, fld_setFld_ne _ _ _ _ hdomain]
  · rw [fld_setFld_ne _ _ _ _ hdomain]

theorem refusalNoted_insertion (s : State) (c : Nat) : (s.refusalNoted c).insertion = s.insertion := by
  rcases refusalNoted_cases s c with ⟨-, hn⟩ | ⟨-, hn⟩ | ⟨-, hn⟩ <;> rw [hn, State.insertion]
  · rw [fld_setFld_beside (h := by decide), fld_setFld_beside (h := by decide)]; rfl
  · rw [fld_setFld_ne (h := by decide), fld_setFld_beside (h := by decide)]; rfl
  · rw [fld_setFld_beside (h := by decide)]; rfl

theorem refusalNoted_seen (s : State) (c : Nat) : (s.refusalNoted c).bit F.EWB_STATUS_REFUSED_SEEN = true := by
  have hset : (s.setFld F.EWB_STATUS_REFUSED_SEEN 1).fld F.EWB_STATUS_REFUSED_SEEN = 1 :=
    fld_setFld_fits s (by decide) (by decide) (by decide)
  rcases refusalNoted_cases s c with ⟨-, hn⟩ | ⟨-, hn⟩ | ⟨-, hn⟩ <;> rw [hn, State.bit]
  · rw [fld_setFld_beside (h := by decide), hset]; rfl
  · rw [fld_setFld_ne (h := by decide), hset]; rfl
  · rw [hset]; rfl

theorem refusalNoted_dup (s : State) : (s.refusalNoted 3).bit F.EWB_STATUS_DUP_SEEN = true := by
  rw [show s.refusalNoted 3 = (s.setFld F.EWB_STATUS_REFUSED_SEEN 1).setFld F.EWB_STATUS_DUP_SEEN 1 from rfl, State.bit,
    fld_setFld_fits _ (by decide) (by decide) (by decide)]
  rfl

theorem refusalNoted_port (s : State) (c p : Nat) : (s.refusalNoted c).port p = s.port p := by
  rcases refusalNoted_cases s c with ⟨-, hn⟩ | ⟨-, hn⟩ | ⟨-, hn⟩ <;> rw [hn]
  · rw [port_setFld, port_setFld]
  · rw [port_setFld, port_setFld]
  · rw [port_setFld]

theorem refusalNoted_kept {t : State} (h : Kept 1 s t) (c : Nat) : Kept 1 s (t.refusalNoted c) := by
  have hseen : Kept 1 s (t.setFld F.EWB_STATUS_REFUSED_SEEN 1) := setFld_kept h _ _ (by decide)
  rcases refusalNoted_cases t c with ⟨-, hn⟩ | ⟨-, hn⟩ | ⟨-, hn⟩ <;> rw [hn]
  · exact setFld_kept hseen _ _ (by decide)
  · exact setFld_kept hseen _ _ (by decide)
  · exact hseen

theorem refusedWith_insertion (s : State) (p c : Nat) : (s.refusedWith p c).insertion = s.insertion := by
  have hstatus : KeepsRegs DomainReg s ((s.goPort p 8).setFld (F.EWB_P_STATUS_REFUSE p) c) :=
    (goPort_domain s p 8).setFld (not_domainReg_port (by simp only [R.EWB_P_STATUS]; omega)) c
  rw [State.refusedWith, refusalNoted_insertion, hstatus.insertion]

theorem refusedWith_port (s : State) (p c : Nat) : (s.refusedWith p c).port p = s.port p := by
  rw [State.refusedWith, refusalNoted_port, port_setFld, port_goPort]

theorem refusedWith_kept (s : State) (p c : Nat) : Kept 1 s (s.refusedWith p c) :=
  refusalNoted_kept (setFld_kept (goPort_kept s p 8 (Kept.refl s) (by decide)) _ _ (by decide)) c

theorem refusedWith_portState (s : State) (p c : Nat) : (s.refusedWith p c).portState p = 8 := by
  have hport : 0x801000 ≤ R.EWB_P_STATUS p := by simp only [R.EWB_P_STATUS]; omega
  rw [State.refusedWith, State.portState, refusalNoted_fld_port _ _ hport]
  exact (portState_setFld_beside _ _ c (by simp)).trans (portState_goPort_self s (by decide))

theorem refusedWith_code (s : State) (p : Nat) {c : Nat} (hc : c ≤ 8) :
    (s.refusedWith p c).fld (F.EWB_P_STATUS_REFUSE p) = c := by
  have hport : 0x801000 ≤ R.EWB_P_STATUS p := by simp only [R.EWB_P_STATUS]; omega
  rw [State.refusedWith, refusalNoted_fld_port _ _ hport]
  exact fld_setFld_fits _ (by simp) (by simp) (Nat.lt_of_le_of_lt hc (by simp))

theorem linkTrainEnd_refused {r : LinkResult} {h : List Nat} {crypt same : Bool} {c : Nat} (hh : h = (s.port p).hello.getD [])
    (hcrypt : crypt = (s.rackEdge p (h.getD 0 0) || s.bit (F.EWB_P_CTRL_FORCE_CRYPT p) || h.getD 6 0 == 1))
    (hsame : same = true ↔ ∀ i, i < 12 → s.readReg (R.SEC_IK_DIGEST i) = BitVec.ofNat 32 (leAt r.peerDigest (4 * i) 4))
    (htrain : s.portState p = 3) (hdone : r.complete = true) (hother : same = false)
    (href : s.refusal p h r crypt = c) (hc : c ≠ 0) (hstays : s.insertion ≠ 3 ∨ (s.port p).needUp = false) :
    Ends (.linkTrainEnd p r) s (fun t => t.portState p = 8 ∧ t.fld (F.EWB_P_STATUS_REFUSE p) = c ∧
      t.bit F.EWB_STATUS_REFUSED_SEEN = true ∧ (c = 3 → t.bit F.EWB_STATUS_DUP_SEEN = true) ∧ OnlyIn [.regs] s t) := by
  have hexec := exec_linkTrainEnd_refused hh hcrypt hsame htrain hdone hother href hc
  rw [refusedWith_insertion, refusedWith_port, if_neg (by
    rintro ⟨hin, hneed⟩
    exact hstays.elim (fun hne => hne hin) (fun hno => Bool.false_ne_true (hno.symm.trans hneed)))] at hexec
  refine ⟨_, hexec, refusedWith_portState s p c, refusedWith_code s p (href ▸ refusal_le s p h r crypt),
    refusalNoted_seen _ c, ?_, (refusedWith_kept s p c).only_regs⟩
  rintro rfl
  exact refusalNoted_dup _

/-! ### The element, a peer's stream and a control write -/

theorem elementStateChange_opens (h : s.portState p = 2) : Ends (.elementStateChange p true) s (fun t =>
    t.portState p = 3 ∧ (t.port p).elemOpen = true ∧ OnlyIn [.regs, .ewb] s t) := by
  have hexec : exec (.elementStateChange p true) s =
      .next ((s.setPort p { s.port p with elemOpen := true }).goPort p 3).enterCheck := congrArg Host.Outcome.next (if_pos h)
  refine ⟨_, hexec, ?_, ?_, ?_⟩
  · rw [State.portState, enterCheck_fld _ (by simp only [R.EWB_P_STATUS]; omega)]
    exact portState_goPort_self _ (by decide)
  · rw [enterCheck_port, port_goPort, port_setPort_self]
  · exact (enterCheck_kept _ (goPort_kept _ p 3 (setPort_kept s p _ (Kept.refl s) (by decide)) (by decide))
      (by decide)).only_regsEwb

theorem elementStateChange_noted (h : s.portState p ≠ 2) : Ends (.elementStateChange p true) s (fun t =>
    t.port p = { s.port p with elemOpen := true } ∧ OnlyIn [.ewb] s t) :=
  ⟨_, congrArg Host.Outcome.next (if_neg h), port_setPort_self s p _, (setPort_kept s p _ (Kept.refl s) (by decide)).only_ewb⟩

/-- The state in which the element of a trained port has closed. -/
def State.elemClosed (s : State) (p : Nat) : State :=
  ((s.setPort p { s.port p with elemOpen := false }).goPort p 2).setPort p
    { s.port p with elemOpen := false, stream := false, replay := [], txq := [] }

theorem exec_elementStateChange_closes (h : s.portState p ∈ [4, 5, 6, 7]) : exec (.elementStateChange p false) s = .next (
    if (s.elemClosed p).insertion = 0 ∧ ((s.elemClosed p).port p).leg = true then
      (s.elemClosed p).setFld F.EWB_STATUS_INSERT 1
    else s.elemClosed p) := by
  have hport := port_setPort_self s p { s.port p with elemOpen := false }
  refine congrArg Host.Outcome.next ((if_neg Bool.false_ne_true).trans ((if_pos (List.contains_iff_mem.mpr h)).trans ?_))
  rw [State.elemClosed, hport]

theorem elemClosed_portState (s : State) (p : Nat) : (s.elemClosed p).portState p = 2 := by
  rw [State.elemClosed, portState_of_regs (setPort_regs _ _ _), portState_goPort_self _ (by decide)]

theorem elemClosed_port (s : State) (p : Nat) : (s.elemClosed p).port p =
    { s.port p with elemOpen := false, stream := false, replay := [], txq := [] } := port_setPort_self _ _ _

theorem elemClosed_kept (s : State) (p : Nat) : Kept 129 s (s.elemClosed p) :=
  setPort_kept _ _ _ (goPort_kept _ p 2 (setPort_kept s p _ (Kept.refl s) (by decide)) (by decide)) (by decide)

theorem elementStateChange_closes (h : s.portState p ∈ [4, 5, 6, 7]) : Ends (.elementStateChange p false) s (fun t =>
    t.portState p = 2 ∧ (t.port p).elemOpen = false ∧ (t.port p).stream = false ∧ (t.port p).replay = [] ∧
    OnlyIn [.regs, .ewb] s t) := by
  refine ⟨_, exec_elementStateChange_closes h, ?_⟩
  split
  · rw [setInsert_portState, port_setFld, elemClosed_portState, elemClosed_port]
    exact ⟨rfl, rfl, rfl, rfl, (setFld_kept (elemClosed_kept s p) _ _ (by decide)).only_regsEwb⟩
  · rw [elemClosed_portState, elemClosed_port]
    exact ⟨rfl, rfl, rfl, rfl, (elemClosed_kept s p).only_regsEwb⟩

theorem peerStreamAppear_retrains (h : s.portState p = 7 ∨ s.portState p = 8) :
    Ends (.peerStreamAppear p) s (fun t => t.portState p = 3 ∧ OnlyIn [.regs] s t) :=
  goPort_ends (by decide) (congrArg Host.Outcome.next (if_pos h))

theorem peerStreamAppear_noted (h : s.portState p = 2) : Ends (.peerStreamAppear p) s (fun t =>
    t.port p = { s.port p with stream := true } ∧ OnlyIn [.ewb] s t) := by
  refine ⟨s.heardOn p, congrArg Host.Outcome.next (if_neg (by omega)), ?_,
    (heardOn_kept s p (Kept.refl s) (by decide)).only_ewb⟩
  rw [heardOn_port, h]
  rfl

/-- The state in which the fields of EWB_P_CTRL are set. -/
def State.portCtrlSet (s : State) (p : Nat) (w : Word) : State := s.setReg (R.EWB_P_CTRL p) (w &&& 0xCF)

theorem portCtrl_bits (w : Word) : BitVec.ofNat 32 (Nat.land w.toNat 0xCF) = w &&& 0xCF := by
  refine BitVec.eq_of_toNat_eq ?_
  rw [BitVec.toNat_and]
  exact Nat.mod_eq_of_lt (Nat.lt_of_le_of_lt Nat.and_le_left w.isLt)

theorem exec_portCtrlWrite (hp : p < 16) (w : Word) (hdie : s.fused.ioType.getD (portSite p) 0 = 1) :
    exec (.portCtrlWrite p w) s = .next (
      if (!tst w.toNat 0) = true then (s.portCtrlSet p w).portDisable p
      else if (s.portCtrlSet p w).portState p = 0 ∧ (s.portCtrlSet p w).portUsable p = true then (s.portCtrlSet p w).goPort p 1
      else s.portCtrlSet p w) := by
  rw [State.portCtrlSet, ← portCtrl_bits]
  exact congrArg Host.Outcome.next (if_neg (by omega))

theorem portCtrlSet_portState (s : State) (p : Nat) (w : Word) : (s.portCtrlSet p w).portState p = s.portState p :=
  fld_setReg_ne s _ _ _ (by simp only [R.EWB_P_STATUS, R.EWB_P_CTRL]; omega)

theorem portCtrlSet_reg (s : State) (p : Nat) (w : Word) : (s.portCtrlSet p w).reg (R.EWB_P_CTRL p) = w &&& 0xCF :=
  reg_setReg_self s _ _

theorem portCtrlSet_usable (s : State) (p : Nat) (w : Word) : (s.portCtrlSet p w).portUsable p = s.portUsable p := rfl

theorem goPort_ctrl (s : State) (p st : Nat) : (s.goPort p st).reg (R.EWB_P_CTRL p) = s.reg (R.EWB_P_CTRL p) :=
  reg_setFld_ne s _ _ _ (by simp only [R.EWB_P_STATUS, R.EWB_P_CTRL]; omega)

theorem portDisable_eq (s : State) (p : Nat) : s.portDisable p =
    (s.goPort p 0).setPort p { s.port p with leg := false, replay := [], txq := [] } := rfl

theorem portCtrlWrite_disables (hp : p < 16) {w : Word} (hdie : s.fused.ioType.getD (portSite p) 0 = 1)
    (hoff : tst w.toNat 0 = false) : Ends (.portCtrlWrite p w) s (fun t => t.portState p = 0 ∧ (t.port p).leg = false ∧
      t.reg (R.EWB_P_CTRL p) = w &&& 0xCF ∧ OnlyIn [.regs, .ewb] s t) := by
  have hexec := exec_portCtrlWrite hp w hdie
  rw [if_pos (by rw [hoff]; rfl), portDisable_eq] at hexec
  have hkept : Kept 129 s (s.portCtrlSet p w) := setReg_kept (Kept.refl s) _ _ (by decide)
  refine ⟨_, hexec, ?_, ?_, ?_, (setPort_kept _ p _ (goPort_kept _ p 0 hkept (by decide)) (by decide)).only_regsEwb⟩
  · rw [portState_of_regs (setPort_regs _ _ _), portState_goPort_self _ (by decide)]
  · rw [port_setPort_self]
  · rw [State.reg, setPort_regs]
    exact (goPort_ctrl _ p 0).trans (portCtrlSet_reg s p w)

theorem portCtrlWrite_enables (hp : p < 16) {w : Word} (hdie : s.fused.ioType.getD (portSite p) 0 = 1)
    (hon : tst w.toNat 0 = true) : Ends (.portCtrlWrite p w) s (fun t => t.reg (R.EWB_P_CTRL p) = w &&& 0xCF ∧
      t.portState p = (if s.portState p = 0 ∧ s.portUsable p = true then 1 else s.portState p) ∧ OnlyIn [.regs] s t) := by
  have hexec := exec_portCtrlWrite hp w hdie
  rw [if_neg (by rw [hon]; decide), portCtrlSet_portState, portCtrlSet_usable] at hexec
  have hkept : Kept 1 s (s.portCtrlSet p w) := setReg_kept (Kept.refl s) _ _ (by decide)
  refine ⟨_, hexec, ?_⟩
  split
  · exact ⟨(goPort_ctrl _ p 1).trans (portCtrlSet_reg s p w), portState_goPort_self _ (by decide),
      (goPort_kept _ p 1 hkept (by decide)).only_regs⟩
  · exact ⟨portCtrlSet_reg s p w, portCtrlSet_portState s p w, hkept.only_regs⟩

theorem portCtrlWrite_noDie {w : Word} (hdie : s.fused.ioType.getD (portSite p) 0 ≠ 1) :
    exec (.portCtrlWrite p w) s = .next s := congrArg Host.Outcome.next (if_pos (.inr hdie))

end Sys2Proof.Machine
end

section
/-! SUPPORT. Insertion into the ring and removal from it: windows, announcements, pausing, draining and entry (R672 to
R677). -/

namespace Sys2Proof.Machine

variable {s : State} {p : Nat} {b : List Byte}

/-! ### The pending window -/

theorem pendingW_of_regs {t : State} (h : t.regs = s.regs) : t.pendingW = s.pendingW := by
  simp only [State.pendingW, State.pair, State.reg, h]

theorem insertion_of_regs {t : State} (h : t.regs = s.regs) : t.insertion = s.insertion := fld_of_regs h _

theorem pendingW_setFld_ne (s : State) (f : Fld) (v : Nat)
    (h : R.EWB_PENDING_W_LO ≠ f.addr ∧ R.EWB_PENDING_W_HI ≠ f.addr) : (s.setFld f v).pendingW = s.pendingW :=
  pair_setFld_ne s _ _ f v h.1 h.2

theorem insertion_setFld_ne (s : State) (f : Fld) (v : Nat)
    (h : F.EWB_STATUS_INSERT.addr ≠ f.addr ∨ (f.lo ≤ f.hi ∧ f.hi < 32 ∧ 2 < f.lo)) :
    (s.setFld f v).insertion = s.insertion := by
  by_cases ha : F.EWB_STATUS_INSERT.addr = f.addr
  · obtain ⟨hle, h32, hlo⟩ := h.resolve_left (not_not_intro ha)
    exact fld_setFld_beside (h := ⟨ha, hle, h32, .inl hlo⟩) ..
  · exact fld_setFld_ne s f _ v ha

/-- The state with window `w` shown as pending. -/
def State.setPending (s : State) (w : Nat) : State := s.setPair R.EWB_PENDING_W_LO R.EWB_PENDING_W_HI w

theorem setPending_pendingW (s : State) (w : Nat) : (s.setPending w).pendingW = w % 2 ^ 64 :=
  pair_setPair_self s _ _ w (by decide)

theorem setPending_insertion (s : State) (w : Nat) : (s.setPending w).insertion = s.insertion :=
  fld_setPair_ne s _ _ w _ (by decide) (by decide)

theorem setPending_portState (s : State) (w p : Nat) : (s.setPending w).portState p = s.portState p :=
  portState_setPair_domain s _ _ w p (by decide) (by decide)

theorem setPending_kept {P : Nat} {t : State} (h : Kept P s t) (w : Nat) (hP : allows 1 P = true) : Kept P s (t.setPending w) :=
  setPair_kept h _ _ _ hP

theorem holdWindow_regs (s : State) (w kind ring dir : Nat) (own enter : Bool) :
    (s.holdWindow w kind ring dir own enter).regs = (s.setPending w).regs := rfl

theorem holdWindow_pendingW (s : State) (w kind ring dir : Nat) (own enter : Bool) :
    (s.holdWindow w kind ring dir own enter).pendingW = w % 2 ^ 64 :=
  (pendingW_of_regs (holdWindow_regs s w kind ring dir own enter)).trans (setPending_pendingW s w)

theorem holdWindow_insertion (s : State) (w kind ring dir : Nat) (own enter : Bool) :
    (s.holdWindow w kind ring dir own enter).insertion = s.insertion :=
  (insertion_of_regs (holdWindow_regs s w kind ring dir own enter)).trans (setPending_insertion s w)

theorem holdWindow_only (w kind ring dir : Nat) (own enter : Bool) :
    Kept 129 s (s.holdWindow w kind ring dir own enter) :=
  holdWindow_kept s w kind ring dir own enter (Kept.refl s) (by decide)

/-! ### ADMIT and REMOVE (R673, R676, R677) -/

theorem admitRefused_ends {cmd : Instr} (hexec : exec cmd s = .next (s.setFld F.EWB_STATUS_ADMIT_REFUSED 1)) :
    Ends cmd s (fun t => t.bit F.EWB_STATUS_ADMIT_REFUSED = true ∧ t.pendingW = s.pendingW ∧ t.insertion = s.insertion ∧
      OnlyIn [.regs] s t) := by
  refine ⟨_, hexec, ?_, pendingW_setFld_ne s _ _ (by decide), insertion_setFld_ne s _ _ (by decide),
    (setFld_kept (Kept.refl s) _ _ (by decide)).only_regs⟩
  rw [State.bit, fld_setFld_fits s (by decide) (by decide) (by decide)]
  rfl

theorem ewbAdmit_idle {w : Word} (hgo : tst w.toNat 31 = false) : exec (.ewbAdmit w) s = .next s :=
  congrArg Host.Outcome.next (if_pos (by rw [hgo]; rfl))

theorem ewbAdmit_refused {w : Word} (hgo : tst w.toNat 31 = true)
    (hno : s.insertion ≠ 4 ∨ s.gapPorts (bitOf w.toNat 1) (bitOf w.toNat 0) = [] ∨ s.pendingW ≠ 0) :
    Ends (.ewbAdmit w) s (fun t => t.bit F.EWB_STATUS_ADMIT_REFUSED = true ∧ t.pendingW = s.pendingW ∧ OnlyIn [.regs] s t) := by
  have hno' : s.insertion ≠ 4 ∨ (s.gapPorts (bitOf w.toNat 1) (bitOf w.toNat 0)).isEmpty = true ∨ s.pendingW ≠ 0 :=
    hno.imp_right (Or.imp_left List.isEmpty_iff.mpr)
  obtain ⟨t, ht, hbit, hw, -, honly⟩ := admitRefused_ends (cmd := .ewbAdmit w)
    (congrArg Host.Outcome.next ((if_neg (by rw [hgo]; decide)).trans (if_pos hno')))
  exact ⟨t, ht, hbit, hw, honly⟩

theorem ewbAdmit_announces {w : Word} (hgo : tst w.toNat 31 = true) (hin : s.insertion = 4)
    (hgap : s.gapPorts (bitOf w.toNat 1) (bitOf w.toNat 0) ≠ []) (hfree : s.pendingW = 0) :
    Ends (.ewbAdmit w) s (fun t => t.pendingW = s.nextWindow % 2 ^ 64 ∧ t.ewb.winKind = 1 ∧
      t.ewb.winRing = bitOf w.toNat 1 ∧ t.ewb.winDir = bitOf w.toNat 0 ∧ t.ewb.winOwn = true ∧ t.insertion = 4 ∧
      OnlyIn [.regs, .ewb] s t) := by
  have hok : ¬ (s.insertion ≠ 4 ∨ (s.gapPorts (bitOf w.toNat 1) (bitOf w.toNat 0)).isEmpty = true ∨ s.pendingW ≠ 0) := by
    rintro (h | h | h)
    · exact h hin
    · exact hgap (List.isEmpty_iff.mp h)
    · exact h hfree
  exact ⟨_, congrArg Host.Outcome.next ((if_neg (by rw [hgo]; decide)).trans (if_neg hok)), holdWindow_pendingW .., rfl, rfl, rfl,
    rfl, (holdWindow_insertion ..).trans hin, (holdWindow_only ..).only_regsEwb⟩

theorem ewbRemove_idle {w : Word} (hgo : tst w.toNat 0 = false) : exec (.ewbRemove w) s = .next s :=
  congrArg Host.Outcome.next (if_pos (by rw [hgo]; rfl))

theorem ewbRemove_refused {w : Word} (hgo : tst w.toNat 0 = true) (hno : s.insertion ≠ 4 ∨ s.pendingW ≠ 0) :
    Ends (.ewbRemove w) s (fun t => t.bit F.EWB_STATUS_ADMIT_REFUSED = true ∧ t.insertion = s.insertion ∧ OnlyIn [.regs] s t) := by
  obtain ⟨t, ht, hbit, -, hins, honly⟩ := admitRefused_ends (cmd := .ewbRemove w)
    (congrArg Host.Outcome.next ((if_neg (by rw [hgo]; decide)).trans (if_pos hno)))
  exact ⟨t, ht, hbit, hins, honly⟩

theorem ewbRemove_announces {w : Word} (hgo : tst w.toNat 0 = true) (hin : s.insertion = 4) (hfree : s.pendingW = 0) :
    Ends (.ewbRemove w) s (fun t => t.insertion = 5 ∧ t.pendingW = s.nextWindow % 2 ^ 64 ∧ t.ewb.winKind = 2 ∧
      OnlyIn [.regs, .ewb] s t) := by
  have hok : ¬ (s.insertion ≠ 4 ∨ s.pendingW ≠ 0) := by omega
  refine ⟨_, congrArg Host.Outcome.next ((if_neg (by rw [hgo]; decide)).trans (if_neg hok)), setInsert_insertion _ (by decide), ?_,
    rfl, (setFld_kept (holdWindow_only ..) _ _ (by decide)).only_regsEwb⟩
  rw [pendingW_setFld_ne _ _ _ (by decide), holdWindow_pendingW]

/-! ### ANNOUNCE (R672 to R674) -/

theorem tickCount_of_regs {t : State} (h : t.regs = s.regs) : t.tickCount = s.tickCount := by
  simp only [State.tickCount, State.pair, State.reg, h]

theorem heardOn_expandW (s : State) (p lo : Nat) : (s.heardOn p).expandW lo = s.expandW lo := by
  unfold State.expandW
  rw [tickCount_of_regs (heardOn_regs s p)]

theorem heardOn_announceFits (s : State) (p : Nat) (b : List Byte) : (s.heardOn p).announceFits p b = s.announceFits p b := by
  simp only [State.announceFits, State.ringSize, State.ySize, State.address, fld_of_regs (heardOn_regs s p), State.reg,
    heardOn_regs]

theorem exec_announce (h : symOk 0x0C b = true) : exec (.announce p b) s = .next (
    let u := s.heardOn p
    if u.portState p = 2 then
      if u.insertion = 1 ∧ bitsOf (leAt b 1 1) 1 0 = 1 then
        if u.announceFits p b = true then
          (u.holdWindow (u.expandW (leAt b 8 4)) 1 (portRing p) (p % 2) false true).setFld F.EWB_STATUS_INSERT 2
        else u.setFld F.EWB_STATUS_REFUSED_SEEN 1
      else u
    else if u.portState p = 4 ∧ (bitsOf (leAt b 1 1) 1 0 = 1 ∨ bitsOf (leAt b 1 1) 1 0 = 2) ∧
        (u.pendingW = 0 ∨ u.expandW (leAt b 8 4) < u.pendingW) then
      u.holdWindow (u.expandW (leAt b 8 4)) (bitsOf (leAt b 1 1) 1 0) (portRing p) (p % 2) false false
    else u) := congrArg Host.Outcome.next (onSymbol_ok h s p _)

/-- An admission heard on a tap of a module that waits. -/
theorem exec_announce_waiting (h : symOk 0x0C b = true) (htap : s.portState p = 2) (hwait : s.insertion = 1)
    (hkind : bitsOf (leAt b 1 1) 1 0 = 1) : exec (.announce p b) s = .next (
      if s.announceFits p b = true then
        ((s.heardOn p).holdWindow (s.expandW (leAt b 8 4)) 1 (portRing p) (p % 2) false true).setFld F.EWB_STATUS_INSERT 2
      else (s.heardOn p).setFld F.EWB_STATUS_REFUSED_SEEN 1) := by
  have hins : (s.heardOn p).insertion = 1 := (insertion_of_regs (heardOn_regs s p)).trans hwait
  refine (exec_announce h).trans (congrArg _ ((if_pos ((heardOn_portState s p p).trans htap)).trans
    ((if_pos ⟨hins, hkind⟩).trans ?_)))
  rw [heardOn_announceFits, heardOn_expandW]

theorem announce_grants (h : symOk 0x0C b = true) (htap : s.portState p = 2) (hwait : s.insertion = 1)
    (hkind : bitsOf (leAt b 1 1) 1 0 = 1) (hfits : s.announceFits p b = true) : Ends (.announce p b) s (fun t =>
      t.insertion = 2 ∧ t.pendingW = s.expandW (leAt b 8 4) % 2 ^ 64 ∧ t.ewb.winAt = s.expandW (leAt b 8 4) ∧
      t.ewb.winEnter = true ∧ OnlyIn [.regs, .ewb] s t) := by
  refine ⟨_, (exec_announce_waiting h htap hwait hkind).trans (congrArg _ (if_pos hfits)), setInsert_insertion _ (by decide), ?_,
    rfl, rfl, ?_⟩
  · rw [pendingW_setFld_ne _ _ _ (by decide), holdWindow_pendingW]
  · exact (setFld_kept ((heardOn_kept s p (Kept.refl s) (by decide)).trans ((holdWindow_only ..).mono (by decide))) _ _
      (by decide)).only_regsEwb

theorem announce_flags (h : symOk 0x0C b = true) (htap : s.portState p = 2) (hwait : s.insertion = 1)
    (hkind : bitsOf (leAt b 1 1) 1 0 = 1) (hfits : s.announceFits p b = false) : Ends (.announce p b) s (fun t =>
      t.bit F.EWB_STATUS_REFUSED_SEEN = true ∧ t.insertion = 1 ∧ OnlyIn [.regs, .ewb] s t) := by
  refine ⟨_, (exec_announce_waiting h htap hwait hkind).trans (congrArg _ (if_neg (by rw [hfits]; decide))), ?_, ?_,
    (setFld_kept (heardOn_kept s p (Kept.refl s) (by decide)) _ _ (by decide)).only_regsEwb⟩
  · rw [State.bit, fld_setFld_fits _ (by decide) (by decide) (by decide)]
    rfl
  · rw [insertion_setFld_ne _ _ _ (by decide), insertion_of_regs (heardOn_regs s p), hwait]

/-- An announcement heard on a port that is UP. -/
theorem exec_announce_up (h : symOk 0x0C b = true) (hup : s.portState p = 4) : exec (.announce p b) s = .next (
    if (bitsOf (leAt b 1 1) 1 0 = 1 ∨ bitsOf (leAt b 1 1) 1 0 = 2) ∧ (s.pendingW = 0 ∨ s.expandW (leAt b 8 4) < s.pendingW) then
      s.holdWindow (s.expandW (leAt b 8 4)) (bitsOf (leAt b 1 1) 1 0) (portRing p) (p % 2) false false
    else s) := by
  have hexec := exec_announce (s := s) (p := p) h
  rw [heardOn_of_not_tap (by rw [hup]; decide)] at hexec
  simpa only [hup, show ¬ (4 : Nat) = 2 by decide, if_false, true_and] using hexec

theorem announce_adopts (h : symOk 0x0C b = true) (hup : s.portState p = 4)
    (hkind : bitsOf (leAt b 1 1) 1 0 = 1 ∨ bitsOf (leAt b 1 1) 1 0 = 2)
    (hfirst : s.pendingW = 0 ∨ s.expandW (leAt b 8 4) < s.pendingW) : Ends (.announce p b) s (fun t =>
      t.pendingW = s.expandW (leAt b 8 4) % 2 ^ 64 ∧ t.ewb.winKind = bitsOf (leAt b 1 1) 1 0 ∧ t.ewb.winRing = portRing p ∧
      t.ewb.winDir = p % 2 ∧ t.ewb.winOwn = false ∧ t.ewb.winEnter = false ∧ OnlyIn [.regs, .ewb] s t) :=
  ⟨_, (exec_announce_up h hup).trans (congrArg _ (if_pos ⟨hkind, hfirst⟩)), holdWindow_pendingW .., rfl, rfl, rfl, rfl, rfl,
    (holdWindow_only ..).only_regsEwb⟩

theorem announce_late (h : symOk 0x0C b = true) (hup : s.portState p = 4) (hheld : s.pendingW ≠ 0)
    (hlate : s.pendingW ≤ s.expandW (leAt b 8 4)) : exec (.announce p b) s = .next s :=
  (exec_announce_up h hup).trans (congrArg _ (if_neg (by omega)))

/-! ### PAUSE (R673) -/

/-- The state in which the peer's PAUSE has been noted. -/
def State.pauseNoted (s : State) (p : Nat) : State := s.setPort p { s.port p with pauseRx := true }

theorem exec_pause (h : symOk 0x0D b = true) (hat : leAt b 2 4 = s.ewb.winAt % 2 ^ 32) (htap : s.portState p ≠ 2) :
    exec (.pause p b) s = .next ((s.pauseNoted p).drainCheck p) := by
  have hgo : ¬ (leAt b 2 4 ≠ s.ewb.winAt % 2 ^ 32 ∨ s.portState p = 2) := fun hor => hor.elim (fun hne => hne hat) htap
  have hexec : exec (.pause p b) s = .next ((fun u : State => if leAt b 2 4 ≠ u.ewb.winAt % 2 ^ 32 ∨ u.portState p = 2 then u
      else (u.pauseNoted p).drainCheck p) (s.heardOn p)) := congrArg Host.Outcome.next (onSymbol_ok h s p _)
  rw [heardOn_of_not_tap htap] at hexec
  exact hexec.trans (congrArg _ (if_neg hgo))

theorem pauseNoted_portState (s : State) (p : Nat) : (s.pauseNoted p).portState p = s.portState p :=
  portState_of_regs (setPort_regs _ _ _) p

theorem pauseNoted_port (s : State) (p : Nat) : (s.pauseNoted p).port p = { s.port p with pauseRx := true } :=
  port_setPort_self _ _ _

theorem pauseNoted_kept (s : State) (p : Nat) : Kept 128 s (s.pauseNoted p) := setPort_kept s p _ (Kept.refl s) (by decide)

theorem drainCheck_ready (h : s.portState p = 5) (hpause : (s.port p).pauseRx = true) (hsent : (s.port p).pauseTx = true)
    (hacked : (s.port p).replay = []) (hfirst : (s.port p).drainTx = false) : s.drainCheck p =
      (s.setPort p { s.port p with drainTx := true }).sendOn [p] (symbolOf 0x0E (0 :: leBytes 4 s.ewb.winAt)) :=
  if_pos ⟨h, hpause, hsent, List.isEmpty_iff.mpr hacked, by rw [hfirst]; decide⟩

theorem drainCheck_waits (h : s.portState p ≠ 5 ∨ (s.port p).replay ≠ []) : s.drainCheck p = s := by
  refine if_neg ?_
  rintro ⟨h5, -, -, hempty, -⟩
  exact h.elim (fun hne => hne h5) (fun hne => hne (List.isEmpty_iff.mp hempty))

theorem pause_drains (h : symOk 0x0D b = true) (hat : leAt b 2 4 = s.ewb.winAt % 2 ^ 32) (hpausing : s.portState p = 5)
    (hsent : (s.port p).pauseTx = true) (hacked : (s.port p).replay = []) (hfirst : (s.port p).drainTx = false) :
    Ends (.pause p b) s (fun t => (t.port p).pauseRx = true ∧ (t.port p).drainTx = true ∧
      t.out = .symbol p (symbolOf 0x0E (0 :: leBytes 4 s.ewb.winAt)) :: s.out ∧ OnlyIn [.ewb, .out] s t) := by
  have hport := pauseNoted_port s p
  have hready := drainCheck_ready (s := s.pauseNoted p) (p := p) ((pauseNoted_portState s p).trans hpausing)
    (by rw [hport]) (by rw [hport]; exact hsent) (by rw [hport]; exact hacked) (by rw [hport]; exact hfirst)
  refine ⟨_, (exec_pause h hat (by rw [hpausing]; decide)).trans (congrArg _ hready), ?_, ?_, ?_, ?_⟩
  · rw [port_sendOn, port_setPort_self, hport]
  · rw [port_sendOn, port_setPort_self]
  · rw [sendOn_one_out]
    rfl
  · exact (sendOn_kept _ _ _ (setPort_kept _ _ _ ((pauseNoted_kept s p).mono (by decide)) (by decide)) (by decide)).only_ewbOut

theorem pause_noted (h : symOk 0x0D b = true) (hat : leAt b 2 4 = s.ewb.winAt % 2 ^ 32) (htap : s.portState p ≠ 2)
    (hwaits : s.portState p ≠ 5 ∨ (s.port p).replay ≠ []) : Ends (.pause p b) s (fun t =>
      t.port p = { s.port p with pauseRx := true } ∧ OnlyIn [.ewb] s t) := by
  have hsame := drainCheck_waits (s := s.pauseNoted p) (p := p)
    (hwaits.imp (fun hne => by rwa [pauseNoted_portState]) (fun hne => by rw [pauseNoted_port]; exact hne))
  exact ⟨_, (exec_pause h hat htap).trans (congrArg _ hsame), pauseNoted_port s p, (pauseNoted_kept s p).only_ewb⟩

/-! ### A walk over the ports -/

/-- What a walk leaves of each port, when its step at a port acts on that port alone. -/
theorem foldl_ports {α : Type} (obs : State → Nat → α) (f : α → α) (step : State → Nat → State)
    (hself : ∀ t p, obs (step t p) p = f (obs t p)) (hother : ∀ t p q, q ≠ p → obs (step t p) q = obs t q)
    (l : List Nat) (hl : l.Nodup) (s : State) (q : Nat) :
    obs (l.foldl step s) q = if q ∈ l then f (obs s q) else obs s q := by
  induction l generalizing s with
  | nil => rfl
  | cons p l ih =>
    obtain ⟨hp, hl⟩ := List.nodup_cons.mp hl
    rw [List.foldl_cons, ih hl]
    by_cases hq : q = p
    · subst hq
      rw [if_neg hp, if_pos List.mem_cons_self, hself]
    · rw [hother s p q hq]
      exact if_congr (by simp [hq]) rfl rfl

theorem nodup_ports (f : Nat → Bool) : ((List.range 16).filter f).Nodup := List.nodup_range.filter _

/-! ### DRAINED and entry (R672, R676) -/

/-- A port's state with its code. -/
def State.portView (s : State) (p : Nat) : Port × Nat := (s.port p, s.portState p)

/-- A port must come up when its tap carries a stream. -/
def needsUp (x : Port × Nat) : Port × Nat := ({ x.1 with needUp := x.1.stream && x.2 == 2 }, x.2)

/-- The step of the walk that marks which ports must come up. -/
def State.markNeed (s : State) (p : Nat) : State := s.setPort p { s.port p with needUp := (s.port p).stream && s.portState p == 2 }

theorem setPort_view_self (s : State) (p : Nat) (x : Port) : (s.setPort p x).portView p = (x, s.portState p) := by
  rw [State.portView, port_setPort_self, portState_of_regs (setPort_regs _ _ _)]

theorem setPort_view_ne (s : State) (p q : Nat) (x : Port) (h : q ≠ p) : (s.setPort p x).portView q = s.portView q := by
  rw [State.portView, port_setPort_ne _ _ h, portState_of_regs (setPort_regs _ _ _), State.portView]

/-- The state in which BYP_READY is high and the insertion is ENTERING. -/
def State.byp (s : State) : State := (s.setFld F.EWB_STATUS_BYP_READY 1).setFld F.EWB_STATUS_INSERT 3

theorem enterRing_eq (s : State) : s.enterRing = (List.range 16).foldl State.markNeed s.byp := rfl

theorem byp_view (s : State) (p : Nat) : s.byp.portView p = s.portView p := by
  rw [State.portView, State.byp, port_setFld, port_setFld, setInsert_portState, portState_setFld_domain _ _ _ _ (by decide),
    State.portView]

theorem enterRing_view (s : State) {q : Nat} (hq : q < 16) : s.enterRing.portView q = needsUp (s.portView q) := by
  rw [enterRing_eq, foldl_ports State.portView needsUp State.markNeed (fun t p => setPort_view_self t p _)
    (fun t p q h => setPort_view_ne t p q _ h) _ List.nodup_range, if_pos (List.mem_range.mpr hq), byp_view]

theorem enterRing_port (s : State) {q : Nat} (hq : q < 16) :
    s.enterRing.port q = { s.port q with needUp := (s.port q).stream && s.portState q == 2 } :=
  (Prod.mk.inj (enterRing_view s hq)).1

theorem enterRing_regs (s : State) : s.enterRing.regs = s.byp.regs := by
  rw [enterRing_eq]
  exact List.foldlRecOn (List.range 16) _ (motive := fun t : State => t.regs = s.byp.regs) rfl (fun _ h _ _ => h)

theorem enterRing_insertion (s : State) : s.enterRing.insertion = 3 :=
  (insertion_of_regs (enterRing_regs s)).trans (setInsert_insertion _ (by decide))

theorem enterRing_bypReady (s : State) : s.enterRing.bypReady = true := by
  rw [State.bypReady, State.bit, fld_of_regs (enterRing_regs s), State.byp, fld_setFld_beside (h := by decide),
    fld_setFld_fits s (by decide) (by decide) (by decide)]
  rfl

/-- A module that has left the ring, or failed to enter it. -/
structure OutOfRing (t : State) : Prop where
  insertion : t.insertion = 0
  bypReady : t.bypReady = false
  pendingW : t.pendingW = 0

theorem KeepsRegs.outOfRing {t : State} (h : KeepsRegs DomainReg s t) (hs : OutOfRing s) : OutOfRing t where
  insertion := h.insertion.trans hs.insertion
  bypReady := h.bypReady.trans hs.bypReady
  pendingW := h.pendingW.trans hs.pendingW

theorem leaveRing_outOfRing (s : State) : OutOfRing s.leaveRing where
  insertion := (setPending_insertion _ 0).trans (setInsert_insertion _ (by decide))
  bypReady := by
    rw [State.bypReady, State.bit, State.leaveRing, fld_setPair_ne _ _ _ _ _ (by decide) (by decide),
      fld_setFld_beside (h := by decide), fld_setFld_zero _ (by decide) (by decide)]
    rfl
  pendingW := setPending_pendingW _ 0

/-- The state in which DRAINED has been heard on a port. -/
def State.drainHeard (s : State) (p : Nat) : State :=
  (s.heardOn p).setPort p { (s.heardOn p).port p with drainRx := 1 }

theorem drainHeard_regs (s : State) (p : Nat) : (s.drainHeard p).regs = s.regs :=
  (setPort_regs _ _ _).trans (heardOn_regs s p)

theorem drainHeard_insertion (s : State) (p : Nat) : (s.drainHeard p).insertion = s.insertion :=
  insertion_of_regs (drainHeard_regs s p)

theorem drainHeard_portState (s : State) (p q : Nat) : (s.drainHeard p).portState q = s.portState q :=
  portState_of_regs (drainHeard_regs s p) q

theorem drainHeard_port (s : State) (p : Nat) : (s.drainHeard p).port p = { (s.heardOn p).port p with drainRx := 1 } :=
  port_setPort_self _ _ _

theorem heardOn_port_ne (s : State) {p q : Nat} (h : q ≠ p) : (s.heardOn p).port q = s.port q := by
  unfold State.heardOn
  split
  · exact port_setPort_ne s _ h
  · rfl

theorem drainHeard_port_ne (s : State) {p q : Nat} (h : q ≠ p) : (s.drainHeard p).port q = s.port q :=
  (port_setPort_ne _ _ h).trans (heardOn_port_ne s h)

theorem drainHeard_kept (s : State) (p : Nat) : Kept 128 s (s.drainHeard p) :=
  setPort_kept _ _ _ (heardOn_kept s p (Kept.refl s) (by decide)) (by decide)

/-- Every tap that carries a stream has brought DRAINED. -/
def State.tapsDrained (s : State) : Bool :=
  (List.range 16).all (fun q => !(s.portState q == 2 && (s.port q).stream) || (s.port q).drainRx != 0)

/-- Every pausing port has brought DRAINED. -/
def State.pausesDrained (s : State) : Bool := (List.range 16).all (fun q => s.portState q != 5 || (s.port q).drainRx != 0)

theorem exec_drained (h : symOk 0x0E b = true) (hat : leAt b 2 4 = s.ewb.winAt % 2 ^ 32) : exec (.drained p b) s = .next (
    if s.insertion = 2 ∧ (s.drainHeard p).tapsDrained = true then (s.drainHeard p).enterRing
    else if s.insertion = 5 ∧ (s.drainHeard p).pausesDrained = true then (s.drainHeard p).leaveRing
    else s.drainHeard p) := by
  have hgo : ¬ leAt b 2 4 ≠ (s.heardOn p).ewb.winAt % 2 ^ 32 := by rw [heardOn_winAt]; exact not_not_intro hat
  rw [← drainHeard_insertion s p]
  exact congrArg Host.Outcome.next ((onSymbol_ok h s p _).trans (if_neg hgo))

theorem tapsDrained_of_others
    (h : ∀ q, q < 16 → q ≠ p → s.portState q = 2 → (s.port q).stream = true → (s.port q).drainRx ≠ 0) :
    (s.drainHeard p).tapsDrained = true := by
  refine List.all_eq_true.mpr fun q hq => ?_
  by_cases hqp : q = p
  · rw [hqp, drainHeard_port]
    exact Bool.or_true _
  · rw [drainHeard_portState, drainHeard_port_ne s hqp]
    have hq' := h q (List.mem_range.mp hq) hqp
    by_cases htap : s.portState q = 2 ∧ (s.port q).stream = true
    · simp [hq' htap.1 htap.2]
    · have hno : (s.portState q == 2 && (s.port q).stream) = false := by simpa using htap
      rw [hno]; rfl

theorem pausesDrained_of_others (h : ∀ q, q < 16 → q ≠ p → s.portState q = 5 → (s.port q).drainRx ≠ 0) :
    (s.drainHeard p).pausesDrained = true := by
  refine List.all_eq_true.mpr fun q hq => ?_
  by_cases hqp : q = p
  · rw [hqp, drainHeard_port]
    exact Bool.or_true _
  · rw [drainHeard_portState, drainHeard_port_ne s hqp]
    have hq' := h q (List.mem_range.mp hq) hqp
    by_cases hpausing : s.portState q = 5
    · simp [hq' hpausing]
    · simp [hpausing]

theorem drained_enters (h : symOk 0x0E b = true) (hat : leAt b 2 4 = s.ewb.winAt % 2 ^ 32) (hgrant : s.insertion = 2)
    (hall : ∀ q, q < 16 → q ≠ p → s.portState q = 2 → (s.port q).stream = true → (s.port q).drainRx ≠ 0) :
    Ends (.drained p b) s (fun t => t.insertion = 3 ∧ t.bypReady = true ∧ OnlyIn [.regs, .ewb] s t) :=
  ⟨_, (exec_drained h hat).trans (congrArg _ (if_pos ⟨hgrant, tapsDrained_of_others hall⟩)), enterRing_insertion _,
    enterRing_bypReady _, (enterRing_kept _ ((drainHeard_kept s p).mono (by decide)) (by decide)).only_regsEwb⟩

theorem drained_leaves (h : symOk 0x0E b = true) (hat : leAt b 2 4 = s.ewb.winAt % 2 ^ 32) (hleaving : s.insertion = 5)
    (hall : ∀ q, q < 16 → q ≠ p → s.portState q = 5 → (s.port q).drainRx ≠ 0) :
    Ends (.drained p b) s (fun t => t.insertion = 0 ∧ t.bypReady = false ∧ t.pendingW = 0 ∧ OnlyIn [.regs, .ewb] s t) := by
  have hout := leaveRing_outOfRing (s.drainHeard p)
  exact ⟨_, (exec_drained h hat).trans (congrArg _ ((if_neg (fun hg => by omega)).trans
      (if_pos ⟨hleaving, pausesDrained_of_others hall⟩))), hout.insertion, hout.bypReady, hout.pendingW,
    (leaveRing_kept _ ((drainHeard_kept s p).mono (by decide)) (by decide)).only_regsEwb⟩

theorem drained_noted (h : symOk 0x0E b = true) (hat : leAt b 2 4 = s.ewb.winAt % 2 ^ 32) (h2 : s.insertion ≠ 2)
    (h5 : s.insertion ≠ 5) : Ends (.drained p b) s (fun t =>
      t.port p = { (s.heardOn p).port p with drainRx := 1 } ∧ OnlyIn [.ewb] s t) :=
  ⟨_, (exec_drained h hat).trans (congrArg _ ((if_neg (fun hg => h2 hg.1)).trans (if_neg (fun hg => h5 hg.1)))),
    drainHeard_port s p, (drainHeard_kept s p).only_ewb⟩

/-! ### TAP_SILENT_ENTRY and ENTRY_TIMEOUT (R672) -/

/-- No stream is on the tap. -/
def State.tapSilent (s : State) (p : Nat) : State := s.setPort p { s.port p with stream := false }

theorem tapsSilent_view (s : State) {q : Nat} (hq : q < 16) :
    ((List.range 16).foldl State.tapSilent s).portView q = ({ s.port q with stream := false }, s.portState q) := by
  rw [foldl_ports State.portView (fun x => ({ x.1 with stream := false }, x.2)) State.tapSilent
    (fun t p => setPort_view_self t p _) (fun t p q h => setPort_view_ne t p q _ h) _ List.nodup_range,
    if_pos (List.mem_range.mpr hq)]
  rfl

theorem tapsSilent_port (s : State) {q : Nat} (hq : q < 16) :
    ((List.range 16).foldl State.tapSilent s).port q = { s.port q with stream := false } := (Prod.mk.inj (tapsSilent_view s hq)).1

theorem tapSilentEntry_enters (hwait : s.insertion = 1) (hrun : s.frozen = false) : Ends .tapSilentEntry s (fun t =>
    t.insertion = 3 ∧ t.bypReady = true ∧ (∀ p, p < 16 → (t.port p).stream = false ∧ (t.port p).needUp = false) ∧
    OnlyIn [.regs, .ewb] s t) := by
  have hgo : ¬ (s.insertion ≠ 1 ∨ s.frozen = true) := by rw [hrun]; simp [hwait]
  have hkept : Kept 129 s ((List.range 16).foldl State.tapSilent s) :=
    List.foldlRecOn (List.range 16) _ (Kept.refl s) (fun t ht p _ => setPort_kept t p _ ht (by decide))
  have hexec : exec .tapSilentEntry s = .next ((List.range 16).foldl State.tapSilent s).enterRing :=
    congrArg Host.Outcome.next (if_neg hgo)
  refine ⟨_, hexec, enterRing_insertion _, enterRing_bypReady _, fun p hp => ?_, (enterRing_kept _ hkept (by decide)).only_regsEwb⟩
  rw [enterRing_port _ hp, tapsSilent_port s hp]
  exact ⟨rfl, rfl⟩

theorem tapSilentEntry_idle (h : s.insertion ≠ 1 ∨ s.frozen = true) : exec .tapSilentEntry s = .next s :=
  congrArg Host.Outcome.next (if_pos h)

theorem entryTimeout_fails (hp : p < 16) (hin : s.insertion = 3) (hneed : (s.port p).needUp = true) (hdown : s.portState p ≠ 4) :
    Ends .entryTimeout s (fun t => t.insertion = 0 ∧ t.bypReady = false ∧ t.pendingW = 0 ∧ OnlyIn logParts s t) := by
  have hany : ((List.range 16).any fun p => (s.port p).needUp && s.portState p != 4) = true :=
    List.any_eq_true.mpr ⟨p, List.mem_range.mpr hp, by simp [hneed, hdown]⟩
  have hout : OutOfRing s.entryFail :=
    KeepsRegs.outOfRing (log_domain s.leaveRing _ _ _ _ _ _) (leaveRing_outOfRing s)
  exact ⟨_, congrArg Host.Outcome.next (if_pos ⟨hin, hany⟩), hout.insertion, hout.bypReady, hout.pendingW,
    (entryFail_kept s (Kept.refl s) (by decide)).onlyIn_logParts⟩

theorem entryTimeout_idle (h : s.insertion ≠ 3) : exec .entryTimeout s = .next s :=
  congrArg Host.Outcome.next (if_neg (fun hg => h hg.1))

/-! ### INSERTION_WINDOW (R673, R676) -/

theorem drainCheck_regs (s : State) (p : Nat) : (s.drainCheck p).regs = s.regs :=
  (drainCheck_kept (P := 67108992) s p (Kept.refl s) (by decide)).regs_eq (by decide)

theorem pausePort_regs (s : State) (p : Nat) : (s.pausePort p).regs = (s.goPort p 5).regs := by
  rw [State.pausePort, drainCheck_regs, sendOn_regs, setPort_regs]

theorem pausePorts_portState (s : State) {l : List Nat} (hl : l.Nodup) (q : Nat) :
    (l.foldl State.pausePort s).portState q = if q ∈ l then 5 else s.portState q :=
  foldl_ports State.portState (fun _ => 5) State.pausePort
    (fun t p => (portState_of_regs (pausePort_regs t p) p).trans (portState_goPort_self t (by decide)))
    (fun t p _ h => (portState_of_regs (pausePort_regs t p) _).trans (portState_goPort_ne t h)) l hl s q

theorem pausePorts_domain (s : State) (l : List Nat) : KeepsRegs DomainReg s (l.foldl State.pausePort s) :=
  keepsRegs_foldl (fun u p => (goPort_domain u p 5).of_regs (pausePort_regs u p)) l s

theorem pausePorts_kept {P : Nat} {t : State} (h : Kept P s t) (hP : allows 67108993 P = true) (l : List Nat) :
    Kept P s (l.foldl State.pausePort t) :=
  List.foldlRecOn l _ h (fun _ hu p _ => pausePort_kept _ p hu hP)

theorem exec_insertionWindow (hheld : s.pendingW ≠ 0) (hdue : s.pendingW ≤ s.tickCount) (hrun : s.frozen = false) :
    exec .insertionWindow s = .next (
      if s.ewb.winEnter = true then s.setPending 0
      else if s.insertion = 5 then
        let u := ((List.range 16).filter (fun p => (s.setPending 0).portState p == 4)).foldl State.pausePort (s.setPending 0)
        u.failNotice 4 u.trainedPorts 0 0
      else ((s.setPending 0).gapPorts s.ewb.winRing s.ewb.winDir).foldl State.pausePort (s.setPending 0)) :=
  congrArg Host.Outcome.next (if_neg (by rw [hrun]; simp [hheld]; omega))

theorem insertionWindow_idle (h : s.pendingW = 0 ∨ s.tickCount < s.pendingW ∨ s.frozen = true) :
    exec .insertionWindow s = .next s := congrArg Host.Outcome.next (if_pos h)

theorem insertionWindow_enterer (hheld : s.pendingW ≠ 0) (hdue : s.pendingW ≤ s.tickCount) (hrun : s.frozen = false)
    (henter : s.ewb.winEnter = true) : Ends .insertionWindow s (fun t => t.pendingW = 0 ∧ OnlyIn [.regs] s t) :=
  ⟨_, (exec_insertionWindow hheld hdue hrun).trans (congrArg _ (if_pos henter)), setPending_pendingW s 0,
    (setPending_kept (Kept.refl s) 0 (by decide)).only_regs⟩

theorem failNotice_portState (s : State) (cause : Nat) (ps : List Nat) (ring port p : Nat) :
    (s.failNotice cause ps ring port).portState p = s.portState p :=
  failNotice_fld s cause ps ring port (by simp only [R.EWB_P_STATUS, R.EWB_CNT_NOTICE_TX]; omega)

theorem failNotice_pendingW (s : State) (cause : Nat) (ps : List Nat) (ring port : Nat) :
    (s.failNotice cause ps ring port).pendingW = s.pendingW := by
  rw [failNotice_eq]
  exact (pendingW_setFld_ne _ _ _ (by decide)).trans (pendingW_of_regs (sendOn_regs _ _ _))

theorem gapPorts_nodup (s : State) (ring dir : Nat) : (s.gapPorts ring dir).Nodup := nodup_ports _

theorem setPending_gapPorts (s : State) (w ring dir : Nat) : (s.setPending w).gapPorts ring dir = s.gapPorts ring dir := by
  simp only [State.gapPorts, setPending_portState]

theorem insertionWindow_pauses (hheld : s.pendingW ≠ 0) (hdue : s.pendingW ≤ s.tickCount) (hrun : s.frozen = false)
    (hstays : s.ewb.winEnter = false) : Ends .insertionWindow s (fun t => t.pendingW = 0 ∧ (∀ p, p < 16 →
      t.portState p = (if s.portState p = 4 ∧ (s.insertion = 5 ∨ p ∈ s.gapPorts s.ewb.winRing s.ewb.winDir) then 5
        else s.portState p)) ∧ OnlyIn [.regs, .ewb, .out] s t) := by
  have hexec := exec_insertionWindow hheld hdue hrun
  rw [if_neg (by rw [hstays]; decide), setPending_gapPorts] at hexec
  have hkept : Kept 67108993 s (s.setPending 0) := setPending_kept (Kept.refl s) 0 (by decide)
  by_cases hleave : s.insertion = 5
  case pos =>
    rw [if_pos hleave] at hexec
    simp only [setPending_portState] at hexec
    refine ⟨_, hexec, ?_, fun p hp => ?_, (failNotice_kept _ _ _ _ _ (pausePorts_kept hkept (by decide) _)
      (by decide)).only_regsEwbOut⟩
    · rw [failNotice_pendingW, (pausePorts_domain _ _).pendingW, setPending_pendingW, Nat.zero_mod]
    · rw [failNotice_portState, pausePorts_portState _ (nodup_ports _), setPending_portState]
      exact if_congr (by simp [hp, hleave]) rfl rfl
  case neg =>
    rw [if_neg hleave] at hexec
    refine ⟨_, hexec, ?_, fun p hp => ?_, (pausePorts_kept hkept (by decide) _).only_regsEwbOut⟩
    · rw [(pausePorts_domain _ _).pendingW, setPending_pendingW, Nat.zero_mod]
    · rw [pausePorts_portState _ (gapPorts_nodup s _ _), setPending_portState]
      refine if_congr ?_ rfl rfl
      have hup : p ∈ s.gapPorts s.ewb.winRing s.ewb.winDir → s.portState p = 4 := fun hmem => by
        simpa using (And.left (Bool.and_eq_true_iff.mp (List.mem_filter.mp hmem).2))
      exact ⟨fun hmem => ⟨hup hmem, .inr hmem⟩, fun hg => hg.2.resolve_left hleave⟩

/-! ### WINDOW_ABANDON (R675) -/

/-- A port resumes traffic. -/
def State.unpaused (s : State) (p : Nat) : State :=
  (s.goPort p 4).setPort p { s.port p with pauseRx := false, pauseTx := false, drainTx := false, drainRx := 0 }

/-- What a port shows that has resumed. -/
def unpausedView (x : Port × Nat) : Port × Nat :=
  ({ x.1 with pauseRx := false, pauseTx := false, drainTx := false, drainRx := 0 }, 4)

/-- The ports that pause. -/
def State.pausing (s : State) : List Nat := (List.range 16).filter (fun p => s.portState p == 5)

theorem unpaused_view_self (s : State) (p : Nat) : (s.unpaused p).portView p = unpausedView (s.portView p) := by
  rw [State.unpaused, setPort_view_self, portState_goPort_self _ (by decide)]
  rfl

theorem unpaused_view_ne (s : State) (p q : Nat) (h : q ≠ p) : (s.unpaused p).portView q = s.portView q := by
  rw [State.unpaused, setPort_view_ne _ _ _ _ h, State.portView, port_goPort, portState_goPort_ne _ h, State.portView]

/-- The state in which the pausing ports have resumed and the window is flagged as abandoned. -/
def State.abandoned (s : State) : State := (s.pausing.foldl State.unpaused s).setFld F.EWB_STATUS_ABANDONED 1

theorem exec_windowAbandon (h : s.insertion ≠ 2) : exec .windowAbandon s = .next (
    if s.pausing.isEmpty = true then s else s.abandoned.log 0x0B02 2 0 0xFFFF 0 s.ewb.winAt) :=
  congrArg Host.Outcome.next (if_neg h)

theorem mem_pausing (hp : p < 16) : p ∈ s.pausing ↔ s.portState p = 5 := by simp [State.pausing, hp]

theorem abandoned_view (hp : p < 16) (h : s.portState p = 5) : s.abandoned.portView p = unpausedView (s.portView p) := by
  have hwalk := foldl_ports State.portView unpausedView State.unpaused unpaused_view_self unpaused_view_ne s.pausing
    (nodup_ports _) s p
  rw [if_pos ((mem_pausing hp).mpr h)] at hwalk
  rw [← hwalk, State.portView, State.abandoned, port_setFld, portState_setFld_domain _ _ _ _ (by decide), State.portView]

theorem abandoned_kept (s : State) : Kept 129 s s.abandoned := by
  refine setFld_kept (List.foldlRecOn s.pausing _ (Kept.refl s) fun t ht p _ => ?_) _ _ (by decide)
  exact setPort_kept _ p _ (goPort_kept t p 4 ht (by decide)) (by decide)

theorem abandoned_flag (s : State) : s.abandoned.bit F.EWB_STATUS_ABANDONED = true := by
  rw [State.bit, State.abandoned, fld_setFld_fits _ (by decide) (by decide) (by decide)]
  rfl

theorem windowAbandon_waits (h : s.insertion = 2) : Ends .windowAbandon s (fun t => t.insertion = 1 ∧ OnlyIn [.regs] s t) :=
  ⟨_, congrArg Host.Outcome.next (if_pos h), setInsert_insertion s (by decide), (setFld_kept (Kept.refl s) _ _ (by decide)).only_regs⟩

theorem windowAbandon_resumes (hp : p < 16) (h : s.insertion ≠ 2) (hpausing : s.portState p = 5) :
    Ends .windowAbandon s (fun t => t.portState p = 4 ∧ (t.port p).pauseTx = false ∧ (t.port p).drainTx = false ∧
      t.bit F.EWB_STATUS_ABANDONED = true ∧ OnlyIn logParts s t) := by
  have hsome : ¬ s.pausing.isEmpty = true := fun hempty =>
    List.not_mem_nil (List.isEmpty_iff.mp hempty ▸ (mem_pausing hp).mpr hpausing)
  obtain ⟨hport, hstate⟩ := Prod.mk.inj (abandoned_view hp hpausing)
  refine ⟨_, (exec_windowAbandon h).trans (congrArg _ (if_neg hsome)), ?_, ?_, ?_, ?_,
    (log_kept _ _ _ _ _ _ _ ((abandoned_kept s).mono (by decide)) (by decide)).onlyIn_logParts⟩
  · rw [portState_log _ hp, hstate]
  · rw [port_log, hport]
  · rw [port_log, hport]
  · rw [State.bit, log_fld _ _ _ _ _ _ _ _ (.inl (by decide))]
    exact abandoned_flag s

theorem windowAbandon_idle (h : s.insertion ≠ 2) (hnone : ∀ p, p < 16 → s.portState p ≠ 5) : exec .windowAbandon s = .next s := by
  have hempty : s.pausing.isEmpty = true := by
    rw [List.isEmpty_iff, State.pausing, List.filter_eq_nil_iff]
    exact fun p hp => by simp [hnone p (List.mem_range.mp hp)]
  exact (exec_windowAbandon h).trans (congrArg _ (if_pos hempty))

end Sys2Proof.Machine
end

section
/-! SUPPORT. FAIL_NOTICE: forwarding, and the collectives that end with it (R532, R680). -/

namespace Sys2Proof.Machine

variable {s t : State} {p n uid : Nat} {b : List Byte} {k : Block}

/-! ### Dropping the blocks of a command (R507) -/

theorem inst_congr (h : t.ffe = s.ffe) (i : Nat) : t.inst i = s.inst i := by rw [State.inst, h, State.inst]

theorem inst_modInst_self (s : State) (i : Nat) (f : Inst → Inst) : (s.modInst i f).inst i = f (s.inst i) :=
  fget_fset_self _ _ _ _

theorem inst_modInst_ne (s : State) (f : Inst → Inst) {i j : Nat} (h : j ≠ i) : (s.modInst i f).inst j = s.inst j :=
  fget_fset_ne _ _ _ _ _ h

/-- The head of a sub-queue is dropped. -/
def headDropped (c : Block → Bool) : List Block → Bool
  | b :: _ => c b
  | [] => false

/-- An engine without the blocks of VF `n` that satisfy `c`. -/
def Inst.without (x : Inst) (n : Nat) (c : Block → Bool) : Inst :=
  if (x.queueOf n).any c then
    { x with
      sub := fset (fun _ => []) x.sub n ((x.queueOf n).filter (fun b => !c b))
      busy := if x.busy = n && headDropped c (x.queueOf n) then 0 else x.busy
      worked := if x.busy = n && headDropped c (x.queueOf n) then false else x.worked }
  else x

/-- The step of `dropBlocks` at an engine. -/
def State.dropAt (n : Nat) (c : Block → Bool) (s : State) (i : Nat) : State :=
  if ((s.inst i).queueOf n).any c then
    (s.abortNotices (((s.inst i).queueOf n).filter c)).modInst i (fun x => { x with
      sub := fset (fun _ => []) x.sub n (((s.inst i).queueOf n).filter (fun b => !c b))
      busy := if x.busy = n && headDropped c ((s.inst i).queueOf n) then 0 else x.busy
      worked := if x.busy = n && headDropped c ((s.inst i).queueOf n) then false else x.worked })
  else s

theorem dropBlocks_eq (s : State) (n : Nat) (c : Block → Bool) : s.dropBlocks n c = instances.foldl (State.dropAt n c) s := by
  have hstep : ∀ (u : State) (i : Nat), State.dropAt n c u i =
      (if ((u.inst i).queueOf n).any c then
        (u.abortNotices (((u.inst i).queueOf n).filter c)).modInst i (fun x => { x with
          sub := fset (fun _ => []) x.sub n (((u.inst i).queueOf n).filter (fun b => !c b))
          busy := if x.busy = n && (match (u.inst i).queueOf n with | b :: _ => c b | [] => false) then 0 else x.busy
          worked := if x.busy = n && (match (u.inst i).queueOf n with | b :: _ => c b | [] => false) then false else x.worked })
      else u) := fun u i => by
    unfold State.dropAt
    cases (u.inst i).queueOf n <;> rfl
  rw [funext fun u => funext (hstep u)]
  rfl

theorem abortNotices_inst (s : State) (bs : List Block) (i : Nat) : (s.abortNotices bs).inst i = s.inst i :=
  inst_congr ((abortNotices_kept (P := 67108864) s bs (Kept.refl s) (by decide)).parts .ffe (by decide)) i

theorem dropAt_self (n : Nat) (c : Block → Bool) (s : State) (i : Nat) : (s.dropAt n c i).inst i = (s.inst i).without n c := by
  unfold State.dropAt Inst.without
  split
  · rw [inst_modInst_self, abortNotices_inst]
  · rfl

theorem dropAt_ne (n : Nat) (c : Block → Bool) (s : State) (i j : Nat) (h : j ≠ i) : (s.dropAt n c i).inst j = s.inst j := by
  unfold State.dropAt
  split
  · rw [inst_modInst_ne _ _ h, abortNotices_inst]
  · rfl

theorem dropBlocks_inst (s : State) (n : Nat) (c : Block → Bool) {i : Nat} (hi : i < 29) :
    (s.dropBlocks n c).inst i = (s.inst i).without n c := by
  rw [dropBlocks_eq, instances, foldl_ports State.inst (fun x => x.without n c) (State.dropAt n c) (dropAt_self n c) (dropAt_ne n c) _
    List.nodup_range, if_pos (List.mem_range.mpr hi)]

theorem without_queueOf (x : Inst) (n : Nat) (c : Block → Bool) :
    (x.without n c).queueOf n = (x.queueOf n).filter (fun b => !c b) := by
  unfold Inst.without
  split
  next => exact fget_fset_self _ _ _ _
  next hnone =>
    refine (List.filter_eq_self.mpr fun b hb => ?_).symm
    simpa using fun hc => hnone (List.any_eq_true.mpr ⟨b, hb, hc⟩)

/-- The engine has no step to carry out. -/
def Inst.idle (x : Inst) : Prop := x.busy = 0 ∨ x.worked = true ∨ (x.queueOf x.busy).head? = none

theorem Inst.idle.without {x : Inst} (h : x.idle) (n : Nat) (c : Block → Bool) : (x.without n c).idle := by
  unfold Inst.without
  split
  case isFalse => exact h
  case isTrue hany =>
    cases hdrop : (decide (x.busy = n) && headDropped c (x.queueOf n))
    case true => exact .inl rfl
    case false =>
      rcases h with h | h | h
      · exact .inl h
      · exact .inr (.inl h)
      · refine .inr (.inr ?_)
        have hne : x.busy ≠ n := by
          rintro rfl
          rw [List.head?_eq_none_iff.mp h] at hany
          cases hany
        exact (congrArg List.head? (fget_fset_ne _ _ _ _ _ hne)).trans h

theorem stepping_of_idle (h : (s.inst 27).idle) : s.stepping 27 = none := by
  unfold State.stepping
  dsimp only
  split
  next => rfl
  next hbusy =>
    simp only [Bool.or_eq_true, decide_eq_true_eq, not_or] at hbusy
    rcases h with h | h | h
    · exact absurd h hbusy.1.1
    · exact absurd h hbusy.1.2
    · exact h

theorem idle_of_stepping (hrun : s.frozen = false) (h : s.stepping 27 = none) : (s.inst 27).idle := by
  unfold State.stepping at h
  dsimp only at h
  split at h
  next hbusy =>
    simp only [hrun, Bool.or_false, Bool.or_eq_true, decide_eq_true_eq] at hbusy
    exact hbusy.imp_right .inl
  next => exact .inr (.inr h)

theorem running_of_stepping {i : Nat} (h : s.stepping i = some k) : s.frozen = false := by
  unfold State.stepping at h
  dsimp only at h
  split at h
  next => cases h
  next hbusy => exact eq_false_of_ne_true (not_or.mp (by simpa only [Bool.or_eq_true] using hbusy)).2

/-! ### A collective that ends (R530, R532) -/

theorem stopCmd_inst (s : State) (n uid : Nat) {i : Nat} (hi : i < 29) :
    (s.stopCmd n uid).inst i = (s.inst i).without n (fun b => b.uid == uid) := by
  have hclusters : (s.stopOnClusters n uid).ffe = s.ffe :=
    (stopOnClusters_kept (P := 6476349441) s n uid (Kept.refl s) (by decide)).parts .ffe (by decide)
  have hseq : (s.stopCmd n uid).ffe = ((s.stopOnClusters n uid).dropBlocks n (fun b => b.uid == uid)).ffe :=
    (stopSeq_kept (P := 6443581441) _ n uid (Kept.refl _) (by decide)).parts .ffe (by decide)
  rw [inst_congr hseq, dropBlocks_inst _ _ _ hi, inst_congr hclusters]

/-- The state in which the blocks of a faulted block's command are gone. -/
def State.blocksGone (s : State) (i : Nat) (k : Block) (kind : Nat) : State :=
  (s.ffeFault kind k.vf i k.op).stopCmd k.vf k.uid

theorem blockFault_eq (s : State) (i : Nat) (status detail kind : Nat) (huid : k.uid ≠ 0) :
    s.blockFault i k status detail kind =
      (s.blocksGone i k kind).faultUid k.vf k.uid status detail 0 i 0 := by
  unfold State.blockFault
  simp only [if_neg huid]
  rfl

theorem blocksGone_inst (s : State) (j : Nat) (k : Block) (kind : Nat) {i : Nat} (hi : i < 29) :
    (s.blocksGone j k kind).inst i = (s.inst i).without k.vf (fun b => b.uid == k.uid) := by
  rw [State.blocksGone, stopCmd_inst _ _ _ hi]
  exact congrArg (fun x : Inst => x.without k.vf _)
    (inst_congr ((ffeFault_kept (P := 1) s _ _ _ _ (Kept.refl s) (by decide)).parts .ffe (by decide)) i)

theorem blocksGone_findCmd (s : State) (j : Nat) (k : Block) (kind n uid : Nat) :
    (s.blocksGone j k kind).findCmd n uid = s.findCmd n uid := by
  refine findCmd_congr ?_ n uid
  rw [State.blocksGone, stopCmd_qs]
  exact (ffeFault_kept (P := 1) s _ _ _ _ (Kept.refl s) (by decide)).qs (by decide)

theorem faultUid_of_abort {q : Nat} (hfind : (s.findCmd n uid).map Prod.fst = some q) (exc arg pc : Nat) :
    s.faultUid n uid 0x30 0 exc arg pc = if s.recovering then s else s.endCmd n q uid 0x30 0 0 := by
  obtain ⟨⟨q', c⟩, hc, rfl⟩ := Option.map_eq_some_iff.mp hfind
  unfold State.faultUid
  rw [hc]
  rfl

theorem count_fltState (s : State) (n : Nat) : (s.count R.FFE_CNT_COLL_ABORT n).fltState = s.fltState := by
  unfold State.count
  split
  · exact fld_addFld_ne s _ _ _ (by decide)
  · rfl

theorem count_only (s : State) (a n : Nat) : Kept 1 s (s.count a n) := count_kept s a n (Kept.refl s) (by decide)

theorem endCmd_ffe (s : State) (n q uid status : Nat) : (s.endCmd n q uid status 0 0).ffe = s.ffe :=
  (endCmd_kept (P := 68165697) s n q uid status 0 0 (Kept.refl s) (by decide)).parts .ffe (by decide)

section Aborted
variable {q : Nat} (hfind : (s.findCmd k.vf k.uid).map Prod.fst = some q) (huid : k.uid ≠ 0)
include hfind huid

theorem collAbort_eq (i : Nat) : s.collAbort i k =
    State.count (if (s.blocksGone i k 5).recovering then s.blocksGone i k 5
      else (s.blocksGone i k 5).endCmd k.vf q k.uid 0x30 0 0) R.FFE_CNT_COLL_ABORT 1 := by
  rw [State.collAbort, blockFault_eq s i _ _ _ huid, faultUid_of_abort (by rw [blocksGone_findCmd]; exact hfind)]

theorem collAbort_inst (j : Nat) {i : Nat} (hi : i < 29) :
    (s.collAbort j k).inst i = (s.inst i).without k.vf (fun b => b.uid == k.uid) := by
  rw [collAbort_eq hfind huid, inst_congr ((count_only _ _ _).parts .ffe (by decide)), ← blocksGone_inst s j k 5 hi]
  split
  · rfl
  · exact inst_congr (endCmd_ffe _ _ _ _ _) i

theorem collAbort_blockEnds (i : Nat) : BlockEnds s (s.collAbort i k) k 0x30 0 := by
  intro r _ hr _
  obtain rfl : q = r := Option.some.inj (hfind.symm.trans hr)
  refine ⟨fun j c hj hc => ?_, fun hflt => ?_⟩
  · rw [collAbort_inst hfind huid i hj, without_queueOf] at hc
    simpa using (List.mem_filter.mp hc).2
  · rw [collAbort_eq hfind huid, count_fltState] at hflt
    have hlive : (s.blocksGone i k 5).recovering = false := by
      cases hrec : (s.blocksGone i k 5).recovering
      case false => rfl
      case true =>
        rw [hrec, if_pos rfl] at hflt
        exact absurd (eq_of_beq hrec) hflt
    rw [collAbort_eq hfind huid, hlive, if_neg Bool.false_ne_true]
    obtain ⟨⟨q', c⟩, hc, rfl⟩ := Option.map_eq_some_iff.mp hfind
    have hended := endCmd_cmdEnded (s := s.blocksGone i k 5) (status := 0x30) rfl 0 0
      (mem_of_findCmd ((blocksGone_findCmd s i k 5 k.vf k.uid).trans hc))
    exact hended.congr ((count_only _ _ _).qs (by decide))

end Aborted

/-! ### FAIL_NOTICE -/

/-- What a FAIL_NOTICE is known by: its ORIGIN and its NID. -/
def noticeKey (b : List Byte) : Nat × Nat := (leAt b 2 2 % 512, leAt b 4 1)

/-- A FAIL_NOTICE acts on one engine: a collective that it concerns and that is being stepped ends. -/
def State.noticeAt (b : List Byte) (s : State) (i : Nat) : State :=
  match s.stepping i with
  | some k => if k.cls = 6 && s.noticeEnds b k.bytes then s.collAbort i k else s
  | none => s

/-- The state in which a new notice has been forwarded and counted. -/
def State.noticed (s : State) (p : Nat) (b : List Byte) : State :=
  (({ s with ewb := { s.ewb with seenNotice := (noticeKey b :: s.ewb.seenNotice).take 256 } } : State).sendOn
    (s.trainedPorts.filter (fun q => q % 4 == opposite p % 4)) b).bump F.EWB_CNT_NOTICE_RX_COUNT

theorem mem_trainedPorts (h : p ∈ s.trainedPorts) : s.portState p ≠ 2 := by
  have htrained := (List.mem_filter.mp h).2
  intro h2
  simp [h2] at htrained

theorem exec_failNotice (h : symOk 0x0B b = true) (hp : p ∈ s.trainedPorts) : exec (.failNotice p b) s = .next (
    let r := s.forwardNotice p b
    if (!r.2) = true then r.1 else [26, 27].foldl (State.noticeAt b) r.1) := by
  have hheard : s.heardOn p = s := heardOn_of_not_tap (mem_trainedPorts hp)
  have hin : ¬ (!s.trainedPorts.contains p) = true := by
    rw [List.contains_iff_mem.mpr hp]; decide
  have hexec : exec (.failNotice p b) s = .next ((fun u : State =>
      let r := u.forwardNotice p b
      if (!r.2) = true then r.1 else [26, 27].foldl (State.noticeAt b) r.1) (s.heardOn p)) :=
    congrArg Host.Outcome.next ((if_neg hin).trans (onSymbol_ok h s p _))
  rwa [hheard] at hexec

theorem forwardNotice_seen (h : noticeKey b ∈ s.ewb.seenNotice) : s.forwardNotice p b = (s, false) :=
  if_pos (List.contains_iff_mem.mpr h)

theorem forwardNotice_new (h : noticeKey b ∉ s.ewb.seenNotice) : s.forwardNotice p b = (s.noticed p b, true) :=
  if_neg (fun hc => h (List.contains_iff_mem.mp hc))

theorem failNotice_repeated (h : symOk 0x0B b = true) (hp : p ∈ s.trainedPorts) (hseen : noticeKey b ∈ s.ewb.seenNotice) :
    Ends (.failNotice p b) s (fun t => t = s) := by
  have hexec := exec_failNotice h hp
  rw [forwardNotice_seen hseen] at hexec
  exact ⟨s, hexec, rfl⟩

theorem exec_failNotice_new (h : symOk 0x0B b = true) (hp : p ∈ s.trainedPorts) (hnew : noticeKey b ∉ s.ewb.seenNotice) :
    exec (.failNotice p b) s = .next (((s.noticed p b).noticeAt b 26).noticeAt b 27) := by
  have hexec := exec_failNotice h hp
  rw [forwardNotice_new hnew] at hexec
  exact hexec

theorem noticed_kept (s : State) (p : Nat) (b : List Byte) : Kept 67108993 s (s.noticed p b) :=
  bump_kept (sendOn_kept _ _ _ ((Kept.refl s).set_ewb _ (by decide)) (by decide)) _ (by decide)

theorem noticed_stepping (s : State) (p : Nat) (b : List Byte) (i : Nat) : (s.noticed p b).stepping i = s.stepping i := by
  have hinst : (s.noticed p b).inst i = s.inst i := inst_congr ((noticed_kept s p b).parts .ffe (by decide)) i
  have hfrozen : (s.noticed p b).frozen = s.frozen := by
    rw [State.frozen, State.noticed, fld_bump_ne _ _ _ (by decide), fld_of_regs (sendOn_regs _ _ _)]
    rfl
  simp only [State.stepping, hinst, hfrozen]

theorem noticeAt_none {i : Nat} (h : s.stepping i = none) : s.noticeAt b i = s := by
  rw [State.noticeAt, h]

theorem noticed_out (s : State) (p : Nat) (b : List Byte) : (s.noticed p b).out =
    ((s.trainedPorts.filter (fun q => q % 4 == opposite p % 4)).map (fun q => Output.symbol q b)).reverse ++ s.out := by
  rw [State.noticed, bump_out, sendOn_eq]

theorem noticed_count (s : State) (p : Nat) (b : List Byte) : (s.noticed p b).fld F.EWB_CNT_NOTICE_RX_COUNT =
    min (s.fld F.EWB_CNT_NOTICE_RX_COUNT + 1) (2 ^ 32 - 1) := by
  rw [State.noticed, fld_bump_self _ _ (by decide) (by decide), fld_of_regs (sendOn_regs _ _ _)]
  rfl

theorem noticed_seen (s : State) (p : Nat) (b : List Byte) : noticeKey b ∈ (s.noticed p b).ewb.seenNotice := by
  rw [State.noticed, bump_ewb, sendOn_eq]
  exact List.mem_cons_self

theorem failNotice_forwards (h : symOk 0x0B b = true) (hp : p ∈ s.trainedPorts) (hnew : noticeKey b ∉ s.ewb.seenNotice)
    (h26 : s.stepping 26 = none) (h27 : s.stepping 27 = none) : Ends (.failNotice p b) s (fun t =>
      noticeKey b ∈ t.ewb.seenNotice ∧ t.out = ((s.trainedPorts.filter (fun q => q % 4 == opposite p % 4)).map
        (fun q => Output.symbol q b)).reverse ++ s.out ∧
      t.fld F.EWB_CNT_NOTICE_RX_COUNT = min (s.fld F.EWB_CNT_NOTICE_RX_COUNT + 1) (2 ^ 32 - 1) ∧
      OnlyIn [.regs, .ewb, .out] s t) := by
  have hexec := exec_failNotice_new h hp hnew
  rw [noticeAt_none (i := 26) ((noticed_stepping ..).trans h26), noticeAt_none ((noticed_stepping ..).trans h27)] at hexec
  exact ⟨_, hexec, noticed_seen s p b, noticed_out s p b, noticed_count s p b, (noticed_kept s p b).only_regsEwbOut⟩

theorem noticed_noticeEnds (s : State) (p : Nat) (b g : List Byte) : (s.noticed p b).noticeEnds b g = s.noticeEnds b g := by
  have hregs : KeepsRegs (fun a => a < 0x800020) s (s.noticed p b) := by
    refine KeepsRegs.bump (KeepsRegs.of_regs (KeepsRegs.refl s) ?_) (by decide)
    rw [sendOn_regs]
  have hsize : ∀ ring, (s.noticed p b).ringSize ring = s.ringSize ring := fun ring => by
    simp only [State.ringSize, State.ySize, hregs.fld (f := F.EWB_DOMAIN_Y_SIZE) (by decide)]
  have hown : (s.noticed p b).address = s.address := congrArg (fun w => w.toNat % 512) (hregs R.ID_POSITION (by decide))
  simp only [State.noticeEnds, State.isMember, hsize, hown]

theorem failNotice_ends (h : symOk 0x0B b = true) (hp : p ∈ s.trainedPorts) (hnew : noticeKey b ∉ s.ewb.seenNotice)
    (h26 : s.stepping 26 = some k) (h27 : s.stepping 27 = none) (hcls : k.cls = 6) (hends : s.noticeEnds b k.bytes = true) :
    Ends (.failNotice p b) s (fun t => BlockEnds s t k 0x30 0) := by
  have hstep : (s.noticed p b).stepping 26 = some k := (noticed_stepping s p b 26).trans h26
  have habort : (s.noticed p b).noticeAt b 26 = (s.noticed p b).collAbort 26 k := by
    rw [State.noticeAt, hstep]
    exact if_pos (by rw [noticed_noticeEnds, hends, hcls]; rfl)
  refine ⟨_, exec_failNotice_new h hp hnew, fun q hvf hfind huid => ?_⟩
  have hfind' : ((s.noticed p b).findCmd k.vf k.uid).map Prod.fst = some q := by
    rw [findCmd_congr ((noticed_kept s p b).qs (by decide))]
    exact hfind
  have hidle : ((s.noticed p b).inst 27).idle :=
    idle_of_stepping (running_of_stepping hstep) ((noticed_stepping s p b 27).trans h27)
  have hidle' : (((s.noticed p b).collAbort 26 k).inst 27).idle := by
    rw [collAbort_inst hfind' huid 26 (by decide)]
    exact hidle.without _ _
  rw [habort, noticeAt_none (stepping_of_idle hidle')]
  exact collAbort_blockEnds hfind' huid 26 q hvf hfind' huid

end Sys2Proof.Machine
end

section
/-! The links of Ewebin, put together from the rules of each command (O59). -/

namespace Sys2Proof.Machine

/-- Settles O59: each symbol, flit, training event, control write and window event by the rule of its command. -/
theorem linksTrainCarryAndWindow : Obligations.LinksTrainCarryAndWindow := by
  unfold Obligations.LinksTrainCarryAndWindow
  refine ⟨fun p b s v hp hv => ?_, fun w ring dir s hring hdir => ?_, fun s => ?_⟩
  · subst hv
    refine ⟨fun type cmd hcmd hbad => badSymbol_counts s hbad hcmd, fun f ok corr unc => ⟨exec_flitReceive_idle f ok corr unc, ?flit⟩,
      ?credit, ?ack, ?nak, fun turn h => delayReq_answers turn h, ?delayResp, ?notice, ?announce, ?pause, ?drained, ?hello, ?key,
      ?leg, ?link, ?failed, ?retry, ?element, ⟨peerStreamAppear_retrains, peerStreamAppear_noted⟩,
      fun w hdie => ⟨portCtrlWrite_disables hp hdie, fun hon => ?ctrl⟩, fun w => portCtrlWrite_noDie⟩
    case flit =>
      intro hrun hup
      refine ⟨flitReceive_nak hp hrun hup, ?_⟩
      rintro own peer rfl hkind hseq rfl rfl
      exact ⟨flitReceive_delivers hp hrun hup hkind hseq, fun g hown hbetween hclosed hg =>
        flitReceive_forwards hp hrun hup hkind hseq hown hbetween hclosed hg⟩
    case credit => exact fun h => ⟨credit_idle h, fun f x => credit_sends h⟩
    case ack => exact fun h hempty hstate => ack_ends h hempty hstate
    case nak =>
      rintro q run again h rfl rfl rfl
      exact ⟨nak_resends hp h, nak_fails hp h⟩
    case delayResp =>
      rintro t4 l h rfl
      exact ⟨delayResp_unasked t4 h, delayResp_samples t4 h⟩
    case notice =>
      rintro key h htrained rfl
      exact ⟨failNotice_repeated h htrained, failNotice_forwards h htrained, fun k hnew => failNotice_ends h htrained hnew⟩
    case announce =>
      rintro kind w h rfl rfl
      exact ⟨fun htap hwait hkind => ⟨announce_grants h htap hwait hkind, announce_flags h htap hwait hkind⟩,
        announce_adopts h, announce_late h⟩
    case pause => exact fun h hat htap => ⟨pause_drains h hat, pause_noted h hat htap⟩
    case drained => exact fun h hat => ⟨drained_enters h hat, drained_leaves h hat, drained_noted h hat⟩
    case hello => exact fun lanes h => ⟨trainHello_answers lanes h, trainHello_elsewhere lanes h⟩
    case key =>
      rintro n rfl hlo hhi h htrain
      exact trainKey_answers hlo hhi h htrain
    case leg =>
      exact ⟨fun h => ⟨legTrainEnd_trained h, legTrainEnd_fails h⟩, legTrainEnd_elsewhere⟩
    case link =>
      intro r h crypt same hh hcrypt hsame
      exact ⟨fun hstate => linkTrainEnd_elsewhere hstate r, linkTrainEnd_timeout,
        fun htrain hdone => linkTrainEnd_up hh hcrypt hsame htrain hdone,
        fun c htrain hdone => linkTrainEnd_refused hh hcrypt hsame htrain hdone⟩
    case failed => exact ⟨portFailed_fails hp, portFailed_retrains, portFailed_elsewhere⟩
    case retry => exact fun lost => ⟨portRetryTimer_legs, portRetryTimer_link, portRetryTimer_elsewhere⟩
    case element => exact ⟨elementStateChange_opens, elementStateChange_closes, elementStateChange_noted⟩
    case ctrl => exact portCtrlWrite_enables hp hdie hon
  · subst hring hdir
    exact ⟨ewbAdmit_idle, ewbAdmit_refused, ewbAdmit_announces, ewbRemove_idle, ewbRemove_refused, ewbRemove_announces⟩
  · exact ⟨insertionWindow_idle, fun hheld hdue hrun => ⟨insertionWindow_enterer hheld hdue hrun,
      insertionWindow_pauses hheld hdue hrun⟩, tapSilentEntry_enters, tapSilentEntry_idle, fun p => entryTimeout_fails,
      entryTimeout_idle, windowAbandon_waits, fun p => windowAbandon_resumes, windowAbandon_idle⟩

end Sys2Proof.Machine
end

section
/-! SUPPORT. What a fresh lookup of slice memory depends on (R346, R355), and what a write whose check passed leaves. -/

namespace Sys2Proof.Machine

variable {s t : State} {n a len d : Nat} {bs : List Byte}

/-! ### What a lookup depends on -/

/-- VF `n`'s memory is in `t` where it is in `s`: the memory, the slices, the free values and the two registers that bound its
windows are as they were. -/
structure SameView (n : Nat) (s t : State) : Prop where
  mem : t.mem = s.mem
  sec : t.sec = s.sec
  slices : t.slices = s.slices
  draws : t.freeCount = s.freeCount
  commons : t.fld (F.SLC_S_COMMONS_UNITS n) = s.fld (F.SLC_S_COMMONS_UNITS n)
  model : t.fld F.SLC_TEN_STATUS_MODEL = s.fld F.SLC_TEN_STATUS_MODEL

theorem SameView.of_regs (hregs : t.regs = s.regs) (hmem : t.mem = s.mem) (hsec : t.sec = s.sec) (hslices : t.slices = s.slices)
    (hdraws : t.freeCount = s.freeCount) (n : Nat) : SameView n s t :=
  ⟨hmem, hsec, hslices, hdraws, fld_of_regs hregs _, fld_of_regs hregs _⟩

theorem SameView.setFld (h : SameView n s t) {f : Fld} (hcommons : (F.SLC_S_COMMONS_UNITS n).addr ≠ f.addr)
    (hmodel : F.SLC_TEN_STATUS_MODEL.addr ≠ f.addr) (v : Nat) : SameView n s (t.setFld f v) where
  mem := h.mem
  sec := h.sec
  slices := h.slices
  draws := h.draws
  commons := (fld_setFld_ne t f _ v hcommons).trans h.commons
  model := (fld_setFld_ne t f _ v hmodel).trans h.model

section
variable (h : SameView n s t)
include h

theorem SameView.xlate (agent x : Nat) (write : Bool) : t.xlate agent n x write = s.xlate agent n x write := by
  have huse : t.useEntry agent n (x / 0x200000) = s.useEntry agent n (x / 0x200000) := by
    unfold State.useEntry State.copyOf State.entry State.free
    rw [h.mem, h.draws, slice_congr h.slices]
  simp only [State.xlate, huse, h.commons, h.model, slice_congr h.slices, h.mem]

theorem SameView.dpaByte (d : Nat) : t.dpaByte d = s.dpaByte d := by
  unfold State.dpaByte
  rw [h.mem, h.sec]

theorem SameView.poisoned (d : Nat) : t.poisoned d = s.poisoned d := by
  unfold State.poisoned
  rw [h.mem]

theorem SameView.ctrlByte (o : Nat) : t.ctrlByte n o = s.ctrlByte n o := by
  have hslice : t.slice n = s.slice n := slice_congr h.slices n
  have hentry : ∀ g, t.entry n g = s.entry n g := fun g => by rw [State.entry, hslice, State.entry]
  have hpinned : t.pinned n = s.pinned n := by rw [State.pinned, hslice, State.pinned]
  have hcharge : t.charge n = s.charge n := by rw [State.charge, h.mem, State.charge]
  unfold State.ctrlByte
  rw [hslice, hentry, hpinned, hcharge]

theorem SameView.memBytes (agent x k : Nat) : t.memBytes agent n x k = s.memBytes agent n x k := by
  refine List.map_congr_left fun y _ => ?_
  simp only [State.sliceByte, h.ctrlByte, h.xlate, h.dpaByte]

theorem SameView.memCheck (agent x k : Nat) (write ctrl : Bool) :
    t.memCheck agent n x k write ctrl = s.memCheck agent n x k write ctrl := by
  simp only [State.memCheck, State.validAt, h.xlate, h.poisoned]

theorem SameView.reach (agent x k : Nat) (write : Bool) : t.reach agent n x k write = s.reach agent n x k write := by
  simp only [State.reach, h.xlate]

end

/-! ### A write whose check passed -/

theorem validAt_of_memCheck {agent : Nat} {write ctrl : Bool} (h : s.memCheck agent n a len write ctrl = none) {x : Nat}
    (hx : x ∈ addrs a len) : s.validAt agent n write ctrl x = true := by
  unfold State.memCheck at h
  split at h
  next => cases h
  next hnone => simpa using List.find?_eq_none.mp hnone x hx

theorem xlate_of_memCheck {agent : Nat} {write : Bool} (h : s.memCheck agent n a len write false = none) {x : Nat}
    (hx : x ∈ addrs a len) : ∃ d, s.xlate agent n x write = some d := by
  have hvalid := validAt_of_memCheck h hx
  rw [State.validAt, Bool.false_and, Bool.false_or] at hvalid
  exact Option.isSome_iff_exists.mp hvalid

/-- No address that translates lies in the control window (Table 09-4). -/
theorem ctrlOffset_of_xlate {agent x : Nat} {write : Bool} (h : s.xlate agent n x write = some d) : ctrlOffset x = none := by
  refine if_neg fun hctrl => ?_
  simp only [Bool.and_eq_true, decide_eq_true_eq] at hctrl
  unfold State.xlate at h
  split at h
  next hlow => omega
  next =>
    split at h
    next hmid => simp only [Bool.and_eq_true, decide_eq_true_eq] at hmid; omega
    next =>
      split at h
      next hhigh => simp only [Bool.and_eq_true, decide_eq_true_eq] at hhigh; omega
      next => cases h

theorem ctrlOffset_of_memCheck {agent : Nat} {write : Bool} (h : s.memCheck agent n a len write false = none) (hlen : 1 ≤ len) :
    ctrlOffset a = none := by
  obtain ⟨d, hd⟩ := xlate_of_memCheck h (x := a) (List.mem_map.mpr ⟨0, List.mem_range.mpr hlen, rfl⟩)
  exact ctrlOffset_of_xlate hd

/-- One byte written, its unit free of error again. -/
def State.putByte (s : State) (p : Nat × Byte) : State := (s.dpaPut p.1 p.2).setPoison p.1 0

theorem setPoison_dpaByte (s : State) (d v x : Nat) : (s.setPoison d v).dpaByte x = s.dpaByte x := rfl

theorem putByte_self (s : State) (d : Nat) (b : Byte) : (s.putByte (d, b)).dpaByte d = b := by
  rw [State.putByte, setPoison_dpaByte]
  unfold State.dpaByte State.dpaPut
  by_cases hd : d < 0x10000000
  · simp [hd]
  · simp [hd]

theorem putByte_ne (s : State) {x : Nat} (p : Nat × Byte) (h : x ≠ p.1) : (s.putByte p).dpaByte x = s.dpaByte x := by
  rw [State.putByte, setPoison_dpaByte]
  unfold State.dpaByte State.dpaPut
  by_cases hp : p.1 < 0x10000000
  · simp [hp, fget_fset_ne _ _ _ _ _ h]
  · simp [hp, fget_fset_ne _ _ _ _ _ h]

theorem putBytes_ne {l : List (Nat × Byte)} (s : State) {x : Nat} (h : x ∉ l.map Prod.fst) :
    (l.foldl State.putByte s).dpaByte x = s.dpaByte x := by
  induction l generalizing s with
  | nil => rfl
  | cons p l ih =>
    rw [List.foldl_cons, ih _ (List.not_mem_of_not_mem_cons h), putByte_ne s p (List.ne_of_not_mem_cons h)]

theorem putBytes_read {l : List (Nat × Byte)} (s : State) (h : (l.map Prod.fst).Nodup) :
    (l.map Prod.fst).map (l.foldl State.putByte s).dpaByte = l.map Prod.snd := by
  induction l generalizing s with
  | nil => rfl
  | cons p l ih =>
    obtain ⟨hp, hl⟩ := List.nodup_cons.mp h
    rw [List.foldl_cons, List.map_cons, List.map_cons, List.map_cons, ih _ hl, putBytes_ne _ hp]
    exact congrArg (· :: _) (putByte_self s p.1 p.2)

theorem putBytes_kept {P : Nat} {u : State} (h : Kept P s u) (hP : allows 6442516480 P = true) (l : List (Nat × Byte)) :
    Kept P s (l.foldl State.putByte u) :=
  List.foldlRecOn l _ h fun v hv p _ =>
    setPoison_kept _ _ _ (dpaPut_kept v _ _ hv (allows_trans (by decide) hP)) (allows_trans (by decide) hP)

/-- The device bytes that a write of `bs` at `a` sets, in order. -/
def State.puts (s : State) (agent n a : Nat) (bs : List Byte) : List (Nat × Byte) :=
  bs.zipIdx.map (fun p => ((s.xlate agent n (a + p.2) true).getD 0, p.1))

theorem memPut_of_plain {agent : Nat} (h : ctrlOffset a = none) (bs : List Byte) :
    s.memPut agent n a bs = (s.puts agent n a bs).foldl State.putByte s := by
  unfold State.memPut
  rw [h]
  rfl

theorem puts_snd (s : State) (agent n a : Nat) (bs : List Byte) : (s.puts agent n a bs).map Prod.snd = bs := by
  rw [State.puts, List.map_map]
  exact List.zipIdx_map_fst 0 bs

theorem puts_fst {agent : Nat} (h : s.memCheck agent n a bs.length true false = none) :
    (s.puts agent n a bs).map Prod.fst = s.reach agent n a bs.length true := by
  have hsome : ∀ x ∈ addrs a bs.length, s.xlate agent n x true = some ((s.xlate agent n x true).getD 0) := fun x hx => by
    obtain ⟨d, hd⟩ := xlate_of_memCheck h hx
    rw [hd, Option.getD_some]
  calc (s.puts agent n a bs).map Prod.fst
      = (bs.zipIdx.map Prod.snd).map (fun i => (s.xlate agent n (a + i) true).getD 0) := by
        rw [State.puts, List.map_map, List.map_map]; rfl
    _ = (addrs a bs.length).map (fun x => (s.xlate agent n x true).getD 0) := by
        rw [List.zipIdx_map_snd, ← List.range_eq_range', addrs, List.map_map]; rfl
    _ = s.reach agent n a bs.length true := by
        rw [State.reach, List.filterMap_congr hsome, List.filterMap_eq_map']

/-- A write whose check passed sets the bytes it reaches and no other. -/
structure Written (s t : State) (agent n a : Nat) (bs : List Byte) : Prop where
  bytes : (s.reach agent n a bs.length true).Nodup → (s.reach agent n a bs.length true).map t.dpaByte = bs
  outside : BytesOutside (s.reach agent n a bs.length true) s t
  kept : Kept 6442516480 s t

theorem memPut_written {agent : Nat} (h : s.memCheck agent n a bs.length true false = none) (hsome : 1 ≤ bs.length) :
    Written s (s.memPut agent n a bs) agent n a bs := by
  rw [memPut_of_plain (ctrlOffset_of_memCheck h hsome)]
  refine ⟨fun hnodup => ?_, fun d hd => ?_, putBytes_kept (Kept.refl s) (by decide) _⟩
  · rw [← puts_fst h] at hnodup ⊢
    rw [putBytes_read s hnodup, puts_snd]
  · exact putBytes_ne s (by rwa [puts_fst h])

theorem length_memBytes (s : State) (agent n a len : Nat) : (s.memBytes agent n a len).length = len := by
  rw [State.memBytes, List.length_map, addrs, List.length_map, List.length_range]

end Sys2Proof.Machine
end

section
/-! SUPPORT. How a command of a queue starts and ends (R234 to R236), and what that leaves of Teasel's steps. -/

namespace Sys2Proof.Machine

variable {s t u v : State} {n q op uid status detail result : Nat} {c : QCmd}

/-! ### A command that starts -/

theorem Starts.frozen (h : Starts s n q op c v) : s.frozen = false := by
  have hlive := h.live
  rw [State.vfLive, Bool.and_eq_true] at hlive
  simpa using hlive.2

theorem Starts.startNext (h : Starts s n q op c v) (run : QCmd → State → State) :
    s.startNext n q op run = .next (run c v) := by
  have hgate : ¬ (decide (c.op ≠ op) || !s.vfLive n || s.qError n q != 0) = true := by
    simp [h.opcode, h.live, h.sound]
  have hclean : ¬ (c.wait && (s.fence n c.waitFence).err) = true := by
    cases hw : c.wait
    case false => simp
    case true => simp [h.clean hw]
  have hgo : ((s.exclIs n c.uid || s.slotFor n (s.fld (F.QIF_Q_CTRL_CLASS n q))) && s.waitMet n c && !s.barred n q c) = true := by
    simp [h.slot, h.met, h.free]
  unfold State.startNext
  rw [h.next]
  dsimp only
  rw [if_neg hgate, if_neg hclean, if_pos hgo, h.taken]

theorem Starts.kept (h : Starts s n q op c v) : Kept 24576 s v := by
  rw [h.taken]
  have hcmd : Kept 24576 s (s.modCmd n q c.uid (fun c => { c with phase := 1, waitTick := none })) :=
    modCmd_kept s n q c.uid _ (Kept.refl s) (by decide)
  split
  · exact modFence_kept _ n _ id hcmd (by decide)
  · exact hcmd

theorem Kept.only_qsSlices (h : Kept 24576 s t) : OnlyIn [.qs, .slices] s t := h.onlyIn (fun p => by cases p <;> decide)

theorem Starts.queued (h : Starts s n q op c v) : ∃ d ∈ (v.queue n q).cmds, d.uid = c.uid := by
  have hin : c ∈ (s.queue n q).cmds := List.mem_of_find?_eq_some h.next
  have hstarted : ∃ d ∈ ((s.modCmd n q c.uid (fun c => { c with phase := 1, waitTick := none })).queue n q).cmds,
      d.uid = c.uid := by
    rw [queue_modCmd]
    exact ⟨_, List.mem_map_of_mem hin, by rw [if_pos rfl]⟩
  rw [h.taken]
  split
  · exact hstarted
  · exact hstarted

theorem Starts.tsl (h : Starts s n q op c v) : v.tsl = s.tsl := h.kept.parts .tsl (by decide)

theorem Starts.fld (h : Starts s n q op c v) (f : Fld) : v.fld f = s.fld f := fld_of_regs (h.kept.regs_eq (by decide)) f

/-- A command that ends in the state that its effect finds. -/
theorem Starts.ends {cmd : Instr} (h : Starts s n q op c v) (hstatus : faultCode status = none)
    (hexec : exec cmd s = .next (v.endCmd n q c.uid status detail result)) : Ends cmd s (fun t =>
      CmdEnded t n q c.uid status detail result ∧ OnlyIn [.qs, .slices] s t) := by
  refine ⟨_, hexec, endCmd_cmdEnded hstatus detail result h.queued, Kept.only_qsSlices ?_⟩
  rw [endCmd_of_noFault hstatus]
  exact modCmd_kept v n q c.uid _ h.kept (by decide)

/-! ### The queue that a command stands in -/

/-- Every queue holds the commands of the same names. -/
def SameUids (s t : State) : Prop := ∀ m r, (t.queue m r).cmds.map QCmd.uid = (s.queue m r).cmds.map QCmd.uid

theorem SameUids.of_qs (h : t.qs = s.qs) : SameUids s t := fun m r => by rw [queue_congr h]

theorem SameUids.trans (h : SameUids s t) (k : SameUids t u) : SameUids s u := fun m r => (k m r).trans (h m r)

theorem modCmd_sameUids {f : QCmd → QCmd} (hf : ∀ d, (f d).uid = d.uid) (s : State) (n q uid : Nat) :
    SameUids s (s.modCmd n q uid f) := by
  intro m r
  have hmapped : ((s.queue n q).cmds.map (fun d => if d.uid = uid then f d else d)).map QCmd.uid =
      (s.queue n q).cmds.map QCmd.uid := by
    rw [List.map_map]
    refine List.map_congr_left fun d _ => ?_
    by_cases hd : d.uid = uid
    · simp [hd, hf]
    · simp [hd]
  by_cases hkey : 16 * m + r = 16 * n + q
  · have hsame : ∀ w : State, w.queue m r = w.queue n q := fun w => by rw [State.queue, hkey, State.queue]
    rw [hsame, hsame, queue_modCmd]
    exact hmapped
  · exact congrArg (fun x : Queue => x.cmds.map QCmd.uid) (fget_fset_ne _ _ _ _ _ hkey)

theorem findCmd_queue (s : State) (n uid : Nat) :
    (s.findCmd n uid).map Prod.fst = queues.find? (fun q => ((s.queue n q).cmds.map QCmd.uid).contains uid) := by
  unfold State.findCmd
  induction queues with
  | nil => rfl
  | cons q l ih =>
    rw [List.findSome?_cons, List.find?_cons]
    cases hf : (s.queue n q).cmds.find? (fun c => c.uid == uid)
    case none =>
      have hnot : ((s.queue n q).cmds.map QCmd.uid).contains uid = false := by
        rw [List.contains_eq_mem, decide_eq_false_iff_not, List.mem_map]
        rintro ⟨d, hd, rfl⟩
        exact absurd (beq_self_eq_true d.uid) (List.find?_eq_none.mp hf d hd)
      rw [hnot]
      exact ih
    case some d =>
      have hin : ((s.queue n q).cmds.map QCmd.uid).contains uid = true := by
        rw [List.contains_eq_mem, decide_eq_true_eq, List.mem_map]
        exact ⟨d, List.mem_of_find?_eq_some hf, by simpa using List.find?_some hf⟩
      rw [hin]
      rfl

theorem SameUids.findCmd (h : SameUids s t) (n uid : Nat) : (t.findCmd n uid).map Prod.fst = (s.findCmd n uid).map Prod.fst := by
  rw [findCmd_queue, findCmd_queue]
  simp only [h n]

/-! ### Teasel's steps beside their results -/

/-- A step without its result. -/
def TStep.named (x : TStep) : TStep := { x with result := none }

/-- Of Teasel, the results of its steps alone differ. -/
structure StepsOnly (s t : State) : Prop where
  rest : t.tsl = { s.tsl with steps := t.tsl.steps }
  named : t.tsl.steps.map TStep.named = s.tsl.steps.map TStep.named

theorem StepsOnly.of_tsl (h : t.tsl = s.tsl) : StepsOnly s t := ⟨by rw [h], by rw [h]⟩

theorem StepsOnly.trans (h : StepsOnly s t) (k : StepsOnly t u) : StepsOnly s u where
  rest := by
    have hrest := k.rest
    rwa [h.rest] at hrest
  named := k.named.trans h.named

theorem StepsOnly.seqs (h : StepsOnly s t) : t.tsl.seqs = s.tsl.seqs := by rw [h.rest]

theorem StepsOnly.seq (h : StepsOnly s t) (i : Nat) : t.seq i = s.seq i := by rw [State.seq, h.seqs, State.seq]

theorem StepsOnly.appends (h : StepsOnly s t) : t.tsl.appends = s.tsl.appends := by rw [h.rest]

theorem StepsOnly.manifest (h : StepsOnly s t) : t.tsl.manifest = s.tsl.manifest := by rw [h.rest]

/-- A step of `t` is, beside its result, one of `s`, and the other way. -/
theorem exists_step_of_named (h : t.tsl.steps.map TStep.named = s.tsl.steps.map TStep.named) {x : TStep} (hx : x ∈ s.tsl.steps) :
    ∃ y ∈ t.tsl.steps, y.named = x.named := by
  have hin : x.named ∈ t.tsl.steps.map TStep.named := h ▸ List.mem_map_of_mem hx
  exact List.mem_map.mp hin

theorem stepResult_stepsOnly (s : State) (uid status detail : Nat) : StepsOnly s (s.stepResult uid status detail) where
  rest := rfl
  named := by
    rw [State.stepResult, List.map_map]
    refine List.map_congr_left fun x _ => ?_
    rw [Function.comp_apply]
    split <;> rfl

theorem Kept.stepsOnly {P : Nat} (h : Kept P s t) (hP : P.testBit Part.tsl.bit = false) : StepsOnly s t :=
  StepsOnly.of_tsl (h.parts .tsl hP)

theorem endUid_stepsOnly (s : State) (n uid status detail result : Nat) :
    StepsOnly s (s.endUid n uid status detail result) := by
  unfold State.endUid
  split
  · exact (endCmd_kept (P := 67117121) s _ _ _ _ _ _ (Kept.refl s) (by decide)).stepsOnly (by decide)
  · exact stepResult_stepsOnly s uid status detail

theorem contained_stepsOnly (s : State) (n code exc arg pc : Nat) : StepsOnly s (s.contained n code exc arg pc) :=
  (contained_kept (P := 872418177) s _ _ _ _ _ (Kept.refl s) (by decide)).stepsOnly (by decide)

theorem faultUid_stepsOnly (s : State) (n uid status detail exc arg pc : Nat) :
    StepsOnly s (s.faultUid n uid status detail exc arg pc) := by
  unfold State.faultUid
  split
  · exact (faultCmd_kept (P := 872426433) s _ _ _ _ _ _ _ _ (Kept.refl s) (by decide)).stepsOnly (by decide)
  · split
    · exact (stepResult_stepsOnly s uid status detail).trans (contained_stepsOnly _ _ _ _ _ _)
    · exact StepsOnly.of_tsl rfl

/-! ### The end of a command or step by its name -/

theorem endUid_of_found (h : (s.findCmd n uid).map Prod.fst = some q) (status detail result : Nat) :
    s.endUid n uid status detail result = s.endCmd n q uid status detail result := by
  obtain ⟨⟨r, d⟩, hd, rfl⟩ := Option.map_eq_some_iff.mp h
  rw [State.endUid, hd]

theorem endUid_cmdEnded (h : (s.findCmd n uid).map Prod.fst = some q) (hstatus : faultCode status = none) (detail result : Nat) :
    CmdEnded (s.endUid n uid status detail result) n q uid status detail result := by
  rw [endUid_of_found h]
  obtain ⟨⟨r, d⟩, hd, rfl⟩ := Option.map_eq_some_iff.mp h
  exact endCmd_cmdEnded hstatus detail result (mem_of_findCmd hd)

theorem endUid_noFault_kept (hstatus : faultCode status = none) (s : State) (n uid detail result : Nat) :
    Kept 1056768 s (s.endUid n uid status detail result) := by
  unfold State.endUid
  split
  · rw [endCmd_of_noFault hstatus]
    exact modCmd_kept s _ _ _ _ (Kept.refl s) (by decide)
  · exact stepResult_kept s _ _ _ (Kept.refl s) (by decide)

theorem endUid_sameUids (hstatus : faultCode status = none) (s : State) (n uid detail result : Nat) :
    SameUids s (s.endUid n uid status detail result) := by
  unfold State.endUid
  split
  · rw [endCmd_of_noFault hstatus]
    exact modCmd_sameUids (f := fun c => c.ended status detail result) (fun _ => rfl) s _ _ _
  · exact SameUids.of_qs rfl

end Sys2Proof.Machine
end

section
/-! SUPPORT. Sequences: their entries, their admission, the appends that wait, and their cancelling (R575 to R579, R590). -/

namespace Sys2Proof.Machine

variable {s t u v : State} {n q i r d uid status detail result : Nat} {c : QCmd}

/-! ### The sequence table -/

@[simp] theorem seq_modSeq_self (s : State) (i : Nat) (f : Seq → Seq) : (s.modSeq i f).seq i = f (s.seq i) :=
  fget_fset_self _ _ _ _

theorem seq_modSeq_ne (s : State) (f : Seq → Seq) {j : Nat} (h : j ≠ i) : (s.modSeq i f).seq j = s.seq j :=
  fget_fset_ne _ _ _ _ _ h

theorem seq_congr (h : t.tsl.seqs = s.tsl.seqs) (i : Nat) : t.seq i = s.seq i := by rw [State.seq, h, State.seq]

theorem seqNamed_congr (h : t.tsl = s.tsl) (n user : Nat) : t.seqNamed n user = s.seqNamed n user := by
  simp only [State.seqNamed, State.liveSeqs, State.seqsOf, State.seq, h]

theorem mf_congr (h : t.tsl.manifest = s.tsl.manifest) (o len : Nat) : t.mf o len = s.mf o len := by
  rw [State.mf, h, State.mf]

theorem modCmd_regs (s : State) (n q uid : Nat) (f : QCmd → QCmd) : (s.modCmd n q uid f).regs = s.regs := rfl

theorem modSeq_regs (s : State) (i : Nat) (f : Seq → Seq) : (s.modSeq i f).regs = s.regs := rfl

/-! ### SEQ_ADMIT (R571, R575, R576) -/

theorem readManifest_done (h : s.fld F.SEQ_STATUS_MANIFEST ≠ 0 ∨ s.fld F.SLC_TEN_STATUS_MODEL ≠ 2) : s.readManifest n = s :=
  if_pos (by simpa [bne_iff_ne] using h)

theorem exec_seqAdmit_noModel (h : Starts s n q 0x40 c v) (hmodel : s.fld F.SLC_TEN_STATUS_MODEL ≠ 2) :
    exec (.seqAdmit n q) s = .next (v.endCmd n q c.uid 6 0 0) := by
  have hmodel' : v.fld F.SLC_TEN_STATUS_MODEL ≠ 2 := by rwa [h.fld]
  refine (if_neg (by rw [h.frozen]; decide)).trans ((h.startNext _).trans (congrArg _ ?_))
  dsimp only
  rw [readManifest_done (.inr hmodel'), if_pos (by simp [hmodel'])]

theorem seqAdmit_noModel (h : Starts s n q 0x40 c v) (hmodel : s.fld F.SLC_TEN_STATUS_MODEL ≠ 2) :
    Ends (.seqAdmit n q) s (fun t => CmdEnded t n q c.uid 6 0 0 ∧ OnlyIn [.qs, .slices] s t) :=
  h.ends rfl (exec_seqAdmit_noModel h hmodel)

section Admitting
variable (h : Starts s n q 0x40 c v) (hmodel : s.fld F.SLC_TEN_STATUS_MODEL = 2) (hmanifest : s.fld F.SEQ_STATUS_MANIFEST = 1)
include h hmodel hmanifest

theorem exec_seqAdmit_faulted (hfault : v.admitFault n c = some d) :
    exec (.seqAdmit n q) s = .next (v.endCmd n q c.uid 3 d 0) := by
  refine (if_neg (by rw [h.frozen]; decide)).trans ((h.startNext _).trans (congrArg _ ?_))
  dsimp only
  rw [readManifest_done (.inl (by rw [h.fld, hmanifest]; decide)), if_neg (by simp [h.fld, hmodel, hmanifest]), hfault]

theorem exec_seqAdmit_accepted (hok : v.admitFault n c = none) : exec (.seqAdmit n q) s = .next (v.admitSeq n q c) := by
  refine (if_neg (by rw [h.frozen]; decide)).trans ((h.startNext _).trans (congrArg _ ?_))
  dsimp only
  rw [readManifest_done (.inl (by rw [h.fld, hmanifest]; decide)), if_neg (by simp [h.fld, hmodel, hmanifest]), hok]

theorem seqAdmit_badArg (hfault : v.admitFault n c = some d) : Ends (.seqAdmit n q) s (fun t =>
    CmdEnded t n q c.uid 3 d 0 ∧ OnlyIn [.qs, .slices] s t) :=
  h.ends rfl (exec_seqAdmit_faulted h hmodel hmanifest hfault)

end Admitting

/-- The entry that an accepted SEQ_ADMIT takes (Table 16-4). -/
def State.admitEntry (s : State) (n q : Nat) (c : QCmd) (r : Nat) : Seq :=
  { st := 1, vf := n, prio := c.body 0x24 1, ptRow := r, userSeq := c.body 0 8, prompt := c.body 8 8
    out := c.body 0x18 8, promptTokens := c.body 0x10 4, maxNew := c.body 0x14 4
    kvLimit := if c.body 0x20 4 = 0 then s.mf 0x1E 2 else c.body 0x20 4
    order := fget (fun _ => 0) s.tsl.order n + 1, queue := q, bufId := c.id, uid := c.uid }

/-- The order of admission counted on for VF `n`. -/
def State.orderTaken (s : State) (n : Nat) : State :=
  { s with tsl := { s.tsl with order := fset (fun _ => 0) s.tsl.order n (fget (fun _ => 0) s.tsl.order n + 1) } }

/-- The state in which entry `i` has been taken. -/
def State.admitted (s : State) (n q : Nat) (c : QCmd) (i r : Nat) : State :=
  ((s.orderTaken n).modSeq i (fun _ => s.admitEntry n q c r)).bump F.SEQ_CNT_ADMIT_COUNT

/-- The state in which a SEQ_ADMIT past the limits has ended. -/
def State.admitFull (s : State) (n q : Nat) (c : QCmd) : State :=
  (s.bump F.SEQ_CNT_FULL_COUNT).endCmd n q c.uid 0xD 0 0

theorem admitSeq_takes (hactive : s.activated n = true) (hentry : s.freeSeqEntry = some i) (hrow : s.freeRow n = some r)
    (hroom : (s.liveSeqs n).length < min (s.limitActive n) (s.seqLimit n)) : s.admitSeq n q c = s.admitted n q c i r := by
  unfold State.admitSeq
  simp only [hactive, if_true, hentry, hrow, if_neg (Nat.not_le.mpr hroom)]
  rfl

theorem admitSeq_full (hactive : s.activated n = true)
    (hfull : min (s.limitActive n) (s.seqLimit n) ≤ (s.liveSeqs n).length) : s.admitSeq n q c = s.admitFull n q c := by
  unfold State.admitSeq
  simp only [hactive, if_true]
  split
  · exact if_pos hfull
  · rfl

theorem seqAdmit_full (h : Starts s n q 0x40 c v) (hmodel : s.fld F.SLC_TEN_STATUS_MODEL = 2)
    (hmanifest : s.fld F.SEQ_STATUS_MANIFEST = 1) (hok : v.admitFault n c = none) (hactive : v.activated n = true)
    (hfull : min (v.limitActive n) (v.seqLimit n) ≤ (v.liveSeqs n).length) : Ends (.seqAdmit n q) s (fun t =>
      CmdEnded t n q c.uid 0xD 0 0 ∧
      t.fld F.SEQ_CNT_FULL_COUNT = min (s.fld F.SEQ_CNT_FULL_COUNT + 1) (2 ^ 32 - 1) ∧ OnlyIn [.regs, .qs, .slices] s t) := by
  have hexec := exec_seqAdmit_accepted h hmodel hmanifest hok
  have hbumped : Kept 24577 s (v.bump F.SEQ_CNT_FULL_COUNT) := bump_kept (h.kept.mono (by decide)) _ (by decide)
  have hqueued : ∃ d ∈ ((v.bump F.SEQ_CNT_FULL_COUNT).queue n q).cmds, d.uid = c.uid := by
    rw [queue_congr (bump_qs v _)]
    exact h.queued
  have hended : v.admitFull n q c =
      (v.bump F.SEQ_CNT_FULL_COUNT).modCmd n q c.uid (fun c => c.ended 0xD 0 0) := endCmd_of_noFault rfl ..
  refine ⟨_, hexec.trans (congrArg _ (admitSeq_full hactive hfull)), endCmd_cmdEnded rfl 0 0 hqueued, ?_, ?_⟩
  · rw [hended, fld_of_regs (modCmd_regs _ n q c.uid _), fld_bump_self _ _ (by decide) (by decide), h.fld]
    rfl
  · rw [hended]
    exact (modCmd_kept _ n q c.uid _ hbumped (by decide)).onlyIn (fun p => by cases p <;> decide)

theorem bump_seq (s : State) (f : Fld) (i : Nat) : (s.bump f).seq i = s.seq i := seq_congr (by rw [bump_tsl]) i

theorem orderTaken_seq (s : State) (n i : Nat) : (s.orderTaken n).seq i = s.seq i := rfl

theorem orderTaken_regs (s : State) (n : Nat) : (s.orderTaken n).regs = s.regs := rfl

theorem admitted_seq (s : State) (n q : Nat) (c : QCmd) (i r : Nat) :
    (s.admitted n q c i r).seq i = s.admitEntry n q c r := by
  rw [State.admitted, bump_seq, seq_modSeq_self]

theorem admitted_seq_ne (s : State) (n q : Nat) (c : QCmd) (r : Nat) {j : Nat} (hj : j ≠ i) :
    (s.admitted n q c i r).seq j = s.seq j := by
  rw [State.admitted, bump_seq, seq_modSeq_ne _ _ hj, orderTaken_seq]

theorem admitted_qs (s : State) (n q : Nat) (c : QCmd) (i r : Nat) : (s.admitted n q c i r).qs = s.qs := by
  rw [State.admitted, bump_qs]
  rfl

theorem admitted_kept (h : Kept 24576 s v) (n q : Nat) (c : QCmd) (i r : Nat) : Kept 1073153 s (v.admitted n q c i r) :=
  bump_kept (modSeq_kept _ i _ ((h.mono (by decide)).set_tsl _ (by decide)) (by decide)) _ (by decide)

theorem seqAdmit_takes (h : Starts s n q 0x40 c v) (hmodel : s.fld F.SLC_TEN_STATUS_MODEL = 2)
    (hmanifest : s.fld F.SEQ_STATUS_MANIFEST = 1) (hok : v.admitFault n c = none) (hactive : v.activated n = true)
    (hentry : v.freeSeqEntry = some i) (hrow : v.freeRow n = some r)
    (hroom : (v.liveSeqs n).length < min (v.limitActive n) (v.seqLimit n)) : Ends (.seqAdmit n q) s (fun t =>
      (t.seq i).st = 1 ∧ (t.seq i).vf = n ∧ (t.seq i).ptRow = r ∧ (t.seq i).userSeq = c.body 0 8 ∧
      (t.seq i).prompt = c.body 8 8 ∧ (t.seq i).promptTokens = c.body 0x10 4 ∧ (t.seq i).maxNew = c.body 0x14 4 ∧
      (t.seq i).out = c.body 0x18 8 ∧ (t.seq i).kvLimit = (if c.body 0x20 4 = 0 then s.mf 0x1E 2 else c.body 0x20 4) ∧
      (t.seq i).prio = c.body 0x24 1 ∧ (t.seq i).uid = c.uid ∧ (∀ j, j ≠ i → t.seq j = s.seq j) ∧
      t.queue n q = v.queue n q ∧ t.fld F.SEQ_CNT_ADMIT_COUNT = min (s.fld F.SEQ_CNT_ADMIT_COUNT + 1) (2 ^ 32 - 1) ∧
      OnlyIn [.regs, .qs, .slices, .tsl] s t) := by
  have hexec := exec_seqAdmit_accepted h hmodel hmanifest hok
  have hkv : (v.admitEntry n q c r).kvLimit = (if c.body 0x20 4 = 0 then s.mf 0x1E 2 else c.body 0x20 4) := by
    rw [State.admitEntry, mf_congr (congrArg Teasel.manifest h.tsl)]
  refine ⟨_, hexec.trans (congrArg _ (admitSeq_takes hactive hentry hrow hroom)), ?_⟩
  dsimp only
  rw [admitted_seq]
  refine ⟨rfl, rfl, rfl, rfl, rfl, rfl, rfl, rfl, hkv, rfl, rfl, fun j hj => ?_, queue_congr (admitted_qs v n q c i r) n q, ?_,
    (admitted_kept h.kept n q c i r).onlyIn (fun p => by cases p <;> decide)⟩
  · rw [admitted_seq_ne _ _ _ _ _ hj, seq_congr (congrArg Teasel.seqs h.tsl)]
  · rw [State.admitted, fld_bump_self _ _ (by decide) (by decide),
      fld_of_regs (modSeq_regs _ i _), fld_of_regs (orderTaken_regs v n), h.fld]
    rfl

end Sys2Proof.Machine
end

section
/-! SUPPORT. The appends of a sequence, its cancelling and its retirement (R578, R579, R590). -/

namespace Sys2Proof.Machine

variable {s t u v : State} {n q i r d op uid status detail result : Nat} {c : QCmd}

/-! ### A command that names no live sequence (R254) -/

theorem exec_seqAppend_unknown (h : Starts s n q 0x41 c v) (hnone : s.seqNamed n (c.body 0 8) = none) :
    exec (.seqAppend n q) s = .next (v.endCmd n q c.uid 0xE 0 0) := by
  refine (if_neg (by rw [h.frozen]; decide)).trans ((h.startNext _).trans (congrArg _ ?_))
  dsimp only
  rw [seqNamed_congr h.tsl, hnone]

theorem exec_seqCancel_unknown (h : Starts s n q 0x42 c v) (hnone : s.seqNamed n (c.body 0 8) = none) :
    exec (.seqCancel n q) s = .next (v.endCmd n q c.uid 0xE 0 0) := by
  refine (if_neg (by rw [h.frozen]; decide)).trans ((h.startNext _).trans (congrArg _ ?_))
  dsimp only
  rw [seqNamed_congr h.tsl, hnone]

theorem seqUnknown_ends {cmd : Instr} (hcmd : (op, cmd) ∈ [(0x41, Instr.seqAppend n q), (0x42, .seqCancel n q)])
    (h : Starts s n q op c v) (hnone : s.seqNamed n (c.body 0 8) = none) : Ends cmd s (fun t =>
      CmdEnded t n q c.uid 0xE 0 0 ∧ OnlyIn [.qs, .slices] s t) := by
  simp only [List.mem_cons, Prod.mk.injEq, List.not_mem_nil, or_false] at hcmd
  rcases hcmd with ⟨rfl, rfl⟩ | ⟨rfl, rfl⟩
  · exact h.ends rfl (exec_seqAppend_unknown h hnone)
  · exact h.ends rfl (exec_seqCancel_unknown h hnone)

/-! ### SEQ_APPEND (R578) -/

/-- The state in which an append waits. -/
def State.appendWaits (s : State) (a : Append) : State := { s with tsl := { s.tsl with appends := s.tsl.appends ++ [a] } }

section Appending
variable (h : Starts s n q 0x41 c v) (hnamed : s.seqNamed n (c.body 0 8) = some i)
include h hnamed

theorem exec_seqAppend_waits (hroom : (s.seq i).outLen + c.body 0x10 4 ≤ (s.seq i).maxNew)
    (hpages : (s.seq i).hist + c.body 0x10 4 ≤ (s.seq i).kvLimit * s.pageTokens) :
    exec (.seqAppend n q) s = .next (v.appendWaits ⟨i, c.uid, c.body 8 8, c.body 0x10 4⟩) := by
  have hseq : v.seq i = s.seq i := seq_congr (congrArg Teasel.seqs h.tsl) i
  have hpage : v.pageTokens = s.pageTokens := mf_congr (congrArg Teasel.manifest h.tsl) 0x1C 2
  refine (if_neg (by rw [h.frozen]; decide)).trans ((h.startNext _).trans (congrArg _ ?_))
  dsimp only
  rw [seqNamed_congr h.tsl, hnamed]
  dsimp only
  rw [hseq, hpage, if_neg (by simp [hroom, hpages])]
  rfl

theorem exec_seqAppend_tooLong (hlong : (s.seq i).maxNew < (s.seq i).outLen + c.body 0x10 4) :
    exec (.seqAppend n q) s = .next (v.endCmd n q c.uid 3 0x40 0) := by
  have hseq : v.seq i = s.seq i := seq_congr (congrArg Teasel.seqs h.tsl) i
  refine (if_neg (by rw [h.frozen]; decide)).trans ((h.startNext _).trans (congrArg _ ?_))
  dsimp only
  rw [seqNamed_congr h.tsl, hnamed]
  dsimp only
  rw [hseq, if_pos (by simp [hlong])]

theorem seqAppend_waits (hroom : (s.seq i).outLen + c.body 0x10 4 ≤ (s.seq i).maxNew)
    (hpages : (s.seq i).hist + c.body 0x10 4 ≤ (s.seq i).kvLimit * s.pageTokens) : Ends (.seqAppend n q) s (fun t =>
      t.tsl.appends = s.tsl.appends ++ [⟨i, c.uid, c.body 8 8, c.body 0x10 4⟩] ∧ t.queue n q = v.queue n q ∧
      t.tsl.seqs = s.tsl.seqs ∧ OnlyIn [.qs, .slices, .tsl] s t) := by
  have hkept : Kept 1073152 s (v.appendWaits ⟨i, c.uid, c.body 8 8, c.body 0x10 4⟩) :=
    (h.kept.mono (by decide)).set_tsl _ (by decide)
  exact ⟨_, exec_seqAppend_waits h hnamed hroom hpages, by rw [← h.tsl]; rfl, queue_congr (s := v) rfl n q, by rw [← h.tsl]; rfl,
    hkept.onlyIn (fun p => by cases p <;> decide)⟩

theorem seqAppend_tooLong (hlong : (s.seq i).maxNew < (s.seq i).outLen + c.body 0x10 4) : Ends (.seqAppend n q) s (fun t =>
    CmdEnded t n q c.uid 3 0x40 0 ∧ OnlyIn [.qs, .slices] s t) :=
  h.ends rfl (exec_seqAppend_tooLong h hnamed hlong)

end Appending

/-! ### Retirement (R590) -/

theorem returnPages_tsl (s : State) (x : Seq) : (s.returnPages x).tsl = s.tsl :=
  (returnPages_kept (P := 6442532865) s x (Kept.refl s) (by decide)).parts .tsl (by decide)

/-- Freeing an entry clears it, and whether the slice stays activated follows. -/
theorem freeSeq_cases (s : State) (i : Nat) :
    s.freeSeq i = (s.returnPages (s.seq i)).modSeq i (fun _ => {}) ∨
    s.freeSeq i = { (s.returnPages (s.seq i)).modSeq i (fun _ => {}) with
      tsl := { ((s.returnPages (s.seq i)).modSeq i (fun _ => {})).tsl with
        active := fset (fun _ => 0) ((s.returnPages (s.seq i)).modSeq i (fun _ => {})).tsl.active (s.seq i).vf 0 } } :=
  (em _).elim (fun h => .inr (if_pos h)) (fun h => .inl (if_neg h))

theorem freeSeq_seqs (s : State) (i : Nat) :
    (s.freeSeq i).tsl.seqs = ((s.returnPages (s.seq i)).modSeq i (fun _ => {})).tsl.seqs := by
  rcases freeSeq_cases s i with h | h <;> rw [h]

theorem freeSeq_seq_self (s : State) (i : Nat) : (s.freeSeq i).seq i = {} := by
  rw [seq_congr (freeSeq_seqs s i), seq_modSeq_self]

theorem freeSeq_seq_ne (s : State) {j : Nat} (h : j ≠ i) : (s.freeSeq i).seq j = s.seq j := by
  rw [seq_congr (freeSeq_seqs s i), seq_modSeq_ne _ _ h]
  exact seq_congr (congrArg Teasel.seqs (returnPages_tsl s _)) j

theorem freeSeq_steps (s : State) (i : Nat) : (s.freeSeq i).tsl.steps = s.tsl.steps := by
  have hpages : (s.returnPages (s.seq i)).tsl.steps = s.tsl.steps := congrArg Teasel.steps (returnPages_tsl s _)
  rw [← hpages]
  rcases freeSeq_cases s i with h | h <;> rw [h] <;> rfl

theorem freeSeq_manifest (s : State) (i : Nat) : (s.freeSeq i).tsl.manifest = s.tsl.manifest := by
  have hpages : (s.returnPages (s.seq i)).tsl.manifest = s.tsl.manifest := congrArg Teasel.manifest (returnPages_tsl s _)
  rw [← hpages]
  rcases freeSeq_cases s i with h | h <;> rw [h] <;> rfl

theorem freeSeq_qs (s : State) (i : Nat) : (s.freeSeq i).qs = s.qs :=
  (freeSeq_kept (P := 6443581441) s i (Kept.refl s) (by decide)).qs (by decide)

/-- What a sequence's end leaves of the table, of the manifest and of the steps. -/
structure SeqGone (i : Nat) (s t : State) : Prop where
  gone : t.seq i = {}
  others : ∀ j, j ≠ i → t.seq j = s.seq j
  manifest : t.tsl.manifest = s.tsl.manifest
  named : t.tsl.steps.map TStep.named = s.tsl.steps.map TStep.named

theorem freeSeq_gone (s : State) (i : Nat) : SeqGone i s (s.freeSeq i) :=
  ⟨freeSeq_seq_self s i, fun _ h => freeSeq_seq_ne s h, freeSeq_manifest s i, by rw [freeSeq_steps]⟩

theorem SeqGone.stepsOnly (h : SeqGone i s t) (k : StepsOnly t u) : SeqGone i s u :=
  ⟨(k.seq i).trans h.gone, fun j hj => (k.seq j).trans (h.others j hj), k.manifest.trans h.manifest, k.named.trans h.named⟩

/-- The appends that wait for entry `i` have gone. -/
def State.appendsGone (s : State) (i : Nat) : State :=
  { s with tsl := { s.tsl with appends := s.tsl.appends.filter (fun a => a.idx != i) } }

/-- The commands of appends that no sequence is left for have ended. -/
def State.appendsUnknown (s : State) (n i : Nat) : State :=
  (s.tsl.appends.filter (fun a => a.idx == i)).foldl (fun s a => s.endUid n a.uid 0xE 0 0) s

theorem dropAppends_eq (s : State) (n i : Nat) : s.dropAppends n i = (s.appendsUnknown n i).appendsGone i := rfl

theorem appendsUnknown_stepsOnly (s : State) (n i : Nat) : StepsOnly s (s.appendsUnknown n i) :=
  List.foldlRecOn _ _ (StepsOnly.of_tsl rfl) (fun _ h _ _ => h.trans (endUid_stepsOnly _ _ _ _ _ _))

theorem appendsUnknown_sameUids (s : State) (n i : Nat) : SameUids s (s.appendsUnknown n i) :=
  List.foldlRecOn _ _ (SameUids.of_qs rfl) (fun _ h _ _ => h.trans (endUid_sameUids (by rfl) _ _ _ _ _))

theorem SeqGone.dropAppends (h : SeqGone i s t) (n : Nat) : SeqGone i s (t.dropAppends n i) := by
  have hended := h.stepsOnly (appendsUnknown_stepsOnly t n i)
  rw [dropAppends_eq]
  exact ⟨hended.gone, hended.others, hended.manifest, hended.named⟩

theorem dropAppends_sameUids (s : State) (n i : Nat) : SameUids s (s.dropAppends n i) := by
  rw [dropAppends_eq]
  exact (appendsUnknown_sameUids s n i).trans (SameUids.of_qs rfl)

/-- The state in which a sequence has gone and its own command has still to end. -/
def State.seqFreed (s : State) (i : Nat) : State := ((s.freeSeq i).bump F.SEQ_CNT_RETIRE_COUNT).dropAppends (s.seq i).vf i

theorem seqFreed_gone (s : State) (i : Nat) : SeqGone i s (s.seqFreed i) :=
  ((freeSeq_gone s i).stepsOnly (StepsOnly.of_tsl (bump_tsl _ _))).dropAppends _

theorem seqFreed_sameUids (s : State) (i : Nat) : SameUids s (s.seqFreed i) :=
  (SameUids.of_qs ((bump_qs _ _).trans (freeSeq_qs s i))).trans (dropAppends_sameUids _ _ i)

/-- The command that admitted the sequence has ended. -/
def State.admitEnded (s : State) (i status detail : Nat) (fault : Bool) : State :=
  (if fault then (s.seqFreed i).contained (s.seq i).vf 2 0 0 0 else s.seqFreed i).endUid (s.seq i).vf (s.seq i).uid status detail
    (s.seq i).produced

theorem retire_eq (s : State) (i status detail : Nat) (fault : Bool) : s.retire i status detail fault =
    if (s.seq i).cancelUid = 0 then s.admitEnded i status detail fault
    else (s.admitEnded i status detail fault).endUid (s.seq i).vf (s.seq i).cancelUid 0 0 0 := rfl

theorem admitEnded_gone (s : State) (i status detail : Nat) (fault : Bool) : SeqGone i s (s.admitEnded i status detail fault) := by
  refine SeqGone.stepsOnly ?_ (endUid_stepsOnly _ _ _ _ _ _)
  split
  · exact (seqFreed_gone s i).stepsOnly (contained_stepsOnly _ _ _ _ _ _)
  · exact seqFreed_gone s i

theorem retire_gone (s : State) (i status detail : Nat) (fault : Bool) : SeqGone i s (s.retire i status detail fault) := by
  rw [retire_eq]
  split
  · exact admitEnded_gone s i status detail fault
  · exact (admitEnded_gone s i status detail fault).stepsOnly (endUid_stepsOnly _ _ _ _ _ _)

/-- A SEQ_CANCEL that waits for the sequence completes with its end. -/
theorem retire_cancelEnded (hstatus : faultCode status = none) (hcancel : (s.seq i).cancelUid ≠ 0)
    (hfind : (s.findCmd (s.seq i).vf (s.seq i).cancelUid).map Prod.fst = some q) :
    CmdEnded (s.retire i status detail false) (s.seq i).vf q (s.seq i).cancelUid 0 0 0 := by
  have huids : SameUids s (s.admitEnded i status detail false) :=
    (seqFreed_sameUids s i).trans (endUid_sameUids hstatus _ _ _ _ _)
  rw [retire_eq, if_neg hcancel]
  exact endUid_cmdEnded ((huids.findCmd _ _).trans hfind) rfl 0 0

/-! ### SEQ_CANCEL (R579) -/

/-- The state in which the sequence's cancelling has been noted. -/
def State.cancelNoted (s : State) (i uid : Nat) : State := s.modSeq i (fun x => { x with st := 3, cancelUid := uid })

theorem cancelNoted_qs (s : State) (i uid : Nat) : (s.cancelNoted i uid).qs = s.qs := rfl

section Cancelling
variable (h : Starts s n q 0x42 c v) (hnamed : s.seqNamed n (c.body 0 8) = some i)
include h hnamed

theorem exec_seqCancel_inStep (hin : (s.seq i).inStep = true) :
    exec (.seqCancel n q) s = .next (v.cancelNoted i c.uid) := by
  have hseq : v.seq i = s.seq i := seq_congr (congrArg Teasel.seqs h.tsl) i
  refine (if_neg (by rw [h.frozen]; decide)).trans ((h.startNext _).trans (congrArg _ ?_))
  dsimp only
  rw [seqNamed_congr h.tsl, hnamed]
  dsimp only
  rw [hseq, if_pos hin, State.cancelNoted]

theorem exec_seqCancel_now (hout : (s.seq i).inStep = false) (hnone : ∀ a ∈ s.tsl.appends, a.idx ≠ i) :
    exec (.seqCancel n q) s = .next ((v.cancelNoted i c.uid).retire i 0xF 0 false) := by
  have hseq : v.seq i = s.seq i := seq_congr (congrArg Teasel.seqs h.tsl) i
  have hempty : v.tsl.appends.filter (fun a => a.idx == i) = [] :=
    List.filter_eq_nil_iff.mpr fun a ha => by simpa using hnone a (h.tsl ▸ ha)
  refine (if_neg (by rw [h.frozen]; decide)).trans ((h.startNext _).trans (congrArg _ ?_))
  dsimp only
  rw [seqNamed_congr h.tsl, hnamed]
  dsimp only
  rw [hseq, if_neg (by rw [hout]; decide), hempty, State.cancelNoted]
  rfl

theorem seqCancel_marks (hin : (s.seq i).inStep = true) : Ends (.seqCancel n q) s (fun t =>
    (t.seq i).st = 3 ∧ (t.seq i).cancelUid = c.uid ∧ (∀ j, j ≠ i → t.seq j = s.seq j) ∧ t.queue n q = v.queue n q ∧
    OnlyIn [.qs, .slices, .tsl] s t) := by
  refine ⟨_, exec_seqCancel_inStep h hnamed hin, ?_, ?_, fun j hj => ?_, queue_congr (cancelNoted_qs v i c.uid) n q, ?_⟩
  · rw [State.cancelNoted, seq_modSeq_self]
  · rw [State.cancelNoted, seq_modSeq_self]
  · rw [State.cancelNoted, seq_modSeq_ne _ _ hj, seq_congr (congrArg Teasel.seqs h.tsl)]
  · exact (modSeq_kept (P := 1073152) v i _ (h.kept.mono (by decide)) (by decide)).onlyIn (fun p => by cases p <;> decide)

theorem seqCancel_ends (hout : (s.seq i).inStep = false) (hvf : (s.seq i).vf = n) (hnone : ∀ a ∈ s.tsl.appends, a.idx ≠ i)
    (huid : c.uid ≠ 0) (hfind : (v.findCmd n c.uid).map Prod.fst = some q) : Ends (.seqCancel n q) s (fun t =>
      t.seq i = {} ∧ CmdEnded t n q c.uid 0 0 0 ∧ (∀ j, j ≠ i → t.seq j = s.seq j)) := by
  have hseq : ∀ j, v.seq j = s.seq j := seq_congr (congrArg Teasel.seqs h.tsl)
  have hnoted : (v.cancelNoted i c.uid).seq i = { s.seq i with st := 3, cancelUid := c.uid } := by
    rw [State.cancelNoted, seq_modSeq_self, hseq]
  have hgone := retire_gone (v.cancelNoted i c.uid) i 0xF 0 false
  have hended := retire_cancelEnded (s := v.cancelNoted i c.uid) (i := i) (q := q) (status := 0xF) (detail := 0) rfl
    (by rw [hnoted]; exact huid) (by rw [hnoted]; dsimp only; rw [hvf, findCmd_congr (cancelNoted_qs v i c.uid)]; exact hfind)
  rw [hnoted] at hended
  dsimp only at hended
  rw [hvf] at hended
  refine ⟨_, exec_seqCancel_now h hnamed hout hnone, hgone.gone, hended, fun j hj => ?_⟩
  rw [hgone.others j hj, State.cancelNoted, seq_modSeq_ne _ _ hj, hseq]

end Cancelling

end Sys2Proof.Machine
end

section
/-! SUPPORT. Appends that are applied, and the end of a step (R578, R584, R589 to R591). -/

namespace Sys2Proof.Machine

variable {s t u v : State} {n i k actual status detail tok first : Nat} {a : Append} {x : TStep} {y : Seq}

/-- What neither touches the memory nor its key keeps the device's bytes. -/
theorem Kept.dpaByte {P : Nat} (h : Kept P s t) (hP : Nat.land P 0x180018000 = 0) (d : Nat) : t.dpaByte d = s.dpaByte d := by
  have hbit : ∀ p ∈ [Part.sec, .mem, .cmn, .hbm], P.testBit p.bit = false := fun p hp => by
    have hmask : (0x180018000 : Nat).testBit p.bit = true := by
      revert p
      decide
    have hland : (Nat.land P 0x180018000).testBit p.bit = false := by rw [hP, Nat.zero_testBit]
    rw [show Nat.land P 0x180018000 = P &&& 0x180018000 from rfl, Nat.testBit_and, hmask, Bool.and_true] at hland
    exact hland
  have hmem : { t.mem with cmn := [], hbm := [] } = { s.mem with cmn := [], hbm := [] } := h.parts .mem (hbit _ (by simp))
  refine dpaByte_congr (h.parts .sec (hbit _ (by simp))) (h.parts .cmn (hbit _ (by simp))) ?_ (.inr ?_)
  · rw [h.parts .hbm (hbit _ (by simp))]
  · have hclean : t.mem.clean = s.mem.clean := by
      have hfield := congrArg Memory.clean hmem
      exact hfield
    rw [hclean]

/-! ### SEQ_APPEND_APPLY (R578) -/

/-- The append has been taken from those that wait. -/
def State.appendTaken (s : State) (uid : Nat) : State :=
  { s with tsl := { s.tsl with appends := s.tsl.appends.filter (fun b => b.uid != uid) } }

theorem appendTaken_view (s : State) (uid n : Nat) : SameView n s (s.appendTaken uid) :=
  SameView.of_regs (s := s) (t := s.appendTaken uid) rfl rfl rfl rfl rfl n

theorem appendTaken_seq (s : State) (uid i : Nat) : (s.appendTaken uid).seq i = s.seq i := rfl

/-- The slice address behind a sequence's history in OUT. -/
def Seq.outEnd (x : Seq) : Nat := x.out + 4 * x.outLen

/-- The append's tokens have been copied behind the history. -/
def State.tokensCopied (s : State) (a : Append) : State :=
  (s.appendTaken a.uid).memPut freshAgent (s.seq a.idx).vf (s.seq a.idx).outEnd
    ((s.appendTaken a.uid).memBytes freshAgent (s.seq a.idx).vf a.tokens (4 * a.count))

/-- The copied tokens count in the history. -/
def State.appendCounted (s : State) (a : Append) : State :=
  (s.tokensCopied a).modSeq a.idx (fun x => { x with outLen := x.outLen + a.count })

theorem applyAppend_copies (hread : s.memCheck freshAgent (s.seq a.idx).vf a.tokens (4 * a.count) false false = none)
    (hwrite : s.memCheck freshAgent (s.seq a.idx).vf (s.seq a.idx).outEnd (4 * a.count) true false = none) :
    s.applyAppend a = (s.appendCounted a).endUid (s.seq a.idx).vf a.uid 0 0 ((s.seq a.idx).hist + a.count) := by
  have hview := appendTaken_view s a.uid (s.seq a.idx).vf
  rw [← hview.memCheck] at hread hwrite
  change (match memFault ((s.appendTaken a.uid).memCheck freshAgent (s.seq a.idx).vf a.tokens (4 * a.count) false false) with
    | some st => (s.appendTaken a.uid).faultUid (s.seq a.idx).vf a.uid st 0 0 0 0
    | none => match memFault ((s.appendTaken a.uid).memCheck freshAgent (s.seq a.idx).vf (s.seq a.idx).outEnd (4 * a.count) true
        false) with
      | some st => (s.appendTaken a.uid).faultUid (s.seq a.idx).vf a.uid st 0 0 0 0
      | none => (s.appendCounted a).endUid (s.seq a.idx).vf a.uid 0 0 ((s.seq a.idx).hist + a.count)) = _
  rw [hread, hwrite]
  rfl

theorem BytesOutside.congr {ds : List Nat} (h : BytesOutside ds s t) (hs : ∀ d, s.dpaByte d = u.dpaByte d)
    (ht : ∀ d, v.dpaByte d = t.dpaByte d) : BytesOutside ds u v := fun d hd => (ht d).trans ((h d hd).trans (hs d))

theorem Written.tsl {agent m b : Nat} {bs : List Byte} (h : Written s t agent m b bs) : t.tsl = s.tsl := h.kept.parts .tsl (by decide)

theorem appendCounted_dpaByte (s : State) (a : Append) (d : Nat) : (s.appendCounted a).dpaByte d = (s.tokensCopied a).dpaByte d :=
  rfl

section Applied
variable (hread : s.memCheck freshAgent (s.seq a.idx).vf a.tokens (4 * a.count) false false = none)
  (hwrite : s.memCheck freshAgent (s.seq a.idx).vf (s.seq a.idx).outEnd (4 * a.count) true false = none) (hsome : 1 ≤ a.count)
include hwrite hsome

theorem tokensCopied_written : Written (s.appendTaken a.uid) (s.tokensCopied a) freshAgent (s.seq a.idx).vf (s.seq a.idx).outEnd
    ((s.appendTaken a.uid).memBytes freshAgent (s.seq a.idx).vf a.tokens (4 * a.count)) := by
  refine memPut_written ?_ ?_
  · rw [length_memBytes, (appendTaken_view s a.uid (s.seq a.idx).vf).memCheck]
    exact hwrite
  · rw [length_memBytes]
    omega

theorem appendCounted_seq : (s.appendCounted a).seq a.idx = { s.seq a.idx with outLen := (s.seq a.idx).outLen + a.count } := by
  have hseq : (s.tokensCopied a).seq a.idx = s.seq a.idx :=
    seq_congr (s := s.appendTaken a.uid) (congrArg Teasel.seqs (tokensCopied_written hwrite hsome).tsl) a.idx
  rw [State.appendCounted, seq_modSeq_self, hseq]

theorem appendCounted_appends : (s.appendCounted a).tsl.appends = s.tsl.appends.filter (fun b => b.uid != a.uid) :=
  congrArg Teasel.appends (tokensCopied_written hwrite hsome).tsl

theorem appendCounted_kept : Kept 6443565056 s (s.appendCounted a) := by
  have htaken : Kept 6443565056 s (s.appendTaken a.uid) := (Kept.refl s).set_tsl _ (by decide)
  exact modSeq_kept _ _ _ (htaken.trans ((tokensCopied_written hwrite hsome).kept.mono (by decide))) (by decide)

end Applied

theorem seqAppendApply_copies (hrun : s.frozen = false)
    (hfind : s.tsl.appends.find? (fun a => (s.seq a.idx).vf == n && !(s.seq a.idx).inStep) = some a) (hsome : 1 ≤ a.count)
    (hread : s.memCheck freshAgent n a.tokens (4 * a.count) false false = none)
    (hwrite : s.memCheck freshAgent n (s.seq a.idx).outEnd (4 * a.count) true false = none) :
    Ends (.seqAppendApply n) s (fun t => (t.seq a.idx).outLen = (s.seq a.idx).outLen + a.count ∧
      (∀ b ∈ t.tsl.appends, b.uid ≠ a.uid) ∧
      ((s.reach freshAgent n (s.seq a.idx).outEnd (4 * a.count) true).Nodup →
        (s.reach freshAgent n (s.seq a.idx).outEnd (4 * a.count) true).map t.dpaByte =
          s.memBytes freshAgent n a.tokens (4 * a.count)) ∧
      BytesOutside (s.reach freshAgent n (s.seq a.idx).outEnd (4 * a.count) true) s t ∧
      OnlyIn [.qs, .mem, .cmn, .hbm, .tsl] s t) := by
  have hvf : (s.seq a.idx).vf = n := by
    have hmatch := List.find?_some hfind
    rw [Bool.and_eq_true] at hmatch
    exact eq_of_beq hmatch.1
  subst hvf
  have hview := appendTaken_view s a.uid (s.seq a.idx).vf
  have hput := tokensCopied_written hwrite hsome
  have hended := endUid_noFault_kept (status := 0) rfl (s.appendCounted a) (s.seq a.idx).vf a.uid 0 ((s.seq a.idx).hist + a.count)
  have hsteps := endUid_stepsOnly (s.appendCounted a) (s.seq a.idx).vf a.uid 0 0 ((s.seq a.idx).hist + a.count)
  have hbytes : ∀ d, ((s.appendCounted a).endUid (s.seq a.idx).vf a.uid 0 0 ((s.seq a.idx).hist + a.count)).dpaByte d =
      (s.tokensCopied a).dpaByte d := fun d => (hended.dpaByte (by decide) d).trans (appendCounted_dpaByte s a d)
  have hexec : exec (.seqAppendApply (s.seq a.idx).vf) s = .next (s.applyAppend a) := by
    change execSeqAppendApply _ s = _
    rw [execSeqAppendApply, hrun, if_neg Bool.false_ne_true, hfind]
  rw [applyAppend_copies hread hwrite] at hexec
  refine ⟨_, hexec, ?_, fun b hb => ?_, fun hnodup => ?_, ?_, ?_⟩
  · rw [hsteps.seq, appendCounted_seq hwrite hsome]
  · rw [hsteps.appends, appendCounted_appends hwrite hsome] at hb
    simpa using (List.mem_filter.mp hb).2
  · have hread' := hput.bytes
    rw [length_memBytes, hview.reach, hview.memBytes] at hread'
    rw [funext hbytes]
    exact hread' hnodup
  · have houtside := hput.outside
    rw [length_memBytes, hview.reach] at houtside
    exact houtside.congr (fun d => hview.dpaByte d) hbytes
  · exact (((appendCounted_kept hwrite hsome).mono (P := 6443573248) (by decide)).trans (hended.mono (by decide))).onlyIn
      (fun p => by cases p <;> decide)

/-! ### STEP_END (R584, R589 to R591) -/

/-- The state in which the ended step has been taken off and SCALE follows its time. -/
def State.stepTaken (s : State) (n actual : Nat) (x : TStep) : State :=
  ({ s with tsl := { s.tsl with steps := s.tsl.steps.filter (fun y => y.uid != x.uid) } } : State).setFld (F.SEQ_S_SCALE_SCALE n)
    (newScale (s.fld (F.SEQ_S_SCALE_SCALE n)) actual x.est)

theorem newScale_le (scale actual est : Nat) : newScale scale actual est ≤ 1024 := by
  unfold newScale
  omega

theorem stepTaken_scale (s : State) (n actual : Nat) (x : TStep) : (s.stepTaken n actual x).fld (F.SEQ_S_SCALE_SCALE n) =
    newScale (s.fld (F.SEQ_S_SCALE_SCALE n)) actual x.est :=
  fld_setFld_fits _ (by simp) (by simp) (Nat.lt_of_le_of_lt (newScale_le _ _ _) (by simp))

theorem stepTaken_seq (s : State) (n actual : Nat) (x : TStep) (i : Nat) : (s.stepTaken n actual x).seq i = s.seq i :=
  seq_congr (congrArg Teasel.seqs (setFld_tsl _ _ _)) i

theorem stepTaken_steps (s : State) (n actual : Nat) (x : TStep) :
    (s.stepTaken n actual x).tsl.steps = s.tsl.steps.filter (fun y => y.uid != x.uid) := by
  rw [State.stepTaken, setFld_tsl]

theorem stepTaken_mf (s : State) (n actual : Nat) (x : TStep) (o len : Nat) : (s.stepTaken n actual x).mf o len = s.mf o len :=
  mf_congr (congrArg Teasel.manifest (setFld_tsl _ _ _)) o len

theorem stepTaken_view (s : State) (n m actual : Nat) (x : TStep) : SameView m s (s.stepTaken n actual x) :=
  (SameView.of_regs (s := s) (t := { s with tsl := { s.tsl with steps := s.tsl.steps.filter (fun y => y.uid != x.uid) } })
    rfl rfl rfl rfl rfl m).setFld (by simp only [R.SLC_S_COMMONS, R.SEQ_S_SCALE]; omega)
      (by simp only [R.SLC_TEN_STATUS, R.SEQ_S_SCALE]; omega) _

theorem stepTaken_kept (s : State) (n actual : Nat) (x : TStep) : Kept 1048577 s (s.stepTaken n actual x) :=
  setFld_kept ((Kept.refl s).set_tsl _ (by decide)) _ _ (by decide)

section Ended
variable (hrun : s.frozen = false) (hfind : s.tsl.steps.find? (fun x => x.vf == n && x.result.isSome) = some x)
include hrun hfind

theorem exec_stepEnd_done (hres : x.result = some (0, detail)) {u : State}
    (hrows : State.commitRows x.rows.zipIdx (s.stepTaken n actual x) = (u, none)) : exec (.stepEnd n actual) s = .next u := by
  change execStepEnd n actual s = _
  unfold execStepEnd
  rw [hfind]
  dsimp only
  rw [if_neg (by rw [hrun]; decide), hres]
  change (match State.commitRows x.rows.zipIdx (s.stepTaken n actual x) with
    | (s3, none) => (Host.Outcome.next s3 : Res)
    | (s3, some st) => .next ((s3.contained n 7 0 0 0).failRows x.rows st 0)) = _
  rw [hrows]

theorem exec_stepEnd_failed (hstatus : status ≠ 0) (hres : x.result = some (status, detail)) :
    exec (.stepEnd n actual) s = .next ((s.stepTaken n actual x).failRows x.rows status detail) := by
  change execStepEnd n actual s = _
  unfold execStepEnd
  rw [hfind]
  dsimp only
  rw [if_neg (by rw [hrun]; decide), hres]
  obtain ⟨k, rfl⟩ := Nat.exists_eq_succ_of_ne_zero hstatus
  rfl

end Ended

/-- Row tokens count as processed, and the sequence is in no step. -/
def State.rowDone (s : State) (i k : Nat) : State := s.modSeq i (fun x => { x with done := x.done + k, inStep := false })

theorem rowDone_seq (s : State) (i k : Nat) : (s.rowDone i k).seq i = { s.seq i with done := (s.seq i).done + k, inStep := false } :=
  seq_modSeq_self _ _ _

theorem rowDone_regs (s : State) (i k : Nat) : (s.rowDone i k).regs = s.regs := rfl

theorem rowDone_view (s : State) (i k n : Nat) : SameView n s (s.rowDone i k) :=
  SameView.of_regs (s := s) (t := s.rowDone i k) rfl rfl rfl rfl rfl n

/-- The token of a finished row has been written behind the history. -/
def State.tokenPut (s : State) (i tok : Nat) : State :=
  (s.memPut freshAgent (s.seq i).vf (s.seq i).outEnd (leBytes 4 tok)).modSeq i
    (fun x => { x with outLen := x.outLen + 1, produced := x.produced + 1 })

/-- The next token of sequence `i`, whose row is `row`: taken from NEXT, written, and the end of the sequence when it is out of the
vocabulary, ends it, or fills it. -/
def State.commitToken (s : State) (row i : Nat) : State × Option Nat :=
  let q := s.seq i
  let v := s.areaLe q.vf 7 (4 * row) 4
  if s.mf 0x20 4 ≤ v then (s.retire i 0xC 0xFFFF false, none)
  else match memFault (s.memCheck freshAgent q.vf q.outEnd 4 true false) with
    | some st => (s.modSeq i (fun x => { x with inStep := true }), some st)
    | none =>
      if (List.range 4).any (fun j => (s.tokenPut i v).mf (0x24 + 4 * j) 4 == v) || decide (q.maxNew ≤ q.outLen + 1) then
        ((s.tokenPut i v).retire i 0 0 false, none)
      else (s.tokenPut i v, none)

theorem commitToken_next {row : Nat} (htok : tok = s.areaLe (s.seq i).vf 7 (4 * row) 4) (hvocab : tok < s.mf 0x20 4)
    (hwrite : s.memCheck freshAgent (s.seq i).vf (s.seq i).outEnd 4 true false = none)
    (hgoes : ((List.range 4).any (fun j => (s.tokenPut i tok).mf (0x24 + 4 * j) 4 == tok) ||
      decide ((s.seq i).maxNew ≤ (s.seq i).outLen + 1)) = false) :
    s.commitToken row i = (s.tokenPut i tok, none) := by
  subst htok
  unfold State.commitToken
  dsimp only
  rw [if_neg (Nat.not_le.mpr hvocab), hwrite]
  exact if_neg (ne_true_of_eq_false hgoes)

section Committed
variable (hin : (s.seq i).inStep = true) (hst : (s.seq i).st ≠ 3)
include hin hst

/-- A row whose sequence has more history to process. -/
theorem commitRow_more (row : Nat) (hmore : (s.seq i).done + k ≠ (s.seq i).hist) :
    s.commitRow row (i, first, k) = (s.rowDone i k, none) := by
  have hin' : ¬ (!(s.seq i).inStep) = true := by rw [hin]; decide
  have hst' : ¬ ((s.rowDone i k).seq i).st = 3 := by rw [rowDone_seq]; exact hst
  have hmore' : ((s.rowDone i k).seq i).done ≠ ((s.rowDone i k).seq i).hist := by rw [rowDone_seq]; exact hmore
  exact (if_neg hin').trans ((if_neg hst').trans (if_pos hmore'))

/-- A row whose history is processed goes on to its next token. -/
theorem commitRow_all (row : Nat) (hall : (s.seq i).done + k = (s.seq i).hist) :
    s.commitRow row (i, first, k) = (s.rowDone i k).commitToken row i := by
  have hin' : ¬ (!(s.seq i).inStep) = true := by rw [hin]; decide
  have hst' : ¬ ((s.rowDone i k).seq i).st = 3 := by rw [rowDone_seq]; exact hst
  have hall' : ¬ ((s.rowDone i k).seq i).done ≠ ((s.rowDone i k).seq i).hist := by
    rw [rowDone_seq]
    exact not_not_intro hall
  exact (if_neg hin').trans ((if_neg hst').trans (if_neg hall'))

end Committed

theorem uid_of_named {w z : TStep} (h : w.named = z.named) : w.uid = z.uid := by
  have huid := congrArg TStep.uid h
  exact huid

theorem commitRows_one {r : Nat × Nat × Nat} (h : s.commitRow 0 r = (u, none)) : State.commitRows [r].zipIdx s = (u, none) := by
  change (match s.commitRow 0 r with
    | (s1, none) => State.commitRows [] s1
    | (s1, some st) => (s1, some st)) = _
  rw [h]
  rfl

theorem failRows_one (n actual : Nat) (x : TStep) (hin : (s.seq i).inStep = true) (hst : (s.seq i).st = 1) (status detail : Nat) :
    (s.stepTaken n actual x).failRows [(i, first, k)] status detail =
      ((s.stepTaken n actual x).retire i status detail false).bump F.SEQ_CNT_STEP_FAIL_COUNT := by
  have hseq := stepTaken_seq s n actual x i
  have hin' : ¬ (!((s.stepTaken n actual x).seq i).inStep) = true := by rw [hseq, hin]; decide
  have hst' : ¬ ((s.stepTaken n actual x).seq i).st = 3 := by rw [hseq, hst]; decide
  exact congrArg (fun t : State => t.bump F.SEQ_CNT_STEP_FAIL_COUNT) ((if_neg hin').trans (if_neg hst'))

section OneRow
variable (hrun : s.frozen = false) (hfind : s.tsl.steps.find? (fun x => x.vf == n && x.result.isSome) = some x)
  (hrows : x.rows = [(i, first, k)]) (hin : (s.seq i).inStep = true) (hst : (s.seq i).st = 1)
include hrun hfind hrows hin hst

theorem stepEnd_counts (hres : x.result = some (0, 0)) (hmore : (s.seq i).done + k ≠ (s.seq i).hist) :
    Ends (.stepEnd n actual) s (fun t => t.seq i = { s.seq i with done := (s.seq i).done + k, inStep := false } ∧
      t.fld (F.SEQ_S_SCALE_SCALE n) = newScale (s.fld (F.SEQ_S_SCALE_SCALE n)) actual x.est ∧
      t.tsl.steps = s.tsl.steps.filter (fun z => z.uid != x.uid) ∧ OnlyIn [.regs, .tsl] s t) := by
  have hseq := stepTaken_seq s n actual x i
  have hcommit := commitRow_more (s := s.stepTaken n actual x) (k := k) (first := first) (by rw [hseq]; exact hin)
    (by rw [hseq, hst]; decide) 0 (by rw [hseq]; exact hmore)
  refine ⟨_, exec_stepEnd_done hrun hfind hres (hrows ▸ commitRows_one hcommit), ?_, ?_, ?_, ?_⟩
  · rw [rowDone_seq, hseq]
  · rw [fld_of_regs (rowDone_regs _ i k), stepTaken_scale]
  · exact stepTaken_steps s n actual x
  · exact (modSeq_kept (P := 1048577) _ i _ (stepTaken_kept s n actual x) (by decide)).onlyIn (fun p => by cases p <;> decide)

theorem stepEnd_fails (hstatus : status ≠ 0) (hres : x.result = some (status, detail)) :
    Ends (.stepEnd n actual) s (fun t => t.seq i = {} ∧ (∀ z ∈ t.tsl.steps, z.uid ≠ x.uid)) := by
  have hgone := (retire_gone (s.stepTaken n actual x) i status detail false).stepsOnly
    (StepsOnly.of_tsl (bump_tsl _ F.SEQ_CNT_STEP_FAIL_COUNT))
  refine ⟨_, (exec_stepEnd_failed hrun hfind hstatus hres).trans (congrArg _ ?_), hgone.gone, fun z hz => ?_⟩
  · rw [hrows]
    exact failRows_one n actual x hin hst status detail
  · obtain ⟨w, hw, hname⟩ := exists_step_of_named hgone.named.symm hz
    rw [stepTaken_steps] at hw
    rw [← uid_of_named hname]
    simpa using (List.mem_filter.mp hw).2

end OneRow

/-! ### The next token of a sequence (R589) -/

/-- The state in which a finished row's sequence has its tokens counted. -/
def State.rowEnded (s : State) (n actual : Nat) (x : TStep) (i k : Nat) : State := (s.stepTaken n actual x).rowDone i k

theorem rowEnded_view (s : State) (n m actual : Nat) (x : TStep) (i k : Nat) : SameView m s (s.rowEnded n actual x i k) := by
  have htaken := stepTaken_view s n m actual x
  have hdone := rowDone_view (s.stepTaken n actual x) i k m
  exact ⟨hdone.mem.trans htaken.mem, hdone.sec.trans htaken.sec, hdone.slices.trans htaken.slices, hdone.draws.trans htaken.draws,
    hdone.commons.trans htaken.commons, hdone.model.trans htaken.model⟩

theorem rowDone_tsl (s : State) (i k : Nat) :
    (s.rowDone i k).tsl.manifest = s.tsl.manifest ∧ (s.rowDone i k).tsl.active = s.tsl.active := ⟨rfl, rfl⟩

theorem stepTaken_tsl (s : State) (n actual : Nat) (x : TStep) :
    (s.stepTaken n actual x).tsl.manifest = s.tsl.manifest ∧ (s.stepTaken n actual x).tsl.active = s.tsl.active := by
  rw [State.stepTaken, setFld_tsl]
  exact ⟨rfl, rfl⟩

theorem rowEnded_tsl (s : State) (n actual : Nat) (x : TStep) (i k : Nat) :
    (s.rowEnded n actual x i k).tsl.manifest = s.tsl.manifest ∧ (s.rowEnded n actual x i k).tsl.active = s.tsl.active := by
  obtain ⟨hmanifest, hactive⟩ := rowDone_tsl (s.stepTaken n actual x) i k
  rw [State.rowEnded, hmanifest, hactive]
  exact stepTaken_tsl s n actual x

theorem areaLe_congr (hview : SameView n s t) (hmanifest : t.tsl.manifest = s.tsl.manifest)
    (hactive : t.tsl.active = s.tsl.active) (part o len : Nat) : t.areaLe n part o len = s.areaLe n part o len := by
  have haddr : t.areaAddr n part o = s.areaAddr n part o := by
    simp only [State.areaAddr, State.areaParts, State.maxSeqs, State.maxTokens, State.maxPages, State.poolPages, State.limitActive,
      mf_congr hmanifest, hactive]
  rw [State.areaLe, hview.memBytes, haddr, State.areaLe]

theorem rowEnded_seq (s : State) (n actual : Nat) (x : TStep) (i k : Nat) :
    (s.rowEnded n actual x i k).seq i = { s.seq i with done := (s.seq i).done + k, inStep := false } := by
  rw [State.rowEnded, rowDone_seq, stepTaken_seq]

theorem modSeq_manifest (s : State) (i : Nat) (f : Seq → Seq) : (s.modSeq i f).tsl.manifest = s.tsl.manifest := rfl

theorem tokenPut_of_written {b : Nat} (h : Written s (s.memPut freshAgent (s.seq i).vf (s.seq i).outEnd (leBytes 4 b)) freshAgent
    (s.seq i).vf (s.seq i).outEnd (leBytes 4 b)) : (s.tokenPut i b).seq i =
      { s.seq i with outLen := (s.seq i).outLen + 1, produced := (s.seq i).produced + 1 } ∧
      (s.tokenPut i b).tsl.manifest = s.tsl.manifest ∧ (∀ d, (s.tokenPut i b).dpaByte d =
        (s.memPut freshAgent (s.seq i).vf (s.seq i).outEnd (leBytes 4 b)).dpaByte d) ∧ Kept 6443565056 s (s.tokenPut i b) := by
  refine ⟨?_, (modSeq_manifest _ i _).trans (by rw [h.tsl]), fun d => rfl, modSeq_kept _ i _ (h.kept.mono (by decide)) (by decide)⟩
  rw [State.tokenPut, seq_modSeq_self, seq_congr (congrArg Teasel.seqs h.tsl)]

/-- A step of one row whose sequence is processed to its end appends the next token, when that ends nothing. -/
theorem stepEnd_next (hrun : s.frozen = false) (hfind : s.tsl.steps.find? (fun x => x.vf == n && x.result.isSome) = some x)
    (hrows : x.rows = [(i, first, k)]) (hin : (s.seq i).inStep = true) (hst : (s.seq i).st = 1) (hvf : (s.seq i).vf = n)
    (hres : x.result = some (0, 0)) (hall : (s.seq i).done + k = (s.seq i).hist) (htok : tok = s.areaLe n 7 0 4)
    (hvocab : tok < s.mf 0x20 4) (hwrite : s.memCheck freshAgent n (s.seq i).outEnd 4 true false = none)
    (hstop : ∀ j, j < 4 → s.mf (0x24 + 4 * j) 4 ≠ tok) (hroom : (s.seq i).outLen + 1 < (s.seq i).maxNew) :
    Ends (.stepEnd n actual) s (fun t =>
      t.seq i = { s.seq i with
        done := (s.seq i).hist, inStep := false, outLen := (s.seq i).outLen + 1, produced := (s.seq i).produced + 1 } ∧
      ((s.reach freshAgent n (s.seq i).outEnd 4 true).Nodup →
        (s.reach freshAgent n (s.seq i).outEnd 4 true).map t.dpaByte = leBytes 4 tok) ∧
      BytesOutside (s.reach freshAgent n (s.seq i).outEnd 4 true) s t ∧ OnlyIn [.regs, .tsl, .mem, .cmn, .hbm] s t) := by
  subst hvf
  have hview := rowEnded_view s (s.seq i).vf (s.seq i).vf actual x i k
  obtain ⟨hmanifest, hactive⟩ := rowEnded_tsl s (s.seq i).vf actual x i k
  have hseq := rowEnded_seq s (s.seq i).vf actual x i k
  have htaken := stepTaken_seq s (s.seq i).vf actual x i
  have hcheck : (s.rowEnded (s.seq i).vf actual x i k).memCheck freshAgent (s.seq i).vf (s.seq i).outEnd (leBytes 4 tok).length true
      false = none := by
    rw [length_leBytes, hview.memCheck]
    exact hwrite
  have hput := memPut_written hcheck (by rw [length_leBytes]; decide)
  obtain ⟨hafter, hmf, hbytes, hkept⟩ := tokenPut_of_written (s := s.rowEnded (s.seq i).vf actual x i k) (i := i) (b := tok)
    (by rw [hseq]; exact hput)
  have hgoes : ((List.range 4).any (fun j => ((s.rowEnded (s.seq i).vf actual x i k).tokenPut i tok).mf (0x24 + 4 * j) 4 == tok) ||
      decide (((s.rowEnded (s.seq i).vf actual x i k).seq i).maxNew ≤
        ((s.rowEnded (s.seq i).vf actual x i k).seq i).outLen + 1)) = false := by
    rw [hseq]
    simp only [mf_congr (hmf.trans hmanifest), Bool.or_eq_false_iff, decide_eq_false_iff_not, Nat.not_le]
    refine ⟨List.any_eq_false.mpr fun j hj => ?_, hroom⟩
    simpa using hstop j (List.mem_range.mp hj)
  have htoken := commitToken_next (s := s.rowEnded (s.seq i).vf actual x i k) (i := i) (row := 0)
    (by rw [hseq, htok]; exact (areaLe_congr hview hmanifest hactive 7 0 4).symm) (by rw [mf_congr hmanifest]; exact hvocab)
    (by rw [hseq, hview.memCheck]; exact hwrite) hgoes
  have hcommit := (commitRow_all (s := s.stepTaken (s.seq i).vf actual x) (i := i) (k := k) (first := first)
    (by rw [htaken]; exact hin) (by rw [htaken, hst]; decide) 0 (by rw [htaken]; exact hall)).trans htoken
  rw [hseq] at hafter hbytes
  refine ⟨_, exec_stepEnd_done hrun hfind hres (hrows ▸ commitRows_one hcommit), ?_, fun hnodup => ?_, ?_, ?_⟩
  · refine hafter.trans ?_
    rw [← hall]
  · have hread := hput.bytes
    rw [length_leBytes, hview.reach] at hread
    rw [← hread hnodup]
    exact congrArg (fun f => List.map f _) (funext hbytes)
  · have houtside := hput.outside
    rw [length_leBytes, hview.reach] at houtside
    exact houtside.congr hview.dpaByte hbytes
  · have hended : Kept 6443565057 s (s.rowEnded (s.seq i).vf actual x i k) :=
      modSeq_kept _ i _ ((stepTaken_kept s _ actual x).mono (by decide)) (by decide)
    exact (hended.trans (hkept.mono (by decide))).onlyIn (fun p => by cases p <;> decide)

/-! ### What does nothing -/

theorem exec_stepEnd_idle (h : s.frozen = true ∨ ∀ x ∈ s.tsl.steps, x.vf = n → x.result = none) :
    exec (.stepEnd n actual) s = .next s := by
  change execStepEnd n actual s = _
  unfold execStepEnd
  cases hfind : s.tsl.steps.find? (fun x => x.vf == n && x.result.isSome)
  case none => rfl
  case some x =>
    have hmatch := List.find?_some hfind
    rw [Bool.and_eq_true, beq_iff_eq] at hmatch
    rcases h with hfrozen | hnone
    · exact if_pos hfrozen
    · rw [hnone x (List.mem_of_find?_eq_some hfind) hmatch.1] at hmatch
      exact absurd hmatch.2 Bool.false_ne_true

theorem exec_seqAppendApply_frozen (h : s.frozen = true) : exec (.seqAppendApply n) s = .next s := if_pos h

end Sys2Proof.Machine
end

section
/-! SUPPORT. The building of a step (R581 to R588): what a batch holds, and that the step handed over stays among Teasel's steps
whatever becomes of its graph. -/

namespace Sys2Proof.Machine

variable {s t u : State} {n r i k : Nat} {b : Build} {x : TStep}

/-! ### The graph of a step -/

theorem startLaunch_stepsOnly (s : State) (l : Launch) : StepsOnly s (s.startLaunch l) :=
  (startLaunch_kept (P := 393216) s l (Kept.refl s) (by decide)).stepsOnly (by decide)

theorem enqueue_stepsOnly (s : State) (bytes : List Byte) (uid : Nat) : StepsOnly s (s.enqueue bytes uid) :=
  (enqueue_kept (P := 524288) s bytes uid (Kept.refl s) (by decide)).stepsOnly (by decide)

theorem runNode_stepsOnly {ts : List (List Byte)} {node : List Byte} (h : s.runNode n ts node = .inr t) : StepsOnly s t :=
  (KeptI.of h (runNode_kept (P := 6476087297) s n ts node (Kept.refl s) (by decide))).stepsOnly (by decide)

theorem setYar_stepsOnly (s : State) (y : Yarrow) : StepsOnly s { s with yar := y } := StepsOnly.of_tsl rfl

/-- Of Teasel a graph's run changes the results of its steps alone. -/
theorem graphGo_stepsOnly (g : GraphRun) (fuel : Nat) (s : State) : StepsOnly s (s.graphGo g fuel) := by
  induction fuel generalizing s g with
  | zero => exact StepsOnly.of_tsl rfl
  | succ fuel ih =>
    rw [State.graphGo]
    dsimp only
    split
    next => exact endUid_stepsOnly s _ _ _ _ _
    next =>
      split
      next => exact (setYar_stepsOnly s _).trans (startLaunch_stepsOnly _ _)
      next =>
        split
        next => exact (setYar_stepsOnly s _).trans (enqueue_stepsOnly _ _ _)
        next =>
          split
          next => exact faultUid_stepsOnly s _ _ _ _ _ _ _
          next hnode => exact (runNode_stepsOnly hnode).trans (ih _ _)

/-! ### The step that is handed over -/

/-- A step, beside its result, is among Teasel's. -/
def HasStep (x : TStep) (t : State) : Prop := ∃ y ∈ t.tsl.steps, y.named = x.named

theorem HasStep.stepsOnly (h : HasStep x s) (k : StepsOnly s t) : HasStep x t := by
  obtain ⟨y, hy, hname⟩ := h
  obtain ⟨z, hz, hname'⟩ := exists_step_of_named k.named hy
  exact ⟨z, hz, hname'.trans hname⟩

/-- The rows' sequences are in a step. -/
def State.rowsIn (s : State) (rows : List (Nat × Nat × Nat)) : State :=
  rows.foldl (fun s r => s.modSeq r.1 (fun q => { q with inStep := true })) s

theorem rowsIn_steps (s : State) (rows : List (Nat × Nat × Nat)) : (s.rowsIn rows).tsl.steps = s.tsl.steps :=
  List.foldlRecOn rows _ (motive := fun t : State => t.tsl.steps = s.tsl.steps) rfl (fun _ h _ _ => h)

/-- The step stands last among Teasel's. -/
def State.stepAdded (s : State) (x : TStep) : State := { s with tsl := { s.tsl with steps := s.tsl.steps ++ [x] } }

theorem rowsIn_has (rows : List (Nat × Nat × Nat)) (h : x ∈ s.tsl.steps) : HasStep x (s.rowsIn rows) :=
  ⟨x, by rw [rowsIn_steps]; exact h, rfl⟩

theorem mem_stepAdded (s : State) (x : TStep) : x ∈ (s.stepAdded x).tsl.steps :=
  List.mem_append_right _ (List.mem_singleton_self x)

theorem handOver_has (s : State) (n tokens : Nat) (x : TStep) : HasStep x (s.handOver n x tokens) := by
  have hin : HasStep x (((s.stepAdded x).rowsIn x.rows).bump F.SEQ_CNT_STEPS_COUNT) :=
    (rowsIn_has x.rows (mem_stepAdded s x)).stepsOnly (StepsOnly.of_tsl (bump_tsl _ _))
  unfold State.handOver
  dsimp only
  split
  next => exact hin.stepsOnly (faultUid_stepsOnly _ _ _ _ _ _ _ _)
  next => exact hin.stepsOnly (graphGo_stepsOnly _ _ _)

/-! ### The pages of a candidate (R586, R587) -/

/-- The manifest is as it was. -/
def SameManifest (s t : State) : Prop := t.tsl.manifest = s.tsl.manifest

theorem SameManifest.trans (h : SameManifest s t) (k : SameManifest t u) : SameManifest s u := Eq.trans k h

theorem Kept.sameManifest {P : Nat} (h : Kept P s t) (hP : P.testBit Part.tsl.bit = false) : SameManifest s t := by
  rw [SameManifest, show t.tsl = s.tsl from h.parts .tsl hP]

theorem modSeq_sameManifest (s : State) (i : Nat) (f : Seq → Seq) : SameManifest s (s.modSeq i f) := modSeq_manifest s i f

theorem bump_sameManifest (s : State) (f : Fld) : SameManifest s (s.bump f) := by rw [SameManifest, bump_tsl]

theorem evict_sameManifest (s : State) (i : Nat) : SameManifest s (s.evict i) :=
  SameManifest.trans (by rw [SameManifest, returnPages_tsl])
    ((modSeq_sameManifest (s.returnPages (s.seq i)) i _).trans (bump_sameManifest _ _))

theorem evictUntil_sameManifest (n need : Nat) (l : List Nat) (s : State) : SameManifest s (State.evictUntil n need l s) := by
  induction l generalizing s with
  | nil => exact rfl
  | cons j l ih =>
    rw [State.evictUntil]
    split
    · exact rfl
    · exact (evict_sameManifest s j).trans (ih _)

theorem pageGiven_sameManifest (s : State) (n page part o : Nat) (bs : List Byte) :
    SameManifest s ((s.setPage n page false).areaPut n part o bs) :=
  (areaPut_kept (P := 6442532865) _ n part o bs (setPage_kept s n page false (Kept.refl s) (by decide))
    (by decide)).sameManifest (by decide)

theorem takePages_sameManifest (h : s.takePages i k b = some t) : SameManifest s t := by
  unfold State.takePages at h
  dsimp only at h
  split at h
  · cases h
  · split at h
    · cases h
    · obtain rfl := Option.some.inj h
      refine SameManifest.trans ?_ (modSeq_sameManifest _ i _)
      exact List.foldlRecOn _ _ (motive := SameManifest s) (evictUntil_sameManifest _ _ _ s)
        (fun t ht p _ => ht.trans (pageGiven_sameManifest t _ _ _ _ _))

/-! ### What a batch holds (R583) -/

theorem fitRun_le (s : State) (n r : Nat) (b : Build) (q : Seq) (c : Nat) : s.fitRun n r b q c ≤ c := by
  induction c with
  | zero => exact Nat.le_refl 0
  | succ c ih =>
    rw [State.fitRun]
    split
    · exact Nat.le_refl _
    · exact Nat.le_succ_of_le ih

/-- What the offer of a candidate makes of a batch: no change, a sequence that retires, or a row of at least one token within
the manifest's bounds. -/
inductive Offered (b : Build) (i : Nat) : Build → Prop
  | same : Offered b i b
  | retired {t : State} : SameManifest b.st t → Offered b i { b with st := t }
  | included {t : State} {c pages : Nat} : SameManifest b.st t → 1 ≤ c → b.tokens + c ≤ b.st.maxTokens →
      b.rows.length < b.st.maxSeqs →
      Offered b i { st := t, rows := b.rows ++ [(i, (b.st.seq i).done, c)], tokens := b.tokens + c, pages := pages }

/-- The tokens that a candidate is offered: one for a decoding sequence, else the largest run that fits; at least one in a batch
that is still empty. -/
def State.runOffered (s : State) (n r : Nat) (b : Build) (i : Nat) : Nat :=
  let q := s.seq i
  let room := min (min (q.hist - q.done) (s.maxTokens - b.tokens)) (q.kvLimit * s.pageTokens - q.done)
  let fit := if q.decoding then 1 else s.fitRun n r b q room
  if b.rows.isEmpty then max fit 1 else fit

theorem runOffered_le (h : b.tokens < s.maxTokens) : b.tokens + s.runOffered n r b i ≤ s.maxTokens := by
  have hfit := fitRun_le s n r b (s.seq i)
    (min (min ((s.seq i).hist - (s.seq i).done) (s.maxTokens - b.tokens)) ((s.seq i).kvLimit * s.pageTokens - (s.seq i).done))
  unfold State.runOffered
  dsimp only
  split <;> split <;> omega

theorem offer_run (n r : Nat) (b : Build) (i : Nat) (h : ¬ (!(b.st.seq i).live || decide (b.st.maxTokens ≤ b.tokens) ||
    decide (b.st.maxSeqs ≤ b.rows.length)) = true)
    (hpool : ¬ ((b.st.pagesOf (b.st.seq i)).any (fun p => decide (b.st.poolPages ≤ p))) = true)
    (hlimit : ¬ ((b.st.seq i).decoding && decide ((b.st.seq i).kvLimit < b.st.pagesFor ((b.st.seq i).done + 1))) = true) :
    State.offer n r b i = if b.st.runOffered n r b i = 0 then b
      else match b.st.takePages i ((b.st.seq i).done + b.st.runOffered n r b i) b with
        | none => b
        | some t => {
          st := t.modSeq i (fun x => { x with st := 1 })
          rows := b.rows ++ [(i, (b.st.seq i).done, b.st.runOffered n r b i)], tokens := b.tokens + b.st.runOffered n r b i
          pages := b.pages + t.pagesFor ((b.st.seq i).done + b.st.runOffered n r b i) } :=
  (if_neg h).trans ((if_neg hpool).trans (if_neg hlimit))

theorem offer_offered (n r : Nat) (b : Build) (i : Nat) : Offered b i (State.offer n r b i) := by
  by_cases hopen : (!(b.st.seq i).live || decide (b.st.maxTokens ≤ b.tokens) || decide (b.st.maxSeqs ≤ b.rows.length)) = true
  case pos =>
    rw [show State.offer n r b i = b from if_pos hopen]
    exact .same
  by_cases hpool : ((b.st.pagesOf (b.st.seq i)).any (fun p => decide (b.st.poolPages ≤ p))) = true
  case pos =>
    rw [show State.offer n r b i = { b with st := b.st.retire i 4 0 true } from (if_neg hopen).trans (if_pos hpool)]
    exact .retired (retire_gone _ i 4 0 true).manifest
  by_cases hlimit : ((b.st.seq i).decoding && decide ((b.st.seq i).kvLimit < b.st.pagesFor ((b.st.seq i).done + 1))) = true
  case pos =>
    rw [show State.offer n r b i = { b with st := (b.st.bump F.SEQ_CNT_KV_LIMIT_COUNT).retire i 0 0 false } from
      (if_neg hopen).trans ((if_neg hpool).trans (if_pos hlimit))]
    exact .retired ((bump_sameManifest _ _).trans (retire_gone _ i 0 0 false).manifest)
  rw [offer_run n r b i hopen hpool hlimit]
  simp only [Bool.or_eq_true, decide_eq_true_eq, not_or, Nat.not_le] at hopen
  obtain ⟨⟨-, htokens⟩, hseqs⟩ := hopen
  split
  next => exact .same
  next hsome =>
    split
    next => exact .same
    next t ht =>
      exact .included ((takePages_sameManifest ht).trans (modSeq_sameManifest t i _)) (Nat.one_le_iff_ne_zero.mpr hsome)
        (runOffered_le htokens) hseqs

/-- A batch keeps within the manifest's bounds. -/
structure Bounded (s : State) (b : Build) : Prop where
  manifest : SameManifest s b.st
  total : (b.rows.map (fun r => r.2.2)).sum = b.tokens
  tokens : b.tokens ≤ s.maxTokens
  rows : b.rows.length ≤ s.maxSeqs
  pos : ∀ r ∈ b.rows, 1 ≤ r.2.2

theorem SameManifest.maxTokens (h : SameManifest s t) : t.maxTokens = s.maxTokens := mf_congr h 0x10 4

theorem SameManifest.maxSeqs (h : SameManifest s t) : t.maxSeqs = s.maxSeqs := mf_congr h 0x14 2

theorem Bounded.offered {c : Build} (h : Bounded s b) (ho : Offered b i c) : Bounded s c := by
  cases ho with
  | same => exact h
  | retired hmanifest => exact ⟨h.manifest.trans hmanifest, h.total, h.tokens, h.rows, h.pos⟩
  | included hmanifest hone htokens hrows =>
    rw [h.manifest.maxTokens] at htokens
    rw [h.manifest.maxSeqs] at hrows
    refine ⟨h.manifest.trans hmanifest, ?_, htokens, ?_, fun r hr => ?_⟩
    · rw [List.map_append, List.sum_append, h.total]
      simp
    · rw [List.length_append]
      exact hrows
    · rcases List.mem_append.mp hr with hr | hr
      · exact h.pos r hr
      · rw [List.mem_singleton.mp hr]
        exact hone

theorem batch_bounded (s : State) (n r : Nat) (l : List Nat) : Bounded s (l.foldl (State.offer n r) ⟨s, [], 0, 0⟩) :=
  List.foldlRecOn l _ ⟨rfl, rfl, Nat.zero_le _, Nat.zero_le _, fun _ h => absurd h List.not_mem_nil⟩
    (fun b hb i _ => hb.offered (offer_offered n r b i))

/-! ### STEP_BUILD -/

/-- The step that a batch makes. -/
def Build.step (b : Build) (n : Nat) : TStep :=
  { uid := b.st.sch.nextUid, vf := n, rows := b.rows, est := b.st.stepEst n b.tokens b.rows.length b.pages, result := none }

theorem exec_stepBuild (hrun : s.frozen = false) (hactive : s.activated n = true) (hnone : ∀ x ∈ s.tsl.steps, x.vf ≠ n)
    (hslot : s.teaselSlot n = true) (hlong : s.mf 0x34 4 ≤ r)
    (hb : b = (s.candidates n).foldl (State.offer n r) ⟨s, [], 0, 0⟩) (hrows : b.rows ≠ []) :
    ∃ t, exec (.stepBuild n r) s = .next t ∧ HasStep (b.step n) t := by
  have hgo : ¬ (s.frozen || !s.activated n || s.tsl.steps.any (fun x => x.vf == n) || !s.teaselSlot n ||
      decide (r < s.mf 0x34 4)) = true := by
    simp [hrun, hactive, hslot, hlong]
    exact hnone
  change ∃ t, execStepBuild n r s = .next t ∧ _
  unfold execStepBuild
  rw [if_neg hgo]
  dsimp only
  rw [← hb, if_neg (by rw [List.isEmpty_iff]; exact hrows)]
  split
  next =>
    refine ⟨_, rfl, HasStep.stepsOnly ?_ (faultUid_stepsOnly _ _ _ _ _ _ _ _)⟩
    exact rowsIn_has _ (List.mem_append_right _ (List.mem_singleton_self (b.step n)))
  next => exact ⟨_, rfl, handOver_has _ n b.tokens (b.step n)⟩

theorem stepBuild_handsOver (hrun : s.frozen = false) (hactive : s.activated n = true) (hnone : ∀ x ∈ s.tsl.steps, x.vf ≠ n)
    (hslot : s.teaselSlot n = true) (hlong : s.mf 0x34 4 ≤ r)
    (hb : b = (s.candidates n).foldl (State.offer n r) ⟨s, [], 0, 0⟩) (hrows : b.rows ≠ []) :
    Ends (.stepBuild n r) s (fun t => ∃ x ∈ t.tsl.steps, x.vf = n ∧ x.rows = b.rows ∧ x.rows.length ≤ s.maxSeqs ∧
      (x.rows.map (fun r => r.2.2)).sum ≤ s.maxTokens ∧ (∀ r ∈ x.rows, 1 ≤ r.2.2) ∧
      x.est = b.st.stepEst n b.tokens b.rows.length b.pages) := by
  obtain ⟨t, ht, x, hx, hname⟩ := exec_stepBuild hrun hactive hnone hslot hlong hb hrows
  have hbounded : Bounded s b := hb ▸ batch_bounded s n r (s.candidates n)
  have hvf : x.vf = n := by have h := congrArg TStep.vf hname; exact h
  have hsame : x.rows = b.rows := by have h := congrArg TStep.rows hname; exact h
  have hest : x.est = b.st.stepEst n b.tokens b.rows.length b.pages := by have h := congrArg TStep.est hname; exact h
  refine ⟨t, ht, x, hx, hvf, hsame, ?_, ?_, ?_, hest⟩ <;> rw [hsame]
  · exact hbounded.rows
  · rw [hbounded.total]
    exact hbounded.tokens
  · exact hbounded.pos

theorem exec_stepBuild_idle
    (h : s.frozen = true ∨ s.activated n = false ∨ (∃ x ∈ s.tsl.steps, x.vf = n) ∨ s.teaselSlot n = false) :
    exec (.stepBuild n r) s = .next s := by
  refine if_pos ?_
  rcases h with h | h | ⟨x, hx, hvf⟩ | h
  · simp [h]
  · simp [h]
  · have hany : s.tsl.steps.any (fun x => x.vf == n) = true := List.any_eq_true.mpr ⟨x, hx, beq_iff_eq.mpr hvf⟩
    simp [hany]
  · simp [h]

end Sys2Proof.Machine
end

section
/-! Teasel's sequences, put together from the rules of each command (O52). -/

namespace Sys2Proof.Machine

/-- Settles O52: each command of Teasel by its rule; the bounds of a batch by induction over the candidates offered. -/
theorem sequencesAreBatched : Obligations.SequencesAreBatched := by
  unfold Obligations.SequencesAreBatched
  refine ⟨fun n q c s v _ _ _ => ⟨seqAdmit_noModel, ?admission, fun cmd op hcmd hstart hnone => seqUnknown_ends hcmd hstart hnone,
      ?append, ?cancel⟩, ?apply, ?build, fun n r s => exec_stepBuild_idle, ?done, ?idle⟩
  case admission =>
    intro hstart hmodel hmanifest
    exact ⟨fun d => seqAdmit_badArg hstart hmodel hmanifest, fun i r => seqAdmit_takes hstart hmodel hmanifest,
      seqAdmit_full hstart hmodel hmanifest⟩
  case append =>
    rintro i x hstart hnamed rfl
    exact ⟨seqAppend_waits hstart hnamed, seqAppend_tooLong hstart hnamed⟩
  case cancel =>
    intro i hstart hnamed
    exact ⟨seqCancel_marks hstart hnamed, seqCancel_ends hstart hnamed⟩
  case apply =>
    rintro n dst a x s hrun hfind rfl rfl hsome hread hwrite
    exact seqAppendApply_copies hrun hfind hsome hread hwrite
  case build =>
    intro n r b s hrun hactive hnone hslot hlong hb hrows
    exact stepBuild_handsOver hrun hactive hnone hslot hlong hb hrows
  case done =>
    rintro n actual i first k tok x y s - - hrun hfind hrows rfl hin hst hvf
    exact ⟨stepEnd_counts hrun hfind hrows hin hst,
      fun hres hall htok hvocab hwrite hstop hroom => stepEnd_next hrun hfind hrows hin hst hvf hres hall htok hvocab hwrite hstop
        hroom,
      fun status detail hstatus hres => stepEnd_fails hrun hfind hrows hin hst hstatus hres⟩
  case idle => exact fun n actual s h => ⟨exec_stepEnd_idle h, exec_seqAppendApply_frozen⟩

end Sys2Proof.Machine
end

section
/-! That every command answers (O3): no meaning ends in a fault or a refusal. -/

namespace Sys2Proof.Machine

/-- Settles O3: the rule for what a command keeps, by cases on the command, names the next state it answers. -/
theorem everyCommandAnswers : Obligations.EveryCommandAnswers := fun c s =>
  (exec_kept (P := 8438939643) c s (Kept.refl s) (by decide)).imp fun _ h => h.1

end Sys2Proof.Machine
end

section
/-! SUPPORT. The MCTP endpoint (R207 to R209): on a module that is on, a request on medium 0 or 1 is met, and what meets it is one
message, but for the IDs that are set and the requests that are dropped. -/

namespace Sys2Proof.Machine

variable {m : Nat} {s t : State} {c : Instr} {d : List Byte}

theorem exec_mctp_on (hm : m ≤ 1) (hon : s.pwr.mode = .on)
    (hexec : exec c s = if s.pwr.mode != .on || 1 < m then .next s else .next t) : exec c s = .next t :=
  hexec.trans (if_neg (by simp [hon, hm]))

/-! ### Answers -/

/-- `t` is `s` with an MCTP answer on medium `m` put out, header and completion code at least. -/
def State.MctpAnswered (s : State) (m : Nat) (t : State) : Prop := ∃ d, t = s.emit (.mctp m d) ∧ 3 ≤ d.length

theorem control_answered (s : State) (m cmd cc : Nat) (d : List Byte) : s.MctpAnswered m (s.control m cmd cc d) :=
  ⟨_, rfl, by simp only [List.length_append, length_leBytes]; omega⟩

theorem pldm_answered (s : State) (m ty cmd cc : Nat) (d : List Byte) : s.MctpAnswered m (s.pldm m ty cmd cc d) :=
  ⟨_, rfl, by simp only [List.length_append, length_leBytes]; omega⟩

theorem mctpAnswered_ite {p : Prop} [Decidable p] {t u : State} (ht : s.MctpAnswered m t) (hu : s.MctpAnswered m u) :
    s.MctpAnswered m (if p then t else u) := by split <;> assumption

section On
variable (hm : m ≤ 1) (hon : s.pwr.mode = .on)
include hm hon

/-- A request that is answered with the bytes `d`, and with nothing else. -/
theorem ends_of_message (hexec : exec c s = if s.pwr.mode != .on || 1 < m then .next s else .next t)
    (ht : t = s.emit (.mctp m d)) : Ends c s (fun t => t.out = .mctp m d :: s.out ∧ OnlyIn [.out] s t) :=
  ends_of_emit ((exec_mctp_on hm hon hexec).trans (congrArg _ ht))

theorem ends_of_answered (hexec : exec c s = if s.pwr.mode != .on || 1 < m then .next s else .next t)
    (ht : s.MctpAnswered m t) :
    Ends c s (fun t => (∃ d, t.out = .mctp m d :: s.out ∧ 3 ≤ d.length) ∧ OnlyIn [.out] s t) := by
  obtain ⟨d, hd, hlen⟩ := ht
  obtain ⟨u, hu, hout, honly⟩ := ends_of_message hm hon hexec hd
  exact ⟨u, hu, ⟨d, hout, hlen⟩, honly⟩

/-- The requests whose answer is read from constants of the part. -/
theorem tableRequests_answered (ty h : Nat) (hc : c = .getEndpointUuid m ∨ c = .getMctpVersionSupport m ty ∨
    c = .getMessageTypeSupport m ∨ c = .getpldmversion m ty ∨ c = .getpldmtypes m ∨ c = .getpldmcommands m ty ∨
    c = .getpdrrepositoryinfo m ∨ c = .getpdr m h ∨ c = .getfrurecordtablemetadata m ∨ c = .getfrurecordtable m) :
    Ends c s (fun t => (∃ d, t.out = .mctp m d :: s.out ∧ 3 ≤ d.length) ∧ OnlyIn [.out] s t) := by
  rcases hc with rfl | rfl | rfl | rfl | rfl | rfl | rfl | rfl | rfl | rfl
  · exact ends_of_answered hm hon rfl (control_answered ..)
  · exact ends_of_answered hm hon rfl (mctpAnswered_ite (control_answered ..) (control_answered ..))
  · exact ends_of_answered hm hon rfl (control_answered ..)
  · exact ends_of_answered hm hon rfl (mctpAnswered_ite (pldm_answered ..) (pldm_answered ..))
  · exact ends_of_answered hm hon rfl (pldm_answered ..)
  · exact ends_of_answered hm hon rfl (mctpAnswered_ite (pldm_answered ..) (pldm_answered ..))
  · exact ends_of_answered hm hon rfl (pldm_answered ..)
  · refine ends_of_answered hm hon rfl ?_
    dsimp only
    split <;> exact pldm_answered ..
  · exact ends_of_answered hm hon rfl (pldm_answered ..)
  · exact ends_of_answered hm hon rfl (pldm_answered ..)

/-! ### IDs (DSP0236, DSP0240) -/

theorem setEndpointId_sets {op eid : Nat} (hop : op ≤ 1) (h8 : 8 ≤ eid) (h254 : eid ≤ 254) :
    Ends (.setEndpointId m op eid) s (fun t => t.eid m = eid ∧ t.eid (1 - m) = s.eid (1 - m) ∧
      t.out = .mctp m ([0, 1, 0, 0] ++ leBytes 1 eid ++ [0]) :: s.out ∧ OnlyIn [.eng, .out] s t) := by
  have hgood : ¬ (1 < op || eid < 8 || 254 < eid) = true := by simp; omega
  refine ⟨_, (exec_mctp_on hm hon rfl).trans (congrArg _ (if_neg hgood)), ?_, ?_, rfl, ?_⟩
  · exact fget_fset_self _ s.eng.eids m eid
  · exact fget_fset_ne _ s.eng.eids m _ eid (by omega)
  · exact (emit_kept (P := 67112960) ((Kept.refl s).set_eng _ (by decide)) _ (by decide)).onlyIn (fun p => by cases p <;> decide)

theorem setEndpointId_refused {op eid : Nat} (hbad : 1 < op ∨ eid < 8 ∨ 254 < eid) :
    Ends (.setEndpointId m op eid) s (fun t => t.out = .mctp m [0, 1, 2] :: s.out ∧ OnlyIn [.out] s t) :=
  ends_of_message hm hon rfl (if_pos (by simpa [or_assoc] using hbad))

theorem settid_sets {tid : Nat} (h1 : 1 ≤ tid) (h254 : tid ≤ 254) : Ends (.settid m tid) s (fun t =>
    t.eng.tid = tid ∧ t.out = .mctp m [1, 0, 1, 0] :: s.out ∧ OnlyIn [.eng, .out] s t) := by
  have hgood : ¬ (tid = 0 || 254 < tid) = true := by simp; omega
  refine ⟨_, (exec_mctp_on hm hon rfl).trans (congrArg _ (if_neg hgood)), rfl, rfl, ?_⟩
  exact (emit_kept (P := 67112960) ((Kept.refl s).set_eng _ (by decide)) _ (by decide)).onlyIn (fun p => by cases p <;> decide)

/-! ### Sensors (Table 05-12) -/

/-- The answer to a reading of a sensor whose reading is `r`; the temperatures, from sensor 3 on, are signed bytes. -/
def readingBytes (id : Nat) (r : Option Nat) : List Byte :=
  leBytes 1 4 ++ leBytes 1 (if r.isSome then 0 else 2) ++ leBytes 4 0 ++
    leBytes 4 (match r with | some v => if 3 ≤ id then unsgn 32 (sgn 8 v) else v | none => 0)

theorem getsensorreading_reads {id : Nat} {r : Option Nat} (hr : s.sensor id = some r) : Ends (.getsensorreading m id) s
    (fun t => t.out = .mctp m ([1, 2, 0x11, 0] ++ readingBytes id r) :: s.out ∧ OnlyIn [.out] s t) :=
  ends_of_message hm hon rfl (by dsimp only; rw [hr]; rfl)

theorem getsensorreading_temperature {id : Nat} (h3 : 3 ≤ id) (h13 : id ≤ 13) : Ends (.getsensorreading m id) s (fun t =>
    t.out = .mctp m ([1, 2, 0x11, 0, 4] ++
      leBytes 1 (if s.bit (F.PWR_TEMP_VALID (id - 3)) then 0 else 2) ++ [0, 0, 0, 0] ++
      leBytes 4 (if s.bit (F.PWR_TEMP_VALID (id - 3)) then unsgn 32 (sgn 8 (s.fld (F.PWR_TEMP_DEG_C (id - 3)))) else 0))
      :: s.out ∧ OnlyIn [.out] s t) := by
  have hsensor : s.sensor id = some (if s.bit (F.PWR_TEMP_VALID (id - 3)) then some (s.fld (F.PWR_TEMP_DEG_C (id - 3)))
      else none) := by
    rw [State.sensor, if_neg (by omega), if_neg (by omega), if_pos (by simp [h3, h13])]
  obtain ⟨t, ht, hout, honly⟩ := getsensorreading_reads hm hon hsensor
  refine ⟨t, ht, hout.trans ?_, honly⟩
  cases s.bit (F.PWR_TEMP_VALID (id - 3))
  · rfl
  · simp only [readingBytes, if_pos h3]; rfl

theorem getsensorreading_unknown {id : Nat} (hid : id = 0 ∨ 13 < id) : Ends (.getsensorreading m id) s (fun t =>
    t.out = .mctp m [1, 2, 0x11, 0x80] :: s.out ∧ OnlyIn [.out] s t) := by
  have hsensor : s.sensor id = none := by
    rw [State.sensor, if_neg (by omega), if_neg (by omega), if_neg (by simp; omega)]
  exact ends_of_message hm hon rfl (by dsimp only; rw [hsensor]; rfl)

theorem getstatesensorreadings_tenancy : Ends (.getstatesensorreadings m 21) s (fun t =>
    t.out = .mctp m ([1, 2, 0x21, 0, 1, 0] ++ leBytes 1 s.tenancy ++ [0] ++ leBytes 1 s.tenancy) :: s.out ∧
    OnlyIn [.free, .out] s t) :=
  ⟨_, exec_mctp_on hm hon rfl, rfl, (emit_kept (P := 100663296) (drawn_kept (Kept.refl s) (by decide)) _ (by decide)).onlyIn
    (fun p => by cases p <;> decide)⟩

/-! ### Other messages (R207, R208) -/

theorem mctpOtherMessage_dropped (type ty cmd : Nat) : Ends (.mctpOtherMessage m type ty cmd true) s (fun t =>
    OnlyIn [.regs] s t ∧
      t.fld F.CMD_CNT_MCTP_DROP_COUNT = min (s.fld F.CMD_CNT_MCTP_DROP_COUNT + 1) (2 ^ 32 - 1)) :=
  ⟨_, exec_mctp_on hm hon rfl, (bump_kept (P := 1) (Kept.refl s) _ (by decide)).onlyIn (fun p => by cases p <;> decide),
    fld_bump_self s _ (by decide) (by decide)⟩

theorem mctpOtherMessage_unsupported {ty cmd : Nat} (hnone : (pldmCommands ty).contains cmd = false) :
    Ends (.mctpOtherMessage m 1 ty cmd false) s (fun t =>
      t.out = .mctp m ([1] ++ leBytes 1 ty ++ leBytes 1 cmd ++ [5]) :: s.out ∧ OnlyIn [.out] s t) :=
  ends_of_message hm hon rfl ((if_neg (by decide)).trans (if_pos (by simpa using hnone)))

theorem mctpOtherMessage_discarded {type ty cmd : Nat} (htype : type ≠ 1) :
    exec (.mctpOtherMessage m type ty cmd false) s = .next s := by
  have hother : ¬ (type = 1 && !(pldmCommands ty).contains cmd) = true := by simp [htype]
  exact (exec_mctp_on hm hon rfl).trans (congrArg _ ((if_neg (by decide)).trans (if_neg hother)))

end On

/-- Settles O43: each request by the one message that answers it. -/
theorem managementEndpointAnswers : Obligations.ManagementEndpointAnswers := fun _ _ hm hon =>
  ⟨fun _ _ hop h8 h254 => setEndpointId_sets hm hon hop h8 h254,
    fun _ _ hbad => setEndpointId_refused hm hon hbad,
    ends_of_message hm hon rfl rfl,
    fun _ h1 h254 => settid_sets hm hon h1 h254,
    ends_of_message hm hon rfl rfl,
    fun ty h _ hc => tableRequests_answered hm hon ty h hc,
    getsensorreading_reads hm hon (id := 1) rfl,
    getsensorreading_reads hm hon (id := 2) rfl,
    fun _ h3 h13 => getsensorreading_temperature hm hon h3 h13,
    (ends_of_message hm hon rfl rfl).imp fun _ ⟨hexec, hout, _⟩ => ⟨hexec, hout⟩,
    (ends_of_message hm hon rfl rfl).imp fun _ ⟨hexec, hout, _⟩ => ⟨hexec, hout⟩,
    fun _ hid => getsensorreading_unknown hm hon hid,
    getstatesensorreadings_tenancy hm hon,
    mctpOtherMessage_dropped hm hon,
    fun _ _ hnone => mctpOtherMessage_unsupported hm hon hnone,
    fun _ _ _ htype => mctpOtherMessage_discarded hm hon htype⟩

end Sys2Proof.Machine
end

section
/-! SUPPORT. The request that the command engine takes (R161, R168): what taking it leaves of its payload, and what the body of
its command finds. -/

namespace Sys2Proof.Machine

variable {s v : State} {ups : Upsets} {op k : Nat} {c : Call}

/-- The engine takes requests from the slots of PF0 and the VFs only. -/
theorem nextSlot_le (h : s.nextSlot = some k) : k ≤ 63 := by
  have hvf : ∀ j, s.vfOrder.find? (fun k => s.slotState k == 1) = some j → j ≤ 63 := by
    intro j hj
    obtain ⟨i, -, rfl⟩ := List.mem_map.mp (List.mem_of_find?_eq_some hj)
    omega
  simp only [State.nextSlot] at h
  split at h
  · cases h
  · split at h
    · cases h
      omega
    · exact hvf k h

/-- Bytes `[i, i + m)` of a run of exchange bytes. -/
theorem sliceOf_exmBytes (s : State) (a : Nat) {i m n : Nat} (h : i + m ≤ n) :
    sliceOf (s.exmBytes a n) i m = s.exmBytes (a + i) m := by
  refine List.map_congr_left fun j hj => ?_
  have hlt : i + j < n := by have := List.mem_range.mp hj; omega
  simp [State.exmBytes, List.getD_eq_getElem?_getD, hlt, Nat.add_assoc]

/-- Taking a request writes its trigger word and no byte of its payload. -/
theorem trigTake_payload (s : State) (tok k : Nat) {n : Nat} (hn : n ≤ 56) :
    (s.trigTake tok k).exmBytes (slotAddr k) n = s.exmBytes (slotAddr k) n := by
  refine exmBytes_congr fun b _ hb => ?_
  unfold State.trigTake
  split
  · rw [State.setTrigger, exmPut_exmByte, if_neg (by omega)]
  · exact congrArg (fget (fun _ => (0 : Byte)) · b) (congrArg Exchange.mem (bump_exm _ _))

theorem taken_payload (s : State) (ups : Upsets) (k : Nat) {n : Nat} (hn : n ≤ 56) :
    (((s.upset ups).trigTake engineToken k).bump F.CMD_CNT_TAKEN_COUNT).exmBytes (slotAddr k) n =
      s.exmBytes (slotAddr k) n :=
  calc _ = ((s.upset ups).trigTake engineToken k).exmBytes (slotAddr k) n := by unfold State.exmBytes; rw [bump_exm]
    _ = (s.upset ups).exmBytes (slotAddr k) n := trigTake_payload _ _ k hn
    _ = s.exmBytes (slotAddr k) n := exmBytes_congr fun b _ _ => upset_exmByte s ups b

/-- The call names the opcode by which the engine chose its command. -/
theorem call_opcode (hv : v = ((s.upset ups).trigTake engineToken k).bump F.CMD_CNT_TAKEN_COUNT)
    (hc : c = ⟨k, v.exmBytes (slotAddr k) 56⟩) : c.arg 0 2 = s.exmLe (slotAddr k) 2 := by
  subst hc hv
  have hslice := sliceOf_exmBytes (((s.upset ups).trigTake engineToken k).bump F.CMD_CNT_TAKEN_COUNT) (slotAddr k)
    (i := 0) (m := 2) (n := 56) (by decide)
  rw [Call.arg, leAt, hslice, Nat.add_zero, taken_payload s ups k (by decide), State.exmLe]

theorem Asked.arg_opcode (h : Asked s op ups k v c) : c.arg 0 2 = op := (call_opcode h.taken h.call).trans h.opcode

theorem Asked.fn (h : Asked s op ups k v c) : c.fn = k := congrArg Call.fn h.call

theorem Asked.slot_le (h : Asked s op ups k v c) : k ≤ 63 := nextSlot_le h.next

end Sys2Proof.Machine
end

section
/-! SUPPORT. The checks of R163: which of them ends a request. -/

namespace Sys2Proof.Machine

variable {s v : State} {ups : Upsets} {op k st d : Nat} {cmd : Instr} {c : Call} {r : CmdRow} {body : Call → State → Reply}

/-! ### Checks 3 to 6 -/

theorem lowest_eq_some {l : List Nat} {o : Nat} (hmem : o ∈ l) (hmin : ∀ x ∈ l, o ≤ x) : lowest l = some o := by
  have hmin? : lowest l = l.min? := by cases l <;> rfl
  exact hmin?.trans (List.min?_eq_some_iff.mpr ⟨hmem, hmin⟩)

theorem preCheck_of_notPermitted (h : v.permitted r c = false) : v.preCheck r c = some (0x14, 0) := by
  simp [State.preCheck, h]

theorem preCheck_of_diagOnly (hperm : v.permitted r c = true) (hdiag : v.diagOnly = true) (hrow : r.diag = false) :
    v.preCheck r c = some (0x17, 0) := by
  simp [State.preCheck, hperm, hdiag, hrow]

theorem preCheck_of_frozen (hperm : v.permitted r c = true) (hdiag : v.diagOnly = false) (hfrozen : v.frozen = true)
    (hrow : r.frz = false) : v.preCheck r c = some (0x27, 0) := by
  simp [State.preCheck, hperm, hdiag, hfrozen, hrow]

theorem preCheck_of_reserved {o : Nat} (hperm : v.permitted r c = true) (hdiag : v.diagOnly = false)
    (hrun : v.frozen = false) (hmem : o ∈ reservedOffsets r c.p) (hmin : ∀ x ∈ reservedOffsets r c.p, o ≤ x) :
    v.preCheck r c = some (0x12, o) := by
  simp [State.preCheck, hperm, hdiag, hrun, lowest_eq_some hmem hmin]

theorem answer_of_badLen (h : bitsOf (v.trigger k) 47 40 ≠ 56) : v.answer k body = v.no 0x13 0 := if_pos h

theorem answer_of_preCheck (hlen : bitsOf (v.trigger k) 47 40 = 56) (hsound : (wordsOf (slotAddr k) 56).any v.hasUe = false)
    (hc : c = ⟨k, v.exmBytes (slotAddr k) 56⟩) (hrow : cmdRow (c.arg 0 2) = some r) (hpre : v.preCheck r c = some (st, d)) :
    v.answer k body = v.no st d := by
  subst hc
  simp [State.answer, hlen, hsound, hrow, hpre]

/-! ### The commands -/

/-- Each of the engine's commands is a request with its opcode, taken and given to a body of its own. -/
theorem exec_engineCommand {norOk : Bool} {ns : Nat} (h : (op, cmd) ∈ engineCommands ups norOk ns) :
    ∃ body, ∀ s, exec cmd s = s.command op ups body := by
  revert h
  generalize hp : (op, cmd) = p
  intro h
  fin_cases h <;> (cases hp; exact ⟨_, fun _ => rfl⟩)

theorem command_noSlot (h : s.nextSlot = none) : s.command op ups body = .next s := by simp [State.command, h]

theorem command_otherOpcode (h : s.nextSlot = some k) (hop : s.exmLe (slotAddr k) 2 ≠ op) :
    s.command op ups body = .next s := by simp [State.command, h, hop]

/-- A request that a check ends is taken and answered, and nothing else. -/
theorem answered_of_no (hnext : s.nextSlot = some k) (hop : s.exmLe (slotAddr k) 2 = op)
    (hv : v = ((s.upset ups).trigTake engineToken k).bump F.CMD_CNT_TAKEN_COUNT)
    (hexec : exec cmd s = s.command op ups body) (hans : v.answer k body = v.no st d) : Answered cmd s ups k v st d [] := by
  subst hv
  rw [Answered, hexec]
  simp only [State.command, State.serve, hnext, hop, if_true, hans, State.no]

/-- Settles O32: every command of the engine is taken in the same way, and its checks stand in the order of R163. -/
theorem engineChecksInOrder : Obligations.EngineChecksInOrder := by
  intro ups norOk ns op cmd hcmd
  obtain ⟨body, hexec⟩ := exec_engineCommand hcmd
  refine ⟨fun s hnone => (hexec s).trans (command_noSlot hnone),
    fun s k hnext hop => (hexec s).trans (command_otherOpcode hnext hop), fun s v k c r hnext hop hv hc hrow => ?_⟩
  have hrow' : cmdRow (c.arg 0 2) = some r := by rw [call_opcode hv hc, hop, hrow]
  have hno : ∀ {st d}, v.answer k body = v.no st d → Answered cmd s ups k v st d [] :=
    answered_of_no hnext hop hv (hexec s)
  refine ⟨fun hlen => hno (answer_of_badLen hlen), fun hlen hsound => ?_⟩
  have hpre : ∀ {st d}, v.preCheck r c = some (st, d) → Answered cmd s ups k v st d [] :=
    fun h => hno (answer_of_preCheck hlen hsound hc hrow' h)
  exact ⟨fun hperm => hpre (preCheck_of_notPermitted hperm),
    fun hperm hdiag hrun => hpre (preCheck_of_diagOnly hperm hdiag hrun),
    fun hperm hdiag hfrozen hrun => hpre (preCheck_of_frozen hperm hdiag hfrozen hrun),
    fun o hperm hdiag hrun hmem hmin => hpre (preCheck_of_reserved hperm hdiag hrun hmem hmin)⟩

end Sys2Proof.Machine
end

section
/-! SUPPORT. The job units (R170 to R174): which unit a job takes, what starting and ending one leaves, and the registers at which
an event or the end of a job is not shown. -/

namespace Sys2Proof.Machine

variable {s t v : State} {c : Call} {i j st d : Nat}

/-! ### Registers that events leave -/

/-- The addresses of PF0's registers of chapters 06 to 20: no event of a VF, end of a job or log entry is shown at one of them. -/
abbrev OffEvents (a : Nat) : Prop := 0x100000 ≤ a ∧ a < 0x980000

theorem vfEvent_offEvents (s : State) (n b : Nat) : KeepsRegs OffEvents s (s.vfEvent n b) :=
  (vfEvent_keepsRegs s n b).mono fun a ha => by unfold R.QIF_VF_EVENT; omega

/-! ### Units -/

theorem job_congr (h : t.eng.units = s.eng.units) (j : Nat) : t.job j = s.job j := by unfold State.job; rw [h]

theorem Kept.eng {P : Nat} (h : Kept P s t) (hP : P.testBit Part.eng.bit = false) : t.eng = s.eng := h.parts .eng hP

theorem Kept.units {P : Nat} (h : Kept P s t) (hP : P.testBit Part.eng.bit = false) : t.eng.units = s.eng.units :=
  congrArg Engine.units (h.eng hP)

theorem job_modJob (s : State) (i j : Nat) (f : Job → Job) : (s.modJob j f).job i = if i = j then f (s.job i) else s.job i := by
  by_cases h : i = j
  · subst h
    rw [if_pos rfl]
    exact fget_fset_self _ s.eng.units i _
  · rw [if_neg h]
    exact fget_fset_ne _ s.eng.units j i _ h

/-- A unit is free for a job when it is empty or its job has ended. -/
theorem freeUnit_isSome_iff : s.freeUnit.isSome = true ↔ ∃ j, j < 4 ∧ ((s.job j).state = 0 ∨ (s.job j).state = 3) := by
  constructor
  · intro h
    obtain ⟨j, hj⟩ := Option.isSome_iff_exists.mp h
    unfold State.freeUnit at hj
    split at hj
    next i hi =>
      exact ⟨i, List.mem_range.mp (List.mem_of_find?_eq_some hi), .inl (by simpa using List.find?_some hi)⟩
    next =>
      have hmem := List.mem_filter.mp (List.mem_of_find?_eq_some hj)
      exact ⟨j, List.mem_range.mp hmem.1, .inr (by simpa using hmem.2)⟩
  · rintro ⟨j, hj4, hj⟩
    unfold State.freeUnit
    split
    · rfl
    next hnone =>
      have hempty : ∀ i, i < 4 → (s.job i).state ≠ 0 := by simpa using hnone
      have hended : j ∈ (List.range 4).filter (fun i => (s.job i).state == 3) :=
        List.mem_filter.mpr ⟨List.mem_range.mpr hj4, by simpa using hj.resolve_left (hempty j hj4)⟩
      obtain ⟨e, he, hmin⟩ := Finset.exists_min_image
        ((List.range 4).filter (fun i => (s.job i).state == 3)).toFinset (fun i => (s.job i).endAt)
        ⟨j, List.mem_toFinset.mpr hended⟩
      exact List.find?_isSome.mpr ⟨e, List.mem_toFinset.mp he,
        List.all_eq_true.mpr fun i hi => decide_eq_true (hmin i (List.mem_toFinset.mpr hi))⟩

theorem freeUnit_lt (h : s.freeUnit = some j) : j < 4 := by
  unfold State.freeUnit at h
  split at h
  next i hi =>
    cases h
    exact List.mem_range.mp (List.mem_of_find?_eq_some hi)
  next => exact List.mem_range.mp (List.mem_filter.mp (List.mem_of_find?_eq_some h)).1

theorem freeUnit_congr (h : t.eng.units = s.eng.units) : t.freeUnit = s.freeUnit := by
  unfold State.freeUnit State.job; rw [h]

/-! ### The start of a job (R170) -/

/-- The job that a request starts. -/
def State.newJob (s : State) (c : Call) (total a b x : Nat) : Job :=
  { state := 1, num := s.nextJob c.fn, fn := c.fn, op := c.arg 0 2, tag := c.arg 4 4, total := total, a := a, b := b, c := x
    beganClk := s.runClk }

/-- That job runs in unit `j`. -/
def State.jobStarted (s : State) (c : Call) (total a b x j : Nat) : State :=
  let s1 := s.modJob j (fun _ => s.newJob c total a b x)
  { s1 with eng := { s1.eng with lastJob := fset (fun _ => 0) s1.eng.lastJob c.fn (s.nextJob c.fn) } }

theorem startJob_of_free (hfree : s.freeUnit = some j) (c : Call) (total a b x : Nat) :
    s.startJob c total a b x = ⟨s.jobStarted c total a b x j, 1, 0, leBytes 2 (s.nextJob c.fn)⟩ := by
  simp only [State.startJob, hfree, State.jobStarted, State.newJob]

theorem jobStarted_kept (s : State) (c : Call) (total a b x j : Nat) : Kept 4096 s (s.jobStarted c total a b x j) :=
  (modJob_kept s j _ (Kept.refl s) (by decide)).set_eng _ (by decide)

theorem jobStarted_onlyIn (s : State) (c : Call) (total a b x j : Nat) : OnlyIn [.eng] s (s.jobStarted c total a b x j) :=
  (jobStarted_kept s c total a b x j).onlyIn (fun p => by cases p <;> decide)

@[simp] theorem jobStarted_reg (s : State) (c : Call) (total a b x j r : Nat) :
    (s.jobStarted c total a b x j).reg r = s.reg r := rfl

@[simp] theorem jobStarted_fld (s : State) (c : Call) (total a b x j : Nat) (f : Fld) :
    (s.jobStarted c total a b x j).fld f = s.fld f := rfl

/-- A job that has just started is found by its opcode. -/
theorem jobStarted_jobOf (s : State) (c : Call) (total a b x : Nat) (hj : j < 4) :
    (s.jobStarted c total a b x j).jobOf (c.arg 0 2) ≠ none := by
  have hmod : (s.jobStarted c total a b x j).job j = (s.modJob j (fun _ => s.newJob c total a b x)).job j := job_congr rfl j
  have hjob : (s.jobStarted c total a b x j).job j = s.newJob c total a b x := by rw [hmod, job_modJob, if_pos rfl]
  have hrun : j ∈ (s.jobStarted c total a b x j).running :=
    List.mem_filter.mpr ⟨List.mem_range.mpr hj, by rw [hjob]; rfl⟩
  exact Option.isSome_iff_ne_none.mp (List.find?_isSome.mpr ⟨j, hrun, by rw [hjob]; exact beq_self_eq_true _⟩)

/-! ### The end of a job (R172) -/

/-- Job `x` with its end recorded. -/
def State.closeJob (s : State) (st d : Nat) (x : Job) : Job :=
  { x with state := 3, final := st, detail := d, endAt := s.eng.ended + 1,
           progress := if st = 0 then x.total else s.free.toNat % (x.total + 1) }

/-- The end of the job in unit `j` is recorded, and not yet signalled. -/
def State.jobClosed (s : State) (j st d : Nat) : State :=
  let s1 := s.modJob j (s.closeJob st d)
  { s1.drawn with eng := { s1.eng with ended := s1.eng.ended + 1 } }

/-- The host hears of the ended job. -/
def State.jobSignalled (s : State) (x : Job) (st : Nat) : State :=
  let s3 := if s.bit F.CMD_STATUS_JOB_DONE then s else (s.setFld F.CMD_STATUS_JOB_DONE 1).notify 0 1
  if x.fn = 0 || 64 ≤ x.fn then s3
  else ((s3.setFld (F.QIF_VF_JOB_JOB x.fn) x.num).setFld (F.QIF_VF_JOB_FINAL_STATUS x.fn) st).vfEvent x.fn 0

theorem endJob_eq (s : State) (j st d : Nat) : s.endJob j st d = (s.jobClosed j st d).jobSignalled (s.job j) st := rfl

theorem jobSignalled_kept (s : State) (x : Job) (st : Nat) : Kept 67108929 s (s.jobSignalled x st) := by
  have hdone : Kept 67108929 s (if s.bit F.CMD_STATUS_JOB_DONE then s else (s.setFld F.CMD_STATUS_JOB_DONE 1).notify 0 1) := by
    split
    · exact Kept.refl s
    · exact notify_kept _ _ _ (setFld_kept (Kept.refl s) _ _ (by decide)) (by decide)
  unfold State.jobSignalled
  dsimp only
  split
  · exact hdone
  · exact vfEvent_kept _ _ _ (setFld_kept (setFld_kept hdone _ _ (by decide)) _ _ (by decide)) (by decide)

theorem jobSignalled_offEvents (s : State) (x : Job) (st : Nat) : KeepsRegs OffEvents s (s.jobSignalled x st) := by
  have hdone : KeepsRegs OffEvents s
      (if s.bit F.CMD_STATUS_JOB_DONE then s else (s.setFld F.CMD_STATUS_JOB_DONE 1).notify 0 1) :=
    keepsRegs_ite (.refl s) (KeepsRegs.of_regs ((KeepsRegs.refl s).setFld (by decide) 1) (notify_regs _ _ _))
  unfold State.jobSignalled
  dsimp only
  have hvf : ¬ OffEvents (R.QIF_VF_JOB x.fn) := by unfold R.QIF_VF_JOB; omega
  exact keepsRegs_ite hdone (KeepsRegs.trans (KeepsRegs.setFld (KeepsRegs.setFld hdone hvf _) hvf _) (vfEvent_offEvents _ _ _))

/-- Job unit `j` shows an ended job with this status and DETAIL. -/
structure Finished (s : State) (j st d : Nat) : Prop where
  state : (s.job j).state = 3
  final : (s.job j).final = st
  detail : (s.job j).detail = d

theorem endJob_job (s : State) (j st d i : Nat) :
    (s.endJob j st d).job i = if i = j then s.closeJob st d (s.job i) else s.job i :=
  have hunits : (s.endJob j st d).eng.units = (s.modJob j (s.closeJob st d)).eng.units :=
    (jobSignalled_kept (s.jobClosed j st d) (s.job j) st).units (by decide)
  (job_congr hunits i).trans (job_modJob s i j _)

theorem endJob_finished (s : State) (j st d : Nat) : Finished (s.endJob j st d) j st d := by
  have hjob := endJob_job s j st d j
  rw [if_pos rfl] at hjob
  exact ⟨by rw [hjob]; rfl, by rw [hjob]; rfl, by rw [hjob]; rfl⟩

theorem endJob_offEvents (s : State) (j st d : Nat) : KeepsRegs OffEvents s (s.endJob j st d) := by
  rw [endJob_eq]
  exact (KeepsRegs.of_regs (.refl s) rfl).trans (jobSignalled_offEvents (s.jobClosed j st d) (s.job j) st)

/-- The end of a job leaves every unit that was free, and frees its own. -/
theorem endJob_freeUnit (s : State) (j st d : Nat) (h : s.freeUnit.isSome = true) : (s.endJob j st d).freeUnit.isSome = true := by
  obtain ⟨i, hi4, hi⟩ := freeUnit_isSome_iff.mp h
  refine freeUnit_isSome_iff.mpr ⟨i, hi4, ?_⟩
  rw [endJob_job]
  split
  · exact .inr rfl
  · exact hi

/-- The end of a job with SUCCESS leaves every job that ended so. -/
theorem Finished.endJob (h : Finished s j 0 0) (i : Nat) : Finished (s.endJob i 0 0) j 0 0 := by
  by_cases hij : j = i
  · exact hij ▸ endJob_finished s j 0 0
  · have hjob : (s.endJob i 0 0).job j = s.job j := (endJob_job s i 0 0 j).trans (if_neg hij)
    exact ⟨hjob ▸ h.state, hjob ▸ h.final, hjob ▸ h.detail⟩

/-- The jobs of `l` end with SUCCESS. -/
def State.jobsSucceed (s : State) (l : List Nat) : State := l.foldl (fun s i => s.endJob i 0 0) s

theorem jobsSucceed_finished {l : List Nat} (h : Finished s j 0 0) : Finished (s.jobsSucceed l) j 0 0 := by
  induction l generalizing s with
  | nil => exact h
  | cons i l ih => exact ih (h.endJob i)

theorem jobsSucceed_offEvents (s : State) (l : List Nat) : KeepsRegs OffEvents s (s.jobsSucceed l) :=
  keepsRegs_foldl (fun u i => endJob_offEvents u i 0 0) l s

theorem jobsSucceed_kept (s : State) (l : List Nat) : Kept 100667457 s (s.jobsSucceed l) :=
  kept_foldl (fun u i h => endJob_kept u i 0 0 h (by decide)) (.refl s)

end Sys2Proof.Machine
end

section
/-! SUPPORT. The tenancy (R183 to R186, R258 to R264): what admitting, claiming, releasing and ending one leave in its
registers. -/

namespace Sys2Proof.Machine

variable {s t v : State} {c : Call} {j k n : Nat} {ups : Upsets}

/-! ### SLC_SCRUB -/

/-- SLC_SCRUB shows a clearing of this KIND and VF. -/
def State.scrubAs (s : State) (kind n : Nat) : State :=
  ((s.setFld F.SLC_SCRUB_ACTIVE 1).setFld F.SLC_SCRUB_KIND kind).setFld F.SLC_SCRUB_VF n

theorem scrubAs_active (s : State) (kind n : Nat) : (s.scrubAs kind n).fld F.SLC_SCRUB_ACTIVE = 1 := by
  unfold State.scrubAs
  rw [fld_setFld_beside _ _ _ _ (by decide), fld_setFld_beside _ _ _ _ (by decide),
    fld_setFld_fits _ (by decide) (by decide) (by decide)]

theorem scrubAs_kind (s : State) {kind : Nat} (n : Nat) (hkind : kind < 256) :
    (s.scrubAs kind n).fld F.SLC_SCRUB_KIND = kind := by
  unfold State.scrubAs
  rw [fld_setFld_beside _ _ _ _ (by decide), fld_setFld_fits _ (by decide) (by decide) hkind]

theorem scrubAs_vf (s : State) (kind : Nat) (hn : n ≤ 63) : (s.scrubAs kind n).fld F.SLC_SCRUB_VF = n :=
  fld_setFld_fits _ (by decide) (by decide) (Nat.lt_succ_of_le hn)

theorem scrubAs_reg (s : State) (kind n : Nat) {a : Nat} (ha : a ≠ R.SLC_SCRUB) : (s.scrubAs kind n).reg a = s.reg a := by
  unfold State.scrubAs
  rw [reg_setFld_ne _ _ _ _ ha, reg_setFld_ne _ _ _ _ ha, reg_setFld_ne _ _ _ _ ha]

theorem scrubAs_fld (s : State) (kind n : Nat) {f : Fld} (hf : f.addr ≠ R.SLC_SCRUB) : (s.scrubAs kind n).fld f = s.fld f := by
  unfold State.scrubAs
  rw [fld_setFld_ne _ _ _ _ hf, fld_setFld_ne _ _ _ _ hf, fld_setFld_ne _ _ _ _ hf]

@[simp] theorem scrubAs_slices (s : State) (kind n : Nat) : (s.scrubAs kind n).slices = s.slices := by
  unfold State.scrubAs
  rw [setFld_slices, setFld_slices, setFld_slices]

@[simp] theorem scrubAs_eng (s : State) (kind n : Nat) : (s.scrubAs kind n).eng = s.eng := by
  unfold State.scrubAs
  rw [setFld_eng, setFld_eng, setFld_eng]

/-! ### Admission and claim (R183, R184) -/

/-- The registers of a tenancy that is admitted with this TENANCY_ID. -/
def State.admitRegs (s : State) (id : Nat) : State :=
  ((((s.setFld F.SLC_TEN_STATUS_STATE 1).setFld F.SLC_TEN_STATUS_FORCED 0).setFld F.SLC_TEN_STATUS_CLAIM_VF 0).setFld
    F.SLC_TEN_ID_TENANCY_ID id).setFld F.SEC_STATUS_TENANCY_KEY 1

/-- The state that TENANCY_ADMIT leaves. -/
def State.tenancyAdmitted (s : State) (label : List Byte) : State :=
  let s2 := s.admitRegs (s.sec.lastTen + 1)
  { s2 with
    sec := { s2.sec with opLabel := label, tenantId := [], lastTen := s.sec.lastTen + 1, keyGen := s2.sec.keyGen + 1,
                         graceClk := s2.runClk, dmeas := [], dcount := 0 }
    mem := { s2.mem with hbm := [], clean := [], poison := [] } }

theorem tenancyAdmitted_fld (s : State) (label : List Byte) (f : Fld) :
    (s.tenancyAdmitted label).fld f = (s.admitRegs (s.sec.lastTen + 1)).fld f := by
  have hregs : (s.tenancyAdmitted label).regs = (s.admitRegs (s.sec.lastTen + 1)).regs := by
    unfold State.tenancyAdmitted
    dsimp only
  exact fld_of_regs hregs f

theorem tenancyAdmitted_tenancy (s : State) (label : List Byte) : (s.tenancyAdmitted label).tenancy = 1 := by
  unfold State.tenancy
  rw [tenancyAdmitted_fld]
  unfold State.admitRegs
  rw [fld_setFld_ne _ _ _ _ (by decide), fld_setFld_ne _ _ _ _ (by decide), fld_setFld_beside _ _ _ _ (by decide),
    fld_setFld_beside _ _ _ _ (by decide), fld_setFld_fits _ (by decide) (by decide) (by decide)]

theorem tenancyAdmitted_key (s : State) (label : List Byte) : (s.tenancyAdmitted label).fld F.SEC_STATUS_TENANCY_KEY = 1 := by
  rw [tenancyAdmitted_fld]
  exact fld_setFld_fits _ (by decide) (by decide) (by decide)

theorem tenancyAdmitted_sec (s : State) (label : List Byte) : (s.tenancyAdmitted label).sec.keyGen = s.sec.keyGen + 1 ∧
    (s.tenancyAdmitted label).sec.lastTen = s.sec.lastTen + 1 ∧ (s.tenancyAdmitted label).sec.opLabel = label ∧
    (s.tenancyAdmitted label).sec.tenantId = [] := by
  unfold State.tenancyAdmitted State.admitRegs
  dsimp only
  simp only [setFld_sec, and_self]

theorem onlyIn_sec_hbm (s : State) (x : Trust) (m : Memory) (hcmn : m.cmn = s.mem.cmn) :
    OnlyIn [.sec, .mem, .hbm] s { s with sec := x, mem := m } := fun p hp => by
  cases p
  case cmn => exact hcmn
  case sec | mem | hbm => exact absurd hp (by decide)
  all_goals first | rfl | exact ⟨rfl, rfl⟩

theorem tenancyAdmitted_onlyIn (s : State) (label : List Byte) :
    OnlyIn [.regs, .sec, .mem, .hbm] s (s.tenancyAdmitted label) := by
  have hregs : Kept 1 s (s.admitRegs (s.sec.lastTen + 1)) := by
    unfold State.admitRegs
    repeat refine setFld_kept ?_ _ _ (by decide)
    exact .refl s
  have hone : OnlyIn [.regs, .sec, .mem, .hbm] s (s.admitRegs (s.sec.lastTen + 1)) :=
    hregs.onlyIn (fun p => by cases p <;> decide)
  exact hone.trans (OnlyIn.mono (onlyIn_sec_hbm _ _ _ rfl) (by decide))

/-- The state that TENANCY_CLAIM by VF `n` leaves. -/
def State.tenancyClaimed (s : State) (n : Nat) (tenant : List Byte) : State :=
  let s1 := (s.setFld F.SLC_TEN_STATUS_STATE 2).setFld F.SLC_TEN_STATUS_CLAIM_VF n
  { s1 with sec := { s1.sec with tenantId := tenant, graceClk := s1.runClk } }

theorem tenancyClaimed_tenancy (s : State) (n : Nat) (tenant : List Byte) : (s.tenancyClaimed n tenant).tenancy = 2 := by
  change ((s.setFld F.SLC_TEN_STATUS_STATE 2).setFld F.SLC_TEN_STATUS_CLAIM_VF n).fld F.SLC_TEN_STATUS_STATE = 2
  rw [fld_setFld_beside _ _ _ _ (by decide), fld_setFld_fits _ (by decide) (by decide) (by decide)]

theorem tenancyClaimed_vf (s : State) (tenant : List Byte) (hn : n ≤ 63) :
    (s.tenancyClaimed n tenant).fld F.SLC_TEN_STATUS_CLAIM_VF = n :=
  fld_setFld_fits (s.setFld F.SLC_TEN_STATUS_STATE 2) (by decide) (by decide) (Nat.lt_succ_of_le hn)

theorem tenancyClaimed_id (s : State) (n : Nat) (tenant : List Byte) :
    (s.tenancyClaimed n tenant).fld F.SLC_TEN_ID_TENANCY_ID = s.fld F.SLC_TEN_ID_TENANCY_ID := by
  change ((s.setFld F.SLC_TEN_STATUS_STATE 2).setFld F.SLC_TEN_STATUS_CLAIM_VF n).fld F.SLC_TEN_ID_TENANCY_ID = _
  rw [fld_setFld_ne _ _ _ _ (by decide), fld_setFld_ne _ _ _ _ (by decide)]

theorem tenancyClaimed_onlyIn (s : State) (n : Nat) (tenant : List Byte) : OnlyIn [.regs, .sec] s (s.tenancyClaimed n tenant) :=
  have hkept : Kept 32769 s (s.tenancyClaimed n tenant) :=
    Kept.set_sec (setFld_kept (setFld_kept (Kept.refl s) F.SLC_TEN_STATUS_STATE 2 (by decide)) F.SLC_TEN_STATUS_CLAIM_VF n
      (by decide)) _ (by decide)
  hkept.onlyIn (fun p => by cases p <;> decide)

/-- TENANCY_ADMIT of an UNOWNED part. -/
theorem tenancyAdmit_answered (h : Asked s 0x0101 ups k v c) (hten : v.tenancy = 0) (hboot : v.fld F.BOOT_STATUS_STEP = 0xA)
    (hrng : v.bit F.SEC_STATUS_RNG_FAIL = false) (hrec : v.recovering = false) :
    Answered (.tenancyAdmit ups) s ups k (v.tenancyAdmitted (sliceOf c.p 8 16)) 0 0 (leBytes 4 (v.sec.lastTen + 1)) := by
  refine answered_of_body h rfl ((if_neg ?_).trans (if_neg ?_))
  · simp [hten, hboot, hrng]
  · simp [hrec]

theorem tenancyClaim_answered (h : Asked s 0x0102 ups k v c) (hten : v.tenancy = 1) :
    Answered (.tenancyClaim ups) s ups k (v.tenancyClaimed k (sliceOf c.p 8 48)) 0 0
      (leBytes 4 (v.fld F.SLC_TEN_ID_TENANCY_ID)) := by
  have hid := tenancyClaimed_id v c.fn (sliceOf c.p 8 48)
  obtain rfl := h.fn
  rw [← hid]
  exact answered_of_body h rfl (if_neg (not_not.mpr hten))

/-! ### The beginning of a release (R185, R260) -/

theorem dropChanges_units (s : State) (log : Bool) : (s.dropChanges log).eng.units = s.eng.units := by
  have hcancel : Kept 872434369 s (s.eng.changes.foldl (fun s c => s.cancelChange log c) s) :=
    kept_foldl (fun u c h => cancelChange_kept u log c h (by decide)) (.refl s)
  exact (congrArg Engine.units (hcancel.eng (by decide)) :)

theorem dropTickChanges_eng (s : State) (log : Bool) : (s.dropTickChanges log).eng = s.eng :=
  (dropTickChanges_kept (P := 872417953) s log (.refl s) (by decide)).eng (by decide)

theorem foldl_endJob_freeUnit (st d : Nat) (l : List Nat) (s : State) (h : s.freeUnit.isSome = true) :
    (l.foldl (fun s j => s.endJob j st d) s).freeUnit.isSome = true := by
  induction l generalizing s with
  | nil => exact h
  | cons j l ih => exact ih _ (endJob_freeUnit s j st d h)

/-- No change of a slice, the schedule or the tick is pending. -/
def State.changesDropped (s : State) : State := (s.dropChanges false).dropTickChanges false

/-- The jobs of the VFs are ended. -/
def State.vfJobsEnded (s : State) : State :=
  (s.running.filter (fun j => (s.job j).fn != 0 && decide ((s.job j).fn < 64))).foldl (fun s j => s.endJob j 0x2F 0) s

/-- The TDIs are in ERROR, and the contexts, queues and mesh ports of every slice stopped. -/
def State.vfsStopped (s : State) : State :=
  let s1 := (s.setFld F.SEC_STATUS_LOAD_ACTIVE 0).tdiErrorAll
  s1.sliced.foldl (fun s n => ((s.stopSlice n).stopDies n false).queuesStop n) s1

theorem changesDropped_freeUnit (s : State) : s.changesDropped.freeUnit = s.freeUnit :=
  freeUnit_congr ((congrArg Engine.units (dropTickChanges_eng _ false)).trans (dropChanges_units s false))

theorem vfJobsEnded_freeUnit (s : State) (h : s.freeUnit.isSome = true) : s.vfJobsEnded.freeUnit.isSome = true :=
  foldl_endJob_freeUnit 0x2F 0 _ s h

theorem vfsStopped_eng (s : State) : s.vfsStopped.eng = s.eng := by
  have htdis : Kept 6551363649 s ((s.setFld F.SEC_STATUS_LOAD_ACTIVE 0).tdiErrorAll) :=
    tdiErrorAll_kept _ (setFld_kept (.refl s) _ _ (by decide)) (by decide)
  have hkept : Kept 6551363649 s s.vfsStopped := kept_foldl (fun u n h =>
    queuesStop_kept _ n (stopDies_kept _ n false (stopSlice_kept u n h (by decide)) (by decide)) (by decide)) htdis
  exact hkept.eng (by decide)

theorem releaseBegin_eq (s : State) : s.releaseBegin =
    ((s.changesDropped.vfJobsEnded.vfsStopped.setFld F.SLC_TEN_STATUS_STATE 3).setFld F.SEC_STATUS_TENANCY_KEY 0).scrubAs 1 0 :=
  rfl

theorem releaseBegin_tenancy (s : State) : s.releaseBegin.tenancy = 3 := by
  unfold State.tenancy
  rw [releaseBegin_eq, scrubAs_fld _ _ _ (by decide), fld_setFld_ne _ _ _ _ (by decide),
    fld_setFld_fits _ (by decide) (by decide) (by decide)]

theorem releaseBegin_key (s : State) : s.releaseBegin.fld F.SEC_STATUS_TENANCY_KEY = 0 := by
  rw [releaseBegin_eq, scrubAs_fld _ _ _ (by decide), fld_setFld_zero _ (by decide) (by decide)]

theorem releaseBegin_scrub (s : State) :
    s.releaseBegin.fld F.SLC_SCRUB_ACTIVE = 1 ∧ s.releaseBegin.fld F.SLC_SCRUB_KIND = 1 := by
  rw [releaseBegin_eq]
  exact ⟨scrubAs_active _ 1 0, scrubAs_kind _ 0 (by decide)⟩

/-- A release takes no job unit: it only ends jobs. -/
theorem releaseBegin_freeUnit (s : State) (h : s.freeUnit.isSome = true) : s.releaseBegin.freeUnit.isSome = true := by
  have heng : s.releaseBegin.eng = s.changesDropped.vfJobsEnded.eng := by
    rw [releaseBegin_eq, scrubAs_eng, setFld_eng, setFld_eng, vfsStopped_eng]
  rw [freeUnit_congr (congrArg Engine.units heng)]
  exact vfJobsEnded_freeUnit _ (by rw [changesDropped_freeUnit]; exact h)

/-- TENANCY_RELEASE starts the release in a unit that its beginning leaves free. -/
theorem tenancyRelease_answered (h : Asked s 0x0103 ups k v c) (hten : v.tenancy = 1 ∨ v.tenancy = 2)
    (hlimit : v.jobLimit k = false) (hj : v.releaseBegin.freeUnit = some j) :
    Answered (.tenancyRelease ups) s ups k (v.releaseBegin.jobStarted c 0 0 0 0 j) 1 0
      (leBytes 2 (v.releaseBegin.nextJob c.fn)) := by
  refine answered_of_body h rfl ((if_neg ?_).trans ((if_neg ?_).trans (startJob_of_free hj c 0 0 0 0)))
  · rcases hten with hten | hten <;> simp [hten]
  · rw [h.fn, hlimit]; decide

/-- The release that the part starts itself, in job unit `j` (R259). -/
def State.ownReleased (s : State) (j : Nat) : State :=
  let n := s.nextJob 0xFF
  let s2 := s.modJob j (fun _ => { state := 1, num := n, fn := 0xFF, op := 0x0103, beganClk := s.runClk })
  let s3 : State := { s2 with eng := { s2.eng with lastJob := fset (fun _ => 0) s2.eng.lastJob 0xFF n } }
  (s3.setFld F.SLC_TEN_STATUS_FORCED 1).log 0x0505 3 0 0xFFFF 0 (s3.fld F.SLC_TEN_ID_TENANCY_ID)

theorem ownRelease_of_free (hj : s.releaseBegin.freeUnit = some j) : s.ownRelease = s.releaseBegin.ownReleased j := by
  simp only [State.ownRelease, hj, State.ownReleased]

theorem ownReleased_fld (s : State) (j : Nat) {f : Fld} (hf : f.addr < 0x980000) :
    (s.ownReleased j).fld f = (s.setFld F.SLC_TEN_STATUS_FORCED 1).fld f :=
  (log_fld (g := f) (h := .inl hf) ..).trans (fld_of_regs rfl f)

theorem ownRelease_shows (s : State) (h : s.freeUnit.isSome = true) : s.ownRelease.tenancy = 3 ∧
    s.ownRelease.fld F.SLC_TEN_STATUS_FORCED = 1 ∧ s.ownRelease.fld F.SEC_STATUS_TENANCY_KEY = 0 := by
  obtain ⟨j, hj⟩ := Option.isSome_iff_exists.mp (releaseBegin_freeUnit s h)
  rw [ownRelease_of_free hj]
  refine ⟨?_, ?_, ?_⟩
  · unfold State.tenancy
    rw [ownReleased_fld _ _ (by decide), fld_setFld_beside _ _ _ _ (by decide)]
    exact releaseBegin_tenancy s
  · rw [ownReleased_fld _ _ (by decide), fld_setFld_fits _ (by decide) (by decide) (by decide)]
  · rw [ownReleased_fld _ _ (by decide), fld_setFld_ne _ _ _ _ (by decide), releaseBegin_key]

/-! ### The end of a release (R260, R263, R264) -/

/-- A field of PF0's registers that MODEL does not meet is left by a change of MODEL. -/
theorem setModel_fld (s : State) (m : Nat) {f : Fld} (hoff : OffEvents f.addr)
    (hf : f.addr = R.SLC_TEN_STATUS → f.hi < 2 ∨ 3 < f.lo) : (s.setModel m).fld f = s.fld f := by
  have hset : (s.setFld F.SLC_TEN_STATUS_MODEL m).fld f = s.fld f := by
    by_cases ha : f.addr = R.SLC_TEN_STATUS
    · exact fld_setFld_beside _ _ _ _ ⟨ha, by decide, by decide, hf ha⟩
    · exact fld_setFld_ne _ _ _ _ ha
  unfold State.setModel
  split
  · rfl
  · exact (KeepsRegs.fld (keepsRegs_foldl (fun u n => vfEvent_offEvents u n 1) _ _) hoff).trans hset

/-- After a change of MODEL it reads so. -/
theorem setModel_model (s : State) {m : Nat} (hm : m < 4) : (s.setModel m).model = m := by
  unfold State.setModel
  split
  next h => exact h
  next =>
    have hset : (s.setFld F.SLC_TEN_STATUS_MODEL m).model = m := fld_setFld_fits _ (by decide) (by decide) hm
    exact (KeepsRegs.fld (keepsRegs_foldl (fun u n => vfEvent_offEvents u n 1) _ _) (by decide)).trans hset

theorem clearModelRegs_fld (s : State) {f : Fld} (hmodel : f.addr < R.SEC_MODEL_DIGEST 0 ∨ R.SEC_MODEL_SIZE_HI + 4 ≤ f.addr)
    (hseq : f.addr ≠ R.SEQ_STATUS) : s.clearModelRegs.fld f = s.fld f := by
  have hreset : (s.resetRegs (R.SEC_MODEL_DIGEST 0) (R.SEC_MODEL_SIZE_HI + 4)).fld f = s.fld f := by
    unfold State.fld
    rw [reg_resetRegs, if_neg (by omega)]
  unfold State.clearModelRegs
  exact (fld_setFld_ne _ _ _ _ hseq).trans ((fld_of_regs rfl f).trans hreset)

/-- The registers of the tenancy at its end: no consent, no model, UNOWNED. -/
def State.tenancyCleared (s : State) : State :=
  (((s.setFld F.SLC_TEN_STATUS_DEBUG_CONSENT 0).setModel 0).clearModelRegs.setFld F.SLC_TEN_STATUS_STATE 0).setFld
    F.SLC_TEN_STATUS_CLAIM_VF 0

/-- The tenant's labels, its debug measurements and the pending changes are forgotten. -/
def State.tenantForgotten (s : State) : State :=
  { s with
    sec := { s.sec with opLabel := [], tenantId := [], dmeas := [], dcount := 0 }
    eng := { s.eng with changes := [] } }

/-- A fault that waited for the release is over. -/
def State.faultReleased (s : State) : State := if s.fltState = 2 then s.setFld F.FLT_STATUS_STATE 0 else s

theorem releaseEnd_eq (s : State) (forced : Bool) (us : Nat) : s.releaseEnd forced us =
    (s.releaseZero.acctSnapshots.releaseSlices.tenancyCleared.setFld F.SLC_SCRUB_ACTIVE 0).tenantForgotten.faultReleased.log
      0x0506 1 0 0xFFFF (b2n forced) (s.fld F.SLC_TEN_ID_TENANCY_ID + us % 2 ^ 32 * 2 ^ 32) := by
  unfold State.releaseEnd
  extract_lets id s1 s2 s3 s4 s5
  exact rfl

theorem tenantForgotten_kept (s : State) : Kept 36864 s s.tenantForgotten :=
  Kept.set_eng_sec (Kept.refl s) _ _ (by decide)

theorem faultReleased_kept (s : State) : Kept 1 s s.faultReleased :=
  kept_ite (setFld_kept (.refl s) _ _ (by decide)) (.refl s)

theorem faultReleased_keepsRegs (s : State) : KeepsRegs (· ≠ R.FLT_STATUS) s s.faultReleased :=
  keepsRegs_ite ((KeepsRegs.refl s).setFld (by decide) 0) (.refl s)

theorem tenancyCleared_tenancy (s : State) : s.tenancyCleared.tenancy = 0 := by
  unfold State.tenancy State.tenancyCleared
  rw [fld_setFld_beside _ _ _ _ (by decide), fld_setFld_zero _ (by decide) (by decide)]

theorem tenancyCleared_consent (s : State) : s.tenancyCleared.fld F.SLC_TEN_STATUS_DEBUG_CONSENT = 0 := by
  unfold State.tenancyCleared
  rw [fld_setFld_beside _ _ _ _ (by decide), fld_setFld_beside _ _ _ _ (by decide), clearModelRegs_fld _ (by decide) (by decide),
    setModel_fld _ _ (by decide) (by decide), fld_setFld_zero _ (by decide) (by decide)]

/-- After the tenancy's registers are cleared nothing of the release writes SLC_TEN_STATUS. -/
theorem releaseEnd_fld (s : State) (forced : Bool) (us : Nat) {f : Fld} (hf : f.addr = R.SLC_TEN_STATUS) :
    (s.releaseEnd forced us).fld f = s.releaseZero.acctSnapshots.releaseSlices.tenancyCleared.fld f := by
  rw [releaseEnd_eq, log_fld (h := .inl (by rw [hf]; decide)), (faultReleased_keepsRegs _).fld (by rw [hf]; decide)]
  exact (fld_of_regs ((tenantForgotten_kept _).regs_eq (by decide)) f).trans (fld_setFld_ne _ _ _ _ (by rw [hf]; decide))

theorem tenancyCleared_kept (s : State) : Kept 68190273 s s.tenancyCleared :=
  setFld_kept (setFld_kept (clearModelRegs_kept _ (setModel_kept _ 0 (setFld_kept (.refl s) _ _ (by decide)) (by decide))
    (by decide)) _ _ (by decide)) _ _ (by decide)

/-- What the end of a release does once the slices are gone meets neither the memories nor the slices. -/
theorem releaseEnd_kept_slices (s : State) (forced : Bool) (us : Nat) :
    Kept 873503425 s.releaseZero.acctSnapshots.releaseSlices (s.releaseEnd forced us) := by
  rw [releaseEnd_eq]
  refine log_kept _ _ _ _ _ _ _ (Kept.trans ?_ ((faultReleased_kept _).mono (by decide))) (by decide)
  refine Kept.trans ?_ ((tenantForgotten_kept _).mono (by decide))
  exact setFld_kept ((tenancyCleared_kept _).mono (by decide)) _ _ (by decide)

/-- The memories and the schedule are zero (R260 step 3). -/
def State.memoriesZeroed (s : State) : State :=
  { s with
    regs := s.regs.filter (fun e => !gatedCounter e.1)
    mem := { s.mem with cmn := [], hbm := [], clean := [], frames := [], poison := [], model := [], reserved := 0,
                        placed := 0, tc := [] }
    sch := { s.sch with table := [], was := [], lag := [], held := [], excl := none } }

theorem releaseZero_eq (s : State) : s.releaseZero =
    (vfs.foldl (fun s n => s.clearVfExchange n) s.stopAll.memoriesZeroed).exmZero (slotAddr 1) (1008 * 64) := rfl

theorem releaseZero_mem (s : State) : s.releaseZero.mem.hbm = [] ∧ s.releaseZero.mem.cmn = [] := by
  have hkept : Kept 1073741888 s.stopAll.memoriesZeroed s.releaseZero := by
    rw [releaseZero_eq]
    exact exmZero_kept (kept_foldl (fun u n h => clearVfExchange_kept u n h (by decide)) (.refl _)) _ _ (by decide)
  exact ⟨hkept.parts .hbm (by decide), hkept.parts .cmn (by decide)⟩

theorem releaseEnd_mem (s : State) (forced : Bool) (us : Nat) :
    (s.releaseEnd forced us).mem.hbm = [] ∧ (s.releaseEnd forced us).mem.cmn = [] := by
  have hslices : Kept 67256897 s.releaseZero s.releaseZero.acctSnapshots.releaseSlices :=
    releaseSlices_kept _ (acctSnapshots_kept _ (.refl _) (by decide)) (by decide)
  have hend := releaseEnd_kept_slices s forced us
  obtain ⟨hhbm, hcmn⟩ := releaseZero_mem s
  exact ⟨((hend.parts .hbm (by decide)).trans (hslices.parts .hbm (by decide))).trans hhbm,
    ((hend.parts .cmn (by decide)).trans (hslices.parts .cmn (by decide))).trans hcmn⟩

theorem releaseEnd_slices (s : State) (forced : Bool) (us : Nat) : (s.releaseEnd forced us).slices = [] :=
  (releaseEnd_kept_slices s forced us).slices (by decide)

/-- The release whose job runs in unit `j` ends; its job is not yet ended. -/
def State.releasedFor (s : State) (j : Nat) : State :=
  s.releaseEnd ((s.job j).fn == 0xFF) ((s.runClk - (s.job j).beganClk) / 1000)

theorem exec_releaseJobEnd (hjob : s.jobOf 0x0103 = some j) (hrun : s.frozen = false) :
    ∃ l, exec .releaseJobEnd s = .next (((s.releasedFor j).endJob j 0 0).jobsSucceed l) :=
  ⟨_, by
    change execReleaseJobEnd s = _
    simp only [execReleaseJobEnd, hjob, hrun, Bool.false_eq_true, if_false, State.releasedFor, State.jobsSucceed]
    rfl⟩

/-- RELEASE_JOB_END (R264, R282). -/
theorem releaseJobEnd_ends (hjob : s.jobOf 0x0103 = some j) (hrun : s.frozen = false) : Ends .releaseJobEnd s (fun t =>
    t.tenancy = 0 ∧ t.fld F.SLC_TEN_STATUS_DEBUG_CONSENT = 0 ∧ t.slices = [] ∧ t.mem.hbm = [] ∧ t.mem.cmn = [] ∧
    (t.job j).state = 3 ∧ (t.job j).final = 0) := by
  obtain ⟨l, hexec⟩ := exec_releaseJobEnd hjob hrun
  have hregs := (endJob_offEvents (s.releasedFor j) j 0 0).trans (jobsSucceed_offEvents _ l)
  have hkept := (endJob_kept (P := 100667457) _ j 0 0 (.refl (s.releasedFor j)) (by decide)).trans (jobsSucceed_kept _ l)
  have hdone := jobsSucceed_finished (l := l) (endJob_finished (s.releasedFor j) j 0 0)
  obtain ⟨hhbm, hcmn⟩ := releaseEnd_mem s ((s.job j).fn == 0xFF) ((s.runClk - (s.job j).beganClk) / 1000)
  refine ⟨_, hexec, ?_, ?_, ?_, (hkept.parts .hbm (by decide)).trans hhbm, (hkept.parts .cmn (by decide)).trans hcmn,
    hdone.state, hdone.final⟩
  · exact (hregs.fld (by decide)).trans ((releaseEnd_fld _ _ _ rfl).trans (tenancyCleared_tenancy _))
  · exact (hregs.fld (by decide)).trans ((releaseEnd_fld _ _ _ rfl).trans (tenancyCleared_consent _))
  · exact (hkept.slices (by decide)).trans (releaseEnd_slices _ _ _)

theorem debugConsentSet_answered (h : Asked s 0x0105 ups k v c) (harg : c.arg 8 1 ≤ 1) (hten : v.tenancy = 2) :
    Answered (.debugConsentSet ups) s ups k (v.setFld F.SLC_TEN_STATUS_DEBUG_CONSENT (c.arg 8 1)) 0 0 [] :=
  answered_of_body h rfl ((if_neg (by omega)).trans (if_neg (not_not.mpr hten)))

/-! ### A command in another tenancy state -/

theorem tenancyCommands_badState :
    (Asked s 0x0101 ups k v c → v.tenancy ≠ 0 → Answered (.tenancyAdmit ups) s ups k v 0x15 0 []) ∧
    (Asked s 0x0102 ups k v c → v.tenancy ≠ 1 → Answered (.tenancyClaim ups) s ups k v 0x15 0 []) ∧
    (Asked s 0x0103 ups k v c → v.tenancy ≠ 1 → v.tenancy ≠ 2 → Answered (.tenancyRelease ups) s ups k v 0x15 0 []) ∧
    (Asked s 0x0105 ups k v c → c.arg 8 1 ≤ 1 → v.tenancy ≠ 2 → Answered (.debugConsentSet ups) s ups k v 0x15 0 []) :=
  ⟨fun h hten => answered_of_body h rfl (if_pos (by simp [hten])),
    fun h hten => answered_of_body h rfl (if_pos hten),
    fun h h1 h2 => answered_of_body h rfl (if_pos (by simp [h1, h2])),
    fun h harg hten => answered_of_body h rfl ((if_neg (by omega)).trans (if_pos hten))⟩

/-! ### The grace time -/

theorem exec_forcedRelease (hten : s.tenancy = 2) (hgrace : s.gracePassed = true)
    (htdis : ∀ n, n ∈ s.tenancyVfs → s.tdi n ≠ 2) :
    exec .forcedRelease s = .next s.ownRelease :=
  if_pos (by simp [hten, hgrace]; exact htdis)

theorem exec_claimTimeout (hten : s.tenancy = 1) (hgrace : s.gracePassed = true) :
    exec .claimTimeout s = .next s.ownRelease := if_pos (by simp [hten, hgrace])

theorem exec_of_gracePending (hgrace : s.gracePassed = false) :
    exec .forcedRelease s = .next s ∧ exec .claimTimeout s = .next s :=
  ⟨if_neg (by simp [hgrace]), if_neg (by simp [hgrace])⟩

/-- Settles O35: each command and each end of a grace time by the registers it writes; the beginning of a release keeps a job
unit free, for it only ends jobs, and the ends of jobs leave the registers that the end of a release cleared. -/
theorem tenancyFollowsItsStates : Obligations.TenancyFollowsItsStates := by
  unfold Obligations.TenancyFollowsItsStates
  refine ⟨fun s v ups k c h hten hboot hrng hrec => ?_, fun s v ups k c h hten => ?_, fun s v ups k c h hten hlimit hfree => ?_,
    fun s v ups k c h harg hten => ?_, fun s v ups k c => tenancyCommands_badState,
    fun s j hjob hrun => releaseJobEnd_ends hjob hrun,
    fun s hnone => ?_, fun s hten hgrace htdis hfree => ⟨_, exec_forcedRelease hten hgrace htdis, ownRelease_shows s hfree⟩,
    fun s hten hgrace hfree => ⟨_, exec_claimTimeout hten hgrace, ownRelease_shows s hfree⟩,
    fun s hgrace => exec_of_gracePending hgrace⟩
  · obtain ⟨hgen, hlast, hlabel, htenant⟩ := tenancyAdmitted_sec v (sliceOf c.p 8 16)
    exact ⟨_, tenancyAdmit_answered h hten hboot hrng hrec, tenancyAdmitted_tenancy v _, tenancyAdmitted_key v _, hgen, hlast,
      hlabel, htenant, tenancyAdmitted_onlyIn v _⟩
  · exact ⟨_, tenancyClaim_answered h hten, tenancyClaimed_tenancy v k _, tenancyClaimed_vf v _ h.slot_le, rfl,
      tenancyClaimed_onlyIn v k _⟩
  · obtain ⟨j, hj⟩ := Option.isSome_iff_exists.mp (releaseBegin_freeUnit v hfree)
    have hfld := fun f => jobStarted_fld v.releaseBegin c 0 0 0 0 j f
    exact ⟨_, _, tenancyRelease_answered h hten hlimit hj, (hfld _).trans (releaseBegin_tenancy v),
      (hfld _).trans (releaseBegin_key v), (hfld _).trans (releaseBegin_scrub v).1, (hfld _).trans (releaseBegin_scrub v).2⟩
  · exact ⟨_, debugConsentSet_answered h harg hten, fld_setFld_fits _ (by decide) (by decide) (Nat.lt_succ_of_le harg),
      (setFld_kept (P := 1) (.refl v) _ _ (by decide)).onlyIn (fun p => by cases p <;> decide)⟩
  · change execReleaseJobEnd s = _
    simp only [execReleaseJobEnd, hnone]

end Sys2Proof.Machine
end

section
/-! SUPPORT. Changes of layout at their boundary (R176, R268 to R276): which changes act, what a create and a destroy leave of the
slice, and how a drained cluster passes on. -/

namespace Sys2Proof.Machine

variable {s t u : State} {n m st cycles base : Nat} {l : Layout} {c : Change}

/-! ### Registers of a slice -/

theorem pair_congr {A : Nat → Prop} (h : KeepsRegs A s t) {lo hi : Nat} (hlo : A lo) (hhi : A hi) :
    t.pair lo hi = s.pair lo hi := by
  unfold State.pair
  rw [h _ hlo, h _ hhi]

theorem setSlice_keepsRegs (s : State) (n st : Nat) :
    KeepsRegs (fun a => OffEvents a ∧ a ≠ R.SLC_S_STATE n) s (s.setSlice n st) :=
  keepsRegs_ite (.refl s) (((KeepsRegs.refl s).setFld (fun h => h.2 rfl) st).trans
    ((vfEvent_offEvents _ n 1).mono fun _ h => h.1))

theorem setSlice_sliceState (s : State) (hn : n ≤ 63) (hst : st < 256) : (s.setSlice n st).sliceState n = st := by
  unfold State.setSlice
  split
  next h => exact h
  next =>
    have hset : (s.setFld (F.SLC_S_STATE_STATE n) st).sliceState n = st :=
      fld_setFld_fits s (f := F.SLC_S_STATE_STATE n) (Nat.zero_le 7) (by show 7 < 32; decide) hst
    have hoff : OffEvents (R.SLC_S_STATE n) := by unfold R.SLC_S_STATE; omega
    exact (KeepsRegs.fld (vfEvent_offEvents _ n 1) hoff).trans hset

theorem regReset_sliceState (hn : n ≤ 63) : regReset (R.SLC_S_STATE n) = 0 := by
  have hall : ∀ i < 64, regReset (R.SLC_S_STATE i) = 0 := by decide
  exact hall n (Nat.lt_succ_of_le hn)

/-! ### Which changes act (R176) -/

/-- The layout change is due. -/
def State.layoutDue (s : State) (c : Change) : Bool := c.kind != 4 && decide (c.tick ≤ s.tickCount)

/-- The layout changes that are due are taken off the list. -/
def State.layoutTaken (s : State) : State :=
  { s with eng := { s.eng with changes := s.eng.changes.filter (fun c => !s.layoutDue c) } }

theorem exec_pendingLayoutApply (cycles : Nat) (hrun : s.frozen = false) : exec (.pendingLayoutApply cycles) s =
    .next ((s.eng.changes.filter s.layoutDue).foldl (fun s c => s.applyChange cycles c) s.layoutTaken) :=
  if_neg (by simp [hrun])

theorem not_layoutDue (s : State) (c : Change) : (!s.layoutDue c) = (c.kind == 4 || decide (s.tickCount < c.tick)) := by
  unfold State.layoutDue
  rw [Bool.not_and, bne, Bool.not_not, ← decide_not, decide_eq_decide.mpr Nat.not_le]

theorem applyChanges_eng (s : State) (cycles : Nat) (cs : List Change) :
    (cs.foldl (fun s c => s.applyChange cycles c) s).eng = s.eng :=
  (kept_foldl (P := 8430513089) (fun u c h => applyChange_kept u cycles c h (by decide)) (.refl s)).eng (by decide)

theorem pendingLayoutApply_takes (cycles : Nat) (hrun : s.frozen = false) : Ends (.pendingLayoutApply cycles) s (fun t =>
    t.eng.changes = s.eng.changes.filter (fun c => c.kind == 4 || decide (s.tickCount < c.tick))) := by
  refine ⟨_, exec_pendingLayoutApply cycles hrun, (congrArg Engine.changes (applyChanges_eng _ cycles _)).trans ?_⟩
  exact List.filter_congr fun c _ => not_layoutDue s c

/-- A due layout change that is the only change pending acts on what is left once it is taken. -/
theorem exec_pendingLayoutApply_one (cycles : Nat) (hrun : s.frozen = false) (hone : s.eng.changes = [c]) (hkind : c.kind ≠ 4)
    (hdue : c.tick ≤ s.tickCount) :
    exec (.pendingLayoutApply cycles) s = .next (s.layoutTaken.applyChange cycles c) := by
  have hc : s.layoutDue c = true := by simp [State.layoutDue, hkind, hdue]
  rw [exec_pendingLayoutApply cycles hrun, hone, List.filter_cons_of_pos hc, List.filter_nil, List.foldl_cons, List.foldl_nil]

theorem layoutTaken_one (hone : s.eng.changes = [c]) (hkind : c.kind ≠ 4) (hdue : c.tick ≤ s.tickCount) :
    s.layoutTaken.eng.changes = [] := by
  have hc : s.layoutDue c = true := by simp [State.layoutDue, hkind, hdue]
  change s.eng.changes.filter (fun c => !s.layoutDue c) = []
  rw [hone, List.filter_cons_of_neg (by simp [hc]), List.filter_nil]

/-! ### Create (Table 07-3) -/

/-- VF `n`'s slice takes its layout, its fault count starts again, and no boundary is pending. -/
def State.created (s : State) (n : Nat) (l : Layout) : State :=
  ((s.setLayout n l).setReg (R.FLT_VF_CNT n) 0).reshaped n

theorem created_clustersOf (s : State) (hn : n ≤ 63) (l : Layout) : (s.created n l).clustersOf n = l.clusters % 2 ^ 48 := by
  rw [← setLayout_clustersOf s n l]
  have hcnt : ¬ ClusterReg n (R.FLT_VF_CNT n) := by
    unfold ClusterReg R.SLC_S_CLUSTERS_LO R.SLC_S_CLUSTERS_HI R.FLT_VF_CNT
    omega
  exact clustersOf_congr (KeepsRegs.bump (KeepsRegs.setPair ((KeepsRegs.refl _).setReg hcnt 0) (by simp) (by simp) 0) (by simp))

theorem created_pending (s : State) (n : Nat) (l : Layout) :
    (s.created n l).pair (R.SLC_S_PENDING_LO n) (R.SLC_S_PENDING_HI n) = 0 := by
  unfold State.created State.reshaped State.bump State.addFld
  rw [pair_setFld_ne _ _ _ _ _ (by simp) (by simp), pair_setPair_self _ _ _ _ (by simp), Nat.zero_mod]

theorem created_kept (s : State) (n : Nat) (l : Layout) : Kept 1 s (s.created n l) :=
  reshaped_kept _ n (setReg_kept (setLayout_kept s n l (.refl s) (by decide)) _ _ (by decide)) (by decide)

/-- The slice of a VF that is created at `base`: empty, but for what an earlier slice's clearing holds. -/
def Slice.fresh (x : Slice) (base : Nat) : Slice :=
  { base := base, gone := x.gone, clearing := x.clearing, boundsAt := x.boundsAt }

theorem applyCreate_eq (s : State) (n : Nat) (l : Layout) (base : Nat) :
    s.applyCreate n l base = ((s.modSlice n (fun x => x.fresh base)).created n l).setSlice n 2 := rfl

theorem applyCreate_creates (s : State) (hn : n ≤ 63) (l : Layout) (base : Nat) : (s.applyCreate n l base).sliceState n = 2 ∧
    (s.applyCreate n l base).clustersOf n = l.clusters % 2 ^ 48 ∧ ((s.applyCreate n l base).slice n).base = base ∧
    (s.applyCreate n l base).pair (R.SLC_S_PENDING_LO n) (R.SLC_S_PENDING_HI n) = 0 ∧
    ((s.applyCreate n l base).slice n).map = [] := by
  rw [applyCreate_eq]
  have hregs := setSlice_keepsRegs ((s.modSlice n (fun x => x.fresh base)).created n l) n 2
  have hslice : ((((s.modSlice n (fun x => x.fresh base)).created n l).setSlice n 2).slice n) = (s.slice n).fresh base := by
    rw [setSlice_slice, slice_congr ((created_kept _ n l).slices (by decide)), slice_modSlice_self]
  refine ⟨setSlice_sliceState _ hn (by decide), ?_, by rw [hslice]; rfl, ?_, by rw [hslice]; rfl⟩
  · have hcluster : ∀ a, ClusterReg n a → OffEvents a ∧ a ≠ R.SLC_S_STATE n := fun a ha => by
      unfold ClusterReg R.SLC_S_CLUSTERS_LO R.SLC_S_CLUSTERS_HI at ha
      unfold R.SLC_S_STATE
      omega
    rw [clustersOf_congr (hregs.mono hcluster), created_clustersOf _ hn]
  · have hlo : OffEvents (R.SLC_S_PENDING_LO n) ∧ R.SLC_S_PENDING_LO n ≠ R.SLC_S_STATE n := by
      unfold R.SLC_S_PENDING_LO R.SLC_S_STATE; omega
    have hhi : OffEvents (R.SLC_S_PENDING_HI n) ∧ R.SLC_S_PENDING_HI n ≠ R.SLC_S_STATE n := by
      unfold R.SLC_S_PENDING_HI R.SLC_S_STATE; omega
    rw [pair_congr hregs hlo hhi, created_pending]

/-! ### Destroy (R276) -/

/-- VF `n` has no slice, and what it held stays held while it is cleared. -/
def State.unsliced (s : State) (n : Nat) (held : Layout) (base : Nat) : State :=
  (s.resetRegs (R.SLC_S_STATE n) (R.SLC_S_BOUNDS n)).modSlice n (fun _ => { gone := some (held, base), clearing := 8 })

/-- VF `n`'s slowdown is no longer measured. -/
def State.slowdownForgotten (s : State) (n : Nat) : State :=
  { s with sch := { s.sch with persist := fset (fun _ => 0) s.sch.persist n 0, sdPend := fset (fun _ => 0) s.sch.sdPend n 0 } }

/-- With the last LOST slice gone, the fault controller is NORMAL again. -/
def State.lossOver (s : State) : State := if s.fltState = 2 && !s.lostLeft then s.setFld F.FLT_STATUS_STATE 0 else s

theorem applyDestroy_eq (s : State) (n : Nat) : ∃ u held base,
    s.applyDestroy n = ((State.unsliced u n held base).slowdownForgotten n).lossOver.scrubAs 4 n := by
  unfold State.applyDestroy
  extract_lets l held base on s1 s2 s3 s4 s5 s6 s7
  exact ⟨_, held, base, rfl⟩

theorem lossOver_kept (s : State) : Kept 1 s s.lossOver := kept_ite (setFld_kept (.refl s) _ _ (by decide)) (.refl s)

theorem lossOver_keepsRegs (s : State) : KeepsRegs (· ≠ R.FLT_STATUS) s s.lossOver :=
  keepsRegs_ite ((KeepsRegs.refl s).setFld (by simp) 0) (.refl s)

theorem unsliced_sliceState (s : State) (hn : n ≤ 63) (held : Layout) (base : Nat) :
    (s.unsliced n held base).sliceState n = 0 := by
  have hreset : (s.resetRegs (R.SLC_S_STATE n) (R.SLC_S_BOUNDS n)).fld (F.SLC_S_STATE_STATE n) = 0 :=
    fld_resetRegs_zero s (Nat.le_refl _) (by show R.SLC_S_STATE n < R.SLC_S_BOUNDS n; simp) (regReset_sliceState hn)
  exact (fld_of_regs rfl _).trans hreset

theorem unsliced_slice (s : State) (n : Nat) (held : Layout) (base : Nat) :
    ((s.unsliced n held base).slowdownForgotten n).slice n = { gone := some (held, base), clearing := 8 } :=
  (slice_congr rfl n : _ = (s.unsliced n held base).slice n).trans (slice_modSlice_self _ n _)

/-- A VF whose slice is destroyed has none, and what it held is being cleared. -/
theorem applyDestroy_destroys (s : State) (hn : n ≤ 63) : (s.applyDestroy n).sliceState n = 0 ∧
    ((s.applyDestroy n).slice n).gone.isSome = true ∧ ((s.applyDestroy n).slice n).map = [] ∧
    ((s.applyDestroy n).slice n).clearing = 8 ∧ (s.applyDestroy n).fld F.SLC_SCRUB_KIND = 4 ∧
    (s.applyDestroy n).fld F.SLC_SCRUB_VF = n := by
  obtain ⟨u, held, base, h⟩ := applyDestroy_eq s n
  have hregs := lossOver_keepsRegs ((u.unsliced n held base).slowdownForgotten n)
  have hkept := lossOver_kept ((u.unsliced n held base).slowdownForgotten n)
  rw [h]
  have hslice : ((u.unsliced n held base).slowdownForgotten n).lossOver.slice n = { gone := some (held, base), clearing := 8 } :=
    (slice_congr (hkept.slices (by decide)) n).trans (unsliced_slice u n held base)
  have hscrub := slice_congr (scrubAs_slices ((u.unsliced n held base).slowdownForgotten n).lossOver 4 n) n
  have hstatus : R.SLC_S_STATE n ≠ R.SLC_SCRUB ∧ R.SLC_S_STATE n ≠ R.FLT_STATUS := by
    unfold R.SLC_S_STATE R.SLC_SCRUB R.FLT_STATUS; omega
  rw [hscrub, hslice]
  refine ⟨(scrubAs_fld _ 4 n hstatus.1).trans ((hregs.fld hstatus.2).trans ?_), rfl, rfl, rfl, scrubAs_kind _ n (by decide),
    scrubAs_vf _ 4 hn⟩
  exact (fld_of_regs rfl _).trans (unsliced_sliceState u hn held base)

/-! ### Drained clusters (R272) -/

/-- The clusters of VF `n`'s drain that still hold a context of it. -/
def State.drainLeft (s : State) (n : Nat) : Nat :=
  ((bitList (s.drainOf n) 48).filter (fun c =>
    (slotsOf c).any (fun k => match s.ctx k with | some x => x.vf == n | none => false))).foldl (fun m c => Nat.lor m (2 ^ c)) 0

/-- VF `n`'s drained clusters pass on. -/
def State.drainPassed (s : State) (n : Nat) : State :=
  if s.drainLeft n = s.drainOf n then s else (s.setDrain n (s.drainLeft n)).vfEvent n 5

theorem exec_drainClusterPass (hrun : s.frozen = false) : exec .drainClusterPass s =
    .next ((vfs.foldl State.drainPassed s).sliced.foldl State.placeAll (vfs.foldl State.drainPassed s)) := by
  change execDrainClusterPass s = _
  unfold execDrainClusterPass
  rw [if_neg (by simp [hrun])]
  rfl

theorem fget_eq_none {α : Type} {m : FMap (Option α)} (h : m.all (fun e => e.2.isNone) = true) (k : Nat) :
    fget (fun _ => none) m k = none := by
  induction m with
  | nil => rfl
  | cons e m ih =>
    obtain ⟨he, hm⟩ := Bool.and_eq_true_iff.mp h
    unfold fget
    split
    · exact Option.isNone_iff_eq_none.mp he
    · exact ih hm

theorem ctx_of_noContext (h : s.noContext = true) (k : Nat) : s.ctx k = none := fget_eq_none h k

theorem drainLeft_of_noContext (h : s.noContext = true) (n : Nat) : s.drainLeft n = 0 := by
  unfold State.drainLeft
  rw [List.filter_eq_nil_iff.mpr (fun c _ => ?_)]
  · rfl
  · simp [ctx_of_noContext h]

theorem drainPassed_kept (s : State) (n : Nat) : Kept 67108929 s (s.drainPassed n) :=
  kept_ite (.refl s) (vfEvent_kept _ n 5 (setDrain_kept s n _ (.refl s) (by decide)) (by decide))

theorem drainPassed_noContext (h : s.noContext = true) (n : Nat) : (s.drainPassed n).noContext = true := by
  unfold State.noContext
  rw [(drainPassed_kept s n).parts .yar (by decide)]
  exact h

/-- The two registers that hold the clusters draining out of VF `n`'s slice. -/
abbrev DrainReg (n a : Nat) : Prop := a = R.SLC_S_DRAIN_LO n ∨ a = R.SLC_S_DRAIN_HI n

theorem drainOf_congr (h : KeepsRegs (DrainReg n) s t) : t.drainOf n = s.drainOf n := by
  unfold State.drainOf
  rw [pair_congr h (.inl rfl) (.inr rfl)]

theorem event_drainReg (hn : n ≤ 63) (s : State) (k b : Nat) : KeepsRegs (DrainReg n) s (s.vfEvent k b) :=
  (vfEvent_offEvents s k b).mono fun a ha => by
    unfold DrainReg R.SLC_S_DRAIN_LO R.SLC_S_DRAIN_HI at ha
    omega

/-- With no context left to wait for, VF `n`'s clusters have passed on. -/
theorem drainPassed_drainOf_self (h : s.noContext = true) (hn : n ≤ 63) : (s.drainPassed n).drainOf n = 0 := by
  have hleft := drainLeft_of_noContext h n
  unfold State.drainPassed
  split
  next hsame => rw [← hsame, hleft]
  next =>
    rw [drainOf_congr (event_drainReg hn _ n 5), hleft, State.drainOf, State.setDrain, pair_setPair_self _ _ _ _ (by simp),
      Nat.zero_mod, Nat.zero_mod]

theorem drainPassed_drainOf_ne (s : State) (hm : m ≤ 63) (hne : m ≠ n) : (s.drainPassed n).drainOf m = s.drainOf m := by
  have hlo : ¬ DrainReg m (R.SLC_S_DRAIN_LO n) := by unfold DrainReg R.SLC_S_DRAIN_LO R.SLC_S_DRAIN_HI; omega
  have hhi : ¬ DrainReg m (R.SLC_S_DRAIN_HI n) := by unfold DrainReg R.SLC_S_DRAIN_LO R.SLC_S_DRAIN_HI; omega
  exact drainOf_congr (keepsRegs_ite (.refl s) (((KeepsRegs.refl s).setPair hlo hhi _).trans (event_drainReg hm _ n 5)))

/-- After the pass over `ns`, no cluster drains out of a slice of `ns` or out of one that had none draining. -/
theorem drainsPassed_drainOf (ns : List Nat) (h : s.noContext = true) (hm : m ≤ 63) (hzero : m ∈ ns ∨ s.drainOf m = 0) :
    (ns.foldl State.drainPassed s).drainOf m = 0 := by
  induction ns generalizing s with
  | nil => exact hzero.resolve_left (List.not_mem_nil)
  | cons n ns ih =>
    refine ih (drainPassed_noContext h n) ?_
    by_cases hmn : m = n
    · exact .inr (hmn ▸ drainPassed_drainOf_self h (hmn ▸ hm))
    · rw [drainPassed_drainOf_ne s hm hmn]
      exact hzero.imp_left fun hmem => (List.mem_cons.mp hmem).resolve_left hmn

theorem placeEach_regs (s : State) (ns : List Nat) : (ns.foldl State.placeAll s).regs = s.regs :=
  (kept_foldl (P := 262144) (fun u n h => placeAll_kept u n h (by decide)) (.refl s)).regs_eq (by decide)

theorem drainClusterPass_ends (hrun : s.frozen = false) (h : s.noContext = true) : Ends .drainClusterPass s (fun t =>
    (∀ n, 1 ≤ n → n ≤ 63 → t.drainOf n = 0) ∧ OnlyIn [.regs, .exm, .yar, .out] s t) := by
  have hexec := exec_drainClusterPass hrun
  have hkept : Kept 67371073 s _ := (execDrainClusterPass_kept s (.refl s) (by decide)).kept hexec
  refine ⟨_, hexec, fun n h1 h63 => ?_, hkept.onlyIn (fun p => by cases p <;> decide)⟩
  rw [drainOf_congr (KeepsRegs.of_regs (.refl _) (placeEach_regs _ _))]
  exact drainsPassed_drainOf vfs h h63 (.inl (mem_vfs h1 h63))

theorem applyChange_create (s : State) (cycles n tick hyper b : Nat) (l : Layout) :
    s.applyChange cycles ⟨1, n, tick, l, hyper, b⟩ = s.applyCreate n l b := by
  simp only [State.applyChange]

theorem applyChange_destroy (s : State) (cycles n tick hyper b : Nat) (l : Layout) :
    s.applyChange cycles ⟨3, n, tick, l, hyper, b⟩ = s.applyDestroy n := by
  simp only [State.applyChange]

theorem frozen_nothing (cycles : Nat) (hfrozen : s.frozen = true) :
    exec (.pendingLayoutApply cycles) s = .next s ∧ exec .drainClusterPass s = .next s := ⟨if_pos hfrozen, if_pos hfrozen⟩

theorem pendingLayoutApply_creates {cycles n tick hyper b : Nat} {l : Layout} (hn : n ≤ 63) (hrun : s.frozen = false)
    (hdue : tick ≤ s.tickCount) (hone : s.eng.changes = [⟨1, n, tick, l, hyper, b⟩]) :
    Ends (.pendingLayoutApply cycles) s (fun t =>
      t.sliceState n = 2 ∧ t.clustersOf n = l.clusters % 2 ^ 48 ∧ (t.slice n).base = b ∧
      t.pair (R.SLC_S_PENDING_LO n) (R.SLC_S_PENDING_HI n) = 0 ∧ (t.slice n).map = [] ∧ t.eng.changes = []) := by
  have hexec := exec_pendingLayoutApply_one cycles hrun hone (by simp) hdue
  rw [applyChange_create] at hexec
  have heng := (applyCreate_kept (P := 67125313) s.layoutTaken n l b (.refl _) (by decide)).eng (by decide)
  obtain ⟨hstate, hclusters, hbase, hpending, hmap⟩ := applyCreate_creates s.layoutTaken hn l b
  exact ⟨_, hexec, hstate, hclusters, hbase, hpending, hmap,
      (congrArg Engine.changes heng).trans (layoutTaken_one hone (by simp) hdue)⟩

theorem pendingLayoutApply_destroys {cycles n tick hyper b : Nat} {l : Layout} (hn : n ≤ 63) (hrun : s.frozen = false)
    (hdue : tick ≤ s.tickCount) (hone : s.eng.changes = [⟨3, n, tick, l, hyper, b⟩]) :
    Ends (.pendingLayoutApply cycles) s (fun t =>
      t.sliceState n = 0 ∧ (t.slice n).gone.isSome = true ∧ (t.slice n).map = [] ∧ (t.slice n).clearing = 8 ∧
      t.fld F.SLC_SCRUB_KIND = 4 ∧ t.fld F.SLC_SCRUB_VF = n) := by
  have hexec := exec_pendingLayoutApply_one cycles hrun hone (by simp) hdue
  rw [applyChange_destroy] at hexec
  exact ⟨_, hexec, applyDestroy_destroys s.layoutTaken hn⟩

/-- Settles O37: the list by what is due, a create and a destroy by the slice and the registers they write, a drain by an
induction over the VFs it passes. -/
theorem layoutsChangeAtTheBoundary : Obligations.LayoutsChangeAtTheBoundary :=
  ⟨fun cycles _ hrun => pendingLayoutApply_takes cycles hrun,
    fun _ _ _ _ _ _ _ _ h63 hrun hdue hone => pendingLayoutApply_creates h63 hrun hdue hone,
    fun _ _ _ _ _ _ _ _ h63 hrun hdue hone => pendingLayoutApply_destroys h63 hrun hdue hone,
    fun _ hrun h => drainClusterPass_ends hrun h, fun cycles _ hfrozen => frozen_nothing cycles hfrozen⟩

end Sys2Proof.Machine
end

section
/-! SUPPORT. Models (R187, R188, R310 to R319) and ATTEST (R206, R322 to R324): what starting, ending and failing a load or an
unload leaves, and the bytes of a buffer that a command fills. -/

namespace Sys2Proof.Machine

variable {s t v : State} {c : Call} {j k : Nat} {ups : Upsets} {r : PkgRead} {e : LoadFail} {h : List Byte}

/-! ### The frames of a model -/

theorem Kept.memModel {P : Nat} (h : Kept P s t) (hP : P.testBit Part.mem.bit = false) : t.mem.model = s.mem.model :=
  have hmem : { t.mem with cmn := [], hbm := [] } = { s.mem with cmn := [], hbm := [] } := h.parts .mem hP
  (congrArg Memory.model hmem :)

theorem Kept.memPlaced {P : Nat} (h : Kept P s t) (hP : P.testBit Part.mem.bit = false) : t.mem.placed = s.mem.placed :=
  have hmem : { t.mem with cmn := [], hbm := [] } = { s.mem with cmn := [], hbm := [] } := h.parts .mem hP
  (congrArg Memory.placed hmem :)

theorem dropModel_model (s : State) : s.dropModel.mem.model = [] := by
  unfold State.dropModel
  dsimp only

theorem finishSliceMem_model (s : State) (n : Nat) : (s.finishSliceMem n).mem.model = s.mem.model := by
  unfold State.finishSliceMem
  dsimp only
  generalize (s.mem.frames.filter (fun e => e.2 == 64 + n)).map (fun e => e.1) = fs
  induction fs generalizing s with
  | nil => rfl
  | cons f fs ih => exact ih _

/-! ### MODEL_LOAD and MODEL_UNLOAD (R187, R188) -/

/-- A load begins: MODEL is loading, and nothing is placed yet. -/
def State.loadBegun (s : State) : State :=
  let s1 := (s.setModel 1).setFld F.SEC_STATUS_LOAD_ACTIVE 1
  { s1 with sec := { s1.sec with decodeBad := false, loadHash := [], loadOut := 0 } }

theorem loadBegun_fld (s : State) (f : Fld) : s.loadBegun.fld f = ((s.setModel 1).setFld F.SEC_STATUS_LOAD_ACTIVE 1).fld f := by
  have hregs : s.loadBegun.regs = ((s.setModel 1).setFld F.SEC_STATUS_LOAD_ACTIVE 1).regs := by
    unfold State.loadBegun
    dsimp only
  exact fld_of_regs hregs f

theorem loadBegun_model (s : State) : s.loadBegun.model = 1 := by
  unfold State.model
  rw [loadBegun_fld, fld_setFld_ne _ _ _ _ (by decide)]
  exact setModel_model s (by decide)

theorem loadBegun_loadActive (s : State) : s.loadBegun.fld F.SEC_STATUS_LOAD_ACTIVE = 1 := by
  rw [loadBegun_fld, fld_setFld_fits _ (by decide) (by decide) (by decide)]

theorem loadBegun_kept (s : State) : Kept 67141697 s s.loadBegun :=
  Kept.set_sec (setFld_kept (setModel_kept s 1 (.refl s) (by decide)) _ _ (by decide)) _ (by decide)

theorem modelLoad_answered (h : Asked s 0x0401 ups k v c) (halign : c.arg 8 8 % 64 = 0) (hlen1 : 1 ≤ c.arg 16 8)
    (hlen : c.arg 16 8 ≤ 2 ^ 40) (hten : v.tenancy = 2) (hmodel : v.model = 0) (hlimit : v.jobLimit k = false)
    (hj : v.freeUnit = some j) : Answered (.modelLoad ups) s ups k
      (v.loadBegun.jobStarted c (c.arg 16 8) (c.arg 8 8) (c.arg 16 8) c.fn j) 1 0 (leBytes 2 (v.loadBegun.nextJob c.fn)) := by
  have hfree : v.loadBegun.freeUnit = some j := (freeUnit_congr ((loadBegun_kept v).units (by decide))).trans hj
  refine answered_of_body h rfl ((if_neg (not_not.mpr halign)).trans ((if_neg ?_).trans ((if_neg ?_).trans ((if_neg ?_).trans
    (startJob_of_free hfree c (c.arg 16 8) (c.arg 8 8) (c.arg 16 8) c.fn)))))
  · simp; omega
  · simp [hten, hmodel]
  · rw [h.fn, hlimit]; decide

/-- An unload begins: Teasel's steps are dropped, MODEL is unloading, the measurements read zero, the model's frames are free. -/
def State.unloadBegun (s : State) : State := ((s.unloadTeasel.setModel 3).clearModelRegs.dropModel).scrubAs 3 0

theorem unloadBegun_kept_model (s : State) : Kept 1 (s.unloadTeasel.setModel 3).clearModelRegs.dropModel s.unloadBegun := by
  unfold State.unloadBegun State.scrubAs
  repeat refine setFld_kept ?_ _ _ (by decide)
  exact .refl _

theorem unloadBegun_model (s : State) : s.unloadBegun.model = 3 := by
  unfold State.model State.unloadBegun
  rw [scrubAs_fld _ _ _ (by decide), fld_of_regs ((dropModel_kept (P := 65536) _ (.refl _) (by decide)).regs_eq (by decide)),
    clearModelRegs_fld _ (by decide) (by decide)]
  exact setModel_model _ (by decide)

theorem clearModelRegs_digest (s : State) {i : Nat} (hi : i < 12) : s.clearModelRegs.reg (R.SEC_MODEL_DIGEST i) = 0 := by
  have hreset : ∀ i < 12, regReset (R.SEC_MODEL_DIGEST i) = 0 := by decide
  have haddr : R.SEC_MODEL_DIGEST i ≠ R.SEQ_STATUS := by unfold R.SEC_MODEL_DIGEST R.SEQ_STATUS; omega
  have hin : R.SEC_MODEL_DIGEST 0 ≤ R.SEC_MODEL_DIGEST i ∧ R.SEC_MODEL_DIGEST i < R.SEC_MODEL_SIZE_HI + 4 := by
    unfold R.SEC_MODEL_DIGEST R.SEC_MODEL_SIZE_HI; omega
  have hrange := reg_resetRegs s (R.SEC_MODEL_DIGEST 0) (R.SEC_MODEL_SIZE_HI + 4) (R.SEC_MODEL_DIGEST i)
  rw [if_pos hin, hreset i hi] at hrange
  unfold State.clearModelRegs
  exact (reg_setFld_ne _ F.SEQ_STATUS_MANIFEST 0 _ haddr).trans hrange

theorem unloadBegun_digest (s : State) {i : Nat} (hi : i < 12) : s.unloadBegun.reg (R.SEC_MODEL_DIGEST i) = 0 := by
  have haddr : R.SEC_MODEL_DIGEST i ≠ R.SLC_SCRUB := by unfold R.SEC_MODEL_DIGEST R.SLC_SCRUB; omega
  have hdrop := (dropModel_kept (P := 65536) (s.unloadTeasel.setModel 3).clearModelRegs (.refl _) (by decide)).regs_eq (by decide)
  unfold State.unloadBegun
  rw [scrubAs_reg _ _ _ haddr, State.reg, hdrop]
  exact clearModelRegs_digest _ hi

theorem unloadBegun_frames (s : State) : s.unloadBegun.mem.model = [] :=
  ((unloadBegun_kept_model s).memModel (by decide)).trans (dropModel_model _)

theorem unloadBegun_freeUnit (s : State) : s.unloadBegun.freeUnit = s.freeUnit := by
  have hkept : Kept 7350381505 s (s.unloadTeasel.setModel 3).clearModelRegs.dropModel :=
    dropModel_kept _ (clearModelRegs_kept _ (setModel_kept _ 3 (unloadTeasel_kept s (.refl s) (by decide)) (by decide))
      (by decide)) (by decide)
  exact freeUnit_congr (((unloadBegun_kept_model s).units (by decide)).trans (hkept.units (by decide)))

theorem modelUnload_answered (h : Asked s 0x0402 ups k v c) (hmodel : v.model = 2) (hlimit : v.jobLimit k = false)
    (hj : v.unloadBegun.freeUnit = some j) : Answered (.modelUnload ups) s ups k
      (v.unloadBegun.jobStarted c 0 0 0 0 j) 1 0 (leBytes 2 (v.unloadBegun.nextJob c.fn)) := by
  refine answered_of_body h rfl ((if_neg (not_not.mpr hmodel)).trans ((if_neg ?_).trans (startJob_of_free hj c 0 0 0 0)))
  rw [h.fn, hlimit]; decide

/-! ### The end of a load (R311, R312, R317 to R319) -/

/-- What a failed load placed is dropped. -/
def State.loadDropped (s : State) (j : Nat) (e : LoadFail) : State :=
  let s1 := if e.check = 6 || e.check = 7 || (e.check = 9 && e.crypto != 0) then s.sealReject e.crypto 3 else s
  let s2 := (s1.dropModel.finishSliceMem 0).setFld F.SEC_STATUS_LOAD_ACTIVE 0
  s2.dropBlocks (s2.job j).fn (fun b => b.cls == 5)

theorem loadFailed_eq (s : State) (j : Nat) (e : LoadFail) : s.loadFailed j e =
    ((s.loadDropped j e).setModel 0).endJob j e.status (e.check * 2 ^ 24 + e.crypto * 2 ^ 16) := by
  unfold State.loadFailed State.loadDropped
  dsimp only

/-- The registers and frames of a failed load, before MODEL is none. -/
theorem loadDropped_drops (s : State) (j : Nat) (e : LoadFail) :
    (s.loadDropped j e).mem.model = [] ∧ (s.loadDropped j e).fld F.SEC_STATUS_LOAD_ACTIVE = 0 := by
  unfold State.loadDropped
  dsimp only
  generalize (if e.check = 6 || e.check = 7 || (e.check = 9 && e.crypto != 0) then s.sealReject e.crypto 3 else s) = u
  have hblocks := fun w fn => dropBlocks_kept (P := 67633152) w fn (fun b => b.cls == 5) (.refl w) (by decide)
  constructor
  · rw [(hblocks _ _).memModel (by decide), setFld_mem, finishSliceMem_model, dropModel_model]
  · rw [fld_of_regs ((hblocks _ _).regs_eq (by decide)), fld_setFld_zero _ (by decide) (by decide)]

/-- A failed load leaves MODEL none, no frame held by a model, and no load active. -/
theorem loadFailed_leaves (s : State) (j : Nat) (e : LoadFail) :
    (s.loadFailed j e).model = 0 ∧ (s.loadFailed j e).mem.model = [] ∧
    (s.loadFailed j e).fld F.SEC_STATUS_LOAD_ACTIVE = 0 := by
  obtain ⟨hframes, hactive⟩ := loadDropped_drops s j e
  have hregs := endJob_offEvents ((s.loadDropped j e).setModel 0) j e.status (e.check * 2 ^ 24 + e.crypto * 2 ^ 16)
  have hkept : Kept 100667457 (s.loadDropped j e) (s.loadFailed j e) := by
    rw [loadFailed_eq]
    exact endJob_kept _ _ _ _ (setModel_kept _ 0 (.refl _) (by decide)) (by decide)
  rw [← loadFailed_eq] at hregs
  refine ⟨(hregs.fld (by decide)).trans (setModel_model _ (by decide)), (hkept.memModel (by decide)).trans hframes,
    (hregs.fld (by decide)).trans ((setModel_fld _ 0 (by decide) (by decide)).trans hactive)⟩

theorem exec_modelLoadJobEnd_fails (hjob : s.jobOf 0x0401 = some j) (hrun : s.frozen = false)
    (hcheck : s.loadCheck (s.job j).b r = .inl e) : exec (.modelLoadJobEnd r) s = .next (s.loadFailed j e) := by
  change execModelLoadJobEnd r s = _
  simp only [execModelLoadJobEnd, hjob, hrun, hcheck, Bool.false_eq_true, if_false]

/-- The measurements of the package whose header is `h` are recorded. -/
def State.loadMeasured (s : State) (h : List Byte) : State :=
  ((s.putRegs (R.SEC_MODEL_DIGEST 0) 12 (sliceOf h 0xA8 48)).putRegs (R.SEC_MODEL_ID 0) 4 (sliceOf h 0x10 16)).putRegs
    R.SEC_MODEL_SIZE_LO 2 (sliceOf h 0x20 8)

/-- The package's digests and its size are recorded. -/
def State.loadPlaced (s : State) (h : List Byte) : State :=
  { s with
    sec := { s.sec with
      headerDigest := Config.sha384 h
      signerDigest := if tst (leAt h 6 2) 0 then Config.sha384 (sliceOf h 0xE0 96) else [] }
    mem := { s.mem with placed := leAt h 0x20 8, reserved := 0 } }

theorem loadDone_eq (s : State) (j : Nat) (h : List Byte) : s.loadDone j h =
    ((((s.loadMeasured h).loadPlaced h).setFld F.SEC_STATUS_LOAD_ACTIVE 0).setModel 2).endJob j 0 0 := by
  unfold State.loadDone
  extract_lets s1 s2
  exact rfl

theorem loadDone_leaves (s : State) (j : Nat) (h : List Byte) : (s.loadDone j h).model = 2 ∧
    (s.loadDone j h).fld F.SEC_STATUS_LOAD_ACTIVE = 0 ∧ (s.loadDone j h).sec.headerDigest = Config.sha384 h ∧
    (s.loadDone j h).mem.placed = leAt h 0x20 8 := by
  rw [loadDone_eq]
  have hregs := endJob_offEvents ((((s.loadMeasured h).loadPlaced h).setFld F.SEC_STATUS_LOAD_ACTIVE 0).setModel 2) j 0 0
  have hkept : Kept 100667457 ((s.loadMeasured h).loadPlaced h)
      (((((s.loadMeasured h).loadPlaced h).setFld F.SEC_STATUS_LOAD_ACTIVE 0).setModel 2).endJob j 0 0) :=
    endJob_kept _ j 0 0 (setModel_kept _ 2 (setFld_kept (.refl _) _ _ (by decide)) (by decide)) (by decide)
  refine ⟨(hregs.fld (by decide)).trans (setModel_model _ (by decide)),
    (hregs.fld (by decide)).trans ((setModel_fld _ 2 (by decide) (by decide)).trans (fld_setFld_zero _ (by decide) (by decide))),
    ?_, hkept.memPlaced (by decide)⟩
  exact (congrArg Trust.headerDigest (hkept.parts .sec (by decide)) :)

theorem exec_modelLoadJobEnd_succeeds (hjob : s.jobOf 0x0401 = some j) (hrun : s.frozen = false)
    (hcheck : s.loadCheck (s.job j).b r = .inr h) (hsome : s.sec.loadHash ≠ []) (hgood : s.sec.decodeBad = false)
    (hout : s.sec.loadOut = leAt h 0x20 8) (hhash : s.sec.loadHash = sliceOf h 0xA8 48) :
    exec (.modelLoadJobEnd r) s = .next (s.loadDone j h) := by
  have hnot : ¬ (s.sec.decodeBad || s.sec.loadOut ≠ leAt h 0x20 8 || s.sec.loadHash ≠ sliceOf h 0xA8 48) = true := by
    simp [hgood, hout, hhash]
  have hempty : ¬ s.sec.loadHash.isEmpty = true := by simpa using hsome
  change execModelLoadJobEnd r s = _
  simp only [execModelLoadJobEnd, hjob, hrun, hcheck, Bool.false_eq_true, if_false]
  rw [if_neg hempty]
  exact if_neg hnot

/-! ### The end of an unload (R188) -/

theorem modelUnloadJobEnd_ends (hjob : s.jobOf 0x0402 = some j) (hrun : s.frozen = false) : Ends .modelUnloadJobEnd s (fun t =>
    t.model = 0 ∧ t.fld F.SLC_SCRUB_ACTIVE = 0 ∧ (t.job j).state = 3 ∧ (t.job j).final = 0) := by
  have hexec : exec .modelUnloadJobEnd s =
      .next ((((s.finishSliceMem 0).setFld F.SLC_SCRUB_ACTIVE 0).setModel 0).endJob j 0 0) := by
    change execModelUnloadJobEnd s = _
    simp only [execModelUnloadJobEnd, hjob, hrun, Bool.false_eq_true, if_false]
  have hregs := endJob_offEvents (((s.finishSliceMem 0).setFld F.SLC_SCRUB_ACTIVE 0).setModel 0) j 0 0
  have hdone := endJob_finished (((s.finishSliceMem 0).setFld F.SLC_SCRUB_ACTIVE 0).setModel 0) j 0 0
  exact ⟨_, hexec, (hregs.fld (by decide)).trans (setModel_model _ (by decide)),
    (hregs.fld (by decide)).trans ((setModel_fld _ 0 (by decide) (by decide)).trans (fld_setFld_zero _ (by decide) (by decide))),
    hdone.state, hdone.final⟩

/-! ### ATTEST -/

/-- The bytes that a command puts in a buffer stand there. -/
theorem bufferPut_exmBytes (s : State) (a : Nat) (d : List Byte) : (s.bufferPut a d).exmBytes a d.length = d := by
  have hfit : fitTo ((d.length + 7) / 8 * 8) d = d ++ fitTo ((d.length + 7) / 8 * 8 - d.length) [] := by
    rw [← fitTo_append (by omega), List.append_nil]
  refine exmBytes_eq_of_getD fun i hi => ?_
  have hput : (s.bufferPut a d).exmByte (a + i) = (s.exmPut a (fitTo ((d.length + 7) / 8 * 8) d)).exmByte (a + i) := rfl
  rw [hput, exmPut_exmByte, length_fitTo, if_pos (by omega), Nat.add_sub_cancel_left, hfit, List.getD_append _ _ _ _ hi]

theorem bufferPut_onlyIn (s : State) (a : Nat) (d : List Byte) : OnlyIn [.exm, .exmMem] s (s.bufferPut a d) :=
  (bufferPut_kept (P := 1073741888) s a d (.refl s) (by decide)).onlyIn (fun p => by cases p <;> decide)

theorem attest_refused {len : Nat} (h : Asked s 0x0901 ups k v c) (hlen : len = 0x340 + 0x80 * v.sliced.length + 96)
    (hroom : len ≤ c.arg 0x2C 4) (hbuf : v.bufferOk k (c.arg 0x28 4) len = true)
    (hsign : Config.signIk (Config.sha384 (v.report k (sliceOf c.p 8 32))) = none) :
    Answered (.attest ups) s ups k v 0x31 0 [] := by
  obtain rfl := h.fn
  subst hlen
  refine answered_of_body h rfl ((if_neg (by omega)).trans ((if_neg (by simp [hbuf])).trans ?_))
  simp only [hsign]
  rfl

theorem attest_signed {len : Nat} {sig : List Byte} (h : Asked s 0x0901 ups k v c)
    (hlen : len = 0x340 + 0x80 * v.sliced.length + 96) (hroom : len ≤ c.arg 0x2C 4)
    (hbuf : v.bufferOk k (c.arg 0x28 4) len = true)
    (hsign : Config.signIk (Config.sha384 (v.report k (sliceOf c.p 8 32))) = some sig) :
    Answered (.attest ups) s ups k (v.bufferPut (c.arg 0x28 4) (v.report k (sliceOf c.p 8 32) ++ fitTo 96 sig)) 0 0
      (leBytes 4 len) := by
  obtain rfl := h.fn
  subst hlen
  refine answered_of_body h rfl ((if_neg (by omega)).trans ((if_neg (by simp [hbuf])).trans ?_))
  simp only [hsign]
  rfl

/-- Settles O42: a job that starts is found by its opcode, a job's end leaves the registers that MODEL and the load show, and the
report stands in the buffer as it was put there. -/
theorem modelsAndReports : Obligations.ModelsAndReports := by
  unfold Obligations.ModelsAndReports
  refine ⟨fun s v ups k c h halign h1 hlen hten hmodel hlimit hfree => ?_, fun s v ups k c h hmodel hlimit hfree => ?_,
    fun r s j e hjob hrun hcheck => ?_, fun r s j h hjob hrun hcheck hsome hgood hout hhash => ?_,
    fun s j hjob hrun => modelUnloadJobEnd_ends hjob hrun,
    fun s v ups k len c h hlen hroom hbuf => ⟨attest_refused h hlen hroom hbuf, fun sig d hsign hd => ?_⟩⟩
  · obtain ⟨j, hj⟩ := Option.isSome_iff_exists.mp hfree
    have hfld := fun f => jobStarted_fld v.loadBegun c (c.arg 16 8) (c.arg 8 8) (c.arg 16 8) c.fn j f
    have hone : OnlyIn [.regs, .exm, .eng, .sec, .out] v v.loadBegun :=
      (loadBegun_kept v).onlyIn (fun p => by cases p <;> decide)
    have hfound := jobStarted_jobOf v.loadBegun c (c.arg 16 8) (c.arg 8 8) (c.arg 16 8) c.fn (freeUnit_lt hj)
    rw [h.arg_opcode] at hfound
    exact ⟨_, _, modelLoad_answered h halign h1 hlen hten hmodel hlimit hj, (hfld _).trans (loadBegun_model v),
      (hfld _).trans (loadBegun_loadActive v), hfound, hone.trans ((jobStarted_onlyIn _ _ _ _ _ _ _).mono (by decide))⟩
  · rw [← unloadBegun_freeUnit] at hfree
    obtain ⟨j, hj⟩ := Option.isSome_iff_exists.mp hfree
    have hfld := fun f => jobStarted_fld v.unloadBegun c 0 0 0 0 j f
    have hkept := jobStarted_kept v.unloadBegun c 0 0 0 0 j
    have hfound := jobStarted_jobOf v.unloadBegun c 0 0 0 0 (freeUnit_lt hj)
    rw [h.arg_opcode] at hfound
    exact ⟨_, _, modelUnload_answered h hmodel hlimit hj, (hfld _).trans (unloadBegun_model v),
      (hkept.memModel (by decide)).trans (unloadBegun_frames v), fun i hi => (jobStarted_reg ..).trans (unloadBegun_digest v hi),
      (hfld _).trans (scrubAs_kind _ 0 (by decide)), hfound⟩
  · obtain ⟨hmodel, hframes, hactive⟩ := loadFailed_leaves s j e
    have hdone := endJob_finished ((s.loadDropped j e).setModel 0) j e.status (e.check * 2 ^ 24 + e.crypto * 2 ^ 16)
    rw [← loadFailed_eq] at hdone
    exact ⟨_, exec_modelLoadJobEnd_fails hjob hrun hcheck, hmodel, hframes, hactive, hdone.state, hdone.final, hdone.detail⟩
  · obtain ⟨hmodel, hactive, hdigest, hplaced⟩ := loadDone_leaves s j h
    have hdone := endJob_finished ((((s.loadMeasured h).loadPlaced h).setFld F.SEC_STATUS_LOAD_ACTIVE 0).setModel 2) j 0 0
    rw [← loadDone_eq] at hdone
    exact ⟨_, exec_modelLoadJobEnd_succeeds hjob hrun hcheck hsome hgood hout hhash, hmodel, hactive, hdigest, hdone.state,
      hdone.final, hplaced⟩
  · have hanswer := attest_signed (ups := ups) h hlen hroom hbuf hsign
    rw [← hd] at hanswer
    exact ⟨_, hanswer, bufferPut_exmBytes v (c.arg 0x28 4) d, bufferPut_onlyIn v (c.arg 0x28 4) d⟩

end Sys2Proof.Machine
end
